-- ==== Sys2Proof/Word.lean ====
section
/-!
DEFINITION. The word of the register map (00 R8: 32-bit words, numbered by word address), a field of a register, and the plainest arithmetic
on whole numbers that several chapters use.
-/

namespace Sys2Proof.Machine

/-- A register word (00 R8: words are 32 bits). -/
abbrev Word := BitVec 32

/-- A byte of flash or of a message. -/
abbrev Byte := BitVec 8

/-- A register field: the word address of its register, its lowest bit and its width (00 R6, the field tables of the chapters). -/
structure Field where
  word : Nat
  lo : Nat
  width : Nat
  deriving DecidableEq, Repr

/-- The absolute value of a whole number, as a natural number. -/
abbrev absNat (x : Int) : Nat := x.natAbs

end Sys2Proof.Machine
end

