-- ==== Sys2Proof/Types.lean ====
section
/-!
DEFINITION. The types of the commands' operands: what the outside of the block brings to a step (which port, which initiator, what a converter
delivered, what a message held). Times on the sample grid are natural numbers in 1/8 ns (08 R212: every grid instant is exact in them).
-/

namespace Sys2Proof.Machine

/-- The two network ports (02 R36). -/
inductive Port where
  | a | b
  deriving DecidableEq, Repr, Inhabited

/-- The processor initiators of 17 R429: SUP, NET, ANA0, ANA1's analysis firmware and ANA1's user partition. -/
inductive Proc where
  | sup | net | ana0 | ana1 | user
  deriving DecidableEq, Repr, Inhabited

/-- What the power die measures at its contacts when a command runs (02 R64): the port voltages in 10 mV and the pass-through current magnitudes in mA as the
outside brings them, the energy in the hold-up store in 0.1 mJ and the input power in mW (log entry 34). -/
structure Meter where
  vA : Nat := 0
  vB : Nat := 0
  iA : Nat := 0
  iB : Nat := 0
  holdup : Nat := 0
  pin : Nat := 0
  deriving DecidableEq, Repr, Inhabited

/-- The regions of the controller-die SRAM (01 R23). -/
inductive Sram where
  | landing | sup | net | switch | mill | control | ana0 | ana1
  deriving DecidableEq, Repr, Inhabited

/-- What an access on the internal bus is aimed at (17 R430, 18 R458): the key store, flash controller, Tally loader, Coppice state, power control or the world map
itself; a region of the SRAM; ANA1's mailbox; the user partition half; a Deck region; or a word of the register window. -/
inductive BusTarget where
  | fixed
  | sram (x : Sram)
  | mailbox
  | partition
  | deck (g : Fin 16)
  | register
  deriving DecidableEq, Repr, Inhabited

/-- Who makes a register access (18 R459): a processor on the internal bus, the service serial port, or the management session of host h of the
running Tally's host list. -/
inductive Initiator where
  | proc (p : Proc)
  | ssp
  | host (h : Nat)
  deriving DecidableEq, Repr, Inhabited

/-- What the boot ROM finds when it verifies the two firmware halves (16 R406, 17 R440): whether image A and image B verify. -/
structure Boot where
  okA : Bool
  okB : Bool
  deriving DecidableEq, Repr, Inhabited

/-- The 32-byte Blaze record of 11 R277; t is its grid time in 1/8 ns (SEC and NS), ssn and slot as the layout has them (slot 0xFF: none). -/
structure Blaze where
  stn : Nat := 0xFE
  src : Nat := 0
  kind : Nat := 0
  sev : Nat := 0
  timeq : Bool := false
  lim : Bool := false
  ovr : Bool := false
  ord : Bool := false
  seq : Nat := 0
  slot : Nat := 0xFF
  run : Nat := 0
  t : Nat := 0
  ssn : Nat := 0
  val0 : Int := 0
  val1 : Int := 0
  deriving DecidableEq, Repr, Inhabited

/-- The kind field of a record (08 R213). -/
inductive RecKind where
  | sample | marker | timeStep
  deriving DecidableEq, Repr, Inhabited

/-- A record of 08 R213, its VALUE read as a signed number for a sample and as an unsigned code otherwise. -/
structure Rec where
  kind : RecKind := .sample
  value : Int := 0
  caladj : Bool := false
  timeq : Bool := false
  therm : Bool := false
  stale : Bool := false
  seam : Bool := false
  ovr : Bool := false
  deriving DecidableEq, Repr, Inhabited

/-- What a holder asks of the lease table (10 R262): a lease on a capture, or on the span of a ring's held blocks that holds the SSNs from first to last; to renew a lease; or
a read of n records of a slot from SSN first on in a leased block. -/
inductive LeaseCall where
  | capture (c : Fin 16)
  | span (slot : Fin 16) (first last : Nat)
  | renew (l : Fin 32)
  | read (l : Fin 32) (slot : Fin 16) (first n : Nat)
  deriving DecidableEq, Repr, Inhabited

/-- A record as a consumer of the Landing reads it (10 R249, 08 R220): its grid time in 1/8 ns, its SSN, the record and the rate code it was formed at. -/
structure GridRec where
  t : Nat
  ssn : Nat
  rcd : Rec
  rate : Nat := 0
  deriving DecidableEq, Repr, Inhabited

/-- One dump window of the Mill's stage 1 (07 R182): the network time of its centre in 1/65 536 ns; for a G axis the drive loop's phase there, in 2^-32 of a drive
period, for AUX the CLK ticks since its 1 562.5 Hz period of 128 000 ticks began (06 R164); and the inputs of its samples, oldest first: 32 of the axis converter in 1/256 of a converter LSB (05 R125), or 4 of the AUX modulator, with the
numbers of those taken while it was overloaded (06 R155). -/
structure Window where
  t : Nat
  phase : Nat := 0
  xs : List Int
  overload : List Nat := []
  deriving DecidableEq, Repr, Inhabited

/-- What the converters brought to a slot since its last record: the dump windows, oldest first, and the outputs of Q with their grid times in 1/8 ns, in
1/256 µg equivalent (04 R118). -/
structure Live where
  win : List Window := []
  q : List (Nat × Int) := []
  deriving DecidableEq, Repr, Inhabited

/-- What a pin engine's instruction does (12 R295, R296), one case per command of the table; reserved for a reserved encoding. -/
inductive PeKind where
  | br | await | stamp | markInterrupt | markBlaze | markCapture | samp | emit | sinToRx | txToSout | uToRx | txToU | calc | ldi | dec | reserved
  deriving DecidableEq, Repr, Inhabited

/-- The dataset of an Announce message (03 R78; IEEE 1588-2019 clause 9.3): grandmaster priority 1, class, accuracy, variance, priority 2 and identity, and
steps removed. -/
structure Dataset where
  p1 : Nat := 128
  cls : Nat := 248
  acc : Nat := 0xFE
  var : Nat := 0xFFFF
  p2 : Nat := 128
  gm : Nat := 0
  steps : Nat := 0
  deriving DecidableEq, Repr, Inhabited

/-- The frame and header fields of a PTP message that 03 R74 to R76 speak of: EtherType, destination address, domain number, logMessageInterval, sequence
number, and the clockIdentity and portNumber of its source. -/
structure PtpHead where
  etype : Nat := 0x88F7
  dst : Nat := 0x011B19000000
  domain : Nat := 0
  logInt : Int := 0
  seq : Nat := 0
  clock : Nat := 0
  port : Nat := 1
  deriving DecidableEq, Repr, Inhabited

/-- A service serial frame (06 R170 to R173): the whole words on SDI as its rising and as its falling SCK edges sample them, whether bits follow the last whole word, and its times in
CLK ticks from CS# falling to the first edge, from the last edge to CS# rising, and from the frame before. -/
structure SspFrame where
  rising : List Word
  falling : List Word
  partialWord : Bool := false
  setup : Nat := 20
  hold : Nat := 20
  gap : Nat := 200
  deriving DecidableEq, Repr, Inhabited

/-- What a self-calibration run found (09 R234, R235): the change of the offset correction in 1/256 record LSB and of the gain correction in 2^-26, both
against the corrections in use. -/
structure CalMeasure where
  ofs : Int := 0
  gain : Int := 0
  deriving DecidableEq, Repr, Inhabited

/-- Measured class B targets (09 R240), a tap each: TXA, RXA, TXB, RXB, the strobes of axes 0 to 9, AUX rising, AUX falling; a missing one is the factory
tap. -/
structure ClassB where
  taps : List Nat := []
  deriving DecidableEq, Repr, Inhabited

/-- A peer's stream publication (13 R326, R327; 14 R357): its station, slot, rate code and run number, the SSN and grid time of its first record, and its
records in the layout of 08 R213. -/
structure PeerPub where
  stn : Nat := 0
  slot : Nat := 0
  rate : Nat := 0
  run : Nat := 0
  ssn : Nat := 0
  t : Nat := 0
  recs : List Word := []
  deriving DecidableEq, Repr, Inhabited

/-- One host of the running Tally's host list (15 R380, PID 0x0104). -/
structure HostEntry where
  sender : Nat
  addr : Nat
  deriving DecidableEq, Repr, Inhabited

/-- A record of a Tally section (15 R379, R380): a register word, a register block, a named parameter; other stands for an unknown PID or a value that
breaks its table. -/
inductive TallyRec where
  | word (addr : Nat) (mask value : Word)
  | block (addr : Nat) (values : List Word)
  | station (stn : Nat)
  | ipv4 (addr pfx gw : Nat)
  | ipv6 (addr pfx : Nat)
  | hosts (l : List HostEntry)
  | mrp (enable fast : Bool) (uuid : Nat)
  | groups (blaze4 blaze6 stream4 stream6 : Nat)
  | startMask (mask : Nat)
  | userCal (slot g o : Nat)
  | setup (n : Nat) (tags : List (Nat × Nat))
  | alarm (a : Nat) (tags : List (Nat × Nat))
  | other (pid : Nat)
  deriving DecidableEq, Repr, Inhabited

/-- A commit trailer (15 R399): its CSEQ, SENDER, CSID and nonce, and its parameter records. -/
structure Trailer where
  cseq : Nat := 1
  sender : Nat := 0
  csid : Nat := 0
  nonce : Nat := 0
  changes : List TallyRec := []
  deriving DecidableEq, Repr, Inhabited

/-- Bytes padded to a multiple of 4. -/
def padded (n : Nat) : Nat := (n + 3) / 4 * 4

/-- A Tally image (15 R376): its bytes, from the header on. -/
structure Image where
  bytes : List Byte := []
  deriving DecidableEq, Repr, Inhabited

/-- The TYPEs of Cystad messages with the length of each body's fixed part (14 R345, R357 to R373, 11 R282). -/
def cyTypes : List (Nat × Nat) :=
  [(0x01, 28), (0x02, 8), (0x03, 4), (0x10, 12), (0x11, 12), (0x20, 16), (0x21, 14), (0x30, 4), (0x31, 28), (0x32, 12), (0x33, 16), (0x34, 12), (0x35, 4),
   (0x40, 52), (0x41, 12), (0x42, 32), (0x43, 24), (0x44, 8)]

/-- The length of the fixed part of a type's body. -/
def fixedPart (typ : Nat) : Nat := ((cyTypes.find? fun p => p.1 == typ).map (·.2)).getD 0

/-- Where an IP packet comes from (14 R349): its version, source address and port, and the MAC address of the frame that brought it. -/
structure Peer where
  v6 : Bool := false
  addr : Nat := 0
  port : Nat := 52108
  mac : Nat := 0
  deriving DecidableEq, Repr, Inhabited

/-- A Cystad datagram received at port C (14 R350, R351, R353): the fields of its header, the ciphertext and the tag that follow it, and where it comes from. -/
structure Datagram where
  typ : Nat := 1
  sender : Nat := 0
  mseq : Nat := 0
  ver : Nat := 1
  cipher : List Byte := []
  len : Nat := cipher.length
  tag : Nat := 0
  src : Peer := {}
  deriving DecidableEq, Repr, Inhabited

/-- The form check passes but for the senders (14 R350, R353): the version, LEN against the UDP payload length, and the type. -/
def Datagram.formOk (d : Datagram) : Bool := d.ver == 1 && decide (d.len ≤ 1420) && d.cipher.length == d.len && cyTypes.any fun p => p.1 == d.typ

/-- A custody hello (14 R371), the fields the receiver uses. -/
structure Hello where
  stn : Nat := 0xFE
  mode : Nat := 0
  ownValid : Bool := false
  holds : Bool := false
  serial : Nat := 0
  run : Nat := 0
  tdig : Nat := 0
  cdig : Nat := 0
  cstn : Nat := 0xFE
  deriving DecidableEq, Repr, Inhabited

/-- A custody data message (14 R372): the responder's station, the one asked for, offset, total length, IDIG, and the image bytes in it. -/
structure CustData where
  stn : Nat := 0
  want : Nat := 0
  offset : Nat := 0
  total : Nat := 0
  idig : Nat := 0
  bytes : List Byte := []
  deriving DecidableEq, Repr, Inhabited

/-- An entry of a change set (14 R365): ETYPE 0, a register word under a mask; ETYPE 1, a Tally parameter record. -/
inductive CsEntry where
  | word (addr : Nat) (mask value : Word)
  | param (r : TallyRec)
  deriving DecidableEq, Repr, Inhabited

/-- One part of a change set (14 R365); malformed gives the index of an entry that is malformed or runs past the end of the part. -/
structure CsPart where
  csid : Nat
  part : Nat
  npart : Nat
  flags : Nat
  sec : Nat
  entries : List CsEntry
  malformed : Option Nat := none
  deriving DecidableEq, Repr, Inhabited

/-- PERMIT of a part (14 R365). -/
def CsPart.permit (p : CsPart) : Bool := p.flags.testBit 0

/-- An accepted change set (15 R396), with the SENDER of its host. -/
structure ChangeSet where
  csid : Nat
  permit : Bool
  sec : Nat
  entries : List CsEntry
  host : Nat
  deriving DecidableEq, Repr, Inhabited

/-- An Ethernet frame arriving at a switch port (14 R344, R345): source and destination address, the EtherType, the TYPE byte where it is a Cystad message, the length,
and whether the check sequence is right. -/
structure Frame where
  src : Nat
  dst : Nat
  etype : Nat := 0x0800
  cystad : Option Nat := none
  len : Nat := 64
  fcsOk : Bool := true
  deriving DecidableEq, Repr, Inhabited

/-- The destination is a group address: the first bit on the wire of its first byte is 1 (IEEE 802.3). -/
def Frame.group (f : Frame) : Bool := f.dst.testBit 40

/-- One entry of a feature publication (14 R360): feature ID, quality, entry type, time, SSN and length of the block, the values of the whole vector, the
index of the first, and the values as binary32 patterns. -/
structure FeatEntry where
  fid : Nat
  q : Nat
  etype : Nat
  t : Nat
  ssn : Nat
  blen : Nat
  total : Nat
  first : Nat
  values : List Word
  deriving DecidableEq, Repr, Inhabited

/-- A frame or message the module hands to its ports: the departure Blaze ahead of all traffic and Blaze messages (14 R345, R361); PTP messages (03 R76, R79); MRP
link changes (14 R347); forwarded frames; replies; publications; capture, custody and enrollment messages; frames of the serial master (06 R176, R177). -/
inductive Payload where
  | departure (b : Blaze)
  | blazes (bs : List Blaze)
  | pdelayReq (h : PtpHead)
  | pdelayResp (h : PtpHead) (reqClock reqPort : Nat) (turnaround : Int)
  | ptpForward (h : PtpHead) (followUp : Bool) (corr : Int) (twoStep : Bool)
  | linkChange (up : Bool)
  | forward (f : Frame)
  | echoReply
  | addressReply (kind : Nat)
  | mgmtReply (host reqid op res : Nat) (trunc : Bool) (addr : Nat) (words : List Word)
  | csResult (host csid res idx sec : Nat)
  | stream (k stn : Nat) (dest : Option Nat) (slot rate : Nat) (fin step : Bool) (run ssn : Nat) (recs : List Word) (t : Option Nat)
  | feature (stn run : Nat) (entries : List FeatEntry)
  | descriptor (host c res sid : Nat) (short step : Bool) (part npart total slots tb : Nat) (anchors : List (Nat × Nat × Nat × Nat × Nat))
  | chunk (sid slot chunk ssn : Nat) (recs : List Word)
  | capEnd (sid c why ack recs : Nat)
  | hello (h : Hello) (port : Nat)
  | custRequest (stn want offset nch : Nat)
  | custData (d : CustData)
  | offer (stn total idig : Nat)
  | defer (stn secs : Nat)
  | enrollHello (serial pub sig : Nat)
  | enrollDone (nonce tag : Nat)
  | identify
  | plugRead (word : Nat)
  | sspReply (words : List Word)
  deriving DecidableEq, Repr, Inhabited

/-- Where a frame goes: port A, port B, the internal port C (14 R344), or the serial port. -/
inductive Egress where
  | a | b | c | serial
  deriving DecidableEq, Repr, Inhabited

/-- The header of a Cystad message (14 R350): VER, TYPE, LEN, SENDER and MSEQ. -/
structure CyHead where
  ver : Nat := 1
  typ : Nat
  len : Nat
  sender : Nat
  mseq : Nat
  deriving DecidableEq, Repr, Inhabited

/-- The IP header of a packet (14 R349, R371): version, source and destination address, source and destination UDP port of a datagram, and the hop limit where the spec names
one. -/
structure IpHead where
  v6 : Bool
  src : Nat
  dst : Nat
  ports : Option (Nat × Nat) := none
  hop : Option Nat := none
  deriving DecidableEq, Repr, Inhabited

/-- A frame handed to a port's queue (14 R345: 0 time, 1 Blazes, 2 management, 3 streams), with the header of a Cystad message, the IP header of a packet, and whether it
belongs to the publication share (14 R358). -/
structure TxFrame where
  port : Egress
  queue : Nat
  pay : Payload
  cy : Option CyHead := none
  ip : Option IpHead := none
  share : Bool := false
  deriving DecidableEq, Repr, Inhabited

/-- A capture chunk (14 R368). -/
def Payload.isChunk : Payload → Bool
  | .chunk .. => true
  | _ => false

/-- The session of a capture chunk. -/
def Payload.chunkSid : Payload → Nat
  | .chunk sid _ _ _ _ => sid
  | _ => 0

/-- A stream or feature publication (14 R357, R360). -/
def Payload.isPub : Payload → Bool
  | .stream .. => true
  | .feature .. => true
  | _ => false

/-- A Blaze message (14 R361). -/
def Payload.isBlazes : Payload → Bool
  | .blazes _ => true
  | _ => false

/-- A frame that came in at another port (14 R344). -/
def Payload.isTransit : Payload → Bool
  | .forward _ => true
  | .ptpForward .. => true
  | _ => false

/-- A custody message, which goes to ff02::1 (14 R371). -/
def Payload.isCustody : Payload → Bool
  | .hello .. => true
  | .custRequest .. => true
  | .custData _ => true
  | .offer .. => true
  | .defer .. => true
  | _ => false

end Sys2Proof.Machine
end

