-- ==== Sys2Proof/Syntax.lean ====
section
/-!
DEFINITION. The commands of the block: one constructor per row of the table of operations and events (spec/opcode_table.json), in the table's order.
An operand is what the outside brings to the step; its meaning stands with the command's meaning in Machine/.
-/

namespace Sys2Proof

open Sys2Proof.Machine

/-- The commands. -/
inductive Instr where
  /-- R42: Internal supply rises through 34.0 V and the power die starts inrush for a new start. -/
  | supplyRise (m : Meter)
  /-- R44: The inrush period ends and START (M1) begins. -/
  | inrushEnd (boot : Boot)
  /-- R406: REFBUF is ready, the converters are released, the time counter starts and LOAD with the key-probe window begins. -/
  | startEnd
  /-- R143: A write that sets HK_CTL.REFEN starts the 2 ms not-settled period; a clear is accepted only in SERVICE. -/
  | refbufEnable (door : Initiator) (v : Word)
  /-- R143: 2 ms after REFEN is set, REFRDY goes to 1 and conversions are no longer marked not-settled. -/
  | refbufSettled
  /-- R19: The PLL loses lock and the power die holds the controller die in reset for 1 ms, then restarts it with CAUSE 0x03. -/
  | pllLockLoss
  /-- R28: The SUP watchdog expires after 1 s and the power die resets the whole module without a seal. -/
  | supWatchdogExpiry
  /-- R28: ANA0 or ANA1 misses its heartbeat for 500 ms and SUP cycles WORK and logs the event. -/
  | anaHeartbeatLoss
  /-- R28: NET misses its heartbeat for 200 ms and SUP restarts NET within 300 ms, with SAFE after three restarts in 10 min. -/
  | netHeartbeatLoss
  /-- R28: DRAM training completes, the Deck controller is released, the rings are sized and the Landing drains into the Deck. -/
  | deckControllerRelease
  /-- R28: ANA0 and ANA1 are released from reset, WSTATE becomes 2 and the analysis setups start. -/
  | anaRelease
  /-- R28: Deck block writes in flight complete and the Deck controller stops, setting DK_ST.ON to 0. -/
  | deckControllerStop
  /-- R28: The WORK rails switch off and WSTATE becomes 0. -/
  | workRailsOff
  /-- R27: An access to a WORK register while it is not reachable reads 0 or is ignored, and counts in OFFACC. -/
  | workRegOffAccess (init : Initiator) (addr : Nat) (wr : Bool)
  /-- R57: The supply stays below 33.0 V for 50 µs and the module runs the last-gasp sequence once. -/
  | supplyLoss (cut : Bool) (m : Meter)
  /-- R42: The internal supply lies between 33.0 and 36 V and PWR_EVT.UV is set. -/
  | undervoltage (m : Meter)
  /-- R43: The input exceeds 75 V, which sets PWR_EVT.SURGE and counts once. -/
  | surge (m : Meter)
  /-- R48: An IDLE port starts a detection cycle at its random interval and enters DETECT. -/
  | detectCycleStart (port : Port)
  /-- R48: A detection cycle completes, and a valid signature puts the port in SOURCE while any other result returns it to IDLE. -/
  | detectCycleEnd (port : Port) (listen i1 i2 : Nat)
  /-- R49: An open port is raised above 30 V from outside, the signature is removed and the port enters SINK. -/
  | portAbove30V (port : Port) (m : Meter)
  /-- R49: A port in SINK falls below 30 V and returns to IDLE. -/
  | portBelow30V (port : Port) (m : Meter)
  /-- R50: A SINK port that has held the join condition for 100 ms closes its switch and enters JOINED. -/
  | portJoin (port : Port) (m : Meter)
  /-- R51: The pass-through current is held at the 2.0 A limit for 5 ms, so the port opens and enters HOLDOFF for 1 s. -/
  | ptCurrentFault (port : Port) (m : Meter)
  /-- R51: Link is lost and the port current stays below 10 mA for 100 ms, so the switch opens. -/
  | ptLinkLossRelease (port : Port) (m : Meter)
  /-- R51: A departure Blaze arrives from the adjacent station, so the port opens and enters HOLDOFF for 10 s. -/
  | departureBlazeReceive (port : Port) (blaze : Blaze)
  /-- R49: The hold-off time ends and the port goes to IDLE or SINK. -/
  | holdoffEnd (port : Port) (m : Meter)
  /-- R65: A write to PWR_CTL changes the pass-through enables or TWEN, which opens switches or disarms twist-release. -/
  | pwrCtlWrite (door : Initiator) (v : Word)
  /-- R38: Port B has stayed below 2 V for 100 ms with serial use required, so it switches to the service serial port. -/
  | sspPortBTake (m : Meter)
  /-- R59: The rate about GZ has stayed below 5 °/s for 2 s with the drive locked, so MOUNTED is set and twist-release arms. -/
  | twistStillnessMet
  /-- R60: The release-direction rate stays below 60 °/s for 20 ms and the integral clears. -/
  | twistIntegralClear (xs : List (Nat × Int))
  /-- R61: The integral reaches 15°, so the module opens pass-through, stops publications, seals and sends a departure Blaze. -/
  | twistReleaseTrigger (xs : List (Nat × Int))
  /-- R62: Supply is still present 5 s after a trigger, so the module opens its input switching for 1 s. -/
  | twistSupplyPersists
  /-- R62: After the 1 s open, the module starts again with inrush, and CAUSE later reads 0x07. -/
  | twistRestartInrush (m : Meter)
  /-- R78: A Sync is received on the slave port and an offset update is formed. -/
  | syncReceive (port : Port) (h : PtpHead) (t1 cap corr : Int) (twoStep : Bool)
  /-- R78: A two-step Follow_Up arrives and completes the offset of its Sync. -/
  | followUpReceive (port : Port) (h : PtpHead) (t1 corr : Int)
  /-- R78: A two-step Sync whose Follow_Up has not arrived after 2 Sync intervals is discarded. -/
  | followUpTimeout (port : Port) (seq : Nat)
  /-- R78: An Announce arrives and the dataset comparison selects the master and the slave port. -/
  | announceReceive (port : Port) (h : PtpHead) (ds : Dataset)
  /-- R76: The port's Pdelay_Req interval expires and a Pdelay_Req is sent. -/
  | pdelayReqSend (port : Port) (seq : Nat) (cap : Int)
  /-- R76: A Pdelay_Req arrives and is answered with a one-step Pdelay_Resp. -/
  | pdelayReqReceive (port : Port) (h : PtpHead) (capIn capOut : Int)
  /-- R76: A Pdelay_Resp, or its Follow_Up from a two-step peer, completes a link delay measurement and updates meanLinkDelay. -/
  | pdelayRespReceive (port : Port) (h : PtpHead) (reqClock reqPort : Nat) (t2 t3 corr cap : Int)
  /-- R79: The transparent clock forwards a Sync or Follow_Up to the other port with a one-step correction. -/
  | ptpTransitForward (ingress : Port) (h : PtpHead) (followUp twoStep : Bool) (corr capIn capOut : Int)
  /-- R72: announceReceiptTimeout expires or no Sync arrives for 2 s, so the master is declared lost. -/
  | masterLost
  /-- R81: At the next local second boundary after the first offset in FREE, master time is loaded and the state becomes ACQUIRE. -/
  | initialSet
  /-- R85: A write of TIME_CMD.ACCEPT accepts the candidate in REFUSED, or sets CMDIGN when it is ignored. -/
  | timeAcceptCmd (door : Initiator)
  /-- R91: A write of TIME_CMD.SNAP latches the counter into the shared snapshot registers and advances SEQ. -/
  | timeSnapCmd (door : Initiator)
  /-- R86: At the second boundary after acceptance, the candidate is added to the counter and the step actions follow. -/
  | stepApply
  /-- R87: The guard closes after 2 s and the latest offset is tested according to the time state. -/
  | guardClose (targets : ClassB)
  /-- R87: Link changes keep the guard open for 10 s, so it closes without the test and enters HOLDOVER from ACQUIRE or LOCKED. -/
  | guardTimeout (targets : ClassB)
  /-- R385: Each hour in LOCKED, the servo output, TCASE and MD_HOT.MIN are written to the event log; fails counts the attempts of the write that failed (16 R418). -/
  | freqEstimateLog (fails : Nat)
  /-- R123: A write to AX_CFG changes the range, auto mode, excitation or Q subtraction, each under its own rule. -/
  | axCfgWrite (door : Initiator) (axis : Fin 10) (v : Word)
  /-- R105: A converter sample above 90 % of FSCODE on an auto W or G axis decides a step up. -/
  | rangeUpDecision (axis : Fin 10) (code : Int)
  /-- R106: 100 000 quiet carrier periods complete the down count and decide a step down. -/
  | rangeDownDecision (axis : Fin 10) (runs : List (Nat × Nat))
  /-- R107: At the carrier-period boundary the analogue gain switches, the digital scale follows and the events are counted. -/
  | rangeSwitch (axis : Fin 10)
  /-- R103: The new excitation level reaches the plates at the next carrier boundary and suppression starts. -/
  | excitationChangeApply (axis : Fin 10)
  /-- R114: The drive amplitude is within 1 % and the phase is locked, so LOCK is set and the G axes start in the top range. -/
  | driveLock (freq : Nat)
  /-- R116: The drive amplitude stays below 90 % for 1 ms or the phase lock is lost, so the drive restarts and twist-release disarms. -/
  | driveUnlock
  /-- R135: A housekeeping pass starts, and a pending apply is checked and then adopted or refused. -/
  | hkPassStart
  /-- R133: A sequence entry completes, its mean is stored and passed to its slot, and the watchers evaluate it. -/
  | hkEntryEnd (xs : List Int) (targets : ClassB)
  /-- R135: A write of HK_CMD.APPLY marks the shadow sequence for the next pass start. -/
  | hkApplyCmd (door : Initiator)
  /-- R137: A write of HK_CMD.INJ requests injection 2. -/
  | hkInjCmd (door : Initiator)
  /-- R139: A pending injection starts after the running entry or injection ends, lowest k first. -/
  | hkInjectionStart
  /-- R141: An injected entry completes, HK_INJRESk is stored and the injection interrupt is raised. -/
  | hkInjectionEnd (xs : List Int)
  /-- R146: A write of SCAL_CMD.CAPZ starts a point Z capture on the selected channel. -/
  | scalCapz (door : Initiator)
  /-- R146: A write of SCAL_CMD.CAPS starts a static or dynamic point S capture. -/
  | scalCaps (door : Initiator)
  /-- R149: A write of SCAL_CMD.ABORT ends the capture in progress without a result. -/
  | scalAbort (door : Initiator)
  /-- R149: A write of SCAL_CMD.DISCARD restores the channel's user values from the running Tally. -/
  | scalDiscard (door : Initiator)
  /-- R148: A capture window completes and the point is stored, or G and O are computed and accepted, or the capture fails with a reason. -/
  | scalCaptureEnd
  /-- R153: A write to AUX_CFG.FUNC or AUX_PRB.TYPE is held for the next grid second boundary. -/
  | auxFuncWrite (door : Initiator) (cfg prb : Word)
  /-- R153: At the boundary, slots 10 and 11 deliver Stopped markers while the new function is applied. -/
  | auxFuncApply
  /-- R157: A clamp starts conducting, which sets AUX_EVT.CLAMP, counts and requests injection 0. -/
  | auxClampEdge (ticks : Nat)
  /-- R159: The input comparator crosses VHI or VLO and the minimum pulse-width filter starts. -/
  | auxComparatorChange (drive : Option Int)
  /-- R160: The comparator holds its new state for MINPW, so the filtered level changes and the edge is timestamped. -/
  | auxEdgeAccept
  /-- R160: A comparator pulse shorter than MINPW is absorbed and counted. -/
  | auxPulseAbsorb
  /-- R162: No accepted transition occurs for the stuck time, so STUCK is set. -/
  | auxStuck
  /-- R166: A write of AUX_CMD.LEADMEAS starts a 2 s lead resistance measurement, or fails outside SERVICE or the probe function. -/
  | auxLeadmeasCmd (door : Initiator)
  /-- R166: The lead measurement window ends and the result is stored or refused. -/
  | auxLeadmeasEnd
  /-- R169: The driver stays at its current limit for 1 ms, or a clamp conducts while it is on, so AUX is released for 100 ms. -/
  | auxOutputFault
  /-- R169: 100 ms after an output fault, the driver turns on again. -/
  | auxOutputRestore
  /-- R174: A service serial frame with OP 0x1 returns words up to the page end. -/
  | sspRead (f : SspFrame)
  /-- R174: A service serial frame with OP 0x2 writes words when they are permitted and do not cross the page. -/
  | sspWrite (f : SspFrame)
  /-- R175: A service serial frame with OP 0xE and the confirmation word clears the line key and erases the Tally, custody and log regions. -/
  | sspEraseToBlank (f : SspFrame)
  /-- R175: Erase-to-blank completes and the module restarts within 15 s, waiting in COPPICE for enrollment. -/
  | eraseComplete
  /-- R176: In the key-probe window port B has no link and has been below 2 V for 100 ms, so it switches to serial use. -/
  | keyProbeSwitch (m : Meter)
  /-- R176: An identify frame is sent at once and then every 100 ms in the window. -/
  | keyProbeIdentify
  /-- R176: A key plug answers the identify frame and the module enters KEYLOAD at once. -/
  | keyPlugAnswer (w1 w2 : Word)
  /-- R176: A service adapter answers, identify frames stop and port B stays in serial use. -/
  | serviceAdapterAnswer (w1 w2 : Word)
  /-- R407: The 2 s window ends and LOAD leaves to COPPICE, SERVICE or SETTLE by its result. -/
  | keyProbeWindowEnd
  /-- R387: SUP checks the sealed own positions in decreasing COMSEQ and records LRES. -/
  | tallyLoadCheck
  /-- R177: The module sends an OP 0x9 plug read frame, which is repeated up to 3 times on a bad reply. -/
  | keyloadRead (w1 : Word) (words : List Word)
  /-- R389: The plug image has been read, is checked, and is committed with ORIGIN 2 followed by a restart. -/
  | keyloadImageDone
  /-- R217: A grid slot's record is formed as a marker or flagged sample and queued to the Landing with the next SSN. -/
  | gridSlotRecord (slot : Fin 16) (t : Nat) (live : Live) (taken : Nat)
  /-- R253: The chunk counts do not sum to 2 048, so ACCERR is set and the module enters SAFE. -/
  | landingAccountMismatch
  /-- R199: The settling markers run out and the slot delivers its first sample, which sets SETTLED. -/
  | slotSettled (slot : Fin 11)
  /-- R196: A write of ML_CTL.SWAP checks the incoming bank and starts warm-up, or refuses the swap with a reason. -/
  | mlSwap (door : Initiator) (slot : Fin 11)
  /-- R196: The incoming bank has run its settling length and the fade begins. -/
  | swapWarmupEnd (slot : Fin 11)
  /-- R196: The fade's last record passes, the incoming bank becomes active and SWDONE is set. -/
  | swapFadeEnd (slot : Fin 11)
  /-- R198: A write of ML_CTL.SYNC requests a synchronising reset of the slot. -/
  | mlSlotSync (door : Initiator) (slot : Fin 11)
  /-- R198: A write of ML_GCMD.SYNC requests a synchronising reset of every enabled slot. -/
  | mlGlobalSync (door : Initiator)
  /-- R195: A write to a bank word is accepted only while the bank is stopped, and is otherwise counted as LDREJ. -/
  | millBankWrite (door : Initiator) (addr : Nat) (v : Word)
  /-- R202: A single-bit state memory error is corrected and counted. -/
  | millEccCorrect
  /-- R202: An uncorrectable state error causes a synchronising reset of that slot. -/
  | millEccError (slot : Fin 11)
  /-- R209: A write to GR_CFG is held for the next second boundary, or a forbidden rate code is ignored with RATEREJ. -/
  | grCfgWrite (door : Initiator) (slot : Fin 16) (v : Word)
  /-- R210: At boundary S the slot is enabled, disabled or changes rate, and its streams are re-admitted. -/
  | grCfgApply (slot : Fin 16)
  /-- R228: 10 min after a failed run, the axis becomes due again. -/
  | calRetryTimer (axis : Fin 10)
  /-- R228: 60 s after an abandoned run, the axis becomes due again. -/
  | calAbandonRetry (axis : Fin 10)
  /-- R230: Once per grid second the temperature slopes are computed, and deferral begins or ends. -/
  | calSlopeUpdate
  /-- R233: The scheduler starts a run on the lowest eligible PENDING axis and holds it. -/
  | calRunStart
  /-- R234: A 40 ms run ends and its results are checked, leading to slewing or a failure count. -/
  | calRunEnd (res : CalMeasure)
  /-- R237: Every 8 ms each class A trim and QCOEF steps 1 LSB toward its target. -/
  | calSlewStep (axis : Option (Fin 10))
  /-- R240: At each grid second boundary every class B trim moves one tap toward its target. -/
  | classbTapStep
  /-- R228: A write of CAL_CMD.RUN in SERVICE makes the named axes due, or sets CMDREJ. -/
  | calRunCmd (door : Initiator) (mask : Nat)
  /-- R229: A write of CAL_CMD.CLASSB in SERVICE measures the class B targets. -/
  | calClassbCmd (door : Initiator) (targets : ClassB)
  /-- R244: CAL_RST.CMD 1 copies the store into the shadow and computes CAL_BIND. -/
  | calSnapshot (door : Initiator)
  /-- R244: CAL_RST.CMD 2 opens the shadow view for writes. -/
  | calOpen (door : Initiator)
  /-- R245: CAL_RST.CMD 3 checks the written store and accepts or refuses it whole. -/
  | calCommit (door : Initiator)
  /-- R244: CAL_RST.CMD 4 returns the view to live. -/
  | calClose (door : Initiator)
  /-- R256: A ring's in-flight block closes, becomes held, and a new block is taken with the oldest recycled. -/
  | deckBlockClose (slot : Fin 16)
  /-- R260: A matching Blaze triggers a capture definition, which is admitted or refused with a reason. -/
  | captureTrigger (c : Fin 16)
  /-- R259: A DK_CMD.TRIG bit triggers capture definition c. -/
  | captureTrigCmd (door : Initiator) (c : Fin 16)
  /-- R261: A DK_CMD.REL bit releases an unleased held capture. -/
  | captureReleaseCmd (door : Initiator) (c : Fin 16)
  /-- R260: The capture window ends and the ring closes its in-flight block into the capture. -/
  | captureWindowEnd (c : Fin 16)
  /-- R268: A write to a collecting definition is stored, and EN = 0 ends collection at once. -/
  | dkCapWrite (door : Initiator) (c : Fin 16) (w : Fin 3) (v : Word)
  /-- R262: A holder requests a lease, which is granted or refused and counted. -/
  | leaseRequest (holder : Proc) (call : LeaseCall)
  /-- R263: Every 10 ms SUP revokes expired leases, counts the lost records and notifies the holders. -/
  | leaseScan (ms : Nat)
  /-- R265: Every 10 s SUP counts block states, and a mismatch powers WORK down and enters SAFE. -/
  | deckAccountAudit (free held flight : Nat)
  /-- R272: A record reaches the impact recogniser, which advances episodes and issues impact Blazes. -/
  | impactRecord
  /-- R275: A record reaches the stroke recogniser, which detects strokes, intervals and stops. -/
  | strokeRecord
  /-- R276: A grid time's L records reach the free-fall recogniser, which issues a Blaze after DUR. -/
  | freefallRecord
  /-- R284: A write of an impact setting ends the episode in progress without a Blaze. -/
  | rcImpWrite (door : Initiator) (w : Fin 3) (v : Word)
  /-- R284: A write of a stroke setting restarts learning or applies the setting from the next record. -/
  | rcStkWrite (door : Initiator) (w : Fin 4) (v : Word)
  /-- R284: A write of a free-fall setting restarts the condition or stops the recogniser. -/
  | rcFfWrite (door : Initiator) (w : Fin 2) (v : Word)
  /-- R280: A write of BZ_CMD.POP removes the oldest FIFO entry. -/
  | bzPop (door : Initiator)
  /-- R361: Once the previous Blaze message has gone, up to 16 queued own Blazes are sent to the Blaze group. -/
  | blazeMessageSend
  /-- R282: A peer Blaze message is checked for subscription, duplicates and SEQ loss, then enters the reorder stage. -/
  | blazeMessageReceive (d : Datagram)
  /-- R283: The reorder delay expires and a peer Blaze is delivered to its internal destinations in order. -/
  | peerBlazeDeliver
  /-- R298: An engine executes BR and branches when COND holds, consuming a latch on input conditions. -/
  | peBr (e : Fin 8) (w : Nat)
  /-- R302: An engine executes AWAIT for a level, edge, pulse or time, and stalls until it holds. -/
  | peAwait (e : Fin 8) (w : Nat)
  /-- R301: An engine executes STAMP, captures TC at a qualifying edge and puts words into RX. -/
  | peStamp (e : Fin 8) (w : Nat)
  /-- R303: MARK with ACT 0 pulses the engine's interrupt source. -/
  | peMarkInterrupt (e : Fin 8) (w : Nat)
  /-- R303: MARK with ACT 1 issues a Blaze with SRC 0x10 + e. -/
  | peMarkBlaze (e : Fin 8) (w : Nat)
  /-- R301: MARK with ACT 2 loads TC and the interval from the cycle's local time. -/
  | peMarkCaptureTime (e : Fin 8) (w : Nat)
  /-- R299: SAMP shifts BITS bits of its source into SIN. -/
  | peSamp (e : Fin 8) (w : Nat)
  /-- R299: EMIT takes BITS bits out of SOUT to its destination. -/
  | peEmit (e : Fin 8) (w : Nat)
  /-- R300: XFER DIR 0 moves SIN into RX, stalling or dropping when RX is full. -/
  | peXferSinToRx (e : Fin 8) (w : Nat)
  /-- R300: XFER DIR 1 moves the oldest TX word into SOUT. -/
  | peXferTxToSout (e : Fin 8) (w : Nat)
  /-- R300: XFER DIR 2 copies U into RX. -/
  | peXferUToRx (e : Fin 8) (w : Nat)
  /-- R300: XFER DIR 3 moves the oldest TX word into U. -/
  | peXferTxToU (e : Fin 8) (w : Nat)
  /-- R297: CALC combines DST and SRC with OP into DST. -/
  | peCalc (e : Fin 8) (w : Nat)
  /-- R296: LDI loads an immediate into U, V, CNT or LVL. -/
  | peLdi (e : Fin 8) (w : Nat)
  /-- R298: DEC counts a register down and branches while it is nonzero. -/
  | peDec (e : Fin 8) (w : Nat)
  /-- R310: Executing a reserved encoding faults the engine in STATE 3 and pulses its interrupt. -/
  | peReservedEncoding (e : Fin 8) (w : Nat)
  /-- R307: A PE_GCMD STOP bit stops the engine after its current cycle and clears its latches. -/
  | peGcmdStop (door : Initiator) (mask : Nat)
  /-- R307: A PE_GCMD RESTART bit sets PC to 0 and clears the shift registers, latches and TC. -/
  | peGcmdRestart (door : Initiator) (mask : Nat)
  /-- R307: A PE_GCMD RUN bit starts a stopped or faulted engine at its PC. -/
  | peGcmdRun (door : Initiator) (mask : Nat)
  /-- R307: A PE_GCMD CLKSYNC bit aligns the engine's period accumulator. -/
  | peGcmdClksync (door : Initiator) (mask : Nat)
  /-- R311: A write of PE_INJe queues one instruction that runs in the next engine cycle in place of PC. -/
  | peInject (door : Initiator) (e : Fin 8) (w : Nat)
  /-- R305: A write of PE_TXQe pushes a word into TX, or drops and counts it when TX is full. -/
  | peTxPush (door : Initiator) (e : Fin 8) (w : Word)
  /-- R305: A read of PE_RXQe returns and removes the oldest RX word, or sets RDEMPTY. -/
  | peRxPop (door : Initiator) (e : Fin 8)
  /-- R310: A write to instruction memory is accepted when stopped or faulted, and clears a fault at the faulting address. -/
  | peImWrite (door : Initiator) (e : Fin 8) (n : Fin 16) (v : Word)
  /-- R292: A pulse input arrives and sets or merges into the engine's latch with its time. -/
  | pePulseInput (e : Fin 8) (code : Nat)
  /-- R312: A sample record reaches the Mill-event unit, which pulses MEV and may push into TX. -/
  | peMillEvent (e : Fin 8)
  /-- R328: A setup's block completes, is evaluated and its outputs are produced and routed. -/
  | anEvaluation (setup : Fin 32)
  /-- R330: A TRSEC interval ends and the trend point closes into the ring. -/
  | anTrendPoint (setup : Fin 32)
  /-- R330: A write of AN_CMD.TRDUMP publishes the trend rings of a setup. -/
  | anTrendDump (door : Initiator) (setup : Fin 32)
  /-- R337: The user partition faults, so it is stopped, its leases are revoked and a restart is scheduled. -/
  | upFault (code : Nat)
  /-- R337: 10 s after a fault the partition restarts, unless three restarts have already occurred. -/
  | upRestart
  /-- R337: A write of AN_CMD.UPRESTART restarts a stopped partition. -/
  | anUpRestartCmd (door : Initiator)
  /-- R336: The partition uses its share of a 10 ms window and is stopped for the rest of it. -/
  | upPreempt
  /-- R338: Mailbox service 0x01 restarts the 1 s fault timer. -/
  | upHeartbeat (m : Fin 16)
  /-- R338: Mailbox service 0x02 returns local time and the time state. -/
  | upTime (m : Fin 16)
  /-- R338: Mailbox service 0x03 attaches the partition to a slot as consumer bit 5. -/
  | upAttach (m : Fin 16) (slot bytes : Nat)
  /-- R338: Mailbox service 0x04 ends an attach. -/
  | upDetach (m : Fin 16) (slot : Nat)
  /-- R338: Mailbox service 0x05 takes an internal lease on a ring span, or refuses it by world. -/
  | upOpenView (m : Fin 16) (slot t : Nat)
  /-- R338: Mailbox service 0x06 copies records with anchors and renews the lease. -/
  | upReadView (m : Fin 16) (lease first n : Nat)
  /-- R338: Mailbox service 0x07 releases the lease. -/
  | upCloseView (m : Fin 16) (lease : Nat)
  /-- R338: Mailbox service 0x08 returns the latest record for a feature ID. -/
  | upReadFeature (m : Fin 16) (fid : Nat)
  /-- R338: Mailbox service 0x09 publishes a user output. -/
  | upPublish (m : Fin 16) (out : Nat) (value : Word) (q : Nat)
  /-- R338: Mailbox service 0x0A issues a Blaze with SRC 0x22 and severity limited to 11. -/
  | upBlaze (m : Fin 16) (kind sev : Nat) (v0 v1 : Int)
  /-- R338: Mailbox service 0x0B writes a pin-engine TX word, unless the pin engines are secure. -/
  | upEngineWord (m : Fin 16) (e : Nat) (w : Word)
  /-- R338: Mailbox service 0x0C sets a one-shot or periodic wake. -/
  | upTimer (m : Fin 16) (us : Nat) (periodic : Bool)
  /-- R338: A partition timer expires and raises UPTIMER. -/
  | upTimerExpiry
  /-- R343: A port reports link up, which opens the guard and starts custody hellos. -/
  | portLinkUp (port : Port) (ab sqi : Nat)
  /-- R343: A port reports link down, which flushes the database, opens the guard, reclaims credits and clears the learnt station. -/
  | portLinkDown (port : Port)
  /-- R342: A write to PORT_CFG that changes a port's setting renegotiates it at once. -/
  | portCfgWrite (door : Initiator) (v : Word)
  /-- R344: A frame received on a port is learnt, queued by priority and forwarded, or dropped and counted. -/
  | switchForward (port : Port) (f : Frame)
  /-- R347: An MRP_TopologyChange frame arrives and starts the flush interval. -/
  | mrpTopologyChange (port : Port) (uuid ms : Nat)
  /-- R347: The topology change interval ends and the filtering database is flushed. -/
  | mrpFlush
  /-- R349: An ICMP echo request is answered, up to 10 per second. -/
  | icmpEcho (port : Port) (src : Peer)
  /-- R349: ARP, neighbour discovery, IGMP or MLD queries are answered. -/
  | addressQuery (port : Port) (kind : Nat) (src : Peer)
  /-- R353: A module sender's replay entry is dropped after 1 h without a message. -/
  | replayEntryAge (sender : Nat)
  /-- R363: A management request with OP 1 returns words up to the page end; another op than 1 and 2 is reserved. -/
  | mgmtRead (port : Port) (d : Datagram)
  /-- R363: A management request with OP 2 writes permitted words in one tick, and a repeated REQID resends the kept reply. -/
  | mgmtWrite (port : Port) (d : Datagram)
  /-- R365: A change-set part arrives, is assembled, and a complete set is checked and answered. -/
  | changeSetPart (port : Port) (d : Datagram)
  /-- R365: Not all parts arrive within 2 s and the set is discarded with RES 0xF0. -/
  | changeSetTimeout (sender : Nat)
  /-- R398: At SEC − 10 ms the running engines that the set names stop and receive their changes. -/
  | changeSetEngineStop
  /-- R398: At SEC the set is applied whole, or fails with a second result. -/
  | changeSetApply
  /-- R355: A write that enables or changes a stream entry computes its rate and admits or refuses it. -/
  | cyStrWrite (door : Initiator) (k : Fin 16) (v : Word)
  /-- R356: A stream publication closes at n records or a boundary and is sent within the share. -/
  | streamPublication (k : Fin 16)
  /-- R366: A capture open message is answered with a descriptor and takes a network lease. -/
  | captureOpen (port : Port) (d : Datagram)
  /-- R367: A credit message updates GTOT and ACK, renews the lease and may rewind. -/
  | captureCredit (port : Port) (d : Datagram)
  /-- R368: A granted chunk is sent once the share allows, and NEXT advances. -/
  | captureChunkSend (sid : Nat)
  /-- R370: A capture close ends the session, releases the lease and keeps the capture held. -/
  | captureClose (port : Port) (d : Datagram)
  /-- R371: A custody hello is sent on each port at link up, every 1 s and after a commit. -/
  | custodyHelloSend (port : Port)
  /-- R391: A neighbour's hello sets the learnt station and may start a custody fetch. -/
  | custodyHelloReceive (port : Port) (d : Datagram)
  /-- R372: A custody request is served, in arrival order, with NCH data messages from the held image. -/
  | custodyRequest (port : Port) (d : Datagram)
  /-- R372: A custody data message adds to the image being fetched, restarting from offset 0 if IDIG changed. -/
  | custodyDataReceive (port : Port) (d : Datagram)
  /-- R373: A custody offer is fetched, or deferred when committed from that neighbour less than 1 h earlier. -/
  | custodyOffer (port : Port) (d : Datagram)
  /-- R373: A neighbour answers an offer with a custody defer. -/
  | custodyDefer (port : Port) (d : Datagram)
  /-- R373: The deferred hour ends and the custodian fetches the image. -/
  | custodyDeferEnd (port : Port)
  /-- R392: 3 s of listening ends and the module chooses its station and source, or waits. -/
  | coppiceListenEnd
  /-- R392: The restored image is committed with ORIGIN 3 and the module restarts. -/
  | coppiceCommitDone
  /-- R388: After 60 s in COPPICE without an image, an older passing own image is loaded. -/
  | coppiceFallback
  /-- R395: Every 2 s an unenrolled module multicasts ENROLL_HELLO. -/
  | enrollHello
  /-- R395: An ENROLL_OFFER is verified and the transfer key is derived. -/
  | enrollOffer (pub plant sysid sig : Nat)
  /-- R395: ENROLL_KEY delivers the line key, which is stored before ENROLL_DONE is answered. -/
  | enrollKey (src : Peer) (nonce cipher tag : Nat)
  /-- R400: A write of TL_CMD.COMMIT starts building a trailer image, or refuses with a CRES. -/
  | tallyCommitCmd (door : Initiator)
  /-- R399: The committed image is sealed, and a hello and an offer are sent; digestOk tells whether the read-back matches, fails how many attempts to write the seal failed. -/
  | tallyCommitDone (digestOk : Bool) (fails : Nat)
  /-- R401: A write of TL_CMD.STGOPEN starts erasing the staging target and reserves a COMSEQ. -/
  | stagingOpen (door : Initiator)
  /-- R401: The staging erase completes and BUSY clears. -/
  | stagingEraseDone
  /-- R401: A write of staging word 0x17FF programs 512 bytes and advances the offset. -/
  | stagingBlockProgram (door : Initiator) (v : Word)
  /-- R416: A write of TL_CMD.STGDONE checks the staged Tally or firmware, then seals it and enters UPDATE. -/
  | stagingDone (door : Initiator) (release : Nat) (sigOk : Bool)
  /-- R401: A write of TL_CMD.STGABORT ends staging without a seal. -/
  | stagingAbort (door : Initiator)
  /-- R411: MD_CMD.REQ 6 requests RUN, which is checked against the table of R411. -/
  | modeRequestRun (door : Initiator)
  /-- R411: MD_CMD.REQ 7 requests WATCH. -/
  | modeRequestWatch (door : Initiator)
  /-- R411: MD_CMD.REQ 8 requests CLEAN. -/
  | modeRequestClean (door : Initiator)
  /-- R421: MD_CMD.REQ 9 requests SERVICE, including the way out of SAFE. -/
  | modeRequestService (door : Initiator)
  /-- R411: MD_CMD.REQ 11 enters SAFE with fault 0x07. -/
  | modeRequestSafe (door : Initiator)
  /-- R415: A write of MD_CMD.RESTART starts an orderly restart. -/
  | modeRestartCmd (door : Initiator)
  /-- R412: After 5 ms, or once open transfers end, the WORK-off mode is entered and power-down is commanded. -/
  | modeChangePowerdown
  /-- R409: Time, drive and WORK conditions are met or time out, so SETTLE leaves to RUN or the requested mode. -/
  | settleExit (targets : ClassB)
  /-- R414: Sixty seconds at or below 100 °C return the module to the previous mode. -/
  | autoCleanReturn
  /-- R414: Each minute above 105 °C counts in MD_HOT.MIN, and HOTLIM is set at 90. -/
  | hotMinute
  /-- R415: The Landing drains within 100 ms and the controller die restarts through START. -/
  | orderlyRestart (boot : Boot)
  /-- R435: A non-secure access to a secure target is blocked, counted and signalled to SUP. -/
  | worldViolation (p : Proc) (target : BusTarget) (wr : Bool) (byteAddr : Nat)
  /-- R447: A source line rises, which sets pending or a group count and adds to ACC. -/
  | irqSourceEdge (n : Fin 160)
  /-- R447: An IC_PSETj bit sets a source pending and counts an event. -/
  | irqPendSet (door : Initiator) (j : Fin 5) (v : Word)
  /-- R448: An IC_PCLRj bit clears pending and moves ACC into IC_DISC. -/
  | irqPendClear (door : Initiator) (j : Fin 5) (v : Word)
  /-- R448: An IC_ESETj bit enables a source. -/
  | irqEnableSet (door : Initiator) (j : Fin 5) (v : Word)
  /-- R448: An IC_ECLRj bit disables a source. -/
  | irqEnableClear (door : Initiator) (j : Fin 5) (v : Word)
  /-- R449: A read of the claim word takes the lowest qualifying source with its count, or returns 0 or 255. -/
  | irqClaim (p : Proc)
  /-- R451: A write of the completion word ends service of the source, or sets BADCOMP. -/
  | irqComplete (p : Proc) (n : Nat)
  /-- R454: A group reaches its count or time and sets its members pending. -/
  | irqGroupFire (g : Fin 16)
  /-- R459: A read of an RL low half latches the high half into the initiator's shadow. -/
  | twoHalfLowRead (init : Initiator) (addr : Nat)
  /-- R459: A read of a high half returns the shadow, or the live value counted as UNLATCHED. -/
  | twoHalfHighRead (init : Initiator) (addr : Nat)
  /-- R458: A narrow write or out-of-window bus access is ignored and counted. -/
  | busWidthAccess (p : Proc) (byteAddr : Nat) (half wr : Bool)
  /-- R461: A multi-word processor access stops at the page end and counts in TRUNC. -/
  | busMultiwordAccess (p : Proc) (addr n : Nat)
  /-- R9: A write to a register with no row of its own acts on its fields by access code and world rules. -/
  | registerWrite (init : Initiator) (addr : Nat) (v : Word)
  /-- R57: The last-gasp sequence ends: with the hold-up exhausted the power die holds the module in reset (OFF), or with supply present again it starts the module with inrush. -/
  | lastGaspSequenceEnd (m : Meter)
  /-- R19: The power die releases the controller die after its reset, 1 ms after a PLL lock loss or after a watchdog reset, and START begins. -/
  | controllerResetRelease (boot : Boot)
  /-- R344: A filtering database entry that has not been refreshed for 300 s ages out of the switch. -/
  | filteringDatabaseAgeing (mac : Nat)
  /-- R326: A peer's Cystad stream publication, joined for a cross-spectrum setup, arrives and its records are paired by grid time, with checks of SSN gaps, run number and rate. -/
  | peerStreamPublicationReceive (d : Datagram)
  /-- R327: SKEW passes without the peer records a local block needs, so the block is discarded and the setup reads STATE 2. -/
  | crossSpectrumSkewExpiry (setup : Fin 32)
  /-- R9: A processor reads a register field of access RC over the internal bus, which returns the field and then clears it, with the same-tick rule of R10. -/
  | readClearsAccess (p : Proc) (addr : Nat)
  /-- R172: A service serial frame with a reserved opcode, a partial word or a timing violation ends at CS# rising and is rejected whole, with its result reported and counted. -/
  | sspFrameReject (f : SspFrame)
  /-- R353: A Cystad datagram at port C fails the form, authentication, replay or host-time check and is discarded and counted, with no reply. -/
  | cystadDatagramDiscard (d : Datagram)
  deriving DecidableEq, Repr, Inhabited

end Sys2Proof
end

