-- ==== Sys2Proof/Config.lean ====
section
/-!
DEFINITION. What an implementation fixes and the free values: constants without a body, so that nothing can be proved of the values the spec leaves open.
-/

namespace Sys2Proof.Machine

/-- A word the spec leaves open; the argument counts the uses (log entry 4). -/
opaque Config.freeWord : Nat → Word

/-- A fresh X25519 private key, and a fresh 12-byte nonce, of an enrollment (15 R395); the argument counts the uses (log entry 129). -/
opaque Config.freshKey : Nat → Nat
opaque Config.freshNonce : Nat → Nat

/-- The Ed25519 signature over bytes by the device identity key, whose private half never leaves the die (15 R395, 17 R437; log entry 31). -/
opaque Config.identitySign : List Byte → Nat

/-- The flash encryption key, generated on die at manufacture (17 R437; log entry 31). -/
opaque Config.flashKey : Nat

/-- What the factory wrote into each module, whose values the spec leaves open (log entry 31): words 0 and 1 the serial number (09 R243), 2 and 3 the MAC
address (14 R341), 4 to 11 the device identity public key (17 R437). -/
opaque Config.factoryWord : Nat → Word

/-- The fixed PHY receive and transmit latency of a port, in 1/65 536 ns, at the factory setting of its class B taps (03 R77; log entry 109). -/
opaque Config.phyRx : Port → Nat
opaque Config.phyTx : Port → Nat

/-- The excitation reference of stage 1 at each of the 32 positions of a carrier period (07 R182); its values are open (log entry 41). -/
opaque Config.excRef : Nat → Int

/-- The drive reference of a G slot at a phase of the drive loop, in 2^-32 of a drive period (07 R182); its values are open (log entry 41). -/
opaque Config.driveRef : Nat → Int

/-- The bits below a stage-1 word that the words after the CIC keep, at most 12 (07 R183, R184; log entry 41). -/
opaque Config.cicBits : Nat

/-- The word that stage 1 of the Mill keeps of its exact result (07 R182, R183): its scale is open (log entry 41). -/
opaque Config.stageWord : Int → Int

/-- Whether stage k rounds an exact result up to the next whole LSB instead of down (07 R184 to R188, R196): the rounding inside the stages is open (log entry 41). -/
opaque Config.roundUp : Nat → Int → Bool

/-- A tap of half-band decimator 1 or 2, at an odd distance from its centre, in 2^-23 (07 R181; log entry 41). -/
opaque Config.halfTap : Nat → Nat → Int

/-- A tap of factory profile 0, 1 or 2, counted from its nearer end for the linear-phase profiles, in 2^-23 (07 R190; log entry 41). -/
opaque Config.profileTap : Nat → Nat → Int

/-- Factory gain and offset and the orthogonality correction of a slot (07 R188, 04 R95): from the slot, the range in use, the stage-6 value of the slot and those of
the other two axes of its kind, the value in 1/65 536 LSB; for slot 10 the voltage in 1/65 536 µV; the factory values are open (log entry 31). -/
opaque Config.factoryCal : Nat → Nat → Int → List (Option Int) → Int

/-- The QCOEF that a run leads to, from the one in use and the ratio of the run's offset change to Q's change in 1/64 (09 R239; log entry 13). -/
opaque Config.qcoef : Int → Int → Int

/-- The result of an output of an analysis function where the spec states none, as for a ratio of two zeros: the arguments are the function and the output (13 R321, R326;
log entry 118). -/
opaque Config.noResult : Nat → Nat → Word

/-- The impulse response, in 2^-32, of the envelope's fourth-order band-pass for FC and BW in binary32 at a rate code, by record: the spec gives no shape
(13 R324; log entry 118). -/
opaque Config.bandPass : Nat → Nat → Nat → Nat → Int

/-- The impulse response, in 2^-32, of the envelope's low-pass at BW/2, from BW in binary32, the rate code and the record: the spec gives no shape (13 R324; log entry 118). -/
opaque Config.envelopeLow : Nat → Nat → Nat → Int

/-- The amplitude of the rate drive in % of its target while it starts: the arguments are the CLK tick of the start and the ticks since (04 R114; log entry 17). -/
opaque Config.driveAmp : Nat → Nat → Nat

end Sys2Proof.Machine
end

