-- ==== Sys2Proof/Machine/Fields.lean ====
section
/-!
DEFINITION. The fields of the register map (19 R472), each at the word and bits its defining chapter's field table gives.
A name is the manual's, PAGE_REG_FIELD; an argument is the register's index (slot s, axis i, engine e, ...).
-/

namespace Sys2Proof.Machine

/-- R3, RO. -/
def ID_PART_FAMILY : Field := ⟨0x0000, 16, 16⟩
/-- R3, RO. -/
def ID_PART_AXES : Field := ⟨0x0000, 8, 8⟩
/-- R3, RO. -/
def ID_PART_PORTS : Field := ⟨0x0000, 4, 4⟩
/-- R3, RO. -/
def ID_SIREV_STEP : Field := ⟨0x0001, 4, 4⟩
/-- R3, RO. -/
def ID_SIREV_MINOR : Field := ⟨0x0001, 0, 4⟩
/-- R3, RO. -/
def ID_FWREL_MAJOR : Field := ⟨0x0002, 16, 16⟩
/-- R3, RO. -/
def ID_FWREL_MINOR : Field := ⟨0x0002, 0, 16⟩
/-- R20, RO. -/
def ID_RSTCAUSE_CAUSE : Field := ⟨0x0003, 0, 8⟩
/-- R28, RC. -/
def ID_DOMST_OFFACC : Field := ⟨0x0004, 16, 16⟩
/-- R28, RO. -/
def ID_DOMST_WSTATE : Field := ⟨0x0004, 4, 2⟩
/-- R28, RO. -/
def ID_DOMST_RATEG : Field := ⟨0x0004, 3, 1⟩
/-- R28, RO. -/
def ID_DOMST_QG : Field := ⟨0x0004, 2, 1⟩
/-- R28, RO. -/
def ID_DOMST_WCG : Field := ⟨0x0004, 1, 1⟩
/-- R64, RO. -/
def PWR_ST_MOUNTED : Field := ⟨0x0100, 11, 1⟩
/-- R64, RO. -/
def PWR_ST_TWARM : Field := ⟨0x0100, 10, 1⟩
/-- R64, RO. -/
def PWR_ST_INB : Field := ⟨0x0100, 9, 1⟩
/-- R64, RO. -/
def PWR_ST_INA : Field := ⟨0x0100, 8, 1⟩
/-- R64, RO. -/
def PWR_ST_PSTB : Field := ⟨0x0100, 4, 3⟩
/-- R64, RO. -/
def PWR_ST_PSTA : Field := ⟨0x0100, 0, 3⟩
/-- R64, RW. -/
def PWR_CTL_TWEN : Field := ⟨0x0101, 2, 1⟩
/-- R64, RW. -/
def PWR_CTL_PTEN : Field := ⟨0x0101, 0, 2⟩
/-- R64, RO. -/
def PWR_VIN_VA : Field := ⟨0x0102, 16, 16⟩
/-- R64, RO. -/
def PWR_VIN_VB : Field := ⟨0x0102, 0, 16⟩
/-- R64, RO. -/
def PWR_IPT_IA : Field := ⟨0x0103, 16, 16⟩
/-- R64, RO. -/
def PWR_IPT_IB : Field := ⟨0x0103, 0, 16⟩
/-- R64, RO. -/
def PWR_PIN_HOLDUP : Field := ⟨0x0104, 16, 16⟩
/-- R64, RO. -/
def PWR_PIN_PIN : Field := ⟨0x0104, 0, 16⟩
/-- R64, W1C. -/
def PWR_EVT_TWIST : Field := ⟨0x0105, 6, 1⟩
/-- R64, W1C. -/
def PWR_EVT_DEPB : Field := ⟨0x0105, 5, 1⟩
/-- R64, W1C. -/
def PWR_EVT_DEPA : Field := ⟨0x0105, 4, 1⟩
/-- R64, W1C. -/
def PWR_EVT_PTFLTB : Field := ⟨0x0105, 3, 1⟩
/-- R64, W1C. -/
def PWR_EVT_PTFLTA : Field := ⟨0x0105, 2, 1⟩
/-- R64, W1C. -/
def PWR_EVT_SURGE : Field := ⟨0x0105, 1, 1⟩
/-- R64, W1C. -/
def PWR_EVT_UV : Field := ⟨0x0105, 0, 1⟩
/-- R64, RC. -/
def PWR_CNT_PTFLTA : Field := ⟨0x0106, 24, 8⟩
/-- R64, RC. -/
def PWR_CNT_PTFLTB : Field := ⟨0x0106, 16, 8⟩
/-- R64, RC. -/
def PWR_CNT_SURGECNT : Field := ⟨0x0106, 8, 8⟩
/-- R64, RC. -/
def PWR_CNT_TWISTCNT : Field := ⟨0x0106, 0, 8⟩
/-- R64, RO. -/
def PWR_TWANG_ANGLE : Field := ⟨0x0107, 0, 16⟩
/-- R90, RO. -/
def TIME_ST_SLAVEPORT : Field := ⟨0x0200, 4, 2⟩
/-- R90, RO. -/
def TIME_ST_GUARD : Field := ⟨0x0200, 3, 1⟩
/-- R90, RO. -/
def TIME_ST_STATE : Field := ⟨0x0200, 0, 3⟩
/-- R90, W1C. -/
def TIME_EVT_CMDIGN : Field := ⟨0x0201, 6, 1⟩
/-- R90, W1C. -/
def TIME_EVT_CLAMP : Field := ⟨0x0201, 5, 1⟩
/-- R90, W1C. -/
def TIME_EVT_GUARD : Field := ⟨0x0201, 4, 1⟩
/-- R90, W1C. -/
def TIME_EVT_LOST : Field := ⟨0x0201, 3, 1⟩
/-- R90, W1C. -/
def TIME_EVT_ACCEPTED : Field := ⟨0x0201, 2, 1⟩
/-- R90, W1C. -/
def TIME_EVT_REFUSED : Field := ⟨0x0201, 1, 1⟩
/-- R90, W1C. -/
def TIME_EVT_INIT : Field := ⟨0x0201, 0, 1⟩
/-- R90, WO. -/
def TIME_CMD_SNAP : Field := ⟨0x0202, 1, 1⟩
/-- R90, WO. -/
def TIME_CMD_ACCEPT : Field := ⟨0x0202, 0, 1⟩
/-- R90, RW. -/
def TIME_JUMP_NS : Field := ⟨0x0203, 0, 30⟩
/-- R90, RW. -/
def TIME_CONF_AUTO : Field := ⟨0x0204, 16, 1⟩
/-- R90, RW. -/
def TIME_CONF_WIN : Field := ⟨0x0204, 0, 16⟩
/-- R90, RW. -/
def TIME_LIM_LOCKTH : Field := ⟨0x0205, 16, 16⟩
/-- R90, RW. -/
def TIME_LIM_TOL : Field := ⟨0x0205, 0, 16⟩
/-- R90, RW. -/
def TIME_KP_KP : Field := ⟨0x0206, 0, 24⟩
/-- R90, RW. -/
def TIME_KI_KI : Field := ⟨0x0207, 0, 24⟩
/-- R90, RW. -/
def TIME_YMAX_PPB : Field := ⟨0x0208, 0, 18⟩
/-- R90, RO. -/
def TIME_Y_Y : Field := ⟨0x0209, 0, 32⟩
/-- R90, RO. -/
def TIME_OFS_NS : Field := ⟨0x020A, 0, 32⟩
/-- R90, RC. -/
def TIME_CONFT_RESTARTS : Field := ⟨0x020B, 16, 16⟩
/-- R90, RO. -/
def TIME_CONFT_ELAPSED : Field := ⟨0x020B, 0, 16⟩
/-- R90, RL. -/
def TIME_CAND_LO : Field := ⟨0x020C, 0, 32⟩
/-- R90, RO. -/
def TIME_CAND_HI : Field := ⟨0x020D, 0, 32⟩
/-- R90, RL. -/
def TIME_INC_FRAC : Field := ⟨0x020E, 0, 32⟩
/-- R90, RO. -/
def TIME_INC_NS : Field := ⟨0x020F, 0, 8⟩
/-- R90, RL. -/
def TIME_SNAPS_LO : Field := ⟨0x0210, 0, 32⟩
/-- R90, RO. -/
def TIME_SNAPS_HI : Field := ⟨0x0211, 0, 32⟩
/-- R90, RO. -/
def TIME_SNAPNS_SEQ : Field := ⟨0x0212, 30, 2⟩
/-- R90, RO. -/
def TIME_SNAPNS_NS : Field := ⟨0x0212, 0, 30⟩
/-- R90, RO. -/
def TIME_SNAPFR_FRAC : Field := ⟨0x0213, 0, 32⟩
/-- R90, RW. -/
def TIME_ASYM_A : Field := ⟨0x0214, 16, 16⟩
/-- R90, RW. -/
def TIME_ASYM_B : Field := ⟨0x0214, 0, 16⟩
/-- R90, RO. -/
def TIME_PDLYA_D : Field := ⟨0x0215, 0, 32⟩
/-- R90, RO. -/
def TIME_PDLYB_D : Field := ⟨0x0216, 0, 32⟩
/-- R90, RC. -/
def TIME_CNT_REFCNT : Field := ⟨0x0217, 24, 8⟩
/-- R90, RC. -/
def TIME_CNT_ACCCNT : Field := ⟨0x0217, 16, 8⟩
/-- R90, RC. -/
def TIME_CNT_GUARDCNT : Field := ⟨0x0217, 8, 8⟩
/-- R90, RC. -/
def TIME_CNT_LOSTCNT : Field := ⟨0x0217, 0, 8⟩
/-- R90, RW. -/
def TIME_PTP_LOGPDLY : Field := ⟨0x0218, 8, 8⟩
/-- R90, RW. -/
def TIME_PTP_DOMAIN : Field := ⟨0x0218, 0, 8⟩
/-- R121, RW. -/
def AX_CFG_QCOEF (s : Nat) : Field := ⟨0x0400 + 0x40 * s, 8, 8⟩
/-- R121, RW. -/
def AX_CFG_QEN (s : Nat) : Field := ⟨0x0400 + 0x40 * s, 6, 1⟩
/-- R121, RW. -/
def AX_CFG_EXCLVL (s : Nat) : Field := ⟨0x0400 + 0x40 * s, 4, 2⟩
/-- R121, RW. -/
def AX_CFG_AUTO (s : Nat) : Field := ⟨0x0400 + 0x40 * s, 2, 1⟩
/-- R121, RW. -/
def AX_CFG_RANGE (s : Nat) : Field := ⟨0x0400 + 0x40 * s, 0, 2⟩
/-- R121, RO. -/
def AX_ST_PRANGE (s : Nat) : Field := ⟨0x0401 + 0x40 * s, 8, 2⟩
/-- R121, RO. -/
def AX_ST_DNHOLD (s : Nat) : Field := ⟨0x0401 + 0x40 * s, 7, 1⟩
/-- R121, RO. -/
def AX_ST_HOLDMS (s : Nat) : Field := ⟨0x0401 + 0x40 * s, 0, 7⟩
/-- R121, W1C. -/
def AX_EVT_SAT (s : Nat) : Field := ⟨0x0402 + 0x40 * s, 2, 1⟩
/-- R121, W1C. -/
def AX_EVT_DN (s : Nat) : Field := ⟨0x0402 + 0x40 * s, 1, 1⟩
/-- R121, W1C. -/
def AX_EVT_UP (s : Nat) : Field := ⟨0x0402 + 0x40 * s, 0, 1⟩
/-- R121, RC. -/
def AX_CNT_UPCNT (s : Nat) : Field := ⟨0x0403 + 0x40 * s, 16, 16⟩
/-- R121, RC. -/
def AX_CNT_DNCNT (s : Nat) : Field := ⟨0x0403 + 0x40 * s, 0, 16⟩
/-- R121, RO. -/
def DRV_ST_FREQ : Field := ⟨0x0584, 16, 16⟩
/-- R121, RO. -/
def DRV_ST_AMP : Field := ⟨0x0584, 8, 8⟩
/-- R121, W1C. -/
def DRV_ST_UNLOCK : Field := ⟨0x0584, 1, 1⟩
/-- R121, RO. -/
def DRV_ST_LOCK : Field := ⟨0x0584, 0, 1⟩
/-- R121, RO. -/
def DRV_CNT_STARTMS : Field := ⟨0x0585, 16, 16⟩
/-- R121, RC. -/
def DRV_CNT_LOSSCNT : Field := ⟨0x0585, 0, 8⟩
/-- R121, RO. -/
def Q_CORR_UG : Field := ⟨0x0644, 0, 32⟩
/-- R121, RO. -/
def Q_ST_HELD : Field := ⟨0x0645, 0, 1⟩
/-- R151, RW. -/
def HK_CTL_MAXAGE : Field := ⟨0x0800, 24, 8⟩
/-- R151, RW. -/
def HK_CTL_REFEN : Field := ⟨0x0800, 4, 1⟩
/-- R151, RW. -/
def HK_CTL_LEN : Field := ⟨0x0800, 0, 4⟩
/-- R151, WO. -/
def HK_CMD_INJ : Field := ⟨0x0801, 1, 1⟩
/-- R151, WO. -/
def HK_CMD_APPLY : Field := ⟨0x0801, 0, 1⟩
/-- R151, RO. -/
def HK_ST_ENTRY : Field := ⟨0x0802, 28, 4⟩
/-- R151, RO. -/
def HK_ST_INJRUN : Field := ⟨0x0802, 27, 1⟩
/-- R151, RO. -/
def HK_ST_INJPEND : Field := ⟨0x0802, 24, 3⟩
/-- R151, RO. -/
def HK_ST_REJ : Field := ⟨0x0802, 16, 8⟩
/-- R151, RO. -/
def HK_ST_APPLYPEND : Field := ⟨0x0802, 1, 1⟩
/-- R151, RO. -/
def HK_ST_REFRDY : Field := ⟨0x0802, 0, 1⟩
/-- R151, W1C. -/
def HK_EVT_STALE : Field := ⟨0x0803, 3, 1⟩
/-- R151, W1C. -/
def HK_EVT_OVR : Field := ⟨0x0803, 2, 1⟩
/-- R151, W1C. -/
def HK_EVT_SEQREJ : Field := ⟨0x0803, 1, 1⟩
/-- R151, W1C. -/
def HK_EVT_SEQOK : Field := ⟨0x0803, 0, 1⟩
/-- R151, RC. -/
def HK_CNT_ABORTS : Field := ⟨0x0804, 16, 16⟩
/-- R151, RC. -/
def HK_CNT_INJMRG : Field := ⟨0x0804, 8, 8⟩
/-- R151, RC. -/
def HK_CNT_NOTSET : Field := ⟨0x0804, 0, 8⟩
/-- R151, RO. -/
def HK_PASS_CLK : Field := ⟨0x0805, 0, 20⟩
/-- R151, RW. -/
def HK_SEQ_INPUT (n : Nat) : Field := ⟨0x0810 + n, 26, 6⟩
/-- R151, RW. -/
def HK_SEQ_GAIN (n : Nat) : Field := ⟨0x0810 + n, 24, 2⟩
/-- R151, RW. -/
def HK_SEQ_TRK (n : Nat) : Field := ⟨0x0810 + n, 16, 8⟩
/-- R151, RW. -/
def HK_SEQ_AVG (n : Nat) : Field := ⟨0x0810 + n, 13, 3⟩
/-- R151, RW. -/
def HK_SEQ_DEST (n : Nat) : Field := ⟨0x0810 + n, 10, 3⟩
/-- R151, RO. -/
def HK_RES_VALUE (n : Nat) : Field := ⟨0x0820 + n, 8, 24⟩
/-- R151, RO. -/
def HK_RES_NOTSET (n : Nat) : Field := ⟨0x0820 + n, 2, 1⟩
/-- R151, RO. -/
def HK_RES_OVR (n : Nat) : Field := ⟨0x0820 + n, 1, 1⟩
/-- R151, RC. -/
def HK_RES_NEW (n : Nat) : Field := ⟨0x0820 + n, 0, 1⟩
/-- R151, RW. -/
def HK_INJCFG_ENTRY (k : Nat) : Field := ⟨0x0830 + k, 13, 19⟩
/-- R151, RW. -/
def HK_INJCFG_ABORT (k : Nat) : Field := ⟨0x0830 + k, 12, 1⟩
/-- R151, RC. -/
def CV_ST_OVRCNT (i : Nat) : Field := ⟨0x0840 + i, 16, 16⟩
/-- R151, RO. -/
def CV_ST_NOTSET (i : Nat) : Field := ⟨0x0840 + i, 1, 1⟩
/-- R151, RO. -/
def CV_ST_GATED (i : Nat) : Field := ⟨0x0840 + i, 0, 1⟩
/-- R151, RW. -/
def SCAL_CTL_CH : Field := ⟨0x0880, 12, 4⟩
/-- R151, RW. -/
def SCAL_CTL_STIM : Field := ⟨0x0880, 0, 1⟩
/-- R151, WO. -/
def SCAL_CMD_DISCARD : Field := ⟨0x0881, 4, 1⟩
/-- R151, WO. -/
def SCAL_CMD_ABORT : Field := ⟨0x0881, 3, 1⟩
/-- R151, WO. -/
def SCAL_CMD_CAPS : Field := ⟨0x0881, 1, 1⟩
/-- R151, WO. -/
def SCAL_CMD_CAPZ : Field := ⟨0x0881, 0, 1⟩
/-- R151, RW. -/
def SCAL_REF1_V : Field := ⟨0x0882, 0, 24⟩
/-- R151, RW. -/
def SCAL_REF2_V : Field := ⟨0x0883, 0, 24⟩
/-- R151, RW. -/
def SCAL_FREQ_F : Field := ⟨0x0884, 0, 24⟩
/-- R151, RO. -/
def SCAL_ST_STATE : Field := ⟨0x0885, 28, 4⟩
/-- R151, RO. -/
def SCAL_ST_FAIL : Field := ⟨0x0885, 16, 8⟩
/-- R151, RO. -/
def SCAL_ST_BUSY : Field := ⟨0x0885, 0, 1⟩
/-- R151, RO. -/
def SCAL_MEAS_V : Field := ⟨0x0886, 0, 32⟩
/-- R151, RO. -/
def SCAL_GAIN_G (s : Nat) : Field := ⟨0x0890 + 2 * s, 0, 24⟩
/-- R151, RO. -/
def SCAL_OFS_O (s : Nat) : Field := ⟨0x0891 + 2 * s, 0, 24⟩
/-- R179, RW. -/
def AUX_CFG_PU : Field := ⟨0x0A00, 4, 1⟩
/-- R179, RW. -/
def AUX_CFG_FUNC : Field := ⟨0x0A00, 0, 2⟩
/-- R179, RW. -/
def AUX_IN_VHI : Field := ⟨0x0A01, 24, 8⟩
/-- R179, RW. -/
def AUX_IN_VLO : Field := ⟨0x0A01, 16, 8⟩
/-- R179, RW. -/
def AUX_IN_MINPW : Field := ⟨0x0A01, 0, 12⟩
/-- R179, RW. -/
def AUX_TACH_STUCK : Field := ⟨0x0A02, 16, 16⟩
/-- R179, RW. -/
def AUX_TACH_MODE : Field := ⟨0x0A02, 9, 1⟩
/-- R179, RW. -/
def AUX_TACH_EDGE : Field := ⟨0x0A02, 8, 1⟩
/-- R179, RW. -/
def AUX_TACH_PPR : Field := ⟨0x0A02, 0, 8⟩
/-- R179, RW. -/
def AUX_PRB_TYPE : Field := ⟨0x0A03, 0, 2⟩
/-- R179, RW. -/
def AUX_RLEAD_MOHM : Field := ⟨0x0A04, 0, 20⟩
/-- R179, RW. -/
def AUX_CMWIN_LO : Field := ⟨0x0A05, 16, 16⟩
/-- R179, RW. -/
def AUX_CMWIN_HI : Field := ⟨0x0A05, 0, 16⟩
/-- R179, RW. -/
def AUX_OUT_IDLE : Field := ⟨0x0A06, 4, 2⟩
/-- R179, RW. -/
def AUX_OUT_PE : Field := ⟨0x0A06, 0, 3⟩
/-- R179, WO. -/
def AUX_CMD_LEADMEAS : Field := ⟨0x0A07, 0, 1⟩
/-- R179, RO. -/
def AUX_ST_CLAMP : Field := ⟨0x0A08, 7, 1⟩
/-- R179, RO. -/
def AUX_ST_LEVEL : Field := ⟨0x0A08, 6, 1⟩
/-- R179, RO. -/
def AUX_ST_OVSPD : Field := ⟨0x0A08, 5, 1⟩
/-- R179, RO. -/
def AUX_ST_STUCK : Field := ⟨0x0A08, 4, 1⟩
/-- R179, RO. -/
def AUX_ST_PFLT : Field := ⟨0x0A08, 2, 2⟩
/-- R179, RO. -/
def AUX_ST_SVC : Field := ⟨0x0A08, 1, 1⟩
/-- R179, RO. -/
def AUX_ST_LEADBUSY : Field := ⟨0x0A08, 0, 1⟩
/-- R179, W1C. -/
def AUX_EVT_LEADFAIL : Field := ⟨0x0A09, 6, 1⟩
/-- R179, W1C. -/
def AUX_EVT_LEADOK : Field := ⟨0x0A09, 5, 1⟩
/-- R179, W1C. -/
def AUX_EVT_OFLT : Field := ⟨0x0A09, 4, 1⟩
/-- R179, W1C. -/
def AUX_EVT_PFLT : Field := ⟨0x0A09, 3, 1⟩
/-- R179, W1C. -/
def AUX_EVT_STUCK : Field := ⟨0x0A09, 2, 1⟩
/-- R179, W1C. -/
def AUX_EVT_OVSPD : Field := ⟨0x0A09, 1, 1⟩
/-- R179, W1C. -/
def AUX_EVT_CLAMP : Field := ⟨0x0A09, 0, 1⟩
/-- R179, RC. -/
def AUX_CNT_ABSORB : Field := ⟨0x0A0A, 16, 16⟩
/-- R179, RC. -/
def AUX_CNT_CLAMPCNT : Field := ⟨0x0A0A, 8, 8⟩
/-- R179, RC. -/
def AUX_CNT_OVSPDCNT : Field := ⟨0x0A0A, 0, 8⟩
/-- R179, RO. -/
def AUX_EDGE_COUNT : Field := ⟨0x0A0B, 0, 32⟩
/-- R179, RO. -/
def AUX_PER_TICKS : Field := ⟨0x0A0C, 0, 32⟩
/-- R179, RO. -/
def AUX_RMEAS_MOHM : Field := ⟨0x0A0D, 0, 32⟩
/-- R179, RW. -/
def SSP_CFG_CPOL : Field := ⟨0x0A20, 1, 1⟩
/-- R179, RW. -/
def SSP_CFG_CPHA : Field := ⟨0x0A20, 0, 1⟩
/-- R179, RW. -/
def SSP_DLY_GAP : Field := ⟨0x0A21, 20, 10⟩
/-- R179, RW. -/
def SSP_DLY_CSHOLD : Field := ⟨0x0A21, 10, 10⟩
/-- R179, RW. -/
def SSP_DLY_CSSETUP : Field := ⟨0x0A21, 0, 10⟩
/-- R179, RO. -/
def SSP_ST_LASTOP : Field := ⟨0x0A22, 8, 8⟩
/-- R179, RO. -/
def SSP_ST_TRUNC : Field := ⟨0x0A22, 7, 1⟩
/-- R179, RO. -/
def SSP_ST_RES : Field := ⟨0x0A22, 4, 3⟩
/-- R179, RO. -/
def SSP_ST_ACTIVE : Field := ⟨0x0A22, 3, 1⟩
/-- R179, RO. -/
def SSP_ST_MASTER : Field := ⟨0x0A22, 2, 1⟩
/-- R179, RC. -/
def SSP_CNT_REJ : Field := ⟨0x0A23, 24, 8⟩
/-- R179, RC. -/
def SSP_CNT_EXTRA : Field := ⟨0x0A23, 16, 8⟩
/-- R179, RC. -/
def SSP_CNT_TIMING : Field := ⟨0x0A23, 8, 8⟩
/-- R179, RC. -/
def SSP_CNT_FRAMES : Field := ⟨0x0A23, 0, 8⟩
/-- R205, RW. -/
def ML_CFG_FADEK (s : Nat) : Field := ⟨0x0410 + 0x40 * s, 4, 4⟩
/-- R205, RW. -/
def ML_CFG_RAW (s : Nat) : Field := ⟨0x0410 + 0x40 * s, 0, 1⟩
/-- R205, WO. -/
def ML_CTL_SYNC (s : Nat) : Field := ⟨0x0411 + 0x40 * s, 1, 1⟩
/-- R205, WO. -/
def ML_CTL_SWAP (s : Nat) : Field := ⟨0x0411 + 0x40 * s, 0, 1⟩
/-- R205, RO. -/
def ML_ST_RESTARTS (s : Nat) : Field := ⟨0x0412 + 0x40 * s, 24, 8⟩
/-- R205, RO. -/
def ML_ST_SWRES (s : Nat) : Field := ⟨0x0412 + 0x40 * s, 16, 4⟩
/-- R205, RO. -/
def ML_ST_BST1 (s : Nat) : Field := ⟨0x0412 + 0x40 * s, 10, 2⟩
/-- R205, RO. -/
def ML_ST_BST0 (s : Nat) : Field := ⟨0x0412 + 0x40 * s, 8, 2⟩
/-- R205, RO. -/
def ML_ST_NEVER (s : Nat) : Field := ⟨0x0412 + 0x40 * s, 7, 1⟩
/-- R205, RO. -/
def ML_ST_ACT (s : Nat) : Field := ⟨0x0412 + 0x40 * s, 3, 1⟩
/-- R205, RO. -/
def ML_ST_STATE (s : Nat) : Field := ⟨0x0412 + 0x40 * s, 0, 3⟩
/-- R205, RO. -/
def ML_SETL_LEN (s : Nat) : Field := ⟨0x0413 + 0x40 * s, 0, 20⟩
/-- R205, RO. -/
def ML_SREM_REM (s : Nat) : Field := ⟨0x0414 + 0x40 * s, 0, 20⟩
/-- R205, RO. -/
def ML_GD_NS (s : Nat) : Field := ⟨0x0415 + 0x40 * s, 0, 32⟩
/-- R205, W1C. -/
def ML_EVT_NEVER (s : Nat) : Field := ⟨0x0416 + 0x40 * s, 4, 1⟩
/-- R205, W1C. -/
def ML_EVT_LDREJ (s : Nat) : Field := ⟨0x0416 + 0x40 * s, 3, 1⟩
/-- R205, W1C. -/
def ML_EVT_SWREF (s : Nat) : Field := ⟨0x0416 + 0x40 * s, 2, 1⟩
/-- R205, W1C. -/
def ML_EVT_SWDONE (s : Nat) : Field := ⟨0x0416 + 0x40 * s, 1, 1⟩
/-- R205, W1C. -/
def ML_EVT_SETTLED (s : Nat) : Field := ⟨0x0416 + 0x40 * s, 0, 1⟩
/-- R205, RC. -/
def ML_CNT_SUPCNT (s : Nat) : Field := ⟨0x0417 + 0x40 * s, 16, 16⟩
/-- R205, RC. -/
def ML_CNT_LDREJ (s : Nat) : Field := ⟨0x0417 + 0x40 * s, 8, 8⟩
/-- R205, RC. -/
def ML_CNT_SWREF (s : Nat) : Field := ⟨0x0417 + 0x40 * s, 0, 8⟩
/-- R206, RW. -/
def MB_HDR_SRC (k : Nat) : Field := ⟨0x0C00 + 0x20 * k, 30, 2⟩
/-- R206, RW. -/
def MB_HDR_NTAP (k : Nat) : Field := ⟨0x0C00 + 0x20 * k, 16, 9⟩
/-- R206, RW. -/
def MB_HDR_NBQ (k : Nat) : Field := ⟨0x0C00 + 0x20 * k, 0, 3⟩
/-- R206, RW. -/
def MB_GD_GD (k : Nat) : Field := ⟨0x0C01 + 0x20 * k, 0, 16⟩
/-- R206, RW. -/
def MB_BQ_C (k q j : Nat) : Field := ⟨0x0C08 + 0x20 * k + 5 * q + j, 0, 32⟩
/-- R206, RW. -/
def MT_TAP_C (k n : Nat) : Field := ⟨0x2000 + 0x100 * k + n, 0, 24⟩
/-- R207, WO. -/
def ML_GCMD_SYNC : Field := ⟨0x0B00, 0, 1⟩
/-- R207, RC. -/
def ML_GST_SYNCCNT : Field := ⟨0x0B01, 16, 16⟩
/-- R207, RC. -/
def ML_GST_ECCCNT : Field := ⟨0x0B01, 8, 8⟩
/-- R224, RW. -/
def GR_CFG_EN (s : Nat) : Field := ⟨0x0420 + 0x40 * s, 5, 1⟩
/-- R224, RW. -/
def GR_CFG_RATE (s : Nat) : Field := ⟨0x0420 + 0x40 * s, 0, 4⟩
/-- R224, RO. -/
def GR_LAST_WORD (s : Nat) : Field := ⟨0x0421 + 0x40 * s, 0, 32⟩
/-- R224, RL. -/
def GR_SSN_LO (s : Nat) : Field := ⟨0x0422 + 0x40 * s, 0, 32⟩
/-- R224, RO. -/
def GR_SSN_HI (s : Nat) : Field := ⟨0x0423 + 0x40 * s, 0, 16⟩
/-- R224, RC. -/
def GR_CNT_MARKERS (s : Nat) : Field := ⟨0x0424 + 0x40 * s, 0, 32⟩
/-- R224, W1C. -/
def GR_EVT_TSTEP (s : Nat) : Field := ⟨0x0425 + 0x40 * s, 1, 1⟩
/-- R224, W1C. -/
def GR_EVT_RATEREJ (s : Nat) : Field := ⟨0x0425 + 0x40 * s, 0, 1⟩
/-- R225, RO. -/
def ID_RUN_RUN : Field := ⟨0x0005, 0, 32⟩
/-- R247, RW. -/
def CAL_CTL_DTA : Field := ⟨0x1000, 16, 8⟩
/-- R247, RW. -/
def CAL_CTL_DTB : Field := ⟨0x1000, 8, 8⟩
/-- R247, WO. -/
def CAL_CMD_CLASSB : Field := ⟨0x1001, 11, 1⟩
/-- R247, WO. -/
def CAL_CMD_RUN : Field := ⟨0x1001, 0, 10⟩
/-- R247, RO. -/
def CAL_GST_SLOPE : Field := ⟨0x1002, 16, 16⟩
/-- R247, RO. -/
def CAL_GST_DEFER : Field := ⟨0x1002, 15, 1⟩
/-- R247, RO. -/
def CAL_GST_RUNAX : Field := ⟨0x1002, 8, 4⟩
/-- R247, RO. -/
def CAL_GST_BWALK : Field := ⟨0x1002, 0, 1⟩
/-- R247, W1C. -/
def CAL_EVT_CMDREJ : Field := ⟨0x1003, 7, 1⟩
/-- R247, W1C. -/
def CAL_EVT_BLIMIT : Field := ⟨0x1003, 6, 1⟩
/-- R247, W1C. -/
def CAL_EVT_RSTREJ : Field := ⟨0x1003, 5, 1⟩
/-- R247, W1C. -/
def CAL_EVT_RSTOK : Field := ⟨0x1003, 4, 1⟩
/-- R247, W1C. -/
def CAL_EVT_DEGR : Field := ⟨0x1003, 3, 1⟩
/-- R247, W1C. -/
def CAL_EVT_ABAND : Field := ⟨0x1003, 2, 1⟩
/-- R247, W1C. -/
def CAL_EVT_FAIL : Field := ⟨0x1003, 1, 1⟩
/-- R247, W1C. -/
def CAL_EVT_DONE : Field := ⟨0x1003, 0, 1⟩
/-- R247, RL. -/
def CAL_SN_LO : Field := ⟨0x1004, 0, 32⟩
/-- R247, RO. -/
def CAL_SN_HI : Field := ⟨0x1005, 0, 32⟩
/-- R247, WO. -/
def CAL_RST_CMD : Field := ⟨0x1006, 0, 3⟩
/-- R247, RO. -/
def CAL_RSTST_RES : Field := ⟨0x1007, 24, 8⟩
/-- R247, RO. -/
def CAL_RSTST_VIEW : Field := ⟨0x1007, 0, 2⟩
/-- R247, RW. -/
def CAL_BIND_B : Field := ⟨0x1008, 0, 32⟩
/-- R247, RC. -/
def CAL_ST_ABAND (i : Nat) : Field := ⟨0x1010 + 4 * i, 24, 8⟩
/-- R247, RC. -/
def CAL_ST_RUNS (i : Nat) : Field := ⟨0x1010 + 4 * i, 16, 8⟩
/-- R247, RO. -/
def CAL_ST_REASON (i : Nat) : Field := ⟨0x1010 + 4 * i, 12, 4⟩
/-- R247, RO. -/
def CAL_ST_FAILS (i : Nat) : Field := ⟨0x1010 + 4 * i, 8, 2⟩
/-- R247, RO. -/
def CAL_ST_STATE (i : Nat) : Field := ⟨0x1010 + 4 * i, 0, 3⟩
/-- R247, RW. -/
def CAL_OFS_DAC (i : Nat) : Field := ⟨0x1011 + 4 * i, 20, 12⟩
/-- R247, RW. -/
def CAL_OFS_RES (i : Nat) : Field := ⟨0x1011 + 4 * i, 0, 20⟩
/-- R247, RW. -/
def CAL_GAIN_DAC (i : Nat) : Field := ⟨0x1012 + 4 * i, 20, 12⟩
/-- R247, RW. -/
def CAL_GAIN_RES (i : Nat) : Field := ⟨0x1012 + 4 * i, 0, 20⟩
/-- R247, RW. -/
def CAL_TREF_TREF (i : Nat) : Field := ⟨0x1013 + 4 * i, 16, 16⟩
/-- R247, RW. -/
def CAL_DRV_DAC : Field := ⟨0x1040, 20, 12⟩
/-- R247, RW. -/
def CAL_TAPS : Field := ⟨0x1041, 0, 32⟩
/-- R247, RO. -/
def CAL_TAPT : Field := ⟨0x1042, 0, 32⟩
/-- R247, RW. -/
def CAL_STRB0 : Field := ⟨0x1043, 0, 32⟩
/-- R247, RW. -/
def CAL_STRB1 : Field := ⟨0x1044, 0, 32⟩
/-- R247, RW. -/
def CAL_AUXT : Field := ⟨0x1045, 0, 32⟩
/-- R247, RW. -/
def CAL_TREFB_TREF : Field := ⟨0x1046, 16, 16⟩
/-- R267, RO. -/
def LD_ST_FREE : Field := ⟨0x1100, 0, 12⟩
/-- R267, W1C. -/
def LD_EVT_ACCERR : Field := ⟨0x1101, 2, 1⟩
/-- R267, W1C. -/
def LD_EVT_DETACH : Field := ⟨0x1101, 1, 1⟩
/-- R267, W1C. -/
def LD_EVT_DROP : Field := ⟨0x1101, 0, 1⟩
/-- R267, RC. -/
def LD_DROP_RECS : Field := ⟨0x1102, 0, 32⟩
/-- R267, RO. -/
def LD_HELD_FILL : Field := ⟨0x1103, 16, 12⟩
/-- R267, RO. -/
def LD_HELD_HELD : Field := ⟨0x1103, 0, 12⟩
/-- R267, RO. -/
def LD_ATT_ATT (s : Nat) : Field := ⟨0x1110 + s, 0, 6⟩
/-- R267, RO. -/
def DK_RING_BLOCKS (s : Nat) : Field := ⟨0x1120 + s, 16, 16⟩
/-- R267, RW. -/
def DK_RING_SEC (s : Nat) : Field := ⟨0x1120 + s, 0, 8⟩
/-- R267, RO. -/
def DK_ST_SIZEDEF : Field := ⟨0x1130, 1, 1⟩
/-- R267, RO. -/
def DK_ST_ON : Field := ⟨0x1130, 0, 1⟩
/-- R267, RO. -/
def DK_ACC_TOTAL : Field := ⟨0x1131, 16, 16⟩
/-- R267, RO. -/
def DK_ACC_FREE : Field := ⟨0x1131, 0, 16⟩
/-- R267, RO. -/
def DK_ACC_HELD : Field := ⟨0x1132, 16, 16⟩
/-- R267, RO. -/
def DK_ACC_FLIGHT : Field := ⟨0x1132, 0, 16⟩
/-- R267, W1C. -/
def DK_EVT_SIZEREJ : Field := ⟨0x1133, 4, 1⟩
/-- R267, W1C. -/
def DK_EVT_REVOKE : Field := ⟨0x1133, 3, 1⟩
/-- R267, W1C. -/
def DK_EVT_CAPREF : Field := ⟨0x1133, 2, 1⟩
/-- R267, W1C. -/
def DK_EVT_CAPDONE : Field := ⟨0x1133, 1, 1⟩
/-- R267, W1C. -/
def DK_EVT_ACCERR : Field := ⟨0x1133, 0, 1⟩
/-- R267, RC. -/
def DK_CNT_REVCNT : Field := ⟨0x1134, 24, 8⟩
/-- R267, RC. -/
def DK_CNT_CAPREF : Field := ⟨0x1134, 16, 8⟩
/-- R267, RC. -/
def DK_CNT_LSREF : Field := ⟨0x1134, 8, 8⟩
/-- R267, RC. -/
def DK_REVREC_RECS : Field := ⟨0x1135, 0, 32⟩
/-- R267, WO. -/
def DK_CMD_TRIG : Field := ⟨0x1136, 16, 16⟩
/-- R267, WO. -/
def DK_CMD_REL : Field := ⟨0x1136, 0, 16⟩
/-- R267, RW. -/
def DK_CAP_SLOTS (c : Nat) : Field := ⟨0x1140 + 4 * c, 16, 16⟩
/-- R267, RW. -/
def DK_CAP_EN (c : Nat) : Field := ⟨0x1140 + 4 * c, 15, 1⟩
/-- R267, RW. -/
def DK_CAP_REPLACE (c : Nat) : Field := ⟨0x1140 + 4 * c, 14, 1⟩
/-- R267, RW. -/
def DK_CAP_AUTOREL (c : Nat) : Field := ⟨0x1140 + 4 * c, 13, 1⟩
/-- R267, RW. -/
def DK_CAP_STN (c : Nat) : Field := ⟨0x1141 + 4 * c, 24, 8⟩
/-- R267, RW. -/
def DK_CAP_SRC (c : Nat) : Field := ⟨0x1141 + 4 * c, 16, 8⟩
/-- R267, RW. -/
def DK_CAP_KIND (c : Nat) : Field := ⟨0x1141 + 4 * c, 8, 8⟩
/-- R267, RW. -/
def DK_CAP_SEV (c : Nat) : Field := ⟨0x1141 + 4 * c, 4, 4⟩
/-- R267, RW. -/
def DK_CAP_PRE (c : Nat) : Field := ⟨0x1142 + 4 * c, 22, 10⟩
/-- R267, RW. -/
def DK_CAP_POST (c : Nat) : Field := ⟨0x1142 + 4 * c, 12, 10⟩
/-- R267, RW. -/
def DK_CAP_HOLDOFF (c : Nat) : Field := ⟨0x1142 + 4 * c, 0, 12⟩
/-- R267, RO. -/
def DK_CAP_STATE (c : Nat) : Field := ⟨0x1143 + 4 * c, 29, 3⟩
/-- R267, RO. -/
def DK_CAP_SHORT (c : Nat) : Field := ⟨0x1143 + 4 * c, 28, 1⟩
/-- R267, RO. -/
def DK_CAP_STEP (c : Nat) : Field := ⟨0x1143 + 4 * c, 27, 1⟩
/-- R267, RO. -/
def DK_CAP_REF (c : Nat) : Field := ⟨0x1143 + 4 * c, 24, 3⟩
/-- R267, RO. -/
def DK_CAP_BLOCKS (c : Nat) : Field := ⟨0x1143 + 4 * c, 0, 16⟩
/-- R267, RO. -/
def LS_KIND (l : Nat) : Field := ⟨0x1180 + l, 30, 2⟩
/-- R267, RO. -/
def LS_HOLDER (l : Nat) : Field := ⟨0x1180 + l, 28, 2⟩
/-- R267, RO. -/
def LS_TGT (l : Nat) : Field := ⟨0x1180 + l, 24, 2⟩
/-- R267, RO. -/
def LS_IDX (l : Nat) : Field := ⟨0x1180 + l, 16, 8⟩
/-- R267, RO. -/
def LS_REMMS (l : Nat) : Field := ⟨0x1180 + l, 0, 16⟩
/-- R285, RW. -/
def RC_IMP_CFG_EN : Field := ⟨0x1200, 31, 1⟩
/-- R285, RW. -/
def RC_IMP_CFG_AXES : Field := ⟨0x1200, 28, 3⟩
/-- R285, RW. -/
def RC_IMP_CFG_SEV : Field := ⟨0x1200, 24, 4⟩
/-- R285, RW. -/
def RC_IMP_CFG_THR : Field := ⟨0x1200, 0, 24⟩
/-- R285, RW. -/
def RC_IMP_TIM_DUR : Field := ⟨0x1201, 16, 16⟩
/-- R285, RW. -/
def RC_IMP_TIM_QUIET : Field := ⟨0x1201, 0, 16⟩
/-- R285, RW. -/
def RC_IMP_DBL_SEV2 : Field := ⟨0x1202, 28, 4⟩
/-- R285, RW. -/
def RC_IMP_DBL_DBL : Field := ⟨0x1202, 0, 16⟩
/-- R285, RO. -/
def RC_IMP_ST_STATE : Field := ⟨0x1203, 30, 2⟩
/-- R285, RC. -/
def RC_IMP_CNT_IMPACTS : Field := ⟨0x1204, 16, 16⟩
/-- R285, RC. -/
def RC_IMP_CNT_SUST : Field := ⟨0x1204, 0, 16⟩
/-- R285, RW. -/
def RC_STK_CFG_EN : Field := ⟨0x1208, 31, 1⟩
/-- R285, RW. -/
def RC_STK_CFG_EACH : Field := ⟨0x1208, 30, 1⟩
/-- R285, RW. -/
def RC_STK_CFG_SEV : Field := ⟨0x1208, 24, 4⟩
/-- R285, RW. -/
def RC_STK_CFG_SLOT : Field := ⟨0x1208, 20, 4⟩
/-- R285, RW. -/
def RC_STK_CFG_TOL : Field := ⟨0x1208, 12, 8⟩
/-- R285, RW. -/
def RC_STK_LVL_LEVEL : Field := ⟨0x1209, 8, 24⟩
/-- R285, RW. -/
def RC_STK_HYS_HYST : Field := ⟨0x120A, 8, 24⟩
/-- R285, RW. -/
def RC_STK_STOP_STOPMS : Field := ⟨0x120B, 0, 16⟩
/-- R285, RO. -/
def RC_STK_COUNT : Field := ⟨0x120C, 0, 32⟩
/-- R285, RO. -/
def RC_STK_PER_MEAN : Field := ⟨0x120D, 0, 32⟩
/-- R285, RO. -/
def RC_STK_ST_STATE : Field := ⟨0x120E, 30, 2⟩
/-- R285, RC. -/
def RC_STK_ST_IRREG : Field := ⟨0x120E, 16, 8⟩
/-- R285, RW. -/
def RC_FF_CFG_EN : Field := ⟨0x1210, 31, 1⟩
/-- R285, RW. -/
def RC_FF_CFG_SEV : Field := ⟨0x1210, 24, 4⟩
/-- R285, RW. -/
def RC_FF_CFG_THR : Field := ⟨0x1210, 0, 24⟩
/-- R285, RW. -/
def RC_FF_TIM_DUR : Field := ⟨0x1211, 0, 16⟩
/-- R285, RO. -/
def RC_FF_ST_ACTIVE : Field := ⟨0x1212, 31, 1⟩
/-- R285, RC. -/
def RC_FF_ST_CNT : Field := ⟨0x1212, 0, 8⟩
/-- R285, W1C. -/
def RC_EVT_CFGERR : Field := ⟨0x1218, 6, 1⟩
/-- R285, W1C. -/
def RC_EVT_FFALL : Field := ⟨0x1218, 5, 1⟩
/-- R285, W1C. -/
def RC_EVT_STOP : Field := ⟨0x1218, 4, 1⟩
/-- R285, W1C. -/
def RC_EVT_IRREG : Field := ⟨0x1218, 3, 1⟩
/-- R285, W1C. -/
def RC_EVT_SUSEND : Field := ⟨0x1218, 2, 1⟩
/-- R285, W1C. -/
def RC_EVT_SUSST : Field := ⟨0x1218, 1, 1⟩
/-- R285, W1C. -/
def RC_EVT_IMPACT : Field := ⟨0x1218, 0, 1⟩
/-- R286, RO. -/
def BZ_CFG_STN : Field := ⟨0x1300, 24, 8⟩
/-- R286, RW. -/
def BZ_CFG_PERSEC : Field := ⟨0x1300, 16, 8⟩
/-- R286, RW. -/
def BZ_CFG_REORDER : Field := ⟨0x1300, 8, 8⟩
/-- R286, RW. -/
def BZ_ROUTE : Field := ⟨0x1301, 0, 32⟩
/-- R286, W1C. -/
def BZ_EVT_PLOST : Field := ⟨0x1302, 4, 1⟩
/-- R286, W1C. -/
def BZ_EVT_LATE : Field := ⟨0x1302, 3, 1⟩
/-- R286, W1C. -/
def BZ_EVT_LIMITED : Field := ⟨0x1302, 1, 1⟩
/-- R286, W1C. -/
def BZ_EVT_FIFOOVF : Field := ⟨0x1302, 0, 1⟩
/-- R286, RC. -/
def BZ_CNT_LIMITED : Field := ⟨0x1303, 24, 8⟩
/-- R286, RC. -/
def BZ_CNT_FIFODROP : Field := ⟨0x1303, 16, 8⟩
/-- R286, RC. -/
def BZ_CNT_LATE : Field := ⟨0x1303, 8, 8⟩
/-- R286, RC. -/
def BZ_CNT_DUP : Field := ⟨0x1303, 0, 8⟩
/-- R286, RO. -/
def BZ_SEQ_NEXT : Field := ⟨0x1304, 0, 16⟩
/-- R286, RO. -/
def BZ_FIFOST_COUNT : Field := ⟨0x1305, 0, 5⟩
/-- R286, WO. -/
def BZ_CMD_POP : Field := ⟨0x1306, 0, 1⟩
/-- R286, RO. -/
def BZ_HEAD (w : Nat) : Field := ⟨0x1308 + w, 0, 32⟩
/-- R286, RW. -/
def BZ_MATCH_STN (m : Nat) : Field := ⟨0x1310 + m, 24, 8⟩
/-- R286, RW. -/
def BZ_MATCH_SRC (m : Nat) : Field := ⟨0x1310 + m, 16, 8⟩
/-- R286, RW. -/
def BZ_MATCH_KIND (m : Nat) : Field := ⟨0x1310 + m, 8, 8⟩
/-- R286, RW. -/
def BZ_MATCH_SEV (m : Nat) : Field := ⟨0x1310 + m, 4, 4⟩
/-- R286, RW. -/
def BZ_MATCH_EN (m : Nat) : Field := ⟨0x1310 + m, 0, 1⟩
/-- R286, RW. -/
def BZ_PEER_EN (p : Nat) : Field := ⟨0x1320 + p, 31, 1⟩
/-- R286, RW. -/
def BZ_PEER_STN (p : Nat) : Field := ⟨0x1320 + p, 16, 8⟩
/-- R286, RO. -/
def BZ_PEER_RUN (p : Nat) : Field := ⟨0x1320 + p, 8, 8⟩
/-- R286, RC. -/
def BZ_PEER_LOST (p : Nat) : Field := ⟨0x1320 + p, 0, 8⟩
/-- R286, RO. -/
def BZ_PSEQ_SEQ (p : Nat) : Field := ⟨0x1340 + p, 0, 16⟩
/-- R314, WO. -/
def PE_GCMD_CLKSYNC : Field := ⟨0x1400, 24, 8⟩
/-- R314, WO. -/
def PE_GCMD_RESTART : Field := ⟨0x1400, 16, 8⟩
/-- R314, WO. -/
def PE_GCMD_STOP : Field := ⟨0x1400, 8, 8⟩
/-- R314, WO. -/
def PE_GCMD_RUN : Field := ⟨0x1400, 0, 8⟩
/-- R314, RO. -/
def PE_GST_FAULTED : Field := ⟨0x1401, 16, 8⟩
/-- R314, RO. -/
def PE_GST_STALLED : Field := ⟨0x1401, 8, 8⟩
/-- R314, RO. -/
def PE_GST_RUNNING : Field := ⟨0x1401, 0, 8⟩
/-- R314, RW. -/
def PE_CFG_SEV (e : Nat) : Field := ⟨0x1420 + 0x20 * e, 12, 4⟩
/-- R314, RW. -/
def PE_CFG_GRATE (e : Nat) : Field := ⟨0x1420 + 0x20 * e, 8, 4⟩
/-- R314, RW. -/
def PE_CFG_INSEL (e : Nat) : Field := ⟨0x1420 + 0x20 * e, 4, 4⟩
/-- R314, RW. -/
def PE_CFG_SOUTDIR (e : Nat) : Field := ⟨0x1420 + 0x20 * e, 3, 1⟩
/-- R314, RW. -/
def PE_CFG_SINDIR (e : Nat) : Field := ⟨0x1420 + 0x20 * e, 2, 1⟩
/-- R314, RW. -/
def PE_CFG_QMODE (e : Nat) : Field := ⟨0x1420 + 0x20 * e, 0, 2⟩
/-- R314, RW. -/
def PE_PER_PER (e : Nat) : Field := ⟨0x1421 + 0x20 * e, 0, 24⟩
/-- R314, RW. -/
def PE_MEV_SLOT (e : Nat) : Field := ⟨0x1422 + 0x20 * e, 28, 4⟩
/-- R314, RW. -/
def PE_MEV_MODE (e : Nat) : Field := ⟨0x1422 + 0x20 * e, 26, 2⟩
/-- R314, RW. -/
def PE_MEV_LEVEL (e : Nat) : Field := ⟨0x1422 + 0x20 * e, 0, 24⟩
/-- R314, RO. -/
def PE_ST_RXLVL (e : Nat) : Field := ⟨0x1423 + 0x20 * e, 28, 4⟩
/-- R314, RO. -/
def PE_ST_TXLVL (e : Nat) : Field := ⟨0x1423 + 0x20 * e, 24, 4⟩
/-- R314, RO. -/
def PE_ST_NOUT (e : Nat) : Field := ⟨0x1423 + 0x20 * e, 16, 6⟩
/-- R314, RO. -/
def PE_ST_NIN (e : Nat) : Field := ⟨0x1423 + 0x20 * e, 8, 6⟩
/-- R314, RO. -/
def PE_ST_LVL (e : Nat) : Field := ⟨0x1423 + 0x20 * e, 7, 1⟩
/-- R314, RO. -/
def PE_ST_STATE (e : Nat) : Field := ⟨0x1423 + 0x20 * e, 5, 2⟩
/-- R314, RO. -/
def PE_ST_PC (e : Nat) : Field := ⟨0x1423 + 0x20 * e, 0, 5⟩
/-- R314, RW. -/
def PE_U (e : Nat) : Field := ⟨0x1424 + 0x20 * e, 0, 32⟩
/-- R314, RW. -/
def PE_V (e : Nat) : Field := ⟨0x1425 + 0x20 * e, 0, 32⟩
/-- R314, RW. -/
def PE_CNT (e : Nat) : Field := ⟨0x1426 + 0x20 * e, 0, 32⟩
/-- R314, RW. -/
def PE_SIN (e : Nat) : Field := ⟨0x1427 + 0x20 * e, 0, 32⟩
/-- R314, RW. -/
def PE_SOUT (e : Nat) : Field := ⟨0x1428 + 0x20 * e, 0, 32⟩
/-- R314, RO. -/
def PE_TCS (e : Nat) : Field := ⟨0x1429 + 0x20 * e, 0, 32⟩
/-- R314, RO. -/
def PE_TCN_NS (e : Nat) : Field := ⟨0x142A + 0x20 * e, 0, 30⟩
/-- R314, RO. -/
def PE_TCD (e : Nat) : Field := ⟨0x142B + 0x20 * e, 0, 32⟩
/-- R314, WO. -/
def PE_TXQ (e : Nat) : Field := ⟨0x142C + 0x20 * e, 0, 32⟩
/-- R314, RC. -/
def PE_RXQ (e : Nat) : Field := ⟨0x142D + 0x20 * e, 0, 32⟩
/-- R314, W1C. -/
def PE_EVT_RDEMPTY (e : Nat) : Field := ⟨0x142E + 0x20 * e, 9, 1⟩
/-- R314, W1C. -/
def PE_EVT_TSTEP (e : Nat) : Field := ⟨0x142E + 0x20 * e, 8, 1⟩
/-- R314, W1C. -/
def PE_EVT_WREJ (e : Nat) : Field := ⟨0x142E + 0x20 * e, 7, 1⟩
/-- R314, W1C. -/
def PE_EVT_INJNOP (e : Nat) : Field := ⟨0x142E + 0x20 * e, 6, 1⟩
/-- R314, W1C. -/
def PE_EVT_INJREJ (e : Nat) : Field := ⟨0x142E + 0x20 * e, 5, 1⟩
/-- R314, W1C. -/
def PE_EVT_FAULT (e : Nat) : Field := ⟨0x142E + 0x20 * e, 4, 1⟩
/-- R314, W1C. -/
def PE_EVT_TXDROP (e : Nat) : Field := ⟨0x142E + 0x20 * e, 3, 1⟩
/-- R314, W1C. -/
def PE_EVT_RXDROP (e : Nat) : Field := ⟨0x142E + 0x20 * e, 2, 1⟩
/-- R314, W1C. -/
def PE_EVT_RXSTALL (e : Nat) : Field := ⟨0x142E + 0x20 * e, 1, 1⟩
/-- R314, W1C. -/
def PE_EVT_TXSTALL (e : Nat) : Field := ⟨0x142E + 0x20 * e, 0, 1⟩
/-- R314, RC. -/
def PE_STALL_TX (e : Nat) : Field := ⟨0x142F + 0x20 * e, 16, 16⟩
/-- R314, RC. -/
def PE_STALL_RX (e : Nat) : Field := ⟨0x142F + 0x20 * e, 0, 16⟩
/-- R314, RO. -/
def PE_RXDROP (e : Nat) : Field := ⟨0x1430 + 0x20 * e, 0, 32⟩
/-- R314, RO. -/
def PE_TXDROP (e : Nat) : Field := ⟨0x1431 + 0x20 * e, 0, 32⟩
/-- R314, WO. -/
def PE_INJ_INSTR (e : Nat) : Field := ⟨0x1432 + 0x20 * e, 0, 16⟩
/-- R314, RO. -/
def PE_RXIN (e : Nat) : Field := ⟨0x1433 + 0x20 * e, 0, 32⟩
/-- R314, RO. -/
def PE_RXOUT (e : Nat) : Field := ⟨0x1434 + 0x20 * e, 0, 32⟩
/-- R314, RO. -/
def PE_TXIN (e : Nat) : Field := ⟨0x1435 + 0x20 * e, 0, 32⟩
/-- R314, RO. -/
def PE_TXOUT (e : Nat) : Field := ⟨0x1436 + 0x20 * e, 0, 32⟩
/-- R315, RW. -/
def PE_IM_ODD (e n : Nat) : Field := ⟨0x1580 + 0x10 * e + n, 16, 16⟩
/-- R315, RW. -/
def PE_IM_EVEN (e n : Nat) : Field := ⟨0x1580 + 0x10 * e + n, 0, 16⟩
/-- R340, RW. -/
def AN_CFG_REARM : Field := ⟨0x1900, 24, 8⟩
/-- R340, RO. -/
def AN_ST_LOAD0 : Field := ⟨0x1901, 24, 8⟩
/-- R340, RO. -/
def AN_ST_LOAD1 : Field := ⟨0x1901, 16, 8⟩
/-- R340, RO. -/
def AN_ST_SETUPS : Field := ⟨0x1901, 8, 8⟩
/-- R340, RO. -/
def AN_ST_RUN1 : Field := ⟨0x1901, 1, 1⟩
/-- R340, RO. -/
def AN_ST_RUN0 : Field := ⟨0x1901, 0, 1⟩
/-- R340, W1C. -/
def AN_EVT_UPFAULT : Field := ⟨0x1902, 3, 1⟩
/-- R340, W1C. -/
def AN_EVT_ALARM : Field := ⟨0x1902, 2, 1⟩
/-- R340, W1C. -/
def AN_EVT_SETREF : Field := ⟨0x1902, 1, 1⟩
/-- R340, W1C. -/
def AN_EVT_SKIP : Field := ⟨0x1902, 0, 1⟩
/-- R340, WO. -/
def AN_CMD_SETUP : Field := ⟨0x1903, 8, 5⟩
/-- R340, WO. -/
def AN_CMD_TRDUMP : Field := ⟨0x1903, 1, 1⟩
/-- R340, WO. -/
def AN_CMD_UPRESTART : Field := ⟨0x1903, 0, 1⟩
/-- R340, RO. -/
def AN_ALMST0 : Field := ⟨0x1904, 0, 32⟩
/-- R340, RO. -/
def AN_ALMST1 : Field := ⟨0x1905, 0, 32⟩
/-- R340, RW. -/
def AN_UPCFG_SHARE : Field := ⟨0x1906, 0, 8⟩
/-- R340, RO. -/
def AN_UPST_FAULT : Field := ⟨0x1907, 24, 8⟩
/-- R340, RO. -/
def AN_UPST_RESTARTS : Field := ⟨0x1907, 16, 8⟩
/-- R340, RC. -/
def AN_UPST_PREEMPT : Field := ⟨0x1907, 8, 8⟩
/-- R340, RO. -/
def AN_UPST_STATE : Field := ⟨0x1907, 0, 2⟩
/-- R340, RO. -/
def AN_SET_STATE (n : Nat) : Field := ⟨0x1910 + n, 29, 3⟩
/-- R340, RO. -/
def AN_SET_REF (n : Nat) : Field := ⟨0x1910 + n, 24, 5⟩
/-- R340, RO. -/
def AN_SET_LOAD (n : Nat) : Field := ⟨0x1910 + n, 16, 8⟩
/-- R340, RC. -/
def AN_SET_PUBSKIP (n : Nat) : Field := ⟨0x1910 + n, 8, 8⟩
/-- R340, RC. -/
def AN_SET_SKIP (n : Nat) : Field := ⟨0x1910 + n, 0, 8⟩
/-- R340, RO. -/
def AN_EVAL (n : Nat) : Field := ⟨0x1930 + n, 0, 32⟩
/-- R375, RO. -/
def PORT_ST_RINGST : Field := ⟨0x0300, 16, 2⟩
/-- R375, RO. -/
def PORT_ST_LINKB : Field := ⟨0x0300, 15, 1⟩
/-- R375, RO. -/
def PORT_ST_AMPB : Field := ⟨0x0300, 14, 1⟩
/-- R375, RO. -/
def PORT_ST_ANB : Field := ⟨0x0300, 13, 1⟩
/-- R375, RO. -/
def PORT_ST_SQIB : Field := ⟨0x0300, 10, 3⟩
/-- R375, RO. -/
def PORT_ST_A : Field := ⟨0x0300, 2, 6⟩
/-- R375, RW. -/
def PORT_CFG_ANEN : Field := ⟨0x0301, 4, 1⟩
/-- R375, RW. -/
def PORT_CFG_AMPB : Field := ⟨0x0301, 2, 2⟩
/-- R375, RW. -/
def PORT_CFG_AMPA : Field := ⟨0x0301, 0, 2⟩
/-- R375, W1C. -/
def PORT_EVT_RINGCHG : Field := ⟨0x0302, 3, 1⟩
/-- R375, W1C. -/
def PORT_EVT_TOPO : Field := ⟨0x0302, 2, 1⟩
/-- R375, W1C. -/
def PORT_EVT_LINKB : Field := ⟨0x0302, 1, 1⟩
/-- R375, W1C. -/
def PORT_EVT_LINKA : Field := ⟨0x0302, 0, 1⟩
/-- R375, RC. -/
def PORT_LCNT_LDOWNA : Field := ⟨0x0303, 24, 8⟩
/-- R375, RC. -/
def PORT_LCNT_LDOWNB : Field := ⟨0x0303, 16, 8⟩
/-- R375, RC. -/
def PORT_LCNT_TOPOCNT : Field := ⟨0x0303, 8, 8⟩
/-- R375, RL. -/
def NET_MAC_LO : Field := ⟨0x0304, 0, 32⟩
/-- R375, RO. -/
def NET_MAC_HI : Field := ⟨0x0305, 0, 16⟩
/-- R375, RO. -/
def NET_IP4_ADDR : Field := ⟨0x0306, 0, 32⟩
/-- R375, RO. -/
def NET_GW4_ADDR : Field := ⟨0x0307, 0, 32⟩
/-- R375, RO. -/
def NET_PFX_LEN : Field := ⟨0x0308, 0, 8⟩
/-- R375, RC. -/
def SW_Q_DROPA (q : Nat) : Field := ⟨0x0310 + q, 16, 16⟩
/-- R375, RC. -/
def SW_Q_DROPB (q : Nat) : Field := ⟨0x0310 + q, 0, 16⟩
/-- R375, RC. -/
def SW_ERR_A : Field := ⟨0x0314, 16, 16⟩
/-- R375, RC. -/
def SW_ERR_B : Field := ⟨0x0314, 0, 16⟩
/-- R375, RW. -/
def CY_CFG_SHARE : Field := ⟨0x0320, 24, 8⟩
/-- R375, RW. -/
def CY_CFG_DEMAND : Field := ⟨0x0320, 16, 8⟩
/-- R375, RW. -/
def CY_CFG_MAXWAIT : Field := ⟨0x0320, 8, 8⟩
/-- R375, RO. -/
def CY_USE_ADMIT : Field := ⟨0x0321, 16, 16⟩
/-- R375, RO. -/
def CY_USE_MEAS : Field := ⟨0x0321, 0, 16⟩
/-- R375, W1C. -/
def CY_EVT_CREDVIOL : Field := ⟨0x0322, 4, 1⟩
/-- R375, W1C. -/
def CY_EVT_BADMSG : Field := ⟨0x0322, 3, 1⟩
/-- R375, W1C. -/
def CY_EVT_REPLAY : Field := ⟨0x0322, 2, 1⟩
/-- R375, W1C. -/
def CY_EVT_AUTHFAIL : Field := ⟨0x0322, 1, 1⟩
/-- R375, W1C. -/
def CY_EVT_STRREF : Field := ⟨0x0322, 0, 1⟩
/-- R375, RC. -/
def CY_CNT_AUTHFAIL : Field := ⟨0x0323, 24, 8⟩
/-- R375, RC. -/
def CY_CNT_REPLAY : Field := ⟨0x0323, 16, 8⟩
/-- R375, RC. -/
def CY_CNT_BADMSG : Field := ⟨0x0323, 8, 8⟩
/-- R375, RC. -/
def CY_CNT_CREDVIOL : Field := ⟨0x0323, 0, 8⟩
/-- R375, RW. -/
def CY_STR_EN (k : Nat) : Field := ⟨0x0330 + k, 31, 1⟩
/-- R375, RW. -/
def CY_STR_DEMAND (k : Nat) : Field := ⟨0x0330 + k, 30, 1⟩
/-- R375, RW. -/
def CY_STR_DEST (k : Nat) : Field := ⟨0x0330 + k, 29, 1⟩
/-- R375, RW. -/
def CY_STR_SLOT (k : Nat) : Field := ⟨0x0330 + k, 24, 4⟩
/-- R375, RO. -/
def CY_STR_ST (k : Nat) : Field := ⟨0x0330 + k, 20, 4⟩
/-- R375, RO. -/
def CY_STR_RATE (k : Nat) : Field := ⟨0x0330 + k, 0, 16⟩
/-- R375, RO. -/
def CY_CAP_STATE (c : Nat) : Field := ⟨0x0340 + 2 * c, 29, 3⟩
/-- R375, RO. -/
def CY_CAP_OUT (c : Nat) : Field := ⟨0x0340 + 2 * c, 16, 8⟩
/-- R375, RO. -/
def CY_CAP_SID (c : Nat) : Field := ⟨0x0340 + 2 * c, 0, 16⟩
/-- R375, RO. -/
def CY_CAPA_ACK (c : Nat) : Field := ⟨0x0341 + 2 * c, 0, 32⟩
/-- R403, RO. -/
def TL_ST_SRC : Field := ⟨0x1700, 29, 3⟩
/-- R403, RO. -/
def TL_ST_POS : Field := ⟨0x1700, 26, 3⟩
/-- R403, RO. -/
def TL_ST_TRAILER : Field := ⟨0x1700, 25, 1⟩
/-- R403, RO. -/
def TL_ST_ENROLLED : Field := ⟨0x1700, 24, 1⟩
/-- R403, RO. -/
def TL_ST_WEAR : Field := ⟨0x1700, 23, 1⟩
/-- R403, RO. -/
def TL_ST_NOLIVE : Field := ⟨0x1700, 22, 1⟩
/-- R403, RO. -/
def TL_ST_BUSY : Field := ⟨0x1700, 21, 1⟩
/-- R403, RO. -/
def TL_ST_LRES : Field := ⟨0x1700, 8, 8⟩
/-- R403, RO. -/
def TL_GEN_GEN : Field := ⟨0x1701, 0, 32⟩
/-- R403, RL. -/
def TL_COMSEQ_LO : Field := ⟨0x1702, 0, 32⟩
/-- R403, RO. -/
def TL_COMSEQ_HI : Field := ⟨0x1703, 0, 32⟩
/-- R403, RO. -/
def TL_CSEQ_CSEQ : Field := ⟨0x1704, 0, 32⟩
/-- R403, RO. -/
def TL_DIRTY_ENTRIES : Field := ⟨0x1705, 0, 16⟩
/-- R403, WO. -/
def TL_CMD_STGABORT : Field := ⟨0x1706, 3, 1⟩
/-- R403, WO. -/
def TL_CMD_STGDONE : Field := ⟨0x1706, 2, 1⟩
/-- R403, WO. -/
def TL_CMD_STGOPEN : Field := ⟨0x1706, 1, 1⟩
/-- R403, WO. -/
def TL_CMD_COMMIT : Field := ⟨0x1706, 0, 1⟩
/-- R403, RO. -/
def TL_RES_CRES : Field := ⟨0x1707, 24, 8⟩
/-- R403, RO. -/
def TL_RES_SRES : Field := ⟨0x1707, 16, 8⟩
/-- R403, RO. -/
def TL_RES_CSRES : Field := ⟨0x1707, 8, 8⟩
/-- R403, RO. -/
def TL_CSID_CSID : Field := ⟨0x1708, 0, 32⟩
/-- R403, RO. -/
def TL_PEND_PEND : Field := ⟨0x1709, 31, 1⟩
/-- R403, RO. -/
def TL_PEND_SECS : Field := ⟨0x1709, 0, 16⟩
/-- R403, W1C. -/
def TL_EVT_CUSTREJ : Field := ⟨0x170A, 10, 1⟩
/-- R403, W1C. -/
def TL_EVT_CUSTODY : Field := ⟨0x170A, 9, 1⟩
/-- R403, W1C. -/
def TL_EVT_STGREJ : Field := ⟨0x170A, 8, 1⟩
/-- R403, W1C. -/
def TL_EVT_WEAR : Field := ⟨0x170A, 7, 1⟩
/-- R403, W1C. -/
def TL_EVT_COMMITFAIL : Field := ⟨0x170A, 6, 1⟩
/-- R403, W1C. -/
def TL_EVT_COMMITOK : Field := ⟨0x170A, 5, 1⟩
/-- R403, W1C. -/
def TL_EVT_CSFAIL : Field := ⟨0x170A, 4, 1⟩
/-- R403, W1C. -/
def TL_EVT_CSREF : Field := ⟨0x170A, 3, 1⟩
/-- R403, W1C. -/
def TL_EVT_CSOK : Field := ⟨0x170A, 2, 1⟩
/-- R403, W1C. -/
def TL_EVT_OLDER : Field := ⟨0x170A, 1, 1⟩
/-- R403, W1C. -/
def TL_EVT_LOADFAIL : Field := ⟨0x170A, 0, 1⟩
/-- R403, RO. -/
def TL_WEAR_COMMITS (r p : Nat) : Field := ⟨0x1710 + 8 * r + p, 0, 16⟩
/-- R403, RO. -/
def CP_ST_STEP : Field := ⟨0x1728, 29, 3⟩
/-- R403, RO. -/
def CP_ST_WAIT : Field := ⟨0x1728, 16, 8⟩
/-- R403, RO. -/
def CP_ST_CSTN : Field := ⟨0x1728, 8, 8⟩
/-- R403, RO. -/
def CP_ST_SRCPORT : Field := ⟨0x1728, 0, 2⟩
/-- R403, RO. -/
def CP_NBR_STNA : Field := ⟨0x1729, 24, 8⟩
/-- R403, RO. -/
def CP_NBR_CSTNA : Field := ⟨0x1729, 16, 8⟩
/-- R403, RO. -/
def CP_NBR_STNB : Field := ⟨0x1729, 8, 8⟩
/-- R403, RO. -/
def CP_NBR_CSTNB : Field := ⟨0x1729, 0, 8⟩
/-- R403, RO. -/
def CP_CNT_SECS : Field := ⟨0x172A, 16, 16⟩
/-- R403, RC. -/
def CP_CNT_VFAIL : Field := ⟨0x172A, 8, 8⟩
/-- R403, RW. -/
def TL_STGCTL_KIND : Field := ⟨0x1730, 0, 1⟩
/-- R403, RW. -/
def TL_STGOFS_OFS : Field := ⟨0x1731, 0, 24⟩
/-- R403, RO. -/
def TL_STGST_HIGH : Field := ⟨0x1732, 0, 24⟩
/-- R403, WO. -/
def TL_STGW (w : Nat) : Field := ⟨0x1780 + w, 0, 32⟩
/-- R427, RO. -/
def MD_ST_TRIAL : Field := ⟨0x0008, 20, 1⟩
/-- R427, RO. -/
def MD_ST_FWSLOT : Field := ⟨0x0008, 19, 1⟩
/-- R427, RO. -/
def MD_ST_AUTO : Field := ⟨0x0008, 18, 1⟩
/-- R427, RO. -/
def MD_ST_PENDING : Field := ⟨0x0008, 17, 1⟩
/-- R427, RO. -/
def MD_ST_FAULT : Field := ⟨0x0008, 8, 8⟩
/-- R427, RO. -/
def MD_ST_PREV : Field := ⟨0x0008, 4, 4⟩
/-- R427, RO. -/
def MD_ST_MODE : Field := ⟨0x0008, 0, 4⟩
/-- R427, WO. -/
def MD_CMD_RESTART : Field := ⟨0x0009, 8, 1⟩
/-- R427, WO. -/
def MD_CMD_REQ : Field := ⟨0x0009, 0, 4⟩
/-- R427, RW. -/
def MD_CFG_SETTLEMAX : Field := ⟨0x000A, 8, 8⟩
/-- R427, RW. -/
def MD_CFG_AUTOCLEAN : Field := ⟨0x000A, 0, 1⟩
/-- R427, RO. -/
def MD_REQST_REQ : Field := ⟨0x000B, 8, 4⟩
/-- R427, RO. -/
def MD_REQST_RES : Field := ⟨0x000B, 0, 8⟩
/-- R427, W1C. -/
def MD_EVT_KEYFAIL : Field := ⟨0x000C, 7, 1⟩
/-- R427, W1C. -/
def MD_EVT_SETTLETO : Field := ⟨0x000C, 6, 1⟩
/-- R427, W1C. -/
def MD_EVT_FWFALLBACK : Field := ⟨0x000C, 5, 1⟩
/-- R427, W1C. -/
def MD_EVT_HOTLIM : Field := ⟨0x000C, 4, 1⟩
/-- R427, W1C. -/
def MD_EVT_AUTOCLEAN : Field := ⟨0x000C, 3, 1⟩
/-- R427, W1C. -/
def MD_EVT_SAFE : Field := ⟨0x000C, 2, 1⟩
/-- R427, W1C. -/
def MD_EVT_REQREJ : Field := ⟨0x000C, 1, 1⟩
/-- R427, W1C. -/
def MD_EVT_CHANGE : Field := ⟨0x000C, 0, 1⟩
/-- R427, RO. -/
def MD_HOT_MIN : Field := ⟨0x000D, 0, 16⟩
/-- R427, RC. -/
def MD_CNT_SAFECNT : Field := ⟨0x000E, 24, 8⟩
/-- R427, RC. -/
def MD_CNT_LATER : Field := ⟨0x000E, 16, 8⟩
/-- R427, RO. -/
def MD_TIME_SECS : Field := ⟨0x000F, 0, 32⟩
/-- R443, RO. -/
def WK_ST_IDKEY : Field := ⟨0x1800, 4, 1⟩
/-- R443, RO. -/
def WK_ST_FEK : Field := ⟨0x1800, 3, 1⟩
/-- R443, RO. -/
def WK_ST_LINEKEY : Field := ⟨0x1800, 2, 1⟩
/-- R443, RO. -/
def WK_ST_ANCHOR : Field := ⟨0x1800, 1, 1⟩
/-- R443, RO. -/
def WK_ST_MAPTALLY : Field := ⟨0x1800, 0, 1⟩
/-- R443, RO. -/
def WK_MAPB_BLOCKS : Field := ⟨0x1801, 0, 5⟩
/-- R443, RO. -/
def WK_MAPD_DECK : Field := ⟨0x1802, 0, 16⟩
/-- R443, RO. -/
def WK_MAPI (j : Nat) : Field := ⟨0x1803 + j, 0, 32⟩
/-- R443, RO. -/
def WK_VINFO_INIT : Field := ⟨0x1808, 28, 4⟩
/-- R443, RO. -/
def WK_VINFO_WR : Field := ⟨0x1808, 27, 1⟩
/-- R443, RC. -/
def WK_VINFO_COUNT : Field := ⟨0x1808, 0, 16⟩
/-- R443, RO. -/
def WK_VADDR_ADDR : Field := ⟨0x1809, 0, 32⟩
/-- R443, W1C. -/
def WK_EVT_VIOL : Field := ⟨0x180A, 0, 1⟩
/-- R443, RO. -/
def WK_FLOOR_MAJOR : Field := ⟨0x180B, 16, 16⟩
/-- R443, RO. -/
def WK_FLOOR_MINOR : Field := ⟨0x180B, 0, 16⟩
/-- R443, RO. -/
def WK_FUSE_LEFT : Field := ⟨0x180C, 0, 7⟩
/-- R443, RO. -/
def WK_DEVPUB (w : Nat) : Field := ⟨0x1810 + w, 0, 32⟩
/-- R443, RO. -/
def WK_KEYID (v : Nat) : Field := ⟨0x1818 + v, 0, 32⟩
/-- R443, RL. -/
def WK_SYSID_LO : Field := ⟨0x181C, 0, 32⟩
/-- R443, RO. -/
def WK_SYSID_HI : Field := ⟨0x181D, 0, 32⟩
/-- R463, W1S. -/
def IC_ESET (j : Nat) : Field := ⟨0x1600 + j, 0, 32⟩
/-- R463, W1C. -/
def IC_ECLR (j : Nat) : Field := ⟨0x1608 + j, 0, 32⟩
/-- R463, W1S. -/
def IC_PSET (j : Nat) : Field := ⟨0x1610 + j, 0, 32⟩
/-- R463, W1C. -/
def IC_PCLR (j : Nat) : Field := ⟨0x1618 + j, 0, 32⟩
/-- R463, RO. -/
def IC_ACT (j : Nat) : Field := ⟨0x1620 + j, 0, 32⟩
/-- R463, RO. -/
def IC_GST_CUR (g : Nat) : Field := ⟨0x1628 + g, 24, 8⟩
/-- R463, RO. -/
def IC_GST_ELAPSED (g : Nat) : Field := ⟨0x1628 + g, 0, 20⟩
/-- R463, RO. -/
def IC_ST_SLEEP : Field := ⟨0x1638, 4, 4⟩
/-- R463, RO. -/
def IC_ST_LINE : Field := ⟨0x1638, 0, 4⟩
/-- R463, W1C. -/
def IC_EVT_BADCOMP : Field := ⟨0x1639, 1, 1⟩
/-- R463, W1C. -/
def IC_EVT_ACCSAT : Field := ⟨0x1639, 0, 1⟩
/-- R463, RO. -/
def IC_DISC : Field := ⟨0x163A, 0, 32⟩
/-- R463, RO. -/
def IC_OVF : Field := ⟨0x163B, 0, 32⟩
/-- R463, RC. -/
def BUS_CNT_WIDTH : Field := ⟨0x163C, 24, 8⟩
/-- R463, RC. -/
def BUS_CNT_TRUNC : Field := ⟨0x163C, 16, 8⟩
/-- R463, RC. -/
def BUS_CNT_UNLATCHED : Field := ⟨0x163C, 0, 16⟩
/-- R463, RO. -/
def IC_SRC_ACC (n : Nat) : Field := ⟨0x1640 + n, 12, 20⟩
/-- R463, RO. -/
def IC_SRC_SAT (n : Nat) : Field := ⟨0x1640 + n, 11, 1⟩
/-- R463, RO. -/
def IC_SRC_WORLD (n : Nat) : Field := ⟨0x1640 + n, 10, 1⟩
/-- R463, RW. -/
def IC_SRC_WAKE (n : Nat) : Field := ⟨0x1640 + n, 9, 1⟩
/-- R463, RW. -/
def IC_SRC_GROUP (n : Nat) : Field := ⟨0x1640 + n, 4, 5⟩
/-- R463, RW. -/
def IC_SRC_TGT (n : Nat) : Field := ⟨0x1640 + n, 0, 4⟩
/-- R463, RO. -/
def IC_LCLM_COUNT (t : Nat) : Field := ⟨0x16E0 + 2 * t, 12, 20⟩
/-- R463, RO. -/
def IC_LCLM_SRC (t : Nat) : Field := ⟨0x16E0 + 2 * t, 0, 8⟩
/-- R463, RO. -/
def IC_TST_SIGNALLED (t : Nat) : Field := ⟨0x16E1 + 2 * t, 8, 1⟩
/-- R463, RO. -/
def IC_TST_ACTIVE (t : Nat) : Field := ⟨0x16E1 + 2 * t, 0, 8⟩
/-- R463, RW. -/
def IC_GCFG_COUNT (g : Nat) : Field := ⟨0x16F0 + g, 20, 8⟩
/-- R463, RW. -/
def IC_GCFG_TIME (g : Nat) : Field := ⟨0x16F0 + g, 0, 20⟩
/-- R151, RO. -/
def HK_INJRES_VALUE (k : Nat) : Field := ⟨0x0834 + k, 8, 24⟩
/-- R151, RO. -/
def HK_INJRES_NOTSET (k : Nat) : Field := ⟨0x0834 + k, 2, 1⟩
/-- R151, RO. -/
def HK_INJRES_OVR (k : Nat) : Field := ⟨0x0834 + k, 1, 1⟩
/-- R151, RC. -/
def HK_INJRES_NEW (k : Nat) : Field := ⟨0x0834 + k, 0, 1⟩

end Sys2Proof.Machine
end

