-- ==== Sys2Proof/Machine/RegMap.lean ====
section
/-!
DEFINITION. The register map (19 R464 to R472): which words are registers, the access type (00 R9) and the reset value of every field.
A word of a listed page that no row covers is a hole (R466); an unlisted page is a gap page (R465).
-/

namespace Sys2Proof.Machine

/-- The access types of 00 R9. -/
inductive Access where
  | ro | rw | rc | w1c | w1s | wo | rl
  deriving DecidableEq, Repr

/-- One field of a register: its highest and lowest bit, its access type and its reset value (00 R6, R9). Reserved bits have no entry: they read 0
(00 R9, R467). -/
structure RowField where
  hi : Nat
  lo : Nat
  acc : Access
  reset : Nat
  deriving DecidableEq, Repr

/-- One row of the register index: registers at base + stride * i + j for i < count, j < span, all with the same fields. -/
structure Row where
  base : Nat
  span : Nat
  stride : Nat
  count : Nat
  fields : List RowField
  deriving DecidableEq, Repr

/-- ID_PART, chapter 00. -/
def row_ID_PART_0000 : Row := ⟨0x0000, 1, 0x1, 1, [⟨31, 16, .ro, 0x425A⟩, ⟨15, 8, .ro, 0xA⟩, ⟨7, 4, .ro, 0x2⟩]⟩
/-- ID_SIREV, chapter 00. -/
def row_ID_SIREV_0001 : Row := ⟨0x0001, 1, 0x1, 1, [⟨7, 4, .ro, 0xB⟩, ⟨3, 0, .ro, 0x1⟩]⟩
/-- ID_FWREL, chapter 00. -/
def row_ID_FWREL_0002 : Row := ⟨0x0002, 1, 0x1, 1, [⟨31, 16, .ro, 0x0⟩, ⟨15, 0, .ro, 0x0⟩]⟩
/-- ID_RSTCAUSE, chapter 01. -/
def row_ID_RSTCAUSE_0003 : Row := ⟨0x0003, 1, 0x1, 1, [⟨7, 0, .ro, 0x0⟩]⟩
/-- ID_DOMST, chapter 01. -/
def row_ID_DOMST_0004 : Row := ⟨0x0004, 1, 0x1, 1, [⟨31, 16, .rc, 0x0⟩, ⟨5, 4, .ro, 0x0⟩, ⟨3, 3, .ro, 0x1⟩, ⟨2, 2, .ro, 0x1⟩, ⟨1, 1, .ro, 0x1⟩]⟩
/-- PWR_ST, chapter 02. -/
def row_PWR_ST_0100 : Row := ⟨0x0100, 1, 0x1, 1, [⟨11, 11, .ro, 0x0⟩, ⟨10, 10, .ro, 0x0⟩, ⟨9, 9, .ro, 0x0⟩, ⟨8, 8, .ro, 0x0⟩, ⟨6, 4, .ro, 0x0⟩, ⟨2, 0, .ro, 0x0⟩]⟩
/-- PWR_CTL, chapter 02. -/
def row_PWR_CTL_0101 : Row := ⟨0x0101, 1, 0x1, 1, [⟨2, 2, .rw, 0x1⟩, ⟨1, 0, .rw, 0x3⟩]⟩
/-- PWR_VIN, chapter 02. -/
def row_PWR_VIN_0102 : Row := ⟨0x0102, 1, 0x1, 1, [⟨31, 16, .ro, 0x0⟩, ⟨15, 0, .ro, 0x0⟩]⟩
/-- PWR_IPT, chapter 02. -/
def row_PWR_IPT_0103 : Row := ⟨0x0103, 1, 0x1, 1, [⟨31, 16, .ro, 0x0⟩, ⟨15, 0, .ro, 0x0⟩]⟩
/-- PWR_PIN, chapter 02. -/
def row_PWR_PIN_0104 : Row := ⟨0x0104, 1, 0x1, 1, [⟨31, 16, .ro, 0x0⟩, ⟨15, 0, .ro, 0x0⟩]⟩
/-- PWR_EVT, chapter 02. -/
def row_PWR_EVT_0105 : Row := ⟨0x0105, 1, 0x1, 1, [⟨6, 6, .w1c, 0x0⟩, ⟨5, 5, .w1c, 0x0⟩, ⟨4, 4, .w1c, 0x0⟩, ⟨3, 3, .w1c, 0x0⟩, ⟨2, 2, .w1c, 0x0⟩, ⟨1, 1, .w1c, 0x0⟩, ⟨0, 0, .w1c, 0x0⟩]⟩
/-- PWR_CNT, chapter 02. -/
def row_PWR_CNT_0106 : Row := ⟨0x0106, 1, 0x1, 1, [⟨31, 24, .rc, 0x0⟩, ⟨23, 16, .rc, 0x0⟩, ⟨15, 8, .rc, 0x0⟩, ⟨7, 0, .rc, 0x0⟩]⟩
/-- PWR_TWANG, chapter 02. -/
def row_PWR_TWANG_0107 : Row := ⟨0x0107, 1, 0x1, 1, [⟨15, 0, .ro, 0x0⟩]⟩
/-- TIME_ST, chapter 03. -/
def row_TIME_ST_0200 : Row := ⟨0x0200, 1, 0x1, 1, [⟨5, 4, .ro, 0x0⟩, ⟨3, 3, .ro, 0x0⟩, ⟨2, 0, .ro, 0x0⟩]⟩
/-- TIME_EVT, chapter 03. -/
def row_TIME_EVT_0201 : Row := ⟨0x0201, 1, 0x1, 1, [⟨6, 6, .w1c, 0x0⟩, ⟨5, 5, .w1c, 0x0⟩, ⟨4, 4, .w1c, 0x0⟩, ⟨3, 3, .w1c, 0x0⟩, ⟨2, 2, .w1c, 0x0⟩, ⟨1, 1, .w1c, 0x0⟩, ⟨0, 0, .w1c, 0x0⟩]⟩
/-- TIME_CMD, chapter 03. -/
def row_TIME_CMD_0202 : Row := ⟨0x0202, 1, 0x1, 1, [⟨1, 1, .wo, 0x0⟩, ⟨0, 0, .wo, 0x0⟩]⟩
/-- TIME_JUMP, chapter 03. -/
def row_TIME_JUMP_0203 : Row := ⟨0x0203, 1, 0x1, 1, [⟨29, 0, .rw, 0xF4240⟩]⟩
/-- TIME_CONF, chapter 03. -/
def row_TIME_CONF_0204 : Row := ⟨0x0204, 1, 0x1, 1, [⟨16, 16, .rw, 0x1⟩, ⟨15, 0, .rw, 0x40⟩]⟩
/-- TIME_LIM, chapter 03. -/
def row_TIME_LIM_0205 : Row := ⟨0x0205, 1, 0x1, 1, [⟨31, 16, .rw, 0x3E8⟩, ⟨15, 0, .rw, 0x2710⟩]⟩
/-- TIME_KP, chapter 03. -/
def row_TIME_KP_0206 : Row := ⟨0x0206, 1, 0x1, 1, [⟨23, 0, .rw, 0x20000⟩]⟩
/-- TIME_KI, chapter 03. -/
def row_TIME_KI_0207 : Row := ⟨0x0207, 1, 0x1, 1, [⟨23, 0, .rw, 0x3333⟩]⟩
/-- TIME_YMAX, chapter 03. -/
def row_TIME_YMAX_0208 : Row := ⟨0x0208, 1, 0x1, 1, [⟨17, 0, .rw, 0x30D40⟩]⟩
/-- TIME_Y, chapter 03. -/
def row_TIME_Y_0209 : Row := ⟨0x0209, 1, 0x1, 1, [⟨31, 0, .ro, 0x0⟩]⟩
/-- TIME_OFS, chapter 03. -/
def row_TIME_OFS_020A : Row := ⟨0x020A, 1, 0x1, 1, [⟨31, 0, .ro, 0x0⟩]⟩
/-- TIME_CONFT, chapter 03. -/
def row_TIME_CONFT_020B : Row := ⟨0x020B, 1, 0x1, 1, [⟨31, 16, .rc, 0x0⟩, ⟨15, 0, .ro, 0x0⟩]⟩
/-- TIME_CAND, chapter 03. -/
def row_TIME_CAND_020C : Row := ⟨0x020C, 1, 0x1, 1, [⟨31, 0, .rl, 0x0⟩]⟩
/-- TIME_CAND, chapter 03. -/
def row_TIME_CAND_020D : Row := ⟨0x020D, 1, 0x1, 1, [⟨31, 0, .ro, 0x0⟩]⟩
/-- TIME_INC, chapter 03. -/
def row_TIME_INC_020E : Row := ⟨0x020E, 1, 0x1, 1, [⟨31, 0, .rl, 0x0⟩]⟩
/-- TIME_INC, chapter 03. -/
def row_TIME_INC_020F : Row := ⟨0x020F, 1, 0x1, 1, [⟨7, 0, .ro, 0x5⟩]⟩
/-- TIME_SNAPS, chapter 03. -/
def row_TIME_SNAPS_0210 : Row := ⟨0x0210, 1, 0x1, 1, [⟨31, 0, .rl, 0x0⟩]⟩
/-- TIME_SNAPS, chapter 03. -/
def row_TIME_SNAPS_0211 : Row := ⟨0x0211, 1, 0x1, 1, [⟨31, 0, .ro, 0x0⟩]⟩
/-- TIME_SNAPNS, chapter 03. -/
def row_TIME_SNAPNS_0212 : Row := ⟨0x0212, 1, 0x1, 1, [⟨31, 30, .ro, 0x0⟩, ⟨29, 0, .ro, 0x0⟩]⟩
/-- TIME_SNAPFR, chapter 03. -/
def row_TIME_SNAPFR_0213 : Row := ⟨0x0213, 1, 0x1, 1, [⟨31, 0, .ro, 0x0⟩]⟩
/-- TIME_ASYM, chapter 03. -/
def row_TIME_ASYM_0214 : Row := ⟨0x0214, 1, 0x1, 1, [⟨31, 16, .rw, 0x0⟩, ⟨15, 0, .rw, 0x0⟩]⟩
/-- TIME_PDLYA, chapter 03. -/
def row_TIME_PDLYA_0215 : Row := ⟨0x0215, 1, 0x1, 1, [⟨31, 0, .ro, 0x0⟩]⟩
/-- TIME_PDLYB, chapter 03. -/
def row_TIME_PDLYB_0216 : Row := ⟨0x0216, 1, 0x1, 1, [⟨31, 0, .ro, 0x0⟩]⟩
/-- TIME_CNT, chapter 03. -/
def row_TIME_CNT_0217 : Row := ⟨0x0217, 1, 0x1, 1, [⟨31, 24, .rc, 0x0⟩, ⟨23, 16, .rc, 0x0⟩, ⟨15, 8, .rc, 0x0⟩, ⟨7, 0, .rc, 0x0⟩]⟩
/-- TIME_PTP, chapter 03. -/
def row_TIME_PTP_0218 : Row := ⟨0x0218, 1, 0x1, 1, [⟨15, 8, .rw, 0x0⟩, ⟨7, 0, .rw, 0x0⟩]⟩
/-- AX_CFG, chapter 04. -/
def row_AX_CFG_0400 : Row := ⟨0x0400, 1, 0x40, 10, [⟨15, 8, .rw, 0x0⟩, ⟨6, 6, .rw, 0x0⟩, ⟨5, 4, .rw, 0x3⟩, ⟨2, 2, .rw, 0x0⟩, ⟨1, 0, .rw, 0x0⟩]⟩
/-- AX_ST, chapter 04. -/
def row_AX_ST_0401 : Row := ⟨0x0401, 1, 0x40, 10, [⟨9, 8, .ro, 0x0⟩, ⟨7, 7, .ro, 0x0⟩, ⟨6, 0, .ro, 0x0⟩]⟩
/-- AX_EVT, chapter 04. -/
def row_AX_EVT_0402 : Row := ⟨0x0402, 1, 0x40, 10, [⟨2, 2, .w1c, 0x0⟩, ⟨1, 1, .w1c, 0x0⟩, ⟨0, 0, .w1c, 0x0⟩]⟩
/-- AX_CNT, chapter 04. -/
def row_AX_CNT_0403 : Row := ⟨0x0403, 1, 0x40, 10, [⟨31, 16, .rc, 0x0⟩, ⟨15, 0, .rc, 0x0⟩]⟩
/-- DRV_ST, chapter 04. -/
def row_DRV_ST_0584 : Row := ⟨0x0584, 1, 0x1, 1, [⟨31, 16, .ro, 0x0⟩, ⟨15, 8, .ro, 0x0⟩, ⟨1, 1, .w1c, 0x0⟩, ⟨0, 0, .ro, 0x0⟩]⟩
/-- DRV_CNT, chapter 04. -/
def row_DRV_CNT_0585 : Row := ⟨0x0585, 1, 0x1, 1, [⟨31, 16, .ro, 0x0⟩, ⟨7, 0, .rc, 0x0⟩]⟩
/-- Q_CORR, chapter 04. -/
def row_Q_CORR_0644 : Row := ⟨0x0644, 1, 0x1, 1, [⟨31, 0, .ro, 0x0⟩]⟩
/-- Q_ST, chapter 04. -/
def row_Q_ST_0645 : Row := ⟨0x0645, 1, 0x1, 1, [⟨0, 0, .ro, 0x1⟩]⟩
/-- HK_CTL, chapter 05. -/
def row_HK_CTL_0800 : Row := ⟨0x0800, 1, 0x1, 1, [⟨31, 24, .rw, 0x32⟩, ⟨4, 4, .rw, 0x0⟩, ⟨3, 0, .rw, 0x7⟩]⟩
/-- HK_CMD, chapter 05. -/
def row_HK_CMD_0801 : Row := ⟨0x0801, 1, 0x1, 1, [⟨1, 1, .wo, 0x0⟩, ⟨0, 0, .wo, 0x0⟩]⟩
/-- HK_ST, chapter 05. -/
def row_HK_ST_0802 : Row := ⟨0x0802, 1, 0x1, 1, [⟨31, 28, .ro, 0x0⟩, ⟨27, 27, .ro, 0x0⟩, ⟨26, 24, .ro, 0x0⟩, ⟨23, 16, .ro, 0x0⟩, ⟨1, 1, .ro, 0x0⟩, ⟨0, 0, .ro, 0x0⟩]⟩
/-- HK_EVT, chapter 05. -/
def row_HK_EVT_0803 : Row := ⟨0x0803, 1, 0x1, 1, [⟨3, 3, .w1c, 0x0⟩, ⟨2, 2, .w1c, 0x0⟩, ⟨1, 1, .w1c, 0x0⟩, ⟨0, 0, .w1c, 0x0⟩]⟩
/-- HK_CNT, chapter 05. -/
def row_HK_CNT_0804 : Row := ⟨0x0804, 1, 0x1, 1, [⟨31, 16, .rc, 0x0⟩, ⟨15, 8, .rc, 0x0⟩, ⟨7, 0, .rc, 0x0⟩]⟩
/-- HK_PASS, chapter 05. -/
def row_HK_PASS_0805 : Row := ⟨0x0805, 1, 0x1, 1, [⟨19, 0, .ro, 0x1A60⟩]⟩
/-- HK_SEQ, chapter 05. -/
def row_HK_SEQ_0810 : Row := ⟨0x0810, 1, 0x1, 16, [⟨31, 26, .rw, 0x0⟩, ⟨25, 24, .rw, 0x0⟩, ⟨23, 16, .rw, 0x0⟩, ⟨15, 13, .rw, 0x0⟩, ⟨12, 10, .rw, 0x0⟩]⟩
/-- HK_RES, chapter 05. -/
def row_HK_RES_0820 : Row := ⟨0x0820, 1, 0x1, 16, [⟨31, 8, .ro, 0x0⟩, ⟨2, 2, .ro, 0x0⟩, ⟨1, 1, .ro, 0x0⟩, ⟨0, 0, .rc, 0x0⟩]⟩
/-- HK_INJCFG, chapter 05. -/
def row_HK_INJCFG_0830 : Row := ⟨0x0830, 1, 0x1, 3, [⟨31, 13, .rw, 0x0⟩, ⟨12, 12, .rw, 0x0⟩]⟩
/-- HK_INJRES, chapter 05. -/
def row_HK_INJRES_0834 : Row := ⟨0x0834, 1, 0x1, 3, [⟨31, 8, .ro, 0x0⟩, ⟨2, 2, .ro, 0x0⟩, ⟨1, 1, .ro, 0x0⟩, ⟨0, 0, .rc, 0x0⟩]⟩
/-- CV_ST, chapter 05. -/
def row_CV_ST_0840 : Row := ⟨0x0840, 1, 0x1, 10, [⟨31, 16, .rc, 0x0⟩, ⟨1, 1, .ro, 0x1⟩, ⟨0, 0, .ro, 0x0⟩]⟩
/-- SCAL_CTL, chapter 05. -/
def row_SCAL_CTL_0880 : Row := ⟨0x0880, 1, 0x1, 1, [⟨15, 12, .rw, 0x0⟩, ⟨0, 0, .rw, 0x0⟩]⟩
/-- SCAL_CMD, chapter 05. -/
def row_SCAL_CMD_0881 : Row := ⟨0x0881, 1, 0x1, 1, [⟨4, 4, .wo, 0x0⟩, ⟨3, 3, .wo, 0x0⟩, ⟨1, 1, .wo, 0x0⟩, ⟨0, 0, .wo, 0x0⟩]⟩
/-- SCAL_REF1, chapter 05. -/
def row_SCAL_REF1_0882 : Row := ⟨0x0882, 1, 0x1, 1, [⟨23, 0, .rw, 0x0⟩]⟩
/-- SCAL_REF2, chapter 05. -/
def row_SCAL_REF2_0883 : Row := ⟨0x0883, 1, 0x1, 1, [⟨23, 0, .rw, 0x0⟩]⟩
/-- SCAL_FREQ, chapter 05. -/
def row_SCAL_FREQ_0884 : Row := ⟨0x0884, 1, 0x1, 1, [⟨23, 0, .rw, 0x3E80⟩]⟩
/-- SCAL_ST, chapter 05. -/
def row_SCAL_ST_0885 : Row := ⟨0x0885, 1, 0x1, 1, [⟨31, 28, .ro, 0x0⟩, ⟨23, 16, .ro, 0x0⟩, ⟨0, 0, .ro, 0x0⟩]⟩
/-- SCAL_MEAS, chapter 05. -/
def row_SCAL_MEAS_0886 : Row := ⟨0x0886, 1, 0x1, 1, [⟨31, 0, .ro, 0x0⟩]⟩
/-- SCAL_GAIN, chapter 05. -/
def row_SCAL_GAIN_0890 : Row := ⟨0x0890, 1, 0x2, 11, [⟨23, 0, .ro, 0x400000⟩]⟩
/-- SCAL_OFS, chapter 05. -/
def row_SCAL_OFS_0891 : Row := ⟨0x0891, 1, 0x2, 11, [⟨23, 0, .ro, 0x0⟩]⟩
/-- AUX_CFG, chapter 06. -/
def row_AUX_CFG_0A00 : Row := ⟨0x0A00, 1, 0x1, 1, [⟨4, 4, .rw, 0x0⟩, ⟨1, 0, .rw, 0x0⟩]⟩
/-- AUX_IN, chapter 06. -/
def row_AUX_IN_0A01 : Row := ⟨0x0A01, 1, 0x1, 1, [⟨31, 24, .rw, 0x50⟩, ⟨23, 16, .rw, 0x28⟩, ⟨11, 0, .rw, 0xA⟩]⟩
/-- AUX_TACH, chapter 06. -/
def row_AUX_TACH_0A02 : Row := ⟨0x0A02, 1, 0x1, 1, [⟨31, 16, .rw, 0xC8⟩, ⟨9, 9, .rw, 0x0⟩, ⟨8, 8, .rw, 0x0⟩, ⟨7, 0, .rw, 0x1⟩]⟩
/-- AUX_PRB, chapter 06. -/
def row_AUX_PRB_0A03 : Row := ⟨0x0A03, 1, 0x1, 1, [⟨1, 0, .rw, 0x0⟩]⟩
/-- AUX_RLEAD, chapter 06. -/
def row_AUX_RLEAD_0A04 : Row := ⟨0x0A04, 1, 0x1, 1, [⟨19, 0, .rw, 0x0⟩]⟩
/-- AUX_CMWIN, chapter 06. -/
def row_AUX_CMWIN_0A05 : Row := ⟨0x0A05, 1, 0x1, 1, [⟨31, 16, .rw, 0xC8⟩, ⟨15, 0, .rw, 0xAF0⟩]⟩
/-- AUX_OUT, chapter 06. -/
def row_AUX_OUT_0A06 : Row := ⟨0x0A06, 1, 0x1, 1, [⟨5, 4, .rw, 0x0⟩, ⟨2, 0, .rw, 0x0⟩]⟩
/-- AUX_CMD, chapter 06. -/
def row_AUX_CMD_0A07 : Row := ⟨0x0A07, 1, 0x1, 1, [⟨0, 0, .wo, 0x0⟩]⟩
/-- AUX_ST, chapter 06. -/
def row_AUX_ST_0A08 : Row := ⟨0x0A08, 1, 0x1, 1, [⟨7, 7, .ro, 0x0⟩, ⟨6, 6, .ro, 0x0⟩, ⟨5, 5, .ro, 0x0⟩, ⟨4, 4, .ro, 0x0⟩, ⟨3, 2, .ro, 0x0⟩, ⟨1, 1, .ro, 0x0⟩, ⟨0, 0, .ro, 0x0⟩]⟩
/-- AUX_EVT, chapter 06. -/
def row_AUX_EVT_0A09 : Row := ⟨0x0A09, 1, 0x1, 1, [⟨6, 6, .w1c, 0x0⟩, ⟨5, 5, .w1c, 0x0⟩, ⟨4, 4, .w1c, 0x0⟩, ⟨3, 3, .w1c, 0x0⟩, ⟨2, 2, .w1c, 0x0⟩, ⟨1, 1, .w1c, 0x0⟩, ⟨0, 0, .w1c, 0x0⟩]⟩
/-- AUX_CNT, chapter 06. -/
def row_AUX_CNT_0A0A : Row := ⟨0x0A0A, 1, 0x1, 1, [⟨31, 16, .rc, 0x0⟩, ⟨15, 8, .rc, 0x0⟩, ⟨7, 0, .rc, 0x0⟩]⟩
/-- AUX_EDGE, chapter 06. -/
def row_AUX_EDGE_0A0B : Row := ⟨0x0A0B, 1, 0x1, 1, [⟨31, 0, .ro, 0x0⟩]⟩
/-- AUX_PER, chapter 06. -/
def row_AUX_PER_0A0C : Row := ⟨0x0A0C, 1, 0x1, 1, [⟨31, 0, .ro, 0x0⟩]⟩
/-- AUX_RMEAS, chapter 06. -/
def row_AUX_RMEAS_0A0D : Row := ⟨0x0A0D, 1, 0x1, 1, [⟨31, 0, .ro, 0x0⟩]⟩
/-- SSP_CFG, chapter 06. -/
def row_SSP_CFG_0A20 : Row := ⟨0x0A20, 1, 0x1, 1, [⟨1, 1, .rw, 0x0⟩, ⟨0, 0, .rw, 0x0⟩]⟩
/-- SSP_DLY, chapter 06. -/
def row_SSP_DLY_0A21 : Row := ⟨0x0A21, 1, 0x1, 1, [⟨29, 20, .rw, 0xC8⟩, ⟨19, 10, .rw, 0x14⟩, ⟨9, 0, .rw, 0x14⟩]⟩
/-- SSP_ST, chapter 06. -/
def row_SSP_ST_0A22 : Row := ⟨0x0A22, 1, 0x1, 1, [⟨15, 8, .ro, 0x0⟩, ⟨7, 7, .ro, 0x0⟩, ⟨6, 4, .ro, 0x0⟩, ⟨3, 3, .ro, 0x0⟩, ⟨2, 2, .ro, 0x0⟩]⟩
/-- SSP_CNT, chapter 06. -/
def row_SSP_CNT_0A23 : Row := ⟨0x0A23, 1, 0x1, 1, [⟨31, 24, .rc, 0x0⟩, ⟨23, 16, .rc, 0x0⟩, ⟨15, 8, .rc, 0x0⟩, ⟨7, 0, .rc, 0x0⟩]⟩
/-- ML_CFG, chapter 07. -/
def row_ML_CFG_0410 : Row := ⟨0x0410, 1, 0x40, 11, [⟨7, 4, .rw, 0x6⟩, ⟨0, 0, .rw, 0x0⟩]⟩
/-- ML_CTL, chapter 07. -/
def row_ML_CTL_0411 : Row := ⟨0x0411, 1, 0x40, 11, [⟨1, 1, .wo, 0x0⟩, ⟨0, 0, .wo, 0x0⟩]⟩
/-- ML_ST, chapter 07. -/
def row_ML_ST_0412 : Row := ⟨0x0412, 1, 0x40, 11, [⟨31, 24, .ro, 0x0⟩, ⟨19, 16, .ro, 0x0⟩, ⟨11, 10, .ro, 0x0⟩, ⟨9, 8, .ro, 0x0⟩, ⟨7, 7, .ro, 0x0⟩, ⟨3, 3, .ro, 0x0⟩, ⟨2, 0, .ro, 0x0⟩]⟩
/-- ML_SETL, chapter 07. -/
def row_ML_SETL_0413 : Row := ⟨0x0413, 1, 0x40, 11, [⟨19, 0, .ro, 0x40⟩]⟩
/-- ML_SREM, chapter 07. -/
def row_ML_SREM_0414 : Row := ⟨0x0414, 1, 0x40, 11, [⟨19, 0, .ro, 0x0⟩]⟩
/-- ML_GD, chapter 07. -/
def row_ML_GD_0415 : Row := ⟨0x0415, 1, 0x40, 11, [⟨31, 0, .ro, 0x0⟩]⟩
/-- ML_EVT, chapter 07. -/
def row_ML_EVT_0416 : Row := ⟨0x0416, 1, 0x40, 11, [⟨4, 4, .w1c, 0x0⟩, ⟨3, 3, .w1c, 0x0⟩, ⟨2, 2, .w1c, 0x0⟩, ⟨1, 1, .w1c, 0x0⟩, ⟨0, 0, .w1c, 0x0⟩]⟩
/-- ML_CNT, chapter 07. -/
def row_ML_CNT_0417 : Row := ⟨0x0417, 1, 0x40, 11, [⟨31, 16, .rc, 0x0⟩, ⟨15, 8, .rc, 0x0⟩, ⟨7, 0, .rc, 0x0⟩]⟩
/-- MB_HDR, chapter 07. -/
def row_MB_HDR_0C00 : Row := ⟨0x0C00, 1, 0x20, 22, [⟨31, 30, .rw, 0x0⟩, ⟨24, 16, .rw, 0x0⟩, ⟨2, 0, .rw, 0x0⟩]⟩
/-- MB_GD, chapter 07. -/
def row_MB_GD_0C01 : Row := ⟨0x0C01, 1, 0x20, 22, [⟨15, 0, .rw, 0x0⟩]⟩
/-- MB_BQ_C, chapter 07. -/
def row_MB_BQ_C_0C08 : Row := ⟨0x0C08, 20, 0x20, 22, [⟨31, 0, .rw, 0x0⟩]⟩
/-- MT_TAP, chapter 07. -/
def row_MT_TAP_2000 : Row := ⟨0x2000, 1, 0x1, 5632, [⟨23, 0, .rw, 0x0⟩]⟩
/-- ML_GCMD, chapter 07. -/
def row_ML_GCMD_0B00 : Row := ⟨0x0B00, 1, 0x1, 1, [⟨0, 0, .wo, 0x0⟩]⟩
/-- ML_GST, chapter 07. -/
def row_ML_GST_0B01 : Row := ⟨0x0B01, 1, 0x1, 1, [⟨31, 16, .rc, 0x0⟩, ⟨15, 8, .rc, 0x0⟩]⟩
/-- GR_CFG, chapter 08. -/
def row_GR_CFG_0420 : Row := ⟨0x0420, 1, 0x40, 16, [⟨5, 5, .rw, 0x0⟩, ⟨3, 0, .rw, 0x0⟩]⟩
/-- GR_LAST, chapter 08. -/
def row_GR_LAST_0421 : Row := ⟨0x0421, 1, 0x40, 16, [⟨31, 0, .ro, 0x0⟩]⟩
/-- GR_SSN, chapter 08. -/
def row_GR_SSN_0422 : Row := ⟨0x0422, 1, 0x40, 16, [⟨31, 0, .rl, 0x0⟩]⟩
/-- GR_SSN, chapter 08. -/
def row_GR_SSN_0423 : Row := ⟨0x0423, 1, 0x40, 16, [⟨15, 0, .ro, 0x0⟩]⟩
/-- GR_CNT, chapter 08. -/
def row_GR_CNT_0424 : Row := ⟨0x0424, 1, 0x40, 16, [⟨31, 0, .rc, 0x0⟩]⟩
/-- GR_EVT, chapter 08. -/
def row_GR_EVT_0425 : Row := ⟨0x0425, 1, 0x40, 16, [⟨1, 1, .w1c, 0x0⟩, ⟨0, 0, .w1c, 0x0⟩]⟩
/-- ID_RUN, chapter 08. -/
def row_ID_RUN_0005 : Row := ⟨0x0005, 1, 0x1, 1, [⟨31, 0, .ro, 0x0⟩]⟩
/-- CAL_CTL, chapter 09. -/
def row_CAL_CTL_1000 : Row := ⟨0x1000, 1, 0x1, 1, [⟨23, 16, .rw, 0x28⟩, ⟨15, 8, .rw, 0x28⟩]⟩
/-- CAL_CMD, chapter 09. -/
def row_CAL_CMD_1001 : Row := ⟨0x1001, 1, 0x1, 1, [⟨11, 11, .wo, 0x0⟩, ⟨9, 0, .wo, 0x0⟩]⟩
/-- CAL_GST, chapter 09. -/
def row_CAL_GST_1002 : Row := ⟨0x1002, 1, 0x1, 1, [⟨31, 16, .ro, 0x0⟩, ⟨15, 15, .ro, 0x0⟩, ⟨11, 8, .ro, 0xF⟩, ⟨0, 0, .ro, 0x0⟩]⟩
/-- CAL_EVT, chapter 09. -/
def row_CAL_EVT_1003 : Row := ⟨0x1003, 1, 0x1, 1, [⟨7, 7, .w1c, 0x0⟩, ⟨6, 6, .w1c, 0x0⟩, ⟨5, 5, .w1c, 0x0⟩, ⟨4, 4, .w1c, 0x0⟩, ⟨3, 3, .w1c, 0x0⟩, ⟨2, 2, .w1c, 0x0⟩, ⟨1, 1, .w1c, 0x0⟩, ⟨0, 0, .w1c, 0x0⟩]⟩
/-- CAL_SN, chapter 09. -/
def row_CAL_SN_1004 : Row := ⟨0x1004, 1, 0x1, 1, [⟨31, 0, .rl, 0x0⟩]⟩
/-- CAL_SN, chapter 09. -/
def row_CAL_SN_1005 : Row := ⟨0x1005, 1, 0x1, 1, [⟨31, 0, .ro, 0x0⟩]⟩
/-- CAL_RST, chapter 09. -/
def row_CAL_RST_1006 : Row := ⟨0x1006, 1, 0x1, 1, [⟨2, 0, .wo, 0x0⟩]⟩
/-- CAL_RSTST, chapter 09. -/
def row_CAL_RSTST_1007 : Row := ⟨0x1007, 1, 0x1, 1, [⟨31, 24, .ro, 0x0⟩, ⟨1, 0, .ro, 0x0⟩]⟩
/-- CAL_BIND, chapter 09. -/
def row_CAL_BIND_1008 : Row := ⟨0x1008, 1, 0x1, 1, [⟨31, 0, .rw, 0x0⟩]⟩
/-- CAL_ST, chapter 09. -/
def row_CAL_ST_1010 : Row := ⟨0x1010, 1, 0x4, 10, [⟨31, 24, .rc, 0x0⟩, ⟨23, 16, .rc, 0x0⟩, ⟨15, 12, .ro, 0x0⟩, ⟨9, 8, .ro, 0x0⟩, ⟨2, 0, .ro, 0x0⟩]⟩
/-- CAL_OFS, chapter 09. -/
def row_CAL_OFS_1011 : Row := ⟨0x1011, 1, 0x4, 10, [⟨31, 20, .rw, 0x0⟩, ⟨19, 0, .rw, 0x0⟩]⟩
/-- CAL_GAIN, chapter 09. -/
def row_CAL_GAIN_1012 : Row := ⟨0x1012, 1, 0x4, 10, [⟨31, 20, .rw, 0x0⟩, ⟨19, 0, .rw, 0x0⟩]⟩
/-- CAL_TREF, chapter 09. -/
def row_CAL_TREF_1013 : Row := ⟨0x1013, 1, 0x4, 10, [⟨31, 16, .rw, 0x0⟩]⟩
/-- CAL_DRV, chapter 09. -/
def row_CAL_DRV_1040 : Row := ⟨0x1040, 1, 0x1, 1, [⟨31, 20, .rw, 0x0⟩]⟩
/-- CAL_TAPS, chapter 09. -/
def row_CAL_TAPS_1041 : Row := ⟨0x1041, 1, 0x1, 1, [⟨31, 0, .rw, 0x20202020⟩]⟩
/-- CAL_TAPT, chapter 09. -/
def row_CAL_TAPT_1042 : Row := ⟨0x1042, 1, 0x1, 1, [⟨31, 0, .ro, 0x20202020⟩]⟩
/-- CAL_STRB0, chapter 09. -/
def row_CAL_STRB0_1043 : Row := ⟨0x1043, 1, 0x1, 1, [⟨31, 0, .rw, 0x20820820⟩]⟩
/-- CAL_STRB1, chapter 09. -/
def row_CAL_STRB1_1044 : Row := ⟨0x1044, 1, 0x1, 1, [⟨31, 0, .rw, 0x20820820⟩]⟩
/-- CAL_AUXT, chapter 09. -/
def row_CAL_AUXT_1045 : Row := ⟨0x1045, 1, 0x1, 1, [⟨31, 0, .rw, 0x2020⟩]⟩
/-- CAL_TREFB, chapter 09. -/
def row_CAL_TREFB_1046 : Row := ⟨0x1046, 1, 0x1, 1, [⟨31, 16, .rw, 0x0⟩]⟩
/-- LD_ST, chapter 10. -/
def row_LD_ST_1100 : Row := ⟨0x1100, 1, 0x1, 1, [⟨11, 0, .ro, 0x800⟩]⟩
/-- LD_EVT, chapter 10. -/
def row_LD_EVT_1101 : Row := ⟨0x1101, 1, 0x1, 1, [⟨2, 2, .w1c, 0x0⟩, ⟨1, 1, .w1c, 0x0⟩, ⟨0, 0, .w1c, 0x0⟩]⟩
/-- LD_DROP, chapter 10. -/
def row_LD_DROP_1102 : Row := ⟨0x1102, 1, 0x1, 1, [⟨31, 0, .rc, 0x0⟩]⟩
/-- LD_HELD, chapter 10. -/
def row_LD_HELD_1103 : Row := ⟨0x1103, 1, 0x1, 1, [⟨27, 16, .ro, 0x0⟩, ⟨11, 0, .ro, 0x0⟩]⟩
/-- LD_ATT, chapter 10. -/
def row_LD_ATT_1110 : Row := ⟨0x1110, 1, 0x1, 16, [⟨5, 0, .ro, 0x0⟩]⟩
/-- DK_RING, chapter 10. -/
def row_DK_RING_1120 : Row := ⟨0x1120, 1, 0x1, 16, [⟨31, 16, .ro, 0x0⟩, ⟨7, 0, .rw, 0x3C⟩]⟩
/-- DK_ST, chapter 10. -/
def row_DK_ST_1130 : Row := ⟨0x1130, 1, 0x1, 1, [⟨1, 1, .ro, 0x0⟩, ⟨0, 0, .ro, 0x0⟩]⟩
/-- DK_ACC, chapter 10. -/
def row_DK_ACC_1131 : Row := ⟨0x1131, 1, 0x1, 1, [⟨31, 16, .ro, 0x0⟩, ⟨15, 0, .ro, 0x0⟩]⟩
/-- DK_ACC, chapter 10. -/
def row_DK_ACC_1132 : Row := ⟨0x1132, 1, 0x1, 1, [⟨31, 16, .ro, 0x0⟩, ⟨15, 0, .ro, 0x0⟩]⟩
/-- DK_EVT, chapter 10. -/
def row_DK_EVT_1133 : Row := ⟨0x1133, 1, 0x1, 1, [⟨4, 4, .w1c, 0x0⟩, ⟨3, 3, .w1c, 0x0⟩, ⟨2, 2, .w1c, 0x0⟩, ⟨1, 1, .w1c, 0x0⟩, ⟨0, 0, .w1c, 0x0⟩]⟩
/-- DK_CNT, chapter 10. -/
def row_DK_CNT_1134 : Row := ⟨0x1134, 1, 0x1, 1, [⟨31, 24, .rc, 0x0⟩, ⟨23, 16, .rc, 0x0⟩, ⟨15, 8, .rc, 0x0⟩]⟩
/-- DK_REVREC, chapter 10. -/
def row_DK_REVREC_1135 : Row := ⟨0x1135, 1, 0x1, 1, [⟨31, 0, .rc, 0x0⟩]⟩
/-- DK_CMD, chapter 10. -/
def row_DK_CMD_1136 : Row := ⟨0x1136, 1, 0x1, 1, [⟨31, 16, .wo, 0x0⟩, ⟨15, 0, .wo, 0x0⟩]⟩
/-- DK_CAP, chapter 10. -/
def row_DK_CAP_1140 : Row := ⟨0x1140, 1, 0x4, 16, [⟨31, 16, .rw, 0x0⟩, ⟨15, 15, .rw, 0x0⟩, ⟨14, 14, .rw, 0x0⟩, ⟨13, 13, .rw, 0x1⟩]⟩
/-- DK_CAP, chapter 10. -/
def row_DK_CAP_1141 : Row := ⟨0x1141, 1, 0x4, 16, [⟨31, 24, .rw, 0xFF⟩, ⟨23, 16, .rw, 0xFF⟩, ⟨15, 8, .rw, 0xFF⟩, ⟨7, 4, .rw, 0x0⟩]⟩
/-- DK_CAP, chapter 10. -/
def row_DK_CAP_1142 : Row := ⟨0x1142, 1, 0x4, 16, [⟨31, 22, .rw, 0x64⟩, ⟨21, 12, .rw, 0x14⟩, ⟨11, 0, .rw, 0x64⟩]⟩
/-- DK_CAP, chapter 10. -/
def row_DK_CAP_1143 : Row := ⟨0x1143, 1, 0x4, 16, [⟨31, 29, .ro, 0x0⟩, ⟨28, 28, .ro, 0x0⟩, ⟨27, 27, .ro, 0x0⟩, ⟨26, 24, .ro, 0x0⟩, ⟨15, 0, .ro, 0x0⟩]⟩
/-- LS, chapter 10. -/
def row_LS_1180 : Row := ⟨0x1180, 1, 0x1, 32, [⟨31, 30, .ro, 0x0⟩, ⟨29, 28, .ro, 0x0⟩, ⟨25, 24, .ro, 0x0⟩, ⟨23, 16, .ro, 0x0⟩, ⟨15, 0, .ro, 0x0⟩]⟩
/-- RC_IMP_CFG, chapter 11. -/
def row_RC_IMP_CFG_1200 : Row := ⟨0x1200, 1, 0x1, 1, [⟨31, 31, .rw, 0x0⟩, ⟨30, 28, .rw, 0x7⟩, ⟨27, 24, .rw, 0x6⟩, ⟨23, 0, .rw, 0x61A80⟩]⟩
/-- RC_IMP_TIM, chapter 11. -/
def row_RC_IMP_TIM_1201 : Row := ⟨0x1201, 1, 0x1, 1, [⟨31, 16, .rw, 0xC8⟩, ⟨15, 0, .rw, 0x32⟩]⟩
/-- RC_IMP_DBL, chapter 11. -/
def row_RC_IMP_DBL_1202 : Row := ⟨0x1202, 1, 0x1, 1, [⟨31, 28, .rw, 0x8⟩, ⟨15, 0, .rw, 0x0⟩]⟩
/-- RC_IMP_ST, chapter 11. -/
def row_RC_IMP_ST_1203 : Row := ⟨0x1203, 1, 0x1, 1, [⟨31, 30, .ro, 0x0⟩]⟩
/-- RC_IMP_CNT, chapter 11. -/
def row_RC_IMP_CNT_1204 : Row := ⟨0x1204, 1, 0x1, 1, [⟨31, 16, .rc, 0x0⟩, ⟨15, 0, .rc, 0x0⟩]⟩
/-- RC_STK_CFG, chapter 11. -/
def row_RC_STK_CFG_1208 : Row := ⟨0x1208, 1, 0x1, 1, [⟨31, 31, .rw, 0x0⟩, ⟨30, 30, .rw, 0x0⟩, ⟨27, 24, .rw, 0x4⟩, ⟨23, 20, .rw, 0x3⟩, ⟨19, 12, .rw, 0xA⟩]⟩
/-- RC_STK_LVL, chapter 11. -/
def row_RC_STK_LVL_1209 : Row := ⟨0x1209, 1, 0x1, 1, [⟨31, 8, .rw, 0x0⟩]⟩
/-- RC_STK_HYS, chapter 11. -/
def row_RC_STK_HYS_120A : Row := ⟨0x120A, 1, 0x1, 1, [⟨31, 8, .rw, 0x0⟩]⟩
/-- RC_STK_STOP, chapter 11. -/
def row_RC_STK_STOP_120B : Row := ⟨0x120B, 1, 0x1, 1, [⟨15, 0, .rw, 0xC8⟩]⟩
/-- RC_STK_COUNT, chapter 11. -/
def row_RC_STK_COUNT_120C : Row := ⟨0x120C, 1, 0x1, 1, [⟨31, 0, .ro, 0x0⟩]⟩
/-- RC_STK_PER, chapter 11. -/
def row_RC_STK_PER_120D : Row := ⟨0x120D, 1, 0x1, 1, [⟨31, 0, .ro, 0x0⟩]⟩
/-- RC_STK_ST, chapter 11. -/
def row_RC_STK_ST_120E : Row := ⟨0x120E, 1, 0x1, 1, [⟨31, 30, .ro, 0x0⟩, ⟨23, 16, .rc, 0x0⟩]⟩
/-- RC_FF_CFG, chapter 11. -/
def row_RC_FF_CFG_1210 : Row := ⟨0x1210, 1, 0x1, 1, [⟨31, 31, .rw, 0x0⟩, ⟨27, 24, .rw, 0xA⟩, ⟨23, 0, .rw, 0x30D40⟩]⟩
/-- RC_FF_TIM, chapter 11. -/
def row_RC_FF_TIM_1211 : Row := ⟨0x1211, 1, 0x1, 1, [⟨15, 0, .rw, 0x64⟩]⟩
/-- RC_FF_ST, chapter 11. -/
def row_RC_FF_ST_1212 : Row := ⟨0x1212, 1, 0x1, 1, [⟨31, 31, .ro, 0x0⟩, ⟨7, 0, .rc, 0x0⟩]⟩
/-- RC_EVT, chapter 11. -/
def row_RC_EVT_1218 : Row := ⟨0x1218, 1, 0x1, 1, [⟨6, 6, .w1c, 0x0⟩, ⟨5, 5, .w1c, 0x0⟩, ⟨4, 4, .w1c, 0x0⟩, ⟨3, 3, .w1c, 0x0⟩, ⟨2, 2, .w1c, 0x0⟩, ⟨1, 1, .w1c, 0x0⟩, ⟨0, 0, .w1c, 0x0⟩]⟩
/-- BZ_CFG, chapter 11. -/
def row_BZ_CFG_1300 : Row := ⟨0x1300, 1, 0x1, 1, [⟨31, 24, .ro, 0xFE⟩, ⟨23, 16, .rw, 0x20⟩, ⟨15, 8, .rw, 0x4⟩]⟩
/-- BZ_ROUTE, chapter 11. -/
def row_BZ_ROUTE_1301 : Row := ⟨0x1301, 1, 0x1, 1, [⟨31, 0, .rw, 0xF1F1F1F⟩]⟩
/-- BZ_EVT, chapter 11. -/
def row_BZ_EVT_1302 : Row := ⟨0x1302, 1, 0x1, 1, [⟨4, 4, .w1c, 0x0⟩, ⟨3, 3, .w1c, 0x0⟩, ⟨1, 1, .w1c, 0x0⟩, ⟨0, 0, .w1c, 0x0⟩]⟩
/-- BZ_CNT, chapter 11. -/
def row_BZ_CNT_1303 : Row := ⟨0x1303, 1, 0x1, 1, [⟨31, 24, .rc, 0x0⟩, ⟨23, 16, .rc, 0x0⟩, ⟨15, 8, .rc, 0x0⟩, ⟨7, 0, .rc, 0x0⟩]⟩
/-- BZ_SEQ, chapter 11. -/
def row_BZ_SEQ_1304 : Row := ⟨0x1304, 1, 0x1, 1, [⟨15, 0, .ro, 0x0⟩]⟩
/-- BZ_FIFOST, chapter 11. -/
def row_BZ_FIFOST_1305 : Row := ⟨0x1305, 1, 0x1, 1, [⟨4, 0, .ro, 0x0⟩]⟩
/-- BZ_CMD, chapter 11. -/
def row_BZ_CMD_1306 : Row := ⟨0x1306, 1, 0x1, 1, [⟨0, 0, .wo, 0x0⟩]⟩
/-- BZ_HEAD, chapter 11. -/
def row_BZ_HEAD_1308 : Row := ⟨0x1308, 1, 0x1, 8, [⟨31, 0, .ro, 0x0⟩]⟩
/-- BZ_MATCH, chapter 11. -/
def row_BZ_MATCH_1310 : Row := ⟨0x1310, 1, 0x1, 8, [⟨31, 24, .rw, 0xFF⟩, ⟨23, 16, .rw, 0xFF⟩, ⟨15, 8, .rw, 0xFF⟩, ⟨7, 4, .rw, 0x0⟩, ⟨0, 0, .rw, 0x0⟩]⟩
/-- BZ_PEER, chapter 11. -/
def row_BZ_PEER_1320 : Row := ⟨0x1320, 1, 0x1, 32, [⟨31, 31, .rw, 0x0⟩, ⟨23, 16, .rw, 0x0⟩, ⟨15, 8, .ro, 0x0⟩, ⟨7, 0, .rc, 0x0⟩]⟩
/-- BZ_PSEQ, chapter 11. -/
def row_BZ_PSEQ_1340 : Row := ⟨0x1340, 1, 0x1, 32, [⟨15, 0, .ro, 0x0⟩]⟩
/-- PE_GCMD, chapter 12. -/
def row_PE_GCMD_1400 : Row := ⟨0x1400, 1, 0x1, 1, [⟨31, 24, .wo, 0x0⟩, ⟨23, 16, .wo, 0x0⟩, ⟨15, 8, .wo, 0x0⟩, ⟨7, 0, .wo, 0x0⟩]⟩
/-- PE_GST, chapter 12. -/
def row_PE_GST_1401 : Row := ⟨0x1401, 1, 0x1, 1, [⟨23, 16, .ro, 0x0⟩, ⟨15, 8, .ro, 0x0⟩, ⟨7, 0, .ro, 0x0⟩]⟩
/-- PE_CFG, chapter 12. -/
def row_PE_CFG_1420 : Row := ⟨0x1420, 1, 0x20, 8, [⟨15, 12, .rw, 0x4⟩, ⟨11, 8, .rw, 0xA⟩, ⟨7, 4, .rw, 0x0⟩, ⟨3, 3, .rw, 0x0⟩, ⟨2, 2, .rw, 0x0⟩, ⟨1, 0, .rw, 0x0⟩]⟩
/-- PE_PER, chapter 12. -/
def row_PE_PER_1421 : Row := ⟨0x1421, 1, 0x20, 8, [⟨23, 0, .rw, 0x100⟩]⟩
/-- PE_MEV, chapter 12. -/
def row_PE_MEV_1422 : Row := ⟨0x1422, 1, 0x20, 8, [⟨31, 28, .rw, 0x0⟩, ⟨27, 26, .rw, 0x0⟩, ⟨23, 0, .rw, 0x0⟩]⟩
/-- PE_ST, chapter 12. -/
def row_PE_ST_1423 : Row := ⟨0x1423, 1, 0x20, 8, [⟨31, 28, .ro, 0x0⟩, ⟨27, 24, .ro, 0x0⟩, ⟨21, 16, .ro, 0x0⟩, ⟨13, 8, .ro, 0x0⟩, ⟨7, 7, .ro, 0x0⟩, ⟨6, 5, .ro, 0x0⟩, ⟨4, 0, .ro, 0x0⟩]⟩
/-- PE_U, chapter 12. -/
def row_PE_U_1424 : Row := ⟨0x1424, 1, 0x20, 8, [⟨31, 0, .rw, 0x0⟩]⟩
/-- PE_V, chapter 12. -/
def row_PE_V_1425 : Row := ⟨0x1425, 1, 0x20, 8, [⟨31, 0, .rw, 0x0⟩]⟩
/-- PE_CNT, chapter 12. -/
def row_PE_CNT_1426 : Row := ⟨0x1426, 1, 0x20, 8, [⟨31, 0, .rw, 0x0⟩]⟩
/-- PE_SIN, chapter 12. -/
def row_PE_SIN_1427 : Row := ⟨0x1427, 1, 0x20, 8, [⟨31, 0, .rw, 0x0⟩]⟩
/-- PE_SOUT, chapter 12. -/
def row_PE_SOUT_1428 : Row := ⟨0x1428, 1, 0x20, 8, [⟨31, 0, .rw, 0x0⟩]⟩
/-- PE_TCS, chapter 12. -/
def row_PE_TCS_1429 : Row := ⟨0x1429, 1, 0x20, 8, [⟨31, 0, .ro, 0x0⟩]⟩
/-- PE_TCN, chapter 12. -/
def row_PE_TCN_142A : Row := ⟨0x142A, 1, 0x20, 8, [⟨29, 0, .ro, 0x0⟩]⟩
/-- PE_TCD, chapter 12. -/
def row_PE_TCD_142B : Row := ⟨0x142B, 1, 0x20, 8, [⟨31, 0, .ro, 0xFFFFFFFF⟩]⟩
/-- PE_TXQ, chapter 12. -/
def row_PE_TXQ_142C : Row := ⟨0x142C, 1, 0x20, 8, [⟨31, 0, .wo, 0x0⟩]⟩
/-- PE_RXQ, chapter 12. -/
def row_PE_RXQ_142D : Row := ⟨0x142D, 1, 0x20, 8, [⟨31, 0, .rc, 0x0⟩]⟩
/-- PE_EVT, chapter 12. -/
def row_PE_EVT_142E : Row := ⟨0x142E, 1, 0x20, 8, [⟨9, 9, .w1c, 0x0⟩, ⟨8, 8, .w1c, 0x0⟩, ⟨7, 7, .w1c, 0x0⟩, ⟨6, 6, .w1c, 0x0⟩, ⟨5, 5, .w1c, 0x0⟩, ⟨4, 4, .w1c, 0x0⟩, ⟨3, 3, .w1c, 0x0⟩, ⟨2, 2, .w1c, 0x0⟩, ⟨1, 1, .w1c, 0x0⟩, ⟨0, 0, .w1c, 0x0⟩]⟩
/-- PE_STALL, chapter 12. -/
def row_PE_STALL_142F : Row := ⟨0x142F, 1, 0x20, 8, [⟨31, 16, .rc, 0x0⟩, ⟨15, 0, .rc, 0x0⟩]⟩
/-- PE_RXDROP, chapter 12. -/
def row_PE_RXDROP_1430 : Row := ⟨0x1430, 1, 0x20, 8, [⟨31, 0, .ro, 0x0⟩]⟩
/-- PE_TXDROP, chapter 12. -/
def row_PE_TXDROP_1431 : Row := ⟨0x1431, 1, 0x20, 8, [⟨31, 0, .ro, 0x0⟩]⟩
/-- PE_INJ, chapter 12. -/
def row_PE_INJ_1432 : Row := ⟨0x1432, 1, 0x20, 8, [⟨15, 0, .wo, 0x0⟩]⟩
/-- PE_RXIN, chapter 12. -/
def row_PE_RXIN_1433 : Row := ⟨0x1433, 1, 0x20, 8, [⟨31, 0, .ro, 0x0⟩]⟩
/-- PE_RXOUT, chapter 12. -/
def row_PE_RXOUT_1434 : Row := ⟨0x1434, 1, 0x20, 8, [⟨31, 0, .ro, 0x0⟩]⟩
/-- PE_TXIN, chapter 12. -/
def row_PE_TXIN_1435 : Row := ⟨0x1435, 1, 0x20, 8, [⟨31, 0, .ro, 0x0⟩]⟩
/-- PE_TXOUT, chapter 12. -/
def row_PE_TXOUT_1436 : Row := ⟨0x1436, 1, 0x20, 8, [⟨31, 0, .ro, 0x0⟩]⟩
/-- PE_IM, chapter 12. -/
def row_PE_IM_1580 : Row := ⟨0x1580, 1, 0x1, 128, [⟨31, 16, .rw, 0x0⟩, ⟨15, 0, .rw, 0x0⟩]⟩
/-- AN_CFG, chapter 13. -/
def row_AN_CFG_1900 : Row := ⟨0x1900, 1, 0x1, 1, [⟨31, 24, .rw, 0xA⟩]⟩
/-- AN_ST, chapter 13. -/
def row_AN_ST_1901 : Row := ⟨0x1901, 1, 0x1, 1, [⟨31, 24, .ro, 0x0⟩, ⟨23, 16, .ro, 0x0⟩, ⟨15, 8, .ro, 0x0⟩, ⟨1, 1, .ro, 0x0⟩, ⟨0, 0, .ro, 0x0⟩]⟩
/-- AN_EVT, chapter 13. -/
def row_AN_EVT_1902 : Row := ⟨0x1902, 1, 0x1, 1, [⟨3, 3, .w1c, 0x0⟩, ⟨2, 2, .w1c, 0x0⟩, ⟨1, 1, .w1c, 0x0⟩, ⟨0, 0, .w1c, 0x0⟩]⟩
/-- AN_CMD, chapter 13. -/
def row_AN_CMD_1903 : Row := ⟨0x1903, 1, 0x1, 1, [⟨12, 8, .wo, 0x0⟩, ⟨1, 1, .wo, 0x0⟩, ⟨0, 0, .wo, 0x0⟩]⟩
/-- AN_ALMST0, chapter 13. -/
def row_AN_ALMST0_1904 : Row := ⟨0x1904, 1, 0x1, 1, [⟨31, 0, .ro, 0x0⟩]⟩
/-- AN_ALMST1, chapter 13. -/
def row_AN_ALMST1_1905 : Row := ⟨0x1905, 1, 0x1, 1, [⟨31, 0, .ro, 0x0⟩]⟩
/-- AN_UPCFG, chapter 13. -/
def row_AN_UPCFG_1906 : Row := ⟨0x1906, 1, 0x1, 1, [⟨7, 0, .rw, 0x1E⟩]⟩
/-- AN_UPST, chapter 13. -/
def row_AN_UPST_1907 : Row := ⟨0x1907, 1, 0x1, 1, [⟨31, 24, .ro, 0x0⟩, ⟨23, 16, .ro, 0x0⟩, ⟨15, 8, .rc, 0x0⟩, ⟨1, 0, .ro, 0x0⟩]⟩
/-- AN_SET, chapter 13. -/
def row_AN_SET_1910 : Row := ⟨0x1910, 1, 0x1, 32, [⟨31, 29, .ro, 0x0⟩, ⟨28, 24, .ro, 0x0⟩, ⟨23, 16, .ro, 0x0⟩, ⟨15, 8, .rc, 0x0⟩, ⟨7, 0, .rc, 0x0⟩]⟩
/-- AN_EVAL, chapter 13. -/
def row_AN_EVAL_1930 : Row := ⟨0x1930, 1, 0x1, 32, [⟨31, 0, .ro, 0x0⟩]⟩
/-- PORT_ST, chapter 14. -/
def row_PORT_ST_0300 : Row := ⟨0x0300, 1, 0x1, 1, [⟨17, 16, .ro, 0x0⟩, ⟨15, 15, .ro, 0x0⟩, ⟨14, 14, .ro, 0x0⟩, ⟨13, 13, .ro, 0x0⟩, ⟨12, 10, .ro, 0x0⟩, ⟨7, 2, .ro, 0x0⟩]⟩
/-- PORT_CFG, chapter 14. -/
def row_PORT_CFG_0301 : Row := ⟨0x0301, 1, 0x1, 1, [⟨4, 4, .rw, 0x1⟩, ⟨3, 2, .rw, 0x3⟩, ⟨1, 0, .rw, 0x3⟩]⟩
/-- PORT_EVT, chapter 14. -/
def row_PORT_EVT_0302 : Row := ⟨0x0302, 1, 0x1, 1, [⟨3, 3, .w1c, 0x0⟩, ⟨2, 2, .w1c, 0x0⟩, ⟨1, 1, .w1c, 0x0⟩, ⟨0, 0, .w1c, 0x0⟩]⟩
/-- PORT_LCNT, chapter 14. -/
def row_PORT_LCNT_0303 : Row := ⟨0x0303, 1, 0x1, 1, [⟨31, 24, .rc, 0x0⟩, ⟨23, 16, .rc, 0x0⟩, ⟨15, 8, .rc, 0x0⟩]⟩
/-- NET_MAC, chapter 14. -/
def row_NET_MAC_0304 : Row := ⟨0x0304, 1, 0x1, 1, [⟨31, 0, .rl, 0x0⟩]⟩
/-- NET_MAC, chapter 14. -/
def row_NET_MAC_0305 : Row := ⟨0x0305, 1, 0x1, 1, [⟨15, 0, .ro, 0x0⟩]⟩
/-- NET_IP4, chapter 14. -/
def row_NET_IP4_0306 : Row := ⟨0x0306, 1, 0x1, 1, [⟨31, 0, .ro, 0x0⟩]⟩
/-- NET_GW4, chapter 14. -/
def row_NET_GW4_0307 : Row := ⟨0x0307, 1, 0x1, 1, [⟨31, 0, .ro, 0x0⟩]⟩
/-- NET_PFX, chapter 14. -/
def row_NET_PFX_0308 : Row := ⟨0x0308, 1, 0x1, 1, [⟨7, 0, .ro, 0x0⟩]⟩
/-- SW_Q, chapter 14. -/
def row_SW_Q_0310 : Row := ⟨0x0310, 1, 0x1, 4, [⟨31, 16, .rc, 0x0⟩, ⟨15, 0, .rc, 0x0⟩]⟩
/-- SW_ERR, chapter 14. -/
def row_SW_ERR_0314 : Row := ⟨0x0314, 1, 0x1, 1, [⟨31, 16, .rc, 0x0⟩, ⟨15, 0, .rc, 0x0⟩]⟩
/-- CY_CFG, chapter 14. -/
def row_CY_CFG_0320 : Row := ⟨0x0320, 1, 0x1, 1, [⟨31, 24, .rw, 0xF⟩, ⟨23, 16, .rw, 0x28⟩, ⟨15, 8, .rw, 0x32⟩]⟩
/-- CY_USE, chapter 14. -/
def row_CY_USE_0321 : Row := ⟨0x0321, 1, 0x1, 1, [⟨31, 16, .ro, 0x0⟩, ⟨15, 0, .ro, 0x0⟩]⟩
/-- CY_EVT, chapter 14. -/
def row_CY_EVT_0322 : Row := ⟨0x0322, 1, 0x1, 1, [⟨4, 4, .w1c, 0x0⟩, ⟨3, 3, .w1c, 0x0⟩, ⟨2, 2, .w1c, 0x0⟩, ⟨1, 1, .w1c, 0x0⟩, ⟨0, 0, .w1c, 0x0⟩]⟩
/-- CY_CNT, chapter 14. -/
def row_CY_CNT_0323 : Row := ⟨0x0323, 1, 0x1, 1, [⟨31, 24, .rc, 0x0⟩, ⟨23, 16, .rc, 0x0⟩, ⟨15, 8, .rc, 0x0⟩, ⟨7, 0, .rc, 0x0⟩]⟩
/-- CY_STR, chapter 14. -/
def row_CY_STR_0330 : Row := ⟨0x0330, 1, 0x1, 16, [⟨31, 31, .rw, 0x0⟩, ⟨30, 30, .rw, 0x0⟩, ⟨29, 29, .rw, 0x0⟩, ⟨27, 24, .rw, 0x0⟩, ⟨23, 20, .ro, 0x0⟩, ⟨15, 0, .ro, 0x0⟩]⟩
/-- CY_CAP, chapter 14. -/
def row_CY_CAP_0340 : Row := ⟨0x0340, 1, 0x2, 16, [⟨31, 29, .ro, 0x0⟩, ⟨23, 16, .ro, 0x0⟩, ⟨15, 0, .ro, 0x0⟩]⟩
/-- CY_CAPA, chapter 14. -/
def row_CY_CAPA_0341 : Row := ⟨0x0341, 1, 0x2, 16, [⟨31, 0, .ro, 0x0⟩]⟩
/-- TL_ST, chapter 15. -/
def row_TL_ST_1700 : Row := ⟨0x1700, 1, 0x1, 1, [⟨31, 29, .ro, 0x0⟩, ⟨28, 26, .ro, 0x0⟩, ⟨25, 25, .ro, 0x0⟩, ⟨24, 24, .ro, 0x0⟩, ⟨23, 23, .ro, 0x0⟩, ⟨22, 22, .ro, 0x0⟩, ⟨21, 21, .ro, 0x0⟩, ⟨15, 8, .ro, 0x0⟩]⟩
/-- TL_GEN, chapter 15. -/
def row_TL_GEN_1701 : Row := ⟨0x1701, 1, 0x1, 1, [⟨31, 0, .ro, 0x0⟩]⟩
/-- TL_COMSEQ, chapter 15. -/
def row_TL_COMSEQ_1702 : Row := ⟨0x1702, 1, 0x1, 1, [⟨31, 0, .rl, 0x0⟩]⟩
/-- TL_COMSEQ, chapter 15. -/
def row_TL_COMSEQ_1703 : Row := ⟨0x1703, 1, 0x1, 1, [⟨31, 0, .ro, 0x0⟩]⟩
/-- TL_CSEQ, chapter 15. -/
def row_TL_CSEQ_1704 : Row := ⟨0x1704, 1, 0x1, 1, [⟨31, 0, .ro, 0x0⟩]⟩
/-- TL_DIRTY, chapter 15. -/
def row_TL_DIRTY_1705 : Row := ⟨0x1705, 1, 0x1, 1, [⟨15, 0, .ro, 0x0⟩]⟩
/-- TL_CMD, chapter 15. -/
def row_TL_CMD_1706 : Row := ⟨0x1706, 1, 0x1, 1, [⟨3, 3, .wo, 0x0⟩, ⟨2, 2, .wo, 0x0⟩, ⟨1, 1, .wo, 0x0⟩, ⟨0, 0, .wo, 0x0⟩]⟩
/-- TL_RES, chapter 15. -/
def row_TL_RES_1707 : Row := ⟨0x1707, 1, 0x1, 1, [⟨31, 24, .ro, 0x0⟩, ⟨23, 16, .ro, 0x0⟩, ⟨15, 8, .ro, 0x0⟩]⟩
/-- TL_CSID, chapter 15. -/
def row_TL_CSID_1708 : Row := ⟨0x1708, 1, 0x1, 1, [⟨31, 0, .ro, 0x0⟩]⟩
/-- TL_PEND, chapter 15. -/
def row_TL_PEND_1709 : Row := ⟨0x1709, 1, 0x1, 1, [⟨31, 31, .ro, 0x0⟩, ⟨15, 0, .ro, 0x0⟩]⟩
/-- TL_EVT, chapter 15. -/
def row_TL_EVT_170A : Row := ⟨0x170A, 1, 0x1, 1, [⟨10, 10, .w1c, 0x0⟩, ⟨9, 9, .w1c, 0x0⟩, ⟨8, 8, .w1c, 0x0⟩, ⟨7, 7, .w1c, 0x0⟩, ⟨6, 6, .w1c, 0x0⟩, ⟨5, 5, .w1c, 0x0⟩, ⟨4, 4, .w1c, 0x0⟩, ⟨3, 3, .w1c, 0x0⟩, ⟨2, 2, .w1c, 0x0⟩, ⟨1, 1, .w1c, 0x0⟩, ⟨0, 0, .w1c, 0x0⟩]⟩
/-- TL_WEAR, chapter 15. -/
def row_TL_WEAR_1710 : Row := ⟨0x1710, 1, 0x1, 24, [⟨15, 0, .ro, 0x0⟩]⟩
/-- CP_ST, chapter 15. -/
def row_CP_ST_1728 : Row := ⟨0x1728, 1, 0x1, 1, [⟨31, 29, .ro, 0x0⟩, ⟨23, 16, .ro, 0x0⟩, ⟨15, 8, .ro, 0xFE⟩, ⟨1, 0, .ro, 0x0⟩]⟩
/-- CP_NBR, chapter 15. -/
def row_CP_NBR_1729 : Row := ⟨0x1729, 1, 0x1, 1, [⟨31, 24, .ro, 0xFE⟩, ⟨23, 16, .ro, 0xFE⟩, ⟨15, 8, .ro, 0xFE⟩, ⟨7, 0, .ro, 0xFE⟩]⟩
/-- CP_CNT, chapter 15. -/
def row_CP_CNT_172A : Row := ⟨0x172A, 1, 0x1, 1, [⟨31, 16, .ro, 0x0⟩, ⟨15, 8, .rc, 0x0⟩]⟩
/-- TL_STGCTL, chapter 15. -/
def row_TL_STGCTL_1730 : Row := ⟨0x1730, 1, 0x1, 1, [⟨0, 0, .rw, 0x0⟩]⟩
/-- TL_STGOFS, chapter 15. -/
def row_TL_STGOFS_1731 : Row := ⟨0x1731, 1, 0x1, 1, [⟨23, 0, .rw, 0x0⟩]⟩
/-- TL_STGST, chapter 15. -/
def row_TL_STGST_1732 : Row := ⟨0x1732, 1, 0x1, 1, [⟨23, 0, .ro, 0x0⟩]⟩
/-- TL_STGW, chapter 15. -/
def row_TL_STGW_1780 : Row := ⟨0x1780, 1, 0x1, 128, [⟨31, 0, .wo, 0x0⟩]⟩
/-- MD_ST, chapter 16. -/
def row_MD_ST_0008 : Row := ⟨0x0008, 1, 0x1, 1, [⟨20, 20, .ro, 0x0⟩, ⟨19, 19, .ro, 0x0⟩, ⟨18, 18, .ro, 0x0⟩, ⟨17, 17, .ro, 0x0⟩, ⟨15, 8, .ro, 0x0⟩, ⟨7, 4, .ro, 0x0⟩, ⟨3, 0, .ro, 0x1⟩]⟩
/-- MD_CMD, chapter 16. -/
def row_MD_CMD_0009 : Row := ⟨0x0009, 1, 0x1, 1, [⟨8, 8, .wo, 0x0⟩, ⟨3, 0, .wo, 0x0⟩]⟩
/-- MD_CFG, chapter 16. -/
def row_MD_CFG_000A : Row := ⟨0x000A, 1, 0x1, 1, [⟨15, 8, .rw, 0x14⟩, ⟨0, 0, .rw, 0x1⟩]⟩
/-- MD_REQST, chapter 16. -/
def row_MD_REQST_000B : Row := ⟨0x000B, 1, 0x1, 1, [⟨11, 8, .ro, 0x0⟩, ⟨7, 0, .ro, 0x0⟩]⟩
/-- MD_EVT, chapter 16. -/
def row_MD_EVT_000C : Row := ⟨0x000C, 1, 0x1, 1, [⟨7, 7, .w1c, 0x0⟩, ⟨6, 6, .w1c, 0x0⟩, ⟨5, 5, .w1c, 0x0⟩, ⟨4, 4, .w1c, 0x0⟩, ⟨3, 3, .w1c, 0x0⟩, ⟨2, 2, .w1c, 0x0⟩, ⟨1, 1, .w1c, 0x0⟩, ⟨0, 0, .w1c, 0x0⟩]⟩
/-- MD_HOT, chapter 16. -/
def row_MD_HOT_000D : Row := ⟨0x000D, 1, 0x1, 1, [⟨15, 0, .ro, 0x0⟩]⟩
/-- MD_CNT, chapter 16. -/
def row_MD_CNT_000E : Row := ⟨0x000E, 1, 0x1, 1, [⟨31, 24, .rc, 0x0⟩, ⟨23, 16, .rc, 0x0⟩]⟩
/-- MD_TIME, chapter 16. -/
def row_MD_TIME_000F : Row := ⟨0x000F, 1, 0x1, 1, [⟨31, 0, .ro, 0x0⟩]⟩
/-- WK_ST, chapter 17. -/
def row_WK_ST_1800 : Row := ⟨0x1800, 1, 0x1, 1, [⟨4, 4, .ro, 0x0⟩, ⟨3, 3, .ro, 0x0⟩, ⟨2, 2, .ro, 0x0⟩, ⟨1, 1, .ro, 0x0⟩, ⟨0, 0, .ro, 0x0⟩]⟩
/-- WK_MAPB, chapter 17. -/
def row_WK_MAPB_1801 : Row := ⟨0x1801, 1, 0x1, 1, [⟨4, 0, .ro, 0x0⟩]⟩
/-- WK_MAPD, chapter 17. -/
def row_WK_MAPD_1802 : Row := ⟨0x1802, 1, 0x1, 1, [⟨15, 0, .ro, 0x0⟩]⟩
/-- WK_MAPI, chapter 17. -/
def row_WK_MAPI_1803 : Row := ⟨0x1803, 1, 0x1, 5, [⟨31, 0, .ro, 0x0⟩]⟩
/-- WK_VINFO, chapter 17. -/
def row_WK_VINFO_1808 : Row := ⟨0x1808, 1, 0x1, 1, [⟨31, 28, .ro, 0x0⟩, ⟨27, 27, .ro, 0x0⟩, ⟨15, 0, .rc, 0x0⟩]⟩
/-- WK_VADDR, chapter 17. -/
def row_WK_VADDR_1809 : Row := ⟨0x1809, 1, 0x1, 1, [⟨31, 0, .ro, 0x0⟩]⟩
/-- WK_EVT, chapter 17. -/
def row_WK_EVT_180A : Row := ⟨0x180A, 1, 0x1, 1, [⟨0, 0, .w1c, 0x0⟩]⟩
/-- WK_FLOOR, chapter 17. -/
def row_WK_FLOOR_180B : Row := ⟨0x180B, 1, 0x1, 1, [⟨31, 16, .ro, 0x0⟩, ⟨15, 0, .ro, 0x0⟩]⟩
/-- WK_FUSE, chapter 17. -/
def row_WK_FUSE_180C : Row := ⟨0x180C, 1, 0x1, 1, [⟨6, 0, .ro, 0x0⟩]⟩
/-- WK_DEVPUB, chapter 17. -/
def row_WK_DEVPUB_1810 : Row := ⟨0x1810, 1, 0x1, 8, [⟨31, 0, .ro, 0x0⟩]⟩
/-- WK_KEYID, chapter 17. -/
def row_WK_KEYID_1818 : Row := ⟨0x1818, 1, 0x1, 4, [⟨31, 0, .ro, 0x0⟩]⟩
/-- WK_SYSID, chapter 17. -/
def row_WK_SYSID_181C : Row := ⟨0x181C, 1, 0x1, 1, [⟨31, 0, .rl, 0x0⟩]⟩
/-- WK_SYSID, chapter 17. -/
def row_WK_SYSID_181D : Row := ⟨0x181D, 1, 0x1, 1, [⟨31, 0, .ro, 0x0⟩]⟩
/-- IC_ESET, chapter 18. -/
def row_IC_ESET_1600 : Row := ⟨0x1600, 1, 0x1, 5, [⟨31, 0, .w1s, 0x0⟩]⟩
/-- IC_ECLR, chapter 18. -/
def row_IC_ECLR_1608 : Row := ⟨0x1608, 1, 0x1, 5, [⟨31, 0, .w1c, 0x0⟩]⟩
/-- IC_PSET, chapter 18. -/
def row_IC_PSET_1610 : Row := ⟨0x1610, 1, 0x1, 5, [⟨31, 0, .w1s, 0x0⟩]⟩
/-- IC_PCLR, chapter 18. -/
def row_IC_PCLR_1618 : Row := ⟨0x1618, 1, 0x1, 5, [⟨31, 0, .w1c, 0x0⟩]⟩
/-- IC_ACT, chapter 18. -/
def row_IC_ACT_1620 : Row := ⟨0x1620, 1, 0x1, 5, [⟨31, 0, .ro, 0x0⟩]⟩
/-- IC_GST, chapter 18. -/
def row_IC_GST_1628 : Row := ⟨0x1628, 1, 0x1, 16, [⟨31, 24, .ro, 0x0⟩, ⟨19, 0, .ro, 0x0⟩]⟩
/-- IC_ST, chapter 18. -/
def row_IC_ST_1638 : Row := ⟨0x1638, 1, 0x1, 1, [⟨7, 4, .ro, 0x0⟩, ⟨3, 0, .ro, 0x0⟩]⟩
/-- IC_EVT, chapter 18. -/
def row_IC_EVT_1639 : Row := ⟨0x1639, 1, 0x1, 1, [⟨1, 1, .w1c, 0x0⟩, ⟨0, 0, .w1c, 0x0⟩]⟩
/-- IC_DISC, chapter 18. -/
def row_IC_DISC_163A : Row := ⟨0x163A, 1, 0x1, 1, [⟨31, 0, .ro, 0x0⟩]⟩
/-- IC_OVF, chapter 18. -/
def row_IC_OVF_163B : Row := ⟨0x163B, 1, 0x1, 1, [⟨31, 0, .ro, 0x0⟩]⟩
/-- BUS_CNT, chapter 18. -/
def row_BUS_CNT_163C : Row := ⟨0x163C, 1, 0x1, 1, [⟨31, 24, .rc, 0x0⟩, ⟨23, 16, .rc, 0x0⟩, ⟨15, 0, .rc, 0x0⟩]⟩
/-- IC_SRC, chapter 18. -/
def row_IC_SRC_1640 : Row := ⟨0x1640, 1, 0x1, 160, [⟨31, 12, .ro, 0x0⟩, ⟨11, 11, .ro, 0x0⟩, ⟨10, 10, .ro, 0x0⟩, ⟨9, 9, .rw, 0x1⟩, ⟨8, 4, .rw, 0x0⟩, ⟨3, 0, .rw, 0x0⟩]⟩
/-- IC_LCLM, chapter 18. -/
def row_IC_LCLM_16E0 : Row := ⟨0x16E0, 1, 0x2, 4, [⟨31, 12, .ro, 0x0⟩, ⟨7, 0, .ro, 0x0⟩]⟩
/-- IC_TST, chapter 18. -/
def row_IC_TST_16E1 : Row := ⟨0x16E1, 1, 0x2, 4, [⟨8, 8, .ro, 0x0⟩, ⟨7, 0, .ro, 0x0⟩]⟩
/-- IC_GCFG, chapter 18. -/
def row_IC_GCFG_16F0 : Row := ⟨0x16F0, 1, 0x1, 16, [⟨27, 20, .rw, 0x1⟩, ⟨19, 0, .rw, 0x3E8⟩]⟩

/-- The rows of one page of the map, page p holding words 0x100 * p to 0x100 * p + 0xFF (R464). -/
def pageRows (p : Nat) : List Row :=
  match p with
  | 0x00 => [row_ID_PART_0000, row_ID_SIREV_0001, row_ID_FWREL_0002, row_ID_RSTCAUSE_0003, row_ID_DOMST_0004, row_ID_RUN_0005, row_MD_ST_0008, row_MD_CMD_0009, row_MD_CFG_000A, row_MD_REQST_000B, row_MD_EVT_000C, row_MD_HOT_000D, row_MD_CNT_000E, row_MD_TIME_000F]
  | 0x01 => [row_PWR_ST_0100, row_PWR_CTL_0101, row_PWR_VIN_0102, row_PWR_IPT_0103, row_PWR_PIN_0104, row_PWR_EVT_0105, row_PWR_CNT_0106, row_PWR_TWANG_0107]
  | 0x02 => [row_TIME_ST_0200, row_TIME_EVT_0201, row_TIME_CMD_0202, row_TIME_JUMP_0203, row_TIME_CONF_0204, row_TIME_LIM_0205, row_TIME_KP_0206, row_TIME_KI_0207, row_TIME_YMAX_0208, row_TIME_Y_0209, row_TIME_OFS_020A, row_TIME_CONFT_020B, row_TIME_CAND_020C, row_TIME_CAND_020D, row_TIME_INC_020E, row_TIME_INC_020F, row_TIME_SNAPS_0210, row_TIME_SNAPS_0211, row_TIME_SNAPNS_0212, row_TIME_SNAPFR_0213, row_TIME_ASYM_0214, row_TIME_PDLYA_0215, row_TIME_PDLYB_0216, row_TIME_CNT_0217, row_TIME_PTP_0218]
  | 0x03 => [row_PORT_ST_0300, row_PORT_CFG_0301, row_PORT_EVT_0302, row_PORT_LCNT_0303, row_NET_MAC_0304, row_NET_MAC_0305, row_NET_IP4_0306, row_NET_GW4_0307, row_NET_PFX_0308, row_SW_Q_0310, row_SW_ERR_0314, row_CY_CFG_0320, row_CY_USE_0321, row_CY_EVT_0322, row_CY_CNT_0323, row_CY_STR_0330, row_CY_CAP_0340, row_CY_CAPA_0341]
  | 0x04 => [row_AX_CFG_0400, row_AX_ST_0401, row_AX_EVT_0402, row_AX_CNT_0403, row_ML_CFG_0410, row_ML_CTL_0411, row_ML_ST_0412, row_ML_SETL_0413, row_ML_SREM_0414, row_ML_GD_0415, row_ML_EVT_0416, row_ML_CNT_0417, row_GR_CFG_0420, row_GR_LAST_0421, row_GR_SSN_0422, row_GR_SSN_0423, row_GR_CNT_0424, row_GR_EVT_0425]
  | 0x05 => [row_AX_CFG_0400, row_AX_ST_0401, row_AX_EVT_0402, row_AX_CNT_0403, row_DRV_ST_0584, row_DRV_CNT_0585, row_ML_CFG_0410, row_ML_CTL_0411, row_ML_ST_0412, row_ML_SETL_0413, row_ML_SREM_0414, row_ML_GD_0415, row_ML_EVT_0416, row_ML_CNT_0417, row_GR_CFG_0420, row_GR_LAST_0421, row_GR_SSN_0422, row_GR_SSN_0423, row_GR_CNT_0424, row_GR_EVT_0425]
  | 0x06 => [row_AX_CFG_0400, row_AX_ST_0401, row_AX_EVT_0402, row_AX_CNT_0403, row_Q_CORR_0644, row_Q_ST_0645, row_ML_CFG_0410, row_ML_CTL_0411, row_ML_ST_0412, row_ML_SETL_0413, row_ML_SREM_0414, row_ML_GD_0415, row_ML_EVT_0416, row_ML_CNT_0417, row_GR_CFG_0420, row_GR_LAST_0421, row_GR_SSN_0422, row_GR_SSN_0423, row_GR_CNT_0424, row_GR_EVT_0425]
  | 0x07 => [row_GR_CFG_0420, row_GR_LAST_0421, row_GR_SSN_0422, row_GR_SSN_0423, row_GR_CNT_0424, row_GR_EVT_0425]
  | 0x08 => [row_HK_CTL_0800, row_HK_CMD_0801, row_HK_ST_0802, row_HK_EVT_0803, row_HK_CNT_0804, row_HK_PASS_0805, row_HK_SEQ_0810, row_HK_RES_0820, row_HK_INJCFG_0830, row_HK_INJRES_0834, row_CV_ST_0840, row_SCAL_CTL_0880, row_SCAL_CMD_0881, row_SCAL_REF1_0882, row_SCAL_REF2_0883, row_SCAL_FREQ_0884, row_SCAL_ST_0885, row_SCAL_MEAS_0886, row_SCAL_GAIN_0890, row_SCAL_OFS_0891]
  | 0x0A => [row_AUX_CFG_0A00, row_AUX_IN_0A01, row_AUX_TACH_0A02, row_AUX_PRB_0A03, row_AUX_RLEAD_0A04, row_AUX_CMWIN_0A05, row_AUX_OUT_0A06, row_AUX_CMD_0A07, row_AUX_ST_0A08, row_AUX_EVT_0A09, row_AUX_CNT_0A0A, row_AUX_EDGE_0A0B, row_AUX_PER_0A0C, row_AUX_RMEAS_0A0D, row_SSP_CFG_0A20, row_SSP_DLY_0A21, row_SSP_ST_0A22, row_SSP_CNT_0A23]
  | 0x0B => [row_ML_GCMD_0B00, row_ML_GST_0B01]
  | 0x0C | 0x0D | 0x0E => [row_MB_HDR_0C00, row_MB_GD_0C01, row_MB_BQ_C_0C08]
  | 0x10 => [row_CAL_CTL_1000, row_CAL_CMD_1001, row_CAL_GST_1002, row_CAL_EVT_1003, row_CAL_SN_1004, row_CAL_SN_1005, row_CAL_RST_1006, row_CAL_RSTST_1007, row_CAL_BIND_1008, row_CAL_ST_1010, row_CAL_OFS_1011, row_CAL_GAIN_1012, row_CAL_TREF_1013, row_CAL_DRV_1040, row_CAL_TAPS_1041, row_CAL_TAPT_1042, row_CAL_STRB0_1043, row_CAL_STRB1_1044, row_CAL_AUXT_1045, row_CAL_TREFB_1046]
  | 0x11 => [row_LD_ST_1100, row_LD_EVT_1101, row_LD_DROP_1102, row_LD_HELD_1103, row_LD_ATT_1110, row_DK_RING_1120, row_DK_ST_1130, row_DK_ACC_1131, row_DK_ACC_1132, row_DK_EVT_1133, row_DK_CNT_1134, row_DK_REVREC_1135, row_DK_CMD_1136, row_DK_CAP_1140, row_DK_CAP_1141, row_DK_CAP_1142, row_DK_CAP_1143, row_LS_1180]
  | 0x12 => [row_RC_IMP_CFG_1200, row_RC_IMP_TIM_1201, row_RC_IMP_DBL_1202, row_RC_IMP_ST_1203, row_RC_IMP_CNT_1204, row_RC_STK_CFG_1208, row_RC_STK_LVL_1209, row_RC_STK_HYS_120A, row_RC_STK_STOP_120B, row_RC_STK_COUNT_120C, row_RC_STK_PER_120D, row_RC_STK_ST_120E, row_RC_FF_CFG_1210, row_RC_FF_TIM_1211, row_RC_FF_ST_1212, row_RC_EVT_1218]
  | 0x13 => [row_BZ_CFG_1300, row_BZ_ROUTE_1301, row_BZ_EVT_1302, row_BZ_CNT_1303, row_BZ_SEQ_1304, row_BZ_FIFOST_1305, row_BZ_CMD_1306, row_BZ_HEAD_1308, row_BZ_MATCH_1310, row_BZ_PEER_1320, row_BZ_PSEQ_1340]
  | 0x14 => [row_PE_GCMD_1400, row_PE_GST_1401, row_PE_CFG_1420, row_PE_PER_1421, row_PE_MEV_1422, row_PE_ST_1423, row_PE_U_1424, row_PE_V_1425, row_PE_CNT_1426, row_PE_SIN_1427, row_PE_SOUT_1428, row_PE_TCS_1429, row_PE_TCN_142A, row_PE_TCD_142B, row_PE_TXQ_142C, row_PE_RXQ_142D, row_PE_EVT_142E, row_PE_STALL_142F, row_PE_RXDROP_1430, row_PE_TXDROP_1431, row_PE_INJ_1432, row_PE_RXIN_1433, row_PE_RXOUT_1434, row_PE_TXIN_1435, row_PE_TXOUT_1436]
  | 0x15 => [row_PE_CFG_1420, row_PE_PER_1421, row_PE_MEV_1422, row_PE_ST_1423, row_PE_U_1424, row_PE_V_1425, row_PE_CNT_1426, row_PE_SIN_1427, row_PE_SOUT_1428, row_PE_TCS_1429, row_PE_TCN_142A, row_PE_TCD_142B, row_PE_TXQ_142C, row_PE_RXQ_142D, row_PE_EVT_142E, row_PE_STALL_142F, row_PE_RXDROP_1430, row_PE_TXDROP_1431, row_PE_INJ_1432, row_PE_RXIN_1433, row_PE_RXOUT_1434, row_PE_TXIN_1435, row_PE_TXOUT_1436, row_PE_IM_1580]
  | 0x16 => [row_IC_ESET_1600, row_IC_ECLR_1608, row_IC_PSET_1610, row_IC_PCLR_1618, row_IC_ACT_1620, row_IC_GST_1628, row_IC_ST_1638, row_IC_EVT_1639, row_IC_DISC_163A, row_IC_OVF_163B, row_BUS_CNT_163C, row_IC_SRC_1640, row_IC_LCLM_16E0, row_IC_TST_16E1, row_IC_GCFG_16F0]
  | 0x17 => [row_TL_ST_1700, row_TL_GEN_1701, row_TL_COMSEQ_1702, row_TL_COMSEQ_1703, row_TL_CSEQ_1704, row_TL_DIRTY_1705, row_TL_CMD_1706, row_TL_RES_1707, row_TL_CSID_1708, row_TL_PEND_1709, row_TL_EVT_170A, row_TL_WEAR_1710, row_CP_ST_1728, row_CP_NBR_1729, row_CP_CNT_172A, row_TL_STGCTL_1730, row_TL_STGOFS_1731, row_TL_STGST_1732, row_TL_STGW_1780]
  | 0x18 => [row_WK_ST_1800, row_WK_MAPB_1801, row_WK_MAPD_1802, row_WK_MAPI_1803, row_WK_VINFO_1808, row_WK_VADDR_1809, row_WK_EVT_180A, row_WK_FLOOR_180B, row_WK_FUSE_180C, row_WK_DEVPUB_1810, row_WK_KEYID_1818, row_WK_SYSID_181C, row_WK_SYSID_181D]
  | 0x19 => [row_AN_CFG_1900, row_AN_ST_1901, row_AN_EVT_1902, row_AN_CMD_1903, row_AN_ALMST0_1904, row_AN_ALMST1_1905, row_AN_UPCFG_1906, row_AN_UPST_1907, row_AN_SET_1910, row_AN_EVAL_1930]
  | p => if 0x20 ≤ p ∧ p < 0x36 then [row_MT_TAP_2000] else []

/-- Whether row r covers word a. -/
def Row.covers (r : Row) (a : Nat) : Bool :=
  decide (r.base ≤ a) && decide ((a - r.base) / r.stride < r.count) && decide ((a - r.base) % r.stride < r.span)

/-- The row of word a, none for a hole or a word of a gap page. -/
def rowOf (a : Nat) : Option Row := (pageRows (a / 0x100)).find? (·.covers a)

/-- Whether word a lies in a listed page (R464). -/
def pageListed (a : Nat) : Bool :=
  let p := a / 0x100
  decide (p ≤ 0x35) && !(p == 0x09) && !(p == 0x0F) && !(decide (0x1A ≤ p) && decide (p ≤ 0x1F))

/-- The first word past the end of the page of word a (R464): slot pages have 64 words, every other page 256. -/
def pageEnd (a : Nat) : Nat :=
  if 0x400 ≤ a ∧ a < 0x800 then (a / 0x40 + 1) * 0x40 else (a / 0x100 + 1) * 0x100

/-- 05 R136: the reset sequence, entries 0 to 7; the other entries are 0. -/
def hkSeqReset : List Nat := [0x43f8400, 0x103f8800, 0x140f8c00, 0x3f8000, 0x83f8000, 0xc3f8000, 0x3c0f4000, 0x2c0f4000]

/-- 04 R122: the reset value of AX_CFG of axis i. -/
def axCfgReset (i : Nat) : Nat :=
  if i < 3 then 0x4036 else if i < 6 then 0x4070 else if i < 9 then 0x0035 else 0x0030

/-- 04 R122: the reset value of AX_ST of axis i: PRANGE at start. -/
def axStReset (i : Nat) : Nat :=
  if i < 3 then 0x200 else if i < 6 then 0 else if i < 9 then 0x100 else 0

/-- 08 R209: the reset rate code of slot s. -/
def grRateReset (s : Nat) : Nat :=
  if s < 3 then 0 else if s < 6 then 3 else if s < 9 then 4 else if s = 9 then 7 else if s = 10 then 3 else if s = 11 then 6 else 10

/-- 08 R209: the fastest code slot s accepts. -/
def grFastest (s : Nat) : Nat :=
  if s < 3 then 0 else if s < 6 then 3 else if s < 9 then 4 else if s = 9 then 3 else if s = 10 then 3 else if s = 11 then 4
  else if s < 15 then 7 else 0

/-- 18 R446: whether source n is listed. -/
def irqListed (n : Nat) : Bool :=
  (decide (1 ≤ n) && decide (n ≤ 18)) || (decide (20 ≤ n) && decide (n ≤ 22)) || (decide (24 ≤ n) && decide (n ≤ 26)) ||
  n == 28 || n == 29 || (decide (32 ≤ n) && decide (n ≤ 57)) || (decide (64 ≤ n) && decide (n ≤ 71)) ||
  (decide (128 ≤ n) && decide (n ≤ 159))

/-- 18 R446: the default target of source n as a mask, bit 0 SUP, bit 1 NET, bit 2 ANA0, bit 3 ANA1 (18 R463). -/
def irqDefaultTarget (n : Nat) : Nat :=
  if 6 ≤ n ∧ n ≤ 9 ∨ n = 16 then 2
  else if n = 20 ∨ n = 24 then 4
  else if n = 21 ∨ n = 22 ∨ n = 25 ∨ n = 26 ∨ n = 28 ∨ n = 29 then 8
  else 1

/-- Reset values that differ between the instances of one row: AX_CFG and AX_ST (04 R122), GR_CFG (08 R209), ML_CFG and ML_SETL of slots beyond 10
do not exist, the housekeeping sequence (05 R136), the injections (05 R152), CV_ST (16 R406: only the L converters are ungated at START;
log entry 16), SCAL_GAIN and SCAL_OFS of slot 9 (05 R152), the first coefficient of a
bank's sections (07 R195) and IC_SRC (18 R446). -/
def specialReset (a : Nat) : Option Nat :=
  if 0x400 ≤ a ∧ a < 0x800 then
    let s := (a - 0x400) / 0x40
    let o := (a - 0x400) % 0x40
    if o = 0 ∧ s < 10 then some (axCfgReset s)
    else if o = 1 ∧ s < 10 then some (axStReset s)
    else if o = 0x20 then some (grRateReset s)
    else none
  else if 0x810 ≤ a ∧ a < 0x820 then some (hkSeqReset.getD (a - 0x810) 0)
  else if a = 0x830 then some 0x34031000
  else if a = 0x831 then some 0x43f8000
  else if a = 0x832 then some 0x430f8000
  else if 0x840 ≤ a ∧ a < 0x84A then some (if 0x843 ≤ a ∧ a ≤ 0x845 then 2 else 3)
  else if a = 0x8A2 ∨ a = 0x8A3 then some 0
  else if 0xC00 ≤ a ∧ a < 0xEC0 then
    let o := (a - 0xC00) % 0x20
    if o = 8 ∨ o = 13 ∨ o = 18 ∨ o = 23 then some 0x10000000 else none
  else if 0x1640 ≤ a ∧ a < 0x16E0 then
    some (if irqListed (a - 0x1640) then 0x200 + irqDefaultTarget (a - 0x1640) else 0)
  else none

/-- The reset value a row gives: the reset values of its fields at their places. -/
def Row.resetValue (r : Row) : Nat := r.fields.foldl (fun n f => n + f.reset * 2 ^ f.lo) 0

/-- The value word a holds after START (19 R470); a hole and a gap word read 0 (R465, R466). -/
def resetWord (a : Nat) : Word :=
  match specialReset a with
  | some v => BitVec.ofNat 32 v
  | none =>
    match rowOf a with
    | some r => BitVec.ofNat 32 r.resetValue
    | none => 0

end Sys2Proof.Machine
end

