-- ==== Sys2Proof/Machine/State.lean ====
section
/-!
DEFINITION. The state of the module as plain data. Every register of the map lives in regs, one home for each; what the rules give the machine and no
register shows stands beside it, chapter by chapter. pending is the queue of waiting commands and free the counter the free values read, both the model's
own.
-/

namespace Sys2Proof.Machine

/-- A slot's record in a departure entry (15 R386): the slot, its attached consumers, the SSN of the run's last record, and the last SSN delivered to each
consumer; 2^48 - 1 stands for none. -/
structure DepSlot where
  slot : Nat
  att : Nat
  last : Nat
  cons : List Nat
  deriving DecidableEq, Repr, Inhabited

/-- The power die's phase (02 R42, R44, R57, R62; 01 R19): off, inrush running, controller running, last gasp running, controller die held in reset by
the power die, input switching open after a twist-release. -/
inductive Phase where
  | off | inrush | running | lastGasp | dieReset | inputOpen
  deriving DecidableEq, Repr, Inhabited

/-- Power and start: the phase; whether the boot ROM has released SUP (16 R406) and the converters are released (01 R100); the accounting is sealed
(10 R252); a departure Blaze was sent and twist-release triggered in this run (02 R61); the cause the next start reports when the event log does not give
it (01 R20); port B is in serial use (02 R38), and its switch was opened for a serial use that waits for its voltage to fall (02, "When events meet"), with the CLK tick
since which port B is known below 2 V (R38); the voltage of port A, of port B, is the module's own, raised through its switch (R52); the integral of
R60, in degrees per second times 7 168 times samples of the rate path, the rate-path samples in a row below 60 °/s, and the instant of the last one taken; the CLK tick of the last twist-release trigger; the CLK ticks of the run; the local time of the seal in 1/8 ns and the slots' last records as the departure entry
holds them (15 R386). -/
structure PwrState where
  phase : Phase := .off
  booted : Bool := false
  released : Bool := false
  sealed : Bool := false
  departed : Bool := false
  twisted : Bool := false
  cause : Option Nat := none
  serialB : Bool := false
  wantB : Bool := false
  lowB : Option Nat := none
  raisedA : Bool := false
  raisedB : Bool := false
  twist : Nat := 0
  calm : Nat := 0
  twistT : Nat := 0
  twistAt : Nat := 0
  ticks : Nat := 0
  sealAt : Nat := 0
  dep : List DepSlot := []
  deriving DecidableEq, Repr, Inhabited

/-- A two-step Sync waiting for its Follow_Up (03 R78): port, sequence number and source, ingress time and correction, in 1/65 536 ns, and the CLK tick 2 Sync intervals
after it, at which it is discarded. -/
structure PendSync where
  port : Port
  seq : Nat
  clock : Nat
  num : Nat
  t2 : Int
  corr : Int
  till : Nat
  deriving DecidableEq, Repr, Inhabited

/-- A two-step Sync that the transparent clock has forwarded (03 R79): its ingress port, sequence number and source, what its Follow_Up's correctionField gains, and
the CLK tick 2 Sync intervals after it. -/
structure Transit where
  port : Port
  seq : Nat
  clock : Nat
  num : Nat
  add : Int
  till : Nat
  deriving DecidableEq, Repr, Inhabited

/-- A master heard on a port (03 R78): its source identity, its last dataset, the Announces counted to qualify it, at most 2, the CLK tick of the last one and the
Announce interval in ticks. -/
structure Master where
  port : Port
  clock : Nat
  num : Nat
  ds : Dataset
  count : Nat
  at_ : Nat
  every : Nat
  deriving DecidableEq, Repr, Inhabited

/-- The settings of the servo as the last offset update took them (03 R92): TIME_JUMP in ns, LOCKTH and TOL in ns, AUTO and WIN, KP, KI and YMAX. -/
structure ServoSet where
  jump : Nat := 1000000
  lockth : Nat := 1000
  tol : Nat := 10000
  auto : Bool := true
  win : Nat := 64
  kp : Nat := 0x20000
  ki : Nat := 0x3333
  ymax : Nat := 200000
  deriving DecidableEq, Repr, Inhabited

/-- The time unit (03): the counter's three fields (R66); the servo accumulator and output y, acc in 1/65 536 ns and y in 2^-32 ppb (R69); the updates in a row
within LOCKTH (R71); the previous update's offset and ingress time (R84), the confirmed time so far, and whether a pause lies since it; whether the master was lost
while the guard was open with no offset after it (R72, R87); the offset measured while the guard is open, and whether the guard's test is owed to the next update (R87);
a candidate is present (R85) and accepted, waiting for its second boundary (R86); the offset of the initial set waiting for its boundary (R81); the Syncs waiting for
their Follow_Ups (R78); the last 8 link delays per port, newest first, and the sequence number and egress time of each port's open Pdelay_Req (R76); the masters heard and
the source identity of the selected one (R78); the two-step Syncs in transit (R79); the local times at which LOCKED was entered and left on this time base, newest first
(08 R214); the last Sync's master and local times (R79) and the rate ratio they give; the settings in use (R92); the local
time at which the present time base began (07 R202). -/
structure TimeState where
  sec : Nat := 0
  ns : Nat := 0
  frac : Nat := 0
  acc : Int := 0
  y : Int := 0
  run : Nat := 0
  prev : Option Int := none
  prevAt : Int := 0
  elapsed : Nat := 0
  paused : Bool := false
  lost : Bool := false
  guardOfs : Option (Int × Int) := none
  guardTest : Bool := false
  cand : Bool := false
  accepted : Bool := false
  initOfs : Option Int := none
  sync : List PendSync := []
  pdA : List Int := []
  pdB : List Int := []
  pdReqA : Option (Nat × Int) := none
  pdReqB : Option (Nat × Int) := none
  heard : List Master := []
  master : Option (Nat × Nat) := none
  transit : List Transit := []
  locks : List (Nat × Option Nat) := []
  lastSync : Option (Int × Int) := none
  ratioNum : Int := 1
  ratioDen : Int := 1
  use : ServoSet := {}
  base : Nat := 0
  deriving DecidableEq, Repr, Inhabited

/-- One axis: a range switch decided and waiting for its carrier boundary (04 R107), an excitation level waiting for its boundary (04 R103), an up crossing
remembered during a calibration run (04 R120) and the carrier periods of the down count (04 R106). -/
structure AxisState where
  pendRange : Option Nat := none
  pendExc : Bool := false
  crossing : Bool := false
  quiet : Nat := 0
  deriving DecidableEq, Repr, Inhabited

/-- The drive loop's last stored frequency in Hz (04 R114), 0 before a first lock has ever stored one (DESIGN CHOICE, log entry 17: the spec gives none), whether it is running up to lock, and the CLK tick at which it started; the Q low-pass (04 R118), in 2^-24 µg
equivalent, and the grid time of the output it took last. -/
structure DriveState where
  storedFreq : Nat := 0
  starting : Bool := false
  startAt : Nat := 0
  qVal : Int := 0
  qAt : Nat := 0
  deriving DecidableEq, Repr, Inhabited

/-- The housekeeping converter (05): the running sequence and its length minus 1, adopted at a pass start (R135; the HK_SEQ registers are the shadow); an
injection that runs (R139); the injection for which the running entry was aborted, its partial average
discarded, while it waits (R138), and whether the entry shown has begun and is to run again; the newest valid results of TCTRL, TACC, TRATE,
TPWR and TCASE (09 R227); consecutive AUXCM results above, below and inside the window (06 R167); consecutive TCASE results above 105 °C, and the CLK ticks of the latest above 105 °C
and above 100 °C (16 R414); an entry or
injection has ended with another injection pending (R139); a pass begins with an apply pending (R135); the times between which conversions are not-settled, the
last open while REFBUF is not ready, and the CLK tick since which it is (R143). -/
structure HkState where
  seq : List Nat := []
  len : Nat := 7
  run : Option Nat := none
  aborted : Option Nat := none
  began : Bool := false
  temps : Vector (Option Int) 5 := Vector.replicate 5 none
  cmHigh : Nat := 0
  cmLow : Nat := 0
  cmIn : Nat := 0
  hotRun : Nat := 0
  hotAt : Option Nat := none
  warmAt : Nat := 0
  turn : Bool := false
  passDue : Bool := false
  unsettled : List (Nat × Option Nat) := [(0, none)]
  refAt : Option Nat := none
  deriving DecidableEq, Repr, Inhabited

/-- What a measurement over the records of one slot has collected (05 R146, R147, 06 R166): the grid time it began at; the grid times of its first record and of the
end of its last; the number of sample records, the sum, the least and the greatest of their values x, in 2^-42 of the slot's LSB; the sums of x against cosine
and sine of the stimulus frequency, with 2^64 more; whether a marker or time-step record, or a flagged record, lay in it. -/
structure Collect where
  start : Nat := 0
  first : Option Nat := none
  upto : Nat := 0
  n : Nat := 0
  sum : Int := 0
  lo : Int := 0
  hi : Int := 0
  co : Int := 0
  si : Int := 0
  marker : Bool := false
  flagged : Bool := false
  deriving DecidableEq, Repr, Inhabited

/-- System calibration (05 R145 to R149): the channel being captured; the channel whose point Z was captured last with the mean of that point in 1/256
record LSB; whether the capture that runs is dynamic; the user values each slot had before a change in the second named, G and O, in effect until it ends (R148); the
records of the capture that runs. -/
structure ScalState where
  ch : Option Nat := none
  zch : Option Nat := none
  z : Int := 0
  dynamic : Bool := false
  old : List (Nat × Nat × Int × Nat) := []
  run : Collect := {}
  deriving DecidableEq, Repr, Inhabited

/-- AUX (06): the function and probe type in effect, and the time of a write that waits for its boundary (R153); RW words of the page written in the second they name, with
the value in effect until it ends (R179); the CLK tick up to which a clamp conducts and the times between which one did (R157, R158); the comparator, the time of its
last change in 5 ns, and whether that lies before the last time step (R159, R160, R178); the last active edges in 5 ns, newest first, the
number of active edges since the function's start, those that count for readiness, and the intervals in a row of 22 µs or more (R161, R163); the angle
delivered last (R163); the CLK tick of the last accepted transition or of the function's start (R162); the output driver is off after a fault, since a CLK tick (R169); the level last
driven (R169); the records of a lead measurement (R166). -/
structure AuxState where
  func : Nat := 0
  typ : Nat := 0
  pend : Option Nat := none
  old : List (Nat × Word × Nat) := []
  clampTo : Nat := 0
  clamps : List (Nat × Nat) := []
  comp : Bool := false
  compAt : Nat := 0
  compOld : Bool := false
  edges : List Nat := []
  nact : Nat := 0
  ready : Nat := 0
  slow : Nat := 0
  angle : Int := 0
  movedAt : Nat := 0
  outOff : Bool := false
  offAt : Nat := 0
  driven : Bool := false
  lead : Collect := {}
  deriving DecidableEq, Repr, Inhabited

/-- A valid housekeeping result that reached a slot (05 R133, R134): its time, value and OVR, and whether it is timed after the last time step (07 R202). -/
structure HkRes where
  t : Nat
  value : Int
  ovr : Bool
  live : Bool
  deriving DecidableEq, Repr, Inhabited

/-- One coefficient bank at work (07 R184, R185): x[n-1], x[n-2], y[n-1], y[n-2] of its four sections, and its stage-5 outputs with their describe times in
1/65 536 ns, newest first, as far back as stage 6 still reads them. -/
structure BankRun where
  sect : List (Int × Int × Int × Int) := List.replicate 4 (0, 0, 0, 0)
  outs : List (Int × Int) := []
  deriving DecidableEq, Repr, Inhabited

/-- The filter state of one slot: the CIC's five integrators and five combs of 80 bits and the stage-1 words since its last output (07 R181, R183); the inputs of
the two half-band decimators, newest first, and whether each has one input since its last output; the inputs of stage 4, newest first, at most 256; the two
banks; the records of the fade that runs, and its length N (07 R196). -/
structure MillState where
  integ : List (BitVec 80) := List.replicate 5 0
  comb : List (BitVec 80) := List.replicate 5 0
  words : Nat := 0
  half1 : List Int := []
  odd1 : Bool := false
  half2 : List Int := []
  odd2 : Bool := false
  fir : List Int := []
  bank0 : BankRun := {}
  bank1 : BankRun := {}
  fade : Nat := 0
  fadeLen : Nat := 0
  deriving DecidableEq, Repr, Inhabited

/-- One Mill slot. en and rate: the enable and rate code in effect (08 R210; GR_CFG holds the written ones); pendCfg: the time of a write that waits for the next second
boundary; chg: the boundary of a change whose old records are still due, whether the slot stays enabled, and the old rate code; everEnabled: enabled before in this run
(07 R194); stop: the grid times from which and up to which STOP-class changes stop it, with Stopped markers, newest first, as far back as a span may reach (08 R216, 15 R398), and
resume: the newest one's end is still to come; queued: records queued in this run, so that the last SSN is queued - 1 (08 R220); nextT: the grid time of the record due next, none while the slot is
disabled (08 R211); lastT: the grid time of the last grid-slot record of this time base; trig: the last suppression trigger's instant, and sampled whether a sample
was delivered since (07 R199, 08 R217 rule 3); seams: the first new-gain samples of the range switches that a span may still hold (04 R109);
holdFrom and holdTo: the start and end of the last calibration run (07 R203); lastVal: the last sample's value; inL and inD: the settling length
and the group delay in ns of the incoming bank during a swap (07 R193, R196); hk: the valid housekeeping results
that reached the slot, newest first, at most 256 (05 R134); mill: the filter state; winT: the centre of the last dump window taken; ranges: the range switches of an axis
whose earlier samples may still come, newest first, each with its first new-gain instant and the range before it (04 R107); overAt: the instants of over-range samples and of
saturated section outputs that a span may still hold (05 R128, 07 R184). -/
structure SlotState where
  en : Bool := false
  rate : Nat := 0
  pendCfg : Option Nat := none
  chg : Option (Nat × Bool × Nat) := none
  everEnabled : Bool := false
  stop : List (Nat × Nat) := []
  resume : Bool := false
  queued : Nat := 0
  nextT : Option Nat := none
  lastT : Option Nat := none
  trig : Option Nat := none
  sampled : Bool := false
  seams : List Nat := []
  holdFrom : Option Nat := none
  holdTo : Option Nat := none
  lastVal : Int := 0
  inL : Nat := 0
  inD : Nat := 0
  hk : List HkRes := []
  mill : MillState := {}
  winT : Nat := 0
  ranges : List (Nat × Nat) := []
  overAt : List Int := []
  deriving DecidableEq, Repr, Inhabited

/-- One axis of self-calibration (09): a run is due again while the axis runs or slews (R233, R246); a merged trigger is not deferred by slope (R228); the
retries of a failed and of an abandoned run are owed (R228); the axis has had a run, so that its reference temperature is one (R227); it was named by
CAL_CMD.RUN (R232); the target trims and residuals (R237); the QCOEF target, and Q at the last run, while Q was not gated since (R239); the instants of the first and
the last step of each slewing that a span may still hold, newest first, the last none while it goes on, and of the last step (R238); the times from and to which it was deferred by slope in
the sense of R231, newest first. -/
structure CalAxis where
  due : Bool := false
  nosl : Bool := false
  retry : Bool := false
  aband : Bool := false
  hadRun : Bool := false
  named : Bool := false
  ofsDac : Int := 0
  ofsRes : Int := 0
  gainDac : Int := 0
  gainRes : Int := 0
  qTarget : Option Nat := none
  qAt : Option Int := none
  slews : List (Nat × Option Nat) := []
  therm : List (Nat × Option Nat) := []
  lastStep : Nat := 0
  deriving DecidableEq, Repr, Inhabited

/-- One watched temperature (09 R230): the sum and number of its valid results in the present grid second, and its means over the last 61 grid seconds, newest
first. -/
structure TempMean where
  sum : Int := 0
  n : Nat := 0
  t1 : List (Option Int) := []
  deriving DecidableEq, Repr, Inhabited

/-- Self-calibration (09): the axes; the phase of the run (1 waits for the temperature, 2 for the EXC monitor, 3 for DRVAMP, 4 has them, R234) with the
results and whether one was not-settled; the time at which the last run ended (R233); the drive trim's target; the grid seconds in a row at or below 2 °C/min, the second of the last slope, and
the temperatures' means (R230); a class B measurement was made
(R227); the strobe and AUX threshold tap targets (R240: CAL_TAPT shows the ports'); the shadow of the store and its CAL_BIND (R244). -/
structure CalState where
  axes : Vector CalAxis 10 := Vector.replicate 10 {}
  phase : Nat := 0
  exc : Int := 0
  drvAmp : Int := 0
  bad : Bool := false
  endedAt : Option Nat := none
  drvTarget : Int := 0
  calm : Nat := 0
  slopeSec : Nat := 0
  means : Vector TempMean 5 := Vector.replicate 5 {}
  hadB : Bool := false
  strobe : List Nat := List.replicate 10 32
  auxTap : List Nat := [32, 32]
  shadow : List Word := List.replicate 55 0
  bind : Word := 0
  deriving DecidableEq, Repr, Inhabited

/-- A record in a Landing chunk (10 R248): its word in the layout of 08 R213, its grid time in 1/8 ns, none for a time-step record, and the rate code it was
formed at. -/
structure Landed where
  w : Word
  t : Option Nat
  rate : Nat
  deriving DecidableEq, Repr, Inhabited

/-- One Landing chunk that is not free (10 R248): its slot, the SSN of its first record, the records it holds and whether it is still filling.
The list that holds the chunks keeps them in the order they were begun. -/
structure Chunk where
  slot : Nat
  first : Nat
  recs : List Landed
  filling : Bool
  deriving DecidableEq, Repr, Inhabited

/-- The Landing's consumers on one slot (10 R249): for each consumer bit 0 to 5 the SSN of the next record it takes, the attachments waiting for the
next chunk that begins (10 R250), and the SSN of the last record delivered to it in this run, none before the first (10 R252). -/
structure LandSlot where
  next : Vector Nat 6 := Vector.replicate 6 0
  rejoin : Nat := 0
  given : Vector (Option Nat) 6 := Vector.replicate 6 none
  deriving DecidableEq, Repr, Inhabited

/-- One Deck block of a ring or a capture (10 R254): its block index, 0 to 32 767, the SSN and grid time of its first record, its records in the layout of 08
R213, the rate code, whether it ends in a time-step record, and whether its ring wrote an anchor for it (10 R257). -/
structure Block where
  idx : Nat := 0
  ssn : Nat := 0
  t : Nat := 0
  recs : List Word := []
  rate : Nat := 0
  step : Bool := false
  anchored : Bool := false
  deriving DecidableEq, Repr, Inhabited

/-- An anchor of 10 R257: the block index, the SSN and grid time of the block's first record, and the rate code. -/
structure Anchor where
  block : Nat
  ssn : Nat
  t : Nat
  rate : Nat
  deriving DecidableEq, Repr, Inhabited

/-- One ring (10 R256): its size B, the held blocks, oldest first, the block in flight, the blocks closed so far, the anchors, oldest first, and whether
the next block begins with an anchor. -/
structure Ring where
  size : Nat := 0
  held : List Block := []
  flight : Option Block := none
  closed : Nat := 0
  anchors : List Anchor := []
  needAnchor : Bool := true
  deriving DecidableEq, Repr, Inhabited

/-- One capture definition's capture (10 R259, R260): Tb and the window from start to stop in grid time, whether the start waits for the next record of the
lowest captured slot (a command trigger), the slots whose window block has not closed yet, the blocks moved to it with their slots, the blocks still
reserved for it, and the time of its last admitted trigger; SLOTS, PRE, POST and AUTOREL as they stood at the trigger (R268), and its CLK tick. -/
structure Capture where
  tb : Nat := 0
  from_ : Nat := 0
  to_ : Nat := 0
  waitT : Bool := false
  slots : List Nat := []
  blocks : List (Nat × Block) := []
  reserve : Nat := 0
  lastTrig : Option Nat := none
  mask : Nat := 0
  pre : Nat := 0
  post : Nat := 0
  auto : Bool := false
  since : Nat := 0
  deriving DecidableEq, Repr, Inhabited

/-- What a lease's registers do not show (10 R262): the first and last block SSN of a ring span, the records in all and those the holder has received so far, the reads of an
internal holder (slot, first SSN and the one after the last), and the ms until a power-down request's limit. -/
structure LeaseInfo where
  first : Nat := 0
  last : Nat := 0
  total : Nat := 0
  got : Nat := 0
  seen : List (Nat × Nat × Nat) := []
  cap : Option Nat := none
  deriving DecidableEq, Repr, Inhabited

/-- Landing and Deck: the chunks in use, the consumers per slot, the free blocks of the Mill's world (10 R254) as runs of a first
index and a count, the number of blocks of the other world, the rings, the captures, the leases' hidden part and whether a WORK power-down has been requested (10 R262). -/
structure DeckState where
  chunks : List Chunk := []
  land : Vector LandSlot 16 := Vector.replicate 16 {}
  free : List (Nat × Nat) := []
  idle : Nat := 0
  rings : Vector Ring 16 := Vector.replicate 16 {}
  caps : Vector Capture 16 := Vector.replicate 16 {}
  leases : Vector LeaseInfo 32 := Vector.replicate 32 {}
  downReq : Bool := false
  deriving DecidableEq, Repr, Inhabited

/-- The impact recogniser's episode (11 R271 to R273): start time and SSN, the axis that first reached the threshold, the last above time, the SSN of that
axis at it, the peak and whether a record carried OVR. -/
structure Episode where
  start : Nat
  ssn : Nat
  slot : Nat
  last : Nat
  lastSsn : Nat
  peak : Nat
  ovr : Bool
  deriving DecidableEq, Repr, Inhabited

/-- The recognisers: the impact episode in progress and the first impact whose double window is open (11 R272); the stroke recogniser's arming, last
stroke with no break since, stop-time start, intervals of the learning phase and mean M, in 1/8 ns (11 R274, R275); the free-fall condition's start with
its SSN, its peak and whether a record of it carried OVR, and since when it has failed (11 R276); and the records that the Landing delivered to each recogniser
and that it has not read yet, oldest first (11 R269): of WX, WY and WZ, of the stroke slot, of LX, LY and LZ. -/
structure RecogState where
  ep : Option Episode := none
  first : Option Episode := none
  armed : Bool := false
  lastStroke : Option Nat := none
  stopFrom : Option Nat := none
  learn : List Nat := []
  mean : Int := 0
  ffStart : Option (Nat × Nat) := none
  ffPeak : Nat := 0
  ffOvr : Bool := false
  ffFail : Option Nat := none
  impIn : Vector (List GridRec) 3 := Vector.replicate 3 []
  stkIn : List GridRec := []
  ffIn : Vector (List GridRec) 3 := Vector.replicate 3 []
  deriving DecidableEq, Repr, Inhabited

/-- The Blaze paths: the FIFO, oldest first (11 R280); per own source the Blazes counted in grid second sec and the sources that owe LIM (11 R279); the
reorder stage with its entries (11 R283); the RUN, SEQ and arrival time of accepted peer Blazes by station (11 R282); per peer entry the station
whose Blaze it accepted last; own Blazes waiting for the ports (14 R361) and whether a message is on its way; the Blazes delivered to
the analysis processors; and those that match a capture definition, with it, whose triggers are evaluated next (11 R280). -/
structure BlazeState where
  fifo : List Blaze := []
  sec : Nat := 0
  counts : List Nat := []
  lim : List Nat := []
  reorder : List Blaze := []
  seen : List (Nat × Nat × Nat × Nat) := []
  heard : Vector (Option Nat) 32 := Vector.replicate 32 none
  out : List Blaze := []
  sending : Bool := false
  toAna : List Blaze := []
  caps : List (Nat × Blaze) := []
  deriving DecidableEq, Repr, Inhabited

/-- One pin engine beside its registers (12): the PC it executed last, none after a run or restart command, which tells a first execution (R290); the set pulse
latches with their times (R292); the pulses and the edges of level inputs on their way to the engine, each with the ticks until it is visible, and the
level inputs as masks of their codes, as the engine sees them and as it will see them a tick later (R293); the edge search of an AWAIT or STAMP: input, rising, and the time of the first
edge found (R301, R302); the target of a time AWAIT; the time capture TC, none when invalid, and the capture the next interval counts from (R301);
the pending injection (R311); TX and RX, oldest word first (R304), and how many TX words were written in the present tick (R305); the period accumulator, and whether a cycle that falls into this tick is still to be taken (R289); the records that the Landing delivered to the Mill-event unit and that it has not read yet, oldest
first (R312); and the PE_GCMD writes of this tick that name the engine, oldest first, each as a mask of RUN, STOP, RESTART and CLKSYNC from bit 0 (R307). Times are in 1/8 ns. -/
structure EngineState where
  lastPc : Option Nat := none
  latches : List (Nat × Nat) := []
  due : List (Nat × Nat × Nat) := []
  edges : List (Nat × Bool × Nat × Nat) := []
  levels : Nat × Nat := (0, 0)
  find : Option (Nat × Bool × Option Nat) := none
  target : Option Nat := none
  tc : Option Nat := none
  prevCap : Option Nat := none
  inj : Option Nat := none
  tx : List Word := []
  txNew : Nat := 0
  rx : List Word := []
  acc : Nat := 0
  cycle : Bool := false
  mev : List GridRec := []
  gcmd : List Nat := []
  deriving DecidableEq, Repr, Inhabited

/-- A closed trend point (13 R330): the start of its interval, the count of evaluations, minimum, mean and maximum in binary32, the OR of the quality bytes. -/
structure TrendPoint where
  at_ : Nat
  count : Nat
  lo : Word
  mean : Word
  hi : Word
  q : Nat
  deriving DecidableEq, Repr, Inhabited

/-- The trend of one scalar output (13 R330): the closed points, oldest first, at most 256, and the open one: its start, count, minimum, maximum and sum in
2^-149, whether a value was not finite, and the OR of the quality bytes. -/
structure Trend where
  points : List TrendPoint := []
  at_ : Nat := 0
  count : Nat := 0
  lo : Int := 0
  hi : Int := 0
  sum : Int := 0
  odd : Bool := false
  q : Nat := 0
  deriving DecidableEq, Repr, Inhabited

/-- A record a setup has taken from the Landing (13 R319, R320): its SSN and grid time (of a time-step record the last one's), its word, and whether the slot's axis was
DEGRADED when it was taken. -/
structure HistRec where
  ssn : Nat
  t : Nat
  w : Word
  deg : Bool
  deriving DecidableEq, Repr, Inhabited

/-- A peer's record (13 R326, R327): its grid time, SSN, run number and word. -/
structure PeerRec where
  t : Nat
  ssn : Nat
  run : Nat
  w : Word
  deriving DecidableEq, Repr, Inhabited

/-- A spectral line of a block or of an average (13 R323, R326), in 2^-64 LSB²: the power, and of a cross-spectrum the peer's power and the product's real and imaginary part. -/
structure Line where
  xx : Int := 0
  yy : Int := 0
  re : Int := 0
  im : Int := 0
  deriving DecidableEq, Repr, Inhabited

/-- The state of a velocity setup's filter (13 R322): the last two inputs and outputs of its four sections, the integrator's last input, and twice its output, in 2^-32 LSB. -/
structure VelRun where
  sect : List (Int × Int × Int × Int) := []
  last : Int := 0
  out : Int := 0
  deriving DecidableEq, Repr, Inhabited

/-- One analysis setup beside its registers (13 R316 to R330): its record's tags and values, none when undefined; the refusal and load estimate of R318; the
blocks used in the running linear average; whether the next full block of a velocity setup is discarded too (R322); the trends by output; the records
since the start of its next block, oldest first, and whether that block waits for a first sample record after a discarded one (R319); slot 11's records of an order
setup (R325); for a cross-spectrum, the peer's records (R326), its run number, whether its rate is another (R327), and when a publication of its came
last; the averaged lines and, by scalar output, the average in 2^-149 (R317); the spans of grid time, from the first to before the last, of the peer's publications at
another rate code (R327); the filter of a velocity setup as its block begins (R322). -/
structure SetupState where
  tags : List (Nat × Nat) := []
  ref : Nat := 0
  load : Nat := 0
  used : Nat := 0
  again : Bool := false
  trends : List Trend := []
  hist : List HistRec := []
  resync : Bool := false
  angle : List HistRec := []
  peer : List PeerRec := []
  peerRun : Option Nat := none
  mismatch : Bool := false
  peerAt : Nat := 0
  avg : List Line := []
  means : List (Nat × Int) := []
  bads : List (Nat × Nat) := []
  vel : VelRun := {}
  deriving DecidableEq, Repr, Inhabited

/-- One alarm (13 R331): its record's tags and values, and the consecutive evaluations beyond ALERT and DANGER and within their hysteresis. Its state stands in
AN_ALMST0 and AN_ALMST1. -/
structure AlarmState where
  tags : List (Nat × Nat) := []
  overA : Nat := 0
  overD : Nat := 0
  inA : Nat := 0
  inD : Nat := 0
  deriving DecidableEq, Repr, Inhabited

/-- Why the user partition was started (13 R337): with ANA1, 10 s after a fault, by AN_CMD.UPRESTART. The codes of the start call are not stated. -/
inductive UpStart where
  | ana
  | fault (code : Nat)
  | command
  deriving DecidableEq, Repr, Inhabited

/-- A mailbox slot of the user partition (13 R338): whether its OWN byte is set, the service it asks for, and the status and words of its answer. -/
structure MailSlot where
  own : Bool := false
  service : Nat := 0
  status : Nat := 0
  words : List Word := []
  deriving DecidableEq, Repr, Inhabited

/-- On-board analysis (13): setups and alarms; the slots named in the running setups of ANA0 and ANA1; when the processors were released, and whether each owes a
restarted Blaze (R333); the latest record of each feature (R338); the user partition's attached slots, the bytes of its memory that its
ring of each slot takes and the latest records with their SSNs in it, whether it made an access outside its memory, the CLK tick of its start, heartbeat or fault, the reason in its
last start call (R337), the CLK tick up to which it is stopped for its share (R336), its timer in µs, whether it is periodic and since which CLK
tick it runs, and its mailbox. -/
structure AnState where
  setups : Vector SetupState 32 := Vector.replicate 32 {}
  alarms : Vector AlarmState 32 := Vector.replicate 32 {}
  watch0 : Nat := 0
  watch1 : Nat := 0
  released : Nat := 0
  owes0 : Bool := false
  owes1 : Bool := false
  features : List FeatEntry := []
  upWatch : Nat := 0
  upBytes : Vector Nat 16 := Vector.replicate 16 0
  upRing : Vector (List (Nat × Word)) 16 := Vector.replicate 16 []
  upBad : Bool := false
  upAt : Nat := 0
  upStart : Option UpStart := none
  upStop : Nat := 0
  timer : Option (Nat × Bool × Nat) := none
  mailbox : Vector MailSlot 16 := Vector.replicate 16 {}
  deriving DecidableEq, Repr, Inhabited

/-- The switch's filtering database entry (14 R344): a MAC address, the port it was learnt on, and the CLK tick at which it was seen last. -/
structure FdbEntry where
  mac : Nat
  port : Port
  at_ : Nat := 0
  deriving DecidableEq, Repr, Inhabited

/-- Replay state of one sender (14 R353): the highest MSEQ accepted and the accepted ones less than 64 below it, and the CLK tick of the last message. -/
structure Replay where
  sender : Nat
  high : Nat
  seen : List Nat
  at_ : Nat := 0
  deriving DecidableEq, Repr, Inhabited

/-- A kept management reply (14 R364). -/
structure Kept where
  reqid : Nat
  pay : Payload
  deriving DecidableEq, Repr, Inhabited

/-- What the module keeps per host of the host list (14 R364, R365): the last 8 replies, newest first; the change set being assembled, and the
CLK tick of its first part; the CSID and result of the last complete one; and where its last request came from (R349). -/
structure HostState where
  sender : Nat
  kept : List Kept := []
  parts : List CsPart := []
  partsAt : Nat := 0
  lastCs : Option (Nat × Nat × Nat × Nat) := none
  peer : Option Peer := none
  deriving DecidableEq, Repr, Inhabited

/-- A closed stream publication that waits to be sent (14 R356, R357): the SSN and grid time of its first record, its records, its rate code,
END and STEP; and the slot, the destination host and the DEMAND of its entry when it closed. -/
structure Pub where
  ssn : Nat
  t : Option Nat
  recs : List Word
  rate : Nat
  fin : Bool
  step : Bool
  slot : Nat
  host : Option Nat
  demand : Bool
  deriving DecidableEq, Repr, Inhabited

/-- One stream entry (14 R355, R356): its destination host, the n and the rate code of its admission, the pending records with the SSN and grid time of the first, none for a time-step record,
and the closed publications that wait, oldest first. -/
structure StreamState where
  host : Option Nat := none
  n : Nat := 1
  code : Nat := 0
  first : Nat := 0
  t : Option Nat := none
  recs : List Word := []
  ready : List Pub := []
  deriving DecidableEq, Repr, Inhabited

/-- One capture session (14 R366 to R370). -/
structure Session where
  sid : Nat
  c : Nat
  host : Nat
  lease : Nat
  gtot : Nat := 0
  ack : Nat := 0
  next : Nat := 0
  total : Nat := 0
  deriving DecidableEq, Repr, Inhabited

/-- The use of the publication share on a port (14 R358): the bytes counted in grid second sec and in the second before it, and the frames of the last 100 ms with the CLK
tick at which they started, newest first. -/
structure ShareUse where
  sec : Nat := 0
  bytes : Nat := 0
  prev : Nat := 0
  sent : List (Nat × Nat) := []
  deriving DecidableEq, Repr, Inhabited

/-- Ports, switch and Cystad: the filtering database, oldest first; MRP enabled, the 200 ms profile, the domain, the CLK tick at which the interval of a
topology change ends, and the link changes that are sent again: the ring port they go out by, up or down, how often, and the CLK tick of the next (14 R347); echo answers in the
second (14 R349); the next MSEQ (14 R352); replay state, oldest first; hosts; streams; sessions and the next SID; of each capture the records that its last session left unfetched (14 R370); the groups of PID 0x0106; the use of
the share on ports A and B, and the feature messages that wait for
the share, oldest first (14 R358); and the frame on the wire of port A and port B with the CLK tick at which it ends (14 R345). -/
structure NetState where
  fdb : List FdbEntry := []
  mrpOn : Bool := true
  mrpFast : Bool := false
  mrpUuid : Nat := 2 ^ 128 - 1
  topo : Option Nat := none
  again : List (Port × Bool × Nat × Nat) := []
  echoSec : Nat := 0
  echoes : Nat := 0
  mseq : Nat := 0
  replay : List Replay := []
  hosts : List HostState := []
  streams : Vector StreamState 16 := Vector.replicate 16 {}
  sessions : List Session := []
  nextSid : Nat := 1
  left : Vector Nat 16 := Vector.replicate 16 0
  blazeGroup : Nat × Nat := (0xEFC0D201, 0xFF150000000000000000000000C50001)
  streamGroup : Nat × Nat := (0xEFC0D300, 0xFF15000000000000000000C500020000)
  ip6 : Nat × Nat := (0, 0)
  useA : ShareUse := {}
  useB : ShareUse := {}
  features : List (List FeatEntry) := []
  wireA : Option (TxFrame × Nat) := none
  wireB : Option (TxFrame × Nat) := none
  deriving DecidableEq, Repr, Inhabited

/-- One entry of the flash event log (15 R385, R386; 16 R428): run start (run number, MSEQ reservation, time state, increment), departure (the seal's
local time and the enabled slots), frequency estimate (y in 2^-32 ppb, TCASE, MD_HOT.MIN, and whether time was LOCKED), SAFE entry,
refusal, commit; event stands for the entries the rules call for and give no layout,
numbered by the rule that calls for it (log entry 9). -/
inductive LogEntry where
  | runStart (run mseq tstate inc : Nat)
  | departure (twist : Bool) (sec ns : Nat) (slots : List DepSlot)
  | freqEstimate (y : Int) (tcase : Option Int) (hot : Nat) (locked : Bool)
  | safe (code : Nat) (t : Nat)
  | refusal (code : Nat)
  | commit (region pos comseq gen cseq : Nat)
  | event (code : Nat)
  deriving DecidableEq, Repr, Inhabited

/-- A seal record (15 R383): REGION, POS, ORIGIN, COMSEQ, LEN and DIGEST. REGION 0xFF voids every earlier seal of the own and custody regions. -/
structure SealRec where
  region : Nat
  pos : Nat := 0
  origin : Nat := 0
  comseq : Nat
  len : Nat := 0
  digest : Nat := 0
  deriving DecidableEq, Repr, Inhabited

/-- One Tally region (15 R383): what its 8 positions hold, as it decrypts, from the first byte on; nothing where a position is erased. -/
structure Region where
  pos : Vector (List Byte) 8 := Vector.replicate 8 []
  deriving DecidableEq, Repr, Inhabited

/-- The serial flash (15 R382): the event log, newest first, each entry with its RUN (R385); what the firmware halves hold, their releases and write numbers (17 R441), the active
half (true: B), the half on trial and whether it has been booted (16 R416, R417); the own, custody A and custody B regions; the seal log, newest first, and the last COMSEQ reserved
(15 R383); commit counts r, p at 8r + p (15 R384); the run number (08 R221); the MSEQ reservation (14 R352). -/
structure FlashState where
  log : List (Nat × LogEntry) := []
  halfA : List Byte := []
  halfB : List Byte := []
  relA : Nat := 0x00040002
  relB : Nat := 0
  hasB : Bool := false
  seqA : Nat := 0
  seqB : Nat := 0
  activeB : Bool := false
  trial : Option Bool := none
  trialBooted : Bool := false
  own : Region := {}
  custA : Region := {}
  custB : Region := {}
  seals : List SealRec := []
  comseq : Nat := 0
  wear : Vector Nat 24 := Vector.replicate 24 0
  run : Nat := 0
  mseqRes : Nat := 0
  deriving DecidableEq, Repr, Inhabited

/-- The key store (17 R437 to R439): the line key and the trust anchor, each as the number its 32 bytes spell, SYSID (8 bytes), the anti-rollback floor in the layout of
ID_FWREL, the fuse positions left. The serial number and MAC of the factory data (09 R243, 14 R341) are `Config.factoryWord`. -/
structure KeyState where
  lineKey : Option Nat := none
  anchor : Option Nat := none
  sysid : Nat := 0
  floor : Nat := 0x00040002
  fuses : Nat := 63
  deriving DecidableEq, Repr, Inhabited

/-- An image being fetched on a port (15 R391, R392, 14 R372): its digest, the station, the bytes held so far, and whether Coppice fetches it. -/
structure Fetch where
  digest : Nat
  stn : Nat
  data : List Byte := []
  coppice : Bool := false
  deriving DecidableEq, Repr, Inhabited

/-- The header and trailer head of an image that Coppice reads on a port (15 R393): the digest, the station, the byte at which the data held begin, those bytes, GEN and
LENGTH once the header is in, and CSEQ at the end. -/
structure Look where
  digest : Nat
  stn : Nat
  base : Nat := 0
  data : List Byte := []
  gen : Nat := 0
  length : Option Nat := none
  cseq : Option Nat := none
  deriving DecidableEq, Repr, Inhabited

/-- Custody on one port (15 R390, R391, 14 R372, R373): the fetch in progress; the heads that Coppice reads (R393); the SENDER of the neighbour heard last; whether a fetch waits for
the deferred hour; the digest refused last; the digest of the neighbour's own image as its last hello or offer gave it, and whether that image is valid; the custody offer for this module seen
on the port (CSTN, CDIG); the seconds of the last defer the neighbour sent; the CLK tick of the last periodic hello. Digests here are the first 16 bytes. -/
structure CustPort where
  fetch : Option Fetch := none
  look : Option Look := none
  peer : Nat := 0
  deferred : Bool := false
  refused : Option Nat := none
  tdig : Option Nat := none
  valid : Bool := false
  offer : Option (Nat × Nat) := none
  deferSecs : Option Nat := none
  helloAt : Option Nat := none
  deriving DecidableEq, Repr, Inhabited

/-- An image commit or a staging in progress (15 R399, R401). -/
structure Staging where
  firmware : Bool
  pos : Nat
  comseq : Nat
  erasing : Bool
  deriving DecidableEq, Repr, Inhabited

/-- The Tally at run time (15): the running image; whether the load check ran, whether the newest position passed it with which position, and the older passing
position (R387, R388); the live changes since the last commit (R398); the accepted change set (R396), whether a time step or initial set was accepted while
it was pending, the engines it stopped, the load estimates with which its setups were checked (13 R318), and the CSID of the last set applied; a commit in progress: the image built, its reserved COMSEQ and whether the
second position is tried (R399, R400); staging and the words of its window (R401); an own image sealed in this run that does not run yet (R401);
custody per port, and the neighbours by SENDER whose images were committed in the last hour, each with the CLK tick (R391); the ports Coppice left out and the image it commits (R392);
the KEYLOAD read (R177): the next plug word, the words of the image, the bytes read and the repeats; what the key-probe window found, and the CLK tick of its last identify frame (R176); an erase-to-blank in progress (06 R175); the engine start mask and the host
list (R380); the X25519 private key of the last ENROLL_HELLO; of the enrollment offer verified last the trust anchor, SYSID and the transfer key (R395); the CLK ticks from
which Coppice listens (R392) and of the last ENROLL_HELLO. -/
structure TallyState where
  image : Option Image := none
  checked : Bool := false
  loadPos : Option Nat := none
  olderPos : Option Nat := none
  dirty : List TallyRec := []
  set : Option ChangeSet := none
  setStep : Bool := false
  setEngines : Nat := 0
  setLoads : List Nat := []
  applied : Nat := 0
  commit : Option Image := none
  commitSeq : Nat := 0
  commitRetry : Bool := false
  staging : Option Staging := none
  window : List Word := List.replicate 128 0
  newOwn : Option Image := none
  portA : CustPort := {}
  portB : CustPort := {}
  taken : List (Nat × Nat) := []
  failA : Bool := false
  failB : Bool := false
  fetched : Option Image := none
  keyWord : Nat := 0
  keyLen : Nat := 0
  plug : List Byte := []
  keyTries : Nat := 0
  adapter : Bool := false
  identify : Bool := false
  identAt : Nat := 0
  windowOpen : Bool := false
  erasing : Bool := false
  startMask : Nat := 0
  hosts : List HostEntry := []
  enrollKey : Option Nat := none
  enrolling : Option (Nat × Nat × Nat) := none
  listenAt : Option Nat := none
  enrollAt : Option Nat := none
  deriving DecidableEq, Repr, Inhabited

/-- How far an accepted change of mode is (16 R411, R412): none; a request waits for SETTLE's exit; the wait before WORK's power-down command; WORK's power-down
after it. -/
inductive Change where
  | idle | atExit | waiting | closing
  deriving DecidableEq, Repr, Inhabited

/-- Modes (16): the change in progress and its target mode, and whether automatic CLEAN started it (R414); the cause an orderly restart will report (R415) and
whether its first part is done, so that the Mill has stopped; whether the arrival Blaze was sent in this run (11 R278); WORK is wanted again while its rails
still fall, as an ANA heartbeat loss cycles it (01 R28), and whether it was lost unplanned (13 R333); the CLK tick of entry to the present mode, and the tick at which the
change in progress was accepted (R412); the ticks of the NET restarts and of the WORK cycles after an ANA heartbeat loss (R418), and of the minutes above
105 °C, newest first (R414). -/
structure ModeState where
  change : Change := .idle
  target : Nat := 0
  auto : Bool := false
  restart : Option Nat := none
  stopped : Bool := false
  arrived : Bool := false
  workAgain : Bool := false
  workLost : Bool := false
  at_ : Nat := 0
  since : Nat := 0
  netLost : List Nat := []
  cycles : List Nat := []
  hot : List Nat := []
  deriving DecidableEq, Repr, Inhabited

/-- What the interrupt controller keeps beside its registers for a target (18): its active source with the count and saturation its claim returned (R449, R456),
and the signalled latch saved while it does not run. -/
structure IrqTarget where
  active : Option (Nat × Nat × Bool) := none
  saved : Bool := false
  deriving DecidableEq, Repr, Inhabited

/-- One initiator's shadow (18 R459): the address of the low half and the high half latched with it. -/
structure Shadow where
  init : Initiator
  addr : Nat
  high : Word
  deriving DecidableEq, Repr, Inhabited

/-- The interrupt controller's hidden part: the targets, and the CLK tick at which each group's timer started (R454); the pulses of source
lines whose edges are still to be sensed, and the level sources whose lines were high when last sensed (R446, R447); the shadows of the two-half reads; reply is what the last read or claim returned to its initiator, burst the words of the last multi-word
access (R461). -/
structure BusState where
  targets : Vector IrqTarget 4 := Vector.replicate 4 {}
  groupAt : Vector (Option Nat) 16 := Vector.replicate 16 none
  pulses : List Nat := []
  sensed : List Nat := []
  shadows : List Shadow := []
  reply : Word := 0
  burst : List Word := []
  deriving DecidableEq, Repr, Inhabited

/-- What a field gained in the present CLK tick (00 R10): its contents before the tick's first event, and the events of the tick. -/
structure Fresh where
  field : Field
  before : Nat
  n : Nat
  deriving DecidableEq, Repr

/-- The state of the module. -/
structure State where
  /-- The register file: the words that differ from their reset values, addresses rising (19 R470, R472). -/
  regs : List (Nat × Word)
  pwr : PwrState
  time : TimeState
  axes : Vector AxisState 10
  drive : DriveState
  hk : HkState
  scal : ScalState
  aux : AuxState
  slots : Vector SlotState 16
  cal : CalState
  deck : DeckState
  recog : RecogState
  blaze : BlazeState
  engines : Vector EngineState 8
  an : AnState
  net : NetState
  flash : FlashState
  keys : KeyState
  tally : TallyState
  modes : ModeState
  bus : BusState
  /-- The frames that wait in the ports' queues, oldest first (14 R345). -/
  tx : List TxFrame
  /-- What events set or counted in the present CLK tick, so that a read or a clear in the same tick loses none (00 R10). -/
  fresh : List Fresh
  /-- The model's own counter of free values; no rule and no register shows it. -/
  free : Nat
  /-- The model's own queue of waiting commands, first in, first out. -/
  pending : List Instr
  deriving DecidableEq, Repr, Inhabited

/-- The reasons a step could stop with a fault. No rule of the spec stops the module so that it takes no further command, so no meaning raises one. -/
inductive Fault where
  /-- Nothing raises it: the spec names no access that ends the run. Safe. -/
  | halted
  deriving DecidableEq, Repr

/-- The reasons a step could refuse a command. -/
inductive Refusal where
  /-- Raised by an arm of the dispatch whose command has no meaning yet, and by nothing else. Safe. -/
  | notModelled (mnemonic : String)
  deriving DecidableEq, Repr

/-- The module as delivered (20 R481) before its first supply: unpowered, flash erased, not enrolled; every register at its reset value. -/
def State.reset : State where
  regs := []
  pwr := {}
  time := {}
  axes := Vector.replicate 10 {}
  drive := {}
  hk := {}
  scal := {}
  aux := {}
  slots := Vector.replicate 16 {}
  cal := {}
  deck := {}
  recog := {}
  blaze := {}
  engines := Vector.replicate 8 {}
  an := {}
  net := {}
  flash := {}
  keys := {}
  tally := {}
  modes := {}
  bus := {}
  tx := []
  fresh := []
  free := 0
  pending := []

end Sys2Proof.Machine
end

