-- ==== Sys2Proof/Machine/Ops.lean ====
section
/-!
DEFINITION. The named operations over the state: bit fields of a word, the register file in its canonical form, reading and writing a register field,
saturating counters, queues of outgoing frames, local time, and the free values.
-/

namespace Sys2Proof.Machine

/-- The bits lo to lo + width - 1 of a word, as a number (00 R6). -/
def getBits (w : Word) (lo width : Nat) : Nat := (w.toNat >>> lo) % 2 ^ width

/-- A word with its bits lo to lo + width - 1 replaced by the low bits of v. -/
def setBits (w : Word) (lo width v : Nat) : Word :=
  (w &&& ~~~(BitVec.ofNat 32 (2 ^ width - 1) <<< lo)) ||| (BitVec.ofNat 32 (v % 2 ^ width) <<< lo)

/-- A field's contents read as a signed number of width bits. -/
def signed (n width : Nat) : Int := if n < 2 ^ (width - 1) then n else (n : Int) - 2 ^ width

/-- A whole number as the contents of a signed field of width bits (the low bits of its two's complement). -/
def twos (x : Int) (width : Nat) : Nat := (x % (2 ^ width : Int)).toNat

/-- A whole number limited to lo and hi. -/
def clampInt (lo hi x : Int) : Int := if x < lo then lo else if hi < x then hi else x

/-- n / d to the nearest whole number, ties to even (07 R188); d is positive. -/
def roundEven (n d : Int) : Int :=
  let q := n / d
  let r := n % d
  if 2 * r < d then q else if d < 2 * r then q + 1 else if q % 2 = 0 then q else q + 1

/-- The least whole number at or above n / d. -/
def ceilDiv (n d : Nat) : Nat := (n + d - 1) / d

/-- The register file: look a word up; a word not listed reads its reset value (19 R470). -/
def Regs.read (rs : List (Nat × Word)) (a : Nat) : Word :=
  match rs with
  | [] => resetWord a
  | (b, v) :: rest => if b = a then v else Regs.read rest a

/-- The register file without word a. -/
def Regs.erase (rs : List (Nat × Word)) (a : Nat) : List (Nat × Word) := rs.filter fun p => p.1 != a

/-- The register file with an entry for word a put before the first larger address; a is not listed in it. -/
def Regs.insert (rs : List (Nat × Word)) (a : Nat) (v : Word) : List (Nat × Word) :=
  match rs with
  | [] => [(a, v)]
  | (b, w) :: rest => if a < b then (a, v) :: (b, w) :: rest else (b, w) :: Regs.insert rest a v

/-- Write a word, keeping the canonical form: a word that holds its reset value is not listed. -/
def Regs.write (rs : List (Nat × Word)) (a : Nat) (v : Word) : List (Nat × Word) :=
  if v = resetWord a then Regs.erase rs a else Regs.insert (Regs.erase rs a) a v

/-- The canonical form of the register file: addresses strictly rising, no entry equal to its reset value. -/
def Regs.wf : List (Nat × Word) → Bool
  | [] => true
  | (a, v) :: rest => decide (v ≠ resetWord a) && rest.all (fun p => decide (a < p.1)) && Regs.wf rest

/-- The whole word of a register. -/
def State.word (s : State) (a : Nat) : Word := Regs.read s.regs a

/-- Put a whole word into a register. -/
def State.setWord (s : State) (a : Nat) (v : Word) : State := { s with regs := Regs.write s.regs a v }

/-- A register field, unsigned. -/
def State.get (s : State) (f : Field) : Nat := getBits (s.word f.word) f.lo f.width

/-- A register field, signed. -/
def State.getI (s : State) (f : Field) : Int := signed (s.get f) f.width

/-- A one-bit register field. -/
def State.bit (s : State) (f : Field) : Bool := s.get f == 1

/-- Put a number into a register field; its high bits beyond the field are dropped. -/
def State.set (s : State) (f : Field) (v : Nat) : State := s.setWord f.word (setBits (s.word f.word) f.lo f.width v)

/-- Put a signed number into a register field. -/
def State.setI (s : State) (f : Field) (v : Int) : State := s.set f (twos v f.width)

/-- Put a truth value into a one-bit register field. -/
def State.setB (s : State) (f : Field) (b : Bool) : State := s.set f (if b then 1 else 0)

/-- Note n events of a field in the present tick (00 R10). -/
def noteFresh (l : List Fresh) (f : Field) (before n : Nat) : List Fresh :=
  match l.find? fun x => x.field == f with
  | some x => { x with n := x.n + n } :: l.filter fun x => x.field != f
  | none => ⟨f, before, n⟩ :: l

/-- The events of the present tick. -/
def State.noted (s : State) (l : List Fresh) : State := { s with fresh := l }

/-- Add n to a counter field that saturates at its highest value (00 R9 and the counters' own rules). -/
def State.bump (s : State) (f : Field) (n : Nat) : State := (s.set f (min (s.get f + n) (2 ^ f.width - 1))).noted (noteFresh s.fresh f (s.get f) n)

/-- Set a one-bit event field. -/
def State.event (s : State) (f : Field) : State := (s.set f 1).noted (noteFresh s.fresh f (s.get f) 1)

/-- A pulse on the line of interrupt source n (18 R446). -/
def State.pulse (s : State) (n : Nat) : State := { s with bus := { s.bus with pulses := s.bus.pulses ++ [n] } }

/-- Hand a frame to a port's queue. -/
def State.send (s : State) (p : Egress) (q : Nat) (pay : Payload) : State := { s with tx := s.tx ++ [{ port := p, queue := q, pay := pay }] }

/-- Hand an IP packet to a port's queue (14 R349). -/
def State.sendIp (s : State) (p : Egress) (q : Nat) (h : IpHead) (pay : Payload) : State :=
  { s with tx := s.tx ++ [{ port := p, queue := q, pay := pay, ip := some h }] }

/-- A Cystad message takes the next MSEQ of the run (14 R352): the reservation in flash is kept ahead of it, 2^32 higher whenever MSEQ comes within 2^31 of it,
which it does before the first message of a run. -/
def State.cystad (s : State) : State :=
  { s with flash := { s.flash with mseqRes := if s.flash.mseqRes ≤ s.net.mseq + 2 ^ 31 then s.flash.mseqRes + 2 ^ 32 else s.flash.mseqRes },
           net := { s.net with mseq := s.net.mseq + 1 } }

/-- The port's egress. -/
def Port.egress : Port → Egress
  | .a => .a
  | .b => .b

/-- The other port. -/
def Port.other : Port → Port
  | .a => .b
  | .b => .a

/-- Local time in 1/8 ns (08 R212), the fraction's higher bits included. -/
def State.now (s : State) : Nat := s.time.sec * 8000000000 + s.time.ns * 8 + s.time.frac / 2 ^ 29

/-- Local time in 1/65 536 ns. -/
def State.nowFine (s : State) : Int := ((s.time.sec * 1000000000 + s.time.ns : Nat) : Int) * 65536 + ((s.time.frac / 65536 : Nat) : Int)

/-- The next free value of a kind: the model's counter moves on, so that no two uses share one. -/
def State.freeWord (s : State) : Word × State := (Config.freeWord s.free, { s with free := s.free + 1 })

/-- The controller die runs and the boot ROM has released SUP (16 R406): commands that need firmware or the controller die act only then. -/
def State.alive (s : State) : Bool := (s.pwr.phase == .running || s.pwr.phase == .lastGasp) && s.pwr.booted

/-- The controller runs and has not sealed its accounting (02 R57, R61). -/
def State.live (s : State) : Bool := s.pwr.phase == .running && s.pwr.booted && !s.pwr.sealed

/-- n seconds have passed since CLK tick t of the run; a second is 200 000 000 ticks (01 R17). -/
def passed (s : State) (t n : Nat) : Bool := decide (t + n * 200000000 ≤ s.pwr.ticks)

/-- The present mode's code (16 R404). -/
def State.mode (s : State) : Nat := s.get MD_ST_MODE

/-- The time state's code (03 R71). -/
def State.timeState (s : State) : Nat := s.get TIME_ST_STATE

/-- Time is LOCKED (03 R71). -/
def State.locked (s : State) : Bool := s.timeState == 2

/-- Local second. -/
def State.second (s : State) : Nat := s.time.sec

/-- Replace one Mill slot's state. -/
def State.modSlot (s : State) (i : Fin 16) (f : SlotState → SlotState) : State := { s with slots := s.slots.set i (f s.slots[i]) }

/-- Replace one axis's state. -/
def State.modAxis (s : State) (i : Fin 10) (f : AxisState → AxisState) : State := { s with axes := s.axes.set i (f s.axes[i]) }

/-- NU of an entry of the event log (15 R385, R386): 13 units of 64 bytes for a departure, one for the others (log entry 9). -/
def LogEntry.units : LogEntry → Nat
  | .departure .. => 13
  | _ => 1

/-- The units of the event log's ring that hold entries (15 R382, R385): those of its 8 MiB but for the one sector of 64 KiB that is kept erased ahead. -/
def logUnits : Nat := (8 * 2 ^ 20 - 2 ^ 16) / 64

/-- The newest entries that n units hold. -/
def fitLog (n : Nat) (l : List (Nat × LogEntry)) : List (Nat × LogEntry) :=
  match l with
  | [] => []
  | e :: rest => if n < e.2.units then [] else e :: fitLog (n - e.2.units) rest

/-- Append an entry with its RUN to the ring of the flash event log (15 R385). -/
def State.log (s : State) (e : LogEntry) : State := { s with flash := { s.flash with log := fitLog logUnits ((s.flash.run, e) :: s.flash.log) } }

/-- Apply f when b holds. -/
def State.when (s : State) (b : Bool) (f : State → State) : State := if b then f s else s

end Sys2Proof.Machine
end

