-- ==== Sys2Proof/Machine/Operands.lean ====
section
/-!
DEFINITION. What the commands' operands mean: worlds and doors (17 R429, R431; the chapters' own write rules; 19 R465, R466), and the sample grid's times.
-/

namespace Sys2Proof.Machine

/-- A processor accesses in the secure world (17 R429). -/
def procSecure (s : State) (p : Proc) : Bool :=
  match p with
  | .sup => true
  | .net => true
  | .ana0 => !(s.get WK_MAPB_BLOCKS).testBit 3
  | .ana1 => !(s.get WK_MAPB_BLOCKS).testBit 4
  | .user => false

/-- The world of a block of the world map is secure (17 R432): bit 0 the Mill, 1 the recognisers, 2 the pin engines. -/
def blockSecure (s : State) (b : Nat) : Bool := !(s.get WK_MAPB_BLOCKS).testBit b

/-- Word a is a register (19 R472), the ML words of slots 11 to 15 among them, which read 0 and ignore writes (07 R205). -/
def isRegister (a : Nat) : Bool :=
  a != 0x1640 && ((rowOf a).isSome ||
    (decide (0x6C0 ≤ a) && decide (a < 0x800) && decide (0x10 ≤ (a - 0x400) % 0x40) && decide ((a - 0x400) % 0x40 < 0x18)))

/-- A processor's write to word a is accepted by its world (17 R431): the Mill's pages from the Mill's world, ML_GCMD and SSP_* secure only; the recogniser
and pin-engine pages from those blocks' worlds; BZ_CMD also from the recognisers' world; WK_EVT and all other pages secure; HK_INJCFG1 SUP only
(05 R151). -/
def procMayWrite (s : State) (p : Proc) (a : Nat) : Bool :=
  let sec := procSecure s p
  if a = 0x831 then p == .sup
  else if a = 0xB00 ∨ a = 0xB01 then sec
  else if 0xA20 ≤ a ∧ a ≤ 0xA23 then sec
  else if (0x400 ≤ a ∧ a < 0x800) ∨ (0xA00 ≤ a ∧ a < 0x1000) ∨ (0x2000 ≤ a ∧ a < 0x4000) then sec == blockSecure s 0
  else if 0x1200 ≤ a ∧ a < 0x1300 then sec == blockSecure s 1
  else if a = 0x1306 then sec || (sec == blockSecure s 1)
  else if 0x1400 ≤ a ∧ a < 0x1600 then sec == blockSecure s 2
  else sec

/-- Word a is writable from authenticated management messages: the defining chapters' own rules (02 R64, 03 R90, 04 R121, 05 R151, 06 R179, 07 R205 to R207,
08 R224, 09 R247, 10 R267, 11 R285, R286, 12 R314, 13 R340, 14 R375, 15 R403, 16 R427, 17 R443, 18 R463). -/
def hostMayWrite (a : Nat) : Bool :=
  isRegister a &&
    (if a < 8 then false
     else if 0x100 ≤ a ∧ a < 0x200 then a == 0x105
     else if a = 0x831 then false
     else if 0xA20 ≤ a ∧ a ≤ 0xA23 then false
     else if a = 0xB00 ∨ a = 0xB01 then false
     else !(decide (0x1800 ≤ a) && decide (a < 0x1900)))

/-- Word a is writable from the service serial port: MD_CMD in SERVICE and SAFE (16 R427); SCAL_* (05 R151), AUX_CMD (06 R179), TL_CMD, TL_STGCTL, TL_STGOFS
and TL_STGW (15 R403) in SERVICE. -/
def sspMayWrite (s : State) (a : Nat) : Bool :=
  isRegister a &&
    ((a == 0x9 && (s.mode == 9 || s.mode == 11)) ||
     (s.mode == 9 &&
       ((decide (0x880 ≤ a) && decide (a ≤ 0x8A5)) || a == 0xA07 || a == 0x1706 || a == 0x1730 || a == 0x1731 ||
        (decide (0x1780 ≤ a) && decide (a < 0x1800)))))

/-- A write of word a by an initiator is accepted. -/
def mayWrite (s : State) (i : Initiator) (a : Nat) : Bool :=
  match i with
  | .proc p => procMayWrite s p a
  | .ssp => sspMayWrite s a
  | .host _ => hostMayWrite a

/-- The processor runs (18 R455): ANA0 and ANA1 while WORK is on, the user partition while it is not stopped (13 R337). -/
def procRuns (s : State) (p : Proc) : Bool :=
  s.alive && (p == .sup || p == .net || (s.get ID_DOMST_WSTATE == 2 && (p != .user || s.get AN_UPST_STATE == 1)))

/-- Port B serves a serial master outside the module (06 R170). -/
def serialSlave (s : State) : Bool := s.live && s.pwr.serialB && (s.mode == 9 || s.mode == 11)

/-- The initiator can make an access now: its processor runs, the serial port is in slave use, or the host is listed. -/
def present (s : State) (i : Initiator) : Bool :=
  match i with
  | .proc p => procRuns s p
  | .ssp => serialSlave s
  | .host h => s.live && decide (h < s.tally.hosts.length)

/-- A command word's effect reaches the block when its initiator can make the access and the write is accepted. -/
def doorOpen (s : State) (i : Initiator) (a : Nat) : Bool := present s i && mayWrite s i a

/-- WK_VINFO's number of a processor (17 R443). -/
def violator (p : Proc) : Nat :=
  match p with
  | .ana0 => 2
  | .ana1 => 3
  | .user => 4
  | _ => 0

/-- A violation (17 R435): it counts, sets its event and raises its interrupt source; the first since the event was cleared is latched. -/
def violation (s : State) (p : Proc) (wr : Bool) (byteAddr : Nat) : State :=
  let s := if s.bit WK_EVT_VIOL then s
    else ((s.set WK_VINFO_INIT (violator p)).setB WK_VINFO_WR wr).setWord 0x1809 (BitVec.ofNat 32 byteAddr)
  ((s.bump WK_VINFO_COUNT 1).event WK_EVT_VIOL).pulse 1

/-- A running processor's write of register word a that its world does not permit is a violation (17 R435): the processor is non-secure and the word stands in a listed
page. -/
def breaksWorld (s : State) (p : Proc) (a : Nat) : Bool := procRuns s p && !procSecure s p && pageListed a && !procMayWrite s p a

/-- A write that its world or door turns away has no effect (19 R466), but a violation counts (17 R435). -/
def turnedAway (s : State) (i : Initiator) (a : Nat) : State :=
  match i with
  | .proc p => if breaksWorld s p a then violation s p true (0x40000000 + 4 * a) else s
  | _ => s

/-- A write of word a arrives at its door: carried out, or turned away (17 R431, R435). -/
def atDoor (s : State) (i : Initiator) (a : Nat) (f : State → State) : State := if doorOpen s i a then f s else turnedAway s i a

/-- The record interval of rate code r, 1/fs, in 1/8 ns (08 R208, R212). -/
def interval (r : Nat) : Nat := 78125 * 2 ^ r

/-- Samples per second of rate code r, times 1 024 (08 R208: 102 400 / 2^r). -/
def fs1024 (r : Nat) : Nat := 102400 * 1024 / 2 ^ r

/-- t is an instant of the grid of code r (08 R211): seconds start an instant of every code. -/
def onGrid (r t : Nat) : Bool := t % 8000000000 % interval r == 0

/-- The seconds of a grid time and its nanoseconds. -/
def timeSec (t : Nat) : Nat := t / 8000000000
def timeNs (t : Nat) : Nat := t % 8000000000 / 8

/-- The counter increment per CLK tick, in 2^-32 ns (03 R66, R68): TIME_INC.NS and TIME_INC.FRAC. -/
def increment (s : State) : Nat := s.get TIME_INC_NS * 2 ^ 32 + s.get TIME_INC_FRAC

/-- The network time that n CLK ticks take, in 1/8 ns. -/
def tickTime (s : State) (n : Nat) : Nat := n * increment s / 2 ^ 29

/-- The first instant of the grid of code r at or after t (07 R202). -/
def gridFrom (r t : Nat) : Nat := ceilDiv t (interval r) * interval r

/-- Two closed intervals of time meet; the second may still be open (07 R193). -/
def meets (a b : Int) (p : Nat × Option Nat) : Bool :=
  decide ((p.1 : Int) ≤ b) && (match p.2 with | none => true | some e => decide (a ≤ e))

/-- The word of a record (08 R213). -/
def Rec.word (r : Rec) : Word :=
  let k := match r.kind with
    | .sample => 0
    | .marker => 1
    | .timeStep => 2
  let f (b : Bool) (n : Nat) : Nat := if b then 2 ^ n else 0
  BitVec.ofNat 32 (twos r.value 24 * 256 + k * 64 + f r.caladj 5 + f r.timeq 4 + f r.therm 3 + f r.stale 2 + f r.seam 1 + f r.ovr 0)

/-- The record that a word of 08 R213 holds: VALUE signed for a sample, a code otherwise. -/
def wordRec (w : Word) : Rec :=
  let kind : RecKind := match getBits w 6 2 with
    | 0 => .sample
    | 1 => .marker
    | _ => .timeStep
  { kind := kind, value := if kind = .sample then signed (getBits w 8 24) 24 else getBits w 8 24,
    caladj := w.getLsbD 5, timeq := w.getLsbD 4, therm := w.getLsbD 3, stale := w.getLsbD 2, seam := w.getLsbD 1, ovr := w.getLsbD 0 }

/-- A marker with a reason code (08 R215, R216). -/
def marker (code : Nat) (timeq : Bool) : Rec := { kind := .marker, value := (code : Int), timeq := timeq }

/-- TIMEQ of a record at grid time t (08 R214): time is not LOCKED at the tick in which the counter reaches t. -/
def timeqAt (s : State) (t : Nat) : Bool :=
  !(s.time.locks.any fun x => decide (x.1 ≤ t) && (match x.2 with | none => true | some b => decide (t < b)))

/-- Replace one pin engine's state. -/
def State.modEngine (s : State) (e : Fin 8) (f : EngineState → EngineState) : State := { s with engines := s.engines.set e (f s.engines[e]) }

/-- An entry of a list of codes and times; a later pulse of the same code is merged and replaces the time (12 R292). -/
def putPulse (l : List (Nat × Nat)) (code t : Nat) : List (Nat × Nat) := (code, t) :: l.filter fun p => p.1 != code

/-- A pulse of an input line goes out to every engine (12 R291, R293): it is visible two ticks later, and reaches the latch by the command PE_PULSE_INPUT. -/
def pulseAll (s : State) (code t : Nat) : State :=
  { s with engines := s.engines.map fun x => { x with due := x.due ++ [(code, t, 2)] } }

/-- The edge search of one engine meets an edge (12 R301, R302): the first qualifying one counts. -/
def EngineState.edge (x : EngineState) (code : Nat) (high : Bool) (t : Nat) : EngineState :=
  match x.find with
  | some (c, rising, none) => if c = code ∧ rising = high then { x with find := some (c, rising, some t) } else x
  | _ => x

/-- A level input of the pin engines changes at time t (12 R291): the edge is visible two ticks later (R293). -/
def levelEdge (s : State) (code : Nat) (high : Bool) (t : Nat) : State :=
  { s with engines := s.engines.map fun x => { x with edges := x.edges ++ [(code, high, t, 2)] } }

/-- A level input that may have changed: the edge counts when its value before differs from its value now. -/
def levelChange (s : State) (code : Nat) (before after : Bool) (t : Nat) : State := if before = after then s else levelEdge s code after t

end Sys2Proof.Machine
end

