-- ==== Sys2Proof/Machine/Egress.lean ====
section
/-!
DEFINITION. The egress queues of the ports (14 R345, R346): the memory that frames take in them, and the transmission of a frame at a time.
-/

namespace Sys2Proof.Machine

/-- A port has link (14 R375). -/
def linkUp (s : State) (p : Port) : Bool := if p = .a then (s.get PORT_ST_A).testBit 5 else s.bit PORT_ST_LINKB

/-- What Ethernet, IP, UDP, header and tag add to the body of a Cystad message (14 R349, R350, R355, R371): 126 or 146 bytes on the wire, less the 8 before the frame and the
12 after it. -/
def envelope (v6 : Bool) : Nat := if v6 then 98 else 78

/-- The length of a frame in bytes with its check sequence, as 14 R344 and IEEE 802.3 count it (PRESUMED, log entry 121, for the frames whose layout the spec does not give). -/
def frameLen (f : TxFrame) : Nat :=
  match f.pay with
  | .forward g => g.len
  | .pdelayReq _ => 72
  | .pdelayResp .. => 72
  | _ => max 64 (match f.cy with | some h => h.len + envelope (f.ip.any (·.v6)) | none => 0)

/-- The bytes of a frame on the wire, those around it included (14 R355, R358). -/
def wireLen (f : TxFrame) : Nat := frameLen f + 20

/-- The bytes that wait in a port's queue, the frames with a property. -/
def queuedBytes (s : State) (p : Egress) (q : Nat) (c : Payload → Bool) : Nat :=
  ((s.tx.filter fun f => f.port == p && f.queue == q && c f.pay).map frameLen).sum

/-- The memory of a queue in bytes (14 R346). -/
def queueMemory (q : Nat) : Nat :=
  match q with
  | 0 => 4096
  | 1 => 8192
  | 2 => 12288
  | _ => 40960

/-- A transit frame of n bytes finds its queue full (14 R346); in the streams queue 8 KiB are the module's own. -/
def queueFull (s : State) (p : Egress) (q n : Nat) : Bool :=
  decide (queueMemory q < queuedBytes s p q (fun _ => true) + n) || (q == 3 && decide (32768 < queuedBytes s p q Payload.isTransit + n))

/-- A transit frame of n bytes goes to a port's queue, or is dropped and counted when it finds it full (14 R346). -/
def transit (s : State) (p : Port) (q n : Nat) (x : Payload) : State :=
  if queueFull s p.egress q n then s.bump (if p = .a then SW_Q_DROPA q else SW_Q_DROPB q) 1 else s.send p.egress q x

/-- The module withdraws frames that have not started transmission (14 R346). -/
def withdrawFrames (s : State) (c : Payload → Bool) : State := { s with tx := s.tx.filter fun f => !c f.pay }

/-- The frame a port sends next (14 R345): the first of its lowest queue that holds one. -/
def nextFrame (l : List TxFrame) (p : Egress) : Option TxFrame :=
  (List.range 4).findSome? fun q => l.find? fun f => f.port == p && f.queue == q

/-- The frame on a port's wire, and the CLK tick at which it ends. -/
def State.wire (s : State) (p : Port) : Option (TxFrame × Nat) := if p = .a then s.net.wireA else s.net.wireB

/-- Put a frame on a port's wire. -/
def setWire (s : State) (p : Port) (x : Option (TxFrame × Nat)) : State :=
  { s with net := if p = .a then { s.net with wireA := x } else { s.net with wireB := x } }

/-- A port without link loses the frames it had (14 R346). -/
def losePort (s : State) (p : Port) : State := setWire { s with tx := s.tx.filter fun f => f.port != p.egress } p none

/-- The use of the publication share on a port (14 R358). -/
def State.shareUse (s : State) (p : Port) : ShareUse := if p = .a then s.net.useA else s.net.useB

/-- The frames of the share that a port started in the last 100 ms (14 R358). -/
def recentFrames (s : State) (p : Port) : List (Nat × Nat) := (s.shareUse p).sent.filter fun x => decide (s.pwr.ticks < x.1 + 20000000)

/-- Count frame bytes of the publication share on a port's wire (14 R358): in the grid second, and in the last 100 ms. -/
def countShare (s : State) (p : Port) (bytes : Nat) : State :=
  let u := s.shareUse p
  let l := (s.pwr.ticks, bytes) :: recentFrames s p
  let u : ShareUse :=
    if u.sec = s.second then { u with bytes := u.bytes + bytes, sent := l } else ⟨s.second, bytes, if u.sec + 1 = s.second then u.bytes else 0, l⟩
  { s with net := if p = .a then { s.net with useA := u } else { s.net with useB := u } }

/-- A frame starts on a port's wire: at 10 Mb/s a byte takes 160 ticks (14 R345, R358). -/
def startFrame (s : State) (p : Port) (f : TxFrame) : State :=
  let s := setWire { s with tx := s.tx.erase f } p (some (f, s.pwr.ticks + 160 * wireLen f))
  if f.share then countShare s p (wireLen f) else s

/-- A port at a CLK tick (14 R345, R346): at the end of a frame the next one starts. -/
def settlePort (s : State) (p : Port) : State :=
  if !linkUp s p then losePort s p
  else if (s.wire p).any fun x => decide (s.pwr.ticks < x.2) then s
  else match nextFrame s.tx p.egress with
    | none => setWire s p none
    | some f => startFrame s p f

/-- The ports at a CLK tick: what went to port C or to the serial port has left the queues. -/
def settlePorts (s : State) : State := settlePort (settlePort { s with tx := s.tx.filter fun f => f.port == .a || f.port == .b } .a) .b

/-- An own Blaze message waits or is on its way (14 R361). -/
def blazesBusy (s : State) : Bool :=
  s.tx.any (fun f => f.pay.isBlazes) || [Port.a, Port.b].any fun p => (s.wire p).any fun x => x.1.pay.isBlazes && decide (s.pwr.ticks < x.2)

end Sys2Proof.Machine
end

