-- ==== Sys2Proof/Machine/Crypto.lean ====
section
/-!
DEFINITION. The cryptographic standards that the spec names and does not restate: SHA-256 and SHA-512 (FIPS 180-4), Ed25519 (RFC 8032), X25519 (RFC 7748) and AES-256-GCM
(FIPS 197, SP 800-38D), over lists of bytes (PRESUMED, log entry 129).
-/

namespace Sys2Proof.Machine

/-- The number that big-endian bytes spell. -/
def beNat (l : List Byte) : Nat := l.foldl (fun n b => 256 * n + b.toNat) 0

/-- The n big-endian bytes of a number. -/
def beBytes (n x : Nat) : List Byte := (List.range n).map fun i => BitVec.ofNat 8 (x >>> (8 * (n - 1 - i)))

/-- The number that little-endian bytes spell. -/
def leNat (l : List Byte) : Nat := beNat l.reverse

/-- The n little-endian bytes of a number. -/
def leBytes (n x : Nat) : List Byte := (beBytes n x).reverse

/-- f of n, where n is worked out before f is. -/
def strict {α : Type} (n : Nat) (f : Nat → α) : α :=
  match n with
  | 0 => f 0
  | n + 1 => f (n + 1)

/-- The words of n bytes each that a list spells, k of them. -/
def wordsOf (n : Nat) (l : List Byte) (k : Nat) : List Nat :=
  match k with
  | 0 => []
  | k + 1 => beNat (l.take n) :: wordsOf n (l.drop n) k

/-- A member of the SHA-2 family (FIPS 180-4): the bits of its words, its rounds, and the rotations of its four mixing functions, the last of the small ones a shift. -/
structure ShaKind where
  bits : Nat
  rounds : Nat
  upper : List Nat
  lower : List Nat
  early : List Nat
  late : List Nat
  deriving DecidableEq, Repr

def sha256Kind : ShaKind := ⟨32, 64, [2, 13, 22], [6, 11, 25], [7, 18, 3], [17, 19, 10]⟩
def sha512Kind : ShaKind := ⟨64, 80, [28, 34, 39], [14, 18, 41], [1, 8, 7], [19, 61, 6]⟩

/-- The first 64 bits of the fractions of the cube roots of the first 80 primes (FIPS 180-4). -/
def shaTable : List Nat :=
  [0x428a2f98d728ae22, 0x7137449123ef65cd, 0xb5c0fbcfec4d3b2f, 0xe9b5dba58189dbbc, 0x3956c25bf348b538, 0x59f111f1b605d019, 0x923f82a4af194f9b, 0xab1c5ed5da6d8118] ++
  [0xd807aa98a3030242, 0x12835b0145706fbe, 0x243185be4ee4b28c, 0x550c7dc3d5ffb4e2, 0x72be5d74f27b896f, 0x80deb1fe3b1696b1, 0x9bdc06a725c71235, 0xc19bf174cf692694] ++
  [0xe49b69c19ef14ad2, 0xefbe4786384f25e3, 0x0fc19dc68b8cd5b5, 0x240ca1cc77ac9c65, 0x2de92c6f592b0275, 0x4a7484aa6ea6e483, 0x5cb0a9dcbd41fbd4, 0x76f988da831153b5] ++
  [0x983e5152ee66dfab, 0xa831c66d2db43210, 0xb00327c898fb213f, 0xbf597fc7beef0ee4, 0xc6e00bf33da88fc2, 0xd5a79147930aa725, 0x06ca6351e003826f, 0x142929670a0e6e70] ++
  [0x27b70a8546d22ffc, 0x2e1b21385c26c926, 0x4d2c6dfc5ac42aed, 0x53380d139d95b3df, 0x650a73548baf63de, 0x766a0abb3c77b2a8, 0x81c2c92e47edaee6, 0x92722c851482353b] ++
  [0xa2bfe8a14cf10364, 0xa81a664bbc423001, 0xc24b8b70d0f89791, 0xc76c51a30654be30, 0xd192e819d6ef5218, 0xd69906245565a910, 0xf40e35855771202a, 0x106aa07032bbd1b8] ++
  [0x19a4c116b8d2d0c8, 0x1e376c085141ab53, 0x2748774cdf8eeb99, 0x34b0bcb5e19b48a8, 0x391c0cb3c5c95a63, 0x4ed8aa4ae3418acb, 0x5b9cca4f7763e373, 0x682e6ff3d6b2b8a3] ++
  [0x748f82ee5defb2fc, 0x78a5636f43172f60, 0x84c87814a1f0ab72, 0x8cc702081a6439ec, 0x90befffa23631e28, 0xa4506cebde82bde9, 0xbef9a3f7b2c67915, 0xc67178f2e372532b] ++
  [0xca273eceea26619c, 0xd186b8c721c0c207, 0xeada7dd6cde0eb1e, 0xf57d4f7fee6ed178, 0x06f067aa72176fba, 0x0a637dc5a2c898a6, 0x113f9804bef90dae, 0x1b710b35131c471b] ++
  [0x28db77f523047d84, 0x32caab7b40c72493, 0x3c9ebe0a15c9bebc, 0x431d67c49c100d4c, 0x4cc5d4becb3e42b6, 0x597f299cfc657e2a, 0x5fcb6fab3ad6faec, 0x6c44198c4a475817]

/-- The first 64 bits of the fractions of the square roots of the first 8 primes (FIPS 180-4). -/
def shaStart : List Nat :=
  [0x6a09e667f3bcc908, 0xbb67ae8584caa73b, 0x3c6ef372fe94f82b, 0xa54ff53a5f1d36f1, 0x510e527fade682d1, 0x9b05688c2b3e6c1f, 0x1f83d9abfb41bd6b, 0x5be0cd19137e2179]

/-- The constant of a round, and the starting words: the upper bits of those of the 64-bit kind. -/
def ShaKind.const (k : ShaKind) (t : Nat) : Nat := shaTable.getD t 0 >>> (64 - k.bits)
def ShaKind.init (k : ShaKind) : List Nat := shaStart.map (· >>> (64 - k.bits))

/-- A word rotated right. -/
def ShaKind.rot (k : ShaKind) (x n : Nat) : Nat := (x >>> n) ||| ((x <<< (k.bits - n)) % 2 ^ k.bits)

/-- The exclusive or of two rotations and a third, or a shift, of a word. -/
def ShaKind.mix (k : ShaKind) (x : Nat) (r : List Nat) (shift : Bool) : Nat :=
  k.rot x (r.getD 0 0) ^^^ k.rot x (r.getD 1 0) ^^^ (if shift then x >>> r.getD 2 0 else k.rot x (r.getD 2 0))

/-- The working variables of a hash: the newest four of each half, newest first. -/
structure ShaRun where
  upper : List Nat
  lower : List Nat
  deriving DecidableEq, Repr

/-- n rounds from round t on: l holds 16 words of the schedule, newest first, the oldest the next round's. -/
def ShaKind.go (k : ShaKind) (n t : Nat) (l : List Nat) (r : ShaRun) : ShaRun :=
  match n with
  | 0 => r
  | n + 1 =>
    let x (i : Nat) : Nat := r.upper.getD i 0
    let y (i : Nat) : Nat := r.lower.getD i 0
    let choice := (y 0 &&& (y 1 ^^^ y 2)) ^^^ y 2
    let common := (x 0 &&& (x 1 ||| x 2)) ||| (x 1 &&& x 2)
    strict (l.getD 15 0 + l.getD 6 0 + k.mix (l.getD 14 0) k.early true + k.mix (l.getD 1 0) k.late true) fun next =>
    strict (l.getD 15 0 + k.const t + y 3 + choice + k.mix (y 0) k.lower false) fun new =>
    strict ((new + common + k.mix (x 0) k.upper false) % 2 ^ k.bits) fun top =>
    strict ((x 3 + new) % 2 ^ k.bits) fun mid =>
      k.go n (t + 1) (next % 2 ^ k.bits :: l.take 15) ⟨top :: r.upper.take 3, mid :: r.lower.take 3⟩

/-- Take one block of 16 words into a hash. -/
def ShaKind.block (k : ShaKind) (h l : List Nat) : List Nat :=
  let r := k.go k.rounds 0 l.reverse ⟨h.take 4, h.drop 4⟩
  h.zipWith (fun x y => (x + y) % 2 ^ k.bits) (r.upper ++ r.lower)

/-- Take n blocks of a list of words into a hash. -/
def ShaKind.blocks (k : ShaKind) (h l : List Nat) (n : Nat) : List Nat :=
  match n with
  | 0 => h
  | n + 1 => k.blocks (k.block h (l.take 16)) (l.drop 16) n

/-- A message padded to whole blocks (FIPS 180-4). -/
def ShaKind.pad (k : ShaKind) (m : List Byte) : List Byte :=
  let b := 2 * k.bits
  let z := (2 * b - 1 - (m.length + k.bits / 4) % b) % b
  m ++ [0x80#8] ++ List.replicate z 0 ++ beBytes (k.bits / 4) (8 * m.length)

/-- The hash of a message, as the number its bytes spell. -/
def ShaKind.hash (k : ShaKind) (m : List Byte) : Nat :=
  let l := k.pad m
  let n := l.length / (2 * k.bits)
  (k.blocks k.init (wordsOf (k.bits / 8) l (16 * n)) n).foldl (fun x w => 2 ^ k.bits * x + w) 0

/-- SHA-256 and SHA-512 of a message. -/
def sha256 (m : List Byte) : Nat := sha256Kind.hash m
def sha512 (m : List Byte) : Nat := sha512Kind.hash m

/-- The field of Curve25519 (RFC 7748). -/
def curveP : Nat := 2 ^ 255 - 19

/-- A difference in the field. -/
def subP (x y : Nat) : Nat := (x + curveP - y % curveP) % curveP

/-- r times x to the number that a list of bits spells, lowest first. -/
def powBits (bits : List Bool) (x r : Nat) : Nat :=
  match bits with
  | [] => r
  | b :: rest => strict (x * x % curveP) fun y => strict (if b then r * x % curveP else r) fun q => powBits rest y q

/-- The lowest n bits of a number, lowest first. -/
def bitsOf (n x : Nat) : List Bool := (List.range n).map x.testBit

/-- A power in the field, and the inverse. -/
def powP (x e : Nat) : Nat := powBits (bitsOf 255 e) (x % curveP) 1
def invP (x : Nat) : Nat := powP x (curveP - 2)

/-- A point of Edwards25519 in extended coordinates (RFC 8032, 5.1.4). -/
structure EdPoint where
  x : Nat
  y : Nat
  z : Nat
  t : Nat
  deriving DecidableEq, Repr

/-- A point whose coordinates are worked out. -/
def edMake (x y z t : Nat) : EdPoint :=
  strict x fun x => strict y fun y => strict z fun z => strict t fun t => ⟨x, y, z, t⟩

/-- The curve's constant d, a square root of -1, and the order of the base point (RFC 8032, 5.1). -/
def edD : Nat := 37095705934669439343138083508754565189542113879843219016388785533085940283555
def edRoot : Nat := 19681161376707505956807079304988542015446066515923890162744021073123829784752
def edOrder : Nat := 2 ^ 252 + 27742317777372353535851937790883648493

/-- The neutral point and the base point. -/
def edZero : EdPoint := ⟨0, 1, 1, 0⟩
def edBase : EdPoint :=
  ⟨15112221349535400772501151409588531511454012693041857206046113283949847762202,
   46316835694926478169428394003475163141307993866256225615783033603165251855960, 1,
   46827403850823179245072216630277197565144205554125654976674165829533817101731⟩

/-- The sum of two points (RFC 8032, 5.1.4). -/
def edAdd (p q : EdPoint) : EdPoint :=
  strict (subP p.y p.x * subP q.y q.x % curveP) fun a =>
  strict ((p.y + p.x) * (q.y + q.x) % curveP) fun b =>
  strict (p.t * 2 * edD % curveP * q.t % curveP) fun c =>
  strict (p.z * 2 * q.z % curveP) fun d =>
  strict (subP b a) fun e =>
  strict (subP d c) fun f =>
  strict (d + c) fun g =>
  strict (b + a) fun h =>
    edMake (e * f % curveP) (g * h % curveP) (f * g % curveP) (e * h % curveP)

/-- r and the multiple of p by the number that a list of bits spells, lowest first. -/
def edMul (bits : List Bool) (p r : EdPoint) : EdPoint :=
  match bits with
  | [] => r
  | true :: rest =>
    match edAdd r p, edAdd p p with
    | ⟨x, y, z, t⟩, ⟨u, v, w, k⟩ => edMul rest ⟨u, v, w, k⟩ ⟨x, y, z, t⟩
  | false :: rest =>
    match edAdd p p with
    | ⟨u, v, w, k⟩ => edMul rest ⟨u, v, w, k⟩ r

/-- The 32 bytes of a point (RFC 8032, 5.1.2). -/
def edEncode (p : EdPoint) : List Byte :=
  strict (invP p.z) fun i =>
  strict (p.x * i % curveP) fun x =>
  strict (p.y * i % curveP) fun y => leBytes 32 (y + x % 2 * 2 ^ 255)

/-- The point that 32 bytes give, if any (RFC 8032, 5.1.3). -/
def edDecode (l : List Byte) : Option EdPoint :=
  strict (leNat l) fun n =>
  strict (n % 2 ^ 255) fun y =>
  strict (y * y % curveP) fun yy =>
  strict (subP yy 1) fun u =>
  strict ((edD * yy + 1) % curveP) fun v =>
  strict (u * powP v 3 % curveP * powP (u * powP v 7 % curveP) ((curveP - 5) / 8) % curveP) fun x =>
  strict (v * (x * x % curveP) % curveP) fun w =>
  strict (if w = u then x else x * edRoot % curveP) fun x =>
    let sign := n / 2 ^ 255 % 2
    if curveP ≤ y ∨ (w ≠ u ∧ w ≠ subP 0 u) ∨ (x = 0 ∧ sign = 1) then none
    else
      let r := if x % 2 = sign then x else curveP - x
      some (edMake r y 1 (r * y % curveP))

/-- A signature over a message verifies under a public key (RFC 8032, 5.1.7). -/
def edVerify (key msg sig : List Byte) : Bool :=
  let n := leNat (sig.drop 32)
  key.length == 32 && sig.length == 64 && decide (n < edOrder) &&
    match edDecode key with
    | none => false
    | some a =>
      strict (leNat (beBytes 64 (sha512 (sig.take 32 ++ key ++ msg))) % edOrder) fun h =>
        edEncode (edMul (bitsOf 253 h) (edMake (subP 0 a.x) a.y 1 (subP 0 a.t)) (edMul (bitsOf 253 n) edBase edZero)) == sig.take 32

/-- The Montgomery ladder (RFC 7748, 5), bits highest first: u is the point's coordinate, the others those of its two multiples under way. -/
def ladder (u : Nat) (bits : List Bool) (x2 z2 x3 z3 : Nat) : Nat :=
  match bits with
  | [] => x2 * invP z2 % curveP
  | b :: rest =>
    let (p, q, r, s) := if b then (x3, z3, x2, z2) else (x2, z2, x3, z3)
    strict ((p + q) * (p + q) % curveP) fun aa =>
    strict (subP p q * subP p q % curveP) fun bb =>
    strict (subP aa bb) fun e =>
    strict (subP r s * (p + q) % curveP) fun da =>
    strict ((r + s) * subP p q % curveP) fun cb =>
    strict ((da + cb) * (da + cb) % curveP) fun m =>
    strict (u * (subP da cb * subP da cb % curveP) % curveP) fun n =>
    strict (aa * bb % curveP) fun k =>
    strict (e * (aa + 121665 * e) % curveP) fun l =>
      if b then ladder u rest m n k l else ladder u rest k l m n

/-- X25519 of a private key and a coordinate, each as its little-endian number (RFC 7748). -/
def x25519 (k u : Nat) : Nat :=
  let k := (k / 8 * 8) % 2 ^ 254 + 2 ^ 254
  ladder (u % 2 ^ 255 % curveP) (bitsOf 255 k).reverse 1 0 (u % 2 ^ 255 % curveP) 1

/-- The public key of a private key (RFC 7748). -/
def x25519Public (k : Nat) : Nat := x25519 k 9

/-- The S-box of AES (FIPS 197), 32 entries a number, the lowest byte first. -/
def aesTable : List Nat :=
  [0xc072a49cafa2d4adf04759fa7dc982ca76abd7fe2b670130c56f6bf27b777c63,
   0x75b227ebe28012079a059618c323c7041531d871f1e5a534ccf73f362693fdb7,
   0xcf584c4a39becb6a5bb1fc20ed00d153842fe329b3d63b52a05a6e1b1a2c8309,
   0xd2f3ff1021dab6bcf5389d928f40a351a89f3c507f02f94585334d43fbaaefd0,
   0xdb0b5ede14b8ee4688902a22dc4f816073195d643d7ea7c41744975fec130ccd,
   0x08ae7a65eaf4566ca94ed58d6d37c8e779e4959162acd3c25c2406490a3a32e0,
   0x9e1dc186b95735610ef6034866b53e708a8bbd4b1f74dde8c6b4a61c2e2578ba,
   0x16bb54b00f2d99416842e6bf0d89a18cdf2855cee9871e9b948ed9691198f8e1]

/-- The S-box of a byte. -/
def aesSub (x : Nat) : Nat := aesTable.getD (x / 32) 0 >>> (8 * (x % 32)) % 256

/-- A byte doubled in the field of AES. -/
def aesDouble (x : Nat) : Nat := if x < 128 then 2 * x else (2 * x) ^^^ 0x11B

/-- The S-box over the bytes of a 32-bit word. -/
def aesSubWord (w : Nat) : Nat := [24, 16, 8, 0].foldl (fun n k => 256 * n + aesSub (w >>> k % 256)) 0

/-- n further words of the key schedule of AES-256 (FIPS 197, 5.2), newest first, from word i with round constant c. -/
def aesExpand (n i c : Nat) (l : List Nat) : List Nat :=
  match n with
  | 0 => l
  | n + 1 =>
    let w := l.headD 0
    let x := if i % 8 = 0 then aesSubWord ((w % 2 ^ 24) * 256 + w / 2 ^ 24) ^^^ (c * 2 ^ 24) else if i % 8 = 4 then aesSubWord w else w
    strict (l.getD 7 0 ^^^ x) fun v => strict (if i % 8 = 0 then aesDouble c else c) fun d => aesExpand n (i + 1) d (v :: l)

/-- The 15 round keys of a 256-bit key. -/
def aesKeys (key : Nat) : List Nat :=
  let l := (aesExpand 52 8 1 (wordsOf 4 (beBytes 32 key) 8).reverse).reverse
  (List.range 15).map fun r => (l.drop (4 * r)).take 4 |>.foldl (fun x w => 2 ^ 32 * x + w) 0

/-- Byte i of a block, the first in the highest place. -/
def blockByte (x i : Nat) : Nat := x >>> (8 * (15 - i)) % 256

/-- The rounds of a block with the round keys that are left (FIPS 197, 5.1): the last mixes no columns. -/
def aesRounds (keys : List Nat) (x : Nat) : Nat :=
  match keys with
  | [] => x
  | k :: rest =>
    let at_ (i : Nat) : Nat := aesSub (blockByte x (5 * i % 16))
    let mixed (i : Nat) : Nat :=
      let c (j : Nat) : Nat := at_ (i / 4 * 4 + (i + j) % 4)
      aesDouble (c 0) ^^^ aesDouble (c 1) ^^^ c 1 ^^^ c 2 ^^^ c 3
    strict ((List.range 16).foldl (fun n i => 256 * n + (if rest.isEmpty then at_ i else mixed i)) 0 ^^^ k) fun y => aesRounds rest y

/-- A block encrypted under round keys. -/
def aesBlock (keys : List Nat) (x : Nat) : Nat :=
  match keys with
  | [] => x
  | k :: rest => strict (x ^^^ k) fun y => aesRounds rest y

/-- The product of two blocks in the field of GHASH (SP 800-38D, 6.3), n bits of x to go. -/
def ghashMul (n x z v : Nat) : Nat :=
  match n with
  | 0 => z
  | n + 1 =>
    strict (if x.testBit n then z ^^^ v else z) fun z =>
    strict (if v % 2 = 1 then (v / 2) ^^^ (0xE1 * 2 ^ 120) else v / 2) fun v => ghashMul n x z v

/-- The blocks of a list of bytes, padded with zeros. -/
def gcmBlocks (l : List Byte) : List Nat :=
  let n := (l.length + 15) / 16
  wordsOf 16 (l ++ List.replicate (16 * n - l.length) 0) n

/-- GHASH of blocks (SP 800-38D, 6.4). -/
def ghash (h : Nat) (l : List Nat) : Nat := l.foldl (fun y x => strict (y ^^^ x) fun z => strict (ghashMul 128 z 0 h) id) 0

/-- The key stream of counter mode from a counter block on, as bytes (SP 800-38D, 6.5). -/
def gcmStream (keys : List Nat) (counter n : Nat) : List Byte :=
  (List.range ((n + 15) / 16)).flatMap fun i => beBytes 16 (aesBlock keys (counter / 2 ^ 32 * 2 ^ 32 + (counter + i) % 2 ^ 32))

/-- A message encrypted, or decrypted, in counter mode under a key and a 12-byte nonce. -/
def gcmCrypt (key nonce : Nat) (m : List Byte) : List Byte :=
  m.zipWith (· ^^^ ·) (gcmStream (aesKeys key) (nonce * 2 ^ 32 + 2) m.length)

/-- The 16-byte tag of AES-256-GCM over additional data and a ciphertext. -/
def gcmTag (key nonce : Nat) (aad cipher : List Byte) : Nat :=
  let keys := aesKeys key
  strict (aesBlock keys 0) fun h =>
    ghash h (gcmBlocks aad ++ gcmBlocks cipher ++ [8 * aad.length * 2 ^ 64 + 8 * cipher.length]) ^^^ aesBlock keys (nonce * 2 ^ 32 + 1)

end Sys2Proof.Machine
end

