-- ==== Sys2Proof/Machine/Image.lean ====
section
/-!
DEFINITION. The bytes of a Tally image (15 R376 to R380, R399): header, sections, parameter records, signature and commit trailer, as they are read and, for a trailer, written.
-/

namespace Sys2Proof.Machine

/-- The big-endian number in n bytes of a list, from byte o on (15 R376). -/
def beAt (l : List Byte) (o n : Nat) : Nat := beNat ((l.drop o).take n)

/-- The fields of an image's header (15 R377); RSV bytes and the other bits of FLAGS are not looked at (log entry 42). -/
def Image.magic (im : Image) : Nat := beAt im.bytes 0 4
def Image.format (im : Image) : Nat := beAt im.bytes 4 2
def Image.nsec (im : Image) : Nat := beAt im.bytes 6 2
def Image.length (im : Image) : Nat := beAt im.bytes 8 4
def Image.stn (im : Image) : Nat := beAt im.bytes 12 1
def Image.nolive (im : Image) : Bool := (beAt im.bytes 13 1).testBit 0
def Image.gen (im : Image) : Nat := beAt im.bytes 16 4
def Image.sysid (im : Image) : Nat := beAt im.bytes 20 8
def Image.fwMin (im : Image) : Nat := beAt im.bytes 28 4
def Image.keyid (im : Image) : Nat := beAt im.bytes 32 16

/-- The size of an image, with its trailer (15 R376). -/
def Image.size (im : Image) : Nat := im.bytes.length

/-- The SHA-256 of an image (15 R383, 14 R371). -/
def Image.digest (im : Image) : Nat := sha256 im.bytes

/-- TYPE, LEN and body of n sections, which fill a list of bytes (15 R378); none when they do not. -/
def sectionsIn (n : Nat) (l : List Byte) : Option (List (Nat × Nat × List Byte)) :=
  match n with
  | 0 => if l.isEmpty then some [] else none
  | n + 1 =>
    let len := beAt l 4 4
    if l.length < 16 + padded len then none
    else match sectionsIn n (l.drop (16 + padded len)) with
      | none => none
      | some rest => some ((beAt l 0 2, len, (l.drop 16).take len) :: rest)

/-- The sections of an image: those between its header and its signature (15 R376, R378). -/
def Image.parts (im : Image) : Option (List (Nat × Nat × List Byte)) := sectionsIn im.nsec ((im.bytes.take (im.length - 64)).drop 64)

/-- The body of a section. -/
def Image.body (im : Image) (typ : Nat) : Option (List Byte) := ((im.parts.getD []).find? fun x => x.1 == typ).map (·.2.2)

/-- The form of an image is right (check 0x03 of 15 R387; R376 to R378): MAGIC, FORMAT, NSEC, LENGTH, the order and lengths of the sections, the required ones, the user partition's
262 144 bytes and the image's 1 048 576. -/
def Image.formOk (im : Image) : Bool :=
  im.magic == 0x544C4C59 && im.format == 1 && decide (1 ≤ im.nsec) && decide (im.nsec ≤ 64) && decide (128 ≤ im.length) && decide (im.length ≤ im.size) &&
    decide (im.size ≤ 1048576) &&
    (match im.parts with
      | none => false
      | some l =>
        let types := l.map (·.1)
        decide (types.Pairwise (· < ·)) && types.contains 1 && types.contains 2 && l.all fun x => x.1 != 6 || decide (x.2.1 ≤ 262144))

/-- The Ed25519 signature over the header and the sections verifies under a public key (15 R376). -/
def Image.sigOk (im : Image) (key : Nat) : Bool :=
  edVerify (beBytes 32 key) (im.bytes.take (im.length - 64)) ((im.bytes.drop (im.length - 64)).take 64)

/-- The KEYID of a public key (15 R377). -/
def keyId (key : Nat) : Nat := sha256 (beBytes 32 key) / 2 ^ 128

/-- The records of n bytes each that a list holds, from the first on. -/
def chunksOf (n : Nat) (l : List Byte) : List (List Byte) := (List.range (l.length / n)).map fun i => (l.drop (n * i)).take n

/-- The pairs of tag and value of a setup or an alarm (15 R380). -/
def tagPairs (v : List Byte) : List (Nat × Nat) := (chunksOf 6 v).map fun p => (beAt p 0 2, beAt p 2 4)

/-- The parameter that a PID and its value give (15 R379, R380); other where the value does not have the length or the codes of its table. -/
def paramOf (pid : Nat) (v : List Byte) : TallyRec :=
  let n := v.length
  let word (o : Nat) : Word := BitVec.ofNat 32 (beAt v o 4)
  if pid = 1 ∧ n = 12 then .word (beAt v 0 2) (word 4) (word 8)
  else if pid = 2 ∧ 4 ≤ n ∧ n = 4 + 4 * beAt v 2 2 then .block (beAt v 0 2) ((List.range (beAt v 2 2)).map fun i => word (4 + 4 * i))
  else if pid = 0x101 ∧ n = 1 then .station (beAt v 0 1)
  else if pid = 0x102 ∧ n = 9 then .ipv4 (beAt v 0 4) (beAt v 4 1) (beAt v 5 4)
  else if pid = 0x103 ∧ n = 17 then .ipv6 (beAt v 0 16) (beAt v 16 1)
  else if pid = 0x104 ∧ n % 20 = 0 then .hosts ((chunksOf 20 v).map fun p => ⟨beAt p 0 4, beAt p 4 16⟩)
  else if pid = 0x105 ∧ n = 18 ∧ beAt v 0 1 ≤ 1 ∧ beAt v 1 1 ≤ 1 then .mrp (beAt v 0 1 == 1) (beAt v 1 1 == 1) (beAt v 2 16)
  else if pid = 0x106 ∧ n = 40 then .groups (beAt v 0 4) (beAt v 4 16) (beAt v 20 4) (beAt v 24 16)
  else if pid = 0x107 ∧ n = 1 then .startMask (beAt v 0 1)
  else if pid = 0x108 ∧ n = 7 then .userCal (beAt v 0 1) (beAt v 1 3) (beAt v 4 3)
  else if 0x200 ≤ pid ∧ pid < 0x220 ∧ n % 6 = 0 then .setup (pid - 0x200) (tagPairs v)
  else if 0x240 ≤ pid ∧ pid < 0x260 ∧ n % 6 = 0 then .alarm (pid - 0x240) (tagPairs v)
  else .other pid

/-- The parameter records in a list of bytes, at most n of them (15 R379); a record that runs past the end is none of the tables'. -/
def recordsIn (n : Nat) (l : List Byte) : List TallyRec :=
  match n with
  | 0 => []
  | n + 1 =>
    if l.isEmpty then []
    else
      let len := beAt l 2 2
      if l.length < 4 + padded len then [.other (beAt l 0 2)]
      else paramOf (beAt l 0 2) ((l.drop 4).take len) :: recordsIn n (l.drop (4 + padded len))

/-- The parameter records that bytes spell. -/
def recordsOf (l : List Byte) : List TallyRec := recordsIn l.length l

/-- The records of a section (15 R378). -/
def Image.sectionRecords (im : Image) (typ : Nat) : List TallyRec := recordsOf ((im.body typ).getD [])

/-- The records of section 0x0001, the bytes of the world map, and the records of the pin engines, the recognisers and Blazes, and the analysis (15 R378). -/
def Image.params (im : Image) : List TallyRec := im.sectionRecords 1
def Image.world (im : Image) : List Nat := ((im.body 2).getD []).map (·.toNat)
def Image.rest (im : Image) : List TallyRec := im.sectionRecords 3 ++ im.sectionRecords 4 ++ im.sectionRecords 5

/-- The image holds user-partition code (15 R378, 13 R336). -/
def Image.userPart (im : Image) : Bool := (im.body 6).isSome

/-- The bytes of a parameter record (15 R379). -/
def recordOf (pid : Nat) (v : List Byte) : List Byte := beBytes 2 pid ++ beBytes 2 v.length ++ v ++ List.replicate (padded v.length - v.length) 0

/-- The bytes of pairs of tag and value. -/
def pairBytes (l : List (Nat × Nat)) : List Byte := l.flatMap fun p => beBytes 2 p.1 ++ beBytes 4 p.2

/-- The bytes of a parameter (15 R379, R380). -/
def recordBytes (r : TallyRec) : List Byte :=
  match r with
  | .word a m v => recordOf 1 (beBytes 2 a ++ beBytes 2 0 ++ beBytes 4 m.toNat ++ beBytes 4 v.toNat)
  | .block a l => recordOf 2 (beBytes 2 a ++ beBytes 2 l.length ++ l.flatMap fun v => beBytes 4 v.toNat)
  | .station n => recordOf 0x101 (beBytes 1 n)
  | .ipv4 a p g => recordOf 0x102 (beBytes 4 a ++ beBytes 1 p ++ beBytes 4 g)
  | .ipv6 a p => recordOf 0x103 (beBytes 16 a ++ beBytes 1 p)
  | .hosts l => recordOf 0x104 (l.flatMap fun h => beBytes 4 h.sender ++ beBytes 16 h.addr)
  | .mrp e f u => recordOf 0x105 (beBytes 1 (if e then 1 else 0) ++ beBytes 1 (if f then 1 else 0) ++ beBytes 16 u)
  | .groups b4 b6 s4 s6 => recordOf 0x106 (beBytes 4 b4 ++ beBytes 16 b6 ++ beBytes 4 s4 ++ beBytes 16 s6)
  | .startMask m => recordOf 0x107 (beBytes 1 m)
  | .userCal i g o => recordOf 0x108 (beBytes 1 i ++ beBytes 3 g ++ beBytes 3 o)
  | .setup n l => recordOf (0x200 + n) (pairBytes l)
  | .alarm a l => recordOf (0x240 + a) (pairBytes l)
  | .other pid => recordOf pid []

/-- The bytes after the signature: the commit trailer, if any (15 R376, R399). -/
def Image.tail (im : Image) : List Byte := im.bytes.drop im.length

/-- The trailer of an image (15 R399). -/
def Image.trailer (im : Image) : Option Trailer :=
  let l := im.tail
  if l.isEmpty then none
  else some { cseq := beAt l 4 4, sender := beAt l 12 4, csid := beAt l 16 4, nonce := beAt l 20 12, changes := recordsOf ((l.drop 32).take (beAt l 8 4)) }

/-- A trailer has the layout of 15 R399, and its tag verifies under the line key; one without that layout counts as one whose tag does not (log entry 42). -/
def Image.tagOk (im : Image) (key : Nat) : Bool :=
  let l := im.tail
  beAt l 0 4 == 0x544C434D && l.length == 48 + beAt l 8 4 && gcmTag key (beAt l 20 12) (l.take (l.length - 16)) [] == beAt l (l.length - 16) 16

/-- The bytes of a trailer before its tag, and with its tag under the line key (15 R399). -/
def Trailer.head (t : Trailer) : List Byte :=
  let l := t.changes.flatMap recordBytes
  beBytes 4 0x544C434D ++ beBytes 4 t.cseq ++ beBytes 4 l.length ++ beBytes 4 t.sender ++ beBytes 4 t.csid ++ beBytes 12 t.nonce ++ l
def Trailer.bytes (t : Trailer) (key : Nat) : List Byte := t.head ++ beBytes 16 (gcmTag key t.nonce t.head [])

/-- An image with a trailer in place of the one it has (15 R399). -/
def Image.withTrailer (im : Image) (t : Trailer) (key : Nat) : Image := ⟨im.bytes.take im.length ++ t.bytes key⟩

/-- The first 16 bytes of a SHA-256 (14 R371, R372). -/
def dig16 (n : Nat) : Nat := n / 2 ^ 128

end Sys2Proof.Machine
end

