-- ==== Sys2Proof/Machine/Wire.lean ====
section
/-!
DEFINITION. Cystad messages as bytes (14 R350, R351, R357 to R373; 11 R277): the header, the bodies that the module writes and reads, and their encryption.
-/

namespace Sys2Proof.Machine

/-- The bytes of a header (14 R350), which are the additional authenticated data (R351), and the nonce, its bytes 4 to 15. -/
def CyHead.bytes (h : CyHead) : List Byte := beBytes 1 h.ver ++ beBytes 1 h.typ ++ beBytes 2 h.len ++ beBytes 4 h.sender ++ beBytes 8 h.mseq
def CyHead.nonce (h : CyHead) : Nat := beAt h.bytes 4 12

/-- A body sealed under a line key (14 R351): the ciphertext and the tag. -/
def CyHead.cipher (h : CyHead) (key : Nat) (body : List Byte) : List Byte := gcmCrypt key h.nonce body
def CyHead.tag (h : CyHead) (key : Nat) (cipher : List Byte) : Nat := gcmTag key h.nonce h.bytes cipher

/-- A time as SEC and NS (08 R212). -/
def timeBytes (t : Nat) : List Byte := beBytes 6 (timeSec t) ++ beBytes 4 (timeNs t)

/-- The time that SEC and NS at byte o give, in 1/8 ns. -/
def timeAt (l : List Byte) (o : Nat) : Nat := beAt l o 6 * 8000000000 + beAt l (o + 6) 4 * 8

/-- Words, four bytes each. -/
def wordBytes (l : List Word) : List Byte := l.flatMap fun w => beBytes 4 w.toNat

/-- The words that bytes spell from byte o on. -/
def wordsAt (l : List Byte) (o : Nat) : List Word := (chunksOf 4 (l.drop o)).map fun w => BitVec.ofNat 32 (beNat w)

/-- A Blaze in its 32 bytes (11 R277). -/
def Blaze.bytes (b : Blaze) : List Byte :=
  beBytes 1 b.stn ++ beBytes 1 b.src ++ beBytes 1 b.kind ++
    beBytes 1 (b.sev * 16 + (if b.timeq then 8 else 0) + (if b.lim then 4 else 0) + (if b.ovr then 2 else 0) + (if b.ord then 1 else 0)) ++
    beBytes 2 b.seq ++ beBytes 1 b.slot ++ beBytes 1 b.run ++ timeBytes b.t ++ beBytes 6 b.ssn ++ beBytes 4 (twos b.val0 32) ++ beBytes 4 (twos b.val1 32)

/-- The Blaze of 32 bytes (11 R277). -/
def blazeOf (l : List Byte) : Blaze :=
  let f := beAt l 3 1
  { stn := beAt l 0 1, src := beAt l 1 1, kind := beAt l 2 1, sev := f / 16, timeq := f.testBit 3, lim := f.testBit 2, ovr := f.testBit 1, ord := f.testBit 0,
    seq := beAt l 4 2, slot := beAt l 6 1, run := beAt l 7 1, t := timeAt l 8, ssn := beAt l 18 6, val0 := signed (beAt l 24 4) 32, val1 := signed (beAt l 28 4) 32 }

/-- An entry of a feature publication (14 R360). -/
def FeatEntry.bytes (e : FeatEntry) : List Byte :=
  beBytes 2 e.fid ++ beBytes 1 e.q ++ beBytes 1 e.etype ++ timeBytes e.t ++ beBytes 6 e.ssn ++ beBytes 4 e.blen ++ beBytes 4 e.total ++ beBytes 4 e.first ++
    beBytes 2 e.values.length ++ beBytes 2 0 ++ wordBytes e.values

/-- The body of a Cystad message that the module sends (14 R357 to R373); nothing for another frame. -/
def Payload.bytes : Payload → List Byte
  | .departure b => beBytes 1 1 ++ beBytes 3 0 ++ b.bytes
  | .blazes l => beBytes 1 l.length ++ beBytes 3 0 ++ l.flatMap Blaze.bytes
  | .mgmtReply _ reqid op res trunc addr l =>
    beBytes 4 reqid ++ beBytes 1 op ++ beBytes 1 res ++ beBytes 1 (if trunc then 1 else 0) ++ beBytes 1 0 ++ beBytes 2 addr ++ beBytes 2 l.length ++ wordBytes l
  | .csResult _ csid res idx sec => beBytes 4 csid ++ beBytes 1 res ++ beBytes 3 idx ++ beBytes 6 sec
  | .stream _ stn _ slot rate fin step run ssn recs t =>
    beBytes 1 stn ++ beBytes 1 slot ++ beBytes 1 rate ++ beBytes 1 ((if fin then 128 else 0) + (if step then 64 else 0)) ++ beBytes 4 run ++ beBytes 6 ssn ++
      beBytes 2 recs.length ++ (match t with | some t => timeBytes t | none => List.replicate 10 0xFF) ++ beBytes 2 0 ++ wordBytes recs
  | .feature stn run l => beBytes 1 stn ++ beBytes 1 l.length ++ beBytes 2 0 ++ beBytes 4 run ++ l.flatMap FeatEntry.bytes
  | .descriptor _ c res sid short step part npart total slots tb anchors =>
    beBytes 1 c ++ beBytes 1 res ++ beBytes 2 sid ++ beBytes 1 ((if short then 1 else 0) + (if step then 2 else 0)) ++ beBytes 1 part ++ beBytes 1 npart ++
      beBytes 1 anchors.length ++ beBytes 4 total ++ beBytes 2 slots ++ timeBytes tb ++ beBytes 4 0 ++
      anchors.flatMap fun (n, slot, rate, ssn, t) => beBytes 4 n ++ beBytes 1 slot ++ beBytes 1 rate ++ beBytes 2 0 ++ beBytes 6 ssn ++ timeBytes t
  | .chunk sid slot n ssn recs =>
    beBytes 2 sid ++ beBytes 1 slot ++ beBytes 1 0 ++ beBytes 4 n ++ beBytes 6 ssn ++ beBytes 2 recs.length ++ wordBytes recs
  | .capEnd sid c why ack recs => beBytes 2 sid ++ beBytes 1 c ++ beBytes 1 why ++ beBytes 4 ack ++ beBytes 4 recs
  | .hello h port =>
    beBytes 1 h.stn ++ beBytes 1 port ++ beBytes 1 h.mode ++ beBytes 1 ((if h.ownValid then 1 else 0) + (if h.holds then 2 else 0)) ++ beBytes 8 h.serial ++
      beBytes 4 h.run ++ beBytes 16 h.tdig ++ beBytes 16 h.cdig ++ beBytes 1 h.cstn ++ beBytes 3 0
  | .custRequest stn want offset nch => beBytes 1 stn ++ beBytes 1 want ++ beBytes 2 0 ++ beBytes 4 offset ++ beBytes 2 nch ++ beBytes 2 0
  | .custData d =>
    beBytes 1 d.stn ++ beBytes 1 d.want ++ beBytes 2 0 ++ beBytes 4 d.offset ++ beBytes 4 d.total ++ beBytes 16 d.idig ++ beBytes 2 d.bytes.length ++ beBytes 2 0 ++ d.bytes
  | .offer stn total idig => beBytes 1 stn ++ beBytes 3 0 ++ beBytes 4 total ++ beBytes 16 idig
  | .defer stn secs => beBytes 1 stn ++ beBytes 3 0 ++ beBytes 4 secs
  | _ => []

/-- The UDP payload of a frame that carries a Cystad message, under a line key (14 R350, R351): header, ciphertext and tag; nothing for another frame. -/
def TxFrame.udp (f : TxFrame) (key : Nat) : List Byte :=
  match f.cy with
  | none => []
  | some h =>
    let c := h.cipher key f.pay.bytes
    h.bytes ++ c ++ beBytes 16 (h.tag key c)

/-- The header of a datagram received (14 R350). -/
def Datagram.head (d : Datagram) : CyHead := ⟨d.ver, d.typ, d.len, d.sender, d.mseq⟩

/-- The tag of a datagram verifies under a line key (14 R351). -/
def Datagram.authOk (d : Datagram) (key : Nat) : Bool := d.head.tag key d.cipher == d.tag

/-- The body of a datagram (14 R351). -/
def Datagram.body (d : Datagram) (key : Nat) : List Byte := gcmCrypt key d.head.nonce d.cipher

/-- The entries of a feature publication fill the bytes given (14 R360). -/
def featFills (n : Nat) (l : List Byte) : Bool :=
  match n with
  | 0 => l.isEmpty
  | n + 1 => decide (36 + 4 * beAt l 32 2 ≤ l.length) && featFills n (l.drop (36 + 4 * beAt l 32 2))

/-- A parameter record that fills the bytes of a change set's entry (14 R365, 15 R379). -/
def entryRecord (l : List Byte) : Option TallyRec :=
  if 4 ≤ l.length ∧ l.length = 4 + padded (beAt l 2 2) then some (paramOf (beAt l 0 2) ((l.drop 4).take (beAt l 2 2))) else none

/-- The entries of a part of a change set, the n it announces, from the first on, up to one that is malformed or runs past the end; whether there is one; and the bytes after
them (14 R365). -/
def entriesIn (n : Nat) (l : List Byte) : List CsEntry × Bool × List Byte :=
  match n with
  | 0 => ([], false, l)
  | n + 1 =>
    let word (o : Nat) : Word := BitVec.ofNat 32 (beAt l o 4)
    let len := beAt l 2 2
    if beAt l 0 1 = 0 ∧ 12 ≤ l.length then
      let r := entriesIn n (l.drop 12)
      (.word (beAt l 2 2) (word 4) (word 8) :: r.1, r.2)
    else if beAt l 0 1 = 1 ∧ 4 + padded len ≤ l.length then
      match entryRecord ((l.drop 4).take len) with
      | none => ([], true, [])
      | some p =>
        let r := entriesIn n (l.drop (4 + padded len))
        (.param p :: r.1, r.2)
    else ([], true, [])

/-- The part of a change set that a body holds (14 R365). -/
def csPartOf (l : List Byte) : CsPart :=
  let r := entriesIn (beAt l 14 2) (l.drop 16)
  { csid := beAt l 0 4, part := beAt l 4 1, npart := beAt l 5 1, flags := beAt l 6 2, sec := beAt l 8 6, entries := r.1,
    malformed := if r.2.1 then some r.1.length else none }

/-- The count fields of a body agree with its length (14 R353); what runs past the end of a part of a change set is answered instead (R365). -/
def countsOk (typ : Nat) (l : List Byte) : Bool :=
  match typ with
  | 0x01 => l.length == 28 + 4 * beAt l 14 2
  | 0x02 => featFills (beAt l 1 1) (l.drop 8)
  | 0x03 => l.length == 4 + 32 * beAt l 0 1
  | 0x11 => l.length == 12 + 4 * beAt l 10 2
  | 0x20 => (entriesIn (beAt l 14 2) (l.drop 16)).2.2.isEmpty
  | 0x31 => l.length == 28 + 24 * beAt l 7 1
  | 0x33 => l.length == 16 + 4 * beAt l 14 2
  | 0x42 => l.length == 32 + beAt l 28 2
  | _ => true

/-- The body check passes (14 R353): a management request with its fixed part does whatever its CNT. -/
def Datagram.bodyOk (d : Datagram) (key : Nat) : Bool := decide (fixedPart d.typ ≤ d.cipher.length) && countsOk d.typ (d.body key)

/-- The Blazes of a message, at most 16 (14 R361). -/
def blazesOf (l : List Byte) : List Blaze := ((chunksOf 32 (l.drop 4)).take (min 16 (beAt l 0 1))).map blazeOf

/-- A management request (14 R362): REQID, OP, ADDR, the words it asks for or writes, and the data words in it. -/
structure MgmtReq where
  reqid : Nat
  op : Nat
  addr : Nat
  cnt : Nat
  words : List Word
  deriving DecidableEq, Repr

def mgmtReqOf (l : List Byte) : MgmtReq := ⟨beAt l 0 4, beAt l 4 1, beAt l 8 2 % 2 ^ 14, beAt l 10 2 + 1, wordsAt l 12⟩

/-- A grid time of rate code r that SEC and NS name, which leave out the part below 1 ns (08 R212). -/
def gridTime (r t : Nat) : Nat := t / 8000000000 * 8000000000 + (t % 8000000000 + (interval r - 1)) / interval r * interval r

/-- A peer's stream publication (14 R357). -/
def pubOf (l : List Byte) : PeerPub :=
  { stn := beAt l 0 1, slot := beAt l 1 1, rate := beAt l 2 1, run := beAt l 4 4, ssn := beAt l 8 6, t := gridTime (beAt l 2 1) (timeAt l 16), recs := wordsAt l 28 }

/-- A custody hello (14 R371). -/
def helloOf (l : List Byte) : Hello :=
  { stn := beAt l 0 1, mode := beAt l 2 1, ownValid := (beAt l 3 1).testBit 0, holds := (beAt l 3 1).testBit 1, serial := beAt l 4 8, run := beAt l 12 4,
    tdig := beAt l 16 16, cdig := beAt l 32 16, cstn := beAt l 48 1 }

/-- A custody data message (14 R372). -/
def custDataOf (l : List Byte) : CustData :=
  { stn := beAt l 0 1, want := beAt l 1 1, offset := beAt l 4 4, total := beAt l 8 4, idig := beAt l 12 16, bytes := l.drop 32 }

end Sys2Proof.Machine
end

