-- ==== Sys2Proof/Machine/Message.lean ====
section
/-!
DEFINITION. The Cystad messages that the module sends (14 R345, R349 to R352): their header, addresses and queue, and the ports they leave by.
-/

namespace Sys2Proof.Machine

/-- The module's own MAC address (14 R349). -/
def ownMac (s : State) : Nat := s.get NET_MAC_HI * 2 ^ 32 + s.get NET_MAC_LO

/-- The clockIdentity (03 R75): the EUI-64 of the MAC address, with FF FE between its halves (log entry 109). -/
def clockIdentity (s : State) : Nat := ownMac s / 2 ^ 24 * 2 ^ 40 + 0xFFFE * 2 ^ 24 + ownMac s % 2 ^ 24

/-- The IPv6 link-local address (14 R349): fe80::/64 and the EUI-64 of the MAC address with its universal bit inverted (PRESUMED, log entry 121: RFC 4291). -/
def linkLocal (s : State) : Nat := 0xFE80 * 2 ^ 112 + (clockIdentity s ^^^ 2 ^ 57)

/-- The own IPv6 address that messages come from (14 R349): the global one when the Tally gives one, towards an address of another scope. -/
def ownIp6 (s : State) (to_ : Nat) : Nat := if s.net.ip6.1 = 0 ∨ to_ / 2 ^ 118 = 0x3FA ∨ to_ / 2 ^ 112 = 0xFF02 then linkLocal s else s.net.ip6.1

/-- The own address of a version (14 R349). -/
def ownIp (s : State) (v6 : Bool) (to_ : Nat) : Nat := if v6 then ownIp6 s to_ else s.get NET_IP4_ADDR

/-- The UDP port of Cystad messages (14 R349). -/
def cystadPort : Nat := 52108

/-- The IP header to an address, from the Cystad port (14 R349). -/
def ipTo (s : State) (v6 : Bool) (addr port : Nat) : IpHead := ⟨v6, ownIp s v6 addr, addr, some (cystadPort, port), none⟩

/-- The module publishes over IPv6 when it has no IPv4 address (14 R349). -/
def overV6 (s : State) : Bool := s.get NET_IP4_ADDR == 0

/-- The header to a group of both versions (14 R349). -/
def groupHead (s : State) (g : Nat × Nat) (n : Nat) : IpHead := ipTo s (overV6 s) ((if overV6 s then g.2 else g.1) + n) cystadPort

/-- The header to the Blaze group, and to the module's own stream group (14 R349). -/
def blazeGroupHead (s : State) : IpHead := groupHead s s.net.blazeGroup 0
def streamGroupHead (s : State) : IpHead := groupHead s s.net.streamGroup (s.get BZ_CFG_STN)

/-- The header of a custody message: to ff02::1 with hop limit 255 (14 R371). -/
def custodyHead (s : State) : IpHead := { ipTo s true (0xFF02 * 2 ^ 112 + 1) cystadPort with hop := some 255 }

/-- An IPv4 address as the host list holds it, mapped into IPv6 (15 R380). -/
def isMapped (a : Nat) : Bool := a / 2 ^ 32 == 0xFFFF

/-- The state kept for a host (14 R364, R365). -/
def hostState (s : State) (sender : Nat) : HostState := (s.net.hosts.find? fun h => h.sender == sender).getD { sender := sender }

/-- Replace the state kept for a host. -/
def State.modHost (s : State) (sender : Nat) (f : HostState → HostState) : State :=
  { s with net := { s.net with hosts := f (hostState s sender) :: s.net.hosts.filter fun h => h.sender != sender } }

/-- The header of a stream publication to a host (14 R355): its address in the host list. -/
def listedHead (s : State) (sender : Nat) : IpHead :=
  let a := ((s.tally.hosts.find? fun h => h.sender == sender).map (·.addr)).getD 0
  ipTo s (!isMapped a) (if isMapped a then a % 2 ^ 32 else a) cystadPort

/-- The header of an answer to a request (14 R349): to the version, address and port it came from. -/
def answerHead (s : State) (x : Peer) : IpHead := ipTo s x.v6 x.addr x.port

/-- The header of a message to a host: to where its last request came from, or to its address in the host list. -/
def hostHead (s : State) (sender : Nat) : IpHead :=
  match (hostState s sender).peer with
  | some x => answerHead s x
  | none => listedHead s sender

/-- The ports by which a frame to a MAC address leaves (14 R344): the one at which the filtering database has it, else those given. -/
def macPorts (s : State) (mac : Option Nat) (ps : List Port) : List Port :=
  match mac.bind fun m => s.net.fdb.find? fun e => e.mac == m with
  | some e => [e.port]
  | none => ps

/-- The ports by which a message to a host leaves. -/
def hostPorts (s : State) (sender : Nat) (ps : List Port) : List Port := macPorts s ((hostState s sender).peer.map (·.mac)) ps

/-- Both ports. -/
def bothPorts : List Port := [.a, .b]

/-- The TYPE byte of a message (14 R345); 0 for a frame that is none. -/
def Payload.typ : Payload → Nat
  | .departure _ | .blazes _ => 3
  | .stream .. => 1
  | .feature .. => 2
  | .mgmtReply .. => 0x11
  | .csResult .. => 0x21
  | .descriptor .. => 0x31
  | .chunk .. => 0x33
  | .capEnd .. => 0x34
  | .hello .. => 0x40
  | .custRequest .. => 0x41
  | .custData _ => 0x42
  | .offer .. => 0x43
  | .defer .. => 0x44
  | _ => 0

/-- The queue of a Cystad TYPE (14 R345). -/
def typeQueue (t : Nat) : Nat :=
  if t = 3 then 1 else if [0x10, 0x11, 0x20, 0x21, 0x30, 0x31, 0x32, 0x34, 0x35, 0x40, 0x41, 0x43, 0x44].contains t then 2 else 3

/-- The header of the module's next message (14 R350, R352). -/
def State.cyHead (s : State) (x : Payload) : CyHead :=
  { typ := x.typ, len := x.bytes.length, sender := (s.word 0x1004).toNat, mseq := s.net.mseq }

/-- The frame of the module's next message on a port, of the publication share or not. -/
def State.cyFrame (s : State) (p : Port) (to_ : IpHead) (x : Payload) (share : Bool) : TxFrame :=
  { port := p.egress, queue := typeQueue x.typ, pay := x, cy := some (s.cyHead x), ip := some to_, share := share }

/-- The module sends a Cystad message on ports (14 R345, R350 to R352); without a line key it sends none (R351). -/
def message (s : State) (ps : List Port) (to_ : IpHead) (x : Payload) (share : Bool) : State :=
  if s.keys.lineKey.isSome then { s.cystad with tx := s.tx ++ ps.map fun p => s.cyFrame p to_ x share } else s

/-- A message on both ports ahead of every other frame (14 R345). -/
def messageAhead (s : State) (to_ : IpHead) (x : Payload) : State :=
  if s.keys.lineKey.isSome then { s.cystad with tx := (bothPorts.map fun p => { s.cyFrame p to_ x false with queue := 0 }) ++ s.tx } else s

end Sys2Proof.Machine
end

