-- ==== Sys2Proof/Machine/Blaze.lean ====
section
/-!
DEFINITION. Blazes (11 R277 to R287): issuing an own Blaze, routing, match units, the FIFO, the reorder stage, subscription and loss counting, and the own
Blazes' way to the ports (14 R361).
-/

namespace Sys2Proof.Machine

/-- The field matches of 10 R259 and 11 R281: station 0xFF is this module, 0xFE (match units only) any station; source and kind 0xFF any; severity at
least the minimum. -/
def blazeMatches (own : Nat) (anyStn : Bool) (stn src kind sev : Nat) (b : Blaze) : Bool :=
  ((anyStn && stn == 0xFE) || (if stn = 0xFF then b.stn == own else b.stn == stn)) &&
  (src == 0xFF || b.src == src) && (kind == 0xFF || b.kind == kind) && decide (sev ≤ b.sev)

/-- The match units whose event line a routed Blaze pulses (11 R281), bit m for unit m. -/
def matchMask (s : State) (b : Blaze) : Nat :=
  (List.range 8).foldl (fun n m =>
    if s.bit (BZ_MATCH_EN m) && blazeMatches (s.get BZ_CFG_STN) true (s.get (BZ_MATCH_STN m)) (s.get (BZ_MATCH_SRC m)) (s.get (BZ_MATCH_KIND m))
        (s.get (BZ_MATCH_SEV m)) b
    then n + 2 ^ m else n) 0

/-- The match units of a mask pulse their event lines to every engine, with the Blaze's grid time (11 R281, 12 R291). -/
def pulseMatches (s : State) (mask t : Nat) : State :=
  (List.range 8).foldl (fun s m => if mask.testBit m then pulseAll s (4 + m) t else s) s

/-- Copy a Blaze into the FIFO, or count it as dropped when the FIFO is full (11 R280). -/
def fifoPut (s : State) (b : Blaze) : State :=
  if s.blaze.fifo.length < 16 then
    { s with blaze := { s.blaze with fifo := s.blaze.fifo ++ [b] } }.set BZ_FIFOST_COUNT (s.blaze.fifo.length + 1)
  else (s.bump BZ_CNT_FIFODROP 1).event BZ_EVT_FIFOOVF

/-- A Blaze matches a definition's trigger fields (10 R259). -/
def captureMatches (s : State) (c : Nat) (b : Blaze) : Bool :=
  s.bit (DK_CAP_EN c) && blazeMatches (s.get BZ_CFG_STN) false (s.get (DK_CAP_STN c)) (s.get (DK_CAP_SRC c)) (s.get (DK_CAP_KIND c)) (s.get (DK_CAP_SEV c)) b

/-- A Blaze triggers every definition it matches (10 R259): the trigger of each comes as CAPTURE_TRIGGER. -/
def triggerWith (s : State) (b : Blaze) : State :=
  { s with blaze := { s.blaze with caps := s.blaze.caps ++ ((List.range 16).filter fun c => captureMatches s c b).map fun c => (c, b) } }

/-- Route a Blaze to the destinations of mask (11 R280): bit 0 the FIFO, 1 the match units, 2 the captures, 3 the analysis while WORK is on, 4 the ports. -/
def routeBlaze (s : State) (mask : Nat) (b : Blaze) : State :=
  let s := if mask.testBit 2 then triggerWith s b else s
  let s := if mask.testBit 0 then fifoPut s b else s
  let s := if mask.testBit 1 then pulseMatches s (matchMask s b) b.t else s
  let s := if mask.testBit 3 && s.get ID_DOMST_WSTATE == 2 then { s with blaze := { s.blaze with toAna := s.blaze.toAna ++ [b] } } else s
  if mask.testBit 4 then { s with blaze := { s.blaze with out := s.blaze.out ++ [b] } } else s

/-- The destinations of an own Blaze by its source (11 R280): all five for system Blazes; BZ_ROUTE bits [4:0] for the recognisers, [12:8] for the pin engines,
[20:16] for analysis and the user partition. -/
def ownRoute (s : State) (src : Nat) : Nat :=
  let r := (s.word 0x1301).toNat
  if src = 0 then 31 else if src < 0x10 then r % 32 else if src < 0x20 then r / 2 ^ 8 % 32 else r / 2 ^ 16 % 32

/-- The counts of Blazes per source in the present grid second (11 R279). -/
def blazeCount (s : State) (src : Nat) : Nat := if s.blaze.sec = s.second then s.blaze.counts.count src else 0

/-- An own Blaze given its station, sequence number, run byte and flags (11 R277, R279). -/
def stampBlaze (s : State) (b : Blaze) : Blaze :=
  { b with stn := s.get BZ_CFG_STN, seq := s.get BZ_SEQ_NEXT, run := s.get ID_RUN_RUN % 256, timeq := !s.locked, lim := s.blaze.lim.contains b.src, ord := false }

/-- Number a Blaze that is sent: count it in its grid second, take its SEQ and end its source's LIM (11 R277, R279). -/
def countBlaze (s : State) (b : Blaze) : State :=
  { s with blaze := { s.blaze with sec := s.second,
                                   counts := b.src :: (if s.blaze.sec = s.second then s.blaze.counts else []),
                                   lim := s.blaze.lim.filter (· != b.src) } }.set BZ_SEQ_NEXT (s.get BZ_SEQ_NEXT + 1)

/-- An own Blaze withheld by the rate limit (11 R279). -/
def withholdBlaze (s : State) (b : Blaze) : State :=
  ({ s with blaze := { s.blaze with lim := b.src :: s.blaze.lim.filter (· != b.src) } }.bump BZ_CNT_LIMITED 1).event BZ_EVT_LIMITED

/-- An own Blaze of a source other than 0x00 is over the limit of its grid second (11 R279). -/
def blazeLimited (s : State) (b : Blaze) : Bool := b.src != 0 && decide (s.get BZ_CFG_PERSEC ≤ blazeCount s b.src)

/-- Issue an own Blaze (11 R279, R280): withheld over the limit, else numbered and routed. -/
def issueBlaze (s : State) (b : Blaze) : State :=
  if blazeLimited s b then withholdBlaze s b
  else routeBlaze (countBlaze s b) (ownRoute s b.src) (stampBlaze s b)

/-- A system Blaze (11 R278) at local time; its second value is not stated: a free value (log entry 23). -/
def systemBlaze (s : State) (kind sev : Nat) (val0 : Int) : Blaze :=
  { src := 0, kind := kind, sev := sev, slot := 0xFF, t := s.now, val0 := val0, val1 := s.freeWord.1.toInt }

/-- Issue a system Blaze (11 R278 to R280). -/
def issueSystem (s : State) (kind sev : Nat) (val0 : Int) : State := issueBlaze s.freeWord.2 (systemBlaze s kind sev val0)

/-- The departure Blaze of 02 R57 and R61, ahead of all traffic on both ports (14 R345) and to the other four destinations; val0 1 supply loss, 2
twist-release. Without a line key no message is sent (14 R351). -/
def departureBlaze (s : State) (val0 : Int) : State :=
  let b := systemBlaze s 1 12 val0
  let s := s.freeWord.2
  let x := stampBlaze s b
  let s := routeBlaze (countBlaze s b) 15 x
  messageAhead s (blazeGroupHead s) (.departure x)

/-- BZ_CMD.POP (11 R280): remove the oldest FIFO entry. -/
def popBlaze (s : State) : State :=
  { s with blaze := { s.blaze with fifo := s.blaze.fifo.tail } }.set BZ_FIFOST_COUNT s.blaze.fifo.tail.length

/-- Byte k of a Blaze in the layout of 11 R277. -/
def Blaze.byte (b : Blaze) (k : Nat) : Nat :=
  let f (c : Bool) (n : Nat) : Nat := if c then 2 ^ n else 0
  let be (v first last : Nat) : Nat := v / 2 ^ (8 * (last - k)) % 256 + 0 * first
  if k = 0 then b.stn % 256
  else if k = 1 then b.src % 256
  else if k = 2 then b.kind % 256
  else if k = 3 then b.sev % 16 * 16 + f b.timeq 3 + f b.lim 2 + f b.ovr 1 + f b.ord 0
  else if k < 6 then be b.seq 4 5
  else if k = 6 then b.slot % 256
  else if k = 7 then b.run % 256
  else if k < 14 then be (timeSec b.t) 8 13
  else if k < 18 then be (timeNs b.t) 14 17
  else if k < 24 then be b.ssn 18 23
  else if k < 28 then be (twos b.val0 32) 24 27
  else be (twos b.val1 32) 28 31

/-- BZ_HEADw (11 R286): bytes 4w to 4w + 3 of the oldest Blaze, byte 4w in [31:24]; 0 when the FIFO is empty. -/
def blazeHead (s : State) (w : Nat) : Word :=
  match s.blaze.fifo with
  | [] => 0
  | b :: _ => BitVec.ofNat 32 (b.byte (4 * w) * 2 ^ 24 + b.byte (4 * w + 1) * 2 ^ 16 + b.byte (4 * w + 2) * 2 ^ 8 + b.byte (4 * w + 3))

/-- The peer entry that subscribes to a station: the lowest enabled one that names it (11 R282, R287). -/
def peerEntry (s : State) (stn : Nat) : Option Nat :=
  (List.range 32).find? fun p => s.bit (BZ_PEER_EN p) && s.get (BZ_PEER_STN p) == stn

/-- The order of the reorder stage: grid time, then station, then SEQ (11 R283). -/
def blazeBefore (a b : Blaze) : Bool :=
  decide (a.t < b.t) || (a.t == b.t && (decide (a.stn < b.stn) || (a.stn == b.stn && decide (a.seq < b.seq))))

/-- Put a Blaze into the reorder stage at its place. -/
def reorderPut (l : List Blaze) (b : Blaze) : List Blaze :=
  match l with
  | [] => [b]
  | c :: rest => if blazeBefore b c then b :: c :: rest else c :: reorderPut rest b

/-- Deliver a peer Blaze to the internal destinations enabled for peers, BZ_ROUTE bits [27:24] (11 R280, R283). -/
def deliverPeer (s : State) (b : Blaze) : State := routeBlaze s ((s.word 0x1301).toNat / 2 ^ 24 % 16) b

/-- Deliver every Blaze the reorder stage holds, in order (11 R283: at an accepted time step or initial set). -/
def flushReorder (s : State) : State :=
  s.blaze.reorder.foldl deliverPeer { s with blaze := { s.blaze with reorder := [] } }

/-- The loss count of 11 R282 for a Blaze accepted into entry p: the first of a station in the entry or of a RUN sets the newest SEQ; a newer one adds d - 1 to LOST; one
full wrap adds 65 535; a late one changes nothing. -/
def countPeer (s : State) (p : Nat) (b : Blaze) : State :=
  let d := (b.seq + 65536 - s.get (BZ_PSEQ_SEQ p)) % 65536
  let first := s.blaze.heard.toList.getD p none != some b.stn || s.get (BZ_PEER_RUN p) != b.run
  let s := { s with blaze := { s.blaze with heard := s.blaze.heard.set (Fin.ofNat 32 p) (some b.stn) } }
  if first then (s.set (BZ_PEER_RUN p) b.run).set (BZ_PSEQ_SEQ p) b.seq
  else if d = 0 then ((s.bump (BZ_PEER_LOST p) 65535).event BZ_EVT_PLOST).set (BZ_PSEQ_SEQ p) b.seq
  else if d < 32768 then
    ((s.bump (BZ_PEER_LOST p) (d - 1)).when (decide (1 < d)) (·.event BZ_EVT_PLOST)).set (BZ_PSEQ_SEQ p) b.seq
  else s

/-- The Blaze repeats RUN and SEQ of one accepted from its station within the last 2 s (11 R282). -/
def blazeDup (s : State) (b : Blaze) : Bool :=
  s.blaze.seen.any fun (stn, run, seq, at_) => stn == b.stn && run == b.run && seq == b.seq && decide (s.now < at_ + 16000000000)

/-- The reorder stage's delivery time of a Blaze (11 R283): grid time plus BZ_CFG.REORDER in 0.5 ms. -/
def dueAt (s : State) (b : Blaze) : Nat := b.t + s.get BZ_CFG_REORDER * 4000000

/-- Accept a peer Blaze of a subscribed station (11 R282, R283). -/
def acceptPeer (s : State) (p : Nat) (b : Blaze) : State :=
  let s := countPeer s p b
  let keep := s.blaze.seen.filter fun (_, _, _, at_) => decide (s.now < at_ + 16000000000)
  let s := { s with blaze := { s.blaze with seen := (b.stn, b.run, b.seq, s.now) :: keep } }
  if dueAt s b < s.now ∨ s.now + 8000000000 < b.t then
    deliverPeer ((s.bump BZ_CNT_LATE 1).event BZ_EVT_LATE) { b with ord := true }
  else { s with blaze := { s.blaze with reorder := reorderPut s.blaze.reorder b } }

/-- A peer Blaze out of an accepted message (11 R282): ignored when its station is not subscribed, counted when it is a duplicate. -/
def peerBlaze (s : State) (b : Blaze) : State :=
  match peerEntry s b.stn with
  | none => s
  | some p => if blazeDup s b then s.bump BZ_CNT_DUP 1 else acceptPeer s p b

/-- BZ_POP. -/
def execBzPop (door : Initiator) (s : State) : Host.Outcome State Fault Refusal :=
  .next (atDoor s door 0x1306 fun s => popBlaze s)

/-- BLAZE_MESSAGE_SEND (14 R361): every own Blaze queued for the ports, up to 16, in one message to the Blaze group, once the one before has been sent; without a
line key nothing is sent (14 R351). -/
def execBlazeMessageSend (s : State) : Host.Outcome State Fault Refusal :=
  .next (if s.alive && s.keys.lineKey.isSome && !s.blaze.out.isEmpty && !blazesBusy s then
      let s1 := message s bothPorts (blazeGroupHead s) (.blazes (s.blaze.out.take 16)) false
      { s1 with blaze := { s1.blaze with out := s1.blaze.out.drop 16 } }
    else s)

/-- PEER_BLAZE_DELIVER (11 R283): the first Blaze of the reorder stage is delivered once its time has come. -/
def execPeerBlazeDeliver (s : State) : Host.Outcome State Fault Refusal :=
  match s.blaze.reorder with
  | [] => .next s
  | b :: rest => .next (if s.alive && decide (dueAt s b ≤ s.now) then deliverPeer { s with blaze := { s.blaze with reorder := rest } } b else s)

end Sys2Proof.Machine
end

