-- ==== Sys2Proof/Machine/Deck.lean ====
section
/-!
DEFINITION. The Deck (10 R254 to R268): block accounting, rings and their anchors, captures, leases and their revocation, and the commands on them.
-/

namespace Sys2Proof.Machine

/-- Replace one ring. -/
def State.modRing (s : State) (i : Fin 16) (f : Ring → Ring) : State :=
  { s with deck := { s.deck with rings := s.deck.rings.set i (f s.deck.rings[i]) } }

/-- Replace one capture. -/
def State.modCap (s : State) (c : Fin 16) (f : Capture → Capture) : State :=
  { s with deck := { s.deck with caps := s.deck.caps.set c (f s.deck.caps[c]) } }

/-- Replace what a lease's registers do not show. -/
def State.modLease (s : State) (l : Fin 32) (f : LeaseInfo → LeaseInfo) : State :=
  { s with deck := { s.deck with leases := s.deck.leases.set l (f s.deck.leases[l]) } }

/-- The number of blocks in a list of runs. -/
def runBlocks (l : List (Nat × Nat)) : Nat := (l.map (·.2)).sum

/-- The k-th block of a list of runs, and the runs without it. -/
def pickBlock (l : List (Nat × Nat)) (k : Nat) : Nat × List (Nat × Nat) :=
  match l with
  | [] => (0, [])
  | (b, n) :: l =>
    if k < n then (b + k, ((if k = 0 then [] else [(b, k)]) ++ if k + 1 = n then [] else [(b + k + 1, n - k - 1)]) ++ l)
    else ((pickBlock l (k - n)).1, (b, n) :: (pickBlock l (k - n)).2)

/-- The free blocks of the Mill's world (10 R254). -/
def deckFree (s : State) : Nat := runBlocks s.deck.free

/-- Blocks return to free (10 R255). -/
def State.giveBlocks (s : State) (l : List Block) : State := { s with deck := { s.deck with free := l.map (fun b => (b.idx, 1)) ++ s.deck.free } }

/-- A free block leaves the pool; which one is not stated: a free value (log entry 116). -/
def State.takeBlock (s : State) : Nat × State :=
  let p := pickBlock s.deck.free (s.freeWord.1.toNat % deckFree s)
  (p.1, { s.freeWord.2 with deck := { s.deck with free := p.2 } })

/-- The DRAM byte offset of a block (10 R254). -/
def Block.offset (b : Block) : Nat := 4096 * b.idx

/-- The region of a block (10 R254). -/
def Block.region (b : Block) : Nat := b.idx / 2048

/-- The number of records in a block (10 R254). -/
def Block.n (b : Block) : Nat := b.recs.length

/-- The number of records in a Landing chunk (10 R248). -/
def Chunk.n (c : Chunk) : Nat := c.recs.length

/-- Blocks held by rings and captures (10 R255). -/
def deckHeld (s : State) : Nat :=
  (s.deck.rings.toList.map fun r => r.held.length).sum + (s.deck.caps.toList.map fun c => c.blocks.length).sum

/-- Blocks in flight (10 R255). -/
def deckFlight (s : State) : Nat := (s.deck.rings.toList.filter fun r => r.flight.isSome).length

/-- Show the block counts (10 R265): DK_ACC while the Deck controller is released. -/
def showAcc (s : State) : State :=
  if s.bit DK_ST_ON then
    (((s.set DK_ACC_FREE (deckFree s + s.deck.idle)).set DK_ACC_HELD (deckHeld s)).set DK_ACC_FLIGHT (deckFlight s))
  else s

/-- Show a ring's blocks, held or in flight (10 R267). -/
def showRing (s : State) (i : Fin 16) : State :=
  showAcc (s.set (DK_RING_BLOCKS i) (s.deck.rings[i].held.length + (if s.deck.rings[i].flight.isSome then 1 else 0)))

/-- Show a capture's blocks (10 R267). -/
def showCap (s : State) (c : Fin 16) : State := showAcc (s.set (DK_CAP_BLOCKS c) s.deck.caps[c].blocks.length)

/-- The definition is collecting (10 R267: STATE 1). -/
def collecting (s : State) (c : Fin 16) : Bool := s.get (DK_CAP_STATE c) == 1

/-- The collecting captures that cover a slot, lowest first. -/
def collectingOn (s : State) (i : Fin 16) : List (Fin 16) :=
  (List.finRange 16).filter fun c => collecting s c && s.deck.caps[c].mask.testBit i

/-- The one of some captures that was triggered first (10 R266), the lowest of one tick. -/
def firstTriggered (s : State) (l : List (Fin 16)) : Option (Fin 16) :=
  l.foldl (fun b c => match b with
    | none => some c
    | some d => if s.deck.caps[c].since < s.deck.caps[d].since then some c else some d) none

/-- The blocks reserved for captures (10 R260). -/
def deckReserved (s : State) : Nat := (s.deck.caps.toList.map (·.reserve)).sum

/-- The leases on a capture (TGT 0) or a ring (TGT 1), lowest first (10 R262). -/
def leasesOn (s : State) (tgt idx : Nat) : List (Fin 32) :=
  (List.finRange 32).filter fun l => s.get (LS_KIND l) != 0 && s.get (LS_TGT l) == tgt && s.get (LS_IDX l) == idx

/-- The lease of a ring that covers a block, if any. -/
def blockLease (s : State) (i : Fin 16) (b : Block) : Option (Fin 32) :=
  (leasesOn s 1 i).find? fun l => decide (s.deck.leases[l].first ≤ b.ssn) && decide (b.ssn ≤ s.deck.leases[l].last)

/-- Release a held capture (10 R261): its blocks return to free. -/
def releaseCapture (s : State) (c : Fin 16) : State :=
  showCap (((s.giveBlocks (s.deck.caps[c].blocks.map (·.2))).modCap c fun k => { k with blocks := [], slots := [], reserve := 0 }).set
    (DK_CAP_STATE c) 0) c

/-- The records of a capture's blocks. -/
def captureRecords (k : Capture) : Nat := (k.blocks.map fun p => p.2.n).sum

/-- A capture's blocks in the order of its chunks (14 R366): by slot, and within a slot by SSN. -/
def chunkBlocks (k : Capture) : List (Nat × Block) := (List.range 16).flatMap fun i => k.blocks.filter fun p => p.1 == i

/-- The records of chunks n and later of a capture: a block is four chunks of up to 256 records (14 R368). -/
def recordsFrom (k : Capture) (n : Nat) : Nat :=
  ((List.range k.blocks.length).map fun j =>
    match (chunkBlocks k)[j]? with
    | none => 0
    | some (_, b) => b.n - min b.n (256 * (n - min n (4 * j)))).sum

/-- End a capture session with a reason (14 R370): the end message to its host, and no credit left. -/
def endSession (s : State) (x : Session) (why : Nat) : State :=
  let left := recordsFrom (s.deck.caps.toList.getD x.c {}) x.ack
  let s := { s with net := { s.net with sessions := s.net.sessions.filter (fun y => y.sid != x.sid), left := s.net.left.set (Fin.ofNat 16 x.c) left } }
  ((message s (hostPorts s x.host bothPorts) (hostHead s x.host) (.capEnd x.sid x.c why x.ack left) false).set (CY_CAP_STATE x.c) 2).set (CY_CAP_OUT x.c) 0

/-- Clear a lease table entry (10 R262). -/
def clearLease (s : State) (l : Fin 32) : State := (s.setWord (0x1180 + l) 0).modLease l fun _ => {}

/-- After a lease on a capture ended: the capture is held but no longer leased, unless another lease names it. -/
def unleaseCapture (s : State) (c : Nat) : State :=
  if (leasesOn s 0 c).isEmpty && s.get (DK_CAP_STATE c) == 3 then s.set (DK_CAP_STATE c) 2 else s

/-- Return to free the ring's oldest unleased blocks while it holds more than its size, the block in flight counted (10 R256); at most n. -/
def trimRing (s : State) (i : Fin 16) (n : Nat) : State :=
  match n with
  | 0 => s
  | n + 1 =>
    if s.deck.rings[i].held.length + (if s.deck.rings[i].flight.isSome then 1 else 0) ≤ s.deck.rings[i].size then s
    else match s.deck.rings[i].held.find? fun b => (blockLease s i b).isNone with
      | none => s
      | some b => trimRing ((s.modRing i fun r => { r with held := r.held.erase b }).giveBlocks [b]) i n

/-- A ring returns every unleased block beyond its size (10 R256). -/
def trimAll (s : State) (i : Fin 16) : State := trimRing s i s.deck.rings[i].held.length

/-- A ring whose lease ended may recycle the span's blocks again (10 R256, R263). -/
def unleaseRing (s : State) (i : Nat) : State := if h : i < 16 then showRing (trimAll s ⟨i, h⟩) ⟨i, h⟩ else s

/-- Release a lease without a revocation count: closed by its holder. -/
def closeLease (s : State) (l : Fin 32) : State :=
  let tgt := s.get (LS_TGT l)
  let idx := s.get (LS_IDX l)
  let s := clearLease s l
  if tgt = 0 then unleaseCapture s idx else unleaseRing s idx

/-- The session that holds a lease. -/
def leaseSession (s : State) (l : Nat) : Option Session := s.net.sessions.find? fun x => x.lease == l

/-- The holder of a revoked lease is told (10 R263): an internal one by its interrupt source (18 R446), a network one by the end message (14 R370, WHY 1). -/
def tellHolder (s : State) (l : Fin 32) : State :=
  match leaseSession s l with
  | none => if s.get (LS_KIND l) = 1 then s.pulse (20 + s.get (LS_HOLDER l)) else s
  | some x => endSession (withdrawFrames s fun p => p.isChunk && p.chunkSid == x.sid) x 1

/-- A revocation counts, with the records that its holder had not received (10 R263). -/
def countRevoke (s : State) (lost : Nat) : State := ((s.bump DK_REVREC_RECS lost).event DK_EVT_REVOKE).bump DK_CNT_REVCNT 1

/-- Revoke a lease (10 R263): its holder is told, and a capture is released. -/
def revokeLease (s : State) (l : Fin 32) : State :=
  let tgt := s.get (LS_TGT l)
  let idx := s.get (LS_IDX l)
  let lost := s.deck.leases[l].total - s.deck.leases[l].got
  let s := countRevoke (clearLease (tellHolder s l) l) lost
  if tgt = 0 then (if h : idx < 16 then releaseCapture s ⟨idx, h⟩ else s) else unleaseRing s idx

/-- Take a free block for a ring (10 R256, R260): first from the reserve of a collecting capture of the slot, else from the unreserved blocks. -/
def takeFree (s : State) (i : Fin 16) : Option (Nat × State) :=
  if deckFree s = 0 then none
  else match firstTriggered s ((collectingOn s i).filter fun c => decide (0 < s.deck.caps[c].reserve)) with
    | some c => some (s.takeBlock.1, s.takeBlock.2.modCap c fun k => { k with reserve := k.reserve - 1 })
    | none => if deckReserved s < deckFree s then some s.takeBlock else none

/-- Block b begins to be filled by the ring of slot i. -/
def beginBlock (s : State) (i : Fin 16) (b : Nat) : State := s.modRing i fun r => { r with flight := some { idx := b } }

/-- The ring's oldest block becomes the one in flight. -/
def reuseOldest (s : State) (i : Fin 16) : State :=
  match s.deck.rings[i].held with
  | [] => s
  | b :: rest => beginBlock (s.modRing i fun r => { r with held := rest }) i b.idx

/-- A ring that has no free block takes its own oldest block; when that is leased, its lease is revoked at once (10 R264), which may have freed a block. -/
def recycleBlock (s : State) (i : Fin 16) : State :=
  match s.deck.rings[i].held.head?.bind (blockLease s i) with
  | none => reuseOldest s i
  | some l =>
    let s := revokeLease s l
    match takeFree s i with
    | some (n, s) => beginBlock s i n
    | none => reuseOldest s i

/-- A new block in flight for a ring that has none (10 R256, R264). -/
def newFlight (s : State) (i : Fin 16) : State :=
  match takeFree s i with
  | some (b, s) => trimAll (beginBlock s i b) i
  | none => recycleBlock s i

/-- The grid time of a block's last record, time-step records aside. -/
def Block.lastT (b : Block) : Nat := b.t + (b.n - (if b.step then 2 else 1)) * interval b.rate

/-- A block holds a record inside a window (10 R260). -/
def blockInside (b : Block) (from_ to_ : Nat) : Bool := decide (0 < b.n) && decide (from_ ≤ b.lastT) && decide (b.t < to_)

/-- The capture becomes held (10 R260): what it reserved and did not use returns to the unreserved blocks. -/
def captureHeld (s : State) (c : Fin 16) : State :=
  showCap (((s.modCap c fun k => { k with slots := [], reserve := 0, waitT := false }).set (DK_CAP_STATE c) 2).event DK_EVT_CAPDONE) c

/-- The capture's window block of a slot has closed; with the last one the capture is held (10 R260). -/
def slotWindowDone (s : State) (c i : Fin 16) : State :=
  let s := s.modCap c fun k => { k with slots := k.slots.filter (· != i.val) }
  if collecting s c && s.deck.caps[c].slots.isEmpty && !s.deck.caps[c].waitT then captureHeld s c else s

/-- Hand a closed block to the capture of its slot that was triggered first of those whose window it holds a record of, else to the ring (10 R256, R260, R266). -/
def placeBlock (s : State) (i : Fin 16) (b : Block) : State :=
  match firstTriggered s ((collectingOn s i).filter fun c => !s.deck.caps[c].waitT && s.deck.caps[c].slots.contains i.val &&
      blockInside b s.deck.caps[c].from_ s.deck.caps[c].to_) with
  | some c => showCap (s.modCap c fun k => { k with blocks := k.blocks ++ [(i.val, b)] }) c
  | none => s.modRing i fun r => { r with held := r.held ++ [b] }

/-- After a block of slot i that reaches to grid time t closed: every collecting capture whose window ends there is done with the slot (10 R260). -/
def windowsPassed (s : State) (i : Fin 16) (b : Block) : State :=
  (collectingOn s i).foldl (fun s (c : Fin 16) =>
    if !s.deck.caps[c].waitT && s.deck.caps[c].slots.contains i.val && decide (s.deck.caps[c].to_ ≤ b.lastT + interval b.rate)
    then slotWindowDone s c i else s) s

/-- Close a ring's block in flight if it holds a record, and take a new one (10 R256). -/
def closeFlight (s : State) (i : Fin 16) : State :=
  match s.deck.rings[i].flight with
  | none => s
  | some b =>
    if b.n = 0 then s
    else
      let s := placeBlock (s.modRing i fun r => { r with flight := none, closed := r.closed + 1 }) i b
      showRing (windowsPassed (newFlight s i) i b) i

/-- Write an anchor for the block that begins (10 R257); before a ninth, the blocks before the second-oldest anchor return to free. -/
def addAnchor (s : State) (i : Fin 16) (a : Anchor) : State :=
  match s.deck.rings[i].anchors with
  | _ :: snd :: _ =>
    if s.deck.rings[i].anchors.length < 8 then s.modRing i fun r => { r with anchors := r.anchors ++ [a], needAnchor := false }
    else
      (s.giveBlocks (s.deck.rings[i].held.filter fun b => decide (b.ssn < snd.ssn))).modRing i fun r =>
        { r with held := r.held.filter fun b => decide (snd.ssn ≤ b.ssn), anchors := r.anchors.tail ++ [a], needAnchor := false }
  | _ => s.modRing i fun r => { r with anchors := r.anchors ++ [a], needAnchor := false }

/-- A block in flight with room: a full one closes (10 R256), and a ring that found no block before looks for one again. -/
def roomInFlight (s : State) (i : Fin 16) : State :=
  match s.deck.rings[i].flight with
  | none => if s.deck.rings[i].size = 0 then s else showRing (newFlight s i) i
  | some b => if 1024 ≤ b.n then closeFlight s i else s

/-- Put a grid record of a slot into its ring: its SSN, its grid time and its rate code (10 R256, R257). -/
def ringPut (s : State) (i : Fin 16) (rate ssn t : Nat) (w : Word) : State :=
  let s := roomInFlight s i
  match s.deck.rings[i].flight with
  | none => s
  | some b =>
    if b.n = 0 then
      let mark := s.deck.rings[i].needAnchor
      let s := if mark then showRing (addAnchor s i ⟨b.idx, ssn, t, rate⟩) i else s
      s.modRing i fun r => { r with flight := some { b with ssn := ssn, t := t, rate := rate, recs := [w], anchored := mark } }
    else s.modRing i fun r => { r with flight := some { b with recs := b.recs ++ [w] } }

/-- Close a ring's block and begin the next with an anchor: a rate change, a disable or a detachment of the Deck writer (10 R256, R257). -/
def ringCut (s : State) (i : Fin 16) : State := (closeFlight s i).modRing i fun r => { r with needAnchor := true }

/-- Put a time-step record into a slot's ring: it is its block's last record, and the next block begins with an anchor (10 R256, R257). -/
def ringStep (s : State) (i : Fin 16) (rate ssn : Nat) (w : Word) : State :=
  ringCut ((roomInFlight s i).modRing i fun r =>
    { r with flight := r.flight.map fun b =>
        if b.n = 0 then { b with ssn := ssn, rate := rate, recs := [w], step := true } else { b with recs := b.recs ++ [w], step := true } }) i

/-- A grid record does not follow the ring's newest anchor (10 R257): the rate code changed, or its grid time is not the one the anchor gives. -/
def ringBreaks (r : Ring) (rate ssn t : Nat) : Bool :=
  match r.anchors.getLast? with
  | none => false
  | some a => a.rate != rate || a.t + (ssn - a.ssn) * interval rate != t

/-- A window of a collecting capture of slot i ends before the record at grid time t, and the block in flight holds a record inside it (10 R260). -/
def windowEnds (s : State) (i : Fin 16) (t : Nat) : Bool :=
  (collectingOn s i).any fun c => !s.deck.caps[c].waitT && s.deck.caps[c].slots.contains i.val && decide (s.deck.caps[c].to_ ≤ t) &&
    s.deck.rings[i].flight.any fun b => blockInside b s.deck.caps[c].from_ s.deck.caps[c].to_

/-- The Deck writer takes the record with SSN ssn of slot i (10 R249, R256, R257): a rate change, or a boundary at which the slot was disabled meanwhile, closes
the block before it, and so does the end of a capture window (R260). -/
def ringRecord (s : State) (i : Fin 16) (ssn : Nat) (r : Landed) : State :=
  match r.t with
  | none => ringStep s i r.rate ssn r.w
  | some t =>
    let s := if ringBreaks s.deck.rings[i] r.rate ssn t then ringCut s i else s
    ringPut (if windowEnds s i t then closeFlight s i else s) i r.rate ssn t r.w

/-- End collection at once (10 R261, R268): the blocks collected so far are held. -/
def endCollection (s : State) (c : Fin 16) (step : Bool) : State :=
  if collecting s c then captureHeld (if step then s.set (DK_CAP_STEP c) 1 else s) c else s

/-- Collection ends for every capture with a captured slot that queued a time-step record (10 R261). -/
def stepCaptures (s : State) (slots : List Nat) : State :=
  (List.finRange 16).foldl (fun s (c : Fin 16) =>
    if slots.any fun i => s.deck.caps[c].mask.testBit i then endCollection s c true else s) s

/-- The captured slots a definition names. -/
def capSlots (s : State) (c : Fin 16) : List (Fin 16) := (List.finRange 16).filter fun i => (s.get (DK_CAP_SLOTS c)).testBit i

/-- The captured slots of the capture in progress: DK_CAPc.SLOTS as it stood at the trigger (10 R268). -/
def takenSlots (s : State) (c : Fin 16) : List (Fin 16) := (List.finRange 16).filter fun i => s.deck.caps[c].mask.testBit i

/-- The records of 1/1 024 of a second, in steps of 0.1 s, that a slot delivers: blocks for d tenths of a second (10 R260, reason 5). -/
def blocksFor (s : State) (i : Fin 16) (d : Nat) : Nat := ceilDiv (d * fs1024 s.slots[i].rate) (10 * 1024 * 1024)

/-- The blocks a capture reserves (10 R260, reason 5). -/
def capNeed (s : State) (c : Fin 16) : Nat := ((capSlots s c).map fun i => blocksFor s i (s.get (DK_CAP_POST c)) + 1).sum

/-- Within the hold-off of the previous admitted trigger (10 R260, reason 2). -/
def inHoldoff (s : State) (c : Fin 16) (tb : Nat) : Bool :=
  match s.deck.caps[c].lastTrig with
  | none => false
  | some t => decide (tb < t + s.get (DK_CAP_HOLDOFF c) * 80000000)

/-- Why a trigger at grid time tb is refused, 0 when it is admitted (10 R260). The free blocks of reason 5 count the reserved ones, which stay free. -/
def capRefusal (s : State) (c : Fin 16) (tb : Nat) : Nat :=
  if !s.bit DK_ST_ON then 1
  else if inHoldoff s c tb then 2
  else if collecting s c then 3
  else if s.get (DK_CAP_STATE c) = 3 ∨ (s.get (DK_CAP_STATE c) = 2 ∧ !s.bit (DK_CAP_REPLACE c)) then 4
  else if deckFree s < capNeed s c then 5
  else if (capSlots s c).any fun i => s.deck.rings[i].size == 0 then 6
  else 0

/-- Refuse a trigger (10 R260). -/
def refuseCapture (s : State) (c : Fin 16) (why : Nat) : State := ((s.set (DK_CAP_REF c) why).event DK_EVT_CAPREF).bump DK_CNT_CAPREF 1

/-- The ring holds no record at or before grid time t (10 R260: SHORT). -/
def ringShort (r : Ring) (t : Nat) : Bool :=
  !(r.held.any fun b => decide (b.t ≤ t)) && !(match r.flight with | none => false | some b => decide (0 < b.n) && decide (b.t ≤ t))

/-- Another capture holds a block of slot i with a record at or after grid time t (10 R266). -/
def takenBefore (s : State) (c i : Fin 16) (t : Nat) : Bool :=
  (List.finRange 16).any fun d => d != c && s.deck.caps[d].blocks.any fun p => p.1 == i.val && decide (t ≤ p.2.lastT)

/-- Move a captured ring's held blocks with a record at or after the window's start to the capture, and close its block in flight when the window has
already passed (10 R260). A window that reaches back into the blocks of another capture is SHORT (R266). -/
def collectSlot (s : State) (c i : Fin 16) : State :=
  let k := s.deck.caps[c]
  let r := s.deck.rings[i]
  let s := if ringShort r k.from_ || takenBefore s c i k.from_ then s.set (DK_CAP_SHORT c) 1 else s
  let (mine, keep) := r.held.partition fun b => decide (k.from_ ≤ b.lastT)
  let s := (s.modRing i fun r => { r with held := keep }).modCap c fun k => { k with blocks := k.blocks ++ mine.map fun b => (i.val, b) }
  let newest := match r.flight with
    | some b => if 0 < b.n then some b else r.held.getLast?
    | none => r.held.getLast?
  let s := match newest with
    | none => s
    | some b =>
      if k.to_ ≤ b.lastT + interval b.rate then
        let s := match s.deck.rings[i].flight with
          | some f => if blockInside f k.from_ k.to_ then closeFlight s i else s
          | none => s
        slotWindowDone s c i
      else s
  showRing s i

/-- Open a capture's window at Tb and collect (10 R259, R260). -/
def openWindow (s : State) (c : Fin 16) (tb : Nat) : State :=
  let s := s.modCap c fun k =>
    { k with tb := tb, from_ := tb - k.pre * 800000000, to_ := tb + k.post * 800000000, waitT := false }
  let s := (takenSlots s c).foldl (fun s i => collectSlot s c i) s
  let s := if collecting s c && s.deck.caps[c].slots.isEmpty then captureHeld s c else s
  showCap s c

/-- Admit a trigger (10 R260): release a held capture, reserve, and begin to collect; a window whose Tb is not known yet waits for it. -/
def admitCapture (s : State) (c : Fin 16) (now : Nat) (tb : Option Nat) : State :=
  let s := if s.get (DK_CAP_STATE c) = 2 then releaseCapture s c else s
  let s := ((s.set (DK_CAP_STATE c) 1).set (DK_CAP_SHORT c) 0).set (DK_CAP_STEP c) 0
  let s := s.modCap c fun _ =>
    { slots := (capSlots s c).map (·.val), reserve := capNeed s c, waitT := tb.isNone, lastTrig := some now,
      mask := s.get (DK_CAP_SLOTS c), pre := s.get (DK_CAP_PRE c), post := s.get (DK_CAP_POST c), auto := s.bit (DK_CAP_AUTOREL c),
      since := s.pwr.ticks }
  match tb with
  | none => if (capSlots s c).isEmpty then captureHeld s c else s
  | some t => openWindow s c t

/-- Trigger definition c (10 R259, R260). -/
def triggerCapture (s : State) (c : Fin 16) (now : Nat) (tb : Option Nat) : State :=
  let why := capRefusal s c now
  if why = 0 then admitCapture s c now tb else refuseCapture s c why

/-- A grid record of slot i at grid time t was queued: a command trigger that waits for it has its Tb (10 R259). -/
def startWaiting (s : State) (i : Fin 16) (t : Nat) : State :=
  (List.finRange 16).foldl (fun s (c : Fin 16) =>
    if s.deck.caps[c].waitT && (takenSlots s c).head? == some i then openWindow s c t else s) s

/-- The release by DK_CMD.REL of a held capture that is not leased (10 R261, R266). -/
def relCapture (s : State) (c : Fin 16) : State := if s.get (DK_CAP_STATE c) = 2 then releaseCapture s c else s

/-- Blocks of a ring for n seconds: B (10 R256). -/
def ringBlocks (s : State) (i : Fin 16) : Nat :=
  if s.get (DK_RING_SEC i) = 0 then 0 else blocksFor s i (10 * s.get (DK_RING_SEC i)) + 1

/-- The regions of the Mill's world (10 R254, 17 R432): region g holds blocks 2 048g to 2 048g + 2 047. -/
def millRegions (s : State) : List Nat :=
  (List.range 16).filter fun g => (s.get WK_MAPD_DECK).testBit g == (s.get WK_MAPB_BLOCKS).testBit 0

/-- Size the rings (10 R258): refused for the Mill's world when they exceed its blocks less 1 024, and then 2 blocks each. -/
def sizeRings (s : State) : State :=
  let blocks := 2048 * (millRegions s).length
  let want := ((List.finRange 16).map fun i => ringBlocks s i).sum
  let fits := decide (want + 1024 ≤ blocks)
  let size (i : Fin 16) : Nat := if fits then ringBlocks s i else if ringBlocks s i = 0 then 0 else 2
  let s := { s with deck := { s.deck with free := (millRegions s).map fun g => (2048 * g, 2048), idle := 32768 - blocks,
                                          rings := Vector.ofFn fun i => { size := size i } } }
  let s := if fits then s.set DK_ST_SIZEDEF 0
    else ((s.set DK_ST_SIZEDEF 1).event DK_EVT_SIZEREJ).log (.refusal 258)
  s

/-- Every sized ring takes its first block in flight. -/
def startRings (s : State) : State :=
  (List.finRange 16).foldl (fun s i =>
    if s.deck.rings[i].size = 0 then s else showRing (newFlight s i) i) s

/-- The Deck loses its contents: WORK goes off (10 R261, R262, R266). Captures and leases end without revocation counts; a
hold-off runs on (R260). -/
def clearDeck (s : State) : State :=
  let s := { s with deck := { s.deck with free := [], idle := 0, rings := Vector.replicate 16 {}, caps := s.deck.caps.map fun k => { lastTrig := k.lastTrig },
                                          leases := Vector.replicate 32 {}, downReq := false } }
  let s := (List.range 16).foldl (fun s c => (s.set (DK_CAP_STATE c) 0).set (DK_CAP_BLOCKS c) 0) s
  (List.range 16).foldl (fun s i => s.set (DK_RING_BLOCKS i) 0) s

/-- Take the lowest free lease entry (10 R262), or refuse and count: table full, WSTATE not 2, a WORK power-down requested. -/
def takeLease (s : State) : Option (Fin 32) :=
  if s.get ID_DOMST_WSTATE = 2 ∧ s.deck.downReq = false then (List.finRange 32).find? fun l => s.get (LS_KIND l) == 0 else none

/-- Enter a lease: kind 1 internal for 200 ms or 2 network for 2 s (10 R262). -/
def grantLease (s : State) (l : Fin 32) (kind holder tgt idx : Nat) (info : LeaseInfo) : State :=
  ((((((s.set (LS_KIND l) kind).set (LS_HOLDER l) holder).set (LS_TGT l) tgt).set (LS_IDX l) idx).set (LS_REMMS l)
    (if kind = 1 then 200 else 2000)).modLease l fun _ => info)

/-- Renew a lease (10 R262): after a power-down request not beyond 2 s from the request. -/
def renewLease (s : State) (l : Fin 32) : State :=
  let full := if s.get (LS_KIND l) = 1 then 200 else 2000
  let left := match s.deck.leases[l].cap with
    | none => full
    | some m => min full m
  s.set (LS_REMMS l) left

/-- A holder's code in LS_l.HOLDER (10 R267). -/
def holderCode (p : Proc) : Nat :=
  match p with
  | .ana0 => 0
  | .ana1 => 1
  | .user => 2
  | .sup | .net => 3

/-- Lease a capture for a holder: 2 refused. -/
def leaseCapture (s : State) (holder kind : Nat) (c : Fin 16) : State :=
  match takeLease s with
  | none => s.bump DK_CNT_LSREF 1
  | some l =>
    let k := s.deck.caps[c]
    (grantLease s l kind holder 0 c { total := captureRecords k }).set (DK_CAP_STATE c) 3

/-- A lease on a span of a ring's held blocks: its entry, none when there is no such block, and what is left of the request (10 R262). -/
def leaseSpan (s : State) (holder kind : Nat) (i : Fin 16) (held : List Block) : Option (Fin 32 × State) :=
  match held.head?, held.getLast?, takeLease s with
  | some a, some z, some l => some (l, grantLease s l kind holder 1 i { first := a.ssn, last := z.ssn, total := (held.map (·.n)).sum })
  | _, _, _ => none

/-- The held blocks of a ring that hold an SSN from first to last. -/
def spanBlocks (s : State) (i : Fin 16) (first last : Nat) : List Block :=
  s.deck.rings[i].held.filter fun b => decide (b.ssn ≤ last) && decide (first < b.ssn + b.n)

/-- Lease a span of a ring's held blocks for a holder; a span without a held block is refused too (DESIGN CHOICE, log entry 116). -/
def leaseRing (s : State) (holder kind : Nat) (i : Fin 16) (first last : Nat) : State :=
  match leaseSpan s holder kind i (spanBlocks s i first last) with
  | some (_, s) => s
  | none => s.bump DK_CNT_LSREF 1

/-- The blocks of slot i that a lease covers. -/
def leasedBlocks (s : State) (l : Fin 32) (i : Nat) : List Block :=
  let idx := s.get (LS_IDX l)
  if s.get (LS_TGT l) = 0 then (s.deck.caps.toList.getD idx {}).blocks.filterMap fun p => if p.1 = i then some p.2 else none
  else if i = idx then
    (s.deck.rings.toList.getD idx {}).held.filter fun b => decide (s.deck.leases[l].first ≤ b.ssn) && decide (b.ssn ≤ s.deck.leases[l].last)
  else []

/-- The SSNs from first on, n of them, that a block holds. -/
def Block.within (b : Block) (first n : Nat) : List Nat :=
  ((List.range b.n).map (b.ssn + ·)).filter fun x => decide (first ≤ x) && decide (x < first + n)

/-- The records of slot i with SSN first to first + n - 1 that a lease covers. -/
def leasedRecords (s : State) (l : Fin 32) (i first n : Nat) : List Word :=
  (leasedBlocks s l i).flatMap fun b => (b.recs.take (first + n - b.ssn)).drop (first - b.ssn)

/-- A holder's read of a leased block renews the lease, and its holder has received what it had not (10 R262, R263). -/
def noteRead (s : State) (l : Fin 32) (i first n : Nat) : State :=
  let new := ((leasedBlocks s l i).flatMap fun b => b.within first n).filter fun x =>
    !(s.deck.leases[l].seen.any fun p => p.1 == i && decide (p.2.1 ≤ x) && decide (x < p.2.2))
  (renewLease s l).modLease l fun x => { x with got := x.got + new.length, seen := (i, first, first + n) :: x.seen }

/-- An internal holder has the lease. -/
def holdsLease (s : State) (l : Fin 32) (holder : Nat) : Bool := s.get (LS_KIND l) == 1 && s.get (LS_HOLDER l) == holder

/-- One lease as ms pass (10 R262, R263): its remaining time falls, and it is revoked when it has expired. -/
def ageLease (s : State) (ms : Nat) (l : Fin 32) : State :=
  if s.get (LS_KIND l) = 0 then s
  else
    let s := s.modLease l fun i => { i with cap := i.cap.map (· - ms) }
    if s.get (LS_REMMS l) ≤ ms then revokeLease s l else s.set (LS_REMMS l) (s.get (LS_REMMS l) - ms)

/-- A WORK power-down has been requested (10 R262): no new lease, and no renewal beyond 2 s. -/
def requestDown (s : State) : State :=
  { s with deck := { s.deck with downReq := true, leases := s.deck.leases.map fun i => { i with cap := some 2000 } } }

/-- DECK_BLOCK_CLOSE (10 R256): a full block in flight closes. -/
def execDeckBlockClose (slot : Fin 16) (s : State) : Host.Outcome State Fault Refusal :=
  .next (match s.deck.rings[slot].flight with
    | none => s
    | some b => if s.alive ∧ 1024 ≤ b.n then closeFlight s slot else s)

/-- The definition's oldest waiting trigger has been evaluated. -/
def dropTrigger (s : State) (p : Nat × Blaze) : State := { s with blaze := { s.blaze with caps := s.blaze.caps.erase p } }

/-- CAPTURE_TRIGGER (10 R259, R260): the oldest Blaze routed to the captures that matches the definition triggers it. -/
def execCaptureTrigger (c : Fin 16) (s : State) : Host.Outcome State Fault Refusal :=
  .next (match s.blaze.caps.find? fun p => p.1 == c.val with
    | none => s
    | some p => if s.live then (if s.bit (DK_CAP_EN c) then triggerCapture (dropTrigger s p) c p.2.t (some p.2.t) else dropTrigger s p) else s)

/-- CAPTURE_TRIG_CMD (10 R259): bit c of DK_CMD.TRIG; Tb is the grid time of the lowest captured slot's next record. -/
def execCaptureTrigCmd (door : Initiator) (c : Fin 16) (s : State) : Host.Outcome State Fault Refusal :=
  .next (atDoor s door 0x1136 fun s => if s.bit (DK_CAP_EN c) then triggerCapture s c s.now none else s)

/-- CAPTURE_RELEASE_CMD (10 R261): bit c of DK_CMD.REL. -/
def execCaptureReleaseCmd (door : Initiator) (c : Fin 16) (s : State) : Host.Outcome State Fault Refusal :=
  .next (atDoor s door 0x1136 fun s => relCapture s c)

/-- Every record of slot i before the end of capture c's window has been queued and taken by the Deck writer: the slot's next one is not before it, or the slot has none. -/
def windowOver (s : State) (c i : Fin 16) : Bool :=
  decide (s.deck.caps[c].to_ ≤ s.now) && (s.slots[i].nextT.all fun t => decide (s.deck.caps[c].to_ ≤ t)) &&
    (!(s.get (LD_ATT_ATT i)).testBit 0 || s.deck.land[i].next[0] == s.slots[i].queued)

/-- A captured ring closes its block in flight at the end of the window (10 R260). -/
def endWindow (s : State) (c i : Fin 16) : State :=
  if collecting s c && s.deck.caps[c].slots.contains i.val && windowOver s c i then slotWindowDone (closeFlight s i) c i else s

/-- CAPTURE_WINDOW_END (10 R260): every captured ring whose records reach the end of the window closes its block in flight into the capture; with the last one the capture
is held. -/
def execCaptureWindowEnd (c : Fin 16) (s : State) : Host.Outcome State Fault Refusal :=
  .next (if s.alive && collecting s c && !s.deck.caps[c].waitT then (takenSlots s c).foldl (fun s i => endWindow s c i) s else s)

/-- The accepted fields of a DK_CAPc word: PRE and POST up to 600, larger values ignored (10 R267). -/
def dkCapValue (s : State) (c : Fin 16) (w : Fin 3) (v : Word) : Word :=
  let a := 0x1140 + 4 * c.val + w.val
  if w = 0 then v &&& 0xFFFFE000
  else if w = 1 then v &&& 0xFFFFFFF0
  else
    let old := s.word a
    let pre := if getBits v 22 10 ≤ 600 then getBits v 22 10 else getBits old 22 10
    let post := if getBits v 12 10 ≤ 600 then getBits v 12 10 else getBits old 12 10
    BitVec.ofNat 32 (pre * 2 ^ 22 + post * 2 ^ 12 + getBits v 0 12)

/-- The effect of a write to a DK_CAPc word (10 R267, R268): stored; EN = 0 ends collection at once. -/
def writeDkCap (s : State) (c : Fin 16) (w : Fin 3) (v : Word) : State :=
  let s := s.setWord (0x1140 + 4 * c.val + w.val) (dkCapValue s c w v)
  if s.bit (DK_CAP_EN c) then s else endCollection s c false

/-- DK_CAP_WRITE. -/
def execDkCapWrite (door : Initiator) (c : Fin 16) (w : Fin 3) (v : Word) (s : State) : Host.Outcome State Fault Refusal :=
  .next (atDoor s door (0x1140 + 4 * c.val + w.val) fun s => writeDkCap s c w v)

/-- A lease of a ring by an internal holder meets the world of the Mill (17 R436, 13 R338): the user partition is refused where the Deck regions of the
Mill's world are secure. -/
def leaseAllowed (s : State) (holder : Proc) : Bool :=
  match holder with
  | .user => !blockSecure s 0
  | _ => true

/-- A holder's call (10 R262, R263): a lease on a held capture that is not leased, or on a ring span; a renewal; a read of a leased block, whose records are returned, and
which after a revocation returns 0 and raises the Deck-view-fault source. -/
def leaseCall (s : State) (holder : Proc) (call : LeaseCall) : State :=
  let h := holderCode holder
  let kind := if h = 3 then 2 else 1
  match call with
  | .capture c => if s.get (DK_CAP_STATE c) = 2 then leaseCapture s h kind c else s
  | .span i first last => leaseRing s h kind i first last
  | .renew l => if holdsLease s l h then renewLease s l else s
  | .read l i first n =>
    if holdsLease s l h then
      let ws := leasedRecords s l i first n
      { noteRead s l i first n with bus := { s.bus with reply := ws.getLastD 0, burst := ws } }
    else { s.pulse 26 with bus := { (s.pulse 26).bus with reply := 0, burst := [] } }

/-- LEASE_REQUEST (10 R262, R263). -/
def execLeaseRequest (holder : Proc) (call : LeaseCall) (s : State) : Host.Outcome State Fault Refusal :=
  .next (if s.alive && leaseAllowed s holder then leaseCall s holder call else s)

/-- LEASE_SCAN (10 R263): ms have passed since the last scan. -/
def execLeaseScan (ms : Nat) (s : State) : Host.Outcome State Fault Refusal :=
  .next (if s.alive then (List.finRange 32).foldl (fun s l => ageLease s ms l) s else s)

end Sys2Proof.Machine
end

