-- ==== Sys2Proof/Machine/Blocks.lean ====
section
/-!
DEFINITION. The records an analysis setup takes from the Landing and the blocks it forms of them (13 R317, R319, R320).
-/

namespace Sys2Proof.Machine

/-- The value of a tag, or its default (13 R334, R335). -/
def tagOf (l : List (Nat × Nat)) (k dflt : Nat) : Nat :=
  match l.find? fun p => p.1 == k with
  | some p => p.2
  | none => dflt

/-- A tag is present. -/
def hasTag (l : List (Nat × Nat)) (k : Nat) : Bool := l.any fun p => p.1 == k

/-- Named parameters of a setup (13 R317, R334). -/
def SetupState.proc (x : SetupState) : Nat := tagOf x.tags 1 0
def SetupState.func (x : SetupState) : Nat := tagOf x.tags 2 0
def SetupState.slot (x : SetupState) : Fin 16 := Fin.ofNat 16 (tagOf x.tags 3 0)
def SetupState.len (x : SetupState) : Nat := 2 ^ tagOf x.tags 4 8
def SetupState.route (x : SetupState) : Nat := tagOf x.tags 0xA 1
def SetupState.trsec (x : SetupState) : Nat := tagOf x.tags 0xB 60

/-- The setup is defined. -/
def SetupState.defined (x : SetupState) : Bool := !x.tags.isEmpty

/-- The KIND of a record's word (08 R213): 0 a sample. -/
def wordKind (w : Word) : Nat := getBits w 6 2

/-- A setup takes records of its slot (13 R319): after a discarded block, none before the first sample record. -/
def SetupState.feed (x : SetupState) (l : List HistRec) : SetupState :=
  let wait := x.resync && x.hist.isEmpty
  let l := if wait then l.dropWhile fun r => wordKind r.w != 0 else l
  { x with hist := x.hist ++ l, resync := wait && l.isEmpty }

/-- The records after the last time-step record: those of the present time base (07 R202). -/
def sinceStep (l : List HistRec) : List HistRec := (l.reverse.takeWhile fun r => wordKind r.w != 2).reverse

/-- A setup of processor p meets the records that it took of slot i: a setup of the slot, or an order setup of slot 11's angle (13 R316, R325). -/
def SetupState.meet (x : SetupState) (p : Nat) (i : Fin 16) (l : List HistRec) : SetupState :=
  if x.defined && x.ref == 0 && x.proc == p then
    (if x.slot = i then x.feed l else if x.func = 6 ∧ i.val = 11 then { x with angle := sinceStep (x.angle ++ l) } else x)
  else x

/-- A record as the analysis processors take it (13 R316, R319). -/
def histRec (s : State) (i : Fin 16) (r : Landed × Nat) : HistRec :=
  { ssn := r.2, t := r.1.t.getD 0, w := r.1.w, deg := decide (i.val < 10) && s.get (CAL_ST_STATE i) == 4 }

/-- The setups of processor p take records of slot i with their SSNs. -/
def feedSetups (s : State) (p : Nat) (i : Fin 16) (rs : List (Landed × Nat)) : State :=
  let l := rs.map (histRec s i)
  { s with an := { s.an with setups := s.an.setups.map fun x => x.meet p i l } }

/-- The first record that spoils a block (13 R319): its place, and whether an SSN gap lies before it rather than the record itself being the cause: a marker, a
time-step record, or under STRICT a STALE or CALADJ record. -/
def blockCause (strict : Bool) (prev : Option Nat) (l : List HistRec) (k : Nat) : Option (Nat × Bool) :=
  match l with
  | [] => none
  | r :: l =>
    if prev.any fun p => p + 1 != r.ssn then some (k, true)
    else if wordKind r.w != 0 || (strict && (r.w.getLsbD 2 || r.w.getLsbD 5)) then some (k, false)
    else blockCause strict (some r.ssn) l (k + 1)

/-- After a discarded block the next one starts at the first sample record after the cause, and overlap is dropped (13 R319). -/
def SetupState.skipTo (x : SetupState) (l : List HistRec) : SetupState :=
  let l := l.dropWhile fun r => wordKind r.w != 0
  { x with hist := l, resync := l.isEmpty }

/-- The OR of the status bits of a block's records (13 R320). -/
def blockStatus (l : List Word) : Nat := l.foldl (fun a w => a ||| getBits w 0 6) 0

end Sys2Proof.Machine
end

