-- ==== Sys2Proof/Machine/Region.lean ====
section
/-!
DEFINITION. Tally regions in flash (15 R383, R384), custody as the ports see it (14 R372, R373, 15 R390, R391), and Coppice's choice of a source (15 R392 to
R394).
-/

namespace Sys2Proof.Machine

/-- Replace the Tally's run-time state. -/
def State.modTally (s : State) (f : TallyState → TallyState) : State := { s with tally := f s.tally }

/-- The key under which a region of the flash is encrypted (15 R382). -/
inductive FlashKey where
  | clear | flash | line
  deriving DecidableEq, Repr

/-- A region of the flash (15 R382): its first byte, its size and its key. -/
structure FlashPart where
  base : Nat
  size : Nat
  key : FlashKey
  deriving DecidableEq, Repr

/-- The regions of the flash in order (15 R382): factory data, firmware A and B, own Tally, custody A and B, event log, seal log, reserved. -/
def flashMap : List FlashPart :=
  [⟨0, 0x100000, .clear⟩, ⟨0x100000, 0xC00000, .flash⟩, ⟨0xD00000, 0xC00000, .flash⟩, ⟨0x1900000, 0x800000, .flash⟩, ⟨0x2100000, 0x800000, .line⟩,
   ⟨0x2900000, 0x800000, .line⟩, ⟨0x3100000, 0x800000, .flash⟩, ⟨0x3900000, 0x100000, .clear⟩, ⟨0x3A00000, 0x600000, .clear⟩]

/-- The size of a position of a Tally region, and its first byte (15 R383); r is 0 own, 1 custody A, 2 custody B. -/
def positionSize : Nat := 0x100000
def positionAddr (r p : Nat) : Nat := ((flashMap.map (·.base)).getD (3 + r) 0) + positionSize * p

/-- The key for a byte of the flash (15 R382, 17 R437); none for what is written in clear. -/
def flashKeyAt (s : State) (addr : Nat) : Option Nat :=
  match flashMap.find? fun x => decide (x.base ≤ addr) && decide (addr < x.base + x.size) with
  | none => none
  | some x => match x.key with
    | .clear => none
    | .flash => some Config.flashKey
    | .line => s.keys.lineKey

/-- The counter block under which 16 bytes at a flash address are encrypted (17 R441). -/
def counterBlock (write addr : Nat) : Nat := write * 2 ^ 64 + addr % 2 ^ 32 / 16

/-- What the flash holds of bytes written at an address, a multiple of 16, under a write number (17 R440, R441): AES-256 in counter mode under the region's key. -/
def flashCipher (s : State) (write addr : Nat) (l : List Byte) : List Byte :=
  match flashKeyAt s addr with
  | none => l
  | some k =>
    let keys := aesKeys k
    l.zipWith (· ^^^ ·) ((List.range ((l.length + 15) / 16)).flatMap fun i => beBytes 16 (aesBlock keys (counterBlock write (addr + 16 * i))))

/-- The write number of the next entry of the event log (17 R441): the run number and the entry's count within the run. -/
def entryNumber (f : FlashState) : Nat := f.run * 2 ^ 32 + (f.log.countP fun e => e.1 == f.run)

/-- The write number of a firmware half (17 R441). -/
def halfNumber (s : State) (b : Bool) : Nat := if b then s.flash.seqB else s.flash.seqA

/-- A Tally region by its number (15 R383): 0 own, 1 custody A, 2 custody B. -/
def FlashState.region (f : FlashState) (r : Nat) : Region := if r = 0 then f.own else if r = 1 then f.custA else f.custB

/-- Replace a Tally region. -/
def State.setRegion (s : State) (r : Nat) (x : Region) : State :=
  { s with flash := if r = 0 then { s.flash with own := x } else if r = 1 then { s.flash with custA := x } else { s.flash with custB := x } }

/-- What position p of region r holds. -/
def FlashState.content (f : FlashState) (r p : Nat) : List Byte := (f.region r).pos.toList.getD p []

/-- Replace what position p of region r holds; an erase leaves nothing. -/
def State.setContent (s : State) (r p : Nat) (l : List Byte) : State := s.setRegion r ⟨(s.flash.region r).pos.set (Fin.ofNat 8 p) l⟩

/-- The seals of region r that no erase-to-blank voids, newest first (15 R383). -/
def FlashState.sealsOf (f : FlashState) (r : Nat) : List SealRec := (f.seals.takeWhile fun x => x.region != 0xFF).filter fun x => x.region == r

/-- What a seal vouches for (15 R383): the content of its position in its length, when its SHA-256 is the seal's digest. -/
def FlashState.vouched (f : FlashState) (x : SealRec) : Option Image :=
  let l := (f.content x.region x.pos).take x.len
  if l.length = x.len ∧ sha256 l = x.digest then some ⟨l⟩ else none

/-- The newest seal of position p of region r. -/
def FlashState.sealAt (f : FlashState) (r p : Nat) : Option SealRec := (f.sealsOf r).find? fun x => x.pos == p

/-- The image of the newest seal of a region, if it is still whole (15 R383). -/
def FlashState.latest (f : FlashState) (r : Nat) : Option Image := (f.sealsOf r).head?.bind f.vouched

/-- The position that the next commit into a region takes (15 R383): the one after the last one sealed, cyclically. -/
def FlashState.nextPos (f : FlashState) (r : Nat) : Nat := match (f.sealsOf r).head? with
  | none => 0
  | some x => (x.pos + 1) % 8

/-- The bytes of a seal record (15 R383). -/
def SealRec.bytes (x : SealRec) : List Byte :=
  beBytes 1 x.region ++ beBytes 1 x.pos ++ beBytes 1 x.origin ++ beBytes 1 0 ++ beBytes 8 x.comseq ++ beBytes 4 x.len ++ beBytes 32 x.digest ++ beBytes 16 0

/-- Show the last sealed COMSEQ (15 R403). -/
def showComseq (s : State) : State :=
  let n := (s.flash.seals.head?.map (·.comseq)).getD 0
  (s.setWord 0x1702 (BitVec.ofNat 32 n)).setWord 0x1703 (BitVec.ofNat 32 (n / 2 ^ 32))

/-- Reserve the next COMSEQ (15 R383): it is not used again, whether or not its seal is written. -/
def reserveSeq (s : State) : State := { s with flash := { s.flash with comseq := s.flash.comseq + 1 } }

/-- A seal is appended to the seal log (15 R383). -/
def appendSeal (s : State) (x : SealRec) : State := showComseq { s with flash := { s.flash with seals := x :: s.flash.seals } }

/-- A commit of position p of region r counts (15 R384). -/
def countCommit (s : State) (r p : Nat) : State :=
  let k := Fin.ofNat 24 (8 * r + p)
  let n := min 0xFFFF (s.flash.wear[k] + 1)
  let s := ({ s with flash := { s.flash with wear := s.flash.wear.set k n } }).set (TL_WEAR_COMMITS r p) n
  if n = 9000 then (s.set TL_ST_WEAR 1).event TL_EVT_WEAR else s

/-- Seal an image programmed into position p of region r under the reserved COMSEQ n (15 R383 to R385). -/
def sealImage (s : State) (r p : Nat) (im : Image) (n origin : Nat) : State :=
  let s := s.setContent r p im.bytes
  let s := countCommit (appendSeal s { region := r, pos := p, origin := origin, comseq := n, len := im.size, digest := im.digest }) r p
  s.log (.commit r p n im.gen ((im.trailer.map (·.cseq)).getD 0))

/-- A commit of an image into region r in one step (15 R383). -/
def commitImage (s : State) (r : Nat) (im : Image) (origin : Nat) : State :=
  let s := reserveSeq s
  sealImage s r (s.flash.nextPos r) im s.flash.comseq origin

/-- The custody side of a port. -/
def State.cust (s : State) (p : Port) : CustPort :=
  match p with
  | .a => s.tally.portA
  | .b => s.tally.portB

/-- Replace the custody side of a port. -/
def State.modCust (s : State) (p : Port) (f : CustPort → CustPort) : State :=
  s.modTally fun t => match p with
    | .a => { t with portA := f t.portA }
    | .b => { t with portB := f t.portB }

/-- The custody region of a port (15 R382). -/
def Port.region : Port → Nat
  | .a => 1
  | .b => 2

/-- The fields of CP_NBR for a port (15 R403). -/
def nbrStn (p : Port) : Field := if p = .a then CP_NBR_STNA else CP_NBR_STNB
def nbrCstn (p : Port) : Field := if p = .a then CP_NBR_CSTNA else CP_NBR_CSTNB

/-- Send a custody request (14 R372). -/
def sendRequest (s : State) (p : Port) (want offset nch : Nat) : State :=
  message s [p] (custodyHead s) (.custRequest (s.get BZ_CFG_STN) want offset nch) false

/-- A custody request for 16 chunks from where a fetch stands (14 R372, 15 R392). -/
def requestChunks (s : State) (p : Port) (f : Fetch) : State := sendRequest s p f.stn f.data.length 16

/-- Begin to fetch an image on a port. -/
def startFetch (s : State) (p : Port) (f : Fetch) : State := requestChunks (s.modCust p fun x => { x with fetch := some f, deferred := false }) p f

/-- Begin to read the header of an offered image (15 R393): it lies in the first chunk. -/
def startLook (s : State) (p : Port) (o : Nat × Nat) : State :=
  sendRequest (s.modCust p fun x => { x with look := some { digest := o.2, stn := o.1 } }) p o.1 0 1

/-- Coppice waits (15 R392 step 6, R393); a conflict of the two neighbours is logged (R385). -/
def coppiceWait (s : State) (why : Nat) : State :=
  let new := (why == 2 || why == 3) && !(s.get CP_ST_STEP == 5 && s.get CP_ST_WAIT == why)
  let s := if new then s.log (.refusal 393) else s
  (((s.set CP_ST_STEP 5).set CP_ST_WAIT why).set CP_ST_CSTN 0xFE).set CP_ST_SRCPORT 0

/-- Coppice takes the offer of a port (15 R392 step 3). -/
def coppiceTake (s : State) (p : Port) (o : Nat × Nat) : State :=
  let s := (((s.set CP_ST_STEP 2).set CP_ST_WAIT 0).set CP_ST_CSTN o.1).set CP_ST_SRCPORT (if p = .a then 1 else 2)
  startFetch s p { digest := o.2, stn := o.1, coppice := true }

/-- The offer of a port that Coppice has not left out. -/
def coppiceOffer (s : State) (p : Port) : Option (Nat × Nat) :=
  if (match p with
    | .a => s.tally.failA
    | .b => s.tally.failB) then none else (s.cust p).offer

/-- (GEN, CSEQ) of the image a port offers, once its header and trailer head are in (15 R393). -/
def lookResult (s : State) (p : Port) : Option (Nat × Nat) := match (s.cust p).look with
  | none => none
  | some x => x.cseq.map fun c => (x.gen, c)

/-- Ask for the header of what a port offers, unless that is under way. -/
def lookAt (s : State) (p : Port) (o : Nat × Nat) : State := if (s.cust p).look.isSome then s else startLook s p o

/-- Coppice chooses (15 R393). When both ports offer different images for one station, it reads the header and trailer head of both, in step 1, and takes the higher (GEN, CSEQ). -/
def coppiceChoose (s : State) : State :=
  match coppiceOffer s .a, coppiceOffer s .b with
  | none, none => coppiceWait s 4
  | some a, none => coppiceTake s .a a
  | none, some b => coppiceTake s .b b
  | some a, some b =>
    if a.1 ≠ b.1 then coppiceWait s 2
    else if a.2 = b.2 then coppiceTake s .a a
    else match lookResult s .a, lookResult s .b with
      | some x, some y =>
        if x = y then coppiceWait s 3
        else if y.1 < x.1 ∨ (y.1 = x.1 ∧ y.2 < x.2) then coppiceTake s .a a
        else coppiceTake s .b b
      | _, _ => lookAt (lookAt (((s.set CP_ST_STEP 1).set CP_ST_WAIT 0).set CP_ST_SRCPORT 0) .a a) .b b

/-- Coppice has listened and reads heads to choose by (15 R393). -/
def looking (s : State) : Bool := s.mode == 4 && s.get CP_ST_STEP == 1 && (s.tally.portA.look.isSome || s.tally.portB.look.isSome)

/-- A source failed (15 R392 step 4): it is left out until it offers something else. -/
def coppiceDrop (s : State) (p : Port) : State :=
  let s := s.modCust p fun x => { x with fetch := none, look := none }
  coppiceChoose (s.modTally fun t => match p with
    | .a => { t with failA := true }
    | .b => { t with failB := true })

/-- Custody and Coppice at a link down (15 R390, R392 step 3): nothing is learnt or offered on the port, and a fetch from it ends. -/
def custodyLinkDown (s : State) (p : Port) : State :=
  let chosen := looking s || (s.mode == 4 && s.get CP_ST_STEP == 2 && s.get CP_ST_SRCPORT == (if p = .a then 1 else 2))
  let s := ((s.set (nbrStn p) 0xFE).set (nbrCstn p) 0xFE).modCust p fun x =>
    { x with fetch := none, look := none, offer := none, tdig := none, valid := false, helloAt := none }
  if chosen then coppiceChoose s else s

/-- The application of parameter records counts as live changes (15 R398, R399): each word or parameter appears once, with its present value. -/
def mergeLive (l : List TallyRec) (r : TallyRec) : List TallyRec :=
  match r with
  | .word a m v =>
    let old := l.findSome? fun x => match x with
      | .word b n w => if b = a then some (n, w) else none
      | _ => none
    let rest := l.filter fun x => match x with
      | .word b _ _ => b != a
      | _ => true
    match old with
    | none => rest ++ [.word a m (v &&& m)]
    | some (n, w) => rest ++ [.word a (n ||| m) ((w &&& ~~~m) ||| (v &&& m))]
  | .startMask _ => (l.filter fun x => match x with | .startMask _ => false | _ => true) ++ [r]
  | .hosts _ => (l.filter fun x => match x with | .hosts _ => false | _ => true) ++ [r]
  | .userCal i _ _ => (l.filter fun x => match x with | .userCal j _ _ => j != i | _ => true) ++ [r]
  | .setup n _ => (l.filter fun x => match x with | .setup k _ => k != n | _ => true) ++ [r]
  | .alarm n _ => (l.filter fun x => match x with | .alarm k _ => k != n | _ => true) ++ [r]
  | _ => l ++ [r]

/-- Show the number of live changes (15 R403). -/
def showDirty (s : State) : State := s.set TL_DIRTY_ENTRIES (min 0xFFFF s.tally.dirty.length)

/-- A live change (15 R398; 05 R148 and 06 R166 for calibration results; log entry 37), counted while a base image runs. -/
def noteLive (s : State) (r : TallyRec) : State :=
  if s.tally.image.isSome then showDirty (s.modTally fun t => { t with dirty := mergeLive t.dirty r }) else s

end Sys2Proof.Machine
end

