-- ==== Sys2Proof/Machine/Landing.lean ====
section
/-!
DEFINITION. The Landing (10 R248 to R253): numbering a record (08 R220), its chunk, the consumers attached to its slot, room made when no chunk is free, and
the publisher's pending records (14 R356).
-/

namespace Sys2Proof.Machine

/-- The size in KiB of each region of the 2.5 MiB of controller-die SRAM (01 R23), and whether it lies in WORK. -/
def Sram.kib : Sram → Nat
  | .landing | .ana0 | .ana1 => 512
  | .sup | .net | .mill => 256
  | .switch | .control => 128

/-- The regions that lose their contents with WORK (01 R23, R25). -/
def Sram.work : Sram → Bool
  | .ana0 | .ana1 => true
  | _ => false

/-- The Landing's chunks of 256 bytes (10 R248). -/
def landingChunks : Nat := Sram.landing.kib * 1024 / 256

/-- The number of set bits among bits 0 to w - 1. -/
def countBits (w n : Nat) : Nat := ((List.range w).filter n.testBit).length

/-- A condition as bit b of a mask. -/
def bitIf (c : Bool) (b : Nat) : Nat := if c then 2 ^ b else 0

/-- Slot i is an input of the impact recogniser, of the stroke recogniser, of the free-fall recogniser (11 R269, R271, R274, R276), which run in modes 5 to 10
(16 R421). -/
def impInput (s : State) (i : Nat) : Bool := s.bit RC_IMP_CFG_EN && decide (i < 3) && (s.get RC_IMP_CFG_AXES).testBit i
def stkInput (s : State) (i : Nat) : Bool := s.bit RC_STK_CFG_EN && s.get RC_STK_CFG_SLOT == i
def ffInput (s : State) (i : Nat) : Bool := s.bit RC_FF_CFG_EN && decide (3 ≤ i) && decide (i < 6)

/-- The recognisers' inputs. -/
def recogInput (s : State) (i : Nat) : Bool :=
  decide (5 ≤ s.mode) && decide (s.mode ≤ 10) && (impInput s i || stkInput s i || ffInput s i)

/-- Engine e, running or stalled, takes Mill events from slot i (12 R312). -/
def mevInput (s : State) (e : Fin 8) (i : Nat) : Bool :=
  (s.get PE_GST_RUNNING).testBit e.val && s.get (PE_MEV_MODE e) != 0 && s.get (PE_MEV_SLOT e) == i

/-- An engine takes Mill events from slot i. -/
def engineInput (s : State) (i : Nat) : Bool := (List.finRange 8).any fun e => mevInput s e i

/-- Slot i is named in an admitted stream (14 R355). -/
def streamInput (s : State) (i : Nat) : Bool :=
  (List.range 16).any fun k => s.get (CY_STR_ST k) == 1 && s.get (CY_STR_SLOT k) == i

/-- The Deck writer's condition (10 R249, R251): the slot has a ring, and WORK is powering up or on. -/
def deckInput (s : State) (i : Nat) : Bool :=
  s.get (DK_RING_SEC i) != 0 && (s.get ID_DOMST_WSTATE == 1 || s.get ID_DOMST_WSTATE == 2)

/-- The consumers whose condition of 10 R249 holds for slot i, a bit each. -/
def landWants (s : State) (i : Nat) : Nat :=
  bitIf (deckInput s i) 0 + bitIf (streamInput s i) 1 + bitIf (recogInput s i) 2 + bitIf (engineInput s i) 3 +
  bitIf (s.an.watch0.testBit i && s.bit AN_ST_RUN0) 4 + bitIf ((s.an.watch1.testBit i || s.an.upWatch.testBit i) && s.bit AN_ST_RUN1) 5

/-- Replace one slot's Landing state. -/
def State.modLand (s : State) (i : Fin 16) (f : LandSlot → LandSlot) : State :=
  { s with deck := { s.deck with land := s.deck.land.set i (f s.deck.land[i]) } }

/-- Replace the chunks. -/
def State.setChunks (s : State) (l : List Chunk) : State := { s with deck := { s.deck with chunks := l } }

/-- The SSN of the next record a consumer takes. -/
def LandSlot.nextOf (l : LandSlot) (b : Nat) : Nat := l.next.toList.getD b 0

/-- Set the SSN of the next record for every consumer of a mask. -/
def LandSlot.setNext (l : LandSlot) (mask ssn : Nat) : LandSlot :=
  { l with next := Vector.ofFn fun b => if mask.testBit b then ssn else l.next[b] }

/-- Show the chunk counts (10 R267). -/
def showChunks (s : State) : State :=
  let fill := (s.deck.chunks.filter (·.filling)).length
  ((s.set LD_ST_FREE (landingChunks - s.deck.chunks.length)).set LD_HELD_FILL fill).set LD_HELD_HELD (s.deck.chunks.length - fill)

/-- Whether an attached consumer still has to take a record of a chunk (10 R248). -/
def chunkWanted (s : State) (c : Chunk) : Bool :=
  if h : c.slot < 16 then
    (List.range 6).any fun b => (s.get (LD_ATT_ATT c.slot)).testBit b && decide (s.deck.land[c.slot].nextOf b < c.first + c.n)
  else false

/-- Free the chunks of slot i that every attached consumer has taken (10 R248). -/
def sweepChunks (s : State) (i : Fin 16) : State :=
  showChunks (s.setChunks (s.deck.chunks.filter fun c => c.slot != i.val || c.filling || chunkWanted s c))

/-- Detach a mask of consumers from slot i (10 R250, R251); the Deck writer's block closes and the next begins with an anchor (10 R256, R257). -/
def detach (s : State) (i : Fin 16) (mask : Nat) : State :=
  let att := s.get (LD_ATT_ATT i)
  let s := if mask.testBit 0 && att.testBit 0 then ringCut s i else s
  s.set (LD_ATT_ATT i) (att - (att &&& mask))

/-- The attached consumers that have not taken every record of a chunk. -/
def laggards (s : State) (i : Fin 16) (c : Chunk) : List Nat :=
  (List.range 6).filter fun b => (s.get (LD_ATT_ATT i)).testBit b && decide (s.deck.land[i].nextOf b < c.first + c.n)

/-- Make room (10 R250) for the record of slot i with SSN ssn, which begins a chunk: the earliest held chunk is freed, its laggard consumers detach, lose what they
had not received, and rejoin at the slot's next chunk; chunks that only they still wanted are free too. -/
def reclaimChunk (s : State) (i : Fin 16) (ssn : Nat) : State :=
  match s.deck.chunks.find? fun c => !c.filling with
  | none => s
  | some c =>
    if h : c.slot < 16 then
      let k : Fin 16 := ⟨c.slot, h⟩
      let lag := laggards s k c
      let upTo := if k = i then ssn else s.slots[k].queued
      let lost := (lag.map fun b => upTo - s.deck.land[k].nextOf b).sum
      let mask := (lag.map fun b => 2 ^ b).sum
      let s := s.setChunks (s.deck.chunks.erase c)
      let s := sweepChunks ((detach s k mask).modLand k fun l => { l with rejoin := l.rejoin ||| mask }) k
      if lag.isEmpty then s else (((s.bump LD_DROP_RECS lost).event LD_EVT_DROP).event LD_EVT_DETACH)
    else s.setChunks (s.deck.chunks.erase c)

/-- The chunk that slot i fills, with one record more; full at 64 records (10 R248). -/
def fillChunk (l : List Chunk) (i : Nat) (r : Landed) : List Chunk :=
  l.map fun c => if c.slot == i && c.filling then { c with recs := c.recs ++ [r], filling := decide (c.n + 1 < 64) } else c

/-- Put a record with SSN ssn into its slot's chunk. -/
def chunkRecord (s : State) (i : Fin 16) (ssn : Nat) (r : Landed) (begins : Bool) : State :=
  if begins then s.setChunks (s.deck.chunks ++ [{ slot := i, first := ssn, recs := [r], filling := true }])
  else s.setChunks (fillChunk s.deck.chunks i r)

/-- The records of slot i from SSN ssn on that the Landing holds, in SSN order, each with its SSN. -/
def landedFrom (s : State) (i : Fin 16) (ssn : Nat) : List (Landed × Nat) :=
  (s.deck.chunks.filter fun c => c.slot == i.val).flatMap fun c => (c.recs.zipIdx c.first).drop (ssn - c.first)

/-- The records of slot i that a consumer has not taken yet. -/
def waitingFor (s : State) (i : Fin 16) (b : Nat) : List (Landed × Nat) := landedFrom s i (s.deck.land[i].nextOf b)

/-- Replace one stream entry's state. -/
def State.modStream (s : State) (k : Fin 16) (f : StreamState → StreamState) : State :=
  { s with net := { s.net with streams := s.net.streams.set k (f s.net.streams[k]) } }

/-- A publication of entry k that closes now (14 R356). -/
def makePub (s : State) (k : Fin 16) (ssn : Nat) (t : Option Nat) (recs : List Word) (rate : Nat) (fin step : Bool) : Pub :=
  ⟨ssn, t, recs, rate, fin, step, s.get (CY_STR_SLOT k), if s.bit (CY_STR_DEST k) then s.net.streams[k].host else none, s.bit (CY_STR_DEMAND k)⟩

/-- The pending records of an entry as publications of n records, the last one with the rest, END and STEP (14 R356). -/
def pubsOf (s : State) (k : Fin 16) (ssn : Nat) (t : Option Nat) (l : List Word) (fin step : Bool) (fuel : Nat) : List Pub :=
  let x := s.net.streams[k]
  match fuel with
  | 0 => []
  | fuel + 1 =>
    if l.length ≤ x.n then [makePub s k ssn t l x.code fin step]
    else makePub s k ssn t (l.take x.n) x.code false false :: pubsOf s k (ssn + x.n) (t.map fun t => t + x.n * interval x.code) (l.drop x.n) fin step fuel

/-- Close a stream entry's pending records as publications that wait to be sent (14 R356); with none pending only an END closes one, with COUNT 0. -/
def closePub (s : State) (k : Fin 16) (fin step : Bool) (nextSsn : Nat) : State :=
  let x := s.net.streams[k]
  if x.recs.isEmpty then
    (if fin then s.modStream k fun x => { x with ready := x.ready ++ [makePub s k nextSsn none [] x.code true false] } else s)
  else s.modStream k fun x => { x with ready := x.ready ++ pubsOf s k x.first x.t x.recs fin step (x.recs.length + 1), recs := [], t := none }

/-- A record that the publisher takes joins the pending records of every admitted stream entry of its slot; a time-step record ends its publication (14 R356). -/
def streamRecord (s : State) (i : Fin 16) (r : Landed × Nat) : State :=
  (List.finRange 16).foldl (fun s (k : Fin 16) =>
    if s.get (CY_STR_ST k) = 1 ∧ s.get (CY_STR_SLOT k) = i.val then
      let s := s.modStream k fun x =>
        if x.recs.isEmpty then { x with first := r.2, t := r.1.t, recs := [r.1.w] } else { x with recs := x.recs ++ [r.1.w] }
      if r.1.t.isNone then closePub s k false true (r.2 + 1) else s
    else s) s

/-- A record as a recogniser or a Mill-event unit reads it (11 R269, 12 R312). -/
def gridOf (r : Landed × Nat) : GridRec := { t := r.1.t.getD 0, ssn := r.2, rcd := wordRec r.1.w, rate := r.1.rate }

/-- The recognisers take records of slot i (11 R269). -/
def recogTake (s : State) (i : Nat) (l : List GridRec) : State :=
  let put (c : Bool) (old : List GridRec) : List GridRec := if c then old ++ l else old
  { s with recog := { s.recog with
      impIn := Vector.ofFn fun k => put (impInput s i && k.val == i) s.recog.impIn[k]
      stkIn := put (stkInput s i) s.recog.stkIn
      ffIn := Vector.ofFn fun k => put (ffInput s i && k.val + 3 == i) s.recog.ffIn[k] } }

/-- The Mill-event units take records of slot i (12 R312). -/
def engineTake (s : State) (i : Nat) (l : List GridRec) : State :=
  { s with engines := Vector.ofFn fun e => if mevInput s e i then { s.engines[e] with mev := s.engines[e].mev ++ l } else s.engines[e] }

/-- The part of ANA1's SRAM that is the user partition's own (01 R23, 13 R336), in bytes. -/
def partitionBytes : Nat := 256 * 1024

/-- The ring that service 0x03 gave the user partition for slot i takes records of 4 bytes (13 R338): it holds the latest. -/
def feedPartition (s : State) (i : Fin 16) (l : List (Landed × Nat)) : State :=
  if s.an.upWatch.testBit i then
    let r := s.an.upRing[i] ++ l.map fun x => (x.2, x.1.w)
    { s with an := { s.an with upRing := s.an.upRing.set i (r.drop (r.length - s.an.upBytes[i] / 4)) } }
  else s

/-- One consumer of 10 R249 takes records of slot i, in SSN order. -/
def deliverTo (s : State) (i : Fin 16) (b : Nat) (l : List (Landed × Nat)) : State :=
  if b = 0 then l.foldl (fun s r => ringRecord s i r.2 r.1) s
  else if b = 1 then l.foldl (fun s r => streamRecord s i r) s
  else if b = 2 then recogTake s i (l.map gridOf)
  else if b = 3 then engineTake s i (l.map gridOf)
  else feedSetups (if b = 5 then feedPartition s i l else s) (b - 4) i l

/-- The SSNs of the last record that a set of consumers was given, and of the next one it takes (10 R252). -/
def LandSlot.took (l : LandSlot) (mask queued : Nat) : LandSlot :=
  { l.setNext mask queued with
    given := Vector.ofFn fun b => if mask.testBit b && decide (l.next[b] < queued) then some (queued - 1) else l.given[b] }

/-- The attached consumers of a mask take every record of slot i that waits for them (01 R30); the Deck writer only while the Deck controller is released (10 R249).
After the seal the Landing delivers nothing (10 R252). -/
def takeRecords (s : State) (i : Fin 16) (mask : Nat) : State :=
  if s.pwr.sealed then s
  else
    let ready := if s.bit DK_ST_ON then 63 else 62
    let takers := s.get (LD_ATT_ATT i) &&& mask &&& ready
    let s := (List.range 6).foldl (fun s b => if takers.testBit b then deliverTo s i b (waitingFor s i b) else s) s
    sweepChunks (s.modLand i fun l => l.took takers s.slots[i].queued) i

/-- The consumers whose condition has ended detach from slot i (10 R249): those in KEEP after the last record queued while it held. -/
def releaseLanding (s : State) (i : Fin 16) (want : Nat) : State :=
  let gone := s.get (LD_ATT_ATT i) - (s.get (LD_ATT_ATT i) &&& want)
  if gone = 0 then s else sweepChunks (detach (takeRecords s i (gone &&& 0b001110)) i gone) i

/-- The consumers of every slot whose condition has ended detach. -/
def settleLanding (s : State) : State := (List.finRange 16).foldl (fun s i => releaseLanding s i (landWants s i)) s

/-- Attach and detach the consumers of slot i at the record with SSN ssn (10 R249, R250), and count what waiting consumers lose. -/
def attachAt (s : State) (i : Fin 16) (ssn : Nat) (begins : Bool) : State :=
  let want := landWants s i
  let s := releaseLanding s i want
  let old := s.get (LD_ATT_ATT i)
  let waits := if begins then 0 else s.deck.land[i].rejoin &&& want
  let joins := want - (want &&& (old ||| waits))
  let s := s.set (LD_ATT_ATT i) ((old &&& want) ||| joins)
  let s := s.modLand i fun l => { l.setNext joins ssn with rejoin := waits }
  s.bump LD_DROP_RECS (countBits 6 waits)

/-- The Landing receives the record with SSN ssn of slot i (10 R248 to R250). -/
def landRecord (s : State) (i : Fin 16) (ssn : Nat) (r : Landed) (mask : Nat) : State :=
  let begins := !(s.deck.chunks.any fun c => c.slot == i.val && c.filling)
  let s := if begins && decide (landingChunks ≤ s.deck.chunks.length) then reclaimChunk s i ssn else s
  takeRecords (chunkRecord (attachAt s i ssn begins) i ssn r begins) i mask

/-- Number a record (08 R220, R224): its SSN, GR_LAST and GR_SSN, the marker count and the time-step event. -/
def numberRecord (s : State) (i : Fin 16) (r : Rec) : State :=
  let ssn := s.slots[i].queued
  let s := ((s.setWord (0x421 + 0x40 * i.val) r.word).set (GR_SSN_LO i) ssn).set (GR_SSN_HI i) (ssn / 2 ^ 32)
  let s := match r.kind with
    | .sample => s
    | .marker => s.bump (GR_CNT_MARKERS i) 1
    | .timeStep => s.event (GR_EVT_TSTEP i)
  s.modSlot i fun x => { x with queued := x.queued + 1 }

/-- Stage 7 queues a record of slot i (08 R217, R220): t is its grid time, none for a time-step record, rate the code it was formed at; mask the consumers that take
everything up to it. After the seal stage 7 has stopped (10 R252), and in an orderly restart the Mill has (16 R415). -/
def queueRecord (s : State) (i : Fin 16) (r : Rec) (t : Option Nat) (rate mask : Nat) : State :=
  if s.pwr.sealed || s.modes.stopped then s
  else
    let s := landRecord (numberRecord s i r) i s.slots[i].queued ⟨r.word, t, rate⟩ mask
    match t with
    | some t => startWaiting (s.modSlot i fun x => { x with lastT := some t }) i t
    | none => s

/-- WORK consumers leave every slot (10 R251): after a power-down command. -/
def detachWork (s : State) : State :=
  (List.finRange 16).foldl (fun s (i : Fin 16) => sweepChunks (detach s i 0b110001) i) s

/-- The Landing drains into the Deck (10 R251, 01 R31): the Deck writer takes all that waits for it. -/
def drainToDeck (s : State) : State := (List.finRange 16).foldl (fun s (i : Fin 16) => takeRecords s i 1) s

/-- The chunk slot i fills is closed: it is held, or free when nobody wants it (10 R248). -/
def closeChunk (s : State) (i : Fin 16) : State :=
  sweepChunks (s.setChunks (s.deck.chunks.map fun c => if c.slot == i.val && c.filling then { c with filling := false } else c)) i

/-- The last SSN the Landing delivered of slot i to any consumer in this run (10 R252); with no record delivered, none. -/
def lastDelivered (s : State) (i : Fin 16) : Option Nat := (s.deck.land[i].given.toList.filterMap id).max?

/-- At the seal the records of every slot after its last delivered one are withdrawn (10 R252). -/
def withdraw (s : State) : State :=
  showChunks (s.setChunks (s.deck.chunks.filterMap fun c =>
    let keep := match lastDelivered s (Fin.ofNat 16 c.slot) with
      | none => 0
      | some n => n + 1 - c.first
    if keep = 0 then none else some { c with recs := c.recs.take keep }))

end Sys2Proof.Machine
end

