-- ==== Sys2Proof/Machine/Mill.lean ====
section
/-!
DEFINITION. The Mill (07): group delay and settling length of a bank (R191, R192), the filter span (R193), bank states and swaps (R194 to R197, R201),
suppression triggers (R198 to R200) and the commands on a slot and its banks.
-/

namespace Sys2Proof.Machine

/-- The bits of word a that its row gives the access type acc (00 R9). -/
def accMask (a : Nat) (acc : Access) : Nat :=
  match rowOf a with
  | none => 0
  | some r => ((r.fields.filter fun f => f.acc == acc).map fun f => 2 ^ (f.hi + 1) - 2 ^ f.lo).sum

/-- Store the RW bits of a write of word a (00 R9). -/
def storeRw (s : State) (a : Nat) (v : Word) : State :=
  let m := BitVec.ofNat 32 (accMask a .rw)
  s.setWord a ((s.word a &&& ~~~m) ||| (v &&& m))

/-- One working sample, 1/fw, at rate code r in ns (07 R181). -/
def workNs (r : Nat) : Nat := 5120 * 2 ^ r

/-- The fixed delay in ns of the stages beside the FIR, a part of D (07 R181, R191, R192): half a dump window; the CIC's 5 (R - 1) / 2 words of 640 ns with R = 2^(r+1); the centres of
the half-band decimators, 5 of their inputs and 13; and 2 working samples of the resampler, whose cubic waits for two. With the centres of the linear-phase FIRs this gives the printed
table. -/
def fixedD (r : Nat) : Nat := 320 + 1600 * (2 ^ (r + 1) - 1) + 5 * (workNs r / 4) + 13 * (workNs r / 2) + 2 * workNs r

/-- D of the flat profile in ns by rate code (07 R191): 103 linear-phase taps, the middle one after 51 working samples. -/
def flatD (r : Nat) : Nat := fixedD r + 51 * workNs r

/-- D of the short profile in ns by rate code (07 R191): 28 linear-phase taps, their middle after 13 1/2 working samples. -/
def shortD (r : Nat) : Nat := fixedD r + 27 * workNs r / 2

/-- D at DC of the minimum-phase profile in ns by rate code, as printed (07 R191). -/
def minD (r : Nat) : Nat :=
  [92790, 186900, 375000, 751400, 1504000, 3009000, 6020000, 12040000, 24090000, 48170000, 96340000].getD r 0

/-- The span of stages 1 to 3 and 6 in 1/100 record (07 R192). -/
def spanSr (r : Nat) : Nat := [1009, 1022, 1029, 1032, 1034, 1035, 1035, 1036, 1036, 1036, 1036].getD r 1036

/-- The number of the bank of slot i (07 R206). -/
def bankOf (i : Nat) (b : Nat) : Nat := 2 * i + b

/-- D of a bank without its sections, in ns; for custom taps the taps' own delay plus the fixed delay of the other stages (log entry 12). -/
def profileD (s : State) (k r : Nat) : Nat :=
  match s.get (MB_HDR_SRC k) with
  | 0 => flatD r
  | 1 => shortD r
  | 2 => minD r
  | _ => s.get (MB_GD_GD k) * workNs r / 256 + fixedD r

/-- L of a bank without its sections (07 R191, R192). -/
def profileL (s : State) (k r : Nat) : Nat :=
  match s.get (MB_HDR_SRC k) with
  | 0 => 64
  | 1 => 25
  | 2 => 45
  | _ => ceilDiv (spanSr r * 190735 + (s.get (MB_HDR_NTAP k) - 1) * 10000000) 19073500

/-- The coefficients of a section, in 2^-28 (07 R206). -/
def coef (s : State) (k q j : Nat) : Int := s.getI (MB_BQ_C k q j)

/-- 2^96 times atanh (num / den) by its series, n terms; t is 2^96 times the power that the term of index m holds. -/
def atanhSum (num den m t n : Nat) : Nat :=
  match n with
  | 0 => 0
  | n + 1 => t / (2 * m + 1) + atanhSum num den (m + 1) (t * num * num / (den * den)) n

/-- 2^96 times ln ((den + num) / (den - num)), for num / den up to 1/3. -/
def lnRatio (num den : Nat) : Nat := 2 * atanhSum num den 0 (2 ^ 96 * num / den) 40

/-- 2^96 times ln 2. -/
def ln2 : Nat := lnRatio 1 3

/-- 2^96 times ln 10^4. -/
def lnTenK : Nat := 4 * (3 * ln2 + lnRatio 1 9)

/-- a times the least power of two that makes it at least 2^27, and the power's exponent; at most n doublings. -/
def normalise (a n : Nat) : Nat × Nat :=
  match n with
  | 0 => (a, 0)
  | n + 1 => if 2 ^ 27 ≤ a then (a, 0) else let p := normalise (2 * a) n; (p.1, p.2 + 1)

/-- 2^96 times the negative logarithm of a / 2^28, for 0 < a < 2^28. -/
def negLn (a : Nat) : Nat :=
  let (m, k) := normalise a 28
  k * ln2 + lnRatio (2 ^ 28 - m) (2 ^ 28 + m)

/-- The extension Lq of a section in records (07 R192): ln 10^4 / (- ln ρ) × fs / fw with ρ the square root of a2; none where a2 is negative, for which
the spec states no ρ. -/
def sectionL (s : State) (k q : Nat) : Option Nat :=
  let a2 := coef s k q 4
  if a2 < 0 then none
  else if a2 = 0 then some 0
  else if 2 ^ 28 ≤ a2 then none
  else some (ceilDiv (2 * lnTenK * 524288) (negLn a2.toNat * 1000000))

/-- The DC group delay of a section as a fraction of working samples (07 R192): numerator and denominator; none for a section whose denominator vanishes at
DC or whose numerator is zero throughout. -/
def sectionGd (s : State) (k q : Nat) : Option (Int × Int) :=
  let b0 := coef s k q 0
  let b1 := coef s k q 1
  let b2 := coef s k q 2
  let a1 := coef s k q 3
  let a2 := coef s k q 4
  let da := 2 ^ 28 + a1 + a2
  let na := a1 + 2 * a2
  let db := b0 + b1 + b2
  let num : Option (Int × Int) :=
    if db ≠ 0 then some (b1 + 2 * b2, db)
    else if 2 * b0 + b1 ≠ 0 then some (2 * (b0 + b1) + (2 * b0 + b1), 2 * (2 * b0 + b1))
    else if b0 ≠ 0 then some (1, 1)
    else none
  match num with
  | none => none
  | some (n, d) => if da = 0 then none else some (n * da - na * d, d * da)

/-- The enabled sections of a bank. -/
def sections (s : State) (k : Nat) : List Nat := List.range (min 4 (s.get (MB_HDR_NBQ k)))

/-- The effective settling length of a bank (07 R192); none where a section's is unstated. -/
def bankL (s : State) (k r : Nat) : Option Nat :=
  (sections s k).foldl (fun n q =>
    match n, sectionL s k q with
    | some n, some m => some (n + m)
    | _, _ => none) (some (profileL s k r))

/-- The sum of the enabled sections' DC group delays as a fraction of working samples. -/
def bankGd (s : State) (k : Nat) : Option (Int × Int) :=
  (sections s k).foldl (fun x q =>
    match x, sectionGd s k q with
    | some (n, d), some (m, e) => some (n * e + m * d, d * e)
    | _, _ => none) (some (0, 1))

/-- D of a bank in ns (07 R192); none where a section's group delay is unstated. -/
def bankD (s : State) (k r : Nat) : Option Nat :=
  match bankGd s k with
  | none => none
  | some (n, d) =>
    let (n, d) := if d < 0 then (-n, -d) else (n, d)
    some ((profileD s k r : Int) + roundEven (n * workNs r) d).toNat

/-- A number, or a free value where the spec states none (log entry 4). -/
def State.orFree (s : State) (x : Option Nat) : Nat × State :=
  match x with
  | some n => (n, s)
  | none => (s.freeWord.1.toNat, s.freeWord.2)

/-- Show the effective settling length and the group delay of the active bank (07 R192, R205). -/
def showBank (s : State) (i : Fin 16) : State :=
  if i.val ≤ 10 then
    let k := bankOf i (s.get (ML_ST_ACT i))
    let r := s.slots[i].rate
    let (l, s) := s.orFree (bankL s k r)
    let (d, s) := s.orFree (bankD s k r)
    (s.set (ML_SETL_LEN i) l).set (ML_GD_NS i) d
  else s

/-- The settling length and the group delay in ns that a record's span goes by (07 R193): the active bank's, in a fade those of the bank with the longer interval. -/
def spanBank (s : State) (i : Fin 16) : Nat × Nat :=
  if s.get (ML_ST_STATE i) = 4 ∧ s.get (ML_SETL_LEN i) < s.slots[i].inL then (s.slots[i].inL, s.slots[i].inD) else (s.get (ML_SETL_LEN i), s.get (ML_GD_NS i))

/-- D in 1/8 ns of the bank that a record's span goes by. -/
def slotD (s : State) (i : Fin 16) : Nat := 8 * (spanBank s i).2

/-- The start of the filter span of the record at t: t + D - L / fs (07 R193). -/
def spanStart (s : State) (i : Fin 16) (t : Nat) : Int := (t : Int) + slotD s i - (spanBank s i).1 * interval s.slots[i].rate

/-- An instant lies inside the filter span of the record at t (07 R193). -/
def inSpan (s : State) (i : Fin 16) (t e : Nat) : Bool := decide (spanStart s i t ≤ e) && decide (e ≤ t + slotD s i)

/-- A span of time meets the filter span of the record at t. -/
def spanMeets (s : State) (i : Fin 16) (t : Nat) (p : Nat × Option Nat) : Bool := meets (spanStart s i t) (t + slotD s i) p

/-- Set the state of bank b of slot i: 0 stopped, 1 warming, 2 fading, 3 active (07 R194). -/
def setBank (s : State) (i b st : Nat) : State := if b = 0 then s.set (ML_ST_BST0 i) st else s.set (ML_ST_BST1 i) st

/-- The state of bank b of slot i. -/
def bankState (s : State) (i b : Nat) : Nat := if b = 0 then s.get (ML_ST_BST0 i) else s.get (ML_ST_BST1 i)

/-- A swap completes (07 R196, R201): the incoming bank is active, the outgoing stopped; res 1 normally, 7 forced. -/
def finishSwap (s : State) (i : Fin 16) (res : Nat) : State :=
  let old := s.get (ML_ST_ACT i)
  let s := setBank (setBank s i old 0) i (1 - old) 3
  let s := ((s.set (ML_ST_ACT i) (1 - old)).set (ML_ST_SWRES i) res).event (ML_EVT_SWDONE i)
  let s := (s.set (ML_SETL_LEN i) s.slots[i].inL).set (ML_GD_NS i) s.slots[i].inD
  s.modSlot i fun x => { x with inL := 0, inD := 0 }

/-- A suppression trigger or a stop during a warm-up or a fade completes the swap by force (07 R201). -/
def forceSwap (s : State) (i : Fin 16) : State :=
  if s.get (ML_ST_STATE i) = 3 ∨ s.get (ML_ST_STATE i) = 4 then (finishSwap s i 7).set (ML_ST_STATE i) 2 else s

/-- The grid times from a on, at the interval T, up to b. -/
def gridCount (a T : Nat) (b : Int) : Nat := if b < a then 0 else ((b - a) / T).toNat + 1

/-- The grid times below S still due at an old rate, when a change of the rate code waits for them (08 R210). -/
def oldDue (x : SlotState) : Nat :=
  match x.chg, x.nextT with
  | some (S, true, r), some t => gridCount t (interval r) ((S : Int) - 1)
  | _, _ => 0

/-- The grid time from which a slot's records lie at its rate code in effect. -/
def SlotState.newFrom (x : SlotState) : Option Nat :=
  match x.chg with
  | some (S, true, _) => some S
  | _ => x.nextT

/-- The markers a trigger at instant e leaves due (07 R199): the records not formed yet whose span reaches back to it, at most L of the rate code in effect. -/
def markersDue (s : State) (i : Fin 16) (e : Nat) : Nat :=
  match s.slots[i].newFrom with
  | none => 0
  | some t =>
    let (len, ns) := spanBank s i
    let T := interval s.slots[i].rate
    oldDue s.slots[i] + min len (gridCount t T ((e : Int) + len * T - 8 * ns))

/-- The slot is stopped by a STOP-class change at a time (08 R216, 15 R398). -/
def SlotState.stoppedAt (x : SlotState) (t : Nat) : Bool :=
  x.stop.any fun p => decide (p.1 ≤ t) && decide (t < p.2)

/-- An excitation change while markers are due counts a restart (07 R200); the eighth marks the slot never-settled. -/
def countRestart (s : State) (i : Fin 16) : State :=
  if s.get (ML_ST_RESTARTS i) < 8 then
    let s := s.set (ML_ST_RESTARTS i) (s.get (ML_ST_RESTARTS i) + 1)
    if s.get (ML_ST_RESTARTS i) = 8 then (s.set (ML_ST_NEVER i) 1).event (ML_EVT_NEVER i) else s
  else s

/-- A suppression trigger at instant e on a slot of 0 to 10 (07 R198 to R201), which clears its filter state: exc marks an excitation change, which counts a restart when markers are
still due. A slot that is not enabled is not triggered; a stopped one only counts it. -/
def suppressAt (s : State) (i : Fin 16) (exc : Bool) (e : Nat) : State :=
  if i.val ≤ 10 ∧ s.slots[i].en ∧ s.slots[i].resume then s.bump (ML_CNT_SUPCNT i) 1
  else if i.val ≤ 10 ∧ s.slots[i].en then
    let due := s.get (ML_ST_STATE i) == 1
    let s := forceSwap (s.bump (ML_CNT_SUPCNT i) 1) i
    let s := if due && exc then countRestart s i else s
    let s := s.modSlot i fun x => { x with trig := some e, sampled := false, mill := {} }
    (s.set (ML_ST_STATE i) 1).set (ML_SREM_REM i) (markersDue s i e)
  else s

/-- A suppression trigger now. -/
def suppress (s : State) (i : Fin 16) (exc : Bool) : State := suppressAt s i exc s.now

/-- A suppression trigger that is a channel switch on a list of slots (07 R198). -/
def channelSwitch (s : State) (l : List (Fin 16)) : State := l.foldl (fun s i => suppress s i false) s

/-- Slots 12 to 14 discard every housekeeping result that has reached them, and one timed before now that still comes (07 R180, R202); others hold none. -/
def discardResults (s : State) (i : Fin 16) : State :=
  if 12 ≤ i.val then s.modSlot i fun x => { x with hk := x.hk.map fun h => { h with live := false }, trig := some s.now } else s

/-- A synchronising reset of a list of slots (07 R180, R198, R202), counted once. -/
def syncReset (s : State) (l : List (Fin 16)) : State := (l.foldl discardResults (channelSwitch s l)).bump ML_GST_SYNCCNT 1

/-- The bank that runs when a slot is enabled or resumes becomes active (07 R194). -/
def startBank (s : State) (i : Fin 16) : State :=
  if i.val ≤ 10 then
    let act := if s.slots[i].everEnabled then s.get (ML_ST_ACT i) else 0
    let s := setBank (setBank (s.set (ML_ST_ACT i) act) i (1 - act) 0) i act 3
    showBank (s.modSlot i fun x => { x with everEnabled := true }) i
  else s.modSlot i fun x => { x with everEnabled := true }

/-- Both banks stop when a slot is disabled or stopped; a swap in progress completes first (07 R194, R201). -/
def stopBanks (s : State) (i : Fin 16) (st : Nat) : State :=
  if i.val ≤ 10 then
    let s := forceSwap s i
    ((setBank (setBank s i 0 0) i 1 0).set (ML_ST_STATE i) st).set (ML_SREM_REM i) 0
  else s

/-- Slot i is stopped by a STOP-class change from S up to S + 10 ms (08 R216, 15 R398): its banks stop, so that f may write them (07 R194, R195). A slot that is not
enabled takes f alone. -/
def stopWindow (s : State) (i : Fin 16) (S : Nat) (f : State → State) : State :=
  if s.slots[i].en then f (stopBanks (s.modSlot i fun x => { x with stop := (S, S + 80000000) :: x.stop, resume := true }) i 5) else f s

/-- The end e of a stop: the bank that was active runs again with a full settling, as after a channel switch (07 R194, R198; what the check of its contents, R195, could
then refuse is open, log entry 111). -/
def resumeSlot (s : State) (i : Fin 16) (e : Nat) : State := suppressAt (startBank (s.modSlot i fun x => { x with resume := false }) i) i false e

/-- Why a swap is refused, 0 when it is accepted (07 R197). -/
def swapRefusal (s : State) (i : Fin 16) : Nat :=
  let k := bankOf i (1 - s.get (ML_ST_ACT i))
  let st := s.get (ML_ST_STATE i)
  if st = 3 ∨ st = 4 then 2
  else if st ≠ 2 then 3
  else if (s.get (MB_HDR_SRC k) = 3 ∧ (s.get (MB_HDR_NTAP k) = 0 ∨ 256 < s.get (MB_HDR_NTAP k))) ∨ 4 < s.get (MB_HDR_NBQ k) then 4
  else if (sections s k).any fun q =>
      decide (2 ^ 28 ≤ absNat (coef s k q 4)) || decide (2 ^ 28 + coef s k q 4 ≤ absNat (coef s k q 3)) then 5
  else if 1048575 < (s.orFree (bankL s k s.slots[i].rate)).1 then 6
  else 0

/-- The incoming bank begins its warm-up with clear sections; the fade takes FADEK as it stands (07 R196, R204). -/
def MillState.begin (m : MillState) (inc len : Nat) : MillState :=
  let m := { m with fade := 0, fadeLen := len }
  if inc = 0 then { m with bank0 := {} } else { m with bank1 := {} }

/-- ML_CTL.SWAP (07 R196, R197). -/
def requestSwap (s : State) (i : Fin 16) : State :=
  let why := swapRefusal s i
  if why ≠ 0 then (((s.set (ML_ST_SWRES i) why).event (ML_EVT_SWREF i)).bump (ML_CNT_SWREF i) 1)
  else
    let inc := 1 - s.get (ML_ST_ACT i)
    let k := bankOf i inc
    let (l, s) := s.orFree (bankL s k s.slots[i].rate)
    let (d, s) := s.orFree (bankD s k s.slots[i].rate)
    let s := (setBank s i inc 1).modSlot i fun x => { x with inL := l, inD := d, mill := x.mill.begin inc (2 ^ s.get (ML_CFG_FADEK i)) }
    (s.set (ML_ST_STATE i) 3).set (ML_SREM_REM i) l

/-- The slots of the Mill that are enabled, in order. -/
def enabledSlots (s : State) : List (Fin 16) := (List.finRange 16).filter fun i => s.slots[i].en

/-- A write to a bank word of bank k (07 R195): taken only while the bank is stopped. -/
def writeBank (s : State) (k a : Nat) (v : Word) : State :=
  if bankState s (k / 2) (k % 2) = 0 then storeRw s a v
  else (s.event (ML_EVT_LDREJ (k / 2))).bump (ML_CNT_LDREJ (k / 2)) 1

/-- The bank a word belongs to (07 R206). -/
def bankWord (a : Nat) : Option Nat :=
  if 0xC00 ≤ a ∧ a < 0xEC0 then some ((a - 0xC00) / 0x20)
  else if 0x2000 ≤ a ∧ a < 0x3600 then some ((a - 0x2000) / 0x100)
  else none

/-- ML_SWAP. -/
def execMlSwap (door : Initiator) (slot : Fin 11) (s : State) : Host.Outcome State Fault Refusal :=
  .next (atDoor s door (0x411 + 0x40 * slot.val) fun s => requestSwap s (slot.castLE (by decide)))

/-- A swap of the slot goes on: on a G slot only while the drive is locked (07 R204). -/
def swapRuns (s : State) (i : Nat) : Bool := !(decide (6 ≤ i) && decide (i < 9)) || s.bit DRV_ST_LOCK

/-- SWAP_WARMUP_END (07 R196): the incoming bank has run its settling length, and both banks fade. -/
def execSwapWarmupEnd (slot : Fin 11) (s : State) : Host.Outcome State Fault Refusal :=
  .next (if s.alive ∧ s.get (ML_ST_STATE slot) = 3 ∧ s.get (ML_SREM_REM slot) = 0 ∧ swapRuns s slot then
      (((s.set (ML_ST_STATE slot) 4).set (ML_ST_BST0 slot) 2).set (ML_ST_BST1 slot) 2)
    else s)

/-- SWAP_FADE_END (07 R196): after the fade's last record the incoming bank is active. -/
def execSwapFadeEnd (slot : Fin 11) (s : State) : Host.Outcome State Fault Refusal :=
  .next (if s.alive ∧ s.get (ML_ST_STATE slot) = 4 ∧ s.slots[slot.val].mill.fadeLen ≤ s.slots[slot.val].mill.fade ∧ swapRuns s slot then
      (finishSwap s (slot.castLE (by decide)) 1).set (ML_ST_STATE slot) 2
    else s)

/-- MILL_BANK_WRITE. -/
def execMillBankWrite (door : Initiator) (addr : Nat) (v : Word) (s : State) : Host.Outcome State Fault Refusal :=
  .next (match bankWord addr with
    | none => s
    | some k => atDoor s door addr fun s => writeBank s k addr v)

/-- MILL_ECC_CORRECT (07 R202). -/
def execMillEccCorrect (s : State) : Host.Outcome State Fault Refusal :=
  .next (if s.alive then s.bump ML_GST_ECCCNT 1 else s)

/-- SLOT_SETTLED (07 R199, R200): the slot has delivered its first sample since the trigger. -/
def execSlotSettled (slot : Fin 11) (s : State) : Host.Outcome State Fault Refusal :=
  .next (if s.alive ∧ s.get (ML_ST_STATE slot) = 1 ∧ s.slots[slot.val].sampled then
      ((((s.set (ML_ST_STATE slot) 2).set (ML_SREM_REM slot) 0).set (ML_ST_RESTARTS slot) 0).set (ML_ST_NEVER slot) 0).event (ML_EVT_SETTLED slot)
    else s)

end Sys2Proof.Machine
end

