-- ==== Sys2Proof/Machine/Hk.lean ====
section
/-!
DEFINITION. The housekeeping converter's shared operations (05 R131 to R144): injection requests, the sequence check, what a result does, and reference
settling.
-/

namespace Sys2Proof.Machine

/-- Entry n of the running sequence (05 R132). -/
def hkEntry (s : State) (n : Nat) : Nat := s.hk.seq.getD n 0

/-- The input code of a sequence entry (05 R151: bits [31:26]). -/
def hkInput (e : Nat) : Nat := e / 2 ^ 26 % 64

/-- The destination code of a sequence entry (bits [12:10]). -/
def hkDest (e : Nat) : Nat := e / 2 ^ 10 % 8

/-- The number of conversions of an entry (05 R132: bits [15:13]). -/
def hkAvg (e : Nat) : Nat := 2 ^ (e / 2 ^ 13 % 8)

/-- The gain of an entry (05 R151: bits [25:24], 0 ×1, 1 ×2, 2 ×4, 3 ×8). -/
def hkGain (e : Nat) : Nat := 2 ^ (e / 2 ^ 24 % 4)

/-- The entry time in converter clocks (05 R132). -/
def hkEntryTime (e : Nat) : Nat := hkAvg e * (e / 2 ^ 16 % 256 + 13)

/-- The code of a converter input in 1/256 LSB (05 R125): the nearest code, clamped; how a converter settles an input midway between two codes is open (log
entry 111). -/
def converterCode (x : Int) : Int := clampInt (-8192) 8191 ((x + 128) / 256)

/-- The over-range bit of an input (05 R125): its ideal code lies above +8191.5 or below -8192.5. -/
def overRange (x : Int) : Bool := decide (2097024 < x) || decide (x < -2097280)

/-- The span of an input at gain ×1 (05 R483): its least and greatest value in the unit of the result (R131); none for ZERO, which has no pre-scaler. -/
def hkSpan (input : Nat) : Option (Int × Int) :=
  if input < 5 ∨ input = 0x11 then some (-10000, 20000)
  else if input = 0x05 ∨ input = 0x0C then some (0, 110000)
  else if input = 0x06 then some (0, 15000)
  else if input = 0x07 then some (0, 4000)
  else if input = 0x08 then some (0, 2200)
  else if input = 0x09 ∨ input = 0x0A then some (0, 1000)
  else if input = 0x0B ∨ input = 0x27 then some (0, 30000)
  else if input = 0x0D ∨ input = 0x0E ∨ input = 0x0F then some (-6000, 6000)
  else if 0x1C ≤ input ∧ input ≤ 0x25 then some (-3000, 3000)
  else if input = 0x10 then none
  else some (0, 15000)

/-- The code and the over-range bit of one conversion at gain G of an input x in 1/256 of its unit (05 R483): half the span's width lies at 7 372.8 codes, 90 % of the
converter's span, and over-range begins at 8 192; an input midway between two codes takes the upper one (log entry 111). -/
def hkCode (span : Option (Int × Int)) (G : Nat) (x : Int) : Int × Bool :=
  match span with
  | none => (converterCode (x * G), overRange (x * G))
  | some (lo, hi) =>
    let n := (2 * x - (lo + hi) * 256) * 147456 * G
    let d := 2 * 256 * 10 * (hi - lo)
    (clampInt (-8192) 8191 ((2 * n + d) / (2 * d)), decide (8192 * d < absNat n))

/-- The result of an entry from the codes of its conversions (05 R131 to R133, R483): their mean, with gain and pre-scaling removed, to the nearest unit, ties to even (log
entry 111). -/
def hkMean (span : Option (Int × Int)) (G : Nat) (codes : List Int) : Int :=
  match span with
  | none => roundEven codes.sum (codes.length * G)
  | some (lo, hi) => roundEven (20 * (hi - lo) * codes.sum + (lo + hi) * (147456 * G * codes.length)) (2 * 147456 * G * codes.length)

/-- The value and OVR of an entry or injection (05 R130, R133, R483) whose conversions took the inputs xs, in 1/256 unit; an input that the command does not bring is 0. -/
def hkConvert (e : Nat) (xs : List Int) : Int × Bool :=
  let l := (List.range (hkAvg e)).map fun k => hkCode (hkSpan (hkInput e)) (hkGain e) (xs.getD k 0)
  (hkMean (hkSpan (hkInput e)) (hkGain e) (l.map (·.1)), l.any (·.2))

/-- The pass time of a sequence in converter clocks (05 R132). -/
def hkPassTime (l : List Nat) : Nat := (l.map hkEntryTime).sum

/-- The shadow sequence: the entries in use (05 R135). -/
def hkShadow (s : State) : List Nat := (List.range (s.get HK_CTL_LEN + 1)).map fun n => (s.word (0x810 + n)).toNat

/-- Why the shadow sequence is refused, 0 when it passes (05 R136). -/
def hkRefusal (l : List Nat) : Nat :=
  if l.any fun e => decide (0x28 ≤ hkInput e) then 1
  else if l.any fun e => decide (4 ≤ hkDest e) then 2
  else if !((List.range 5).all fun c => l.any fun e => hkInput e == c) then 3
  else if l.any fun e => l.any fun f => hkDest e != 0 && hkDest e == hkDest f && hkInput e != hkInput f then 4
  else if 500000 < hkPassTime l then 5
  else 0

/-- Injection k is pending. -/
def injPending (s : State) (k : Nat) : Bool := (s.get HK_ST_INJPEND).testBit k

/-- A request for injection k (05 R137 to R140): merged into a pending one, else pending; in abort mode it stops the running sequence
entry. -/
def requestInj (s : State) (k : Nat) : State :=
  if injPending s k then s.bump HK_CNT_INJMRG 1
  else
    let s1 := s.set HK_ST_INJPEND (s.get HK_ST_INJPEND + 2 ^ k)
    if s.bit (HK_INJCFG_ABORT k) && s.hk.run.isNone && s.hk.aborted.isNone && !s.hk.turn then
      { s1 with hk := { s1.hk with aborted := some k, began := true } }.bump HK_CNT_ABORTS 1
    else s1

/-- SUP sets injection 1 to an input, gain ×1, with the track and average of its reset value, and requests it (05 R137, R152, 09 R234). -/
def requestSup (s : State) (input : Nat) : State := requestInj (s.setWord 0x831 (BitVec.ofNat 32 (input * 2 ^ 26 + 0x3F8000))) 1

/-- Store a result at word a, laid out as HK_RESn (05 R133, R141, R151), and count a not-settled or over-range one (05 R130, R144). -/
def storeResult (s : State) (a : Nat) (value : Int) (ovr notset : Bool) : State :=
  let w := twos value 24 * 256 + bitIf notset 2 + bitIf ovr 1 + 1
  let s := ((s.event ⟨a, 0, 1⟩).setWord a (BitVec.ofNat 32 w)).when ovr (·.event HK_EVT_OVR)
  s.when notset (·.bump HK_CNT_NOTSET 1)

/-- Whether an entry of T converter clocks that ends now holds a not-settled conversion: REFBUF has not been ready since before its start (05 R143, R144). A
converter clock is 4 CLK ticks (01 R17). -/
def refNotSettled (s : State) (T : Nat) : Bool :=
  match s.hk.refAt with
  | none => true
  | some k => decide (s.pwr.ticks - 4 * T < k)

/-- Pass a valid result to slot 11 + dest (05 R133, R134); one that is timed before the last time step or synchronising reset is discarded there (07 R202). -/
def passResult (s : State) (dest : Nat) (t : Nat) (value : Int) (ovr : Bool) : State :=
  let put (i : Fin 16) : State :=
    s.modSlot i fun x => { x with hk := ⟨t, value, ovr, decide (s.time.base ≤ t) && x.trig.all fun e => decide (e ≤ t)⟩ :: x.hk.take 255 }
  match dest with
  | 1 => put 12
  | 2 => put 13
  | 3 => put 14
  | _ => s

/-- Mark the samples of every axis converter settled or not (05 R143, R151). -/
def setNotset (s : State) (b : Bool) : State := (List.range 10).foldl (fun s i => s.setB (CV_ST_NOTSET i) b) s

/-- The not-settled times with one open from t on. -/
def openSpan (l : List (Nat × Option Nat)) (t : Nat) : List (Nat × Option Nat) :=
  match l with
  | (_, none) :: _ => l
  | _ => (t, none) :: l

/-- The open time, if there is one, ends at t. -/
def closeSpan (l : List (Nat × Option Nat)) (t : Nat) : List (Nat × Option Nat) :=
  match l with
  | (a, none) :: l => (a, some t) :: l
  | _ => l

/-- REFBUF is switched on or off (05 R143): REFRDY falls and every conversion is not-settled. -/
def refUnsettle (s : State) : State :=
  setNotset ({ s with hk := { s.hk with unsettled := openSpan s.hk.unsettled s.now, refAt := none } }.set HK_ST_REFRDY 0) true

/-- REFBUF has been enabled for 2 ms (05 R143). -/
def refReady (s : State) : State :=
  setNotset ({ s with hk := { s.hk with unsettled := closeSpan s.hk.unsettled s.now, refAt := some s.pwr.ticks } }.set HK_ST_REFRDY 1) false

/-- A measurement's records reach over a length of time in 1/8 ns (05 R146, 06 R166). -/
def Collect.full (c : Collect) (len : Nat) : Bool := c.first.any fun f => decide (f + len ≤ c.upto)

/-- The axis slots, in order. -/
def axisSlots : List (Fin 16) := [0, 1, 2, 3, 4, 5, 6, 7, 8, 9]

/-- The slots whose converter uses REFBUF's settling: the axes and AUX (05 R143, 06 R155). -/
def refSlots : List (Fin 16) := axisSlots ++ [10]

/-- The effect of a write to HK_CTL (05 R135, R143, R151): MAXAGE 0 is ignored, LEN goes to the shadow; REFEN from 0 to 1 starts the 2 ms, and is cleared
only in SERVICE. -/
def writeHkCtl (s : State) (v : Word) : State :=
  let old := s.bit HK_CTL_REFEN
  let new := getBits v 4 1 == 1
  let s := s.set HK_CTL_LEN (getBits v 0 4)
  let s := if getBits v 24 8 = 0 then s else s.set HK_CTL_MAXAGE (getBits v 24 8)
  if !old && new then refUnsettle (s.set HK_CTL_REFEN 1)
  else if old && !new && s.mode == 9 then refUnsettle (s.set HK_CTL_REFEN 0)
  else s

end Sys2Proof.Machine
end

