-- ==== Sys2Proof/Machine/Cal.lean ====
section
/-!
DEFINITION. Self-calibration (09): triggers, runs, slewing, class B walks and the calibration store.
-/

namespace Sys2Proof.Machine

/-- Replace one axis of self-calibration. -/
def State.modCal (s : State) (i : Fin 10) (f : CalAxis → CalAxis) : State :=
  { s with cal := { s.cal with axes := s.cal.axes.set i (f s.cal.axes[i]) } }

/-- The slot of an axis. -/
def axisSlot (i : Fin 10) : Fin 16 := i.castLE (by decide)

/-- The axis of a slot, if it has one. -/
def slotAxis (i : Fin 16) : Option (Fin 10) := if h : i.val < 10 then some ⟨i.val, h⟩ else none

/-- A G axis. -/
def isG (i : Nat) : Bool := decide (6 ≤ i) && decide (i ≤ 8)

/-- The G axes. -/
def gAxes : List (Fin 10) := [6, 7, 8]

/-- A LSB of an acceleration axis's records in µg (04 R96). -/
def axisUg (i : Nat) : Int := if i < 3 then 50 else 1

/-- The run that is due on an axis is deferred by slope now (09 R231): the axis is PENDING, also while it still slews (R233, R246). -/
def deferred (s : State) (i : Fin 10) : Bool :=
  (s.get (CAL_ST_STATE i) == 1 || (s.get (CAL_ST_STATE i) == 3 && s.cal.axes[i].due)) && s.bit CAL_GST_DEFER && !s.cal.axes[i].nosl

/-- Follow for every axis since when it has been deferred by slope, and until when (09 R231). -/
def thermUpdate (s : State) : State :=
  (List.finRange 10).foldl (fun s (i : Fin 10) =>
    let d := deferred s i
    s.modCal i fun x => { x with therm := if d then openSpan x.therm s.now else closeSpan x.therm s.now }) s

/-- A trigger of 09 R228 on an axis: slope whether it is deferred by slope, degr whether it also acts in DEGRADED. -/
def calTrigger (s : State) (i : Fin 10) (slope degr : Bool) : State :=
  let st := s.get (CAL_ST_STATE i)
  let s :=
    if st = 4 ∧ !degr then s
    else if st = 0 ∨ st = 4 then (s.set (CAL_ST_STATE i) 1).modCal i fun x => { x with nosl := !slope, due := false }
    else if st = 1 then s.modCal i fun x => { x with nosl := x.nosl || !slope }
    else s.modCal i fun x => { x with due := true, nosl := if x.due then x.nosl || !slope else !slope }
  thermUpdate s

/-- The state an axis takes when its run or slewing is over (09 R226, R246): PENDING when a run is due again, else IDLE, or DEGRADED again when only a shared drive step put it in
SLEWING (log entry 114). -/
def calRest (s : State) (i : Fin 10) : State :=
  let s := if s.cal.axes[i].due then (s.set (CAL_ST_STATE i) 1).modCal i fun x => { x with due := false }
    else s.set (CAL_ST_STATE i) (if s.get (CAL_ST_FAILS i) = 3 then 4 else 0)
  thermUpdate s

/-- The down count of an axis's range stands at 0 (04 R106). -/
def clearQuiet (s : State) (i : Fin 10) : State :=
  ((s.modAxis i fun a => { a with quiet := 0 }).set (AX_ST_DNHOLD i) 0).set (AX_ST_HOLDMS i) 0

/-- The axis whose run is under way (09 R247: RUNAX). -/
def runAxis (s : State) : Option (Fin 10) := if h : s.get CAL_GST_RUNAX < 10 then some ⟨s.get CAL_GST_RUNAX, h⟩ else none

/-- A run ends, with or without a result: the hold's end, and the range is free again with its down count at 0 (07 R203, 04 R106, R120). -/
def endRun (s : State) (i : Fin 10) : State :=
  let s := { s with cal := { s.cal with phase := 0, endedAt := some s.now } }.set CAL_GST_RUNAX 0xF
  let s := clearQuiet (s.modSlot (axisSlot i) fun x => { x with holdTo := some s.now }) i
  if s.axes[i].crossing then
    s.modAxis i fun a => { a with crossing := false, pendRange := some (s.get (AX_ST_PRANGE i) + 1) }
  else s

/-- A run is abandoned (09 R236). -/
def abandonRun (s : State) (i : Fin 10) : State :=
  let s := ((endRun s i).event CAL_EVT_ABAND).bump (CAL_ST_ABAND i) 1
  thermUpdate ((s.set (CAL_ST_STATE i) 0).modCal i fun x => { x with due := false, aband := true })

/-- Abandon the run of axis i if it is the one under way. -/
def abandonIf (s : State) (i : Fin 10) : State := if runAxis s = some i then abandonRun s i else s

/-- Abandon whatever run is under way. -/
def abandonAny (s : State) : State :=
  match runAxis s with
  | none => s
  | some i => abandonRun s i

/-- A STOP-class change stops slot i from S up to S + 10 ms while f acts (07 R194, 08 R216); a run on its axis is abandoned (09 R236). -/
def stopSlot (s : State) (i : Fin 16) (S : Nat) (f : State → State) : State :=
  let s := match slotAxis i with
    | none => s
    | some a => abandonIf s a
  stopWindow s i S f

/-- A suppression trigger on a slot abandons its axis's run (09 R236); the synchronising reset of a time step does not come through here. -/
def suppressCal (s : State) (i : Fin 16) (exc : Bool) : State :=
  let s1 := suppress s i exc
  match slotAxis i with
  | none => s1
  | some a => abandonIf s1 a

/-- The scheduler may start runs in this mode (09 R232): RUN, WATCH and CLEAN; in SERVICE only for named axes. -/
def runPermitted (s : State) (i : Fin 10) : Bool :=
  s.mode == 6 || s.mode == 7 || s.mode == 8 || (s.mode == 9 && s.cal.axes[i].named)

/-- An axis's own trims, residuals and QCOEF are at their targets (09 R237, R239). -/
def trimsAtTarget (s : State) (i : Fin 10) : Bool :=
  let x := s.cal.axes[i]
  s.getI (CAL_OFS_DAC i) == x.ofsDac && s.getI (CAL_OFS_RES i) == x.ofsRes && s.getI (CAL_GAIN_DAC i) == x.gainDac &&
  s.getI (CAL_GAIN_RES i) == x.gainRes && (match x.qTarget with | none => true | some q => s.getI (AX_CFG_QCOEF i) == q)

/-- An axis's corrections are at their targets (09 R237), on G the shared drive trim among them. -/
def axisAtTarget (s : State) (i : Fin 10) : Bool := trimsAtTarget s i && (!isG i || s.getI CAL_DRV_DAC == s.cal.drvTarget)

/-- A due run of the axis may start (09 R228, R230, R232, R233). -/
def runEligible (s : State) (i : Fin 10) : Bool :=
  s.get (CAL_ST_STATE i) == 1 && !deferred s i && runPermitted s i && !s.bit (CV_ST_GATED i) && (!isG i || s.bit DRV_ST_LOCK) && axisAtTarget s i

/-- 50 ms have passed since the last run ended (09 R233), in 1/8 ns. -/
def runSpaced (s : State) : Bool := s.cal.endedAt.all fun e => decide (e + 400000000 ≤ s.now)

/-- The axis whose run starts next, if one may (09 R233, 05 R142). -/
def nextRun (s : State) : Option (Fin 10) :=
  if (runAxis s).isNone && runSpaced s && s.get HK_ST_INJPEND == 0 && s.hk.run.isNone then (List.finRange 10).find? (runEligible s) else none

/-- Start a run (09 R234): hold the axis, freeze its range, and ask for the watched temperature. -/
def startRun (s : State) (i : Fin 10) : State :=
  let s := clearQuiet ((s.set (CAL_ST_STATE i) 2).set CAL_GST_RUNAX i) i
  let s := s.modCal i fun x => { x with due := false, nosl := false, retry := false, aband := false, named := false }
  let s := { s with cal := { s.cal with phase := 1, bad := false, exc := 0, drvAmp := 0 } }
  let s := s.modSlot (axisSlot i) fun x => { x with holdFrom := some s.now, holdTo := none }
  thermUpdate (requestSup s (if isG i then 2 else 1))

/-- A result of injection 1 during a run (09 R234, R241): the reference temperature, then EXCi, then on G DRVAMP. A not-settled temperature leaves the reference
temperature of R227 as it is, and an axis without one still has none (DESIGN CHOICE, log entry 114: the spec does not say). -/
def runResult (s : State) (value : Int) (notset : Bool) : State :=
  match runAxis s with
  | none => s
  | some i =>
    let s := if notset then { s with cal := { s.cal with bad := true } } else s
    match s.cal.phase with
    | 1 =>
      let s := if notset then s else (s.setI (CAL_TREF_TREF i) value).modCal i fun x => { x with hadRun := true }
      { requestSup s (0x12 + i) with cal := { s.cal with phase := 2 } }
    | 2 =>
      let s := { s with cal := { s.cal with exc := value } }
      if isG i then { requestSup s 0x26 with cal := { s.cal with phase := 3 } } else { s with cal := { s.cal with phase := 4 } }
    | 3 => { s with cal := { s.cal with phase := 4, drvAmp := value } }
    | _ => s

/-- One offset DAC LSB in record LSB (09 R235, 04 R96). -/
def ofsLsb (i : Nat) : Int := if i < 3 then 4 else if isG i then 40 else 10

/-- The offset change limit per run in record LSB (09 R235). -/
def ofsLimit (i : Nat) : Int := if i < 3 then 400 else if isG i then 4000 else 500

/-- The nominal EXC result of an axis's level, in 0.01 % of level 3 (09 R241, 04 R102). -/
def excNominal (s : State) (i : Nat) : Int := 2500 * (s.get (AX_CFG_EXCLVL i) + 1)

/-- The gain change of a run in 2^-26 (09 R235): what the stimulus found; on Q what brings the EXC9 result back to its nominal value (log entry 114). -/
def runGain (s : State) (i : Fin 10) (m : CalMeasure) : Int :=
  if i.val = 9 then roundEven ((excNominal s i - s.cal.exc) * 2 ^ 26) (excNominal s i) else m.gain

/-- Why a run fails, 0 when it passes its check (09 R241). -/
def runFailure (s : State) (i : Fin 10) (m : CalMeasure) : Nat :=
  if s.cal.bad ∨ s.cal.phase ≠ 4 then 5
  else if excNominal s i < 20 * absNat (s.cal.exc - excNominal s i) then 3
  else if isG i && (decide (s.cal.drvAmp < 9500) || decide (10500 < s.cal.drvAmp)) then 4
  else if 2 ^ 26 < 50 * absNat (runGain s i m) then 1
  else if ofsLimit i * 256 < absNat m.ofs then 2
  else 0

/-- Split a correction into DAC steps of size lsb and the rest, which is smaller than a step (09 R237); the DAC stays in its 12 signed bits. -/
def splitTrim (total lsb : Int) : Int × Int :=
  let d := clampInt (-2048) 2047 (total.tdiv lsb)
  (d, total - d * lsb)

/-- Q at the end of a run, for the run after it (09 R239); none while Q is gated. -/
def noteRunQ (s : State) (i : Fin 10) : State :=
  s.modCal i fun x => { x with qAt := if s.bit ID_DOMST_QG then none else some (s.getI Q_CORR_UG) }

/-- QCOEF's new target after a run that passed with the offset change ofs in 1/256 LSB (09 R239): only for QEN axes 0 to 5, when Q was not gated since the previous run and
moved by 20 µg, 5 120 LSB of Q_CORR; what the ratio, in 1/64, leads to within 0x20 to 0x60 the spec does not state (log entry 13). -/
def updateQcoef (s : State) (i : Fin 10) (ofs : Int) : State :=
  match s.cal.axes[i].qAt with
  | none => s
  | some p =>
    let d := s.getI Q_CORR_UG - p
    if decide (i.val < 6) && s.bit (AX_CFG_QEN i) && decide (5120 ≤ absNat d) then
      let ratio := roundEven (64 * ofs * axisUg i * (if d < 0 then -1 else 1)) (absNat d)
      s.modCal i fun x => { x with qTarget := some (clampInt 0x20 0x60 (Config.qcoef (s.getI (AX_CFG_QCOEF i)) ratio)).toNat }
    else s

/-- A run that passed its check (09 R235, R237, R242): new targets, and the axis slews; with a changed drive trim a run of the two other G axes is due (R228). The gain
residual is rounded to the nearest 2^-26, ties to even (DESIGN CHOICE, log entry 114: the spec states no rounding). -/
def passRun (s : State) (i : Fin 10) (m : CalMeasure) : State :=
  let (od, ores) := splitTrim (s.getI (CAL_OFS_DAC i) * ofsLsb i * 256 + s.getI (CAL_OFS_RES i) + m.ofs) (ofsLsb i * 256)
  let drvNew := if isG i then clampInt (-2048) 2047 (s.getI CAL_DRV_DAC - (s.cal.drvAmp - 10000)) else s.getI CAL_DRV_DAC
  let moved := drvNew - s.getI CAL_DRV_DAC
  let (gd, gres) := splitTrim (s.getI (CAL_GAIN_DAC i) * 2 ^ 26 + (s.getI (CAL_GAIN_RES i) + runGain s i m) * 10000 - moved * 2 ^ 26) (2 ^ 26)
  let s := (((s.event CAL_EVT_DONE).bump (CAL_ST_RUNS i) 1).set (CAL_ST_FAILS i) 0).set (CAL_ST_STATE i) 3
  let s := s.modCal i fun x => { x with ofsDac := od, ofsRes := ores, gainDac := gd, gainRes := roundEven gres 10000 }
  let s := thermUpdate (noteRunQ (updateQcoef s i m.ofs) i)
  if isG i && moved != 0 then
    let s := { s with cal := { s.cal with drvTarget := drvNew } }
    gAxes.foldl (fun s (j : Fin 10) => if j = i then s else calTrigger s j false false) s
  else s

/-- A run that failed (09 R241, R242). A run that became due while this one ran, also by a trigger marked also DEGRADED, is dropped when this is the third failure
(DESIGN CHOICE, log entry 114: the spec does not say). -/
def failRun (s : State) (i : Fin 10) (why : Nat) : State :=
  let n := min 3 (s.get (CAL_ST_FAILS i) + 1)
  let s := ((s.event CAL_EVT_FAIL).set (CAL_ST_FAILS i) n).set (CAL_ST_REASON i) why
  let s := noteRunQ (s.modCal i fun x => { x with retry := true }) i
  if n = 3 then thermUpdate (((s.set (CAL_ST_STATE i) 4).event CAL_EVT_DEGR).modCal i fun x => { x with due := false }) else calRest s i

/-- One step of a trim toward its target (09 R237). -/
def stepToward (x target : Int) : Int := if x < target then x + 1 else if target < x then x - 1 else x

/-- One step of a DAC with its residual, which takes effect at the last step (09 R237). -/
def stepTrim (s : State) (dac res : Field) (target rtarget : Int) : State :=
  let s := s.setI dac (stepToward (s.getI dac) target)
  if s.getI dac = target then s.setI res rtarget else s

/-- The slewings of an axis after a step now (09 R238); the last step ends the slewing. -/
def CalAxis.stepped (x : CalAxis) (now : Nat) (last : Bool) : CalAxis :=
  let l := openSpan x.slews now
  { x with slews := if last then closeSpan l now else l, lastStep := now }

/-- Note the instant of a class A step of an axis (09 R238). -/
def noteStep (s : State) (i : Fin 10) : State := s.modCal i fun x => x.stepped s.now (axisAtTarget s i)

/-- An axis whose slewing has ended leaves SLEWING (09 R237). -/
def endSlew (s : State) (i : Fin 10) : State :=
  if s.get (CAL_ST_STATE i) = 3 ∧ axisAtTarget s i then calRest s i else s

/-- One class A step of an axis (09 R237, R239): its trims, residuals and QCOEF. -/
def slewAxis (s : State) (i : Fin 10) : State :=
  let x := s.cal.axes[i]
  let moves := !trimsAtTarget s i
  let s := stepTrim s (CAL_OFS_DAC i) (CAL_OFS_RES i) x.ofsDac x.ofsRes
  let s := stepTrim s (CAL_GAIN_DAC i) (CAL_GAIN_RES i) x.gainDac x.gainRes
  let s := match x.qTarget with
    | none => s
    | some q => s.setI (AX_CFG_QCOEF i) (stepToward (s.getI (AX_CFG_QCOEF i)) q)
  endSlew (s.when moves (noteStep · i)) i

/-- A drive amplitude step puts a G axis in SLEWING (09 R237); a run that is due on it stays due. -/
def slewWithDrive (s : State) (i : Fin 10) : State :=
  let pending := s.get (CAL_ST_STATE i) = 1
  let s := (s.set (CAL_ST_STATE i) 3).modCal i fun x => { x with due := x.due || pending }
  endSlew (noteStep s i) i

/-- One step of the shared drive amplitude trim (09 R235, R237): a step of all three G axes. -/
def slewDrive (s : State) : State :=
  if s.getI CAL_DRV_DAC = s.cal.drvTarget then s
  else gAxes.foldl slewWithDrive (s.setI CAL_DRV_DAC (stepToward (s.getI CAL_DRV_DAC) s.cal.drvTarget))

/-- A tap of a register (09 R247). -/
def tapOf (w : Word) (lo : Nat) : Nat := getBits w lo 6

/-- The places of the port taps TXA, RXA, TXB, RXB (09 R247). -/
def portTapLo : List Nat := [24, 16, 8, 0]

/-- Move the taps at the given places of a register one tap toward their targets (09 R240). -/
def walkTaps (w : Word) (places targets : List Nat) : Word :=
  (places.zip targets).foldl (fun w (lo, t) => setBits w lo 6 (stepToward (tapOf w lo) t).toNat) w

/-- The six-bit places of CAL_STRB0 and CAL_STRB1. -/
def strobeLo : List Nat := [0, 6, 12, 18, 24]

/-- The port tap targets (CAL_TAPT). -/
def portTargets (s : State) : List Nat := portTapLo.map (tapOf (s.word 0x1042))

/-- Whether a class B trim is away from its target (09 R247: BWALK). -/
def classBAway (s : State) : Bool :=
  portTapLo.map (tapOf (s.word 0x1041)) != portTargets s ||
  strobeLo.map (tapOf (s.word 0x1043)) ++ strobeLo.map (tapOf (s.word 0x1044)) != s.cal.strobe ||
  [8, 0].map (tapOf (s.word 0x1045)) != s.cal.auxTap

/-- Show whether a class B trim is away from its target. -/
def showWalk (s : State) : State := s.setB CAL_GST_BWALK (classBAway s)

/-- A class B step of every trim (09 R240); the port taps stand while the re-route guard is open. -/
def walkClassB (s : State) : State :=
  let s := if s.bit TIME_ST_GUARD then s else s.setWord 0x1041 (walkTaps (s.word 0x1041) portTapLo (portTargets s))
  let s := s.setWord 0x1043 (walkTaps (s.word 0x1043) strobeLo (s.cal.strobe.take 5))
  let s := s.setWord 0x1044 (walkTaps (s.word 0x1044) strobeLo (s.cal.strobe.drop 5))
  showWalk (s.setWord 0x1045 (walkTaps (s.word 0x1045) [8, 0] s.cal.auxTap))

/-- A measured target, limited to 2 to 61 (09 R240). -/
def limitTap (t : Nat) : Nat := max 2 (min 61 t)

/-- Class B targets in the order ports, strobes, AUX thresholds: outside 2 to 61 they are set to the nearest limit (09 R240). -/
def setTaps (s : State) (raw : List Nat) : State :=
  let taps := raw.map limitTap
  let s := if raw = taps then s else s.event CAL_EVT_BLIMIT
  let s := s.setWord 0x1042 ((portTapLo.zip (taps.take 4)).foldl (fun w (lo, t) => setBits w lo 6 t) (s.word 0x1042))
  { s with cal := { s.cal with hadB := true, strobe := (taps.drop 4).take 10, auxTap := taps.drop 14 } }

/-- Take measured class B targets (09 R227, R229, R240). -/
def measureClassB (s : State) (m : ClassB) : State :=
  let s := setTaps s ((List.range 16).map fun n => m.taps.getD n 32)
  let s := match s.hk.temps[0] with
    | none => s
    | some t => s.setI CAL_TREFB_TREF t
  showWalk s

/-- The triggers at the end of SETTLE (09 R228, R229): every axis, and class B. -/
def calSettle (s : State) (m : ClassB) : State :=
  measureClassB ((List.finRange 10).foldl (fun s (i : Fin 10) => calTrigger s i false true) s) m

/-- Targets of a class B measurement that no command brings: what the measurement finds is left open (09 R240; log entry 4). -/
def freeTargets (s : State) (n : Nat) : ClassB × State :=
  match n with
  | 0 => ({}, s)
  | k + 1 => let r := freeTargets s.freeWord.2 k
             ({ taps := (s.freeWord.1.toNat % 64) :: r.1.taps }, r.2)

/-- SETTLE is left without SETTLE_EXIT (16 R411, R414): the same triggers. -/
def leaveSettle (s : State) : State := calSettle (freeTargets s 16).2 (freeTargets s 16).1

/-- A watched temperature's valid result (09 R227 to R229): input 0 TCTRL, 1 TACC, 2 TRATE. -/
def watchTemp (s : State) (input : Nat) (v : Int) (m : ClassB) : State :=
  let lim := (s.get CAL_CTL_DTA : Int) * 10
  let axes : List (Fin 10) := if input = 1 then [0, 1, 2, 3, 4, 5, 9] else if input = 2 then gAxes else []
  let s := axes.foldl (fun s (i : Fin 10) =>
    if s.cal.axes[i].hadRun && decide (lim < absNat (v - s.getI (CAL_TREF_TREF i))) then calTrigger s i true false else s) s
  if input = 0 ∧ s.cal.hadB ∧ (s.get CAL_CTL_DTB : Int) * 10 < absNat (v - s.getI CAL_TREFB_TREF) then measureClassB s m else s

/-- CAL_BIND (09 R244): the first 32 bits of SHA-256 over CAL_SN, low half first, and the store words, each little-endian. -/
def calBind (snLo snHi : Word) (store : List Word) : Word :=
  BitVec.ofNat 32 (sha256 ((snLo :: snHi :: store).flatMap fun w => leBytes 4 w.toNat) / 2 ^ 224)

/-- The live store: words 0x1010 to 0x1046 (09 R243). -/
def calStore (s : State) : List Word := (List.range 55).map fun n => s.word (0x1010 + n)

/-- A word of the shadow. -/
def shadowWord (s : State) (a : Nat) : Word := s.cal.shadow.getD (a - 0x1010) 0

/-- A signed field of a shadow word. -/
def shadowField (s : State) (f : Field) : Int := signed (getBits (shadowWord s f.word) f.lo f.width) f.width

/-- The temperature fits 09 R245, reason 0x07. -/
def trefOk (t : Int) : Bool := decide (-4000 ≤ t) && decide (t ≤ 14000)

/-- Why a commit is refused, 0 when it is accepted (09 R245). -/
def commitRefusal (s : State) : Nat :=
  if s.get CAL_RSTST_VIEW ≠ 2 then 1
  else if !(decide (5 ≤ s.mode) && decide (s.mode ≤ 9)) then 2
  else if (runAxis s).isSome then 3
  else if calBind (s.word 0x1004) (s.word 0x1005) s.cal.shadow ≠ s.cal.bind then 4
  else if (List.range 10).any fun i =>
      decide (4 * ofsLimit i * 256 < absNat (shadowField s (CAL_OFS_DAC i) * ofsLsb i * 256 + shadowField s (CAL_OFS_RES i))) then 5
  else if ((List.range 10).any fun i =>
      decide (500 * 2 ^ 26 < absNat (shadowField s (CAL_GAIN_DAC i) * 2 ^ 26 + shadowField s (CAL_GAIN_RES i) * 10000))) ||
      decide (500 < absNat (shadowField s CAL_DRV_DAC)) then 6
  else if !(((List.range 10).all fun i => trefOk (shadowField s (CAL_TREF_TREF i))) && trefOk (shadowField s CAL_TREFB_TREF)) then 7
  else 0

/-- A slewing of an axis that has nothing left to step ended with its last step (09 R238). -/
def settleSlews (s : State) (i : Fin 10) : State :=
  if axisAtTarget s i then s.modCal i fun x => { x with slews := closeSpan x.slews x.lastStep } else s

/-- Take the written store (09 R245): trims and residuals become the targets, from the present values on, class B targets within their limits (R240), reference
temperatures are taken, every axis that is not PENDING is IDLE; one that slews with a run due is PENDING (R233). -/
def takeStore (s : State) : State :=
  let s := (List.finRange 10).foldl (fun s (i : Fin 10) =>
    let s := s.modCal i fun x =>
      { x with ofsDac := shadowField s (CAL_OFS_DAC i), ofsRes := shadowField s (CAL_OFS_RES i), gainDac := shadowField s (CAL_GAIN_DAC i),
               gainRes := shadowField s (CAL_GAIN_RES i), hadRun := true }
    let s := s.setI (CAL_TREF_TREF i) (shadowField s (CAL_TREF_TREF i))
    let s := if s.get (CAL_ST_STATE i) = 1 then s else s.setB (CAL_ST_STATE i) s.cal.axes[i].due
    let s := s.modCal i fun x => { x with due := false }
    s.set (CAL_ST_FAILS i) 0) s
  let s := s.setI CAL_TREFB_TREF (shadowField s CAL_TREFB_TREF)
  let s := { s with cal := { s.cal with drvTarget := shadowField s CAL_DRV_DAC } }
  let s := (List.finRange 10).foldl settleSlews s
  let s := setTaps s (portTapLo.map (tapOf (shadowWord s 0x1041)) ++ strobeLo.map (tapOf (shadowWord s 0x1043)) ++
    strobeLo.map (tapOf (shadowWord s 0x1044)) ++ [8, 0].map (tapOf (shadowWord s 0x1045)))
  showWalk (thermUpdate s)

/-- CAL_RST.CMD 1 (09 R244): snapshot. -/
def calSnapshotOp (s : State) : State :=
  { s with cal := { s.cal with shadow := calStore s, bind := calBind (s.word 0x1004) (s.word 0x1005) (calStore s) } }.set CAL_RSTST_VIEW 1

/-- CAL_RST.CMD 2 (09 R244): open. -/
def calOpenOp (s : State) : State := s.set CAL_RSTST_VIEW 2

/-- CAL_RST.CMD 3 (09 R244, R245): commit, which closes the view whatever its result. -/
def calCommitOp (s : State) : State :=
  let why := commitRefusal s
  let s1 := (s.set CAL_RSTST_VIEW 0).set CAL_RSTST_RES why
  if why = 0 then (takeStore s1).event CAL_EVT_RSTOK else s1.event CAL_EVT_RSTREJ

/-- CAL_RST.CMD 4 (09 R244): close. -/
def calCloseOp (s : State) : State := s.set CAL_RSTST_VIEW 0

/-- CAL_RST by its command code (09 R247). -/
def writeCalRst (s : State) (v : Word) : State :=
  match getBits v 0 3 with
  | 1 => calSnapshotOp s
  | 2 => calOpenOp s
  | 3 => calCommitOp s
  | 4 => calCloseOp s
  | _ => s

/-- CAL_CMD.RUN (09 R228, R246, R247): in SERVICE, and not while a system calibration capture runs. -/
def calRunOp (s : State) (mask : Nat) : State :=
  if s.mode ≠ 9 ∨ s.bit SCAL_ST_BUSY then s.event CAL_EVT_CMDREJ
  else (List.finRange 10).foldl (fun s (i : Fin 10) =>
    if mask.testBit i then calTrigger (s.modCal i fun x => { x with named := true }) i false true else s) s

/-- CAL_CMD.CLASSB (09 R229, R247): in SERVICE. -/
def calClassbOp (s : State) (m : ClassB) : State := if s.mode = 9 then measureClassB s m else s.event CAL_EVT_CMDREJ

/-- CAL_RETRY_TIMER (09 R228): 10 min after a failed run. -/
def execCalRetryTimer (axis : Fin 10) (s : State) : Host.Outcome State Fault Refusal :=
  .next (if s.alive ∧ s.cal.axes[axis].retry then calTrigger (s.modCal axis fun x => { x with retry := false }) axis true false else s)

/-- CAL_ABANDON_RETRY (09 R228): 60 s after an abandoned run. -/
def execCalAbandonRetry (axis : Fin 10) (s : State) : Host.Outcome State Fault Refusal :=
  .next (if s.alive ∧ s.cal.axes[axis].aband then calTrigger (s.modCal axis fun x => { x with aband := false }) axis true false else s)

/-- The slope of largest magnitude, the first of equals (09 R230). -/
def worstSlope (l : List Int) : Int := l.foldl (fun m x => if absNat m < absNat x then x else m) 0

/-- A valid result of a watched temperature counts in its mean (09 R230). -/
def TempMean.add (x : TempMean) (v : Int) : TempMean := { x with sum := x.sum + v, n := x.n + 1 }

/-- A grid second ends (09 R230): the mean T1 over it, in 1/256 of 0.01 °C, ties to even (DESIGN CHOICE, log entry 114: the spec states
no rounding); none without a valid result. -/
def TempMean.second (x : TempMean) : TempMean :=
  { sum := 0, n := 0, t1 := (if x.n = 0 then none else some (roundEven (256 * x.sum) x.n)) :: x.t1.take 60 }

/-- The slope T1(t) - T1(t - 60 s) in 1/256 of 0.01 °C/min (09 R230); a temperature without one of the two means has none, and 0 stands for it (log entry 114). -/
def TempMean.slope (x : TempMean) : Int :=
  match x.t1.getD 0 none, x.t1.getD 60 none with
  | some a, some b => a - b
  | _, _ => 0

/-- CAL_SLOPE_UPDATE (09 R230): once per grid second, the slopes of TCTRL, TACC, TRATE, TPWR and TCASE from their means. SLOPE is rounded to the
nearest 0.01 °C/min, ties to even (DESIGN CHOICE, log entry 114: the spec states no rounding). -/
def execCalSlopeUpdate (s : State) : Host.Outcome State Fault Refusal :=
  .next (if s.alive ∧ s.second ≠ s.cal.slopeSec then
      let s := { s with cal := { s.cal with means := s.cal.means.map TempMean.second, slopeSec := s.second } }
      let m := worstSlope (s.cal.means.toList.map TempMean.slope)
      let s := s.setI CAL_GST_SLOPE (clampInt (-32768) 32767 (roundEven m 256))
      let s := if 200 * 256 < absNat m then { s with cal := { s.cal with calm := 0 } }.set CAL_GST_DEFER 1
        else
          let s := { s with cal := { s.cal with calm := s.cal.calm + 1 } }
          if 30 ≤ s.cal.calm then s.set CAL_GST_DEFER 0 else s
      thermUpdate s
    else s)

/-- CAL_RUN_START (09 R233). -/
def execCalRunStart (s : State) : Host.Outcome State Fault Refusal :=
  .next (if s.alive then
      match nextRun s with
      | none => s
      | some i => startRun s i
    else s)

/-- CAL_RUN_END (09 R234, R235, R241). -/
def execCalRunEnd (res : CalMeasure) (s : State) : Host.Outcome State Fault Refusal :=
  .next (if s.alive then
      match runAxis s with
      | none => s
      | some i =>
        let why := runFailure s i res
        if why = 0 then passRun (endRun s i) i res else failRun (endRun s i) i why
    else s)

/-- CAL_SLEW_STEP (09 R237): of the trims of an axis, or, with none named, of the shared drive trim. -/
def execCalSlewStep (axis : Option (Fin 10)) (s : State) : Host.Outcome State Fault Refusal :=
  .next (if s.alive then
      match axis with
      | none => slewDrive s
      | some i => if !trimsAtTarget s i || s.get (CAL_ST_STATE i) == 3 then slewAxis s i else s
    else s)

/-- CLASSB_TAP_STEP (09 R240). -/
def execClassbTapStep (s : State) : Host.Outcome State Fault Refusal :=
  .next (if s.alive then walkClassB s else s)

/-- CAL_RUN_CMD. -/
def execCalRunCmd (door : Initiator) (mask : Nat) (s : State) : Host.Outcome State Fault Refusal :=
  .next (atDoor s door 0x1001 fun s => calRunOp s mask)

/-- CAL_CLASSB_CMD. -/
def execCalClassbCmd (door : Initiator) (targets : ClassB) (s : State) : Host.Outcome State Fault Refusal :=
  .next (atDoor s door 0x1001 fun s => calClassbOp s targets)

/-- CAL_SNAPSHOT. -/
def execCalSnapshot (door : Initiator) (s : State) : Host.Outcome State Fault Refusal :=
  .next (atDoor s door 0x1006 fun s => calSnapshotOp s)

/-- CAL_OPEN. -/
def execCalOpen (door : Initiator) (s : State) : Host.Outcome State Fault Refusal :=
  .next (atDoor s door 0x1006 fun s => calOpenOp s)

/-- CAL_COMMIT. -/
def execCalCommit (door : Initiator) (s : State) : Host.Outcome State Fault Refusal :=
  .next (atDoor s door 0x1006 fun s => calCommitOp s)

/-- CAL_CLOSE. -/
def execCalClose (door : Initiator) (s : State) : Host.Outcome State Fault Refusal :=
  .next (atDoor s door 0x1006 fun s => calCloseOp s)

end Sys2Proof.Machine
end

