-- ==== Sys2Proof/Machine/AuxChannel.lean ====
section
/-!
DEFINITION. The AUX channel (06 R153 to R169, R178, R179): functions, clamps, the input function's edges and tacho, the probe's faults and lead
measurement, and the output driver's faults.
-/

namespace Sys2Proof.Machine

/-- The value of an AUX page word in effect (06 R179): a write takes effect at the next grid second boundary. -/
def auxWord (s : State) (a : Nat) : Word :=
  match s.aux.old.find? fun e => e.1 == a && decide (s.second ≤ e.2.2) with
  | some e => e.2.1
  | none => s.word a

/-- A field of an AUX page word in effect. -/
def auxGet (s : State) (f : Field) : Nat := getBits (auxWord s f.word) f.lo f.width

/-- Remember what was in effect before a write of an AUX page word (06 R179). -/
def auxKeep (s : State) (a : Nat) : State :=
  let w := auxWord s a
  { s with aux := { s.aux with old := (a, w, s.second) :: s.aux.old.filter fun e => e.1 != a } }

/-- A signed field of a word. -/
def wordI (w : Word) (lo width : Nat) : Int := signed (getBits w lo width) width

/-- The value an accepted write leaves in an AUX page word (06 R159, R162 to R169, R179): out-of-range fields keep their value. -/
def auxValue (s : State) (a : Nat) (v : Word) : Word :=
  let old := s.word a
  let keep (lo width : Nat) (ok : Bool) : Nat := (if ok then getBits v lo width else getBits old lo width) * 2 ^ lo
  if a = 0xA00 then v &&& 0x13
  else if a = 0xA01 then
    let ok := decide (wordI v 16 8 + 2 ≤ wordI v 24 8)
    BitVec.ofNat 32 (keep 24 8 ok + keep 16 8 ok + getBits v 0 12)
  else if a = 0xA02 then
    BitVec.ofNat 32 (keep 16 16 (getBits v 16 16 != 0) + getBits v 8 2 * 2 ^ 8 + keep 0 8 (getBits v 0 8 != 0))
  else if a = 0xA03 then (if getBits v 0 2 ≤ 1 then v &&& 3 else old)
  else if a = 0xA04 then (if getBits v 0 20 ≤ 50000 then v &&& 0xFFFFF else old)
  else if a = 0xA05 then v
  else if a = 0xA06 then BitVec.ofNat 32 (keep 4 2 (getBits v 4 2 != 3) + getBits v 0 3)
  else old

/-- The written function or probe type differs from the one in effect (06 R153). -/
def auxPending (s : State) : Bool := s.get AUX_CFG_FUNC != s.aux.func || s.get AUX_PRB_TYPE != s.aux.typ

/-- A write of an AUX RW word (06 R153, R179). -/
def writeAux (s : State) (a : Nat) (v : Word) : State :=
  let s1 := (auxKeep s a).setWord a (auxValue s a v)
  { s1 with aux := { s1.aux with pend := if auxPending s1 then some s.now else none } }

/-- The pins are in serial use (06 R154). -/
def auxSerial (s : State) : Bool := s.pwr.serialB

/-- The input function runs: selected, and the pins not in serial use (06 R159). -/
def auxInput (s : State) : Bool := s.aux.func == 1 && !auxSerial s

/-- The tacho starts anew (06 R163): at the function's start, after serial use and at a channel switch of slot 11. -/
def startTacho (s : State) : State := { s with aux := { s.aux with edges := [], nact := 0, ready := 0, slow := 0, angle := 0 } }

/-- The comparator and the filtered level are held at 0 (06 R159). -/
def holdLevel (s : State) : State := { s with aux := { s.aux with comp := false } }.set AUX_ST_LEVEL 0

/-- The tap of an AUX threshold in use, in µV from its factory setting (09 R240: 1 mV a tap, upward; log entry 112). -/
def auxTrim (s : State) (lo : Nat) : Int := ((getBits (s.word 0x1045) lo 6 : Nat) - 32) * 1000

/-- The voltage AUX - AUXR in µV from what the outside drives; where nothing does, the pull-up's 5.0 V when it is on, AUXR then being held at A- (06 R159). -/
def auxVolts (s : State) (drive : Option Int) : Option Int :=
  match drive with
  | some v => some v
  | none => if auxGet s AUX_CFG_PU = 1 then some 5000000 else none

/-- The comparator's output at a voltage (06 R159): high above VHI, low below VLO, else as it is; at an open voltage as it is (log entry 112). -/
def comparator (s : State) (v : Option Int) : Bool :=
  match v with
  | none => s.aux.comp
  | some v =>
    if signed (auxGet s AUX_IN_VHI) 8 * 25000 + auxTrim s 8 < v then true
    else if v < signed (auxGet s AUX_IN_VLO) 8 * 25000 + auxTrim s 0 then false
    else s.aux.comp

/-- The comparator has held its new state for MINPW (06 R160). -/
def pulseHeld (s : State) : Bool := decide (40 * s.aux.compAt + 800 * auxGet s AUX_IN_MINPW ≤ s.now)

/-- The output driver is on: the output function, the pins not in serial use, and no fault (06 R168, R169). -/
def driverOn (s : State) : Bool := s.aux.func == 3 && !auxSerial s && !s.aux.outOff

/-- The level that the driver gives AUX (06 R168, R169): the selected engine's output while it runs, except in SAFE; else the idle level. -/
def driverLevel (s : State) : Bool :=
  let e := auxGet s AUX_OUT_PE
  if (s.get (PE_ST_STATE e) = 1 ∨ s.get (PE_ST_STATE e) = 2) ∧ s.mode ≠ 11 then s.bit (PE_ST_LVL e)
  else if auxGet s AUX_OUT_IDLE < 2 then auxGet s AUX_OUT_IDLE == 1
  else s.aux.driven

/-- The driver follows (06 R168, R169). -/
def driveAux (s : State) : State := if driverOn s then { s with aux := { s.aux with driven := driverLevel s } } else s

/-- The driver goes off after a fault (06 R169). -/
def faultDriver (s : State) : State := if driverOn s then { s with aux := { s.aux with outOff := true, offAt := s.pwr.ticks } }.event AUX_EVT_OFLT else s

/-- A clamp that has stopped conducting (06 R157). -/
def endClamp (s : State) : State := if s.bit AUX_ST_CLAMP && decide (s.aux.clampTo ≤ s.pwr.ticks) then s.set AUX_ST_CLAMP 0 else s

/-- The driver goes on (06 R169): it drives its level, and goes off again where a clamp conducts. -/
def startDriver (s : State) : State :=
  let s := endClamp s
  if s.bit AUX_ST_CLAMP then faultDriver s else driveAux s

/-- A clamp conducts for a number of CLK ticks from now on (06 R157, R158, R169); one that already conducts makes no rising edge. -/
def startClamp (s : State) (ticks : Nat) : State :=
  let s := endClamp s
  let rise := !s.bit AUX_ST_CLAMP
  let s := { s with aux := { s.aux with clampTo := max s.aux.clampTo (s.pwr.ticks + ticks), clamps := (s.now, s.now + tickTime s ticks) :: s.aux.clamps } }
  let s := s.when rise fun s => requestInj (((s.set AUX_ST_CLAMP 1).event AUX_EVT_CLAMP).bump AUX_CNT_CLAMPCNT 1) 0
  faultDriver s

/-- No entry of the running sequence names AUXCM (06 R167). -/
def noAuxcm (s : State) : Bool := !((s.hk.seq.take (s.hk.len + 1)).any fun e => hkInput e == 0xF)

/-- Change AUX_ST.PFLT (06 R167): each change to a nonzero value sets the event, and clearing is a channel switch of slot 10. -/
def setPflt (s : State) (n : Nat) : State :=
  let old := s.get AUX_ST_PFLT
  if n = old then s
  else
    let s := s.set AUX_ST_PFLT n
    if n = 0 then suppress s 10 false else s.event AUX_EVT_PFLT

/-- The fault of code 3 (06 R167): raised in the probe function while no entry in use names AUXCM, cleared when an applied sequence names it; in serial use PFLT is kept (R154). -/
def checkMonitor (s : State) : State :=
  if auxSerial s then s
  else if s.aux.func = 2 ∧ noAuxcm s then setPflt s 3
  else if s.get AUX_ST_PFLT = 3 then setPflt s 0
  else s

/-- A valid AUXCM result in mV (06 R167): three in a row above or below the window raise a fault of the probe, three inside clear it; in serial use PFLT is kept (R154).
DESIGN CHOICE: results from before the probe function was selected count in the three (log entry 112). -/
def watchAuxcm (s : State) (v : Int) : State :=
  let hi : Int := auxGet s AUX_CMWIN_HI
  let lo : Int := auxGet s AUX_CMWIN_LO
  let s := { s with hk := { s.hk with cmHigh := if hi < v then s.hk.cmHigh + 1 else 0, cmLow := if v < lo then s.hk.cmLow + 1 else 0,
                                      cmIn := if lo ≤ v ∧ v ≤ hi then s.hk.cmIn + 1 else 0 } }
  if s.aux.func ≠ 2 ∨ auxSerial s then s
  else if 3 ≤ s.hk.cmHigh then setPflt s 1
  else if 3 ≤ s.hk.cmLow then setPflt s 2
  else if 3 ≤ s.hk.cmIn ∧ (s.get AUX_ST_PFLT = 1 ∨ s.get AUX_ST_PFLT = 2) then setPflt s 0
  else s

/-- The written function and probe type take effect (06 R153). -/
def takeFunction (s : State) : State :=
  let x := { s.aux with func := s.get AUX_CFG_FUNC, typ := s.get AUX_PRB_TYPE, pend := none, outOff := false, movedAt := s.pwr.ticks }
  let s := holdLevel (startTacho { s with aux := x })
  startDriver (checkMonitor (if s.aux.func ≠ 2 then s.set AUX_ST_PFLT 0 else s))

/-- Apply the written function and probe type at boundary t (06 R153): slots 10 and 11 deliver Stopped markers for 10 ms and resume as after a channel
switch. -/
def applyAux (s : State) (t : Nat) : State := stopSlot (stopSlot s 10 t id) 11 t takeFunction

/-- The pins go to serial use (06 R154): the function is suspended, and its registers keep their values. -/
def auxToSerial (s : State) : State := (holdLevel s).set AUX_ST_SVC 1

/-- Serial use of the pins ends (06 R154, R178): the function resumes as after a channel switch, with a stored change applied. -/
def auxFromSerial (s : State) : State := suppress (takeFunction (s.set AUX_ST_SVC 0)) 10 false

/-- The last active-edge interval (06 R163). -/
def lastPeriod (s : State) : Nat :=
  match s.aux.edges with
  | a :: b :: _ => a - b
  | _ => 0

/-- An accepted active edge at a tick (06 R161, R163). -/
def activeEdge (s : State) (tick : Nat) : State :=
  let s := { s with aux := { s.aux with edges := tick :: s.aux.edges.take 3, nact := s.aux.nact + 1, ready := s.aux.ready + 1 } }
  match s.aux.edges with
  | _ :: _ :: _ =>
    let p := lastPeriod s
    let s := s.set AUX_PER_TICKS (min p (2 ^ 32 - 1))
    let s := { s with aux := { s.aux with slow := if 4400 ≤ p then s.aux.slow + 1 else 0 } }
    if p < 4000 then
      (if s.bit AUX_ST_OVSPD then s else (s.set AUX_ST_OVSPD 1).bump AUX_CNT_OVSPDCNT 1).event AUX_EVT_OVSPD
    else if s.bit AUX_ST_OVSPD && decide (16 ≤ s.aux.slow) then
      { s with aux := { s.aux with ready := 16 } }.set AUX_ST_OVSPD 0
    else s
  | _ => s

/-- An accepted transition is noted (06 R162). -/
def noteMove (s : State) : State := { s with aux := { s.aux with movedAt := s.pwr.ticks } }

/-- The filtered level follows the comparator (06 R160 to R162). A transition that began before the last time step has no timestamp and counts in the angle alone (R178).
DESIGN CHOICE: the edge that clears STUCK counts as the first of the two that a speed needs (log entry 112). -/
def acceptEdge (s : State) : State :=
  let s := (levelEdge (noteMove s) 0 s.aux.comp (40 * s.aux.compAt)).setB AUX_ST_LEVEL s.aux.comp |>.set AUX_EDGE_COUNT (s.get AUX_EDGE_COUNT + 1)
  let s := if s.bit AUX_ST_STUCK then { s with aux := { s.aux with ready := 0 } }.set AUX_ST_STUCK 0 else s
  if s.aux.comp != (auxGet s AUX_TACH_EDGE == 1) then
    (if s.aux.compOld then { s with aux := { s.aux with nact := s.aux.nact + 1 } } else activeEdge s s.aux.compAt)
  else s

/-- AUX_FUNC_WRITE (06 R153): AUX_CFG and AUX_PRB are written; FUNC and TYPE wait for the boundary. -/
def execAuxFuncWrite (door : Initiator) (cfg prb : Word) (s : State) : Host.Outcome State Fault Refusal :=
  .next (atDoor s door 0xA00 fun s => writeAux (writeAux s 0xA00 cfg) 0xA03 prb)

/-- AUX_FUNC_APPLY (06 R153): at the first grid second boundary after the write. -/
def execAuxFuncApply (s : State) : Host.Outcome State Fault Refusal :=
  .next (
    let S := s.second * 8000000000
    if s.alive && (s.aux.pend.any fun w => decide (w < S) && decide (s.time.base ≤ S)) && !auxSerial s then applyAux s S else s)

/-- AUX_CLAMP_EDGE (06 R157, R158): a clamp starts to conduct, for a number of CLK ticks. -/
def execAuxClampEdge (ticks : Nat) (s : State) : Host.Outcome State Fault Refusal :=
  .next (if s.alive then startClamp s ticks else s)

/-- AUX_COMPARATOR_CHANGE (06 R159, R160): the voltage AUX - AUXR that the outside drives, in µV, leads to a comparator output that differs from the filtered level, and the
pulse-width filter starts. -/
def execAuxComparatorChange (drive : Option Int) (s : State) : Host.Outcome State Fault Refusal :=
  .next (
    let high := comparator s (auxVolts s drive)
    if s.alive && auxInput s && s.aux.comp == s.bit AUX_ST_LEVEL && s.aux.comp != high then
      { levelEdge s 1 high (s.now / 40 * 40) with aux := { s.aux with comp := high, compAt := s.now / 40, compOld := false } } else s)

/-- AUX_EDGE_ACCEPT (06 R160): the comparator has held its new state for MINPW. -/
def execAuxEdgeAccept (s : State) : Host.Outcome State Fault Refusal :=
  .next (if s.alive && auxInput s && s.aux.comp != s.bit AUX_ST_LEVEL && pulseHeld s then acceptEdge s else s)

/-- AUX_PULSE_ABSORB (06 R160): a pulse shorter than MINPW; the comparator is back at the filtered level. -/
def execAuxPulseAbsorb (s : State) : Host.Outcome State Fault Refusal :=
  .next (if s.alive && auxInput s && s.aux.comp != s.bit AUX_ST_LEVEL && !pulseHeld s then
      { levelEdge s 1 (s.bit AUX_ST_LEVEL) (s.now / 40 * 40) with aux := { s.aux with comp := s.bit AUX_ST_LEVEL } }.bump AUX_CNT_ABSORB 1
    else s)

/-- No transition has been accepted for the stuck time (06 R162), counted from the function's start at the earliest (log entry 112). -/
def stuckTime (s : State) : Bool := decide (s.aux.movedAt + 2000000 * auxGet s AUX_TACH_STUCK ≤ s.pwr.ticks)

/-- AUX_STUCK (06 R162). -/
def execAuxStuck (s : State) : Host.Outcome State Fault Refusal :=
  .next (if s.alive && auxInput s && stuckTime s && !s.bit AUX_ST_STUCK then (s.set AUX_ST_STUCK 1).event AUX_EVT_STUCK else s)

/-- AUX_CMD.LEADMEAS (06 R166): in SERVICE and the probe function, else it fails at once. A measurement that runs goes on. DESIGN CHOICE: while the pins are in serial use, a command
fails at once too (log entry 112). -/
def leadMeasure (s : State) : State :=
  if s.mode = 9 ∧ s.aux.func = 2 ∧ !auxSerial s then
    (if s.bit AUX_ST_LEADBUSY then s else { s with aux := { s.aux with lead := { start := s.now } } }.set AUX_ST_LEADBUSY 1)
  else s.event AUX_EVT_LEADFAIL

/-- The lead measurement's records spoil it: a marker or an OVR record (06 R166), or slot 10 delivers none (log entry 112). -/
def leadSpoiled (s : State) : Bool := s.aux.lead.marker || s.aux.lead.flagged || !s.slots[10].en

/-- The mean loop resistance in mΩ (06 R166), to the nearest, ties to even; values are collected in 2^-42 mΩ. -/
def leadMean (c : Collect) : Int := if c.n = 0 then -1 else roundEven c.sum (c.n * 2 ^ 42)

/-- AUX_LEADMEAS_CMD. -/
def execAuxLeadmeasCmd (door : Initiator) (s : State) : Host.Outcome State Fault Refusal :=
  .next (atDoor s door 0xA07 fun s => leadMeasure s)

/-- AUX_LEADMEAS_END (06 R166): 2 s of records are complete, or the measurement is spoiled. -/
def execAuxLeadmeasEnd (s : State) : Host.Outcome State Fault Refusal :=
  .next (if s.alive && s.bit AUX_ST_LEADBUSY && (leadSpoiled s || s.aux.lead.full 16000000000) then
      let s1 := s.set AUX_ST_LEADBUSY 0
      let rm := leadMean s.aux.lead
      if !leadSpoiled s && decide (0 ≤ rm) && decide (rm ≤ 50000) then
        noteLive ((s1.set AUX_RLEAD_MOHM rm.toNat).event AUX_EVT_LEADOK) (.word 0xA04 0xFFFFF (BitVec.ofNat 32 rm.toNat))
      else s1.event AUX_EVT_LEADFAIL
    else s)

/-- AUX_OUTPUT_FAULT (06 R169): the driver goes off for 100 ms. -/
def execAuxOutputFault (s : State) : Host.Outcome State Fault Refusal := .next (if s.alive then faultDriver s else s)

/-- AUX_OUTPUT_RESTORE (06 R169): 100 ms after the fault. -/
def execAuxOutputRestore (s : State) : Host.Outcome State Fault Refusal :=
  .next (if s.alive && s.aux.outOff && decide (s.aux.offAt + 20000000 ≤ s.pwr.ticks) then startDriver { s with aux := { s.aux with outOff := false } } else s)

end Sys2Proof.Machine
end

