-- ==== Sys2Proof/Machine/Filter.lean ====
section
/-!
DEFINITION. The Mill's stages 1 to 6 (07 R181 to R187) over the dump windows of a slot, and the corrections of stage 7 before Q (R188). The numbers the spec leaves
open (references, half-band and profile taps, word widths, factory values) are constants without a body (log entry 41).
-/

namespace Sys2Proof.Machine

/-- Replace a slot's filter state. -/
def State.modMill (s : State) (i : Fin 16) (f : MillState → MillState) : State := s.modSlot i fun x => { x with mill := f x.mill }

/-- The instant of sample k of a window in 1/8 ns (07 R193): 20 ns apart on an axis, 160 ns apart on AUX, about the window's centre. -/
def sampleAt (i : Nat) (w : Window) (k : Nat) : Int :=
  (w.t : Int) / 8192 + (if i = 10 then 640 * (2 * k - 3) else 80 * (2 * k - 31))

/-- The range of a slot's axis at an instant (04 R107): the old one before the first new-gain sample. -/
def rangeAt (s : State) (i : Fin 16) (e : Int) : Nat :=
  match (s.slots[i].ranges.filter fun p => decide (e < p.1)).getLast? with
  | some p => p.2
  | none => s.get (AX_ST_PRANGE i)

/-- The digital range scale against the bottom range (04 R106, R107): a factor of 4 a step on W and L, 8 on G. -/
def rangeScale (i r : Nat) : Int := if i < 6 then 4 ^ r else if i < 9 then 8 ^ r else 1

/-- A 24-bit stage-1 word (07 R183). -/
def word24 (x : Int) : Int := signed (x % 2 ^ 24).toNat 24

/-- The number of a slot's samples in a window (07 R182), its inputs in order; one that the command does not bring is 0. -/
def sampleCount (i : Nat) : Nat := if i = 10 then 4 else 32

/-- Sample k of a window as the converter delivers it. -/
def sampleOf (i : Nat) (w : Window) (k : Nat) : Int := if i = 10 then w.xs.getD k 0 else converterCode (w.xs.getD k 0)

/-- Sample k of a window is over-range (05 R125); on AUX the modulator was overloaded (06 R155). -/
def sampleOver (i : Nat) (w : Window) (k : Nat) : Bool := if i = 10 then w.overload.contains k else overRange (w.xs.getD k 0)

/-- A word of an exact result with b bits below it; the rounding inside stage k is open (07 R188; log entry 41). -/
def narrow (k b : Nat) (x : Int) : Int :=
  if x % 2 ^ b = 0 then x / 2 ^ b else x / 2 ^ b + (if Config.roundUp k x then 1 else 0)

/-- Stage 1 of an axis slot (07 R182): the samples of the window, with their range's scale, times the excitation reference at their position in the carrier period,
summed; the window of slot i ends 4i converter clocks after the boundary. -/
def demodulate (s : State) (i : Fin 16) (w : Window) : Int :=
  ((List.range 32).map fun k =>
    sampleOf i w k * rangeScale i (rangeAt s i (sampleAt i w k)) * Config.excRef ((4 * i.val + k) % 32)).sum

/-- π in 2^-64. -/
def piFix : Nat := 57952155664616982739

/-- The sum of n terms of the series of cosine (k = 1) or sine (k = 2): a is the present term, q the square of the angle, both in 2^-64. -/
def trigSum (q : Nat) (k : Nat) (a : Int) (n : Nat) : Int :=
  match n with
  | 0 => 0
  | n + 1 => a + trigSum q (k + 2) (-(a * q) / (2 ^ 64 * (k * (k + 1)))) n

/-- The cosine and the sine of an angle up to π / 2, all in 2^-64. -/
def cosFix (x : Nat) : Int := trigSum (x * x / 2 ^ 64) 1 (2 ^ 64) 16
def sinFix (x : Nat) : Int := trigSum (x * x / 2 ^ 64) 2 x 16

/-- The cosine and the sine of p of n equal parts of a turn, p below n, in 2^-64. -/
def turnFix (p n : Nat) : Int × Int :=
  let a := piFix * (4 * p % n) / (2 * n)
  let (c, s) := (cosFix a, sinFix a)
  match 4 * p / n with
  | 0 => (c, s)
  | 1 => (-s, c)
  | 2 => (-c, -s)
  | _ => (s, -c)

/-- The probe reference of stage 1 (07 R182, 06 R164), in 2^-64: the sine of 1 562.5 Hz, CLK / 128 000, at a window's centre. -/
def probeRef (w : Window) : Int := (turnFix (w.phase % 128000) 128000).2

/-- Stage 1 (07 R182): with the drive demodulation of a G slot by the drive loop's phase, or the decimation of the AUX stream and its probe demodulation. -/
def stageOne (s : State) (i : Fin 16) (w : Window) : Int :=
  if i.val = 10 then
    let x := word24 (Config.stageWord ((List.range 4).map (sampleOf 10 w)).sum)
    if s.aux.func = 2 then word24 (Config.stageWord (x * probeRef w)) else x
  else
    let x := word24 (Config.stageWord (demodulate s i w))
    if 6 ≤ i.val ∧ i.val < 9 then word24 (Config.stageWord (x * Config.driveRef w.phase)) else x

/-- The CIC's integrators take a word (07 R183), modulo 2^80. -/
def integrate (x : BitVec 80) (l : List (BitVec 80)) : List (BitVec 80) :=
  match l with
  | [] => []
  | a :: l => (a + x) :: integrate (a + x) l

/-- The CIC's combs take the last integrator (07 R183): the registers after it, and the output. -/
def combs (x : BitVec 80) (l : List (BitVec 80)) : List (BitVec 80) × BitVec 80 :=
  match l with
  | [] => ([], x)
  | a :: l => (x :: (combs (x - a) l).1, (combs (x - a) l).2)

/-- The output of a FIR with taps in 2^-23, from its inputs, newest first (07 R206). -/
def firOut (k n : Nat) (tap : Nat → Int) (xs : List Int) : Int := narrow k 23 ((List.range n).map fun j => tap j * xs.getD j 0).sum

/-- The number of taps of a factory profile (07 R190). -/
def profileLen (p : Nat) : Nat := [103, 28, 67].getD p 103

/-- Tap j of a factory profile (07 R190): profiles 0 and 1 are linear-phase, so that their taps are symmetric. -/
def profileTap (p j : Nat) : Int := Config.profileTap p (if p ≤ 1 then min j (profileLen p - 1 - j) else j)

/-- Stage 4 (07 R181, R190, R206): the profile's FIR, or the custom taps. -/
def stageFour (s : State) (k : Nat) (fir : List Int) : Int :=
  let p := s.get (MB_HDR_SRC k)
  if p = 3 then firOut 4 (s.get (MB_HDR_NTAP k)) (fun j => s.getI (MT_TAP_C k j)) fir else firOut 4 (profileLen p) (profileTap p) fir

/-- The taps of half-band decimator m (07 R181): 11 or 27, one half at the centre, 0 at every other even distance from it, and symmetric. -/
def halfLen (m : Nat) : Nat := if m = 1 then 11 else 27
def halfTap (m j : Nat) : Int :=
  let c := halfLen m / 2
  let d := if j < c then c - j else j - c
  if d = 0 then 2 ^ 22 else if d % 2 = 0 then 0 else Config.halfTap m d

/-- The output of half-band decimator m, from its inputs, newest first. -/
def halfBand (m : Nat) (xs : List Int) : Int := firOut 3 (halfLen m) (halfTap m) xs

/-- One section of stage 5 in direct form I, its accumulator saturated at 40 bits (07 R184): the output, whether it saturated, and its x and y after it. -/
def sectionStep (s : State) (k q : Nat) (x : Int) (z : Int × Int × Int × Int) : Int × Bool × (Int × Int × Int × Int) :=
  let acc := narrow 5 28 (coef s k q 0 * x + coef s k q 1 * z.1 + coef s k q 2 * z.2.1 - coef s k q 3 * z.2.2.1 - coef s k q 4 * z.2.2.2)
  let y := clampInt (-(2 ^ 39)) (2 ^ 39 - 1) acc
  (y, y != acc, (x, z.1, y, z.2.2.1))

/-- The enabled sections in index order (07 R184): the output, whether one saturated, and the sections after it. -/
def stageFive (s : State) (k : Nat) (x : Int) (z : List (Int × Int × Int × Int)) : Int × Bool × List (Int × Int × Int × Int) :=
  (sections s k).foldl (fun a q =>
    let r := sectionStep s k q a.1 (z.getD q (0, 0, 0, 0))
    (r.1, a.2.1 || r.2.1, a.2.2.set q r.2.2)) (x, false, z)

/-- The front-end delay of a slot in ns (07 R185). -/
def frontEndNs (i : Nat) : Nat := if i < 3 then 42 else if i < 6 ∨ i = 9 then 118 else if i < 9 then 146 else 310

/-- The share of D in ns that stage 6 and the half dump window after its centre have (07 R185, R191): 2 working samples, as the cubic waits for x[n+2], and 320 ns. -/
def stageSixNs (r : Nat) : Nat := 2 * workNs r + 320

/-- The describe time of the stage-5 output at a window (07 R185, R187), for a bank whose D is ns: the centre of the slot's window, in raw bypass of slot 0's,
less the front-end delay and the group delay of stages 1 to 5. -/
def describeTime (s : State) (i : Fin 16) (ns : Nat) (w : Window) : Int :=
  (w.t : Int) - (if s.bit (ML_CFG_RAW i) then 65536 * 80 * i.val else 0) - 65536 * frontEndNs i - 65536 * ((ns : Int) - stageSixNs s.slots[i].rate)

/-- A bank that is warming, fading or active takes a stage-3 output (07 R194, R196). -/
def runBank (s : State) (i : Fin 16) (b : Nat) (fir : List Int) (w : Window) (r : BankRun) : BankRun × Bool :=
  if bankState s i b = 0 then (r, false)
  else
    let ns := if s.get (ML_ST_ACT i) = b then s.get (ML_GD_NS i) else s.slots[i].inD
    let k := bankOf i b
    let y := stageFive s k (stageFour s k fir) r.sect
    ({ sect := y.2.2, outs := (describeTime s i ns w, y.1) :: r.outs }, y.2.1)

/-- Stages 4 and 5 of both banks on a stage-3 output; whether a section saturated. -/
def runBanks (s : State) (i : Fin 16) (w : Window) (z : Int) (m : MillState) : MillState × Bool :=
  let fir := (z :: m.fir).take 256
  let a := runBank s i 0 fir w m.bank0
  let b := runBank s i 1 fir w m.bank1
  ({ m with fir := fir, bank0 := a.1, bank1 := b.1 }, a.2 || b.2)

/-- Stage 3 on a CIC output (07 R181): each decimator gives one output for two inputs, and every output of the second goes on to stage 4. -/
def stageThree (s : State) (i : Fin 16) (w : Window) (x : Int) (m : MillState) : MillState × Bool :=
  let m := { m with half1 := (x :: m.half1).take 11, odd1 := !m.odd1 }
  if m.odd1 then (m, false)
  else
    let m := { m with half2 := (halfBand 1 m.half1 :: m.half2).take 27, odd2 := !m.odd2 }
    if m.odd2 then (m, false) else runBanks s i w (halfBand 2 m.half2) m

/-- The CIC's output at rate code r in the words of the stages after it (07 R181, R183, R184): its growth of 5 (r + 1) bits is taken off, so that it has the stage-1 word's
scale at every rate, with the bits that are kept below it. -/
def cicWord (r : Nat) (x : Int) : Int := narrow 2 (5 * (r + 1)) (x * 2 ^ (Config.cicBits % 13))

/-- Stages 1 to 5 on one dump window (07 R181): the CIC gives one output for 2^(r + 1) words. -/
def runWindow (s : State) (i : Fin 16) (w : Window) (m : MillState) : MillState × Bool :=
  let m := { m with integ := integrate (BitVec.ofInt 80 (stageOne s i w)) m.integ, words := m.words + 1 }
  if m.words < 2 ^ (s.slots[i].rate + 1) then (m, false)
  else
    let c := combs (m.integ.getLastD 0) m.comb
    stageThree s i w (cicWord s.slots[i].rate c.2.toInt) { m with comb := c.1, words := 0 }

/-- The numbers of a window's over-range samples. -/
def overSamples (i : Nat) (w : Window) : List Nat := (List.range (sampleCount i)).filter (sampleOver i w)

/-- A clamp of an AUX pin conducts at an instant (06 R157, R158). -/
def clampAt (s : State) (e : Int) : Bool := s.aux.clamps.any fun p => meets e e (p.1, some p.2)

/-- The instants a window adds to those a span may hold: its over-range samples, on AUX those taken while a clamp conducted, and its centre when a section
saturated (05 R128, 06 R158, 07 R184). -/
def overInstants (s : State) (i : Fin 16) (w : Window) (sat : Bool) : List Int :=
  ((List.range (sampleCount i)).filter fun k => sampleOver i w k || (i.val == 10 && clampAt s (sampleAt i w k))).map (sampleAt i w) ++
    (if sat then [(w.t : Int) / 8192] else [])

/-- The slot takes one window; one from before the last trigger is lost (07 R199). -/
def takeWindow (s : State) (i : Fin 16) (w : Window) : State :=
  let s := s.modSlot i fun x => { x with winT := w.t }
  if s.slots[i].trig.any fun e => decide (w.t / 8192 ≤ e) then s
  else
    let r := runWindow s i w s.slots[i].mill
    s.modSlot i fun x => { x with mill := r.1, overAt := overInstants s i w r.2 ++ x.overAt }

/-- The windows among those brought that are new to the slot and hold samples (05 R124): a gated converter takes none, and each window counts once. -/
def newWindows (s : State) (i : Fin 16) (l : List Window) : List Window :=
  if s.bit (CV_ST_GATED i) && decide (i.val < 10) then []
  else (l.foldl (fun r w => if r.1 < w.t then (w.t, w :: r.2) else r) (s.slots[i].winT, ([] : List Window))).2.reverse

/-- The slot takes the windows that came since its last record; range switches before the newest of them are done with, on GZ those that the twist-release path has
passed too (04 R117). -/
def takeWindows (s : State) (i : Fin 16) (l : List Window) : State :=
  if i.val ≤ 10 then
    let s := l.foldl (fun s w => takeWindow s i w) s
    match l.getLast? with
    | none => s
    | some w => s.modSlot i fun x => { x with ranges := x.ranges.filter fun p => decide (sampleAt i w (sampleCount i) < p.1) || (i.val == 8 && decide (s.pwr.twistT < p.1)) }
  else s

/-- The number of over-range samples in the windows. -/
def overCount (i : Nat) (l : List Window) : Nat := (l.map fun w => (overSamples i w).length).sum

/-- The cubic of 07 R185 through x[n-1], x[n], x[n+1], x[n+2] at mu / 65 536, times 6 × 2^48. -/
def lagrange (a b c d mu : Int) : Int :=
  let K : Int := 65536
  3 * b * ((mu + K) * (mu - K) * (mu - 2 * K)) - a * (mu * (mu - K) * (mu - 2 * K)) - 3 * c * ((mu + K) * mu * (mu - 2 * K)) +
    d * ((mu + K) * mu * (mu - K))

/-- Stage 6 (07 R185): the stage-5 stream at describe time t, times 6 × 2^48; none while an output it needs is missing. The outputs come newest first. -/
def readAt (t : Int) (l : List (Int × Int)) : Option Int :=
  match l with
  | [] => none
  | x2 :: rest =>
    match rest with
    | x1 :: x0 :: xm :: _ =>
      if x1.1 ≤ t then none
      else if x0.1 ≤ t then some (lagrange xm.2 x0.2 x1.2 x2.2 ((t - x0.1) * 65536 / (x1.1 - x0.1)))
      else readAt t rest
    | _ => none

/-- The run of bank b. -/
def MillState.bank (m : MillState) (b : Nat) : BankRun := if b = 0 then m.bank0 else m.bank1

/-- sin²(π m / (2N)) for m up to N, in 2^-64: half of 1 - cos (π m / N). -/
def fadeFix (m N : Nat) : Int :=
  if 2 * m ≤ N then (2 ^ 64 - cosFix (piFix * m / N)) / 2 else (2 ^ 64 + cosFix (piFix * (N - m) / N)) / 2

/-- The weight of the incoming bank in the fade's next record n, in 2^-32 (07 R196): sin²(π(n + 1) / (2N)); the last record is the incoming bank's alone. -/
def fadeW (m : MillState) : Int := if m.fadeLen ≤ m.fade + 1 then 2 ^ 32 else narrow 6 32 (fadeFix (m.fade + 1) m.fadeLen)

/-- The output of stage 6 for the record at t, times 6 × 2^80 (07 R185, R196): of the active bank, in a fade of both. -/
def stageSix (s : State) (i : Fin 16) (t : Nat) : Option Int :=
  let m := s.slots[i].mill
  let act := s.get (ML_ST_ACT i)
  let old := readAt (8192 * t) (m.bank act).outs
  if s.get (ML_ST_STATE i) = 4 then
    match old, readAt (8192 * t) (m.bank (1 - act)).outs with
    | some a, some b => some ((2 ^ 32 - fadeW m) * a + fadeW m * b)
    | _, _ => none
  else old.map fun a => 2 ^ 32 * a

/-- The other two axes of an axis's kind (04 R95). -/
def kinAxes (i : Fin 16) : List (Fin 16) :=
  if i.val < 9 then (List.finRange 16).filter fun j => j.val / 3 == i.val / 3 && j != i else []

/-- Stage 7's self-calibration corrections (07 R188, 09 R237), of a value in 1/65 536 LSB, times 2^26: the residuals in effect. -/
def selfCal (s : State) (i : Fin 16) (x : Int) : Int :=
  if i.val < 10 then x * (2 ^ 26 + s.getI (CAL_GAIN_RES i)) + s.getI (CAL_OFS_RES i) * 256 * 2 ^ 26 else x * 2 ^ 26

/-- The loop resistance in mΩ for 1 µV of in-phase amplitude (06 R164): the probe current is 1.0 mA for a Pt100 and 0.1 mA for a Pt1000. -/
def probeOhm (s : State) : Int := if s.aux.typ = 0 then 1 else 10

/-- The value of slot 0 to 10 before stage 7's later corrections, in 1/65 536 LSB times 2^26, in the probe function the loop resistance in mΩ; none while stage 6
lacks an output. The range's scale has met every sample at stage 1 (04 R107), and the factory values are those of the range in use (log entry 111). -/
def filteredValue (s : State) (i : Fin 16) (t : Nat) : Option Int :=
  (stageSix s i t).map fun y =>
    let x := selfCal s i (Config.factoryCal i (if i.val < 9 then s.get (AX_ST_PRANGE i) else 0) y ((kinAxes i).map fun j => stageSix s j t))
    if i.val = 10 ∧ s.aux.func = 2 then x * probeOhm s else x

/-- The outputs stage 6 may still read for a grid time after t. -/
def BankRun.prune (r : BankRun) (t : Int) : BankRun :=
  { r with outs := (r.outs.takeWhile fun x => decide (8192 * t < x.1)) ++ ((r.outs.dropWhile fun x => decide (8192 * t < x.1)).take 2) }

/-- The earliest instant that the span of a record after the one at t can reach: no settling length is above 1 048 575 records (07 R197). -/
def spanFloor (s : State) (i : Fin 16) (t : Nat) : Int := (t : Int) - 1048576 * interval s.slots[i].rate

/-- After the record at t: a fade has one record more while its swap goes on (07 R196, R204), and what no later record needs is dropped. -/
def passRecord (s : State) (i : Fin 16) (t : Nat) : State :=
  if i.val ≤ 10 then
    let more := s.get (ML_ST_STATE i) == 4 && swapRuns s i
    let from_ := spanFloor s i t
    let s := if i.val = 10 then { s with aux := { s.aux with clamps := s.aux.clamps.filter fun p => decide (from_ ≤ p.2) } } else s
    (s.modMill i fun m => { m with bank0 := m.bank0.prune t, bank1 := m.bank1.prune t, fade := if more then m.fade + 1 else m.fade }).modSlot i fun x =>
      { x with overAt := x.overAt.filter (fun e => decide (from_ ≤ e)), seams := x.seams.filter (fun e => decide (from_ ≤ e)),
               stop := x.stop.filter (fun p => decide (from_ ≤ p.2)) }
  else s.modSlot i fun x => { x with stop := x.stop.filter (fun p => decide (t < p.2)) }

/-- The span of the record at t holds an over-range sample or a saturated section output (05 R128, 06 R158, 07 R184). -/
def overInSpan (s : State) (i : Fin 16) (t : Nat) : Bool :=
  s.slots[i].overAt.any fun e => decide (spanStart s i t ≤ e) && decide (e ≤ t + slotD s i)

end Sys2Proof.Machine
end

