-- ==== Sys2Proof/Machine/Grid.lean ====
section
/-!
DEFINITION. Records on the grid (08): the reason of a marker, the value and flags of a sample (04 R118, 05 R128 to R148, 06 R163 to R165, 07 R188, R203),
GRID_SLOT_RECORD, and the time step's records (07 R202, 08 R219).
-/

namespace Sys2Proof.Machine

/-- The active edges at or before grid time t, newest first (06 R163). -/
def edgesBy (s : State) (t : Nat) : List Nat := s.aux.edges.filter fun e => decide (40 * e ≤ t)

/-- The active edges after grid time t among those held. -/
def edgesAfter (s : State) (t : Nat) : Nat := s.aux.edges.length - (edgesBy s t).length

/-- Fewer than two active edges are available at t (06 R163). -/
def tachoNotReady (s : State) (t : Nat) : Bool :=
  decide (s.aux.ready - edgesAfter s t < 2) || decide ((edgesBy s t).length < 2)

/-- The shaft speed in mHz at t (06 R163, mode 0): ppr pulses per revolution, the period in 1/8 ns, rounded half up; 0 while stuck. -/
def shaftSpeed (s : State) (t : Nat) : Int :=
  match edgesBy s t with
  | a :: b :: _ =>
    let p := max (40 * (a - b)) (t - 40 * a)
    let d := 2 * auxGet s AUX_TACH_PPR * p
    if s.bit AUX_ST_STUCK ∨ d = 0 then 0 else ((16000000000000 + d / 2) / d : Nat)
  | _ => 0

/-- The shaft angle at t in 1/4 096 revolution, wrapped to 24 signed bits (06 R163, mode 1); while stuck the last one. -/
def shaftAngle (s : State) (t : Nat) : Int :=
  match edgesBy s t with
  | a :: b :: _ =>
    if s.bit AUX_ST_STUCK then s.aux.angle
    else
      let n := s.aux.nact - edgesAfter s t - 1
      let d := 40 * (a - b)
      let fr := if d = 0 then 4096 else min 4096 ((2 * 4096 * (t - 40 * a) + d) / (2 * d))
      signed ((n * 4096 + fr) / auxGet s AUX_TACH_PPR % 2 ^ 24) 24
  | _ => s.aux.angle

/-- The valid housekeeping results of a slot timed at or before t, newest first (05 R134). -/
def hkBy (s : State) (i : Fin 16) (t : Nat) : List HkRes := s.slots[i].hk.filter fun x => decide (x.t ≤ t)

/-- A housekeeping slot has no result that is recent enough (05 R134). -/
def hkStale (s : State) (i : Fin 16) (t : Nat) : Bool :=
  match hkBy s i t with
  | [] => true
  | x :: _ => decide (x.t + s.get HK_CTL_MAXAGE * 8000000 < t)

/-- The newest result is timed before the last time step (07 R202). -/
def hkDiscarded (s : State) (i : Fin 16) (t : Nat) : Bool :=
  match hkBy s i t with
  | [] => false
  | x :: _ => !x.live

/-- A calibration run's samples lie in the span of the record at t (07 R203). -/
def runHeld (s : State) (i : Fin 16) (t : Nat) : Bool :=
  match s.slots[i].holdFrom with
  | none => false
  | some a => spanMeets s i t (a, s.slots[i].holdTo)

/-- The span of the record at t reaches back to the last suppression trigger, at which the Mill lost the input before it, or holds input lost to a stop (07 R199); a record still due at a rate code that has ended reaches the
change's boundary (08 R210). -/
def settling (s : State) (i : Fin 16) (t : Nat) : Bool :=
  (s.slots[i].trig.any fun e => decide (spanStart s i t ≤ e)) || (s.slots[i].stop.any fun p => spanMeets s i t (p.1, some p.2)) ||
  (match s.slots[i].chg with
    | some (S, true, _) => decide (t < S)
    | _ => false)

/-- The span of the record at t holds a not-settled sample (05 R143, R144). -/
def refUnsettled (s : State) (i : Fin 16) (t : Nat) : Bool := s.hk.unsettled.any (spanMeets s i t)

/-- Rule 3 of 08 R217: the run began after the last trigger, and no sample was delivered since. -/
def nothingToHold (s : State) (i : Fin 16) (t : Nat) : Bool :=
  runHeld s i t && !s.slots[i].sampled && (match s.slots[i].trig, s.slots[i].holdFrom with
    | some e, some a => decide (e < a)
    | none, some _ => true
    | _, none => false)

/-- The axis, AUX or tacho front end is gated (01 R26, 08 R216). -/
def slotGated (s : State) (i : Nat) : Bool :=
  if i < 3 then s.bit ID_DOMST_WCG else if isG i then s.bit ID_DOMST_RATEG else if i = 9 then s.bit ID_DOMST_QG else false

/-- The reason of highest precedence that makes the record of slot i at t a marker, 0 when it is a sample (08 R216, R217). The reasons that hold while a condition
lasts (2, 4 to 7, 9 to 11) are those of the moment at which the record is delivered. -/
def markerReason (s : State) (i : Fin 16) (t : Nat) : Nat :=
  let aux := i.val == 10 || i.val == 11
  let hk := decide (12 ≤ i.val)
  if i.val = 15 then 1
  else if s.mode = 11 then 2
  else if s.slots[i].stoppedAt t then 3
  else if aux && auxSerial s then 4
  else if (i.val == 10 && s.aux.func == 0) || (i.val == 11 && s.aux.func != 1) then 5
  else if slotGated s i then 6
  else if isG i && !s.bit DRV_ST_LOCK then 7
  else if decide (i.val ≤ 10) && refUnsettled s i t then 8
  else if i.val == 10 && s.get AUX_ST_PFLT != 0 then 9
  else if i.val == 11 && s.bit AUX_ST_OVSPD then 0xA
  else if i.val == 11 && tachoNotReady s t then 0xB
  else if hk && hkStale s i t then 0xC
  else if (decide (i.val ≤ 10) && (settling s i t || nothingToHold s i t)) || (hk && hkDiscarded s i t) then
    (if s.bit (ML_ST_NEVER i) && decide (i.val ≤ 10) then 0xD else 0xE)
  else 0

/-- f times 10^15 D^4 for the resistance ratio at n / D degrees Celsius, D = 65 536 000 (06 R164: IEC 60751; log entry 14). -/
def iecRatio (n : Int) : Int :=
  let D : Int := 65536000
  10 ^ 15 * D ^ 4 + 3908300000000 * n * D ^ 3 - 577500000 * n ^ 2 * D ^ 2 - (if n < 0 then 4183 * (n - 100 * D) * n ^ 3 else 0)

/-- Bisection for the temperature in 1/65 536 of 0.001 °C whose resistance is rp / 65 536 mΩ with a nominal r0 mΩ; k halvings of [lo, hi]. -/
def iecSolve (rp r0 lo hi : Int) (k : Nat) : Int :=
  match k with
  | 0 => lo
  | k + 1 =>
    let m := (lo + hi) / 2
    if iecRatio m * r0 * 65536 ≤ rp * (10 ^ 15 * (65536000 : Int) ^ 4) then iecSolve rp r0 m hi k else iecSolve rp r0 lo m k

/-- The probe temperature in 1/65 536 of 0.001 °C (06 R164), solved between -200 and +850 °C. -/
def probeTemp (s : State) (rp : Int) : Int :=
  iecSolve rp (if s.aux.typ = 0 then 100000 else 1000000) (-200 * 65536000) (850 * 65536000) 38

/-- The probe resistance in 1/65 536 mΩ times 2^26, from the loop resistance Rm in that unit (06 R164). -/
def probeRes (s : State) (rm : Int) : Int := rm - (auxGet s AUX_RLEAD_MOHM : Int) * 65536 * 2 ^ 26

/-- The value of slot 0 to 10 after steps 1 to 3 of 07 R188, in 1/65 536 LSB times 2^26; y is what comes before the probe's conversion. -/
def stageValue (s : State) (i : Fin 16) (y : Int) : Int :=
  if i.val = 10 ∧ s.aux.func = 2 then probeTemp s (roundEven (probeRes s y) (2 ^ 26)) * 2 ^ 26 else y

/-- The user values of slot i in effect at grid time t (05 R148): new ones apply from the next grid second. -/
def userCal (s : State) (i : Fin 16) (t : Nat) : Int × Int :=
  if i.val = 9 then (2 ^ 22, 0)
  else
    match s.scal.old.find? fun e => e.1 == i.val && decide (timeSec t ≤ e.2.2.2) with
    | some e => (e.2.1, e.2.2.1)
    | none => (s.get (SCAL_GAIN_G i), s.getI (SCAL_OFS_O i))

/-- The record value x of slots 0 to 10 before the user correction (07 R188, step 4; 05 R145), times lsb × 2^42 of the slot's LSB: the Q subtraction, QCOEF in 1/64 and
Q_CORR in 1/256 µg, is in µg (04 R118, R121). -/
def userInput (s : State) (i : Fin 16) (y : Int) : Int :=
  let q := if i.val < 6 ∧ s.bit (AX_CFG_QEN i) then s.getI (AX_CFG_QCOEF i) * s.getI Q_CORR_UG * 4 * 2 ^ 26 else 0
  stageValue s i y * axisUg i - q

/-- The sample of slots 0 to 10 (07 R188, steps 5 and 6): user gain and offset, one rounding to even, and the extent. -/
def scaleValue (s : State) (i : Fin 16) (t : Nat) (y : Int) : Int × Bool :=
  let (g, o) := userCal s i t
  let d := 65536 * 2 ^ 26 * 2 ^ 22 * axisUg i
  let v := roundEven (userInput s i y * g + o * d) d
  let c := clampInt (-(2 ^ 23)) (2 ^ 23 - 1) v
  (c, c != v)

/-- The temperature lies outside the probe's span (06 R165); before the user gain and offset and the rounding (log entry 112). -/
def probeOut (s : State) (y : Int) : Bool :=
  let x := stageValue s 10 y
  decide (x < -50000 * 65536 * 2 ^ 26) || decide (250000 * 65536 * 2 ^ 26 < x)

/-- SEAM (04 R109): the first new-gain sample of a range switch lies in the span. -/
def seamFlag (s : State) (i : Fin 16) (t : Nat) : Bool := s.slots[i].seams.any (inSpan s i t)

/-- CALADJ (09 R238): a class A step lies in the span, or the span lies between two of them. -/
def caladjFlag (s : State) (i : Fin 10) (t : Nat) : Bool := s.cal.axes[i].slews.any (spanMeets s (axisSlot i) t)

/-- THERM (09 R231): the axis was deferred by slope at t. -/
def thermFlag (s : State) (i : Fin 10) (t : Nat) : Bool := s.cal.axes[i].therm.any (meets t t)

/-- The sample of slot i at t (08 R214, R217); y is the value of slot 0 to 10 before stage 7's later corrections. DESIGN CHOICE (log entry 111): a value beyond the 24-bit extent sets no OVR on a held,
STALE record, whether the live or the held value was clipped. -/
def sampleRec (s : State) (i : Fin 16) (t : Nat) (y : Int) : Rec :=
  let timeq := timeqAt s t
  if i.val ≤ 10 then
    let (v, clipped) := scaleValue s i t y
    let stale := decide (i.val < 10) && runHeld s i t
    let ovr := overInSpan s i t || (clipped && !stale) || (i.val == 10 && s.aux.func == 2 && probeOut s y)
    let (ca, th) := match slotAxis i with
      | none => (false, false)
      | some a => (caladjFlag s a t, thermFlag s a t)
    { value := if stale then s.slots[i].lastVal else v, caladj := ca, timeq := timeq, therm := th, stale := stale,
      seam := (decide (i.val < 3) || isG i) && seamFlag s i t, ovr := ovr }
  else if i.val = 11 then
    let v := if auxGet s AUX_TACH_MODE = 0 then shaftSpeed s t else shaftAngle s t
    let c := clampInt (-(2 ^ 23)) (2 ^ 23 - 1) v
    { value := c, timeq := timeq, ovr := c != v }
  else
    match hkBy s i t with
    | [] => { timeq := timeq }
    | x :: _ => { value := x.value, timeq := timeq, ovr := x.ovr }

/-- The record of slot i at t: a marker with the reason of highest precedence, else a sample (08 R217). -/
def gridRec (s : State) (i : Fin 16) (t : Nat) (y : Int) : Rec :=
  let why := markerReason s i t
  if why ≠ 0 then marker why (timeqAt s t) else sampleRec s i t y

/-- What new over-range converter samples do (05 R128, 09 R236). -/
def noteOver (s : State) (i : Fin 16) (n : Nat) : State :=
  match slotAxis i with
  | none => s
  | some a => if n = 0 then s else abandonIf ((s.event (AX_EVT_SAT a)).bump (CV_ST_OVRCNT a) n) a

/-- The 2^-64 fractions of exp (-x) for x up to 1, n terms of its series: a is the present term. -/
def expSum (x k : Nat) (a : Int) (n : Nat) : Int :=
  match n with
  | 0 => 0
  | n + 1 => a + expSum x (k + 1) (-(a * x) / (2 ^ 64 * k)) n

/-- A 2^-64 fraction squared n times. -/
def squares (x : Int) (n : Nat) : Int :=
  match n with
  | 0 => x
  | n + 1 => squares (x * x / 2 ^ 64) n

/-- What is left of a deviation after dt in 1/8 ns by a first-order low-pass with a time constant of 1 s (04 R118), in 2^-64; nothing after 64 s. -/
def lowPassLeft (dt : Nat) : Int :=
  if 64 * 8000000000 ≤ dt then 0 else squares (expSum (dt * 2 ^ 64 / (64 * 8000000000)) 1 (2 ^ 64) 20) 6

/-- The Q low-pass takes one output of Q, in 1/256 µg at grid time t (04 R118; its arithmetic is open, log entry 111). -/
def stepQ (d : DriveState) (p : Nat × Int) : DriveState :=
  if p.1 ≤ d.qAt then d
  else
    let x := p.2 * 65536
    { d with qVal := x + (d.qVal - x) * lowPassLeft (p.1 - d.qAt) / 2 ^ 64, qAt := p.1 }

/-- An output of Q in 1/256 µg (04 R118), of its value in 1/65 536 LSB times 2^26. -/
def qOutput (y : Int) : Int := roundEven (y * axisUg 9) (2 ^ 34)

/-- The outputs of Q that a record brings (04 R118): while slot 9 is enabled those of its own Mill slot, at the grid times of its samples, and else those that the command gives, as Q passes on
without a slot (log entry 111). -/
def qOutputs (s : State) (i : Fin 16) (t : Nat) (r : Rec) (y : Int) (l : List (Nat × Int)) : List (Nat × Int) :=
  if !s.slots[9].en then l else if i = 9 ∧ r.kind = .sample then [(t, qOutput y)] else []

/-- The outputs of Q pass through the low-pass (04 R118, R119): held while Q is gated. -/
def noteQ (s : State) (l : List (Nat × Int)) : State :=
  if s.bit ID_DOMST_QG then s
  else
    let d := l.foldl stepQ s.drive
    { s with drive := d }.setI Q_CORR_UG (clampInt (-(2 ^ 31)) (2 ^ 31 - 1) ((d.qVal + 32768) / 65536))

/-- The probe resistance shown (06 R164), kept while the pins are in serial use (R154). -/
def noteProbe (s : State) (i : Fin 16) (y : Int) : State :=
  if i.val = 10 ∧ s.aux.func = 2 ∧ !auxSerial s then s.setI AUX_RMEAS_MOHM (roundEven (probeRes s y) (65536 * 2 ^ 26)) else s

/-- A stale marker sets its event (05 R134). -/
def noteStale (s : State) (r : Rec) : State := if r.kind = .marker ∧ r.value = 0xC then s.event HK_EVT_STALE else s

/-- What a formed record changes on its slot: the markers or warm-up records still due (07 R205), and the value a hold repeats. -/
def noteRec (s : State) (i : Fin 16) (t : Nat) (r : Rec) : State :=
  let s := if i.val ≤ 10 ∧ ((s.get (ML_ST_STATE i) = 3 ∧ swapRuns s i) ∨ (s.get (ML_ST_STATE i) = 1 ∧ r.kind ≠ .sample)) then
      s.set (ML_SREM_REM i) (s.get (ML_SREM_REM i) - 1)
    else s
  let s := if 12 ≤ i.val then s.modSlot i fun x => { x with hk := x.hk.filter (fun y => decide (t < y.t)) ++ (hkBy s i t).take 1 } else s
  if r.kind = .sample then
    let s := s.modSlot i fun x => { x with lastVal := r.value, sampled := true }
    if i.val = 11 then { s with aux := { s.aux with angle := shaftAngle s t } } else s
  else noteStale s r

/-- A measurement over a slot's records takes one (05 R146, R147, 06 R166): x the value in 2^-42 of the slot's LSB, t its grid time, none for a time-step record; fails the flags
that spoil it; f the frequency of a dynamic capture in 0.01 Hz; records before its start are none of it. -/
def Collect.take (c : Collect) (t : Option Nat) (T : Nat) (r : Rec) (x : Int) (spoiled : Bool) (f : Nat) : Collect :=
  match t with
  | none => { c with marker := true }
  | some t =>
    if t < c.start then c
    else
      let c := { c with first := some (c.first.getD t), upto := t + T }
      if r.kind ≠ .sample then { c with marker := true }
      else
        let (co, si) := turnFix (f * t % 800000000000) 800000000000
        { c with n := c.n + 1, sum := c.sum + x, lo := if c.n = 0 then x else min c.lo x, hi := if c.n = 0 then x else max c.hi x,
                 co := c.co + x * co, si := c.si + x * si, flagged := c.flagged || spoiled }

/-- The length of the capture that runs, in 1/8 ns (05 R146): 2 s static, 4 s dynamic. -/
def captureTime (s : State) : Nat := if s.scal.dynamic then 32000000000 else 16000000000

/-- The measurements that run on slot i take its record r: a system-calibration capture the value before the user correction (05 R145), a lead measurement the loop
resistance (06 R166). -/
def noteMeasures (s : State) (i : Fin 16) (t : Option Nat) (r : Rec) (y : Int) : State :=
  let T := interval s.slots[i].rate
  let x := userInput s i y / axisUg i
  let s := if s.bit SCAL_ST_BUSY && s.scal.ch == some i.val && !s.scal.run.full (captureTime s) then
      let f := if s.scal.dynamic then s.get SCAL_FREQ_F else 0
      { s with scal := { s.scal with run := s.scal.run.take t T r x (r.ovr || r.seam || r.stale || r.caladj || r.therm) f } }
    else s
  if i.val = 10 && s.bit AUX_ST_LEADBUSY && !s.aux.lead.full 16000000000 then { s with aux := { s.aux with lead := s.aux.lead.take t T r y r.ovr 0 } } else s

/-- The value of slot 0 to 10 before stage 7's later corrections, a free value while the windows that came do not reach the grid time (log entry 41). -/
def valueOrFree (s : State) (i : Fin 16) (t : Nat) : Int × State :=
  if i.val ≤ 10 then
    match filteredValue s i t with
    | some y => (y, s)
    | none => (signed s.freeWord.1.toNat 32 * 65536 * 2 ^ 26, s.freeWord.2)
  else (0, s)

/-- The record's rate code: while a change of it waits for records due before its boundary, the old one (08 R210). -/
def SlotState.codeAt (x : SlotState) (t : Nat) : Nat :=
  match x.chg with
  | some (S, true, r) => if t < S then r else x.rate
  | _ => x.rate

/-- The slot's next grid time after t: one interval later, or the boundary of a change of the rate code (08 R210, R211). -/
def SlotState.after (x : SlotState) (t : Nat) : Nat :=
  let u := t + interval (x.codeAt t)
  match x.chg with
  | some (S, true, _) => if t < S then min u S else u
  | _ => u

/-- Form and queue the record of slot i at t from the windows that are new to it; the outputs of Q meanwhile pass on. -/
def formRecord (s : State) (i : Fin 16) (t : Nat) (win : List Window) (q : List (Nat × Int)) (taken : Nat) : State :=
  let s := takeWindows s i win
  let (y, s) := valueOrFree s i t
  let s := noteProbe s i y
  let s := noteQ s (qOutputs s i t (gridRec s i t y) y q)
  let r := gridRec s i t y
  let s := noteMeasures s i (some t) r y
  let s := queueRecord (passRecord (noteRec s i t r) i t) i r (some t) (s.slots[i].codeAt t) taken
  s.modSlot i fun x => { x with nextT := some (x.after t) }

/-- t is the slot's next grid time (08 R211, R222). -/
def nextGrid (s : State) (i : Fin 16) (t : Nat) : Bool := s.slots[i].nextT == some t

/-- Every old-base grid time of a slot from t up to now, at most n of them (07 R202). -/
def oldTimes (x : SlotState) (now t n : Nat) : List Nat :=
  match n with
  | 0 => []
  | n + 1 => if now ≤ t then [] else t :: oldTimes x now (x.after t) n

/-- The grid slots of the old time base whose records are not queued yet when it ends now (07 R202). -/
def oldSlots (s : State) (i : Fin 16) : List Nat :=
  match s.slots[i].nextT with
  | none => []
  | some t => oldTimes s.slots[i] s.now t ((s.now - t) / 78125 + 1)

/-- The marker of an old-base slot at a time step: Settling, or the reason of higher precedence that applies (07 R202, 08 R217; log entry 15). -/
def oldMarker (s : State) (i : Fin 16) (t : Nat) : Rec :=
  let why := markerReason s i t
  marker (if why = 0 then 0xE else why) (timeqAt s t)

/-- A slot queues the marker of an old-base grid time. -/
def queueOld (s : State) (i : Fin 16) (t : Nat) : State :=
  let r := oldMarker s i t
  queueRecord (noteStale (noteMeasures s i (some t) r 0) r) i r (some t) (s.slots[i].codeAt t) 63

/-- The time-step record (08 R219): cause 1 initial set, 2 accepted step; jump is the counter change in 1/65 536 ns. -/
def stepRec (cause : Nat) (jump : Int) : Rec :=
  let ms := min (absNat jump / 65536000000) 0x1FFFFF
  { kind := .timeStep, value := (cause * 2 ^ 22 + (if jump < 0 then 2 ^ 21 else 0) + ms : Nat), timeq := true }

/-- One enabled slot at a time step, before the counter changes (07 R202): its old-base markers and its time-step record. -/
def stepSlot (s : State) (cause : Nat) (jump : Int) (i : Fin 16) : State :=
  let s := (oldSlots s i).foldl (fun s t => queueOld s i t) s
  let r := stepRec cause jump
  queueRecord (noteMeasures s i none r 0) i r none s.slots[i].rate 63

/-- An instant of the old time base on the new one. -/
def shiftTime (jump : Int) (t : Nat) : Nat := ((t : Int) + jump / 8192).toNat

/-- A span of time moved to the new time base. -/
def shiftSpan (jump : Int) (p : Nat × Option Nat) : Nat × Option Nat := (shiftTime jump p.1, p.2.map (shiftTime jump))

/-- What the Mill and self-calibration remember of instants, moved to the new time base, which begins at the stepped counter: the slot goes on from its first
grid time there (07 R202). -/
def shiftSlot (jump : Int) (base : Nat) (x : SlotState) : SlotState :=
  let f := Option.map (shiftTime jump)
  { x with nextT := x.nextT.map (fun _ => gridFrom x.rate base), lastT := none, trig := f x.trig, seams := x.seams.map (shiftTime jump), holdFrom := f x.holdFrom,
           holdTo := f x.holdTo, stop := x.stop.map fun p => (shiftTime jump p.1, shiftTime jump p.2), pendCfg := f x.pendCfg, overAt := [], winT := 0,
           ranges := x.ranges.map fun p => (shiftTime jump p.1, p.2), hk := x.hk.map fun h => { h with t := shiftTime jump h.t } }

/-- The same for an axis of self-calibration. -/
def shiftCal (jump : Int) (x : CalAxis) : CalAxis := { x with slews := x.slews.map (shiftSpan jump), therm := x.therm.map (shiftSpan jump), lastStep := shiftTime jump x.lastStep }

/-- AUX at a time step (06 R178): earlier edges are discarded, the two-edge count restarts, the angle count runs on; a transition that waits for its pulse width
began before the step. -/
def stepTacho (jump : Int) (a : AuxState) : AuxState :=
  { a with edges := [], ready := 0, compAt := shiftTime jump (40 * a.compAt) / 40, compOld := true, pend := a.pend.map (shiftTime jump),
           clamps := a.clamps.map fun p => (shiftTime jump p.1, shiftTime jump p.2) }

/-- The records of a time step on every enabled slot (07 R202), before the counter changes; at the initial set only on a slot that has delivered a record in this run
(03 R81). A capture ends with the time-step record of a captured slot (10 R261). -/
def stepRecords (s : State) (cause : Nat) (jump : Int) : State :=
  let l := (enabledSlots s).filter fun i => cause != 1 || s.slots[i].queued != 0
  stepCaptures (l.foldl (fun s i => stepSlot s cause jump i) s) (l.map (·.val))

/-- The Mill after the counter changed (07 R198, R202): the synchronising reset of every enabled slot. The calibration run outlasts it (09 R236). -/
def stepMill (s : State) (jump : Int) : State :=
  let f := Option.map (shiftTime jump)
  let s := { s with slots := s.slots.map (shiftSlot jump s.now), aux := stepTacho jump s.aux, drive := { s.drive with qAt := shiftTime jump s.drive.qAt },
                    pwr := { s.pwr with twistT := shiftTime jump s.pwr.twistT },
                    hk := { s.hk with unsettled := s.hk.unsettled.map (shiftSpan jump) },
                    cal := { s.cal with axes := s.cal.axes.map (shiftCal jump), endedAt := f s.cal.endedAt } }
  syncReset s (enabledSlots s)

/-- The stops whose end the counter has reached are over (07 R194, 08 R216): slot 11 starts its tacho anew (06 R163), the others their banks. -/
def wakeSlot (s : State) (i : Fin 16) : State :=
  match s.slots[i].stop with
  | [] => s
  | (_, b) :: _ =>
    if s.slots[i].resume ∧ b ≤ s.now then
      let s := resumeSlot s i b
      let s := if i.val = 11 then startTacho s else s
      match slotAxis i with
      | none => s
      | some a => abandonIf s a
    else s

/-- The same for every slot. -/
def wakeSlots (s : State) : State := (List.finRange 16).foldl wakeSlot s

/-- ML_CTL.SYNC (07 R198): a synchronising reset of one slot, when it is enabled. -/
def slotSync (s : State) (i : Fin 16) : State :=
  if s.slots[i].en then
    let s := syncReset s [i]
    match slotAxis i with
    | none => s
    | some a => abandonIf s a
  else s

/-- ML_GCMD.SYNC (07 R198). -/
def globalSync (s : State) : State :=
  let l := enabledSlots s
  let s := syncReset s l
  l.foldl (fun s i => match slotAxis i with | none => s | some a => abandonIf s a) s

/-- A write of ML_CTL: SYNC first, then SWAP (07 R204). -/
def writeMlCtl (s : State) (i : Fin 16) (v : Word) : State :=
  let s := if v.getLsbD 1 then slotSync s i else s
  if v.getLsbD 0 then requestSwap s i else s

/-- ML_SLOT_SYNC. -/
def execMlSlotSync (door : Initiator) (slot : Fin 11) (s : State) : Host.Outcome State Fault Refusal :=
  .next (atDoor s door (0x411 + 0x40 * slot.val) fun s => slotSync s (slot.castLE (by decide)))

/-- ML_GLOBAL_SYNC. -/
def execMlGlobalSync (door : Initiator) (s : State) : Host.Outcome State Fault Refusal :=
  .next (atDoor s door 0xB00 fun s => globalSync s)

/-- MILL_ECC_ERROR (07 R202): an uncorrectable state error is a synchronising reset of that slot alone. -/
def execMillEccError (slot : Fin 11) (s : State) : Host.Outcome State Fault Refusal :=
  .next (if s.alive then slotSync s (slot.castLE (by decide)) else s)

end Sys2Proof.Machine
end

