-- ==== Sys2Proof/Machine/Axes.lean ====
section
/-!
DEFINITION. The axes (04): ranges and auto-ranging, excitation levels, the rate drive loop, gating of the front ends (01 R24, R26, 05 R127), and writes of
AX_CFG.
-/

namespace Sys2Proof.Machine

/-- The top range of an axis (04 R93). -/
def topRange (i : Nat) : Nat := if i < 3 then 2 else if i < 9 then 1 else 0

/-- A W or G axis, the kinds with auto-ranging (04 R105). -/
def hasAuto (i : Nat) : Bool := decide (i < 3) || isG i

/-- The axis is in auto mode. -/
def autoMode (s : State) (i : Fin 10) : Bool := hasAuto i && s.bit (AX_CFG_AUTO i)

/-- The range of a W or G axis is held by a system-calibration capture on it (05 R146). -/
def rangeHeld (s : State) (i : Fin 10) : Bool := s.bit SCAL_ST_BUSY && s.scal.ch == some i.val

/-- The axis is sampled: its converter is not gated, and on G the drive is locked (04 R112, R115). -/
def axisRuns (s : State) (i : Fin 10) : Bool := !s.bit (CV_ST_GATED i) && (!isG i || s.bit DRV_ST_LOCK)

/-- The down count restarts (04 R106). -/
def restartCount (s : State) (i : Fin 10) : State :=
  ((s.modAxis i fun a => { a with quiet := 0 }).set (AX_ST_DNHOLD i) 0).set (AX_ST_HOLDMS i) 0

/-- The down threshold of a W or G axis, in codes of its present range (04 R106). -/
def downThreshold (i : Nat) : Nat := if i < 3 then 358 else 179

/-- The down count after runs of carrier periods, each with the greatest magnitude of its samples (04 R106): it ends at 100 000, where the axis steps down; while the range is held, it
stays there until a sample restarts it. -/
def quietAfter (held : Bool) (thr q : Nat) (l : List (Nat × Nat)) : Nat :=
  match l with
  | [] => q
  | (n, peak) :: l => if 100000 ≤ q ∧ !held then q else quietAfter held thr (if peak < thr then min 100000 (q + n) else if n = 0 then q else 0) l

/-- The down count shown (04 R106): whole milliseconds of 0.64 µs each. -/
def showQuiet (s : State) (i : Fin 10) (q : Nat) : State :=
  ((s.modAxis i fun a => { a with quiet := q }).set (AX_ST_DNHOLD i) (min q 1)).set (AX_ST_HOLDMS i) (q * 64 / 100000)

/-- An axis starts (04 R112): an auto axis in its top range, any other in the range it holds. -/
def startAxis (s : State) (i : Fin 10) : State :=
  let r := if autoMode s i then topRange i else s.get (AX_CFG_RANGE i)
  let s := s.modAxis i fun a => { a with pendRange := none, crossing := false }
  restartCount (s.set (AX_ST_PRANGE i) r) i

/-- Decide a range switch to r (04 R107): it happens at a carrier-period boundary; it restarts the down count. -/
def decideRange (s : State) (i : Fin 10) (r : Nat) : State :=
  if r = s.get (AX_ST_PRANGE i) then s.modAxis i fun a => { a with pendRange := none }
  else restartCount (s.modAxis i fun a => { a with pendRange := some r }) i

/-- Ungate the front ends and converters of a list of axes (05 R127, 04 R112, 07 R198): they start and are channel-switched. A G axis starts at drive lock. -/
def ungate (s : State) (l : List (Fin 10)) : State :=
  l.foldl (fun s (i : Fin 10) =>
    if s.bit (CV_ST_GATED i) then
      let s := s.set (CV_ST_GATED i) 0
      let s := if isG i then s else startAxis s i
      suppress s (axisSlot i) false
    else s) s

/-- Gate the front ends and converters of a list of axes; a run on one of them is abandoned (01 R26, 09 R236). -/
def gate (s : State) (l : List (Fin 10)) : State :=
  l.foldl (fun s (i : Fin 10) => abandonIf ((s.set (CV_ST_GATED i) 1).modAxis i fun a => { a with pendRange := none, crossing := false }) i) s

/-- The W axes. -/
def wAxes : List (Fin 10) := [0, 1, 2]

/-- Open or close the gate of the wideband converters (16 R422). -/
def gateW (s : State) (closed : Bool) : State :=
  if closed then gate (s.set ID_DOMST_WCG 1) wAxes else ungate (s.set ID_DOMST_WCG 0) wAxes

/-- Note that Q was gated since the last run of every axis (09 R239). -/
def forgetQ (s : State) : State := { s with cal := { s.cal with axes := s.cal.axes.map fun x => { x with qAt := none } } }

/-- Open or close Q's gate (04 R119): while it is closed Q_CORR holds; the low-pass goes on from the held value. -/
def gateQ (s : State) (closed : Bool) : State :=
  if closed then forgetQ (gate ((s.set ID_DOMST_QG 1).set Q_ST_HELD 1) [9])
  else
    let s := s.when (s.bit ID_DOMST_QG) fun s => { s with drive := { s.drive with qAt := s.now } }
    ungate ((s.set ID_DOMST_QG 0).set Q_ST_HELD 0) [9]

/-- Twist-release disarms, with no integral in progress (02 R59, R60, R63). -/
def disarmTwist (s : State) : State :=
  let s := ((s.set PWR_ST_MOUNTED 0).set PWR_ST_TWARM 0).set PWR_TWANG_ANGLE 0
  { s with pwr := { s.pwr with twist := 0, calm := 0 } }

/-- The drive starts now, at the last stored frequency (04 R114). -/
def startDrive (s : State) : State := { s with drive := { s.drive with starting := true, startAt := s.pwr.ticks } }

/-- The amplitude of the drive (04 R114): while it starts an open value, above 50 % after 50 ms, in CLK ticks (log entry 17). -/
def driveAmp (s : State) : Nat :=
  if s.drive.starting then
    let n := s.pwr.ticks - s.drive.startAt
    let a := Config.driveAmp s.drive.startAt n % 102
    if 10000000 ≤ n then max 51 a else a
  else s.get DRV_ST_AMP

/-- Open or close the gate of the rate drive (04 R113 to R116, 01 R24): opening starts the drive; closing stops it and disarms twist-release. -/
def gateDrive (s : State) (closed : Bool) : State :=
  if closed then
    let s := gate (s.set ID_DOMST_RATEG 1) gAxes
    let s := ((s.set DRV_ST_LOCK 0).set DRV_ST_FREQ 0).set DRV_ST_AMP 0
    disarmTwist { s with drive := { s.drive with starting := false } }
  else if s.bit ID_DOMST_RATEG then
    startDrive (ungate (s.set ID_DOMST_RATEG 0) gAxes)
  else s

/-- An excitation change reaches the plates (04 R103, R106, 09 R236). -/
def applyExc (s : State) (i : Fin 10) : State :=
  let s := s.modAxis i fun a => { a with pendExc := false }
  restartCount (suppressCal s (axisSlot i) true) i

/-- The fields an accepted write leaves in AX_CFG (04 R120, R121, R123): QCOEF, QEN, EXCLVL, AUTO, RANGE. -/
def axCfgValue (s : State) (i : Fin 10) (v : Word) : Word :=
  let old := s.word (0x400 + 0x40 * i.val)
  if i.val = 9 then old
  else
    let q := if isG i then 0 else getBits v 8 8 * 256 + getBits v 6 1 * 64
    let auto := if hasAuto i then getBits v 2 1 else 0
    let r := getBits v 0 2
    let keep := decide (topRange i < r) || (auto == 1 && getBits old 2 1 == 1)
    BitVec.ofNat 32 (q + getBits v 4 2 * 16 + auto * 4 + (if keep then getBits old 0 2 else r))

/-- A write of AX_CFG (04 R103, R104, R111, R123). DESIGN CHOICE: a RANGE write, or AUTO from 1 to 0, on an axis whose converter is gated, or on G with the drive not
locked, makes no range switch, event or count, and PRANGE stays until the axis starts (log entry 113). -/
def writeAxCfg (s : State) (i : Fin 10) (v : Word) : State :=
  let a := 0x400 + 0x40 * i.val
  let old := s.word a
  let new := axCfgValue s i v
  let s := s.setWord a new
  let s := if getBits old 8 8 ≠ getBits new 8 8 then s.modCal i fun x => { x with qTarget := none } else s
  let s := if getBits old 4 2 ≠ getBits new 4 2 then s.modAxis i fun x => { x with pendExc := true } else s
  if hasAuto i then
    let oa := getBits old 2 1 == 1
    let na := getBits new 2 1 == 1
    let s := if oa != na then restartCount s i else s
    if !na && (oa || getBits old 0 2 != getBits new 0 2) && axisRuns s i then decideRange s i (getBits new 0 2) else s
  else if getBits old 0 2 ≠ getBits new 0 2 then
    suppressCal (s.set (AX_ST_PRANGE i) (getBits new 0 2)) (axisSlot i) false
  else s

/-- AX_CFG_WRITE. -/
def execAxCfgWrite (door : Initiator) (axis : Fin 10) (v : Word) (s : State) : Host.Outcome State Fault Refusal :=
  .next (atDoor s door (0x400 + 0x40 * axis.val) fun s => writeAxCfg s axis v)

/-- RANGE_UP_DECISION (04 R105, R120): a sample above 90 % of FSCODE; during a calibration run the crossing is remembered and the run abandoned (09 R236). -/
def execRangeUpDecision (axis : Fin 10) (code : Int) (s : State) : Host.Outcome State Fault Refusal :=
  .next (if s.alive && autoMode s axis && axisRuns s axis && decide (6451 < absNat code) && decide (s.get (AX_ST_PRANGE axis) < topRange axis)
            && !rangeHeld s axis then
      if runAxis s = some axis then abandonRun (s.modAxis axis fun a => { a with crossing := true }) axis
      else decideRange s axis (s.get (AX_ST_PRANGE axis) + 1)
    else s)

/-- RANGE_DOWN_DECISION (04 R106): the down count takes carrier periods; the 100 000th quiet one decides, unless a capture holds the range. -/
def execRangeDownDecision (axis : Fin 10) (runs : List (Nat × Nat)) (s : State) : Host.Outcome State Fault Refusal :=
  .next (if s.alive && autoMode s axis && axisRuns s axis && decide (0 < s.get (AX_ST_PRANGE axis)) && s.axes[axis].pendRange.isNone
            && decide (runAxis s ≠ some axis) then
      let q := quietAfter (rangeHeld s axis) (downThreshold axis) s.axes[axis].quiet runs
      if 100000 ≤ q ∧ !rangeHeld s axis then decideRange s axis (s.get (AX_ST_PRANGE axis) - 1) else showQuiet s axis q
    else s)

/-- A range switch (04 R107, R109, R110): range, event, count and SEAM from now on. -/
def switchRange (s : State) (i : Fin 10) (r : Nat) : State :=
  let old := s.get (AX_ST_PRANGE i)
  let up := decide (old < r)
  let s := restartCount ((s.modAxis i fun a => { a with pendRange := none }).set (AX_ST_PRANGE i) r) i
  let s := if up then (s.event (AX_EVT_UP i)).bump (AX_CNT_UPCNT i) 1 else (s.event (AX_EVT_DN i)).bump (AX_CNT_DNCNT i) 1
  s.modSlot (axisSlot i) fun x => { x with seams := s.now :: x.seams, ranges := (s.now, old) :: x.ranges }

/-- RANGE_SWITCH (04 R107); a calibration run on the axis freezes the range until its end (04 R120, 09 R234). -/
def execRangeSwitch (axis : Fin 10) (s : State) : Host.Outcome State Fault Refusal :=
  .next (if s.alive && decide (runAxis s ≠ some axis) then
      match s.axes[axis].pendRange with
      | none => s
      | some r => switchRange s axis r
    else s)

/-- EXCITATION_CHANGE_APPLY (04 R103): at the carrier boundary, when the front end is not gated (01 R26). -/
def execExcitationChangeApply (axis : Fin 10) (s : State) : Host.Outcome State Fault Refusal :=
  .next (if s.alive && s.axes[axis].pendExc && !s.bit (CV_ST_GATED axis) then applyExc s axis else s)

/-- The start time of the drive in ms (04 R114), 200 000 CLK ticks each. -/
def startTime (s : State) : Nat := (s.pwr.ticks - s.drive.startAt) / 200000

/-- DRIVE_LOCK (04 R114, 07 R198): the G axes start in their top range and are channel-switched; the amplitude shown lies within 1 % of
its target (log entry 17). -/
def execDriveLock (freq : Nat) (s : State) : Host.Outcome State Fault Refusal :=
  .next (if s.alive && !s.bit ID_DOMST_RATEG && !s.bit DRV_ST_LOCK then
      let s := ((s.set DRV_ST_LOCK 1).set DRV_ST_FREQ freq).set DRV_CNT_STARTMS (startTime s)
      let (w, s) := s.freeWord
      let s := s.set DRV_ST_AMP (99 + w.toNat % 3)
      let s := { s with drive := { s.drive with storedFreq := freq, starting := false } }
      gAxes.foldl (fun s (i : Fin 10) => suppress (startAxis s i) (axisSlot i) false) s
    else s)

/-- DRIVE_UNLOCK (04 R116, R120, 09 R236): the drive starts again. -/
def execDriveUnlock (s : State) : Host.Outcome State Fault Refusal :=
  .next (if s.alive && s.bit DRV_ST_LOCK then
      let s := (((s.set DRV_ST_LOCK 0).set DRV_ST_FREQ 0).event DRV_ST_UNLOCK).bump DRV_CNT_LOSSCNT 1
      let s := gAxes.foldl (fun s (i : Fin 10) => abandonIf (s.modAxis i fun a => { a with pendRange := none, crossing := false }) i) s
      disarmTwist (startDrive s)
    else s)

end Sys2Proof.Machine
end

