-- ==== Sys2Proof/Machine/Converters.lean ====
section
/-!
DEFINITION. The converters (05): REFBUF, the housekeeping sequence and its injections, and system calibration.
-/

namespace Sys2Proof.Machine

/-- The records of a Tally image in the order they apply: sections, then the trailer (15 R379, R399). -/
def Image.records (im : Image) : List TallyRec :=
  im.params ++ im.rest ++ (match im.trailer with | none => [] | some t => t.changes)

/-- The user values G and O of a slot in a list of Tally records, the last record of the slot deciding (15 R380, PID 0x0108). -/
def recUserCal (l : List TallyRec) (slot : Nat) : Nat × Int :=
  l.foldl (fun x r => match r with
    | .userCal i g o => if i = slot then (g, signed o 24) else x
    | _ => x) (2 ^ 22, 0)

/-- New user values of slot i (05 R148): the register shows them at once, and they apply from the next grid second. -/
def setUser (s : State) (i : Fin 16) (g : Nat) (o : Int) : State :=
  let old := (i.val, s.get (SCAL_GAIN_G i), s.getI (SCAL_OFS_O i), s.second)
  let keep := s.scal.old.find? fun e => e.1 == i.val && e.2.2.2 == s.second
  let s := { s with scal := { s.scal with old := keep.getD old :: s.scal.old.filter fun e => e.1 != i.val } }
  (s.set (SCAL_GAIN_G i) g).setI (SCAL_OFS_O i) o

/-- The channel in SCAL_CTL.CH is one that system calibration serves (05 R145). -/
def scalChannel (s : State) : Bool :=
  let c := s.get SCAL_CTL_CH
  decide (c ≤ 8) || (c == 10 && s.aux.func == 2)

/-- A capture fails (05 R147): its reason, and STATE 5. -/
def scalFail (s : State) (why : Nat) : State :=
  { ((s.set SCAL_ST_FAIL why).set SCAL_ST_STATE 5).set SCAL_ST_BUSY 0 with scal := { s.scal with ch := none } }

/-- SCAL_CMD.CAPZ (05 R145, R146, R150). -/
def scalStartZ (s : State) : State :=
  if s.mode ≠ 9 ∨ !scalChannel s then s.set SCAL_ST_FAIL 1
  else if s.bit SCAL_ST_BUSY then s
  else { (s.set SCAL_ST_STATE 1).set SCAL_ST_BUSY 1 with scal := { s.scal with ch := some (s.get SCAL_CTL_CH), dynamic := false, run := { start := s.now } } }

/-- SCAL_FREQ lies in 10 Hz to 1 kHz (05 R147). -/
def scalFreqOk (s : State) : Bool := decide (1000 ≤ s.get SCAL_FREQ_F) && decide (s.get SCAL_FREQ_F ≤ 100000)

/-- SCAL_CMD.CAPS (05 R145 to R147, R150). -/
def scalStartS (s : State) : State :=
  if s.mode ≠ 9 ∨ !scalChannel s then s.set SCAL_ST_FAIL 1
  else if s.bit SCAL_ST_BUSY then s
  else if s.scal.zch ≠ some (s.get SCAL_CTL_CH) then scalFail s 7
  else if s.bit SCAL_CTL_STIM && !scalFreqOk s then scalFail s 8
  else
    { (s.set SCAL_ST_STATE 3).set SCAL_ST_BUSY 1 with
        scal := { s.scal with ch := some (s.get SCAL_CTL_CH), dynamic := s.bit SCAL_CTL_STIM, run := { start := s.now } } }

/-- A capture in progress ends without a result (05 R149); STATE shows whether a point Z is held. -/
def scalStop (s : State) : State :=
  if s.bit SCAL_ST_BUSY then
    { (s.set SCAL_ST_BUSY 0).set SCAL_ST_STATE (if s.scal.zch.isSome then 2 else 0) with scal := { s.scal with ch := none } }
  else s

/-- SCAL_CMD.ABORT. -/
def scalAbortOp (s : State) : State := if s.mode ≠ 9 then s.set SCAL_ST_FAIL 1 else scalStop s

/-- The user values of slot c are the running Tally's again (05 R149): they are no live change. -/
def dropLiveCal (s : State) (c : Nat) : State :=
  showDirty (s.modTally fun t => { t with dirty := t.dirty.filter fun r => match r with
    | .userCal j _ _ => j != c
    | _ => true })

/-- SCAL_CMD.DISCARD (05 R149): the channel's user values of the running Tally. -/
def scalDiscardOp (s : State) : State :=
  if s.mode ≠ 9 ∨ !scalChannel s then s.set SCAL_ST_FAIL 1
  else
    let l := match s.tally.image with
      | none => []
      | some im => im.records
    let (g, o) := recUserCal l (s.get SCAL_CTL_CH)
    dropLiveCal (setUser s (Fin.ofNat 16 (s.get SCAL_CTL_CH)) g o) (s.get SCAL_CTL_CH)

/-- A write of SCAL_CMD; abort and discard act first. -/
def writeScalCmd (s : State) (v : Word) : State :=
  let s := if v.getLsbD 3 then scalAbortOp s else s
  let s := if v.getLsbD 4 then scalDiscardOp s else s
  let s := if v.getLsbD 0 then scalStartZ s else s
  if v.getLsbD 1 then scalStartS s else s

/-- The full scale of the range in use in record LSB (04 R96, R101); of the probe, its span (06 R165). -/
def rangeLsb (s : State) (c : Nat) : Int :=
  let r := s.get (AX_ST_PRANGE c)
  if c < 3 then 500000 * 4 ^ r else if c < 6 then 2000000 * 4 ^ r else if c < 9 then 1000000 * 8 ^ r else 300000

/-- The limit of a user offset in record LSB (05 R148). -/
def offsetLimit (c : Nat) : Int := if c < 3 then 40000 else if c < 6 then 50000 else if c < 9 then 10000 else 2000

/-- The point S capture of channel c gave ms in 1/256 LSB (05 R148): G = num / den and O = REF1 - G * Mz, each rounded to nearest. -/
def scalResult (s : State) (c : Nat) (ms : Int) : State :=
  let num := if s.scal.dynamic then s.getI SCAL_REF2_V * 256 else (s.getI SCAL_REF2_V - s.getI SCAL_REF1_V) * 256
  let den := if s.scal.dynamic then ms else ms - s.scal.z
  let (num, den) := if den < 0 then (-num, -den) else (num, den)
  if den = 0 ∨ 10 * num < 9 * den ∨ 11 * den < 10 * num then scalFail s 4
  else
    let onum := s.getI SCAL_REF1_V * den * 256 - num * s.scal.z
    let oden := den * 256
    if offsetLimit c * oden < absNat onum then scalFail s 5
    else
      let g := (roundEven (num * 2 ^ 22) den).toNat
      let o := roundEven onum oden
      let s := noteLive (setUser s (Fin.ofNat 16 c) g o) (.userCal c g (twos o 24))
      { (s.set SCAL_ST_STATE 4).set SCAL_ST_BUSY 0 with scal := { s.scal with ch := none } }

/-- The greatest r below 2^n, on top of c, whose square is at or below x: one bit of the root at a time. -/
def sqrtBits (x c n : Nat) : Nat :=
  match n with
  | 0 => c
  | n + 1 => sqrtBits x (if (c + 2 ^ n) * (c + 2 ^ n) ≤ x then c + 2 ^ n else c) n

/-- The result of a capture in 1/256 LSB (05 R146), to the nearest, ties to even, from the values collected in 2^-42 LSB: their mean; of a dynamic capture the root of the sum of
the squares of the two components' RMS values, each √2 / n times its sum against the reference in 2^-64. -/
def captureValue (c : Collect) (dynamic : Bool) : Int :=
  if c.n = 0 then 0
  else if dynamic then roundEven (sqrtBits (2 * (absNat c.co ^ 2 + absNat c.si ^ 2)) 0 176) (c.n * 2 ^ 98)
  else roundEven c.sum (c.n * 2 ^ 34)

/-- The reason a capture of channel c fails, 0 when it does not (05 R147), flagged records before their spread (R150: a clamp gives 0x06; log entry 84); a slot that is disabled delivers no records, which counts as a marker (log entry 111). -/
def windowFailure (s : State) (c : Nat) : Nat :=
  let x := s.scal.run
  if x.marker || !s.slots[Fin.ofNat 16 c].en then 2
  else if x.flagged then 6
  else if !s.scal.dynamic && decide (rangeLsb s c * 2 ^ 42 < 200 * (x.hi - x.lo)) then 3
  else if s.scal.dynamic && decide ((absNat (captureValue x true) : Int) * 10 < rangeLsb s c * 256) then 8
  else 0

/-- A capture of channel c may end: its records are complete, or one of them fails it (05 R146, R147). -/
def captureOver (s : State) (c : Nat) : Bool :=
  s.scal.run.full (captureTime s) || s.scal.run.marker || s.scal.run.flagged || !s.slots[Fin.ofNat 16 c].en

/-- A capture is over (05 R146 to R148). -/
def endCapture (s : State) (c : Nat) : State :=
  let why := windowFailure s c
  if why ≠ 0 then scalFail s why
  else
    let v := captureValue s.scal.run s.scal.dynamic
    let s := s.setI SCAL_MEAS_V v
    if s.get SCAL_ST_STATE = 1 then
      { (s.set SCAL_ST_STATE 2).set SCAL_ST_BUSY 0 with scal := { s.scal with ch := none, zch := some c, z := v } }
    else scalResult s c v

/-- The next entry is the first of a pass that has not begun: injections wait or run between two passes (05 R135, R139). -/
def betweenPasses (s : State) : Bool := s.get HK_ST_ENTRY == 0 && !s.hk.began && (s.hk.turn || s.hk.run.isSome)

/-- HK_CMD.APPLY (05 R135). -/
def hkApply (s : State) : State := { s.set HK_ST_APPLYPEND 1 with hk := { s.hk with passDue := s.hk.passDue || betweenPasses s } }

/-- HK_CMD (05 R135, R137). -/
def writeHkCmd (s : State) (v : Word) : State :=
  let s := if v.getLsbD 0 then hkApply s else s
  if v.getLsbD 1 then requestInj s 2 else s

/-- Adopt or refuse the shadow sequence at a pass start (05 R135, R136, 06 R167). -/
def adoptSeq (s : State) : State :=
  let l := hkShadow s
  let why := hkRefusal l
  let s := s.set HK_ST_APPLYPEND 0
  if why = 0 then
    let s := { s with hk := { s.hk with seq := l, len := s.get HK_CTL_LEN } }
    checkMonitor ((s.set HK_PASS_CLK (hkPassTime l)).event HK_EVT_SEQOK)
  else (s.set HK_ST_REJ why).event HK_EVT_SEQREJ

/-- A result of one of the five watched temperatures (09 R227, R230). -/
def noteTemp (s : State) (input : Nat) (v : Int) : State :=
  { s with hk := { s.hk with temps := Vector.ofFn fun (n : Fin 5) => if n.val = input then some v else s.hk.temps[n] },
           cal := { s.cal with means := Vector.ofFn fun (n : Fin 5) => if n.val = input then s.cal.means[n].add v else s.cal.means[n] } }

/-- A valid result of a sequence entry (05 R133, 06 R167, 09 R227 to R229): slot, temperatures, AUXCM; TCASE's run of hot results for 16 R414. -/
def takeResult (s : State) (e : Nat) (t : Nat) (value : Int) (ovr : Bool) (targets : ClassB) : State :=
  let i := hkInput e
  let s := passResult s (hkDest e) t value ovr
  let s := if i < 5 then watchTemp (noteTemp s i value) i value targets else s
  let s := if i = 0xF then watchAuxcm s value else s
  if i = 4 then
    { s with hk := { s.hk with hotRun := if 10500 < value then s.hk.hotRun + 1 else 0, hotAt := if 10500 < value then some s.pwr.ticks else s.hk.hotAt,
                               warmAt := if 10000 < value then s.pwr.ticks else s.hk.warmAt } }
  else s

/-- The time of a result (05 R133): midway from the start of the entry's first track window to the end of its last, which is 12 converter clocks before the entry's end; a
converter clock is 4 CLK ticks (01 R17). -/
def resultTime (s : State) (e : Nat) : Nat := s.now - tickTime s (2 * (hkEntryTime e + 12))

/-- A sequence entry ends (05 R133, R139, R144): the result is stored, used when it is valid, and the next entry is next; a pending injection has its turn first, and a pass
begins after the last entry. -/
def endEntry (s : State) (xs : List Int) (targets : ClassB) : State :=
  let n := s.get HK_ST_ENTRY
  let e := hkEntry s n
  let (value, ovr) := hkConvert e xs
  let bad := refNotSettled s (hkEntryTime e)
  let s := storeResult s (0x820 + n) value ovr bad
  let next := if s.hk.len ≤ n then 0 else n + 1
  let s := s.set HK_ST_ENTRY next
  let s := if bad then s else takeResult s e (resultTime s e) value ovr targets
  { s with hk := { s.hk with began := false, turn := s.get HK_ST_INJPEND != 0, passDue := next == 0 && s.bit HK_ST_APPLYPEND } }

/-- The housekeeping converter may take up its sequence: released, no injection running or at its turn, no aborted entry waiting for its rerun. -/
def sequenceRuns (s : State) : Bool := s.alive && s.pwr.released && s.hk.run.isNone && s.hk.aborted.isNone && !s.hk.turn

/-- REFBUF_ENABLE. -/
def execRefbufEnable (door : Initiator) (v : Word) (s : State) : Host.Outcome State Fault Refusal :=
  .next (atDoor s door 0x800 fun s => writeHkCtl s v)

/-- REFBUF_SETTLED (05 R143, R144, 07 R198, 09 R236): the marking ends, which is a channel switch of the slots whose samples were marked. -/
def execRefbufSettled (s : State) : Host.Outcome State Fault Refusal :=
  .next (if s.alive && s.bit HK_CTL_REFEN && !s.bit HK_ST_REFRDY then refSlots.foldl (fun s i => suppressCal s i false) (refReady s) else s)

/-- HK_PASS_START (05 R135). -/
def execHkPassStart (s : State) : Host.Outcome State Fault Refusal :=
  .next (if sequenceRuns s && s.hk.passDue then adoptSeq { s with hk := { s.hk with passDue := false } } else s)

/-- HK_APPLY_CMD. -/
def execHkApplyCmd (door : Initiator) (s : State) : Host.Outcome State Fault Refusal :=
  .next (atDoor s door 0x801 fun s => hkApply s)

/-- HK_INJ_CMD. -/
def execHkInjCmd (door : Initiator) (s : State) : Host.Outcome State Fault Refusal :=
  .next (atDoor s door 0x801 fun s => requestInj s 2)

/-- The pending injection that runs next, lowest k first (05 R140). -/
def nextInj (s : State) : Option Nat := [0, 1, 2].find? (injPending s)

/-- HK_INJECTION_START (05 R138 to R140): after the end of an entry or injection, or the one that aborted the entry, at once. -/
def execHkInjectionStart (s : State) : Host.Outcome State Fault Refusal :=
  .next (if s.alive && s.pwr.released && s.hk.run.isNone && (s.hk.turn || s.hk.aborted.isSome) then
      match (match s.hk.aborted with | some k => some k | none => nextInj s) with
      | none => s
      | some k =>
        { (s.set HK_ST_INJPEND (s.get HK_ST_INJPEND - 2 ^ k)).set HK_ST_INJRUN 1 with hk := { s.hk with run := some k, aborted := none, turn := false } }
    else s)

/-- HK_INJECTION_END (05 R140, R141, R144; 09 R234 for injection 1): the injection ends, whose conversions took the inputs xs in 1/256 of their unit, and the interrupt source
pulses. -/
def execHkInjectionEnd (xs : List Int) (s : State) : Host.Outcome State Fault Refusal :=
  .next (if s.alive then
      match s.hk.run with
      | none => s
      | some k =>
        let e := (s.word (0x830 + k)).toNat
        let (value, ovr) := hkConvert e xs
        let bad := refNotSettled s (hkEntryTime e)
        let s := { s.set HK_ST_INJRUN 0 with hk := { s.hk with run := none, turn := s.get HK_ST_INJPEND != 0 } }
        let s := (storeResult s (0x834 + k) value ovr bad).pulse 10
        if k = 1 then runResult s value bad else s
    else s)

/-- SCAL_CAPZ. -/
def execScalCapz (door : Initiator) (s : State) : Host.Outcome State Fault Refusal :=
  .next (atDoor s door 0x881 fun s => scalStartZ s)

/-- SCAL_CAPS. -/
def execScalCaps (door : Initiator) (s : State) : Host.Outcome State Fault Refusal :=
  .next (atDoor s door 0x881 fun s => scalStartS s)

/-- SCAL_ABORT. -/
def execScalAbort (door : Initiator) (s : State) : Host.Outcome State Fault Refusal :=
  .next (atDoor s door 0x881 fun s => scalAbortOp s)

/-- SCAL_DISCARD. -/
def execScalDiscard (door : Initiator) (s : State) : Host.Outcome State Fault Refusal :=
  .next (atDoor s door 0x881 fun s => scalDiscardOp s)

/-- SCAL_CAPTURE_END (05 R146 to R148). -/
def execScalCaptureEnd (s : State) : Host.Outcome State Fault Refusal :=
  .next (match s.scal.ch with
    | none => s
    | some c => if s.alive && s.bit SCAL_ST_BUSY && captureOver s c then endCapture s c else s)

end Sys2Proof.Machine
end

