-- ==== Sys2Proof/Machine/Flags.lean ====
section
/-!
DEFINITION. The time counter (03 R66), and what is counted in CLK ticks.
-/

namespace Sys2Proof.Machine

/-- Add n times 2^-32 ns to the counter, carrying into nanoseconds and seconds (03 R66). -/
def addFrac (t : TimeState) (n : Nat) : TimeState :=
  let total := t.frac + n
  let ns := t.ns + total / 2 ^ 32
  { t with frac := total % 2 ^ 32, ns := ns % 1000000000, sec := (t.sec + ns / 1000000000) % 2 ^ 64 }

/-- The minutes above 105 °C within the last 24 h (16 R414); CLK has 200 000 000 ticks a second (01 R17). -/
def hotMinutes (s : State) : Nat := (s.modes.hot.filter fun t => decide (s.pwr.ticks < t + 86400 * 200000000)).length

end Sys2Proof.Machine
end

