-- ==== Sys2Proof/Machine/TimeUnit.lean ====
section
/-!
DEFINITION. The time unit (03): the servo, the time states, the refusal and confirmation of a step, the re-route guard, PTP messages and snapshots. Offsets and
times are in 1/65 536 ns.
-/

namespace Sys2Proof.Machine

/-- Replace the time unit's hidden state. -/
def State.modTime (s : State) (f : TimeState → TimeState) : State := { s with time := f s.time }

/-- Nanoseconds as 1/65 536 ns. -/
def nsFine (n : Nat) : Int := (n : Int) * 65536

/-- The increment a servo output gives (03 R68), y in 2^-32 ppb: in 2^-32 ns, rounded to nearest, ties to even (DESIGN CHOICE, log entry 110: R68's round() names no tie). -/
def incOf (y : Int) : Int := 0x500000000 - roundEven (y * 5) 1000000000

/-- Load the increment from a servo output (03 R68, R69, R90). -/
def loadY (s : State) (y : Int) : State :=
  let inc := (incOf y).toNat
  let s := ((s.set TIME_INC_FRAC inc).set TIME_INC_NS (inc / 2 ^ 32)).setI TIME_Y_Y (roundEven y (2 ^ 24))
  s.modTime fun t => { t with y := y }

/-- Hold the increment at KI × acc (03 R70), KI as the last offset update took it (R92). -/
def holdServo (s : State) : State := loadY s ((s.time.use.ki : Int) * s.time.acc)

/-- The newest of a list of times from and to which something held ends at t, where it is open. -/
def endFirst (l : List (Nat × Option Nat)) (t : Nat) : List (Nat × Option Nat) :=
  match l with
  | (a, none) :: rest => (a, some t) :: rest
  | l => l

/-- Enter a time state (03 R71): HOLDOVER and REFUSED hold the servo, ACQUIRE restarts the count of updates within LOCKTH; 08 R214 keeps when LOCKED held. -/
def setTimeState (s : State) (st : Nat) : State :=
  if s.timeState = st then s
  else
    let was := s.timeState
    let s := s.set TIME_ST_STATE st
    let s := if was = 2 then s.modTime fun t => { t with locks := endFirst t.locks s.now } else s
    let s := if st = 2 then s.modTime fun t => { t with locks := (s.now, none) :: t.locks } else s
    if st = 1 then s.modTime fun t => { t with run := 0 } else if st = 3 ∨ st = 4 then holdServo s else s

/-- One servo update (03 R69), and LOCKED after 16 updates in a row within LOCKTH (R71). -/
def servo (s : State) (o : Int) : State :=
  let kp : Int := s.time.use.kp
  let ki : Int := s.time.use.ki
  let lim : Int := (s.time.use.ymax : Int) * 2 ^ 32
  let acc := s.time.acc + o
  let y := kp * o + ki * acc
  let beyond := decide (y < -lim) || decide (lim < y)
  let s := if beyond then s.event TIME_EVT_CLAMP else s.modTime fun t => { t with acc := acc }
  let s := loadY s (clampInt (-lim) lim y)
  let n := if (absNat o : Int) ≤ nsFine s.time.use.lockth then s.time.run + 1 else 0
  let s := s.modTime fun t => { t with run := n }
  if s.timeState = 1 ∧ 16 ≤ n then setTimeState s 2 else s

/-- The offset is beyond TIME_JUMP (03 R83). -/
def beyondJump (s : State) (o : Int) : Bool := decide (nsFine s.time.use.jump < absNat o)

/-- Show a candidate (03 R83, R90): -o in whole ns. -/
def showCand (s : State) (o : Int) : State :=
  let c := twos (roundEven (-o) 65536) 64
  (s.set TIME_CAND_LO c).set TIME_CAND_HI (c / 2 ^ 32)

/-- Show the confirmed time in whole seconds (03 R84). -/
def showElapsed (s : State) : State := s.set TIME_CONFT_ELAPSED (min 0xFFFF (s.time.elapsed / 65536000000000))

/-- Refuse a step (03 R83, 18 R446); while the master is lost again since the offset was measured, confirmation pauses from the start (R84). -/
def refuse (s : State) (o at_ : Int) : State :=
  let s := (((setTimeState s 4).event TIME_EVT_REFUSED).bump TIME_CNT_REFCNT 1).pulse 6
  let s := s.modTime fun t => { t with cand := true, accepted := false, prev := some o, prevAt := at_, elapsed := 0, paused := t.lost }
  showElapsed (showCand s o)

/-- The candidate is discarded (03 R84), and after a step it is used up; TIME_CAND and ELAPSED then read 0 (DESIGN CHOICE, log entry 110). -/
def dropCand (s : State) : State :=
  showElapsed (showCand (s.modTime fun t => { t with cand := false, accepted := false, prev := none, elapsed := 0, paused := false }) 0)

/-- A step or an initial set is accepted (03 R81, R85): a change set that is pending now will fail (15 R397). The initial set counts as accepted with the offset that
calls for it (DESIGN CHOICE, log entry 110). -/
def noteAccepted (s : State) : State := { s with tally := { s.tally with setStep := s.tally.setStep || s.tally.set.isSome } }

/-- A step or an initial set is accepted and waits for its second boundary (03 R81, R86). -/
def stepDue (s : State) : Bool := s.time.accepted || s.time.initOfs.isSome

/-- ELAPSED has reached the confirmation window with AUTO set (03 R85). -/
def confirmed (s : State) : Bool := s.time.use.auto && decide (s.time.use.win * 65536000000000 ≤ s.time.elapsed)

/-- An update in REFUSED (03 R84, R85), a step already accepted and waiting for its boundary included: a consistent update renews the candidate, and an inconsistent
one is a new candidate, which is not accepted (log entry 110). -/
def confirm (s : State) (o at_ : Int) : State :=
  if !beyondJump s o then servo (setTimeState (dropCand s) 1) o
  else
    let near := match s.time.prev with
      | none => false
      | some p => decide ((absNat (o - p) : Int) ≤ nsFine s.time.use.tol)
    let more := if near && !s.time.paused then s.time.elapsed + (at_ - s.time.prevAt).toNat else if near then s.time.elapsed else 0
    let s := if near then s else s.bump TIME_CONFT_RESTARTS 1
    let s := s.modTime fun t => { t with cand := true, accepted := near && t.accepted, prev := some o, prevAt := at_, elapsed := more, paused := t.lost }
    let s := showElapsed (showCand s o)
    if confirmed s && !s.time.accepted then noteAccepted (s.modTime fun t => { t with accepted := true }) else s

/-- An offset update outside the guard (03 R69, R72, R81, R83, R84). -/
def update (s : State) (o at_ : Int) : State :=
  match s.timeState with
  | 0 => if s.time.initOfs.isSome then s else noteAccepted (s.modTime fun t => { t with initOfs := some o })
  | 4 => confirm s o at_
  | _ =>
    if beyondJump s o then refuse s o at_
    else servo (if s.timeState = 3 then setTimeState s 1 else s) o

/-- The test of the offset measured last while the guard was open, or of the first one after it (03 R87). -/
def guardTest (s : State) (o at_ : Int) : State :=
  match s.timeState with
  | 0 => update s o at_
  | 4 => confirm s o at_
  | _ =>
    if (absNat o : Int) ≤ max (nsFine 10000) (nsFine s.time.use.jump) then
      let out := decide (nsFine s.time.use.lockth < absNat o)
      servo (if s.timeState = 3 || out then setTimeState s 1 else s) o
    else refuse s o at_

/-- The servo is held (03 R70): in HOLDOVER and REFUSED and while the re-route guard is open. -/
def servoHeld (s : State) : Bool := s.timeState == 3 || s.timeState == 4 || s.bit TIME_ST_GUARD

/-- The settings as an offset update takes them (03 R92). -/
def takeSettings (s : State) : State :=
  s.modTime fun t => { t with use :=
    { jump := s.get TIME_JUMP_NS, lockth := s.get TIME_LIM_LOCKTH, tol := s.get TIME_LIM_TOL, auto := s.bit TIME_CONF_AUTO, win := s.get TIME_CONF_WIN,
      kp := s.get TIME_KP_KP, ki := s.get TIME_KI_KI, ymax := s.get TIME_YMAX_PPB } }

/-- NET delivers an offset (03 R69, R78, R87): new settings take effect with it, on the held increment too (R70, R92); while the guard is open the offset is kept for the
test. DESIGN CHOICE (log entry 110): an update measured in the guard neither counts among the 16 updates in a row of R71 nor breaks their row. -/
def offsetUpdate (s : State) (o at_ : Int) : State :=
  let s := s.setI TIME_OFS_NS (clampInt (-0x7FFFFFFF) 0x7FFFFFFF (roundEven o 65536))
  let s := (takeSettings s).modTime fun t => { t with lost := false }
  let s := if servoHeld s then holdServo s else s
  if s.bit TIME_ST_GUARD then s.modTime fun t => { t with guardOfs := some (o, at_) }
  else if s.time.guardTest then guardTest (s.modTime fun t => { t with guardTest := false }) o at_
  else update s o at_

/-- The re-route guard opens, or restarts (03 R87). -/
def openGuard (s : State) : State :=
  if s.bit TIME_ST_GUARD then s
  else
    let s := ((s.set TIME_ST_GUARD 1).event TIME_EVT_GUARD).bump TIME_CNT_GUARDCNT 1
    holdServo (s.modTime fun t => { t with guardOfs := none, guardTest := false, paused := true, lost := false })

/-- The last link delays of a port (03 R76). -/
def TimeState.delays (t : TimeState) (p : Port) : List Int := if p = .a then t.pdA else t.pdB

/-- The mean of a list of link delays, rounded to 1/65 536 ns; 0 before the first measurement. -/
def meanOf (l : List Int) : Int := if l.isEmpty then 0 else roundEven l.sum l.length

/-- The meanLinkDelay of a port (03 R76). -/
def linkDelay (s : State) (p : Port) : Int := meanOf (s.time.delays p)

/-- Keep a port's link delays and show their mean (03 R76, R90). -/
def setDelays (s : State) (p : Port) (l : List Int) : State :=
  let s := s.modTime fun t => if p = .a then { t with pdA := l } else { t with pdB := l }
  s.setI (if p = .a then TIME_PDLYA_D else TIME_PDLYB_D) (roundEven (meanOf l) 256)

/-- A port's entered asymmetry (03 R90), 0.25 ns per LSB. -/
def asymmetry (s : State) (p : Port) : Int := s.getI (if p = .a then TIME_ASYM_A else TIME_ASYM_B) * 16384

/-- The slave port, if a master is selected (03 R78, R90). -/
def slavePort (s : State) : Option Port :=
  match s.get TIME_ST_SLAVEPORT with
  | 1 => some .a
  | 2 => some .b
  | _ => none

/-- The first list is smaller in its first different place. -/
def lexLess : List Nat → List Nat → Bool
  | a :: l, b :: m => decide (a < b) || (a == b && lexLess l m)
  | _, _ => false

/-- The dataset comparison of clause 9.3 in full (03 R78): of one grandmaster the fewer steps, then the lower source identity, then port A; of two grandmasters the
lower value in the first of the fields that differs. -/
def Master.better (x y : Master) : Bool :=
  if x.ds.gm = y.ds.gm then lexLess [x.ds.steps, x.clock, x.num, if x.port = .a then 0 else 1] [y.ds.steps, y.clock, y.num, if y.port = .a then 0 else 1]
  else lexLess [x.ds.p1, x.ds.cls, x.ds.acc, x.ds.var, x.ds.p2, x.ds.gm] [y.ds.p1, y.ds.cls, y.ds.acc, y.ds.var, y.ds.p2, y.ds.gm]

/-- A master is qualified at CLK tick n (03 R78, R81; log entry 110): by two Announces, the last within 4 Announce intervals, with fewer than 255 steps removed. -/
def Master.qualified (x : Master) (n : Nat) : Bool := decide (2 ≤ x.count) && decide (n ≤ x.at_ + 4 * x.every) && decide (x.ds.steps < 255)

/-- The best qualified master (03 R78). -/
def bestMaster (l : List Master) (n : Nat) : Option Master :=
  (l.filter fun x => x.qualified n).foldl (fun b x => match b with
    | none => some x
    | some y => if x.better y then some x else some y) none

/-- Select the master anew (03 R78); while no other is qualified the selected one stays until it is declared lost (R72). -/
def reselect (s : State) : State :=
  match bestMaster s.time.heard s.pwr.ticks with
  | none => s
  | some x =>
    let same := s.time.master == some (x.clock, x.num) && s.get TIME_ST_SLAVEPORT == (if x.port = .a then 1 else 2)
    let s := s.set TIME_ST_SLAVEPORT (if x.port = .a then 1 else 2)
    s.modTime fun t => { t with master := some (x.clock, x.num), sync := if same then t.sync else [], lastSync := if same then t.lastSync else none }

/-- Forget the masters heard on a port: they have to be heard twice again (DESIGN CHOICE, log entry 110). -/
def forgetMasters (t : TimeState) (p : Port) : TimeState := { t with heard := t.heard.filter fun x => x.port != p }

/-- The selected master is lost (03 R72); while the guard is open the time state does not change (R87). -/
def loseMaster (s : State) (p : Port) : State :=
  let s := ((s.event TIME_EVT_LOST).bump TIME_CNT_LOSTCNT 1).set TIME_ST_SLAVEPORT 0
  let s := s.modTime fun t => { forgetMasters t p with paused := true, lost := true, sync := [], lastSync := none, master := none }
  let s := reselect s
  if (s.timeState = 1 ∨ s.timeState = 2) ∧ !s.bit TIME_ST_GUARD then setTimeState s 3 else s

/-- The rate ratio to the grandmaster from two Syncs (03 R79), master time over local time. DESIGN CHOICE (log entry 109): it is 1 until two Syncs of a selected master have
come, and keeps its value until two of the next one have. -/
def noteSync (t : TimeState) (master loc : Int) : TimeState :=
  match t.lastSync with
  | none => { t with lastSync := some (master, loc) }
  | some (m, l) =>
    if m < master ∧ l < loc then { t with lastSync := some (master, loc), ratioNum := master - m, ratioDen := loc - l }
    else { t with lastSync := some (master, loc) }

/-- A completed Sync on the slave port (03 R78): the offset is formed and delivered. -/
def completeSync (s : State) (p : Port) (t1 t2 corr : Int) : State :=
  offsetUpdate (s.modTime fun t => noteSync t (t1 + corr) t2) (t2 - t1 - corr - linkDelay s p) t2

/-- NET runs: PTP, custody and the switch are served from START on (16 R424). -/
def netRuns (s : State) : Bool := s.live

/-- The portNumber of ports A and B (03 R75); the slave, port C, is number 3 and sends nothing. -/
def portNumber (p : Port) : Nat := if p = .a then 1 else 2

/-- The destination of peer-delay messages, and of all others (03 R74). -/
def pdelayAddress : Nat := 0x0180C200000E
def ptpAddress : Nat := 0x011B19000000

/-- A PTP message is this module's to take (03 R74): EtherType, destination and domain. -/
def ptpTaken (s : State) (h : PtpHead) (dst : Nat) : Bool := h.etype == 0x88F7 && h.dst == dst && h.domain == s.get TIME_PTP_DOMAIN

/-- The head of a peer-delay message the module sends on a port (03 R74 to R76). DESIGN CHOICE (log entry 109): its logMessageInterval is TIME_PTP.LOGPDLY in requests and
answers, while the re-route guard is open too. -/
def pdelayHead (s : State) (p : Port) (seq : Nat) : PtpHead :=
  { dst := pdelayAddress, domain := s.get TIME_PTP_DOMAIN, logInt := s.getI TIME_PTP_LOGPDLY, seq := seq, clock := clockIdentity s, port := portNumber p }

/-- What a port's class B taps in use are off their factory setting, transmit and receive (03 R77, 09 R240, R247: TXA, RXA, TXB, RXB). -/
def txTap (s : State) (p : Port) : Int := (getBits (s.word 0x1041) (if p = .a then 24 else 8) 6 : Int) - 32
def rxTap (s : State) (p : Port) : Int := (getBits (s.word 0x1041) (if p = .a then 16 else 0) 6 : Int) - 32

/-- The ingress timestamp of a capture, which counts 78.125 ps of local time, at the contact pins (03 R77), in 1/65 536 ns. -/
def ingressTime (s : State) (p : Port) (cap : Int) : Int := (cap - rxTap s p) * 5120 - Config.phyRx p

/-- The egress timestamp of a capture (03 R77). -/
def egressTime (s : State) (p : Port) (cap : Int) : Int := (cap + txTap s p) * 5120 + Config.phyTx p

/-- The message comes from the selected master on the slave port (03 R78). -/
def fromMaster (s : State) (p : Port) (h : PtpHead) : Bool := decide (slavePort s = some p) && s.time.master == some (h.clock, h.port)

/-- The CLK tick 2 Sync intervals from now on (03, "When events meet"); an interval is 2^n s, n from -4 to 0 here. -/
def syncTill (s : State) (n : Int) : Nat := s.pwr.ticks + 2 * (200000000 / 2 ^ (min 4 (-n).toNat))

/-- A waiting Sync is the one that a head names, and its time has not run out (03 R78). -/
def PendSync.names (x : PendSync) (p : Port) (h : PtpHead) (n : Nat) : Bool :=
  x.port == p && x.clock == h.clock && x.num == h.port && x.seq == h.seq && decide (n < x.till)

/-- SYNC_RECEIVE (03 R74, R77, R78): of the accepted intervals, 2^-4 to 1 s. -/
def execSyncReceive (port : Port) (h : PtpHead) (t1 cap corr : Int) (twoStep : Bool) (s : State) : Host.Outcome State Fault Refusal :=
  .next (if netRuns s && s.pwr.released && ptpTaken s h ptpAddress && decide (-4 ≤ h.logInt) && decide (h.logInt ≤ 0) && fromMaster s port h then
      let t2 := ingressTime s port cap
      if twoStep then
        let x : PendSync := ⟨port, h.seq, h.clock, h.port, t2, corr, syncTill s h.logInt⟩
        s.modTime fun t => { t with sync := x :: t.sync.filter fun y => y.seq != h.seq }
      else completeSync s port t1 t2 corr
    else s)

/-- FOLLOW_UP_RECEIVE (03 R78): it must match a Sync that waits. -/
def execFollowUpReceive (port : Port) (h : PtpHead) (t1 corr : Int) (s : State) : Host.Outcome State Fault Refusal :=
  .next (match s.time.sync.find? fun x => x.names port h s.pwr.ticks with
    | none => s
    | some x =>
      if netRuns s && ptpTaken s h ptpAddress && fromMaster s port h then
        completeSync (s.modTime fun t => { t with sync := t.sync.filter fun y => y.seq != h.seq }) port t1 x.t2 (x.corr + corr)
      else s)

/-- FOLLOW_UP_TIMEOUT (03, "When events meet"): after 2 Sync intervals, for the Syncs in transit too. -/
def execFollowUpTimeout (port : Port) (seq : Nat) (s : State) : Host.Outcome State Fault Refusal :=
  .next (if netRuns s then
      s.modTime fun t => { t with sync := t.sync.filter fun x => !(x.port == port && x.seq == seq && decide (x.till ≤ s.pwr.ticks)),
                                  transit := t.transit.filter fun x => !(x.port == port && x.seq == seq && decide (x.till ≤ s.pwr.ticks)) }
    else s)

/-- An Announce of a master on a port (03 R78): it counts with the one before it when it comes within 4 Announce intervals. -/
def hear (s : State) (p : Port) (h : PtpHead) (ds : Dataset) : State :=
  let mine (x : Master) : Bool := x.port == p && x.clock == h.clock && x.num == h.port
  let count := match s.time.heard.find? mine with
    | none => 1
    | some x => if s.pwr.ticks ≤ x.at_ + 4 * x.every then min 2 (x.count + 1) else 1
  let every := if h.logInt < 0 then 200000000 / 2 ^ h.logInt.natAbs else 200000000 * 2 ^ h.logInt.natAbs
  s.modTime fun t => { t with heard := ⟨p, h.clock, h.port, ds, count, s.pwr.ticks, every⟩ :: t.heard.filter fun x => !mine x }

/-- ANNOUNCE_RECEIVE (03 R74, R78): of the accepted intervals, 1/8 to 8 s, and not the module's own. -/
def execAnnounceReceive (port : Port) (h : PtpHead) (ds : Dataset) (s : State) : Host.Outcome State Fault Refusal :=
  .next (if netRuns s && ptpTaken s h ptpAddress && decide (-3 ≤ h.logInt) && decide (h.logInt ≤ 3) && h.clock != clockIdentity s then
      reselect (hear s port h ds)
    else s)

/-- A port's open Pdelay_Req (03 R76). -/
def openReq (t : TimeState) (p : Port) : Option (Nat × Int) := if p = .a then t.pdReqA else t.pdReqB

/-- Set a port's open Pdelay_Req. -/
def setReq (t : TimeState) (p : Port) (x : Option (Nat × Int)) : TimeState := if p = .a then { t with pdReqA := x } else { t with pdReqB := x }

/-- PDELAY_REQ_SEND (03 R76, R77, R80): the egress time t1 is kept for the answer. -/
def execPdelayReqSend (port : Port) (seq : Nat) (cap : Int) (s : State) : Host.Outcome State Fault Refusal :=
  .next (if netRuns s && linkUp s port then
      (s.modTime fun t => setReq t port (some (seq, egressTime s port cap))).send port.egress 0 (.pdelayReq (pdelayHead s port seq))
    else s)

/-- PDELAY_REQ_RECEIVE (03 R76, R77): the turnaround t3 - t2 goes into the one-step answer. -/
def execPdelayReqReceive (port : Port) (h : PtpHead) (capIn capOut : Int) (s : State) : Host.Outcome State Fault Refusal :=
  .next (if netRuns s && linkUp s port && ptpTaken s h pdelayAddress then
      s.send port.egress 0 (.pdelayResp (pdelayHead s port h.seq) h.clock h.port (egressTime s port capOut - ingressTime s port capIn))
    else s)

/-- PDELAY_RESP_RECEIVE (03 R76, R77): the answer to the open request, whole from a one-step peer, whose turnaround stands in the correctionField, or completed by its
Follow_Up, with t2 and t3 from the two messages and the sum of their correctionFields. -/
def execPdelayRespReceive (port : Port) (h : PtpHead) (reqClock reqPort : Nat) (t2 t3 corr cap : Int) (s : State) : Host.Outcome State Fault Refusal :=
  .next (match openReq s.time port with
    | none => s
    | some (seq, t1) =>
      if netRuns s && ptpTaken s h pdelayAddress && h.seq == seq && reqClock == clockIdentity s && reqPort == portNumber port then
        setDelays (s.modTime fun t => setReq t port none) port
          ((roundEven ((ingressTime s port cap - t1) - (t3 - t2 + corr)) 2 - asymmetry s port) :: (s.time.delays port).take 7)
      else s)

/-- What the transparent clock adds to a Sync (03 R79): the residence time, scaled by the rate ratio, and the ingress port's meanLinkDelay. -/
def transitAdd (s : State) (p : Port) (capIn capOut : Int) : Int :=
  roundEven ((egressTime s p.other capOut - ingressTime s p capIn) * s.time.ratioNum) s.time.ratioDen + linkDelay s p

/-- A two-step Sync in transit is the one a head names, and its time has not run out. -/
def Transit.names (x : Transit) (p : Port) (h : PtpHead) (n : Nat) : Bool :=
  x.port == p && x.clock == h.clock && x.num == h.port && x.seq == h.seq && decide (n < x.till)

/-- PTP_TRANSIT_FORWARD (03 R79, R80): a one-step Sync takes the correction; a two-step one goes unchanged and its Follow_Up takes the same amount. A message of
another domain, or a Follow_Up without its Sync, goes unchanged (log entry 109). -/
def execPtpTransitForward (ingress : Port) (h : PtpHead) (followUp twoStep : Bool) (corr capIn capOut : Int) (s : State) : Host.Outcome State Fault Refusal :=
  .next (if netRuns s && linkUp s ingress.other then
      let out (s : State) (c : Int) : State := transit s ingress.other 0 64 (.ptpForward h followUp c twoStep)
      if !ptpTaken s h ptpAddress then out s corr
      else if followUp then
        match s.time.transit.find? fun x => x.names ingress h s.pwr.ticks with
        | none => out s corr
        | some x => out (s.modTime fun t => { t with transit := t.transit.filter fun x => !x.names ingress h s.pwr.ticks }) (corr + x.add)
      else
        let add := transitAdd s ingress capIn capOut
        if twoStep then
          let x : Transit := ⟨ingress, h.seq, h.clock, h.port, add, syncTill s h.logInt⟩
          out (s.modTime fun t => { t with transit := x :: t.transit.filter fun y => !y.names ingress h s.pwr.ticks && decide (s.pwr.ticks < y.till) }) corr
        else out s (corr + add)
    else s)

/-- MASTER_LOST (03 R72). -/
def execMasterLost (s : State) : Host.Outcome State Fault Refusal :=
  .next (if netRuns s then
      match slavePort s with
      | none => s
      | some p => loseMaster s p
    else s)

/-- TIME_CMD.ACCEPT (03 R85). -/
def timeAccept (s : State) : State :=
  if s.timeState = 4 ∧ s.time.cand then noteAccepted (s.modTime fun t => { t with accepted := true }) else s.event TIME_EVT_CMDIGN

/-- TIME_CMD.SNAP (03 R91). -/
def timeSnap (s : State) : State :=
  let s := (s.set TIME_SNAPS_LO s.time.sec).set TIME_SNAPS_HI (s.time.sec / 2 ^ 32)
  let s := (s.set TIME_SNAPNS_NS s.time.ns).set TIME_SNAPFR_FRAC s.time.frac
  s.set TIME_SNAPNS_SEQ (s.get TIME_SNAPNS_SEQ + 1)

/-- A write of TIME_CMD. -/
def writeTimeCmd (s : State) (v : Word) : State :=
  let s := if v.getLsbD 0 then timeAccept s else s
  if v.getLsbD 1 then timeSnap s else s

/-- TIME_ACCEPT_CMD. -/
def execTimeAcceptCmd (door : Initiator) (s : State) : Host.Outcome State Fault Refusal :=
  .next (atDoor s door 0x202 fun s => timeAccept s)

/-- TIME_SNAP_CMD. -/
def execTimeSnapCmd (door : Initiator) (s : State) : Host.Outcome State Fault Refusal :=
  .next (atDoor s door 0x202 fun s => timeSnap s)

/-- The guard closes (03 R87). -/
def shutGuard (s : State) : State := s.set TIME_ST_GUARD 0

/-- A master lost while the guard was open, with no offset since, brings HOLDOVER once the guard has closed (03 R72, R87). -/
def lateLoss (s : State) : State :=
  if s.time.lost ∧ (s.timeState = 1 ∨ s.timeState = 2) then setTimeState s 3 else s

/-- GUARD_CLOSE (03 R87, 09 R229): the test, or the test owed to the next update; class B is measured. -/
def execGuardClose (targets : ClassB) (s : State) : Host.Outcome State Fault Refusal :=
  .next (if netRuns s && s.bit TIME_ST_GUARD then
      let s := shutGuard s
      let s := match s.time.guardOfs with
        | none => s.modTime fun t => { t with guardTest := true }
        | some (o, at_) => guardTest s o at_
      measureClassB (lateLoss s) targets
    else s)

/-- GUARD_TIMEOUT (03 R87, 09 R229): link changes kept the guard open for 10 s. -/
def execGuardTimeout (targets : ClassB) (s : State) : Host.Outcome State Fault Refusal :=
  .next (if netRuns s && s.bit TIME_ST_GUARD then
      let s := shutGuard s
      let s := if s.timeState = 1 ∨ s.timeState = 2 then setTimeState s 3 else s
      measureClassB s targets
    else s)

end Sys2Proof.Machine
end

