-- ==== Sys2Proof/Machine/Recog.lean ====
section
/-!
DEFINITION. The recognisers (11 R269 to R276, R284): impact, stroke and free fall, and the writes of their settings. Times are in 1/8 ns; values given in µs or
ms are rounded to nearest (log entry 21).
-/

namespace Sys2Proof.Machine

/-- Replace the recognisers' state. -/
def State.modRecog (s : State) (f : RecogState → RecogState) : State := { s with recog := f s.recog }

/-- The recognisers run (16 R423): from SETTLE to the end of the run, not in SAFE. -/
def recogOn (s : State) : Bool := s.live && decide (5 ≤ s.mode) && decide (s.mode ≤ 10)

/-- A time in µs. -/
def inUs (t : Int) : Int := roundEven t 8000

/-- A sample that is used at its value (11 R270). -/
def GridRec.used (r : GridRec) : Bool := r.rcd.kind == .sample && !r.rcd.stale

/-- The next records that wait of each slot, time-step records aside, were formed at one rate code (11 R271, R276). -/
def oneRate (l : List (Nat × List GridRec)) : Bool :=
  match l.filterMap fun p => p.2.find? fun r => r.rcd.kind != .timeStep with
  | [] => true
  | r :: rest => rest.all fun q => q.rate == r.rate

/-- The episode's above-duration has passed DUR (11 R271). -/
def sustained (s : State) (e : Episode) : Bool := decide (s.get RC_IMP_TIM_DUR * 80000 < e.last - e.start)

/-- The double window in 1/8 ns (11 R272). -/
def dblWindow (s : State) : Nat := s.get RC_IMP_DBL_DBL * 8000000

/-- Show the impact recogniser's state (11 R285). -/
def showImp (s : State) : State :=
  let st := match s.recog.ep, s.recog.first with
    | some e, _ => if sustained s e then 3 else 1
    | none, some _ => 2
    | none, none => 0
  levelChange (s.set RC_IMP_ST_STATE st) 12 (s.get RC_IMP_ST_STATE % 2 == 1) (st % 2 == 1) s.now

/-- Show the free-fall recogniser's condition (11 R276, R285), which is a level input of the pin engines. -/
def setFfall (s : State) (b : Bool) : State := levelChange (s.setB RC_FF_ST_ACTIVE b) 13 (s.bit RC_FF_ST_ACTIVE) b s.now

/-- The Blaze of an episode. -/
def impBlaze (e : Episode) (kind sev t ssn : Nat) (v0 v1 : Int) (ovr : Bool) : Blaze :=
  { src := 1, kind := kind, sev := sev, ovr := ovr, slot := e.slot, t := t, ssn := ssn, val0 := v0, val1 := v1 }

/-- A single or double Blaze is decided (11 R272, R285). -/
def countImpact (s : State) : State := (s.bump RC_IMP_CNT_IMPACTS 1).event RC_EVT_IMPACT

/-- The single Blaze of an impact (11 R272). -/
def impSingle (s : State) (e : Episode) : State :=
  issueBlaze (countImpact s) (impBlaze e 1 (s.get RC_IMP_CFG_SEV) e.start e.ssn e.peak (inUs (e.last - e.start : Nat)) e.ovr)

/-- The sustained end (11 R272). -/
def impSusEnd (s : State) (e : Episode) : State :=
  issueBlaze (s.event RC_EVT_SUSEND)
    (impBlaze e 4 (s.get RC_IMP_CFG_SEV) e.last e.lastSsn e.peak (roundEven (e.last - e.start : Nat) 8000000) e.ovr)

/-- The sustained start (11 R272, R284): an open double window closes with the single Blaze of the first impact. -/
def impSusStart (s : State) (e : Episode) : State :=
  let s := match s.recog.first with
    | none => s
    | some f => (impSingle s f).modRecog fun r => { r with first := none }
  issueBlaze ((s.bump RC_IMP_CNT_SUST 1).event RC_EVT_SUSST) (impBlaze e 3 (s.get RC_IMP_CFG_SEV) e.start e.ssn e.peak 0 e.ovr)

/-- An episode ends at grid time t (11 R272). -/
def impEnd (s : State) (e : Episode) (t : Nat) : State :=
  let s := s.modRecog fun r => { r with ep := none }
  if sustained s e then impSusEnd s e
  else
    match s.recog.first with
    | some f =>
      let s := countImpact (s.modRecog fun r => { r with first := none })
      issueBlaze s (impBlaze f 2 (s.get RC_IMP_DBL_SEV2) f.start f.ssn (max f.peak e.peak : Nat) (inUs (e.start - f.start : Nat)) (f.ovr || e.ovr))
    | none =>
      if s.get RC_IMP_DBL_DBL = 0 ∨ e.start + dblWindow s ≤ t then impSingle s e
      else s.modRecog fun r => { r with first := some e }

/-- A marker or a time-step record interrupts (11 R273). -/
def impInterrupt (s : State) : State :=
  let s := match s.recog.ep with
    | none => s
    | some e => if sustained s e then impSusEnd s e else s
  let s := match s.recog.first with
    | none => s
    | some f => impSingle s f
  s.modRecog fun r => { r with ep := none, first := none }

/-- The used samples of a grid time that reach the threshold, in the order of their slots. -/
def aboveRecs (s : State) (recs : List (Nat × GridRec)) : List (Nat × GridRec) :=
  recs.filter fun p => p.2.used && decide (s.get RC_IMP_CFG_THR ≤ absNat p.2.rcd.value)

/-- The largest magnitude of the used samples. -/
def peakOf (recs : List (Nat × GridRec)) : Nat := recs.foldl (fun m p => if p.2.used then max m (absNat p.2.rcd.value) else m) 0

/-- A used sample carries OVR. -/
def anyOvr (recs : List (Nat × GridRec)) : Bool := recs.any fun p => p.2.used && p.2.rcd.ovr

/-- The SSN of slot i's record among recs. -/
def ssnOf (recs : List (Nat × GridRec)) (i : Nat) : Option Nat := (recs.find? fun p => p.1 == i).map fun p => p.2.ssn

/-- An episode begins at grid time t when a record is above (11 R271). -/
def impBegin (s : State) (t : Nat) (recs : List (Nat × GridRec)) : State :=
  match aboveRecs s recs with
  | [] => s
  | (i, r) :: _ => s.modRecog fun x => { x with ep := some ⟨t, r.ssn, i, t, r.ssn, peakOf recs, anyOvr recs⟩ }

/-- An episode with the OVR of one more grid time's records (11 R270). -/
def episodeOvr (e : Episode) (recs : List (Nat × GridRec)) : Episode := { e with ovr := e.ovr || anyOvr recs }

/-- The records of grid time t, all samples, in slot order (11 R271, R272). -/
def impSamples (s : State) (t : Nat) (recs : List (Nat × GridRec)) : State :=
  let s := match s.recog.ep, s.recog.first with
    | none, some f => if f.start + dblWindow s ≤ t then (impSingle s f).modRecog fun r => { r with first := none } else s
    | _, _ => s
  match s.recog.ep with
  | none => impBegin s t recs
  | some e =>
    if e.last + s.get RC_IMP_TIM_QUIET * 8000000 ≤ t then impBegin (impEnd s (episodeOvr e recs) t) t recs
    else if (aboveRecs s recs).isEmpty then s.modRecog fun x => { x with ep := some (episodeOvr e recs) }
    else
      let e2 := { episodeOvr e recs with peak := max e.peak (peakOf recs), last := t, lastSsn := (ssnOf recs e.slot).getD e.lastSsn }
      let s := s.modRecog fun x => { x with ep := some e2 }
      if sustained s e2 && !sustained s e then impSusStart s e2 else s

/-- The records of several slots that a recogniser reads next, each with its slot, once every slot of them has one (11 R271, R276): the time-step records where one stands first,
else those of the earliest grid time. -/
def nextRecs (l : List (Nat × List GridRec)) : List (Nat × GridRec) :=
  let heads := l.filterMap fun p => p.2.head?.map fun r => (p.1, r)
  if heads.length < l.length then []
  else
    let steps := heads.filter fun p => p.2.rcd.kind == .timeStep
    if !steps.isEmpty then steps
    else heads.filter fun p => heads.all fun q => decide (p.2.t ≤ q.2.t)

/-- Slot i is among the records read, so its oldest one is done. -/
def afterRead (recs : List (Nat × GridRec)) (i : Nat) (l : List GridRec) : List GridRec := if recs.any fun p => p.1 == i then l.tail else l

/-- What waits of a recogniser's axes: of the enabled ones, and of those that were disabled before their last records were read (11 R269). -/
def waitingOf (s : State) (l : List (Fin 16 × List GridRec)) : List (Nat × List GridRec) :=
  (l.filter fun p => s.slots[p.1].en || !p.2.isEmpty).map fun p => (p.1.val, p.2)

/-- What waits for the impact recogniser, by named axis. -/
def impWaiting (s : State) : List (Nat × List GridRec) :=
  waitingOf s (([(0, s.recog.impIn[0]), (1, s.recog.impIn[1]), (2, s.recog.impIn[2])] : List (Fin 16 × List GridRec)).filter fun p =>
    (s.get RC_IMP_CFG_AXES).testBit p.1.val)

/-- The impact recogniser has read records. -/
def impRead (s : State) (recs : List (Nat × GridRec)) : State :=
  s.modRecog fun x => { x with impIn := Vector.ofFn fun k => afterRead recs k.val x.impIn[k] }

/-- The impact recogniser decides on the records of one grid time, or on time-step records (11 R271 to R273). -/
def impDecide (s : State) (recs : List (Nat × GridRec)) : State :=
  match recs with
  | [] => s
  | p :: _ => showImp (if recs.any fun q => q.2.rcd.kind != .sample then impInterrupt s else impSamples s p.2.t recs)

/-- The records that the impact recogniser reads next are of differing rate codes (11 R271): it is idle. What was in progress has been interrupted by the markers of the axis
whose code changed (R273). -/
def impIdle (s : State) : State := showImp (impInterrupt (s.event RC_EVT_CFGERR))

/-- IMPACT_RECORD (11 R269 to R273): the next records of the named axes that the Landing delivered, in SSN order (01 R30). -/
def execImpactRecord (s : State) : Host.Outcome State Fault Refusal :=
  .next (if recogOn s && s.bit RC_IMP_CFG_EN then
      let w := impWaiting s
      let s1 := impRead s (nextRecs w)
      if (nextRecs w).isEmpty || oneRate w then impDecide s1 (nextRecs w) else impIdle s1
    else s)

/-- A Blaze of the stroke recogniser at record r (11 R275). -/
def stkBlaze (s : State) (r : GridRec) (kind : Nat) (v0 v1 : Int) : State :=
  issueBlaze s { src := 2, kind := kind, sev := s.get RC_STK_CFG_SEV, ovr := r.rcd.kind == .sample && r.rcd.ovr,
                 slot := s.get RC_STK_CFG_SLOT, t := r.t, ssn := r.ssn, val0 := v0, val1 := v1 }

/-- Enter learning (11 R275): the last M stays until a new one is formed. -/
def stkLearn (s : State) : State := (s.modRecog fun x => { x with learn := [], stopFrom := none }).set RC_STK_ST_STATE 1

/-- Show M (11 R285). -/
def showMean (s : State) : State := s.set RC_STK_PER_MEAN (inUs s.recog.mean).toNat

/-- The stop time has passed at record r (11 R275). -/
def stkStop (s : State) (r : GridRec) : State :=
  match s.recog.stopFrom with
  | none => s
  | some a =>
    if a + s.get RC_STK_STOP_STOPMS * 80000000 ≤ r.t ∧ (s.get RC_STK_ST_STATE = 1 ∨ s.get RC_STK_ST_STATE = 2) then
      let s := stkBlaze (s.event RC_EVT_STOP) r 3 (inUs s.recog.mean) 0
      (s.modRecog fun x => { x with lastStroke := none, stopFrom := none }).set RC_STK_ST_STATE 3
    else s

/-- An interval of the stroke at record r (11 R275). -/
def stkInterval (s : State) (r : GridRec) (p : Nat) : State :=
  if s.get RC_STK_ST_STATE = 1 then
    let s := s.modRecog fun x => { x with learn := p :: x.learn }
    if s.recog.learn.length = 8 then
      let s := showMean (s.modRecog fun x => { x with mean := roundEven x.learn.sum 8 })
      stkBlaze (s.set RC_STK_ST_STATE 2) r 4 (inUs s.recog.mean) 8
    else s
  else
    let m := s.recog.mean
    if (s.get RC_STK_CFG_TOL : Int) * m < 100 * absNat ((p : Int) - m) then
      stkBlaze ((s.bump RC_STK_ST_IRREG 1).event RC_EVT_IRREG) r 2 (inUs p) (inUs m)
    else showMean (s.modRecog fun x => { x with mean := m + roundEven ((p : Int) - m) 8 })

/-- A stroke at record r (11 R274, R275). -/
def stroke (s : State) (r : GridRec) : State :=
  let s := pulseAll (s.set RC_STK_COUNT (s.get RC_STK_COUNT + 1)) 14 r.t
  let s := if s.get RC_STK_ST_STATE = 3 then stkLearn s else s
  let p := s.recog.lastStroke.map fun a => r.t - a
  let s := s.modRecog fun x => { x with armed := false, lastStroke := some r.t, stopFrom := some r.t }
  let s := if s.bit RC_STK_CFG_EACH then stkBlaze s r 1 (match p with | none => 0 | some p => inUs p) (s.get RC_STK_COUNT) else s
  match p with
  | none => s
  | some p => stkInterval s r p

/-- The stroke recogniser reads a record (11 R270, R274, R275). -/
def strokeRead (s : State) (r : GridRec) : State :=
  if r.rcd.kind = .timeStep then s.modRecog fun x => { x with armed := false, lastStroke := none, stopFrom := none }
  else
    let s := s.modRecog fun x => { x with stopFrom := if x.stopFrom.isNone && s.get RC_STK_ST_STATE != 3 then some r.t else x.stopFrom }
    let s := stkStop s r
    let low := !r.rcd.stale && decide (r.rcd.value ≤ s.getI RC_STK_LVL_LEVEL - s.get RC_STK_HYS_HYST)
    if r.rcd.kind = .marker then s.modRecog fun x => { x with armed := false, lastStroke := none }
    else if r.used && s.recog.armed && decide (s.getI RC_STK_LVL_LEVEL ≤ r.rcd.value) then stroke s r
    else if low || r.rcd.stale then s.modRecog fun x => { x with armed := true }
    else s

/-- STROKE_RECORD (11 R269, R275): the next record of the recogniser's slot that the Landing delivered, in SSN order (01 R30). -/
def execStrokeRecord (s : State) : Host.Outcome State Fault Refusal :=
  .next (if recogOn s && s.bit RC_STK_CFG_EN then
      match s.recog.stkIn with
      | [] => s
      | r :: rest => strokeRead (s.modRecog fun x => { x with stkIn := rest }) r
    else s)

/-- The free-fall condition is discarded (11 R276, R284). -/
def ffClear (s : State) : State := s.modRecog fun x => { x with ffStart := none, ffPeak := 0, ffOvr := false, ffFail := none }

/-- The condition holds at the grid time of record z (11 R276). -/
def ffHolds (s : State) (x y z : GridRec) : State :=
  let m := max (absNat x.rcd.value) (max (absNat y.rcd.value) (absNat z.rcd.value))
  let o := x.rcd.ovr || y.rcd.ovr || z.rcd.ovr
  let (start, ssn) := s.recog.ffStart.getD (z.t, z.ssn)
  let s := s.modRecog fun q => { q with ffStart := some (start, ssn), ffPeak := max q.ffPeak m, ffOvr := q.ffOvr || o, ffFail := none }
  if start + s.get RC_FF_TIM_DUR * 8000000 ≤ z.t ∧ !s.bit RC_FF_ST_ACTIVE then
    let s := ((setFfall s true).bump RC_FF_ST_CNT 1).event RC_EVT_FFALL
    issueBlaze s { src := 3, kind := 1, sev := s.get RC_FF_CFG_SEV, ovr := s.recog.ffOvr, slot := 5, t := start, ssn := ssn,
                   val0 := s.recog.ffPeak, val1 := s.get RC_FF_TIM_DUR }
  else s

/-- The condition fails at grid time t (11 R276): ACTIVE clears after 100 ms without it. -/
def ffFails (s : State) (t : Nat) : State :=
  let a := s.recog.ffFail.getD t
  let s := (ffClear s).modRecog fun q => { q with ffFail := some a }
  if a + 800000000 ≤ t then setFfall s false else s

/-- What waits for the free-fall recogniser, by axis. -/
def ffWaiting (s : State) : List (Nat × List GridRec) :=
  waitingOf s [(3, s.recog.ffIn[0]), (4, s.recog.ffIn[1]), (5, s.recog.ffIn[2])]

/-- The free-fall recogniser has read records. -/
def ffRead (s : State) (recs : List (Nat × GridRec)) : State :=
  s.modRecog fun x => { x with ffIn := Vector.ofFn fun k => afterRead recs (k.val + 3) x.ffIn[k] }

/-- A record lies in the free-fall band (11 R276). -/
def inBand (s : State) (r : GridRec) : Bool := r.used && decide (absNat r.rcd.value < s.get RC_FF_CFG_THR)

/-- The free-fall recogniser decides on the records of one grid time, or on time-step records (11 R276); with fewer than three records the condition fails. -/
def ffDecide (s : State) (recs : List (Nat × GridRec)) : State :=
  match recs with
  | [] => s
  | p :: rest =>
    if recs.any fun q => q.2.rcd.kind == .timeStep then ffClear s
    else match rest with
      | [q, r] => if inBand s p.2 && inBand s q.2 && inBand s r.2 then ffHolds s p.2 q.2 r.2 else ffFails s p.2.t
      | _ => ffFails s p.2.t

/-- FREEFALL_RECORD (11 R269, R276): at differing rate codes no condition holds; the next records of LX, LY and LZ that the Landing delivered, in SSN order (01 R30). -/
def execFreefallRecord (s : State) : Host.Outcome State Fault Refusal :=
  .next (if recogOn s && s.bit RC_FF_CFG_EN then
      let w := ffWaiting s
      let s1 := ffRead s (nextRecs w)
      match nextRecs w with
      | [] => s1
      | p :: _ => if oneRate w then ffDecide s1 (nextRecs w) else ffFails (s1.event RC_EVT_CFGERR) p.2.t
    else s)

/-- The recognisers start as the Tally sets them (16 R409, R421; 11 R275). -/
def recogStart (s : State) : State :=
  let s := { s with recog := {} }
  let s := if s.bit RC_STK_CFG_EN then stkLearn s else s.set RC_STK_ST_STATE 0
  showMean (showImp (setFfall s false))

/-- The recognisers stop (16 R419). -/
def recogStop (s : State) : State := setFfall (showMean ((showImp { s with recog := {} }).set RC_STK_ST_STATE 0)) false

/-- A write of an impact setting (11 R284, R285): words 0x1200 to 0x1202. An episode ends without a Blaze; a double window that is open closes with the single Blaze of its
first impact, as at an interruption (R273; DESIGN CHOICE, log entry 21). -/
def writeRcImp (s : State) (w : Nat) (v : Word) : State :=
  let s := match s.recog.first with
    | none => s
    | some f => impSingle s f
  let s := if w = 1 ∧ getBits v 0 16 = 0 then s.set RC_IMP_TIM_DUR (getBits v 16 16) else storeRw s (0x1200 + w) v
  showImp (s.modRecog fun x => { x with ep := none, first := none, impIn := Vector.ofFn fun k => if s.bit RC_IMP_CFG_EN && (s.get RC_IMP_CFG_AXES).testBit k.val then x.impIn[k] else [] })

/-- A write of a stroke setting (11 R284, R285): words 0x1208 to 0x120B. -/
def writeRcStk (s : State) (w : Nat) (v : Word) : State :=
  let en := s.bit RC_STK_CFG_EN
  let slot := s.get RC_STK_CFG_SLOT
  let s :=
    if w = 0 then
      let v := if getBits v 20 4 ≤ 10 then v else setBits v 20 4 slot
      let v := if 1 ≤ getBits v 12 8 ∧ getBits v 12 8 ≤ 100 then v else setBits v 12 8 (s.get RC_STK_CFG_TOL)
      storeRw s 0x1208 v
    else if w = 3 ∧ getBits v 0 16 = 0 then s
    else storeRw s (0x1208 + w) v
  if s.bit RC_STK_CFG_EN = en ∧ s.get RC_STK_CFG_SLOT = slot then s
  else
    let s := s.modRecog fun x => { x with armed := false, lastStroke := none, learn := [], mean := 0, stopFrom := none, stkIn := [] }
    showMean (if s.bit RC_STK_CFG_EN && recogOn s then stkLearn s else s.set RC_STK_ST_STATE 0)

/-- A write of a free-fall setting (11 R284, R285): words 0x1210 and 0x1211. The condition starts anew; the time for which it has failed runs on, and with it the re-arming of
ACTIVE. -/
def writeRcFf (s : State) (w : Nat) (v : Word) : State :=
  let s := if w = 1 ∧ getBits v 0 16 = 0 then s else storeRw s (0x1210 + w) v
  let s := s.modRecog fun x => { x with ffStart := none, ffPeak := 0, ffOvr := false }
  if s.bit RC_FF_CFG_EN then s else (setFfall s false).modRecog fun x => { x with ffFail := none, ffIn := Vector.replicate 3 [] }

/-- RC_IMP_WRITE. -/
def execRcImpWrite (door : Initiator) (w : Fin 3) (v : Word) (s : State) : Host.Outcome State Fault Refusal :=
  .next (atDoor s door (0x1200 + w.val) fun s => writeRcImp s w v)

/-- RC_STK_WRITE. -/
def execRcStkWrite (door : Initiator) (w : Fin 4) (v : Word) (s : State) : Host.Outcome State Fault Refusal :=
  .next (atDoor s door (0x1208 + w.val) fun s => writeRcStk s w v)

/-- RC_FF_WRITE. -/
def execRcFfWrite (door : Initiator) (w : Fin 2) (v : Word) (s : State) : Host.Outcome State Fault Refusal :=
  .next (atDoor s door (0x1210 + w.val) fun s => writeRcFf s w v)

end Sys2Proof.Machine
end

