-- ==== Sys2Proof/Machine/Engine.lean ====
section
/-!
DEFINITION. The pin engines (12): the instruction encodings, the ten opcodes' effects in one engine cycle, stalls, injection, faults, the command word, the
queues, the Mill-event unit, and a time step's effect. One command is one engine cycle, named by the engine and the word it executes.
-/

namespace Sys2Proof.Machine

/-- Input codes of pulse inputs (12 R291). -/
def pulseInput (c : Nat) : Bool := (decide (2 ≤ c) && decide (c ≤ 11)) || c == 14 || c == 15

/-- Bits of an instruction. -/
def ib (w lo width : Nat) : Nat := w / 2 ^ lo % 2 ^ width

/-- An instruction is a reserved encoding (12 R295, R296, R297). -/
def peReserved (w : Nat) : Bool :=
  let pulsePol := pulseInput (ib w 5 4) && ib w 11 1 == 0
  let noBits := ib w 6 3 != 0 || ib w 0 6 == 0 || decide (32 < ib w 0 6)
  match w / 4096 with
  | 0 => ib w 9 3 != 5 && ib w 9 3 != 6 && ib w 5 4 != 0
  | 1 => ib w 9 2 == 3 || ib w 0 5 != 0 || (if ib w 9 2 = 2 then ib w 5 4 != 0 || ib w 11 1 != 0 else pulsePol)
  | 2 => ib w 0 5 != 0 || pulsePol
  | 3 => ib w 10 2 == 3 || ib w 8 1 != 0 || (ib w 10 2 != 1 && (ib w 9 1 != 0 || ib w 0 8 != 0))
  | 4 => noBits || ib w 9 3 == 7 || ((ib w 9 3 == 0 || ib w 9 3 == 6) && ib w 0 6 != 1)
  | 5 => noBits || decide (5 ≤ ib w 9 3) || (ib w 9 3 == 0 && ib w 0 6 != 1)
  | 6 => ib w 0 9 != 0
  | 7 => decide (6 ≤ ib w 9 3) || ib w 6 3 == 7 || ib w 0 3 != 0
  | 8 => ib w 10 2 == 3 && decide (1 < ib w 0 10)
  | 9 => ib w 10 2 == 3 || ib w 5 5 != 0
  | _ => true

/-- The kind of an instruction (12 R295, R296). -/
def peKind (w : Nat) : PeKind :=
  if peReserved w then .reserved
  else match w / 4096 with
    | 0 => .br
    | 1 => .await
    | 2 => .stamp
    | 3 => if ib w 10 2 = 0 then .markInterrupt else if ib w 10 2 = 1 then .markBlaze else .markCapture
    | 4 => .samp
    | 5 => .emit
    | 6 => if ib w 10 2 = 0 then .sinToRx else if ib w 10 2 = 1 then .txToSout else if ib w 10 2 = 2 then .uToRx else .txToU
    | 7 => .calc
    | 8 => .ldi
    | _ => .dec

/-- The instruction at address a of engine e's memory (12 R315). -/
def peInstr (s : State) (e a : Nat) : Nat := if a % 2 = 0 then s.get (PE_IM_EVEN e (a / 2)) else s.get (PE_IM_ODD e (a / 2))

/-- A number with bit e set or cleared. -/
def withBit (n e : Nat) (b : Bool) : Nat := if n.testBit e = b then n else if b then n + 2 ^ e else n - 2 ^ e

/-- Change an engine's STATE, and its bits of PE_GST (12 R314). -/
def setPeState (s : State) (e st : Nat) : State :=
  let s := s.set (PE_ST_STATE e) st
  let s := s.set PE_GST_FAULTED (withBit (s.get PE_GST_FAULTED) e (st == 3))
  let s := s.set PE_GST_STALLED (withBit (s.get PE_GST_STALLED) e (st == 2))
  s.set PE_GST_RUNNING (withBit (s.get PE_GST_RUNNING) e (st == 1 || st == 2))

/-- The engine runs or is stalled. -/
def peRuns (s : State) (e : Nat) : Bool := s.get (PE_ST_STATE e) == 1 || s.get (PE_ST_STATE e) == 2

/-- The level of a level input (12 R291). -/
def inputLevel (s : State) (c : Nat) : Bool :=
  if c = 0 then auxInput s && s.bit AUX_ST_LEVEL
  else if c = 1 then auxInput s && s.aux.comp
  else if c = 12 then s.get RC_IMP_ST_STATE % 2 == 1
  else if c = 13 then s.bit RC_FF_ST_ACTIVE
  else false

/-- The level inputs as a mask of their codes. -/
def inputMask (s : State) : Nat := (([0, 1, 12, 13] : List Nat).filter (inputLevel s)).map (2 ^ ·) |>.sum

/-- The level of a level input as engine e sees it (12 R293). -/
def seenLevel (s : State) (e : Fin 8) (c : Nat) : Bool := s.engines[e].levels.1.testBit c

/-- The latch of a pulse input: the time it carries, when set (12 R292). -/
def peLatch (s : State) (e : Fin 8) (c : Nat) : Option Nat := (s.engines[e].latches.find? fun p => p.1 == c).map (·.2)

/-- Clear a latch (12 R292). -/
def clearLatch (s : State) (e : Fin 8) (c : Nat) : State := s.modEngine e fun x => { x with latches := x.latches.filter fun p => p.1 != c }

/-- Set a latch, or merge the pulse into it (12 R292). -/
def setLatch (s : State) (e : Fin 8) (c t : Nat) : State := s.modEngine e fun x => { x with latches := putPulse x.latches c t }

/-- Clear all latches (12 R292). -/
def clearLatches (s : State) (e : Fin 8) : State := s.modEngine e fun x => { x with latches := [] }

/-- The Mill-event unit leaves its slot (12 R312, 10 R249): nothing waits for it any more. -/
def dropMev (s : State) (e : Fin 8) : State := s.modEngine e fun x => { x with mev := [] }

/-- The queue depths by QMODE (12 R304). -/
def txDepth (s : State) (e : Nat) : Nat := if s.get (PE_CFG_QMODE e) = 1 then 8 else if s.get (PE_CFG_QMODE e) = 2 then 0 else 4
def rxDepth (s : State) (e : Nat) : Nat := if s.get (PE_CFG_QMODE e) = 2 then 8 else if s.get (PE_CFG_QMODE e) = 1 then 0 else 4

/-- Show the queue levels (12 R306, R314). -/
def showQueues (s : State) (e : Fin 8) : State := (s.set (PE_ST_TXLVL e) s.engines[e].tx.length).set (PE_ST_RXLVL e) s.engines[e].rx.length

/-- n places are free in RX (12 R304: a queue of depth 0 is always full). -/
def rxRoom (s : State) (e : Fin 8) (n : Nat) : Bool := decide (s.engines[e].rx.length + n ≤ rxDepth s e)

/-- Put a word into RX (12 R306). -/
def rxPut (s : State) (e : Fin 8) (w : Word) : State :=
  let s := s.modEngine e fun x => { x with rx := x.rx ++ [w] }
  showQueues (s.set (PE_RXIN e) (s.get (PE_RXIN e) + 1)) e

/-- Words discarded at RX (12 R300, R301). -/
def rxDrop (s : State) (e : Fin 8) (n : Nat) : State := (s.event (PE_EVT_RXDROP e)).set (PE_RXDROP e) (s.get (PE_RXDROP e) + n)

/-- A non-blocking put (12 R300, R301). -/
def rxOffer (s : State) (e : Fin 8) (w : Word) : State := if rxRoom s e 1 then rxPut s e w else rxDrop s e 1

/-- The TX words that XFER may take (12 R305): those of earlier ticks. -/
def txReady (s : State) (e : Fin 8) : List Word := s.engines[e].tx.take (s.engines[e].tx.length - s.engines[e].txNew)

/-- Take the oldest TX word off its queue (12 R300, R306). -/
def txTake (s : State) (e : Fin 8) : State :=
  let s := s.modEngine e fun x => { x with tx := x.tx.tail }
  showQueues (s.set (PE_TXOUT e) (s.get (PE_TXOUT e) + 1)) e

/-- An initiator's write of a TX word (12 R305). -/
def txPush (s : State) (e : Fin 8) (w : Word) : State :=
  if s.engines[e].tx.length < txDepth s e then
    let s := s.modEngine e fun x => { x with tx := x.tx ++ [w], txNew := x.txNew + 1 }
    showQueues (s.set (PE_TXIN e) (s.get (PE_TXIN e) + 1)) e
  else (s.event (PE_EVT_TXDROP e)).set (PE_TXDROP e) (s.get (PE_TXDROP e) + 1)

/-- An initiator's read of RX (12 R305): the oldest word leaves the queue; an empty queue reads 0. -/
def rxPop (s : State) (e : Fin 8) : Word × State :=
  match s.engines[e].rx with
  | [] => (0, s.event (PE_EVT_RDEMPTY e))
  | w :: rest =>
    let s := s.modEngine e fun x => { x with rx := rest }
    (w, showQueues (s.set (PE_RXOUT e) (s.get (PE_RXOUT e) + 1)) e)

/-- Set the output level LVL (12 R294), which the AUX driver follows in the next tick (12 R293, 06 R168). -/
def setLvl (s : State) (e : Nat) (b : Bool) : State := s.setB (PE_ST_LVL e) b

/-- The time capture of STAMP and MARK (12 R301): TC, the interval from the previous capture, and the words of both. A negative interval is not stated by
the rule: a free value (log entry 22). -/
def capture (s : State) (e : Fin 8) (t : Nat) : State :=
  let (d, s) : Nat × State := match s.engines[e].prevCap with
    | none => (0xFFFFFFFF, s)
    | some a => if a ≤ t then (min ((t - a) / 8) 0xFFFFFFFE, s) else (s.freeWord.1.toNat, s.freeWord.2)
  let s := s.modEngine e fun x => { x with tc := some t, prevCap := some t }
  ((s.set (PE_TCS e) (timeSec t)).set (PE_TCN_NS e) (timeNs t)).set (PE_TCD e) d

/-- What one cycle did: the state after it, whether the instruction completed, and the address it jumped to. -/
structure PeResult where
  st : State
  done : Bool := true
  jump : Option Nat := none

/-- A register of an engine by its code in CALC (12 R297). -/
def peReg (s : State) (e c : Nat) : Word :=
  BitVec.ofNat 32 (match c with
    | 0 => s.get (PE_U e)
    | 1 => s.get (PE_V e)
    | 2 => s.get (PE_CNT e)
    | 3 => s.get (PE_SIN e)
    | 4 => s.get (PE_SOUT e)
    | 5 => s.get (PE_ST_LVL e)
    | 6 => s.get (PE_TCD e)
    | _ => 0)

/-- Put a word into a register by its code in CALC (12 R297): to SIN or SOUT it clears the count; to LVL bit 0 goes. -/
def putPeReg (s : State) (e c : Nat) (w : Word) : State :=
  match c with
  | 0 => s.set (PE_U e) w.toNat
  | 1 => s.set (PE_V e) w.toNat
  | 2 => s.set (PE_CNT e) w.toNat
  | 3 => (s.set (PE_SIN e) w.toNat).set (PE_ST_NIN e) 0
  | 4 => (s.set (PE_SOUT e) w.toNat).set (PE_ST_NOUT e) 0
  | 5 => setLvl s e (w.getLsbD 0)
  | _ => s

/-- BR's condition (12 R298), with a latch found set consumed. -/
def brHolds (s : State) (e : Fin 8) (cond inp : Nat) : Bool × State :=
  let isSet : Bool := if pulseInput inp then (peLatch s e inp).isSome else seenLevel s e inp
  match cond with
  | 0 => (true, s)
  | 1 => (s.get (PE_U e) == 0, s)
  | 2 => (s.get (PE_U e) != 0, s)
  | 3 => (s.get (PE_U e) == s.get (PE_V e), s)
  | 4 => (decide (s.get (PE_U e) < s.get (PE_V e)), s)
  | 5 => (isSet, if pulseInput inp then clearLatch s e inp else s)
  | 6 => (!isSet, s)
  | _ => (s.get (PE_CNT e) == 0, s)

/-- BR (12 R298). -/
def peBr (s : State) (e : Fin 8) (w : Nat) : PeResult :=
  let (b, s) := brHolds s e (ib w 9 3) (ib w 5 4)
  { st := s, jump := if b then some (ib w 0 5) else none }

/-- Search for an edge or pulse of an input from a first execution on (12 R292, R301): the time of the one found, and the state with it consumed. -/
def peSearch (s : State) (e : Fin 8) (c : Nat) (rising first : Bool) : Option Nat × State :=
  if pulseInput c then
    if first then (none, clearLatch s e c)
    else ((peLatch s e c), clearLatch s e c)
  else if first then (none, s.modEngine e fun x => { x with find := some (c, rising, none) })
  else
    match s.engines[e].find with
    | some (_, _, some t) => (some t, s.modEngine e fun x => { x with find := some (c, rising, none) })
    | _ => (none, s)

/-- AWAIT (12 R302; R290, R292): a level, an edge or pulse, or a time. An injected one of type 1 never completes (R311). On a pulse input TYPE 0 waits as
TYPE 1 does. -/
def peAwait (s : State) (e : Fin 8) (w : Nat) (first inj : Bool) : PeResult :=
  let c := ib w 5 4
  let pol := ib w 11 1 == 1
  if ib w 9 2 = 2 then
    let target := match first || inj, s.engines[e].target with
      | false, some t => t
      | _, _ => s.engines[e].tc.getD s.now + s.get (PE_U e) * 8
    { st := if inj then s else s.modEngine e fun x => { x with target := some target }, done := decide (target ≤ s.now) }
  else if ib w 9 2 = 0 ∧ !pulseInput c then { st := s, done := seenLevel s e c == pol }
  else if inj then { st := s, done := false }
  else
    let (t, s) := peSearch s e c pol first
    { st := s, done := t.isSome }

/-- The words STAMP's DEST puts into RX (12 R301). -/
def stampPut (s : State) (e : Fin 8) (dest : Nat) : State :=
  let ns : Word := BitVec.ofNat 32 (s.get (PE_TCN_NS e))
  match dest with
  | 1 => rxOffer s e ns
  | 2 => if rxRoom s e 2 then rxPut (rxPut s e (BitVec.ofNat 32 (s.get (PE_TCS e)))) e ns else rxDrop s e 2
  | 3 => rxOffer s e (BitVec.ofNat 32 (s.get (PE_TCD e)))
  | _ => s

/-- STAMP (12 R301). -/
def peStamp (s : State) (e : Fin 8) (w : Nat) (first inj : Bool) : PeResult :=
  if inj then { st := s, done := false }
  else
    let (t, s) := peSearch s e (ib w 5 4) (ib w 11 1 == 1) first
    match t with
    | none => { st := s, done := false }
    | some t => { st := stampPut (capture s e t) e (ib w 9 2) }

/-- MARK with ACT 1 (12 R303). -/
def peMarkBlaze (s : State) (e : Fin 8) (w : Nat) : State :=
  issueBlaze s { src := 0x10 + e.val, kind := ib w 0 8, sev := s.get (PE_CFG_SEV e), slot := 0xFF, ssn := 0,
                 t := if ib w 9 1 = 1 then s.engines[e].tc.getD 0 else s.now,
                 val0 := s.getI (PE_U e), val1 := s.getI (PE_V e) }

/-- SAMP's source (12 R296, R299); source 6 consumes a pulse input's latch. -/
def sampSource (s : State) (e : Fin 8) (src : Nat) : Nat × State :=
  let c := s.get (PE_CFG_INSEL e)
  match src with
  | 0 => (s.get (PE_ST_LVL e), s)
  | 1 => (s.get (PE_U e), s)
  | 2 => (s.get (PE_V e), s)
  | 3 => (s.get (PE_CNT e), s)
  | 4 => (0, s)
  | 5 => (s.get (PE_TCD e), s)
  | _ => if pulseInput c then ((if (peLatch s e c).isSome then 1 else 0), clearLatch s e c) else ((if seenLevel s e c then 1 else 0), s)

/-- SAMP (12 R299). -/
def peSamp (s : State) (e : Fin 8) (w : Nat) : State :=
  let n := ib w 0 6
  let (x, s) := sampSource s e (ib w 9 3)
  let x := x % 2 ^ n
  let sin := s.get (PE_SIN e)
  let sin := if s.bit (PE_CFG_SINDIR e) then sin / 2 ^ n + x * 2 ^ (32 - n) else sin * 2 ^ n + x
  (s.set (PE_SIN e) sin).set (PE_ST_NIN e) (min 32 (s.get (PE_ST_NIN e) + n))

/-- EMIT (12 R299). -/
def peEmit (s : State) (e : Fin 8) (w : Nat) : State :=
  let n := ib w 0 6
  let sout := s.get (PE_SOUT e)
  let (x, rest) := if s.bit (PE_CFG_SOUTDIR e) then (sout % 2 ^ n, sout / 2 ^ n) else (sout / 2 ^ (32 - n), sout * 2 ^ n)
  let s := (s.set (PE_SOUT e) rest).set (PE_ST_NOUT e) (min 32 (s.get (PE_ST_NOUT e) + n))
  match ib w 9 3 with
  | 0 => setLvl s e (x == 1)
  | 1 => s.set (PE_U e) x
  | 2 => s.set (PE_V e) x
  | 3 => s.set (PE_CNT e) x
  | _ => s

/-- A blocking XFER finds its queue full or empty (12 R300): the first cycle of the stall, which no stalled cycle of this instruction came before, counts; an injected one
only tries (R311). -/
def xferStall (s : State) (e : Fin 8) (first inj rx : Bool) : PeResult :=
  if inj || !first && s.get (PE_ST_STATE e) == 2 then { st := s, done := false }
  else if rx then { st := (s.event (PE_EVT_RXSTALL e)).bump (PE_STALL_RX e) 1, done := false }
  else { st := (s.event (PE_EVT_TXSTALL e)).bump (PE_STALL_TX e) 1, done := false }

/-- SIN is moved out (12 R300, DIR 0). -/
def clearSin (s : State) (e : Nat) : State := (s.set (PE_SIN e) 0).set (PE_ST_NIN e) 0

/-- XFER into RX (12 R300): DIR 0 from SIN, DIR 2 from U. -/
def peXferRx (s : State) (e : Fin 8) (w : Nat) (sin first inj : Bool) : PeResult :=
  let v : Word := if sin then s.word (PE_SIN e).word else s.word (PE_U e).word
  let after (s : State) : State := if sin then clearSin s e else s
  if rxRoom s e 1 then { st := after (rxPut s e v) }
  else if ib w 9 1 = 1 then xferStall s e first inj true
  else { st := after (rxDrop s e 1) }

/-- XFER out of TX (12 R300): DIR 1 to SOUT, DIR 3 to U. -/
def peXferTx (s : State) (e : Fin 8) (w : Nat) (sout first inj : Bool) : PeResult :=
  match txReady s e with
  | v :: _ =>
    let s := txTake s e
    { st := if sout then (s.set (PE_SOUT e) v.toNat).set (PE_ST_NOUT e) 0 else s.set (PE_U e) v.toNat }
  | [] => if ib w 9 1 = 1 then xferStall s e first inj false else { st := s }

/-- CALC's operation (12 R297). -/
def calcOp (op : Nat) (d x : Word) : Word :=
  match op with
  | 0 => x
  | 1 => d + x
  | 2 => d - x
  | 3 => d &&& x
  | 4 => d ||| x
  | 5 => ~~~x
  | _ => x >>> 1

/-- CALC (12 R297). -/
def peCalc (s : State) (e : Fin 8) (w : Nat) : State :=
  putPeReg s e (ib w 9 3) (calcOp (ib w 6 3) (peReg s e (ib w 9 3)) (peReg s e (ib w 3 3)))

/-- LDI (12 R296). -/
def peLdi (s : State) (e : Fin 8) (w : Nat) : State :=
  let imm := ib w 0 10
  match ib w 10 2 with
  | 0 => s.set (PE_U e) imm
  | 1 => s.set (PE_V e) imm
  | 2 => s.set (PE_CNT e) imm
  | _ => setLvl s e (imm == 1)

/-- DEC (12 R298). -/
def peDec (s : State) (e : Fin 8) (w : Nat) : PeResult :=
  let f := match ib w 10 2 with
    | 0 => PE_CNT e
    | 1 => PE_U e
    | _ => PE_V e
  let v := s.get f
  if v = 0 then { st := s }
  else { st := s.set f (v - 1), jump := if v = 1 then none else some (ib w 0 5) }

/-- One execution of an instruction (12 R295 to R303); a reserved encoding does nothing here. -/
def peExecute (s : State) (e : Fin 8) (w : Nat) (first inj : Bool) : PeResult :=
  match peKind w with
  | .br => peBr s e w
  | .await => peAwait s e w first inj
  | .stamp => peStamp s e w first inj
  | .markInterrupt => { st := s.pulse (64 + e.val) }
  | .markBlaze => { st := peMarkBlaze s e w }
  | .markCapture => { st := capture s e s.now }
  | .samp => { st := peSamp s e w }
  | .emit => { st := peEmit s e w }
  | .sinToRx => peXferRx s e w true first inj
  | .txToSout => peXferTx s e w true first inj
  | .uToRx => peXferRx s e w false first inj
  | .txToU => peXferTx s e w false first inj
  | .calc => { st := peCalc s e w }
  | .ldi => { st := peLdi s e w }
  | .dec => peDec s e w
  | .reserved => { st := s, done := false }

/-- Executing a reserved encoding faults the engine and pulses its interrupt source (12 R310); AUX takes its idle level (06 R169). -/
def peFault (s : State) (e : Fin 8) : State := driveAux ((clearLatches (dropMev ((setPeState s e 3).event (PE_EVT_FAULT e)) e) e).pulse (64 + e.val))

/-- One cycle of a running engine at its PC (12 R290, R310). -/
def peCycle (s : State) (e : Fin 8) (w : Nat) : State :=
  let pc := s.get (PE_ST_PC e)
  let first := s.engines[e].lastPc != some pc
  let s0 := s.modEngine e fun x => { x with lastPc := some pc }
  if peKind w = .reserved then peFault s0 e
  else
    let r := peExecute s0 e w first false
    if r.done then (setPeState r.st e 1).set (PE_ST_PC e) (r.jump.getD (pc + 1))
    else setPeState r.st e 2

/-- The cycle of an injected instruction (12 R311). -/
def peInjected (s : State) (e : Fin 8) (w : Nat) : State :=
  let s0 := s.modEngine e fun x => { x with inj := none }
  let r := peExecute s0 e w true true
  if r.done then
    match r.jump with
    | none => r.st
    | some a => r.st.set (PE_ST_PC e) a
  else r.st.event (PE_EVT_INJNOP e)

/-- The engine takes the cycle of this tick (12 R289). -/
def takeCycle (s : State) (e : Fin 8) : State := s.modEngine e fun x => { x with cycle := false }

/-- The engine's cycle of this tick executes word w: the pending injection, in any state, or the instruction at the PC of a running engine (12 R289, R290, R311). -/
def peStep (s : State) (e : Fin 8) (w : Nat) (k : PeKind) : State :=
  if !s.alive || peKind w != k || !s.engines[e].cycle then s
  else
    match s.engines[e].inj with
    | some iw => if iw = w then peInjected (takeCycle s e) e w else s
    | none => if peRuns s e && peInstr s e (s.get (PE_ST_PC e)) == w then peCycle (takeCycle s e) e w else s

/-- PE_BR. -/
def execPeBr (e : Fin 8) (w : Nat) (s : State) : Host.Outcome State Fault Refusal := .next (peStep s e w .br)

/-- PE_AWAIT. -/
def execPeAwait (e : Fin 8) (w : Nat) (s : State) : Host.Outcome State Fault Refusal := .next (peStep s e w .await)

/-- PE_STAMP. -/
def execPeStamp (e : Fin 8) (w : Nat) (s : State) : Host.Outcome State Fault Refusal := .next (peStep s e w .stamp)

/-- PE_MARK_INTERRUPT. -/
def execPeMarkInterrupt (e : Fin 8) (w : Nat) (s : State) : Host.Outcome State Fault Refusal := .next (peStep s e w .markInterrupt)

/-- PE_MARK_BLAZE. -/
def execPeMarkBlaze (e : Fin 8) (w : Nat) (s : State) : Host.Outcome State Fault Refusal := .next (peStep s e w .markBlaze)

/-- PE_MARK_CAPTURE_TIME. -/
def execPeMarkCaptureTime (e : Fin 8) (w : Nat) (s : State) : Host.Outcome State Fault Refusal := .next (peStep s e w .markCapture)

/-- PE_SAMP. -/
def execPeSamp (e : Fin 8) (w : Nat) (s : State) : Host.Outcome State Fault Refusal := .next (peStep s e w .samp)

/-- PE_EMIT. -/
def execPeEmit (e : Fin 8) (w : Nat) (s : State) : Host.Outcome State Fault Refusal := .next (peStep s e w .emit)

/-- PE_XFER_SIN_TO_RX. -/
def execPeXferSinToRx (e : Fin 8) (w : Nat) (s : State) : Host.Outcome State Fault Refusal := .next (peStep s e w .sinToRx)

/-- PE_XFER_TX_TO_SOUT. -/
def execPeXferTxToSout (e : Fin 8) (w : Nat) (s : State) : Host.Outcome State Fault Refusal := .next (peStep s e w .txToSout)

/-- PE_XFER_U_TO_RX. -/
def execPeXferUToRx (e : Fin 8) (w : Nat) (s : State) : Host.Outcome State Fault Refusal := .next (peStep s e w .uToRx)

/-- PE_XFER_TX_TO_U. -/
def execPeXferTxToU (e : Fin 8) (w : Nat) (s : State) : Host.Outcome State Fault Refusal := .next (peStep s e w .txToU)

/-- PE_CALC. -/
def execPeCalc (e : Fin 8) (w : Nat) (s : State) : Host.Outcome State Fault Refusal := .next (peStep s e w .calc)

/-- PE_LDI. -/
def execPeLdi (e : Fin 8) (w : Nat) (s : State) : Host.Outcome State Fault Refusal := .next (peStep s e w .ldi)

/-- PE_DEC. -/
def execPeDec (e : Fin 8) (w : Nat) (s : State) : Host.Outcome State Fault Refusal := .next (peStep s e w .dec)

/-- PE_RESERVED_ENCODING (12 R310). -/
def execPeReservedEncoding (e : Fin 8) (w : Nat) (s : State) : Host.Outcome State Fault Refusal := .next (peStep s e w .reserved)

/-- RESTART's clearing effects (12 R307). -/
def peRestart (s : State) (e : Fin 8) : State :=
  let s := ((clearSin s e).set (PE_SOUT e) 0).set (PE_ST_NOUT e) 0 |>.set (PE_ST_PC e) 0
  let s := ((s.set (PE_TCS e) 0).set (PE_TCN_NS e) 0).set (PE_TCD e) 0xFFFFFFFF
  s.modEngine e fun x => { x with latches := [], lastPc := none, find := none, target := none, tc := none, prevCap := none }

/-- Stop an engine (12 R307, R308). -/
def peStop (s : State) (e : Fin 8) : State :=
  driveAux (clearLatches (dropMev ((setPeState s e 0).modEngine e fun x => { x with lastPc := none }) e) e)

/-- Start a stopped or faulted engine at its PC (12 R307, R308). -/
def peRun (s : State) (e : Fin 8) : State :=
  if peRuns s e then s
  else
    driveAux (setPeState (s.modEngine e fun x => { x with lastPc := none }) e 1)

/-- What a PE_GCMD write does to one engine in the tick after it (12 R307). CLKSYNC sets the period accumulator so that a cycle is taken in that tick and then every
PER / 256 ticks: it holds 0 after that cycle. -/
def peCommand (s : State) (e : Fin 8) (run stop restart sync : Bool) : State :=
  let s := if sync then s.modEngine e fun x => { x with acc := 0, cycle := true } else s
  if stop then
    let s := peStop s e
    if restart then peRestart s e else s
  else if restart then
    let s := peRestart s e
    if run then driveAux (setPeState s e 1) else driveAux (setPeState (dropMev s e) e 0)
  else if run then peRun s e
  else s

/-- The part of a PE_GCMD word that is for engine e: RUN, STOP, RESTART and CLKSYNC from bit 0 (12 R307, R314). -/
def gcmdOf (v : Word) (e : Nat) : Nat :=
  (v.getLsbD e).toNat + 2 * (v.getLsbD (8 + e)).toNat + 4 * (v.getLsbD (16 + e)).toNat + 8 * (v.getLsbD (24 + e)).toNat

/-- A write that commands engine e (12 R307): it acts in the tick after the write. -/
def putGcmd (s : State) (e : Fin 8) (m : Nat) : State := if m = 0 then s else s.modEngine e fun x => { x with gcmd := x.gcmd ++ [m] }

/-- A write of PE_GCMD (12 R307): all named engines at once. -/
def writeGcmd (s : State) (v : Word) : State := (List.finRange 8).foldl (fun s e => putGcmd s e (gcmdOf v e.val)) s

/-- The module's own write of RUN and CLKSYNC, with RESTART or without, to the engines of a mask (12 R309). -/
def startMasked (s : State) (m : Nat) (restart : Bool) : State :=
  (List.finRange 8).foldl (fun s e => if m.testBit e.val then putGcmd s e (if restart then 13 else 9) else s) s

/-- The PE_GCMD writes of the tick that ended act on engine e (12 R307). -/
def takeGcmd (s : State) (e : Fin 8) : State :=
  s.engines[e].gcmd.foldl (fun s m => peCommand s e (m.testBit 0) (m.testBit 1) (m.testBit 2) (m.testBit 3)) (s.modEngine e fun x => { x with gcmd := [] })

/-- The PE_GCMD writes of the tick that ended act on every engine, at the start of the new tick and before its engine cycles (12 R307). -/
def takeGcmds (s : State) : State := (List.finRange 8).foldl takeGcmd s

/-- A PE_GCMD command with one mask at bit lo. -/
def gcmdWord (lo mask : Nat) : Word := BitVec.ofNat 32 (mask % 256 * 2 ^ lo)

/-- PE_GCMD_STOP. -/
def execPeGcmdStop (door : Initiator) (mask : Nat) (s : State) : Host.Outcome State Fault Refusal :=
  .next (atDoor s door 0x1400 fun s => writeGcmd s (gcmdWord 8 mask))

/-- PE_GCMD_RESTART. -/
def execPeGcmdRestart (door : Initiator) (mask : Nat) (s : State) : Host.Outcome State Fault Refusal :=
  .next (atDoor s door 0x1400 fun s => writeGcmd s (gcmdWord 16 mask))

/-- PE_GCMD_RUN. -/
def execPeGcmdRun (door : Initiator) (mask : Nat) (s : State) : Host.Outcome State Fault Refusal :=
  .next (atDoor s door 0x1400 fun s => writeGcmd s (gcmdWord 0 mask))

/-- PE_GCMD_CLKSYNC. -/
def execPeGcmdClksync (door : Initiator) (mask : Nat) (s : State) : Host.Outcome State Fault Refusal :=
  .next (atDoor s door 0x1400 fun s => writeGcmd s (gcmdWord 24 mask))

/-- A write of PE_INJe (12 R311). -/
def peInjectWrite (s : State) (e : Fin 8) (w : Nat) : State :=
  if s.engines[e].inj.isSome || peReserved w then s.event (PE_EVT_INJREJ e) else s.modEngine e fun x => { x with inj := some w }

/-- PE_INJECT. -/
def execPeInject (door : Initiator) (e : Fin 8) (w : Nat) (s : State) : Host.Outcome State Fault Refusal :=
  .next (atDoor s door (0x1432 + 0x20 * e.val) fun s => peInjectWrite s e (w % 65536))

/-- PE_TX_PUSH. -/
def execPeTxPush (door : Initiator) (e : Fin 8) (w : Word) (s : State) : Host.Outcome State Fault Refusal :=
  .next (atDoor s door (0x142C + 0x20 * e.val) fun s => txPush s e w)

/-- Put the answer of a read where its initiator finds it. -/
def State.answer (s : State) (w : Word) : State := { s with bus := { s.bus with reply := w } }

/-- PE_RX_POP (12 R305): every door may read, and every read has the full effect (19 R466, R468). -/
def execPeRxPop (_door : Initiator) (e : Fin 8) (s : State) : Host.Outcome State Fault Refusal :=
  .next (if s.alive then (rxPop s e).2.answer (rxPop s e).1 else s)

/-- A write of instruction memory (12 R309, R310): accepted when stopped or faulted; at the faulting address it clears the fault. -/
def writeIm (s : State) (e : Fin 8) (n : Nat) (v : Word) : State :=
  if peRuns s e then s.event (PE_EVT_WREJ e)
  else
    let s := s.setWord (0x1580 + 0x10 * e.val + n) v
    if s.get (PE_ST_STATE e) = 3 ∧ s.get (PE_ST_PC e) / 2 = n then setPeState s e 0 else s

/-- PE_IM_WRITE. -/
def execPeImWrite (door : Initiator) (e : Fin 8) (n : Fin 16) (v : Word) (s : State) : Host.Outcome State Fault Refusal :=
  .next (atDoor s door (0x1580 + 0x10 * e.val + n.val) fun s => writeIm s e n v)

/-- A write of a word of the engine's page (12 R289, R304, R309, R312, R314) other than PE_TXQe and PE_INJe. -/
def writePe (s : State) (e : Fin 8) (o : Nat) (v : Word) : State :=
  let a := 0x1420 + 0x20 * e.val + o
  if o = 0 then
    let old := s.word a
    let v := if getBits v 8 4 ≤ 10 then v else setBits v 8 4 (getBits old 8 4)
    let qm := getBits v 0 2
    if peRuns s e then s.event (PE_EVT_WREJ e)
    else if qm = 3 then storeRw s a (setBits v 0 2 (getBits old 0 2))
    else if qm ≠ getBits old 0 2 ∧ (s.get (PE_ST_STATE e) ≠ 0 ∨ s.engines[e].tx ≠ [] ∨ s.engines[e].rx ≠ []) then s.event (PE_EVT_WREJ e)
    else storeRw s a v
  else if o = 1 then (if getBits v 0 24 < 0x100 then s else storeRw s a v)
  else if o = 2 then
    let slot := s.get (PE_MEV_SLOT e)
    let s := storeRw s a (if getBits v 28 4 = 15 then setBits v 28 4 slot else v)
    if s.get (PE_MEV_SLOT e) = slot ∧ s.get (PE_MEV_MODE e) ≠ 0 then s else dropMev s e
  else if 4 ≤ o ∧ o ≤ 8 then
    if peRuns s e then s.event (PE_EVT_WREJ e)
    else
      let s := storeRw s a v
      if o = 7 then s.set (PE_ST_NIN e) 0 else if o = 8 then s.set (PE_ST_NOUT e) 0 else s
  else s

/-- The strobes of the grid and of the second between local times a and b, one CLK tick apart (12 R291), for the rate code r. -/
def strobes (a b r : Nat) : List (Nat × Nat × Nat) :=
  let g := b - b % 8000000000 % interval r
  let z := b - b % 8000000000
  (if a < g ∧ g ≤ b then [(2, g, 2)] else []) ++ (if a < z ∧ z ≤ b then [(3, z, 2)] else [])

/-- An engine's inputs move one tick on (12 R293): pulses and edges come nearer, a visible edge meets the edge search, and the levels of the tick that ended, a
mask, follow. -/
def EngineState.inputs (x : EngineState) (levels : Nat) : EngineState :=
  let seen := x.edges.filter fun p => decide (p.2.2.2 ≤ 1)
  let y := seen.foldl (fun y p => y.edge p.1 p.2.1 p.2.2.1) x
  { y with due := x.due.map fun p => (p.1, p.2.1, p.2.2 - 1), edges := (x.edges.filter fun p => decide (1 < p.2.2.2)).map fun p => (p.1, p.2.1, p.2.2.1, p.2.2.2 - 1),
           levels := (x.levels.2, levels) }

/-- A pin engine in one CLK tick that takes local time from a to b: its inputs move on, the strobes of the tick set out (12 R291), the words written to TX so far may be
taken (12 R305), and the period accumulator gains 256, less the cycle period where it reaches it, which gives the tick an engine cycle (12 R289). -/
def tickEngine (s : State) (b : Nat) (e : Fin 8) : EngineState :=
  let x := s.engines[e].inputs (inputMask s)
  let per := s.get (PE_PER_PER e)
  { x with due := x.due ++ strobes s.now b (s.get (PE_CFG_GRATE e)), txNew := 0, cycle := decide (per ≤ x.acc + 256),
           acc := if per ≤ x.acc + 256 then x.acc + 256 - per else x.acc + 256 }

/-- PE_PULSE_INPUT (12 R291 to R293): the oldest pulse of an input that has become visible reaches the engine's latch. -/
def execPePulseInput (e : Fin 8) (code : Nat) (s : State) : Host.Outcome State Fault Refusal :=
  .next (if !s.alive then s
    else
      match s.engines[e].due.find? fun p => p.1 == code && p.2.2 == 0 with
      | none => s
      | some p => (setLatch s e code p.2.1).modEngine e fun x => { x with due := x.due.erase p })

/-- The Mill-event unit reads a record (12 R312). Its pulse, like every other, is visible two ticks later (R293). -/
def millEvent (s : State) (e : Fin 8) (r : GridRec) : State :=
  let m := s.get (PE_MEV_MODE e)
  if r.rcd.kind ≠ .sample ∨ m = 0 ∨ (m = 2 ∧ r.rcd.value < s.getI (PE_MEV_LEVEL e)) then s
  else
    let s := s.modEngine e fun x => { x with due := x.due ++ [(15, r.t, 2)] }
    if m = 3 then txPush s e (BitVec.ofInt 32 r.rcd.value) else s

/-- PE_MILL_EVENT (12 R312): the oldest record that the Landing delivered to the unit reaches it (01 R30). -/
def execPeMillEvent (e : Fin 8) (s : State) : Host.Outcome State Fault Refusal :=
  .next (if s.alive && peRuns s e then
      match s.engines[e].mev with
      | [] => s
      | r :: rest => millEvent (s.modEngine e fun x => { x with mev := rest }) e r
    else s)

/-- A time step or initial set as the engines see it (12 R291, R313): a time AWAIT completes at once, the interval becomes invalid; an instant of the new base that the counter
now stands on has its strobe. -/
def stepEngines (s : State) : State :=
  (List.finRange 8).foldl (fun s (e : Fin 8) =>
    ((s.event (PE_EVT_TSTEP e)).set (PE_TCD e) 0xFFFFFFFF).modEngine e fun x =>
      { x with prevCap := none, target := x.target.map fun _ => 0, due := x.due ++ strobes (s.now - 1) s.now (s.get (PE_CFG_GRATE e)) }) s

/-- Stop every engine (16 R419), a command of this tick included. -/
def stopEngines (s : State) : State := (List.finRange 8).foldl (fun s e => (peStop s e).modEngine e fun x => { x with gcmd := [] }) s

end Sys2Proof.Machine
end

