-- ==== Sys2Proof/Machine/Cystad.lean ====
section
/-!
DEFINITION. Ports, switch, ring client and the Cystad envelope (14 R341 to R353), live streams (R355 to R358), and capture transfer (R366 to R370).
-/

namespace Sys2Proof.Machine

/-- Replace the network's state. -/
def State.modNet (s : State) (f : NetState → NetState) : State := { s with net := f s.net }

/-- Link events are per port (14 R375). -/
def linkEvent (p : Port) : Field := if p = .a then PORT_EVT_LINKA else PORT_EVT_LINKB

/-- Show the ring state (14 R348). -/
def showRingSt (s : State) : State :=
  let a := linkUp s .a
  let b := linkUp s .b
  let n := if !s.net.mrpOn then 0 else if a && b then 1 else if a || b then 2 else 3
  if s.get PORT_ST_RINGST = n then s else (s.set PORT_ST_RINGST n).event PORT_EVT_RINGCHG

/-- Put a port's bits of PORT_ST (14 R375). -/
def setPort (s : State) (p : Port) (link high an : Bool) (sqi : Nat) : State :=
  let v := bitIf link 5 + bitIf high 4 + bitIf an 3 + sqi % 8
  if p = .a then s.set PORT_ST_A v else ((s.setB PORT_ST_LINKB link).setB PORT_ST_AMPB high).setB PORT_ST_ANB an |>.set PORT_ST_SQIB sqi

/-- Spent credits of every session become unspent, and the chunk frames that wait are withdrawn (14 R346, R369). -/
def reclaim (s : State) : State :=
  withdrawFrames (s.modNet fun n => { n with sessions := n.sessions.map fun x => { x with next := x.ack } }) Payload.isChunk

/-- How often a link change is sent again, and the CLK ticks between, in the recovery profile of 200 ms and in that of 500 ms (14 R347; PRESUMED, log entry 121: IEC 62439-2). -/
def linkRepeats : Nat := 3
def linkGap (fast : Bool) : Nat := (if fast then 20 else 100) * 200000

/-- The link changes that are due again at a CLK tick are sent (14 R347). -/
def repeatLinks (s : State) : State :=
  let due (x : Port × Bool × Nat × Nat) : Bool := decide (x.2.2.2 ≤ s.pwr.ticks)
  let next (x : Port × Bool × Nat × Nat) : Option (Port × Bool × Nat × Nat) :=
    if !due x then some x else if x.2.2.1 ≤ 1 then none else some (x.1, x.2.1, x.2.2.1 - 1, x.2.2.2 + linkGap s.net.mrpFast)
  let l := s.net.again
  let s := s.modNet fun n => { n with again := n.again.filterMap next }
  (l.filter due).foldl (fun s x => if s.net.mrpOn && linkUp s x.1 then s.send x.1.egress 0 (.linkChange x.2.1) else s) s

/-- A link change (14 R343, R369; 03 R76, R87): the event, the ring state, the guard with its reclaim of credits, and the notice to the ring's manager on the
remaining ring port (14 R347). -/
def linkChange (s : State) (p : Port) (up : Bool) : State :=
  let s := showRingSt (s.event (linkEvent p))
  let s := openGuard (if up && s.bit TIME_ST_GUARD then s else reclaim s)
  let s := setDelays (s.modTime fun t => setReq t p none) p []
  if s.net.mrpOn then
    let s := s.modNet fun n => { n with again := (n.again.filter fun x => x.1 != p.other) ++ [(p.other, up, linkRepeats, s.pwr.ticks + linkGap s.net.mrpFast)] }
    if linkUp s p.other then s.send p.other.egress 0 (.linkChange up) else s
  else s

/-- A port reports link down (14 R343, R344); its frames are lost (R346), the masters heard on it are gone with it (03 R78). -/
def portDown (s : State) (p : Port) : State :=
  let s := (setPort s p false false false 0).bump (if p = .a then PORT_LCNT_LDOWNA else PORT_LCNT_LDOWNB) 1
  let s := reselect ((losePort s p).modTime fun t => forgetMasters t p)
  linkChange (custodyLinkDown (s.modNet fun n => { n with fdb := [] }) p) p false

/-- The amplitude of a link with a partner that allows the ones in ab, bit 1 2.4 Vpp and bit 0 1.0 Vpp (14 R341, R342): whether it is 2.4 Vpp; none when the two ends share
none. A port that forces its amplitude links with a partner of the same one. -/
def linkAmp (s : State) (p : Port) (ab : Nat) : Option Bool :=
  let own := s.get (if p = .a then PORT_CFG_AMPA else PORT_CFG_AMPB)
  let own := if s.bit PORT_CFG_ANEN then own else if own.testBit 1 then 2 else 1
  if own.testBit 1 && ab.testBit 1 then some true else if own.testBit 0 && ab.testBit 0 then some false else none

/-- The first link up starts the time that Coppice listens (15 R392 step 1). -/
def firstLink (s : State) : State :=
  if s.mode = 4 ∧ s.get CP_ST_STEP = 1 ∧ s.tally.listenAt = none then s.modTally fun t => { t with listenAt := some s.pwr.ticks } else s

/-- PORT_LINK_UP (14 R342, R343): a partner that allows the amplitudes ab is there; the link comes up with one they share, and the signal quality is sqi. -/
def execPortLinkUp (port : Port) (ab sqi : Nat) (s : State) : Host.Outcome State Fault Refusal :=
  .next (match linkAmp s port ab with
    | none => s
    | some high =>
      if s.alive && !linkUp s port && !(port == .b && s.pwr.serialB) then linkChange (setPort s port true high (s.bit PORT_CFG_ANEN) sqi) port true |> firstLink else s)

/-- PORT_LINK_DOWN. -/
def execPortLinkDown (port : Port) (s : State) : Host.Outcome State Fault Refusal :=
  .next (if s.alive && linkUp s port then portDown s port else s)

/-- A write of PORT_CFG (14 R342, R375): an amplitude field of 0 is ignored; a port whose setting changes renegotiates. -/
def writePortCfg (s : State) (v : Word) : State :=
  let old := s.word 0x301
  let v := if getBits v 2 2 = 0 then setBits v 2 2 (getBits old 2 2) else v
  let v := if getBits v 0 2 = 0 then setBits v 0 2 (getBits old 0 2) else v
  let s := storeRw s 0x301 v
  let an := getBits v 4 1 != getBits old 4 1
  let s := if (an || getBits v 0 2 != getBits old 0 2) && linkUp s .a then portDown s .a else s
  if (an || getBits v 2 2 != getBits old 2 2) && linkUp s .b then portDown s .b else s

/-- PORT_CFG_WRITE. -/
def execPortCfgWrite (door : Initiator) (v : Word) (s : State) : Host.Outcome State Fault Refusal :=
  .next (atDoor s door 0x301 fun s => writePortCfg s v)

/-- Learn a source address at a CLK tick (14 R344): 512 entries; a full database learns no new one. -/
def learn (l : List FdbEntry) (mac : Nat) (p : Port) (t : Nat) : List FdbEntry :=
  let rest := l.filter fun e => e.mac != mac
  if rest.length < 512 then rest ++ [⟨mac, p, t⟩] else l

/-- The queue of a frame, the first row that matches (14 R345, 03 R80): PTP and MRP, Blazes, management, streams and every other frame. -/
def Frame.inQueue (f : Frame) : Nat :=
  if f.etype = 0x88F7 ∨ f.etype = 0x88E3 then 0
  else match f.cystad with
    | none => 3
    | some t => typeQueue t

/-- Forward a frame to an egress port with link (14 R344, R346). -/
def forwardTo (s : State) (p : Port) (f : Frame) : State := if linkUp s p then transit s p f.inQueue f.len (.forward f) else s

/-- The MAC address of an IPv4 group (RFC 1112) and of an IPv6 group (RFC 2464). -/
def groupMac (v6 : Bool) (g : Nat) : Nat := if v6 then 0x333300000000 + g % 2 ^ 32 else 0x01005E000000 + g % 2 ^ 23

/-- The peer stations that cross-spectrum setups name (13 R326, R339). -/
def namedPeers (s : State) : List Nat :=
  (s.an.setups.toList.filter fun x => x.defined && x.ref == 0 && x.func == 7).map fun x => ((x.tags.find? fun p => p.1 == 0x20).map (·.2)).getD 0

/-- The group addresses that port C has joined (14 R349; the link-layer ones of the IPv6, PTP and MRP standards PRESUMED, log entry 121). -/
def joinedMacs (s : State) : List Nat :=
  let stream := (namedPeers s).flatMap fun n => [groupMac true (s.net.streamGroup.2 + n), groupMac false (s.net.streamGroup.1 + n)]
  [0xFFFFFFFFFFFF, groupMac true 1, groupMac false 0xE0000001, groupMac true s.net.blazeGroup.2, groupMac false s.net.blazeGroup.1,
   0x3333FF000000 + ownMac s % 2 ^ 24, 0x3333FF000000 + s.net.ip6.1 % 2 ^ 24, 0x011B19000000, 0x01154E000002] ++ stream

/-- A frame stops at port C (14 R344): a custody message, or one to a group address that no bridge forwards, 01-80-C2-00-00-00 to -0F. -/
def Frame.local (f : Frame) : Bool := (f.cystad.any fun t => decide (0x40 ≤ t) && decide (t ≤ 0x44)) || f.dst / 16 == 0x0180C200000

/-- The switch handles a frame received on a port (14 R344 to R346). -/
def switchFrame (s : State) (p : Port) (f : Frame) : State :=
  if !f.fcsOk ∨ 1522 < f.len then s.bump (if p = .a then SW_ERR_A else SW_ERR_B) 1
  else
    let s := s.modNet fun n => { n with fdb := learn n.fdb f.src p s.pwr.ticks }
    let toC (s : State) : State := s.send .c f.inQueue (.forward f)
    if f.local then toC s
    else if f.group then (if (joinedMacs s).contains f.dst then toC (forwardTo s p.other f) else forwardTo s p.other f)
    else if f.dst = ownMac s then toC s
    else
      match s.net.fdb.find? fun e => e.mac == f.dst with
      | some e => if e.port = p then s else forwardTo s e.port f
      | none => toC (forwardTo s p.other f)

/-- SWITCH_FORWARD. -/
def execSwitchForward (port : Port) (f : Frame) (s : State) : Host.Outcome State Fault Refusal :=
  .next (if s.alive && linkUp s port then switchFrame s port f else s)

/-- FILTERING_DATABASE_AGEING (14 R344): an entry not refreshed for 300 s. -/
def execFilteringDatabaseAgeing (mac : Nat) (s : State) : Host.Outcome State Fault Refusal :=
  .next (if s.alive then s.modNet fun n => { n with fdb := n.fdb.filter fun e => e.mac != mac || !passed s e.at_ 300 } else s)

/-- MRP_TOPOLOGY_CHANGE (14 R347): a frame of the module's domain on a ring port; its interval in ms starts. -/
def execMrpTopologyChange (port : Port) (uuid ms : Nat) (s : State) : Host.Outcome State Fault Refusal :=
  .next (if s.alive && s.net.mrpOn && linkUp s port && uuid == s.net.mrpUuid then
      s.modNet fun n => { n with topo := some (s.pwr.ticks + ms * 200000) }
    else s)

/-- MRP_FLUSH (14 R347, R348): the interval has ended. -/
def execMrpFlush (s : State) : Host.Outcome State Fault Refusal :=
  .next (if s.alive && s.net.topo.any (fun t => decide (t ≤ s.pwr.ticks)) then
      ((s.modNet fun n => { n with topo := none, fdb := [] }).event PORT_EVT_TOPO).bump PORT_LCNT_TOPOCNT 1
    else s)

/-- ICMP_ECHO (14 R349): answered up to 10 times in a second, in the version and to the address it came from. -/
def execIcmpEcho (port : Port) (src : Peer) (s : State) : Host.Outcome State Fault Refusal :=
  .next (if !s.live then s
    else
      let n := if s.net.echoSec = s.second then s.net.echoes else 0
      if n < 10 then (s.modNet fun x => { x with echoSec := s.second, echoes := n + 1 }).sendIp port.egress 3 { answerHead s src with ports := none } .echoReply else s)

/-- ADDRESS_QUERY (14 R349): kind 0 ARP, 1 neighbour discovery, 2 IGMPv2, 3 MLDv2; the IPv4 ones only with an IPv4 address. ARP carries no IP packet. -/
def execAddressQuery (port : Port) (kind : Nat) (src : Peer) (s : State) : Host.Outcome State Fault Refusal :=
  .next (if s.live && decide (kind < 4) && (kind % 2 == 1 || s.get NET_IP4_ADDR != 0) then
      (if kind = 0 then s.send port.egress 3 (.addressReply kind) else s.sendIp port.egress 3 { answerHead s src with ports := none } (.addressReply kind))
    else s)

/-- A SENDER value is a host's (14 R350). -/
def isHost (sender : Nat) : Bool := sender.testBit 31

/-- The place of a host in the running Tally's host list (15 R380). -/
def hostIndex (s : State) (sender : Nat) : Option Nat := s.tally.hosts.findIdx? fun h => h.sender == sender

/-- Message types that only a listed host may send (14 R353). -/
def hostType (typ : Nat) : Bool := [0x10, 0x20, 0x30, 0x32, 0x35].contains typ

/-- The replay state of a sender (14 R353). -/
def replayOf (s : State) (sender : Nat) : Option Replay := s.net.replay.find? fun r => r.sender == sender

/-- MSEQ fails the replay check (14 R353). -/
def replayed (s : State) (d : Datagram) : Bool :=
  match replayOf s d.sender with
  | none => false
  | some r => r.seen.contains d.mseq || decide (d.mseq + 64 ≤ r.high)

/-- The host-time check fails (14 R353): more than 10 s from local time while LOCKED. -/
def hostTimeBad (s : State) (d : Datagram) : Bool :=
  isHost d.sender && s.locked && decide (10000000000 < absNat ((d.mseq : Int) - (s.now / 8 : Nat)))

/-- Remember an accepted MSEQ at a CLK tick (14 R353): 256 senders, of which the oldest module's entry makes room. -/
def acceptMseq (l : List Replay) (d : Datagram) (t : Nat) : List Replay :=
  let old := l.find? fun r => r.sender == d.sender
  let high := match old with | none => d.mseq | some r => max r.high d.mseq
  let seen := d.mseq :: (match old with | none => [] | some r => r.seen.filter fun m => decide (high < m + 64))
  let rest := l.filter fun r => r.sender != d.sender
  let rest := if rest.length < 256 then rest
    else match rest.find? fun r => !isHost r.sender with
      | none => rest
      | some o => rest.filter fun r => r.sender != o.sender
  rest ++ [⟨d.sender, high, seen, t⟩]

/-- A check failed: its event and its count (14 R353, R375). -/
def cyFail (s : State) (evt cnt : Field) : State := (s.event evt).bump cnt 1

/-- The checks of 14 R353 in their order: whether the datagram is accepted, and the state with the failure counted or the MSEQ remembered. A module without a
line key accepts no message (R351). -/
def cyCheck (s : State) (d : Datagram) : Bool × State :=
  if !s.live || s.keys.lineKey.isNone then (false, s)
  else if !d.formOk || (hostType d.typ && (!isHost d.sender || (hostIndex s d.sender).isNone)) then (false, cyFail s CY_EVT_BADMSG CY_CNT_BADMSG)
  else if !d.authOk (s.keys.lineKey.getD 0) then (false, cyFail s CY_EVT_AUTHFAIL CY_CNT_AUTHFAIL)
  else if replayed s d || hostTimeBad s d then (false, cyFail s CY_EVT_REPLAY CY_CNT_REPLAY)
  else if !d.bodyOk (s.keys.lineKey.getD 0) then (false, cyFail s CY_EVT_BADMSG CY_CNT_BADMSG)
  else (true, s.modNet fun n => { n with replay := acceptMseq n.replay d s.pwr.ticks })

/-- Where a host's request came from, to which its answers go (14 R349). -/
def notePeer (s : State) (d : Datagram) : State := if isHost d.sender then s.modHost d.sender fun h => { h with peer := some d.src } else s

/-- The body of a datagram under the module's line key (14 R351). -/
def plain (s : State) (d : Datagram) : List Byte := d.body (s.keys.lineKey.getD 0)

/-- Receive a message of type typ (14 R353): f on its body and the state after the checks when they pass. -/
def receive (s : State) (d : Datagram) (typ : Nat) (f : List Byte → State → State) : State :=
  if d.typ = typ then (if (cyCheck s d).1 then f (plain s d) (notePeer (cyCheck s d).2 d) else (cyCheck s d).2) else s

/-- CYSTAD_DATAGRAM_DISCARD (14 R353): a datagram that fails a check. -/
def execCystadDatagramDiscard (d : Datagram) (s : State) : Host.Outcome State Fault Refusal :=
  .next (if (cyCheck s d).1 then s else (cyCheck s d).2)

/-- REPLAY_ENTRY_AGE (14 R353): a module sender's entry, after 1 h without a message. -/
def execReplayEntryAge (sender : Nat) (s : State) : Host.Outcome State Fault Refusal :=
  .next (if s.alive && !isHost sender then s.modNet fun n => { n with replay := n.replay.filter fun r => r.sender != sender || !passed s r.at_ 3600 } else s)

/-- BLAZE_MESSAGE_RECEIVE (11 R282, 14 R361): the Blazes of the message in order, at most 16. -/
def execBlazeMessageReceive (d : Datagram) (s : State) : Host.Outcome State Fault Refusal :=
  .next (receive s d 3 fun l s => (blazesOf l).foldl peerBlaze s)

/-- The overhead H of a stream publication: IPv4 when the module has an IPv4 address, IPv6 otherwise (14 R349, R355). -/
def overhead (s : State) : Nat := if s.get NET_IP4_ADDR = 0 then 146 else 126

/-- The records of a publication for rate code r (14 R355). -/
def pubRecords (s : State) (r : Nat) : Nat := min 348 (max 1 (102400 * s.get CY_CFG_MAXWAIT / (1000 * 2 ^ r)))

/-- The rate of a stream of n records a publication at code r: numerator and denominator, in bit/s (14 R355). -/
def streamRate (s : State) (r n : Nat) : Nat × Nat := (102400 * 8 * (4 * n + overhead s), 2 ^ r * n)

/-- Stream entry k is admitted (14 R375). -/
def admitted (s : State) (k : Nat) : Bool := s.get (CY_STR_ST k) == 1

/-- The sum of the admitted rates of the entries without DEMAND other than k, as a fraction (14 R355). -/
def sharedRate (s : State) (k : Nat) : Nat × Nat :=
  (List.finRange 16).foldl (fun (a : Nat × Nat) (j : Fin 16) =>
    if j.val ≠ k ∧ admitted s j ∧ !s.bit (CY_STR_DEMAND j) then
      let q := streamRate s s.net.streams[j].code s.net.streams[j].n
      (a.1 * q.2 + q.1 * a.2, a.2 * q.2)
    else a) (0, 1)

/-- Show the admitted rate in kb/s, rounded up (14 R375). -/
def showAdmit (s : State) : State := s.set CY_USE_ADMIT (ceilDiv (sharedRate s 16).1 (1000 * (sharedRate s 16).2))

/-- The slot a stream entry names. -/
def streamSlot (s : State) (k : Nat) : Fin 16 := Fin.ofNat 16 (s.get (CY_STR_SLOT k))

/-- The result of admission as ST reads it (14 R355): 1 admitted, 5 no host, 3 DEMAND, 2 share. -/
def admission (s : State) (k : Fin 16) (host : Option Nat) : Nat :=
  let r := s.slots[streamSlot s k].rate
  let q := streamRate s r (pubRecords s r)
  if s.bit (CY_STR_DEST k) && host.isNone then 5
  else if s.bit (CY_STR_DEMAND k) then
    if ((List.range 16).any fun j => j != k.val && admitted s j && s.bit (CY_STR_DEMAND j)) || decide (s.get CY_CFG_DEMAND * 100000 * q.2 < q.1) then 3 else 1
  else
    let a := sharedRate s k
    if a.1 * q.2 + q.1 * a.2 ≤ s.get CY_CFG_SHARE * 100000 * (a.2 * q.2) then 1 else 2

/-- An admitted entry ends (14 R356): it takes what still waits for it, and its last publication carries END. -/
def finishPub (s : State) (k : Fin 16) : State :=
  let s := takeRecords s (streamSlot s k) 2
  closePub s k true false s.slots[streamSlot s k].queued

/-- Admit entry k, now or again at a boundary of its slot (14 R355, R356, R374): what is pending closes at its old code; an admitted entry that fails is stopped, and its last
publication carries END. -/
def admitStream (s : State) (k : Fin 16) (host : Option Nat) : State :=
  let r := s.slots[streamSlot s k].rate
  let n := pubRecords s r
  let st := admission s k host
  let was := admitted s k
  let q := streamRate s r n
  let s := if !was then s else if st = 1 then closePub s k false false s.slots[streamSlot s k].queued else finishPub s k
  let s := s.modStream k fun x => { x with host := host, n := n, code := r }
  let s := s.set (CY_STR_RATE k) (ceilDiv q.1 (1000 * q.2))
  if st = 1 then showAdmit (s.set (CY_STR_ST k) 1)
  else showAdmit ((s.set (CY_STR_ST k) (if was then 4 else st)).event CY_EVT_STRREF)

/-- Disable entry k (14 R356): what is pending goes with END. -/
def stopStream (s : State) (k : Fin 16) : State :=
  let s := if admitted s k then finishPub s k else s
  showAdmit ((s.set (CY_STR_ST k) 0).set (CY_STR_RATE k) 0)

/-- A write of CY_STRk on behalf of a host (14 R355): a change of SLOT, DEST or DEMAND while EN is 1 is a disable followed by an enable. -/
def writeStream (s : State) (k : Fin 16) (v : Word) (host : Option Nat) : State :=
  let a := 0x330 + k.val
  let was := s.bit (CY_STR_EN k)
  let changed := (getBits (s.word a) 24 7 != getBits v 24 7 &&
    (getBits (s.word a) 24 4 != getBits v 24 4 || getBits (s.word a) 29 2 != getBits v 29 2)) || was != v.getLsbD 31
  if !changed then s
  else
    let s := if was then stopStream s k else s
    let s := storeRw s a v
    if v.getLsbD 31 then admitStream s k host else s

/-- The host a door speaks for. -/
def doorHost (s : State) (door : Initiator) : Option Nat :=
  match door with
  | .host h => (s.tally.hosts[h]?).map (·.sender)
  | _ => none

/-- CY_STR_WRITE. -/
def execCyStrWrite (door : Initiator) (k : Fin 16) (v : Word) (s : State) : Host.Outcome State Fault Refusal :=
  .next (atDoor s door (0x330 + k.val) fun s => writeStream s k v (doorHost s door))

/-- The bytes of the share that a port started in the last 100 ms or has in its queue (14 R358). -/
def shareLoad (s : State) (p : Port) : Nat :=
  ((recentFrames s p).map (·.2)).sum + ((s.tx.filter fun f => f.port == p.egress && f.share).map wireLen).sum

/-- The share allows bytes more on ports (14 R358): within SHARE × 1 250 + 3 036 over 100 ms on each. -/
def shareAllows (s : State) (ps : List Port) (bytes : Nat) : Bool := ps.all fun p => decide (shareLoad s p + bytes ≤ s.get CY_CFG_SHARE * 1250 + 3036)

/-- A publication of an admitted entry without DEMAND waits, closed or with its n records there, which goes before feature publications and capture chunks (14 R358). -/
def streamsWait (s : State) : Bool := (List.finRange 16).any fun (k : Fin 16) =>
  s.net.streams[k].ready.any (fun p => !p.demand) ||
    (admitted s k && !s.bit (CY_STR_DEMAND k) && decide (s.net.streams[k].n ≤ s.net.streams[k].recs.length))

/-- The bytes of a message on the wire (14 R355, R358). -/
def messageLen (h : IpHead) (x : Payload) : Nat := max 64 (x.bytes.length + envelope h.v6) + 20

/-- A feature publication goes to the module's stream group (14 R349, R360; log entry 119). -/
def featurePay (s : State) (l : List FeatEntry) : Payload := .feature (s.get BZ_CFG_STN) s.flash.run l

/-- The oldest feature message that waits is sent when the share allows (14 R358). -/
def sendFeature (s : State) : State :=
  match s.net.features with
  | [] => s
  | m :: rest =>
    if !s.live || s.keys.lineKey.isNone || streamsWait s || !shareAllows s bothPorts (messageLen (streamGroupHead s) (featurePay s m)) then s
    else message (s.modNet fun n => { n with features := rest }) bothPorts (streamGroupHead s) (featurePay s m) true

/-- A feature message joins those that wait, and goes at once when the share allows and none waits before it (14 R358, R360). -/
def queueFeature (s : State) (m : List FeatEntry) : State :=
  let alone := s.net.features.isEmpty
  let s := s.modNet fun n => { n with features := n.features ++ [m] }
  if alone then sendFeature s else s

/-- The bytes of the share in the last grid second on a port (14 R375). -/
def lastShare (s : State) (p : Port) : Nat :=
  let u := s.shareUse p
  if u.sec = s.second then u.prev else if u.sec + 1 = s.second then u.bytes else 0

/-- CY_USE.MEAS (14 R375): the share used in the last grid second, in kb/s, of the port with more. -/
def shareMeasure (s : State) : Nat := min 0xFFFF (max (lastShare s .a) (lastShare s .b) * 8 / 1000)

/-- Close the pending records of an entry at n (14 R356): the rest stays pending at its grid time. -/
def closeFull (s : State) (k : Fin 16) : State :=
  let x := s.net.streams[k]
  if x.n ≤ x.recs.length then
    s.modStream k fun x => { x with ready := x.ready ++ [makePub s k x.first x.t (x.recs.take x.n) x.code false false], first := x.first + x.n,
                                    t := x.t.map fun t => t + x.n * interval x.code, recs := x.recs.drop x.n }
  else s

/-- The destination of a publication (14 R349, R355): its host, or the module's stream group; and the ports it leaves by. -/
def pubHead (s : State) (p : Pub) : IpHead := (p.host.map (listedHead s)).getD (streamGroupHead s)
def pubPorts (s : State) (p : Pub) : List Port := match p.host with
  | some h => hostPorts s h bothPorts
  | none => bothPorts

/-- The message of a publication (14 R357). -/
def pubPay (s : State) (k : Fin 16) (p : Pub) : Payload := .stream k (s.get BZ_CFG_STN) p.host p.slot p.rate p.fin p.step s.flash.run p.ssn p.recs p.t

/-- Send entry k's oldest closed publication (14 R357). -/
def sendPub (s : State) (k : Fin 16) : State :=
  match s.net.streams[k].ready with
  | [] => s
  | p :: rest => message (s.modStream k fun x => { x with ready := rest }) (pubPorts s p) (pubHead s p) (pubPay s k p) (!p.demand)

/-- Entry k's oldest closed publication may go now: it stands outside the share, or the share allows it (14 R358). -/
def pubAllowed (s : State) (k : Fin 16) : Bool :=
  match s.net.streams[k].ready with
  | [] => false
  | p :: _ => p.demand || shareAllows s (pubPorts s p) (messageLen (pubHead s p) (pubPay s k p))

/-- Entry k's oldest publication goes when it may. -/
def trySend (s : State) (k : Fin 16) : State := if pubAllowed s k then sendPub s k else s

/-- STREAM_PUBLICATION (14 R356, R358): a publication that has closed, or closes now at n records, is sent when the share allows. -/
def execStreamPublication (k : Fin 16) (s : State) : Host.Outcome State Fault Refusal :=
  .next (if s.live && s.keys.lineKey.isSome then trySend (if s.net.streams[k].ready.isEmpty then closeFull s k else s) k else s)

/-- The session with an identifier. -/
def sessionOf (s : State) (sid : Nat) : Option Session := s.net.sessions.find? fun x => x.sid == sid

/-- Replace a session. -/
def State.modSession (s : State) (sid : Nat) (f : Session → Session) : State :=
  s.modNet fun n => { n with sessions := n.sessions.map fun x => if x.sid = sid then f x else x }

/-- Show a session's credits (14 R375). -/
def showSession (s : State) (x : Session) : State := (s.set (CY_CAP_OUT x.c) (x.gtot - x.ack)).set (CY_CAPA_ACK x.c) x.ack

/-- The anchors of a capture against its chunk numbers (14 R366): chunk, slot, rate code, SSN and grid time of the first block of every captured slot and of every block that
has an anchor of its ring (10 R257). -/
def chunkAnchors (k : Capture) : List (Nat × Nat × Nat × Nat × Nat) :=
  let l := chunkBlocks k
  (List.range l.length).filterMap fun j =>
    match l[j]? with
    | none => none
    | some (i, b) =>
      let first := j == 0 || (l[j - 1]?).all fun p => p.1 != i
      if first || b.anchored then some (4 * j, i, b.rate, b.ssn, b.t) else none

/-- A descriptor's anchors in parts of up to 58 (14 R366): one part at least. -/
def anchorParts (l : List (Nat × Nat × Nat × Nat × Nat)) : List (List (Nat × Nat × Nat × Nat × Nat)) :=
  (List.range (max 1 (ceilDiv l.length 58))).map fun k => (l.drop (58 * k)).take 58

/-- The result of a capture open (14 R366). -/
def openResult (s : State) (c : Fin 16) : Nat :=
  if !s.bit DK_ST_ON then 4
  else if s.get (DK_CAP_STATE c) = 3 then 2
  else if s.get (DK_CAP_STATE c) ≠ 2 then 1
  else if (takeLease s).isNone then 3
  else 0

/-- Answer a host on the port given where its address has not been learnt (14 R344, R349). -/
def answerHost (s : State) (p : Port) (host : Nat) (x : Payload) : State := message s (hostPorts s host [p]) (hostHead s host) x false

/-- Open a session on capture c for a host (14 R366): the descriptor, the lease, and the session's registers. -/
def openSession (s : State) (p : Port) (host : Nat) (c : Fin 16) : State :=
  let res := openResult s c
  match (if res = 0 then takeLease s else none) with
  | none =>
    let s := if res = 3 then s.bump DK_CNT_LSREF 1 else s
    answerHost s p host (.descriptor host c res 0 false false 0 1 0 0 0 [])
  | some l =>
    let k := s.deck.caps[c]
    let sid := s.net.nextSid
    let s := (grantLease s l 2 3 0 c { total := captureRecords k }).set (DK_CAP_STATE c) 3
    let s := s.modNet fun n => { n with nextSid := (sid + 1) % 65536, sessions := n.sessions ++ [⟨sid, c, host, l, 0, 0, 0, 4 * k.blocks.length⟩] }
    let s := (((s.set (CY_CAP_STATE c) 1).set (CY_CAP_SID c) sid).set (CY_CAP_OUT c) 0).set (CY_CAPA_ACK c) 0
    let parts := anchorParts (chunkAnchors k)
    parts.zipIdx.foldl (fun s q =>
      answerHost s p host
        (.descriptor host c 0 sid (s.bit (DK_CAP_SHORT c)) (s.bit (DK_CAP_STEP c)) q.2 parts.length (4 * k.blocks.length) k.mask k.tb q.1)) s

/-- CAPTURE_OPEN (14 R366): the capture in byte 0; there are 16. -/
def execCaptureOpen (port : Port) (d : Datagram) (s : State) : Host.Outcome State Fault Refusal :=
  .next (receive s d 0x30 fun l s =>
    if h : beAt l 0 1 < 16 then openSession s port d.sender ⟨beAt l 0 1, h⟩
    else answerHost s port d.sender (.descriptor d.sender (beAt l 0 1) 1 0 false false 0 1 0 0 0 []))

/-- Take a credit message (14 R367) for session x. -/
def takeCredit (s : State) (x : Session) (gtot ack : Nat) (rewind : Bool) : State :=
  let viol (s : State) : State := cyFail s CY_EVT_CREDVIOL CY_CNT_CREDVIOL
  if x.next < ack then viol s
  else
    let a := max ack x.ack
    let g := max gtot x.gtot
    let s := if a + 64 < g then viol s else s
    let y := { x with ack := a, gtot := min g (a + 64), next := if rewind then a else x.next }
    let s := showSession (s.modSession x.sid fun _ => y) y
    if h : x.lease < 32 then
      let l : Fin 32 := ⟨x.lease, h⟩
      let k := s.deck.caps.toList.getD x.c {}
      let s := (renewLease s l).modLease l fun i => { i with got := i.total - recordsFrom k a }
      if a = x.total then
        let s := closeLease (endSession s y 0) l
        if h : x.c < 16 then (if k.auto then releaseCapture s ⟨x.c, h⟩ else s) else s
      else s
    else s

/-- A credit message for an ended or unknown session (14 R370): a capture end with WHY 1, with ACK and the records left of an ended one that its capture's registers still name.
What its fields hold for an unknown one is not stated: free values (log entry 24). -/
def endUnknown (s : State) (p : Port) (host sid : Nat) : State :=
  match (List.finRange 16).find? fun (c : Fin 16) => s.get (CY_CAP_STATE c) == 2 && s.get (CY_CAP_SID c) == sid with
  | some c => answerHost s p host (.capEnd sid c 1 (s.get (CY_CAPA_ACK c)) s.net.left[c])
  | none =>
    let a := s.freeWord.1.toNat
    let b := s.freeWord.2.freeWord
    let c := b.2.freeWord
    answerHost c.2 p host (.capEnd sid (c.1.toNat % 256) 1 a b.1.toNat)

/-- CAPTURE_CREDIT. -/
def execCaptureCredit (port : Port) (d : Datagram) (s : State) : Host.Outcome State Fault Refusal :=
  .next (receive s d 0x32 fun l s =>
    match sessionOf s (beAt l 0 2) with
    | none => endUnknown s port d.sender (beAt l 0 2)
    | some x => takeCredit s x (beAt l 4 4) (beAt l 8 4) ((beAt l 2 1).testBit 0))

/-- The slot, first SSN and records of chunk n of a capture (14 R368). -/
def chunkOf (k : Capture) (n : Nat) : Nat × Nat × List Word :=
  match (chunkBlocks k)[n / 4]? with
  | none => (0, 0, [])
  | some (i, b) =>
    let first := 256 * (n % 4)
    let ws := (b.recs.drop first).take 256
    (i, (if ws.isEmpty then 0 else b.ssn + first), ws)

/-- CAPTURE_CHUNK_SEND (14 R358, R368): chunk NEXT of the session, when it is granted and the share allows. -/
def execCaptureChunkSend (sid : Nat) (s : State) : Host.Outcome State Fault Refusal :=
  .next (if !s.live || s.keys.lineKey.isNone then s
    else match sessionOf s sid with
      | none => s
      | some x =>
        let (i, ssn, ws) := chunkOf (s.deck.caps.toList.getD x.c {}) x.next
        let ps := hostPorts s x.host bothPorts
        if decide (x.next < min x.gtot x.total) && !streamsWait s && shareAllows s ps (messageLen (hostHead s x.host) (.chunk sid i x.next ssn ws)) then
          message (s.modSession sid fun x => { x with next := x.next + 1 }) ps (hostHead s x.host) (.chunk sid i x.next ssn ws) true
        else s)

/-- CAPTURE_CLOSE (14 R370): the lease is released, the capture stays held. -/
def execCaptureClose (_port : Port) (d : Datagram) (s : State) : Host.Outcome State Fault Refusal :=
  .next (receive s d 0x35 fun l s =>
    match sessionOf s (beAt l 0 2) with
    | none => s
    | some x =>
      let s := endSession s x 2
      if h : x.lease < 32 then closeLease s ⟨x.lease, h⟩ else s)

end Sys2Proof.Machine
end

