-- ==== Sys2Proof/Machine/Spectral.lean ====
section
/-!
DEFINITION. The numbers of the analysis functions (13 R321 to R327) over the records of a block: exact results of the block's sample values, with angles and weights in
2^-64, rounded once to binary32 (log entry 118).
-/

namespace Sys2Proof.Machine

/-- A finite binary32 value in units of 2^-149. -/
def f32 (w : Nat) : Option Int :=
  let e := w / 2 ^ 23 % 256
  let m := w % 2 ^ 23
  if e = 255 then none
  else
    let a : Int := (if e = 0 then m else (2 ^ 23 + m) * 2 ^ (e - 1) : Nat)
    some (if w.testBit 31 then -a else a)

/-- The binary32 nearest to num / den, ties to even (log entry 26); den is positive. -/
def toF32 (num : Int) (den : Nat) : Word :=
  let a := absNat num
  let s : Nat := if num < 0 then 2 ^ 31 else 0
  if a = 0 then 0
  else
    let e0 : Int := (Nat.log2 a : Int) - (Nat.log2 den : Int)
    let e : Int := if a * 2 ^ (-e0).toNat < den * 2 ^ e0.toNat then e0 - 1 else e0
    let e := max e (-126)
    let sh := 23 - e
    let q := (roundEven (a * 2 ^ sh.toNat : Nat) (den * 2 ^ (-sh).toNat : Nat)).toNat
    let v := (e + 126).toNat * 2 ^ 23 + q
    BitVec.ofNat 32 (s + min v 0x7F800000)

/-- The whole part of a square root. -/
def root (x : Nat) : Nat := sqrtBits x 0 (Nat.log2 x / 2 + 1)

/-- The root of num / den, in 2^-96. -/
def rootFix (num den : Nat) : Nat := root (num * 2 ^ 192 / den)

/-- A LSB of slot i's records in the base unit of 13 R321, as a fraction (04 R96, 06 R152): g on W, L and Q, °/s on G, on AUX V or °C. -/
def unitNum (i : Nat) : Nat := if i < 3 then 50 else if 6 ≤ i ∧ i < 9 then 500 else 1
def unitDen (i : Nat) (probe : Bool) : Nat := if i = 10 ∧ probe then 1000 else 1000000

/-- The value of a sample record's word (08 R213). -/
def wordValue (w : Word) : Int := signed (getBits w 8 24) 24

/-- The values of a block. -/
def blockValues (l : List HistRec) : List Int := l.map fun r => wordValue r.w

/-- The greatest of a list of magnitudes. -/
def largestOf (l : List Int) : Nat := l.foldl (fun m x => max m (absNat x)) 0

/-- The sum of the k-th powers. -/
def powerSum (k : Nat) (l : List Int) : Int := (l.map (· ^ k)).sum

/-- n times the deviation of each value from the mean. -/
def deviations (l : List Int) : List Int := l.map fun x => l.length * x - l.sum

/-- Output j of the feature set (13 R321): mean, RMS after mean removal, peak of the deviation, crest factor, kurtosis. The last two have no stated result for a block
whose values are all equal: free values (log entry 118). -/
def featureValue (l : List Int) (un ud j : Nat) : Word :=
  let n := l.length
  let d := deviations l
  let v := (powerSum 2 d).toNat
  let p := largestOf d
  if j = 0 then toF32 (l.sum * un) (n * ud)
  else if j = 1 then toF32 (rootFix v n * un) (n * ud * 2 ^ 96)
  else if j = 2 then toF32 (p * un) (n * ud)
  else if v = 0 then Config.noResult 1 j
  else if j = 3 then toF32 (p * 2 ^ 96) (rootFix v n)
  else toF32 (powerSum 4 d * n) (v * v)

/-- cos(2πm/N) and sin(2πm/N) in 2^-64. -/
def turnCos (m N : Nat) : Int :=
  let p := m % N * 4
  let a := piFix * (p % N) / (2 * N)
  match p / N with
  | 0 => cosFix a
  | 1 => -sinFix a
  | 2 => -cosFix a
  | _ => sinFix a
def turnSin (m N : Nat) : Int := turnCos (4 * m + 3 * N) (4 * N)

/-- The coefficients of the flat-top window in 10^-9 (PRESUMED, log entry 130): the five-term window of common use, whose noise bandwidth is 3.770 and which reads within 0.01 dB
(13 R323). -/
def flatTopTerms : List Nat := [215578950, 416631580, 277263158, 83578947, 6947368]

/-- Coefficient j of the flat-top window against its first one, in 2^-64. -/
def flatTop (j : Nat) : Int := (-1) ^ j * ((flatTopTerms.getD j 0 * 2 ^ 64 / flatTopTerms.headD 1 : Nat) : Int)

/-- Weight n of a window of N points, in 2^-64 (13 R317): rectangular, Hann, flat-top. -/
def windowWeight (win N n : Nat) : Int :=
  if win = 0 then 2 ^ 64
  else if win = 1 then (2 ^ 64 - turnCos n N) / 2
  else 2 ^ 64 + ([1, 2, 3, 4].map fun j => flatTop j * turnCos (j * n) N / 2 ^ 64).sum

/-- The window's noise bandwidth in 1/1 000 lines (13 R323). -/
def windowBand (win : Nat) : Nat := if win = 0 then 1000 else if win = 1 then 1500 else 3770

/-- The weights of a window, and a block under them. -/
def windowWeights (win N : Nat) : List Int := (List.range N).map (windowWeight win N)
def windowed (w l : List Int) : List Int := w.zipWith (· * ·) l

/-- Line k of the Fourier transform of a windowed block (13 R323): its real and imaginary part, in 2^-128. -/
def lineRe (l : List Int) (k : Nat) : Int := (l.mapIdx fun n x => x * turnCos (k * n) l.length).sum
def lineIm (l : List Int) (k : Nat) : Int := -(l.mapIdx fun n x => x * turnSin (k * n) l.length).sum

/-- The power of a line from a product of two transforms, g the sum of the window's weights (13 R323): corrected for the coherent gain, with RMS amplitudes, in 2^-64; line 0
has no second half (log entry 118). -/
def linePower (k : Nat) (x g : Int) : Int := (if k = 0 then 1 else 2) * x / (g * g * 2 ^ 64)

/-- The lines of a block (13 R323). -/
def blockLines (win : Nat) (l : List Int) : List Line :=
  let w := windowWeights win l.length
  let x := windowed w l
  (List.range (l.length / 2)).map fun k => { xx := linePower k (lineRe x k ^ 2 + lineIm x k ^ 2) w.sum }

/-- The lines of a block and its peer's (13 R326): both autospectra and the cross-spectrum, whose phase is positive when the peer leads. -/
def crossLines (win : Nat) (l p : List Int) : List Line :=
  let w := windowWeights win l.length
  let x := windowed w l
  let y := windowed w p
  (List.range (l.length / 2)).map fun k =>
    let a := lineRe x k
    let b := lineIm x k
    let c := lineRe y k
    let d := lineIm y k
    { xx := linePower k (a * a + b * b) w.sum, yy := linePower k (c * c + d * d) w.sum,
      re := linePower k (a * c + b * d) w.sum, im := linePower k (a * d - b * c) w.sum }

/-- The average of a line with its value in one block more (13 R317): linear as a sum, exponential, peak hold; of a cross-spectrum the peak is that of its magnitude. -/
def Line.avg (mode n : Nat) (a x : Line) : Line :=
  if mode = 0 then x
  else if mode = 1 then ⟨a.xx + x.xx, a.yy + x.yy, a.re + x.re, a.im + x.im⟩
  else if mode = 2 then ⟨a.xx + (x.xx - a.xx) / n, a.yy + (x.yy - a.yy) / n, a.re + (x.re - a.re) / n, a.im + (x.im - a.im) / n⟩
  else
    let up := decide (a.re ^ 2 + a.im ^ 2 < x.re ^ 2 + x.im ^ 2)
    ⟨max a.xx x.xx, max a.yy x.yy, if up then x.re else a.re, if up then x.im else a.im⟩

/-- The averages of a setup after a block's lines; the first block after a restart is its own average. -/
def avgLines (mode n : Nat) (a x : List Line) : List Line := if a.isEmpty then x else a.zipWith (Line.avg mode n) x

/-- The amplitude of a power in 2^-64, over an average of n blocks, in the base unit. -/
def amplitude (x : Int) (n un ud : Nat) : Word := toF32 (rootFix x.toNat (n * 2 ^ 64) * un) (ud * 2 ^ 96)

/-- The RMS in band lo to hi, in 2^-149 Hz, of a block of N records at rate code r (13 R323). -/
def bandValue (l : List Line) (win n r N un ud : Nat) (lo hi : Int) : Word :=
  let inside (k : Nat) : Bool := decide (lo * 2 ^ r * N ≤ k * 102400 * 2 ^ 149) && decide (k * 102400 * 2 ^ 149 ≤ hi * 2 ^ r * N)
  let p := (l.mapIdx fun k x => if inside k then x.xx else 0).sum
  amplitude (p * 1000) (n * windowBand win) un ud

/-- The angle of a point in the first quadrant by halving, in 2^-k of a quarter turn: c is what is found so far. -/
def angleBits (a b : Nat) (c k : Nat) : Nat :=
  match k with
  | 0 => c
  | k + 1 =>
    let m := c + 2 ^ k
    angleBits a b (if turnSin m (4 * 2 ^ 40) * a ≤ turnCos m (4 * 2 ^ 40) * b then m else c) k

/-- The phase of a cross-spectrum line in degrees (13 R326); of a line without power it has no stated result: a free value (log entry 118). -/
def phaseValue (x : Line) : Word :=
  if x.re = 0 ∧ x.im = 0 then Config.noResult 7 3
  else
    let q : Int := 90 * angleBits (absNat x.re) (absNat x.im) 0 40
    let h : Int := 180 * 2 ^ 40
    toF32 (if x.re < 0 then (if x.im < 0 then q - h else h - q) else if x.im < 0 then -q else q) (2 ^ 40)

/-- The coherence of a line (13 R326): 1 when AVGN is 1; without power in both it has no stated result: a free value (log entry 118). -/
def coherence (avgn : Nat) (x : Line) : Word :=
  if avgn = 1 then 0x3F800000
  else if x.xx * x.yy ≤ 0 then Config.noResult 7 4 else toF32 (x.re ^ 2 + x.im ^ 2) (x.xx * x.yy).toNat

/-- A biquad of the velocity function in direct form I: b0, b1, b2, a1, a2 in 2^-64, and its last two inputs and outputs. -/
def velSection (b : List Int) (x : Int) (z : Int × Int × Int × Int) : Int × (Int × Int × Int × Int) :=
  let c (k : Nat) : Int := b.getD k 0
  let y := roundEven (c 0 * x + c 1 * z.1 + c 2 * z.2.1 - c 3 * z.2.2.1 - c 4 * z.2.2.2) (2 ^ 64)
  (y, (x, z.1, y, z.2.2.1))

/-- One second-order section of a fourth-order Butterworth filter under the bilinear transform, at the corner whose half angle has the tangent t in 2^-64; q is the section's
damping in 2^-64 (13 R322). -/
def butterSection (high : Bool) (t q : Int) : List Int :=
  let t2 := t * t / 2 ^ 64
  let d := 2 ^ 64 + t * q / 2 ^ 64 + t2
  let b := (if high then 2 ^ 64 else t2) * 2 ^ 64 / d
  [b, if high then -2 * b else 2 * b, b, 2 * (t2 - 2 ^ 64) * 2 ^ 64 / d, (2 ^ 64 - t * q / 2 ^ 64 + t2) * 2 ^ 64 / d]

/-- tan(πf/fs) in 2^-64 for a corner f in 2^-149 Hz at rate code r. -/
def cornerTan (f : Int) (r : Nat) : Int :=
  let a := piFix * f.toNat * 2 ^ r / (102400 * 2 ^ 149)
  sinFix a * 2 ^ 64 / cosFix a

/-- The sections of the velocity function from corner lo to corner hi (13 R322): high-pass, then low-pass. -/
def velSections (lo hi : Int) (r : Nat) : List (List Int) :=
  let q (k : Nat) : Int := 2 * cosFix (piFix * k / 8)
  [butterSection true (cornerTan lo r) (q 1), butterSection true (cornerTan lo r) (q 3),
   butterSection false (cornerTan hi r) (q 1), butterSection false (cornerTan hi r) (q 3)]

/-- The velocity function takes a value (13 R322): the sections in order, then the bilinear integrator, twice whose output is kept, in 2^-32 LSB of the record times the
record interval. -/
def VelRun.step (c : List (List Int)) (v : VelRun) (x : Int) : VelRun :=
  let r := c.zipIdx.foldl (fun (a : Int × List (Int × Int × Int × Int)) p =>
    let y := velSection p.1 a.1 (v.sect.getD p.2 (0, 0, 0, 0))
    (y.1, a.2 ++ [y.2])) (x * 2 ^ 32, [])
  { sect := r.2, last := r.1, out := v.out + r.1 + v.last }

/-- The velocity function over a block: the state after it, and twice its outputs. -/
def VelRun.run (c : List (List Int)) (v : VelRun) (l : List Int) : VelRun × List Int :=
  l.foldl (fun a x => let n := a.1.step c x; (n, a.2 ++ [n.out])) (v, [])

/-- The corners of a velocity setup in 2^-149 Hz (13 R322). -/
def SetupState.corners (x : SetupState) : Int × Int :=
  match tagOf x.tags 0x20 0 with
  | 0 => (10 * 2 ^ 149, 1000 * 2 ^ 149)
  | 1 => (2 * 2 ^ 149, 1000 * 2 ^ 149)
  | _ => ((f32 (tagOf x.tags 0x21 0)).getD 0, (f32 (tagOf x.tags 0x22 0)).getD 0)

/-- A velocity setup's filter runs on over records of its slot at rate code r. -/
def SetupState.filter (x : SetupState) (r : Nat) (l : List HistRec) : VelRun × List Int :=
  x.vel.run (velSections x.corners.1 x.corners.2 r) (blockValues l)

/-- A value or magnitude of the velocity function in mm/s, from num / den of twice its output, at rate code r (13 R322; standard gravity 9.80665 m/s²). -/
def velocityWord (num den r un : Nat) : Word := toF32 (num * un * 980665 * 2 ^ r) (den * 2 * 2 ^ 32 * 1000000 * 100 * 102400)

/-- Output 0 or 2 of a velocity setup (13 R322): RMS or peak over the block. -/
def velocityValue (l : List Int) (r un j : Nat) : Word :=
  if j = 0 then velocityWord (rootFix (powerSum 2 l).toNat l.length) (2 ^ 96) r un else velocityWord (largestOf l) 1 r un

/-- The records of a list up to its first marker, time-step record or SSN gap (13 R319, R325). -/
def goodRun (l : List HistRec) : List HistRec :=
  match l with
  | [] => []
  | a :: l => if wordKind a.w ≠ 0 then [] else if l.head?.any fun b => a.ssn + 1 != b.ssn then [a] else a :: goodRun l

/-- The records of slot 11 from the start of an order setup's block on (13 R325). -/
def SetupState.angles (x : SetupState) : List HistRec :=
  let t := (x.hist.head?.map (·.t)).getD 0
  x.angle.filter fun r => decide (t ≤ r.t)

/-- The records of slot 11 that an order setup's block can use (13 R325): the block begins at the second of them, and each of the instants that it takes has two records
before it and two after it in both slots (log entry 118). -/
def SetupState.turn (x : SetupState) : List HistRec :=
  match x.hist with
  | _ :: b :: _ => (goodRun x.angles).filter fun r => decide (b.t ≤ r.t)
  | _ => []

/-- The angle that slot 11 advances from one record to the next, in 1/4 096 revolution (13 R325, 06 R163): its field is 24 bits long. -/
def advance (a b : HistRec) : Int := (wordValue b.w - wordValue a.w) % 2 ^ 24

/-- Angles of slot 11 as they advance, in 1/4 096 revolution from the second one on (13 R325). -/
def unwrap (l : List HistRec) : List (Int × Int) :=
  match l with
  | [] => []
  | a :: l => (l.foldl (fun (p : Int × Int × List (Int × Int)) r =>
      let y := p.2.1 + (wordValue r.w - p.1) % 2 ^ 24
      (wordValue r.w, y, p.2.2 ++ [((r.t : Int), y)])) (wordValue a.w, -(l.head?.map (advance a)).getD 0, [((a.t : Int), -(l.head?.map (advance a)).getD 0)])).2.2

/-- A point of a list of points, the first or last beyond its ends. -/
def pointAt (l : List (Int × Int)) (k : Int) : Int × Int := l.getD (clampInt 0 (l.length - 1) k).toNat (0, 0)

/-- The cubic of 07 R185 through points k - 1 to k + 2, at mu / 65 536 after point k, times 6 × 2^48. -/
def cubicAt (l : List (Int × Int)) (k : Nat) (mu : Int) : Int :=
  lagrange (pointAt l ((k : Int) - 1)).2 (pointAt l k).2 (pointAt l (k + 1)).2 (pointAt l (k + 2)).2 mu

/-- The 1/65 536 of the interval after point k in which the cubic reaches v, by halving. -/
def reachBits (l : List (Int × Int)) (k : Nat) (v : Int) (c n : Nat) : Nat :=
  match n with
  | 0 => c
  | n + 1 => reachBits l k v (if cubicAt l k (c + 2 ^ n : Nat) ≤ v * 6 * 2 ^ 48 then c + 2 ^ n else c) n

/-- The instant, in 1/65 536 of 1/8 ns, at which the angle passes num / den of 1/4 096 revolution after the block's start (13 R325). -/
def passInstant (l : List (Int × Int)) (num den : Int) : Int :=
  let k := (l.takeWhile fun p => decide (p.2 * den ≤ num)).length - 1
  let scaled := l.map fun p => (p.1, p.2 * den)
  let m := reachBits scaled k num 0 16
  (pointAt l k).1 * 65536 + m * ((pointAt l (k + 1)).1 - (pointAt l k).1)

/-- The input slot's value at an instant (13 R325), in 2^-16 LSB, by the kernel of 07 R185. -/
def valueAt (l : List (Int × Int)) (e : Int) : Int :=
  let k := (l.takeWhile fun p => decide (p.1 * 65536 ≤ e)).length - 1
  let T := (pointAt l (k + 1)).1 - (pointAt l k).1
  cubicAt l k (if T = 0 then 0 else (e - (pointAt l k).1 * 65536) / T) * 65536 / (6 * 2 ^ 48)

/-- An order setup's block over equal angle steps (13 R325), in 2^-16 LSB: BLOCK points from the angle at its second record of slot 11 on (log entry 118). -/
def SetupState.orderBlock (x : SetupState) (l : List HistRec) : List Int :=
  let a := unwrap x.turn
  let v := l.map fun r => ((r.t : Int), wordValue r.w)
  (List.range x.len).map fun m => valueAt v (passInstant a (4096 * m) (tagOf x.tags 0x20 1024))

/-- The angles of slot 11 up to the end of an order setup's block. -/
def turnEnd (revs : Int) (l : List (Int × Int)) : List (Int × Int) := l.take ((l.takeWhile fun p => decide (p.2 < 4096 * revs)).length + 1)

/-- The angles of an order setup's block, from its start to the record at or after its end (13 R325). -/
def SetupState.shaft (x : SetupState) : List (Int × Int) := (turnEnd (x.len / tagOf x.tags 0x20 1024 : Nat) (unwrap x.turn)).drop 1

/-- The mean shaft speed over an order setup's block in rpm (13 R325). -/
def SetupState.meanSpeed (x : SetupState) : Word :=
  let l := x.shaft
  let a := l.headD (0, 0)
  let z := l.getLastD (0, 0)
  toF32 ((z.2 - a.2) * 60 * 8000000000) ((z.1 - a.1).toNat * 4096)

/-- SPR/2 times the highest shaft speed between records of an order setup's block exceeds 0.25 fs of its slot at rate code r (13 R325). -/
def SetupState.overspeed (x : SetupState) (r : Nat) : Bool :=
  let l := x.shaft
  (l.zip l.tail).any fun p => decide (4096 * 102400 * (p.2.1 - p.1.1) < tagOf x.tags 0x20 1024 * (p.2.2 - p.1.2) * 8000000000 * 2 * 2 ^ r)

/-- A filter with an impulse response in 2^-32, from rest. -/
def convolve (h : Nat → Int) (l : List Int) : List Int :=
  (List.range l.length).map fun n => ((l.take (n + 1)).reverse.mapIdx fun k x => h k * x).sum / 2 ^ 32

/-- The Hilbert transform of a block, the imaginary part of its analytic signal: its lines of positive frequency without half a turn's (13 R324). -/
def hilbert (l : List Int) : List Int :=
  let N := l.length
  let c := (List.range (N / 2)).map fun k => if k = 0 then (0, 0) else (lineRe l k, lineIm l k)
  (List.range N).map fun n => 2 * (c.mapIdx fun k p => p.1 * turnSin (k * n) N + p.2 * turnCos (k * n) N).sum / (N * 2 ^ 128)

/-- The decimation of an envelope setup at rate code r (13 R324): the largest power of 2 that keeps the rate at or above 2.56 times BW. -/
def SetupState.decimation (x : SetupState) (r : Nat) : Nat :=
  match f32 (tagOf x.tags 0x21 0) with
  | none => 1
  | some bw => (((List.range 17).filter fun m => decide (256 * bw * 2 ^ (r + m) ≤ 102400 * 100 * 2 ^ 149)).map (2 ^ ·)).getLastD 1

/-- The envelope of an envelope setup's records (13 R324), BLOCK points in 2^-16 LSB: the band-pass, the magnitude of the analytic signal, the low-pass, and of its points one in
every decimation; the shapes of the two filters are open (log entry 118). -/
def SetupState.envelope (x : SetupState) (r : Nat) (l : List HistRec) : List Int :=
  let y := convolve (Config.bandPass (tagOf x.tags 0x20 0) (tagOf x.tags 0x21 0) r) ((blockValues l).map (· * 2 ^ 16))
  let m := (y.zip (hilbert y)).map fun p => (root (absNat p.1 ^ 2 + absNat p.2 ^ 2) : Int)
  let z := convolve (Config.envelopeLow (tagOf x.tags 0x21 0) r) m
  (List.range x.len).map fun k => z.getD (k * x.decimation r) 0

/-- The points a setup's transform takes, and the bits they have below the LSB of its slot (13 R323 to R325). -/
def SetupState.points (x : SetupState) (r : Nat) (l : List HistRec) : List Int × Nat :=
  if x.func = 5 then (x.envelope r l, 16) else if x.func = 6 then (x.orderBlock l, 16) else (blockValues l, 0)

/-- The lines of a used block of a setup of function 3 to 7; p the peer's values. -/
def SetupState.lines (x : SetupState) (r : Nat) (l : List HistRec) (p : List Int) : List Line :=
  let win := tagOf x.tags 6 1
  if x.func < 3 then []
  else if x.func = 7 then crossLines win (blockValues l) p
  else blockLines win (x.points r l).1

/-- The values of output j of a setup for a used block (13 R321), from its records l, the averaged lines and the number of blocks in a linear average; the zone of a
velocity setup is not among them. Vectors hold one value a line. -/
def SetupState.value (x : SetupState) (r : Nat) (probe : Bool) (l : List HistRec) (lines : List Line) (n j : Nat) : List Word :=
  let un := unitNum x.slot
  let ud := unitDen x.slot probe
  let sub := 2 ^ (if x.func = 5 ∨ x.func = 6 then 16 else 0)
  match x.func with
  | 1 => [featureValue (blockValues l) un ud j]
  | 2 => [velocityValue (x.filter r l).2 r un j]
  | 3 => [bandValue lines (tagOf x.tags 6 1) n r x.len un ud ((f32 (tagOf x.tags (0x21 + 2 * j) 0)).getD 0) ((f32 (tagOf x.tags (0x22 + 2 * j) 0)).getD 0)]
  | 5 =>
    if j = 1 then
      let y := x.envelope r l
      [toF32 (rootFix (powerSum 2 y).toNat y.length * un) (ud * 2 ^ 112)]
    else lines.map fun p => amplitude p.xx n un (ud * sub)
  | 6 => if j = 1 then [x.meanSpeed] else lines.map fun p => amplitude p.xx n un (ud * sub)
  | 7 =>
    let q := tagOf x.tags 0x21 0
    let vn := unitNum q
    let vd := unitDen q false
    lines.map fun p =>
      if j = 0 then amplitude p.xx n un ud
      else if j = 1 then amplitude p.yy n vn vd
      else if j = 2 then toF32 (rootFix (rootFix (absNat p.re ^ 2 + absNat p.im ^ 2) (2 ^ 128 * n * n) * un * vn) (2 ^ 96 * ud * vd)) (2 ^ 96)
      else if j = 3 then phaseValue p
      else coherence (tagOf x.tags 8 1) p
  | _ => lines.map fun p => amplitude p.xx n un ud

end Sys2Proof.Machine
end

