-- ==== Sys2Proof/Machine/Analysis.lean ====
section
/-!
DEFINITION. On-board analysis and the user partition (13): setup and alarm records, the checks of R318, evaluations with their outputs, trends,
alarms, peers' publications, and the partition's services.
-/

namespace Sys2Proof.Machine

/-- The tags from 0x20 up that a function defines (13 R334). -/
def funcTags (f : Nat) (l : List (Nat × Nat)) : List Nat :=
  match f with
  | 2 => [0x20, 0x21, 0x22, 0x23, 0x24, 0x25]
  | 3 => 0x20 :: (List.range (2 * tagOf l 0x20 0)).map (0x21 + ·)
  | 5 => [0x20, 0x21]
  | 6 => [0x20]
  | 7 => [0x20, 0x21, 0x22]
  | _ => []

/-- The tags a record must have (13 R334). -/
def neededTags (f : Nat) (l : List (Nat × Nat)) : List Nat :=
  [1, 2, 3, 4] ++
  (if (tagOf l 0xA 1).testBit 2 then [0xC, 0xD, 0xE, 0xF] else []) ++ (if tagOf l 0xD 0 = 1 then [0x10, 0x11] else []) ++
  (match f with
    | 2 => [0x20, 0x23, 0x24, 0x25] ++ (if tagOf l 0x20 0 = 2 then [0x21, 0x22] else [])
    | _ => funcTags f l)

/-- A binary32 tag is less than another. -/
def tagLess (l : List (Nat × Nat)) (a b : Nat) : Bool :=
  match f32 (tagOf l a 0), f32 (tagOf l b 0) with
  | some x, some y => decide (x < y)
  | _, _ => false

/-- The value of a common tag is in its range (13 R317, R334). -/
def commonRange (k v : Nat) : Bool :=
  match k with
  | 1 => decide (v ≤ 1)
  | 2 => decide (1 ≤ v) && decide (v ≤ 7)
  | 3 => decide (v ≤ 10)
  | 4 => decide (8 ≤ v) && decide (v ≤ 17)
  | 5 => decide (v ≤ 2)
  | 6 => decide (v ≤ 2)
  | 7 => decide (v ≤ 3)
  | 8 => decide (1 ≤ v) && decide (v ≤ 1024)
  | 9 => decide (v ≤ 1)
  | 0xA => decide (v ≤ 7)
  | 0xB => decide (1 ≤ v) && decide (v ≤ 86400)
  | 0xC => decide (v ≤ 7)
  | 0xD => decide (v ≤ 1)
  | _ => true

/-- The highest input slot of a function (13 R321). -/
def lastSlot (f : Nat) : Nat := if f = 2 ∨ f = 5 then 5 else 10

/-- The function's own parameters are in range (13 R322, R334). -/
def funcRange (f : Nat) (l : List (Nat × Nat)) : Bool :=
  match f with
  | 2 => decide (tagOf l 0x20 0 ≤ 2) && tagLess l 0x23 0x24 && tagLess l 0x24 0x25 &&
      (tagOf l 0x20 0 != 2 || (tagLess l 0x21 0x22 && (f32 (tagOf l 0x21 0)).any fun x => decide (2 ^ 149 ≤ x)))
  | 3 => decide (1 ≤ tagOf l 0x20 0) && decide (tagOf l 0x20 0 ≤ 32) && (List.range (tagOf l 0x20 0)).all fun b => tagLess l (0x21 + 2 * b) (0x22 + 2 * b)
  | 5 => (f32 (tagOf l 0x20 0)).any (fun x => decide (0 < x)) && (f32 (tagOf l 0x21 0)).any fun x => decide (0 < x)
  | 6 => [32, 64, 128, 256, 512, 1024].contains (tagOf l 0x20 0)
  | 7 => decide (tagOf l 0x20 0 ≤ 191) && decide (tagOf l 0x21 0 ≤ 10) && decide (50 ≤ tagOf l 0x22 0) && decide (tagOf l 0x22 0 ≤ 500)
  | _ => true

/-- No tag stands twice. -/
def noRepeat (l : List (Nat × Nat)) : Bool := decide ((l.map (·.1)).Nodup)

/-- A setup record keeps 13 R334. -/
def setupValid (l : List (Nat × Nat)) : Bool :=
  let f := tagOf l 2 0
  noRepeat l && (neededTags f l).all (hasTag l) && l.all (fun p => (decide (1 ≤ p.1) && decide (p.1 ≤ 0x11)) || (funcTags f l).contains p.1) &&
    l.all (fun p => commonRange p.1 p.2) && decide (tagOf l 3 0 ≤ lastSlot f) && funcRange f l

/-- The number of scalar outputs of a setup, and the index of the first (13 R321). -/
def scalarOutputs (l : List (Nat × Nat)) : List Nat :=
  match tagOf l 2 0 with
  | 1 => [0, 1, 2, 3, 4]
  | 2 => [0, 1, 2]
  | 3 => List.range (tagOf l 0x20 0)
  | 5 => [1]
  | 6 => [1]
  | _ => []

/-- The vector outputs of a setup (13 R321). -/
def vectorOutputs (l : List (Nat × Nat)) : List Nat :=
  match tagOf l 2 0 with
  | 4 => [0]
  | 5 => [0]
  | 6 => [0]
  | 7 => [0, 1, 2, 3, 4]
  | _ => []

/-- An alarm record keeps 13 R335, given the setups of its Tally. -/
def alarmValid (setups : List (Nat × List (Nat × Nat))) (l : List (Nat × Nat)) : Bool :=
  let fid := tagOf l 1 0
  noRepeat l && hasTag l 1 && l.all (fun p => decide (1 ≤ p.1) && decide (p.1 ≤ 8)) &&
    (tagOf l 2 0 % 2 ^ 31 != 0 || tagOf l 3 0 % 2 ^ 31 != 0) && decide (tagOf l 4 0 ≤ 1) && decide (tagOf l 5 0 ≤ 50) &&
    decide (1 ≤ tagOf l 6 1) && decide (tagOf l 6 1 ≤ 255) && decide (tagOf l 7 6 ≤ 15) && decide (tagOf l 8 10 ≤ 15) &&
    (match setups.find? fun p => p.1 == fid / 256 with
      | none => false
      | some p => (scalarOutputs p.2).contains (fid % 256))

/-- Replace a setup's or an alarm's state. -/
def State.modSetup (s : State) (n : Fin 32) (f : SetupState → SetupState) : State :=
  { s with an := { s.an with setups := s.an.setups.set n (f s.an.setups[n]) } }
def State.modAlarm (s : State) (a : Fin 32) (f : AlarmState → AlarmState) : State :=
  { s with an := { s.an with alarms := s.an.alarms.set a (f s.an.alarms[a]) } }

/-- The slot and its rate code are permitted for a function (13 R321). -/
def slotPermitted (f slot rate : Nat) : Bool :=
  match f with
  | 2 => (decide (slot < 3) && decide (rate ≤ 4)) || (decide (3 ≤ slot) && decide (slot ≤ 5) && (rate == 3 || rate == 4))
  | 7 => decide (slot ≤ lastSlot f) && decide (3 ≤ rate)
  | _ => decide (slot ≤ lastSlot f)

/-- The slot and its rate code suit a setup (13 R318, reason 3): its function permits them, and the block of a velocity setup lasts at least 1 s (R322; log entry 118). -/
def SetupState.suits (x : SetupState) (r : Nat) : Bool := slotPermitted x.func x.slot r && (x.func != 2 || decide (102400 ≤ x.len * 2 ^ r))

/-- The spectral lines of a setup (13 R318, R323). -/
def setupLines (x : SetupState) : Nat := if 3 ≤ x.func then x.len / 2 else 0

/-- A frequency tag, in 2^-149 Hz, lies above 0.25 fs at rate code r (13 R318). -/
def beyondQuarter (v : Option Int) (r : Nat) : Bool :=
  match v with
  | none => true
  | some f => decide (102400 * 2 ^ 149 < 4 * 2 ^ r * f)

/-- A limit of a band, a velocity band or an envelope beyond 0.25 fs (13 R318, reason 8). No parameter of an order setup names a frequency (R334): its limit is tested at each
evaluation (R325; log entry 118). -/
def limitBeyond (x : SetupState) (r : Nat) : Bool :=
  match x.func with
  | 2 => tagOf x.tags 0x20 0 == 2 && beyondQuarter (f32 (tagOf x.tags 0x22 0)) r
  | 3 => (List.range (tagOf x.tags 0x20 0)).any fun b => beyondQuarter (f32 (tagOf x.tags (0x22 + 2 * b) 0)) r
  | 5 =>
    match f32 (tagOf x.tags 0x20 0), f32 (tagOf x.tags 0x21 0) with
    | some fc, some bw => decide (102400 * 2 ^ 149 * 2 < 4 * 2 ^ r * (2 * fc + bw))
    | _, _ => true
  | _ => false

/-- What the setups accepted so far use (13 R318): lines, loads and trended scalars of each processor, whether a setup above 8 192 lines is in, and the peer
streams. -/
structure SetupUse where
  lines0 : Nat := 0
  lines1 : Nat := 0
  load0 : Nat := 0
  load1 : Nat := 0
  trend0 : Nat := 0
  trend1 : Nat := 0
  big : Bool := false
  peers : List (Nat × Nat) := []

/-- What remains in use when setup x with load estimate q joins. -/
def SetupUse.add (u : SetupUse) (x : SetupState) (q : Nat) : SetupUse :=
  let tr := if x.route.testBit 1 then (scalarOutputs x.tags).length else 0
  let peer := (tagOf x.tags 0x20 0, tagOf x.tags 0x21 0)
  let u := if x.func = 7 then { u with peers := peer :: u.peers.filter (· != peer) } else u
  if x.proc = 0 then { u with lines0 := u.lines0 + setupLines x, load0 := u.load0 + q, trend0 := u.trend0 + tr, big := u.big || decide (8192 < setupLines x) }
  else { u with lines1 := u.lines1 + setupLines x, load1 := u.load1 + q, trend1 := u.trend1 + tr }

/-- The refusal of a setup (13 R318), the lowest reason that holds; 0 none. -/
def setupRefusal (s : State) (u : SetupUse) (x : SetupState) (q : Nat) : Nat :=
  let v := u.add x q
  let r := s.get (GR_CFG_RATE x.slot)
  let blocks := s.get WK_MAPB_BLOCKS
  if (decide (98304 < v.lines0) || (x.proc == 0 && u.big && decide (8192 < setupLines x)) || decide (16384 < v.lines1) || decide (16 < v.trend0) || decide (16 < v.trend1) ||
      (x.func == 5 && decide (8192 < setupLines x))) then 1
  else if 80 < v.load0 ∨ 80 < v.load1 then 2
  else if !x.suits r then 3
  else if x.func = 6 ∧ (s.get AUX_TACH_MODE = 0 ∨ !s.bit (GR_CFG_EN 11)) then 4
  else if x.func = 7 ∧ s.get (MB_HDR_SRC (bankOf x.slot (s.get (ML_ST_ACT x.slot)))) = 2 then 5
  else if 4 < v.peers.length then 6
  else if x.route.testBit 2 ∧ blocks.testBit (3 + x.proc) ∧ !blocks.testBit 2 then 7
  else if limitBeyond x r then 8
  else 0

/-- Check the setups in increasing n (13 R318); the load estimates are the module's own: free values (log entry 27). -/
def checkSetups (s : State) : State :=
  ((List.finRange 32).foldl (fun (a : State × SetupUse) (n : Fin 32) =>
    let x := a.1.an.setups[n]
    if !x.defined then a
    else
      let q := a.1.freeWord.1.toNat % 256
      let s := a.1.freeWord.2
      let why := setupRefusal s a.2 x q
      (s.modSetup n fun x => { x with ref := why, load := q }, if why = 0 then a.2.add x q else a.2)) (s, {})).1

/-- The slots that the accepted setups of a processor name (10 R249); order setups name slot 11 too. -/
def watchMask (s : State) (p : Nat) : Nat :=
  (List.range 16).foldl (fun m i =>
    m + bitIf (s.an.setups.toList.any fun x => x.defined && x.ref == 0 && x.proc == p && (x.slot.val == i || (x.func == 6 && i == 11))) i) 0

/-- A setup starts from empty state (13 R316). -/
def SetupState.fresh (x : SetupState) (now : Nat) : SetupState :=
  { x with used := 0, again := false, hist := [], resync := false, angle := [], peer := [], peerRun := none, mismatch := false, peerAt := now, avg := [], means := [], bads := [], vel := {},
           trends := (scalarOutputs x.tags).map fun _ => { at_ := now } }

/-- The input slots of a setup are enabled (13 R339): its own, and of an order setup slot 11. -/
def inputsOn (s : State) (x : SetupState) : Bool := s.slots[x.slot].en && (x.func != 6 || s.slots[(11 : Fin 16)].en)

/-- SKEW has passed since t (13 R326, R327). -/
def skewOver (s : State) (x : SetupState) (t : Nat) : Bool := decide (t + tagOf x.tags 0x22 0 * 8000000 ≤ s.now)

/-- A cross-spectrum setup waits for its peer (13 R327): no records for SKEW, or records of another rate code. -/
def peerAway (s : State) (x : SetupState) : Bool := x.func == 7 && (x.mismatch || skewOver s x x.peerAt)

/-- Show a setup's STATE (13 R339, R340): refused, waiting for its slots or its peer, or running. -/
def showSetup (s : State) (n : Fin 32) : State :=
  let x := s.an.setups[n]
  let st := if !x.defined then 0 else if x.ref ≠ 0 then 3 else if !inputsOn s x || peerAway s x then 2 else 1
  ((s.set (AN_SET_STATE n) st).set (AN_SET_REF n) x.ref).set (AN_SET_LOAD n) x.load

/-- Show the number of running setups and the loads (13 R340). -/
def showAnalysis (s : State) : State :=
  let l := s.an.setups.toList.filter fun x => x.defined && x.ref == 0
  let sum (p : Nat) : Nat := ((l.filter fun x => x.proc == p).map (·.load)).sum
  ((s.set AN_ST_SETUPS ((List.range 32).filter fun n => s.get (AN_SET_STATE n) == 1).length).set AN_ST_LOAD0 (sum 0)).set AN_ST_LOAD1 (sum 1)

/-- Setups start (13 R316, R318, R333): at ANA release. -/
def startAnalysis (s : State) : State :=
  let s := { s with an := { s.an with setups := s.an.setups.map fun x => x.fresh s.now, alarms := s.an.alarms.map fun a => { tags := a.tags },
                                      watch0 := watchMask s 0, watch1 := watchMask s 1, released := s.now, features := [],
                                      upWatch := 0, upBytes := Vector.replicate 16 0, upRing := Vector.replicate 16 [], upBad := false, timer := none,
                                      mailbox := Vector.replicate 16 {} } }
  let s := (List.finRange 32).foldl showSetup s
  let s := if s.an.setups.toList.any fun x => x.defined && x.ref != 0 then s.event AN_EVT_SETREF else s
  showAnalysis ((s.set AN_ST_RUN0 1).set AN_ST_RUN1 1)

/-- The partition starts at its offset 0 with a start call that gives the reason (13 R337); its heartbeat is due within 1 s. -/
def partitionStart (s : State) (why : UpStart) : State := { s with an := { s.an with upAt := s.pwr.ticks, upStart := some why, upStop := 0 } }.set AN_UPST_STATE 1

/-- The user partition starts with ANA1 when the Tally holds one (13 R336, R337). -/
def startPartition (s : State) : State := if (s.tally.image.map (·.userPart)).getD false then partitionStart s .ana else s

/-- Analysis ends with WORK (01 R25, 13 R330, R333): everything the processors hold is lost; the setups and alarms are the Tally's and come back with it. -/
def stopAnalysis (s : State) : State :=
  { s with an := { setups := s.an.setups.map fun x => { tags := x.tags, ref := x.ref, load := x.load }, alarms := s.an.alarms.map fun a => { tags := a.tags } },
           blaze := { s.blaze with toAna := [] } }

/-- An input slot changed at a boundary (13 R339): setups on it restart from empty, wait, or stop when its code is not permitted. -/
def slotChanged (s : State) (i : Fin 16) : State :=
  if !s.bit AN_ST_RUN0 then s
  else
    let watch (s : State) : State := { s with an := { s.an with watch0 := watchMask s 0, watch1 := watchMask s 1 } }
    showAnalysis <| watch ((List.finRange 32).foldl (fun s (n : Fin 32) =>
      let x := s.an.setups[n]
      if x.defined && (x.slot == i || (x.func == 6 && i == 11)) && x.ref == 0 then
        let bad := s.slots[x.slot].en && !x.suits s.slots[x.slot].rate
        let s := s.modSetup n fun x => { x.fresh s.now with ref := if bad then 3 else 0 }
        showSetup (if bad then s.event AN_EVT_SETREF else s) n
      else s) s)

/-- Alarm a's state in AN_ALMST0 and AN_ALMST1 (13 R340). -/
def alarmField (a : Nat) : Field := ⟨0x1904 + a / 16, 2 * (a % 16), 2⟩

/-- The level of an alarm in 2^-149, none when disabled (13 R331). -/
def alarmLevel (l : List (Nat × Nat)) (k : Nat) : Option Int :=
  match f32 (tagOf l k 0) with
  | some 0 => none
  | x => x

/-- A value is beyond a level (13 R331). -/
def beyondLevel (below : Bool) (v : Option Int) (lev : Option Int) : Bool :=
  match v, lev with
  | some v, some l => if below then decide (v < l) else decide (l < v)
  | _, _ => false

/-- A value is within a level's hysteresis (13 R331). -/
def withinLevel (below : Bool) (hys : Int) (v : Option Int) (lev : Option Int) : Bool :=
  match v, lev with
  | some v, some l => if below then decide (l * (100 + hys) ≤ 100 * v) else decide (100 * v ≤ l * (100 - hys))
  | _, _ => false

/-- An alarm's next state (13 R331): one change at an evaluation, danger before alert; with ALERT disabled a danger falls to clear (log entry 28). -/
def alarmNext (x : AlarmState) (st : Nat) : Nat :=
  let dly := tagOf x.tags 6 1
  if st < 2 ∧ dly ≤ x.overD then 2
  else if st < 1 ∧ dly ≤ x.overA then 1
  else if st = 2 ∧ dly ≤ x.inD then (if (alarmLevel x.tags 2).isNone then 0 else 1)
  else if st = 1 ∧ dly ≤ x.inA then 0
  else st

/-- An evaluation of the output an alarm watches (13 R331, R332); b is the block's last record. -/
def alarmEval (s : State) (a : Fin 32) (proc : Nat) (slot : Nat) (b : HistRec) (v : Nat) : State :=
  let x := s.an.alarms[a]
  let below := tagOf x.tags 4 0 == 1
  let hys : Int := tagOf x.tags 5 0
  let f := f32 v
  let la := alarmLevel x.tags 2
  let ld := alarmLevel x.tags 3
  let next (b : Bool) (n : Nat) : Nat := if b then n + 1 else 0
  let y := { x with overA := next (beyondLevel below f la) x.overA, overD := next (beyondLevel below f ld) x.overD,
                    inA := next (withinLevel below hys f la) x.inA, inD := next (withinLevel below hys f ld) x.inD }
  let s := s.modAlarm a fun _ => y
  let st := s.get (alarmField a)
  let nx := alarmNext y st
  if nx = st ∨ s.mode = 9 then s
  else
    let kind := if st < nx then nx else if nx = 1 then 3 else 4
    let sev := if kind = 1 then tagOf x.tags 7 6 else if kind = 2 then tagOf x.tags 8 10 else 2
    issueBlaze ((s.set (alarmField a) nx).event AN_EVT_ALARM)
      { src := 0x20 + proc, kind := kind, sev := sev, slot := slot, t := b.t, ssn := b.ssn,
        val0 := (BitVec.ofNat 32 v).toInt, val1 := (tagOf x.tags 1 0 * 65536 + a.val : Nat) }

/-- A block of setup n is discarded (13 R319, R322, R331). -/
def discardBlock (s : State) (n : Fin 32) (again : Bool) : State :=
  let s := ((s.bump (AN_SET_SKIP n) 1).event AN_EVT_SKIP).modSetup n fun x => { x with again := again && x.func == 2, vel := if again then {} else x.vel }
  { s with an := { s.an with alarms := s.an.alarms.map fun a => if tagOf a.tags 1 0 / 256 = n.val then { tags := a.tags } else a } }

/-- The grid time of the record at which slot 11's angle has advanced by a further n units of 1/4 096 revolution (13 R325, 06 R163); none while it has not. -/
def angleEnd (n : Int) (l : List HistRec) : Option Nat :=
  match l with
  | [] => none
  | [_] => none
  | a :: b :: l =>
    let left := n - advance a b
    if left ≤ 0 then some b.t else angleEnd left (b :: l)

/-- The end of an order setup's block of BLOCK / SPR revolutions from the second of slot 11's records on (13 R325), once there is a record after the one that reaches it. -/
def SetupState.orderEnd (x : SetupState) : Option Nat := angleEnd (4096 * (x.len / tagOf x.tags 0x20 1024)) (x.turn.drop 1).dropLast

/-- The records of its slot that a setup's block takes (13 R317, R324); of an order setup those up to the block's end, once there are two more. -/
def SetupState.need (x : SetupState) (r : Nat) : Nat :=
  if x.func = 5 then x.len * x.decimation r
  else if x.func = 6 then
    match x.orderEnd with
    | none => x.hist.length + 1
    | some e =>
      let k := (x.hist.takeWhile fun y => decide (y.t ≤ e)).length
      if k + 2 ≤ x.hist.length then k else x.hist.length + 1
  else x.len

/-- The records of the setup's next block, at rate code r, as far as they have come (13 R319). -/
def SetupState.block (x : SetupState) (r : Nat) : List HistRec := x.hist.take (x.need r)

/-- The records that the evaluation of a setup's next block uses: of an order setup two beyond its end (13 R325, 07 R185). -/
def SetupState.reach (x : SetupState) (r : Nat) : List HistRec := x.hist.take (x.need r + if x.func = 6 then 2 else 0)

/-- The peer's record of a grid time (13 R326). -/
def SetupState.pairOf (x : SetupState) (t : Nat) : Option PeerRec := x.peer.find? fun p => p.t == t

/-- The peer's records that pair with a block, in order. -/
def SetupState.pairs (x : SetupState) (r : Nat) : List PeerRec := (x.block r).filterMap fun y => x.pairOf y.t

/-- The grid time from which the next block may start when peer records in a row hold a marker, a gap or another run number (13 R319, R327). -/
def pairCause (l : List PeerRec) : Option Nat :=
  match l with
  | [] => none
  | p :: l =>
    if wordKind p.w ≠ 0 then some (p.t + 1)
    else if l.head?.any fun q => q.ssn != p.ssn + 1 || q.run != p.run then l.head?.map (·.t)
    else pairCause l

/-- The grid time from which the next block of a cross-spectrum may start when its present one is spoilt by a peer publication at another rate code that it needs, or by its
peer's records (13 R327). -/
def SetupState.peerSpoilt (x : SetupState) (r : Nat) : Option Nat :=
  let l := x.block r
  let from_ := (l.head?.map (·.t)).getD 0
  let last := (l.getLast?.map (·.t)).getD 0
  if x.func ≠ 7 ∨ l.isEmpty then none
  else match x.bads.find? fun b => decide (b.1 ≤ last) && decide (from_ < b.2) with
    | some b => some b.2
    | none => pairCause (x.pairs r)

/-- The grid time from which the next block of an order setup may start when slot 11 delivered a marker, or lost records, before its present one is whole (13 R325). -/
def SetupState.angleSpoilt (x : SetupState) : Option Nat :=
  if x.func ≠ 6 ∨ x.hist.isEmpty ∨ x.orderEnd.isSome then none
  else
    match x.angles.drop (goodRun x.angles).length with
    | [] => none
    | y :: _ => some (if wordKind y.w = 0 then y.t else y.t + 1)

/-- The quality byte (13 R320): the status bits of every record used, peer records and slot 11's included; LIMIT of R325; DEGR. -/
def quality (x : SetupState) (r : Nat) : Nat :=
  let st := blockStatus ((x.reach r).map (·.w)) ||| (if x.func = 7 then blockStatus ((x.pairs r).map (·.w)) else 0) |||
    (if x.func = 6 then blockStatus ((x.turn.take (x.shaft.length + 2)).map (·.w)) else 0)
  st + bitIf (x.func == 6 && x.overspeed r) 6 + bitIf ((x.block r).any (·.deg)) 7

/-- The velocity zone of a value (13 R322): 0 to 3 as binary32; at a boundary the lower zone (log entry 29). -/
def zoneOf (x : SetupState) (v : Nat) : Word :=
  let past (k : Nat) : Bool := beyondLevel false (f32 v) (f32 (tagOf x.tags k 0))
  if past 0x25 then 0x40400000 else if past 0x24 then 0x40000000 else if past 0x23 then 0x3F800000 else 0

/-- The AUX slot measures a probe's temperature (06 R152). -/
def probing_ (s : State) : Bool := s.aux.func == 2

/-- Setup n's lines after the block that completes (13 R317, R323, R326): averaged with those of the used blocks before it. -/
def averagedLines (s : State) (n : Fin 32) : List Line :=
  let x := s.an.setups[n]
  let r := s.slots[x.slot].rate
  avgLines (tagOf x.tags 7 0) (tagOf x.tags 8 1) x.avg (x.lines r (x.reach r) ((x.pairs r).map fun p => wordValue p.w))

/-- A scalar output that no average of lines stands for (13 R317, R321): those of functions 1 and 2, the envelope's RMS and the mean shaft speed. -/
def ownScalar (f : Nat) : Bool := f == 1 || f == 2 || f == 5 || f == 6

/-- The average of a scalar output in 2^-149 with its value in one block more (13 R317): the k-th since the restart of a linear average, which is kept as a sum. -/
def avgScalar (mode n : Nat) (old : Option Int) (v : Int) : Int :=
  match old with
  | none => v
  | some a => if mode = 1 then a + v else if mode = 2 then a + (v - a) / n else max a v

/-- A scalar output of a setup with its average: the average to keep, none for a value that is not finite, and the word shown. -/
def SetupState.average (x : SetupState) (j : Nat) (v : Word) : Option Int × Word :=
  let mode := tagOf x.tags 7 0
  match f32 v.toNat with
  | none => (none, v)
  | some f =>
    let a := avgScalar mode (tagOf x.tags 8 1) ((x.means.find? fun p => p.1 == j).map (·.2)) f
    (some a, if mode = 0 then v else toF32 a ((if mode = 1 then x.used + 1 else 1) * 2 ^ 149))

/-- The blocks in an average as a setup shows it: those of a linear average. -/
def SetupState.blocksIn (x : SetupState) : Nat := if tagOf x.tags 7 0 = 1 then tagOf x.tags 8 1 else 1

/-- The values of output j of setup n for the block that completes (13 R321 to R327). -/
def outputValues (s : State) (n : Fin 32) (j : Nat) : List Word :=
  let x := s.an.setups[n]
  let r := s.slots[x.slot].rate
  let v (j : Nat) : List Word :=
    let l := x.value r (probing_ s) (x.block r) (averagedLines s n) x.blocksIn j
    if ownScalar x.func ∧ (scalarOutputs x.tags).contains j then l.map fun w => (x.average j w).2 else l
  if x.func = 2 ∧ j = 1 then [zoneOf x ((v 0).headD 0).toNat] else v j

/-- The averages of setup n's own scalars after the block that completes (13 R317). -/
def nextMeans (s : State) (n : Fin 32) : List (Nat × Int) :=
  let x := s.an.setups[n]
  let r := s.slots[x.slot].rate
  if tagOf x.tags 7 0 = 0 ∨ !ownScalar x.func then []
  else (scalarOutputs x.tags).filterMap fun j =>
    match (x.value r (probing_ s) (x.block r) [] 1 j).map fun w => (x.average j w).1 with
    | some a :: _ => some (j, a)
    | _ => x.means.find? fun p => p.1 == j

/-- Publish scalar or trend entries, at most m in a message (14 R360). -/
def publishEntries (s : State) (l : List FeatEntry) (m fuel : Nat) : State :=
  match fuel, l with
  | 0, _ => s
  | _, [] => s
  | k + 1, l => publishEntries (queueFeature s (l.take m)) (l.drop m) m k

/-- Publish a vector in consecutive parts of up to 344 values (14 R360). -/
def publishVector (s : State) (e : FeatEntry) (first fuel : Nat) (l : List Word) : State :=
  match fuel, l with
  | 0, _ => s
  | _, [] => s
  | k + 1, l =>
    let h := l.take 344
    publishVector (queueFeature s [{ e with etype := 1, first := first, values := h }]) e (first + h.length) k (l.drop 344)

/-- A frame carries a part of a vector output. -/
def Payload.carries (p : Payload) (fid : Nat) : Bool :=
  match p with
  | .feature _ _ l => l.any fun e => e.fid == fid && e.etype == 1
  | _ => false

/-- The previous publication of a vector output is still being sent (13 R329): parts of it wait for the share or in a queue, or are on a wire. -/
def stillSending (s : State) (fid : Nat) : Bool :=
  s.net.features.any (fun m => m.any fun e => e.fid == fid && e.etype == 1) || s.tx.any (fun f => f.pay.carries fid) ||
    [Port.a, Port.b].any fun p => (s.wire p).any fun x => x.1.pay.carries fid && decide (s.pwr.ticks < x.2)

/-- An output joins its trend (13 R330). -/
def Trend.add (x : Trend) (v q : Nat) : Trend :=
  match f32 v with
  | none => { x with count := x.count + 1, odd := true, q := x.q ||| q }
  | some f => { x with count := x.count + 1, lo := if x.count = 0 then f else min f x.lo, hi := if x.count = 0 then f else max f x.hi,
                       sum := x.sum + f, q := x.q ||| q }

/-- The trend point of an interval (13 R330). -/
def Trend.point (x : Trend) (free : Word) : TrendPoint :=
  let u := 2 ^ 149
  if x.odd then ⟨x.at_, x.count, free, free, free, x.q⟩
  else if x.count = 0 then ⟨x.at_, 0, 0, 0, 0, x.q⟩
  else ⟨x.at_, x.count, toF32 x.lo u, toF32 x.sum (x.count * u), toF32 x.hi u, x.q⟩

/-- Close the open trend points of setup n (13 R330); the next ones start at next. -/
def closeTrend (s : State) (n : Fin 32) (next : Trend → Nat) : State :=
  let w := s.freeWord.1
  let s := s.freeWord.2
  s.modSetup n fun x => { x with trends := x.trends.map fun t =>
    { points := (t.points ++ [t.point w]).drop (t.points.length - 255), at_ := next t } }

/-- The word a route to a pin engine writes (13 R329): rounded to nearest and limited; a value that is not finite or a zero divisor has none: free. -/
def mapWord (x : SetupState) (v : Nat) (free : Word) : Word :=
  let c (k : Nat) : Option Int := f32 (tagOf x.tags k 0)
  let u : Int := 2 ^ 149
  let out (n d : Int) : Word := BitVec.ofNat 32 (clampInt 0 0xFFFFFFFF (if d < 0 then roundEven (-n) (-d) else roundEven n d)).toNat
  if tagOf x.tags 0xD 0 = 0 then
    match c 0xE, c 0xF, f32 v with
    | some a, some b, some f => out (a * u + b * f) (u * u)
    | _, _, _ => free
  else
    match c 0xE, c 0xF, c 0x10, c 0x11, f32 v with
    | some a, some b, some cc, some d, some f =>
      let den := b * u + cc * f
      if den = 0 then free else out (a * u * u + d * den) (den * u)
    | _, _, _, _, _ => free

/-- A feature record (13 R328). -/
def featureOf (n : Nat) (b : HistRec) (len q j : Nat) (vals : List Word) : FeatEntry :=
  { fid := n * 256 + j, q := q, etype := 0, t := b.t, ssn := b.ssn, blen := len, total := vals.length, first := 0, values := vals }

/-- Remember the latest record of its feature (13 R338). -/
def keepFeature (l : List FeatEntry) (e : FeatEntry) : List FeatEntry := e :: l.filter fun x => x.fid != e.fid

/-- The outputs of an evaluation are due (13 R328): with linear averaging, vectors and bands once every AVGN used blocks. -/
def outputDue (x : SetupState) (j : Nat) (full : Bool) : Bool :=
  full || tagOf x.tags 7 0 != 1 || ((scalarOutputs x.tags).contains j && x.func != 3)

/-- Publish an evaluation's outputs (13 R329). -/
def publishOutputs (s : State) (n : Fin 32) (x : SetupState) (l : List FeatEntry) : State :=
  if !x.route.testBit 0 ∨ s.keys.lineKey.isNone then s
  else
    let vec := vectorOutputs x.tags
    let s := publishEntries s (l.filter fun e => !vec.contains (e.fid % 256)) 35 2
    (l.filter fun e => vec.contains (e.fid % 256)).foldl (fun s e =>
      if stillSending s e.fid then s.bump (AN_SET_PUBSKIP n) 1 else publishVector s e 0 200 e.values) s

/-- Trends and the engine route (13 R329, R330). -/
def routeOutputs (s : State) (n : Fin 32) (x : SetupState) (q : Nat) (l : List FeatEntry) : State :=
  let valueOf (j : Nat) : Option Nat := (l.find? fun e => e.fid % 256 == j).map fun e => (e.values.headD 0).toNat
  let join (p : Nat × Trend) : Trend := ((valueOf p.1).map fun v => p.2.add v q).getD p.2
  let s := if !x.route.testBit 1 then s
    else s.modSetup n fun y => { y with trends := ((scalarOutputs x.tags).zip y.trends).map join }
  if x.route.testBit 2 && (scalarOutputs x.tags).contains 0 then
    match valueOf 0 with
    | none => s
    | some v => txPush s.freeWord.2 (Fin.ofNat 8 (tagOf x.tags 0xC 0)) (mapWord x v s.freeWord.1)
  else s

/-- Feed the alarms of an evaluation's scalar outputs (13 R331, R333): not before REARM seconds after ANA release. -/
def feedAlarms (s : State) (x : SetupState) (b : HistRec) (l : List FeatEntry) : State :=
  if b.t < s.an.released + s.get AN_CFG_REARM * 8000000000 then s
  else
    (List.finRange 32).foldl (fun s (a : Fin 32) =>
      let y := s.an.alarms[a]
      if y.tags.isEmpty then s
      else
        match l.find? fun e => e.fid == tagOf y.tags 1 0 with
        | none => s
        | some e => alarmEval s a x.proc x.slot b (e.values.headD 0).toNat) s

/-- A processor that restarted after an unplanned WORK loss says so at its first evaluation (13 R333). -/
def oweRestart (s : State) (proc : Nat) : State :=
  if (if proc = 0 then s.an.owes0 else s.an.owes1) then
    let v0 := s.freeWord.1.toInt
    let v1 := s.freeWord.2.freeWord.1.toInt
    let s := s.freeWord.2.freeWord.2
    issueBlaze { s with an := if proc = 0 then { s.an with owes0 := false } else { s.an with owes1 := false } }
      { src := 0x20 + proc, kind := 6, sev := 4, slot := 0xFF, t := s.now, val0 := v0, val1 := v1 }
  else s

/-- A used block of setup n is evaluated (13 R328 to R332); b is its last record. -/
def useBlock (s : State) (n : Fin 32) (b : HistRec) : State :=
  let x := s.an.setups[n]
  let used := x.used + 1
  let full := tagOf x.tags 7 0 != 1 || decide (tagOf x.tags 8 1 ≤ used)
  let q := quality x s.slots[x.slot].rate
  let outs := (scalarOutputs x.tags ++ vectorOutputs x.tags).filter fun j => outputDue x j full
  let l := outs.map fun j => featureOf n b (x.block s.slots[x.slot].rate).length q j (outputValues s n j)
  let lines := if tagOf x.tags 7 0 = 0 ∨ (tagOf x.tags 7 0 = 1 ∧ full) then [] else averagedLines s n
  let restart := tagOf x.tags 7 0 = 1 ∧ full
  let means := if restart then [] else nextMeans s n
  let s := s.modSetup n fun y => { y with used := if full then 0 else used, avg := lines, means := means }
  if l.isEmpty then s
  else
    let s := oweRestart s x.proc
    let s := { s with an := { s.an with features := l.foldl keepFeature s.an.features } }
    let s := s.set (AN_EVAL n) (s.get (AN_EVAL n) + 1)
    feedAlarms (routeOutputs (publishOutputs s n x l) n x q l) x b l

/-- Setup n runs (13 R316, R339): defined, not refused, its processor running, its slots enabled. -/
def setupRuns (s : State) (n : Fin 32) : Bool :=
  let x := s.an.setups[n]
  s.live && x.defined && x.ref == 0 && s.get ID_DOMST_WSTATE == 2 && s.bit (if x.proc = 0 then AN_ST_RUN0 else AN_ST_RUN1) && inputsOn s x

/-- A velocity setup's filter after the first k records of its next block (13 R322). -/
def SetupState.passed (x : SetupState) (r k : Nat) : VelRun := if x.func = 2 then (x.filter r (x.hist.take k)).1 else x.vel

/-- The next block of setup n starts a hop on (13 R317), and the filter of a velocity setup runs on to it (R322); slot 11's and the peer's records from before it are done
with. -/
def SetupState.hop (x : SetupState) (r : Nat) : SetupState :=
  let k := x.need r / 2 ^ tagOf x.tags 5 0
  let l := x.hist.drop k
  let t := (l.head?.map (·.t)).getD 0
  { x with hist := l, vel := x.passed r k, angle := x.angle.filter fun r => decide (t ≤ r.t), peer := x.peer.filter (fun p => decide (t ≤ p.t)),
           bads := x.bads.filter fun b => decide (t < b.2) }

/-- Setup n's block is spoilt by a cause among its records, at record k or by a gap before it, and is discarded (13 R319). -/
def spoilBlock (s : State) (n : Fin 32) (k : Nat) (gap : Bool) : State :=
  discardBlock (s.modSetup n fun x => x.skipTo (x.hist.drop (if gap then k else k + 1))) n true

/-- Setup n's block is discarded for a cause beside the records of its slot (13 R319, R325, R327): the next one starts at the first sample record at or after t. -/
def restartBlock (s : State) (n : Fin 32) (t : Nat) : State :=
  discardBlock (s.modSetup n fun x => x.skipTo (x.hist.dropWhile fun y => decide (y.t < t))) n true

/-- Setup n's whole block is discarded (13 R319, R322, R327); the block that a velocity setup discards after another only starts its filter. -/
def dropBlock (s : State) (n : Fin 32) (again : Bool) : State :=
  let r := s.slots[s.an.setups[n].slot].rate
  discardBlock (s.modSetup n fun x => { x.skipTo (x.hist.drop (x.need r)) with vel := x.passed r (x.need r) }) n again

/-- A block of setup n completes: it is discarded or evaluated (13 R319, R322, R325, R327, R328). While it lacks records, its own or the peer's, it has not completed. -/
def completeBlock (s : State) (n : Fin 32) : State :=
  let x := s.an.setups[n]
  let r := s.slots[x.slot].rate
  match blockCause (tagOf x.tags 9 0 == 1) none (x.reach r) 0, x.angleSpoilt, x.peerSpoilt r with
  | some (k, gap), _, _ => spoilBlock s n k gap
  | none, some t, _ => restartBlock s n t
  | none, none, some t => restartBlock s n t
  | none, none, none =>
    if x.hist.length < x.need r then s
    else if x.func = 7 ∧ (x.pairs r).length < x.need r then s
    else if x.again then dropBlock s n false
    else
      match (x.block r).getLast? with
      | none => s
      | some b => (useBlock s n b).modSetup n fun y => { y with hist := (x.hop r).hist, vel := (x.hop r).vel, angle := (x.hop r).angle, peer := (x.hop r).peer, bads := (x.hop r).bads }

/-- AN_EVALUATION. -/
def execAnEvaluation (setup : Fin 32) (s : State) : Host.Outcome State Fault Refusal :=
  .next (if setupRuns s setup then completeBlock s setup else s)

/-- The interval of the open trend points of a setup is over (13 R330): TRSEC grid seconds from its start. -/
def trendOver (s : State) (x : SetupState) : Bool := x.trends.any fun t => decide (t.at_ + x.trsec * 8000000000 ≤ s.now)

/-- AN_TREND_POINT (13 R330). -/
def execAnTrendPoint (setup : Fin 32) (s : State) : Host.Outcome State Fault Refusal :=
  .next (if setupRuns s setup && s.an.setups[setup].route.testBit 1 && trendOver s s.an.setups[setup] then
      closeTrend s setup fun t => t.at_ + s.an.setups[setup].trsec * 8000000000
    else s)

/-- A time step closes every open trend point early (13 R330, R339). -/
def stepAnalysis (s : State) : State :=
  if s.bit AN_ST_RUN0 then
    (List.finRange 32).foldl (fun s (n : Fin 32) => if s.an.setups[n].route.testBit 1 && s.an.setups[n].defined then closeTrend s n (fun _ => s.now) else s) s
  else s

/-- The trend entries of a setup, oldest first (13 R330, 14 R360). -/
def trendEntries (n : Nat) (x : SetupState) : List FeatEntry :=
  ((scalarOutputs x.tags).zip x.trends).flatMap fun p =>
    p.2.points.map fun t =>
      { fid := n * 256 + p.1, q := t.q, etype := 2, t := t.at_, ssn := 0, blen := x.trsec, total := 4, first := 0,
        values := [t.lo, t.mean, t.hi, toF32 t.count 1] }

/-- AN_CMD.TRDUMP (13 R330). -/
def dumpTrends (s : State) (n : Fin 32) : State :=
  if s.keys.lineKey.isSome then publishEntries s (trendEntries n s.an.setups[n]) 27 400 else s

/-- The analysis registers are reachable (01 R27). -/
def workOn (s : State) : Bool := s.get ID_DOMST_WSTATE == 2

/-- AN_TREND_DUMP; while the analysis page is not reachable the write counts in OFFACC (01 R27). -/
def execAnTrendDump (door : Initiator) (setup : Fin 32) (s : State) : Host.Outcome State Fault Refusal :=
  .next (atDoor s door 0x1903 fun s => if !workOn s then s.bump ID_DOMST_OFFACC 1 else if s.live then dumpTrends s setup else s)

/-- A peer's publication meets the cross-spectrum setup n that names it (13 R326, R327): its records join those that pair by grid time, unless its rate is another, which spoils
the blocks that need it; the averages restart on a new run number and when a rate mismatch has ended. -/
def peerArrives (s : State) (n : Fin 32) (p : PeerPub) : State :=
  let x := s.an.setups[n]
  let iv := interval s.slots[x.slot].rate
  let bad := p.rate != s.slots[x.slot].rate
  let restart := (x.peerRun.isSome && x.peerRun != some p.run) || (x.mismatch && !bad)
  let l := (List.range p.recs.length).map fun k => (⟨p.t + k * iv, p.ssn + k, p.run, p.recs.getD k 0⟩ : PeerRec)
  let s := s.modSetup n fun x => { x with peerRun := some p.run, mismatch := bad, peer := if bad then x.peer else x.peer ++ l,
                                          bads := if bad then x.bads ++ [(p.t, p.t + p.recs.length * interval p.rate)] else x.bads, used := if restart then 0 else x.used,
                                          avg := if restart then [] else x.avg, means := if restart then [] else x.means, peerAt := s.now }
  showAnalysis (showSetup s n)

/-- PEER_STREAM_PUBLICATION_RECEIVE. -/
def execPeerStreamPublicationReceive (d : Datagram) (s : State) : Host.Outcome State Fault Refusal :=
  .next (receive s d 1 fun l s =>
    let p := pubOf l
    (List.finRange 32).foldl (fun s (n : Fin 32) =>
      let x := s.an.setups[n]
      if x.func = 7 ∧ setupRuns s n ∧ tagOf x.tags 0x20 0 = p.stn ∧ tagOf x.tags 0x21 0 = p.slot then peerArrives s n p else s) s)

/-- A cross-spectrum's block is whole but for the peer's records, which did not arrive by SKEW after its end (13 R327). -/
def blockLate (s : State) (x : SetupState) : Bool :=
  let r := s.slots[x.slot].rate
  decide (x.need r ≤ x.hist.length) && decide ((x.pairs r).length < x.need r) && ((x.block r).getLast?.any fun b => skewOver s x b.t)

/-- CROSS_SPECTRUM_SKEW_EXPIRY (13 R327): a late block is discarded, the next one starts after it; while no peer records arrive for SKEW, the setup waits for its peer. -/
def execCrossSpectrumSkewExpiry (setup : Fin 32) (s : State) : Host.Outcome State Fault Refusal :=
  .next (if setupRuns s setup && s.an.setups[setup].func == 7 then
      let s := if blockLate s s.an.setups[setup] then dropBlock s setup false else s
      if peerAway s s.an.setups[setup] then showAnalysis (s.set (AN_SET_STATE setup) 2) else s
    else s)

/-- The partition is started (13 R337). -/
def partitionOn (s : State) : Bool := s.live && workOn s && s.get AN_UPST_STATE == 1

/-- The partition runs: it is started, and has not used its share of the present window (13 R336). -/
def partitionRuns (s : State) : Bool := partitionOn s && decide (s.an.upStop ≤ s.pwr.ticks)

/-- Revoke the leases of a holder (13 R337, 10 R263). -/
def revokeHolder (s : State) (h : Nat) : State :=
  (List.finRange 32).foldl (fun s (l : Fin 32) => if s.get (LS_KIND l) = 1 ∧ s.get (LS_HOLDER l) = h then revokeLease s l else s) s

/-- The partition stops on a fault (13 R337). -/
def partitionFault (s : State) (code : Nat) : State :=
  let s := revokeHolder ((s.set AN_UPST_FAULT code).event AN_EVT_UPFAULT) 2
  { s with an := { s.an with upWatch := 0, timer := none, upBad := false, upAt := s.pwr.ticks, upBytes := Vector.replicate 16 0, upRing := Vector.replicate 16 [] } }.set AN_UPST_STATE
    (if 3 ≤ s.get AN_UPST_RESTARTS then 3 else 2)

/-- The cause of a fault code is there (13 R337): an access outside the partition and its mailbox, an illegal instruction, no heartbeat for 1 s. -/
def faultDue (s : State) (code : Nat) : Bool := (code == 1 && s.an.upBad) || (code == 2 && partitionRuns s) || (code == 3 && passed s s.an.upAt 1)

/-- UP_FAULT: codes 1 to 3. -/
def execUpFault (code : Nat) (s : State) : Host.Outcome State Fault Refusal :=
  .next (if partitionOn s && faultDue s code then partitionFault s code else s)

/-- UP_RESTART (13 R337): 10 s after the fault. -/
def execUpRestart (s : State) : Host.Outcome State Fault Refusal :=
  .next (if s.live && workOn s && s.get AN_UPST_STATE == 2 && passed s s.an.upAt 10 then partitionStart (s.bump AN_UPST_RESTARTS 1) (.fault (s.get AN_UPST_FAULT)) else s)

/-- AN_CMD.UPRESTART (13 R337). -/
def upRestartOp (s : State) : State := if s.get AN_UPST_STATE = 2 ∨ s.get AN_UPST_STATE = 3 then partitionStart s .command else s

/-- AN_UP_RESTART_CMD; while the analysis page is not reachable the write counts in OFFACC (01 R27). -/
def execAnUpRestartCmd (door : Initiator) (s : State) : Host.Outcome State Fault Refusal :=
  .next (atDoor s door 0x1903 fun s => if workOn s then upRestartOp s else s.bump ID_DOMST_OFFACC 1)

/-- A window of 10 ms in CLK ticks, counted from the start of the run (13 R336; log entry 97). -/
def shareWindow : Nat := 2000000

/-- UP_PREEMPT (13 R336): the partition has used its share, which it cannot have before that share of the window is over; it is stopped for the rest of the window. -/
def execUpPreempt (s : State) : Host.Outcome State Fault Refusal :=
  .next (if partitionRuns s && decide (s.get AN_UPCFG_SHARE * shareWindow ≤ 100 * (s.pwr.ticks % shareWindow)) then
      { s.bump AN_UPST_PREEMPT 1 with an := { s.an with upStop := (s.pwr.ticks / shareWindow + 1) * shareWindow } }
    else s)

/-- Replace a mailbox slot. -/
def State.modMail (s : State) (m : Fin 16) (f : MailSlot → MailSlot) : State :=
  { s with an := { s.an with mailbox := s.an.mailbox.set m (f s.an.mailbox[m]) } }

/-- A service is answered in its mailbox slot, whose OWN byte goes back, and the mailbox source pulses (13 R338, 18 R446): 0 done, 1 bad argument, 2 refused by world, 3 no
resource, 4 revoked, 5 busy, for which the spec names no case. -/
def serve (s : State) (m : Fin 16) (status : Nat) (words : List Word) : State :=
  (s.modMail m fun x => { x with own := false, status := status, words := words }).pulse 28

/-- A service call of the running partition: its request stands in slot m, with OWN set. -/
def service (s : State) (m : Fin 16) (code : Nat) (f : State → State) : Host.Outcome State Fault Refusal :=
  .next (if partitionRuns s then f (s.modMail m fun x => { x with own := true, service := code }) else s)

/-- UP_HEARTBEAT: the 1 s fault timer starts again; its expiry is UP_FAULT with code 3. -/
def execUpHeartbeat (m : Fin 16) (s : State) : Host.Outcome State Fault Refusal :=
  service s m 1 fun s => serve { s with an := { s.an with upAt := s.pwr.ticks } } m 0 []

/-- UP_TIME: seconds (two words), nanoseconds and the time state. -/
def execUpTime (m : Fin 16) (s : State) : Host.Outcome State Fault Refusal :=
  service s m 2 fun s => serve s m 0 [BitVec.ofNat 32 (s.second / 2 ^ 32), BitVec.ofNat 32 s.second, BitVec.ofNat 32 s.time.ns, BitVec.ofNat 32 s.timeState]

/-- The bytes of the partition's memory that its rings but that of slot i take (13 R338). -/
def ringBytes (s : State) (i : Fin 16) : Nat := ((List.finRange 16).map fun (k : Fin 16) => if k = i then 0 else s.an.upBytes[k]).sum

/-- Give the partition a ring of n bytes for slot i, empty, or take it back with 0. -/
def setUpRing (s : State) (i : Fin 16) (n : Nat) : State :=
  { s with an := { s.an with upWatch := withBit s.an.upWatch i (n != 0), upBytes := s.an.upBytes.set i n, upRing := s.an.upRing.set i [] } }

/-- UP_ATTACH: a ring of 4 KiB or more, within the partition's memory. -/
def execUpAttach (m : Fin 16) (slot bytes : Nat) (s : State) : Host.Outcome State Fault Refusal :=
  service s m 3 fun s =>
    if h : slot < 16 then
      if bytes < 4096 then serve s m 1 []
      else if partitionBytes < ringBytes s ⟨slot, h⟩ + bytes then serve s m 3 []
      else serve (setUpRing s ⟨slot, h⟩ bytes) m 0 []
    else serve s m 1 []

/-- UP_DETACH. -/
def execUpDetach (m : Fin 16) (slot : Nat) (s : State) : Host.Outcome State Fault Refusal :=
  service s m 4 fun s =>
    if h : slot < 16 then serve (setUpRing s ⟨slot, h⟩ 0) m 0 [] else serve s m 1 []

/-- Lease the held blocks of a ring from the one that holds grid time t on (13 R338, service 0x05). -/
def openView (s : State) (m i : Fin 16) (t : Nat) : State :=
  let held := s.deck.rings[i].held.filter fun b => decide (t ≤ b.lastT)
  if blockSecure s 0 then serve s m 2 []
  else
    match leaseSpan s 2 1 i held with
    | some (l, s) => serve s m 0 [BitVec.ofNat 32 l.val]
    | none => if (takeLease s).isNone then serve (s.bump DK_CNT_LSREF 1) m 3 [] else serve s m 1 []

/-- UP_OPEN_VIEW: a span of slot's ring from grid time t (1/8 ns). -/
def execUpOpenView (m : Fin 16) (slot t : Nat) (s : State) : Host.Outcome State Fault Refusal :=
  service s m 5 fun s => if h : slot < 16 then openView s m ⟨slot, h⟩ t else serve s m 1 []

/-- An anchor as words (10 R257; log entry 30): block index, SSN and TAI seconds low word first, nanoseconds, rate code. -/
def anchorWords (a : Anchor) : List Word :=
  [BitVec.ofNat 32 a.block, BitVec.ofNat 32 a.ssn, BitVec.ofNat 32 (a.ssn / 2 ^ 32), BitVec.ofNat 32 (timeSec a.t), BitVec.ofNat 32 (timeSec a.t / 2 ^ 32),
   BitVec.ofNat 32 (timeNs a.t), BitVec.ofNat 32 a.rate]

/-- The anchors of a leased span (13 R338): the ring's newest anchor at or before record first, and those up to record first + n - 1. -/
def viewAnchors (s : State) (l : Fin 32) (first n : Nat) : List Word :=
  let as := s.deck.rings[Fin.ofNat 16 (s.get (LS_IDX l))].anchors
  let before := (as.filter fun a => decide (a.ssn ≤ first)).getLast?.toList
  (before ++ as.filter fun a => decide (first < a.ssn) && decide (a.ssn < first + n)).flatMap anchorWords

/-- UP_READ_VIEW: up to 1 024 records from SSN first on are copied with the anchors before them, and the lease is renewed; after a revocation status 4, and the
Deck-view-fault source pulses (10 R263). -/
def execUpReadView (m : Fin 16) (lease first n : Nat) (s : State) : Host.Outcome State Fault Refusal :=
  service s m 6 fun s =>
    if h : lease < 32 then
      let l : Fin 32 := ⟨lease, h⟩
      if holdsLease s l 2 then
        if 1024 < n then serve s m 1 []
        else serve (noteRead s l (s.get (LS_IDX l)) first n) m 0 (viewAnchors s l first n ++ leasedRecords s l (s.get (LS_IDX l)) first n)
      else serve (s.pulse 26) m 4 []
    else serve s m 1 []

/-- UP_CLOSE_VIEW. -/
def execUpCloseView (m : Fin 16) (lease : Nat) (s : State) : Host.Outcome State Fault Refusal :=
  service s m 7 fun s =>
    if h : lease < 32 then
      if holdsLease s ⟨lease, h⟩ 2 then serve (closeLease s ⟨lease, h⟩) m 0 [] else serve s m 4 []
    else serve s m 1 []

/-- A feature record as words (13 R328; log entry 30): feature ID, quality byte, grid time, SSN, block length, the values. -/
def featureWords (e : FeatEntry) : List Word :=
  [BitVec.ofNat 32 (e.fid * 65536 + e.q), BitVec.ofNat 32 (timeSec e.t), BitVec.ofNat 32 (timeSec e.t / 2 ^ 32), BitVec.ofNat 32 (timeNs e.t),
   BitVec.ofNat 32 e.ssn, BitVec.ofNat 32 (e.ssn / 2 ^ 32), BitVec.ofNat 32 e.blen] ++ e.values

/-- UP_READ_FEATURE. -/
def execUpReadFeature (m : Fin 16) (fid : Nat) (s : State) : Host.Outcome State Fault Refusal :=
  service s m 8 fun s =>
    match s.an.features.find? fun e => e.fid == fid with
    | none => serve s m 1 []
    | some e => serve s m 0 (featureWords e)

/-- UP_PUBLISH: user output as feature 0xF000 + index; its grid time, SSN and block length are not stated: free values (log entry 30). -/
def execUpPublish (m : Fin 16) (out : Nat) (value : Word) (q : Nat) (s : State) : Host.Outcome State Fault Refusal :=
  service s m 9 fun s =>
    if 32 ≤ out then serve s m 1 []
    else
      let a := s.freeWord.1.toNat
      let b := s.freeWord.2.freeWord.1.toNat
      let c := s.freeWord.2.freeWord.2.freeWord.1.toNat
      let s := s.freeWord.2.freeWord.2.freeWord.2
      let e : FeatEntry := { fid := 0xF000 + out, q := q % 256, etype := 0, t := a, ssn := b, blen := c, total := 1, first := 0, values := [value] }
      let s := { s with an := { s.an with features := keepFeature s.an.features e } }
      serve (if s.keys.lineKey.isSome then publishEntries s [e] 35 1 else s) m 0 []

/-- UP_BLAZE: SRC 0x22, severity limited to 11. -/
def execUpBlaze (m : Fin 16) (kind sev : Nat) (v0 v1 : Int) (s : State) : Host.Outcome State Fault Refusal :=
  service s m 10 fun s => serve (issueBlaze s { src := 0x22, kind := kind % 256, sev := min 11 sev, slot := 0xFF, t := s.now, val0 := v0, val1 := v1 }) m 0 []

/-- UP_ENGINE_WORD: status 2 when the pin engines are secure. -/
def execUpEngineWord (m : Fin 16) (e : Nat) (w : Word) (s : State) : Host.Outcome State Fault Refusal :=
  service s m 11 fun s =>
    if blockSecure s 2 then serve s m 2 []
    else if h : e < 8 then serve (txPush s ⟨e, h⟩ w) m 0 [] else serve s m 1 []

/-- UP_TIMER: 1 ms to 60 s. -/
def execUpTimer (m : Fin 16) (us : Nat) (periodic : Bool) (s : State) : Host.Outcome State Fault Refusal :=
  service s m 12 fun s =>
    if us < 1000 ∨ 60000000 < us then serve s m 1 [] else serve { s with an := { s.an with timer := some (us, periodic, s.pwr.ticks) } } m 0 []

/-- UP_TIMER_EXPIRY: the timer's time has passed, its source pulses, and a one-shot timer ends (13 R338, 18 R446). -/
def execUpTimerExpiry (s : State) : Host.Outcome State Fault Refusal :=
  .next (match partitionOn s, s.an.timer with
    | true, some (us, periodic, at_) =>
      if s.pwr.ticks < at_ + us * 200 then s
      else { s with an := { s.an with timer := if periodic then some (us, true, at_ + us * 200) else none } }.pulse 29
    | _, _ => s)

end Sys2Proof.Machine
end

