-- ==== Sys2Proof/Machine/Irq.lean ====
section
/-!
DEFINITION. The interrupt controller (18 R445 to R457, R462, R463): sources, pending and enable bits, event counts, claim and completion, groups, and the
retention of R456.
-/

namespace Sys2Proof.Machine

/-- Replace one target's hidden state. -/
def State.modTarget (s : State) (t : Fin 4) (f : IrqTarget → IrqTarget) : State :=
  { s with bus := { s.bus with targets := s.bus.targets.set t (f s.bus.targets[t]) } }

/-- A processor's target number (18 R445). -/
def Proc.target (p : Proc) : Fin 4 :=
  match p with
  | .sup => 0
  | .net => 1
  | .ana0 => 2
  | .ana1 | .user => 3

/-- Bit n of a set of 160 bits kept in words base to base + 4. -/
def irqBit (s : State) (base n : Nat) : Bool := (s.word (base + n / 32)).getLsbD (n % 32)

/-- Put bit n of a set of 160 bits. -/
def setIrqBit (s : State) (base n : Nat) (b : Bool) : State := s.setB ⟨base + n / 32, n % 32, 1⟩ b

/-- A source whose line is a pulse (18 R446). -/
def irqPulse (n : Nat) : Bool :=
  [1, 5, 6, 10, 20, 21, 22, 24, 25, 26, 28, 29].contains n || (decide (64 ≤ n) && decide (n ≤ 71))

/-- The level of a level source's line (18 R446). -/
def irqLevel (s : State) (n : Nat) : Bool :=
  let any (a : Nat) : Bool := s.word a != 0
  if n = 2 then any 0x105
  else if n = 3 then any 0x00C
  else if n = 4 then any 0x170A
  else if n = 7 then (s.word 0x201).toNat &&& 0xFFFFFFFD != 0
  else if n = 8 then any 0x302
  else if n = 9 then any 0x322
  else if n = 11 then any 0x803
  else if n = 12 then any 0x1003
  else if n = 13 then any 0xA09
  else if n = 14 then any 0x1133
  else if n = 15 then any 0x1101
  else if n = 16 then !s.blaze.fifo.isEmpty
  else if n = 17 then any 0x1218
  else if n = 18 then any 0x1902 && s.get ID_DOMST_WSTATE == 2
  else if 32 ≤ n ∧ n < 48 then any (0x416 + 0x40 * (n - 32)) || any (0x425 + 0x40 * (n - 32))
  else if 48 ≤ n ∧ n < 58 then any (0x402 + 0x40 * (n - 48)) || (n == 54 && s.bit DRV_ST_UNLOCK)
  else false

/-- Source n is secure (18 R446, R463): the fixed ones, and those the world map does not give to the non-secure world. -/
def irqSecure (s : State) (n : Nat) : Bool := decide (n ≤ 5) || !s.bit (IC_SRC_WORLD n)

/-- A claim in the secure world takes every source, one in the non-secure world skips the secure ones (18 R453). -/
def irqWorld (s : State) (secure : Bool) (n : Nat) : Bool := secure || !irqSecure s n

/-- The world in which target t may claim at best (18 R453). -/
def targetSecure (s : State) (t : Fin 4) : Bool :=
  if t = 2 then procSecure s .ana0 else if t = 3 then procSecure s .ana1 else true

/-- Source n would assert target t's line for a claimant of a world (18 R449): enabled, pending, not active, t among its targets. -/
def irqQualifies (s : State) (t : Fin 4) (secure : Bool) (n : Nat) : Bool :=
  irqBit s 0x1600 n && irqBit s 0x1610 n && !irqBit s 0x1620 n && (s.get (IC_SRC_TGT n)).testBit t && irqWorld s secure n

/-- The lowest source that qualifies. -/
def irqNext (s : State) (t : Fin 4) (secure : Bool) : Option Nat := (List.range 160).find? (irqQualifies s t secure)

/-- Target t's line (18 R449). -/
def irqLine (s : State) (t : Fin 4) : Bool := s.bus.targets[t].active.isNone && (irqNext s t (targetSecure s t)).isSome

/-- A target whose line a source with WAKE asserts wakes (18 R455); ANA0 and ANA1 do not run while WORK is off. -/
def wakeTarget (s : State) (t : Fin 4) : State :=
  let wake := (List.range 160).any fun n => s.bit (IC_SRC_WAKE n) && irqQualifies s t (targetSecure s t) n
  if wake && (decide (t.val < 2) || s.get ID_DOMST_WSTATE == 2) then s.set IC_ST_SLEEP (withBit (s.get IC_ST_SLEEP) t false) else s

/-- Bring IC_ST.LINE and the signalled latches up to date: a rise of a line sets its latch (18 R449); a source with WAKE may come while another asserts the line
already (R455). -/
def irqLines (s : State) : State :=
  (List.finRange 4).foldl (fun s (t : Fin 4) =>
    let was := (s.get IC_ST_LINE).testBit t
    let is := irqLine s t
    let s := if is && !was then s.set (IC_TST_SIGNALLED t) 1 else s
    let s := if is then wakeTarget s t else s
    s.set IC_ST_LINE (withBit (s.get IC_ST_LINE) t is)) s

/-- Count c events of source n (18 R447): past 0xFFFFF they go to IC_OVF. -/
def irqCount (s : State) (n c : Nat) : State :=
  let acc := s.get (IC_SRC_ACC n) + c
  if acc ≤ 0xFFFFF then s.set (IC_SRC_ACC n) acc
  else (((s.set (IC_SRC_ACC n) 0xFFFFF).set IC_OVF (s.get IC_OVF + (acc - 0xFFFFF))).set (IC_SRC_SAT n) 1).event IC_EVT_ACCSAT

/-- The pending bit of source n (18 R463). -/
def pendBit (n : Nat) : Field := ⟨0x1610 + n / 32, n % 32, 1⟩

/-- An event of the present tick sets the pending bit of source n (00 R10). -/
def pendEvent (s : State) (n : Nat) : State :=
  (setIrqBit s 0x1610 n true).noted (noteFresh s.fresh (pendBit n) (s.get (pendBit n)) 1)

/-- An edge of source n is an event of the present tick (00 R10), as far as ACC has room for it; it sets the pending bit where the source is in no group (18 R447, R454). -/
def irqEdgeEvent (s : State) (n : Nat) (pend : Bool) : State :=
  let acc := s.get (IC_SRC_ACC n)
  let s := irqCount s n 1
  let s := s.noted (noteFresh s.fresh (IC_SRC_ACC n) acc (s.get (IC_SRC_ACC n) - acc))
  if pend then pendEvent s n else s

/-- What the present tick's events did to a field (00 R10). -/
def freshOf (s : State) (f : Field) : Option Fresh := s.fresh.find? fun x => x.field == f

/-- Source n was pending before the present tick's events. -/
def irqBefore (s : State) (n : Nat) : Bool :=
  match freshOf s (pendBit n) with
  | some x => x.before == 1
  | none => irqBit s 0x1610 n

/-- Source n became pending in the present tick. -/
def irqNew (s : State) (n : Nat) : Bool := irqBit s 0x1610 n && !irqBefore s n

/-- The events of the present tick that a claim or a clear of source n leaves in ACC, because it was pending before the tick (00 R10, 18 R457); those of a grouped source
too, whose edges set no pending bit (R454). -/
def irqLate (s : State) (n : Nat) : Nat :=
  if irqBefore s n then ((freshOf s (IC_SRC_ACC n)).map fun a => min a.n (s.get (IC_SRC_ACC n))).getD 0 else 0

/-- An event of the present tick leaves source n, pending before it, pending after a claim or a clear (00 R10, 18 R457). -/
def irqAgain (s : State) (n : Nat) : Bool := irqBefore s n && (freshOf s (pendBit n)).isSome

/-- Put group g's timer (18 R454). -/
def setGroupAt (s : State) (g : Fin 16) (x : Option Nat) : State := { s with bus := { s.bus with groupAt := s.bus.groupAt.set g x } }

/-- Group g fires (18 R454): every member with a nonzero ACC becomes pending; CUR and the timer clear. -/
def groupFire (s : State) (g : Fin 16) : State :=
  let s := (List.range 160).foldl (fun s n =>
    if s.get (IC_SRC_GROUP n) = g.val + 1 ∧ s.get (IC_SRC_ACC n) ≠ 0 then pendEvent s n else s) s
  setGroupAt (s.set (IC_GST_CUR g) 0) g none

/-- A member's edge in group g (18 R454): the first starts the timer; at COUNT the group fires. -/
def groupEdge (s : State) (g : Fin 16) : State :=
  let s := if s.bus.groupAt[g].isNone then setGroupAt s g (some s.pwr.ticks) else s
  let s := s.bump (IC_GST_CUR g) 1
  if s.get (IC_GCFG_COUNT g) ≤ s.get (IC_GST_CUR g) then groupFire s g else s

/-- The line of source n rises (18 R447, R454). -/
def irqEdge (s : State) (n : Nat) : State :=
  let g := s.get (IC_SRC_GROUP n)
  let s := irqEdgeEvent s n (g == 0)
  irqLines (if g = 0 then s else groupEdge s (Fin.ofNat 16 (g - 1)))

/-- The bits of word j that name a source (18 R446). -/
def irqListedBits (j : Nat) (v : Word) : List Nat := ((List.range 32).filter fun b => v.getLsbD b && irqListed (32 * j + b)).map (32 * j + ·)

/-- A write of IC_ESETj (18 R448). -/
def writeEset (s : State) (j : Nat) (v : Word) : State :=
  irqLines ((irqListedBits j v).foldl (fun s n => setIrqBit s 0x1600 n true) s)

/-- A write of IC_ECLRj (18 R448). -/
def writeEclr (s : State) (j : Nat) (v : Word) : State :=
  irqLines ((irqListedBits j v).foldl (fun s n => setIrqBit s 0x1600 n false) s)

/-- A write of IC_PSETj (18 R447): each bit sets its source pending and counts an event. -/
def writePset (s : State) (j : Nat) (v : Word) : State :=
  irqLines ((irqListedBits j v).foldl (fun s n => setIrqBit (irqCount s n 1) 0x1610 n true) s)

/-- Clear source n's pending bit (18 R448): its events are discarded, but those of the present tick stay, and a bit they set stays set (18 R457). -/
def clearPend (s : State) (n : Nat) : State :=
  if irqBit s 0x1610 n && !irqNew s n then
    (setIrqBit (s.set IC_DISC (s.get IC_DISC + (s.get (IC_SRC_ACC n) - irqLate s n))) 0x1610 n (irqAgain s n)).set (IC_SRC_ACC n) (irqLate s n)
  else s

/-- A write of IC_PCLRj (18 R448). -/
def writePclr (s : State) (j : Nat) (v : Word) : State := irqLines ((irqListedBits j v).foldl clearPend s)

/-- A write of IC_SRCn (18 R463): GROUP 17 to 31 is ignored, and of source 1 only target 0 is writable; a reserved source's word stays 0. -/
def writeIrqSrc (s : State) (n : Nat) (v : Word) : State :=
  if !irqListed n then s
  else
    let s := s.set (IC_SRC_WAKE n) (getBits v 9 1)
    let s := if getBits v 4 5 ≤ 16 then s.set (IC_SRC_GROUP n) (getBits v 4 5) else s
    irqLines (s.set (IC_SRC_TGT n) (if n = 1 then getBits v 0 1 else getBits v 0 4))

/-- A write of IC_GCFGg (18 R463): COUNT 0 is ignored, and TIME outside 1 to 1 000 000. -/
def writeIrqGroup (s : State) (g : Nat) (v : Word) : State :=
  let s := if getBits v 20 8 = 0 then s else s.set (IC_GCFG_COUNT g) (getBits v 20 8)
  if 1 ≤ getBits v 0 20 ∧ getBits v 0 20 ≤ 1000000 then s.set (IC_GCFG_TIME g) (getBits v 0 20) else s

/-- Group g's timer in µs (18 R463). -/
def groupElapsed (s : State) (g : Nat) : Nat :=
  match s.bus.groupAt.toList.getD g none with
  | none => 0
  | some t => min 0xFFFFF ((s.pwr.ticks - t) / 200)

/-- The claim of target t in a world (18 R449, R457): the word it returns, and the state after it; the present tick's edges of a source that was pending before them make it
pending again. A target that holds an active source gets 0. -/
def irqClaim (s : State) (t : Fin 4) (secure : Bool) : Word × State :=
  if s.bus.targets[t].active.isSome then (0, (s.set (IC_LCLM_COUNT t) 0).set (IC_LCLM_SRC t) 0)
  else
    match irqNext s t secure with
    | none =>
      let r := if s.bit (IC_TST_SIGNALLED t) then 255 else 0
      (BitVec.ofNat 32 r, (s.set (IC_LCLM_COUNT t) 0).set (IC_LCLM_SRC t) r)
    | some n =>
      let late := irqLate s n
      let acc := s.get (IC_SRC_ACC n) - late
      let sat := s.bit (IC_SRC_SAT n)
      let s := setIrqBit (setIrqBit s 0x1620 n true) 0x1610 n (irqAgain s n)
      let s := (s.modTarget t fun x => { x with active := some (n, acc, sat) }).set (IC_TST_ACTIVE t) n
      let s := ((s.set (IC_SRC_ACC n) late).set (IC_SRC_SAT n) 0).set (IC_TST_SIGNALLED t) 0
      let s := (s.set (IC_LCLM_COUNT t) acc).set (IC_LCLM_SRC t) n
      (BitVec.ofNat 32 (acc * 4096 + (if sat then 2048 else 0) + n), irqLines s)

/-- End the service of source n at target t (18 R451). -/
def irqEnd (s : State) (t : Fin 4) (n : Nat) : State :=
  (setIrqBit (s.modTarget t fun x => { x with active := none }) 0x1620 n false).set (IC_TST_ACTIVE t) 0

/-- A completion write (18 R451): a level source whose line is high becomes pending again and counts 1; a completion that names another source, or comes from
a world that may not claim it, sets BADCOMP. -/
def irqComplete (s : State) (t : Fin 4) (secure : Bool) (n : Nat) : State :=
  match s.bus.targets[t].active with
  | none => s.event IC_EVT_BADCOMP
  | some (m, _, _) =>
    if m = n ∧ irqWorld s secure n then
      let s := irqEnd s t n
      irqLines (if !irqPulse n && irqLevel s n then setIrqBit (irqCount s n 1) 0x1610 n true else s)
    else s.event IC_EVT_BADCOMP

/-- Save target t (18 R456): its active source is pending again with the count its claim returned, and its signalled latch is kept. -/
def irqSave (s : State) (t : Fin 4) : State :=
  let s := match s.bus.targets[t].active with
    | none => s
    | some (n, c, sat) =>
      let s := setIrqBit (irqCount (irqEnd s t n) n c) 0x1610 n true
      if sat then s.set (IC_SRC_SAT n) 1 else s
  irqLines ((s.modTarget t fun x => { x with saved := s.bit (IC_TST_SIGNALLED t) }).set (IC_TST_SIGNALLED t) 0)

/-- Restore target t's latch (18 R456). -/
def irqRestore (s : State) (t : Fin 4) : State :=
  let s := if s.bus.targets[t].saved then s.set (IC_TST_SIGNALLED t) 1 else s
  s.modTarget t fun x => { x with saved := false }

/-- The line of source n has risen since it was sensed last (18 R446, R447): a pulse is under way, or a level line is high that was low. -/
def lineRose (s : State) (n : Nat) : Bool := if irqPulse n then s.bus.pulses.contains n else irqLevel s n && !s.bus.sensed.contains n

/-- The controller senses the line of source n (18 R447). -/
def senseLine (s : State) (n : Nat) : State :=
  { s with bus := if irqPulse n then { s.bus with pulses := s.bus.pulses.erase n } else { s.bus with sensed := n :: s.bus.sensed } }

/-- The level lines that have fallen since they were sensed may rise again (18 R447). -/
def fallLines (s : State) : State := { s with bus := { s.bus with sensed := s.bus.sensed.filter (irqLevel s) } }

/-- IRQ_SOURCE_EDGE: the rising edge of a source's line is sensed. -/
def execIrqSourceEdge (n : Fin 160) (s : State) : Host.Outcome State Fault Refusal :=
  .next (if s.alive && decide (n.val < 128) && irqListed n && lineRose s n then irqEdge (senseLine s n) n else s)

/-- IRQ_PEND_SET. -/
def execIrqPendSet (door : Initiator) (j : Fin 5) (v : Word) (s : State) : Host.Outcome State Fault Refusal :=
  .next (atDoor s door (0x1610 + j) fun s => writePset s j v)

/-- IRQ_PEND_CLEAR. -/
def execIrqPendClear (door : Initiator) (j : Fin 5) (v : Word) (s : State) : Host.Outcome State Fault Refusal :=
  .next (atDoor s door (0x1618 + j) fun s => writePclr s j v)

/-- IRQ_ENABLE_SET. -/
def execIrqEnableSet (door : Initiator) (j : Fin 5) (v : Word) (s : State) : Host.Outcome State Fault Refusal :=
  .next (atDoor s door (0x1600 + j) fun s => writeEset s j v)

/-- IRQ_ENABLE_CLEAR. -/
def execIrqEnableClear (door : Initiator) (j : Fin 5) (v : Word) (s : State) : Host.Outcome State Fault Refusal :=
  .next (atDoor s door (0x1608 + j) fun s => writeEclr s j v)

/-- IRQ_CLAIM: a read of the claim word of a processor's local port (18 R462). -/
def execIrqClaim (p : Proc) (s : State) : Host.Outcome State Fault Refusal :=
  .next (if procRuns s p then (irqClaim s p.target (procSecure s p)).2.answer (irqClaim s p.target (procSecure s p)).1 else s)

/-- IRQ_COMPLETE: a write of the completion word of a processor's local port (18 R462). -/
def execIrqComplete (p : Proc) (n : Nat) (s : State) : Host.Outcome State Fault Refusal :=
  .next (if procRuns s p then irqComplete s p.target (procSecure s p) n else s)

/-- Group g's timer has reached TIME (18 R454). -/
def groupDue (s : State) (g : Fin 16) : Bool := s.bus.groupAt[g].any fun t => decide (t + 200 * s.get (IC_GCFG_TIME g) ≤ s.pwr.ticks)

/-- IRQ_GROUP_FIRE (18 R454): a running timer reaches TIME. -/
def execIrqGroupFire (g : Fin 16) (s : State) : Host.Outcome State Fault Refusal :=
  .next (if s.alive && groupDue s g then irqLines (groupFire s g) else s)

end Sys2Proof.Machine
end

