-- ==== Sys2Proof/Machine/Work.lean ====
section
/-!
DEFINITION. The WORK domain (01 R24 to R28, R31): power-up and power-down, the Deck controller's and the analysis processors' release, and accesses to WORK
registers while they are not reachable.
-/

namespace Sys2Proof.Machine

/-- A WORK register (01 R27, 19 R470): DK_ACC, DK_REVREC, LS_l and the analysis page. -/
def deckWord (a : Nat) : Bool := a == 0x1131 || a == 0x1132 || a == 0x1135 || (decide (0x1180 ≤ a) && decide (a < 0x11A0))
def anWord (a : Nat) : Bool := decide (0x1900 ≤ a) && decide (a < 0x1A00)

/-- Word a is a WORK register that is not reachable now (01 R27). -/
def workHidden (s : State) (a : Nat) : Bool :=
  (deckWord a && !s.bit DK_ST_ON) || (anWord a && s.get ID_DOMST_WSTATE != 2)

/-- WORK registers take their reset values (19 R470). -/
def resetWork (s : State) : State := { s with regs := s.regs.filter fun p => !(deckWord p.1 || anWord p.1) }

/-- SUP commands WORK power-up (01 R28): at once when WORK is off, after its rails are off when they still fall. -/
def workUp (s : State) : State :=
  if s.get ID_DOMST_WSTATE = 0 then
    let s := (resetWork s).set ID_DOMST_WSTATE 1
    { s with deck := { s.deck with downReq := false }, modes := { s.modes with workAgain := false } }
  else if s.get ID_DOMST_WSTATE = 3 then { s with modes := { s.modes with workAgain := true } }
  else { s with deck := { s.deck with downReq := false } }

/-- Forget the shadow of an initiator (18 R460). -/
def dropShadow (s : State) (i : Initiator) : State := { s with bus := { s.bus with shadows := s.bus.shadows.filter fun x => x.init != i } }

/-- The analysis processors halt (01 R28, 18 R456, R460): their consumers leave the Landing, their interrupts are saved. -/
def haltAnalysis (s : State) : State :=
  let s := stopAnalysis ((s.set AN_ST_RUN0 0).set AN_ST_RUN1 0)
  let s := dropShadow (dropShadow (s.set AN_UPST_STATE 0) (.proc .ana0)) (.proc .ana1)
  let s := irqSave (irqSave s 2) 3
  s.set IC_ST_SLEEP (withBit (withBit (s.get IC_ST_SLEEP) 2 true) 3 true)

/-- Every lease ends without a revocation count (10 R266). -/
def dropLeases (s : State) : State := (List.finRange 32).foldl (fun s l => clearLease s l) s

/-- SUP commands WORK power-down (01 R28): new leases refused, transfers end with WHY 3 (14 R370), the WORK consumers leave the Landing (10 R251), the analysis
processors halt. -/
def workDown (s : State) : State :=
  let s := { s with modes := { s.modes with workAgain := false } }
  if s.get ID_DOMST_WSTATE = 1 ∨ s.get ID_DOMST_WSTATE = 2 then
    let s := detachWork s
    let s := s.net.sessions.foldl (fun s x => endSession s x 3) s
    haltAnalysis ((dropLeases s).set ID_DOMST_WSTATE 3)
  else s

/-- WORK was lost unplanned since its processors ran last, with a fault, a reset or the module's supply (13 R333; log entry 119); one that was going down by a mode change is
not. -/
def lostWork (s : State) : Bool := s.modes.workLost || s.get ID_DOMST_WSTATE == 1 || s.get ID_DOMST_WSTATE == 2

/-- WORK is dropped at once (01 R28, 02 R57), with nothing sent: an unplanned loss (13 R333). -/
def dropWork (s : State) : State :=
  if s.get ID_DOMST_WSTATE = 0 then s
  else
    let s := clearDeck ((dropLeases (haltAnalysis (detachWork s))).set DK_ST_ON 0)
    let s := s.modNet fun n => { n with sessions := [] }
    { resetWork (s.set ID_DOMST_WSTATE 0) with modes := { s.modes with workAgain := false, workLost := lostWork s } }

/-- A write of an analysis register (13 R340): SHARE outside 5 to 60 is ignored. AN_CMD stands apart. -/
def writeAn (s : State) (a : Nat) (v : Word) : State :=
  if a = 0x1906 then (if 5 ≤ getBits v 0 8 ∧ getBits v 0 8 ≤ 60 then storeRw s a v else s) else storeRw s a v

/-- Put a word under a mask (14 R365). -/
def maskedWord (old mask value : Word) : Word := (old &&& ~~~mask) ||| (value &&& mask)

/-- The running Tally's words of the analysis page, and the live changes to them, reach it when it becomes reachable (01 R28: analysis resumes from its Tally
setup; log entry 32). -/
def reapplyAnalysis (s : State) : State :=
  let put (s : State) (a : Nat) (mask v : Word) : State := if anWord a then writeAn s a (maskedWord (s.word a) mask v) else s
  let l := (match s.tally.image with | none => [] | some im => im.records) ++ s.tally.dirty
  l.foldl (fun s r =>
    match r with
    | .word a mask v => put s a mask v
    | .block a vs => (List.range vs.length).foldl (fun s k => put s (a + k) 0xFFFFFFFF (vs.getD k 0)) s
    | _ => s) s

/-- The Deck controller is released (01 R28, 10 R258, R251): the rings are sized and the Landing drains into the Deck. -/
def deckRelease (s : State) : State :=
  drainToDeck (showAcc (startRings (sizeRings ((s.set DK_ST_ON 1).set DK_ACC_TOTAL 32768))))

/-- DECK_CONTROLLER_RELEASE. -/
def execDeckControllerRelease (s : State) : Host.Outcome State Fault Refusal :=
  .next (if s.live && s.get ID_DOMST_WSTATE == 1 && !s.bit DK_ST_ON then deckRelease s else s)

/-- ANA0 and ANA1 are released (01 R28, 18 R456, 13 R316, R333). -/
def anaStart (s : State) : State :=
  let s := irqRestore (irqRestore (s.set ID_DOMST_WSTATE 2) 2) 3
  let s := s.set IC_ST_SLEEP (withBit (withBit (s.get IC_ST_SLEEP) 2 false) 3 false)
  let s := startPartition (startAnalysis (reapplyAnalysis s))
  if s.modes.workLost then
    { s with an := { s.an with owes0 := true, owes1 := true }, modes := { s.modes with workLost := false } }
  else s

/-- ANA_RELEASE. -/
def execAnaRelease (s : State) : Host.Outcome State Fault Refusal :=
  .next (if s.live && s.get ID_DOMST_WSTATE == 1 && s.bit DK_ST_ON then anaStart s else s)

/-- DECK_CONTROLLER_STOP (01 R28, 10 R261): the Deck's contents are lost. -/
def execDeckControllerStop (s : State) : Host.Outcome State Fault Refusal :=
  .next (if s.alive && s.get ID_DOMST_WSTATE == 3 && s.bit DK_ST_ON then clearDeck (s.set DK_ST_ON 0) else s)

/-- The change that waited for WORK to be off is over (16 R412). -/
def endChange (s : State) : State :=
  if s.modes.change = .closing then { s with modes := { s.modes with change := .idle } }.set MD_ST_PENDING 0 else s

/-- WORK_RAILS_OFF (01 R28): WORK is off; it comes up again when it is wanted. -/
def execWorkRailsOff (s : State) : Host.Outcome State Fault Refusal :=
  .next (if s.alive && s.get ID_DOMST_WSTATE == 3 && !s.bit DK_ST_ON then
      let again := s.modes.workAgain
      let s := endChange (resetWork (s.set ID_DOMST_WSTATE 0))
      if again then workUp s else s
    else s)

/-- An access to a WORK register that is not reachable is counted (01 R27). -/
def offAccess (s : State) : State := s.bump ID_DOMST_OFFACC 1

/-- An access to word a that a non-secure processor makes outside its world is a violation, and not counted under 01 R27 (17 R436). -/
def offViolation (s : State) (i : Initiator) (a : Nat) (wr : Bool) : Option State :=
  match i with
  | .proc p => if procSecure s p || (wr && procMayWrite s p a) then none else some (violation s p wr (0x40000000 + 4 * a))
  | _ => none

/-- A read of word a of an unreachable WORK register (01 R27, 17 R436). -/
def offRead (s : State) (i : Initiator) (a : Nat) : State := (offViolation s i a false).getD (offAccess s)

/-- A write of it; one that its door turns away is not one of these accesses. -/
def offWrite (s : State) (i : Initiator) (a : Nat) : State := (offViolation s i a true).getD (if mayWrite s i a then offAccess s else s)

/-- WORK_REG_OFF_ACCESS (01 R27): a read answers 0, a write is ignored. -/
def execWorkRegOffAccess (init : Initiator) (addr : Nat) (wr : Bool) (s : State) : Host.Outcome State Fault Refusal :=
  .next (if s.alive && workHidden s addr && isRegister addr then
      if wr then offWrite s init addr else (offRead s init addr).answer 0
    else s)

end Sys2Proof.Machine
end

