-- ==== Sys2Proof/Machine/Power.lean ====
section
/-!
DEFINITION. Contacts and power (02): supply, inrush, port states, pass-through, the seal, the last gasp and twist-release.
-/

namespace Sys2Proof.Machine

/-- Replace the power die's state. -/
def State.modPwr (s : State) (f : PwrState → PwrState) : State := { s with pwr := f s.pwr }

/-- The field of a port's state (02 R49). -/
def portState (p : Port) : Field := if p = .a then PWR_ST_PSTA else PWR_ST_PSTB

/-- A port's state code. -/
def State.pst (s : State) (p : Port) : Nat := s.get (portState p)

/-- The higher port voltage, in 10 mV, which is the internal supply (02 R41). -/
def Meter.top (m : Meter) : Nat := max m.vA m.vB

/-- A port's voltage, in 10 mV. -/
def Meter.volt (m : Meter) (p : Port) : Nat := if p = .a then m.vA else m.vB

/-- A port's current magnitude, in mA. -/
def Meter.amp (m : Meter) (p : Port) : Nat := if p = .a then m.iA else m.iB

/-- The field of a port's voltage and of its pass-through current (02 R64). -/
def portVolt (p : Port) : Field := if p = .a then PWR_VIN_VA else PWR_VIN_VB
def portAmp (p : Port) : Field := if p = .a then PWR_IPT_IA else PWR_IPT_IB

/-- The power die acts on its ports: the internal supply is up (02 R44, R49), in inrush and in the controller die's reset too. -/
def portsLive (s : State) : Bool := s.pwr.phase == .running || s.pwr.phase == .dieReset || s.pwr.phase == .inrush

/-- Pass-through is enabled on a port (02 R49, R64) and no serial use holds it or waits for it. -/
def ptEnabled (s : State) (p : Port) : Bool :=
  (s.get PWR_CTL_PTEN).testBit (if p = .a then 0 else 1) && !(p == .b && (s.pwr.serialB || s.pwr.wantB))

/-- The port's switch is closed (02 R49). -/
def switchClosed (s : State) (p : Port) : Bool := s.pst p == 2 || s.pst p == 4

/-- The port presents the detection signature (02 R47, R49 and "When events meet"), the module unpowered or on hold-up too: the switch is open, the port is not above
30 V, the power die is not probing it, and no serial use holds it or waits for it, as one does only while the internal supply is up. -/
def presentsSignature (s : State) (p : Port) : Bool :=
  !switchClosed s p && s.pst p != 1 && decide (s.get (portVolt p) ≤ 3000) && !(p == .b && portsLive s && (s.pwr.serialB || s.pwr.wantB))

/-- The state of an open port by its voltage: SINK above 30 V, else IDLE (02 R49; log entry 33 for 2 V to 30 V). -/
def openState (above30 : Bool) : Nat := if above30 then 3 else 0

/-- Port B is below 2 V since a CLK tick, or is not (02 R38): its voltage as last measured, and no detection cycle probes it. -/
def watchLow (s : State) : State :=
  s.modPwr fun p => { p with lowB := if s.get PWR_VIN_VB < 200 ∧ s.pst .b ≠ 1 then some (p.lowB.getD p.ticks) else none }

/-- Put a port into a state (02 R49); an open switch carries no current. -/
def putPort (s : State) (p : Port) (st : Nat) : State :=
  let s := s.set (portState p) st
  watchLow (if st = 2 ∨ st = 4 then s else s.set (portAmp p) 0)

/-- Both pass-through switches open and stay open (02 R57, R61). DESIGN CHOICE (log entry 58): both ports then read OFF, after a twist-release trigger too while supply
persists, where R61 and R49 name no state for a port that was not in DETECT. -/
def openPorts (s : State) : State := putPort (putPort s .a 6) .b 6

/-- Twist-release is armed (02 R59): mounted, enabled and supplied, and the run is not ending (16 R415, R423). -/
def twistArmed (s : State) : Bool :=
  s.bit PWR_ST_MOUNTED && s.bit PWR_CTL_TWEN && (s.bit PWR_ST_INA || s.bit PWR_ST_INB) && !s.modes.stopped && s.mode != 10

/-- Show whether twist-release is armed (02 R59); disarmed, it has no integral in progress (R60). -/
def showArmed (s : State) : State :=
  if twistArmed s then s.set PWR_ST_TWARM 1
  else ((s.set PWR_ST_TWARM 0).set PWR_TWANG_ANGLE 0).modPwr fun p => { p with twist := 0, calm := 0 }

/-- A port's voltage is the module's own (02 R52). -/
def raised (s : State) (p : Port) : Bool := if p = .a then s.pwr.raisedA else s.pwr.raisedB

/-- Note whether a port's voltage is the module's own. -/
def setRaised (s : State) (p : Port) (b : Bool) : State := s.modPwr fun x => if p = .a then { x with raisedA := b } else { x with raisedB := b }

/-- A measured port is fed from outside (02 R41, R52; log entry 34): its switch is not closed from SOURCE, or it lies above the other port. -/
def noteFed (s : State) (p : Port) : State :=
  setRaised s p (raised s p && s.pst p == 2 && decide (s.get (portVolt p) ≤ s.get (portVolt p.other)))

/-- A port's ideal-diode elements conduct (02 R38, R41): its voltage lies within 0.1 V of the higher one and the input is on; not on port B in serial use, and not on
a port whose voltage is the module's own (log entry 34). -/
def conducts (s : State) (p : Port) : Bool :=
  let v := s.get (portVolt p)
  let w := if p = .a ∧ s.pwr.serialB then 0 else s.get (portVolt p.other)
  portsLive s && !(p == .b && s.pwr.serialB) && decide (0 < v) && decide (w ≤ v + 10) && !raised s p

/-- Show which ports supply the module (02 R41, R59, R64). -/
def showInputs (s : State) : State := showArmed ((s.setB PWR_ST_INA (conducts s .a)).setB PWR_ST_INB (conducts s .b))

/-- Show what the power die measures (02 R64): the hold-up store holds at least 24.0 mJ once charged, which it is when inrush is over. -/
def measure (s : State) (m : Meter) : State :=
  let s := watchLow (noteFed (noteFed ((s.set PWR_VIN_VA m.vA).set PWR_VIN_VB m.vB) .a) .b)
  let s := (s.set PWR_IPT_IA (if switchClosed s .a then m.iA else 0)).set PWR_IPT_IB (if switchClosed s .b then m.iB else 0)
  let charged := s.pwr.phase == .running || s.pwr.phase == .dieReset
  showInputs ((s.set PWR_PIN_HOLDUP (if charged then max 240 m.holdup else m.holdup)).set PWR_PIN_PIN m.pin)

/-- Inrush starts at the voltages of a moment (02 R41, R44, R49): both switches are open, twist-release is not armed, and the next start will report a cause that the
event log does not give. -/
def startSupply (s : State) (m : Meter) (cause : Option Nat) : State :=
  let s := disarmTwist (s.modPwr fun p => { p with phase := .inrush, booted := false, cause := cause, serialB := false, wantB := false })
  let s := putPort (putPort s .a (openState (decide (3000 < m.vA)))) .b (openState (decide (3000 < m.vB)))
  measure s m

/-- SUPPLY_RISE (02 R42, R44); a cause that stayed from the loss is reported after the start (02 R62). -/
def execSupplyRise (m : Meter) (s : State) : Host.Outcome State Fault Refusal :=
  .next (if s.pwr.phase == .off && decide (3400 ≤ m.top) then startSupply s m s.pwr.cause else s)

/-- The controller die is held in reset by the power die (01 R19, R28): nothing is sealed or sent, WORK loses its supply, twist-release disarms. -/
def dieReset (s : State) (cause : Nat) : State :=
  (disarmTwist (dropWork s)).modPwr fun p => { p with phase := .dieReset, booted := false, cause := some cause }

/-- PLL_LOCK_LOSS (01 R19). During the last-gasp sequence it is ignored: the spec names no exception to R19 and none to the sequence of 02 R57 either (log entry 108). -/
def execPllLockLoss (s : State) : Host.Outcome State Fault Refusal :=
  .next (if s.pwr.phase == .running then dieReset s 3 else s)

/-- SUP_WATCHDOG_EXPIRY (01 R28). -/
def execSupWatchdogExpiry (s : State) : Host.Outcome State Fault Refusal :=
  .next (if s.pwr.phase == .running && s.pwr.booted then dieReset s 4 else s)

/-- One slot's record of the departure entry (15 R386): 2^48 - 1 where the Landing delivered no record or the consumer is not attached. -/
def depSlot (s : State) (i : Fin 16) : DepSlot :=
  let att := s.get (LD_ATT_ATT i)
  let none48 := 2 ^ 48 - 1
  { slot := i, att := att, last := (lastDelivered s i).getD none48,
    cons := (List.finRange 6).map fun (b : Fin 6) => if att.testBit b then (s.deck.land[i].given[b]).getD none48 else none48 }

/-- Seal the Landing accounting (10 R252): the records after the last delivered ones are withdrawn. -/
def sealLanding (s : State) : State :=
  withdraw (s.modPwr fun p => { p with sealed := true, sealAt := s.now, dep := (enabledSlots s).map (depSlot s) })

/-- Write the departure entry and the frequency estimate that goes with it (15 R385, R386). -/
def logDeparture (s : State) : State :=
  (s.log (.departure s.pwr.twisted (timeSec s.pwr.sealAt) (timeNs s.pwr.sealAt) s.pwr.dep)).log
    (.freqEstimate s.time.y s.hk.temps[4] (hotMinutes s) s.locked)

/-- Supply loss while the module runs (02 R57): ports open, WORK dropped, the accounting sealed, one departure Blaze in a run, the departure entry unless the
sequence is cut short (02 R58); without supply twist-release is not armed (R59). -/
def lastGasp (s : State) (cut : Bool) : State :=
  let s := withdrawFrames (openPorts s) Payload.isPub
  let s := dropWork (if s.pwr.sealed then s else sealLanding s)
  let s := if s.pwr.departed then s else (departureBlaze s 1).modPwr fun p => { p with departed := true }
  let s := if cut then s else logDeparture s
  showInputs (s.modPwr fun p => { p with phase := .lastGasp })

/-- The supply is gone with no firmware to act (02 R57, 01 R28); a cause of twist-release stays for the next start (02 R62). -/
def goDark (s : State) (cause : Option Nat) : State :=
  (disarmTwist (openPorts s)).modPwr fun p => { p with phase := .off, booted := false, cause := cause }

/-- SUPPLY_LOSS (02 R57, R62, 01 R28): the internal supply is below 33.0 V. In START before SUP runs, in inrush, in a controller reset or with the input open there
is no firmware to act. -/
def execSupplyLoss (cut : Bool) (m : Meter) (s : State) : Host.Outcome State Fault Refusal :=
  .next (if decide (m.top < 3300) then
      match s.pwr.phase with
      | .off | .lastGasp => measure s m
      | .running => measure (if s.pwr.booted then lastGasp s cut else goDark s none) m
      | .inrush => measure (goDark s (if s.pwr.cause = some 7 then some 7 else none)) m
      | .dieReset => measure (goDark s none) m
      | .inputOpen => measure (goDark s (some 7)) m
    else s)

/-- LAST_GASP_SEQUENCE_END (02 R57): with the supply above 34.0 V the module starts with inrush, else the power die holds it in reset. -/
def execLastGaspSequenceEnd (m : Meter) (s : State) : Host.Outcome State Fault Refusal :=
  .next (if s.pwr.phase == .lastGasp then if 3400 ≤ m.top then startSupply s m none else measure (goDark s none) m else s)

/-- UNDERVOLTAGE (02 R42): the internal supply lies between 33.0 and 36 V. -/
def execUndervoltage (m : Meter) (s : State) : Host.Outcome State Fault Refusal :=
  .next (if s.pwr.phase == .running && decide (3300 ≤ m.top) && decide (m.top < 3600) then (measure s m).event PWR_EVT_UV else s)

/-- SURGE (02 R43): each excursion above 75 V counts once. -/
def execSurge (m : Meter) (s : State) : Host.Outcome State Fault Refusal :=
  .next (if s.pwr.phase == .running && decide (7500 < m.top) then ((measure s m).event PWR_EVT_SURGE).bump PWR_CNT_SURGECNT 1 else s)

/-- DETECT_CYCLE_START (02 R48, R49). -/
def execDetectCycleStart (port : Port) (s : State) : Host.Outcome State Fault Refusal :=
  .next (if portsLive s && s.pwr.phase != .inrush && s.pst port == 0 then putPort s port 1 else s)

/-- The detection signature of 02 R48, currents in µA: with d = I2 - I1, Rinc = 8.0 V / d between 23.0 and 27.0 kΩ and V0 = 10.0 V - I1 · Rinc between 5.0
and 7.5 V (log entry 35). -/
def signatureValid (i1 i2 : Nat) : Bool :=
  let d := i2 - i1
  decide (i1 < i2) && decide (23000 * d ≤ 8000000) && decide (8000000 ≤ 27000 * d) && decide (8 * i1 ≤ 5 * d) && decide (5 * d ≤ 16 * i1)

/-- A valid signature closes the switch (02 R49, R52): the port is raised to the internal supply. -/
def sourcePort (s : State) (p : Port) : State :=
  showInputs (watchLow (setRaised ((putPort s p 2).set (portVolt p) (max (s.get PWR_VIN_VA) (s.get PWR_VIN_VB))) p true))

/-- DETECT_CYCLE_END (02 R48, R49): the highest voltage of the listening time in 10 mV, and both currents. -/
def execDetectCycleEnd (port : Port) (listen i1 i2 : Nat) (s : State) : Host.Outcome State Fault Refusal :=
  .next (if portsLive s && s.pst port == 1 then
      if listen ≤ 200 ∧ signatureValid i1 i2 then sourcePort s port else putPort s port 0
    else s)

/-- PORT_ABOVE_30V (02 R47, R49): an open port, not held off and not off, becomes SINK; in every phase the signature goes (R47). -/
def execPortAbove30V (port : Port) (m : Meter) (s : State) : Host.Outcome State Fault Refusal :=
  .next (if decide (3000 < m.volt port) then
      measure (if portsLive s && (s.pst port == 0 || s.pst port == 1) then putPort s port 3 else s) m
    else s)

/-- PORT_BELOW_30V (02 R47, R49). -/
def execPortBelow30V (port : Port) (m : Meter) (s : State) : Host.Outcome State Fault Refusal :=
  .next (if decide (m.volt port < 3000) then measure (if portsLive s && s.pst port == 3 then putPort s port 0 else s) m else s)

/-- PORT_JOIN (02 R50): 36 V or more, within 2 V of the internal supply. -/
def execPortJoin (port : Port) (m : Meter) (s : State) : Host.Outcome State Fault Refusal :=
  .next (if portsLive s && s.pst port == 3 && decide (3600 ≤ m.volt port) && decide (m.top ≤ m.volt port + 200) then measure (putPort s port 4) m else s)

/-- PT_CURRENT_FAULT (02 R51, R52): the limit of 2.0 A lies between 1.9 and 2.1 A. -/
def execPtCurrentFault (port : Port) (m : Meter) (s : State) : Host.Outcome State Fault Refusal :=
  .next (if portsLive s && switchClosed s port && decide (1900 ≤ m.amp port) then
      let s := measure (putPort s port 5) m
      if port = .a then (s.event PWR_EVT_PTFLTA).bump PWR_CNT_PTFLTA 1 else (s.event PWR_EVT_PTFLTB).bump PWR_CNT_PTFLTB 1
    else s)

/-- PT_LINK_LOSS_RELEASE (02 R51). -/
def execPtLinkLossRelease (port : Port) (m : Meter) (s : State) : Host.Outcome State Fault Refusal :=
  .next (if portsLive s && switchClosed s port && !linkUp s port && decide (m.amp port < 10) then
      measure (putPort s port (openState (decide (3000 < m.volt port)))) m
    else s)

/-- The station learnt on a port (02 R54, 15 R390); 0xFE none. -/
def neighbour (s : State) (p : Port) : Nat := if p = .a then s.get CP_NBR_STNA else s.get CP_NBR_STNB

/-- DEPARTURE_BLAZE_RECEIVE (02 R51, R54): the adjacent station's departure Blaze. -/
def execDepartureBlazeReceive (port : Port) (blaze : Blaze) (s : State) : Host.Outcome State Fault Refusal :=
  .next (if s.pwr.phase == .running && s.pwr.booted && switchClosed s port && blaze.src == 0 && blaze.kind == 1 && neighbour s port != 0xFE &&
        blaze.stn == neighbour s port then
      (putPort s port 5).event (if port = .a then PWR_EVT_DEPA else PWR_EVT_DEPB)
    else s)

/-- HOLDOFF_END (02 R49). -/
def execHoldoffEnd (port : Port) (m : Meter) (s : State) : Host.Outcome State Fault Refusal :=
  .next (if portsLive s && s.pst port == 5 then measure (putPort s port (openState (decide (3000 < m.volt port)))) m else s)

/-- A port follows its enable (02 R49, R51): off when pass-through is disabled, idle or sink by its voltage when it is enabled again (log entry 33). -/
def followEnable (s : State) (p : Port) : State :=
  if !ptEnabled s p then putPort s p 6
  else if s.pst p = 6 then putPort s p (openState (decide (3000 < s.get (portVolt p))))
  else s

/-- A write of PWR_CTL (02 R65, R51): clearing TWEN disarms and clears the integral; the ports follow PTEN until the seal, which opened them for good (R57, R61). -/
def writePwrCtl (s : State) (v : Word) : State :=
  let s := storeRw s 0x101 v
  showInputs (if s.live then followEnable (followEnable s .a) .b else s)

/-- PWR_CTL_WRITE. -/
def execPwrCtlWrite (door : Initiator) (v : Word) (s : State) : Host.Outcome State Fault Refusal :=
  .next (atDoor s door 0x101 fun s => writePwrCtl s v)

/-- Port B serves the service serial port (02 R38, R49): switch and diode elements are open, the link is lost, the pins of AUX serve the serial use (06 R154). -/
def takeSerial (s : State) : State :=
  let s := showInputs (putPort (s.modPwr fun p => { p with serialB := true, wantB := false }) .b 6)
  auxToSerial (if linkUp s .b then portDown s .b else s)

/-- Port B returns to Ethernet use (02 R49, 16 R408). -/
def leaveSerial (s : State) : State :=
  let was := s.pwr.serialB
  let s := showInputs (followEnable (s.modPwr fun p => { p with serialB := false, wantB := false }) .b)
  if was then auxFromSerial s else s

/-- A mode with serial use takes port B while its switch is closed (02, "When events meet"): the switch opens, the signature is removed, and port B waits for its
voltage to fall. -/
def wantSerial (s : State) : State :=
  if switchClosed s .b then showInputs (putPort (s.modPwr fun p => { p with wantB := true }) .b 6) else s

/-- Port B has been below 2 V for 100 ms, counted from CLK tick t at the earliest (02 R38, 06 R176). -/
def lowSince (s : State) (t : Nat) : Bool := s.pwr.lowB.any fun x => decide (max x t + 20000000 ≤ s.pwr.ticks)

/-- SSP_PORT_B_TAKE (02 R38, 16 R424): in SERVICE and SAFE, with port B's switch open and B below 2 V for 100 ms; else what is measured counts. -/
def execSspPortBTake (m : Meter) (s : State) : Host.Outcome State Fault Refusal :=
  .next (if s.live && (s.mode == 9 || s.mode == 11) && !s.pwr.serialB && !switchClosed s .b then
      let s := measure s m
      if lowSince s 0 then takeSerial s else s
    else s)

/-- TWIST_STILLNESS_MET (02 R59), after a trigger of the same run too. -/
def execTwistStillnessMet (s : State) : Host.Outcome State Fault Refusal :=
  .next (if s.pwr.phase == .running && s.pwr.booted && !s.bit ID_DOMST_RATEG && s.bit DRV_ST_LOCK && !s.bit PWR_ST_MOUNTED then
      showArmed (s.set PWR_ST_MOUNTED 1)
    else s)

/-- The twist-release actions (02 R61) in their order, after which twist-release is disarmed (02 R59); the accounting is sealed and the Blaze sent once in a
run (log entry 108). -/
def twistRelease (s : State) : State :=
  let s := if s.pwr.sealed then s else departureBlaze (sealLanding (withdrawFrames (openPorts s) Payload.isPub)) 2
  let s := (s.event PWR_EVT_TWIST).bump PWR_CNT_TWISTCNT 1
  disarmTwist (s.modPwr fun p => { p with departed := true, twisted := true, twistAt := p.ticks })

/-- The rate of a rate-path sample in the release direction (02 R60, 04 R117), negative GZ, in degrees per second times 7 168, the code of full scale, at the range GZ had then. -/
def twistRate (s : State) (x : Nat × Int) : Int := -x.2 * (if rangeAt s 8 x.1 = 0 then 500 else 4000)

/-- Show the integral of R60: 15° is 15 · 7 168 · 1 600, and a count of the register the 1 500th part of it. -/
def showTwist (s : State) (n calm : Nat) : State :=
  (s.modPwr fun p => { p with twist := n, calm := calm }).set PWR_TWANG_ANGLE (n / 114688)

/-- One sample of the rate path (02 R60): at 60 °/s or more it is integrated; 32 in a row below, 20 ms at 1 600 samples/s, clear the integral; at 15°
twist-release triggers. -/
def twistSample (s : State) (x : Nat × Int) : State :=
  let s := s.modPwr fun p => { p with twistT := x.1 }
  if !s.bit PWR_ST_TWARM then s
  else if 60 * 7168 ≤ twistRate s x then
    let n := s.pwr.twist + (twistRate s x).toNat
    let s := showTwist s n 0
    if 15 * 7168 * 1600 ≤ n then twistRelease s else s
  else if 31 ≤ s.pwr.calm then showTwist s 0 32
  else showTwist s s.pwr.twist (s.pwr.calm + 1)

/-- Samples of the rate path, oldest first, each with its instant in 1/8 ns and its code (02 R60). -/
def twistPath (s : State) (xs : List (Nat × Int)) : State := if s.pwr.phase == .running && s.pwr.booted then xs.foldl twistSample s else s

/-- TWIST_INTEGRAL_CLEAR (02 R60). -/
def execTwistIntegralClear (xs : List (Nat × Int)) (s : State) : Host.Outcome State Fault Refusal := .next (twistPath s xs)

/-- TWIST_RELEASE_TRIGGER (02 R60, R61). While supply loss is handled twist-release is not armed, so that it does not trigger. -/
def execTwistReleaseTrigger (xs : List (Nat × Int)) (s : State) : Host.Outcome State Fault Refusal := .next (twistPath s xs)

/-- TWIST_SUPPLY_PERSISTS (02 R62): 5 s after the trigger the module opens its own input switching. -/
def execTwistSupplyPersists (s : State) : Host.Outcome State Fault Refusal :=
  .next (if s.pwr.phase == .running && s.pwr.twisted && passed s s.pwr.twistAt 5 then
      showInputs ((dropWork s).modPwr fun p => { p with phase := .inputOpen, booted := false })
    else s)

/-- TWIST_RESTART_INRUSH (02 R62): CAUSE will read 0x07. -/
def execTwistRestartInrush (m : Meter) (s : State) : Host.Outcome State Fault Refusal :=
  .next (if s.pwr.phase == .inputOpen then if 3400 ≤ m.top then startSupply s m (some 7) else measure (goDark s (some 7)) m else s)

end Sys2Proof.Machine
end

