-- ==== Sys2Proof/Machine/Modes.lean ====
section
/-!
DEFINITION. Operating modes (16): changes of mode, gates and domains, requests, SETTLE, automatic CLEAN, SAFE, orderly restarts, and START.
-/

namespace Sys2Proof.Machine

/-- Replace the modes' hidden state. -/
def State.modModes (s : State) (f : ModeState → ModeState) : State := { s with modes := f s.modes }

/-- Port B's serial use ends in a mode that has none (16 R424): it has one in KEYLOAD, SERVICE and SAFE. -/
def serialFor (s : State) (m : Nat) : State :=
  if m = 3 ∨ m = 9 ∨ m = 11 then s
  else if s.pwr.serialB ∨ s.pwr.wantB then leaveSerial s
  else s

/-- The seconds in the present mode (16 R427). -/
def modeSeconds (s : State) : Nat := (s.pwr.ticks - s.modes.at_) / 200000000

/-- Coppice is idle outside COPPICE (15 R403). -/
def leaveCoppice (s : State) : State :=
  let s := (s.set CP_CNT_SECS (min 0xFFFF (modeSeconds s))).set CP_ST_STEP 0
  let drop (x : CustPort) : CustPort := match x.fetch with
    | none => { x with look := none }
    | some f => if f.coppice then { x with fetch := none, look := none } else { x with look := none }
  { (s.set CP_ST_WAIT 0) with tally := { s.tally with portA := drop s.tally.portA, portB := drop s.tally.portB } }

/-- A run that the scheduler may not have in the present mode is abandoned (09 R232, R236). -/
def abandonBarred (s : State) : State :=
  match runAxis s with
  | none => s
  | some i => if runPermitted s i then s else abandonRun s i

/-- Enter mode m (16 R404, R427); a capture ends with SERVICE (05 R149), and a run that m does not permit is abandoned. -/
def setMode (s : State) (m : Nat) : State :=
  let s := serialFor s m
  let s := if s.mode = 9 ∧ m ≠ 9 then scalStop s else s
  let s := if s.mode = 4 then leaveCoppice s else s
  let s := ((s.set MD_ST_PREV s.mode).set MD_ST_MODE m).event MD_EVT_CHANGE
  abandonBarred (s.modModes fun x => { x with at_ := s.pwr.ticks })

/-- The gates of mode m (16 R422): the wideband converters, the rate drive with the G axes, and Q. Modes 5, 6 and 9 open all; the ones before SETTLE and UPDATE
change none. -/
def setGates (s : State) (m : Nat) : State :=
  if m = 5 ∨ m = 6 ∨ m = 9 then gateQ (gateDrive (gateW s false) false) false
  else if m = 7 then gateQ (gateDrive (gateW s false) false) true
  else if m = 8 ∨ m = 11 then gateQ (gateDrive (gateW s true) true) true
  else s

/-- WORK in mode m (16 R422). -/
def setWork (s : State) (m : Nat) : State :=
  if m = 5 ∨ m = 6 ∨ m = 9 then workUp s else if m = 7 ∨ m = 8 ∨ m = 10 ∨ m = 11 then workDown s else s

/-- No change of mode is in progress (16 R427). -/
def dropChange (s : State) : State := (s.modModes fun x => { x with change := .idle, auto := false }).set MD_ST_PENDING 0

/-- A firmware release as ID_FWREL lays it out (00 R5). -/
def releaseWord (n : Nat) : Word := BitVec.ofNat 32 n

/-- The running firmware half's release. -/
def halfRelease (s : State) (b : Bool) : Nat := if b then s.flash.relB else s.flash.relA

/-- The trial of a firmware half ends (16 R417): it becomes the active image and the anti-rollback floor rises to its release, which burns a fuse position
(17 R439). -/
def endTrial (s : State) : State :=
  match s.flash.trial with
  | none => s
  | some b =>
    let r := halfRelease s b
    let s := { s with flash := { s.flash with activeB := b, trial := none, trialBooted := false } }
    let s := s.set MD_ST_TRIAL 0
    if s.keys.floor < r ∧ 0 < s.keys.fuses then
      ({ s with keys := { s.keys with floor := r, fuses := s.keys.fuses - 1 } }.setWord 0x180B (releaseWord r)).set WK_FUSE_LEFT (s.keys.fuses - 1)
    else s

/-- The arrival Blaze of the first entry to RUN of a run (11 R278). -/
def arrive (s : State) : State :=
  if s.modes.arrived then s else issueSystem (s.modModes fun x => { x with arrived := true }) 2 2 (s.get ID_RUN_RUN)

/-- The pin engines named in the Tally's start mask run (12 R309, 16 R409, R421). -/
def startEngines (s : State) (restart : Bool) : State :=
  startMasked s s.tally.startMask restart

/-- What entry to mode m brings beside its gates and WORK: RUN and SERVICE end a trial (R417), RUN sends the arrival Blaze (R409), SERVICE takes port B
for serial use (02, "When events meet"). -/
def enterActions (s : State) (m : Nat) : State :=
  if m = 6 then arrive (endTrial s)
  else if m = 9 then
    wantSerial (endTrial s)
  else s

/-- Change to mode m in one tick (16 R413). -/
def changeMode (s : State) (m : Nat) : State := enterActions (setWork (setGates (setMode s m) m) m) m

/-- The entry actions of SETTLE (16 R409), also taken by SERVICE entered from LOAD (R407). The recognisers keep running where they ran. -/
def settleActions (s : State) (wasOn : Bool) : State :=
  let s := startEngines s false
  if wasOn then s else recogStart s

/-- Enter SETTLE (16 R409). -/
def enterSettle (s : State) : State :=
  let on := s.mode == 9
  settleActions (changeMode s 5) on

/-- Enter SAFE for a fault (16 R418, R419); in UPDATE it is logged, in SAFE it is counted, before LOAD there is none. The fault's loss of WORK is not planned (13 R333). -/
def enterSafe (s : State) (code : Nat) : State :=
  if s.mode ≤ 1 then s
  else if s.mode = 10 then s.log (.safe code s.now)
  else if s.mode = 11 then s.bump MD_CNT_LATER 1
  else
    let s := ((setMode (dropChange s) 11).set MD_ST_FAULT code |>.set MD_ST_AUTO 0).modModes fun x => { x with workLost := lostWork s }
    let s := stopEngines (recogStop (abandonAny s))
    let s := setGates (workDown s) 11
    let s := (issueSystem s 3 14 code).log (.safe code s.now)
    (s.event MD_EVT_SAFE).bump MD_CNT_SAFECNT 1

/-- Leave SAFE for SERVICE (16 R420, R421). -/
def safeToService (s : State) : State :=
  recogStart (startEngines (changeMode (s.set MD_ST_FAULT 0) 9) true)

/-- The raised alarms of a processor. -/
def raisedAlarms (s : State) (proc : Nat) : Nat :=
  ((List.finRange 32).filter fun (a : Fin 32) =>
    s.get (alarmField a.val) != 0 && (s.an.setups.toList.getD (tagOf s.an.alarms[a].tags 1 0 / 256) {}).proc == proc).length

/-- The suspended Blazes before a planned WORK power-down into mode m (13 R333). -/
def suspendBlazes (s : State) (m : Nat) : State :=
  if s.get ID_DOMST_WSTATE ≠ 2 then s
  else
    [0, 1].foldl (fun s p =>
      let n := raisedAlarms s p
      if n = 0 then s else issueBlaze s { src := 0x20 + p, kind := 5, sev := 4, slot := 0xFF, t := s.now, val0 := n, val1 := m }) s

/-- Begin a change to a mode with WORK off (16 R412, t = 0). -/
def beginDown (s : State) (m : Nat) (auto : Bool) : State :=
  let s := s.modModes fun x => { x with change := .waiting, target := m, auto := auto, since := s.pwr.ticks }
  suspendBlazes (requestDown (s.set MD_ST_PENDING 1)) m

/-- A pending change set is lost (16 R426): its host gets the second result 0x0A (15 R397). -/
def loseSet (s : State) : State :=
  match s.tally.set with
  | none => s
  | some c =>
    let s := { s with tally := { s.tally with set := none, setStep := false, setEngines := 0 } }
    let s := ((s.setWord 0x1709 0).set TL_RES_CSRES 0x0A).event TL_EVT_CSFAIL
    message s (hostPorts s c.host bothPorts) (hostHead s c.host) (.csResult c.host c.csid 0x0A 0xFFFFFF c.sec) false

/-- Enter the mode of a change under 16 R412: the mode, its gates, WORK's power-down command; an automatic change shows itself (R414). One that leaves SETTLE
fires its triggers (R409), as a requested one did at SETTLE's exit. UPDATE disarms twist-release (R423). -/
def finishDown (s : State) : State :=
  let m := s.modes.target
  let auto := s.modes.auto
  let prev := s.mode
  let s := changeMode s m
  let s := if prev = 5 ∧ (auto ∨ m = 10) then leaveSettle s else s
  let s := if auto then ((s.set MD_ST_AUTO 1).event MD_EVT_AUTOCLEAN).set MD_ST_PREV (if prev = 5 then 6 else prev) else s
  let s := if m = 10 then loseSet (abandonAny (showArmed s)) else s
  if s.get ID_DOMST_WSTATE = 0 then dropChange s else s.modModes fun x => { x with change := .closing, auto := false }

/-- A network lease is open (10 R262). -/
def networkLease (s : State) : Bool := (List.finRange 32).any fun l => s.get (LS_KIND l) == 2

/-- MODE_CHANGE_POWERDOWN (16 R412): no earlier than 5 ms after acceptance. -/
def execModeChangePowerdown (s : State) : Host.Outcome State Fault Refusal :=
  .next (if s.live && s.modes.change == .waiting && decide (s.modes.since + 1000000 ≤ s.pwr.ticks) && !networkLease s then finishDown s else s)

/-- TCASE is above 105.00 °C (16 R411): its newest valid result, in 0.01 °C. -/
def caseHot (s : State) : Bool := match s.hk.temps[4] with | none => false | some v => decide (10500 < v)

/-- The result of a request for mode m (16 R411), the rows in the order: the code, the present mode, a change in progress, the table. -/
def requestResult (s : State) (m : Nat) : Nat :=
  let cur := s.mode
  if !([6, 7, 8, 9, 11].contains m) then 2
  else if cur < 5 ∨ cur = 10 then 1
  else if s.bit MD_ST_PENDING && !(cur == 5 && s.modes.change == .atExit) then 3
  else if cur = m then 6
  else if m = 11 then 0
  else if cur = 8 ∧ caseHot s then 4
  else if cur = 9 ∧ m ≠ 6 then 1
  else if cur = 11 then (if m = 9 ∧ s.get MD_ST_FAULT ≠ 2 ∧ s.get MD_ST_FAULT ≠ 3 then 0 else 5)
  else 0

/-- Carry out an accepted request (16 R411 to R413, R421). SERVICE taken in SETTLE leaves it, which fires its triggers (R409). -/
def takeRequest (s : State) (m : Nat) : State :=
  let cur := s.mode
  let s := s.set MD_ST_AUTO 0
  if m = 11 then enterSafe s 7
  else if cur = 5 ∧ m ≠ 9 then (s.modModes fun x => { x with change := .atExit, target := m, auto := false }).set MD_ST_PENDING 1
  else if cur = 5 then leaveSettle (changeMode (dropChange s) 9)
  else if cur = 6 ∧ m ≠ 9 then beginDown s m false
  else if cur = 9 then enterSettle s
  else if cur = 11 then safeToService s
  else changeMode s m

/-- MD_CMD.REQ (16 R411). -/
def requestMode (s : State) (m : Nat) : State :=
  let r := requestResult s m
  let s := (s.set MD_REQST_REQ m).set MD_REQST_RES r
  if r = 0 then takeRequest s m else s.event MD_EVT_REQREJ

/-- MODE_REQUEST_RUN. -/
def execModeRequestRun (door : Initiator) (s : State) : Host.Outcome State Fault Refusal :=
  .next (atDoor s door 9 fun s => if s.live then requestMode s 6 else s)

/-- MODE_REQUEST_WATCH. -/
def execModeRequestWatch (door : Initiator) (s : State) : Host.Outcome State Fault Refusal :=
  .next (atDoor s door 9 fun s => if s.live then requestMode s 7 else s)

/-- MODE_REQUEST_CLEAN. -/
def execModeRequestClean (door : Initiator) (s : State) : Host.Outcome State Fault Refusal :=
  .next (atDoor s door 9 fun s => if s.live then requestMode s 8 else s)

/-- MODE_REQUEST_SERVICE. -/
def execModeRequestService (door : Initiator) (s : State) : Host.Outcome State Fault Refusal :=
  .next (atDoor s door 9 fun s => if s.live then requestMode s 9 else s)

/-- MODE_REQUEST_SAFE. -/
def execModeRequestSafe (door : Initiator) (s : State) : Host.Outcome State Fault Refusal :=
  .next (atDoor s door 9 fun s => if s.live then requestMode s 11 else s)

/-- SETTLE_EXIT (16 R409): WORK is on; without LOCKED the wait has run out. A requested WATCH or CLEAN goes on under R412 (log entry 36). -/
def settleExit (s : State) (targets : ClassB) : State :=
  let s := if s.locked then s else s.event MD_EVT_SETTLETO
  let m := if s.modes.change = .atExit then s.modes.target else 6
  let s := dropChange s
  if m = 6 then calSettle (changeMode s 6) targets else beginDown (calSettle s targets) m false

/-- What SETTLE waits for (16 R409): LOCKED or the end of SETTLEMAX, the drive's lock or 1 s, WORK on. -/
def settleReady (s : State) : Bool :=
  (s.locked || passed s s.modes.at_ (s.get MD_CFG_SETTLEMAX)) && (s.bit DRV_ST_LOCK || passed s s.modes.at_ 1) && s.get ID_DOMST_WSTATE == 2

/-- SETTLE_EXIT. -/
def execSettleExit (targets : ClassB) (s : State) : Host.Outcome State Fault Refusal :=
  .next (if s.live && s.mode == 5 && s.modes.change != .waiting && settleReady s then settleExit s targets else s)

/-- Three valid TCASE results in a row above 105.00 °C start a change to CLEAN (16 R414): under R412 while WORK is on, in the same tick from WATCH (R413). -/
def autoClean (s : State) : State :=
  if s.bit MD_CFG_AUTOCLEAN && decide (3 ≤ s.hk.hotRun) && (s.mode == 5 || s.mode == 6 || s.mode == 7) &&
      (s.modes.change == .idle || s.modes.change == .atExit) then
    if s.mode = 7 then finishDown (s.modModes fun x => { x with target := 8, auto := true }) else beginDown s 8 true
  else s

/-- HK_ENTRY_END (05 R133, 16 R414): the running entry ends, whose conversions took the inputs xs in 1/256 of their unit. -/
def execHkEntryEnd (xs : List Int) (targets : ClassB) (s : State) : Host.Outcome State Fault Refusal :=
  .next (if sequenceRuns s && !s.hk.passDue then
      let s := endEntry s xs targets
      if s.live then autoClean s else s
    else s)

/-- AUTO_CLEAN_RETURN (16 R414): 60 s in automatic CLEAN without a TCASE result above 100.00 °C. -/
def execAutoCleanReturn (s : State) : Host.Outcome State Fault Refusal :=
  .next (if s.live && s.mode == 8 && s.bit MD_ST_AUTO && s.modes.change == .idle && passed s (max s.modes.at_ s.hk.warmAt) 60 then
      let m := s.get MD_ST_PREV
      (changeMode s m).set MD_ST_AUTO 0
    else s)

/-- The minute that ends now saw TCASE above 105.00 °C and lies after the last one counted (16 R414). -/
def hotMinute (s : State) : Bool :=
  (match s.hk.hotAt with
    | none => false
    | some t => !passed s t 60) &&
  (match s.modes.hot with
    | [] => true
    | t :: _ => passed s t 60)

/-- HOT_MINUTE (16 R414): one more minute above 105.00 °C; when 90 within 24 h are reached HOTLIM is set. -/
def execHotMinute (s : State) : Host.Outcome State Fault Refusal :=
  .next (if s.alive && hotMinute s then
      let before := hotMinutes s
      let s := s.modModes fun x => { x with hot := s.pwr.ticks :: x.hot.filter fun t => !passed s t 86400 }
      let s := s.set MD_HOT_MIN (min 0xFFFF (hotMinutes s))
      if before < 90 ∧ 90 ≤ hotMinutes s then s.event MD_EVT_HOTLIM else s
    else s)

/-- LANDING_ACCOUNT_MISMATCH (10 R253). -/
def execLandingAccountMismatch (s : State) : Host.Outcome State Fault Refusal :=
  .next (if s.live then enterSafe (s.event LD_EVT_ACCERR) 2 else s)

/-- DECK_ACCOUNT_AUDIT (10 R265): SUP's counts of the block table against the counters. -/
def execDeckAccountAudit (free held flight : Nat) (s : State) : Host.Outcome State Fault Refusal :=
  .next (if s.live && s.bit DK_ST_ON && !(free == s.get DK_ACC_FREE && held == s.get DK_ACC_HELD && flight == s.get DK_ACC_FLIGHT) then
      enterSafe (workDown (s.event DK_EVT_ACCERR)) 3
    else s)

/-- The ticks of a list that lie within the last n seconds, with now at its head. -/
def within (s : State) (l : List Nat) (n : Nat) : List Nat := s.pwr.ticks :: l.filter fun t => !passed s t n

/-- ANA_HEARTBEAT_LOSS (01 R28): SUP logs it and cycles WORK; the third within an hour is SAFE fault 0x05 (16 R418). -/
def execAnaHeartbeatLoss (s : State) : Host.Outcome State Fault Refusal :=
  .next (if s.live && s.get ID_DOMST_WSTATE == 2 then
      let s := (s.log (.event 28)).modModes fun x => { x with workLost := true, cycles := within s x.cycles 3600 }
      if 3 ≤ s.modes.cycles.length then enterSafe s 5
      else (workDown s).modModes fun x => { x with workAgain := true }
    else s)

/-- What a NET restart loses (01 R28, 18 R456, R460): NET's unsent publications and features, its shadow; its interrupts are saved and restored. -/
def restartNet (s : State) : State :=
  let s := dropShadow (irqRestore (irqSave s 1) 1) (.proc .net)
  let s := s.net.sessions.foldl (fun s x => (s.set (CY_CAP_STATE x.c) 0).set (CY_CAP_OUT x.c) 0) s
  s.modNet fun n => { n with sessions := [], features := [], streams := n.streams.map fun x => { x with recs := [], t := none, ready := [] } }

/-- NET_HEARTBEAT_LOSS (01 R28): the third within 10 min is SAFE fault 0x04 (16 R418). -/
def execNetHeartbeatLoss (s : State) : Host.Outcome State Fault Refusal :=
  .next (if s.live then
      let s := (restartNet (s.log (.event 28))).modModes fun x => { x with netLost := within s x.netLost 600 }
      if 3 ≤ s.modes.netLost.length then enterSafe s 4 else s
    else s)

/-- The first part of an orderly restart (16 R415): twist-release disarms, the Mill stops, the Landing delivers what is queued to its KEEP consumers, and each
open stream publication closes with END. -/
def beginRestart (s : State) (cause : Nat) : State :=
  let s := showArmed (s.modModes fun x => { x with restart := some cause, stopped := true })
  let s := (List.finRange 16).foldl (fun s (i : Fin 16) =>
    takeRecords s i 0b001110) s
  (List.finRange 16).foldl (fun s (k : Fin 16) =>
    if admitted s k then closePub s k true false s.slots[streamSlot s k].queued else s) s

/-- Send every closed publication of entry k. -/
def flushStream (s : State) (k : Fin 16) (fuel : Nat) : State :=
  match fuel with
  | 0 => s
  | n + 1 => if s.net.streams[k].ready.isEmpty then s else flushStream (sendPub s k) k n

/-- MD_CMD.RESTART (16 R415, R425). -/
def restartCmd (s : State) : State := if s.mode = 10 ∨ s.modes.restart.isSome then s else beginRestart s 5

/-- MODE_RESTART_CMD. -/
def execModeRestartCmd (door : Initiator) (s : State) : Host.Outcome State Fault Refusal :=
  .next (atDoor s door 9 fun s => if s.live then restartCmd s else s)

/-- A write of MD_CMD (16 R411, R415): RESTART takes precedence over a request written with it. -/
def writeMdCmd (s : State) (v : Word) : State := if v.getLsbD 8 then restartCmd s else requestMode s (getBits v 0 4)

/-- A write of MD_CFG (16 R427). -/
def writeMdCfg (s : State) (v : Word) : State :=
  let ok := decide (5 ≤ getBits v 8 8) && decide (getBits v 8 8 ≤ 120)
  storeRw s 0xA (if ok then v else setBits v 8 8 (s.get MD_CFG_SETTLEMAX))

/-- A half verifies (16 R406, 17 R440); half B only once firmware was staged there. -/
def halfOk (s : State) (boot : Boot) (b : Bool) : Bool := if b then boot.okB && s.flash.hasB else boot.okA

/-- What secure boot runs (16 R406, R417): the half, whether it is on trial, and whether a trial was abandoned. A half on trial is booted once; if it fails, or
the module restarted before the trial ended, the previous half boots. -/
def bootChoice (s : State) (boot : Boot) : Option Bool × Bool × Bool :=
  let plain : Option Bool :=
    if halfOk s boot s.flash.activeB then some s.flash.activeB
    else if halfOk s boot (!s.flash.activeB) then some (!s.flash.activeB)
    else none
  match s.flash.trial with
  | none => (plain, false, false)
  | some b =>
    if !s.flash.trialBooted && halfOk s boot b then (some b, true, false)
    else ((if halfOk s boot s.flash.activeB then some s.flash.activeB else none), false, true)

/-- The departure entry of a run, if it was written: whether it was for a twist-release. -/
def departureOf (l : List (Nat × LogEntry)) (run : Nat) : Option Bool :=
  l.findSome? fun e => match e.2 with
    | .departure twist _ _ _ => if e.1 = run then some twist else none
    | _ => none

/-- The cause of the last restart (01 R20, 02 R58): what the power die or SUP recorded, or what the event log tells of a supply loss. -/
def startCause (s : State) : Nat :=
  match s.pwr.cause with
  | some c => c
  | none => match departureOf s.flash.log s.flash.run with
    | some true => 7
    | some false => 1
    | none => 2

/-- The servo output of the newest frequency estimate taken in LOCKED (03 R67). -/
def lastLocked (l : List (Nat × LogEntry)) : Option Int :=
  l.findSome? fun e => match e.2 with
    | .freqEstimate y _ _ true => some y
    | _ => none

/-- MD_HOT.MIN of the newest frequency estimate (16 R428). -/
def lastHot (l : List (Nat × LogEntry)) : Option Nat :=
  l.findSome? fun e => match e.2 with
    | .freqEstimate _ _ hot _ => some hot
    | _ => none

/-- The state START begins with (19 R470): every controller-die register at its reset value, the power die's registers, the flash and the key store as they were.
PWR_CTL is at its reset value, so a port in OFF is enabled again. -/
def freshState (s : State) : State :=
  let keep := s.regs.filter fun p => p.1 == 0x100 || p.1 == 0x102 || p.1 == 0x103 || p.1 == 0x104
  let x : State := { State.reset with
    regs := keep, pwr := { phase := .running, lowB := s.pwr.lowB.map fun _ => 0, raisedA := s.pwr.raisedA, raisedB := s.pwr.raisedB }, flash := s.flash, keys := s.keys, drive := { storedFreq := s.drive.storedFreq }, modes := { workLost := lostWork s }, free := s.free,
    pending := s.pending, hk := { seq := hkSeqReset }, slots := Vector.ofFn fun i => { rate := grRateReset i } }
  let x := x.set PWR_PIN_HOLDUP (max 240 (x.get PWR_PIN_HOLDUP))
  showInputs (followEnable (followEnable (disarmTwist x) .a) .b)

/-- An enrolled module holds the trust anchor and the line key (15 R395, R403). -/
def enrolled (s : State) : Bool := s.keys.lineKey.isSome && s.keys.anchor.isSome

/-- Show what the key store holds (15 R403, 17 R443). -/
def showKeys (s : State) : State :=
  let s := (s.setB WK_ST_LINEKEY s.keys.lineKey.isSome).setB WK_ST_ANCHOR s.keys.anchor.isSome
  let s := (List.range 4).foldl (fun s v => s.setWord (0x1818 + v) (BitVec.ofNat 32 ((s.keys.anchor.map keyId).getD 0 / 2 ^ (32 * (3 - v))))) s
  let s := (s.setWord 0x181C (BitVec.ofNat 32 s.keys.sysid)).setWord 0x181D (BitVec.ofNat 32 (s.keys.sysid / 2 ^ 32))
  s.setB TL_ST_ENROLLED (enrolled s)

/-- The registers SUP fills from the key store, the factory data and the flash at START (00 R5, 09 R243, 14 R341, 15 R403, 17 R443). -/
def fillIdentity (s : State) (cause : Nat) (half trial : Bool) : State :=
  let s := (s.setWord 2 (releaseWord (halfRelease s half))).set ID_RSTCAUSE_CAUSE cause |>.set ID_RUN_RUN s.flash.run
  let s := (s.setB MD_ST_FWSLOT half).setB MD_ST_TRIAL trial
  let s := (s.setWord 0x1004 (Config.factoryWord 0 &&& 0x7FFFFFFF)).setWord 0x1005 (Config.factoryWord 1)
  let s := (s.setWord 0x304 (Config.factoryWord 2)).set NET_MAC_HI ((Config.factoryWord 3).toNat)
  let s := (List.range 8).foldl (fun s w => s.setWord (0x1810 + w) (Config.factoryWord (4 + w))) s
  let s := (s.set WK_ST_IDKEY 1).set WK_ST_FEK 1
  let s := showKeys ((s.setWord 0x180B (releaseWord s.keys.floor)).set WK_FUSE_LEFT s.keys.fuses)
  let s := (List.range 24).foldl (fun s n => s.set (TL_WEAR_COMMITS (n / 8) (n % 8)) (s.flash.wear.toList.getD n 0)) s
  s.setB TL_ST_WEAR (s.flash.wear.toList.any fun n => decide (9000 ≤ n))

/-- START up to the moment the converters wait for REFBUF (16 R406, 03 R67, 08 R221, R428). If neither firmware image verifies, the module stays in START. -/
def startState (s : State) (boot : Boot) : State :=
  let cause := startCause s
  let choice := bootChoice s boot
  let x := freshState s
  let x := if choice.2.2 then ({ x with flash := { x.flash with trial := none, trialBooted := false } }).event MD_EVT_FWFALLBACK else x
  match choice.1 with
  | none => x
  | some half =>
    let x := { x with flash := { x.flash with run := (x.flash.run + 1) % 2 ^ 32, trialBooted := choice.2.1 },
                      pwr := { x.pwr with booted := true }, net := { x.net with mseq := x.flash.mseqRes } }
    let x := fillIdentity x cause half choice.2.1
    let x := x.set PORT_ST_RINGST 3
    let x := x.set HK_CTL_REFEN 1
    let y := (lastLocked x.flash.log).getD 0
    let hot := (lastHot x.flash.log).getD 0
    let x := loadY { x with time := { x.time with acc := roundEven y ((x.time.use.ki : Int) * 65536) * 65536 } } y
    (x.modModes fun m => { m with hot := List.replicate hot 0 }).set MD_HOT_MIN hot

/-- INRUSH_END (02 R44, 16 R406): START begins. -/
def execInrushEnd (boot : Boot) (s : State) : Host.Outcome State Fault Refusal :=
  .next (if s.pwr.phase == .inrush then startState s boot else s)

/-- CONTROLLER_RESET_RELEASE (01 R19, R28). -/
def execControllerResetRelease (boot : Boot) (s : State) : Host.Outcome State Fault Refusal :=
  .next (if s.pwr.phase == .dieReset then startState s boot else s)

/-- START_END (16 R406, 15 R385): REFBUF is ready, the converters are released, the counter starts, LOAD and the key-probe window begin. -/
def execStartEnd (s : State) : Host.Outcome State Fault Refusal :=
  .next (if s.live && s.mode == 1 && !s.pwr.released then
      let s := (refReady s).modPwr fun p => { p with released := true }
      let s := [(3 : Fin 10), 4, 5].foldl startAxis s
      let s := s.log (.runStart s.flash.run s.flash.mseqRes s.timeState (increment s))
      let s := { s with tally := { s.tally with windowOpen := true } }
      setMode s 2
    else s)

/-- ORDERLY_RESTART (16 R415, R416): an UPDATE restarts once WORK is off. -/
def execOrderlyRestart (boot : Boot) (s : State) : Host.Outcome State Fault Refusal :=
  .next (if s.live && (s.modes.restart.isSome || (s.mode == 10 && s.get ID_DOMST_WSTATE == 0)) then
      let cause := s.modes.restart.getD 6
      let s := if s.modes.stopped then s else beginRestart s cause
      let s := (List.finRange 16).foldl (fun s (k : Fin 16) => flushStream s k s.net.streams[k].ready.length) s
      startState (s.modPwr fun p => { p with cause := some cause }) boot
    else s)

end Sys2Proof.Machine
end

