-- ==== Sys2Proof/Machine/Boundary.lean ====
section
/-!
DEFINITION. What happens at second boundaries: the initial set and the accepted step (03 R81, R86) with everything a time step brings, and the slots' enables
and rates (08 R209, R210).
-/

namespace Sys2Proof.Machine

/-- The stream entries that name slot i. -/
def entriesOf (s : State) (i : Fin 16) : List (Fin 16) := (List.finRange 16).filter fun (k : Fin 16) => s.bit (CY_STR_EN k) && s.get (CY_STR_SLOT k) == i.val

/-- The pending publications of slot i's admitted entries, which take what still waits for them, close at a boundary (14 R356), with END when the slot is disabled. -/
def closeStreams (s : State) (i : Fin 16) (fin : Bool) : State :=
  (entriesOf s i).foldl (fun s (k : Fin 16) => if admitted s k then closePub s k fin false s.slots[i].queued else s) (takeRecords s i 2)

/-- A slot is disabled at a boundary (08 R210, 07 R194, 10 R248, R257, 13 R339, 14 R356). -/
def disableSlot (s : State) (i : Fin 16) : State :=
  let s := closeChunk (ringCut (closeStreams s i true) i) i
  let s := (stopBanks s i 0).modSlot i fun x =>
    { x with en := false, rate := s.get (GR_CFG_RATE i), stop := [], resume := false, chg := none, nextT := none, lastT := none, trig := none }
  slotChanged s i

/-- Slot 11 starts its tacho anew at a channel switch (06 R163). -/
def switchTacho (s : State) (i : Fin 16) : State := if i.val = 11 then startTacho s else s

/-- A suppression trigger at a boundary; a calibration run on the slot's axis is abandoned (09 R236). -/
def switchAt (s : State) (i : Fin 16) (S : Nat) : State :=
  let s := switchTacho (suppressAt s i false S) i
  match slotAxis i with
  | none => s
  | some a => abandonIf s a

/-- A slot is enabled at boundary S (08 R210, 07 R194, R198, 14 R355): its first record is that of grid time S. -/
def enableSlot (s : State) (i : Fin 16) (r S : Nat) : State :=
  let s := s.modSlot i fun x => { x with en := true, rate := r, nextT := some S, lastT := none, stop := [], resume := false, chg := none }
  let s := switchAt (startBank s i) i S
  slotChanged ((entriesOf s i).foldl (fun s (k : Fin 16) => admitStream s k s.net.streams[k].host) s) i

/-- The old records of a rate change are queued (08 R210): the slot's streams and its blocks go on at the new code. -/
def rateDone (s : State) (i : Fin 16) (S : Nat) : State :=
  let s := ringCut (takeRecords s i 2) i
  let s := s.modSlot i fun x => { x with chg := none, nextT := some S }
  slotChanged ((entriesOf s i).foldl (fun s (k : Fin 16) => admitStream s k s.net.streams[k].host) s) i

/-- A change is over once no record before its boundary is due any more (08 R210). -/
def finishChange (s : State) (i : Fin 16) : State :=
  match s.slots[i].chg with
  | none => s
  | some (S, en, _) =>
    if s.slots[i].nextT.all fun t => decide (S ≤ t) then (if en then rateDone s i S else disableSlot s i) else s

/-- A time step closes the records that a change still waits for (07 R202), and the change is over. -/
def closeChange (s : State) (i : Fin 16) : State :=
  match s.slots[i].chg, s.slots[i].nextT with
  | some (S, _, _), some t =>
    let s := (oldTimes s.slots[i] S t ((S - t) / 78125 + 1)).foldl (fun s t => queueOld s i t) s
    finishChange (s.modSlot i fun x => { x with nextT := some S }) i
  | _, _ => s

/-- An enabled slot changes its rate code at boundary S (08 R210, 07 R198): the records before S still due keep the old one. -/
def rateSlot (s : State) (i : Fin 16) (r S : Nat) : State :=
  let old := s.slots[i].rate
  let s := showBank ((forceSwap s i).modSlot i fun x => { x with rate := r, chg := some (S, true, old) }) i
  finishChange (switchAt s i S) i

/-- A slot as it was before a change at boundary S that still waits for records. -/
def SlotState.unchanged (x : SlotState) (S : Nat) : SlotState :=
  match x.chg with
  | some (T, en, r) => if T = S then { x with chg := none, rate := if en then r else x.rate } else x
  | none => x

/-- GR_CFG in effect from boundary S on (08 R210), in place of an earlier change at the same boundary; a slot that ends delivers its records up to S. -/
def applyGrCfg (s : State) (i : Fin 16) (S : Nat) : State :=
  let en := s.bit (GR_CFG_EN i)
  let r := s.get (GR_CFG_RATE i)
  let s := s.modSlot i fun x => { x.unchanged S with pendCfg := none }
  let x := s.slots[i]
  if x.en && !en then finishChange (s.modSlot i fun x => { x with chg := some (S, false, x.rate) }) i
  else if !x.en && en then enableSlot s i r S
  else if x.en && x.rate != r then rateSlot s i r S
  else s.modSlot i fun x => { x with rate := r }

/-- A change of slot i may take effect at boundary S: no earlier change is under way, and every record whose span ends before S is queued (07 R189). -/
def changeReady (s : State) (i : Fin 16) (S : Nat) : Bool :=
  s.slots[i].chg.isNone && (s.slots[i].nextT.all fun t => decide (S ≤ t + (if i.val ≤ 10 then slotD s i else 0)))

/-- Add a jump in 1/65 536 ns to the counter (03 R81, R86). -/
def addJump (t : TimeState) (jump : Int) : TimeState :=
  let total := (((t.sec * 1000000000 + t.ns) * 2 ^ 32 + t.frac : Nat) : Int) + jump * 65536
  let n := total.toNat
  { t with sec := n / 2 ^ 32 / 1000000000 % 2 ^ 64, ns := n / 2 ^ 32 % 1000000000, frac := n % 2 ^ 32 }

/-- A time step by a jump (07 R202, 08 R219, 10 R261, 11 R283, 12 R291, 13 R330): the old base's records, the counter, then what follows in that tick. Time
is not LOCKED on the new base until it is reached again. A Pdelay exchange that is open stays so, the jump entering the delay it measures (DESIGN CHOICE, log entry 60). -/
def timeStep (s : State) (cause : Nat) (jump : Int) : State :=
  let s := stepRecords ((List.finRange 16).foldl closeChange s) cause jump
  let s := s.modTime fun t => { addJump t jump with sync := [], lastSync := none, locks := [] }
  let s := s.modTime fun t => { t with base := s.now }
  stepAnalysis (stepEngines (stepMill (flushReorder s) jump))

/-- INITIAL_SET (03 R81), while the re-route guard is open too (log entry 110). -/
def execInitialSet (s : State) : Host.Outcome State Fault Refusal :=
  .next (match s.time.initOfs with
    | none => s
    | some o =>
      if s.live && s.timeState == 0 then
        let s := (timeStep s 1 (-o)).modTime fun t => { t with initOfs := none }
        (setTimeState s 1).event TIME_EVT_INIT
      else s)

/-- STEP_APPLY (03 R86): the candidate, in ns, is added to the counter, while the re-route guard is open too (log entry 110). -/
def execStepApply (s : State) : Host.Outcome State Fault Refusal :=
  .next (if s.live && s.timeState == 4 && s.time.accepted then
      let cand := signed (s.get TIME_CAND_HI * 2 ^ 32 + s.get TIME_CAND_LO) 64
      let s := dropCand (timeStep s 2 (cand * 65536))
      ((setTimeState s 1).event TIME_EVT_ACCEPTED).bump TIME_CNT_ACCCNT 1
    else s)

/-- A write of GR_CFG (08 R209, R210): a forbidden rate code is ignored; the rest waits for the next second boundary. -/
def writeGrCfg (s : State) (i : Fin 16) (v : Word) : State :=
  let r := getBits v 0 4
  let s := s.set (GR_CFG_EN i) (getBits v 5 1)
  let s := if grFastest i ≤ r ∧ r ≤ 10 then s.set (GR_CFG_RATE i) r else s.event (GR_EVT_RATEREJ i)
  s.modSlot i fun x => { x with pendCfg := some s.now }

/-- GR_CFG_WRITE. -/
def execGrCfgWrite (door : Initiator) (slot : Fin 16) (v : Word) (s : State) : Host.Outcome State Fault Refusal :=
  .next (atDoor s door (0x420 + 0x40 * slot.val) fun s => writeGrCfg s slot v)

/-- The second boundary at which a write of GR_CFG made at time w takes effect (08 R210): the first after it, on the present time base. -/
def takesAt (s : State) (w : Nat) : Nat := max (w / 8000000000 + 1) (ceilDiv s.time.base 8000000000) * 8000000000

/-- A write made at time w has reached the boundary at which it takes effect, and no step is due at it (08 R210, R218). -/
def boundaryTakes (s : State) (w : Nat) : Bool := decide (takesAt s w ≤ s.now) && !stepDue s

/-- The slots act on their grids: the module runs and is past LOAD, before which no slot is enabled (16 R422). -/
def gridActs (s : State) : Bool := s.live && !s.modes.stopped && decide (5 ≤ s.mode)

/-- GR_CFG_APPLY (08 R210): the write takes effect at its boundary, once every record whose span ends before it is queued. -/
def execGrCfgApply (slot : Fin 16) (s : State) : Host.Outcome State Fault Refusal :=
  .next (match s.slots[slot].pendCfg with
    | none => s
    | some w => if gridActs s && boundaryTakes s w && changeReady s slot (takesAt s w) then applyGrCfg s slot (takesAt s w) else s)

/-- A record at t waits for a write of GR_CFG that takes effect at or before t (08 R210). -/
def changeDue (s : State) (i : Fin 16) (t : Nat) : Bool := gridActs s && s.slots[i].pendCfg.any fun w => decide (takesAt s w ≤ t)

/-- GRID_SLOT_RECORD (08 R217): the windows that are new to the slot and the outputs of Q pass on; an enabled slot forms the record of its next grid time. A slot that
is not enabled forms none, and its axis's over-range samples still count (05 R128). -/
def execGridSlotRecord (slot : Fin 16) (t : Nat) (live : Live) (taken : Nat) (s : State) : Host.Outcome State Fault Refusal :=
  .next (
    if s.live && s.pwr.released && (!s.slots[slot].en || (nextGrid s slot t && !changeDue s slot t)) then
      let win := newWindows s slot live.win
      let s := noteOver s slot (overCount slot win)
      if s.slots[slot].en then finishChange (formRecord s slot t win live.q taken) slot
      else (noteQ s (qOutputs s slot t {} 0 live.q)).modSlot slot fun x => { x with winT := (win.getLast?.map fun w => w.t).getD x.winT }
    else s)

end Sys2Proof.Machine
end

