-- ==== Sys2Proof/Machine/Write.lean ====
section
/-!
DEFINITION. The write of a register word by its fields (00 R9, 19 R466, R467): the stated range of each field, the generic write, and one dispatch that gives
every word the effect its defining chapter states. The words of the Tally page stand with the Tally.
-/

namespace Sys2Proof.Machine

/-- Reserved bits inside registers whose field tables give them no row of their own (11 R286, 09 R247). -/
def innerReserved (a : Nat) : Nat :=
  if a = 0x1301 then 0xF0E0E0E0
  else if a = 0x1041 ∨ a = 0x1042 then 0xC0C0C0C0
  else if a = 0x1043 ∨ a = 0x1044 then 0xC0000000
  else if a = 0x1045 then 0xFFFFC0C0
  else 0

/-- The bits of word a that belong to fields other than RSV. -/
def fieldBits (a : Nat) : Word :=
  match rowOf a with
  | none => 0
  | some r => BitVec.ofNat 32 ((r.fields.map fun f => 2 ^ (f.hi + 1) - 2 ^ f.lo).sum) &&& ~~~(BitVec.ofNat 32 (innerReserved a))

/-- The stated range of the slot pages' fields (04 R122, 07 R205, 08 R209). -/
def slotFieldOk (i o lo n : Nat) : Bool :=
  if o = 0 then lo != 0 || decide (n ≤ topRange i)
  else if o = 0x10 then lo != 4 || (decide (4 ≤ n) && decide (n ≤ 10))
  else if o = 0x20 then lo != 0 || (decide (grFastest i ≤ n) && decide (n ≤ 10))
  else true

/-- The stated range of the field of word a whose lowest bit is lo, for contents n, where its chapter gives one (19 R467). -/
def fieldOk (a lo n : Nat) : Bool :=
  let within (x y : Nat) : Bool := decide (x ≤ n) && decide (n ≤ y)
  if 0x400 ≤ a ∧ a < 0x800 then slotFieldOk ((a - 0x400) / 0x40) ((a - 0x400) % 0x40) lo n
  else if 0x1420 ≤ a ∧ a < 0x1520 then
    let o := (a - 0x1420) % 0x20
    if o = 0 then (if lo = 8 then decide (n ≤ 10) else if lo = 0 then n != 3 else true)
    else if o = 1 then decide (0x100 ≤ n)
    else if o = 2 then lo != 28 || n != 15
    else true
  else if 0x1640 ≤ a ∧ a < 0x16E0 then lo != 4 || decide (n ≤ 16)
  else if 0x16F0 ≤ a ∧ a < 0x1700 then (if lo = 20 then n != 0 else within 1 1000000)
  else if 0x1140 ≤ a ∧ a < 0x1180 then (lo != 22 && lo != 12) || (a - 0x1140) % 4 != 2 || decide (n ≤ 600)
  else if 0x1320 ≤ a ∧ a < 0x1340 then lo != 16 || decide (n ≤ 191)
  else if 0x810 ≤ a ∧ a < 0x820 then (if lo = 26 then decide (n < 0x28) else if lo = 10 then decide (n ≤ 3) else true)
  else if 0x830 ≤ a ∧ a < 0x833 then lo != 13 || decide (n / 2 ^ 13 < 0x28)
  else if 0xC00 ≤ a ∧ a < 0xEC0 ∧ (a - 0xC00) % 0x20 = 0 then (if lo = 16 then decide (n ≤ 256) else if lo = 0 then decide (n ≤ 4) else true)
  else
    match a with
    | 0x203 => within 1000 1000000000
    | 0x204 => lo != 0 || within 1 3600
    | 0x208 => within 1 200000
    | 0x218 => lo != 8 || (decide (-3 ≤ signed n 8) && decide (signed n 8 ≤ 3))
    | 0x800 => lo != 24 || n != 0
    | 0x880 => lo != 12 || decide (n ≤ 8) || n == 10
    | 0xA02 => (lo != 16 && lo != 0) || n != 0
    | 0xA03 => decide (n ≤ 1)
    | 0xA04 => decide (n ≤ 50000)
    | 0xA06 => lo != 4 || n != 3
    | 0x1000 => within 5 255
    | 0x1201 => lo != 0 || n != 0
    | 0x1208 => (lo != 20 || decide (n ≤ 10)) && (lo != 12 || within 1 100)
    | 0x120B => n != 0
    | 0x1211 => n != 0
    | 0x1300 => lo != 16 || n != 0
    | 0x1906 => within 5 60
    | 0x301 => lo == 4 || n != 0
    | 0x320 => if lo = 24 then within 1 80 else if lo = 16 then decide (n ≤ 80) else n != 0
    | 0xA => lo != 8 || within 5 120
    | _ => true

/-- One field of a generic write (00 R9, 19 R467): RW takes the written value when it is in the field's range, W1C and W1S act on the ones. -/
def writeField (a : Nat) (v : Word) (w : Word) (f : RowField) : Word :=
  let n := getBits v f.lo (f.hi + 1 - f.lo)
  let o := getBits w f.lo (f.hi + 1 - f.lo)
  match f.acc with
  | .rw => if fieldOk a f.lo n then setBits w f.lo (f.hi + 1 - f.lo) n else w
  | .w1c => setBits w f.lo (f.hi + 1 - f.lo) ((BitVec.ofNat 32 o &&& ~~~(BitVec.ofNat 32 n)).toNat)
  | .w1s => setBits w f.lo (f.hi + 1 - f.lo) ((BitVec.ofNat 32 o ||| BitVec.ofNat 32 n).toNat)
  | _ => w

/-- The event bits of word a that the present tick set (00 R10): a write of the same tick does not clear them. -/
def freshBits (s : State) (a : Nat) : Word :=
  s.fresh.foldl (fun w x => if x.field.word = a ∧ (accMask a .w1c).testBit x.field.lo then setBits w x.field.lo x.field.width 1 else w) 0

/-- The generic write of word a. -/
def writeFields (s : State) (a : Nat) (v : Word) : State :=
  match rowOf a with
  | none => s
  | some r => s.setWord a ((r.fields.foldl (writeField a v) (s.word a) &&& ~~~(BitVec.ofNat 32 (innerReserved a))) ||| freshBits s a)

/-- A write of CAL_CMD (09 R247). -/
def writeCalCmd (s : State) (v : Word) : State :=
  let s := if getBits v 0 10 = 0 then s else calRunOp s (getBits v 0 10)
  if v.getLsbD 11 then calClassbOp (freeTargets s 16).2 (freeTargets s 16).1 else s

/-- A write of a word of the calibration page (09 R244, R247): the store takes writes only while the view is open, and they go to the shadow, words that are
read-only in the live view included, so that a saved store can be written back whole. -/
def writeCal (s : State) (a : Nat) (v : Word) : State :=
  if a = 0x1001 then writeCalCmd s v
  else if a = 0x1006 then writeCalRst s v
  else if a = 0x1008 then (if s.get CAL_RSTST_VIEW = 2 then { s with cal := { s.cal with bind := v } } else s)
  else if 0x1010 ≤ a ∧ a ≤ 0x1046 then
    (if s.get CAL_RSTST_VIEW = 2 then { s with cal := { s.cal with shadow := s.cal.shadow.set (a - 0x1010) (v &&& fieldBits a) } } else s)
  else writeFields s a v

/-- A write of DK_CMD (10 R259, R261): releases first, then triggers. -/
def writeDkCmd (s : State) (v : Word) : State :=
  (List.finRange 16).foldl (fun s (c : Fin 16) =>
    let s := if v.getLsbD c.val then relCapture s c else s
    if v.getLsbD (16 + c.val) && s.bit (DK_CAP_EN c) then triggerCapture s c s.now none else s) s

/-- A write of ML_CFG (07 R198, R205): a change of RAW on an enabled slot is a channel switch; a stopped one has its own when it resumes. -/
def writeMlCfg (s : State) (i : Fin 16) (v : Word) : State :=
  let t := writeFields s (0x410 + 0x40 * i.val) v
  if t.get (ML_CFG_RAW i) ≠ s.get (ML_CFG_RAW i) ∧ !s.slots[i].resume then suppressCal t i false else t

/-- A write of a slot page's word (04 R121, 07 R205, 08 R224). -/
def writeSlotPage (s : State) (i o : Nat) (v : Word) : State :=
  if o = 0 ∧ i < 10 then writeAxCfg s (Fin.ofNat 10 i) v
  else if o = 0x10 ∧ i < 11 then writeMlCfg s (Fin.ofNat 16 i) v
  else if o = 0x11 ∧ i < 11 then writeMlCtl s (Fin.ofNat 16 i) v
  else if o = 0x20 then writeGrCfg s (Fin.ofNat 16 i) v
  else writeFields s (0x400 + 0x40 * i + o) v

/-- A write of a converter page's word (05 R151, R152). -/
def writeConverter (s : State) (a : Nat) (v : Word) : State :=
  if a = 0x800 then writeHkCtl s v
  else if a = 0x801 then writeHkCmd s v
  else if 0x810 ≤ a ∧ a < 0x820 then storeRw s a v
  else if a = 0x881 then writeScalCmd s v
  else if 0x880 ≤ a then (if s.mode = 9 then writeFields s a v else s)
  else if 0x830 ≤ a ∧ a < 0x833 then (if getBits v 26 6 < 0x28 then storeRw s a v else s)
  else writeFields s a v

/-- A write of a pin-engine page's word (12 R314). -/
def writeEngines (s : State) (a : Nat) (v : Word) : State :=
  if a = 0x1400 then writeGcmd s v
  else if 0x1580 ≤ a then writeIm s (Fin.ofNat 8 ((a - 0x1580) / 16)) ((a - 0x1580) % 16) v
  else if 0x1420 ≤ a ∧ a < 0x1520 then
    let e := Fin.ofNat 8 ((a - 0x1420) / 0x20)
    let o := (a - 0x1420) % 0x20
    if o = 0xC then txPush s e v
    else if o = 0x12 then peInjectWrite s e (getBits v 0 16)
    else if o = 0xE then writeFields s a v
    else writePe s e o v
  else writeFields s a v

/-- A write of an interrupt page's word (18 R463). -/
def writeIrq (s : State) (a : Nat) (v : Word) : State :=
  if 0x1600 ≤ a ∧ a < 0x1605 then writeEset s (a - 0x1600) v
  else if 0x1608 ≤ a ∧ a < 0x160D then writeEclr s (a - 0x1608) v
  else if 0x1610 ≤ a ∧ a < 0x1615 then writePset s (a - 0x1610) v
  else if 0x1618 ≤ a ∧ a < 0x161D then writePclr s (a - 0x1618) v
  else if 0x1640 ≤ a ∧ a < 0x16E0 then writeIrqSrc s (a - 0x1640) v
  else if 0x16F0 ≤ a ∧ a < 0x1700 then writeIrqGroup s (a - 0x16F0) v
  else writeFields s a v

/-- A write of an analysis page's word (13 R340). -/
def writeAnalysis (s : State) (a : Nat) (v : Word) : State :=
  if a = 0x1903 then
    let s := if v.getLsbD 1 && s.live then dumpTrends s (Fin.ofNat 32 (getBits v 8 5)) else s
    if v.getLsbD 0 then upRestartOp s else s
  else if a = 0x1900 ∨ a = 0x1906 then writeAn s a v
  else writeFields s a v

/-- A write of a recogniser or Blaze page's word (11 R285, R286). -/
def writeRecog (s : State) (a : Nat) (v : Word) : State :=
  if 0x1200 ≤ a ∧ a < 0x1203 then writeRcImp s (a - 0x1200) v
  else if 0x1208 ≤ a ∧ a < 0x120C then writeRcStk s (a - 0x1208) v
  else if 0x1210 ≤ a ∧ a < 0x1212 then writeRcFf s (a - 0x1210) v
  else if a = 0x1306 then (if v.getLsbD 0 then popBlaze s else s)
  else writeFields s a v

/-- A write of the identification, mode, power, time and port pages' words (02 R65, 03 R90, 14 R375, 16 R427). -/
def writeLow (s : State) (host : Option Nat) (a : Nat) (v : Word) : State :=
  if a = 0x9 then (if s.live then writeMdCmd s v else s)
  else if a = 0xA then writeMdCfg s v
  else if a = 0x101 then writePwrCtl s v
  else if a = 0x202 then writeTimeCmd s v
  else if a = 0x301 then writePortCfg s v
  else if 0x330 ≤ a ∧ a < 0x340 then writeStream s (Fin.ofNat 16 (a - 0x330)) v host
  else writeFields s a v

/-- A write of word a, on behalf of a host where one writes, has the effect its defining chapter gives (00 R9); holes and gap words ignore it (19 R465, R466).
The Tally page's words act through Tally.lean. -/
def writeWord (s : State) (host : Option Nat) (a : Nat) (v : Word) : State :=
  if !isRegister a then s
  else match bankWord a with
    | some k => writeBank s k a v
    | none =>
      if a < 0x400 then writeLow s host a v
      else if a < 0x800 then writeSlotPage s ((a - 0x400) / 0x40) ((a - 0x400) % 0x40) v
      else if a < 0x900 then writeConverter s a v
      else if a ≤ 0xA06 then writeAux s a v
      else if a = 0xA20 ∨ a = 0xA21 then writeFields (auxKeep s a) a v
      else if a = 0xA07 then (if v.getLsbD 0 then leadMeasure s else s)
      else if a = 0xB00 then (if v.getLsbD 0 then globalSync s else s)
      else if 0x1000 ≤ a ∧ a < 0x1100 then writeCal s a v
      else if a = 0x1136 then writeDkCmd s v
      else if 0x1140 ≤ a ∧ a < 0x1180 ∧ a % 4 ≠ 3 then writeDkCap s (Fin.ofNat 16 ((a - 0x1140) / 4)) (Fin.ofNat 3 ((a - 0x1140) % 4)) v
      else if 0x1200 ≤ a ∧ a < 0x1400 then writeRecog s a v
      else if 0x1400 ≤ a ∧ a < 0x1600 then writeEngines s a v
      else if 0x1600 ≤ a ∧ a < 0x1700 then writeIrq s a v
      else if 0x1900 ≤ a ∧ a < 0x1A00 then writeAnalysis s a v
      else writeFields s a v

end Sys2Proof.Machine
end

