-- ==== Sys2Proof/Machine/Tally.lean ====
section
/-!
DEFINITION. The Tally (15): the checks of an image, applying its records and its world map, the load check and the ways out of LOAD, commits of live changes,
and the staging window.
-/

namespace Sys2Proof.Machine

/-- The bits of word a that a write acts on: RW, W1S, W1C and WO fields (15 R379). -/
def writeMask (a : Nat) : Word :=
  BitVec.ofNat 32 (accMask a .rw + accMask a .w1c + accMask a .w1s + accMask a .wo) &&& ~~~(BitVec.ofNat 32 (innerReserved a))

/-- The bits of word a in fields of access RO, RC or RL. -/
def readMask (a : Nat) : Word := BitVec.ofNat 32 (accMask a .ro + accMask a .rc + accMask a .rl) &&& ~~~(BitVec.ofNat 32 (innerReserved a))

/-- The value a record or entry gives word a (15 R379, 14 R365): (old AND NOT MASK) OR (VALUE AND MASK); outside its RW fields old counts as 0, so that a W1C,
W1S or WO bit that MASK leaves out is not written. -/
def recordValue (s : State) (a : Nat) (m v : Word) : Word := maskedWord (s.word a &&& BitVec.ofNat 32 (accMask a .rw)) m v

/-- A record or entry gives every field it touches a value in that field's range, and no reserved bit a 1 (15 R387, R396, 19 R467). -/
def recordInRange (s : State) (a : Nat) (m v : Word) : Bool :=
  (v &&& m &&& ~~~(fieldBits a) == 0) &&
    (match rowOf a with
      | none => true
      | some r => r.fields.all fun f =>
          let w := f.hi + 1 - f.lo
          f.acc != .rw || getBits m f.lo w == 0 || fieldOk a f.lo (getBits (recordValue s a m v) f.lo w))

/-- The registers that the world map shows in (17 R432, R443, 18 R463); the first five sources are fixed secure. -/
def applyWorld (s : State) (l : List Nat) : State :=
  let at_ (n : Nat) : Nat := l.getD n 0
  let s := ((s.set WK_MAPB_BLOCKS (at_ 4)).set WK_MAPD_DECK (at_ 8 * 256 + at_ 9)).set WK_ST_MAPTALLY 1
  let s := (List.range 5).foldl (fun s j =>
    s.setWord (0x1803 + j) (BitVec.ofNat 32 (at_ (12 + 4 * j) + 256 * at_ (13 + 4 * j) + 65536 * at_ (14 + 4 * j) + 16777216 * at_ (15 + 4 * j)))) s
  irqLines ((List.range 160).foldl (fun s n =>
    if irqListed n && decide (5 < n) then s.setB (IC_SRC_WORLD n) ((at_ (12 + n / 8)).testBit (n % 8)) else s) s)

/-- A world map is valid (17 R433). -/
def worldOk (l : List Nat) : Bool :=
  let at_ (n : Nat) : Nat := l.getD n 0
  l.length == 32 && l.all (fun b => decide (b < 256)) && at_ 0 == 0 && at_ 1 == 1 && at_ 2 == 0 && at_ 3 == 0 && decide (at_ 4 < 32) &&
    at_ 5 == 0 && at_ 6 == 0 && at_ 7 == 0 && at_ 10 == 0 && at_ 11 == 0 && at_ 12 % 64 == 0

/-- The module has a new host list (15 R380): a session's shadow goes when its host leaves (18 R460), and so does what is kept for the host. -/
def setHosts (s : State) (l : List HostEntry) : State :=
  let old := s.tally.hosts
  let s := { s with bus := { s.bus with shadows := s.bus.shadows.filter fun x => match x.init with
    | .host h => (old[h]?).map (fun (e : HostEntry) => e.sender) == (l[h]?).map (fun (e : HostEntry) => e.sender)
    | _ => true } }
  let s := s.modNet fun n => { n with hosts := n.hosts.filter fun x => l.any fun h => h.sender == x.sender }
  s.modTally fun t => { t with hosts := l }

/-- Two setup records differ in nothing but route parameters (13 R329, R339). -/
def sameButRoutes (x y : List (Nat × Nat)) : Bool :=
  let core (l : List (Nat × Nat)) : List (Nat × Nat) := l.filter fun p => !(p.1 == 0xA || (decide (0xC ≤ p.1) && decide (p.1 ≤ 0x11)))
  (core x).all (core y).contains && (core y).all (core x).contains

/-- Setup n takes a record (13 R316, R339). -/
def putSetup (s : State) (n : Fin 32) (tags : List (Nat × Nat)) : State :=
  s.modSetup n fun x => if sameButRoutes x.tags tags then { x with tags := tags } else ({ tags := tags } : SetupState).fresh s.now

/-- A named parameter keeps the table of 15 R380; setups are those of the same Tally (13 R334, R335), given by number and tags. -/
def namedOk (stn : Nat) (setups : List (Nat × List (Nat × Nat))) (r : TallyRec) : Bool :=
  match r with
  | .station n => decide (n ≤ 191) && n == stn
  | .ipv4 a p g => decide (a < 2 ^ 32) && decide (p ≤ 32) && decide (g < 2 ^ 32)
  | .ipv6 a p => decide (a < 2 ^ 128) && decide (p ≤ 128)
  | .hosts l => decide (1 ≤ l.length) && decide (l.length ≤ 16)
  | .mrp _ _ u => decide (u < 2 ^ 128)
  | .groups _ _ _ _ => true
  | .startMask m => decide (m < 256)
  | .userCal i g o => decide (i ≤ 10) && decide (g < 2 ^ 24) && decide (o < 2 ^ 24)
  | .setup n t => decide (n < 32) && setupValid t
  | .alarm a t => decide (a < 32) && alarmValid setups t
  | _ => false

/-- A named parameter takes effect (15 R380). SCAL_GAIN9 and SCAL_OFS9 ignore writes (05 R152). -/
def putNamed (s : State) (r : TallyRec) : State :=
  match r with
  | .ipv4 a p g => ((s.set NET_IP4_ADDR a).set NET_GW4_ADDR g).set NET_PFX_LEN p
  | .ipv6 a p => s.modNet fun n => { n with ip6 := (a, p) }
  | .hosts l => setHosts s l
  | .mrp e f u => showRingSt (s.modNet fun n => { n with mrpOn := e, mrpFast := f, mrpUuid := u })
  | .groups b4 b6 s4 s6 => s.modNet fun n => { n with blazeGroup := (b4, b6), streamGroup := (s4, s6) }
  | .startMask m => s.modTally fun t => { t with startMask := m }
  | .userCal i g o => if i = 9 then s else setUser s (Fin.ofNat 16 i) g (signed o 24)
  | .setup n t => putSetup s (Fin.ofNat 32 n) t
  | .alarm a t => s.modAlarm (Fin.ofNat 32 a) fun x => { x with tags := t }
  | _ => s

/-- The setup records of a list. -/
def setupRecords (l : List TallyRec) : List (Nat × List (Nat × Nat)) :=
  l.filterMap fun r => match r with
    | .setup n t => some (n, t)
    | _ => none

/-- The first check of 15 R387 from 0x03 on that an image fails, 0 when it passes. -/
def imageCheck (s : State) (im : Image) : Nat :=
  if !im.formOk || decide (191 < im.stn) then 3
  else if !enrolled s || s.keys.anchor.map keyId != some im.keyid then 4
  else if !im.sigOk (s.keys.anchor.getD 0) then 5
  else if im.trailer.isSome && !im.tagOk (s.keys.lineKey.getD 0) then 6
  else if (s.word 2).toNat < im.fwMin then 7
  else if im.sysid ≠ s.keys.sysid then 8
  else 0

/-- The check of a sealed position (15 R387). -/
def sealedCheck (s : State) (x : SealRec) : Nat := match s.flash.vouched x with
  | none => 2
  | some im => imageCheck s im

/-- Put a seal before the first one of lower COMSEQ. -/
def insertSeal (l : List SealRec) (x : SealRec) : List SealRec :=
  match l with
  | [] => [x]
  | y :: rest => if y.comseq < x.comseq then x :: y :: rest else y :: insertSeal rest x

/-- The sealed own positions, each by its newest seal, in decreasing COMSEQ (15 R387). -/
def sealedOwn (s : State) : List SealRec := ((List.range 8).filterMap (s.flash.sealAt 0)).foldl insertSeal []

/-- The load check (15 R387, R388): the newest position's result, and the newest passing of the older ones. -/
def loadCheck (s : State) : State :=
  let l := sealedOwn s
  let res := match l.head? with
    | none => 1
    | some x => sealedCheck s x
  let older := ((l.drop 1).find? fun x => sealedCheck s x == 0).map (·.pos)
  let s := showComseq ((s.modTally fun t =>
    { t with checked := true, loadPos := if res = 0 then (l.head?).map (·.pos) else none, olderPos := older }).set TL_ST_LRES res)
  if res = 0 then s else (s.event TL_EVT_LOADFAIL).log (.refusal 388)

/-- TALLY_LOAD_CHECK (15 R387): in LOAD, and in KEYLOAD entered before the check was done. -/
def execTallyLoadCheck (s : State) : Host.Outcome State Fault Refusal :=
  .next (if s.live && (s.mode == 2 || s.mode == 3) && !s.tally.checked then loadCheck s else s)

/-- Coppice listens (15 R392 step 1): for 3 s from now, or from the first link up when no link is up. -/
def listen (s : State) : State :=
  ((s.set CP_ST_STEP 1).set CP_ST_WAIT 0).modTally fun t => { t with listenAt := if linkUp s .a || linkUp s .b then some s.pwr.ticks else none }

/-- Enter COPPICE (16 R407, 15 R392): an enrolled module listens, another waits for enrollment. -/
def enterCoppice (s : State) : State :=
  let s := (changeMode s 4).modTally fun t => { t with failA := false, failB := false, fetched := none, listenAt := none, enrollAt := none, enrollKey := none, enrolling := none }
  if enrolled s then listen s else coppiceWait s 1

/-- The modes in which change sets, commits and staging are taken (15 R396, reason 0x0A). -/
def liveMode (s : State) : Bool := decide (6 ≤ s.mode) && decide (s.mode ≤ 9)

/-- Every live change since the base was loaded (15 R399). -/
def allChanges (s : State) (im : Image) : List TallyRec :=
  s.tally.dirty.foldl mergeLive ((im.trailer.map (·.changes)).getD [])

/-- The image a commit builds (15 R399): the base image with a trailer of every live change, whose NONCE takes the next MSEQ. -/
def commitImageOf (s : State) (im : Image) (sender : Nat) : Image :=
  im.withTrailer { cseq := ((im.trailer.map (·.cseq)).getD 0) + 1, sender := sender, csid := s.tally.applied,
                   nonce := (s.word 0x1004).toNat * 2 ^ 64 + s.net.mseq, changes := allChanges s im } (s.keys.lineKey.getD 0)

/-- Why a commit is refused, 0 when it is accepted (15 R400). -/
def commitRefusalCode (s : State) (im : Image) : Nat :=
  if im.nolive then 1
  else if s.tally.dirty.isEmpty then 2
  else if s.tally.set.isSome then 3
  else if 1048576 < (commitImageOf s im 0).size then 4
  else if !liveMode s then 5
  else if s.tally.commit.isSome ∨ s.tally.staging.isSome then 7
  else 0

/-- A commit refused (15 R400). -/
def refuseCommit (s : State) (why : Nat) : State := (s.set TL_RES_CRES why).event TL_EVT_COMMITFAIL

/-- Own position p is erased to make room for another image (15 R383, R401). -/
def voidOwn (s : State) (p : Nat) : State := s.setContent 0 p []

/-- TL_CMD.COMMIT (15 R399, R400): build the image with its trailer. Without a base image there is no live change. -/
def commitOp (s : State) (sender : Nat) : State :=
  match s.tally.image with
  | none => refuseCommit s 2
  | some im =>
    let why := commitRefusalCode s im
    if why ≠ 0 then refuseCommit s why
    else
      let new := commitImageOf s im sender
      let s := voidOwn (reserveSeq s.cystad) (s.flash.nextPos 0)
      (s.modTally fun t => { t with commit := some new, commitSeq := s.flash.comseq, commitRetry := false }).set TL_ST_BUSY 1

/-- The own Tally image (14 R371, R373): the one sealed in this run, or the one that runs. -/
def ownTally (s : State) : Option Image := s.tally.newOwn.or s.tally.image

/-- The own hello of a port (14 R371). -/
def ownHello (s : State) (p : Port) : Hello :=
  let held := s.flash.latest p.region
  { stn := s.get BZ_CFG_STN, mode := s.mode, ownValid := (ownTally s).isSome, holds := held.isSome,
    serial := (s.word 0x1004).toNat + 2 ^ 32 * (s.word 0x1005).toNat, run := s.get ID_RUN_RUN,
    tdig := ((ownTally s).map fun im => dig16 im.digest).getD 0, cdig := (held.map fun x => dig16 x.digest).getD 0,
    cstn := (held.map fun x => x.stn).getD 0xFE }

/-- Send a custody hello on a port (14 R371); without a line key no message is sent (R351). -/
def sendHello (s : State) (p : Port) : State :=
  if linkUp s p then message s [p] (custodyHead s) (.hello (ownHello s p) (if p = .a then 1 else 2)) false else s

/-- Send a custody offer of the own image on a port (14 R373). -/
def sendOffer (s : State) (p : Port) : State :=
  match ownTally s with
  | none => s
  | some im => if linkUp s p then message s [p] (custodyHead s) (.offer im.stn im.size (dig16 im.digest)) false else s

/-- Both ports hear of a new own image (15 R399, 14 R371, R373). -/
def announceImage (s : State) : State := sendOffer (sendOffer (sendHello (sendHello s .a) .b) .a) .b

/-- A new own image is sealed that a restart will run (15 R389, R392, R401): both ports hear of it (14 R371, R373). -/
def newOwn (s : State) (im : Image) : State := announceImage (s.modTally fun t => { t with newOwn := some im })

/-- A commit of live changes is sealed (15 R399). -/
def sealCommit (s : State) (im : Image) (p : Nat) : State :=
  let s := sealImage s 0 p im s.tally.commitSeq 1
  let s := s.modTally fun t => { t with commit := none, image := some im, newOwn := none, dirty := [] }
  let s := ((((showDirty s).set TL_RES_CRES 0).set TL_ST_BUSY 0).event TL_EVT_COMMITOK).set TL_ST_SRC 1
  let s := ((s.set TL_ST_POS p).set TL_ST_TRAILER 1).setWord 0x1704 (BitVec.ofNat 32 ((im.trailer.map (·.cseq)).getD 0))
  announceImage s

/-- FREQ_ESTIMATE_LOG (15 R385, 16 R428); a write of the event log that has failed three times is SAFE fault 0x06 (16 R418, log entry 122). -/
def execFreqEstimateLog (fails : Nat) (s : State) : Host.Outcome State Fault Refusal :=
  .next (if s.live && s.locked then
      if 3 ≤ fails then enterSafe s 6 else s.log (.freqEstimate s.time.y s.hk.temps[4] (hotMinutes s) true)
    else s)

/-- A commit whose seal could not be written ends without a seal (15 R383), and is SAFE fault 0x06 (16 R418). -/
def sealFailed (s : State) : State := enterSafe ((s.modTally fun t => { t with commit := none }).set TL_ST_BUSY 0) 6

/-- TALLY_COMMIT_DONE (15 R383, R399, R400): the read-back's digest matches, or the next position is tried once; the write of the seal may have failed. -/
def execTallyCommitDone (digestOk : Bool) (fails : Nat) (s : State) : Host.Outcome State Fault Refusal :=
  .next (match s.live, s.tally.commit with
    | true, some im =>
      let p := (s.flash.nextPos 0 + (if s.tally.commitRetry then 1 else 0)) % 8
      if digestOk then (if 3 ≤ fails then sealFailed s else sealCommit s im p)
      else if s.tally.commitRetry then refuseCommit ((s.modTally fun t => { t with commit := none }).set TL_ST_BUSY 0) 6
      else
        let s := voidOwn (reserveSeq s) ((p + 1) % 8)
        s.modTally fun t => { t with commitRetry := true, commitSeq := s.flash.comseq }
    | _, _ => s)

/-- The SENDER of the host behind a door; 0 for the processors and the service serial port, which no host list names (log entry 38). -/
def doorSender (s : State) (door : Initiator) : Nat := (doorHost s door).getD 0

/-- TALLY_COMMIT_CMD. -/
def execTallyCommitCmd (door : Initiator) (s : State) : Host.Outcome State Fault Refusal :=
  .next (atDoor s door 0x1706 fun s => if s.live then commitOp s (doorSender s door) else s)

/-- Staging refused or failed (15 R403). -/
def refuseStaging (s : State) (why : Nat) : State := (s.set TL_RES_SRES why).event TL_EVT_STGREJ

/-- The firmware half that staging writes (15 R401): the one that does not run. -/
def idleHalf (s : State) : Bool := !s.bit MD_ST_FWSLOT

/-- TL_CMD.STGOPEN (15 R401): the target is erased, and the write number of the staged image reserved. -/
def stagingOpenOp (s : State) : State :=
  if !liveMode s then refuseStaging s 1
  else if s.tally.commit.isSome ∨ s.tally.staging.isSome then refuseStaging s 2
  else
    let fw := s.bit TL_STGCTL_KIND
    let p := s.flash.nextPos 0
    let s := reserveSeq s
    let s :=
      if !fw then voidOwn s p
      else if idleHalf s then { s with flash := { s.flash with hasB := false, halfB := [], seqB := s.flash.comseq } }
      else { s with flash := { s.flash with halfA := [], seqA := s.flash.comseq } }
    ((s.modTally fun t => { t with staging := some ⟨fw, p, s.flash.comseq, true⟩ }).set TL_ST_BUSY 1).set TL_STGST_HIGH 0

/-- STAGING_OPEN. -/
def execStagingOpen (door : Initiator) (s : State) : Host.Outcome State Fault Refusal :=
  .next (atDoor s door 0x1706 fun s => if s.live then stagingOpenOp s else s)

/-- STAGING_ERASE_DONE (15 R401). -/
def execStagingEraseDone (s : State) : Host.Outcome State Fault Refusal :=
  .next (match s.live, s.tally.staging with
    | true, some x => if x.erasing then (s.modTally fun t => { t with staging := some { x with erasing := false } }).set TL_ST_BUSY 0 else s
    | _, _ => s)

/-- A block put at byte o of what the flash holds; what no write has reached is erased (DESIGN CHOICE, log entry 42: a byte programmed again reads as written last). -/
def putBlock (l : List Byte) (o : Nat) (block : List Byte) : List Byte :=
  let l := l ++ List.replicate (o - l.length) 0xFF
  l.take o ++ block ++ l.drop (o + block.length)

/-- Program a block of the staged image at byte o (15 R401). -/
def programBlock (s : State) (x : Staging) (o : Nat) (block : List Byte) : State :=
  if !x.firmware then s.setContent 0 x.pos (putBlock (s.flash.content 0 x.pos) o block)
  else if idleHalf s then { s with flash := { s.flash with halfB := putBlock s.flash.halfB o block } }
  else { s with flash := { s.flash with halfA := putBlock s.flash.halfA o block } }

/-- The bytes a staged image has room for (15 R382, R383). -/
def Staging.room (x : Staging) : Nat := if x.firmware then 0xC00000 else positionSize

/-- The staged Tally image (15 R401): as many bytes as its header's LENGTH says (R377), at most those programmed. -/
def stagedImage (s : State) (x : Staging) : Image :=
  let l := s.flash.content 0 x.pos
  ⟨l.take (beAt l 8 4)⟩

/-- A write of staging word w (15 R401, R403); word 127 programs the block at TL_STGOFS. A block that the position or half has no room for gives SRES 3 (log entry 42). -/
def writeStgw (s : State) (w : Nat) (v : Word) : State :=
  let s := s.modTally fun t => { t with window := t.window.set w v }
  if w ≠ 127 then s
  else
    match s.tally.staging with
    | none => s
    | some x =>
      if !liveMode s then refuseStaging s 1
      else if x.erasing then refuseStaging s 2
      else
        let o := s.get TL_STGOFS_OFS
        if x.room < o + 512 then refuseStaging s 3
        else
        let s := programBlock s x o (s.tally.window.flatMap fun v => beBytes 4 v.toNat)
        (s.set TL_STGST_HIGH (max (s.get TL_STGST_HIGH) (o + 512))).set TL_STGOFS_OFS (o + 512)

/-- STAGING_BLOCK_PROGRAM. -/
def execStagingBlockProgram (door : Initiator) (v : Word) (s : State) : Host.Outcome State Fault Refusal :=
  .next (atDoor s door 0x17FF fun s => if s.live then writeStgw s 127 v else s)

/-- A write of TL_STGOFS (15 R403): an offset that is no multiple of 512 is not taken and gives SRES 3. -/
def writeStgofs (s : State) (v : Word) : State := if getBits v 0 9 = 0 then s.set TL_STGOFS_OFS (getBits v 0 24) else refuseStaging s 3

/-- Staging ends, done or not (15 R401). -/
def endStaging (s : State) : State := (s.modTally fun t => { t with staging := none }).setB TL_ST_BUSY s.tally.commit.isSome

/-- Enter UPDATE (16 R412, R416): with the wait of R412 while WORK is on. -/
def enterUpdate (s : State) : State :=
  let s := s.set MD_ST_AUTO 0
  if s.get ID_DOMST_WSTATE = 1 ∨ s.get ID_DOMST_WSTATE = 2 then beginDown s 10 false
  else finishDown (s.modModes fun x => { x with target := 10, auto := false })

/-- A staged Tally is sealed (15 R401). -/
def sealTally (s : State) (x : Staging) (im : Image) : State :=
  enterUpdate (newOwn ((endStaging (sealImage s 0 x.pos im x.comseq 1)).set TL_RES_SRES 0) im)

/-- A staged firmware half is sealed and goes on trial (16 R416, 15 R383). -/
def sealFirmware (s : State) (x : Staging) (release : Nat) : State :=
  let b := idleHalf s
  let f := s.flash
  let l := if b then f.halfB else f.halfA
  let s := { s with flash := { f with relA := if b then f.relA else release, relB := if b then release else f.relB, hasB := f.hasB || b,
                                      trial := some b, trialBooted := false } }
  enterUpdate ((endStaging (appendSeal s { region := if b then 4 else 3, comseq := x.comseq, len := l.length, digest := sha256 l })).set TL_RES_SRES 0)

/-- A staged firmware image passes its checks (16 R416). -/
def firmwareOk (s : State) (release : Nat) (sigOk : Bool) : Bool :=
  sigOk && decide (s.keys.floor ≤ release) && decide ((s.tally.image.map (·.fwMin)).getD 0 ≤ release)

/-- TL_CMD.STGDONE (15 R401, 16 R416, R426). A staged image that fails its checks ends the staging; release and sigOk are what the
staged firmware holds, whose layout the spec does not give (log entry 39). -/
def stagingDoneOp (s : State) (release : Nat) (sigOk : Bool) : State :=
  match s.tally.staging with
  | none => s
  | some x =>
    if !liveMode s then refuseStaging s 1
    else if x.erasing || s.bit MD_ST_PENDING then refuseStaging s 2
    else
      if x.firmware then (if firmwareOk s release sigOk then sealFirmware s x release else refuseStaging (endStaging s) 4)
      else
        let im := stagedImage s x
        if imageCheck s im = 0 then sealTally s x im else refuseStaging (endStaging s) 4

/-- STAGING_DONE. -/
def execStagingDone (door : Initiator) (release : Nat) (sigOk : Bool) (s : State) : Host.Outcome State Fault Refusal :=
  .next (atDoor s door 0x1706 fun s => if s.live then stagingDoneOp s release sigOk else s)

/-- TL_CMD.STGABORT (15 R401, R403). -/
def stagingAbortOp (s : State) : State := if s.tally.staging.isSome then (endStaging s).set TL_RES_SRES 5 else s

/-- STAGING_ABORT. -/
def execStagingAbort (door : Initiator) (s : State) : Host.Outcome State Fault Refusal :=
  .next (atDoor s door 0x1706 fun s => if s.live then stagingAbortOp s else s)

/-- A write of TL_CMD (15 R403). STGDONE needs what the staged blocks hold, which the command STAGING_DONE brings (log entry 39). -/
def writeTlCmd (s : State) (sender : Nat) (v : Word) : State :=
  let s := if v.getLsbD 3 then stagingAbortOp s else s
  let s := if v.getLsbD 1 then stagingOpenOp s else s
  if v.getLsbD 0 then commitOp s sender else s

/-- A write of word a of the map on behalf of a host where one writes (00 R9), the Tally page's words among them (15 R403). -/
def writeAll (s : State) (host : Option Nat) (a : Nat) (v : Word) : State :=
  if a = 0x1706 then (if s.live then writeTlCmd s (host.getD 0) v else s)
  else if a = 0x1731 then writeStgofs s v
  else if 0x1780 ≤ a ∧ a < 0x1800 then writeStgw s (a - 0x1780) v
  else writeWord s host a v

/-- A write of any word by the initiator behind a door; an unreachable WORK register counts it (01 R27). -/
def writeAny (s : State) (door : Initiator) (a : Nat) (v : Word) : State :=
  if workHidden s a then (if isRegister a then offAccess s else s) else writeAll s (doorHost s door) a v

/-- Write the bits of a record or entry (15 R379). A WORK register that is not reachable takes its Tally words when its domain comes up (log entry 32). -/
def putRecord (s : State) (host : Option Nat) (a : Nat) (m v : Word) : State :=
  if workHidden s a then s else writeAll s host a (recordValue s a m v)

/-- Write the bits of an image's record: as an entry's, but for the SCAL_* words, whose door is shut outside SERVICE while the image loads (05 R151, R152). -/
def putImage (s : State) (host : Option Nat) (a : Nat) (m v : Word) : State :=
  if 0x880 ≤ a ∧ a < 0x8A6 ∧ a ≠ 0x881 then writeFields s a (recordValue s a m v) else putRecord s host a m v

/-- A register word record (15 R379, R387). -/
def applyWord (s : State) (host : Option Nat) (a : Nat) (m v : Word) : Option State :=
  if isRegister a && (m &&& readMask a == 0) && recordInRange s a m v then some (putImage s host a m v) else none

/-- A register block record from word a upward (15 R379). -/
def applyBlock (s : State) (host : Option Nat) (a : Nat) (l : List Word) : Option State :=
  match l with
  | [] => some s
  | v :: rest =>
    if isRegister a && (v &&& readMask a == 0) && recordInRange s a (writeMask a ||| ~~~(fieldBits a)) v then
      applyBlock (putImage s host a (writeMask a) v) host (a + 1) rest
    else none

/-- One record of an image; none when it makes the content invalid (15 R387). -/
def applyRecord (s : State) (im : Image) (host : Option Nat) (r : TallyRec) : Option State :=
  match r with
  | .word a m v => applyWord s host a m v
  | .block a l => if l.isEmpty || decide (256 < l.length) || decide (pageEnd a < a + l.length) then none else applyBlock s host a l
  | r => if namedOk im.stn (setupRecords im.records) r then some (putNamed s r) else none

/-- The words a record writes. -/
def recordWords (r : TallyRec) : List Nat :=
  match r with
  | .word a _ _ => [a]
  | .block a l => (List.range l.length).map (a + ·)
  | _ => []

/-- Apply records in order; none with the words written so far when one makes the content invalid. -/
def applyRecords (s : State) (im : Image) (host : Option Nat) (l : List TallyRec) (done : List Nat) : Option State × List Nat :=
  match l with
  | [] => (some s, done)
  | r :: rest =>
    match applyRecord s im host r with
    | none => (none, done)
    | some s => applyRecords s im host rest (done ++ recordWords r)

/-- The first host of an image's host list (14 R355). -/
def firstHost (im : Image) : Option Nat :=
  im.records.findSome? fun r => match r with
    | .hosts l => (l.head?).map (·.sender)
    | _ => none

/-- A record loads the housekeeping shadow (05 R135). -/
def loadsSequence (r : TallyRec) : Bool := (recordWords r).any fun a => a == 0x800 || (decide (0x810 ≤ a) && decide (a < 0x820))

/-- What running on an image shows (15 R403, 11 R286), with its setups checked (13 R318) and its housekeeping sequence applied (05 R135). -/
def runImage (s : State) (im : Image) : State :=
  let s := (s.modTally fun t => { t with image := some im, dirty := [] }).set BZ_CFG_STN im.stn
  let s := (s.setWord 0x1701 (BitVec.ofNat 32 im.gen)).setWord 0x1704 (BitVec.ofNat 32 ((im.trailer.map (·.cseq)).getD 0))
  let s := (s.setB TL_ST_TRAILER im.trailer.isSome).setB TL_ST_NOLIVE im.nolive
  checkSetups (if im.records.any loadsSequence then hkApply s else s)

/-- Apply an image, its sections in TYPE order and then its trailer (15 R387, R399); none, with the words written, when its content is invalid. -/
def applyImage (s : State) (im : Image) : Option State × List Nat :=
  match applyRecords s im (firstHost im) im.params [] with
  | (none, l) => (none, l)
  | (some s1, l) =>
    if !worldOk im.world then (none, l)
    else
      match applyRecords (applyWorld s1 im.world) im (firstHost im) (im.records.drop im.params.length) l with
      | (none, l) => (none, l)
      | (some s2, l) => (some (runImage s2 im), l)

/-- Every word that an invalid image had written returns to its reset value, and the module enters SAFE (15 R387, 16 R407, R419); the ports
follow their enables (02 R49). -/
def rejectContent (s : State) (l : List Nat) : State :=
  enterSafe (showInputs (followEnable (followEnable (l.foldl (fun s a => s.setWord a (resetWord a)) s) .a) .b)) 1

/-- Run on the own image of position p (15 R387, R403): into SETTLE, or SERVICE after a service adapter's answer (16 R407). -/
def runOwn (s : State) (p : Nat) (older service : Bool) : State :=
  match (s.flash.sealAt 0 p).bind fun x => (s.flash.vouched x).map fun im => (x, im) with
  | none => s
  | some (x, im) =>
    match applyImage s im with
    | (none, l) => rejectContent s l
    | (some s, _) =>
      let s := (s.set TL_ST_SRC (if older then 4 else x.origin)).set TL_ST_POS p
      let s := if older then s.event TL_EVT_OLDER else s
      if service then settleActions (changeMode s 9) false else enterSettle s

/-- Leave LOAD, or KEYLOAD without a plug image, by the result of the load check (16 R407, R408). -/
def leaveLoad (s : State) (service : Bool) : State :=
  let s := s.modTally fun t => { t with windowOpen := false, identify := false, adapter := false }
  match s.tally.loadPos with
  | none => enterCoppice s
  | some p => runOwn s p false service

end Sys2Proof.Machine
end

