-- ==== Sys2Proof/Machine/Custody.lean ====
section
/-!
DEFINITION. Custody between neighbours (14 R371 to R373, 15 R390, R391), Coppice (15 R388, R392 to R394) and enrollment (15 R395).
-/

namespace Sys2Proof.Machine

/-- n seconds have passed since a tick, or there was none. -/
def passedSince (s : State) (t : Option Nat) (n : Nat) : Bool := t.all fun t => passed s t n

/-- CUSTODY_HELLO_SEND (14 R371): at link up, and every 1 s after that. -/
def execCustodyHelloSend (port : Port) (s : State) : Host.Outcome State Fault Refusal :=
  .next (if s.live && linkUp s port && passedSince s (s.cust port).helloAt 1 then
      sendHello (s.modCust port fun x => { x with helloAt := some s.pwr.ticks }) port
    else s)

/-- One hour in CLK ticks. -/
def hourTicks : Nat := 3600 * 200000000

/-- The CLK ticks until an hour after the last custody commit from the neighbour on a port is over (14 R373, 15 R391), 0 when there is none to wait for. -/
def hourLeft (s : State) (p : Port) : Nat :=
  match s.tally.taken.find? fun x => x.1 == (s.cust p).peer with
  | none => 0
  | some x => x.2 + hourTicks - s.pwr.ticks

/-- The digest of the custody image held for a port. -/
def heldDigest (s : State) (p : Port) : Option Nat := (s.flash.latest p.region).map fun x => dig16 x.digest

/-- A custody fetch of the image with digest d is wanted (15 R391): it is not the one held, not the one refused last, and no fetch is under way. -/
def wantsFetch (s : State) (p : Port) (d : Nat) : Bool :=
  heldDigest s p != some d && (s.cust p).refused != some d && (s.cust p).fetch.isNone

/-- The neighbour on a port names its own image (14 R371, R373): a TDIG other than the one refused ends that refusal (15 R391). -/
def noteTdig (s : State) (p : Port) (sender d : Nat) (valid : Bool) : State :=
  s.modCust p fun x => { x with peer := sender, tdig := some d, valid := valid, refused := if x.refused = some d then x.refused else none }

/-- What a hello offers to Coppice (15 R392 step 1). -/
def helloOffer (h : Hello) : Option (Nat × Nat) := if h.holds then some (h.cstn, h.cdig) else none

/-- Take a hello's offer: Coppice counts a source again, and chooses again in its wait, when what is offered changes (15 R392). -/
def takeOffer (s : State) (p : Port) (o : Option (Nat × Nat)) : State :=
  if (s.cust p).offer = o then s
  else
    let again := looking s
    let s := s.modCust p fun x => { x with offer := o, look := none }
    let s := s.modTally fun t => match p with
      | .a => { t with failA := false }
      | .b => { t with failB := false }
    if again ∨ (s.mode = 4 ∧ s.get CP_ST_STEP = 5 ∧ s.get CP_ST_WAIT ≠ 1) then coppiceChoose s else s

/-- A hello of a sender is taken (15 R390 to R392). -/
def takeHello (s : State) (p : Port) (sender : Nat) (h : Hello) : State :=
  let s := (s.set (nbrStn p) h.stn).set (nbrCstn p) (if h.holds then h.cstn else 0xFE)
  let s := takeOffer (noteTdig s p sender h.tdig h.ownValid) p (helloOffer h)
  if h.ownValid && wantsFetch s p h.tdig then
    if hourLeft s p = 0 then startFetch s p { digest := h.tdig, stn := h.stn } else s.modCust p fun x => { x with deferred := true }
  else s

/-- CUSTODY_HELLO_RECEIVE. -/
def execCustodyHelloReceive (port : Port) (d : Datagram) (s : State) : Host.Outcome State Fault Refusal :=
  .next (receive s d 0x40 fun l s => takeHello s port d.sender (helloOf l))

/-- The image a request for a station is served from (14 R372, R374, 15 R391): the own running image, else the custody image held for it, of the asking port
first. -/
def servedImage (s : State) (p : Port) (want : Nat) : Option Image :=
  let ofRegion (r : Nat) : Option Image := match s.flash.latest r with
    | none => none
    | some im => if im.stn = want then some im else none
  match ownTally s with
  | some im => if im.stn = want then some im else (ofRegion p.region).or (ofRegion p.other.region)
  | none => (ofRegion p.region).or (ofRegion p.other.region)

/-- Send one data message (14 R372). -/
def sendChunk (s : State) (p : Port) (want : Nat) (im : Image) (offset : Nat) : State :=
  message s [p] (custodyHead s) (.custData { stn := s.get BZ_CFG_STN, want := want, offset := offset, total := im.size, idig := dig16 im.digest,
                                             bytes := (im.bytes.drop offset).take 1024 }) false

/-- Serve a request (14 R372): up to NCH data messages, or one with TOTAL 0. -/
def serveRequest (s : State) (p : Port) (want offset nch : Nat) : State :=
  match servedImage s p want with
  | none => message s [p] (custodyHead s) (.custData { stn := s.get BZ_CFG_STN, want := want }) false
  | some im => (List.range (min 16 nch)).foldl (fun s i => if offset + 1024 * i < im.size then sendChunk s p want im (offset + 1024 * i) else s) s

/-- CUSTODY_REQUEST (14 R372). -/
def execCustodyRequest (port : Port) (d : Datagram) (s : State) : Host.Outcome State Fault Refusal :=
  .next (receive s d 0x41 fun l s => serveRequest s port (beAt l 1 1) (beAt l 4 4) (beAt l 8 2))

/-- A fully fetched custody image is checked and committed, or refused (15 R391). -/
def custodyImage (s : State) (p : Port) (f : Fetch) (im : Image) : State :=
  if imageCheck s im = 0 ∧ im.stn = f.stn then
    let s := commitImage s p.region im 0
    let s := s.modTally fun t => { t with taken := ((s.cust p).peer, s.pwr.ticks) :: t.taken.filter fun x => x.1 != (s.cust p).peer && !passed s x.2 3600 }
    (s.event TL_EVT_CUSTODY).modCust p fun x => { x with fetch := none }
  else (s.event TL_EVT_CUSTREJ).modCust p fun x => { x with fetch := none, refused := some (x.tdig.getD f.digest) }

/-- Coppice's fetched image is verified (15 R392 step 4). -/
def coppiceImage (s : State) (p : Port) (f : Fetch) (im : Image) : State :=
  let s := s.set CP_ST_STEP 3
  if imageCheck s im = 0 ∧ im.stn = f.stn then
    ((s.modCust p fun x => { x with fetch := none }).modTally fun t => { t with fetched := some im }).set CP_ST_STEP 4
  else coppiceDrop (s.bump CP_CNT_VFAIL 1) p

/-- A fetch ends with the image its bytes spell. -/
def fetchDone (s : State) (p : Port) (f : Fetch) (im : Image) : State := if f.coppice then coppiceImage s p f im else custodyImage s p f im

/-- The responder holds no image for the station asked for (14 R372). -/
def fetchNone (s : State) (p : Port) (f : Fetch) : State := if f.coppice then coppiceDrop s p else s.modCust p fun x => { x with fetch := none }

/-- IDIG changed between chunks (14 R372): the fetch begins again, for Coppice from the other offering port if there is one (15 R392 step 3). -/
def fetchAgain (s : State) (p : Port) (f : Fetch) (d : Nat) : State :=
  match (if f.coppice then coppiceOffer s p.other else none) with
  | some o => if o.1 = f.stn then coppiceTake (s.modCust p fun x => { x with fetch := none }) p.other o else startFetch s p { f with digest := d, data := [] }
  | none => startFetch s p { f with digest := d, data := [] }

/-- A data message for a fetch (14 R372, 15 R392 step 3); the next 16 chunks are asked for when those before are in. -/
def takeData (s : State) (p : Port) (f : Fetch) (c : CustData) : State :=
  if c.total = 0 then fetchNone s p f
  else if !f.data.isEmpty && c.idig != f.digest then fetchAgain s p f c.idig
  else if c.offset ≠ f.data.length then s
  else
    let f := { f with digest := c.idig, data := f.data ++ c.bytes }
    let s := s.modCust p fun x => { x with fetch := some f }
    if c.total ≤ f.data.length then fetchDone s p f ⟨f.data⟩
    else if f.data.length % 16384 = 0 then requestChunks s p f
    else s

/-- The trailer head of an image that Coppice reads on a port (15 R393, R399): CSEQ, in bytes 4 to 7 of the trailer, once they are in; after the first chunk, first, those that hold
them are asked for. An image without a whole trailer head counts as CSEQ 0 (15 R403: 0 none). -/
def lookTail (s : State) (p : Port) (x : Look) (length total : Nat) (first : Bool) : State :=
  let put (s : State) (x : Look) : State := s.modCust p fun y => { y with look := some x }
  let last := x.base + x.data.length
  if x.base ≤ length ∧ length + 8 ≤ last then coppiceChoose (put s { x with cseq := some (beAt x.data (length + 4 - x.base) 4) })
  else if total ≤ length ∨ total ≤ last then coppiceChoose (put s { x with cseq := some 0 })
  else if !first then put s x
  else if length < last then sendRequest (put s x) p x.stn last 1
  else sendRequest (put s { x with base := length / 1024 * 1024, data := [] }) p x.stn (length / 1024 * 1024) 2

/-- A data message for the heads that Coppice reads on a port (15 R393). -/
def takeLook (s : State) (p : Port) (x : Look) (c : CustData) : State :=
  if c.total = 0 then coppiceDrop s p
  else if c.idig ≠ x.digest then startLook s p (c.idig, x.stn)
  else if c.offset ≠ x.base + x.data.length then s
  else
    let x := { x with data := x.data ++ c.bytes }
    match x.length with
    | some n => lookTail s p x n c.total false
    | none => lookTail s p { x with gen := beAt x.data 16 4, length := some (beAt x.data 8 4) } (beAt x.data 8 4) c.total true

/-- CUSTODY_DATA_RECEIVE. -/
def execCustodyDataReceive (port : Port) (d : Datagram) (s : State) : Host.Outcome State Fault Refusal :=
  .next (receive s d 0x42 fun l s =>
    let data := custDataOf l
    match (s.cust port).look.filter (fun x => x.cseq.isNone && x.stn == data.want), (s.cust port).fetch.filter (fun f => f.stn == data.want) with
    | some x, _ => takeLook s port x data
    | none, some f => takeData s port f data
    | none, none => s)

/-- CUSTODY_OFFER (14 R373): fetched, or answered with a defer. -/
def execCustodyOffer (port : Port) (d : Datagram) (s : State) : Host.Outcome State Fault Refusal :=
  .next (receive s d 0x43 fun l s =>
    let stn := beAt l 0 1
    let idig := beAt l 8 16
    let s := noteTdig s port d.sender idig true
    if wantsFetch s port idig then
      if hourLeft s port = 0 then startFetch s port { digest := idig, stn := stn }
      else message (s.modCust port fun x => { x with deferred := true }) [port] (custodyHead s)
        (.defer (s.get BZ_CFG_STN) (ceilDiv (hourLeft s port) 200000000)) false
    else s)

/-- CUSTODY_DEFER (14 R373): the neighbour will fetch later; nothing is asked of this module until then. -/
def execCustodyDefer (port : Port) (d : Datagram) (s : State) : Host.Outcome State Fault Refusal :=
  .next (receive s d 0x44 fun l s => s.modCust port fun x => { x with deferSecs := some (beAt l 4 4) })

/-- CUSTODY_DEFER_END (14 R373, 15 R391): the image the neighbour announced last is fetched. -/
def execCustodyDeferEnd (port : Port) (s : State) : Host.Outcome State Fault Refusal :=
  .next (if s.live && (s.cust port).deferred && (s.cust port).valid && hourLeft s port == 0 then
      let s := s.modCust port fun x => { x with deferred := false }
      match (s.cust port).tdig with
      | none => s
      | some d => if wantsFetch s port d then startFetch s port { digest := d, stn := s.get (nbrStn port) } else s
    else s)

/-- COPPICE_LISTEN_END (15 R392 step 2, R393): Coppice has listened for 3 s since a link was up first. -/
def execCoppiceListenEnd (s : State) : Host.Outcome State Fault Refusal :=
  .next (if s.live && s.mode == 4 && enrolled s && s.get CP_ST_STEP == 1 && !looking s && s.tally.listenAt.any (passed s · 3) then coppiceChoose s else s)

/-- COPPICE_COMMIT_DONE (15 R392 step 5). -/
def execCoppiceCommitDone (s : State) : Host.Outcome State Fault Refusal :=
  .next (match s.live && s.mode == 4, s.tally.fetched with
    | true, some im => beginRestart (newOwn ((commitImage s 0 im 3).modTally fun t => { t with fetched := none }) im) 6
    | _, _ => s)

/-- COPPICE_FALLBACK (15 R388): no image within 60 s of entering COPPICE. -/
def execCoppiceFallback (s : State) : Host.Outcome State Fault Refusal :=
  .next (match s.live && s.mode == 4 && passed s s.modes.at_ 60 && s.tally.fetched.isNone, s.tally.olderPos with
    | true, some p => runOwn s p true false
    | _, _ => s)

/-- The module accepts enrollment (15 R395). -/
def enrollOpen (s : State) : Bool := s.live && s.mode == 4 && !enrolled s

/-- The serial number, as the number its 8 bytes spell (09 R243). -/
def serialNumber (s : State) : Nat := (s.word 0x1004).toNat + 2 ^ 32 * (s.word 0x1005).toNat

/-- The UDP port of enrollment (15 R395). -/
def enrollPort : Nat := 52109

/-- ENROLL_HELLO (15 R395 step 1): every 2 s, multicast on the ports that have a link, with a fresh X25519 public key and the signature over both by the device identity key. -/
def enrollHello (s : State) : State :=
  let k := Config.freshKey s.free
  let s := { s with free := s.free + 1 }.modTally fun t => { t with enrollAt := some s.pwr.ticks, enrollKey := some k }
  let sn := serialNumber s
  let pub := beNat (leBytes 32 (x25519Public k))
  let pay := Payload.enrollHello sn pub (Config.identitySign (beBytes 8 sn ++ beBytes 32 pub))
  let to_ := { ipTo s true (0xFF02 * 2 ^ 112 + 1) enrollPort with ports := some (enrollPort, enrollPort) }
  [Port.a, Port.b].foldl (fun (s : State) (p : Port) => if linkUp s p then s.sendIp p.egress 3 to_ pay else s) s

/-- ENROLL_HELLO. -/
def execEnrollHello (s : State) : Host.Outcome State Fault Refusal :=
  .next (if enrollOpen s && passedSince s s.tally.enrollAt 2 then enrollHello s else s)

/-- What the plant commissioning key signs in an offer (15 R395 step 2): the serial, both X25519 keys and SYSID, the module's key first (log entry 129). -/
def offerText (s : State) (own pub sysid : Nat) : List Byte := beBytes 8 (serialNumber s) ++ beBytes 32 own ++ beBytes 32 pub ++ beBytes 8 sysid

/-- The transfer key (15 R395 step 3): SHA-256 of the shared secret followed by both public keys, the module's first (log entry 129). -/
def transferKey (k own pub : Nat) : Nat :=
  sha256 (leBytes 32 (x25519 k (leNat (beBytes 32 pub))) ++ beBytes 32 own ++ beBytes 32 pub)

/-- ENROLL_OFFER (15 R395 steps 2 and 3): the enroller's X25519 key, the plant commissioning key, SYSID and the signature, each as the number its bytes spell. -/
def execEnrollOffer (pub plant sysid sig : Nat) (s : State) : Host.Outcome State Fault Refusal :=
  .next (match enrollOpen s, s.tally.enrollKey with
    | true, some k =>
      let own := beNat (leBytes 32 (x25519Public k))
      if edVerify (beBytes 32 plant) (offerText s own pub sysid) (beBytes 64 sig) then
        s.modTally fun t => { t with enrolling := some (plant, sysid, transferKey k own pub) }
      else s
    | _, _ => s)

/-- The module is enrolled (15 R395 step 5): ENROLL_DONE goes to where ENROLL_KEY came from, with a tag under the transfer key over nothing and a nonce of the module's own
(log entry 129), the transfer key is forgotten (17 R437), and Coppice listens. -/
def enrollDone (s : State) (src : Peer) (plant sysid transfer line : Nat) : State :=
  let s := showKeys ({ s with keys := { s.keys with lineKey := some line, anchor := some plant, sysid := sysid } }.modTally fun t =>
    { t with enrolling := none, enrollKey := none })
  let n := Config.freshNonce s.free % 2 ^ 96
  let pay := Payload.enrollDone n (gcmTag transfer n [] [])
  let to_ : IpHead := { answerHead s src with ports := some (enrollPort, src.port) }
  let s := (macPorts s (some src.mac) bothPorts).foldl (fun s p => s.sendIp p.egress 3 to_ pay) { s with free := s.free + 1 }
  listen s

/-- ENROLL_KEY (15 R395 steps 4 and 5, 17 R437, R438): the line key, encrypted and authenticated under the transfer key with nothing added. -/
def execEnrollKey (src : Peer) (nonce cipher tag : Nat) (s : State) : Host.Outcome State Fault Refusal :=
  .next (match enrollOpen s, s.tally.enrolling with
    | true, some (plant, sysid, transfer) =>
      if gcmTag transfer nonce [] (beBytes 32 cipher) = tag then
        enrollDone s src plant sysid transfer (beNat (gcmCrypt transfer nonce (beBytes 32 cipher)))
      else s
    | _, _ => s)

end Sys2Proof.Machine
end

