-- ==== Sys2Proof/Machine/Sets.lean ====
section
/-!
DEFINITION. Change sets (14 R365, 15 R396 to R398, R402): their parts, the checks of a complete set, the class of what an entry touches, and applying a set at
its named second.
-/

namespace Sys2Proof.Machine

/-- The register writes of an entry: address, mask and value (14 R365); a register block of a parameter record gives one for each word (15 R379). -/
def CsEntry.words (e : CsEntry) : List (Nat × Word × Word) :=
  match e with
  | .word a m v => [(a, m, v)]
  | .param (.word a m v) => [(a, m, v)]
  | .param (.block a l) => (List.range l.length).map fun k => (a + k, writeMask (a + k), l.getD k 0)
  | .param _ => []

/-- The named parameter of an entry. -/
def CsEntry.named (e : CsEntry) : Option TallyRec :=
  match e with
  | .word _ _ _ => none
  | .param (.word _ _ _) => none
  | .param (.block _ _) => none
  | .param r => some r

/-- The class of the fields of a slot page's word that a mask touches: 0 LIVE, 1 STOP (04 R103, R104, 07 R187, 08 R210). -/
def slotClass (i o : Nat) (m : Word) : Nat :=
  if (o = 0 ∧ i < 10 ∧ (getBits m 4 2 ≠ 0 ∨ (3 ≤ i ∧ i ≤ 5 ∧ getBits m 0 2 ≠ 0))) ∨ (o = 0x10 ∧ i < 11 ∧ getBits m 0 1 ≠ 0) ∨
      (o = 0x20 ∧ (getBits m 5 1 ≠ 0 ∨ getBits m 0 4 ≠ 0)) then 1 else 0

/-- Word a belongs to the active bank of a running slot (15 R381, 07 R195). -/
def activeBankWord (s : State) (a : Nat) : Bool :=
  match bankWord a with
  | none => false
  | some k => s.slots[Fin.ofNat 16 (k / 2)].en && s.get (ML_ST_ACT (k / 2)) == k % 2

/-- The engine whose instruction memory or PE_CFG word a belongs to. -/
def engineWord (a : Nat) : Option (Fin 8) :=
  if 0x1580 ≤ a ∧ a < 0x1600 then some (Fin.ofNat 8 ((a - 0x1580) / 16))
  else if 0x1420 ≤ a ∧ a < 0x1520 ∧ (a - 0x1420) % 0x20 = 0 then some (Fin.ofNat 8 ((a - 0x1420) / 0x20))
  else none

/-- The class of the fields of word a that a mask touches (15 R381, R396): 0 LIVE, 1 STOP, 2 RESTART. -/
def wordClass (s : State) (a : Nat) (m : Word) : Nat :=
  if 0x1120 ≤ a ∧ a < 0x1130 then (if getBits m 0 8 = 0 then 0 else 2)
  else if 0x400 ≤ a ∧ a < 0x800 then slotClass ((a - 0x400) / 0x40) ((a - 0x400) % 0x40) m
  else if a = 0xA00 ∨ a = 0xA03 then (if getBits m 0 2 = 0 then 0 else 1)
  else if activeBankWord s a then 1
  else match engineWord a with
    | some e => if peRuns s e then 1 else 0
    | none => 0

/-- The class of a named parameter (15 R380). -/
def namedClass (r : TallyRec) : Nat :=
  match r with
  | .station _ => 2
  | .ipv4 _ _ _ => 2
  | .ipv6 _ _ => 2
  | .mrp _ _ _ => 2
  | .groups _ _ _ _ => 2
  | .startMask _ => 1
  | _ => 0

/-- The class of an entry (15 R396). -/
def entryClass (s : State) (e : CsEntry) : Nat :=
  match e.named with
  | some r => namedClass r
  | none => e.words.foldl (fun c w => max c (wordClass s w.1 w.2.1)) 0

/-- An entry writes a word, or bits of a word, that management may not write (15 R396, reason 3). -/
def entryForbidden (e : CsEntry) : Bool :=
  e.words.any fun w => !hostMayWrite w.1 || (w.2.1 &&& readMask w.1 != 0)

/-- An entry writes a value outside its field's range (15 R396, reason 4; 19 R467). -/
def entryOutOfRange (s : State) (e : CsEntry) : Bool :=
  (e.words.any fun w => !recordInRange s w.1 w.2.1 w.2.2) ||
    (match e with
      | .param (.block a l) => (List.range l.length).any fun k => l.getD k 0 &&& ~~~(writeMask (a + k)) != 0
      | _ => false)

/-- The setups a set leaves: the present ones and its own. -/
def setupsAfter (s : State) (l : List CsEntry) : List (Nat × List (Nat × Nat)) :=
  let new := setupRecords (l.filterMap CsEntry.named)
  let old := ((List.finRange 32).map fun (n : Fin 32) => (n.val, s.an.setups[n].tags)).filter fun p => !p.2.isEmpty && !(new.any fun q => q.1 == p.1)
  old ++ new

/-- An ETYPE 1 entry breaks 15 R380 (reason 5). -/
def entryBroken (s : State) (l : List CsEntry) (e : CsEntry) : Bool :=
  match e with
  | .word _ _ _ => false
  | .param (.word _ _ _) => false
  | .param (.block a v) => v.isEmpty || decide (256 < v.length) || decide (pageEnd a < a + v.length)
  | .param r => !namedOk (s.get BZ_CFG_STN) (setupsAfter s l) r

/-- Two named parameters are the same parameter. -/
def sameParameter (x y : TallyRec) : Bool :=
  match x, y with
  | .startMask _, .startMask _ => true
  | .hosts _, .hosts _ => true
  | .userCal i _ _, .userCal j _ _ => i == j
  | .setup i _, .setup j _ => i == j
  | .alarm i _, .alarm j _ => i == j
  | _, _ => false

/-- Two entries write different values to the same bits (15 R396, reason 6). -/
def entriesClash (x y : CsEntry) : Bool :=
  (x.words.any fun w => y.words.any fun z => w.1 == z.1 && (w.2.1 &&& z.2.1 &&& (w.2.2 ^^^ z.2.2) != 0)) ||
    (match x.named, y.named with
      | some a, some b => sameParameter a b && a != b
      | _, _ => false)

/-- The first entry that clashes with an earlier one. -/
def firstClash (before rest : List CsEntry) : Option Nat :=
  match rest with
  | [] => none
  | e :: rest => if before.any (entriesClash e) then some before.length else firstClash (before ++ [e]) rest

/-- The register words of a set as they will stand, without any effect of their writing. -/
def tryWords (s : State) (l : List CsEntry) : State :=
  (l.flatMap CsEntry.words).foldl (fun s w => s.setWord w.1 (maskedWord (s.word w.1) w.2.1 w.2.2)) s

/-- The state with the words and setups of a set in it, checked (13 R318). -/
def trySetups (s : State) (l : List CsEntry) : State :=
  checkSetups ((l.filterMap CsEntry.named).foldl (fun s r => match r with
    | .setup n t => putSetup s (Fin.ofNat 32 n) t
    | _ => s) (tryWords s l))

/-- The first setup entry, when the set would leave a setup refused (15 R396, reason 7). -/
def setupEntry (s : State) (l : List CsEntry) : Option Nat :=
  match l.findIdx? fun e => match e.named with | some (.setup _ _) => true | _ => false with
  | none => none
  | some i => if (trySetups s l).an.setups.toList.any fun x => x.defined && x.ref != 0 then some i else none

/-- No entry is to blame (14 R365). -/
def noEntry : Nat := 0xFFFFFF

/-- The result of a complete set with the index of the first offending entry (15 R396): 0 when it is accepted. -/
def setResult (s : State) (c : ChangeSet) : Nat × Nat :=
  let l := c.entries
  let find (f : CsEntry → Bool) (k : Option (Nat × Nat)) (why : Nat) : Option (Nat × Nat) :=
    match k with
    | some x => some x
    | none => (l.findIdx? f).map fun i => (why, i)
  let r := find (fun e => entryClass s e == 2) none 1
  let r := find (fun e => entryClass s e == 1 && !c.permit) r 2
  let r := find entryForbidden r 3
  let r := find (entryOutOfRange s) r 4
  let r := find (entryBroken s l) r 5
  match r with
  | some x => x
  | none =>
    match firstClash [] l, setupEntry s l with
    | some i, _ => (6, i)
    | none, some i => (7, i)
    | none, none =>
      if c.sec < s.second + 1 ∨ s.second + 86400 < c.sec then (8, noEntry)
      else if s.tally.set.isSome then (9, noEntry)
      else if !liveMode s then (0xA, noEntry)
      else (0, noEntry)

/-- Send a change-set result to its host, on the ports given where its address has not been learnt (14 R344, R365). -/
def sendResult (s : State) (ps : List Port) (host csid res idx sec : Nat) : State :=
  message s (hostPorts s host ps) (hostHead s host) (.csResult host csid res idx sec) false

/-- Show the last change set and its result (15 R403). -/
def showSet (s : State) (csid res : Nat) : State := (s.setWord 0x1708 (BitVec.ofNat 32 csid)).set TL_RES_CSRES res

/-- A set fails before it is complete (14 R365): its parts are discarded, and its host hears. -/
def dropParts (s : State) (ps : List Port) (host res idx : Nat) : State :=
  match (hostState s host).parts with
  | [] => s
  | p :: _ => sendResult (showSet (s.modHost host fun h => { h with parts := [] }) p.csid res) ps host p.csid res idx p.sec

/-- A complete set is checked and answered (15 R396); an accepted one is pending. -/
def checkSet (s : State) (ps : List Port) (c : ChangeSet) : State :=
  let r := setResult s c
  let tried := trySetups s c.entries
  let s := { s with free := tried.free }
  let s := s.modHost c.host fun h => { h with parts := [], lastCs := some (c.csid, r.1, r.2, c.sec) }
  let s := showSet s c.csid r.1
  let s := if r.1 = 0 then (s.modTally fun t => { t with set := some c, setStep := false, setEngines := 0, setLoads := tried.an.setups.toList.map (·.load) }).set TL_PEND_PEND 1 else s.event TL_EVT_CSREF
  sendResult s ps c.host c.csid r.1 r.2 c.sec

/-- Every part of a set is in (14 R365); the parts in order. -/
def partsInOrder (l : List CsPart) (n : Nat) : Option (List CsPart) :=
  (List.range n).mapM fun k => l.find? fun p => p.part == k

/-- A set all of whose parts are in: answered again when it repeats the host's last one, otherwise checked (14 R365). -/
def completeSet (s : State) (ps : List Port) (host : Nat) (p : CsPart) (l : List CsPart) : State :=
  match (hostState s host).lastCs with
  | some (csid, res, idx, sec) =>
    if csid = p.csid then sendResult (s.modHost host fun h => { h with parts := [] }) ps host csid res idx sec
    else checkSet s ps ⟨p.csid, p.permit, p.sec, l.flatMap (·.entries), host⟩
  | none => checkSet s ps ⟨p.csid, p.permit, p.sec, l.flatMap (·.entries), host⟩

/-- The first part of a list that holds a malformed entry and all of whose earlier parts are in: the index of that entry across all parts (14 R365). -/
def malformedAt (l : List CsPart) : Option Nat :=
  (List.range 16).findSome? fun k =>
    match l.find? fun p => p.part == k, partsInOrder l k with
    | some p, some before => p.malformed.map fun i => (before.map fun q => q.entries.length).sum + i
    | _, _ => none

/-- One part joins the set its host is assembling (14 R365). -/
def takePart (s : State) (port : Port) (host : Nat) (p : CsPart) : State :=
  let s := match (hostState s host).parts with
    | [] => s
    | q :: _ => if q.csid = p.csid then s else dropParts s [port] host 0xF0 noEntry
  let old := (hostState s host).parts
  let s := s.modHost host fun h => { h with partsAt := if h.parts.isEmpty then s.pwr.ticks else h.partsAt, parts := if h.parts.any fun q => q.part == p.part then h.parts else h.parts ++ [p] }
  match malformedAt (hostState s host).parts with
  | some i => dropParts s [port] host 0xF1 i
  | none =>
    if p.npart = 0 ∨ 16 < p.npart ∨ p.npart ≤ p.part then dropParts s [port] host 0xF1 noEntry
    else if old.any fun q => q.npart != p.npart || q.flags != p.flags || q.sec != p.sec then dropParts s [port] host 0xF2 noEntry
    else match partsInOrder (hostState s host).parts p.npart with
      | none => s
      | some l => completeSet s [port] host p l

/-- CHANGE_SET_PART (14 R365, R353). -/
def execChangeSetPart (port : Port) (d : Datagram) (s : State) : Host.Outcome State Fault Refusal :=
  .next (receive s d 0x20 fun l s => takePart s port d.sender (csPartOf l))

/-- CHANGE_SET_TIMEOUT (14 R365): 2 s after the first part. -/
def execChangeSetTimeout (sender : Nat) (s : State) : Host.Outcome State Fault Refusal :=
  .next (if s.live && passed s (hostState s sender).partsAt 2 then dropParts s [.a, .b] sender 0xF0 noEntry else s)

/-- The running engines that a set's entries rewrite (15 R398). -/
def namedEngines (s : State) (c : ChangeSet) : List (Fin 8) :=
  (List.finRange 8).filter fun (e : Fin 8) =>
    peRuns s e && c.entries.any fun x => x.words.any fun w => engineWord w.1 == some e

/-- The pending set's running engines stop (12 R309, 15 R398). -/
def stopNamed (s : State) (c : ChangeSet) : State :=
  (namedEngines s c).foldl (fun s e =>
    (peStop s e).modTally fun t => { t with setEngines := if t.setEngines.testBit e.val then t.setEngines else t.setEngines + 2 ^ e.val }) s

/-- CHANGE_SET_ENGINE_STOP (15 R398): 10 ms before SEC. The engines' changes are applied with the set. -/
def execChangeSetEngineStop (s : State) : Host.Outcome State Fault Refusal :=
  .next (match s.live, s.tally.set with
    | true, some c => if c.sec * 8000000000 ≤ s.now + 80000000 then stopNamed s c else s
    | _, _ => s)

/-- The engines that the set stopped go on: with RESTART after their changes (15 R398), without when the set fails. -/
def releaseNamed (s : State) (restart : Bool) : State :=
  startMasked (s.modTally fun t => { t with setEngines := 0 }) s.tally.setEngines restart

/-- The slots whose banks a set writes. -/
def bankSlots (c : ChangeSet) : List (Fin 16) :=
  (c.entries.flatMap CsEntry.words).filterMap fun w => (bankWord w.1).map fun k => Fin.ofNat 16 (k / 2)

/-- Why the pending set is not applied, 0 when it is (15 R397). -/
def applyFailure (s : State) (c : ChangeSet) : Nat :=
  if (bankSlots c).any fun i => s.get (ML_ST_STATE i) == 3 || s.get (ML_ST_STATE i) == 4 then 0xB
  else if !liveMode s then 0xA
  else if s.tally.setStep then 0xC
  else 0

/-- The slots that a STOP entry stops for 10 ms (15 R398): those of AX_CFG, ML_CFG and active banks. GR_CFG and the AUX function stand apart. -/
def stopSlotOf (s : State) (w : Nat × Word × Word) : Option (Fin 16) :=
  if 0x400 ≤ w.1 ∧ w.1 < 0x800 then
    (if wordClass s w.1 w.2.1 = 1 ∧ (w.1 - 0x400) % 0x40 ≠ 0x20 then some (Fin.ofNat 16 ((w.1 - 0x400) / 0x40)) else none)
  else if activeBankWord s w.1 then (bankWord w.1).map fun k => Fin.ofNat 16 (k / 2)
  else none

/-- Apply one register write of a set at the start of second S, in 1/8 ns; those of GR_CFG take effect together (08 R210). -/
def applySetWord (s : State) (host : Option Nat) (S : Nat) (w : Nat × Word × Word) : State :=
  let s := noteLive (putRecord s host w.1 w.2.1 w.2.2) (.word w.1 w.2.1 w.2.2)
  if (w.1 = 0xA00 ∨ w.1 = 0xA03) ∧ s.aux.pend.isSome ∧ !auxSerial s then applyAux s S
  else s

/-- Apply the register writes of a set that stop one slot, inside the slot's window (15 R398, R402: a calibration run on it is abandoned). -/
def applyStopped (s : State) (host : Option Nat) (S : Nat) (l : List (Nat × Word × Word)) (i : Fin 16) : State :=
  stopSlot s i S fun s => l.foldl (fun s w => applySetWord s host S w) s

/-- The setups after a set that alters some (13 R318, R339): none of them is refused, each has the load estimate with which the set was checked, and one that was refused
before starts. -/
def acceptSetups (s : State) : State :=
  let s := (List.finRange 32).foldl (fun s (n : Fin 32) =>
    s.modSetup n fun x => { (if x.ref = 0 then x else x.fresh s.now) with ref := 0, load := s.tally.setLoads.getD n.val 0 }) s
  if workOn s then
    let s := { s with an := { s.an with watch0 := watchMask s 0, watch1 := watchMask s 1 } }
    showAnalysis ((List.finRange 32).foldl showSetup s)
  else s

/-- A set alters a setup. -/
def hasSetup (l : List CsEntry) : Bool := l.any fun e => match e.named with
  | some (.setup _ _) => true
  | _ => false

/-- Apply one named parameter of a set at second sec (15 R398). -/
def applySetNamed (s : State) (sec : Nat) (r : TallyRec) : State :=
  let s := noteLive (putNamed s r) r
  match r with
  | .userCal i _ _ => { s with scal := { s.scal with old := s.scal.old.map fun e => if e.1 = i then (e.1, e.2.1, e.2.2.1, sec - 1) else e } }
  | _ => s

/-- Apply a set whole (15 R398): its register writes and named parameters from SEC on, the stopped slots inside their windows, the stopped engines restarted. -/
def applySet (s : State) (c : ChangeSet) : State :=
  let S := c.sec * 8000000000
  let host := some c.host
  let s := stopNamed s c
  let all := c.entries.flatMap CsEntry.words
  let stops := (List.finRange 16).map fun (i : Fin 16) => (i, all.filter fun w => stopSlotOf s w == some i)
  let s1 := (all.filter fun w => (stopSlotOf s w).isNone).foldl (fun s w => applySetWord s host S w) s
  let s1 := (List.finRange 16).foldl (fun s (i : Fin 16) => if all.any fun w => w.1 == 0x420 + 0x40 * i.val then applyGrCfg s i S else s) s1
  let s1 := (c.entries.filterMap CsEntry.named).foldl (fun s r => applySetNamed s c.sec r) s1
  let s1 := if hasSetup c.entries then acceptSetups s1 else s1
  let s1 := stops.foldl (fun s p => if p.2.isEmpty then s else applyStopped s host S p.2 p.1) s1
  let s1 := releaseNamed { s1 with aux := { s1.aux with old := [] } } true
  s1.modTally fun t => { t with applied := c.csid }

/-- CHANGE_SET_APPLY (15 R397, R398): the counter has reached SEC. A step that was accepted before the set and is due at this boundary comes first (08 R218). -/
def execChangeSetApply (s : State) : Host.Outcome State Fault Refusal :=
  .next (match s.live, s.tally.set with
    | true, some c =>
      let why := applyFailure s c
      let s1 := (s.modTally fun t => { t with set := none, setStep := false }).set TL_PEND_PEND 0
      if s.second < c.sec || (stepDue s && !s.tally.setStep) then s
      else if why = 0 then (applySet s1 c).event TL_EVT_CSOK
      else
        let s1 := releaseNamed s1 false
        sendResult ((s1.set TL_RES_CSRES why).event TL_EVT_CSFAIL) [.a, .b] c.host c.csid why noEntry c.sec
    | _, _ => s)

end Sys2Proof.Machine
end

