-- ==== Sys2Proof/Machine/Bus.lean ====
section
/-!
DEFINITION. Reading a register word (00 R9, 18 R459, 19 R466, R468, R471), the internal bus door (18 R458 to R461), writes through it, world violations (17 R435,
R436) and management messages (14 R362 to R364).
-/

namespace Sys2Proof.Machine

/-- The low halves of the eight 64-bit quantities (19 R471). -/
def lowHalf (a : Nat) : Bool :=
  [0x20C, 0x20E, 0x210, 0x304, 0x1004, 0x1702, 0x181C].contains a || (decide (0x400 ≤ a) && decide (a < 0x800) && a % 0x40 == 0x22)

/-- The high halves: each is the word after its low half. -/
def highHalf (a : Nat) : Bool := decide (0 < a) && lowHalf (a - 1)

/-- The initiator whose shadow an access uses (18 R459): ANA1's firmware and its user partition share one. -/
def shadowOwner (i : Initiator) : Initiator :=
  match i with
  | .proc .user => .proc .ana1
  | i => i

/-- Reading a low half latches the high half (18 R459, R460). -/
def latchHigh (s : State) (i : Initiator) (a : Nat) : State :=
  let o := shadowOwner i
  { s with bus := { s.bus with shadows := ⟨o, a, s.word (a + 1)⟩ :: s.bus.shadows.filter fun x => x.init != o } }

/-- What a read of high half a returns (18 R459): the initiator's shadow when it belongs to this quantity, otherwise the live half, counted. -/
def readHigh (s : State) (i : Initiator) (a : Nat) : Word × State :=
  match s.bus.shadows.find? fun x => x.init == shadowOwner i && x.addr + 1 == a with
  | some x => (x.high, s)
  | none => (s.word a, s.bump BUS_CNT_UNLATCHED 1)

/-- A word with field f replaced. -/
def showIn (f : Field) (n : Nat) (w : Word) : Word := setBits w f.lo f.width n

/-- ML_ST as it reads (07 R205): STATE is 0 while the slot is not enabled in GR_CFG; the word of slots 11 to 15 reads 0. -/
def millStatus (s : State) (i : Fin 16) (w : Word) : Word :=
  if i.val ≤ 10 ∧ !s.bit (GR_CFG_EN i) then showIn (ML_ST_STATE i) 0 w else w

/-- A word that shows a value the block forms at the read: the enables and pending bits through their clear words (18 R463), the head of the Blaze FIFO (11 R286),
timers (16 R427, 15 R403, 18 R463), the serial port's use (06 R179), the publication share (14 R375), CAL_BIND, which reads 0 in the live view
(09 R247), the amplitude of the drive while it starts (04 R114) and ML_ST. -/
def formedWord (s : State) (a : Nat) : Word :=
  let w := s.word a
  if 0x1608 ≤ a ∧ a < 0x160D then s.word (a - 8)
  else if 0x1618 ≤ a ∧ a < 0x161D then s.word (a - 8)
  else if 0x1308 ≤ a ∧ a < 0x1310 then blazeHead s (a - 0x1308)
  else if 0x1628 ≤ a ∧ a < 0x1638 then showIn (IC_GST_ELAPSED (a - 0x1628)) (groupElapsed s (a - 0x1628)) w
  else if 0x400 ≤ a ∧ a < 0x800 ∧ a % 0x40 = 0x12 then millStatus s (Fin.ofNat 16 ((a - 0x400) / 0x40)) w
  else match a with
    | 0xD => showIn MD_HOT_MIN (min 0xFFFF (hotMinutes s)) w
    | 0xF => BitVec.ofNat 32 (min 0xFFFFFFFF (modeSeconds s))
    | 0x321 => showIn CY_USE_MEAS (shareMeasure s) w
    | 0xA22 => showIn SSP_ST_MASTER (bitIf (s.pwr.serialB && (s.mode == 2 || s.mode == 3)) 0) (showIn SSP_ST_ACTIVE (bitIf s.pwr.serialB 0) w)
    | 0x584 => showIn DRV_ST_AMP (driveAmp s) w
    | 0x1008 => if s.get CAL_RSTST_VIEW = 0 then 0 else s.cal.bind
    | 0x1709 => (match s.tally.set with
      | none => w
      | some c => showIn TL_PEND_SECS (min 0xFFFF (c.sec - s.second)) w)
    | 0x172A => if s.mode = 4 then showIn CP_CNT_SECS (min 0xFFFF (modeSeconds s)) w else w
    | _ => w

/-- The value a read of word a returns, write-only fields reading 0 (00 R9). -/
def liveWord (s : State) (a : Nat) : Word := formedWord s a &&& ~~~(BitVec.ofNat 32 (accMask a .wo))

/-- What the present tick's events left in the fields of word a with access bits m, all before it cleared (00 R10). -/
def tickEvents (s : State) (a m : Nat) : Word :=
  s.fresh.foldl (fun w x =>
    if x.field.word = a ∧ m.testBit x.field.lo then setBits w x.field.lo x.field.width (min x.n (2 ^ x.field.width - 1)) else w) 0

/-- A word with the fields of access bits m as they were before the present tick's events (00 R10). -/
def beforeTick (s : State) (a m : Nat) (w : Word) : Word :=
  s.fresh.foldl (fun w x => if x.field.word = a ∧ m.testBit x.field.lo then setBits w x.field.lo x.field.width x.before else w) w

/-- The value a clearing read of word a returns: its RC fields as they were before the present tick's events (00 R10). -/
def readValue (s : State) (a : Nat) : Word := beforeTick s a (accMask a .rc) (liveWord s a)

/-- The fields of access RC of word a clear (00 R9); the present tick's events stay (00 R10). -/
def clearRc (s : State) (a : Nat) : State :=
  let m := accMask a .rc
  if m = 0 then s
  else { s.setWord a ((s.word a &&& ~~~(BitVec.ofNat 32 m)) ||| tickEvents s a m) with
         fresh := s.fresh.map fun x => if x.field.word = a then { x with before := 0 } else x }

/-- The RX word of an engine (12 R314). -/
def rxWord (a : Nat) : Bool := decide (0x142D ≤ a) && decide (a < 0x152D) && (a - 0x142D) % 0x20 == 0

/-- A word of the calibration store while a view is selected (09 R244). -/
def viewedWord (s : State) (a : Nat) : Bool := decide (0x1010 ≤ a) && decide (a ≤ 0x1046) && s.get CAL_RSTST_VIEW != 0

/-- Read word a (00 R9): what it returns and the state after its full side effects. A hole or gap word reads 0 without effect (19 R465, R466); an unreachable
WORK register reads 0 and is counted (01 R27). -/
def readWord (s : State) (i : Initiator) (a : Nat) : Word × State :=
  if !isRegister a then (0, s)
  else if workHidden s a then (0, offRead s i a)
  else if rxWord a then rxPop s (Fin.ofNat 8 ((a - 0x142D) / 0x20))
  else if viewedWord s a then (shadowWord s a, s)
  else if highHalf a then readHigh s i a
  else (readValue s a, clearRc (if lowHalf a then latchHigh s i a else s) a)

/-- Read n words from a upward, one after the other (19 R468). -/
def readWords (s : State) (i : Initiator) (a n : Nat) : List Word × State :=
  match n with
  | 0 => ([], s)
  | k + 1 =>
    let r := readWord s i a
    let q := readWords r.2 i (a + 1) k
    (r.1 :: q.1, q.2)

/-- TWO_HALF_LOW_READ (18 R459). -/
def execTwoHalfLowRead (init : Initiator) (addr : Nat) (s : State) : Host.Outcome State Fault Refusal :=
  .next (if present s init && lowHalf addr then (readWord s init addr).2.answer (readWord s init addr).1 else s)

/-- TWO_HALF_HIGH_READ (18 R459). -/
def execTwoHalfHighRead (init : Initiator) (addr : Nat) (s : State) : Host.Outcome State Fault Refusal :=
  .next (if present s init && highHalf addr then (readWord s init addr).2.answer (readWord s init addr).1 else s)

/-- The bytes of a word that a narrow read addresses: a byte, or the halfword at an even address. -/
def narrowed (w : Word) (byteAddr : Nat) (half : Bool) : Word :=
  if half then BitVec.ofNat 32 (getBits w (byteAddr / 2 % 2 * 16) 16) else BitVec.ofNat 32 (getBits w (byteAddr % 4 * 8) 8)

/-- The byte address lies in the register window (18 R458). -/
def inWindow (b : Nat) : Bool := decide (0x40000000 ≤ b) && decide (b < 0x40010000)

/-- BUS_WIDTH_ACCESS (18 R458): a write narrower than a word, or any access beyond the window, is ignored, reads 0 and counts; a gap page counts nothing (19 R465).
A narrow read inside the window has the effects of a word read and returns the addressed bytes, byte 0 of a word being its bits [7:0] (DESIGN CHOICE, log entry
120). -/
def execBusWidthAccess (p : Proc) (byteAddr : Nat) (half wr : Bool) (s : State) : Host.Outcome State Fault Refusal :=
  .next (if !procRuns s p then s
    else if decide (0x40010000 ≤ byteAddr) && decide (byteAddr < 0x50000000) then
      (if wr then s.bump BUS_CNT_WIDTH 1 else (s.bump BUS_CNT_WIDTH 1).answer 0)
    else if inWindow byteAddr then
      let a := (byteAddr - 0x40000000) / 4
      if wr then (if pageListed a then s.bump BUS_CNT_WIDTH 1 else s)
      else (readWord s (.proc p) a).2.answer (narrowed (readWord s (.proc p) a).1 byteAddr half)
    else s)

/-- The words of a multi-word access that reached the end of its page are returned with zeros beyond it (18 R461). -/
def State.answerBurst (s : State) (l : List Word) : State := { s with bus := { s.bus with reply := l.getLastD 0, burst := l } }

/-- BUS_MULTIWORD_ACCESS (18 R461): the words up to the end of the page are read; those beyond are 0, without effect, and the access is counted once. -/
def execBusMultiwordAccess (p : Proc) (addr n : Nat) (s : State) : Host.Outcome State Fault Refusal :=
  .next (if procRuns s p && decide (addr < 0x4000) && decide (1 ≤ n) then
      let cut := decide (pageEnd addr < addr + n)
      let r := readWords s (.proc p) addr (min n (pageEnd addr - addr))
      let s := if cut && pageListed addr then r.2.bump BUS_CNT_TRUNC 1 else r.2
      s.answerBurst (r.1 ++ List.replicate (n - (pageEnd addr - addr)) 0)
    else s)

/-- READ_CLEARS_ACCESS (00 R9). -/
def execReadClearsAccess (p : Proc) (addr : Nat) (s : State) : Host.Outcome State Fault Refusal :=
  .next (if procRuns s p && accMask addr .rc != 0 then (readWord s (.proc p) addr).2.answer (readWord s (.proc p) addr).1 else s)

/-- REGISTER_WRITE (00 R9, 19 R466, R467): a write that its world or door turns away has no effect. -/
def execRegisterWrite (init : Initiator) (addr : Nat) (v : Word) (s : State) : Host.Outcome State Fault Refusal :=
  .next (atDoor s init addr fun s => writeAny s init addr v)

/-- A bus target is secure (17 R430, R434): the world map's bits in force decide for ANA0, ANA1's analysis half and the Deck regions; the mailbox and the user
partition half are non-secure, everything else is secure. -/
def targetIsSecure (s : State) (x : BusTarget) : Bool :=
  match x with
  | .fixed | .register => true
  | .sram .ana0 => blockSecure s 3
  | .sram .ana1 => blockSecure s 4
  | .sram _ => true
  | .mailbox | .partition => false
  | .deck g => !(s.get WK_MAPD_DECK).testBit g.val

/-- A processor's access to a target is a violation (17 R435): a non-secure access to secure memory, or a write of a listed page's word that 17 R431 does not
permit. Memory lies outside the register window, the local port and the ignored range (18 R458, R462). -/
def violates (s : State) (p : Proc) (x : BusTarget) (wr : Bool) (b : Nat) : Bool :=
  !procSecure s p &&
    (match x with
     | .register => wr && inWindow b && pageListed ((b - 0x40000000) / 4) && !procMayWrite s p ((b - 0x40000000) / 4)
     | x => !(decide (0x40000000 ≤ b) && decide (b < 0x50000008)) && targetIsSecure s x)

/-- The user partition's access to memory outside its half and its mailbox makes it fault with code 1 (13 R337, 17 R436). -/
def partitionStray (s : State) (p : Proc) (x : BusTarget) : State :=
  match p, x with
  | .user, .mailbox | .user, .partition | .user, .register => s
  | .user, _ => { s with an := { s.an with upBad := true } }
  | _, _ => s

/-- WORLD_VIOLATION (17 R435, R436): an access that is a violation; a read answers 0, a write is ignored. -/
def execWorldViolation (p : Proc) (target : BusTarget) (wr : Bool) (byteAddr : Nat) (s : State) : Host.Outcome State Fault Refusal :=
  .next (if procRuns s p && violates s p target wr byteAddr then
      let s' := partitionStray (violation s p wr byteAddr) p target
      if wr then s' else s'.answer 0
    else s)

/-- Send a management reply to where the request came from (14 R344, R349). -/
def sendReply (s : State) (port : Port) (d : Datagram) (pay : Payload) : State := message s (macPorts s (some d.src.mac) [port]) (answerHead s d.src) pay false

/-- Send a management reply and keep it (14 R362, R364). -/
def replyMgmt (s : State) (port : Port) (d : Datagram) (reqid : Nat) (pay : Payload) : State :=
  sendReply (s.modHost d.sender fun h => { h with kept := ⟨reqid, pay⟩ :: h.kept.take 7 }) port d pay

/-- Carry out a management request, or send the kept reply of a repeated REQID again (14 R364). -/
def onceMgmt (s : State) (port : Port) (d : Datagram) (reqid : Nat) (f : State → Payload × State) : State :=
  match (hostState s d.sender).kept.find? fun k => k.reqid == reqid with
  | some k => sendReply s port d k.pay
  | none => replyMgmt (f s).2 port d reqid (f s).1

/-- The management session of a host. -/
def sessionDoor (s : State) (host : Nat) : Initiator := .host ((hostIndex s host).getD 0)

/-- A management request of OP op that reads cnt words, of a body of len bytes (14 R362, R363, 19 R465). -/
def mgmtReadOp (s : State) (host reqid op addr cnt len : Nat) : Payload × State :=
  if op ≠ 1 then (.mgmtReply host reqid op 4 false addr [], s)
  else if len ≠ 12 then (.mgmtReply host reqid 1 8 false addr [], s)
  else if !pageListed addr then (.mgmtReply host reqid 1 3 false addr [], s)
  else
    let n := min cnt (pageEnd addr - addr)
    let r := readWords s (sessionDoor s host) addr n
    (.mgmtReply host reqid 1 0 (decide (n < cnt)) addr r.1, r.2)

/-- Write words from a upward in one tick (19 R468). -/
def writeSpan (s : State) (door : Initiator) (a : Nat) (l : List Word) : State :=
  match l with
  | [] => s
  | v :: rest => writeSpan (writeAny s door a v) door (a + 1) rest

/-- Why a management write is refused, 0 when it is carried out (14 R363, 19 R465, R466). -/
def mgmtWriteRes (addr cnt len : Nat) (words : List Word) : Nat :=
  if words.length ≠ cnt ∨ len ≠ 12 + 4 * cnt then 8
  else if pageEnd addr < addr + cnt then 6
  else if (List.range cnt).all fun k => hostMayWrite (addr + k) then 0
  else 3

/-- A management write (14 R363). -/
def mgmtWriteOp (s : State) (host reqid addr cnt len : Nat) (words : List Word) : Payload × State :=
  let r := mgmtWriteRes addr cnt len words
  (.mgmtReply host reqid 2 r false addr [], if r = 0 then writeSpan s (sessionDoor s host) addr words else s)

/-- A management request (14 R362 to R364): its OP tells a write from what is read or reserved. -/
def mgmtRequest (s : State) (port : Port) (d : Datagram) (r : MgmtReq) : State :=
  onceMgmt s port d r.reqid fun s =>
    if r.op = 2 then mgmtWriteOp s d.sender r.reqid r.addr r.cnt d.len r.words else mgmtReadOp s d.sender r.reqid r.op r.addr r.cnt d.len

/-- MGMT_READ. -/
def execMgmtRead (port : Port) (d : Datagram) (s : State) : Host.Outcome State Fault Refusal :=
  .next (receive s d 0x10 fun l s => mgmtRequest s port d (mgmtReqOf l))

/-- MGMT_WRITE. -/
def execMgmtWrite (port : Port) (d : Datagram) (s : State) : Host.Outcome State Fault Refusal :=
  .next (receive s d 0x10 fun l s => mgmtRequest s port d (mgmtReqOf l))

end Sys2Proof.Machine
end

