-- ==== Sys2Proof/Machine/Serial.lean ====
section
/-!
DEFINITION. The service serial port (06 R170 to R175, 19 R465), the key probe (06 R176, 16 R407), and KEYLOAD (06 R177, 15 R389, 16 R408).
-/

namespace Sys2Proof.Machine

/-- Frames of slave use are handled; during an erase they are answered with result 7 and otherwise ignored (06 R175). -/
def frameTaken (s : State) : Bool := serialSlave s && !s.tally.erasing

/-- SSP_ST after a frame (06 R173, R179). -/
def setFrame (s : State) (op res : Nat) (trunc : Bool) : State :=
  ((s.set SSP_ST_LASTOP op).setB SSP_ST_TRUNC trunc).set SSP_ST_RES res

/-- A frame counts by its result, and the serial interrupt source pulses (06 R172, 18 R446). -/
def countFrame (s : State) (res : Nat) : State :=
  let s := s.pulse 5
  if res = 0 ∨ res = 7 then s.bump SSP_CNT_FRAMES 1
  else if res = 5 then s.bump SSP_CNT_TIMING 1
  else s.bump SSP_CNT_REJ 1

/-- A frame ends with a result, and extra words were discarded (06 R172). -/
def endFrame (s : State) (op res : Nat) (trunc : Bool) (extra : Nat) : State := countFrame (setFrame (s.bump SSP_CNT_EXTRA extra) op res trunc) res

/-- SSP_ST as word 0 of a frame's answer carries it (06 R173). -/
def frameStatus (s : State) : Word := liveWord s 0xA22

/-- The reply header of 06 R173. -/
def replyHeader (trunc : Bool) (res n : Nat) : Word := BitVec.ofNat 32 (0xA5 * 2 ^ 24 + bitIf trunc 23 + res * 2 ^ 20 + n)

/-- A frame during an erase (06 R175): word 0 carries result 7, and nothing else happens. -/
def eraseAnswer (s : State) : State :=
  if serialSlave s then s.send .serial 0 (.sspReply [showIn SSP_ST_RES 7 (frameStatus s)]) else s

/-- The words of a frame as the slave's clock mode samples them (06 R170): on the rising edges where CPOL and CPHA agree, else on the falling ones (PRESUMED, log entry
115). -/
def frameWords (s : State) (f : SspFrame) : List Word := if auxGet s SSP_CFG_CPOL = auxGet s SSP_CFG_CPHA then f.rising else f.falling

/-- Word 0 of a frame; 0 for a frame without a whole word. -/
def frameHead (s : State) (f : SspFrame) : Word := (frameWords s f).headD 0

/-- OP, ADDR and the number of words of a frame's word 0 (06 R173). -/
def frameOp (s : State) (f : SspFrame) : Nat := getBits (frameHead s f) 28 4
def frameAddr (s : State) (f : SspFrame) : Nat := getBits (frameHead s f) 10 14
def frameCount (s : State) (f : SspFrame) : Nat := getBits (frameHead s f) 0 8 + 1

/-- The defined length of a frame in words (06 R173). -/
def frameLength (s : State) (f : SspFrame) : Nat :=
  if frameOp s f = 1 then 2 + frameCount s f else if frameOp s f = 2 then 1 + frameCount s f else 2

/-- The words beyond the defined length (06 R172). -/
def frameExtra (s : State) (f : SspFrame) : Nat := (frameWords s f).length - frameLength s f

/-- Why a frame is rejected before its access, 0 when it is carried out (06 R171 to R174): 5 timing, 1 partial word, 4 reserved opcode, 2 short; timing counts first and
a frame without a whole word is short; bits [27:24] and [9:8] of word 0 are not looked at (DESIGN CHOICE: R173 gives them as 0 and no handling of another value; log entry 115). -/
def frameFault (s : State) (f : SspFrame) : Nat :=
  if f.setup < auxGet s SSP_DLY_CSSETUP ∨ f.hold < auxGet s SSP_DLY_CSHOLD ∨ f.gap < auxGet s SSP_DLY_GAP then 5
  else if f.partialWord then 1
  else if (frameWords s f).isEmpty then 2
  else if !([1, 2, 0xE].contains (frameOp s f)) then 4
  else if (frameWords s f).length < frameLength s f then 2
  else 0

/-- The frame is one with opcode op that is carried out. -/
def frameIs (s : State) (f : SspFrame) (op : Nat) : Bool := frameFault s f == 0 && frameOp s f == op

/-- A read frame (06 R174, 19 R465, R468): the words up to the end of the page, then zeros. -/
def sspReadOp (s : State) (addr cnt extra : Nat) : State :=
  let st := frameStatus s
  if !pageListed addr then (endFrame s 1 3 false extra).send .serial 0 (.sspReply (st :: replyHeader false 3 0 :: List.replicate cnt 0))
  else
    let n := min cnt (pageEnd addr - addr)
    let r := readWords s .ssp addr n
    (endFrame r.2 1 0 (decide (n < cnt)) extra).send .serial 0
      (.sspReply (st :: replyHeader (decide (n < cnt)) 0 n :: (r.1 ++ List.replicate (cnt - n) 0)))

/-- SSP_READ. -/
def execSspRead (f : SspFrame) (s : State) : Host.Outcome State Fault Refusal :=
  .next (if !frameTaken s then eraseAnswer s
    else if frameIs s f 1 then sspReadOp s (frameAddr s f) (frameCount s f) (frameExtra s f)
    else s)

/-- Why a write frame is rejected, 0 when it is carried out (06 R174, 19 R465, R466). -/
def sspWriteRes (s : State) (addr : Nat) (words : List Word) : Nat :=
  if pageEnd addr < addr + words.length then 6
  else if (List.range words.length).all fun k => sspMayWrite s (addr + k) then 0
  else 3

/-- A write frame (06 R172, R174): its words are written after CS# rises. -/
def sspWriteOp (s : State) (addr : Nat) (words : List Word) (extra : Nat) : State :=
  let st := frameStatus s
  let r := sspWriteRes s addr words
  let s := (endFrame s 2 r false extra).send .serial 0 (.sspReply (st :: List.replicate words.length 0))
  if r = 0 then writeSpan s .ssp addr words else s

/-- SSP_WRITE. -/
def execSspWrite (f : SspFrame) (s : State) : Host.Outcome State Fault Refusal :=
  .next (if !frameTaken s then eraseAnswer s
    else if frameIs s f 2 then sspWriteOp s (frameAddr s f) (((frameWords s f).drop 1).take (frameCount s f)) (frameExtra s f)
    else s)

/-- Erase-to-blank (06 R175, 15 R352, R383, 17 R437, R438): the erasable key area, the own and custody regions and the event log are cleared, with the message
reservation, and the run count begins anew (08 R221); the seal record takes the next COMSEQ; a commit or staging ends without a seal (15 R402). -/
def eraseBlank (s : State) : State :=
  let s := { s with keys := { s.keys with lineKey := none, anchor := none, sysid := 0 } }
  let s := { s with flash := { s.flash with own := {}, custA := {}, custB := {}, log := [], mseqRes := 0, run := 0 } }
  let s := s.modTally fun t => { t with commit := none, staging := none, fetched := none, newOwn := none, erasing := true,
                                        portA := { t.portA with fetch := none }, portB := { t.portB with fetch := none } }
  let s := reserveSeq (showKeys (s.set TL_ST_BUSY 0))
  appendSeal s { region := 0xFF, comseq := s.flash.comseq }

/-- An erase frame (06 R175): word 1 confirms it. -/
def sspEraseOp (s : State) (confirm : Word) (extra : Nat) : State :=
  let st := frameStatus s
  let ok := confirm == 0x45524153#32
  let s := (endFrame s 0xE (if ok then 7 else 4) false extra).send .serial 0 (.sspReply [st, 0])
  if ok then eraseBlank s else s

/-- SSP_ERASE_TO_BLANK (06 R175). -/
def execSspEraseToBlank (f : SspFrame) (s : State) : Host.Outcome State Fault Refusal :=
  .next (if !frameTaken s then eraseAnswer s
    else if frameIs s f 0xE then sspEraseOp s ((frameWords s f).getD 1 0) (frameExtra s f)
    else s)

/-- ERASE_COMPLETE (06 R175): the controller restarts; CAUSE will read 0x02. -/
def execEraseComplete (s : State) : Host.Outcome State Fault Refusal :=
  .next (if s.alive && s.tally.erasing then dieReset s 2 else s)

/-- SSP_FRAME_REJECT (06 R172, R174): a frame that is rejected before its access. -/
def execSspFrameReject (f : SspFrame) (s : State) : Host.Outcome State Fault Refusal :=
  .next (if !frameTaken s then eraseAnswer s
    else if frameFault s f ≠ 0 then (endFrame s (frameOp s f) (frameFault s f) false 0).send .serial 0 (.sspReply [frameStatus s])
    else s)

/-- Send an identify frame (06 R176). -/
def sendIdentify (s : State) : State := (s.modTally fun t => { t with identAt := s.pwr.ticks }).send .serial 0 .identify

/-- The key probe runs (06 R176). -/
def probing (s : State) : Bool := s.live && s.mode == 2 && s.tally.windowOpen

/-- KEY_PROBE_SWITCH (06 R176): port B is without link and below 2 V for 100 ms of the window; the first identify frame is sent at once; else what is measured counts. -/
def execKeyProbeSwitch (m : Meter) (s : State) : Host.Outcome State Fault Refusal :=
  .next (if probing s && !linkUp s .b && !s.pwr.serialB && !switchClosed s .b then
      let s := measure s m
      if lowSince s s.modes.at_ then sendIdentify ((takeSerial s).modTally fun t => { t with identify := true }) else s
    else s)

/-- KEY_PROBE_IDENTIFY (06 R176): every 100 ms, until a service adapter answered. -/
def execKeyProbeIdentify (s : State) : Host.Outcome State Fault Refusal :=
  .next (if probing s && s.tally.identify && decide (s.tally.identAt + 20000000 ≤ s.pwr.ticks) then sendIdentify s else s)

/-- An answer to an identify frame is valid (06 R176). -/
def probeAnswer (s : State) (w1 : Word) : Bool := probing s && s.pwr.serialB && w1 == 0xA5000001#32

/-- The plug words that KEYLOAD reads next (06 R177): the 16 of the Tally header, then the image in frames of 256 words, fewer in the last. -/
def plugSpan (s : State) : Nat × Nat :=
  if s.tally.keyLen = 0 then (0, 16) else (s.tally.keyWord, min 256 (s.tally.keyLen - s.tally.keyWord))

/-- The plug image has been read to its end. -/
def plugRead (s : State) : Bool := s.tally.keyLen != 0 && decide (s.tally.keyLen ≤ s.tally.keyWord)

/-- Send the plug read frame of a span (06 R177): word 0 is OP 0x9, the 18-bit plug word address and CNT. -/
def sendPlugRead (s : State) (addr n : Nat) : State := s.send .serial 0 (.plugRead (9 * 2 ^ 28 + addr * 2 ^ 10 + (n - 1)))

/-- A good reply moves the read on (06 R177): the header gives the image's length in bytes in its word 2 (15 R377), of which at most 1 MiB is read (R376). -/
def takePlug (s : State) (n : Nat) (words : List Word) : State :=
  s.modTally fun t =>
    if t.keyLen = 0 then { t with keyLen := max 16 (min 262144 (ceilDiv (words.getD 2 0).toNat 4)), keyTries := 0 }
    else { t with keyWord := t.keyWord + n, plug := t.plug ++ (words.take n).flatMap fun v => beBytes 4 v.toNat, keyTries := 0 }

/-- The image of the plug words read (15 R389): each holds four bytes, the most significant first; LENGTH bytes of them, from word 0. -/
def plugImage (s : State) : Image := ⟨s.tally.plug.take (beAt s.tally.plug 8 4)⟩

/-- KEY_PLUG_ANSWER (06 R176, 16 R407): KEYLOAD begins at once. -/
def execKeyPlugAnswer (w1 w2 : Word) (s : State) : Host.Outcome State Fault Refusal :=
  .next (if probeAnswer s w1 && w2 == 0x4B500001#32 then
      changeMode (s.modTally fun t => { t with windowOpen := false, identify := false, adapter := false, keyWord := 0, keyLen := 0, plug := [], keyTries := 0 }) 3
    else s)

/-- SERVICE_ADAPTER_ANSWER (06 R176). -/
def execServiceAdapterAnswer (w1 w2 : Word) (s : State) : Host.Outcome State Fault Refusal :=
  .next (if probeAnswer s w1 && w2 == 0x53410001#32 then s.modTally fun t => { t with adapter := true, identify := false } else s)

/-- KEY_PROBE_WINDOW_END (16 R407, 15 R388): 2 s after LOAD began the module leaves LOAD by the check of its own image, which is done by then. -/
def execKeyProbeWindowEnd (s : State) : Host.Outcome State Fault Refusal :=
  .next (if probing s && passed s s.modes.at_ 2 then
      let s := if s.tally.checked then s else loadCheck s
      leaveLoad s s.tally.adapter
    else s)

/-- KEYLOAD fails (16 R408): port B returns to Ethernet use with the mode that follows. -/
def keyloadFail (s : State) : State := leaveLoad (s.event MD_EVT_KEYFAIL) false

/-- KEYLOAD_READ (06 R177): one plug read frame, with the reply header w1 and the words that the plug answers. A reply header that is not the expected one makes the frame bad: it is
repeated up to 3 times. -/
def execKeyloadRead (w1 : Word) (words : List Word) (s : State) : Host.Outcome State Fault Refusal :=
  .next (if s.live && s.mode == 3 && s.modes.restart.isNone && !plugRead s then
      let (addr, n) := plugSpan s
      let s := sendPlugRead s addr n
      if w1 = replyHeader false 0 n then takePlug s n words
      else if s.tally.keyTries < 3 then s.modTally fun t => { t with keyTries := t.keyTries + 1 }
      else
        let s := if s.tally.checked then s else loadCheck s
        keyloadFail s
    else s)

/-- KEYLOAD_IMAGE_DONE (15 R389): the plug image is read to its end and checked: committed with ORIGIN 2 and a restart, or the module goes on as without a plug. -/
def execKeyloadImageDone (s : State) : Host.Outcome State Fault Refusal :=
  .next (if s.live && s.mode == 3 && s.modes.restart.isNone && plugRead s then
      if imageCheck s (plugImage s) = 0 then beginRestart (newOwn (commitImage s 0 (plugImage s) 2) (plugImage s)) 6
      else
        let s := if s.tally.checked then s else loadCheck s
        leaveLoad s false
    else s)

end Sys2Proof.Machine
end

