-- ==== Sys2Proof/Machine/Dispatch.lean ====
section
/-!
DEFINITION. The dispatch: one arm per command, each a direct call of its meaning.
-/

namespace Sys2Proof.Machine

open Sys2Proof

/-- The effect of a command on everything but the queue. -/
def exec (i : Instr) (s : State) : Host.Outcome State Fault Refusal :=
  match i with
  | .supplyRise m => Sys2Proof.Machine.execSupplyRise m s
  | .inrushEnd boot => Sys2Proof.Machine.execInrushEnd boot s
  | .startEnd => Sys2Proof.Machine.execStartEnd s
  | .refbufEnable door v => Sys2Proof.Machine.execRefbufEnable door v s
  | .refbufSettled => Sys2Proof.Machine.execRefbufSettled s
  | .pllLockLoss => Sys2Proof.Machine.execPllLockLoss s
  | .supWatchdogExpiry => Sys2Proof.Machine.execSupWatchdogExpiry s
  | .anaHeartbeatLoss => Sys2Proof.Machine.execAnaHeartbeatLoss s
  | .netHeartbeatLoss => Sys2Proof.Machine.execNetHeartbeatLoss s
  | .deckControllerRelease => Sys2Proof.Machine.execDeckControllerRelease s
  | .anaRelease => Sys2Proof.Machine.execAnaRelease s
  | .deckControllerStop => Sys2Proof.Machine.execDeckControllerStop s
  | .workRailsOff => Sys2Proof.Machine.execWorkRailsOff s
  | .workRegOffAccess init addr wr => Sys2Proof.Machine.execWorkRegOffAccess init addr wr s
  | .supplyLoss cut m => Sys2Proof.Machine.execSupplyLoss cut m s
  | .undervoltage m => Sys2Proof.Machine.execUndervoltage m s
  | .surge m => Sys2Proof.Machine.execSurge m s
  | .detectCycleStart port => Sys2Proof.Machine.execDetectCycleStart port s
  | .detectCycleEnd port listen i1 i2 => Sys2Proof.Machine.execDetectCycleEnd port listen i1 i2 s
  | .portAbove30V port m => Sys2Proof.Machine.execPortAbove30V port m s
  | .portBelow30V port m => Sys2Proof.Machine.execPortBelow30V port m s
  | .portJoin port m => Sys2Proof.Machine.execPortJoin port m s
  | .ptCurrentFault port m => Sys2Proof.Machine.execPtCurrentFault port m s
  | .ptLinkLossRelease port m => Sys2Proof.Machine.execPtLinkLossRelease port m s
  | .departureBlazeReceive port blaze => Sys2Proof.Machine.execDepartureBlazeReceive port blaze s
  | .holdoffEnd port m => Sys2Proof.Machine.execHoldoffEnd port m s
  | .pwrCtlWrite door v => Sys2Proof.Machine.execPwrCtlWrite door v s
  | .sspPortBTake m => Sys2Proof.Machine.execSspPortBTake m s
  | .twistStillnessMet => Sys2Proof.Machine.execTwistStillnessMet s
  | .twistIntegralClear xs => Sys2Proof.Machine.execTwistIntegralClear xs s
  | .twistReleaseTrigger xs => Sys2Proof.Machine.execTwistReleaseTrigger xs s
  | .twistSupplyPersists => Sys2Proof.Machine.execTwistSupplyPersists s
  | .twistRestartInrush m => Sys2Proof.Machine.execTwistRestartInrush m s
  | .syncReceive port h t1 cap corr twoStep => Sys2Proof.Machine.execSyncReceive port h t1 cap corr twoStep s
  | .followUpReceive port h t1 corr => Sys2Proof.Machine.execFollowUpReceive port h t1 corr s
  | .followUpTimeout port seq => Sys2Proof.Machine.execFollowUpTimeout port seq s
  | .announceReceive port h ds => Sys2Proof.Machine.execAnnounceReceive port h ds s
  | .pdelayReqSend port seq cap => Sys2Proof.Machine.execPdelayReqSend port seq cap s
  | .pdelayReqReceive port h capIn capOut => Sys2Proof.Machine.execPdelayReqReceive port h capIn capOut s
  | .pdelayRespReceive port h reqClock reqPort t2 t3 corr cap => Sys2Proof.Machine.execPdelayRespReceive port h reqClock reqPort t2 t3 corr cap s
  | .ptpTransitForward ingress h followUp twoStep corr capIn capOut => Sys2Proof.Machine.execPtpTransitForward ingress h followUp twoStep corr capIn capOut s
  | .masterLost => Sys2Proof.Machine.execMasterLost s
  | .initialSet => Sys2Proof.Machine.execInitialSet s
  | .timeAcceptCmd door => Sys2Proof.Machine.execTimeAcceptCmd door s
  | .timeSnapCmd door => Sys2Proof.Machine.execTimeSnapCmd door s
  | .stepApply => Sys2Proof.Machine.execStepApply s
  | .guardClose targets => Sys2Proof.Machine.execGuardClose targets s
  | .guardTimeout targets => Sys2Proof.Machine.execGuardTimeout targets s
  | .freqEstimateLog fails => Sys2Proof.Machine.execFreqEstimateLog fails s
  | .axCfgWrite door axis v => Sys2Proof.Machine.execAxCfgWrite door axis v s
  | .rangeUpDecision axis code => Sys2Proof.Machine.execRangeUpDecision axis code s
  | .rangeDownDecision axis runs => Sys2Proof.Machine.execRangeDownDecision axis runs s
  | .rangeSwitch axis => Sys2Proof.Machine.execRangeSwitch axis s
  | .excitationChangeApply axis => Sys2Proof.Machine.execExcitationChangeApply axis s
  | .driveLock freq => Sys2Proof.Machine.execDriveLock freq s
  | .driveUnlock => Sys2Proof.Machine.execDriveUnlock s
  | .hkPassStart => Sys2Proof.Machine.execHkPassStart s
  | .hkEntryEnd xs targets => Sys2Proof.Machine.execHkEntryEnd xs targets s
  | .hkApplyCmd door => Sys2Proof.Machine.execHkApplyCmd door s
  | .hkInjCmd door => Sys2Proof.Machine.execHkInjCmd door s
  | .hkInjectionStart => Sys2Proof.Machine.execHkInjectionStart s
  | .hkInjectionEnd xs => Sys2Proof.Machine.execHkInjectionEnd xs s
  | .scalCapz door => Sys2Proof.Machine.execScalCapz door s
  | .scalCaps door => Sys2Proof.Machine.execScalCaps door s
  | .scalAbort door => Sys2Proof.Machine.execScalAbort door s
  | .scalDiscard door => Sys2Proof.Machine.execScalDiscard door s
  | .scalCaptureEnd => Sys2Proof.Machine.execScalCaptureEnd s
  | .auxFuncWrite door cfg prb => Sys2Proof.Machine.execAuxFuncWrite door cfg prb s
  | .auxFuncApply => Sys2Proof.Machine.execAuxFuncApply s
  | .auxClampEdge ticks => Sys2Proof.Machine.execAuxClampEdge ticks s
  | .auxComparatorChange drive => Sys2Proof.Machine.execAuxComparatorChange drive s
  | .auxEdgeAccept => Sys2Proof.Machine.execAuxEdgeAccept s
  | .auxPulseAbsorb => Sys2Proof.Machine.execAuxPulseAbsorb s
  | .auxStuck => Sys2Proof.Machine.execAuxStuck s
  | .auxLeadmeasCmd door => Sys2Proof.Machine.execAuxLeadmeasCmd door s
  | .auxLeadmeasEnd => Sys2Proof.Machine.execAuxLeadmeasEnd s
  | .auxOutputFault => Sys2Proof.Machine.execAuxOutputFault s
  | .auxOutputRestore => Sys2Proof.Machine.execAuxOutputRestore s
  | .sspRead f => Sys2Proof.Machine.execSspRead f s
  | .sspWrite f => Sys2Proof.Machine.execSspWrite f s
  | .sspEraseToBlank f => Sys2Proof.Machine.execSspEraseToBlank f s
  | .eraseComplete => Sys2Proof.Machine.execEraseComplete s
  | .keyProbeSwitch m => Sys2Proof.Machine.execKeyProbeSwitch m s
  | .keyProbeIdentify => Sys2Proof.Machine.execKeyProbeIdentify s
  | .keyPlugAnswer w1 w2 => Sys2Proof.Machine.execKeyPlugAnswer w1 w2 s
  | .serviceAdapterAnswer w1 w2 => Sys2Proof.Machine.execServiceAdapterAnswer w1 w2 s
  | .keyProbeWindowEnd => Sys2Proof.Machine.execKeyProbeWindowEnd s
  | .tallyLoadCheck => Sys2Proof.Machine.execTallyLoadCheck s
  | .keyloadRead w1 words => Sys2Proof.Machine.execKeyloadRead w1 words s
  | .keyloadImageDone => Sys2Proof.Machine.execKeyloadImageDone s
  | .gridSlotRecord slot t live taken => Sys2Proof.Machine.execGridSlotRecord slot t live taken s
  | .landingAccountMismatch => Sys2Proof.Machine.execLandingAccountMismatch s
  | .slotSettled slot => Sys2Proof.Machine.execSlotSettled slot s
  | .mlSwap door slot => Sys2Proof.Machine.execMlSwap door slot s
  | .swapWarmupEnd slot => Sys2Proof.Machine.execSwapWarmupEnd slot s
  | .swapFadeEnd slot => Sys2Proof.Machine.execSwapFadeEnd slot s
  | .mlSlotSync door slot => Sys2Proof.Machine.execMlSlotSync door slot s
  | .mlGlobalSync door => Sys2Proof.Machine.execMlGlobalSync door s
  | .millBankWrite door addr v => Sys2Proof.Machine.execMillBankWrite door addr v s
  | .millEccCorrect => Sys2Proof.Machine.execMillEccCorrect s
  | .millEccError slot => Sys2Proof.Machine.execMillEccError slot s
  | .grCfgWrite door slot v => Sys2Proof.Machine.execGrCfgWrite door slot v s
  | .grCfgApply slot => Sys2Proof.Machine.execGrCfgApply slot s
  | .calRetryTimer axis => Sys2Proof.Machine.execCalRetryTimer axis s
  | .calAbandonRetry axis => Sys2Proof.Machine.execCalAbandonRetry axis s
  | .calSlopeUpdate => Sys2Proof.Machine.execCalSlopeUpdate s
  | .calRunStart => Sys2Proof.Machine.execCalRunStart s
  | .calRunEnd res => Sys2Proof.Machine.execCalRunEnd res s
  | .calSlewStep axis => Sys2Proof.Machine.execCalSlewStep axis s
  | .classbTapStep => Sys2Proof.Machine.execClassbTapStep s
  | .calRunCmd door mask => Sys2Proof.Machine.execCalRunCmd door mask s
  | .calClassbCmd door targets => Sys2Proof.Machine.execCalClassbCmd door targets s
  | .calSnapshot door => Sys2Proof.Machine.execCalSnapshot door s
  | .calOpen door => Sys2Proof.Machine.execCalOpen door s
  | .calCommit door => Sys2Proof.Machine.execCalCommit door s
  | .calClose door => Sys2Proof.Machine.execCalClose door s
  | .deckBlockClose slot => Sys2Proof.Machine.execDeckBlockClose slot s
  | .captureTrigger c => Sys2Proof.Machine.execCaptureTrigger c s
  | .captureTrigCmd door c => Sys2Proof.Machine.execCaptureTrigCmd door c s
  | .captureReleaseCmd door c => Sys2Proof.Machine.execCaptureReleaseCmd door c s
  | .captureWindowEnd c => Sys2Proof.Machine.execCaptureWindowEnd c s
  | .dkCapWrite door c w v => Sys2Proof.Machine.execDkCapWrite door c w v s
  | .leaseRequest holder call => Sys2Proof.Machine.execLeaseRequest holder call s
  | .leaseScan ms => Sys2Proof.Machine.execLeaseScan ms s
  | .deckAccountAudit free held flight => Sys2Proof.Machine.execDeckAccountAudit free held flight s
  | .impactRecord => Sys2Proof.Machine.execImpactRecord s
  | .strokeRecord => Sys2Proof.Machine.execStrokeRecord s
  | .freefallRecord => Sys2Proof.Machine.execFreefallRecord s
  | .rcImpWrite door w v => Sys2Proof.Machine.execRcImpWrite door w v s
  | .rcStkWrite door w v => Sys2Proof.Machine.execRcStkWrite door w v s
  | .rcFfWrite door w v => Sys2Proof.Machine.execRcFfWrite door w v s
  | .bzPop door => Sys2Proof.Machine.execBzPop door s
  | .blazeMessageSend => Sys2Proof.Machine.execBlazeMessageSend s
  | .blazeMessageReceive d => Sys2Proof.Machine.execBlazeMessageReceive d s
  | .peerBlazeDeliver => Sys2Proof.Machine.execPeerBlazeDeliver s
  | .peBr e w => Sys2Proof.Machine.execPeBr e w s
  | .peAwait e w => Sys2Proof.Machine.execPeAwait e w s
  | .peStamp e w => Sys2Proof.Machine.execPeStamp e w s
  | .peMarkInterrupt e w => Sys2Proof.Machine.execPeMarkInterrupt e w s
  | .peMarkBlaze e w => Sys2Proof.Machine.execPeMarkBlaze e w s
  | .peMarkCaptureTime e w => Sys2Proof.Machine.execPeMarkCaptureTime e w s
  | .peSamp e w => Sys2Proof.Machine.execPeSamp e w s
  | .peEmit e w => Sys2Proof.Machine.execPeEmit e w s
  | .peXferSinToRx e w => Sys2Proof.Machine.execPeXferSinToRx e w s
  | .peXferTxToSout e w => Sys2Proof.Machine.execPeXferTxToSout e w s
  | .peXferUToRx e w => Sys2Proof.Machine.execPeXferUToRx e w s
  | .peXferTxToU e w => Sys2Proof.Machine.execPeXferTxToU e w s
  | .peCalc e w => Sys2Proof.Machine.execPeCalc e w s
  | .peLdi e w => Sys2Proof.Machine.execPeLdi e w s
  | .peDec e w => Sys2Proof.Machine.execPeDec e w s
  | .peReservedEncoding e w => Sys2Proof.Machine.execPeReservedEncoding e w s
  | .peGcmdStop door mask => Sys2Proof.Machine.execPeGcmdStop door mask s
  | .peGcmdRestart door mask => Sys2Proof.Machine.execPeGcmdRestart door mask s
  | .peGcmdRun door mask => Sys2Proof.Machine.execPeGcmdRun door mask s
  | .peGcmdClksync door mask => Sys2Proof.Machine.execPeGcmdClksync door mask s
  | .peInject door e w => Sys2Proof.Machine.execPeInject door e w s
  | .peTxPush door e w => Sys2Proof.Machine.execPeTxPush door e w s
  | .peRxPop door e => Sys2Proof.Machine.execPeRxPop door e s
  | .peImWrite door e n v => Sys2Proof.Machine.execPeImWrite door e n v s
  | .pePulseInput e code => Sys2Proof.Machine.execPePulseInput e code s
  | .peMillEvent e => Sys2Proof.Machine.execPeMillEvent e s
  | .anEvaluation setup => Sys2Proof.Machine.execAnEvaluation setup s
  | .anTrendPoint setup => Sys2Proof.Machine.execAnTrendPoint setup s
  | .anTrendDump door setup => Sys2Proof.Machine.execAnTrendDump door setup s
  | .upFault code => Sys2Proof.Machine.execUpFault code s
  | .upRestart => Sys2Proof.Machine.execUpRestart s
  | .anUpRestartCmd door => Sys2Proof.Machine.execAnUpRestartCmd door s
  | .upPreempt => Sys2Proof.Machine.execUpPreempt s
  | .upHeartbeat m => Sys2Proof.Machine.execUpHeartbeat m s
  | .upTime m => Sys2Proof.Machine.execUpTime m s
  | .upAttach m slot bytes => Sys2Proof.Machine.execUpAttach m slot bytes s
  | .upDetach m slot => Sys2Proof.Machine.execUpDetach m slot s
  | .upOpenView m slot t => Sys2Proof.Machine.execUpOpenView m slot t s
  | .upReadView m lease first n => Sys2Proof.Machine.execUpReadView m lease first n s
  | .upCloseView m lease => Sys2Proof.Machine.execUpCloseView m lease s
  | .upReadFeature m fid => Sys2Proof.Machine.execUpReadFeature m fid s
  | .upPublish m out value q => Sys2Proof.Machine.execUpPublish m out value q s
  | .upBlaze m kind sev v0 v1 => Sys2Proof.Machine.execUpBlaze m kind sev v0 v1 s
  | .upEngineWord m e w => Sys2Proof.Machine.execUpEngineWord m e w s
  | .upTimer m us periodic => Sys2Proof.Machine.execUpTimer m us periodic s
  | .upTimerExpiry => Sys2Proof.Machine.execUpTimerExpiry s
  | .portLinkUp port ab sqi => Sys2Proof.Machine.execPortLinkUp port ab sqi s
  | .portLinkDown port => Sys2Proof.Machine.execPortLinkDown port s
  | .portCfgWrite door v => Sys2Proof.Machine.execPortCfgWrite door v s
  | .switchForward port f => Sys2Proof.Machine.execSwitchForward port f s
  | .mrpTopologyChange port uuid ms => Sys2Proof.Machine.execMrpTopologyChange port uuid ms s
  | .mrpFlush => Sys2Proof.Machine.execMrpFlush s
  | .icmpEcho port src => Sys2Proof.Machine.execIcmpEcho port src s
  | .addressQuery port kind src => Sys2Proof.Machine.execAddressQuery port kind src s
  | .replayEntryAge sender => Sys2Proof.Machine.execReplayEntryAge sender s
  | .mgmtRead port d => Sys2Proof.Machine.execMgmtRead port d s
  | .mgmtWrite port d => Sys2Proof.Machine.execMgmtWrite port d s
  | .changeSetPart port d => Sys2Proof.Machine.execChangeSetPart port d s
  | .changeSetTimeout sender => Sys2Proof.Machine.execChangeSetTimeout sender s
  | .changeSetEngineStop => Sys2Proof.Machine.execChangeSetEngineStop s
  | .changeSetApply => Sys2Proof.Machine.execChangeSetApply s
  | .cyStrWrite door k v => Sys2Proof.Machine.execCyStrWrite door k v s
  | .streamPublication k => Sys2Proof.Machine.execStreamPublication k s
  | .captureOpen port d => Sys2Proof.Machine.execCaptureOpen port d s
  | .captureCredit port d => Sys2Proof.Machine.execCaptureCredit port d s
  | .captureChunkSend sid => Sys2Proof.Machine.execCaptureChunkSend sid s
  | .captureClose port d => Sys2Proof.Machine.execCaptureClose port d s
  | .custodyHelloSend port => Sys2Proof.Machine.execCustodyHelloSend port s
  | .custodyHelloReceive port d => Sys2Proof.Machine.execCustodyHelloReceive port d s
  | .custodyRequest port d => Sys2Proof.Machine.execCustodyRequest port d s
  | .custodyDataReceive port d => Sys2Proof.Machine.execCustodyDataReceive port d s
  | .custodyOffer port d => Sys2Proof.Machine.execCustodyOffer port d s
  | .custodyDefer port d => Sys2Proof.Machine.execCustodyDefer port d s
  | .custodyDeferEnd port => Sys2Proof.Machine.execCustodyDeferEnd port s
  | .coppiceListenEnd => Sys2Proof.Machine.execCoppiceListenEnd s
  | .coppiceCommitDone => Sys2Proof.Machine.execCoppiceCommitDone s
  | .coppiceFallback => Sys2Proof.Machine.execCoppiceFallback s
  | .enrollHello => Sys2Proof.Machine.execEnrollHello s
  | .enrollOffer pub plant sysid sig => Sys2Proof.Machine.execEnrollOffer pub plant sysid sig s
  | .enrollKey src nonce cipher tag => Sys2Proof.Machine.execEnrollKey src nonce cipher tag s
  | .tallyCommitCmd door => Sys2Proof.Machine.execTallyCommitCmd door s
  | .tallyCommitDone digestOk fails => Sys2Proof.Machine.execTallyCommitDone digestOk fails s
  | .stagingOpen door => Sys2Proof.Machine.execStagingOpen door s
  | .stagingEraseDone => Sys2Proof.Machine.execStagingEraseDone s
  | .stagingBlockProgram door v => Sys2Proof.Machine.execStagingBlockProgram door v s
  | .stagingDone door release sigOk => Sys2Proof.Machine.execStagingDone door release sigOk s
  | .stagingAbort door => Sys2Proof.Machine.execStagingAbort door s
  | .modeRequestRun door => Sys2Proof.Machine.execModeRequestRun door s
  | .modeRequestWatch door => Sys2Proof.Machine.execModeRequestWatch door s
  | .modeRequestClean door => Sys2Proof.Machine.execModeRequestClean door s
  | .modeRequestService door => Sys2Proof.Machine.execModeRequestService door s
  | .modeRequestSafe door => Sys2Proof.Machine.execModeRequestSafe door s
  | .modeRestartCmd door => Sys2Proof.Machine.execModeRestartCmd door s
  | .modeChangePowerdown => Sys2Proof.Machine.execModeChangePowerdown s
  | .settleExit targets => Sys2Proof.Machine.execSettleExit targets s
  | .autoCleanReturn => Sys2Proof.Machine.execAutoCleanReturn s
  | .hotMinute => Sys2Proof.Machine.execHotMinute s
  | .orderlyRestart boot => Sys2Proof.Machine.execOrderlyRestart boot s
  | .worldViolation p target wr byteAddr => Sys2Proof.Machine.execWorldViolation p target wr byteAddr s
  | .irqSourceEdge n => Sys2Proof.Machine.execIrqSourceEdge n s
  | .irqPendSet door j v => Sys2Proof.Machine.execIrqPendSet door j v s
  | .irqPendClear door j v => Sys2Proof.Machine.execIrqPendClear door j v s
  | .irqEnableSet door j v => Sys2Proof.Machine.execIrqEnableSet door j v s
  | .irqEnableClear door j v => Sys2Proof.Machine.execIrqEnableClear door j v s
  | .irqClaim p => Sys2Proof.Machine.execIrqClaim p s
  | .irqComplete p n => Sys2Proof.Machine.execIrqComplete p n s
  | .irqGroupFire g => Sys2Proof.Machine.execIrqGroupFire g s
  | .twoHalfLowRead init addr => Sys2Proof.Machine.execTwoHalfLowRead init addr s
  | .twoHalfHighRead init addr => Sys2Proof.Machine.execTwoHalfHighRead init addr s
  | .busWidthAccess p byteAddr half wr => Sys2Proof.Machine.execBusWidthAccess p byteAddr half wr s
  | .busMultiwordAccess p addr n => Sys2Proof.Machine.execBusMultiwordAccess p addr n s
  | .registerWrite init addr v => Sys2Proof.Machine.execRegisterWrite init addr v s
  | .lastGaspSequenceEnd m => Sys2Proof.Machine.execLastGaspSequenceEnd m s
  | .controllerResetRelease boot => Sys2Proof.Machine.execControllerResetRelease boot s
  | .filteringDatabaseAgeing mac => Sys2Proof.Machine.execFilteringDatabaseAgeing mac s
  | .peerStreamPublicationReceive d => Sys2Proof.Machine.execPeerStreamPublicationReceive d s
  | .crossSpectrumSkewExpiry setup => Sys2Proof.Machine.execCrossSpectrumSkewExpiry setup s
  | .readClearsAccess p addr => Sys2Proof.Machine.execReadClearsAccess p addr s
  | .sspFrameReject f => Sys2Proof.Machine.execSspFrameReject f s
  | .cystadDatagramDiscard d => Sys2Proof.Machine.execCystadDatagramDiscard d s

end Sys2Proof.Machine
end

