-- ==== Sys2Proof/Machine/Tick.lean ====
section
/-!
DEFINITION. The CLK tick: the effects that happen whatever is commanded.
-/

namespace Sys2Proof.Machine

/-- What follows from the new tick (log entry 1): no event has happened in it yet (00 R10), stops whose end is reached are over (08 R216), a clamp may have stopped conducting
(06 R157), the AUX driver follows (06 R168, R169), level interrupt lines may have fallen (18 R447), consumers of the Landing
whose condition has ended detach (10 R249), a waiting feature message is sent within the share (14 R357), a link change is sent again (14 R347), and a
port that ends a frame starts the next (14 R345). -/
def settleTick (s : State) : State := settlePorts (repeatLinks (sendFeature (settleLanding (fallLines (driveAux (endClamp (wakeSlots { s with fresh := [] })))))))

/-- One CLK tick (03 R66): the counter advances by the increment once the controller is out of START (03 R67), and in every mode after it; the ticks of the
run are counted for the times that registers show in seconds and microseconds (16 R427, 18 R463), the pin engines' inputs, strobes and period accumulators
move on (12 R289, R291, R293), and the PE_GCMD writes of the tick that ended act (12 R307). -/
def clkTick (s : State) : State :=
  if s.alive then
    let time := if s.pwr.released then addFrac s.time (increment s) else s.time
    settleTick (takeGcmds { s with engines := Vector.ofFn (tickEngine s ({ s with time := time }).now), pwr := { s.pwr with ticks := s.pwr.ticks + 1 }, time := time })
  else s

end Sys2Proof.Machine
end

