-- ==== Sys2Proof/Safety.lean ====
section
/-!
DEFINITION. What the claims speak of: the canonical form of the register file, and frames over register fields.
-/

namespace Sys2Proof.Machine

/-- The register file of a state is canonical (log entry 2). -/
abbrev State.regsOk (s : State) : Prop := Regs.wf s.regs = true

/-- The counter's fields are in their ranges (03 R66). -/
abbrev State.counterOk (s : State) : Prop := s.time.frac < 2 ^ 32 ∧ s.time.ns < 1000000000 ∧ s.time.sec < 2 ^ 64

/-- The invariant of every step. -/
abbrev State.inv (s : State) : Prop := s.regsOk ∧ s.counterOk

/-- Bit i of word a belongs to field f. -/
def Field.has (f : Field) (a i : Nat) : Bool := f.word == a && decide (f.lo ≤ i) && decide (i < f.lo + f.width)

/-- Every register bit outside the fields of l is the same in both states. -/
def sameBut (l : List Field) (s t : State) : Prop := ∀ a i, (l.any fun f => f.has a i) = false → (t.word a).getLsbD i = (s.word a).getLsbD i

/-- Nothing but the register fields of l, and what the present tick's events did to them (00 R10), differs between the two states. -/
def onlyFields (l : List Field) (s t : State) : Prop := { t with regs := s.regs, fresh := s.fresh } = s ∧ sameBut l s t

/-- Every bit of word a as a field. -/
def wholeWord (a : Nat) : Field := ⟨a, 0, 32⟩

end Sys2Proof.Machine
end

