-- ==== Sys2Proof/Certificates/Slice0/Obligations.lean ====
section
/-!
DEFINITION. The statements for the provers. Completion statements say what a command's own effect leaves, with its frame: onlyFields lists every register
field that may differ while nothing beside the registers does, sameBut every register field that may differ.
-/

open Sys2Proof Sys2Proof.Machine

/-- 02 R41, R42, R44, R49, R57, R62: a supply that rises through 34.0 V starts inrush with both ports' voltages shown, an open port in SINK above 30 V and IDLE below (DESIGN CHOICE, log entry 33), and the ports within
0.1 V of the higher one supplying the module (log entry 34); the end of the last gasp starts the module again when supply is present and holds it in reset when not; after a twist-release the restart begins with inrush and
cause 0x07. Nothing but the power page and the power die's state differs.
Completes: supplyRise, lastGaspSequenceEnd, twistRestartInrush. -/
def Obligations.SupplyRiseBeginsInrushAndPortsShowTheirVoltages : Prop :=
  (∀ (m : Meter) (s : State),
      s.pwr.phase = .off → 3400 ≤ m.top → m.vA < 65536 → m.vB < 65536 →
      ∃ t, exec (.supplyRise m) s = .next t ∧
        t.pwr = { s.pwr with phase := .inrush, booted := false, cause := s.pwr.cause, serialB := false, wantB := false, twist := 0, calm := 0, lowB := t.pwr.lowB, raisedA := false, raisedB := false } ∧
        t.get PWR_VIN_VA = m.vA ∧ t.get PWR_VIN_VB = m.vB ∧ t.pwr.raisedA = false ∧ t.pwr.raisedB = false ∧
        (t.get PWR_ST_PSTA = (if 3000 < m.vA then 3 else 0)) ∧ (t.get PWR_ST_PSTB = (if 3000 < m.vB then 3 else 0)) ∧
        t.bit PWR_ST_INA = (decide (0 < m.vA) && decide (m.vB ≤ m.vA + 10)) ∧ t.bit PWR_ST_INB = (decide (0 < m.vB) && decide (m.vA ≤ m.vB + 10)) ∧
        t.bit PWR_ST_TWARM = false ∧ t.get PWR_IPT_IA = 0 ∧ t.get PWR_IPT_IB = 0 ∧ { t with regs := s.regs, pwr := s.pwr, fresh := s.fresh } = s ∧
        sameBut [wholeWord 0x100, wholeWord 0x102, wholeWord 0x103, wholeWord 0x104, PWR_TWANG_ANGLE] s t) ∧
  (∀ (m : Meter) (s : State),
      s.pwr.phase = .lastGasp → m.top < 3400 → m.vA < 65536 → m.vB < 65536 →
      ∃ t, exec (.lastGaspSequenceEnd m) s = .next t ∧
        t.pwr = { s.pwr with phase := .off, booted := false, cause := none, twist := 0, calm := 0, lowB := t.pwr.lowB, raisedA := false, raisedB := false } ∧
        t.get PWR_ST_PSTA = 6 ∧ t.get PWR_ST_PSTB = 6 ∧ t.get PWR_VIN_VA = m.vA ∧ t.get PWR_VIN_VB = m.vB ∧
        { t with regs := s.regs, pwr := s.pwr, fresh := s.fresh } = s ∧
        sameBut [wholeWord 0x100, wholeWord 0x102, wholeWord 0x103, wholeWord 0x104, PWR_TWANG_ANGLE] s t) ∧
  (∀ (m : Meter) (s : State),
      s.pwr.phase = .lastGasp → 3400 ≤ m.top → m.vA < 65536 → m.vB < 65536 →
      ∃ t, exec (.lastGaspSequenceEnd m) s = .next t ∧
        t.pwr = { s.pwr with phase := .inrush, booted := false, cause := none, serialB := false, wantB := false, twist := 0, calm := 0, lowB := t.pwr.lowB, raisedA := false, raisedB := false } ∧
        t.get PWR_VIN_VA = m.vA ∧ t.get PWR_VIN_VB = m.vB ∧ t.pwr.raisedA = false ∧ t.pwr.raisedB = false ∧
        (t.get PWR_ST_PSTA = (if 3000 < m.vA then 3 else 0)) ∧ (t.get PWR_ST_PSTB = (if 3000 < m.vB then 3 else 0)) ∧
        t.bit PWR_ST_INA = (decide (0 < m.vA) && decide (m.vB ≤ m.vA + 10)) ∧ t.bit PWR_ST_INB = (decide (0 < m.vB) && decide (m.vA ≤ m.vB + 10)) ∧
        t.bit PWR_ST_TWARM = false ∧ t.get PWR_IPT_IA = 0 ∧ t.get PWR_IPT_IB = 0 ∧ { t with regs := s.regs, pwr := s.pwr, fresh := s.fresh } = s ∧
        sameBut [wholeWord 0x100, wholeWord 0x102, wholeWord 0x103, wholeWord 0x104, PWR_TWANG_ANGLE] s t) ∧
  (∀ (m : Meter) (s : State),
      s.pwr.phase = .inputOpen → 3400 ≤ m.top → m.vA < 65536 → m.vB < 65536 →
      ∃ t, exec (.twistRestartInrush m) s = .next t ∧
        t.pwr = { s.pwr with phase := .inrush, booted := false, cause := some 7, serialB := false, wantB := false, twist := 0, calm := 0, lowB := t.pwr.lowB, raisedA := false, raisedB := false } ∧
        t.get PWR_VIN_VA = m.vA ∧ t.get PWR_VIN_VB = m.vB ∧ t.pwr.raisedA = false ∧ t.pwr.raisedB = false ∧
        (t.get PWR_ST_PSTA = (if 3000 < m.vA then 3 else 0)) ∧ (t.get PWR_ST_PSTB = (if 3000 < m.vB then 3 else 0)) ∧
        t.bit PWR_ST_INA = (decide (0 < m.vA) && decide (m.vB ≤ m.vA + 10)) ∧ t.bit PWR_ST_INB = (decide (0 < m.vB) && decide (m.vA ≤ m.vB + 10)) ∧
        t.bit PWR_ST_TWARM = false ∧ t.get PWR_IPT_IA = 0 ∧ t.get PWR_IPT_IB = 0 ∧ { t with regs := s.regs, pwr := s.pwr, fresh := s.fresh } = s ∧
        sameBut [wholeWord 0x100, wholeWord 0x102, wholeWord 0x103, wholeWord 0x104, PWR_TWANG_ANGLE] s t)

/-- 01 R19, R28, 02 R62: loss of PLL lock (cause 0x03) and expiry of SUP's watchdog (cause 0x04) hold the controller die in reset, and a supply that persists 5 s after a twist-release opens the input;
in each case WORK is off, the boot ROM has to run again, and flash, keys and Tally are as before.
Completes: pllLockLoss, supWatchdogExpiry, twistSupplyPersists. -/
def Obligations.ControllerResetsHoldTheDieAndWorkLosesItsSupply : Prop :=
  (∀ (s : State),
      s.pwr.phase = .running →
      ∃ t, exec (.pllLockLoss) s = .next t ∧
        t.pwr = { s.pwr with phase := .dieReset, booted := false, cause := some 3, twist := 0, calm := 0 } ∧ t.get ID_DOMST_WSTATE = 0 ∧
        t.get PWR_ST_TWARM = 0 ∧ t.flash = s.flash ∧ t.keys = s.keys ∧ t.tally = s.tally ∧ t.tx = s.tx) ∧
  (∀ (s : State),
      s.pwr.phase = .running → s.pwr.booted = true →
      ∃ t, exec (.supWatchdogExpiry) s = .next t ∧
        t.pwr = { s.pwr with phase := .dieReset, booted := false, cause := some 4, twist := 0, calm := 0 } ∧ t.get ID_DOMST_WSTATE = 0 ∧
        t.get PWR_ST_TWARM = 0 ∧ t.flash = s.flash ∧ t.keys = s.keys ∧ t.tally = s.tally ∧ t.tx = s.tx) ∧
  (∀ (s : State),
      s.pwr.phase = .running → s.pwr.twisted = true → s.pwr.twistAt + 1000000000 ≤ s.pwr.ticks →
      ∃ t, exec (.twistSupplyPersists) s = .next t ∧
        t.pwr = { s.pwr with phase := .inputOpen, booted := false, twist := t.pwr.twist, calm := t.pwr.calm, lowB := t.pwr.lowB } ∧
        t.bit PWR_ST_INA = false ∧ t.bit PWR_ST_INB = false ∧ t.get ID_DOMST_WSTATE = 0 ∧ t.get PWR_ST_TWARM = 0 ∧ t.flash = s.flash ∧
        t.keys = s.keys ∧ t.tally = s.tally ∧ t.tx = s.tx)

/-- 02 R57, R58, 10 R252: in a running module a supply loss opens both pass-through switches, drops WORK, seals the accounting, and writes the departure entry unless the sequence is cut short. Local time,
the Tally and the keys are as before.
Completes: supplyLoss. -/
def Obligations.SupplyLossSealsAndLogsDeparture : Prop :=
  ∀ (cut : Bool) (m : Meter) (s : State),
      s.pwr.phase = .running → s.pwr.booted = true → m.top < 3300 → m.vA < 65536 → m.vB < 65536 →
      ∃ t, exec (.supplyLoss cut m) s = .next t ∧
        t.pwr.phase = .lastGasp ∧ t.pwr.sealed = true ∧ t.pwr.departed = true ∧ t.get PWR_ST_PSTA = 6 ∧ t.get PWR_ST_PSTB = 6 ∧
        t.get ID_DOMST_WSTATE = 0 ∧ t.get PWR_ST_TWARM = 0 ∧ t.get PWR_VIN_VA = m.vA ∧
        (t.flash.log.length = s.flash.log.length + (if cut then 0 else 2)) ∧ t.flash.own = s.flash.own ∧ t.flash.comseq = s.flash.comseq ∧
        t.tally = s.tally ∧ t.keys = s.keys ∧ t.time = s.time

/-- 02 R42, R43: a supply between 33.0 and 36 V sets PWR_EVT.UV; an excursion above 75 V sets PWR_EVT.SURGE and counts once, the counter saturating. Nothing else changes but what the power die measures.
Completes: undervoltage, surge. -/
def Obligations.SupplyEventsAreFlaggedAndCounted : Prop :=
  (∀ (m : Meter) (s : State),
      s.pwr.phase = .running → 3300 ≤ m.top → m.top < 3600 → m.vA < 65536 → m.vB < 65536 →
      ∃ t, exec (.undervoltage m) s = .next t ∧
        t.get PWR_EVT_UV = 1 ∧ { t with regs := s.regs, pwr := s.pwr, fresh := s.fresh } = s ∧
        t.pwr = { s.pwr with twist := t.pwr.twist, calm := t.pwr.calm, lowB := t.pwr.lowB, raisedA := t.pwr.raisedA, raisedB := t.pwr.raisedB } ∧
        sameBut [PWR_EVT_UV, PWR_VIN_VA, PWR_VIN_VB, PWR_IPT_IA, PWR_IPT_IB, PWR_PIN_HOLDUP, PWR_PIN_PIN, PWR_ST_INA, PWR_ST_INB, PWR_ST_TWARM, PWR_TWANG_ANGLE] s t ∧
        t.get PWR_VIN_VA = m.vA ∧ t.get PWR_VIN_VB = m.vB) ∧
  (∀ (m : Meter) (s : State),
      s.pwr.phase = .running → 7500 < m.top → m.vA < 65536 → m.vB < 65536 →
      ∃ t, exec (.surge m) s = .next t ∧
        t.get PWR_EVT_SURGE = 1 ∧ t.get PWR_CNT_SURGECNT = min 255 (s.get PWR_CNT_SURGECNT + 1) ∧
        { t with regs := s.regs, pwr := s.pwr, fresh := s.fresh } = s ∧
        t.pwr = { s.pwr with twist := t.pwr.twist, calm := t.pwr.calm, lowB := t.pwr.lowB, raisedA := t.pwr.raisedA, raisedB := t.pwr.raisedB } ∧
        sameBut [PWR_EVT_SURGE, PWR_CNT_SURGECNT, PWR_VIN_VA, PWR_VIN_VB, PWR_IPT_IA, PWR_IPT_IB, PWR_PIN_HOLDUP, PWR_PIN_PIN, PWR_ST_INA, PWR_ST_INB, PWR_ST_TWARM, PWR_TWANG_ANGLE] s t ∧
        t.get PWR_VIN_VA = m.vA ∧ t.get PWR_VIN_VB = m.vB)

/-- 02 R47 to R52, R54: each command moves the port's state as R49's table says, and changes nothing else but what the power die measures and the release's event and counter; a detection cycle ends in SOURCE exactly with
a quiet listen and a valid signature (currents in µA, log entry 35), which raises the port to the internal supply. A port above 30 V presents no detection signature. Where an open port is between 2 V and 30 V its
state is the model's choice (log entry 33).
Completes: detectCycleStart, detectCycleEnd, portAbove30V, portBelow30V, portJoin, ptCurrentFault, ptLinkLossRelease, departureBlazeReceive,
holdoffEnd. -/
def Obligations.PortStatesFollowTheTable : Prop :=
  (∀ (port : Port) (s : State),
      portsLive s = true → s.pwr.phase ≠ .inrush → s.pst port = 0 →
      ∃ t, exec (.detectCycleStart port) s = .next t ∧
        t.pst port = 1 ∧ presentsSignature t port = false ∧
        t.pwr = { s.pwr with twist := t.pwr.twist, calm := t.pwr.calm, lowB := t.pwr.lowB, raisedA := t.pwr.raisedA, raisedB := t.pwr.raisedB } ∧
        { t with regs := s.regs, pwr := s.pwr, fresh := s.fresh } = s ∧ sameBut [portState port, portAmp port] s t) ∧
  (∀ (port : Port) (listen i1 i2 : Nat) (s : State),
      portsLive s = true → s.pst port = 1 → listen ≤ 200 → signatureValid i1 i2 = true →
      ∃ t, exec (.detectCycleEnd port listen i1 i2) s = .next t ∧
        t.pst port = 2 ∧ raised t port = true ∧ ((if port = .a then t.bit PWR_ST_INA else t.bit PWR_ST_INB) = false) ∧
        t.get (portVolt port) = max (s.get PWR_VIN_VA) (s.get PWR_VIN_VB) ∧ { t with regs := s.regs, pwr := s.pwr, fresh := s.fresh } = s ∧
        t.pwr = { s.pwr with twist := t.pwr.twist, calm := t.pwr.calm, lowB := t.pwr.lowB, raisedA := t.pwr.raisedA, raisedB := t.pwr.raisedB } ∧
        sameBut [portState port, portVolt port, PWR_ST_INA, PWR_ST_INB, PWR_ST_TWARM, PWR_TWANG_ANGLE] s t) ∧
  (∀ (port : Port) (listen i1 i2 : Nat) (s : State),
      portsLive s = true → s.pst port = 1 → (200 < listen ∨ signatureValid i1 i2 = false) →
      ∃ t, exec (.detectCycleEnd port listen i1 i2) s = .next t ∧
        t.pst port = 0 ∧
        t.pwr = { s.pwr with twist := t.pwr.twist, calm := t.pwr.calm, lowB := t.pwr.lowB, raisedA := t.pwr.raisedA, raisedB := t.pwr.raisedB } ∧
        { t with regs := s.regs, pwr := s.pwr, fresh := s.fresh } = s ∧ sameBut [portState port, portAmp port] s t) ∧
  (∀ (port : Port) (m : Meter) (s : State),
      portsLive s = true → (s.pst port = 0 ∨ s.pst port = 1) → 3000 < m.volt port → m.vA < 65536 → m.vB < 65536 →
      ∃ t, exec (.portAbove30V port m) s = .next t ∧
        t.pst port = 3 ∧ presentsSignature t port = false ∧ t.get PWR_VIN_VA = m.vA ∧ t.get PWR_VIN_VB = m.vB ∧
        { t with regs := s.regs, pwr := s.pwr, fresh := s.fresh } = s ∧
        t.pwr = { s.pwr with twist := t.pwr.twist, calm := t.pwr.calm, lowB := t.pwr.lowB, raisedA := t.pwr.raisedA, raisedB := t.pwr.raisedB } ∧
        sameBut [portState port, PWR_VIN_VA, PWR_VIN_VB, PWR_IPT_IA, PWR_IPT_IB, PWR_PIN_HOLDUP, PWR_PIN_PIN, PWR_ST_INA, PWR_ST_INB, PWR_ST_TWARM, PWR_TWANG_ANGLE] s t) ∧
  (∀ (port : Port) (m : Meter) (s : State),
      portsLive s = true → s.pst port = 3 → m.volt port < 3000 → m.vA < 65536 → m.vB < 65536 →
      ∃ t, exec (.portBelow30V port m) s = .next t ∧
        t.pst port = 0 ∧ t.get PWR_VIN_VA = m.vA ∧ t.get PWR_VIN_VB = m.vB ∧ { t with regs := s.regs, pwr := s.pwr, fresh := s.fresh } = s ∧
        t.pwr = { s.pwr with twist := t.pwr.twist, calm := t.pwr.calm, lowB := t.pwr.lowB, raisedA := t.pwr.raisedA, raisedB := t.pwr.raisedB } ∧
        sameBut [portState port, PWR_VIN_VA, PWR_VIN_VB, PWR_IPT_IA, PWR_IPT_IB, PWR_PIN_HOLDUP, PWR_PIN_PIN, PWR_ST_INA, PWR_ST_INB, PWR_ST_TWARM, PWR_TWANG_ANGLE] s t) ∧
  (∀ (port : Port) (m : Meter) (s : State),
      portsLive s = true → s.pst port = 3 → 3600 ≤ m.volt port → m.top ≤ m.volt port + 200 → m.vA < 65536 → m.vB < 65536 →
      ∃ t, exec (.portJoin port m) s = .next t ∧
        t.pst port = 4 ∧ t.get PWR_VIN_VA = m.vA ∧ t.get PWR_VIN_VB = m.vB ∧ { t with regs := s.regs, pwr := s.pwr, fresh := s.fresh } = s ∧
        t.pwr = { s.pwr with twist := t.pwr.twist, calm := t.pwr.calm, lowB := t.pwr.lowB, raisedA := t.pwr.raisedA, raisedB := t.pwr.raisedB } ∧
        sameBut [portState port, PWR_VIN_VA, PWR_VIN_VB, PWR_IPT_IA, PWR_IPT_IB, PWR_PIN_HOLDUP, PWR_PIN_PIN, PWR_ST_INA, PWR_ST_INB, PWR_ST_TWARM, PWR_TWANG_ANGLE] s t) ∧
  (∀ (m : Meter) (s : State),
      portsLive s = true → switchClosed s .a = true → 1900 ≤ m.iA →
      ∃ t, exec (.ptCurrentFault .a m) s = .next t ∧
        t.pst .a = 5 ∧ t.get PWR_EVT_PTFLTA = 1 ∧ t.get PWR_CNT_PTFLTA = min 255 (s.get PWR_CNT_PTFLTA + 1) ∧
        { t with regs := s.regs, pwr := s.pwr, fresh := s.fresh } = s ∧
        t.pwr = { s.pwr with twist := t.pwr.twist, calm := t.pwr.calm, lowB := t.pwr.lowB, raisedA := t.pwr.raisedA, raisedB := t.pwr.raisedB } ∧
        sameBut [PWR_ST_PSTA, PWR_EVT_PTFLTA, PWR_CNT_PTFLTA, PWR_VIN_VA, PWR_VIN_VB, PWR_IPT_IA, PWR_IPT_IB, PWR_PIN_HOLDUP, PWR_PIN_PIN, PWR_ST_INA, PWR_ST_INB, PWR_ST_TWARM, PWR_TWANG_ANGLE] s t) ∧
  (∀ (m : Meter) (s : State),
      portsLive s = true → switchClosed s .b = true → 1900 ≤ m.iB →
      ∃ t, exec (.ptCurrentFault .b m) s = .next t ∧
        t.pst .b = 5 ∧ t.get PWR_EVT_PTFLTB = 1 ∧ t.get PWR_CNT_PTFLTB = min 255 (s.get PWR_CNT_PTFLTB + 1) ∧
        { t with regs := s.regs, pwr := s.pwr, fresh := s.fresh } = s ∧
        t.pwr = { s.pwr with twist := t.pwr.twist, calm := t.pwr.calm, lowB := t.pwr.lowB, raisedA := t.pwr.raisedA, raisedB := t.pwr.raisedB } ∧
        sameBut [PWR_ST_PSTB, PWR_EVT_PTFLTB, PWR_CNT_PTFLTB, PWR_VIN_VA, PWR_VIN_VB, PWR_IPT_IA, PWR_IPT_IB, PWR_PIN_HOLDUP, PWR_PIN_PIN, PWR_ST_INA, PWR_ST_INB, PWR_ST_TWARM, PWR_TWANG_ANGLE] s t) ∧
  (∀ (port : Port) (m : Meter) (s : State),
      portsLive s = true → switchClosed s port = true → linkUp s port = false → m.amp port < 10 →
      ∃ t, exec (.ptLinkLossRelease port m) s = .next t ∧
        (t.pst port = (if 3000 < m.volt port then 3 else 0)) ∧ { t with regs := s.regs, pwr := s.pwr, fresh := s.fresh } = s ∧
        t.pwr = { s.pwr with twist := t.pwr.twist, calm := t.pwr.calm, lowB := t.pwr.lowB, raisedA := t.pwr.raisedA, raisedB := t.pwr.raisedB } ∧
        sameBut [portState port, PWR_VIN_VA, PWR_VIN_VB, PWR_IPT_IA, PWR_IPT_IB, PWR_PIN_HOLDUP, PWR_PIN_PIN, PWR_ST_INA, PWR_ST_INB, PWR_ST_TWARM, PWR_TWANG_ANGLE] s t) ∧
  (∀ (port : Port) (blaze : Blaze) (s : State),
      s.pwr.phase = .running → s.pwr.booted = true → switchClosed s port = true → blaze.src = 0 → blaze.kind = 1 → blaze.stn = neighbour s port →
      neighbour s port ≠ 0xFE →
      ∃ t, exec (.departureBlazeReceive port blaze) s = .next t ∧
        t.pst port = 5 ∧ (t.get (if port = .a then PWR_EVT_DEPA else PWR_EVT_DEPB) = 1) ∧
        t.pwr = { s.pwr with twist := t.pwr.twist, calm := t.pwr.calm, lowB := t.pwr.lowB, raisedA := t.pwr.raisedA, raisedB := t.pwr.raisedB } ∧
        { t with regs := s.regs, pwr := s.pwr, fresh := s.fresh } = s ∧
        (sameBut [portState port, portAmp port, if port = .a then PWR_EVT_DEPA else PWR_EVT_DEPB] s t)) ∧
  (∀ (port : Port) (m : Meter) (s : State),
      portsLive s = true → s.pst port = 5 →
      ∃ t, exec (.holdoffEnd port m) s = .next t ∧
        (t.pst port = (if 3000 < m.volt port then 3 else 0)) ∧ { t with regs := s.regs, pwr := s.pwr, fresh := s.fresh } = s ∧
        t.pwr = { s.pwr with twist := t.pwr.twist, calm := t.pwr.calm, lowB := t.pwr.lowB, raisedA := t.pwr.raisedA, raisedB := t.pwr.raisedB } ∧
        sameBut [portState port, PWR_VIN_VA, PWR_VIN_VB, PWR_IPT_IA, PWR_IPT_IB, PWR_PIN_HOLDUP, PWR_PIN_PIN, PWR_ST_INA, PWR_ST_INB, PWR_ST_TWARM, PWR_TWANG_ANGLE] s t)

/-- 02 R59 to R61: stillness sets MOUNTED and arms twist-release when TWEN is 1, a port has supply and the run is not ending; 20 ms of samples below 60 °/s clear the integral while armed; a sample that brings the integral to 15° opens the
switches, seals the accounting, sets and counts the event, and disarms twist-release.
Completes: twistStillnessMet, twistIntegralClear, twistReleaseTrigger. -/
def Obligations.TwistReleaseArmsTriggersAndClears : Prop :=
  (∀ (s : State),
      s.pwr.phase = .running → s.pwr.booted = true → s.bit ID_DOMST_RATEG = false → s.bit DRV_ST_LOCK = true → s.bit PWR_ST_MOUNTED = false →
      ∃ t, exec (.twistStillnessMet) s = .next t ∧
        t.get PWR_ST_MOUNTED = 1 ∧
        t.bit PWR_ST_TWARM = (s.bit PWR_CTL_TWEN && (s.bit PWR_ST_INA || s.bit PWR_ST_INB) && !s.modes.stopped && s.mode != 10) ∧
        { t with regs := s.regs, pwr := s.pwr, fresh := s.fresh } = s ∧
        t.pwr = { s.pwr with twist := t.pwr.twist, calm := t.pwr.calm, lowB := t.pwr.lowB, raisedA := t.pwr.raisedA, raisedB := t.pwr.raisedB } ∧
        sameBut [PWR_ST_MOUNTED, PWR_ST_TWARM, PWR_TWANG_ANGLE] s t) ∧
  (∀ (xs : List (Nat × Int)) (s : State),
      s.pwr.phase = .running → s.pwr.booted = true → s.bit PWR_ST_TWARM = true → 32 ≤ xs.length → (∀ x ∈ xs, twistRate s x < 60 * 7168) →
      ∃ t, exec (.twistIntegralClear xs) s = .next t ∧
        t.get PWR_TWANG_ANGLE = 0 ∧ t.pwr = { s.pwr with twist := 0, calm := t.pwr.calm, twistT := t.pwr.twistT } ∧
        { t with regs := s.regs, pwr := s.pwr, fresh := s.fresh } = s ∧ sameBut [PWR_TWANG_ANGLE] s t) ∧
  (∀ (x : Nat × Int) (s : State),
      s.pwr.phase = .running → s.pwr.booted = true → s.pwr.sealed = false → s.bit PWR_ST_TWARM = true → 60 * 7168 ≤ twistRate s x →
      15 * 7168 * 1600 ≤ s.pwr.twist + (twistRate s x).toNat →
      ∃ t, exec (.twistReleaseTrigger [x]) s = .next t ∧
        t.pwr.sealed = true ∧ t.pwr.departed = true ∧ t.pwr.twisted = true ∧ t.pwr.twistAt = s.pwr.ticks ∧ t.pwr.twist = 0 ∧ t.get PWR_ST_PSTA = 6 ∧
        t.get PWR_ST_PSTB = 6 ∧ t.get PWR_EVT_TWIST = 1 ∧ t.get PWR_CNT_TWISTCNT = min 255 (s.get PWR_CNT_TWISTCNT + 1) ∧ t.get PWR_ST_TWARM = 0 ∧
        t.get PWR_ST_MOUNTED = 0 ∧ t.get PWR_TWANG_ANGLE = 0 ∧ t.tally = s.tally ∧ t.keys = s.keys ∧ t.time = s.time)

/-- 02 R38, R49, R51, R65: a port whose enable bit is cleared goes to OFF; in SERVICE or SAFE port B, below 2 V for 100 ms and with its switch open, is taken for serial use, which opens its diode elements and ends its link.
Completes: pwrCtlWrite, sspPortBTake. -/
def Obligations.PortEnablesAndSerialUse : Prop :=
  (∀ (door : Initiator) (v : Word) (s : State),
      doorOpen s door 0x101 = true → s.live = true → v.getLsbD 0 = false →
      ∃ t, exec (.pwrCtlWrite door v) s = .next t ∧
        t.pst .a = 6 ∧ t.get PWR_CTL_PTEN = v.toNat % 4 ∧ t.get PWR_CTL_TWEN = v.toNat / 4 % 2 ∧
        { t with regs := s.regs, pwr := s.pwr, fresh := s.fresh } = s ∧
        t.pwr = { s.pwr with twist := t.pwr.twist, calm := t.pwr.calm, lowB := t.pwr.lowB, raisedA := t.pwr.raisedA, raisedB := t.pwr.raisedB } ∧
        sameBut [PWR_CTL_TWEN, PWR_CTL_PTEN, PWR_ST_PSTA, PWR_ST_PSTB, PWR_IPT_IA, PWR_IPT_IB, PWR_ST_INA, PWR_ST_INB, PWR_ST_TWARM, PWR_TWANG_ANGLE] s t) ∧
  (∀ (m : Meter) (s : State),
      s.live = true → (s.mode = 9 ∨ s.mode = 11) → s.pwr.serialB = false → switchClosed s .b = false → m.vB < 200 → s.get PWR_VIN_VB < 200 →
      s.pst .b ≠ 1 → lowSince s 0 = true → m.vA < 65536 → m.vB < 65536 →
      ∃ t, exec (.sspPortBTake m) s = .next t ∧
        t.pwr = { s.pwr with serialB := true, wantB := false, twist := t.pwr.twist, calm := t.pwr.calm, lowB := t.pwr.lowB, raisedA := t.pwr.raisedA, raisedB := t.pwr.raisedB } ∧
        t.get PWR_VIN_VA = m.vA ∧ t.get PWR_VIN_VB = m.vB ∧ t.get PWR_ST_PSTB = 6 ∧ t.bit PWR_ST_INB = false ∧ linkUp t .b = false ∧ t.keys = s.keys ∧
        t.flash = s.flash)

/-- 16 R406, R415, 08 R221, 19 R470: when the active image verifies, START runs SUP with the run number one higher, REFBUF enabled and the cause of the restart shown; flash positions, COMSEQ and keys are as they were.
START ends with the converters released, the run logged, and the module in LOAD with its key-probe window open.
Completes: inrushEnd, controllerResetRelease, orderlyRestart, startEnd. -/
def Obligations.StartRunsTheActiveFirmwareAndCountsTheRun : Prop :=
  (∀ (boot : Boot) (s : State),
      s.pwr.phase = .inrush → s.flash.trial = none → s.flash.activeB = false → boot.okA = true →
      ∃ t, exec (.inrushEnd boot) s = .next t ∧
        t.pwr.phase = .running ∧ t.pwr.booted = true ∧ t.flash.run = (s.flash.run + 1) % 2 ^ 32 ∧ t.get ID_RUN_RUN = (s.flash.run + 1) % 2 ^ 32 ∧
        t.get HK_CTL_REFEN = 1 ∧ t.mode = 1 ∧ t.keys = s.keys ∧ t.flash.own = s.flash.own ∧ t.flash.comseq = s.flash.comseq ∧ t.pending = s.pending ∧
        t.pwr.released = false ∧ t.pwr.serialB = false ∧ t.pwr.sealed = false ∧ { t.time with acc := 0, y := 0 } = {} ∧
        { t.modes with hot := [], workLost := false } = {} ∧ t.get PWR_ST_MOUNTED = 0 ∧ t.get (CV_ST_NOTSET 0) = 1 ∧ t.get TIME_ST_STATE = 0 ∧
        t.get ID_DOMST_WSTATE = 0 ∧ t.get ID_RSTCAUSE_CAUSE = startCause s % 256 ∧ t.net.mseq = s.flash.mseqRes ∧
        ({ t with regs := [], fresh := [], pwr := {}, time := {}, modes := {} } = { State.reset with flash := { s.flash with run := (s.flash.run + 1) % 2 ^ 32, trialBooted := false }, keys := s.keys, drive := { storedFreq := s.drive.storedFreq }, hk := { seq := hkSeqReset }, slots := Vector.ofFn fun i => { rate := grRateReset i }, net := { mseq := s.flash.mseqRes }, free := s.free, pending := s.pending })) ∧
  (∀ (boot : Boot) (s : State),
      s.pwr.phase = .dieReset → s.flash.trial = none → s.flash.activeB = false → boot.okA = true →
      ∃ t, exec (.controllerResetRelease boot) s = .next t ∧
        t.pwr.phase = .running ∧ t.pwr.booted = true ∧ t.flash.run = (s.flash.run + 1) % 2 ^ 32 ∧ t.get ID_RUN_RUN = (s.flash.run + 1) % 2 ^ 32 ∧
        t.get HK_CTL_REFEN = 1 ∧ t.mode = 1 ∧ t.keys = s.keys ∧ t.flash.own = s.flash.own ∧ t.flash.comseq = s.flash.comseq ∧ t.pending = s.pending ∧
        t.pwr.released = false ∧ t.pwr.serialB = false ∧ t.pwr.sealed = false ∧ { t.time with acc := 0, y := 0 } = {} ∧
        { t.modes with hot := [], workLost := false } = {} ∧ t.get PWR_ST_MOUNTED = 0 ∧ t.get (CV_ST_NOTSET 0) = 1 ∧ t.get TIME_ST_STATE = 0 ∧
        t.get ID_DOMST_WSTATE = 0 ∧ t.get ID_RSTCAUSE_CAUSE = startCause s % 256 ∧ t.net.mseq = s.flash.mseqRes ∧
        ({ t with regs := [], fresh := [], pwr := {}, time := {}, modes := {} } = { State.reset with flash := { s.flash with run := (s.flash.run + 1) % 2 ^ 32, trialBooted := false }, keys := s.keys, drive := { storedFreq := s.drive.storedFreq }, hk := { seq := hkSeqReset }, slots := Vector.ofFn fun i => { rate := grRateReset i }, net := { mseq := s.flash.mseqRes }, free := s.free, pending := s.pending })) ∧
  (∀ (boot : Boot) (cause : Nat) (s : State),
      s.live = true → s.modes.restart = some cause → s.flash.trial = none → s.flash.activeB = false → boot.okA = true →
      ∃ t, exec (.orderlyRestart boot) s = .next t ∧
        t.pwr.phase = .running ∧ t.pwr.booted = true ∧ t.flash.run = (s.flash.run + 1) % 2 ^ 32 ∧ t.get ID_RUN_RUN = (s.flash.run + 1) % 2 ^ 32 ∧
        t.get HK_CTL_REFEN = 1 ∧ t.mode = 1 ∧ t.keys = s.keys ∧ t.flash.own = s.flash.own ∧ t.flash.comseq = s.flash.comseq ∧ t.pending = s.pending ∧
        t.pwr.released = false ∧ t.pwr.serialB = false ∧ t.pwr.sealed = false ∧ { t.time with acc := 0, y := 0 } = {} ∧
        { t.modes with hot := [], workLost := false } = {} ∧ t.get PWR_ST_MOUNTED = 0 ∧ t.get (CV_ST_NOTSET 0) = 1 ∧ t.get TIME_ST_STATE = 0 ∧
        t.get ID_DOMST_WSTATE = 0 ∧ t.get ID_RSTCAUSE_CAUSE = cause % 256 ∧
        ({ t with regs := [], fresh := [], pwr := {}, time := {}, modes := {} } = { State.reset with flash := { s.flash with run := (s.flash.run + 1) % 2 ^ 32, trialBooted := false, mseqRes := t.flash.mseqRes }, keys := s.keys, drive := { storedFreq := s.drive.storedFreq }, hk := { seq := hkSeqReset }, slots := Vector.ofFn fun i => { rate := grRateReset i }, net := { mseq := t.flash.mseqRes }, free := t.free, pending := s.pending })) ∧
  (∀ (s : State),
      s.live = true → s.mode = 1 → s.pwr.released = false →
      ∃ t, exec (.startEnd) s = .next t ∧
        t.mode = 2 ∧ t.get MD_ST_PREV = 1 ∧ t.get MD_EVT_CHANGE = 1 ∧ t.pwr.released = true ∧ t.tally.windowOpen = true ∧ t.get HK_ST_REFRDY = 1 ∧
        t.flash.log = fitLog logUnits ((s.flash.run, .runStart s.flash.run s.flash.mseqRes s.timeState (increment s)) :: s.flash.log) ∧
        t.modes = { s.modes with at_ := s.pwr.ticks } ∧ t.tally = { s.tally with windowOpen := true } ∧
        t.pwr = { s.pwr with released := true, serialB := t.pwr.serialB, wantB := t.pwr.wantB, twist := t.pwr.twist, calm := t.pwr.calm, lowB := t.pwr.lowB } ∧
        { t with regs := s.regs, pwr := s.pwr, hk := s.hk, axes := s.axes, slots := s.slots, flash := s.flash, tally := s.tally, modes := s.modes, cal := s.cal, aux := s.aux, fresh := s.fresh } = s ∧
        { t.flash with log := s.flash.log } = s.flash)

/-- 16 R411 to R413, R418, R420: a request that R411's table accepts answers RES 0 with its target. From WATCH or CLEAN (and RUN to SERVICE) the mode changes at once; from RUN to WATCH or CLEAN the change
is pending until WORK may power down; SAFE is entered at once with fault 0x07. The own image and the key area are untouched. A refused request sets MD_EVT.REQREJ and its result and changes nothing else: one while a change is in progress answers RES 3, one for the present mode RES 6.
Completes: modeRequestRun, modeRequestWatch, modeRequestClean, modeRequestService, modeRequestSafe. -/
def Obligations.ModeRequestsAreCarriedOut : Prop :=
  (∀ (door : Initiator) (s : State),
      doorOpen s door 9 = true → s.live = true → s.mode = 7 → s.get MD_ST_PENDING = 0 →
      ∃ t, exec (.modeRequestRun door) s = .next t ∧
        t.get MD_REQST_REQ = 6 ∧ t.get MD_REQST_RES = 0 ∧ t.mode = 6 ∧ t.get MD_ST_PREV = 7 ∧ t.get MD_EVT_CHANGE = 1 ∧ t.get ID_DOMST_RATEG = 0 ∧
        t.get (CV_ST_GATED 0) = 0 ∧ t.get (CV_ST_GATED 9) = 0 ∧ t.get MD_ST_PENDING = 0 ∧ t.modes.arrived = true ∧ t.modes.at_ = s.pwr.ticks ∧
        (s.get ID_DOMST_WSTATE = 0 → t.get ID_DOMST_WSTATE = 1) ∧ t.flash.own = s.flash.own ∧
        { t.keys with floor := s.keys.floor, fuses := s.keys.fuses } = s.keys ∧
        { t with regs := s.regs, pwr := s.pwr, axes := s.axes, drive := s.drive, slots := s.slots, cal := s.cal, deck := s.deck, blaze := s.blaze, modes := s.modes, flash := s.flash, keys := s.keys, free := s.free, aux := s.aux, hk := s.hk, fresh := s.fresh } = s) ∧
  (∀ (door : Initiator) (s : State),
      doorOpen s door 9 = true → s.live = true → s.mode = 6 → s.get MD_ST_PENDING = 0 →
      ∃ t, exec (.modeRequestWatch door) s = .next t ∧
        t.get MD_REQST_REQ = 7 ∧ t.get MD_REQST_RES = 0 ∧ t.mode = 6 ∧ t.get MD_ST_PENDING = 1 ∧ t.modes.change = .waiting ∧ t.modes.target = 7 ∧
        t.modes.since = s.pwr.ticks ∧ t.deck.downReq = true ∧
        { t with regs := s.regs, deck := s.deck, modes := s.modes, blaze := s.blaze, an := s.an, free := s.free, tx := s.tx, net := s.net, fresh := s.fresh } = s) ∧
  (∀ (door : Initiator) (s : State),
      doorOpen s door 9 = true → s.live = true → s.mode = 6 → s.get MD_ST_PENDING = 0 →
      ∃ t, exec (.modeRequestClean door) s = .next t ∧
        t.get MD_REQST_REQ = 8 ∧ t.get MD_REQST_RES = 0 ∧ t.mode = 6 ∧ t.get MD_ST_PENDING = 1 ∧ t.modes.change = .waiting ∧ t.modes.target = 8 ∧
        t.modes.since = s.pwr.ticks ∧ t.deck.downReq = true ∧
        { t with regs := s.regs, deck := s.deck, modes := s.modes, blaze := s.blaze, an := s.an, free := s.free, tx := s.tx, net := s.net, fresh := s.fresh } = s) ∧
  (∀ (door : Initiator) (s : State),
      doorOpen s door 9 = true → s.live = true → s.mode = 6 → s.get MD_ST_PENDING = 0 →
      ∃ t, exec (.modeRequestService door) s = .next t ∧
        t.get MD_REQST_REQ = 9 ∧ t.get MD_REQST_RES = 0 ∧ t.mode = 9 ∧ t.get MD_ST_PREV = 6 ∧ t.get MD_EVT_CHANGE = 1 ∧ t.get (CV_ST_GATED 0) = 0 ∧
        t.get (CV_ST_GATED 9) = 0 ∧ t.get ID_DOMST_RATEG = 0 ∧ t.modes.at_ = s.pwr.ticks ∧
        (switchClosed s .b = true → (t.pwr.wantB = true ∧ t.pst .b = 6)) ∧ (s.get ID_DOMST_WSTATE = 0 → t.get ID_DOMST_WSTATE = 1) ∧
        t.flash.own = s.flash.own ∧ { t.keys with floor := s.keys.floor, fuses := s.keys.fuses } = s.keys ∧
        { t with regs := s.regs, pwr := s.pwr, axes := s.axes, drive := s.drive, slots := s.slots, cal := s.cal, deck := s.deck, blaze := s.blaze, modes := s.modes, flash := s.flash, keys := s.keys, free := s.free, aux := s.aux, hk := s.hk, fresh := s.fresh } = s) ∧
  (∀ (door : Initiator) (s : State),
      doorOpen s door 9 = true → s.live = true → s.mode = 6 → s.get MD_ST_PENDING = 0 →
      ∃ t, exec (.modeRequestSafe door) s = .next t ∧
        t.get MD_REQST_REQ = 11 ∧ t.get MD_REQST_RES = 0 ∧ t.mode = 11 ∧ t.get MD_ST_FAULT = 7 ∧ t.get MD_ST_PREV = 6 ∧ t.get MD_EVT_SAFE = 1 ∧
        t.get PE_GST_RUNNING = 0 ∧ t.get MD_CNT_SAFECNT = min 255 (s.get MD_CNT_SAFECNT + 1) ∧ t.get (CV_ST_GATED 0) = 1 ∧ t.get (CV_ST_GATED 9) = 1 ∧
        t.get ID_DOMST_RATEG = 1 ∧ t.flash.log = fitLog logUnits ((s.flash.run, .safe 7 s.now) :: s.flash.log) ∧
        (s.get ID_DOMST_WSTATE = 2 → t.get ID_DOMST_WSTATE = 3) ∧ { t.flash with log := s.flash.log, mseqRes := s.flash.mseqRes } = s.flash ∧
        t.keys = s.keys ∧ t.tally = s.tally ∧ t.time = s.time) ∧
  (∀ (door : Initiator) (s : State),
      doorOpen s door 9 = true → s.live = true → s.mode = 6 → s.get MD_ST_PENDING = 1 →
      ∃ t, exec (.modeRequestClean door) s = .next t ∧
        t.get MD_REQST_RES = 3 ∧ t.get MD_REQST_REQ = 8 ∧ t.get MD_EVT_REQREJ = 1 ∧ onlyFields [MD_REQST_REQ, MD_REQST_RES, MD_EVT_REQREJ] s t) ∧
  (∀ (door : Initiator) (s : State),
      doorOpen s door 9 = true → s.live = true → s.mode = 7 → s.get MD_ST_PENDING = 0 →
      ∃ t, exec (.modeRequestWatch door) s = .next t ∧
        t.get MD_REQST_RES = 6 ∧ t.get MD_REQST_REQ = 7 ∧ t.get MD_EVT_REQREJ = 1 ∧ onlyFields [MD_REQST_REQ, MD_REQST_RES, MD_EVT_REQREJ] s t)

/-- 16 R409, R412, R414: a pending change goes to its mode 5 ms after its acceptance at the earliest, when no network lease is open; SETTLE ends in RUN after its longest wait, with SETTLETO, when time is not LOCKED; an automatic CLEAN returns to
the mode it came from after 60 s without a hot result; a minute above 105.00 °C counts.
Completes: modeChangePowerdown, settleExit, autoCleanReturn, modeRestartCmd, hotMinute. -/
def Obligations.ChangesOfModeRunTheirCourse : Prop :=
  (∀ (s : State),
      s.live = true → s.modes.change = .waiting → s.modes.target = 7 → s.modes.auto = false → s.modes.since + 1000000 ≤ s.pwr.ticks →
      networkLease s = false → s.get ID_DOMST_WSTATE = 2 →
      ∃ t, exec (.modeChangePowerdown) s = .next t ∧
        t.mode = 7 ∧ t.get ID_DOMST_WSTATE = 3 ∧ t.modes.change = .closing ∧ t.get MD_EVT_CHANGE = 1 ∧ t.get MD_ST_PREV = s.mode ∧
        t.get (CV_ST_GATED 0) = 0 ∧ t.get (CV_ST_GATED 9) = 1 ∧ t.get ID_DOMST_RATEG = 0 ∧ t.get AN_ST_RUN0 = 0 ∧ t.get AN_ST_RUN1 = 0 ∧
        t.modes.at_ = s.pwr.ticks ∧ t.net.sessions = [] ∧ { t.flash with mseqRes := s.flash.mseqRes } = s.flash ∧ t.keys = s.keys ∧ t.time = s.time ∧
        t.tally = s.tally ∧ t.engines = s.engines ∧ t.recog = s.recog) ∧
  (∀ (targets : ClassB) (s : State),
      s.live = true → s.mode = 5 → s.modes.change = .idle → s.get ID_DOMST_WSTATE = 2 → s.locked = false →
      passed s s.modes.at_ (s.get MD_CFG_SETTLEMAX) = true → (s.bit DRV_ST_LOCK = true ∨ passed s s.modes.at_ 1 = true) →
      ∃ t, exec (.settleExit targets) s = .next t ∧
        t.mode = 6 ∧ t.get MD_EVT_SETTLETO = 1 ∧ t.get MD_ST_PREV = 5 ∧ t.get MD_ST_PENDING = 0 ∧ t.modes.change = .idle ∧ t.modes.arrived = true ∧
        t.modes.at_ = s.pwr.ticks ∧ (∀ i : Fin 10, t.get (CAL_ST_STATE i) = 1 ∨ s.get (CAL_ST_STATE i) ≠ 0) ∧ t.flash.own = s.flash.own ∧
        { t.keys with floor := s.keys.floor, fuses := s.keys.fuses } = s.keys ∧
        { t with regs := s.regs, pwr := s.pwr, axes := s.axes, drive := s.drive, slots := s.slots, cal := s.cal, deck := s.deck, blaze := s.blaze, modes := s.modes, flash := s.flash, keys := s.keys, free := s.free, aux := s.aux, hk := s.hk, bus := s.bus, fresh := s.fresh } = s) ∧
  (∀ (s : State),
      s.live = true → s.mode = 8 → s.bit MD_ST_AUTO = true → s.modes.change = .idle → passed s (max s.modes.at_ s.hk.warmAt) 60 = true →
      s.get MD_ST_PREV = 6 →
      ∃ t, exec (.autoCleanReturn) s = .next t ∧
        t.mode = 6 ∧ t.get MD_ST_AUTO = 0 ∧ t.get MD_ST_PREV = 8 ∧ t.get MD_EVT_CHANGE = 1 ∧ t.get (CV_ST_GATED 0) = 0 ∧ t.get (CV_ST_GATED 9) = 0 ∧
        t.get ID_DOMST_RATEG = 0 ∧ t.modes.at_ = s.pwr.ticks ∧ (s.get ID_DOMST_WSTATE = 0 → t.get ID_DOMST_WSTATE = 1) ∧ t.flash.own = s.flash.own ∧
        { t.keys with floor := s.keys.floor, fuses := s.keys.fuses } = s.keys ∧
        { t with regs := s.regs, pwr := s.pwr, axes := s.axes, drive := s.drive, slots := s.slots, cal := s.cal, deck := s.deck, blaze := s.blaze, modes := s.modes, flash := s.flash, keys := s.keys, free := s.free, aux := s.aux, hk := s.hk, fresh := s.fresh } = s) ∧
  (∀ (door : Initiator) (s : State),
      doorOpen s door 9 = true → s.live = true → s.mode = 6 → s.modes.restart = none →
      ∃ t, exec (.modeRestartCmd door) s = .next t ∧
        t.modes = { s.modes with restart := some 5, stopped := true } ∧ t.get PWR_ST_TWARM = 0 ∧ t.get PWR_ST_MOUNTED = s.get PWR_ST_MOUNTED ∧
        t.get PWR_TWANG_ANGLE = 0 ∧ t.mode = 6 ∧
        { t with regs := s.regs, pwr := s.pwr, modes := s.modes, deck := s.deck, recog := s.recog, blaze := s.blaze, engines := s.engines, an := s.an, aux := s.aux, scal := s.scal, net := s.net, free := s.free, bus := s.bus, cal := s.cal, slots := s.slots, fresh := s.fresh } = s ∧
        t.pwr = { s.pwr with twist := 0, calm := 0 }) ∧
  (∀ (s : State),
      s.alive = true → hotMinute s = true →
      ∃ t, exec (.hotMinute) s = .next t ∧
        t.modes.hot.head? = some s.pwr.ticks ∧ t.get MD_HOT_MIN = min 0xFFFF (hotMinutes t) ∧
        { t with regs := s.regs, modes := s.modes, fresh := s.fresh } = s ∧ sameBut [MD_HOT_MIN, MD_EVT_HOTLIM] s t)

/-- 10 R253, R265, 01 R28, 16 R418, R419: a Landing accounting mismatch is SAFE fault 0x02 and a Deck one 0x03; a lost ANA heartbeat that is not the third within an hour cycles WORK; a lost NET heartbeat that is not the third within
10 min restarts NET, whose unsent publications and capture sessions are gone, and the third is fault 0x04.
Completes: landingAccountMismatch, deckAccountAudit, anaHeartbeatLoss, netHeartbeatLoss. -/
def Obligations.FaultsEnterSafeOrRestartTheirProcessor : Prop :=
  (∀ (s : State),
      s.live = true → s.mode = 6 →
      ∃ t, exec (.landingAccountMismatch) s = .next t ∧
        t.mode = 11 ∧ t.get MD_ST_FAULT = 2 ∧ t.get LD_EVT_ACCERR = 1 ∧ t.get MD_EVT_SAFE = 1 ∧
        t.flash.log = fitLog logUnits ((s.flash.run, .safe 2 s.now) :: s.flash.log) ∧ t.get PE_GST_RUNNING = 0 ∧ t.get (CV_ST_GATED 0) = 1 ∧
        t.keys = s.keys ∧ t.tally = s.tally ∧ t.time = s.time ∧ { t.flash with log := s.flash.log, mseqRes := s.flash.mseqRes } = s.flash) ∧
  (∀ (free held flight : Nat) (s : State),
      s.live = true → s.mode = 6 → s.bit DK_ST_ON = true → free ≠ s.get DK_ACC_FREE →
      ∃ t, exec (.deckAccountAudit free held flight) s = .next t ∧
        t.mode = 11 ∧ t.get MD_ST_FAULT = 3 ∧ t.get DK_EVT_ACCERR = 1 ∧ t.flash.log = fitLog logUnits ((s.flash.run, .safe 3 s.now) :: s.flash.log) ∧
        t.get PE_GST_RUNNING = 0 ∧ (s.get ID_DOMST_WSTATE = 2 → t.get ID_DOMST_WSTATE = 3) ∧ t.keys = s.keys ∧ t.tally = s.tally ∧ t.time = s.time ∧
        { t.flash with log := s.flash.log, mseqRes := s.flash.mseqRes } = s.flash) ∧
  (∀ (s : State),
      s.live = true →
      ∃ t, exec (.deckAccountAudit (s.get DK_ACC_FREE) (s.get DK_ACC_HELD) (s.get DK_ACC_FLIGHT)) s = .next t ∧
        t = s) ∧
  (∀ (s : State),
      s.live = true → s.get ID_DOMST_WSTATE = 2 → (within s s.modes.cycles 3600).length < 3 →
      ∃ t, exec (.anaHeartbeatLoss) s = .next t ∧
        t.get ID_DOMST_WSTATE = 3 ∧ t.modes.workAgain = true ∧ t.modes.workLost = true ∧ t.modes.cycles = within s s.modes.cycles 3600 ∧
        t.flash.log = fitLog logUnits ((s.flash.run, .event 28) :: s.flash.log) ∧ t.get AN_ST_RUN0 = 0 ∧ t.get AN_ST_RUN1 = 0 ∧ t.net.sessions = [] ∧
        t.mode = s.mode ∧ t.keys = s.keys ∧ t.tally = s.tally ∧ t.time = s.time ∧ t.slots = s.slots ∧ t.pwr = s.pwr ∧
        { t.flash with log := s.flash.log, mseqRes := s.flash.mseqRes } = s.flash) ∧
  (∀ (s : State),
      s.live = true → (within s s.modes.netLost 600).length < 3 →
      ∃ t, exec (.netHeartbeatLoss) s = .next t ∧
        t.modes = { s.modes with netLost := within s s.modes.netLost 600 } ∧
        t.flash = { s.flash with log := fitLog logUnits ((s.flash.run, .event 28) :: s.flash.log) } ∧
        (t.net = { s.net with sessions := [], features := [], streams := s.net.streams.map fun x => { x with recs := [], t := none, ready := [] } }) ∧
        (∀ x ∈ s.net.sessions, t.get (CY_CAP_STATE x.c) = 0) ∧ (t.bus.shadows = s.bus.shadows.filter fun x => x.init != .proc .net) ∧
        t.mode = s.mode ∧ { t with regs := s.regs, flash := s.flash, net := s.net, modes := s.modes, bus := s.bus, fresh := s.fresh } = s) ∧
  (∀ (s : State),
      s.live = true → s.mode = 6 → 3 ≤ (within s s.modes.netLost 600).length →
      ∃ t, exec (.netHeartbeatLoss) s = .next t ∧
        t.mode = 11 ∧ t.get MD_ST_FAULT = 4 ∧ t.keys = s.keys)

/-- 01 R27, R28, 10 R258, R261: the Deck controller's release turns it on; the release of ANA0 and ANA1 makes WORK on; the Deck controller's stop clears the Deck; WORK is off once its rails are off; a read of an
unreachable WORK register answers 0 and counts in OFFACC and changes nothing else.
Completes: deckControllerRelease, anaRelease, deckControllerStop, workRailsOff, workRegOffAccess. -/
def Obligations.WorkPowerTransitions : Prop :=
  (∀ (s : State),
      s.live = true → s.get ID_DOMST_WSTATE = 1 → s.bit DK_ST_ON = false →
      ∃ t, exec (.deckControllerRelease) s = .next t ∧
        t.bit DK_ST_ON = true ∧ t.get ID_DOMST_WSTATE = 1 ∧ t.get DK_ACC_TOTAL = 32768 ∧
        (∀ i : Fin 16, 0 < t.deck.rings[i].size → t.deck.rings[i].flight.isSome = true) ∧
        { t with regs := s.regs, deck := s.deck, flash := s.flash, blaze := s.blaze, free := s.free, recog := s.recog, engines := s.engines, an := s.an, net := s.net, tx := s.tx, bus := s.bus, aux := s.aux, scal := s.scal, modes := s.modes, fresh := s.fresh } = s ∧
        { t.flash with log := s.flash.log } = s.flash) ∧
  (∀ (s : State),
      s.live = true → s.get ID_DOMST_WSTATE = 1 → s.bit DK_ST_ON = true →
      ∃ t, exec (.anaRelease) s = .next t ∧
        t.get ID_DOMST_WSTATE = 2 ∧ t.get AN_ST_RUN0 = 1 ∧ t.get AN_ST_RUN1 = 1 ∧ t.modes = { s.modes with workLost := false } ∧
        (s.modes.workLost = true → (t.an.owes0 = true ∧ t.an.owes1 = true)) ∧
        { t with regs := s.regs, an := s.an, modes := s.modes, bus := s.bus, deck := s.deck, free := s.free, fresh := s.fresh } = s) ∧
  (∀ (s : State),
      s.alive = true → s.get ID_DOMST_WSTATE = 3 → s.bit DK_ST_ON = true →
      ∃ t, exec (.deckControllerStop) s = .next t ∧
        t.bit DK_ST_ON = false ∧ t.get ID_DOMST_WSTATE = 3 ∧ t.deck.chunks = s.deck.chunks ∧ t.deck.rings = Vector.replicate 16 {} ∧
        (t.deck.caps = s.deck.caps.map fun k => { lastTrig := k.lastTrig }) ∧ (∀ c : Fin 16, t.get (DK_CAP_STATE c) = 0) ∧
        { t with regs := s.regs, deck := s.deck, fresh := s.fresh } = s) ∧
  (∀ (s : State),
      s.alive = true → s.get ID_DOMST_WSTATE = 3 → s.bit DK_ST_ON = false → s.modes.workAgain = false → s.modes.change = .closing →
      ∃ t, exec (.workRailsOff) s = .next t ∧
        t.get ID_DOMST_WSTATE = 0 ∧ t.get MD_ST_PENDING = 0 ∧ t.modes.change = .idle ∧
        { t with regs := s.regs, modes := s.modes, fresh := s.fresh } = s) ∧
  (∀ (p : Proc) (addr : Nat) (s : State),
      s.alive = true → workHidden s addr = true → isRegister addr = true → procSecure s p = false →
      ∃ t, exec (.workRegOffAccess (.proc p) addr false) s = .next t ∧
        t.bus.reply = 0 ∧ t.get ID_DOMST_OFFACC = s.get ID_DOMST_OFFACC ∧
        t.get WK_VINFO_COUNT = min (2 ^ WK_VINFO_COUNT.width - 1) (s.get WK_VINFO_COUNT + 1) ∧ t.get WK_EVT_VIOL = 1 ∧
        { t with regs := s.regs, bus := s.bus, fresh := s.fresh } = s) ∧
  (∀ (init : Initiator) (addr : Nat) (s : State),
      s.alive = true → workHidden s addr = true → isRegister addr = true → offViolation s init addr false = none →
      ∃ t, exec (.workRegOffAccess init addr false) s = .next t ∧
        t.bus.reply = 0 ∧ t.get ID_DOMST_OFFACC = min 0xFFFF (s.get ID_DOMST_OFFACC + 1) ∧
        { t with regs := s.regs, fresh := s.fresh, bus := { t.bus with reply := s.bus.reply } } = s ∧ sameBut [ID_DOMST_OFFACC] s t)

/-- 03 R69, R71, R74, R77, R78: a one-step Sync of the selected master on the slave port, while the guard is closed, no step is accepted and the time state is LOCKED, forms o = t2 - t1 - corr - d with t2 brought to the contact pins
(the PHY's latency a free value, log entry 109); within TIME_JUMP, and with the result inside TIME_YMAX, the accumulator takes o, y = KP o + KI acc, and the state stays LOCKED. A two-step Sync waits for its Follow_Up; a
Follow_Up that does not come discards it.
Completes: syncReceive, followUpReceive, followUpTimeout. -/
def Obligations.ServoUpdateLoadsTheIncrement : Prop :=
  (∀ (port : Port) (h : PtpHead) (t1 cap corr o : Int) (s : State),
      netRuns s = true → s.pwr.released = true → ptpTaken s h ptpAddress = true → -4 ≤ h.logInt → h.logInt ≤ 0 → fromMaster s port h = true →
      s.timeState = 2 → s.bit TIME_ST_GUARD = false → s.time.accepted = false → s.time.guardTest = false → beyondJump (takeSettings s) o = false →
      ((s.get TIME_KP_KP : Int) * o + (s.get TIME_KI_KI : Int) * (s.time.acc + o)).natAbs ≤ s.get TIME_YMAX_PPB * 2 ^ 32 →
      o = ingressTime s port cap - t1 - corr - linkDelay s port →
      ∃ t, exec (.syncReceive port h t1 cap corr false) s = .next t ∧
        t.time.acc = s.time.acc + o ∧ t.time.use = (takeSettings s).time.use ∧
        t.time.y = (s.get TIME_KP_KP : Int) * o + (s.get TIME_KI_KI : Int) * (s.time.acc + o) ∧ t.timeState = 2 ∧ t.time.sec = s.time.sec ∧
        t.time.ns = s.time.ns ∧ { t with regs := s.regs, time := s.time, fresh := s.fresh } = s ∧
        sameBut [TIME_OFS_NS, TIME_INC_FRAC, TIME_INC_NS, TIME_Y_Y] s t) ∧
  (∀ (port : Port) (h : PtpHead) (t1 cap corr : Int) (s : State),
      netRuns s = true → s.pwr.released = true → ptpTaken s h ptpAddress = true → -4 ≤ h.logInt → h.logInt ≤ 0 → fromMaster s port h = true →
      ∃ t, exec (.syncReceive port h t1 cap corr true) s = .next t ∧
        (t.time.sync = ⟨port, h.seq, h.clock, h.port, ingressTime s port cap, corr, syncTill s h.logInt⟩ :: s.time.sync.filter (fun y => y.seq != h.seq)) ∧
        { t with time := { t.time with sync := s.time.sync } } = s) ∧
  (∀ (port : Port) (h : PtpHead) (t1 corr : Int) (x : PendSync) (s : State),
      netRuns s = true → (s.time.sync.find? (fun x => x.names port h s.pwr.ticks) = some x) → ptpTaken s h ptpAddress = true →
      fromMaster s port h = true → s.bit TIME_ST_GUARD = true →
      ∃ t, exec (.followUpReceive port h t1 corr) s = .next t ∧
        (t.time.sync = s.time.sync.filter (fun y => y.seq != h.seq)) ∧ t.time.use = (takeSettings s).time.use ∧
        t.time.guardOfs = some (x.t2 - t1 - (x.corr + corr) - linkDelay s port, x.t2) ∧ t.time.acc = s.time.acc ∧
        t.time.y = (s.get TIME_KI_KI : Int) * s.time.acc ∧ { t with regs := s.regs, time := s.time, fresh := s.fresh } = s ∧
        sameBut [TIME_OFS_NS, TIME_INC_FRAC, TIME_INC_NS, TIME_Y_Y] s t) ∧
  (∀ (port : Port) (h : PtpHead) (t1 corr o : Int) (x : PendSync) (s : State),
      netRuns s = true → (s.time.sync.find? (fun x => x.names port h s.pwr.ticks) = some x) → ptpTaken s h ptpAddress = true →
      fromMaster s port h = true → s.timeState = 2 → s.bit TIME_ST_GUARD = false → s.time.accepted = false → s.time.guardTest = false →
      beyondJump (takeSettings s) o = false →
      ((s.get TIME_KP_KP : Int) * o + (s.get TIME_KI_KI : Int) * (s.time.acc + o)).natAbs ≤ s.get TIME_YMAX_PPB * 2 ^ 32 →
      o = x.t2 - t1 - (x.corr + corr) - linkDelay s port →
      ∃ t, exec (.followUpReceive port h t1 corr) s = .next t ∧
        (t.time.sync = s.time.sync.filter (fun y => y.seq != h.seq)) ∧ t.time.acc = s.time.acc + o ∧ t.time.use = (takeSettings s).time.use ∧
        t.time.y = (s.get TIME_KP_KP : Int) * o + (s.get TIME_KI_KI : Int) * (s.time.acc + o) ∧ t.timeState = 2 ∧ t.time.sec = s.time.sec ∧
        t.time.ns = s.time.ns ∧ { t with regs := s.regs, time := s.time, fresh := s.fresh } = s ∧
        sameBut [TIME_OFS_NS, TIME_INC_FRAC, TIME_INC_NS, TIME_Y_Y] s t) ∧
  (∀ (port : Port) (seq : Nat) (s : State),
      netRuns s = true →
      ∃ t, exec (.followUpTimeout port seq) s = .next t ∧
        (t.time.sync = s.time.sync.filter (fun x => !(x.port == port && x.seq == seq && decide (x.till ≤ s.pwr.ticks)))) ∧
        (t.time.transit = s.time.transit.filter (fun x => !(x.port == port && x.seq == seq && decide (x.till ≤ s.pwr.ticks)))) ∧
        { t with time := { t.time with sync := s.time.sync, transit := s.time.transit } } = s)

/-- 03 R83: outside FREE an offset beyond TIME_JUMP enters REFUSED with the candidate -o, event and count, and holds the servo; the counter keeps its value.
Completes: syncReceive. -/
def Obligations.AStepBeyondTheJumpThresholdIsRefused : Prop :=
  ∀ (port : Port) (h : PtpHead) (t1 cap corr o : Int) (s : State),
      netRuns s = true → s.pwr.released = true → ptpTaken s h ptpAddress = true → -4 ≤ h.logInt → h.logInt ≤ 0 → fromMaster s port h = true →
      (s.timeState = 1 ∨ s.timeState = 2 ∨ s.timeState = 3) → s.bit TIME_ST_GUARD = false → s.time.accepted = false → s.time.guardTest = false →
      beyondJump (takeSettings s) o = true → o = ingressTime s port cap - t1 - corr - linkDelay s port →
      ∃ t, exec (.syncReceive port h t1 cap corr false) s = .next t ∧
        t.timeState = 4 ∧ t.time.cand = true ∧ t.time.accepted = false ∧ t.time.elapsed = 0 ∧ t.time.prev = some o ∧ t.time.acc = s.time.acc ∧
        t.get TIME_EVT_REFUSED = 1 ∧ t.get TIME_CNT_REFCNT = min 255 (s.get TIME_CNT_REFCNT + 1) ∧ t.time.sec = s.time.sec ∧ t.time.ns = s.time.ns ∧
        t.time.frac = s.time.frac ∧ { t with regs := s.regs, time := s.time, bus := s.bus, fresh := s.fresh } = s ∧
        { t.bus with pulses := s.bus.pulses } = s.bus

/-- 03 R81, R85, R86: an accept command in REFUSED with a candidate accepts it, so that the step is due at the next second boundary and a pending change set will fail, and elsewhere sets CMDIGN; the initial set loads master time and enters ACQUIRE with TIME_EVT.INIT; an accepted step adds the candidate, sets TIME_EVT.ACCEPTED, counts, keeps acc, and enters ACQUIRE; whole
nanoseconds of the jump are added exactly.
Completes: initialSet, stepApply, timeAcceptCmd. -/
def Obligations.TheCounterIsSetOnlyByTheInitialSetAndAnAcceptedStep : Prop :=
  (∀ (o : Int) (s : State),
      s.live = true → s.timeState = 0 → s.time.initOfs = some o →
      ∃ t, exec (.initialSet) s = .next t ∧
        t.timeState = 1 ∧ t.time.initOfs = none ∧ t.get TIME_EVT_INIT = 1 ∧ t.time.sec = (addJump s.time (-o)).sec ∧
        t.time.ns = (addJump s.time (-o)).ns ∧ t.time.frac = (addJump s.time (-o)).frac ∧ t.time.base = t.now ∧ t.time.locks = [] ∧ t.time.sync = [] ∧
        t.time.lastSync = none ∧ t.time.run = 0 ∧
        { t with regs := s.regs, time := s.time, slots := s.slots, deck := s.deck, recog := s.recog, blaze := s.blaze, engines := s.engines, an := s.an, net := s.net, tx := s.tx, free := s.free, tally := s.tally, cal := s.cal, aux := s.aux, axes := s.axes, scal := s.scal, hk := s.hk, flash := s.flash, bus := s.bus, drive := s.drive, pwr := s.pwr, fresh := s.fresh } = s ∧
        { t.pwr with twistT := s.pwr.twistT } = s.pwr ∧ { t.flash with mseqRes := s.flash.mseqRes } = s.flash) ∧
  (∀ (s : State),
      s.live = true → s.timeState = 4 → s.time.accepted = true →
      ∃ t, exec (.stepApply) s = .next t ∧
        t.timeState = 1 ∧ t.time.cand = false ∧ t.time.accepted = false ∧ t.time.acc = s.time.acc ∧ t.get TIME_EVT_ACCEPTED = 1 ∧
        t.get TIME_CNT_ACCCNT = min 255 (s.get TIME_CNT_ACCCNT + 1) ∧
        t.time.sec = (addJump s.time (signed (s.get TIME_CAND_HI * 2 ^ 32 + s.get TIME_CAND_LO) 64 * 65536)).sec ∧
        t.time.ns = (addJump s.time (signed (s.get TIME_CAND_HI * 2 ^ 32 + s.get TIME_CAND_LO) 64 * 65536)).ns ∧ t.time.base = t.now ∧
        t.time.locks = [] ∧ t.time.sync = [] ∧ t.time.lastSync = none ∧ t.time.run = 0 ∧ t.get TIME_CONFT_ELAPSED = 0 ∧
        (∀ i : Fin 16, s.slots[i].en = true → s.slots[i].queued < t.slots[i].queued) ∧
        { t with regs := s.regs, time := s.time, slots := s.slots, deck := s.deck, recog := s.recog, blaze := s.blaze, engines := s.engines, an := s.an, net := s.net, tx := s.tx, free := s.free, tally := s.tally, cal := s.cal, aux := s.aux, axes := s.axes, scal := s.scal, hk := s.hk, flash := s.flash, bus := s.bus, drive := s.drive, pwr := s.pwr, fresh := s.fresh } = s ∧
        { t.pwr with twistT := s.pwr.twistT } = s.pwr ∧ { t.flash with mseqRes := s.flash.mseqRes } = s.flash) ∧
  (∀ (door : Initiator) (s : State),
      doorOpen s door 0x202 = true → s.timeState = 4 → s.time.cand = true →
      ∃ t, exec (.timeAcceptCmd door) s = .next t ∧
        t.time.accepted = true ∧ stepDue t = true ∧ t.tally.setStep = (s.tally.setStep || s.tally.set.isSome) ∧
        { t with time := s.time, tally := s.tally } = s ∧ { t.time with accepted := s.time.accepted } = s.time ∧
        { t.tally with setStep := s.tally.setStep } = s.tally) ∧
  (∀ (door : Initiator) (s : State),
      doorOpen s door 0x202 = true → s.timeState ≠ 4 →
      ∃ t, exec (.timeAcceptCmd door) s = .next t ∧
        t.get TIME_EVT_CMDIGN = 1 ∧ onlyFields [TIME_EVT_CMDIGN] s t)

/-- 03 R72, R74 to R80, R87: a second Announce of a master on a port qualifies and selects it (log entry 110); loss of the master sets LOST and takes LOCKED to HOLDOVER; the guard that closes without an offset owes its test
to the next update; a guard kept open for 10 s closes, LOCKED going to HOLDOVER. Peer-delay requests, answers and transit messages, with the module's clockIdentity and portNumber, its times brought to the contact pins
(log entry 109), go into the time queue; a two-step Sync's Follow_Up takes the amount of its Sync.
Completes: announceReceive, masterLost, guardClose, guardTimeout, pdelayReqSend, pdelayReqReceive, pdelayRespReceive, ptpTransitForward. -/
def Obligations.MastersLinksAndTheGuard : Prop :=
  (∀ (port : Port) (h : PtpHead) (ds d0 : Dataset) (a e : Nat) (s : State),
      netRuns s = true → ptpTaken s h ptpAddress = true → -3 ≤ h.logInt → h.logInt ≤ 3 → h.clock ≠ clockIdentity s →
      s.time.heard = [⟨port, h.clock, h.port, d0, 1, a, e⟩] → s.pwr.ticks ≤ a + 4 * e → ds.steps < 255 →
      ∃ t, exec (.announceReceive port h ds) s = .next t ∧
        (t.time.heard.map (fun x => (x.port, x.clock, x.num, x.ds, x.count, x.at_)) = [(port, h.clock, h.port, ds, 2, s.pwr.ticks)]) ∧
        slavePort t = some port ∧ t.time.master = some (h.clock, h.port) ∧ { t with regs := s.regs, time := s.time, fresh := s.fresh } = s ∧
        sameBut [TIME_ST_SLAVEPORT] s t) ∧
  (∀ (p : Port) (s : State),
      netRuns s = true → slavePort s = some p → s.timeState = 2 → s.bit TIME_ST_GUARD = false →
      ∃ t, exec (.masterLost) s = .next t ∧
        t.timeState = 3 ∧ t.get TIME_EVT_LOST = 1 ∧ t.get TIME_CNT_LOSTCNT = min 255 (s.get TIME_CNT_LOSTCNT + 1) ∧ t.time.sec = s.time.sec ∧
        t.time.ns = s.time.ns ∧ t.time.acc = s.time.acc ∧ t.time.master = none ∧ t.time.lost = true ∧
        { t with regs := s.regs, time := s.time, fresh := s.fresh } = s ∧
        sameBut [TIME_ST_STATE, TIME_ST_SLAVEPORT, TIME_EVT_LOST, TIME_CNT_LOSTCNT, TIME_INC_FRAC, TIME_INC_NS, TIME_Y_Y] s t) ∧
  (∀ (targets : ClassB) (s : State),
      netRuns s = true → s.bit TIME_ST_GUARD = true → s.time.guardOfs = none → s.time.lost = false →
      ∃ t, exec (.guardClose targets) s = .next t ∧
        t.bit TIME_ST_GUARD = false ∧ t.time = { s.time with guardTest := true } ∧ t.timeState = s.timeState ∧
        { t with regs := s.regs, time := s.time, cal := s.cal, fresh := s.fresh } = s) ∧
  (∀ (targets : ClassB) (s : State),
      netRuns s = true → s.bit TIME_ST_GUARD = true → s.timeState = 2 →
      ∃ t, exec (.guardTimeout targets) s = .next t ∧
        t.bit TIME_ST_GUARD = false ∧ t.timeState = 3 ∧ t.time.acc = s.time.acc ∧ t.time.y = (s.time.use.ki : Int) * s.time.acc ∧
        { t with regs := s.regs, time := s.time, cal := s.cal, fresh := s.fresh } = s ∧ { t.time with y := s.time.y, locks := s.time.locks } = s.time) ∧
  (∀ (port : Port) (seq : Nat) (cap : Int) (s : State),
      netRuns s = true → linkUp s port = true →
      ∃ t, exec (.pdelayReqSend port seq cap) s = .next t ∧
        t.tx = s.tx ++ [{ port := port.egress, queue := 0, pay := .pdelayReq (pdelayHead s port seq) }] ∧
        openReq t.time port = some (seq, egressTime s port cap) ∧ openReq t.time port.other = openReq s.time port.other ∧
        { t with tx := s.tx, time := s.time } = s) ∧
  (∀ (port : Port) (h : PtpHead) (capIn capOut : Int) (s : State),
      netRuns s = true → linkUp s port = true → ptpTaken s h pdelayAddress = true →
      ∃ t, exec (.pdelayReqReceive port h capIn capOut) s = .next t ∧
        t.tx = s.tx ++ [{ port := port.egress, queue := 0, pay := .pdelayResp (pdelayHead s port h.seq) h.clock h.port (egressTime s port capOut - ingressTime s port capIn) }] ∧
        { t with tx := s.tx } = s) ∧
  (∀ (port : Port) (h : PtpHead) (t2 t3 corr cap x : Int) (s : State),
      netRuns s = true → ptpTaken s h pdelayAddress = true → openReq s.time port = some (h.seq, x) →
      ∃ t, exec (.pdelayRespReceive port h (clockIdentity s) (portNumber port) t2 t3 corr cap) s = .next t ∧
        (t.time.delays port).head? = some (roundEven ((ingressTime s port cap - x) - (t3 - t2 + corr)) 2 - asymmetry s port) ∧
        (t.time.delays port).length ≤ 8 ∧ t.time.delays port.other = s.time.delays port.other ∧ openReq t.time port = none ∧
        { t with regs := s.regs, time := s.time, fresh := s.fresh } = s ∧ (sameBut [if port = .a then TIME_PDLYA_D else TIME_PDLYB_D] s t)) ∧
  (∀ (ingress : Port) (h : PtpHead) (corr capIn capOut : Int) (s : State),
      netRuns s = true → linkUp s ingress.other = true → queueFull s ingress.other.egress 0 64 = false → ptpTaken s h ptpAddress = true →
      ∃ t, exec (.ptpTransitForward ingress h false false corr capIn capOut) s = .next t ∧
        t.tx = s.tx ++ [{ port := ingress.other.egress, queue := 0, pay := .ptpForward h false (corr + (roundEven ((egressTime s ingress.other capOut - ingressTime s ingress capIn) * s.time.ratioNum) s.time.ratioDen + linkDelay s ingress)) false }] ∧
        { t with tx := s.tx } = s) ∧
  (∀ (ingress : Port) (h : PtpHead) (corr capIn capOut : Int) (x : Transit) (s : State),
      netRuns s = true → linkUp s ingress.other = true → queueFull s ingress.other.egress 0 64 = false → ptpTaken s h ptpAddress = true →
      (s.time.transit.find? (fun x => x.names ingress h s.pwr.ticks) = some x) →
      ∃ t, exec (.ptpTransitForward ingress h true false corr capIn capOut) s = .next t ∧
        t.tx = s.tx ++ [{ port := ingress.other.egress, queue := 0, pay := .ptpForward h true (corr + x.add) false }] ∧
        { t with tx := s.tx, time := s.time } = s ∧ { t.time with transit := s.time.transit } = s.time)

/-- 03 R91, 15 R385: a snapshot latches all three fields of the counter and counts in SEQ; in LOCKED the frequency estimate goes to the event log. Nothing else changes.
Completes: timeSnapCmd, freqEstimateLog. -/
def Obligations.SnapshotsAndFrequencyEstimates : Prop :=
  (∀ (door : Initiator) (s : State),
      doorOpen s door 0x202 = true →
      ∃ t, exec (.timeSnapCmd door) s = .next t ∧
        t.get TIME_SNAPS_LO = s.time.sec % 2 ^ 32 ∧ t.get TIME_SNAPS_HI = s.time.sec / 2 ^ 32 % 2 ^ 32 ∧ t.get TIME_SNAPNS_NS = s.time.ns % 2 ^ 30 ∧
        t.get TIME_SNAPFR_FRAC = s.time.frac % 2 ^ 32 ∧ t.get TIME_SNAPNS_SEQ = (s.get TIME_SNAPNS_SEQ + 1) % 4 ∧
        onlyFields [TIME_SNAPS_LO, TIME_SNAPS_HI, TIME_SNAPNS_NS, TIME_SNAPNS_SEQ, TIME_SNAPFR_FRAC] s t) ∧
  (∀ (n : Nat) (s : State),
      s.live = true → s.locked = true → 3 ≤ n → s.mode = 6 →
      ∃ t, exec (.freqEstimateLog n) s = .next t ∧
        t.mode = 11 ∧ t.get MD_ST_FAULT = 6 ∧ t.get MD_EVT_SAFE = 1 ∧ t.flash.log = fitLog logUnits ((s.flash.run, .safe 6 s.now) :: s.flash.log) ∧
        t.flash.own = s.flash.own ∧ t.keys = s.keys) ∧
  (∀ (n : Nat) (s : State),
      s.live = true → s.locked = true → n < 3 →
      ∃ t, exec (.freqEstimateLog n) s = .next t ∧
        t.flash.log = fitLog logUnits ((s.flash.run, .freqEstimate s.time.y s.hk.temps[4] (hotMinutes s) true) :: s.flash.log) ∧
        { t with flash := { t.flash with log := s.flash.log } } = s)

/-- 04 R105 to R107, R109: an auto axis whose sample exceeds 90 % of FSCODE decides one range up, one with 100 000 carrier periods in a row below its down threshold one down, the count shown until then; the
switch, which a calibration run holds back, takes the range, sets UP or DN, counts, and marks the
seam in the axis's slot.
Completes: rangeUpDecision, rangeDownDecision, rangeSwitch. -/
def Obligations.RangesFollowTheirDecisions : Prop :=
  (∀ (axis : Fin 10) (code : Int) (s : State),
      s.alive = true → autoMode s axis = true → axisRuns s axis = true → 6451 < code.natAbs → s.get (AX_ST_PRANGE axis) < topRange axis →
      rangeHeld s axis = false → runAxis s ≠ some axis →
      ∃ t, exec (.rangeUpDecision axis code) s = .next t ∧
        t.axes[axis].pendRange = some (s.get (AX_ST_PRANGE axis) + 1) ∧ t.get (AX_ST_DNHOLD axis) = 0 ∧ t.get (AX_ST_HOLDMS axis) = 0 ∧
        { t with regs := s.regs, axes := s.axes, fresh := s.fresh } = s ∧ sameBut [AX_ST_DNHOLD axis, AX_ST_HOLDMS axis] s t) ∧
  (∀ (axis : Fin 10) (runs : List (Nat × Nat)) (s : State),
      s.alive = true → autoMode s axis = true → axisRuns s axis = true → 0 < s.get (AX_ST_PRANGE axis) → s.axes[axis].pendRange = none →
      runAxis s ≠ some axis → rangeHeld s axis = false → 100000 ≤ quietAfter false (downThreshold axis) s.axes[axis].quiet runs →
      ∃ t, exec (.rangeDownDecision axis runs) s = .next t ∧
        t.axes[axis].pendRange = some (s.get (AX_ST_PRANGE axis) - 1) ∧ t.axes[axis].quiet = 0 ∧
        { t with regs := s.regs, axes := s.axes, fresh := s.fresh } = s ∧ sameBut [AX_ST_DNHOLD axis, AX_ST_HOLDMS axis] s t) ∧
  (∀ (axis : Fin 10) (n peak : Nat) (s : State),
      s.alive = true → autoMode s axis = true → axisRuns s axis = true → 0 < s.get (AX_ST_PRANGE axis) → s.axes[axis].pendRange = none →
      runAxis s ≠ some axis → 0 < n → s.axes[axis].quiet + n < 100000 → peak < downThreshold axis →
      ∃ t, exec (.rangeDownDecision axis [(n, peak)]) s = .next t ∧
        t.axes[axis].pendRange = none ∧ t.axes[axis].quiet = s.axes[axis].quiet + n ∧ t.get (AX_ST_DNHOLD axis) = 1 ∧
        t.get (AX_ST_HOLDMS axis) = (s.axes[axis].quiet + n) * 64 / 100000 ∧ { t with regs := s.regs, axes := s.axes, fresh := s.fresh } = s ∧
        sameBut [AX_ST_DNHOLD axis, AX_ST_HOLDMS axis] s t) ∧
  (∀ (axis : Fin 10) (r : Nat) (s : State),
      s.alive = true → s.axes[axis].pendRange = some r → s.get (AX_ST_PRANGE axis) < r → r < 4 → runAxis s ≠ some axis →
      ∃ t, exec (.rangeSwitch axis) s = .next t ∧
        t.get (AX_ST_PRANGE axis) = r ∧ t.axes[axis].pendRange = none ∧ t.get (AX_EVT_UP axis) = 1 ∧
        t.get (AX_CNT_UPCNT axis) = min 0xFFFF (s.get (AX_CNT_UPCNT axis) + 1) ∧
        t.slots[(axis.castLE (by decide) : Fin 16)] = { s.slots[(axis.castLE (by decide) : Fin 16)] with seams := s.now :: s.slots[(axis.castLE (by decide) : Fin 16)].seams, ranges := (s.now, s.get (AX_ST_PRANGE axis)) :: s.slots[(axis.castLE (by decide) : Fin 16)].ranges } ∧
        { t with regs := s.regs, axes := s.axes, slots := s.slots, fresh := s.fresh } = s ∧
        sameBut [AX_ST_PRANGE axis, AX_ST_DNHOLD axis, AX_ST_HOLDMS axis, AX_EVT_UP axis, AX_CNT_UPCNT axis] s t)

/-- 04 R103, R104, R106, R111, R120, R121, R123, 07 R198: a write of AX_CFG completes on every axis. On W it stores QCOEF, QEN, EXCLVL and AUTO, on G the last two, on L the level and the range; a changed excitation level waits for its
carrier boundary, where it triggers the slot's suppression (its filters cleared, the count one higher) and restarts the down count; leaving auto mode decides the switch to the written RANGE; on an L axis a changed range takes effect
at once with a suppression. A write on axis 9 (Q) changes nothing. An excitation change with a swap under way, or on a slot that is not enabled, is not stated here.
Completes: axCfgWrite, excitationChangeApply. -/
def Obligations.AxisConfigurationAndExcitation : Prop :=
  (∀ (door : Initiator) (axis : Fin 10) (v : Word) (s : State),
      doorOpen s door (0x400 + 0x40 * axis.val) = true → axis.val < 3 → getBits v 4 2 ≠ s.get (AX_CFG_EXCLVL axis) →
      ∃ t, exec (.axCfgWrite door axis v) s = .next t ∧
        t.get (AX_CFG_QCOEF axis) = getBits v 8 8 ∧ t.get (AX_CFG_QEN axis) = getBits v 6 1 ∧ t.get (AX_CFG_EXCLVL axis) = getBits v 4 2 ∧
        t.get (AX_CFG_AUTO axis) = getBits v 2 1 ∧ t.axes[axis].pendExc = true ∧
        { t with regs := s.regs, axes := s.axes, cal := s.cal, fresh := s.fresh } = s ∧
        sameBut [wholeWord (0x400 + 0x40 * axis.val), AX_ST_DNHOLD axis, AX_ST_HOLDMS axis] s t) ∧
  (∀ (door : Initiator) (axis : Fin 10) (v : Word) (s : State),
      doorOpen s door (0x400 + 0x40 * axis.val) = true → (axis.val < 3 ∨ (6 ≤ axis.val ∧ axis.val < 9)) → getBits v 4 2 = s.get (AX_CFG_EXCLVL axis) →
      s.get (AX_CFG_AUTO axis) = 1 → getBits v 2 1 = 0 → getBits v 0 2 ≤ topRange axis → axisRuns s axis = true →
      getBits v 0 2 ≠ s.get (AX_ST_PRANGE axis) →
      ∃ t, exec (.axCfgWrite door axis v) s = .next t ∧
        t.get (AX_CFG_AUTO axis) = 0 ∧ t.get (AX_CFG_RANGE axis) = getBits v 0 2 ∧ t.axes[axis].pendRange = some (getBits v 0 2) ∧
        t.axes[axis].quiet = 0 ∧ t.axes[axis].pendExc = s.axes[axis].pendExc ∧ t.get (AX_ST_DNHOLD axis) = 0 ∧ t.get (AX_ST_HOLDMS axis) = 0 ∧
        { t with regs := s.regs, axes := s.axes, cal := s.cal, fresh := s.fresh } = s ∧
        sameBut [wholeWord (0x400 + 0x40 * axis.val), AX_ST_DNHOLD axis, AX_ST_HOLDMS axis] s t) ∧
  (∀ (door : Initiator) (axis : Fin 10) (v : Word) (s : State),
      doorOpen s door (0x400 + 0x40 * axis.val) = true → 3 ≤ axis.val → axis.val < 6 → getBits v 4 2 = s.get (AX_CFG_EXCLVL axis) →
      getBits v 0 2 ≤ topRange axis → getBits v 0 2 ≠ s.get (AX_CFG_RANGE axis) → s.slots[(axisSlot axis)].en = true →
      s.slots[(axisSlot axis)].resume = false → runAxis s ≠ some axis → (s.get (ML_ST_STATE axis) = 0 ∨ s.get (ML_ST_STATE axis) = 5) →
      ∃ t, exec (.axCfgWrite door axis v) s = .next t ∧
        t.get (AX_CFG_RANGE axis) = getBits v 0 2 ∧ t.get (AX_ST_PRANGE axis) = getBits v 0 2 ∧
        t.get (AX_CFG_EXCLVL axis) = s.get (AX_CFG_EXCLVL axis) ∧ t.slots[(axisSlot axis)].trig = some s.now ∧
        t.slots[(axisSlot axis)].sampled = false ∧ t.slots[(axisSlot axis)].mill = {} ∧ t.get (ML_ST_STATE axis) = 1 ∧
        t.get (ML_CNT_SUPCNT axis) = min (2 ^ (ML_CNT_SUPCNT axis).width - 1) (s.get (ML_CNT_SUPCNT axis) + 1) ∧
        { t with regs := s.regs, axes := s.axes, slots := s.slots, cal := s.cal, fresh := s.fresh } = s ∧
        sameBut [wholeWord (0x400 + 0x40 * axis.val), AX_ST_PRANGE axis, ML_ST_STATE axis, ML_SREM_REM axis, ML_CNT_SUPCNT axis] s t) ∧
  (∀ (door : Initiator) (v : Word) (s : State),
      doorOpen s door 0x640 = true →
      ∃ t, exec (.axCfgWrite door 9 v) s = .next t ∧
        t.get (AX_CFG_RANGE 9) = s.get (AX_CFG_RANGE 9) ∧ onlyFields [] s t) ∧
  (∀ (axis : Fin 10) (s : State),
      s.alive = true → s.axes[axis].pendExc = true → s.bit (CV_ST_GATED axis) = false → s.slots[(axisSlot axis)].en = true →
      s.slots[(axisSlot axis)].resume = false → runAxis s ≠ some axis → (s.get (ML_ST_STATE axis) = 0 ∨ s.get (ML_ST_STATE axis) = 5) →
      ∃ t, exec (.excitationChangeApply axis) s = .next t ∧
        t.axes[axis].pendExc = false ∧ t.axes[axis].quiet = 0 ∧ t.get (AX_ST_DNHOLD axis) = 0 ∧ t.get (AX_ST_HOLDMS axis) = 0 ∧
        t.slots[(axisSlot axis)].trig = some s.now ∧ t.slots[(axisSlot axis)].sampled = false ∧ t.slots[(axisSlot axis)].mill = {} ∧
        t.get (ML_ST_STATE axis) = 1 ∧ t.get (ML_CNT_SUPCNT axis) = min (2 ^ (ML_CNT_SUPCNT axis).width - 1) (s.get (ML_CNT_SUPCNT axis) + 1) ∧
        { t with regs := s.regs, axes := s.axes, slots := s.slots, fresh := s.fresh } = s ∧
        sameBut [ML_ST_STATE axis, ML_SREM_REM axis, ML_CNT_SUPCNT axis, AX_ST_DNHOLD axis, AX_ST_HOLDMS axis] s t) ∧
  (∀ (axis : Fin 10) (s : State),
      s.alive = true → s.axes[axis].pendExc = true → s.bit (CV_ST_GATED axis) = false → s.slots[(axisSlot axis)].en = false → runAxis s ≠ some axis →
      ∃ t, exec (.excitationChangeApply axis) s = .next t ∧
        t.axes[axis] = { s.axes[axis] with pendExc := false, quiet := 0 } ∧ t.get (AX_ST_DNHOLD axis) = 0 ∧ t.get (AX_ST_HOLDMS axis) = 0 ∧
        { t with regs := s.regs, axes := s.axes, fresh := s.fresh } = s ∧ sameBut [AX_ST_DNHOLD axis, AX_ST_HOLDMS axis] s t)

/-- 04 R112, R114 to R116, 02 R59, 07 R198: at lock DRV_ST.LOCK is 1 with the frequency shown and stored and the start time in whole ms, and every G axis starts: in auto mode in its top range, else in AX_CFG.RANGE, its down count
restarted, and its enabled slot is suppressed with its filters cleared. A loss of lock clears LOCK and FREQ, sets UNLOCK, counts, starts the drive again and disarms twist-release. The amplitude shown is a free value (log entry 17, the
model's choice).
Completes: driveLock, driveUnlock. -/
def Obligations.TheRateDriveLocksAndUnlocks : Prop :=
  (∀ (freq : Nat) (axis : Fin 10) (s : State),
      s.alive = true → s.get ID_DOMST_RATEG = 0 → s.get DRV_ST_LOCK = 0 → freq < 65536 → 6 ≤ axis.val → axis.val < 9 → startTime s < 65536 →
      ∃ t, exec (.driveLock freq) s = .next t ∧
        t.get DRV_ST_LOCK = 1 ∧ t.get DRV_ST_FREQ = freq ∧ t.get DRV_CNT_STARTMS = startTime s ∧
        t.drive = { s.drive with storedFreq := freq, starting := false } ∧ 98 < t.get DRV_ST_AMP ∧ t.get DRV_ST_AMP < 102 ∧
        (t.get (AX_ST_PRANGE axis) = (if s.bit (AX_CFG_AUTO axis) then 1 else s.get (AX_CFG_RANGE axis))) ∧
        t.axes[axis] = { s.axes[axis] with pendRange := none, crossing := false, quiet := 0 } ∧ t.get (AX_ST_HOLDMS axis) = 0 ∧
        (s.slots[(axisSlot axis)].en = true → s.slots[(axisSlot axis)].resume = false → (t.slots[(axisSlot axis)].trig = some s.now ∧ t.slots[(axisSlot axis)].mill = {} ∧ t.get (ML_ST_STATE axis) = 1)) ∧
        { t with regs := s.regs, axes := s.axes, slots := s.slots, drive := s.drive, free := s.free, blaze := s.blaze, bus := s.bus, tally := s.tally, fresh := s.fresh } = s) ∧
  (∀ (axis : Fin 10) (s : State),
      s.alive = true → s.get DRV_ST_LOCK = 1 → 6 ≤ axis.val → axis.val < 9 →
      ∃ t, exec (.driveUnlock) s = .next t ∧
        t.get DRV_ST_LOCK = 0 ∧ t.get DRV_ST_FREQ = 0 ∧ t.get DRV_ST_UNLOCK = 1 ∧ t.get DRV_CNT_LOSSCNT = min 255 (s.get DRV_CNT_LOSSCNT + 1) ∧
        t.get PWR_ST_TWARM = 0 ∧ t.get PWR_ST_MOUNTED = 0 ∧ t.get PWR_TWANG_ANGLE = 0 ∧ t.pwr = { s.pwr with twist := 0, calm := 0 } ∧
        t.drive = { s.drive with starting := true, startAt := s.pwr.ticks } ∧ t.axes[axis].pendRange = none ∧
        { t with regs := s.regs, pwr := s.pwr, axes := s.axes, drive := s.drive, cal := s.cal, slots := s.slots, fresh := s.fresh } = s)

/-- 05 R133, R135 to R141, R143, R483: enabling REFBUF drops REFRDY until it has settled; a sequence that passes R136's checks is adopted at a pass start; an entry's valid result, the mean of its clamped codes, is stored with the
OR of their over-range bits; a requested injection becomes pending or counts as merged, the lowest pending one runs after the running entry, and its result is stored in its own register and raises its interrupt source. How a
mean midway between two values is rounded is the model's choice (log entry 111).
Completes: refbufEnable, refbufSettled, hkPassStart, hkEntryEnd, hkApplyCmd, hkInjCmd, hkInjectionStart, hkInjectionEnd. -/
def Obligations.HousekeepingRunsItsSequenceAndInjections : Prop :=
  (∀ (door : Initiator) (v : Word) (s : State),
      doorOpen s door 0x800 = true → s.get HK_CTL_REFEN = 0 → getBits v 4 1 = 1 → getBits v 24 8 ≠ 0 →
      ∃ t, exec (.refbufEnable door v) s = .next t ∧
        t.get HK_CTL_REFEN = 1 ∧ t.get HK_ST_REFRDY = 0 ∧ t.get HK_CTL_LEN = getBits v 0 4 ∧ t.get HK_CTL_MAXAGE = getBits v 24 8 ∧
        t.hk.refAt = none ∧ { t with regs := s.regs, hk := s.hk, fresh := s.fresh } = s ∧
        sameBut [HK_CTL_REFEN, HK_CTL_LEN, HK_CTL_MAXAGE, HK_ST_REFRDY, CV_ST_NOTSET 0, CV_ST_NOTSET 1, CV_ST_NOTSET 2, CV_ST_NOTSET 3, CV_ST_NOTSET 4, CV_ST_NOTSET 5, CV_ST_NOTSET 6, CV_ST_NOTSET 7, CV_ST_NOTSET 8, CV_ST_NOTSET 9] s t) ∧
  (∀ (s : State),
      s.alive = true → s.get HK_CTL_REFEN = 1 → s.get HK_ST_REFRDY = 0 →
      ∃ t, exec (.refbufSettled) s = .next t ∧
        t.get HK_ST_REFRDY = 1 ∧ (∀ i : Fin 10, t.get (CV_ST_NOTSET i) = 0) ∧
        t.hk = { s.hk with unsettled := closeSpan s.hk.unsettled s.now, refAt := some s.pwr.ticks } ∧
        (∀ i : Fin 16, i.val ≤ 10 → s.slots[i].en = true → s.slots[i].resume = false → (t.slots[i].trig = some s.now ∧ t.slots[i].mill = {})) ∧
        { t with regs := s.regs, hk := s.hk, slots := s.slots, cal := s.cal, axes := s.axes, aux := s.aux, free := s.free, blaze := s.blaze, bus := s.bus, fresh := s.fresh } = s) ∧
  (∀ (s : State),
      sequenceRuns s = true → s.hk.passDue = true → hkRefusal (hkShadow s) = 0 →
      ∃ t, exec (.hkPassStart) s = .next t ∧
        t.get HK_ST_APPLYPEND = 0 ∧ t.get HK_EVT_SEQOK = 1 ∧ t.get HK_PASS_CLK = hkPassTime (hkShadow s) ∧
        t.hk = { s.hk with seq := hkShadow s, len := s.get HK_CTL_LEN, passDue := false } ∧
        { t with regs := s.regs, hk := s.hk, fresh := s.fresh } = s ∧
        sameBut [HK_ST_APPLYPEND, HK_PASS_CLK, HK_EVT_SEQOK, AUX_ST_PFLT, AUX_EVT_PFLT] s t) ∧
  (∀ (s : State),
      sequenceRuns s = true → s.hk.passDue = true → hkRefusal (hkShadow s) ≠ 0 →
      ∃ t, exec (.hkPassStart) s = .next t ∧
        t.hk = { s.hk with passDue := false } ∧ { t with regs := s.regs, hk := s.hk, fresh := s.fresh } = s ∧ t.get HK_ST_APPLYPEND = 0 ∧
        t.get HK_ST_REJ = hkRefusal (hkShadow s) ∧ t.get HK_EVT_SEQREJ = 1 ∧ sameBut [HK_ST_APPLYPEND, HK_ST_REJ, HK_EVT_SEQREJ] s t) ∧
  (∀ (xs : List Int) (targets : ClassB) (s : State),
      sequenceRuns s = true → s.hk.passDue = false → s.live = true → s.bit MD_CFG_AUTOCLEAN = false →
      refNotSettled s (hkEntryTime (hkEntry s (s.get HK_ST_ENTRY))) = false → s.get HK_ST_ENTRY < s.hk.len → s.hk.len < 16 →
      5 ≤ hkInput (hkEntry s (s.get HK_ST_ENTRY)) → hkInput (hkEntry s (s.get HK_ST_ENTRY)) ≠ 15 →
      ∃ t, exec (.hkEntryEnd xs targets) s = .next t ∧
        t.getI (HK_RES_VALUE (s.get HK_ST_ENTRY)) = signed (twos (hkConvert (hkEntry s (s.get HK_ST_ENTRY)) xs).1 24) 24 ∧
        t.get (HK_RES_NEW (s.get HK_ST_ENTRY)) = 1 ∧ t.bit (HK_RES_OVR (s.get HK_ST_ENTRY)) = (hkConvert (hkEntry s (s.get HK_ST_ENTRY)) xs).2 ∧
        t.get HK_ST_ENTRY = s.get HK_ST_ENTRY + 1 ∧ t.hk = { s.hk with turn := s.get HK_ST_INJPEND != 0, began := false } ∧
        { t with regs := s.regs, slots := s.slots, hk := s.hk, fresh := s.fresh } = s ∧
        sameBut [wholeWord (0x820 + s.get HK_ST_ENTRY), HK_ST_ENTRY, HK_EVT_OVR] s t) ∧
  (∀ (door : Initiator) (s : State),
      doorOpen s door 0x801 = true →
      ∃ t, exec (.hkApplyCmd door) s = .next t ∧
        t.get HK_ST_APPLYPEND = 1 ∧ t.hk = { s.hk with passDue := s.hk.passDue || betweenPasses s } ∧
        { t with regs := s.regs, hk := s.hk, fresh := s.fresh } = s ∧ sameBut [HK_ST_APPLYPEND] s t) ∧
  (∀ (door : Initiator) (s : State),
      doorOpen s door 0x801 = true → injPending s 2 = false → s.bit (HK_INJCFG_ABORT 2) = false →
      ∃ t, exec (.hkInjCmd door) s = .next t ∧
        t.get HK_ST_INJPEND = s.get HK_ST_INJPEND + 4 ∧ onlyFields [HK_ST_INJPEND] s t) ∧
  (∀ (door : Initiator) (s : State),
      doorOpen s door 0x801 = true → injPending s 2 = true →
      ∃ t, exec (.hkInjCmd door) s = .next t ∧
        t.get HK_CNT_INJMRG = min 255 (s.get HK_CNT_INJMRG + 1) ∧ onlyFields [HK_CNT_INJMRG] s t) ∧
  (∀ (s : State),
      s.alive = true → s.pwr.released = true → s.hk.run = none → s.hk.turn = true → s.hk.aborted = none → injPending s 0 = false →
      injPending s 1 = true →
      ∃ t, exec (.hkInjectionStart) s = .next t ∧
        t.hk = { s.hk with run := some 1, turn := false } ∧ t.get HK_ST_INJRUN = 1 ∧ t.get HK_ST_INJPEND = s.get HK_ST_INJPEND - 2 ∧
        { t with regs := s.regs, hk := s.hk, fresh := s.fresh } = s ∧ sameBut [HK_ST_INJRUN, HK_ST_INJPEND] s t) ∧
  (∀ (s : State),
      s.alive = true → s.pwr.released = true → s.hk.run = none → s.hk.aborted = some 2 → injPending s 2 = true → s.get HK_ST_INJPEND < 8 →
      ∃ t, exec (.hkInjectionStart) s = .next t ∧
        t.hk = { s.hk with run := some 2, aborted := none, turn := false } ∧ t.get HK_ST_INJRUN = 1 ∧ t.get HK_ST_INJPEND = s.get HK_ST_INJPEND - 4 ∧
        { t with regs := s.regs, hk := s.hk, fresh := s.fresh } = s ∧ sameBut [HK_ST_INJRUN, HK_ST_INJPEND] s t) ∧
  (∀ (xs : List Int) (s : State),
      s.alive = true → s.hk.run = some 2 → refNotSettled s (hkEntryTime (s.word 0x832).toNat) = false →
      ∃ t, exec (.hkInjectionEnd xs) s = .next t ∧
        t.hk = { s.hk with run := none, turn := s.get HK_ST_INJPEND != 0 } ∧ t.get HK_ST_INJRUN = 0 ∧
        t.getI (HK_INJRES_VALUE 2) = signed (twos (hkConvert (s.word 0x832).toNat xs).1 24) 24 ∧ t.get (HK_INJRES_NEW 2) = 1 ∧
        t.bit (HK_INJRES_OVR 2) = (hkConvert (s.word 0x832).toNat xs).2 ∧ t.bus.pulses.contains 10 = true ∧
        { t.bus with pulses := s.bus.pulses } = s.bus ∧ { t with regs := s.regs, hk := s.hk, bus := s.bus, fresh := s.fresh } = s ∧
        sameBut [HK_ST_INJRUN, wholeWord 0x836, HK_EVT_OVR] s t)

/-- 05 R145 to R150: in SERVICE a CAPZ or CAPS on a channel that calibration serves starts a capture; one outside SERVICE fails with 0x01; ABORT ends it without a result; DISCARD restores the running Tally's user
values; a clean static window for point Z is held as its mean.
Completes: scalCapz, scalCaps, scalAbort, scalDiscard, scalCaptureEnd. -/
def Obligations.SystemCalibrationCapturesPoints : Prop :=
  (∀ (door : Initiator) (s : State),
      doorOpen s door 0x881 = true → s.mode = 9 → scalChannel s = true → s.get SCAL_ST_BUSY = 0 →
      ∃ t, exec (.scalCapz door) s = .next t ∧
        t.get SCAL_ST_STATE = 1 ∧ t.get SCAL_ST_BUSY = 1 ∧
        t.scal = { s.scal with ch := some (s.get SCAL_CTL_CH), dynamic := false, run := { start := s.now } } ∧
        { t with regs := s.regs, scal := s.scal, fresh := s.fresh } = s ∧ sameBut [SCAL_ST_STATE, SCAL_ST_BUSY] s t) ∧
  (∀ (door : Initiator) (s : State),
      doorOpen s door 0x881 = true → s.mode ≠ 9 →
      ∃ t, exec (.scalCapz door) s = .next t ∧
        t.get SCAL_ST_FAIL = 1 ∧ onlyFields [SCAL_ST_FAIL] s t) ∧
  (∀ (door : Initiator) (s : State),
      doorOpen s door 0x881 = true → s.mode = 9 → scalChannel s = true → s.get SCAL_ST_BUSY = 0 → s.scal.zch = some (s.get SCAL_CTL_CH) →
      s.get SCAL_CTL_STIM = 0 →
      ∃ t, exec (.scalCaps door) s = .next t ∧
        t.get SCAL_ST_STATE = 3 ∧ t.get SCAL_ST_BUSY = 1 ∧
        t.scal = { s.scal with ch := some (s.get SCAL_CTL_CH), dynamic := false, run := { start := s.now } } ∧
        { t with regs := s.regs, scal := s.scal, fresh := s.fresh } = s ∧ sameBut [SCAL_ST_STATE, SCAL_ST_BUSY] s t) ∧
  (∀ (door : Initiator) (s : State),
      doorOpen s door 0x881 = true → s.mode = 9 → s.get SCAL_ST_BUSY = 1 →
      ∃ t, exec (.scalAbort door) s = .next t ∧
        t.get SCAL_ST_BUSY = 0 ∧ (t.get SCAL_ST_STATE = (if s.scal.zch.isSome then 2 else 0)) ∧ t.scal = { s.scal with ch := none } ∧
        { t with regs := s.regs, scal := s.scal, fresh := s.fresh } = s ∧ sameBut [SCAL_ST_STATE, SCAL_ST_BUSY] s t) ∧
  (∀ (door : Initiator) (s : State),
      doorOpen s door 0x881 = true → s.mode = 9 → s.get SCAL_CTL_CH < 9 → s.tally.image = none →
      ∃ t, exec (.scalDiscard door) s = .next t ∧
        t.get (SCAL_GAIN_G (s.get SCAL_CTL_CH)) = 2 ^ 22 ∧ t.get (SCAL_OFS_O (s.get SCAL_CTL_CH)) = 0 ∧
        { t with regs := s.regs, scal := s.scal, tally := s.tally, fresh := s.fresh } = s ∧
        sameBut [SCAL_GAIN_G (s.get SCAL_CTL_CH), SCAL_OFS_O (s.get SCAL_CTL_CH), TL_DIRTY_ENTRIES] s t) ∧
  (∀ (c : Nat) (s : State),
      s.alive = true → s.get SCAL_ST_BUSY = 1 → s.get SCAL_ST_STATE = 1 → s.scal.ch = some c → captureOver s c = true → windowFailure s c = 0 →
      ∃ t, exec (.scalCaptureEnd) s = .next t ∧
        t.get SCAL_ST_STATE = 2 ∧ t.get SCAL_ST_BUSY = 0 ∧
        t.scal = { s.scal with ch := none, zch := some c, z := captureValue s.scal.run s.scal.dynamic } ∧
        t.getI SCAL_MEAS_V = signed (twos (captureValue s.scal.run s.scal.dynamic) 32) 32 ∧
        { t with regs := s.regs, scal := s.scal, fresh := s.fresh } = s ∧ sameBut [SCAL_ST_STATE, SCAL_ST_BUSY, SCAL_MEAS_V] s t)

/-- 06 R153, R154, R166, R179: a write of AUX_CFG and AUX_PRB stores FUNC and PU and a TYPE of 0 or 1, and a changed function waits; at the boundary S it is applied and slots 10 and 11, where enabled, deliver
Stopped markers up to S + 10 ms. LEADMEAS starts in SERVICE and the probe function only; a mean loop resistance of 0 to 50 000 mΩ over 2 s of clean records of slot 10 is stored in AUX_RLEAD and
noted as a live change (the latter is a reading of the model, log entry 37), any other sets LEADFAIL.
Completes: auxFuncWrite, auxFuncApply, auxLeadmeasCmd, auxLeadmeasEnd. -/
def Obligations.AuxFunctionsChangeAtTheirBoundary : Prop :=
  (∀ (door : Initiator) (cfg prb : Word) (s : State),
      doorOpen s door 0xA00 = true → getBits prb 0 2 ≤ 1 →
      ∃ t, exec (.auxFuncWrite door cfg prb) s = .next t ∧
        t.get AUX_CFG_FUNC = getBits cfg 0 2 ∧ t.get AUX_CFG_PU = getBits cfg 4 1 ∧ t.get AUX_PRB_TYPE = getBits prb 0 2 ∧ t.aux.func = s.aux.func ∧
        (t.aux.pend = (if getBits cfg 0 2 ≠ s.aux.func ∨ getBits prb 0 2 ≠ s.aux.typ then some s.now else none)) ∧
        { t with regs := s.regs, aux := s.aux, fresh := s.fresh } = s ∧ sameBut [wholeWord 0xA00, wholeWord 0xA03] s t) ∧
  (∀ (door : Initiator) (cfg prb : Word) (s : State),
      doorOpen s door 0xA00 = true → 1 < getBits prb 0 2 →
      ∃ t, exec (.auxFuncWrite door cfg prb) s = .next t ∧
        t.get AUX_CFG_FUNC = getBits cfg 0 2 ∧ t.get AUX_PRB_TYPE = s.get AUX_PRB_TYPE ∧
        { t with regs := s.regs, aux := s.aux, fresh := s.fresh } = s ∧ sameBut [wholeWord 0xA00, wholeWord 0xA03] s t) ∧
  (∀ (w : Nat) (s : State),
      s.alive = true → s.aux.pend = some w → w < s.second * 8000000000 → s.time.base ≤ s.second * 8000000000 → s.pwr.serialB = false →
      ∃ t, exec (.auxFuncApply) s = .next t ∧
        t.aux.func = s.get AUX_CFG_FUNC ∧ t.aux.typ = s.get AUX_PRB_TYPE ∧ t.aux.pend = none ∧
        ((s.slots[(10 : Fin 16)].en = true → (t.slots[(10 : Fin 16)].stop.head? = some (s.second * 8000000000, s.second * 8000000000 + 80000000) ∧ t.slots[(10 : Fin 16)].resume = true))) ∧
        ((s.slots[(11 : Fin 16)].en = true → (t.slots[(11 : Fin 16)].stop.head? = some (s.second * 8000000000, s.second * 8000000000 + 80000000) ∧ t.slots[(11 : Fin 16)].resume = true))) ∧
        t.aux.edges = [] ∧ t.aux.nact = 0 ∧ t.aux.angle = 0 ∧ t.aux.comp = false ∧ t.aux.movedAt = s.pwr.ticks ∧ t.get AUX_ST_LEVEL = 0 ∧
        t.get AUX_EDGE_COUNT = s.get AUX_EDGE_COUNT ∧
        { t.aux with func := s.aux.func, typ := s.aux.typ, pend := s.aux.pend, outOff := s.aux.outOff, offAt := s.aux.offAt, driven := s.aux.driven, edges := s.aux.edges, nact := s.aux.nact, ready := s.aux.ready, slow := s.aux.slow, angle := s.aux.angle, comp := s.aux.comp, movedAt := s.aux.movedAt } = s.aux ∧
        { t with regs := s.regs, aux := s.aux, slots := s.slots, fresh := s.fresh } = s) ∧
  (∀ (door : Initiator) (s : State),
      doorOpen s door 0xA07 = true → s.mode = 9 → s.aux.func = 2 → s.pwr.serialB = false → s.get AUX_ST_LEADBUSY = 0 →
      ∃ t, exec (.auxLeadmeasCmd door) s = .next t ∧
        t.get AUX_ST_LEADBUSY = 1 ∧ t.aux = { s.aux with lead := { start := s.now } } ∧
        { t with regs := s.regs, aux := s.aux, fresh := s.fresh } = s ∧ sameBut [AUX_ST_LEADBUSY] s t) ∧
  (∀ (door : Initiator) (s : State),
      doorOpen s door 0xA07 = true → (s.mode ≠ 9 ∨ s.aux.func ≠ 2) →
      ∃ t, exec (.auxLeadmeasCmd door) s = .next t ∧
        t.get AUX_EVT_LEADFAIL = 1 ∧ onlyFields [AUX_EVT_LEADFAIL] s t) ∧
  (∀ (s : State),
      s.alive = true → s.get AUX_ST_LEADBUSY = 1 → leadSpoiled s = false → s.aux.lead.full 16000000000 = true → 0 ≤ leadMean s.aux.lead →
      leadMean s.aux.lead ≤ 50000 →
      ∃ t, exec (.auxLeadmeasEnd) s = .next t ∧
        t.get AUX_RLEAD_MOHM = (leadMean s.aux.lead).toNat ∧ t.get AUX_EVT_LEADOK = 1 ∧ t.get AUX_ST_LEADBUSY = 0 ∧
        { t with regs := s.regs, tally := s.tally, fresh := s.fresh } = s ∧ { t.tally with dirty := s.tally.dirty } = s.tally ∧
        sameBut [AUX_RLEAD_MOHM, AUX_EVT_LEADOK, AUX_ST_LEADBUSY, TL_DIRTY_ENTRIES] s t) ∧
  (∀ (s : State),
      s.alive = true → s.get AUX_ST_LEADBUSY = 1 →
      (leadSpoiled s = true ∨ (s.aux.lead.full 16000000000 = true ∧ (leadMean s.aux.lead < 0 ∨ 50000 < leadMean s.aux.lead))) →
      ∃ t, exec (.auxLeadmeasEnd) s = .next t ∧
        t.get AUX_EVT_LEADFAIL = 1 ∧ t.get AUX_ST_LEADBUSY = 0 ∧ onlyFields [AUX_EVT_LEADFAIL, AUX_ST_LEADBUSY] s t)

/-- 06 R157, R159 to R163, R169: each clamp edge shows, sets its event, counts, requests injection 0, and turns an output driver that is on off. In the input function the comparator goes high above VHI and low below VLO (the sign of the
thresholds' taps is the model's reading, log entry 112); the filtered level follows it when it has held its state for MINPW, and the transition counts in AUX_EDGE, a shorter pulse in ABSORB; an active edge shows
its period (overspeed below 4 000 ticks), and stuck is shown. An output fault turns the driver off until it is restored.
Completes: auxClampEdge, auxComparatorChange, auxEdgeAccept, auxPulseAbsorb, auxStuck, auxOutputFault, auxOutputRestore. -/
def Obligations.AuxClampsEdgesAndOutputFaults : Prop :=
  (∀ (ticks : Nat) (s : State),
      s.alive = true → s.bit AUX_ST_CLAMP = false → driverOn s = false → injPending s 0 = false → s.bit (HK_INJCFG_ABORT 0) = false →
      ∃ t, exec (.auxClampEdge ticks) s = .next t ∧
        t.aux.clamps.head? = some (s.now, s.now + tickTime s ticks) ∧ t.get AUX_ST_CLAMP = 1 ∧ t.get AUX_EVT_CLAMP = 1 ∧
        t.get AUX_CNT_CLAMPCNT = min 255 (s.get AUX_CNT_CLAMPCNT + 1) ∧ t.aux.clampTo = max s.aux.clampTo (s.pwr.ticks + ticks) ∧
        t.get HK_ST_INJPEND = s.get HK_ST_INJPEND + 1 ∧ { t with regs := s.regs, aux := s.aux, fresh := s.fresh } = s ∧
        sameBut [AUX_ST_CLAMP, AUX_EVT_CLAMP, AUX_CNT_CLAMPCNT, HK_ST_INJPEND] s t) ∧
  (∀ (ticks : Nat) (s : State),
      s.alive = true → s.bit AUX_ST_CLAMP = false → driverOn s = true → injPending s 0 = true →
      ∃ t, exec (.auxClampEdge ticks) s = .next t ∧
        t.aux.clamps.head? = some (s.now, s.now + tickTime s ticks) ∧ t.get AUX_ST_CLAMP = 1 ∧ t.get AUX_EVT_CLAMP = 1 ∧
        t.get AUX_CNT_CLAMPCNT = min 255 (s.get AUX_CNT_CLAMPCNT + 1) ∧ t.aux.clampTo = max s.aux.clampTo (s.pwr.ticks + ticks) ∧
        t.get HK_CNT_INJMRG = min 255 (s.get HK_CNT_INJMRG + 1) ∧ t.aux.outOff = true ∧ t.get AUX_EVT_OFLT = 1 ∧
        { t with regs := s.regs, aux := s.aux, fresh := s.fresh } = s ∧
        sameBut [AUX_ST_CLAMP, AUX_EVT_CLAMP, AUX_CNT_CLAMPCNT, HK_CNT_INJMRG, AUX_EVT_OFLT] s t) ∧
  (∀ (v : Int) (s : State),
      s.alive = true → s.aux.func = 1 → s.pwr.serialB = false → s.aux.comp = false → s.bit AUX_ST_LEVEL = false →
      signed (auxGet s AUX_IN_VHI) 8 * 25000 + auxTrim s 8 < v →
      ∃ t, exec (.auxComparatorChange (some v)) s = .next t ∧
        t.aux = { s.aux with comp := true, compAt := s.now / 40, compOld := false } ∧
        (∀ e : Fin 8, t.engines[e] = { s.engines[e] with edges := s.engines[e].edges ++ [(1, true, s.now / 40 * 40, 2)] }) ∧
        { t with aux := s.aux, engines := s.engines } = s) ∧
  (∀ (v : Int) (s : State),
      s.alive = true → s.aux.func = 1 → s.pwr.serialB = false → s.aux.comp = true → s.bit AUX_ST_LEVEL = true →
      v < signed (auxGet s AUX_IN_VLO) 8 * 25000 + auxTrim s 0 → v ≤ signed (auxGet s AUX_IN_VHI) 8 * 25000 + auxTrim s 8 →
      ∃ t, exec (.auxComparatorChange (some v)) s = .next t ∧
        t.aux = { s.aux with comp := false, compAt := s.now / 40, compOld := false } ∧
        (∀ e : Fin 8, t.engines[e] = { s.engines[e] with edges := s.engines[e].edges ++ [(1, false, s.now / 40 * 40, 2)] }) ∧
        { t with aux := s.aux, engines := s.engines } = s) ∧
  (∀ (p : Nat) (rest : List Nat) (s : State),
      s.alive = true → s.aux.func = 1 → s.pwr.serialB = false → s.aux.comp = true → s.bit AUX_ST_LEVEL = false → pulseHeld s = true →
      s.bit AUX_ST_STUCK = false → s.aux.compOld = false → auxGet s AUX_TACH_EDGE = 0 → s.aux.edges = p :: rest → s.bit AUX_ST_OVSPD = false →
      4000 ≤ s.aux.compAt - p → s.aux.compAt - p < 2 ^ 32 →
      ∃ t, exec (.auxEdgeAccept) s = .next t ∧
        t.get AUX_ST_LEVEL = 1 ∧ t.get AUX_EDGE_COUNT = (s.get AUX_EDGE_COUNT + 1) % 2 ^ 32 ∧ t.get AUX_PER_TICKS = s.aux.compAt - p ∧
        t.aux.edges = s.aux.compAt :: (p :: rest).take 3 ∧
        (∀ e : Fin 8, t.engines[e] = { s.engines[e] with edges := s.engines[e].edges ++ [(0, true, 40 * s.aux.compAt, 2)] }) ∧
        t.aux.movedAt = s.pwr.ticks ∧ { t with regs := s.regs, aux := s.aux, engines := s.engines, fresh := s.fresh } = s ∧
        sameBut [AUX_ST_LEVEL, AUX_EDGE_COUNT, AUX_PER_TICKS] s t) ∧
  (∀ (p : Nat) (rest : List Nat) (s : State),
      s.alive = true → s.aux.func = 1 → s.pwr.serialB = false → s.aux.comp = true → s.bit AUX_ST_LEVEL = false → pulseHeld s = true →
      s.bit AUX_ST_STUCK = false → s.aux.compOld = false → auxGet s AUX_TACH_EDGE = 0 → s.aux.edges = p :: rest → s.bit AUX_ST_OVSPD = false →
      s.aux.compAt - p < 4000 →
      ∃ t, exec (.auxEdgeAccept) s = .next t ∧
        t.get AUX_ST_LEVEL = 1 ∧ t.get AUX_EDGE_COUNT = (s.get AUX_EDGE_COUNT + 1) % 2 ^ 32 ∧ t.get AUX_PER_TICKS = s.aux.compAt - p ∧
        t.aux.edges = s.aux.compAt :: (p :: rest).take 3 ∧
        (∀ e : Fin 8, t.engines[e] = { s.engines[e] with edges := s.engines[e].edges ++ [(0, true, 40 * s.aux.compAt, 2)] }) ∧
        t.aux.movedAt = s.pwr.ticks ∧ { t with regs := s.regs, aux := s.aux, engines := s.engines, fresh := s.fresh } = s ∧ t.get AUX_ST_OVSPD = 1 ∧
        t.get AUX_EVT_OVSPD = 1 ∧ t.get AUX_CNT_OVSPDCNT = min 255 (s.get AUX_CNT_OVSPDCNT + 1) ∧
        sameBut [AUX_ST_LEVEL, AUX_ST_OVSPD, AUX_EVT_OVSPD, AUX_CNT_OVSPDCNT, AUX_EDGE_COUNT, AUX_PER_TICKS] s t) ∧
  (∀ (s : State),
      s.alive = true → s.aux.func = 1 → s.pwr.serialB = false → s.aux.comp = !s.bit AUX_ST_LEVEL → pulseHeld s = false →
      ∃ t, exec (.auxPulseAbsorb) s = .next t ∧
        t.get AUX_CNT_ABSORB = min 0xFFFF (s.get AUX_CNT_ABSORB + 1) ∧ t.get AUX_EDGE_COUNT = s.get AUX_EDGE_COUNT ∧
        t.aux = { s.aux with comp := s.bit AUX_ST_LEVEL } ∧
        (∀ e : Fin 8, t.engines[e] = { s.engines[e] with edges := s.engines[e].edges ++ [(1, s.bit AUX_ST_LEVEL, s.now / 40 * 40, 2)] }) ∧
        { t with regs := s.regs, aux := s.aux, engines := s.engines, fresh := s.fresh } = s ∧ sameBut [AUX_CNT_ABSORB] s t) ∧
  (∀ (s : State),
      s.alive = true → s.aux.func = 1 → s.pwr.serialB = false → stuckTime s = true → s.bit AUX_ST_STUCK = false →
      ∃ t, exec (.auxStuck) s = .next t ∧
        t.get AUX_ST_STUCK = 1 ∧ t.get AUX_EVT_STUCK = 1 ∧ onlyFields [AUX_ST_STUCK, AUX_EVT_STUCK] s t) ∧
  (∀ (s : State),
      s.alive = true → driverOn s = true →
      ∃ t, exec (.auxOutputFault) s = .next t ∧
        t.get AUX_EVT_OFLT = 1 ∧ t.aux = { s.aux with outOff := true, offAt := s.pwr.ticks } ∧
        { t with regs := s.regs, aux := s.aux, fresh := s.fresh } = s ∧ sameBut [AUX_EVT_OFLT] s t) ∧
  (∀ (s : State),
      s.alive = true → s.aux.func = 3 → s.pwr.serialB = false → s.aux.outOff = true → s.aux.offAt + 20000000 ≤ s.pwr.ticks →
      s.bit AUX_ST_CLAMP = false →
      ∃ t, exec (.auxOutputRestore) s = .next t ∧
        t.aux = { s.aux with outOff := false, driven := driverLevel s } ∧ driverOn t = true ∧ { t with aux := s.aux } = s)

/-- 08 R211, R216, R217, R220, R222: an enabled slot queues exactly one record for its next grid time, with the SSN one after the last; GR_SSN shows it and GR_LAST the record, and a marker counts in GR_CNT. Slot 15's record is
an Absent marker and in SAFE every slot's an Invalid one. A dump window goes into the CIC's integrators, and between CIC outputs into nothing else. A setup of the slot's analysis consumer takes the record. The slot's next grid time is one interval later. The record leaves time, power, mode, engines, keys, the Tally and the pages below 0x400 as they were.
Completes: gridSlotRecord. -/
def Obligations.EveryGridSlotYieldsOneNumberedRecord : Prop :=
  (∀ (slot : Fin 16) (time : Nat) (sp : Live) (taken : Nat) (s : State),
      s.live = true → s.pwr.released = true → s.slots[slot].en = true → nextGrid s slot time = true → changeDue s slot time = false →
      s.modes.stopped = false → s.pwr.sealed = false → s.slots[slot].chg = none → s.slots[slot].queued < 2 ^ 48 →
      ∃ t, exec (.gridSlotRecord slot time sp taken) s = .next t ∧
        t.slots[slot].queued = s.slots[slot].queued + 1 ∧ t.slots[slot].lastT = some time ∧
        t.slots[slot].nextT = some (time + interval s.slots[slot].rate) ∧ t.get (GR_SSN_LO slot) = s.slots[slot].queued % 2 ^ 32 ∧
        t.get (GR_SSN_HI slot) = s.slots[slot].queued / 2 ^ 32 ∧ (∀ j : Fin 16, j ≠ slot → t.slots[j].queued = s.slots[j].queued) ∧
        (∀ a : Fin 0x400, t.word a = s.word a) ∧ (landWants s slot / 16 = 0 → t.an = s.an) ∧ t.an = { s.an with setups := t.an.setups } ∧
        { t with regs := s.regs, slots := s.slots, axes := s.axes, cal := s.cal, deck := s.deck, recog := s.recog, engines := s.engines, drive := s.drive, scal := s.scal, an := s.an, net := s.net, tx := s.tx, flash := s.flash, aux := s.aux, free := s.free, fresh := s.fresh } = s ∧
        { t.flash with mseqRes := s.flash.mseqRes } = s.flash) ∧
  (∀ (slot : Fin 16) (time : Nat) (sp : Live) (taken : Nat) (n : Fin 32) (s : State),
      s.live = true → s.pwr.released = true → s.slots[slot].en = true → nextGrid s slot time = true → changeDue s slot time = false →
      s.modes.stopped = false → s.pwr.sealed = false → s.slots[slot].chg = none → taken.testBit (4 + s.an.setups[n].proc) = true →
      s.an.setups[n].proc < 2 → (s.get (LD_ATT_ATT slot)).testBit (4 + s.an.setups[n].proc) = true →
      (landWants s slot).testBit (4 + s.an.setups[n].proc) = true → s.deck.land[slot].nextOf (4 + s.an.setups[n].proc) = s.slots[slot].queued →
      s.deck.chunks.length < 2048 →
      (∀ c ∈ s.deck.chunks, c.slot = slot.val → c.first + c.n ≤ s.slots[slot].queued ∧ (c.filling = true → c.first + c.n = s.slots[slot].queued)) →
      s.an.setups[n].defined = true → s.an.setups[n].ref = 0 → s.an.setups[n].slot = slot → s.an.setups[n].resync = false →
      ∃ t, exec (.gridSlotRecord slot time sp taken) s = .next t ∧
        t.an.setups[n] = { s.an.setups[n] with hist := s.an.setups[n].hist ++ [⟨s.slots[slot].queued, time, t.word (0x421 + 0x40 * slot.val), decide (slot.val < 10) && t.get (CAL_ST_STATE slot) == 4⟩] }) ∧
  (∀ (time : Nat) (sp : Live) (taken : Nat) (s : State),
      s.live = true → s.pwr.released = true → s.slots[(15 : Fin 16)].en = true → nextGrid s 15 time = true → changeDue s 15 time = false →
      s.modes.stopped = false → s.pwr.sealed = false → s.slots[(15 : Fin 16)].chg = none →
      ∃ t, exec (.gridSlotRecord 15 time sp taken) s = .next t ∧
        t.word 0x7E1 = (marker 1 (timeqAt s time)).word ∧ t.get (GR_CNT_MARKERS 15) = min 0xFFFFFFFF (s.get (GR_CNT_MARKERS 15) + 1)) ∧
  (∀ (slot : Fin 16) (time : Nat) (sp : Live) (taken : Nat) (s : State),
      s.live = true → s.pwr.released = true → s.slots[slot].en = true → nextGrid s slot time = true → changeDue s slot time = false →
      s.modes.stopped = false → s.pwr.sealed = false → s.slots[slot].chg = none → s.mode = 11 → slot ≠ 15 →
      ∃ t, exec (.gridSlotRecord slot time sp taken) s = .next t ∧
        t.word (0x421 + 0x40 * slot.val) = (marker 2 (timeqAt s time)).word ∧
        t.get (GR_CNT_MARKERS slot) = min 0xFFFFFFFF (s.get (GR_CNT_MARKERS slot) + 1)) ∧
  (∀ (slot : Fin 16) (time : Nat) (w : Window) (q : List (Nat × Int)) (taken : Nat) (s : State),
      s.live = true → s.pwr.released = true → s.slots[slot].en = true → nextGrid s slot time = true → changeDue s slot time = false →
      s.modes.stopped = false → s.slots[slot].chg = none → slot.val ≤ 10 → (slot.val = 10 ∨ s.get (CV_ST_GATED slot) = 0) →
      s.get CAL_GST_RUNAX ≠ slot.val → s.slots[slot].winT < w.t → s.slots[slot].trig = none →
      s.slots[slot].mill.words + 1 < 2 ^ (s.slots[slot].rate + 1) →
      ∃ t, exec (.gridSlotRecord slot time ⟨[w], q⟩ taken) s = .next t ∧
        t.slots[slot].mill.integ = integrate (BitVec.ofInt 80 (stageOne s slot w)) s.slots[slot].mill.integ ∧
        t.slots[slot].mill.comb = s.slots[slot].mill.comb ∧ t.slots[slot].mill.words = s.slots[slot].mill.words + 1 ∧
        t.slots[slot].mill.fir = s.slots[slot].mill.fir ∧ t.slots[slot].winT = w.t)

/-- 08 R209, R210, 07 R194, R198: a write of GR_CFG stores EN and an allowed rate code and waits for the next second boundary (a forbidden code is ignored with RATEREJ). From there an enabled slot, its bank active and markers due, yields a record
from the boundary on, and a rate change begins anew at the new code; a disabled slot stops once no record before the boundary is due any more, until which it waits.
Completes: grCfgWrite, grCfgApply. -/
def Obligations.SlotsEnableAndChangeRateAtSecondBoundaries : Prop :=
  (∀ (door : Initiator) (slot : Fin 16) (v : Word) (s : State),
      doorOpen s door (0x420 + 0x40 * slot.val) = true → grFastest slot.val ≤ getBits v 0 4 → getBits v 0 4 ≤ 10 →
      ∃ t, exec (.grCfgWrite door slot v) s = .next t ∧
        t.get (GR_CFG_EN slot) = getBits v 5 1 ∧ t.get (GR_CFG_RATE slot) = getBits v 0 4 ∧ t.slots[slot].pendCfg = some s.now ∧
        t.slots[slot].en = s.slots[slot].en ∧ t.slots[slot].rate = s.slots[slot].rate ∧
        { t with regs := s.regs, slots := s.slots, fresh := s.fresh } = s ∧ sameBut [GR_CFG_EN slot, GR_CFG_RATE slot] s t ∧
        (∀ j : Fin 16, j ≠ slot → t.slots[j] = s.slots[j])) ∧
  (∀ (door : Initiator) (slot : Fin 16) (v : Word) (s : State),
      doorOpen s door (0x420 + 0x40 * slot.val) = true → (getBits v 0 4 < grFastest slot.val ∨ 10 < getBits v 0 4) →
      ∃ t, exec (.grCfgWrite door slot v) s = .next t ∧
        t.get (GR_EVT_RATEREJ slot) = 1 ∧ t.get (GR_CFG_RATE slot) = s.get (GR_CFG_RATE slot) ∧ t.get (GR_CFG_EN slot) = getBits v 5 1 ∧
        { t with regs := s.regs, slots := s.slots, fresh := s.fresh } = s ∧ sameBut [GR_CFG_EN slot, GR_EVT_RATEREJ slot] s t) ∧
  (∀ (slot : Fin 16) (w S : Nat) (s : State),
      s.live = true → s.modes.stopped = false → 5 ≤ s.mode → s.slots[slot].pendCfg = some w → S = takesAt s w → boundaryTakes s w = true →
      changeReady s slot S = true → s.slots[slot].en = false → s.get (GR_CFG_EN slot) = 1 →
      ∃ t, exec (.grCfgApply slot) s = .next t ∧
        t.slots[slot].en = true ∧ t.slots[slot].rate = s.get (GR_CFG_RATE slot) ∧ t.slots[slot].pendCfg = none ∧ t.slots[slot].nextT = some S ∧
        t.slots[slot].queued = s.slots[slot].queued ∧
        ((slot.val ≤ 10 → t.get (ML_ST_STATE slot) = 1 ∧ t.slots[slot].trig = some S ∧ bankState t slot (t.get (ML_ST_ACT slot)) = 3)) ∧
        t.slots[slot].everEnabled = true ∧ (∀ j : Fin 16, j ≠ slot → t.slots[j] = s.slots[j]) ∧
        { t with regs := s.regs, slots := s.slots, aux := s.aux, cal := s.cal, axes := s.axes, an := s.an, net := s.net, tx := s.tx, free := s.free, flash := s.flash, deck := s.deck, blaze := s.blaze, bus := s.bus, recog := s.recog, fresh := s.fresh } = s ∧
        { t.flash with mseqRes := s.flash.mseqRes } = s.flash) ∧
  (∀ (slot : Fin 16) (w S : Nat) (s : State),
      s.live = true → s.modes.stopped = false → 5 ≤ s.mode → s.slots[slot].pendCfg = some w → S = takesAt s w → boundaryTakes s w = true →
      changeReady s slot S = true → s.slots[slot].en = true → s.get (GR_CFG_EN slot) = 0 →
      (s.slots[slot].nextT.all (fun u => decide (S ≤ u)) = true) →
      ∃ t, exec (.grCfgApply slot) s = .next t ∧
        t.slots[slot].en = false ∧ t.slots[slot].nextT = none ∧ t.slots[slot].lastT = none ∧ t.slots[slot].queued = s.slots[slot].queued ∧
        ((slot.val ≤ 10 → t.get (ML_ST_STATE slot) = 0 ∧ t.get (ML_ST_BST0 slot) = 0 ∧ t.get (ML_ST_BST1 slot) = 0)) ∧ t.slots[slot].pendCfg = none ∧
        t.slots[slot].chg = none ∧ (∀ j : Fin 16, j ≠ slot → t.slots[j] = s.slots[j]) ∧
        { t with regs := s.regs, slots := s.slots, aux := s.aux, cal := s.cal, axes := s.axes, an := s.an, net := s.net, tx := s.tx, free := s.free, flash := s.flash, deck := s.deck, blaze := s.blaze, bus := s.bus, recog := s.recog, fresh := s.fresh } = s ∧
        { t.flash with mseqRes := s.flash.mseqRes } = s.flash) ∧
  (∀ (slot : Fin 16) (w S u : Nat) (s : State),
      s.live = true → s.modes.stopped = false → 5 ≤ s.mode → s.slots[slot].pendCfg = some w → S = takesAt s w → boundaryTakes s w = true →
      changeReady s slot S = true → s.slots[slot].en = true → s.get (GR_CFG_EN slot) = 0 → s.slots[slot].nextT = some u → u < S →
      ∃ t, exec (.grCfgApply slot) s = .next t ∧
        t.slots[slot] = { s.slots[slot] with pendCfg := none, chg := some (S, false, s.slots[slot].rate) } ∧
        (∀ j : Fin 16, j ≠ slot → t.slots[j] = s.slots[j]) ∧ { t with slots := s.slots } = s) ∧
  (∀ (slot : Fin 16) (w S : Nat) (s : State),
      s.live = true → s.modes.stopped = false → 5 ≤ s.mode → s.slots[slot].pendCfg = some w → S = takesAt s w → boundaryTakes s w = true →
      changeReady s slot S = true → s.slots[slot].en = true → s.get (GR_CFG_EN slot) = 1 → s.slots[slot].rate ≠ s.get (GR_CFG_RATE slot) →
      s.slots[slot].nextT = some S → s.slots[slot].resume = false → s.get CAL_GST_RUNAX = 15 →
      ∃ t, exec (.grCfgApply slot) s = .next t ∧
        t.slots[slot].en = true ∧ t.slots[slot].rate = s.get (GR_CFG_RATE slot) ∧ t.slots[slot].pendCfg = none ∧ t.slots[slot].chg = none ∧
        t.slots[slot].nextT = some S ∧ t.slots[slot].queued = s.slots[slot].queued ∧
        ((slot.val ≤ 10 → t.get (ML_ST_STATE slot) = 1 ∧ t.slots[slot].trig = some S)) ∧ (∀ j : Fin 16, j ≠ slot → t.slots[j] = s.slots[j]) ∧
        { t with regs := s.regs, slots := s.slots, aux := s.aux, cal := s.cal, axes := s.axes, an := s.an, net := s.net, tx := s.tx, free := s.free, flash := s.flash, deck := s.deck, blaze := s.blaze, bus := s.bus, recog := s.recog, fresh := s.fresh } = s ∧
        { t.flash with mseqRes := s.flash.mseqRes } = s.flash)

/-- 07 R195 to R197: a bank write is taken only while the bank is stopped, else it sets LDREJ and counts. A swap of a running slot is refused for the first reason of R197's table and changes nothing else, or the incoming bank
warms up for its settling length; at the warm-up's end both banks fade, and at the fade's end the incoming bank is active and the outgoing one stopped.
Completes: millBankWrite, mlSwap, swapWarmupEnd, swapFadeEnd. -/
def Obligations.BankSwapsRunTheirCourse : Prop :=
  (∀ (door : Initiator) (addr : Nat) (v : Word) (k : Nat) (s : State),
      bankWord addr = some k → doorOpen s door addr = true → bankState s (k / 2) (k % 2) = 0 →
      ∃ t, exec (.millBankWrite door addr v) s = .next t ∧
        t.word addr = (s.word addr &&& ~~~(BitVec.ofNat 32 (accMask addr .rw))) ||| (v &&& BitVec.ofNat 32 (accMask addr .rw)) ∧
        onlyFields [wholeWord addr] s t) ∧
  (∀ (door : Initiator) (addr : Nat) (v : Word) (k : Nat) (s : State),
      bankWord addr = some k → doorOpen s door addr = true → bankState s (k / 2) (k % 2) ≠ 0 →
      ∃ t, exec (.millBankWrite door addr v) s = .next t ∧
        t.get (ML_EVT_LDREJ (k / 2)) = 1 ∧ t.get (ML_CNT_LDREJ (k / 2)) = min 255 (s.get (ML_CNT_LDREJ (k / 2)) + 1) ∧
        onlyFields [ML_EVT_LDREJ (k / 2), ML_CNT_LDREJ (k / 2)] s t) ∧
  (∀ (door : Initiator) (slot : Fin 11) (s : State),
      doorOpen s door (0x411 + 0x40 * slot.val) = true → (s.get (ML_ST_STATE slot) = 3 ∨ s.get (ML_ST_STATE slot) = 4) →
      ∃ t, exec (.mlSwap door slot) s = .next t ∧
        t.get (ML_ST_SWRES slot) = 2 ∧ t.get (ML_EVT_SWREF slot) = 1 ∧ t.get (ML_CNT_SWREF slot) = min 255 (s.get (ML_CNT_SWREF slot) + 1) ∧
        onlyFields [ML_ST_SWRES slot, ML_EVT_SWREF slot, ML_CNT_SWREF slot] s t) ∧
  (∀ (door : Initiator) (slot : Fin 11) (s : State),
      doorOpen s door (0x411 + 0x40 * slot.val) = true → s.get (ML_ST_STATE slot) ≠ 2 → s.get (ML_ST_STATE slot) ≠ 3 → s.get (ML_ST_STATE slot) ≠ 4 →
      ∃ t, exec (.mlSwap door slot) s = .next t ∧
        t.get (ML_ST_SWRES slot) = 3 ∧ onlyFields [ML_ST_SWRES slot, ML_EVT_SWREF slot, ML_CNT_SWREF slot] s t) ∧
  (∀ (door : Initiator) (slot : Fin 11) (k n d : Nat) (s : State),
      doorOpen s door (0x411 + 0x40 * slot.val) = true → s.get (ML_ST_STATE slot) = 2 → k = bankOf slot (1 - s.get (ML_ST_ACT slot)) →
      s.get (MB_HDR_SRC k) ≠ 3 → s.get (MB_HDR_NBQ k) = 0 → bankL s k s.slots[slot.val].rate = some n → n ≤ 1048575 →
      bankD s k s.slots[slot.val].rate = some d →
      ∃ t, exec (.mlSwap door slot) s = .next t ∧
        t.get (ML_ST_STATE slot) = 3 ∧ t.get (ML_SREM_REM slot) = n ∧ bankState t slot (1 - s.get (ML_ST_ACT slot)) = 1 ∧
        t.slots[slot.val] = { s.slots[slot.val] with inL := n, inD := d, mill := s.slots[slot.val].mill.begin (1 - s.get (ML_ST_ACT slot)) (2 ^ s.get (ML_CFG_FADEK slot)) } ∧
        t.get (ML_ST_ACT slot) = s.get (ML_ST_ACT slot) ∧ { t with regs := s.regs, slots := s.slots, fresh := s.fresh } = s ∧
        sameBut [ML_ST_STATE slot, ML_SREM_REM slot, ML_ST_BST0 slot, ML_ST_BST1 slot] s t) ∧
  (∀ (slot : Fin 11) (s : State),
      s.alive = true → s.get (ML_ST_STATE slot) = 3 → s.get (ML_SREM_REM slot) = 0 → swapRuns s slot.val = true →
      ∃ t, exec (.swapWarmupEnd slot) s = .next t ∧
        t.get (ML_ST_STATE slot) = 4 ∧ t.get (ML_ST_BST0 slot) = 2 ∧ t.get (ML_ST_BST1 slot) = 2 ∧
        onlyFields [ML_ST_STATE slot, ML_ST_BST0 slot, ML_ST_BST1 slot] s t) ∧
  (∀ (slot : Fin 11) (s : State),
      s.alive = true → s.get (ML_ST_STATE slot) = 4 → s.slots[slot.val].mill.fadeLen ≤ s.slots[slot.val].mill.fade → swapRuns s slot.val = true →
      ∃ t, exec (.swapFadeEnd slot) s = .next t ∧
        t.get (ML_ST_STATE slot) = 2 ∧ t.get (ML_ST_ACT slot) = 1 - s.get (ML_ST_ACT slot) ∧ bankState t slot (t.get (ML_ST_ACT slot)) = 3 ∧
        bankState t slot (s.get (ML_ST_ACT slot)) = 0 ∧ t.get (ML_ST_SWRES slot) = 1 ∧ t.get (ML_EVT_SWDONE slot) = 1 ∧
        { t with regs := s.regs, slots := s.slots, fresh := s.fresh } = s ∧
        sameBut [ML_ST_STATE slot, ML_ST_BST0 slot, ML_ST_BST1 slot, ML_ST_ACT slot, ML_ST_SWRES slot, ML_EVT_SWDONE slot, ML_SETL_LEN slot, ML_GD_NS slot] s t)

/-- 07 R183, R198 to R202: ML_CTL.SYNC on an enabled slot, ML_GCMD.SYNC and an uncorrectable state error are counted once in SYNCCNT, are suppression triggers that clear the slot's filter state, with markers due, and change no time base; a corrected error counts in ECCCNT.
The first sample after a trigger ends settling and clears RESTARTS and NEVER.
Completes: mlSlotSync, mlGlobalSync, millEccError, millEccCorrect, slotSettled. -/
def Obligations.SynchronisingResetsSuppress : Prop :=
  (∀ (door : Initiator) (slot : Fin 11) (s : State),
      doorOpen s door (0x411 + 0x40 * slot.val) = true → s.slots[slot.val].en = true → s.slots[slot.val].resume = false → s.get CAL_GST_RUNAX = 15 →
      ∃ t, exec (.mlSlotSync door slot) s = .next t ∧
        t.get (ML_ST_STATE slot) = 1 ∧ t.get ML_GST_SYNCCNT = min 65535 (s.get ML_GST_SYNCCNT + 1) ∧ t.slots[slot.val].trig = some s.now ∧
        t.slots[slot.val].mill = {} ∧ t.slots[slot.val].queued = s.slots[slot.val].queued ∧
        (∀ j : Fin 16, j.val ≠ slot.val → t.slots[j] = s.slots[j]) ∧
        { t with regs := s.regs, slots := s.slots, cal := s.cal, axes := s.axes, aux := s.aux, fresh := s.fresh } = s) ∧
  (∀ (door : Initiator) (slot : Fin 11) (s : State),
      doorOpen s door (0x411 + 0x40 * slot.val) = true → s.slots[slot.val].en = false →
      ∃ t, exec (.mlSlotSync door slot) s = .next t ∧
        t = s) ∧
  (∀ (door : Initiator) (s : State),
      doorOpen s door 0xB00 = true → s.get CAL_GST_RUNAX = 15 →
      ∃ t, exec (.mlGlobalSync door) s = .next t ∧
        t.get ML_GST_SYNCCNT = min 65535 (s.get ML_GST_SYNCCNT + 1) ∧
        (∀ i : Fin 11, s.slots[i.val].en = true → s.slots[i.val].resume = false → t.get (ML_ST_STATE i) = 1 ∧ t.slots[i.val].trig = some s.now ∧ t.slots[i.val].mill = {}) ∧
        (∀ j : Fin 16, t.slots[j].queued = s.slots[j].queued ∧ t.slots[j].nextT = s.slots[j].nextT) ∧
        { t with regs := s.regs, slots := s.slots, cal := s.cal, axes := s.axes, aux := s.aux, fresh := s.fresh } = s) ∧
  (∀ (slot : Fin 11) (s : State),
      s.alive = true → s.slots[slot.val].en = true → s.slots[slot.val].resume = false → s.get CAL_GST_RUNAX = 15 →
      ∃ t, exec (.millEccError slot) s = .next t ∧
        t.get (ML_ST_STATE slot) = 1 ∧ t.slots[slot.val].mill = {} ∧ t.get ML_GST_SYNCCNT = min 65535 (s.get ML_GST_SYNCCNT + 1) ∧
        t.get ML_GST_ECCCNT = s.get ML_GST_ECCCNT ∧ t.slots[slot.val].trig = some s.now ∧ (∀ j : Fin 16, j.val ≠ slot.val → t.slots[j] = s.slots[j]) ∧
        { t with regs := s.regs, slots := s.slots, cal := s.cal, axes := s.axes, aux := s.aux, fresh := s.fresh } = s) ∧
  (∀ (s : State),
      s.alive = true →
      ∃ t, exec (.millEccCorrect) s = .next t ∧
        t.get ML_GST_ECCCNT = min 255 (s.get ML_GST_ECCCNT + 1) ∧ onlyFields [ML_GST_ECCCNT] s t) ∧
  (∀ (slot : Fin 11) (s : State),
      s.alive = true → s.get (ML_ST_STATE slot) = 1 → s.slots[slot.val].sampled = true →
      ∃ t, exec (.slotSettled slot) s = .next t ∧
        t.get (ML_ST_STATE slot) = 2 ∧ t.get (ML_SREM_REM slot) = 0 ∧ t.get (ML_ST_RESTARTS slot) = 0 ∧ t.get (ML_ST_NEVER slot) = 0 ∧
        t.get (ML_EVT_SETTLED slot) = 1 ∧
        onlyFields [ML_ST_STATE slot, ML_SREM_REM slot, ML_ST_RESTARTS slot, ML_ST_NEVER slot, ML_EVT_SETTLED slot] s t)

/-- 09 R226, R228 to R233: an IDLE axis becomes PENDING at its retries and at CAL_CMD.RUN in SERVICE (outside it CMDREJ only); once per grid second the slope shown is the one of largest magnitude of the watched temperatures' means, deferral begins above 2 °C/min and ends after 30 calm
seconds; the lowest eligible PENDING axis starts its run.
Completes: calRetryTimer, calAbandonRetry, calSlopeUpdate, calRunStart, calRunCmd. -/
def Obligations.CalibrationRunsAreScheduled : Prop :=
  (∀ (axis : Fin 10) (s : State),
      s.alive = true → s.cal.axes[axis].retry = true → s.get (CAL_ST_STATE axis) = 0 →
      ∃ t, exec (.calRetryTimer axis) s = .next t ∧
        t.get (CAL_ST_STATE axis) = 1 ∧ t.cal.axes[axis].retry = false ∧ t.cal.axes[axis].nosl = false ∧
        { t with regs := s.regs, cal := s.cal, fresh := s.fresh } = s ∧ sameBut [CAL_ST_STATE axis] s t) ∧
  (∀ (axis : Fin 10) (s : State),
      s.alive = true → s.cal.axes[axis].aband = true → s.get (CAL_ST_STATE axis) = 4 →
      ∃ t, exec (.calAbandonRetry axis) s = .next t ∧
        t.get (CAL_ST_STATE axis) = 4 ∧ t.cal.axes[axis].aband = false ∧ { t with cal := s.cal } = s) ∧
  (∀ (axis : Fin 10) (s : State),
      s.alive = true → s.cal.axes[axis].aband = true → s.get (CAL_ST_STATE axis) = 0 →
      ∃ t, exec (.calAbandonRetry axis) s = .next t ∧
        t.get (CAL_ST_STATE axis) = 1 ∧ t.cal.axes[axis].aband = false ∧ { t with regs := s.regs, cal := s.cal, fresh := s.fresh } = s ∧
        sameBut [CAL_ST_STATE axis] s t) ∧
  (∀ (m : Int) (s : State),
      s.alive = true → m = worstSlope ((s.cal.means.map TempMean.second).toList.map TempMean.slope) → s.second ≠ s.cal.slopeSec → 51200 < absNat m →
      ∃ t, exec (.calSlopeUpdate) s = .next t ∧
        t.getI CAL_GST_SLOPE = clampInt (-32768) 32767 (roundEven m 256) ∧ t.cal.means = s.cal.means.map TempMean.second ∧ t.cal.slopeSec = s.second ∧
        t.get CAL_GST_DEFER = 1 ∧ t.cal.calm = 0 ∧ { t with regs := s.regs, cal := s.cal, fresh := s.fresh } = s ∧
        sameBut [CAL_GST_SLOPE, CAL_GST_DEFER] s t) ∧
  (∀ (m : Int) (s : State),
      s.alive = true → m = worstSlope ((s.cal.means.map TempMean.second).toList.map TempMean.slope) → s.second ≠ s.cal.slopeSec → absNat m ≤ 51200 →
      29 ≤ s.cal.calm →
      ∃ t, exec (.calSlopeUpdate) s = .next t ∧
        t.getI CAL_GST_SLOPE = clampInt (-32768) 32767 (roundEven m 256) ∧ t.cal.means = s.cal.means.map TempMean.second ∧ t.cal.slopeSec = s.second ∧
        t.get CAL_GST_DEFER = 0 ∧ t.cal.calm = s.cal.calm + 1 ∧ { t with regs := s.regs, cal := s.cal, fresh := s.fresh } = s ∧
        sameBut [CAL_GST_SLOPE, CAL_GST_DEFER] s t) ∧
  (∀ (m : Int) (s : State),
      s.alive = true → m = worstSlope ((s.cal.means.map TempMean.second).toList.map TempMean.slope) → s.second ≠ s.cal.slopeSec → absNat m ≤ 51200 →
      s.cal.calm < 29 →
      ∃ t, exec (.calSlopeUpdate) s = .next t ∧
        t.getI CAL_GST_SLOPE = clampInt (-32768) 32767 (roundEven m 256) ∧ t.cal.means = s.cal.means.map TempMean.second ∧ t.cal.slopeSec = s.second ∧
        t.get CAL_GST_DEFER = s.get CAL_GST_DEFER ∧ { t with regs := s.regs, cal := s.cal, fresh := s.fresh } = s ∧ sameBut [CAL_GST_SLOPE] s t) ∧
  (∀ (axis : Fin 10) (s : State),
      s.alive = true → nextRun s = some axis →
      ∃ t, exec (.calRunStart) s = .next t ∧
        t.get (CAL_ST_STATE axis) = 2 ∧ t.get CAL_GST_RUNAX = axis.val ∧ t.cal.phase = 1 ∧ t.cal.axes[axis].due = false ∧
        t.slots[axisSlot axis].holdFrom = some s.now ∧ t.slots[axisSlot axis].holdTo = none ∧ (t.get HK_ST_INJPEND).testBit 1 = true ∧
        { t with regs := s.regs, cal := s.cal, slots := s.slots, axes := s.axes, hk := s.hk, fresh := s.fresh } = s) ∧
  (∀ (door : Initiator) (mask : Nat) (axis : Fin 10) (s : State),
      doorOpen s door 0x1001 = true → s.mode = 9 → s.get SCAL_ST_BUSY = 0 → mask = 2 ^ axis.val →
      (s.get (CAL_ST_STATE axis) = 0 ∨ s.get (CAL_ST_STATE axis) = 4) →
      ∃ t, exec (.calRunCmd door mask) s = .next t ∧
        t.get (CAL_ST_STATE axis) = 1 ∧ t.cal.axes[axis].named = true ∧ t.cal.axes[axis].nosl = true ∧
        { t with regs := s.regs, cal := s.cal, fresh := s.fresh } = s ∧ sameBut [CAL_ST_STATE axis] s t) ∧
  (∀ (door : Initiator) (mask : Nat) (s : State),
      doorOpen s door 0x1001 = true → (s.mode ≠ 9 ∨ s.get SCAL_ST_BUSY = 1) →
      ∃ t, exec (.calRunCmd door mask) s = .next t ∧
        t.get CAL_EVT_CMDREJ = 1 ∧ onlyFields [CAL_EVT_CMDREJ] s t)

/-- 09 R235, R237, R240 to R242: a run whose results pass sets DONE, clears FAILS and slews; a failing run sets FAIL with its reason, keeps the corrections, and a third failure degrades the axis. A slew step moves each trim one
LSB toward its target; a class B step moves every trim one tap; a class B measurement stores targets limited to 2 to 61.
Completes: calRunEnd, calSlewStep, classbTapStep, calClassbCmd. -/
def Obligations.CalibrationRunsEndAndSlew : Prop :=
  (∀ (m : CalMeasure) (axis : Fin 10) (s : State),
      s.alive = true → runAxis s = some axis → runFailure s axis m = 0 → isG axis.val = false →
      ∃ t, exec (.calRunEnd m) s = .next t ∧
        t.get (CAL_ST_STATE axis) = 3 ∧ t.get (CAL_ST_FAILS axis) = 0 ∧ t.get CAL_EVT_DONE = 1 ∧ t.get CAL_GST_RUNAX = 15 ∧
        t.get (CAL_ST_RUNS axis) = min 255 (s.get (CAL_ST_RUNS axis) + 1) ∧ t.getI (CAL_OFS_DAC axis) = s.getI (CAL_OFS_DAC axis) ∧
        (t.cal.axes[axis].ofsDac, t.cal.axes[axis].ofsRes) = splitTrim (s.getI (CAL_OFS_DAC axis) * ofsLsb axis * 256 + s.getI (CAL_OFS_RES axis) + m.ofs) (ofsLsb axis * 256) ∧
        t.cal.axes[axis].gainDac = (splitTrim (s.getI (CAL_GAIN_DAC axis) * 2 ^ 26 + (s.getI (CAL_GAIN_RES axis) + runGain s axis m) * 10000) (2 ^ 26)).1 ∧
        t.slots[axisSlot axis].holdTo = some s.now ∧ t.cal.endedAt = some s.now ∧ t.cal.phase = 0 ∧
        { t with regs := s.regs, cal := s.cal, slots := s.slots, axes := s.axes, fresh := s.fresh } = s) ∧
  (∀ (m : CalMeasure) (axis : Fin 10) (why : Nat) (s : State),
      s.alive = true → runAxis s = some axis → runFailure s axis m = why → why ≠ 0 → s.get (CAL_ST_FAILS axis) < 2 → s.cal.axes[axis].due = false →
      ∃ t, exec (.calRunEnd m) s = .next t ∧
        t.get (CAL_ST_STATE axis) = 0 ∧ t.get (CAL_ST_FAILS axis) = s.get (CAL_ST_FAILS axis) + 1 ∧ t.get (CAL_ST_REASON axis) = why ∧
        t.get CAL_EVT_FAIL = 1 ∧ t.get CAL_GST_RUNAX = 15 ∧ t.cal.axes[axis].retry = true ∧
        { t with regs := s.regs, cal := s.cal, slots := s.slots, axes := s.axes, fresh := s.fresh } = s ∧
        sameBut [CAL_ST_STATE axis, CAL_ST_FAILS axis, CAL_ST_REASON axis, CAL_EVT_FAIL, CAL_GST_RUNAX] s t) ∧
  (∀ (m : CalMeasure) (axis : Fin 10) (why : Nat) (s : State),
      s.alive = true → runAxis s = some axis → runFailure s axis m = why → why ≠ 0 → s.get (CAL_ST_FAILS axis) = 2 →
      ∃ t, exec (.calRunEnd m) s = .next t ∧
        t.get (CAL_ST_STATE axis) = 4 ∧ t.get (CAL_ST_FAILS axis) = 3 ∧ t.get CAL_EVT_DEGR = 1 ∧ t.get CAL_EVT_FAIL = 1 ∧
        { t with regs := s.regs, cal := s.cal, slots := s.slots, axes := s.axes, fresh := s.fresh } = s ∧
        sameBut [CAL_ST_STATE axis, CAL_ST_FAILS axis, CAL_ST_REASON axis, CAL_EVT_FAIL, CAL_EVT_DEGR, CAL_GST_RUNAX] s t) ∧
  (∀ (axis : Fin 10) (s : State),
      s.alive = true → s.get (CAL_ST_STATE axis) = 3 → isG axis.val = false → -2048 < s.getI (CAL_OFS_DAC axis) → s.getI (CAL_OFS_DAC axis) < 2047 →
      -2048 < s.getI (CAL_GAIN_DAC axis) → s.getI (CAL_GAIN_DAC axis) < 2047 → s.cal.axes[axis].qTarget = none → axisAtTarget s axis = false →
      ∃ t, exec (.calSlewStep axis) s = .next t ∧
        t.getI (CAL_OFS_DAC axis) = stepToward (s.getI (CAL_OFS_DAC axis)) s.cal.axes[axis].ofsDac ∧
        t.getI (CAL_GAIN_DAC axis) = stepToward (s.getI (CAL_GAIN_DAC axis)) s.cal.axes[axis].gainDac ∧ t.cal.axes[axis].lastStep = s.now ∧
        (axisAtTarget t axis = true → t.get (CAL_ST_STATE axis) = (if s.cal.axes[axis].due then 1 else 0)) ∧
        (axisAtTarget t axis = false → t.get (CAL_ST_STATE axis) = 3) ∧ { t with regs := s.regs, cal := s.cal, fresh := s.fresh } = s ∧
        sameBut [CAL_OFS_DAC axis, CAL_OFS_RES axis, CAL_GAIN_DAC axis, CAL_GAIN_RES axis, CAL_ST_STATE axis] s t) ∧
  (∀ (s : State),
      s.alive = true → -2048 < s.getI CAL_DRV_DAC → s.getI CAL_DRV_DAC < 2047 → s.getI CAL_DRV_DAC ≠ s.cal.drvTarget →
      ∃ t, exec (.calSlewStep none) s = .next t ∧
        t.getI CAL_DRV_DAC = stepToward (s.getI CAL_DRV_DAC) s.cal.drvTarget ∧
        (∀ i : Fin 10, (6 ≤ i.val ∧ i.val < 9) → t.cal.axes[i].lastStep = s.now) ∧
        (∀ i : Fin 10, ¬ (6 ≤ i.val ∧ i.val < 9) → t.cal.axes[i] = s.cal.axes[i]) ∧ { t with regs := s.regs, cal := s.cal, fresh := s.fresh } = s ∧
        sameBut [CAL_DRV_DAC, CAL_ST_STATE 6, CAL_ST_STATE 7, CAL_ST_STATE 8] s t) ∧
  (∀ (s : State),
      s.alive = true → s.get TIME_ST_GUARD = 1 →
      ∃ t, exec (.classbTapStep) s = .next t ∧
        t.word 0x1041 = s.word 0x1041 ∧ onlyFields [CAL_STRB0, CAL_STRB1, CAL_AUXT, CAL_GST_BWALK] s t) ∧
  (∀ (s : State),
      s.alive = true → s.get TIME_ST_GUARD = 0 →
      ∃ t, exec (.classbTapStep) s = .next t ∧
        t.word 0x1041 = walkTaps (s.word 0x1041) portTapLo (portTargets s) ∧ t.word 0x1045 = walkTaps (s.word 0x1045) [8, 0] s.cal.auxTap ∧
        onlyFields [CAL_TAPS, CAL_STRB0, CAL_STRB1, CAL_AUXT, CAL_GST_BWALK] s t) ∧
  (∀ (door : Initiator) (m : ClassB) (s : State),
      doorOpen s door 0x1001 = true → s.mode = 9 → s.hk.temps[0] = none →
      ∃ t, exec (.calClassbCmd door m) s = .next t ∧
        t.get ⟨0x1042, 24, 6⟩ = limitTap (m.taps.getD 0 32) ∧ t.get ⟨0x1042, 0, 6⟩ = limitTap (m.taps.getD 3 32) ∧ t.cal.hadB = true ∧
        t.cal.auxTap = [limitTap (m.taps.getD 14 32), limitTap (m.taps.getD 15 32)] ∧ { t with regs := s.regs, cal := s.cal, fresh := s.fresh } = s ∧
        sameBut [CAL_TAPT, CAL_EVT_BLIMIT, CAL_GST_BWALK] s t) ∧
  (∀ (door : Initiator) (m : ClassB) (s : State),
      doorOpen s door 0x1001 = true → s.mode ≠ 9 →
      ∃ t, exec (.calClassbCmd door m) s = .next t ∧
        t.get CAL_EVT_CMDREJ = 1 ∧ onlyFields [CAL_EVT_CMDREJ] s t)

/-- 09 R244, R245: a snapshot copies the live store and its binding into the shadow; open lets the shadow be written; a commit is refused for R245's first reason, which changes nothing but its result, or makes the written trims the
targets, takes the reference temperatures and sets RSTOK; any commit and close end the view.
Completes: calSnapshot, calOpen, calCommit, calClose. -/
def Obligations.CalibrationStoreIsSavedAndRestored : Prop :=
  (∀ (door : Initiator) (s : State),
      doorOpen s door 0x1006 = true →
      ∃ t, exec (.calSnapshot door) s = .next t ∧
        t.get CAL_RSTST_VIEW = 1 ∧ t.cal = { s.cal with shadow := calStore s, bind := calBind (s.word 0x1004) (s.word 0x1005) (calStore s) } ∧
        { t with regs := s.regs, cal := s.cal, fresh := s.fresh } = s ∧ sameBut [CAL_RSTST_VIEW] s t) ∧
  (∀ (door : Initiator) (s : State),
      doorOpen s door 0x1006 = true →
      ∃ t, exec (.calOpen door) s = .next t ∧
        t.get CAL_RSTST_VIEW = 2 ∧ onlyFields [CAL_RSTST_VIEW] s t) ∧
  (∀ (door : Initiator) (why : Nat) (s : State),
      doorOpen s door 0x1006 = true → commitRefusal s = why → why ≠ 0 → why < 256 →
      ∃ t, exec (.calCommit door) s = .next t ∧
        t.get CAL_RSTST_RES = why ∧ t.get CAL_RSTST_VIEW = 0 ∧ t.get CAL_EVT_RSTREJ = 1 ∧
        onlyFields [CAL_RSTST_RES, CAL_RSTST_VIEW, CAL_EVT_RSTREJ] s t) ∧
  (∀ (door : Initiator) (s : State),
      doorOpen s door 0x1006 = true → commitRefusal s = 0 →
      ∃ t, exec (.calCommit door) s = .next t ∧
        t.get CAL_RSTST_RES = 0 ∧ t.get CAL_RSTST_VIEW = 0 ∧ t.get CAL_EVT_RSTOK = 1 ∧
        (∀ i : Fin 10, t.cal.axes[i].ofsDac = shadowField s (CAL_OFS_DAC i) ∧ t.get (CAL_ST_FAILS i) = 0 ∧ t.getI (CAL_TREF_TREF i) = shadowField s (CAL_TREF_TREF i) ∧ t.get (CAL_ST_STATE i) = (if s.get (CAL_ST_STATE i) = 1 ∨ s.cal.axes[i].due = true then 1 else 0)) ∧
        (∀ i : Fin 10, t.cal.axes[i].gainDac = shadowField s (CAL_GAIN_DAC i) ∧ t.cal.axes[i].ofsRes = shadowField s (CAL_OFS_RES i) ∧ t.cal.axes[i].due = false ∧ t.getI (CAL_OFS_DAC i) = s.getI (CAL_OFS_DAC i)) ∧
        t.cal.drvTarget = shadowField s CAL_DRV_DAC ∧ t.getI CAL_TREFB_TREF = shadowField s CAL_TREFB_TREF ∧
        { t with regs := s.regs, cal := s.cal, fresh := s.fresh } = s) ∧
  (∀ (door : Initiator) (s : State),
      doorOpen s door 0x1006 = true →
      ∃ t, exec (.calClose door) s = .next t ∧
        t.get CAL_RSTST_VIEW = 0 ∧ onlyFields [CAL_RSTST_VIEW] s t)

/-- 10 R256, R259 to R261, R266 to R268: a full block in flight joins its ring and a free block takes its place. A Blaze routed to an enabled definition that it matches is evaluated once; a trigger is admitted or refused for R260's first reason, which shows in REF, sets CAPREF, counts, and changes nothing else.
A collecting capture is held at its window's end; a held one that is not leased is released to free; DK_CAP words are stored, PRE and POST only up to 600.
Completes: deckBlockClose, captureTrigger, captureTrigCmd, captureReleaseCmd, captureWindowEnd, dkCapWrite. -/
def Obligations.DeckBlocksCaptureAndRelease : Prop :=
  (∀ (slot : Fin 16) (b : Block) (s : State),
      s.alive = true → s.deck.rings[slot].flight = some b → 1024 ≤ b.n → collectingOn s slot = [] → deckReserved s = 0 → 0 < deckFree s →
      s.deck.rings[slot].held.length + 2 ≤ s.deck.rings[slot].size →
      ∃ t, exec (.deckBlockClose slot) s = .next t ∧
        t.deck.rings[slot].held = s.deck.rings[slot].held ++ [b] ∧ t.deck.rings[slot].closed = s.deck.rings[slot].closed + 1 ∧
        t.deck.rings[slot].flight = some { idx := s.takeBlock.1 } ∧ t.deck.free = s.takeBlock.2.deck.free ∧ t.deck.chunks = s.deck.chunks ∧
        t.deck.caps = s.deck.caps ∧ { t with regs := s.regs, deck := s.deck, free := s.free, fresh := s.fresh } = s ∧
        sameBut [DK_RING_BLOCKS slot, DK_ACC_FREE, DK_ACC_HELD, DK_ACC_FLIGHT] s t) ∧
  (∀ (c : Fin 16) (p : Nat × Blaze) (why : Nat) (s : State),
      s.live = true → (s.blaze.caps.find? (fun x => x.1 == c.val) = some p) → s.get (DK_CAP_EN c) = 1 → capRefusal s c p.2.t = why → why ≠ 0 →
      why < 8 →
      ∃ t, exec (.captureTrigger c) s = .next t ∧
        t.get (DK_CAP_REF c) = why ∧ t.get DK_EVT_CAPREF = 1 ∧ t.get DK_CNT_CAPREF = min 255 (s.get DK_CNT_CAPREF + 1) ∧
        t.blaze = { s.blaze with caps := s.blaze.caps.erase p } ∧ { t with regs := s.regs, blaze := s.blaze, fresh := s.fresh } = s ∧
        sameBut [DK_CAP_REF c, DK_EVT_CAPREF, DK_CNT_CAPREF] s t) ∧
  (∀ (c : Fin 16) (p : Nat × Blaze) (s : State),
      s.live = true → (s.blaze.caps.find? (fun x => x.1 == c.val) = some p) → s.get (DK_CAP_EN c) = 1 → capRefusal s c p.2.t = 0 →
      s.get (DK_CAP_STATE c) = 0 → s.get (DK_CAP_SLOTS c) = 0 →
      ∃ t, exec (.captureTrigger c) s = .next t ∧
        t.get (DK_CAP_STATE c) = 2 ∧ t.get DK_EVT_CAPDONE = 1 ∧ t.get (DK_CAP_REF c) = s.get (DK_CAP_REF c) ∧ t.get (DK_CAP_BLOCKS c) = 0 ∧
        t.deck.caps[c].tb = p.2.t ∧ t.deck.caps[c].lastTrig = some p.2.t ∧ t.deck.rings = s.deck.rings ∧ t.deck.chunks = s.deck.chunks ∧
        t.deck.leases = s.deck.leases ∧ t.blaze = { s.blaze with caps := s.blaze.caps.erase p } ∧
        { t with regs := s.regs, deck := s.deck, blaze := s.blaze, fresh := s.fresh } = s) ∧
  (∀ (c : Fin 16) (p : Nat × Blaze) (s : State),
      s.live = true → (s.blaze.caps.find? (fun x => x.1 == c.val) = some p) → s.get (DK_CAP_EN c) = 0 →
      ∃ t, exec (.captureTrigger c) s = .next t ∧
        t = { s with blaze := { s.blaze with caps := s.blaze.caps.erase p } }) ∧
  (∀ (door : Initiator) (c : Fin 16) (why : Nat) (s : State),
      doorOpen s door 0x1136 = true → s.get (DK_CAP_EN c) = 1 → capRefusal s c s.now = why → why ≠ 0 → why < 8 →
      ∃ t, exec (.captureTrigCmd door c) s = .next t ∧
        t.get (DK_CAP_REF c) = why ∧ t.get DK_EVT_CAPREF = 1 ∧ onlyFields [DK_CAP_REF c, DK_EVT_CAPREF, DK_CNT_CAPREF] s t) ∧
  (∀ (door : Initiator) (c : Fin 16) (s : State),
      doorOpen s door 0x1136 = true → s.get (DK_CAP_EN c) = 1 → capRefusal s c s.now = 0 → s.get (DK_CAP_STATE c) = 0 → 0 < s.get (DK_CAP_SLOTS c) →
      ∃ t, exec (.captureTrigCmd door c) s = .next t ∧
        t.get (DK_CAP_STATE c) = 1 ∧ t.deck.caps[c].waitT = true ∧ t.deck.caps[c].reserve = capNeed s c ∧ t.deck.caps[c].lastTrig = some s.now ∧
        { t with regs := s.regs, deck := s.deck, fresh := s.fresh } = s ∧ sameBut [DK_CAP_STATE c, DK_CAP_SHORT c, DK_CAP_STEP c] s t) ∧
  (∀ (door : Initiator) (c : Fin 16) (s : State),
      doorOpen s door 0x1136 = true → s.get (DK_CAP_STATE c) = 2 →
      ∃ t, exec (.captureReleaseCmd door c) s = .next t ∧
        t.get (DK_CAP_STATE c) = 0 ∧ t.deck.caps[c].blocks = [] ∧ (t.deck.free = (s.deck.caps[c].blocks.map fun p => (p.2.idx, 1)) ++ s.deck.free) ∧
        t.get (DK_CAP_BLOCKS c) = 0 ∧ { t with regs := s.regs, deck := s.deck, fresh := s.fresh } = s ∧
        sameBut [DK_CAP_STATE c, DK_CAP_BLOCKS c, DK_ACC_FREE, DK_ACC_HELD, DK_ACC_FLIGHT] s t) ∧
  (∀ (door : Initiator) (c : Fin 16) (s : State),
      doorOpen s door 0x1136 = true → s.get (DK_CAP_STATE c) ≠ 2 →
      ∃ t, exec (.captureReleaseCmd door c) s = .next t ∧
        t = s) ∧
  (∀ (c i : Fin 16) (s : State),
      s.alive = true → s.get (DK_CAP_STATE c) = 1 → s.deck.caps[c].waitT = false → s.deck.caps[c].slots = [i.val] → s.deck.caps[c].mask = 2 ^ i.val →
      windowOver s c i = true → s.deck.rings[i].flight = none →
      ∃ t, exec (.captureWindowEnd c) s = .next t ∧
        t.get (DK_CAP_STATE c) = 2 ∧ t.get DK_EVT_CAPDONE = 1 ∧ t.deck.caps[c] = { s.deck.caps[c] with slots := [], reserve := 0 } ∧
        (∀ d : Fin 16, d ≠ c → t.deck.caps[d] = s.deck.caps[d]) ∧ t.deck.rings = s.deck.rings ∧ t.deck.free = s.deck.free ∧
        { t with regs := s.regs, deck := s.deck, fresh := s.fresh } = s ∧
        sameBut [DK_CAP_STATE c, DK_CAP_BLOCKS c, DK_EVT_CAPDONE, DK_ACC_FREE, DK_ACC_HELD, DK_ACC_FLIGHT] s t) ∧
  (∀ (c i : Fin 16) (b : Block) (s : State),
      s.alive = true → s.get (DK_CAP_STATE c) = 1 → s.deck.caps[c].waitT = false → s.deck.caps[c].slots = [i.val] → s.deck.caps[c].mask = 2 ^ i.val →
      windowOver s c i = true → s.deck.rings[i].flight = some b → blockInside b s.deck.caps[c].from_ s.deck.caps[c].to_ = true →
      collectingOn s i = [c] → 0 < s.deck.caps[c].reserve → 0 < deckFree s → s.deck.rings[i].held.length + 1 ≤ s.deck.rings[i].size →
      ∃ t, exec (.captureWindowEnd c) s = .next t ∧
        t.get (DK_CAP_STATE c) = 2 ∧ t.get DK_EVT_CAPDONE = 1 ∧
        t.deck.caps[c] = { s.deck.caps[c] with slots := [], reserve := 0, blocks := s.deck.caps[c].blocks ++ [(i.val, b)] } ∧
        t.deck.rings[i].held = s.deck.rings[i].held ∧ t.deck.rings[i].closed = s.deck.rings[i].closed + 1 ∧
        t.deck.rings[i].flight = some { idx := s.takeBlock.1 } ∧ t.deck.free = s.takeBlock.2.deck.free ∧
        { t with regs := s.regs, deck := s.deck, free := s.free, fresh := s.fresh } = s ∧
        sameBut [DK_CAP_STATE c, DK_CAP_BLOCKS c, DK_RING_BLOCKS i, DK_EVT_CAPDONE, DK_ACC_FREE, DK_ACC_HELD, DK_ACC_FLIGHT] s t) ∧
  (∀ (door : Initiator) (c : Fin 16) (w : Fin 3) (v : Word) (s : State),
      doorOpen s door (0x1140 + 4 * c.val + w.val) = true → w.val = 2 → s.get (DK_CAP_STATE c) ≠ 1 →
      ∃ t, exec (.dkCapWrite door c w v) s = .next t ∧
        t.get (DK_CAP_HOLDOFF c) = getBits v 0 12 ∧
        (t.get (DK_CAP_PRE c) = (if getBits v 22 10 ≤ 600 then getBits v 22 10 else s.get (DK_CAP_PRE c))) ∧
        (t.get (DK_CAP_POST c) = (if getBits v 12 10 ≤ 600 then getBits v 12 10 else s.get (DK_CAP_POST c))) ∧
        onlyFields [wholeWord (0x1142 + 4 * c.val)] s t) ∧
  (∀ (door : Initiator) (c : Fin 16) (w : Fin 3) (v : Word) (s : State),
      doorOpen s door (0x1140 + 4 * c.val + w.val) = true → w.val = 0 → s.get (DK_CAP_STATE c) ≠ 1 →
      ∃ t, exec (.dkCapWrite door c w v) s = .next t ∧
        t.word (0x1140 + 4 * c.val) = v &&& 0xFFFFE000 ∧ onlyFields [wholeWord (0x1140 + 4 * c.val)] s t)

/-- 10 R262, R263: a lease takes the lowest free entry while WORK is on and no power-down is requested, 200 ms for a processor, over a held capture, which it marks leased, or the span of a ring's held blocks that holds the SSNs named; without an entry the request only counts in LSREF. A holder renews its lease to the full time by a call or by reading a leased block, and a read returns the records the lease covers. As ms pass each entry's
remaining time falls, and one that expires is cleared and counts as revoked.
Completes: leaseRequest, leaseScan. -/
def Obligations.LeasesAreGrantedRevokedAndCounted : Prop :=
  (∀ (c : Fin 16) (l : Fin 32) (s : State),
      s.alive = true → s.get (DK_CAP_STATE c) = 2 → takeLease s = some l →
      ∃ t, exec (.leaseRequest .ana0 (.capture c)) s = .next t ∧
        t.get (LS_KIND l) = 1 ∧ t.get (LS_HOLDER l) = 0 ∧ t.get (LS_TGT l) = 0 ∧ t.get (LS_IDX l) = c.val ∧ t.get (LS_REMMS l) = 200 ∧
        t.get (DK_CAP_STATE c) = 3 ∧ t.deck.leases[l] = { total := captureRecords s.deck.caps[c] } ∧
        { t with regs := s.regs, deck := s.deck, fresh := s.fresh } = s ∧ { t.deck with leases := s.deck.leases } = s.deck ∧
        sameBut [wholeWord (0x1180 + l.val), DK_CAP_STATE c] s t) ∧
  (∀ (i : Fin 16) (l : Fin 32) (first last : Nat) (a z : Block) (bs : List Block) (s : State),
      s.alive = true → takeLease s = some l → spanBlocks s i first last = a :: bs → (a :: bs).getLast? = some z →
      ∃ t, exec (.leaseRequest .ana1 (.span i first last)) s = .next t ∧
        t.get (LS_KIND l) = 1 ∧ t.get (LS_HOLDER l) = 1 ∧ t.get (LS_TGT l) = 1 ∧ t.get (LS_IDX l) = i.val ∧ t.get (LS_REMMS l) = 200 ∧
        t.deck.leases[l] = { first := a.ssn, last := z.ssn, total := ((a :: bs).map (·.n)).sum } ∧
        { t with regs := s.regs, deck := s.deck, fresh := s.fresh } = s ∧ { t.deck with leases := s.deck.leases } = s.deck ∧
        sameBut [wholeWord (0x1180 + l.val)] s t) ∧
  (∀ (holder : Proc) (i : Fin 16) (first last : Nat) (s : State),
      s.alive = true → leaseAllowed s holder = true → takeLease s = none →
      ∃ t, exec (.leaseRequest holder (.span i first last)) s = .next t ∧
        t.get DK_CNT_LSREF = min 255 (s.get DK_CNT_LSREF + 1) ∧ onlyFields [DK_CNT_LSREF] s t) ∧
  (∀ (holder : Proc) (l : Fin 32) (s : State),
      s.alive = true → leaseAllowed s holder = true → holdsLease s l (holderCode holder) = true → s.deck.leases[l].cap = none →
      ∃ t, exec (.leaseRequest holder (.renew l)) s = .next t ∧
        t.get (LS_REMMS l) = 200 ∧ onlyFields [LS_REMMS l] s t) ∧
  (∀ (holder : Proc) (l : Fin 32) (i : Fin 16) (first n : Nat) (s : State),
      s.alive = true → leaseAllowed s holder = true → holdsLease s l (holderCode holder) = true → s.deck.leases[l].cap = none →
      ∃ t, exec (.leaseRequest holder (.read l i first n)) s = .next t ∧
        t.bus.burst = leasedRecords s l i.val first n ∧ t.bus.reply = (leasedRecords s l i.val first n).getLastD 0 ∧ t.get (LS_REMMS l) = 200 ∧
        t.deck.leases[l].seen = (i.val, first, first + n) :: s.deck.leases[l].seen ∧
        { t.bus with reply := s.bus.reply, burst := s.bus.burst } = s.bus ∧ { t.deck with leases := s.deck.leases } = s.deck ∧
        { t with regs := s.regs, deck := s.deck, bus := s.bus, fresh := s.fresh } = s ∧ sameBut [LS_REMMS l] s t) ∧
  (∀ (ms : Nat) (s : State),
      s.alive = true →
      ∃ t, exec (.leaseScan ms) s = .next t ∧
        (∀ l : Fin 32, s.get (LS_KIND l) = 0 → t.word (0x1180 + l.val) = s.word (0x1180 + l.val)) ∧
        (∀ l : Fin 32, s.get (LS_KIND l) ≠ 0 → ms < s.get (LS_REMMS l) → t.get (LS_REMMS l) = s.get (LS_REMMS l) - ms ∧ t.get (LS_KIND l) = s.get (LS_KIND l)) ∧
        (∀ l : Fin 32, s.get (LS_KIND l) ≠ 0 → s.get (LS_REMMS l) ≤ ms → t.word (0x1180 + l.val) = 0) ∧ (∀ a : Fin 0x300, t.word a = s.word a) ∧
        { t with regs := s.regs, deck := s.deck, net := s.net, tx := s.tx, flash := s.flash, bus := s.bus, fresh := s.fresh } = s ∧
        { t.flash with mseqRes := s.flash.mseqRes } = s.flash ∧ { t.bus with pulses := s.bus.pulses } = s.bus)

/-- 11 R270 to R276: each recogniser reads the oldest records the Landing delivered to it. A used sample at the threshold begins an episode; records of two rate codes set CFGERR and the recogniser is idle; a marker ends what is open. A sample at the level on an armed stroke recogniser counts one stroke; a marker disarms it.
A free-fall condition that has lasted its duration sets ACTIVE, counts and sets its event.
Completes: impactRecord, strokeRecord, freefallRecord. -/
def Obligations.RecognisersFollowTheirRecords : Prop :=
  (∀ (r : GridRec) (rest : List GridRec) (s : State),
      recogOn s = true → s.get RC_IMP_CFG_EN = 1 → s.get RC_IMP_CFG_AXES = 1 → s.recog.impIn[0] = r :: rest → s.recog.ep = none →
      s.recog.first = none → r.used = true → s.get RC_IMP_CFG_THR ≤ absNat r.rcd.value →
      ∃ t, exec (.impactRecord) s = .next t ∧
        t.recog = { s.recog with ep := some ⟨r.t, r.ssn, 0, r.t, r.ssn, absNat r.rcd.value, r.rcd.ovr⟩, impIn := s.recog.impIn.set 0 rest } ∧
        t.get RC_IMP_ST_STATE = 1 ∧ { t with regs := s.regs, recog := s.recog, engines := s.engines, fresh := s.fresh } = s ∧
        sameBut [RC_IMP_ST_STATE] s t) ∧
  (∀ (s : State),
      recogOn s = true → s.get RC_IMP_CFG_EN = 1 → nextRecs (impWaiting s) ≠ [] → oneRate (impWaiting s) = false → s.recog.ep = none →
      s.recog.first = none →
      ∃ t, exec (.impactRecord) s = .next t ∧
        t.get RC_EVT_CFGERR = 1 ∧ t.get RC_IMP_ST_STATE = 0 ∧
        (t.recog = { s.recog with impIn := Vector.ofFn fun k => afterRead (nextRecs (impWaiting s)) k.val s.recog.impIn[k] }) ∧
        { t with regs := s.regs, recog := s.recog, engines := s.engines, fresh := s.fresh } = s ∧ sameBut [RC_EVT_CFGERR, RC_IMP_ST_STATE] s t) ∧
  (∀ (r : GridRec) (rest : List GridRec) (s : State),
      recogOn s = true → s.get RC_STK_CFG_EN = 1 → s.recog.stkIn = r :: rest → s.get RC_STK_CFG_EACH = 0 → r.used = true → s.recog.armed = true →
      s.getI RC_STK_LVL_LEVEL ≤ r.rcd.value → s.recog.stopFrom = none → s.recog.lastStroke = none → 0 < s.get RC_STK_STOP_STOPMS →
      s.get RC_STK_ST_STATE ≠ 3 →
      ∃ t, exec (.strokeRecord) s = .next t ∧
        t.get RC_STK_COUNT = (s.get RC_STK_COUNT + 1) % 2 ^ 32 ∧
        t.recog = { s.recog with armed := false, lastStroke := some r.t, stopFrom := some r.t, stkIn := rest } ∧
        { t with regs := s.regs, recog := s.recog, engines := s.engines, fresh := s.fresh } = s ∧ sameBut [RC_STK_COUNT] s t) ∧
  (∀ (r : GridRec) (rest : List GridRec) (s : State),
      recogOn s = true → s.get RC_STK_CFG_EN = 1 → s.recog.stkIn = r :: rest → r.rcd.kind = .timeStep →
      ∃ t, exec (.strokeRecord) s = .next t ∧
        t.recog = { s.recog with armed := false, lastStroke := none, stopFrom := none, stkIn := rest } ∧ { t with recog := s.recog } = s) ∧
  (∀ (x y z : GridRec) (xs ys zs : List GridRec) (a n : Nat) (s : State),
      recogOn s = true → s.get RC_FF_CFG_EN = 1 → oneRate (ffWaiting s) = true → s.recog.ffIn[0] = x :: xs → s.recog.ffIn[1] = y :: ys →
      s.recog.ffIn[2] = z :: zs → x.t = z.t → y.t = z.t → x.used = true → y.used = true → z.used = true → absNat x.rcd.value < s.get RC_FF_CFG_THR →
      absNat y.rcd.value < s.get RC_FF_CFG_THR → absNat z.rcd.value < s.get RC_FF_CFG_THR → s.recog.ffStart = some (a, n) →
      a + s.get RC_FF_TIM_DUR * 8000000 ≤ z.t → s.get RC_FF_ST_ACTIVE = 0 →
      ∃ t, exec (.freefallRecord) s = .next t ∧
        t.get RC_FF_ST_ACTIVE = 1 ∧ t.get RC_FF_ST_CNT = min 255 (s.get RC_FF_ST_CNT + 1) ∧ t.get RC_EVT_FFALL = 1 ∧ t.recog.ffStart = some (a, n) ∧
        t.recog.ffIn = #v[xs, ys, zs] ∧ t.keys = s.keys ∧ t.flash = s.flash ∧ t.tally = s.tally ∧ t.deck = s.deck) ∧
  (∀ (x y z : GridRec) (xs ys zs : List GridRec) (s : State),
      recogOn s = true → s.get RC_FF_CFG_EN = 1 → oneRate (ffWaiting s) = true → s.recog.ffIn[0] = x :: xs → s.recog.ffIn[1] = y :: ys →
      s.recog.ffIn[2] = z :: zs → x.rcd.kind = .timeStep → y.rcd.kind = .timeStep → z.rcd.kind = .timeStep →
      ∃ t, exec (.freefallRecord) s = .next t ∧
        t.recog = { s.recog with ffStart := none, ffPeak := 0, ffOvr := false, ffFail := none, ffIn := #v[xs, ys, zs] } ∧
        { t with recog := s.recog } = s)

/-- 11 R280, R282 to R286, 14 R361: a write stores a recogniser setting's RW bits and discards what is open; POP removes the oldest FIFO entry; own Blazes leave in messages of up to 16 on both ports; the Blazes of an accepted peer message are taken in order: of an
unsubscribed station ignored, a duplicate counted, a station's first put into the reorder stage or, when late, counted and delivered with ORD; the first of the reorder stage is delivered, when due, to the FIFO where peers are routed there.
Completes: rcImpWrite, rcStkWrite, rcFfWrite, bzPop, blazeMessageSend, blazeMessageReceive, peerBlazeDeliver. -/
def Obligations.RecogniserSettingsAndTheBlazeFifo : Prop :=
  (∀ (door : Initiator) (w : Fin 3) (v : Word) (s : State),
      doorOpen s door (0x1200 + w.val) = true → (w.val ≠ 1 ∨ getBits v 0 16 ≠ 0) → s.recog.first = none →
      ∃ t, exec (.rcImpWrite door w v) s = .next t ∧
        t.word (0x1200 + w.val) = (s.word (0x1200 + w.val) &&& ~~~(BitVec.ofNat 32 (accMask (0x1200 + w.val) .rw))) ||| (v &&& BitVec.ofNat 32 (accMask (0x1200 + w.val) .rw)) ∧
        (t.recog = { s.recog with ep := none, impIn := Vector.ofFn fun k => if t.bit RC_IMP_CFG_EN && (t.get RC_IMP_CFG_AXES).testBit k.val then s.recog.impIn[k] else [] }) ∧
        t.get RC_IMP_ST_STATE = 0 ∧ { t with regs := s.regs, recog := s.recog, engines := s.engines, fresh := s.fresh } = s ∧
        sameBut [wholeWord (0x1200 + w.val), RC_IMP_ST_STATE] s t) ∧
  (∀ (door : Initiator) (w : Fin 3) (v : Word) (s : State),
      doorOpen s door (0x1200 + w.val) = true → w.val = 1 → getBits v 0 16 = 0 → s.recog.first = none →
      ∃ t, exec (.rcImpWrite door w v) s = .next t ∧
        t.get RC_IMP_TIM_DUR = getBits v 16 16 ∧ t.recog.ep = none ∧ t.get RC_IMP_ST_STATE = 0 ∧
        { t.recog with ep := s.recog.ep, impIn := s.recog.impIn } = s.recog ∧
        { t with regs := s.regs, recog := s.recog, engines := s.engines, fresh := s.fresh } = s ∧ sameBut [RC_IMP_TIM_DUR, RC_IMP_ST_STATE] s t) ∧
  (∀ (door : Initiator) (w : Fin 4) (v : Word) (s : State),
      doorOpen s door (0x1208 + w.val) = true → (w.val = 1 ∨ w.val = 2 ∨ (w.val = 3 ∧ getBits v 0 16 ≠ 0)) →
      ∃ t, exec (.rcStkWrite door w v) s = .next t ∧
        t.word (0x1208 + w.val) = (s.word (0x1208 + w.val) &&& ~~~(BitVec.ofNat 32 (accMask (0x1208 + w.val) .rw))) ||| (v &&& BitVec.ofNat 32 (accMask (0x1208 + w.val) .rw)) ∧
        onlyFields [wholeWord (0x1208 + w.val)] s t) ∧
  (∀ (door : Initiator) (w : Fin 4) (v : Word) (s : State),
      doorOpen s door (0x1208 + w.val) = true → w.val = 3 → getBits v 0 16 = 0 →
      ∃ t, exec (.rcStkWrite door w v) s = .next t ∧
        t = s) ∧
  (∀ (door : Initiator) (w : Fin 4) (v : Word) (s : State),
      doorOpen s door (0x1208 + w.val) = true → w.val = 0 → getBits v 31 1 = 1 → s.get RC_STK_CFG_EN = 0 → recogOn s = true →
      ∃ t, exec (.rcStkWrite door w v) s = .next t ∧
        t.get RC_STK_CFG_EN = 1 ∧ t.get RC_STK_CFG_EACH = getBits v 30 1 ∧ t.get RC_STK_CFG_SEV = getBits v 24 4 ∧
        (t.get RC_STK_CFG_SLOT = (if getBits v 20 4 ≤ 10 then getBits v 20 4 else s.get RC_STK_CFG_SLOT)) ∧
        (t.get RC_STK_CFG_TOL = (if 1 ≤ getBits v 12 8 ∧ getBits v 12 8 ≤ 100 then getBits v 12 8 else s.get RC_STK_CFG_TOL)) ∧
        t.get RC_STK_ST_STATE = 1 ∧
        t.recog = { s.recog with armed := false, lastStroke := none, learn := [], mean := 0, stopFrom := none, stkIn := [] } ∧
        { t with regs := s.regs, recog := s.recog, fresh := s.fresh } = s ∧ sameBut [wholeWord 0x1208, RC_STK_ST_STATE, RC_STK_PER_MEAN] s t) ∧
  (∀ (door : Initiator) (w : Fin 2) (v : Word) (s : State),
      doorOpen s door (0x1210 + w.val) = true → (w.val = 0 ∨ getBits v 0 16 ≠ 0) → (w.val = 0 → getBits v 31 1 = 1) → s.get RC_FF_CFG_EN = 1 →
      ∃ t, exec (.rcFfWrite door w v) s = .next t ∧
        t.word (0x1210 + w.val) = (s.word (0x1210 + w.val) &&& ~~~(BitVec.ofNat 32 (accMask (0x1210 + w.val) .rw))) ||| (v &&& BitVec.ofNat 32 (accMask (0x1210 + w.val) .rw)) ∧
        t.recog = { s.recog with ffStart := none, ffPeak := 0, ffOvr := false } ∧ { t with regs := s.regs, recog := s.recog, fresh := s.fresh } = s ∧
        sameBut [wholeWord (0x1210 + w.val)] s t) ∧
  (∀ (door : Initiator) (w : Fin 2) (v : Word) (s : State),
      doorOpen s door (0x1210 + w.val) = true → w.val = 0 → getBits v 31 1 = 0 → s.get RC_FF_ST_ACTIVE = 0 →
      ∃ t, exec (.rcFfWrite door w v) s = .next t ∧
        t.word (0x1210 + w.val) = (s.word (0x1210 + w.val) &&& ~~~(BitVec.ofNat 32 (accMask (0x1210 + w.val) .rw))) ||| (v &&& BitVec.ofNat 32 (accMask (0x1210 + w.val) .rw)) ∧
        t.recog = { s.recog with ffStart := none, ffPeak := 0, ffOvr := false, ffFail := none, ffIn := Vector.replicate 3 [] } ∧
        { t with regs := s.regs, recog := s.recog, fresh := s.fresh } = s ∧ sameBut [wholeWord (0x1210 + w.val)] s t) ∧
  (∀ (door : Initiator) (w : Fin 2) (v : Word) (s : State),
      doorOpen s door (0x1210 + w.val) = true → w.val = 1 → getBits v 0 16 = 0 → s.get RC_FF_CFG_EN = 1 →
      ∃ t, exec (.rcFfWrite door w v) s = .next t ∧
        t.recog = { s.recog with ffStart := none, ffPeak := 0, ffOvr := false } ∧ { t with recog := s.recog } = s) ∧
  (∀ (door : Initiator) (b : Blaze) (rest : List Blaze) (s : State),
      doorOpen s door 0x1306 = true → s.blaze.fifo = b :: rest → rest.length < 32 →
      ∃ t, exec (.bzPop door) s = .next t ∧
        t.blaze = { s.blaze with fifo := rest } ∧ t.get BZ_FIFOST_COUNT = rest.length ∧
        { t with regs := s.regs, blaze := s.blaze, fresh := s.fresh } = s ∧ sameBut [BZ_FIFOST_COUNT] s t) ∧
  (∀ (s : State),
      s.alive = true → s.keys.lineKey.isSome = true → s.blaze.out ≠ [] → blazesBusy s = false →
      ∃ t, exec (.blazeMessageSend) s = .next t ∧
        t.tx = s.tx ++ [s.cyFrame .a (blazeGroupHead s) (.blazes (s.blaze.out.take 16)) false, s.cyFrame .b (blazeGroupHead s) (.blazes (s.blaze.out.take 16)) false] ∧
        t.blaze = { s.blaze with out := s.blaze.out.drop 16 } ∧ t.net.mseq = s.net.mseq + 1 ∧
        { t with tx := s.tx, blaze := s.blaze, net := s.net, flash := s.flash } = s ∧ { t.flash with mseqRes := s.flash.mseqRes } = s.flash) ∧
  (∀ (d : Datagram) (s : State),
      d.typ = 3 → (cyCheck s d).1 = true →
      ∃ t, exec (.blazeMessageReceive d) s = .next t ∧
        t = (blazesOf (plain s d)).foldl peerBlaze (notePeer (cyCheck s d).2 d)) ∧
  (∀ (d : Datagram) (b : Blaze) (s : State),
      d.typ = 3 → (cyCheck s d).1 = true → isHost d.sender = false → blazesOf (plain s d) = [b] → peerEntry s b.stn = none →
      ∃ t, exec (.blazeMessageReceive d) s = .next t ∧
        t = (cyCheck s d).2 ∧ { t with net := s.net } = s ∧ { t.net with replay := s.net.replay } = s.net) ∧
  (∀ (d : Datagram) (b : Blaze) (p : Nat) (s : State),
      d.typ = 3 → (cyCheck s d).1 = true → isHost d.sender = false → blazesOf (plain s d) = [b] → peerEntry s b.stn = some p → blazeDup s b = true →
      ∃ t, exec (.blazeMessageReceive d) s = .next t ∧
        t.get BZ_CNT_DUP = min 255 (s.get BZ_CNT_DUP + 1) ∧ t.blaze = s.blaze ∧ { t with net := s.net, regs := s.regs, fresh := s.fresh } = s ∧
        sameBut [BZ_CNT_DUP] s t) ∧
  (∀ (d : Datagram) (b : Blaze) (p : Nat) (s : State),
      d.typ = 3 → (cyCheck s d).1 = true → isHost d.sender = false → blazesOf (plain s d) = [b] → peerEntry s b.stn = some p → blazeDup s b = false →
      p < 32 → s.blaze.heard[Fin.ofNat 32 p] ≠ some b.stn → b.run < 256 → b.seq < 65536 → s.now ≤ dueAt s b → b.t ≤ s.now + 8000000000 →
      ∃ t, exec (.blazeMessageReceive d) s = .next t ∧
        t.get (BZ_PEER_RUN p) = b.run ∧ t.get (BZ_PSEQ_SEQ p) = b.seq ∧
        (t.blaze = { s.blaze with heard := s.blaze.heard.set (Fin.ofNat 32 p) (some b.stn), seen := (b.stn, b.run, b.seq, s.now) :: s.blaze.seen.filter (fun x => decide (s.now < x.2.2.2 + 16000000000)), reorder := reorderPut s.blaze.reorder b }) ∧
        { t.net with replay := s.net.replay } = s.net ∧ { t with net := s.net, regs := s.regs, blaze := s.blaze, fresh := s.fresh } = s ∧
        sameBut [BZ_PEER_RUN p, BZ_PSEQ_SEQ p] s t) ∧
  (∀ (d : Datagram) (b : Blaze) (p : Nat) (s : State),
      d.typ = 3 → (cyCheck s d).1 = true → isHost d.sender = false → blazesOf (plain s d) = [b] → peerEntry s b.stn = some p → blazeDup s b = false →
      p < 32 → s.blaze.heard[Fin.ofNat 32 p] ≠ some b.stn → b.run < 256 → b.seq < 65536 → dueAt s b < s.now →
      (s.word 0x1301).toNat / 2 ^ 24 % 16 = 1 → s.blaze.fifo.length < 16 →
      ∃ t, exec (.blazeMessageReceive d) s = .next t ∧
        t.get (BZ_PEER_RUN p) = b.run ∧ t.get (BZ_PSEQ_SEQ p) = b.seq ∧ t.get BZ_CNT_LATE = min 255 (s.get BZ_CNT_LATE + 1) ∧ t.get BZ_EVT_LATE = 1 ∧
        t.get BZ_FIFOST_COUNT = s.blaze.fifo.length + 1 ∧
        (t.blaze = { s.blaze with heard := s.blaze.heard.set (Fin.ofNat 32 p) (some b.stn), seen := (b.stn, b.run, b.seq, s.now) :: s.blaze.seen.filter (fun x => decide (s.now < x.2.2.2 + 16000000000)), fifo := s.blaze.fifo ++ [{ b with ord := true }] }) ∧
        { t.net with replay := s.net.replay } = s.net ∧ { t with net := s.net, regs := s.regs, blaze := s.blaze, fresh := s.fresh } = s ∧
        sameBut [BZ_PEER_RUN p, BZ_PSEQ_SEQ p, BZ_CNT_LATE, BZ_EVT_LATE, BZ_FIFOST_COUNT] s t) ∧
  (∀ (b : Blaze) (rest : List Blaze) (s : State),
      s.alive = true → s.blaze.reorder = b :: rest → dueAt s b ≤ s.now → (s.word 0x1301).toNat / 2 ^ 24 % 16 = 1 → s.blaze.fifo.length < 16 →
      ∃ t, exec (.peerBlazeDeliver) s = .next t ∧
        t.blaze = { s.blaze with reorder := rest, fifo := s.blaze.fifo ++ [b] } ∧ t.get BZ_FIFOST_COUNT = s.blaze.fifo.length + 1 ∧
        { t with regs := s.regs, blaze := s.blaze, fresh := s.fresh } = s ∧ sameBut [BZ_FIFOST_COUNT] s t)

/-- 12 R290 to R292, R295 to R298, R301 to R303, R310: one engine cycle of each, in a tick that has one (R289). A completed instruction moves PC on, modulo 32, or to its target; one that cannot complete stalls at its PC; a reserved encoding faults at its PC with
its latches cleared. A STAMP of a latched pulse takes the pulse's time, and MARK captures local time. Other engines are untouched.
Completes: peBr, peAwait, peStamp, peMarkInterrupt, peMarkBlaze, peMarkCaptureTime, peReservedEncoding. -/
def Obligations.EngineInstructionsBranchWaitAndCapture : Prop :=
  (∀ (e : Fin 8) (w : Nat) (s : State),
      s.alive = true → s.engines[e].cycle = true → s.engines[e].inj = none → s.get (PE_ST_STATE e) = 1 → peInstr s e (s.get (PE_ST_PC e)) = w →
      peKind w = .br → ib w 9 3 = 3 →
      ∃ t, exec (.peBr e w) s = .next t ∧
        (t.get (PE_ST_PC e) = (if s.get (PE_U e) = s.get (PE_V e) then ib w 0 5 else (s.get (PE_ST_PC e) + 1) % 32)) ∧ t.get (PE_ST_STATE e) = 1 ∧
        t.engines[e].cycle = false ∧ (∀ j : Fin 8, j ≠ e → t.engines[j] = s.engines[j]) ∧
        { t.engines[e] with lastPc := s.engines[e].lastPc, cycle := s.engines[e].cycle } = s.engines[e] ∧
        { t with regs := s.regs, engines := s.engines, fresh := s.fresh } = s ∧
        sameBut [PE_ST_PC e, PE_ST_STATE e, PE_GST_RUNNING, PE_GST_STALLED, PE_GST_FAULTED] s t) ∧
  (∀ (e : Fin 8) (w : Nat) (s : State),
      s.alive = true → s.engines[e].cycle = true → s.engines[e].inj = none → s.get (PE_ST_STATE e) = 1 → peInstr s e (s.get (PE_ST_PC e)) = w →
      peKind w = .br → ib w 9 3 = 5 → pulseInput (ib w 5 4) = true →
      ∃ t, exec (.peBr e w) s = .next t ∧
        (t.get (PE_ST_PC e) = (if (peLatch s e (ib w 5 4)).isSome then ib w 0 5 else (s.get (PE_ST_PC e) + 1) % 32)) ∧
        (t.engines[e].latches = s.engines[e].latches.filter fun p => p.1 != ib w 5 4) ∧ t.get (PE_ST_STATE e) = 1 ∧ t.engines[e].cycle = false ∧
        (∀ j : Fin 8, j ≠ e → t.engines[j] = s.engines[j]) ∧
        { t.engines[e] with lastPc := s.engines[e].lastPc, cycle := s.engines[e].cycle, latches := s.engines[e].latches } = s.engines[e] ∧
        { t with regs := s.regs, engines := s.engines, fresh := s.fresh } = s ∧
        sameBut [PE_ST_PC e, PE_ST_STATE e, PE_GST_RUNNING, PE_GST_STALLED, PE_GST_FAULTED] s t) ∧
  (∀ (e : Fin 8) (w : Nat) (s : State),
      s.alive = true → s.engines[e].cycle = true → s.engines[e].inj = none → s.get (PE_ST_STATE e) = 1 → peInstr s e (s.get (PE_ST_PC e)) = w →
      peKind w = .await → ib w 9 2 = 0 → pulseInput (ib w 5 4) = false →
      ∃ t, exec (.peAwait e w) s = .next t ∧
        (t.get (PE_ST_STATE e) = (if seenLevel s e (ib w 5 4) = (ib w 11 1 == 1) then 1 else 2)) ∧
        (t.get (PE_ST_PC e) = (if seenLevel s e (ib w 5 4) = (ib w 11 1 == 1) then (s.get (PE_ST_PC e) + 1) % 32 else s.get (PE_ST_PC e))) ∧
        t.engines[e].cycle = false ∧ (∀ j : Fin 8, j ≠ e → t.engines[j] = s.engines[j]) ∧
        { t.engines[e] with lastPc := s.engines[e].lastPc, cycle := s.engines[e].cycle } = s.engines[e] ∧
        { t with regs := s.regs, engines := s.engines, fresh := s.fresh } = s ∧
        sameBut [PE_ST_PC e, PE_ST_STATE e, PE_GST_RUNNING, PE_GST_STALLED, PE_GST_FAULTED] s t) ∧
  (∀ (e : Fin 8) (w : Nat) (s : State),
      s.alive = true → s.engines[e].cycle = true → s.engines[e].inj = none → s.get (PE_ST_STATE e) = 1 → peInstr s e (s.get (PE_ST_PC e)) = w →
      peKind w = .await → ib w 9 2 = 2 → s.engines[e].lastPc ≠ some (s.get (PE_ST_PC e)) →
      ∃ t, exec (.peAwait e w) s = .next t ∧
        t.engines[e].target = some (s.engines[e].tc.getD s.now + s.get (PE_U e) * 8) ∧
        (t.get (PE_ST_STATE e) = (if s.engines[e].tc.getD s.now + s.get (PE_U e) * 8 ≤ s.now then 1 else 2)) ∧
        (t.get (PE_ST_PC e) = (if s.engines[e].tc.getD s.now + s.get (PE_U e) * 8 ≤ s.now then (s.get (PE_ST_PC e) + 1) % 32 else s.get (PE_ST_PC e))) ∧
        t.engines[e].cycle = false ∧ (∀ j : Fin 8, j ≠ e → t.engines[j] = s.engines[j]) ∧
        { t.engines[e] with lastPc := s.engines[e].lastPc, cycle := s.engines[e].cycle, target := s.engines[e].target } = s.engines[e] ∧
        { t with regs := s.regs, engines := s.engines, fresh := s.fresh } = s ∧
        sameBut [PE_ST_PC e, PE_ST_STATE e, PE_GST_RUNNING, PE_GST_STALLED, PE_GST_FAULTED] s t) ∧
  (∀ (e : Fin 8) (w : Nat) (at_ p : Nat) (s : State),
      s.alive = true → s.engines[e].cycle = true → s.engines[e].inj = none → s.get (PE_ST_STATE e) = 1 → peInstr s e (s.get (PE_ST_PC e)) = w →
      peKind w = .stamp → pulseInput (ib w 5 4) = true → ib w 9 2 = 0 → s.engines[e].lastPc = some (s.get (PE_ST_PC e)) →
      peLatch s e (ib w 5 4) = some at_ → s.engines[e].prevCap = some p → p ≤ at_ →
      ∃ t, exec (.peStamp e w) s = .next t ∧
        t.get (PE_ST_PC e) = (s.get (PE_ST_PC e) + 1) % 32 ∧ t.get (PE_ST_STATE e) = 1 ∧ t.engines[e].tc = some at_ ∧
        t.get (PE_TCS e) = timeSec at_ % 2 ^ 32 ∧ t.get (PE_TCN_NS e) = timeNs at_ ∧ t.get (PE_TCD e) = min ((at_ - p) / 8) 0xFFFFFFFE ∧
        peLatch t e (ib w 5 4) = none ∧ t.engines[e].cycle = false ∧ (∀ j : Fin 8, j ≠ e → t.engines[j] = s.engines[j]) ∧
        { t.engines[e] with lastPc := s.engines[e].lastPc, cycle := s.engines[e].cycle, latches := s.engines[e].latches, tc := s.engines[e].tc, prevCap := s.engines[e].prevCap } = s.engines[e] ∧
        { t with regs := s.regs, engines := s.engines, fresh := s.fresh } = s ∧
        sameBut [PE_ST_PC e, PE_ST_STATE e, PE_GST_RUNNING, PE_GST_STALLED, PE_GST_FAULTED, PE_TCS e, PE_TCN_NS e, PE_TCD e] s t) ∧
  (∀ (e : Fin 8) (w : Nat) (s : State),
      s.alive = true → s.engines[e].cycle = true → s.engines[e].inj = none → s.get (PE_ST_STATE e) = 1 → peInstr s e (s.get (PE_ST_PC e)) = w →
      peKind w = .stamp → pulseInput (ib w 5 4) = true → s.engines[e].lastPc ≠ some (s.get (PE_ST_PC e)) →
      ∃ t, exec (.peStamp e w) s = .next t ∧
        t.get (PE_ST_STATE e) = 2 ∧ t.get (PE_ST_PC e) = s.get (PE_ST_PC e) ∧ peLatch t e (ib w 5 4) = none ∧ t.engines[e].cycle = false ∧
        (∀ j : Fin 8, j ≠ e → t.engines[j] = s.engines[j]) ∧
        { t.engines[e] with lastPc := s.engines[e].lastPc, cycle := s.engines[e].cycle, latches := s.engines[e].latches } = s.engines[e] ∧
        { t with regs := s.regs, engines := s.engines, fresh := s.fresh } = s ∧
        sameBut [PE_ST_PC e, PE_ST_STATE e, PE_GST_RUNNING, PE_GST_STALLED, PE_GST_FAULTED] s t) ∧
  (∀ (e : Fin 8) (w : Nat) (s : State),
      s.alive = true → s.engines[e].cycle = true → s.engines[e].inj = none → s.get (PE_ST_STATE e) = 1 → peInstr s e (s.get (PE_ST_PC e)) = w →
      peKind w = .markInterrupt →
      ∃ t, exec (.peMarkInterrupt e w) s = .next t ∧
        t.get (PE_ST_PC e) = (s.get (PE_ST_PC e) + 1) % 32 ∧ t.get (PE_ST_STATE e) = 1 ∧
        t.bus = { s.bus with pulses := s.bus.pulses ++ [64 + e.val] } ∧ t.engines[e].cycle = false ∧
        (∀ j : Fin 8, j ≠ e → t.engines[j] = s.engines[j]) ∧
        { t.engines[e] with lastPc := s.engines[e].lastPc, cycle := s.engines[e].cycle } = s.engines[e] ∧
        { t with regs := s.regs, engines := s.engines, bus := s.bus, fresh := s.fresh } = s ∧
        sameBut [PE_ST_PC e, PE_ST_STATE e, PE_GST_RUNNING, PE_GST_STALLED, PE_GST_FAULTED] s t) ∧
  (∀ (e : Fin 8) (w : Nat) (s : State),
      s.alive = true → s.engines[e].cycle = true → s.engines[e].inj = none → s.get (PE_ST_STATE e) = 1 → peInstr s e (s.get (PE_ST_PC e)) = w →
      peKind w = .markBlaze → blazeCount s (0x10 + e.val) < s.get BZ_CFG_PERSEC → ownRoute s (0x10 + e.val) = 16 →
      ∃ t, exec (.peMarkBlaze e w) s = .next t ∧
        t.get (PE_ST_PC e) = (s.get (PE_ST_PC e) + 1) % 32 ∧ t.get (PE_ST_STATE e) = 1 ∧ t.get BZ_SEQ_NEXT = (s.get BZ_SEQ_NEXT + 1) % 65536 ∧
        ((t.blaze.out.map (fun b => (b.src, b.kind, b.sev, b.slot, b.val0, b.val1))).getLast? = some (0x10 + e.val, ib w 0 8, s.get (PE_CFG_SEV e), 0xFF, s.getI (PE_U e), s.getI (PE_V e))) ∧
        t.blaze.out.length = s.blaze.out.length + 1 ∧ t.engines[e].cycle = false ∧ (∀ j : Fin 8, j ≠ e → t.engines[j] = s.engines[j]) ∧
        { t.engines[e] with lastPc := s.engines[e].lastPc, cycle := s.engines[e].cycle } = s.engines[e] ∧
        { t with regs := s.regs, engines := s.engines, blaze := s.blaze, fresh := s.fresh } = s ∧
        sameBut [PE_ST_PC e, PE_ST_STATE e, PE_GST_RUNNING, PE_GST_STALLED, PE_GST_FAULTED, BZ_SEQ_NEXT] s t) ∧
  (∀ (e : Fin 8) (w : Nat) (s : State),
      s.alive = true → s.engines[e].cycle = true → s.engines[e].inj = none → s.get (PE_ST_STATE e) = 1 → peInstr s e (s.get (PE_ST_PC e)) = w →
      peKind w = .markCapture → s.engines[e].prevCap = none →
      ∃ t, exec (.peMarkCaptureTime e w) s = .next t ∧
        t.get (PE_ST_PC e) = (s.get (PE_ST_PC e) + 1) % 32 ∧ t.get (PE_ST_STATE e) = 1 ∧ t.engines[e].tc = some s.now ∧
        t.get (PE_TCS e) = timeSec s.now % 2 ^ 32 ∧ t.get (PE_TCN_NS e) = timeNs s.now % 2 ^ 30 ∧ t.get (PE_TCD e) = 0xFFFFFFFF ∧
        t.engines[e].cycle = false ∧ (∀ j : Fin 8, j ≠ e → t.engines[j] = s.engines[j]) ∧
        { t.engines[e] with lastPc := s.engines[e].lastPc, cycle := s.engines[e].cycle, tc := s.engines[e].tc, prevCap := s.engines[e].prevCap } = s.engines[e] ∧
        { t with regs := s.regs, engines := s.engines, fresh := s.fresh } = s ∧
        sameBut [PE_ST_PC e, PE_ST_STATE e, PE_GST_RUNNING, PE_GST_STALLED, PE_GST_FAULTED, PE_TCS e, PE_TCN_NS e, PE_TCD e] s t) ∧
  (∀ (e : Fin 8) (w : Nat) (s : State),
      s.alive = true → s.engines[e].cycle = true → s.engines[e].inj = none → s.get (PE_ST_STATE e) = 1 → peInstr s e (s.get (PE_ST_PC e)) = w →
      peKind w = .reserved →
      ∃ t, exec (.peReservedEncoding e w) s = .next t ∧
        t.get (PE_ST_STATE e) = 3 ∧ t.get (PE_ST_PC e) = s.get (PE_ST_PC e) ∧ t.get (PE_EVT_FAULT e) = 1 ∧ t.engines[e].latches = [] ∧
        (t.get PE_GST_FAULTED).testBit e = true ∧ t.bus = { s.bus with pulses := s.bus.pulses ++ [64 + e.val] } ∧ t.engines[e].cycle = false ∧
        (∀ j : Fin 8, j ≠ e → t.engines[j] = s.engines[j]) ∧
        { t.engines[e] with lastPc := s.engines[e].lastPc, cycle := s.engines[e].cycle, latches := s.engines[e].latches, mev := s.engines[e].mev } = s.engines[e] ∧
        { t with regs := s.regs, engines := s.engines, bus := s.bus, fresh := s.fresh } = s ∧
        sameBut [PE_ST_PC e, PE_ST_STATE e, PE_GST_RUNNING, PE_GST_STALLED, PE_GST_FAULTED, PE_EVT_FAULT e] s t)

/-- 12 R295 to R300: one engine cycle of each. SAMP shifts bits into SIN and EMIT out of SOUT; XFER moves a word into RX or out of TX, and stalls once counted when a blocking move finds RX full; CALC computes on the registers, LDI
loads an immediate, and DEC counts down and branches while the new value is not 0.
Completes: peSamp, peEmit, peXferSinToRx, peXferTxToSout, peXferUToRx, peXferTxToU, peCalc, peLdi, peDec. -/
def Obligations.EngineInstructionsShiftMoveAndCompute : Prop :=
  (∀ (e : Fin 8) (w : Nat) (s : State),
      s.alive = true → s.engines[e].cycle = true → s.engines[e].inj = none → s.get (PE_ST_STATE e) = 1 → peInstr s e (s.get (PE_ST_PC e)) = w →
      peKind w = .samp → ib w 9 3 = 1 → s.get (PE_CFG_SINDIR e) = 0 →
      ∃ t, exec (.peSamp e w) s = .next t ∧
        t.get (PE_ST_PC e) = (s.get (PE_ST_PC e) + 1) % 32 ∧ t.get (PE_ST_STATE e) = 1 ∧
        t.get (PE_SIN e) = (s.get (PE_SIN e) * 2 ^ ib w 0 6 + s.get (PE_U e) % 2 ^ ib w 0 6) % 2 ^ 32 ∧
        t.get (PE_ST_NIN e) = min 32 (s.get (PE_ST_NIN e) + ib w 0 6) ∧ t.engines[e].cycle = false ∧
        (∀ j : Fin 8, j ≠ e → t.engines[j] = s.engines[j]) ∧
        { t.engines[e] with lastPc := s.engines[e].lastPc, cycle := s.engines[e].cycle } = s.engines[e] ∧
        { t with regs := s.regs, engines := s.engines, fresh := s.fresh } = s ∧
        sameBut [PE_ST_PC e, PE_ST_STATE e, PE_GST_RUNNING, PE_GST_STALLED, PE_GST_FAULTED, PE_SIN e, PE_ST_NIN e] s t) ∧
  (∀ (e : Fin 8) (w : Nat) (s : State),
      s.alive = true → s.engines[e].cycle = true → s.engines[e].inj = none → s.get (PE_ST_STATE e) = 1 → peInstr s e (s.get (PE_ST_PC e)) = w →
      peKind w = .emit → ib w 9 3 = 1 → s.get (PE_CFG_SOUTDIR e) = 0 →
      ∃ t, exec (.peEmit e w) s = .next t ∧
        t.get (PE_ST_PC e) = (s.get (PE_ST_PC e) + 1) % 32 ∧ t.get (PE_ST_STATE e) = 1 ∧ t.get (PE_U e) = s.get (PE_SOUT e) / 2 ^ (32 - ib w 0 6) ∧
        t.get (PE_SOUT e) = s.get (PE_SOUT e) * 2 ^ ib w 0 6 % 2 ^ 32 ∧ t.get (PE_ST_NOUT e) = min 32 (s.get (PE_ST_NOUT e) + ib w 0 6) ∧
        t.engines[e].cycle = false ∧ (∀ j : Fin 8, j ≠ e → t.engines[j] = s.engines[j]) ∧
        { t.engines[e] with lastPc := s.engines[e].lastPc, cycle := s.engines[e].cycle } = s.engines[e] ∧
        { t with regs := s.regs, engines := s.engines, fresh := s.fresh } = s ∧
        sameBut [PE_ST_PC e, PE_ST_STATE e, PE_GST_RUNNING, PE_GST_STALLED, PE_GST_FAULTED, PE_U e, PE_SOUT e, PE_ST_NOUT e] s t) ∧
  (∀ (e : Fin 8) (w : Nat) (s : State),
      s.alive = true → s.engines[e].cycle = true → s.engines[e].inj = none → s.get (PE_ST_STATE e) = 1 → peInstr s e (s.get (PE_ST_PC e)) = w →
      peKind w = .sinToRx → s.engines[e].rx.length < rxDepth s e →
      ∃ t, exec (.peXferSinToRx e w) s = .next t ∧
        t.get (PE_ST_PC e) = (s.get (PE_ST_PC e) + 1) % 32 ∧ t.get (PE_ST_STATE e) = 1 ∧
        t.engines[e].rx = s.engines[e].rx ++ [s.word (PE_SIN e).word] ∧ t.get (PE_SIN e) = 0 ∧ t.get (PE_ST_NIN e) = 0 ∧
        t.get (PE_RXIN e) = (s.get (PE_RXIN e) + 1) % 2 ^ 32 ∧ t.get (PE_ST_RXLVL e) = s.engines[e].rx.length + 1 ∧ t.engines[e].cycle = false ∧
        (∀ j : Fin 8, j ≠ e → t.engines[j] = s.engines[j]) ∧
        { t.engines[e] with lastPc := s.engines[e].lastPc, cycle := s.engines[e].cycle, rx := s.engines[e].rx } = s.engines[e] ∧
        { t with regs := s.regs, engines := s.engines, fresh := s.fresh } = s ∧
        sameBut [PE_ST_PC e, PE_ST_STATE e, PE_GST_RUNNING, PE_GST_STALLED, PE_GST_FAULTED, PE_SIN e, PE_ST_NIN e, PE_RXIN e, PE_ST_RXLVL e, PE_ST_TXLVL e] s t) ∧
  (∀ (e : Fin 8) (w : Nat) (v : Word) (l : List Word) (s : State),
      s.alive = true → s.engines[e].cycle = true → s.engines[e].inj = none → s.get (PE_ST_STATE e) = 1 → peInstr s e (s.get (PE_ST_PC e)) = w →
      peKind w = .txToSout → txReady s e = v :: l →
      ∃ t, exec (.peXferTxToSout e w) s = .next t ∧
        t.get (PE_ST_PC e) = (s.get (PE_ST_PC e) + 1) % 32 ∧ t.get (PE_ST_STATE e) = 1 ∧ t.engines[e].tx = s.engines[e].tx.tail ∧
        t.word (PE_SOUT e).word = v ∧ t.get (PE_ST_NOUT e) = 0 ∧ t.get (PE_TXOUT e) = (s.get (PE_TXOUT e) + 1) % 2 ^ 32 ∧ t.engines[e].cycle = false ∧
        (∀ j : Fin 8, j ≠ e → t.engines[j] = s.engines[j]) ∧
        { t.engines[e] with lastPc := s.engines[e].lastPc, cycle := s.engines[e].cycle, tx := s.engines[e].tx } = s.engines[e] ∧
        { t with regs := s.regs, engines := s.engines, fresh := s.fresh } = s ∧
        sameBut [PE_ST_PC e, PE_ST_STATE e, PE_GST_RUNNING, PE_GST_STALLED, PE_GST_FAULTED, PE_SOUT e, PE_ST_NOUT e, PE_TXOUT e, PE_ST_RXLVL e, PE_ST_TXLVL e] s t) ∧
  (∀ (e : Fin 8) (w : Nat) (s : State),
      s.alive = true → s.engines[e].cycle = true → s.engines[e].inj = none → s.get (PE_ST_STATE e) = 1 → peInstr s e (s.get (PE_ST_PC e)) = w →
      peKind w = .uToRx → rxDepth s e ≤ s.engines[e].rx.length → ib w 9 1 = 1 →
      ∃ t, exec (.peXferUToRx e w) s = .next t ∧
        t.get (PE_ST_STATE e) = 2 ∧ t.get (PE_ST_PC e) = s.get (PE_ST_PC e) ∧ t.get (PE_EVT_RXSTALL e) = 1 ∧
        t.get (PE_STALL_RX e) = min 0xFFFF (s.get (PE_STALL_RX e) + 1) ∧ t.engines[e].cycle = false ∧
        (∀ j : Fin 8, j ≠ e → t.engines[j] = s.engines[j]) ∧
        { t.engines[e] with lastPc := s.engines[e].lastPc, cycle := s.engines[e].cycle } = s.engines[e] ∧
        { t with regs := s.regs, engines := s.engines, fresh := s.fresh } = s ∧
        sameBut [PE_ST_PC e, PE_ST_STATE e, PE_GST_RUNNING, PE_GST_STALLED, PE_GST_FAULTED, PE_EVT_RXSTALL e, PE_STALL_RX e] s t) ∧
  (∀ (e : Fin 8) (w : Nat) (s : State),
      s.alive = true → s.engines[e].cycle = true → s.engines[e].inj = none → s.get (PE_ST_STATE e) = 1 → peInstr s e (s.get (PE_ST_PC e)) = w →
      peKind w = .uToRx → s.engines[e].rx.length < rxDepth s e →
      ∃ t, exec (.peXferUToRx e w) s = .next t ∧
        t.get (PE_ST_PC e) = (s.get (PE_ST_PC e) + 1) % 32 ∧ t.get (PE_ST_STATE e) = 1 ∧ t.engines[e].rx = s.engines[e].rx ++ [s.word (PE_U e).word] ∧
        t.get (PE_U e) = s.get (PE_U e) ∧ t.get (PE_RXIN e) = (s.get (PE_RXIN e) + 1) % 2 ^ 32 ∧ t.engines[e].cycle = false ∧
        (∀ j : Fin 8, j ≠ e → t.engines[j] = s.engines[j]) ∧
        { t.engines[e] with lastPc := s.engines[e].lastPc, cycle := s.engines[e].cycle, rx := s.engines[e].rx } = s.engines[e] ∧
        { t with regs := s.regs, engines := s.engines, fresh := s.fresh } = s ∧
        sameBut [PE_ST_PC e, PE_ST_STATE e, PE_GST_RUNNING, PE_GST_STALLED, PE_GST_FAULTED, PE_RXIN e, PE_ST_RXLVL e, PE_ST_TXLVL e] s t) ∧
  (∀ (e : Fin 8) (w : Nat) (v : Word) (l : List Word) (s : State),
      s.alive = true → s.engines[e].cycle = true → s.engines[e].inj = none → s.get (PE_ST_STATE e) = 1 → peInstr s e (s.get (PE_ST_PC e)) = w →
      peKind w = .txToU → txReady s e = v :: l →
      ∃ t, exec (.peXferTxToU e w) s = .next t ∧
        t.get (PE_ST_PC e) = (s.get (PE_ST_PC e) + 1) % 32 ∧ t.get (PE_ST_STATE e) = 1 ∧ t.engines[e].tx = s.engines[e].tx.tail ∧
        t.word (PE_U e).word = v ∧ t.get (PE_TXOUT e) = (s.get (PE_TXOUT e) + 1) % 2 ^ 32 ∧ t.engines[e].cycle = false ∧
        (∀ j : Fin 8, j ≠ e → t.engines[j] = s.engines[j]) ∧
        { t.engines[e] with lastPc := s.engines[e].lastPc, cycle := s.engines[e].cycle, tx := s.engines[e].tx } = s.engines[e] ∧
        { t with regs := s.regs, engines := s.engines, fresh := s.fresh } = s ∧
        sameBut [PE_ST_PC e, PE_ST_STATE e, PE_GST_RUNNING, PE_GST_STALLED, PE_GST_FAULTED, PE_U e, PE_TXOUT e, PE_ST_RXLVL e, PE_ST_TXLVL e] s t) ∧
  (∀ (e : Fin 8) (w : Nat) (s : State),
      s.alive = true → s.engines[e].cycle = true → s.engines[e].inj = none → s.get (PE_ST_STATE e) = 1 → peInstr s e (s.get (PE_ST_PC e)) = w →
      peKind w = .calc → ib w 9 3 = 0 →
      ∃ t, exec (.peCalc e w) s = .next t ∧
        t.get (PE_ST_PC e) = (s.get (PE_ST_PC e) + 1) % 32 ∧ t.get (PE_ST_STATE e) = 1 ∧
        t.word (PE_U e).word = calcOp (ib w 6 3) (s.word (PE_U e).word) (peReg s e (ib w 3 3)) ∧ t.engines[e].cycle = false ∧
        (∀ j : Fin 8, j ≠ e → t.engines[j] = s.engines[j]) ∧
        { t.engines[e] with lastPc := s.engines[e].lastPc, cycle := s.engines[e].cycle } = s.engines[e] ∧
        { t with regs := s.regs, engines := s.engines, fresh := s.fresh } = s ∧
        sameBut [PE_ST_PC e, PE_ST_STATE e, PE_GST_RUNNING, PE_GST_STALLED, PE_GST_FAULTED, PE_U e] s t) ∧
  (∀ (e : Fin 8) (w : Nat) (s : State),
      s.alive = true → s.engines[e].cycle = true → s.engines[e].inj = none → s.get (PE_ST_STATE e) = 1 → peInstr s e (s.get (PE_ST_PC e)) = w →
      peKind w = .ldi → ib w 10 2 = 2 →
      ∃ t, exec (.peLdi e w) s = .next t ∧
        t.get (PE_ST_PC e) = (s.get (PE_ST_PC e) + 1) % 32 ∧ t.get (PE_ST_STATE e) = 1 ∧ t.get (PE_CNT e) = ib w 0 10 ∧ t.engines[e].cycle = false ∧
        (∀ j : Fin 8, j ≠ e → t.engines[j] = s.engines[j]) ∧
        { t.engines[e] with lastPc := s.engines[e].lastPc, cycle := s.engines[e].cycle } = s.engines[e] ∧
        { t with regs := s.regs, engines := s.engines, fresh := s.fresh } = s ∧
        sameBut [PE_ST_PC e, PE_ST_STATE e, PE_GST_RUNNING, PE_GST_STALLED, PE_GST_FAULTED, PE_CNT e] s t) ∧
  (∀ (e : Fin 8) (w : Nat) (s : State),
      s.alive = true → s.engines[e].cycle = true → s.engines[e].inj = none → s.get (PE_ST_STATE e) = 1 → peInstr s e (s.get (PE_ST_PC e)) = w →
      peKind w = .dec → ib w 10 2 = 0 →
      ∃ t, exec (.peDec e w) s = .next t ∧
        t.get (PE_ST_STATE e) = 1 ∧ t.get (PE_CNT e) = s.get (PE_CNT e) - 1 ∧
        (t.get (PE_ST_PC e) = (if 1 < s.get (PE_CNT e) then ib w 0 5 else (s.get (PE_ST_PC e) + 1) % 32)) ∧ t.engines[e].cycle = false ∧
        (∀ j : Fin 8, j ≠ e → t.engines[j] = s.engines[j]) ∧
        { t.engines[e] with lastPc := s.engines[e].lastPc, cycle := s.engines[e].cycle } = s.engines[e] ∧
        { t with regs := s.regs, engines := s.engines, fresh := s.fresh } = s ∧
        sameBut [PE_ST_PC e, PE_ST_STATE e, PE_GST_RUNNING, PE_GST_STALLED, PE_GST_FAULTED, PE_CNT e] s t)

/-- 12 R289, R291, R292, R304, R305, R307 to R312: the PE_GCMD commands reach the engines of their mask in the next tick (takeGcmd): STOP stops an engine and clears its latches; RESTART clears PC, shift registers, latches and TC; RUN starts a stopped engine at its PC; CLKSYNC sets the period accumulator. A pending
injection refuses a second; TX and RX words are pushed, popped, or counted as dropped; instruction memory is written only in a stopped or faulted engine; a pulse that has become visible
sets its latch, and a record that matches the Mill-event mode becomes a pulse, with MODE 3 also a TX word.
Completes: peGcmdStop, peGcmdRestart, peGcmdRun, peGcmdClksync, peInject, peTxPush, peRxPop, peImWrite, pePulseInput, peMillEvent. -/
def Obligations.EngineCommandsQueuesAndInputs : Prop :=
  (∀ (door : Initiator) (mask : Nat) (s : State),
      doorOpen s door 0x1400 = true →
      ∃ t, exec (.peGcmdStop door mask) s = .next t ∧
        (∀ j : Fin 8, t.engines[j] = (if mask.testBit j.val then { s.engines[j] with gcmd := s.engines[j].gcmd ++ [2] } else s.engines[j])) ∧
        { t with engines := s.engines } = s) ∧
  (∀ (door : Initiator) (mask : Nat) (s : State),
      doorOpen s door 0x1400 = true →
      ∃ t, exec (.peGcmdRestart door mask) s = .next t ∧
        (∀ j : Fin 8, t.engines[j] = (if mask.testBit j.val then { s.engines[j] with gcmd := s.engines[j].gcmd ++ [4] } else s.engines[j])) ∧
        { t with engines := s.engines } = s) ∧
  (∀ (door : Initiator) (mask : Nat) (s : State),
      doorOpen s door 0x1400 = true →
      ∃ t, exec (.peGcmdRun door mask) s = .next t ∧
        (∀ j : Fin 8, t.engines[j] = (if mask.testBit j.val then { s.engines[j] with gcmd := s.engines[j].gcmd ++ [1] } else s.engines[j])) ∧
        { t with engines := s.engines } = s) ∧
  (∀ (door : Initiator) (mask : Nat) (s : State),
      doorOpen s door 0x1400 = true →
      ∃ t, exec (.peGcmdClksync door mask) s = .next t ∧
        (∀ j : Fin 8, t.engines[j] = (if mask.testBit j.val then { s.engines[j] with gcmd := s.engines[j].gcmd ++ [8] } else s.engines[j])) ∧
        { t with engines := s.engines } = s) ∧
  (∀ (door : Initiator) (e : Fin 8) (s : State),
      doorOpen s door 0x1400 = true → s.aux.func ≠ 3 → s.engines[e].gcmd = [] →
      ∃ t, exec (.peGcmdStop door (2 ^ e.val)) s = .next t ∧
        (takeGcmd t e).get (PE_ST_STATE e) = 0 ∧ (takeGcmd t e).engines[e] = { s.engines[e] with latches := [], lastPc := none, mev := [] } ∧
        ((takeGcmd t e).get PE_GST_RUNNING).testBit e = false ∧ (∀ j : Fin 8, j ≠ e → (takeGcmd t e).engines[j] = s.engines[j]) ∧
        { takeGcmd t e with regs := s.regs, engines := s.engines, fresh := s.fresh } = s ∧
        sameBut [PE_ST_STATE e, PE_GST_RUNNING, PE_GST_STALLED, PE_GST_FAULTED] s (takeGcmd t e)) ∧
  (∀ (door : Initiator) (e : Fin 8) (s : State),
      doorOpen s door 0x1400 = true → s.aux.func ≠ 3 → s.engines[e].gcmd = [] →
      ∃ t, exec (.peGcmdRestart door (2 ^ e.val)) s = .next t ∧
        (takeGcmd t e).get (PE_ST_STATE e) = 0 ∧ (takeGcmd t e).get (PE_ST_PC e) = 0 ∧ (takeGcmd t e).get (PE_SIN e) = 0 ∧
        (takeGcmd t e).get (PE_SOUT e) = 0 ∧ (takeGcmd t e).get (PE_TCD e) = 0xFFFFFFFF ∧ (takeGcmd t e).get (PE_U e) = s.get (PE_U e) ∧
        (takeGcmd t e).engines[e].latches = [] ∧ (takeGcmd t e).engines[e].tc = none ∧ (takeGcmd t e).engines[e].tx = s.engines[e].tx ∧
        (takeGcmd t e).engines[e].rx = s.engines[e].rx ∧ (∀ j : Fin 8, j ≠ e → (takeGcmd t e).engines[j] = s.engines[j]) ∧
        { takeGcmd t e with regs := s.regs, engines := s.engines, fresh := s.fresh } = s ∧
        sameBut [PE_ST_PC e, PE_ST_STATE e, PE_GST_RUNNING, PE_GST_STALLED, PE_GST_FAULTED, PE_SIN e, PE_SOUT e, PE_ST_NIN e, PE_ST_NOUT e, PE_TCS e, PE_TCN_NS e, PE_TCD e] s (takeGcmd t e)) ∧
  (∀ (door : Initiator) (e : Fin 8) (s : State),
      doorOpen s door 0x1400 = true → s.aux.func ≠ 3 → s.engines[e].gcmd = [] → peRuns s e = false →
      ∃ t, exec (.peGcmdRun door (2 ^ e.val)) s = .next t ∧
        (takeGcmd t e).get (PE_ST_STATE e) = 1 ∧ (takeGcmd t e).get (PE_ST_PC e) = s.get (PE_ST_PC e) ∧
        (takeGcmd t e).engines[e] = { s.engines[e] with lastPc := none } ∧ ((takeGcmd t e).get PE_GST_RUNNING).testBit e = true ∧
        (∀ j : Fin 8, j ≠ e → (takeGcmd t e).engines[j] = s.engines[j]) ∧
        { takeGcmd t e with regs := s.regs, engines := s.engines, fresh := s.fresh } = s ∧
        sameBut [PE_ST_STATE e, PE_GST_RUNNING, PE_GST_STALLED, PE_GST_FAULTED] s (takeGcmd t e)) ∧
  (∀ (door : Initiator) (e : Fin 8) (s : State),
      doorOpen s door 0x1400 = true → s.engines[e].gcmd = [] →
      ∃ t, exec (.peGcmdClksync door (2 ^ e.val)) s = .next t ∧
        (takeGcmd t e).engines[e] = { s.engines[e] with acc := 0, cycle := true } ∧ (∀ j : Fin 8, j ≠ e → (takeGcmd t e).engines[j] = s.engines[j]) ∧
        { takeGcmd t e with engines := s.engines } = s) ∧
  (∀ (door : Initiator) (e : Fin 8) (w : Nat) (s : State),
      doorOpen s door (0x1432 + 0x20 * e.val) = true → s.engines[e].inj = none → peReserved (w % 65536) = false →
      ∃ t, exec (.peInject door e w) s = .next t ∧
        t.engines[e] = { s.engines[e] with inj := some (w % 65536) } ∧ (∀ j : Fin 8, j ≠ e → t.engines[j] = s.engines[j]) ∧
        { t with engines := s.engines } = s) ∧
  (∀ (door : Initiator) (e : Fin 8) (w : Nat) (s : State),
      doorOpen s door (0x1432 + 0x20 * e.val) = true → (s.engines[e].inj.isSome = true ∨ peReserved (w % 65536) = true) →
      ∃ t, exec (.peInject door e w) s = .next t ∧
        t.get (PE_EVT_INJREJ e) = 1 ∧ onlyFields [PE_EVT_INJREJ e] s t) ∧
  (∀ (door : Initiator) (e : Fin 8) (w : Word) (s : State),
      doorOpen s door (0x142C + 0x20 * e.val) = true → s.engines[e].tx.length < txDepth s e →
      ∃ t, exec (.peTxPush door e w) s = .next t ∧
        t.engines[e] = { s.engines[e] with tx := s.engines[e].tx ++ [w], txNew := s.engines[e].txNew + 1 } ∧
        t.get (PE_TXIN e) = (s.get (PE_TXIN e) + 1) % 2 ^ 32 ∧ t.get (PE_ST_TXLVL e) = s.engines[e].tx.length + 1 ∧
        (∀ j : Fin 8, j ≠ e → t.engines[j] = s.engines[j]) ∧ { t with regs := s.regs, engines := s.engines, fresh := s.fresh } = s ∧
        sameBut [PE_TXIN e, PE_ST_TXLVL e, PE_ST_RXLVL e] s t) ∧
  (∀ (door : Initiator) (e : Fin 8) (w : Word) (s : State),
      doorOpen s door (0x142C + 0x20 * e.val) = true → txDepth s e ≤ s.engines[e].tx.length →
      ∃ t, exec (.peTxPush door e w) s = .next t ∧
        t.get (PE_EVT_TXDROP e) = 1 ∧ t.get (PE_TXDROP e) = (s.get (PE_TXDROP e) + 1) % 2 ^ 32 ∧ onlyFields [PE_EVT_TXDROP e, PE_TXDROP e] s t) ∧
  (∀ (door : Initiator) (e : Fin 8) (v : Word) (l : List Word) (s : State),
      s.alive = true → s.engines[e].rx = v :: l →
      ∃ t, exec (.peRxPop door e) s = .next t ∧
        t.bus = { s.bus with reply := v } ∧ t.engines[e] = { s.engines[e] with rx := l } ∧ t.get (PE_RXOUT e) = (s.get (PE_RXOUT e) + 1) % 2 ^ 32 ∧
        (∀ j : Fin 8, j ≠ e → t.engines[j] = s.engines[j]) ∧ { t with regs := s.regs, engines := s.engines, bus := s.bus, fresh := s.fresh } = s ∧
        sameBut [PE_RXOUT e, PE_ST_TXLVL e, PE_ST_RXLVL e] s t) ∧
  (∀ (door : Initiator) (e : Fin 8) (s : State),
      s.alive = true → s.engines[e].rx = [] →
      ∃ t, exec (.peRxPop door e) s = .next t ∧
        t.bus = { s.bus with reply := 0 } ∧ t.get (PE_EVT_RDEMPTY e) = 1 ∧ { t with regs := s.regs, bus := s.bus, fresh := s.fresh } = s ∧
        sameBut [PE_EVT_RDEMPTY e] s t) ∧
  (∀ (door : Initiator) (e : Fin 8) (n : Fin 16) (v : Word) (s : State),
      doorOpen s door (0x1580 + 0x10 * e.val + n.val) = true → s.get (PE_ST_STATE e) = 0 →
      ∃ t, exec (.peImWrite door e n v) s = .next t ∧
        t.word (0x1580 + 0x10 * e.val + n.val) = v ∧ onlyFields [wholeWord (0x1580 + 0x10 * e.val + n.val)] s t) ∧
  (∀ (door : Initiator) (e : Fin 8) (n : Fin 16) (v : Word) (s : State),
      doorOpen s door (0x1580 + 0x10 * e.val + n.val) = true → peRuns s e = true →
      ∃ t, exec (.peImWrite door e n v) s = .next t ∧
        t.get (PE_EVT_WREJ e) = 1 ∧ onlyFields [PE_EVT_WREJ e] s t) ∧
  (∀ (e : Fin 8) (tm code : Nat) (rest : List (Nat × Nat × Nat)) (s : State),
      s.alive = true → s.engines[e].due = (code, tm, 0) :: rest →
      ∃ t, exec (.pePulseInput e code) s = .next t ∧
        peLatch t e code = some tm ∧ t.engines[e] = { s.engines[e] with latches := putPulse s.engines[e].latches code tm, due := rest } ∧
        (∀ j : Fin 8, j ≠ e → t.engines[j] = s.engines[j]) ∧ { t with engines := s.engines } = s) ∧
  (∀ (e : Fin 8) (r : GridRec) (rest : List GridRec) (s : State),
      s.alive = true → peRuns s e = true → s.engines[e].mev = r :: rest → r.rcd.kind = .sample →
      (s.get (PE_MEV_MODE e) = 1 ∨ (s.get (PE_MEV_MODE e) = 2 ∧ s.getI (PE_MEV_LEVEL e) ≤ r.rcd.value)) →
      ∃ t, exec (.peMillEvent e) s = .next t ∧
        t.engines[e] = { s.engines[e] with due := s.engines[e].due ++ [(15, r.t, 2)], mev := rest } ∧
        (∀ j : Fin 8, j ≠ e → t.engines[j] = s.engines[j]) ∧ { t with engines := s.engines } = s) ∧
  (∀ (e : Fin 8) (r : GridRec) (rest : List GridRec) (s : State),
      s.alive = true → peRuns s e = true → s.engines[e].mev = r :: rest → r.rcd.kind = .sample → s.get (PE_MEV_MODE e) = 3 →
      s.engines[e].tx.length < txDepth s e →
      ∃ t, exec (.peMillEvent e) s = .next t ∧
        t.engines[e] = { s.engines[e] with due := s.engines[e].due ++ [(15, r.t, 2)], mev := rest, tx := s.engines[e].tx ++ [BitVec.ofInt 32 r.rcd.value], txNew := s.engines[e].txNew + 1 } ∧
        t.get (PE_TXIN e) = (s.get (PE_TXIN e) + 1) % 2 ^ 32 ∧ t.get (PE_ST_TXLVL e) = s.engines[e].tx.length + 1 ∧
        (∀ j : Fin 8, j ≠ e → t.engines[j] = s.engines[j]) ∧ { t with regs := s.regs, engines := s.engines, fresh := s.fresh } = s ∧
        sameBut [PE_TXIN e, PE_ST_TXLVL e, PE_ST_RXLVL e] s t) ∧
  (∀ (e : Fin 8) (r : GridRec) (rest : List GridRec) (s : State),
      s.alive = true → peRuns s e = true → s.engines[e].mev = r :: rest →
      (r.rcd.kind ≠ .sample ∨ (s.get (PE_MEV_MODE e) = 2 ∧ r.rcd.value < s.getI (PE_MEV_LEVEL e))) →
      ∃ t, exec (.peMillEvent e) s = .next t ∧
        t.engines[e] = { s.engines[e] with mev := rest } ∧ (∀ j : Fin 8, j ≠ e → t.engines[j] = s.engines[j]) ∧ { t with engines := s.engines } = s)

/-- 14 R342 to R349: a link change sets its event, shows the ring state and opens the re-route guard; a link down also counts and empties the filtering database. A frame with a bad check counts in SW_ERR and is dropped; a good one
teaches its source and goes to its known port, to port C, or on; a full queue drops and counts it. A topology change of the module's ring waits for its interval, then empties the database. Echoes are answered ten times a second.
Completes: portLinkUp, portLinkDown, portCfgWrite, switchForward, filteringDatabaseAgeing, mrpTopologyChange, mrpFlush, icmpEcho, addressQuery. -/
def Obligations.PortsSwitchAndRingClient : Prop :=
  (∀ (port : Port) (ab sqi : Nat) (high : Bool) (s : State),
      s.alive = true → linkUp s port = false → (port = .a ∨ s.pwr.serialB = false) → linkAmp s port ab = some high → sqi < 8 → s.mode ≠ 4 →
      ∃ t, exec (.portLinkUp port ab sqi) s = .next t ∧
        linkUp t port = true ∧ t.get (linkEvent port) = 1 ∧ t.get TIME_ST_GUARD = 1 ∧ t.net.fdb = s.net.fdb ∧
        { t with regs := s.regs, time := s.time, net := s.net, tx := s.tx, fresh := s.fresh } = s ∧
        sameBut [wholeWord 0x300, linkEvent port, PORT_EVT_RINGCHG, TIME_ST_GUARD, TIME_EVT_GUARD, TIME_CNT_GUARDCNT, TIME_PDLYA_D, TIME_PDLYB_D, TIME_INC_FRAC, TIME_INC_NS, TIME_Y_Y] s t) ∧
  (∀ (port : Port) (s : State),
      s.alive = true → linkUp s port = true → s.mode ≠ 4 →
      ∃ t, exec (.portLinkDown port) s = .next t ∧
        linkUp t port = false ∧ t.net.fdb = [] ∧ t.get (linkEvent port) = 1 ∧
        (t.get (if port = .a then PORT_LCNT_LDOWNA else PORT_LCNT_LDOWNB) = min 255 (s.get (if port = .a then PORT_LCNT_LDOWNA else PORT_LCNT_LDOWNB) + 1)) ∧
        t.get TIME_ST_GUARD = 1 ∧ (∀ f ∈ t.tx, f.port ≠ port.egress ∧ f.pay.isChunk = false) ∧ (t.cust port).fetch = none ∧
        t.get (nbrStn port) = 0xFE ∧ t.get (nbrCstn port) = 0xFE ∧ t.cust port.other = s.cust port.other ∧
        { t with regs := s.regs, time := s.time, net := s.net, tx := s.tx, tally := s.tally, fresh := s.fresh } = s ∧
        sameBut [wholeWord 0x300, linkEvent port, PORT_EVT_RINGCHG, PORT_LCNT_LDOWNA, PORT_LCNT_LDOWNB, TIME_ST_SLAVEPORT, nbrStn port, nbrCstn port, TIME_ST_GUARD, TIME_EVT_GUARD, TIME_CNT_GUARDCNT, TIME_PDLYA_D, TIME_PDLYB_D, TIME_INC_FRAC, TIME_INC_NS, TIME_Y_Y] s t) ∧
  (∀ (door : Initiator) (v : Word) (s : State),
      doorOpen s door 0x301 = true → linkUp s .a = false → linkUp s .b = false →
      ∃ t, exec (.portCfgWrite door v) s = .next t ∧
        t.get PORT_CFG_ANEN = getBits v 4 1 ∧ (t.get PORT_CFG_AMPA = (if getBits v 0 2 = 0 then s.get PORT_CFG_AMPA else getBits v 0 2)) ∧
        (t.get PORT_CFG_AMPB = (if getBits v 2 2 = 0 then s.get PORT_CFG_AMPB else getBits v 2 2)) ∧
        onlyFields [PORT_CFG_ANEN, PORT_CFG_AMPA, PORT_CFG_AMPB] s t) ∧
  (∀ (port : Port) (f : Frame) (s : State),
      s.alive = true → linkUp s port = true → (f.fcsOk = false ∨ 1522 < f.len) →
      ∃ t, exec (.switchForward port f) s = .next t ∧
        (t.get (if port = .a then SW_ERR_A else SW_ERR_B) = min 0xFFFF (s.get (if port = .a then SW_ERR_A else SW_ERR_B) + 1)) ∧
        (onlyFields [(if port = .a then SW_ERR_A else SW_ERR_B)] s t)) ∧
  (∀ (port : Port) (f : Frame) (s : State),
      s.alive = true → linkUp s port = true → f.fcsOk = true → f.len ≤ 1522 → f.local = false → f.group = false → f.dst = ownMac s →
      ∃ t, exec (.switchForward port f) s = .next t ∧
        t.tx = s.tx ++ [{ port := .c, queue := f.inQueue, pay := .forward f }] ∧ t.net.fdb = learn s.net.fdb f.src port s.pwr.ticks ∧
        { t with net := s.net, tx := s.tx } = s ∧ { t.net with fdb := s.net.fdb } = s.net) ∧
  (∀ (port : Port) (f : Frame) (s : State),
      s.alive = true → linkUp s port = true → f.fcsOk = true → f.len ≤ 1522 → f.local = false → f.group = true →
      (joinedMacs s).contains f.dst = false → linkUp s port.other = true → queueFull s port.other.egress f.inQueue f.len = false →
      ∃ t, exec (.switchForward port f) s = .next t ∧
        t.tx = s.tx ++ [{ port := port.other.egress, queue := f.inQueue, pay := .forward f }] ∧ { t with net := s.net, tx := s.tx } = s ∧
        { t.net with fdb := s.net.fdb } = s.net) ∧
  (∀ (port : Port) (f : Frame) (s : State),
      s.alive = true → linkUp s port = true → f.fcsOk = true → f.len ≤ 1522 → f.local = false → f.group = true →
      (joinedMacs s).contains f.dst = false → port = .b → linkUp s .a = true → queueFull s .a f.inQueue f.len = true →
      ∃ t, exec (.switchForward port f) s = .next t ∧
        t.tx = s.tx ∧ t.get (SW_Q_DROPA f.inQueue) = min 0xFFFF (s.get (SW_Q_DROPA f.inQueue) + 1) ∧
        { t with net := s.net, regs := s.regs, fresh := s.fresh } = s ∧ sameBut [SW_Q_DROPA f.inQueue] s t) ∧
  (∀ (port : Port) (f : Frame) (s : State),
      s.alive = true → linkUp s port = true → f.fcsOk = true → f.len ≤ 1522 → f.local = true →
      ∃ t, exec (.switchForward port f) s = .next t ∧
        t.tx = s.tx ++ [{ port := .c, queue := f.inQueue, pay := .forward f }] ∧ { t with net := s.net, tx := s.tx } = s ∧
        { t.net with fdb := s.net.fdb } = s.net ∧ t.net.fdb = learn s.net.fdb f.src port s.pwr.ticks) ∧
  (∀ (port : Port) (f : Frame) (s : State),
      s.alive = true → linkUp s port = true → f.fcsOk = true → f.len ≤ 1522 → f.local = false →
      (f.group = true ∧ (joinedMacs s).contains f.dst = true ∨ f.group = false ∧ f.dst ≠ ownMac s ∧ f.dst ≠ f.src ∧ s.net.fdb.find? (fun e => e.mac == f.dst) = none) →
      linkUp s port.other = true → queueFull s port.other.egress f.inQueue f.len = false →
      ∃ t, exec (.switchForward port f) s = .next t ∧
        t.tx = s.tx ++ [{ port := port.other.egress, queue := f.inQueue, pay := .forward f }, { port := .c, queue := f.inQueue, pay := .forward f }] ∧
        { t with net := s.net, tx := s.tx } = s ∧ { t.net with fdb := s.net.fdb } = s.net ∧ t.net.fdb = learn s.net.fdb f.src port s.pwr.ticks) ∧
  (∀ (port : Port) (f : Frame) (e : FdbEntry) (s : State),
      s.alive = true → linkUp s port = true → f.fcsOk = true → f.len ≤ 1522 → f.local = false → f.group = false → f.dst ≠ ownMac s → f.dst ≠ f.src →
      (s.net.fdb.find? (fun e => e.mac == f.dst) = some e) → linkUp s e.port = true → queueFull s e.port.egress f.inQueue f.len = false →
      ∃ t, exec (.switchForward port f) s = .next t ∧
        (t.tx = s.tx ++ (if e.port = port then [] else [{ port := e.port.egress, queue := f.inQueue, pay := .forward f }])) ∧
        { t with net := s.net, tx := s.tx } = s ∧ { t.net with fdb := s.net.fdb } = s.net ∧ t.net.fdb = learn s.net.fdb f.src port s.pwr.ticks) ∧
  (∀ (mac : Nat) (s : State),
      s.alive = true →
      ∃ t, exec (.filteringDatabaseAgeing mac) s = .next t ∧
        (t.net = { s.net with fdb := s.net.fdb.filter fun e => e.mac != mac || !passed s e.at_ 300 }) ∧ { t with net := s.net } = s) ∧
  (∀ (port : Port) (ms : Nat) (s : State),
      s.alive = true → s.net.mrpOn = true → linkUp s port = true →
      ∃ t, exec (.mrpTopologyChange port s.net.mrpUuid ms) s = .next t ∧
        t.net = { s.net with topo := some (s.pwr.ticks + ms * 200000) } ∧ { t with net := s.net } = s) ∧
  (∀ (at_ : Nat) (s : State),
      s.alive = true → s.net.topo = some at_ → at_ ≤ s.pwr.ticks →
      ∃ t, exec (.mrpFlush) s = .next t ∧
        t.net = { s.net with topo := none, fdb := [] } ∧ t.get PORT_EVT_TOPO = 1 ∧ t.get PORT_LCNT_TOPOCNT = min 255 (s.get PORT_LCNT_TOPOCNT + 1) ∧
        { t with net := s.net, regs := s.regs, fresh := s.fresh } = s ∧ sameBut [PORT_EVT_TOPO, PORT_LCNT_TOPOCNT] s t) ∧
  (∀ (port : Port) (src : Peer) (s : State),
      s.live = true → s.net.echoSec = s.second → s.net.echoes < 10 →
      ∃ t, exec (.icmpEcho port src) s = .next t ∧
        t.tx = s.tx ++ [{ port := port.egress, queue := 3, pay := .echoReply, ip := some ⟨src.v6, ownIp s src.v6 src.addr, src.addr, none, none⟩ }] ∧
        t.net = { s.net with echoes := s.net.echoes + 1 } ∧ { t with net := s.net, tx := s.tx } = s) ∧
  (∀ (port : Port) (src : Peer) (s : State),
      s.live = true → s.net.echoSec = s.second → 10 ≤ s.net.echoes →
      ∃ t, exec (.icmpEcho port src) s = .next t ∧
        t = s) ∧
  (∀ (port : Port) (src : Peer) (s : State),
      s.live = true → s.net.echoSec ≠ s.second →
      ∃ t, exec (.icmpEcho port src) s = .next t ∧
        t.tx.length = s.tx.length + 1 ∧ t.net = { s.net with echoSec := s.second, echoes := 1 } ∧ { t with net := s.net, tx := s.tx } = s) ∧
  (∀ (port : Port) (kind : Nat) (src : Peer) (s : State),
      s.live = true → (kind = 1 ∨ kind = 3 ∨ (kind = 2 ∧ s.get NET_IP4_ADDR ≠ 0)) →
      ∃ t, exec (.addressQuery port kind src) s = .next t ∧
        t.tx = s.tx ++ [{ port := port.egress, queue := 3, pay := .addressReply kind, ip := some ⟨src.v6, ownIp s src.v6 src.addr, src.addr, none, none⟩ }] ∧
        { t with tx := s.tx } = s) ∧
  (∀ (port : Port) (src : Peer) (s : State),
      s.live = true → s.get NET_IP4_ADDR ≠ 0 →
      ∃ t, exec (.addressQuery port 0 src) s = .next t ∧
        t.tx = s.tx ++ [{ port := port.egress, queue := 3, pay := .addressReply 0 }] ∧ { t with tx := s.tx } = s)

/-- 14 R350 to R357: a datagram whose form, authentication or sequence fails is discarded, its one event and counter the only trace; an aged module sender is forgotten. A write of CY_STR admits or refuses the entry; a closed
publication that the share allows leaves on both ports under the next MSEQ.
Completes: cystadDatagramDiscard, replayEntryAge, cyStrWrite, streamPublication. -/
def Obligations.CystadMessagesAreCheckedAndStreamsPublished : Prop :=
  (∀ (d : Datagram) (key : Nat) (s : State),
      s.live = true → s.keys.lineKey = some key → d.formOk = false →
      ∃ t, exec (.cystadDatagramDiscard d) s = .next t ∧
        t.get CY_EVT_BADMSG = 1 ∧ t.get CY_CNT_BADMSG = min 255 (s.get CY_CNT_BADMSG + 1) ∧ onlyFields [CY_EVT_BADMSG, CY_CNT_BADMSG] s t) ∧
  (∀ (d : Datagram) (key : Nat) (s : State),
      s.live = true → s.keys.lineKey = some key → d.formOk = true → hostType d.typ = false → d.authOk key = false →
      ∃ t, exec (.cystadDatagramDiscard d) s = .next t ∧
        t.get CY_EVT_AUTHFAIL = 1 ∧ t.get CY_CNT_AUTHFAIL = min 255 (s.get CY_CNT_AUTHFAIL + 1) ∧ onlyFields [CY_EVT_AUTHFAIL, CY_CNT_AUTHFAIL] s t) ∧
  (∀ (d : Datagram) (key : Nat) (s : State),
      s.live = true → s.keys.lineKey = some key → d.formOk = true → hostType d.typ = false → d.authOk key = true → replayed s d = true →
      ∃ t, exec (.cystadDatagramDiscard d) s = .next t ∧
        t.get CY_EVT_REPLAY = 1 ∧ t.get CY_CNT_REPLAY = min 255 (s.get CY_CNT_REPLAY + 1) ∧ onlyFields [CY_EVT_REPLAY, CY_CNT_REPLAY] s t) ∧
  (∀ (d : Datagram) (key : Nat) (s : State),
      s.live = true → s.keys.lineKey = some key → d.formOk = true → hostType d.typ = true → (isHost d.sender = false ∨ hostIndex s d.sender = none) →
      ∃ t, exec (.cystadDatagramDiscard d) s = .next t ∧
        t.get CY_EVT_BADMSG = 1 ∧ t.get CY_CNT_BADMSG = min 255 (s.get CY_CNT_BADMSG + 1) ∧ onlyFields [CY_EVT_BADMSG, CY_CNT_BADMSG] s t) ∧
  (∀ (d : Datagram) (key : Nat) (s : State),
      s.live = true → s.keys.lineKey = some key → d.formOk = true → hostType d.typ = false → d.authOk key = true → replayed s d = false →
      hostTimeBad s d = true →
      ∃ t, exec (.cystadDatagramDiscard d) s = .next t ∧
        t.get CY_EVT_REPLAY = 1 ∧ t.get CY_CNT_REPLAY = min 255 (s.get CY_CNT_REPLAY + 1) ∧ onlyFields [CY_EVT_REPLAY, CY_CNT_REPLAY] s t) ∧
  (∀ (d : Datagram) (key : Nat) (s : State),
      s.live = true → s.keys.lineKey = some key → d.formOk = true → hostType d.typ = false → d.authOk key = true → replayed s d = false →
      hostTimeBad s d = false → d.bodyOk key = false →
      ∃ t, exec (.cystadDatagramDiscard d) s = .next t ∧
        t.get CY_EVT_BADMSG = 1 ∧ t.get CY_CNT_BADMSG = min 255 (s.get CY_CNT_BADMSG + 1) ∧ onlyFields [CY_EVT_BADMSG, CY_CNT_BADMSG] s t) ∧
  (∀ (sender : Nat) (s : State),
      s.alive = true → isHost sender = false →
      ∃ t, exec (.replayEntryAge sender) s = .next t ∧
        (t.net = { s.net with replay := s.net.replay.filter fun r => r.sender != sender || !passed s r.at_ 3600 }) ∧ { t with net := s.net } = s) ∧
  (∀ (door : Initiator) (k : Fin 16) (v : Word) (s : State),
      doorOpen s door (0x330 + k.val) = true → s.get (CY_STR_EN k) = 0 → getBits v 31 1 = 1 → getBits v 29 1 = 1 → s.tally.hosts = [] →
      admitted s k = false →
      ∃ t, exec (.cyStrWrite door k v) s = .next t ∧
        t.get (CY_STR_EN k) = 1 ∧ t.get (CY_STR_ST k) = 5 ∧ t.get CY_EVT_STRREF = 1 ∧ t.get (CY_STR_SLOT k) = getBits v 24 4 ∧
        (∀ j : Fin 16, j ≠ k → t.word (0x330 + j.val) = s.word (0x330 + j.val)) ∧ { t with regs := s.regs, net := s.net, fresh := s.fresh } = s ∧
        sameBut [wholeWord (0x330 + k.val), CY_USE_ADMIT, CY_EVT_STRREF] s t) ∧
  (∀ (door : Initiator) (k : Fin 16) (v : Word) (s : State),
      doorOpen s door (0x330 + k.val) = true → s.get (CY_STR_EN k) = 1 → getBits v 31 1 = 0 → admitted s k = true →
      ∃ t, exec (.cyStrWrite door k v) s = .next t ∧
        t.get (CY_STR_EN k) = 0 ∧ t.get (CY_STR_ST k) = 0 ∧ t.get (CY_STR_RATE k) = 0 ∧ t.net.streams[k].recs = [] ∧ t.net.streams[k].ready ≠ []) ∧
  (∀ (door : Initiator) (k : Fin 16) (v : Word) (s : State),
      doorOpen s door (0x330 + k.val) = true → s.get (CY_STR_EN k) = 1 → getBits v 31 1 = 0 → admitted s k = true →
      (s.get (LD_ATT_ATT (streamSlot s k))).testBit 1 = false →
      ∃ t, exec (.cyStrWrite door k v) s = .next t ∧
        t.get (CY_STR_EN k) = 0 ∧ t.get (CY_STR_ST k) = 0 ∧ t.get (CY_STR_RATE k) = 0 ∧ t.net.streams[k].recs = [] ∧ t.net.streams[k].ready ≠ [] ∧
        t.deck = { s.deck with chunks := t.deck.chunks } ∧ (∀ c ∈ t.deck.chunks, c ∈ s.deck.chunks) ∧
        { t with regs := s.regs, net := s.net, deck := s.deck, fresh := s.fresh } = s ∧
        sameBut [wholeWord (0x330 + k.val), CY_USE_ADMIT, LD_ST_FREE, LD_HELD_FILL, LD_HELD_HELD] s t) ∧
  (∀ (k : Fin 16) (p : Pub) (rest : List Pub) (key : Nat) (s : State),
      s.live = true → s.keys.lineKey = some key → s.net.streams[k].ready = p :: rest → p.host = none → pubAllowed s k = true →
      ∃ t, exec (.streamPublication k) s = .next t ∧
        t.net.streams[k].ready = rest ∧ t.net.mseq = s.net.mseq + 1 ∧
        t.tx = s.tx ++ [s.cyFrame .a (streamGroupHead s) (.stream k (s.get BZ_CFG_STN) p.host p.slot p.rate p.fin p.step s.flash.run p.ssn p.recs p.t) (!p.demand), s.cyFrame .b (streamGroupHead s) (.stream k (s.get BZ_CFG_STN) p.host p.slot p.rate p.fin p.step s.flash.run p.ssn p.recs p.t) (!p.demand)] ∧
        { t with net := s.net, tx := s.tx, flash := s.flash } = s ∧ { t.flash with mseqRes := s.flash.mseqRes } = s.flash)

/-- 14 R366 to R370: an accepted open of a held capture takes a lease and a session and sends its descriptor in parts; a refused one sends its result only. A credit grants up to 64 chunks beyond ACK, and one beyond NEXT is a violation; a granted chunk is sent when the share allows and NEXT moves on;
a close ends the session and releases its lease, and the capture stays held; a close of no session does nothing more than the checks.
Completes: captureOpen, captureCredit, captureChunkSend, captureClose. -/
def Obligations.CaptureSessionsTransferChunks : Prop :=
  (∀ (port : Port) (d : Datagram) (c : Fin 16) (l : Fin 32) (s : State),
      d.typ = 0x30 → (cyCheck s d).1 = true → beAt (plain s d) 0 1 = c.val → s.get DK_ST_ON = 1 → s.get (DK_CAP_STATE c) = 2 → takeLease s = some l →
      ∃ t, exec (.captureOpen port d) s = .next t ∧
        t.get (DK_CAP_STATE c) = 3 ∧ t.get (LS_KIND l) = 2 ∧ t.get (LS_TGT l) = 0 ∧ t.get (LS_IDX l) = c.val ∧ t.get (CY_CAP_STATE c) = 1 ∧
        t.get (CY_CAP_SID c) = s.net.nextSid % 65536 ∧ t.net.sessions.length = s.net.sessions.length + 1 ∧
        t.net.nextSid = (s.net.nextSid + 1) % 65536 ∧ t.tx.length = s.tx.length + (anchorParts (chunkAnchors s.deck.caps[c])).length ∧
        { t with regs := s.regs, deck := s.deck, net := s.net, tx := s.tx, flash := s.flash, fresh := s.fresh } = s ∧
        { t.flash with mseqRes := s.flash.mseqRes } = s.flash ∧
        sameBut [DK_CAP_STATE c, wholeWord (0x1180 + l.val), wholeWord (0x340 + 2 * c.val), wholeWord (0x341 + 2 * c.val)] s t) ∧
  (∀ (port : Port) (d : Datagram) (c : Fin 16) (why : Nat) (s : State),
      d.typ = 0x30 → (cyCheck s d).1 = true → beAt (plain s d) 0 1 = c.val → openResult (cyCheck s d).2 c = why → why ≠ 0 → why ≠ 3 →
      ∃ t, exec (.captureOpen port d) s = .next t ∧
        t = answerHost (notePeer (cyCheck s d).2 d) port d.sender (.descriptor d.sender c why 0 false false 0 1 0 0 0 []) ∧
        t.tx.length = s.tx.length + 1 ∧ { t with net := s.net, tx := s.tx, flash := s.flash } = s ∧
        { t.flash with mseqRes := s.flash.mseqRes } = s.flash) ∧
  (∀ (port : Port) (d : Datagram) (x : Session) (key : Nat) (s : State),
      d.typ = 0x32 → s.keys.lineKey = some key → (cyCheck s d).1 = true → isHost d.sender = true → s.net.sessions = [x] →
      beAt (plain s d) 0 2 = x.sid → (beAt (plain s d) 2 1).testBit 0 = false → x.lease < 32 → x.ack ≤ beAt (plain s d) 8 4 →
      beAt (plain s d) 8 4 ≤ x.next → x.gtot ≤ beAt (plain s d) 4 4 → beAt (plain s d) 4 4 ≤ beAt (plain s d) 8 4 + 64 →
      beAt (plain s d) 8 4 < x.total → s.get (LS_KIND x.lease) = 2 → (s.deck.leases.toList.getD x.lease {}).cap = none →
      ∃ t, exec (.captureCredit port d) s = .next t ∧
        t.net.sessions = [{ x with ack := beAt (plain s d) 8 4, gtot := beAt (plain s d) 4 4 }] ∧
        t.get (CY_CAPA_ACK x.c) = beAt (plain s d) 8 4 % 2 ^ 32 ∧ t.get (CY_CAP_OUT x.c) = (beAt (plain s d) 4 4 - beAt (plain s d) 8 4) % 256 ∧
        t.get (LS_REMMS x.lease) = 2000 ∧ { t.net with sessions := s.net.sessions, replay := s.net.replay, hosts := s.net.hosts } = s.net ∧
        { t with regs := s.regs, deck := s.deck, net := s.net, fresh := s.fresh } = s ∧
        sameBut [CY_CAP_OUT x.c, CY_CAPA_ACK x.c, LS_REMMS x.lease] s t) ∧
  (∀ (port : Port) (d : Datagram) (x : Session) (s : State),
      d.typ = 0x32 → (cyCheck s d).1 = true → s.net.sessions = [x] → beAt (plain s d) 0 2 = x.sid → x.next < beAt (plain s d) 8 4 →
      ∃ t, exec (.captureCredit port d) s = .next t ∧
        t.get CY_EVT_CREDVIOL = 1 ∧ t.get CY_CNT_CREDVIOL = min 255 (s.get CY_CNT_CREDVIOL + 1) ∧
        { t.net with replay := s.net.replay, hosts := s.net.hosts } = s.net ∧ { t with regs := s.regs, net := s.net, fresh := s.fresh } = s ∧
        sameBut [CY_EVT_CREDVIOL, CY_CNT_CREDVIOL] s t) ∧
  (∀ (sid : Nat) (x : Session) (key : Nat) (s : State),
      s.live = true → s.keys.lineKey = some key → s.net.sessions = [x] → sid = x.sid → x.next < x.gtot → x.next < x.total → streamsWait s = false →
      hostPorts s x.host bothPorts = bothPorts →
      shareAllows s bothPorts (messageLen (hostHead s x.host) (.chunk sid (chunkOf (s.deck.caps.toList.getD x.c {}) x.next).1 x.next (chunkOf (s.deck.caps.toList.getD x.c {}) x.next).2.1 (chunkOf (s.deck.caps.toList.getD x.c {}) x.next).2.2)) = true →
      ∃ t, exec (.captureChunkSend sid) s = .next t ∧
        t.net.sessions = [{ x with next := x.next + 1 }] ∧ t.net.mseq = s.net.mseq + 1 ∧
        (t.tx = s.tx ++ bothPorts.map fun p => s.cyFrame p (hostHead s x.host) (.chunk sid (chunkOf (s.deck.caps.toList.getD x.c {}) x.next).1 x.next (chunkOf (s.deck.caps.toList.getD x.c {}) x.next).2.1 (chunkOf (s.deck.caps.toList.getD x.c {}) x.next).2.2) true) ∧
        { t with net := s.net, tx := s.tx, flash := s.flash } = s ∧ { t.flash with mseqRes := s.flash.mseqRes } = s.flash) ∧
  (∀ (sid : Nat) (x : Session) (s : State),
      s.live = true → s.net.sessions = [x] → sid = x.sid → (x.gtot ≤ x.next ∨ streamsWait s = true) →
      ∃ t, exec (.captureChunkSend sid) s = .next t ∧
        t = s) ∧
  (∀ (port : Port) (d : Datagram) (x : Session) (s : State),
      d.typ = 0x35 → (cyCheck s d).1 = true → s.net.sessions = [x] → beAt (plain s d) 0 2 = x.sid → x.lease < 32 → s.get (LS_KIND x.lease) = 2 →
      s.get (LS_TGT x.lease) = 0 → s.get (LS_IDX x.lease) = x.c → s.get (DK_CAP_STATE x.c) = 3 →
      (∀ l : Fin 32, l.val ≠ x.lease → s.get (LS_KIND l) = 0) →
      ∃ t, exec (.captureClose port d) s = .next t ∧
        t.net.sessions = [] ∧ t.word (0x1180 + x.lease) = 0 ∧ t.get (DK_CAP_STATE x.c) = 2 ∧ t.get (CY_CAP_STATE x.c) = 2 ∧
        t.deck.caps = s.deck.caps ∧ { t with regs := s.regs, deck := s.deck, net := s.net, tx := s.tx, flash := s.flash, fresh := s.fresh } = s ∧
        { t.flash with mseqRes := s.flash.mseqRes } = s.flash ∧
        sameBut [wholeWord (0x1180 + x.lease), DK_CAP_STATE x.c, CY_CAP_STATE x.c, CY_CAP_OUT x.c] s t) ∧
  (∀ (port : Port) (d : Datagram) (s : State),
      d.typ = 0x35 → (cyCheck s d).1 = true → sessionOf s (beAt (plain s d) 0 2) = none →
      ∃ t, exec (.captureClose port d) s = .next t ∧
        t = notePeer (cyCheck s d).2 d ∧ { t.net with replay := s.net.replay, hosts := s.net.hosts } = s.net ∧ { t with net := s.net } = s)

/-- 13 R316, R317, R319, R320, R328 to R332: a block forms from the records that its setup took; it waits for those it lacks; a marker, a time step, a gap in the SSNs, or under STRICT a STALE or CALADJ record among them discards it, and it is counted.
A used block of a scalar setup makes one record for each of its outputs, with the block's length, end and quality, counts an evaluation, and the next block starts a hop on; its outputs go on the network, into the trends and to a pin engine as the
route says; a vector that would wait is skipped and counted. An alarm whose level was passed for its delay rises, to danger before alert, with a Blaze; the numbers of an evaluation are those that outputValues computes from the block, whose last bits the model chooses (log entry 118).
Completes: anEvaluation, anTrendPoint, anTrendDump. -/
def Obligations.AnalysisBlocksAreDiscardedOrEvaluated : Prop :=
  (∀ (n : Fin 32) (k : Nat) (gap : Bool) (s : State),
      setupRuns s n = true →
      blockCause (tagOf s.an.setups[n].tags 9 0 == 1) none (s.an.setups[n].reach s.slots[s.an.setups[n].slot].rate) 0 = some (k, gap) →
      ∃ t, exec (.anEvaluation n) s = .next t ∧
        t.get (AN_SET_SKIP n) = min 255 (s.get (AN_SET_SKIP n) + 1) ∧ t.get AN_EVT_SKIP = 1 ∧ t.an.features = s.an.features ∧
        (∀ m : Fin 32, m ≠ n → t.an.setups[m] = s.an.setups[m]) ∧
        (t.an.setups[n].hist = (s.an.setups[n].hist.drop (if gap then k else k + 1)).dropWhile (fun r => wordKind r.w != 0)) ∧
        t.an.setups[n].resync = t.an.setups[n].hist.isEmpty ∧ t.an.setups[n].again = (s.an.setups[n].func == 2) ∧ t.an.setups[n].vel = {} ∧
        (∀ a : Fin 32, t.an.alarms[a] = if tagOf s.an.alarms[a].tags 1 0 / 256 = n.val then { tags := s.an.alarms[a].tags } else s.an.alarms[a]) ∧
        t.an.setups[n].tags = s.an.setups[n].tags ∧ t.an.setups[n].trends = s.an.setups[n].trends ∧
        { t with regs := s.regs, an := s.an, fresh := s.fresh } = s ∧ sameBut [AN_SET_SKIP n, AN_EVT_SKIP] s t) ∧
  (∀ (n : Fin 32) (s : State),
      setupRuns s n = true → blockCause (tagOf s.an.setups[n].tags 9 0 == 1) none (s.an.setups[n].reach s.slots[s.an.setups[n].slot].rate) 0 = none →
      s.an.setups[n].func ≠ 6 → s.an.setups[n].peerSpoilt s.slots[s.an.setups[n].slot].rate = none →
      s.an.setups[n].hist.length < s.an.setups[n].need s.slots[s.an.setups[n].slot].rate →
      ∃ t, exec (.anEvaluation n) s = .next t ∧
        t = s) ∧
  (∀ (n : Fin 32) (s : State),
      setupRuns s n = true → blockCause (tagOf s.an.setups[n].tags 9 0 == 1) none (s.an.setups[n].reach s.slots[s.an.setups[n].slot].rate) 0 = none →
      s.an.setups[n].angleSpoilt = none → s.an.setups[n].peerSpoilt s.slots[s.an.setups[n].slot].rate = none →
      s.an.setups[n].need s.slots[s.an.setups[n].slot].rate ≤ s.an.setups[n].hist.length → s.an.setups[n].func = 2 → s.an.setups[n].again = true →
      ∃ t, exec (.anEvaluation n) s = .next t ∧
        t.get (AN_SET_SKIP n) = min 255 (s.get (AN_SET_SKIP n) + 1) ∧ t.get AN_EVT_SKIP = 1 ∧ t.an.features = s.an.features ∧
        (∀ m : Fin 32, m ≠ n → t.an.setups[m] = s.an.setups[m]) ∧ t.an.setups[n].again = false ∧
        t.an.setups[n].vel = s.an.setups[n].passed s.slots[s.an.setups[n].slot].rate (s.an.setups[n].need s.slots[s.an.setups[n].slot].rate) ∧
        t.an.setups[n].tags = s.an.setups[n].tags ∧ { t with regs := s.regs, an := s.an, fresh := s.fresh } = s ∧
        sameBut [AN_SET_SKIP n, AN_EVT_SKIP] s t) ∧
  (∀ (n : Fin 32) (w : Nat) (s : State),
      setupRuns s n = true → blockCause (tagOf s.an.setups[n].tags 9 0 == 1) none (s.an.setups[n].reach s.slots[s.an.setups[n].slot].rate) 0 = none →
      s.an.setups[n].angleSpoilt = some w →
      ∃ t, exec (.anEvaluation n) s = .next t ∧
        t.get (AN_SET_SKIP n) = min 255 (s.get (AN_SET_SKIP n) + 1) ∧ t.get AN_EVT_SKIP = 1 ∧ t.an.features = s.an.features ∧
        (∀ m : Fin 32, m ≠ n → t.an.setups[m] = s.an.setups[m]) ∧
        (t.an.setups[n].hist = (s.an.setups[n].hist.dropWhile fun y => decide (y.t < w)).dropWhile (fun r => wordKind r.w != 0)) ∧
        t.an.setups[n].tags = s.an.setups[n].tags ∧ { t with regs := s.regs, an := s.an, fresh := s.fresh } = s ∧
        sameBut [AN_SET_SKIP n, AN_EVT_SKIP] s t) ∧
  (∀ (n : Fin 32) (b : HistRec) (s : State),
      setupRuns s n = true → blockCause (tagOf s.an.setups[n].tags 9 0 == 1) none (s.an.setups[n].reach s.slots[s.an.setups[n].slot].rate) 0 = none →
      s.an.setups[n].angleSpoilt = none → s.an.setups[n].peerSpoilt s.slots[s.an.setups[n].slot].rate = none →
      s.an.setups[n].need s.slots[s.an.setups[n].slot].rate ≤ s.an.setups[n].hist.length → s.an.setups[n].again = false →
      (s.an.setups[n].block s.slots[s.an.setups[n].slot].rate).getLast? = some b → s.an.setups[n].func = 1 → tagOf s.an.setups[n].tags 7 0 ≠ 1 →
      s.an.setups[n].route.testBit 0 = false → s.an.setups[n].route.testBit 1 = false → s.an.setups[n].route.testBit 2 = false →
      (∀ a : Fin 32, s.an.alarms[a].tags = []) → ((if s.an.setups[n].proc = 0 then s.an.owes0 else s.an.owes1) = false) →
      ∃ t, exec (.anEvaluation n) s = .next t ∧
        (∀ j : Fin 5, t.an.features.find? (fun e => e.fid == n.val * 256 + j.val) = some (featureOf n b (s.an.setups[n].block s.slots[s.an.setups[n].slot].rate).length (quality s.an.setups[n] s.slots[s.an.setups[n].slot].rate) j (outputValues s n j))) ∧
        t.an.setups[n].hist = s.an.setups[n].hist.drop (s.an.setups[n].need s.slots[s.an.setups[n].slot].rate / 2 ^ tagOf s.an.setups[n].tags 5 0) ∧
        (∀ m : Fin 32, m ≠ n → t.an.setups[m] = s.an.setups[m]) ∧ (∀ e ∈ s.an.features, e.fid / 256 ≠ n.val → e ∈ t.an.features) ∧
        t.get (AN_EVAL n) = (s.get (AN_EVAL n) + 1) % 2 ^ 32 ∧ t.tx = s.tx ∧ { t with regs := s.regs, an := s.an, fresh := s.fresh } = s ∧
        sameBut [AN_EVAL n] s t) ∧
  (∀ (n : Fin 32) (b : HistRec) (s : State),
      setupRuns s n = true → blockCause (tagOf s.an.setups[n].tags 9 0 == 1) none (s.an.setups[n].reach s.slots[s.an.setups[n].slot].rate) 0 = none →
      s.an.setups[n].angleSpoilt = none → s.an.setups[n].peerSpoilt s.slots[s.an.setups[n].slot].rate = none →
      s.an.setups[n].need s.slots[s.an.setups[n].slot].rate ≤ s.an.setups[n].hist.length → s.an.setups[n].again = false →
      (s.an.setups[n].block s.slots[s.an.setups[n].slot].rate).getLast? = some b → s.an.setups[n].func = 1 → tagOf s.an.setups[n].tags 7 0 ≠ 1 →
      s.an.setups[n].route.testBit 0 = true → s.an.setups[n].route.testBit 1 = false → s.an.setups[n].route.testBit 2 = false →
      s.keys.lineKey.isSome = true → (∀ a : Fin 32, s.an.alarms[a].tags = []) →
      ((if s.an.setups[n].proc = 0 then s.an.owes0 else s.an.owes1) = false) → s.net.features = [] → streamsWait s = false →
      (shareAllows s bothPorts (messageLen (streamGroupHead s) (featurePay s ((List.range 5).map fun j => featureOf n b (s.an.setups[n].block s.slots[s.an.setups[n].slot].rate).length (quality s.an.setups[n] s.slots[s.an.setups[n].slot].rate) j (outputValues s n j)))) = true) →
      ∃ t, exec (.anEvaluation n) s = .next t ∧
        (∀ j : Fin 5, t.an.features.find? (fun e => e.fid == n.val * 256 + j.val) = some (featureOf n b (s.an.setups[n].block s.slots[s.an.setups[n].slot].rate).length (quality s.an.setups[n] s.slots[s.an.setups[n].slot].rate) j (outputValues s n j))) ∧
        t.get (AN_EVAL n) = (s.get (AN_EVAL n) + 1) % 2 ^ 32 ∧
        (t.tx = s.tx ++ [s.cyFrame .a (streamGroupHead s) (.feature (s.get BZ_CFG_STN) s.flash.run ((List.range 5).map fun j => featureOf n b (s.an.setups[n].block s.slots[s.an.setups[n].slot].rate).length (quality s.an.setups[n] s.slots[s.an.setups[n].slot].rate) j (outputValues s n j))) true, s.cyFrame .b (streamGroupHead s) (.feature (s.get BZ_CFG_STN) s.flash.run ((List.range 5).map fun j => featureOf n b (s.an.setups[n].block s.slots[s.an.setups[n].slot].rate).length (quality s.an.setups[n] s.slots[s.an.setups[n].slot].rate) j (outputValues s n j))) true]) ∧
        t.net.mseq = s.net.mseq + 1 ∧ { t with regs := s.regs, an := s.an, net := s.net, tx := s.tx, flash := s.flash, fresh := s.fresh } = s ∧
        { t.flash with mseqRes := s.flash.mseqRes } = s.flash ∧ sameBut [AN_EVAL n] s t) ∧
  (∀ (n : Fin 32) (b : HistRec) (t0 t1 t2 t3 t4 : Trend) (s : State),
      setupRuns s n = true → blockCause (tagOf s.an.setups[n].tags 9 0 == 1) none (s.an.setups[n].reach s.slots[s.an.setups[n].slot].rate) 0 = none →
      s.an.setups[n].angleSpoilt = none → s.an.setups[n].peerSpoilt s.slots[s.an.setups[n].slot].rate = none →
      s.an.setups[n].need s.slots[s.an.setups[n].slot].rate ≤ s.an.setups[n].hist.length → s.an.setups[n].again = false →
      (s.an.setups[n].block s.slots[s.an.setups[n].slot].rate).getLast? = some b → s.an.setups[n].func = 1 → tagOf s.an.setups[n].tags 7 0 ≠ 1 →
      s.an.setups[n].route.testBit 0 = false → s.an.setups[n].route.testBit 1 = true → s.an.setups[n].route.testBit 2 = false →
      (∀ a : Fin 32, s.an.alarms[a].tags = []) → ((if s.an.setups[n].proc = 0 then s.an.owes0 else s.an.owes1) = false) →
      s.an.setups[n].trends = [t0, t1, t2, t3, t4] →
      ∃ t, exec (.anEvaluation n) s = .next t ∧
        (∀ j : Fin 5, t.an.features.find? (fun e => e.fid == n.val * 256 + j.val) = some (featureOf n b (s.an.setups[n].block s.slots[s.an.setups[n].slot].rate).length (quality s.an.setups[n] s.slots[s.an.setups[n].slot].rate) j (outputValues s n j))) ∧
        t.an.setups[n].trends = [t0.add ((outputValues s n 0).headD 0).toNat (quality s.an.setups[n] s.slots[s.an.setups[n].slot].rate), t1.add ((outputValues s n 1).headD 0).toNat (quality s.an.setups[n] s.slots[s.an.setups[n].slot].rate), t2.add ((outputValues s n 2).headD 0).toNat (quality s.an.setups[n] s.slots[s.an.setups[n].slot].rate), t3.add ((outputValues s n 3).headD 0).toNat (quality s.an.setups[n] s.slots[s.an.setups[n].slot].rate), t4.add ((outputValues s n 4).headD 0).toNat (quality s.an.setups[n] s.slots[s.an.setups[n].slot].rate)] ∧
        (∀ m : Fin 32, m ≠ n → t.an.setups[m] = s.an.setups[m]) ∧ t.tx = s.tx ∧ { t with regs := s.regs, an := s.an, fresh := s.fresh } = s ∧
        sameBut [AN_EVAL n] s t) ∧
  (∀ (n : Fin 32) (b : HistRec) (e : Fin 8) (s : State),
      setupRuns s n = true → blockCause (tagOf s.an.setups[n].tags 9 0 == 1) none (s.an.setups[n].reach s.slots[s.an.setups[n].slot].rate) 0 = none →
      s.an.setups[n].angleSpoilt = none → s.an.setups[n].peerSpoilt s.slots[s.an.setups[n].slot].rate = none →
      s.an.setups[n].need s.slots[s.an.setups[n].slot].rate ≤ s.an.setups[n].hist.length → s.an.setups[n].again = false →
      (s.an.setups[n].block s.slots[s.an.setups[n].slot].rate).getLast? = some b → s.an.setups[n].func = 1 → tagOf s.an.setups[n].tags 7 0 ≠ 1 →
      s.an.setups[n].route.testBit 0 = false → s.an.setups[n].route.testBit 1 = false → s.an.setups[n].route.testBit 2 = true →
      (∀ a : Fin 32, s.an.alarms[a].tags = []) → ((if s.an.setups[n].proc = 0 then s.an.owes0 else s.an.owes1) = false) →
      tagOf s.an.setups[n].tags 0xC 0 = e.val → s.engines[e].tx.length < txDepth s e →
      ∃ t, exec (.anEvaluation n) s = .next t ∧
        (∀ j : Fin 5, t.an.features.find? (fun e => e.fid == n.val * 256 + j.val) = some (featureOf n b (s.an.setups[n].block s.slots[s.an.setups[n].slot].rate).length (quality s.an.setups[n] s.slots[s.an.setups[n].slot].rate) j (outputValues s n j))) ∧
        t.engines[e].tx = s.engines[e].tx ++ [mapWord s.an.setups[n] ((outputValues s n 0).headD 0).toNat s.freeWord.1] ∧
        (∀ f : Fin 8, f ≠ e → t.engines[f] = s.engines[f]) ∧ t.get (PE_TXIN e) = (s.get (PE_TXIN e) + 1) % 2 ^ 32 ∧ t.tx = s.tx ∧
        { t with regs := s.regs, an := s.an, engines := s.engines, free := s.free, fresh := s.fresh } = s) ∧
  (∀ (n : Fin 32) (b : HistRec) (s : State),
      setupRuns s n = true → blockCause (tagOf s.an.setups[n].tags 9 0 == 1) none (s.an.setups[n].reach s.slots[s.an.setups[n].slot].rate) 0 = none →
      s.an.setups[n].angleSpoilt = none → s.an.setups[n].peerSpoilt s.slots[s.an.setups[n].slot].rate = none →
      s.an.setups[n].need s.slots[s.an.setups[n].slot].rate ≤ s.an.setups[n].hist.length → s.an.setups[n].again = false →
      (s.an.setups[n].block s.slots[s.an.setups[n].slot].rate).getLast? = some b → s.an.setups[n].func = 4 → tagOf s.an.setups[n].tags 7 0 ≠ 1 →
      s.an.setups[n].route.testBit 0 = true → s.an.setups[n].route.testBit 1 = false → s.an.setups[n].route.testBit 2 = false →
      s.keys.lineKey.isSome = true → stillSending s (n.val * 256) = true → (∀ a : Fin 32, s.an.alarms[a].tags = []) →
      ((if s.an.setups[n].proc = 0 then s.an.owes0 else s.an.owes1) = false) →
      ∃ t, exec (.anEvaluation n) s = .next t ∧
        t.get (AN_SET_PUBSKIP n) = min 255 (s.get (AN_SET_PUBSKIP n) + 1) ∧ t.tx = s.tx ∧ t.get (AN_EVAL n) = (s.get (AN_EVAL n) + 1) % 2 ^ 32 ∧
        (t.an.features.find? (fun e => e.fid == n.val * 256) = some (featureOf n b (s.an.setups[n].block s.slots[s.an.setups[n].slot].rate).length (quality s.an.setups[n] s.slots[s.an.setups[n].slot].rate) 0 (outputValues s n 0))) ∧
        { t with regs := s.regs, an := s.an, fresh := s.fresh } = s ∧ sameBut [AN_EVAL n, AN_SET_PUBSKIP n] s t) ∧
  (∀ (n : Fin 32) (b : HistRec) (a : Fin 32) (j : Fin 5) (s : State),
      setupRuns s n = true → blockCause (tagOf s.an.setups[n].tags 9 0 == 1) none (s.an.setups[n].reach s.slots[s.an.setups[n].slot].rate) 0 = none →
      s.an.setups[n].angleSpoilt = none → s.an.setups[n].peerSpoilt s.slots[s.an.setups[n].slot].rate = none →
      s.an.setups[n].need s.slots[s.an.setups[n].slot].rate ≤ s.an.setups[n].hist.length → s.an.setups[n].again = false →
      (s.an.setups[n].block s.slots[s.an.setups[n].slot].rate).getLast? = some b → s.an.setups[n].func = 1 → s.an.setups[n].proc = 0 →
      tagOf s.an.setups[n].tags 7 0 ≠ 1 → s.an.setups[n].route.testBit 0 = false → s.an.setups[n].route.testBit 1 = false →
      s.an.setups[n].route.testBit 2 = false → s.an.owes0 = false → (∀ c : Fin 32, c ≠ a → s.an.alarms[c].tags = []) →
      tagOf s.an.alarms[a].tags 1 0 = n.val * 256 + j.val → s.an.alarms[a].tags ≠ [] → s.mode ≠ 9 →
      s.an.released + s.get AN_CFG_REARM * 8000000000 ≤ b.t → s.get (alarmField a) < 2 →
      beyondLevel (tagOf s.an.alarms[a].tags 4 0 == 1) (f32 ((outputValues s n j).headD 0).toNat) (alarmLevel s.an.alarms[a].tags 3) = true →
      tagOf s.an.alarms[a].tags 6 1 ≤ s.an.alarms[a].overD + 1 → blazeCount s 0x20 < s.get BZ_CFG_PERSEC → ownRoute s 0x20 = 16 →
      ∃ t, exec (.anEvaluation n) s = .next t ∧
        t.get (alarmField a) = 2 ∧ t.get AN_EVT_ALARM = 1 ∧
        ((t.blaze.out.map (fun b => (b.src, b.kind, b.sev, b.slot, b.val0, b.val1))).getLast? = some (0x20, 2, tagOf s.an.alarms[a].tags 8 10, s.an.setups[n].slot.val, ((outputValues s n j).headD 0).toInt, ((n.val * 256 + j.val) * 65536 + a.val : Int))) ∧
        t.blaze.out.length = s.blaze.out.length + 1 ∧ { t with regs := s.regs, an := s.an, blaze := s.blaze, fresh := s.fresh } = s ∧
        sameBut [AN_EVAL n, alarmField a, AN_EVT_ALARM, BZ_SEQ_NEXT] s t) ∧
  (∀ (n : Fin 32) (b : HistRec) (a : Fin 32) (s : State),
      setupRuns s n = true → blockCause (tagOf s.an.setups[n].tags 9 0 == 1) none (s.an.setups[n].reach s.slots[s.an.setups[n].slot].rate) 0 = none →
      s.an.setups[n].angleSpoilt = none → s.an.setups[n].peerSpoilt s.slots[s.an.setups[n].slot].rate = none →
      s.an.setups[n].need s.slots[s.an.setups[n].slot].rate ≤ s.an.setups[n].hist.length → s.an.setups[n].again = false →
      (s.an.setups[n].block s.slots[s.an.setups[n].slot].rate).getLast? = some b → s.an.setups[n].func = 1 → tagOf s.an.setups[n].tags 7 0 ≠ 1 →
      s.an.setups[n].route.testBit 0 = false → s.an.setups[n].route.testBit 1 = false → s.an.setups[n].route.testBit 2 = false →
      ((if s.an.setups[n].proc = 0 then s.an.owes0 else s.an.owes1) = false) → (∀ c : Fin 32, c ≠ a → s.an.alarms[c].tags = []) →
      s.an.alarms[a].tags ≠ [] → b.t < s.an.released + s.get AN_CFG_REARM * 8000000000 →
      ∃ t, exec (.anEvaluation n) s = .next t ∧
        t.an.alarms = s.an.alarms ∧ t.blaze = s.blaze ∧ t.get (AN_EVAL n) = (s.get (AN_EVAL n) + 1) % 2 ^ 32 ∧
        { t with regs := s.regs, an := s.an, fresh := s.fresh } = s ∧ sameBut [AN_EVAL n] s t) ∧
  (∀ (n : Fin 32) (p : Trend) (s : State),
      setupRuns s n = true → s.an.setups[n].route.testBit 1 = true → s.an.setups[n].trends = [p] → trendOver s s.an.setups[n] = true → p.odd = false →
      0 < p.count →
      ∃ t, exec (.anTrendPoint n) s = .next t ∧
        t.an.setups[n].trends = [{ points := (p.points ++ [(⟨p.at_, p.count, toF32 p.lo (2 ^ 149), toF32 p.sum (p.count * 2 ^ 149), toF32 p.hi (2 ^ 149), p.q⟩ : TrendPoint)]).drop (p.points.length - 255), at_ := p.at_ + s.an.setups[n].trsec * 8000000000 }] ∧
        (∀ m : Fin 32, m ≠ n → t.an.setups[m] = s.an.setups[m]) ∧ t.an.features = s.an.features ∧ { t with an := s.an, free := s.free } = s) ∧
  (∀ (door : Initiator) (n : Fin 32) (p : Trend) (q : TrendPoint) (s : State),
      doorOpen s door 0x1903 = true → s.get ID_DOMST_WSTATE = 2 → s.live = true → s.keys.lineKey.isSome = true → s.an.setups[n].func = 6 →
      s.an.setups[n].trends = [p] → p.points = [q] → s.net.features = [] → streamsWait s = false →
      shareAllows s bothPorts (messageLen (streamGroupHead s) (featurePay s [⟨n.val * 256 + 1, q.q, 2, q.at_, 0, s.an.setups[n].trsec, 4, 0, [q.lo, q.mean, q.hi, toF32 q.count 1]⟩])) = true →
      ∃ t, exec (.anTrendDump door n) s = .next t ∧
        t.tx = s.tx ++ [s.cyFrame .a (streamGroupHead s) (.feature (s.get BZ_CFG_STN) s.flash.run [⟨n.val * 256 + 1, q.q, 2, q.at_, 0, s.an.setups[n].trsec, 4, 0, [q.lo, q.mean, q.hi, toF32 q.count 1]⟩]) true, s.cyFrame .b (streamGroupHead s) (.feature (s.get BZ_CFG_STN) s.flash.run [⟨n.val * 256 + 1, q.q, 2, q.at_, 0, s.an.setups[n].trsec, 4, 0, [q.lo, q.mean, q.hi, toF32 q.count 1]⟩]) true] ∧
        t.net.mseq = s.net.mseq + 1 ∧ t.an = s.an ∧ { t with net := s.net, tx := s.tx, flash := s.flash } = s ∧
        { t.flash with mseqRes := s.flash.mseqRes } = s.flash)

/-- 13 R336 to R338: a fault stops the running partition, revokes its leases and counts toward the four stops that halt it; its restart counts, and its start call says why; at its share's end it is stopped for the rest of the 10 ms window. Each service answers a status and words in its mailbox slot, whose OWN byte goes back, and does what its row says: time,
attached slots with their rings, leased ring views, features read and published, a Blaze of SRC 0x22 with severity at most 11, a word for a pin engine, a timer. A bad argument is status 1, a secure block status 2, no memory or no lease status 3, a revoked lease status 4.
Completes: upFault, upRestart, anUpRestartCmd, anTrendDump, upPreempt, upHeartbeat, upTime, upAttach, upDetach, upOpenView, upReadView, upCloseView,
upReadFeature, upPublish, upBlaze, upEngineWord, upTimer, upTimerExpiry. -/
def Obligations.PartitionServicesAnswerInTheMailbox : Prop :=
  (∀ (code : Nat) (s : State),
      partitionOn s = true → 1 ≤ code → code ≤ 3 → faultDue s code = true → (∀ l : Fin 32, s.get (LS_KIND l) = 0 ∨ s.get (LS_HOLDER l) ≠ 2) →
      ∃ t, exec (.upFault code) s = .next t ∧
        (t.get AN_UPST_STATE = if 3 ≤ s.get AN_UPST_RESTARTS then 3 else 2) ∧ t.get AN_UPST_FAULT = code ∧ t.get AN_EVT_UPFAULT = 1 ∧
        t.an = { s.an with upWatch := 0, timer := none, upBad := false, upAt := s.pwr.ticks, upBytes := Vector.replicate 16 0, upRing := Vector.replicate 16 [] } ∧
        { t with regs := s.regs, an := s.an, fresh := s.fresh } = s ∧ sameBut [AN_UPST_STATE, AN_UPST_FAULT, AN_EVT_UPFAULT] s t) ∧
  (∀ (s : State),
      s.live = true → s.get ID_DOMST_WSTATE = 2 → s.get AN_UPST_STATE = 2 → passed s s.an.upAt 10 = true →
      ∃ t, exec (.upRestart) s = .next t ∧
        t.get AN_UPST_STATE = 1 ∧ t.get AN_UPST_RESTARTS = min 255 (s.get AN_UPST_RESTARTS + 1) ∧
        t.an = { s.an with upAt := s.pwr.ticks, upStart := some (.fault (s.get AN_UPST_FAULT)), upStop := 0 } ∧
        { t with regs := s.regs, an := s.an, fresh := s.fresh } = s ∧ sameBut [AN_UPST_STATE, AN_UPST_RESTARTS] s t) ∧
  (∀ (door : Initiator) (s : State),
      doorOpen s door 0x1903 = true → s.get ID_DOMST_WSTATE = 2 → (s.get AN_UPST_STATE = 2 ∨ s.get AN_UPST_STATE = 3) →
      ∃ t, exec (.anUpRestartCmd door) s = .next t ∧
        t.get AN_UPST_STATE = 1 ∧ t.an = { s.an with upAt := s.pwr.ticks, upStart := some .command, upStop := 0 } ∧
        { t with regs := s.regs, an := s.an, fresh := s.fresh } = s ∧ sameBut [AN_UPST_STATE] s t) ∧
  (∀ (door : Initiator) (s : State),
      doorOpen s door 0x1903 = true → s.get ID_DOMST_WSTATE = 2 → (s.get AN_UPST_STATE = 0 ∨ s.get AN_UPST_STATE = 1) →
      ∃ t, exec (.anUpRestartCmd door) s = .next t ∧
        t = s) ∧
  (∀ (door : Initiator) (s : State),
      doorOpen s door 0x1903 = true → s.get ID_DOMST_WSTATE ≠ 2 →
      ∃ t, exec (.anUpRestartCmd door) s = .next t ∧
        t.get ID_DOMST_OFFACC = min 255 (s.get ID_DOMST_OFFACC + 1) ∧ onlyFields [ID_DOMST_OFFACC] s t) ∧
  (∀ (door : Initiator) (n : Fin 32) (s : State),
      doorOpen s door 0x1903 = true → s.get ID_DOMST_WSTATE ≠ 2 →
      ∃ t, exec (.anTrendDump door n) s = .next t ∧
        t.get ID_DOMST_OFFACC = min 255 (s.get ID_DOMST_OFFACC + 1) ∧ onlyFields [ID_DOMST_OFFACC] s t) ∧
  (∀ (s : State),
      partitionRuns s = true → s.get AN_UPCFG_SHARE * 2000000 ≤ 100 * (s.pwr.ticks % 2000000) →
      ∃ t, exec (.upPreempt) s = .next t ∧
        t.get AN_UPST_PREEMPT = min 255 (s.get AN_UPST_PREEMPT + 1) ∧ t.an = { s.an with upStop := (s.pwr.ticks / 2000000 + 1) * 2000000 } ∧
        { t with regs := s.regs, an := s.an, fresh := s.fresh } = s ∧ sameBut [AN_UPST_PREEMPT] s t) ∧
  (∀ (m : Fin 16) (s : State),
      partitionRuns s = true →
      ∃ t, exec (.upHeartbeat m) s = .next t ∧
        t.an.mailbox = s.an.mailbox.set m ⟨false, 1, 0, []⟩ ∧ t.bus = { s.bus with pulses := s.bus.pulses ++ [28] } ∧ t.an.upAt = s.pwr.ticks ∧
        { t with an := s.an, bus := s.bus } = s ∧ { t.an with mailbox := s.an.mailbox, upAt := s.an.upAt } = s.an) ∧
  (∀ (m : Fin 16) (s : State),
      partitionRuns s = true →
      ∃ t, exec (.upTime m) s = .next t ∧
        t.an.mailbox = s.an.mailbox.set m ⟨false, 2, 0, [BitVec.ofNat 32 (s.second / 2 ^ 32), BitVec.ofNat 32 s.second, BitVec.ofNat 32 s.time.ns, BitVec.ofNat 32 s.timeState]⟩ ∧
        t.bus = { s.bus with pulses := s.bus.pulses ++ [28] } ∧ { t with an := s.an, bus := s.bus } = s ∧ { t.an with mailbox := s.an.mailbox } = s.an) ∧
  (∀ (m : Fin 16) (slot : Fin 16) (bytes : Nat) (s : State),
      partitionRuns s = true → 4096 ≤ bytes → ringBytes s slot + bytes ≤ 262144 →
      ∃ t, exec (.upAttach m slot bytes) s = .next t ∧
        t.an.mailbox = s.an.mailbox.set m ⟨false, 3, 0, []⟩ ∧ t.bus = { s.bus with pulses := s.bus.pulses ++ [28] } ∧
        (∀ i : Fin 16, t.an.upWatch.testBit i = (s.an.upWatch.testBit i || decide (i = slot))) ∧ t.an.upBytes = s.an.upBytes.set slot bytes ∧
        t.an.upRing = s.an.upRing.set slot [] ∧ { t with an := s.an, bus := s.bus } = s ∧
        { t.an with upWatch := s.an.upWatch, upBytes := s.an.upBytes, upRing := s.an.upRing, mailbox := s.an.mailbox } = s.an) ∧
  (∀ (m : Fin 16) (slot : Fin 16) (bytes : Nat) (s : State),
      partitionRuns s = true → 4096 ≤ bytes → 262144 < ringBytes s slot + bytes →
      ∃ t, exec (.upAttach m slot bytes) s = .next t ∧
        t.an.mailbox = s.an.mailbox.set m ⟨false, 3, 3, []⟩ ∧ t.bus = { s.bus with pulses := s.bus.pulses ++ [28] } ∧
        { t with an := s.an, bus := s.bus } = s ∧ { t.an with mailbox := s.an.mailbox } = s.an) ∧
  (∀ (m : Fin 16) (slot bytes : Nat) (s : State),
      partitionRuns s = true → (16 ≤ slot ∨ bytes < 4096) →
      ∃ t, exec (.upAttach m slot bytes) s = .next t ∧
        t.an.mailbox = s.an.mailbox.set m ⟨false, 3, 1, []⟩ ∧ t.bus = { s.bus with pulses := s.bus.pulses ++ [28] } ∧
        { t with an := s.an, bus := s.bus } = s ∧ { t.an with mailbox := s.an.mailbox } = s.an) ∧
  (∀ (m : Fin 16) (slot : Fin 16) (s : State),
      partitionRuns s = true →
      ∃ t, exec (.upDetach m slot) s = .next t ∧
        t.an.mailbox = s.an.mailbox.set m ⟨false, 4, 0, []⟩ ∧ t.bus = { s.bus with pulses := s.bus.pulses ++ [28] } ∧
        (∀ i : Fin 16, t.an.upWatch.testBit i = (s.an.upWatch.testBit i && !decide (i = slot))) ∧ t.an.upBytes = s.an.upBytes.set slot 0 ∧
        t.an.upRing = s.an.upRing.set slot [] ∧ { t with an := s.an, bus := s.bus } = s ∧
        { t.an with upWatch := s.an.upWatch, upBytes := s.an.upBytes, upRing := s.an.upRing, mailbox := s.an.mailbox } = s.an) ∧
  (∀ (m : Fin 16) (slot : Fin 16) (at_ : Nat) (a : Block) (l : Fin 32) (s : State),
      partitionRuns s = true → blockSecure s 0 = false → (s.deck.rings[slot].held.filter (fun b => decide (at_ ≤ b.lastT)) = [a]) →
      takeLease s = some l →
      ∃ t, exec (.upOpenView m slot at_) s = .next t ∧
        t.an.mailbox = s.an.mailbox.set m ⟨false, 5, 0, [BitVec.ofNat 32 l]⟩ ∧ t.bus = { s.bus with pulses := s.bus.pulses ++ [28] } ∧
        t.get (LS_KIND l) = 1 ∧ t.get (LS_HOLDER l) = 2 ∧ t.get (LS_TGT l) = 1 ∧ t.get (LS_IDX l) = slot.val ∧ t.get (LS_REMMS l) = 200 ∧
        t.deck.leases[l] = { first := a.ssn, last := a.ssn, total := a.n } ∧ t.deck.rings = s.deck.rings ∧
        { t with regs := s.regs, deck := s.deck, an := s.an, bus := s.bus, fresh := s.fresh } = s ∧ { t.an with mailbox := s.an.mailbox } = s.an ∧
        sameBut [wholeWord (0x1180 + l.val)] s t) ∧
  (∀ (m : Fin 16) (slot at_ : Nat) (s : State),
      partitionRuns s = true → 16 ≤ slot →
      ∃ t, exec (.upOpenView m slot at_) s = .next t ∧
        t.an.mailbox = s.an.mailbox.set m ⟨false, 5, 1, []⟩ ∧ t.bus = { s.bus with pulses := s.bus.pulses ++ [28] } ∧
        { t with an := s.an, bus := s.bus } = s ∧ { t.an with mailbox := s.an.mailbox } = s.an) ∧
  (∀ (m : Fin 16) (l : Fin 32) (first n : Nat) (s : State),
      partitionRuns s = true → s.get (LS_KIND l) = 1 → s.get (LS_HOLDER l) = 2 → n ≤ 1024 → s.deck.leases[l].cap = none → s.deck.leases[l].seen = [] →
      ∃ t, exec (.upReadView m l first n) s = .next t ∧
        t.an.mailbox = s.an.mailbox.set m ⟨false, 6, 0, viewAnchors s l first n ++ leasedRecords s l (s.get (LS_IDX l)) first n⟩ ∧
        t.bus = { s.bus with pulses := s.bus.pulses ++ [28] } ∧ t.get (LS_REMMS l) = 200 ∧
        t.deck.leases[l].seen = [(s.get (LS_IDX l), first, first + n)] ∧
        (t.deck.leases[l].got = s.deck.leases[l].got + ((leasedBlocks s l (s.get (LS_IDX l))).flatMap fun b => b.within first n).length) ∧
        t.deck.rings = s.deck.rings ∧ { t with regs := s.regs, deck := s.deck, an := s.an, bus := s.bus, fresh := s.fresh } = s ∧
        { t.an with mailbox := s.an.mailbox } = s.an ∧ sameBut [LS_REMMS l] s t) ∧
  (∀ (m : Fin 16) (l : Fin 32) (first n : Nat) (s : State),
      partitionRuns s = true → s.get (LS_KIND l) ≠ 1 →
      ∃ t, exec (.upReadView m l first n) s = .next t ∧
        t.an.mailbox = s.an.mailbox.set m ⟨false, 6, 4, []⟩ ∧ t.bus = { s.bus with pulses := s.bus.pulses ++ [26, 28] } ∧
        { t with an := s.an, bus := s.bus } = s ∧ { t.an with mailbox := s.an.mailbox } = s.an) ∧
  (∀ (m : Fin 16) (l : Fin 32) (i : Fin 16) (s : State),
      partitionRuns s = true → s.get (LS_KIND l) = 1 → s.get (LS_HOLDER l) = 2 → s.get (LS_TGT l) = 1 → s.get (LS_IDX l) = i.val →
      ∃ t, exec (.upCloseView m l) s = .next t ∧
        t.an.mailbox = s.an.mailbox.set m ⟨false, 7, 0, []⟩ ∧ t.bus = { s.bus with pulses := s.bus.pulses ++ [28] } ∧ t.get (LS_KIND l) = 0 ∧
        (s.deck.rings[i].held.length + (if s.deck.rings[i].flight.isSome then 1 else 0) ≤ s.deck.rings[i].size → t.deck.rings = s.deck.rings) ∧
        t.deck.rings[i].held.Sublist s.deck.rings[i].held ∧ (∀ j : Fin 16, j ≠ i → t.deck.rings[j] = s.deck.rings[j]) ∧ t.deck.caps = s.deck.caps ∧
        { t with regs := s.regs, deck := s.deck, an := s.an, bus := s.bus, fresh := s.fresh } = s ∧ { t.an with mailbox := s.an.mailbox } = s.an ∧
        sameBut [wholeWord (0x1180 + l.val), DK_RING_BLOCKS i, DK_ACC_FREE, DK_ACC_HELD, DK_ACC_FLIGHT] s t) ∧
  (∀ (m : Fin 16) (fid : Nat) (e : FeatEntry) (s : State),
      partitionRuns s = true → (s.an.features.find? (fun e => e.fid == fid) = some e) →
      ∃ t, exec (.upReadFeature m fid) s = .next t ∧
        t.an.mailbox = s.an.mailbox.set m ⟨false, 8, 0, [BitVec.ofNat 32 (e.fid * 65536 + e.q), BitVec.ofNat 32 (timeSec e.t), BitVec.ofNat 32 (timeSec e.t / 2 ^ 32), BitVec.ofNat 32 (timeNs e.t), BitVec.ofNat 32 e.ssn, BitVec.ofNat 32 (e.ssn / 2 ^ 32), BitVec.ofNat 32 e.blen] ++ e.values⟩ ∧
        t.bus = { s.bus with pulses := s.bus.pulses ++ [28] } ∧ { t with an := s.an, bus := s.bus } = s ∧ { t.an with mailbox := s.an.mailbox } = s.an) ∧
  (∀ (m : Fin 16) (out : Nat) (v : Word) (q : Nat) (s : State),
      partitionRuns s = true → out < 32 → s.keys.lineKey.isSome = true → s.net.features = [] → streamsWait s = false →
      shareAllows s bothPorts (messageLen (streamGroupHead s) (featurePay s [⟨0, 0, 0, 0, 0, 0, 0, 0, [v]⟩])) = true →
      ∃ t, exec (.upPublish m out v q) s = .next t ∧
        t.an.mailbox = s.an.mailbox.set m ⟨false, 9, 0, []⟩ ∧ t.bus = { s.bus with pulses := s.bus.pulses ++ [28] } ∧
        ((t.an.features.find? (fun x => x.fid == 0xF000 + out)).map (fun e => (e.q, e.etype, e.values)) = some (q % 256, 0, [v])) ∧
        (t.tx = s.tx ++ (t.an.features.take 1).flatMap (fun e => [s.cyFrame .a (streamGroupHead s) (.feature (s.get BZ_CFG_STN) s.flash.run [e]) true, s.cyFrame .b (streamGroupHead s) (.feature (s.get BZ_CFG_STN) s.flash.run [e]) true])) ∧
        (t.an.features.take 1).map (·.fid) = [0xF000 + out] ∧
        { t with an := s.an, free := s.free, net := s.net, tx := s.tx, flash := s.flash, bus := s.bus } = s ∧
        { t.flash with mseqRes := s.flash.mseqRes } = s.flash) ∧
  (∀ (m : Fin 16) (kind sev : Nat) (v0 v1 : Int) (s : State),
      partitionRuns s = true → blazeCount s 0x22 < s.get BZ_CFG_PERSEC → ownRoute s 0x22 = 16 →
      ∃ t, exec (.upBlaze m kind sev v0 v1) s = .next t ∧
        t.an.mailbox = s.an.mailbox.set m ⟨false, 10, 0, []⟩ ∧ t.bus = { s.bus with pulses := s.bus.pulses ++ [28] } ∧
        ((t.blaze.out.map (fun b => (b.src, b.kind, b.sev, b.slot, b.val0, b.val1))).getLast? = some (0x22, kind % 256, min 11 sev, 0xFF, v0, v1)) ∧
        t.get BZ_SEQ_NEXT = (s.get BZ_SEQ_NEXT + 1) % 65536 ∧
        { t with regs := s.regs, an := s.an, blaze := s.blaze, bus := s.bus, fresh := s.fresh } = s ∧ { t.an with mailbox := s.an.mailbox } = s.an ∧
        sameBut [BZ_SEQ_NEXT] s t) ∧
  (∀ (m : Fin 16) (e : Fin 8) (w : Word) (s : State),
      partitionRuns s = true → blockSecure s 2 = false → s.engines[e].tx.length < txDepth s e →
      ∃ t, exec (.upEngineWord m e w) s = .next t ∧
        t.an.mailbox = s.an.mailbox.set m ⟨false, 11, 0, []⟩ ∧ t.bus = { s.bus with pulses := s.bus.pulses ++ [28] } ∧
        t.engines[e] = { s.engines[e] with tx := s.engines[e].tx ++ [w], txNew := s.engines[e].txNew + 1 } ∧
        (∀ f : Fin 8, f ≠ e → t.engines[f] = s.engines[f]) ∧ t.get (PE_TXIN e) = (s.get (PE_TXIN e) + 1) % 2 ^ 32 ∧
        { t with regs := s.regs, an := s.an, engines := s.engines, bus := s.bus, fresh := s.fresh } = s ∧ { t.an with mailbox := s.an.mailbox } = s.an) ∧
  (∀ (m : Fin 16) (e : Nat) (w : Word) (s : State),
      partitionRuns s = true → blockSecure s 2 = true →
      ∃ t, exec (.upEngineWord m e w) s = .next t ∧
        t.an.mailbox = s.an.mailbox.set m ⟨false, 11, 2, []⟩ ∧ t.bus = { s.bus with pulses := s.bus.pulses ++ [28] } ∧
        { t with an := s.an, bus := s.bus } = s ∧ { t.an with mailbox := s.an.mailbox } = s.an) ∧
  (∀ (m : Fin 16) (us : Nat) (p : Bool) (s : State),
      partitionRuns s = true → 1000 ≤ us → us ≤ 60000000 →
      ∃ t, exec (.upTimer m us p) s = .next t ∧
        t.an.mailbox = s.an.mailbox.set m ⟨false, 12, 0, []⟩ ∧ t.bus = { s.bus with pulses := s.bus.pulses ++ [28] } ∧
        t.an.timer = some (us, p, s.pwr.ticks) ∧ { t with an := s.an, bus := s.bus } = s ∧
        { t.an with mailbox := s.an.mailbox, timer := s.an.timer } = s.an) ∧
  (∀ (m : Fin 16) (us : Nat) (p : Bool) (s : State),
      partitionRuns s = true → (us < 1000 ∨ 60000000 < us) →
      ∃ t, exec (.upTimer m us p) s = .next t ∧
        t.an.mailbox = s.an.mailbox.set m ⟨false, 12, 1, []⟩ ∧ t.bus = { s.bus with pulses := s.bus.pulses ++ [28] } ∧
        { t with an := s.an, bus := s.bus } = s ∧ { t.an with mailbox := s.an.mailbox } = s.an) ∧
  (∀ (us a : Nat) (p : Bool) (s : State),
      partitionOn s = true → s.an.timer = some (us, p, a) → a + us * 200 ≤ s.pwr.ticks →
      ∃ t, exec (.upTimerExpiry) s = .next t ∧
        (t.an.timer = if p then some (us, true, a + us * 200) else none) ∧ t.bus = { s.bus with pulses := s.bus.pulses ++ [29] } ∧
        { t with an := s.an, bus := s.bus } = s ∧ { t.an with timer := s.an.timer } = s.an)

/-- 13 R326, R327: the records of a peer that a running cross-spectrum setup names join those that pair with it by grid time; another run number, or the end of a rate mismatch, starts the linear average afresh; records of another rate never join and
make the setup wait. A whole block with its pairs is used; a gap, a marker or another run number among the pairs discards it, and so do records that are missing at the skew limit, when the setup waits for its peer.
Completes: peerStreamPublicationReceive, anEvaluation, crossSpectrumSkewExpiry. -/
def Obligations.PeerRecordsJoinTheirCrossSpectrum : Prop :=
  (∀ (d : Datagram) (p : PeerPub) (n : Fin 32) (s : State),
      d.typ = 1 → (cyCheck s d).1 = true → pubOf (plain s d) = p → setupRuns s n = true → s.an.setups[n].func = 7 →
      tagOf s.an.setups[n].tags 0x20 0 = p.stn → tagOf s.an.setups[n].tags 0x21 0 = p.slot → (∀ m : Fin 32, m ≠ n → s.an.setups[m].tags = []) →
      p.rate = s.slots[s.an.setups[n].slot].rate →
      ∃ t, exec (.peerStreamPublicationReceive d) s = .next t ∧
        t.an.setups[n].peerRun = some p.run ∧
        (t.an.setups[n].peer = s.an.setups[n].peer ++ (List.range p.recs.length).map (fun k => (⟨p.t + k * interval s.slots[s.an.setups[n].slot].rate, p.ssn + k, p.run, p.recs.getD k 0⟩ : PeerRec))) ∧
        t.an.setups[n].mismatch = false ∧ t.get (AN_SET_STATE n) = 1 ∧ t.an.setups[n].bads = s.an.setups[n].bads ∧
        (t.an.setups[n].used = if (s.an.setups[n].peerRun.isSome = true ∧ s.an.setups[n].peerRun ≠ some p.run) ∨ s.an.setups[n].mismatch = true then 0 else s.an.setups[n].used) ∧
        t.an.setups[n].hist = s.an.setups[n].hist ∧ t.an.setups[n].peerAt = s.now ∧ t.an.features = s.an.features ∧
        (∀ m : Fin 32, m ≠ n → t.an.setups[m] = s.an.setups[m]) ∧ { t with regs := s.regs, an := s.an, net := s.net, fresh := s.fresh } = s ∧
        sameBut [AN_SET_STATE n, AN_SET_REF n, AN_SET_LOAD n, AN_ST_SETUPS, AN_ST_LOAD0, AN_ST_LOAD1] s t) ∧
  (∀ (d : Datagram) (p : PeerPub) (n : Fin 32) (s : State),
      d.typ = 1 → (cyCheck s d).1 = true → pubOf (plain s d) = p → setupRuns s n = true → s.an.setups[n].func = 7 →
      tagOf s.an.setups[n].tags 0x20 0 = p.stn → tagOf s.an.setups[n].tags 0x21 0 = p.slot → (∀ m : Fin 32, m ≠ n → s.an.setups[m].tags = []) →
      p.rate ≠ s.slots[s.an.setups[n].slot].rate →
      ∃ t, exec (.peerStreamPublicationReceive d) s = .next t ∧
        t.an.setups[n].peerRun = some p.run ∧ t.an.setups[n].peer = s.an.setups[n].peer ∧ t.an.setups[n].mismatch = true ∧
        t.get (AN_SET_STATE n) = 2 ∧ t.an.setups[n].bads = s.an.setups[n].bads ++ [(p.t, p.t + p.recs.length * interval p.rate)] ∧
        t.an.features = s.an.features ∧ (∀ m : Fin 32, m ≠ n → t.an.setups[m] = s.an.setups[m]) ∧
        { t with regs := s.regs, an := s.an, net := s.net, fresh := s.fresh } = s) ∧
  (∀ (n : Fin 32) (w : Nat) (s : State),
      setupRuns s n = true → blockCause (tagOf s.an.setups[n].tags 9 0 == 1) none (s.an.setups[n].reach s.slots[s.an.setups[n].slot].rate) 0 = none →
      s.an.setups[n].func = 7 → s.an.setups[n].peerSpoilt s.slots[s.an.setups[n].slot].rate = some w →
      ∃ t, exec (.anEvaluation n) s = .next t ∧
        t.get (AN_SET_SKIP n) = min 255 (s.get (AN_SET_SKIP n) + 1) ∧ t.get AN_EVT_SKIP = 1 ∧ t.an.features = s.an.features ∧
        (∀ m : Fin 32, m ≠ n → t.an.setups[m] = s.an.setups[m]) ∧
        (t.an.setups[n].hist = (s.an.setups[n].hist.dropWhile fun y => decide (y.t < w)).dropWhile (fun r => wordKind r.w != 0)) ∧
        t.an.setups[n].tags = s.an.setups[n].tags ∧ { t with regs := s.regs, an := s.an, fresh := s.fresh } = s ∧
        sameBut [AN_SET_SKIP n, AN_EVT_SKIP] s t) ∧
  (∀ (n : Fin 32) (s : State),
      setupRuns s n = true → blockCause (tagOf s.an.setups[n].tags 9 0 == 1) none (s.an.setups[n].reach s.slots[s.an.setups[n].slot].rate) 0 = none →
      s.an.setups[n].angleSpoilt = none → s.an.setups[n].peerSpoilt s.slots[s.an.setups[n].slot].rate = none →
      s.an.setups[n].need s.slots[s.an.setups[n].slot].rate ≤ s.an.setups[n].hist.length → s.an.setups[n].func = 7 →
      (s.an.setups[n].pairs s.slots[s.an.setups[n].slot].rate).length < s.an.setups[n].need s.slots[s.an.setups[n].slot].rate →
      ∃ t, exec (.anEvaluation n) s = .next t ∧
        t = s) ∧
  (∀ (n : Fin 32) (b : HistRec) (s : State),
      setupRuns s n = true → blockCause (tagOf s.an.setups[n].tags 9 0 == 1) none (s.an.setups[n].reach s.slots[s.an.setups[n].slot].rate) 0 = none →
      s.an.setups[n].angleSpoilt = none → s.an.setups[n].peerSpoilt s.slots[s.an.setups[n].slot].rate = none →
      s.an.setups[n].need s.slots[s.an.setups[n].slot].rate ≤ s.an.setups[n].hist.length → s.an.setups[n].again = false →
      (s.an.setups[n].block s.slots[s.an.setups[n].slot].rate).getLast? = some b → s.an.setups[n].func = 7 →
      (s.an.setups[n].pairs s.slots[s.an.setups[n].slot].rate).length = s.an.setups[n].need s.slots[s.an.setups[n].slot].rate →
      tagOf s.an.setups[n].tags 7 0 ≠ 1 → s.an.setups[n].route.testBit 0 = false → s.an.setups[n].route.testBit 1 = false →
      s.an.setups[n].route.testBit 2 = false → (∀ a : Fin 32, s.an.alarms[a].tags = []) →
      ((if s.an.setups[n].proc = 0 then s.an.owes0 else s.an.owes1) = false) →
      ∃ t, exec (.anEvaluation n) s = .next t ∧
        (∀ j : Fin 5, t.an.features.find? (fun e => e.fid == n.val * 256 + j.val) = some (featureOf n b (s.an.setups[n].block s.slots[s.an.setups[n].slot].rate).length (quality s.an.setups[n] s.slots[s.an.setups[n].slot].rate) j (outputValues s n j))) ∧
        t.an.setups[n].hist = s.an.setups[n].hist.drop (s.an.setups[n].need s.slots[s.an.setups[n].slot].rate / 2 ^ tagOf s.an.setups[n].tags 5 0) ∧
        (∀ m : Fin 32, m ≠ n → t.an.setups[m] = s.an.setups[m]) ∧ t.get (AN_EVAL n) = (s.get (AN_EVAL n) + 1) % 2 ^ 32 ∧
        { t with regs := s.regs, an := s.an, fresh := s.fresh } = s ∧ sameBut [AN_EVAL n] s t) ∧
  (∀ (n : Fin 32) (s : State),
      setupRuns s n = true → s.an.setups[n].func = 7 → blockLate s s.an.setups[n] = true → peerAway s s.an.setups[n] = true →
      ∃ t, exec (.crossSpectrumSkewExpiry n) s = .next t ∧
        t.get (AN_SET_STATE n) = 2 ∧ t.get (AN_SET_SKIP n) = min 255 (s.get (AN_SET_SKIP n) + 1) ∧ t.get AN_EVT_SKIP = 1 ∧
        t.an.features = s.an.features ∧ (∀ m : Fin 32, m ≠ n → t.an.setups[m] = s.an.setups[m]) ∧
        (t.an.setups[n].hist = (s.an.setups[n].hist.drop (s.an.setups[n].need s.slots[s.an.setups[n].slot].rate)).dropWhile (fun r => wordKind r.w != 0)) ∧
        { t with regs := s.regs, an := s.an, fresh := s.fresh } = s ∧
        sameBut [AN_SET_STATE n, AN_SET_SKIP n, AN_EVT_SKIP, AN_ST_SETUPS, AN_ST_LOAD0, AN_ST_LOAD1] s t) ∧
  (∀ (n : Fin 32) (s : State),
      setupRuns s n = true → s.an.setups[n].func = 7 → blockLate s s.an.setups[n] = true → peerAway s s.an.setups[n] = false →
      ∃ t, exec (.crossSpectrumSkewExpiry n) s = .next t ∧
        t.get (AN_SET_SKIP n) = min 255 (s.get (AN_SET_SKIP n) + 1) ∧ t.get AN_EVT_SKIP = 1 ∧ t.an.features = s.an.features ∧
        (∀ m : Fin 32, m ≠ n → t.an.setups[m] = s.an.setups[m]) ∧
        (t.an.setups[n].hist = (s.an.setups[n].hist.drop (s.an.setups[n].need s.slots[s.an.setups[n].slot].rate)).dropWhile (fun r => wordKind r.w != 0)) ∧
        { t with regs := s.regs, an := s.an, fresh := s.fresh } = s ∧ sameBut [AN_SET_SKIP n, AN_EVT_SKIP] s t) ∧
  (∀ (n : Fin 32) (s : State),
      setupRuns s n = true → s.an.setups[n].func = 7 → blockLate s s.an.setups[n] = false → skewOver s s.an.setups[n] s.an.setups[n].peerAt = true →
      ∃ t, exec (.crossSpectrumSkewExpiry n) s = .next t ∧
        t.get (AN_SET_STATE n) = 2 ∧ t.an = s.an ∧ { t with regs := s.regs, fresh := s.fresh } = s ∧
        sameBut [AN_SET_STATE n, AN_ST_SETUPS, AN_ST_LOAD0, AN_ST_LOAD1] s t)

/-- 18 R447 to R455: an edge counts in ACC and sets pending, enabled or not; a full ACC counts in IC_OVF; a grouped edge counts in its group, which fires at its count or time. Set and clear words change the pending and enable bits of the sources
they name; a cleared pending bit gives its count to IC_DISC. A claim takes the lowest source that qualifies, returns its count and makes it active; with none it answers 255 or 0 by the latch and keeps it; a completion ends the
service, and one that names another source is ignored and shown.
Completes: irqSourceEdge, irqGroupFire, irqPendSet, irqPendClear, irqEnableSet, irqEnableClear, irqClaim, irqComplete. -/
def Obligations.InterruptEventsAreCountedGroupedAndDelivered : Prop :=
  (∀ (n : Fin 160) (tg : Fin 4) (s : State),
      s.alive = true → n.val < 128 → irqListed n = true → lineRose s n = true → s.get (IC_SRC_GROUP n) = 0 → s.get (IC_SRC_ACC n) < 0xFFFFF →
      irqBit s 0x1600 n = true → irqBit s 0x1620 n = false → (s.get (IC_SRC_TGT n)).testBit tg = true → irqWorld s (targetSecure s tg) n = true →
      s.bus.targets[tg].active = none →
      ∃ t, exec (.irqSourceEdge n) s = .next t ∧
        t.get (IC_SRC_ACC n) = s.get (IC_SRC_ACC n) + 1 ∧ irqBit t 0x1610 n = true ∧ (t.get IC_ST_LINE).testBit tg = true ∧
        ((s.get IC_ST_LINE).testBit tg = false → t.get (IC_TST_SIGNALLED tg) = 1) ∧
        (t.bus.pulses = if irqPulse n then s.bus.pulses.erase n else s.bus.pulses) ∧
        (t.bus.sensed = if irqPulse n then s.bus.sensed else n.val :: s.bus.sensed) ∧
        { t.bus with pulses := s.bus.pulses, sensed := s.bus.sensed } = s.bus ∧ { t with regs := s.regs, bus := s.bus, fresh := s.fresh } = s ∧
        sameBut [IC_SRC_ACC n, ⟨0x1610 + n.val / 32, n.val % 32, 1⟩, IC_ST_LINE, IC_ST_SLEEP, IC_TST_SIGNALLED 0, IC_TST_SIGNALLED 1, IC_TST_SIGNALLED 2, IC_TST_SIGNALLED 3] s t) ∧
  (∀ (n : Fin 160) (s : State),
      s.alive = true → n.val < 128 → irqListed n = true → lineRose s n = true → s.get (IC_SRC_GROUP n) = 0 → s.get (IC_SRC_ACC n) = 0xFFFFF →
      ∃ t, exec (.irqSourceEdge n) s = .next t ∧
        t.get (IC_SRC_ACC n) = 0xFFFFF ∧ t.get IC_OVF = (s.get IC_OVF + 1) % 2 ^ 32 ∧ t.get (IC_SRC_SAT n) = 1 ∧ t.get IC_EVT_ACCSAT = 1 ∧
        irqBit t 0x1610 n = true ∧ (t.bus.pulses = if irqPulse n then s.bus.pulses.erase n else s.bus.pulses) ∧
        (t.bus.sensed = if irqPulse n then s.bus.sensed else n.val :: s.bus.sensed) ∧
        { t.bus with pulses := s.bus.pulses, sensed := s.bus.sensed } = s.bus ∧ { t with regs := s.regs, bus := s.bus, fresh := s.fresh } = s ∧
        sameBut [IC_OVF, IC_SRC_SAT n, IC_EVT_ACCSAT, ⟨0x1610 + n.val / 32, n.val % 32, 1⟩, IC_ST_LINE, IC_ST_SLEEP, IC_TST_SIGNALLED 0, IC_TST_SIGNALLED 1, IC_TST_SIGNALLED 2, IC_TST_SIGNALLED 3] s t) ∧
  (∀ (n : Fin 160) (g : Fin 16) (s : State),
      s.alive = true → n.val < 128 → irqListed n = true → lineRose s n = true → s.get (IC_SRC_GROUP n) = g.val + 1 → s.get (IC_SRC_ACC n) < 0xFFFFF →
      s.get (IC_GST_CUR g) + 1 < s.get (IC_GCFG_COUNT g) →
      ∃ t, exec (.irqSourceEdge n) s = .next t ∧
        t.get (IC_SRC_ACC n) = s.get (IC_SRC_ACC n) + 1 ∧ t.get (IC_GST_CUR g) = s.get (IC_GST_CUR g) + 1 ∧
        (∀ m : Fin 160, irqBit t 0x1610 m = irqBit s 0x1610 m) ∧
        t.bus.groupAt[g] = (match s.bus.groupAt[g] with | none => some s.pwr.ticks | some x => some x) ∧
        (∀ h : Fin 16, h ≠ g → t.bus.groupAt[h] = s.bus.groupAt[h]) ∧ (t.bus.pulses = if irqPulse n then s.bus.pulses.erase n else s.bus.pulses) ∧
        (t.bus.sensed = if irqPulse n then s.bus.sensed else n.val :: s.bus.sensed) ∧ { t with regs := s.regs, bus := s.bus, fresh := s.fresh } = s ∧
        { t.bus with groupAt := s.bus.groupAt, pulses := s.bus.pulses, sensed := s.bus.sensed } = s.bus ∧
        sameBut [IC_SRC_ACC n, IC_GST_CUR g, IC_ST_LINE, IC_ST_SLEEP, IC_TST_SIGNALLED 0, IC_TST_SIGNALLED 1, IC_TST_SIGNALLED 2, IC_TST_SIGNALLED 3] s t) ∧
  (∀ (n : Fin 160) (g : Fin 16) (s : State),
      s.alive = true → n.val < 128 → irqListed n = true → lineRose s n = true → s.get (IC_SRC_GROUP n) = g.val + 1 → s.get (IC_SRC_ACC n) < 0xFFFFF →
      s.get (IC_GST_CUR g) < 255 → s.get (IC_GCFG_COUNT g) ≤ s.get (IC_GST_CUR g) + 1 →
      ∃ t, exec (.irqSourceEdge n) s = .next t ∧
        t.get (IC_SRC_ACC n) = s.get (IC_SRC_ACC n) + 1 ∧ t.get (IC_GST_CUR g) = 0 ∧ t.bus.groupAt[g] = none ∧ irqBit t 0x1610 n = true ∧
        (∀ m : Fin 160, irqBit t 0x1610 m = (irqBit s 0x1610 m || (s.get (IC_SRC_GROUP m) == g.val + 1 && t.get (IC_SRC_ACC m) != 0)))) ∧
  (∀ (g : Fin 16) (at_ : Nat) (s : State),
      s.alive = true → s.bus.groupAt[g] = some at_ → at_ + 200 * s.get (IC_GCFG_TIME g) ≤ s.pwr.ticks →
      ∃ t, exec (.irqGroupFire g) s = .next t ∧
        t.get (IC_GST_CUR g) = 0 ∧ t.bus.groupAt[g] = none ∧
        (∀ m : Fin 160, irqBit t 0x1610 m = (irqBit s 0x1610 m || (s.get (IC_SRC_GROUP m) == g.val + 1 && s.get (IC_SRC_ACC m) != 0))) ∧
        (∀ m : Fin 160, t.get (IC_SRC_ACC m) = s.get (IC_SRC_ACC m)) ∧ { t with regs := s.regs, bus := s.bus, fresh := s.fresh } = s) ∧
  (∀ (door : Initiator) (j : Fin 5) (v : Word) (s : State),
      doorOpen s door (0x1610 + j.val) = true →
      ∃ t, exec (.irqPendSet door j v) s = .next t ∧
        (∀ n : Fin 160, irqBit t 0x1610 n = (irqBit s 0x1610 n || (n.val / 32 == j.val && v.getLsbD (n.val % 32) && irqListed n))) ∧
        (∀ n : Fin 160, n.val / 32 = j.val → v.getLsbD (n.val % 32) = true → irqListed n = true → t.get (IC_SRC_ACC n) = min 0xFFFFF (s.get (IC_SRC_ACC n) + 1)) ∧
        (∀ n : Fin 160, n.val / 32 ≠ j.val → t.get (IC_SRC_ACC n) = s.get (IC_SRC_ACC n)) ∧ (∀ n : Fin 160, irqBit t 0x1600 n = irqBit s 0x1600 n) ∧
        { t with regs := s.regs, fresh := s.fresh } = s) ∧
  (∀ (door : Initiator) (j : Fin 5) (v : Word) (s : State),
      doorOpen s door (0x1618 + j.val) = true →
      ∃ t, exec (.irqPendClear door j v) s = .next t ∧
        (∀ n : Fin 160, irqBit t 0x1610 n = (irqBit s 0x1610 n && (!(n.val / 32 == j.val && v.getLsbD (n.val % 32) && irqListed n) || irqNew s n || irqAgain s n))) ∧
        (∀ n : Fin 160, t.get (IC_SRC_ACC n) = (if n.val / 32 = j.val ∧ v.getLsbD (n.val % 32) = true ∧ irqListed n = true ∧ irqBit s 0x1610 n = true ∧ irqNew s n = false then irqLate s n else s.get (IC_SRC_ACC n))) ∧
        (t.get IC_DISC = (s.get IC_DISC + (((List.range 32).filter fun b => v.getLsbD b && irqListed (32 * j.val + b) && irqBit s 0x1610 (32 * j.val + b) && !irqNew s (32 * j.val + b)).map fun b => s.get (IC_SRC_ACC (32 * j.val + b)) - irqLate s (32 * j.val + b)).sum) % 2 ^ 32) ∧
        { t with regs := s.regs, fresh := s.fresh } = s) ∧
  (∀ (door : Initiator) (j : Fin 5) (v : Word) (s : State),
      doorOpen s door (0x1600 + j.val) = true →
      ∃ t, exec (.irqEnableSet door j v) s = .next t ∧
        (∀ n : Fin 160, irqBit t 0x1600 n = (irqBit s 0x1600 n || (n.val / 32 == j.val && v.getLsbD (n.val % 32) && irqListed n))) ∧
        onlyFields [wholeWord (0x1600 + j.val), IC_ST_LINE, IC_ST_SLEEP, IC_TST_SIGNALLED 0, IC_TST_SIGNALLED 1, IC_TST_SIGNALLED 2, IC_TST_SIGNALLED 3] s t) ∧
  (∀ (door : Initiator) (j : Fin 5) (v : Word) (s : State),
      doorOpen s door (0x1608 + j.val) = true →
      ∃ t, exec (.irqEnableClear door j v) s = .next t ∧
        (∀ n : Fin 160, irqBit t 0x1600 n = (irqBit s 0x1600 n && !(n.val / 32 == j.val && v.getLsbD (n.val % 32) && irqListed n))) ∧
        onlyFields [wholeWord (0x1600 + j.val), IC_ST_LINE, IC_ST_SLEEP, IC_TST_SIGNALLED 0, IC_TST_SIGNALLED 1, IC_TST_SIGNALLED 2, IC_TST_SIGNALLED 3] s t) ∧
  (∀ (p : Proc) (n : Nat) (s : State),
      procRuns s p = true → s.bus.targets[p.target].active = none → irqNext s p.target (procSecure s p) = some n →
      ∃ t, exec (.irqClaim p) s = .next t ∧
        t.get (IC_TST_ACTIVE p.target) = n % 256 ∧ irqBit t 0x1620 n = true ∧ irqBit t 0x1610 n = irqAgain s n ∧ t.get (IC_SRC_ACC n) = irqLate s n ∧
        t.get (IC_SRC_SAT n) = 0 ∧ t.get (IC_TST_SIGNALLED p.target) = 0 ∧
        t.bus.targets[p.target].active = some (n, s.get (IC_SRC_ACC n) - irqLate s n, s.bit (IC_SRC_SAT n)) ∧
        t.get (IC_LCLM_COUNT p.target) = s.get (IC_SRC_ACC n) - irqLate s n ∧ t.get (IC_LCLM_SRC p.target) = n % 256 ∧
        (t.get IC_ST_LINE).testBit p.target = false ∧
        (t.bus.reply = BitVec.ofNat 32 ((s.get (IC_SRC_ACC n) - irqLate s n) * 4096 + (if s.bit (IC_SRC_SAT n) then 2048 else 0) + n)) ∧
        (∀ m < n, irqQualifies s p.target (procSecure s p) m = false) ∧ { t with regs := s.regs, bus := s.bus, fresh := s.fresh } = s) ∧
  (∀ (p : Proc) (s : State),
      procRuns s p = true → s.bus.targets[p.target].active = none → irqNext s p.target (procSecure s p) = none →
      ∃ t, exec (.irqClaim p) s = .next t ∧
        (t.bus.reply = (if s.bit (IC_TST_SIGNALLED p.target) then 255 else 0)) ∧ { t with regs := s.regs, bus := s.bus, fresh := s.fresh } = s ∧
        t.bus.targets = s.bus.targets ∧ sameBut [IC_LCLM_COUNT p.target, IC_LCLM_SRC p.target] s t) ∧
  (∀ (p : Proc) (x : Nat × Nat × Bool) (s : State),
      procRuns s p = true → s.bus.targets[p.target].active = some x →
      ∃ t, exec (.irqClaim p) s = .next t ∧
        t.bus.reply = 0 ∧ { t with regs := s.regs, bus := s.bus, fresh := s.fresh } = s ∧ t.bus.targets = s.bus.targets ∧
        sameBut [IC_LCLM_COUNT p.target, IC_LCLM_SRC p.target] s t) ∧
  (∀ (p : Proc) (n c : Nat) (sat : Bool) (s : State),
      procRuns s p = true → s.bus.targets[p.target].active = some (n, c, sat) → n < 160 → irqWorld s (procSecure s p) n = true →
      (irqPulse n = true ∨ irqLevel s n = false) →
      ∃ t, exec (.irqComplete p n) s = .next t ∧
        t.bus.targets[p.target].active = none ∧ irqBit t 0x1620 n = false ∧ t.get (IC_TST_ACTIVE p.target) = 0 ∧
        irqBit t 0x1610 n = irqBit s 0x1610 n ∧ t.get (IC_SRC_ACC n) = s.get (IC_SRC_ACC n) ∧
        { t with regs := s.regs, bus := s.bus, fresh := s.fresh } = s ∧
        sameBut [⟨0x1620 + n / 32, n % 32, 1⟩, IC_TST_ACTIVE p.target, IC_ST_LINE, IC_ST_SLEEP, IC_TST_SIGNALLED 0, IC_TST_SIGNALLED 1, IC_TST_SIGNALLED 2, IC_TST_SIGNALLED 3] s t) ∧
  (∀ (p : Proc) (n c : Nat) (sat : Bool) (s : State),
      procRuns s p = true → s.bus.targets[p.target].active = some (n, c, sat) → n < 160 → irqWorld s (procSecure s p) n = true → irqPulse n = false →
      irqLevel s n = true → s.get (IC_SRC_ACC n) < 0xFFFFF →
      ∃ t, exec (.irqComplete p n) s = .next t ∧
        t.bus.targets[p.target].active = none ∧ irqBit t 0x1620 n = false ∧ irqBit t 0x1610 n = true ∧
        t.get (IC_SRC_ACC n) = s.get (IC_SRC_ACC n) + 1 ∧ { t with regs := s.regs, bus := s.bus, fresh := s.fresh } = s) ∧
  (∀ (p : Proc) (n : Nat) (s : State),
      procRuns s p = true → ((s.bus.targets[p.target].active.map (·.1)) ≠ some n ∨ irqWorld s (procSecure s p) n = false) →
      ∃ t, exec (.irqComplete p n) s = .next t ∧
        t.get IC_EVT_BADCOMP = 1 ∧ onlyFields [IC_EVT_BADCOMP] s t)

/-- 15 R383, R387, R399 to R401, R403, 16 R416: the load check gives the newest sealed position's result, and remembers the newest older one that passes. A commit is refused for the first reason that applies; an accepted one reserves the next COMSEQ, and its image is the base with a
trailer of the live changes and the next CSEQ; read back right it is sealed as the own image with ORIGIN 1 and the changes are no longer dirty; a mismatch tries the next position once. Staging erases, programs, seals what
passes its checks and enters UPDATE, and ends on a failed check or an abort.
Completes: tallyLoadCheck, tallyCommitCmd, tallyCommitDone, stagingOpen, stagingEraseDone, stagingBlockProgram, stagingDone, stagingAbort. -/
def Obligations.TallyImagesAreLoadedCommittedAndStaged : Prop :=
  (∀ (s : State),
      s.live = true → (s.mode = 2 ∨ s.mode = 3) → s.tally.checked = false → sealedOwn s = [] →
      ∃ t, exec (.tallyLoadCheck) s = .next t ∧
        t.get TL_ST_LRES = 1 ∧ t.get TL_EVT_LOADFAIL = 1 ∧ t.tally = { s.tally with checked := true, loadPos := none, olderPos := none } ∧
        t.flash.log = fitLog logUnits ((s.flash.run, .refusal 388) :: s.flash.log) ∧ { t.flash with log := s.flash.log } = s.flash ∧
        { t with regs := s.regs, tally := s.tally, flash := s.flash, fresh := s.fresh } = s ∧
        sameBut [TL_ST_LRES, TL_EVT_LOADFAIL, wholeWord 0x1702, wholeWord 0x1703] s t) ∧
  (∀ (x : SealRec) (l : List SealRec) (s : State),
      s.live = true → (s.mode = 2 ∨ s.mode = 3) → s.tally.checked = false → sealedOwn s = x :: l → sealedCheck s x = 0 →
      ∃ t, exec (.tallyLoadCheck) s = .next t ∧
        t.get TL_ST_LRES = 0 ∧
        (t.tally = { s.tally with checked := true, loadPos := some x.pos, olderPos := (l.find? fun y => sealedCheck s y == 0).map (·.pos) }) ∧
        { t with regs := s.regs, tally := s.tally, fresh := s.fresh } = s ∧ sameBut [TL_ST_LRES, wholeWord 0x1702, wholeWord 0x1703] s t) ∧
  (∀ (x : SealRec) (l : List SealRec) (s : State),
      s.live = true → (s.mode = 2 ∨ s.mode = 3) → s.tally.checked = false → sealedOwn s = x :: l → s.flash.vouched x = none →
      ∃ t, exec (.tallyLoadCheck) s = .next t ∧
        t.get TL_ST_LRES = 2 ∧ t.get TL_EVT_LOADFAIL = 1 ∧
        (t.tally = { s.tally with checked := true, loadPos := none, olderPos := (l.find? fun y => sealedCheck s y == 0).map (·.pos) }) ∧
        t.flash.log = fitLog logUnits ((s.flash.run, .refusal 388) :: s.flash.log) ∧ { t.flash with log := s.flash.log } = s.flash ∧
        { t with regs := s.regs, tally := s.tally, flash := s.flash, fresh := s.fresh } = s ∧
        sameBut [TL_ST_LRES, TL_EVT_LOADFAIL, wholeWord 0x1702, wholeWord 0x1703] s t) ∧
  (∀ (door : Initiator) (im : Image) (s : State),
      doorOpen s door 0x1706 = true → s.live = true → s.tally.image = some im → im.nolive = true →
      ∃ t, exec (.tallyCommitCmd door) s = .next t ∧
        t.get TL_RES_CRES = 1 ∧ t.get TL_EVT_COMMITFAIL = 1 ∧ onlyFields [TL_RES_CRES, TL_EVT_COMMITFAIL] s t) ∧
  (∀ (door : Initiator) (im : Image) (s : State),
      doorOpen s door 0x1706 = true → s.live = true → s.tally.image = some im → im.nolive = false → s.tally.dirty = [] →
      ∃ t, exec (.tallyCommitCmd door) s = .next t ∧
        t.get TL_RES_CRES = 2 ∧ t.get TL_EVT_COMMITFAIL = 1 ∧ onlyFields [TL_RES_CRES, TL_EVT_COMMITFAIL] s t) ∧
  (∀ (door : Initiator) (im : Image) (r : TallyRec) (c : ChangeSet) (s : State),
      doorOpen s door 0x1706 = true → s.live = true → s.tally.image = some im → im.nolive = false → s.tally.dirty = [r] → s.tally.set = some c →
      ∃ t, exec (.tallyCommitCmd door) s = .next t ∧
        t.get TL_RES_CRES = 3 ∧ t.get TL_EVT_COMMITFAIL = 1 ∧ onlyFields [TL_RES_CRES, TL_EVT_COMMITFAIL] s t) ∧
  (∀ (door : Initiator) (im : Image) (r : TallyRec) (l : List TallyRec) (key : Nat) (s : State),
      doorOpen s door 0x1706 = true → s.live = true → s.keys.lineKey = some key → s.tally.image = some im → im.nolive = false →
      s.tally.dirty = r :: l → s.tally.set = none → (commitImageOf s im 0).size ≤ 1048576 → 6 ≤ s.mode → s.mode ≤ 9 → s.tally.commit = none →
      s.tally.staging = none →
      ∃ t, exec (.tallyCommitCmd door) s = .next t ∧
        t.get TL_ST_BUSY = 1 ∧
        t.tally = { s.tally with commit := some (im.withTrailer { cseq := ((im.trailer.map (·.cseq)).getD 0) + 1, sender := doorSender s door, csid := s.tally.applied, nonce := (s.word 0x1004).toNat * 2 ^ 64 + s.net.mseq, changes := (r :: l).foldl mergeLive ((im.trailer.map (·.changes)).getD []) } key), commitSeq := s.flash.comseq + 1, commitRetry := false } ∧
        t.net.mseq = s.net.mseq + 1 ∧
        { t.flash with mseqRes := s.flash.mseqRes } = { s.flash with comseq := s.flash.comseq + 1, own := ⟨s.flash.own.pos.set (Fin.ofNat 8 (s.flash.nextPos 0)) []⟩ } ∧
        { t with regs := s.regs, tally := s.tally, flash := s.flash, net := s.net, fresh := s.fresh } = s ∧ sameBut [TL_ST_BUSY] s t) ∧
  (∀ (im : Image) (n : Nat) (s : State),
      s.live = true → s.tally.commit = some im → s.tally.commitRetry = false → n < 3 → linkUp s .a = false ∧ linkUp s .b = false →
      ∃ t, exec (.tallyCommitDone true n) s = .next t ∧
        t.flash.own = ⟨s.flash.own.pos.set (Fin.ofNat 8 (s.flash.nextPos 0)) im.bytes⟩ ∧
        t.flash.seals = { region := 0, pos := s.flash.nextPos 0, origin := 1, comseq := s.tally.commitSeq, len := im.size, digest := im.digest } :: s.flash.seals ∧
        (∀ k : Fin 24, t.flash.wear[k] = (if k.val = s.flash.nextPos 0 then min 0xFFFF (s.flash.wear[k] + 1) else s.flash.wear[k])) ∧
        t.flash.log = fitLog logUnits ((s.flash.run, .commit 0 (s.flash.nextPos 0) s.tally.commitSeq im.gen ((im.trailer.map (·.cseq)).getD 0)) :: s.flash.log) ∧
        { t.flash with own := s.flash.own, seals := s.flash.seals, wear := s.flash.wear, log := s.flash.log } = s.flash ∧
        t.tally = { s.tally with commit := none, image := some im, newOwn := none, dirty := [] } ∧ t.get TL_DIRTY_ENTRIES = 0 ∧
        t.get TL_RES_CRES = 0 ∧ t.get TL_ST_BUSY = 0 ∧ t.get TL_EVT_COMMITOK = 1 ∧ t.get TL_ST_SRC = 1 ∧ t.get TL_ST_POS = s.flash.nextPos 0 ∧
        t.get TL_ST_TRAILER = 1 ∧ t.word 0x1704 = BitVec.ofNat 32 ((im.trailer.map (·.cseq)).getD 0) ∧
        { t with regs := s.regs, tally := s.tally, flash := s.flash, fresh := s.fresh } = s ∧
        sameBut [TL_DIRTY_ENTRIES, TL_RES_CRES, TL_ST_BUSY, TL_EVT_COMMITOK, TL_ST_SRC, TL_ST_POS, TL_ST_TRAILER, wholeWord 0x1704, wholeWord 0x1702, wholeWord 0x1703, TL_WEAR_COMMITS 0 (s.flash.nextPos 0), TL_ST_WEAR, TL_EVT_WEAR] s t) ∧
  (∀ (im : Image) (n : Nat) (s : State),
      s.live = true → s.tally.commit = some im → 3 ≤ n → s.mode = 6 →
      ∃ t, exec (.tallyCommitDone true n) s = .next t ∧
        t.mode = 11 ∧ t.get MD_ST_FAULT = 6 ∧ t.get TL_ST_BUSY = 0 ∧ t.tally.commit = none ∧ t.flash.own = s.flash.own ∧
        t.flash.seals = s.flash.seals ∧ t.keys = s.keys) ∧
  (∀ (im : Image) (n : Nat) (s : State),
      s.live = true → s.tally.commit = some im → s.tally.commitRetry = false →
      ∃ t, exec (.tallyCommitDone false n) s = .next t ∧
        t.flash = { s.flash with comseq := s.flash.comseq + 1, own := ⟨s.flash.own.pos.set (Fin.ofNat 8 (s.flash.nextPos 0 + 1)) []⟩ } ∧
        t.tally = { s.tally with commitRetry := true, commitSeq := s.flash.comseq + 1 } ∧ { t with flash := s.flash, tally := s.tally } = s) ∧
  (∀ (im : Image) (n : Nat) (s : State),
      s.live = true → s.tally.commit = some im → s.tally.commitRetry = true →
      ∃ t, exec (.tallyCommitDone false n) s = .next t ∧
        t.get TL_RES_CRES = 6 ∧ t.get TL_EVT_COMMITFAIL = 1 ∧ t.get TL_ST_BUSY = 0 ∧ t.tally = { s.tally with commit := none } ∧
        { t with regs := s.regs, tally := s.tally, fresh := s.fresh } = s ∧ sameBut [TL_RES_CRES, TL_EVT_COMMITFAIL, TL_ST_BUSY] s t) ∧
  (∀ (door : Initiator) (s : State),
      doorOpen s door 0x1706 = true → s.live = true → (s.mode < 6 ∨ 9 < s.mode) →
      ∃ t, exec (.stagingOpen door) s = .next t ∧
        t.get TL_RES_SRES = 1 ∧ t.get TL_EVT_STGREJ = 1 ∧ onlyFields [TL_RES_SRES, TL_EVT_STGREJ] s t) ∧
  (∀ (door : Initiator) (s : State),
      doorOpen s door 0x1706 = true → s.live = true → 6 ≤ s.mode → s.mode ≤ 9 → s.tally.commit = none → s.tally.staging = none →
      s.get TL_STGCTL_KIND = 0 →
      ∃ t, exec (.stagingOpen door) s = .next t ∧
        t.get TL_ST_BUSY = 1 ∧ t.get TL_STGST_HIGH = 0 ∧
        t.flash = { s.flash with comseq := s.flash.comseq + 1, own := ⟨s.flash.own.pos.set (Fin.ofNat 8 (s.flash.nextPos 0)) []⟩ } ∧
        t.tally = { s.tally with staging := some ⟨false, s.flash.nextPos 0, s.flash.comseq + 1, true⟩ } ∧
        { t with regs := s.regs, tally := s.tally, flash := s.flash, fresh := s.fresh } = s ∧ sameBut [TL_ST_BUSY, TL_STGST_HIGH] s t) ∧
  (∀ (door : Initiator) (s : State),
      doorOpen s door 0x1706 = true → s.live = true → 6 ≤ s.mode → s.mode ≤ 9 → s.tally.commit = none → s.tally.staging = none →
      s.get TL_STGCTL_KIND = 1 → s.get MD_ST_FWSLOT = 0 →
      ∃ t, exec (.stagingOpen door) s = .next t ∧
        t.get TL_ST_BUSY = 1 ∧ t.get TL_STGST_HIGH = 0 ∧
        t.flash = { s.flash with comseq := s.flash.comseq + 1, hasB := false, halfB := [], seqB := s.flash.comseq + 1 } ∧
        t.tally = { s.tally with staging := some ⟨true, s.flash.nextPos 0, s.flash.comseq + 1, true⟩ } ∧
        { t with regs := s.regs, tally := s.tally, flash := s.flash, fresh := s.fresh } = s ∧ sameBut [TL_ST_BUSY, TL_STGST_HIGH] s t) ∧
  (∀ (x : Staging) (s : State),
      s.live = true → s.tally.staging = some x → x.erasing = true →
      ∃ t, exec (.stagingEraseDone) s = .next t ∧
        t.get TL_ST_BUSY = 0 ∧ t.tally = { s.tally with staging := some { x with erasing := false } } ∧
        { t with regs := s.regs, tally := s.tally, fresh := s.fresh } = s ∧ sameBut [TL_ST_BUSY] s t) ∧
  (∀ (door : Initiator) (v : Word) (x : Staging) (s : State),
      doorOpen s door 0x17FF = true → s.live = true → s.tally.staging = some x → x.erasing = false → x.firmware = false → 6 ≤ s.mode → s.mode ≤ 9 →
      s.get TL_STGOFS_OFS + 512 ≤ 1048576 →
      ∃ t, exec (.stagingBlockProgram door v) s = .next t ∧
        t.get TL_STGOFS_OFS = s.get TL_STGOFS_OFS + 512 ∧ t.get TL_STGST_HIGH = max (s.get TL_STGST_HIGH) (s.get TL_STGOFS_OFS + 512) ∧
        t.tally = { s.tally with window := s.tally.window.set 127 v } ∧
        (t.flash = { s.flash with own := ⟨s.flash.own.pos.set (Fin.ofNat 8 x.pos) (putBlock (s.flash.content 0 x.pos) (s.get TL_STGOFS_OFS) ((s.tally.window.set 127 v).flatMap fun y => beBytes 4 y.toNat))⟩ }) ∧
        { t with regs := s.regs, tally := s.tally, flash := s.flash, fresh := s.fresh } = s ∧ sameBut [TL_STGOFS_OFS, TL_STGST_HIGH] s t) ∧
  (∀ (door : Initiator) (v : Word) (x : Staging) (s : State),
      doorOpen s door 0x17FF = true → s.live = true → s.tally.staging = some x → x.erasing = true → 6 ≤ s.mode → s.mode ≤ 9 →
      ∃ t, exec (.stagingBlockProgram door v) s = .next t ∧
        t.get TL_RES_SRES = 2 ∧ t.get TL_EVT_STGREJ = 1 ∧ t.tally = { s.tally with window := s.tally.window.set 127 v } ∧
        { t with regs := s.regs, tally := s.tally, fresh := s.fresh } = s ∧ sameBut [TL_RES_SRES, TL_EVT_STGREJ] s t) ∧
  (∀ (door : Initiator) (x : Staging) (release : Nat) (ok : Bool) (s : State),
      doorOpen s door 0x1706 = true → s.live = true → s.tally.staging = some x → x.firmware = false → x.erasing = false → 6 ≤ s.mode → s.mode ≤ 9 →
      s.get MD_ST_PENDING = 0 → s.get ID_DOMST_WSTATE = 0 → imageCheck s (stagedImage s x) = 0 → s.tally.set = none → s.tally.commit = none →
      linkUp s .a = false ∧ linkUp s .b = false →
      ∃ t, exec (.stagingDone door release ok) s = .next t ∧
        t.flash.own = ⟨s.flash.own.pos.set (Fin.ofNat 8 x.pos) (stagedImage s x).bytes⟩ ∧
        t.flash.seals = { region := 0, pos := x.pos, origin := 1, comseq := x.comseq, len := (stagedImage s x).size, digest := (stagedImage s x).digest } :: s.flash.seals ∧
        t.get TL_RES_SRES = 0 ∧ t.get TL_ST_BUSY = 0 ∧ t.tally.staging = none ∧ t.tally.newOwn = some (stagedImage s x) ∧
        t.tally.image = s.tally.image ∧ t.mode = 10 ∧ t.get MD_ST_PREV = s.mode ∧ t.keys = s.keys ∧ t.flash.custA = s.flash.custA ∧
        t.flash.custB = s.flash.custB ∧ t.flash.comseq = s.flash.comseq) ∧
  (∀ (door : Initiator) (x : Staging) (release : Nat) (ok : Bool) (s : State),
      doorOpen s door 0x1706 = true → s.live = true → s.tally.staging = some x → x.erasing = false → 6 ≤ s.mode → s.mode ≤ 9 →
      s.get MD_ST_PENDING = 0 → (if x.firmware = true then firmwareOk s release ok = false else imageCheck s (stagedImage s x) ≠ 0) →
      s.tally.commit = none →
      ∃ t, exec (.stagingDone door release ok) s = .next t ∧
        t.get TL_RES_SRES = 4 ∧ t.get TL_EVT_STGREJ = 1 ∧ t.get TL_ST_BUSY = 0 ∧ t.tally = { s.tally with staging := none } ∧
        { t with regs := s.regs, tally := s.tally, fresh := s.fresh } = s ∧ sameBut [TL_RES_SRES, TL_EVT_STGREJ, TL_ST_BUSY] s t) ∧
  (∀ (door : Initiator) (x : Staging) (release : Nat) (ok : Bool) (s : State),
      doorOpen s door 0x1706 = true → s.live = true → s.tally.staging = some x → x.firmware = true → x.erasing = false → 6 ≤ s.mode → s.mode ≤ 9 →
      s.get MD_ST_PENDING = 0 → s.get MD_ST_FWSLOT = 0 → s.get ID_DOMST_WSTATE = 0 → firmwareOk s release ok = true → s.tally.set = none →
      s.tally.commit = none →
      ∃ t, exec (.stagingDone door release ok) s = .next t ∧
        t.flash.relB = release ∧ t.flash.relA = s.flash.relA ∧ t.flash.hasB = true ∧ t.flash.trial = some true ∧ t.flash.trialBooted = false ∧
        t.flash.activeB = s.flash.activeB ∧
        t.flash.seals = { region := 4, comseq := x.comseq, len := s.flash.halfB.length, digest := sha256 s.flash.halfB } :: s.flash.seals ∧
        t.flash.own = s.flash.own ∧ t.get TL_RES_SRES = 0 ∧ t.get TL_ST_BUSY = 0 ∧ t.tally.staging = none ∧ t.mode = 10 ∧ t.get MD_ST_PREV = s.mode ∧
        t.keys = s.keys) ∧
  (∀ (door : Initiator) (x : Staging) (s : State),
      doorOpen s door 0x1706 = true → s.live = true → s.tally.staging = some x → s.tally.commit = none →
      ∃ t, exec (.stagingAbort door) s = .next t ∧
        t.get TL_RES_SRES = 5 ∧ t.get TL_ST_BUSY = 0 ∧ t.tally = { s.tally with staging := none } ∧
        { t with regs := s.regs, tally := s.tally, fresh := s.fresh } = s ∧ sameBut [TL_RES_SRES, TL_ST_BUSY] s t)

/-- 14 R365, 15 R396 to R398: a part waits for the others of its set; a complete set is refused with the first reason that applies, shown and sent to its host, and nothing of it is kept; an accepted one is pending until SEC. Missing parts time out.
Ten ms before SEC the engines it rewrites stop. At SEC it is applied whole and is the last set applied, or, after a time step or in another mode, not at all, with a second result.
Completes: changeSetPart, changeSetTimeout, changeSetEngineStop, changeSetApply. -/
def Obligations.ChangeSetsAreCheckedAndAppliedWhole : Prop :=
  (∀ (port : Port) (d : Datagram) (csid sec fl : Nat) (l : List CsEntry) (s : State),
      d.typ = 0x20 → (cyCheck s d).1 = true → (hostState s d.sender).parts = [] → csPartOf (plain s d) = ⟨csid, 0, 2, fl, sec, l, none⟩ →
      ∃ t, exec (.changeSetPart port d) s = .next t ∧
        (hostState t d.sender).parts = [⟨csid, 0, 2, fl, sec, l, none⟩] ∧ (hostState t d.sender).lastCs = (hostState s d.sender).lastCs ∧
        t.tally = s.tally ∧ t.tx = s.tx ∧ { t.net with replay := s.net.replay, hosts := s.net.hosts } = s.net ∧ { t with net := s.net } = s) ∧
  (∀ (port : Port) (d : Datagram) (csid sec a fl : Nat) (m v : Word) (s : State),
      d.typ = 0x20 → (cyCheck s d).1 = true → (hostState s d.sender).parts = [] → csPartOf (plain s d) = ⟨csid, 0, 1, fl, sec, [.word a m v], none⟩ →
      (hostState s d.sender).lastCs = none → wordClass s a m = 0 → hostMayWrite a = true → m &&& readMask a = 0 → recordInRange s a m v = true →
      s.second + 1 ≤ sec → sec ≤ s.second + 86400 → s.tally.set = none → 6 ≤ s.mode → s.mode ≤ 9 →
      ∃ t, exec (.changeSetPart port d) s = .next t ∧
        t.tally = { s.tally with set := some ⟨csid, fl.testBit 0, sec, [.word a m v], d.sender⟩, setStep := false, setEngines := 0, setLoads := t.tally.setLoads } ∧
        t.get TL_PEND_PEND = 1 ∧ t.get TL_RES_CSRES = 0 ∧ t.get TL_CSID_CSID = csid % 2 ^ 32 ∧
        (t.tx = s.tx ++ (macPorts s (some d.src.mac) [port]).map fun p => s.cyFrame p (answerHead s d.src) (.csResult d.sender csid 0 noEntry sec) false) ∧
        { t.net with mseq := s.net.mseq, replay := s.net.replay, hosts := s.net.hosts } = s.net ∧
        (hostState t d.sender).lastCs = some (csid, 0, noEntry, sec) ∧ (hostState t d.sender).parts = [] ∧
        { t with regs := s.regs, net := s.net, tx := s.tx, flash := s.flash, tally := s.tally, free := s.free, fresh := s.fresh } = s ∧
        { t.flash with mseqRes := s.flash.mseqRes } = s.flash ∧ sameBut [TL_PEND_PEND, TL_RES_CSRES, TL_CSID_CSID] s t) ∧
  (∀ (port : Port) (d : Datagram) (csid sec a fl : Nat) (m v : Word) (s : State),
      d.typ = 0x20 → (cyCheck s d).1 = true → (hostState s d.sender).parts = [] → csPartOf (plain s d) = ⟨csid, 0, 1, fl, sec, [.word a m v], none⟩ →
      (hostState s d.sender).lastCs = none → wordClass s a m = 2 →
      ∃ t, exec (.changeSetPart port d) s = .next t ∧
        t.tally = s.tally ∧ t.get TL_EVT_CSREF = 1 ∧ t.get TL_RES_CSRES = 1 ∧ t.get TL_CSID_CSID = csid % 2 ^ 32 ∧
        (t.tx = s.tx ++ (macPorts s (some d.src.mac) [port]).map fun p => s.cyFrame p (answerHead s d.src) (.csResult d.sender csid 1 0 sec) false) ∧
        { t.net with mseq := s.net.mseq, replay := s.net.replay, hosts := s.net.hosts } = s.net ∧
        { t with regs := s.regs, net := s.net, tx := s.tx, flash := s.flash, free := s.free, fresh := s.fresh } = s ∧
        { t.flash with mseqRes := s.flash.mseqRes } = s.flash ∧ sameBut [TL_EVT_CSREF, TL_RES_CSRES, TL_CSID_CSID] s t) ∧
  (∀ (port : Port) (d : Datagram) (csid sec a fl : Nat) (m v : Word) (s : State),
      d.typ = 0x20 → (cyCheck s d).1 = true → (hostState s d.sender).parts = [] → csPartOf (plain s d) = ⟨csid, 0, 1, fl, sec, [.word a m v], none⟩ →
      (hostState s d.sender).lastCs = none → wordClass s a m = 1 → fl.testBit 0 = false →
      ∃ t, exec (.changeSetPart port d) s = .next t ∧
        t.tally = s.tally ∧ t.get TL_EVT_CSREF = 1 ∧ t.get TL_RES_CSRES = 2 ∧ t.get TL_CSID_CSID = csid % 2 ^ 32 ∧
        (t.tx = s.tx ++ (macPorts s (some d.src.mac) [port]).map fun p => s.cyFrame p (answerHead s d.src) (.csResult d.sender csid 2 0 sec) false) ∧
        { t.net with mseq := s.net.mseq, replay := s.net.replay, hosts := s.net.hosts } = s.net ∧
        { t with regs := s.regs, net := s.net, tx := s.tx, flash := s.flash, free := s.free, fresh := s.fresh } = s ∧
        { t.flash with mseqRes := s.flash.mseqRes } = s.flash ∧ sameBut [TL_EVT_CSREF, TL_RES_CSRES, TL_CSID_CSID] s t) ∧
  (∀ (port : Port) (d : Datagram) (csid sec a fl : Nat) (m v : Word) (s : State),
      d.typ = 0x20 → (cyCheck s d).1 = true → (hostState s d.sender).parts = [] → csPartOf (plain s d) = ⟨csid, 0, 1, fl, sec, [.word a m v], none⟩ →
      (hostState s d.sender).lastCs = none → wordClass s a m = 0 → (hostMayWrite a = false ∨ m &&& readMask a ≠ 0) →
      ∃ t, exec (.changeSetPart port d) s = .next t ∧
        t.tally = s.tally ∧ t.get TL_EVT_CSREF = 1 ∧ t.get TL_RES_CSRES = 3 ∧ t.get TL_CSID_CSID = csid % 2 ^ 32 ∧
        (t.tx = s.tx ++ (macPorts s (some d.src.mac) [port]).map fun p => s.cyFrame p (answerHead s d.src) (.csResult d.sender csid 3 0 sec) false) ∧
        { t.net with mseq := s.net.mseq, replay := s.net.replay, hosts := s.net.hosts } = s.net ∧
        { t with regs := s.regs, net := s.net, tx := s.tx, flash := s.flash, free := s.free, fresh := s.fresh } = s ∧
        { t.flash with mseqRes := s.flash.mseqRes } = s.flash ∧ sameBut [TL_EVT_CSREF, TL_RES_CSRES, TL_CSID_CSID] s t) ∧
  (∀ (port : Port) (d : Datagram) (csid sec a fl : Nat) (m v : Word) (s : State),
      d.typ = 0x20 → (cyCheck s d).1 = true → (hostState s d.sender).parts = [] → csPartOf (plain s d) = ⟨csid, 0, 1, fl, sec, [.word a m v], none⟩ →
      (hostState s d.sender).lastCs = none → wordClass s a m = 0 → hostMayWrite a = true → m &&& readMask a = 0 → recordInRange s a m v = false →
      ∃ t, exec (.changeSetPart port d) s = .next t ∧
        t.tally = s.tally ∧ t.get TL_EVT_CSREF = 1 ∧ t.get TL_RES_CSRES = 4 ∧ t.get TL_CSID_CSID = csid % 2 ^ 32 ∧
        (t.tx = s.tx ++ (macPorts s (some d.src.mac) [port]).map fun p => s.cyFrame p (answerHead s d.src) (.csResult d.sender csid 4 0 sec) false) ∧
        { t.net with mseq := s.net.mseq, replay := s.net.replay, hosts := s.net.hosts } = s.net ∧
        { t with regs := s.regs, net := s.net, tx := s.tx, flash := s.flash, free := s.free, fresh := s.fresh } = s ∧
        { t.flash with mseqRes := s.flash.mseqRes } = s.flash ∧ sameBut [TL_EVT_CSREF, TL_RES_CSRES, TL_CSID_CSID] s t) ∧
  (∀ (port : Port) (d : Datagram) (csid sec a fl : Nat) (m v : Word) (s : State),
      d.typ = 0x20 → (cyCheck s d).1 = true → (hostState s d.sender).parts = [] → csPartOf (plain s d) = ⟨csid, 0, 1, fl, sec, [.word a m v], none⟩ →
      (hostState s d.sender).lastCs = none → wordClass s a m = 0 → hostMayWrite a = true → m &&& readMask a = 0 → recordInRange s a m v = true →
      (sec < s.second + 1 ∨ s.second + 86400 < sec) →
      ∃ t, exec (.changeSetPart port d) s = .next t ∧
        t.tally = s.tally ∧ t.get TL_EVT_CSREF = 1 ∧ t.get TL_RES_CSRES = 8 ∧ t.get TL_CSID_CSID = csid % 2 ^ 32 ∧
        (t.tx = s.tx ++ (macPorts s (some d.src.mac) [port]).map fun p => s.cyFrame p (answerHead s d.src) (.csResult d.sender csid 8 noEntry sec) false) ∧
        { t.net with mseq := s.net.mseq, replay := s.net.replay, hosts := s.net.hosts } = s.net ∧
        { t with regs := s.regs, net := s.net, tx := s.tx, flash := s.flash, free := s.free, fresh := s.fresh } = s ∧
        { t.flash with mseqRes := s.flash.mseqRes } = s.flash ∧ sameBut [TL_EVT_CSREF, TL_RES_CSRES, TL_CSID_CSID] s t) ∧
  (∀ (port : Port) (d : Datagram) (csid sec a fl : Nat) (m v : Word) (s : State),
      d.typ = 0x20 → (cyCheck s d).1 = true → (hostState s d.sender).parts = [] → csPartOf (plain s d) = ⟨csid, 0, 1, fl, sec, [.word a m v], none⟩ →
      (hostState s d.sender).lastCs = none → wordClass s a m = 0 → hostMayWrite a = true → m &&& readMask a = 0 → recordInRange s a m v = true →
      s.second + 1 ≤ sec → sec ≤ s.second + 86400 → s.tally.set.isSome = true →
      ∃ t, exec (.changeSetPart port d) s = .next t ∧
        t.tally = s.tally ∧ t.get TL_EVT_CSREF = 1 ∧ t.get TL_RES_CSRES = 9 ∧ t.get TL_CSID_CSID = csid % 2 ^ 32 ∧
        (t.tx = s.tx ++ (macPorts s (some d.src.mac) [port]).map fun p => s.cyFrame p (answerHead s d.src) (.csResult d.sender csid 9 noEntry sec) false) ∧
        { t.net with mseq := s.net.mseq, replay := s.net.replay, hosts := s.net.hosts } = s.net ∧
        { t with regs := s.regs, net := s.net, tx := s.tx, flash := s.flash, free := s.free, fresh := s.fresh } = s ∧
        { t.flash with mseqRes := s.flash.mseqRes } = s.flash ∧ sameBut [TL_EVT_CSREF, TL_RES_CSRES, TL_CSID_CSID] s t) ∧
  (∀ (sender : Nat) (p : CsPart) (l : List CsPart) (s : State),
      s.live = true → passed s (hostState s sender).partsAt 2 = true → (hostState s sender).parts = p :: l → s.keys.lineKey.isSome = true →
      ∃ t, exec (.changeSetTimeout sender) s = .next t ∧
        (hostState t sender).parts = [] ∧
        (t.tx = s.tx ++ (hostPorts s sender bothPorts).map fun q => s.cyFrame q (hostHead s sender) (.csResult sender p.csid 0xF0 noEntry p.sec) false) ∧
        t.get TL_RES_CSRES = 0xF0 ∧ t.get TL_CSID_CSID = p.csid % 2 ^ 32 ∧ t.tally = s.tally ∧
        { t with regs := s.regs, net := s.net, tx := s.tx, flash := s.flash, fresh := s.fresh } = s ∧
        { t.flash with mseqRes := s.flash.mseqRes } = s.flash ∧ sameBut [TL_RES_CSRES, TL_CSID_CSID] s t) ∧
  (∀ (c : ChangeSet) (e : Fin 8) (s : State),
      s.live = true → s.tally.set = some c → c.sec * 8000000000 ≤ s.now + 80000000 → namedEngines s c = [e] → s.aux.func ≠ 3 →
      s.tally.setEngines.testBit e = false →
      ∃ t, exec (.changeSetEngineStop) s = .next t ∧
        t.get (PE_ST_STATE e) = 0 ∧ t.engines[e] = { s.engines[e] with latches := [], lastPc := none, mev := [] } ∧
        t.tally = { s.tally with setEngines := s.tally.setEngines + 2 ^ e.val } ∧ (∀ f : Fin 8, f ≠ e → t.engines[f] = s.engines[f]) ∧
        { t with regs := s.regs, engines := s.engines, tally := s.tally, fresh := s.fresh } = s ∧
        sameBut [PE_ST_STATE e, PE_GST_RUNNING, PE_GST_STALLED, PE_GST_FAULTED] s t) ∧
  (∀ (c : ChangeSet) (s : State),
      s.live = true → s.tally.set = some c → (s.now + 80000000 < c.sec * 8000000000 ∨ namedEngines s c = []) →
      ∃ t, exec (.changeSetEngineStop) s = .next t ∧
        t = s) ∧
  (∀ (c : ChangeSet) (m v : Word) (s : State),
      s.live = true → s.tally.set = some c → c.sec ≤ s.second → stepDue s = false → c.entries = [.word 0x1301 m v] → s.tally.setStep = false →
      s.tally.setEngines = 0 → 6 ≤ s.mode → s.mode ≤ 9 → s.tally.image = none → s.aux.old = [] →
      ∃ t, exec (.changeSetApply) s = .next t ∧
        t.word 0x1301 = (s.word 0x1301 &&& ~~~(m &&& BitVec.ofNat 32 (accMask 0x1301 .rw))) ||| (v &&& m &&& BitVec.ofNat 32 (accMask 0x1301 .rw)) ∧
        t.get TL_EVT_CSOK = 1 ∧ t.get TL_PEND_PEND = 0 ∧ t.tally = { s.tally with set := none, applied := c.csid } ∧
        { t with regs := s.regs, tally := s.tally, fresh := s.fresh } = s ∧ sameBut [wholeWord 0x1301, TL_EVT_CSOK, TL_PEND_PEND] s t) ∧
  (∀ (c : ChangeSet) (h : List HostEntry) (im : Image) (s : State),
      s.live = true → s.tally.set = some c → c.sec ≤ s.second → stepDue s = false → c.entries = [.param (.hosts h)] → s.tally.setStep = false →
      s.tally.setEngines = 0 → 6 ≤ s.mode → s.mode ≤ 9 → s.tally.image = some im → s.tally.dirty = [] → s.aux.old = [] →
      ∃ t, exec (.changeSetApply) s = .next t ∧
        t.tally.hosts = h ∧ t.tally.dirty = [.hosts h] ∧ t.get TL_DIRTY_ENTRIES = 1 ∧ t.get TL_EVT_CSOK = 1 ∧ t.tally.set = none ∧
        t.tally.applied = c.csid ∧ (t.net = { s.net with hosts := s.net.hosts.filter fun x => h.any fun e => e.sender == x.sender }) ∧
        { t with regs := s.regs, tally := s.tally, net := s.net, bus := s.bus, fresh := s.fresh } = s ∧
        { t.bus with shadows := s.bus.shadows } = s.bus ∧ sameBut [TL_DIRTY_ENTRIES, TL_EVT_CSOK, TL_PEND_PEND] s t) ∧
  (∀ (c : ChangeSet) (s : State),
      s.live = true → s.tally.set = some c → c.sec ≤ s.second → bankSlots c = [] → s.tally.setEngines = 0 → 6 ≤ s.mode → s.mode ≤ 9 →
      s.tally.setStep = true → s.keys.lineKey.isSome = true →
      ∃ t, exec (.changeSetApply) s = .next t ∧
        t.tally = { s.tally with set := none, setStep := false } ∧ t.get TL_RES_CSRES = 0xC ∧ t.get TL_EVT_CSFAIL = 1 ∧ t.get TL_PEND_PEND = 0 ∧
        (t.tx = s.tx ++ (hostPorts s c.host bothPorts).map fun q => s.cyFrame q (hostHead s c.host) (.csResult c.host c.csid 0xC noEntry c.sec) false) ∧
        { t with regs := s.regs, tally := s.tally, net := s.net, tx := s.tx, flash := s.flash, fresh := s.fresh } = s ∧
        { t.flash with mseqRes := s.flash.mseqRes } = s.flash ∧ sameBut [TL_RES_CSRES, TL_EVT_CSFAIL, TL_PEND_PEND] s t) ∧
  (∀ (c : ChangeSet) (s : State),
      s.live = true → s.tally.set = some c → c.sec ≤ s.second → bankSlots c = [] → s.tally.setEngines = 0 → (s.mode < 6 ∨ 9 < s.mode) →
      s.keys.lineKey.isSome = true → (stepDue s = false ∨ s.tally.setStep = true) →
      ∃ t, exec (.changeSetApply) s = .next t ∧
        t.tally = { s.tally with set := none, setStep := false } ∧ t.get TL_RES_CSRES = 0xA ∧ t.get TL_EVT_CSFAIL = 1 ∧ t.get TL_PEND_PEND = 0 ∧
        (t.tx = s.tx ++ (hostPorts s c.host bothPorts).map fun q => s.cyFrame q (hostHead s c.host) (.csResult c.host c.csid 0xA noEntry c.sec) false) ∧
        { t with regs := s.regs, tally := s.tally, net := s.net, tx := s.tx, flash := s.flash, fresh := s.fresh } = s ∧
        { t.flash with mseqRes := s.flash.mseqRes } = s.flash ∧ sameBut [TL_RES_CSRES, TL_EVT_CSFAIL, TL_PEND_PEND] s t)

/-- 14 R371 to R373, 15 R383, R390, R391: a hello tells the own image and the one held for the port. A hello or offer of another image than the one held is fetched from offset 0, 16 chunks at a time, or waits for the hour since the last commit from
that neighbour, an offer then being answered with a defer. A request is served from the own or the held image, or with TOTAL 0. A fetched image that passes its checks for its station is committed and shows CUSTODY; one that fails shows
CUSTREJ and is not fetched again. In COPPICE a hello's changed offer ends the wait.
Completes: custodyHelloSend, custodyHelloReceive, custodyRequest, custodyDataReceive, custodyOffer, custodyDefer, custodyDeferEnd. -/
def Obligations.NeighboursKeepEachOthersImages : Prop :=
  (∀ (port : Port) (key : Nat) (s : State),
      s.live = true → s.keys.lineKey = some key → linkUp s port = true → passedSince s (s.cust port).helloAt 1 = true →
      ∃ t, exec (.custodyHelloSend port) s = .next t ∧
        t.cust port = { s.cust port with helloAt := some s.pwr.ticks } ∧ t.cust port.other = s.cust port.other ∧
        { t.tally with portA := s.tally.portA, portB := s.tally.portB } = s.tally ∧
        (t.tx = s.tx ++ [s.cyFrame port (custodyHead s) (.hello (ownHello s port) (if port = .a then 1 else 2)) false]) ∧
        t.net.mseq = s.net.mseq + 1 ∧ { t with net := s.net, tx := s.tx, flash := s.flash, tally := s.tally } = s ∧
        { t.flash with mseqRes := s.flash.mseqRes } = s.flash ∧ (ownHello s port).stn = s.get BZ_CFG_STN ∧
        (ownHello s port).holds = (s.flash.latest port.region).isSome ∧ (ownHello s port).ownValid = (ownTally s).isSome) ∧
  (∀ (port : Port) (d : Datagram) (h : Hello) (s : State),
      d.typ = 0x40 → (cyCheck s d).1 = true → helloOf (plain s d) = h → h.ownValid = true → s.mode ≠ 4 → heldDigest s port ≠ some h.tdig →
      (s.cust port).refused ≠ some h.tdig → (s.cust port).fetch = none →
      ((s.tally.taken.find? (fun x => x.1 == d.sender)).all (fun x => decide (x.2 + hourTicks ≤ s.pwr.ticks)) = true) →
      ∃ t, exec (.custodyHelloReceive port d) s = .next t ∧
        t.get (nbrStn port) = h.stn % 256 ∧ (t.get (nbrCstn port) = (if h.holds then h.cstn else 0xFE) % 256) ∧
        (t.cust port).fetch = some { digest := h.tdig, stn := h.stn } ∧ (t.cust port).tdig = some h.tdig ∧ (t.cust port).peer = d.sender ∧
        (t.cust port).valid = true ∧ ((t.cust port).offer = (if h.holds then some (h.cstn, h.cdig) else none)) ∧ (t.cust port).deferred = false ∧
        t.cust port.other = s.cust port.other ∧ t.tx = s.tx ++ [s.cyFrame port (custodyHead s) (.custRequest (s.get BZ_CFG_STN) h.stn 0 16) false] ∧
        { t with net := s.net, tally := s.tally, tx := s.tx, flash := s.flash, regs := s.regs, fresh := s.fresh } = s ∧
        { t.flash with mseqRes := s.flash.mseqRes } = s.flash ∧ sameBut [nbrStn port, nbrCstn port] s t) ∧
  (∀ (port : Port) (d : Datagram) (h : Hello) (w : Nat × Nat) (s : State),
      d.typ = 0x40 → (cyCheck s d).1 = true → helloOf (plain s d) = h → h.ownValid = true → s.mode ≠ 4 → heldDigest s port ≠ some h.tdig →
      (s.cust port).refused ≠ some h.tdig → (s.cust port).fetch = none → (s.tally.taken.find? (fun x => x.1 == d.sender) = some w) →
      s.pwr.ticks < w.2 + hourTicks →
      ∃ t, exec (.custodyHelloReceive port d) s = .next t ∧
        (t.cust port).deferred = true ∧ (t.cust port).fetch = none ∧ (t.cust port).tdig = some h.tdig ∧ t.get (nbrStn port) = h.stn % 256 ∧
        t.tx = s.tx ∧ t.flash = s.flash ∧ t.cust port.other = s.cust port.other ∧
        { t with net := s.net, tally := s.tally, regs := s.regs, fresh := s.fresh } = s ∧ sameBut [nbrStn port, nbrCstn port] s t) ∧
  (∀ (port : Port) (d : Datagram) (h : Hello) (s : State),
      d.typ = 0x40 → (cyCheck s d).1 = true → helloOf (plain s d) = h → s.mode ≠ 4 →
      (h.ownValid = false ∨ heldDigest s port = some h.tdig ∨ (s.cust port).refused = some h.tdig) →
      ∃ t, exec (.custodyHelloReceive port d) s = .next t ∧
        (t.cust port).fetch = (s.cust port).fetch ∧ t.tx = s.tx ∧ t.flash = s.flash ∧ t.get (nbrStn port) = h.stn % 256 ∧
        (t.get (nbrCstn port) = (if h.holds then h.cstn else 0xFE) % 256) ∧ (t.cust port).tdig = some h.tdig ∧ (t.cust port).valid = h.ownValid ∧
        t.cust port.other = s.cust port.other ∧ { t with net := s.net, tally := s.tally, regs := s.regs, fresh := s.fresh } = s ∧
        sameBut [nbrStn port, nbrCstn port] s t) ∧
  (∀ (d : Datagram) (h : Hello) (w : Nat) (s : State),
      d.typ = 0x40 → (cyCheck s d).1 = true → helloOf (plain s d) = h → s.mode = 4 → s.get CP_ST_STEP = 5 → s.get CP_ST_WAIT = w → w ≠ 1 →
      h.ownValid = false → h.holds = true → h.stn < 256 → h.cstn < 255 → (s.cust .a).offer = none → (s.cust .b).offer = none →
      ∃ t, exec (.custodyHelloReceive .a d) s = .next t ∧
        t.get CP_ST_STEP = 2 ∧ t.get CP_ST_WAIT = 0 ∧ t.get CP_ST_CSTN = h.cstn ∧ t.get CP_ST_SRCPORT = 1 ∧ t.get CP_NBR_STNA = h.stn ∧
        t.get CP_NBR_CSTNA = h.cstn ∧ (t.cust .a).fetch = some { digest := h.cdig, stn := h.cstn, coppice := true } ∧
        (t.cust .a).offer = some (h.cstn, h.cdig) ∧
        t.tx = s.tx ++ [s.cyFrame .a (custodyHead s) (.custRequest (s.get BZ_CFG_STN) h.cstn 0 16) false] ∧ t.cust .b = s.cust .b ∧
        { t with net := s.net, tally := s.tally, tx := s.tx, flash := s.flash, regs := s.regs, fresh := s.fresh } = s ∧
        { t.flash with mseqRes := s.flash.mseqRes } = s.flash ∧
        sameBut [CP_NBR_STNA, CP_NBR_CSTNA, CP_ST_STEP, CP_ST_WAIT, CP_ST_CSTN, CP_ST_SRCPORT] s t) ∧
  (∀ (port : Port) (d : Datagram) (want offset : Nat) (im : Image) (s : State),
      d.typ = 0x41 → (cyCheck s d).1 = true → beAt (plain s d) 1 1 = want → beAt (plain s d) 4 4 = offset → beAt (plain s d) 8 2 = 1 →
      servedImage s port want = some im → offset < im.size →
      ∃ t, exec (.custodyRequest port d) s = .next t ∧
        t.tx = s.tx ++ [s.cyFrame port (custodyHead s) (.custData { stn := s.get BZ_CFG_STN, want := want, offset := offset, total := im.size, idig := dig16 im.digest, bytes := (im.bytes.drop offset).take 1024 }) false] ∧
        { t.net with mseq := s.net.mseq, replay := s.net.replay, hosts := s.net.hosts } = s.net ∧
        { t with net := s.net, tx := s.tx, flash := s.flash } = s ∧ { t.flash with mseqRes := s.flash.mseqRes } = s.flash) ∧
  (∀ (port : Port) (d : Datagram) (want offset : Nat) (im : Image) (s : State),
      d.typ = 0x41 → (cyCheck s d).1 = true → beAt (plain s d) 1 1 = want → beAt (plain s d) 4 4 = offset → servedImage s port want = some im →
      (beAt (plain s d) 8 2 = 0 ∨ im.size ≤ offset) →
      ∃ t, exec (.custodyRequest port d) s = .next t ∧
        t = notePeer (cyCheck s d).2 d ∧ { t with net := s.net } = s) ∧
  (∀ (port : Port) (d : Datagram) (want : Nat) (s : State),
      d.typ = 0x41 → (cyCheck s d).1 = true → beAt (plain s d) 1 1 = want → servedImage s port want = none →
      ∃ t, exec (.custodyRequest port d) s = .next t ∧
        t.tx = s.tx ++ [s.cyFrame port (custodyHead s) (.custData { stn := s.get BZ_CFG_STN, want := want }) false] ∧
        { t with net := s.net, tx := s.tx, flash := s.flash } = s ∧ { t.flash with mseqRes := s.flash.mseqRes } = s.flash) ∧
  (∀ (port : Port) (d : Datagram) (c : CustData) (f : Fetch) (im : Image) (s : State),
      d.typ = 0x42 → (cyCheck s d).1 = true → custDataOf (plain s d) = c → (s.cust port).look = none → (s.cust port).fetch = some f → c.want = f.stn →
      c.total ≠ 0 → c.idig = f.digest → c.offset = f.data.length → f.coppice = false → c.total ≤ f.data.length + c.bytes.length →
      im = ⟨f.data ++ c.bytes⟩ → imageCheck s im = 0 → im.stn = f.stn →
      ∃ t, exec (.custodyDataReceive port d) s = .next t ∧
        (t.flash.region port.region).pos = (s.flash.region port.region).pos.set (Fin.ofNat 8 (s.flash.nextPos port.region)) im.bytes ∧
        t.flash.region port.other.region = s.flash.region port.other.region ∧ t.flash.own = s.flash.own ∧ t.flash.comseq = s.flash.comseq + 1 ∧
        t.flash.seals = { region := port.region, pos := s.flash.nextPos port.region, origin := 0, comseq := s.flash.comseq + 1, len := im.size, digest := im.digest } :: s.flash.seals ∧
        t.flash.log = fitLog logUnits ((s.flash.run, .commit port.region (s.flash.nextPos port.region) (s.flash.comseq + 1) im.gen ((im.trailer.map (·.cseq)).getD 0)) :: s.flash.log) ∧
        (∀ k : Fin 24, t.flash.wear[k] = (if k.val = 8 * port.region + s.flash.nextPos port.region then min 0xFFFF (s.flash.wear[k] + 1) else s.flash.wear[k])) ∧
        { t.flash with custA := s.flash.custA, custB := s.flash.custB, comseq := s.flash.comseq, seals := s.flash.seals, log := s.flash.log, wear := s.flash.wear } = s.flash ∧
        t.get TL_EVT_CUSTODY = 1 ∧ (t.cust port).fetch = none ∧ { t.cust port with fetch := none } = { s.cust port with fetch := none } ∧
        t.tally.taken.head? = some ((s.cust port).peer, s.pwr.ticks) ∧ t.cust port.other = s.cust port.other ∧
        { t.tally with portA := s.tally.portA, portB := s.tally.portB, taken := s.tally.taken } = s.tally ∧
        { t with net := s.net, tally := s.tally, regs := s.regs, flash := s.flash, fresh := s.fresh } = s ∧
        sameBut [TL_EVT_CUSTODY, wholeWord 0x1702, wholeWord 0x1703, TL_WEAR_COMMITS port.region (s.flash.nextPos port.region), TL_ST_WEAR, TL_EVT_WEAR] s t) ∧
  (∀ (port : Port) (d : Datagram) (c : CustData) (f : Fetch) (im : Image) (s : State),
      d.typ = 0x42 → (cyCheck s d).1 = true → custDataOf (plain s d) = c → (s.cust port).look = none → (s.cust port).fetch = some f → c.want = f.stn →
      c.total ≠ 0 → c.idig = f.digest → c.offset = f.data.length → f.coppice = false → c.total ≤ f.data.length + c.bytes.length →
      im = ⟨f.data ++ c.bytes⟩ → (imageCheck s im ≠ 0 ∨ im.stn ≠ f.stn) →
      ∃ t, exec (.custodyDataReceive port d) s = .next t ∧
        t.flash = s.flash ∧ t.get TL_EVT_CUSTREJ = 1 ∧ (t.cust port).fetch = none ∧ (t.cust port).refused = some ((s.cust port).tdig.getD f.digest) ∧
        { t.cust port with fetch := none, refused := none } = { s.cust port with fetch := none, refused := none } ∧ t.tx = s.tx ∧
        t.cust port.other = s.cust port.other ∧ { t.tally with portA := s.tally.portA, portB := s.tally.portB } = s.tally ∧
        { t with net := s.net, tally := s.tally, regs := s.regs, fresh := s.fresh } = s ∧ sameBut [TL_EVT_CUSTREJ] s t) ∧
  (∀ (port : Port) (d : Datagram) (c : CustData) (f : Fetch) (s : State),
      d.typ = 0x42 → (cyCheck s d).1 = true → custDataOf (plain s d) = c → (s.cust port).look = none → (s.cust port).fetch = some f → c.want = f.stn →
      c.total ≠ 0 → c.idig = f.digest → c.offset = f.data.length → f.data.length + c.bytes.length < c.total →
      (f.data.length + c.bytes.length) % 16384 = 0 →
      ∃ t, exec (.custodyDataReceive port d) s = .next t ∧
        (t.cust port).fetch = some { f with data := f.data ++ c.bytes } ∧ (t.cust port).deferred = false ∧
        t.tx = s.tx ++ [s.cyFrame port (custodyHead s) (.custRequest (s.get BZ_CFG_STN) f.stn (f.data.length + c.bytes.length) 16) false] ∧
        t.cust port.other = s.cust port.other ∧ { t.tally with portA := s.tally.portA, portB := s.tally.portB } = s.tally ∧
        { t with net := s.net, tally := s.tally, tx := s.tx, flash := s.flash } = s ∧ { t.flash with mseqRes := s.flash.mseqRes } = s.flash) ∧
  (∀ (port : Port) (d : Datagram) (c : CustData) (f : Fetch) (s : State),
      d.typ = 0x42 → (cyCheck s d).1 = true → custDataOf (plain s d) = c → (s.cust port).look = none → (s.cust port).fetch = some f → c.want = f.stn →
      c.total ≠ 0 → c.idig = f.digest → c.offset = f.data.length → f.data.length + c.bytes.length < c.total →
      (f.data.length + c.bytes.length) % 16384 ≠ 0 →
      ∃ t, exec (.custodyDataReceive port d) s = .next t ∧
        t.cust port = { s.cust port with fetch := some { f with data := f.data ++ c.bytes } } ∧ t.tx = s.tx ∧ t.cust port.other = s.cust port.other ∧
        { t.tally with portA := s.tally.portA, portB := s.tally.portB } = s.tally ∧ { t with net := s.net, tally := s.tally } = s) ∧
  (∀ (port : Port) (d : Datagram) (c : CustData) (f : Fetch) (s : State),
      d.typ = 0x42 → (cyCheck s d).1 = true → custDataOf (plain s d) = c → (s.cust port).look = none → (s.cust port).fetch = some f →
      f.coppice = false → c.want = f.stn → c.total ≠ 0 → f.data ≠ [] → c.idig ≠ f.digest →
      ∃ t, exec (.custodyDataReceive port d) s = .next t ∧
        (t.cust port).fetch = some { f with digest := c.idig, data := [] } ∧
        t.tx = s.tx ++ [s.cyFrame port (custodyHead s) (.custRequest (s.get BZ_CFG_STN) f.stn 0 16) false] ∧ t.cust port.other = s.cust port.other ∧
        { t.tally with portA := s.tally.portA, portB := s.tally.portB } = s.tally ∧
        { t with net := s.net, tally := s.tally, tx := s.tx, flash := s.flash } = s ∧ { t.flash with mseqRes := s.flash.mseqRes } = s.flash) ∧
  (∀ (port : Port) (d : Datagram) (c : CustData) (f : Fetch) (s : State),
      d.typ = 0x42 → (cyCheck s d).1 = true → custDataOf (plain s d) = c → (s.cust port).look = none → (s.cust port).fetch = some f →
      f.coppice = false → c.want = f.stn → c.total = 0 →
      ∃ t, exec (.custodyDataReceive port d) s = .next t ∧
        t.cust port = { s.cust port with fetch := none } ∧ t.cust port.other = s.cust port.other ∧
        { t.tally with portA := s.tally.portA, portB := s.tally.portB } = s.tally ∧ { t with net := s.net, tally := s.tally } = s) ∧
  (∀ (port : Port) (d : Datagram) (stn idig : Nat) (s : State),
      d.typ = 0x43 → (cyCheck s d).1 = true → beAt (plain s d) 0 1 = stn → beAt (plain s d) 8 16 = idig → heldDigest s port ≠ some idig →
      (s.cust port).refused ≠ some idig → (s.cust port).fetch = none →
      ((s.tally.taken.find? (fun x => x.1 == d.sender)).all (fun x => decide (x.2 + hourTicks ≤ s.pwr.ticks)) = true) →
      ∃ t, exec (.custodyOffer port d) s = .next t ∧
        (t.cust port).fetch = some { digest := idig, stn := stn } ∧ (t.cust port).tdig = some idig ∧ (t.cust port).peer = d.sender ∧
        (t.cust port).valid = true ∧ (t.cust port).offer = (s.cust port).offer ∧
        t.tx = s.tx ++ [s.cyFrame port (custodyHead s) (.custRequest (s.get BZ_CFG_STN) stn 0 16) false] ∧ t.cust port.other = s.cust port.other ∧
        { t.tally with portA := s.tally.portA, portB := s.tally.portB } = s.tally ∧
        { t with net := s.net, tally := s.tally, tx := s.tx, flash := s.flash } = s ∧ { t.flash with mseqRes := s.flash.mseqRes } = s.flash) ∧
  (∀ (port : Port) (d : Datagram) (stn idig : Nat) (w : Nat × Nat) (s : State),
      d.typ = 0x43 → (cyCheck s d).1 = true → beAt (plain s d) 0 1 = stn → beAt (plain s d) 8 16 = idig → heldDigest s port ≠ some idig →
      (s.cust port).refused ≠ some idig → (s.cust port).fetch = none → (s.tally.taken.find? (fun x => x.1 == d.sender) = some w) →
      s.pwr.ticks < w.2 + hourTicks →
      ∃ t, exec (.custodyOffer port d) s = .next t ∧
        (t.cust port).deferred = true ∧ (t.cust port).fetch = none ∧ (t.cust port).tdig = some idig ∧
        t.tx = s.tx ++ [s.cyFrame port (custodyHead s) (.defer (s.get BZ_CFG_STN) (ceilDiv (w.2 + hourTicks - s.pwr.ticks) 200000000)) false] ∧
        t.cust port.other = s.cust port.other ∧ { t.tally with portA := s.tally.portA, portB := s.tally.portB } = s.tally ∧
        { t with net := s.net, tally := s.tally, tx := s.tx, flash := s.flash } = s ∧ { t.flash with mseqRes := s.flash.mseqRes } = s.flash) ∧
  (∀ (port : Port) (d : Datagram) (idig : Nat) (s : State),
      d.typ = 0x43 → (cyCheck s d).1 = true → beAt (plain s d) 8 16 = idig → (heldDigest s port = some idig ∨ (s.cust port).refused = some idig) →
      ∃ t, exec (.custodyOffer port d) s = .next t ∧
        (t.cust port = { s.cust port with peer := d.sender, tdig := some idig, valid := true, refused := if (s.cust port).refused = some idig then some idig else none }) ∧
        t.cust port.other = s.cust port.other ∧ { t.tally with portA := s.tally.portA, portB := s.tally.portB } = s.tally ∧
        { t with net := s.net, tally := s.tally } = s) ∧
  (∀ (port : Port) (d : Datagram) (s : State),
      d.typ = 0x44 → (cyCheck s d).1 = true →
      ∃ t, exec (.custodyDefer port d) s = .next t ∧
        t.cust port = { s.cust port with deferSecs := some (beAt (plain s d) 4 4) } ∧ t.cust port.other = s.cust port.other ∧
        { t.tally with portA := s.tally.portA, portB := s.tally.portB } = s.tally ∧ { t with net := s.net, tally := s.tally } = s) ∧
  (∀ (port : Port) (x : Nat) (s : State),
      s.live = true → (s.cust port).deferred = true → (s.cust port).valid = true → hourLeft s port = 0 → (s.cust port).tdig = some x →
      wantsFetch s port x = true → s.keys.lineKey.isSome = true →
      ∃ t, exec (.custodyDeferEnd port) s = .next t ∧
        t.cust port = { s.cust port with deferred := false, fetch := some { digest := x, stn := s.get (nbrStn port) } } ∧
        t.tx = s.tx ++ [s.cyFrame port (custodyHead s) (.custRequest (s.get BZ_CFG_STN) (s.get (nbrStn port)) 0 16) false] ∧
        t.cust port.other = s.cust port.other ∧ { t.tally with portA := s.tally.portA, portB := s.tally.portB } = s.tally ∧
        { t with net := s.net, tally := s.tally, tx := s.tx, flash := s.flash } = s ∧ { t.flash with mseqRes := s.flash.mseqRes } = s.flash)

/-- 15 R388, R392 to R395, 17 R437: after listening Coppice takes the only offer, or port A's of two alike; of two images for one station it reads the header and trailer head and takes the higher GEN and CSEQ; it waits for equal ones, for two stations and for no offer. A failed image is counted and its source
left out; a good one is committed with ORIGIN 3 and the module restarts with CAUSE 0x06; an older own image is the fallback. An unenrolled module offers its serial and a fresh key, takes an offer whose signature verifies, and stores its keys with an ENROLL_KEY whose tag verifies.
Completes: coppiceListenEnd, custodyDataReceive, coppiceCommitDone, coppiceFallback, enrollHello, enrollOffer, enrollKey. -/
def Obligations.CoppiceRestoresAndEnrolmentKeysTheModule : Prop :=
  (∀ (x : Nat × Nat) (s : State),
      s.live = true → s.mode = 4 → enrolled s = true → s.get CP_ST_STEP = 1 → (s.tally.listenAt.any (fun x => passed s x 3) = true) →
      s.tally.failA = false → s.tally.failB = false → (s.cust .a).look = none → (s.cust .b).look = none → (s.cust .a).offer = some x →
      (s.cust .b).offer = none →
      ∃ t, exec (.coppiceListenEnd) s = .next t ∧
        t.get CP_ST_STEP = 2 ∧ t.get CP_ST_WAIT = 0 ∧ t.get CP_ST_CSTN = x.1 % 256 ∧ t.get CP_ST_SRCPORT = 1 ∧
        (t.cust .a).fetch = some { digest := x.2, stn := x.1, coppice := true } ∧ t.cust .b = s.cust .b ∧
        t.tx = s.tx ++ [s.cyFrame .a (custodyHead s) (.custRequest (s.get BZ_CFG_STN) x.1 0 16) false] ∧
        { t.tally with portA := s.tally.portA, portB := s.tally.portB } = s.tally ∧
        { t with regs := s.regs, net := s.net, tally := s.tally, tx := s.tx, flash := s.flash, fresh := s.fresh } = s ∧
        { t.flash with mseqRes := s.flash.mseqRes } = s.flash ∧ sameBut [CP_ST_STEP, CP_ST_WAIT, CP_ST_CSTN, CP_ST_SRCPORT] s t) ∧
  (∀ (x : Nat × Nat) (s : State),
      s.live = true → s.mode = 4 → enrolled s = true → s.get CP_ST_STEP = 1 → (s.tally.listenAt.any (fun x => passed s x 3) = true) →
      s.tally.failA = false → s.tally.failB = false → (s.cust .a).look = none → (s.cust .b).look = none → (s.cust .a).offer = none →
      (s.cust .b).offer = some x →
      ∃ t, exec (.coppiceListenEnd) s = .next t ∧
        t.get CP_ST_STEP = 2 ∧ t.get CP_ST_WAIT = 0 ∧ t.get CP_ST_CSTN = x.1 % 256 ∧ t.get CP_ST_SRCPORT = 2 ∧
        (t.cust .b).fetch = some { digest := x.2, stn := x.1, coppice := true } ∧ t.cust .a = s.cust .a ∧
        t.tx = s.tx ++ [s.cyFrame .b (custodyHead s) (.custRequest (s.get BZ_CFG_STN) x.1 0 16) false] ∧
        { t.tally with portA := s.tally.portA, portB := s.tally.portB } = s.tally ∧
        { t with regs := s.regs, net := s.net, tally := s.tally, tx := s.tx, flash := s.flash, fresh := s.fresh } = s ∧
        { t.flash with mseqRes := s.flash.mseqRes } = s.flash ∧ sameBut [CP_ST_STEP, CP_ST_WAIT, CP_ST_CSTN, CP_ST_SRCPORT] s t) ∧
  (∀ (x : Nat × Nat) (s : State),
      s.live = true → s.mode = 4 → enrolled s = true → s.get CP_ST_STEP = 1 → (s.tally.listenAt.any (fun x => passed s x 3) = true) →
      s.tally.failA = false → s.tally.failB = false → (s.cust .a).look = none → (s.cust .b).look = none → (s.cust .a).offer = some x →
      (s.cust .b).offer = some x →
      ∃ t, exec (.coppiceListenEnd) s = .next t ∧
        t.get CP_ST_STEP = 2 ∧ t.get CP_ST_WAIT = 0 ∧ t.get CP_ST_CSTN = x.1 % 256 ∧ t.get CP_ST_SRCPORT = 1 ∧
        (t.cust .a).fetch = some { digest := x.2, stn := x.1, coppice := true } ∧ t.cust .b = s.cust .b ∧
        t.tx = s.tx ++ [s.cyFrame .a (custodyHead s) (.custRequest (s.get BZ_CFG_STN) x.1 0 16) false] ∧
        { t.tally with portA := s.tally.portA, portB := s.tally.portB } = s.tally ∧
        { t with regs := s.regs, net := s.net, tally := s.tally, tx := s.tx, flash := s.flash, fresh := s.fresh } = s ∧
        { t.flash with mseqRes := s.flash.mseqRes } = s.flash ∧ sameBut [CP_ST_STEP, CP_ST_WAIT, CP_ST_CSTN, CP_ST_SRCPORT] s t) ∧
  (∀ (x y : Nat × Nat) (s : State),
      s.live = true → s.mode = 4 → enrolled s = true → s.get CP_ST_STEP = 1 → (s.tally.listenAt.any (fun x => passed s x 3) = true) →
      s.tally.failA = false → s.tally.failB = false → (s.cust .a).look = none → (s.cust .b).look = none → (s.cust .a).offer = some x →
      (s.cust .b).offer = some y → x.1 = y.1 → x.2 ≠ y.2 →
      ∃ t, exec (.coppiceListenEnd) s = .next t ∧
        t.get CP_ST_STEP = 1 ∧ t.get CP_ST_WAIT = 0 ∧ t.get CP_ST_SRCPORT = 0 ∧
        t.cust .a = { s.cust .a with look := some { digest := x.2, stn := x.1 } } ∧
        t.cust .b = { s.cust .b with look := some { digest := y.2, stn := y.1 } } ∧
        t.tx = s.tx ++ [s.cyFrame .a (custodyHead s) (.custRequest (s.get BZ_CFG_STN) x.1 0 1) false, s.cystad.cyFrame .b (custodyHead s) (.custRequest (s.get BZ_CFG_STN) y.1 0 1) false] ∧
        { t.tally with portA := s.tally.portA, portB := s.tally.portB } = s.tally ∧
        { t with regs := s.regs, net := s.net, tally := s.tally, tx := s.tx, flash := s.flash, fresh := s.fresh } = s ∧
        { t.flash with mseqRes := s.flash.mseqRes } = s.flash ∧ sameBut [CP_ST_STEP, CP_ST_WAIT, CP_ST_SRCPORT] s t) ∧
  (∀ (d : Datagram) (c : CustData) (u v : Nat × Nat) (x y : Look) (q : Nat) (s : State),
      d.typ = 0x42 → (cyCheck s d).1 = true → s.mode = 4 → s.get CP_ST_STEP = 1 → custDataOf (plain s d) = c → (s.cust .a).offer = some u →
      (s.cust .b).offer = some v → u.1 = v.1 → u.2 ≠ v.2 → s.tally.failA = false → s.tally.failB = false → (s.cust .a).look = some x →
      x.cseq = some q → (s.cust .b).look = some y → y.base = 0 → y.data = [] → y.length = none → y.cseq = none → y.stn = c.want → y.digest = c.idig →
      c.offset = 0 → c.total ≠ 0 → c.total ≤ beAt c.bytes 8 4 → c.bytes.length ≤ c.total → x.gen < beAt c.bytes 16 4 →
      ∃ t, exec (.custodyDataReceive .b d) s = .next t ∧
        t.get CP_ST_STEP = 2 ∧ t.get CP_ST_WAIT = 0 ∧ t.get CP_ST_CSTN = v.1 % 256 ∧ t.get CP_ST_SRCPORT = 2 ∧
        (t.cust .b).fetch = some { digest := v.2, stn := v.1, coppice := true } ∧ t.cust .a = s.cust .a ∧
        t.tx = s.tx ++ [s.cyFrame .b (custodyHead s) (.custRequest (s.get BZ_CFG_STN) v.1 0 16) false] ∧
        { t.tally with portA := s.tally.portA, portB := s.tally.portB } = s.tally ∧
        { t with regs := s.regs, net := s.net, tally := s.tally, tx := s.tx, flash := s.flash, fresh := s.fresh } = s ∧
        { t.flash with mseqRes := s.flash.mseqRes } = s.flash ∧ sameBut [CP_ST_STEP, CP_ST_WAIT, CP_ST_CSTN, CP_ST_SRCPORT] s t) ∧
  (∀ (d : Datagram) (c : CustData) (u v : Nat × Nat) (x y : Look) (q : Nat) (s : State),
      d.typ = 0x42 → (cyCheck s d).1 = true → s.mode = 4 → s.get CP_ST_STEP = 1 → custDataOf (plain s d) = c → (s.cust .a).offer = some u →
      (s.cust .b).offer = some v → u.1 = v.1 → u.2 ≠ v.2 → s.tally.failA = false → s.tally.failB = false → (s.cust .a).look = some x →
      x.cseq = some q → (s.cust .b).look = some y → y.base = 0 → y.data = [] → y.length = none → y.cseq = none → y.stn = c.want → y.digest = c.idig →
      c.offset = 0 → c.total ≠ 0 → c.total ≤ beAt c.bytes 8 4 → c.bytes.length ≤ c.total → beAt c.bytes 16 4 < x.gen →
      ∃ t, exec (.custodyDataReceive .b d) s = .next t ∧
        t.get CP_ST_STEP = 2 ∧ t.get CP_ST_WAIT = 0 ∧ t.get CP_ST_CSTN = u.1 % 256 ∧ t.get CP_ST_SRCPORT = 1 ∧
        (t.cust .a).fetch = some { digest := u.2, stn := u.1, coppice := true } ∧ (t.cust .b).fetch = (s.cust .b).fetch ∧
        t.tx = s.tx ++ [s.cyFrame .a (custodyHead s) (.custRequest (s.get BZ_CFG_STN) u.1 0 16) false] ∧
        { t.tally with portA := s.tally.portA, portB := s.tally.portB } = s.tally ∧
        { t with regs := s.regs, net := s.net, tally := s.tally, tx := s.tx, flash := s.flash, fresh := s.fresh } = s ∧
        { t.flash with mseqRes := s.flash.mseqRes } = s.flash ∧ sameBut [CP_ST_STEP, CP_ST_WAIT, CP_ST_CSTN, CP_ST_SRCPORT] s t) ∧
  (∀ (d : Datagram) (c : CustData) (u v : Nat × Nat) (x y : Look) (q : Nat) (s : State),
      d.typ = 0x42 → (cyCheck s d).1 = true → s.mode = 4 → s.get CP_ST_STEP = 1 → custDataOf (plain s d) = c → (s.cust .a).offer = some u →
      (s.cust .b).offer = some v → u.1 = v.1 → u.2 ≠ v.2 → s.tally.failA = false → s.tally.failB = false → (s.cust .a).look = some x →
      x.cseq = some q → (s.cust .b).look = some y → y.base = 0 → y.data = [] → y.length = none → y.cseq = none → y.stn = c.want → y.digest = c.idig →
      c.offset = 0 → c.total ≠ 0 → c.total ≤ beAt c.bytes 8 4 → c.bytes.length ≤ c.total → x.gen = beAt c.bytes 16 4 → q = 0 →
      ∃ t, exec (.custodyDataReceive .b d) s = .next t ∧
        t.get CP_ST_STEP = 5 ∧ t.get CP_ST_WAIT = 3 ∧ t.get CP_ST_CSTN = 0xFE ∧ t.get CP_ST_SRCPORT = 0 ∧ t.tx = s.tx ∧
        t.flash.log = fitLog logUnits ((s.flash.run, .refusal 393) :: s.flash.log) ∧ { t.flash with log := s.flash.log } = s.flash ∧
        t.cust .a = s.cust .a ∧ (t.cust .b).fetch = (s.cust .b).fetch ∧ { t.tally with portA := s.tally.portA, portB := s.tally.portB } = s.tally ∧
        { t with regs := s.regs, net := s.net, tally := s.tally, flash := s.flash, fresh := s.fresh } = s ∧
        sameBut [CP_ST_STEP, CP_ST_WAIT, CP_ST_CSTN, CP_ST_SRCPORT] s t) ∧
  (∀ (x y : Nat × Nat) (s : State),
      s.live = true → s.mode = 4 → enrolled s = true → s.get CP_ST_STEP = 1 → (s.tally.listenAt.any (fun x => passed s x 3) = true) →
      s.tally.failA = false → s.tally.failB = false → (s.cust .a).look = none → (s.cust .b).look = none → (s.cust .a).offer = some x →
      (s.cust .b).offer = some y → x.1 ≠ y.1 →
      ∃ t, exec (.coppiceListenEnd) s = .next t ∧
        t.get CP_ST_STEP = 5 ∧ t.get CP_ST_WAIT = 2 ∧ t.get CP_ST_CSTN = 0xFE ∧ t.get CP_ST_SRCPORT = 0 ∧
        t.flash.log = fitLog logUnits ((s.flash.run, .refusal 393) :: s.flash.log) ∧ { t.flash with log := s.flash.log } = s.flash ∧
        { t with regs := s.regs, flash := s.flash, fresh := s.fresh } = s ∧ sameBut [CP_ST_STEP, CP_ST_WAIT, CP_ST_CSTN, CP_ST_SRCPORT] s t) ∧
  (∀ (s : State),
      s.live = true → s.mode = 4 → enrolled s = true → s.get CP_ST_STEP = 1 → (s.tally.listenAt.any (fun x => passed s x 3) = true) →
      s.tally.failA = false → s.tally.failB = false → (s.cust .a).look = none → (s.cust .b).look = none → (s.cust .a).offer = none →
      (s.cust .b).offer = none →
      ∃ t, exec (.coppiceListenEnd) s = .next t ∧
        t.get CP_ST_STEP = 5 ∧ t.get CP_ST_WAIT = 4 ∧ t.get CP_ST_CSTN = 0xFE ∧ t.get CP_ST_SRCPORT = 0 ∧
        onlyFields [CP_ST_STEP, CP_ST_WAIT, CP_ST_CSTN, CP_ST_SRCPORT] s t) ∧
  (∀ (port : Port) (d : Datagram) (c : CustData) (f : Fetch) (im : Image) (s : State),
      d.typ = 0x42 → (cyCheck s d).1 = true → custDataOf (plain s d) = c → (s.cust port).look = none → (s.cust port).fetch = some f → c.want = f.stn →
      c.total ≠ 0 → c.idig = f.digest → c.offset = f.data.length → f.coppice = true → c.total ≤ f.data.length + c.bytes.length →
      im = ⟨f.data ++ c.bytes⟩ → imageCheck s im = 0 → im.stn = f.stn →
      ∃ t, exec (.custodyDataReceive port d) s = .next t ∧
        t.get CP_ST_STEP = 4 ∧ t.tally.fetched = some im ∧ t.cust port = { s.cust port with fetch := none } ∧ t.flash = s.flash ∧ t.tx = s.tx ∧
        t.cust port.other = s.cust port.other ∧
        { t.tally with portA := s.tally.portA, portB := s.tally.portB, fetched := s.tally.fetched } = s.tally ∧
        { t with net := s.net, tally := s.tally, regs := s.regs, fresh := s.fresh } = s ∧ sameBut [CP_ST_STEP] s t) ∧
  (∀ (d : Datagram) (c : CustData) (f : Fetch) (im : Image) (s : State),
      d.typ = 0x42 → (cyCheck s d).1 = true → custDataOf (plain s d) = c → (s.cust .a).look = none → (s.cust .a).fetch = some f → c.want = f.stn →
      c.total ≠ 0 → c.idig = f.digest → c.offset = f.data.length → f.coppice = true → c.total ≤ f.data.length + c.bytes.length →
      im = ⟨f.data ++ c.bytes⟩ → (imageCheck s im ≠ 0 ∨ im.stn ≠ f.stn) → (s.cust .b).offer = none →
      ∃ t, exec (.custodyDataReceive .a d) s = .next t ∧
        t.get CP_CNT_VFAIL = min 255 (s.get CP_CNT_VFAIL + 1) ∧ t.tally.failA = true ∧ t.tally.fetched = s.tally.fetched ∧
        t.cust .a = { s.cust .a with fetch := none } ∧ t.flash = s.flash ∧ t.tx = s.tx ∧ t.get CP_ST_STEP = 5 ∧ t.get CP_ST_WAIT = 4 ∧
        t.get CP_ST_CSTN = 0xFE ∧ t.get CP_ST_SRCPORT = 0 ∧ { t with net := s.net, tally := s.tally, regs := s.regs, fresh := s.fresh } = s ∧
        sameBut [CP_CNT_VFAIL, CP_ST_STEP, CP_ST_WAIT, CP_ST_CSTN, CP_ST_SRCPORT] s t) ∧
  (∀ (im : Image) (s : State),
      s.live = true → s.mode = 4 → s.tally.fetched = some im → linkUp s .a = false ∧ linkUp s .b = false →
      ∃ t, exec (.coppiceCommitDone) s = .next t ∧
        t.flash.own = ⟨s.flash.own.pos.set (Fin.ofNat 8 (s.flash.nextPos 0)) im.bytes⟩ ∧ t.flash.comseq = s.flash.comseq + 1 ∧
        t.flash.seals = { region := 0, pos := s.flash.nextPos 0, origin := 3, comseq := s.flash.comseq + 1, len := im.size, digest := im.digest } :: s.flash.seals ∧
        t.modes.restart = some 6 ∧ t.tally = { s.tally with fetched := none, newOwn := some im } ∧ t.flash.custA = s.flash.custA ∧
        t.flash.custB = s.flash.custB ∧ t.keys = s.keys ∧ t.mode = 4) ∧
  (∀ (p : Nat) (x : SealRec) (im : Image) (s : State),
      s.live = true → s.mode = 4 → passed s s.modes.at_ 60 = true → s.tally.fetched = none → s.tally.olderPos = some p → s.flash.sealAt 0 p = some x →
      s.flash.vouched x = some im → p < 8 → im.params = [] → im.rest = [] → worldOk im.world = true → s.get ID_DOMST_WSTATE = 0 →
      ∃ t, exec (.coppiceFallback) s = .next t ∧
        t.mode = 5 ∧ t.get TL_ST_SRC = 4 ∧ t.get TL_ST_POS = p ∧ t.get TL_EVT_OLDER = 1 ∧ t.tally.image = some im ∧ t.get BZ_CFG_STN = im.stn % 256 ∧
        t.word 0x1701 = BitVec.ofNat 32 im.gen ∧ t.flash.own = s.flash.own ∧ t.flash.comseq = s.flash.comseq ∧ t.flash.seals = s.flash.seals ∧
        t.keys = s.keys) ∧
  (∀ (s : State),
      s.live = true → s.mode = 4 → enrolled s = false → passedSince s s.tally.enrollAt 2 = true → linkUp s .a = true → linkUp s .b = false →
      ∃ t, exec (.enrollHello) s = .next t ∧
        t.tally = { s.tally with enrollAt := some s.pwr.ticks, enrollKey := some (Config.freshKey s.free) } ∧ t.free = s.free + 1 ∧
        t.tx = s.tx ++ [{ port := .a, queue := 3, pay := .enrollHello ((s.word 0x1004).toNat + 2 ^ 32 * (s.word 0x1005).toNat) (beNat (leBytes 32 (x25519Public (Config.freshKey s.free)))) (Config.identitySign (beBytes 8 ((s.word 0x1004).toNat + 2 ^ 32 * (s.word 0x1005).toNat) ++ beBytes 32 (beNat (leBytes 32 (x25519Public (Config.freshKey s.free)))))), ip := some { ipTo s true (0xFF02 * 2 ^ 112 + 1) 52109 with ports := some (52109, 52109) } }] ∧
        { t with tx := s.tx, tally := s.tally, free := s.free } = s) ∧
  (∀ (pub plant sysid sig k own : Nat) (s : State),
      s.live = true → s.mode = 4 → enrolled s = false → s.tally.enrollKey = some k → own = beNat (leBytes 32 (x25519Public k)) →
      edVerify (beBytes 32 plant) (offerText s own pub sysid) (beBytes 64 sig) = true →
      ∃ t, exec (.enrollOffer pub plant sysid sig) s = .next t ∧
        t.tally = { s.tally with enrolling := some (plant, sysid, transferKey k own pub) } ∧ { t with tally := s.tally } = s) ∧
  (∀ (pub plant sysid sig k : Nat) (s : State),
      s.live = true → s.mode = 4 → enrolled s = false → s.tally.enrollKey = some k →
      edVerify (beBytes 32 plant) (offerText s (beNat (leBytes 32 (x25519Public k))) pub sysid) (beBytes 64 sig) = false →
      ∃ t, exec (.enrollOffer pub plant sysid sig) s = .next t ∧
        t = s) ∧
  (∀ (src : Peer) (nonce cipher tag plant sysid transfer : Nat) (s : State),
      s.live = true → s.mode = 4 → enrolled s = false → s.tally.enrolling = some (plant, sysid, transfer) →
      gcmTag transfer nonce [] (beBytes 32 cipher) = tag →
      ∃ t, exec (.enrollKey src nonce cipher tag) s = .next t ∧
        t.keys = { s.keys with lineKey := some (beNat (gcmCrypt transfer nonce (beBytes 32 cipher))), anchor := some plant, sysid := sysid } ∧
        t.get TL_ST_ENROLLED = 1 ∧ t.get WK_ST_LINEKEY = 1 ∧ t.get WK_ST_ANCHOR = 1 ∧ t.get CP_ST_STEP = 1 ∧ t.get CP_ST_WAIT = 0 ∧
        (t.tally = { s.tally with enrolling := none, enrollKey := none, listenAt := if linkUp s .a = true ∨ linkUp s .b = true then some s.pwr.ticks else none }) ∧
        (t.tx = s.tx ++ (macPorts s (some src.mac) bothPorts).map fun p => { port := p.egress, queue := 3, pay := .enrollDone (Config.freshNonce s.free % 2 ^ 96) (gcmTag transfer (Config.freshNonce s.free % 2 ^ 96) [] []), ip := some { answerHead s src with ports := some (52109, src.port) } }) ∧
        t.free = s.free + 1 ∧ { t with regs := s.regs, keys := s.keys, tally := s.tally, tx := s.tx, free := s.free, fresh := s.fresh } = s ∧
        sameBut [TL_ST_ENROLLED, WK_ST_LINEKEY, WK_ST_ANCHOR, CP_ST_STEP, CP_ST_WAIT, wholeWord 0x1818, wholeWord 0x1819, wholeWord 0x181A, wholeWord 0x181B, wholeWord 0x181C, wholeWord 0x181D] s t) ∧
  (∀ (src : Peer) (nonce cipher tag plant sysid transfer : Nat) (s : State),
      s.live = true → s.mode = 4 → enrolled s = false → s.tally.enrolling = some (plant, sysid, transfer) →
      gcmTag transfer nonce [] (beBytes 32 cipher) ≠ tag →
      ∃ t, exec (.enrollKey src nonce cipher tag) s = .next t ∧
        t = s)

/-- 00 R9, 14 R362 to R364, 17 R431, R435, R436, 18 R458 to R461, 19 R465 to R468: a low-half read latches its high half in its initiator's shadow; a high-half read answers the matching shadow, or the live half, counted. Narrow writes are ignored and counted, an access
past a page end is cut and counted, a read clears RC fields. A write its door or world turns away has no effect. A world violation is counted, and shown while none stands. A management read or write of a listed host is carried out once and answered; a repeated
request is answered again.
Completes: twoHalfLowRead, twoHalfHighRead, busWidthAccess, busMultiwordAccess, readClearsAccess, registerWrite, worldViolation, mgmtRead, mgmtWrite. -/
def Obligations.RegisterAccessesThroughTheBusAndManagement : Prop :=
  (∀ (init : Initiator) (addr : Nat) (s : State),
      present s init = true → lowHalf addr = true → accMask addr .rc = 0 → isRegister addr = true → workHidden s addr = false → rxWord addr = false →
      viewedWord s addr = false →
      ∃ t, exec (.twoHalfLowRead init addr) s = .next t ∧
        t.bus.reply = liveWord s addr ∧
        (t.bus.shadows.find? (fun x => x.init == shadowOwner init) = some ⟨shadowOwner init, addr, s.word (addr + 1)⟩) ∧
        (∀ x ∈ s.bus.shadows, x.init ≠ shadowOwner init → x ∈ t.bus.shadows) ∧ { t with bus := s.bus } = s ∧
        { t.bus with reply := s.bus.reply, shadows := s.bus.shadows } = s.bus) ∧
  (∀ (init : Initiator) (addr : Nat) (x : Shadow) (s : State),
      present s init = true → highHalf addr = true → (s.bus.shadows.find? (fun x => x.init == shadowOwner init && x.addr + 1 == addr) = some x) →
      isRegister addr = true → workHidden s addr = false → rxWord addr = false → viewedWord s addr = false →
      ∃ t, exec (.twoHalfHighRead init addr) s = .next t ∧
        t.bus.reply = x.high ∧ { t with bus := s.bus } = s ∧ { t.bus with reply := s.bus.reply } = s.bus) ∧
  (∀ (init : Initiator) (addr : Nat) (s : State),
      present s init = true → highHalf addr = true → (s.bus.shadows.find? (fun x => x.init == shadowOwner init && x.addr + 1 == addr) = none) →
      isRegister addr = true → workHidden s addr = false → rxWord addr = false → viewedWord s addr = false →
      ∃ t, exec (.twoHalfHighRead init addr) s = .next t ∧
        t.bus.reply = s.word addr ∧ t.get BUS_CNT_UNLATCHED = min 0xFFFF (s.get BUS_CNT_UNLATCHED + 1) ∧
        { t with regs := s.regs, bus := s.bus, fresh := s.fresh } = s ∧ { t.bus with reply := s.bus.reply } = s.bus ∧ sameBut [BUS_CNT_UNLATCHED] s t) ∧
  (∀ (p : Proc) (half : Bool) (b : Nat) (s : State),
      procRuns s p = true → (0x40010000 ≤ b ∧ b < 0x50000000 ∨ (0x40000000 ≤ b ∧ b < 0x40010000 ∧ pageListed ((b - 0x40000000) / 4) = true)) →
      ∃ t, exec (.busWidthAccess p b half true) s = .next t ∧
        t.get BUS_CNT_WIDTH = min 255 (s.get BUS_CNT_WIDTH + 1) ∧ onlyFields [BUS_CNT_WIDTH] s t) ∧
  (∀ (p : Proc) (half : Bool) (b : Nat) (s : State),
      procRuns s p = true → 0x40010000 ≤ b → b < 0x50000000 →
      ∃ t, exec (.busWidthAccess p b half false) s = .next t ∧
        t.bus.reply = 0 ∧ t.get BUS_CNT_WIDTH = min 255 (s.get BUS_CNT_WIDTH + 1) ∧ { t.bus with reply := s.bus.reply } = s.bus ∧
        sameBut [BUS_CNT_WIDTH] s t ∧ { t with regs := s.regs, bus := s.bus, fresh := s.fresh } = s) ∧
  (∀ (p : Proc) (half : Bool) (a r : Nat) (s : State),
      procRuns s p = true → a < 0x4000 → r < 4 → lowHalf a = false → highHalf a = false → accMask a .rc = 0 → isRegister a = true →
      workHidden s a = false → rxWord a = false → viewedWord s a = false →
      ∃ t, exec (.busWidthAccess p (0x40000000 + 4 * a + r) half false) s = .next t ∧
        (t.bus.reply = if half then BitVec.ofNat 32 (getBits (liveWord s a) (r / 2 * 16) 16) else BitVec.ofNat 32 (getBits (liveWord s a) (r * 8) 8)) ∧
        { t with bus := s.bus } = s ∧ { t.bus with reply := s.bus.reply } = s.bus) ∧
  (∀ (p : Proc) (addr n : Nat) (s : State),
      procRuns s p = true → addr < 0x4000 → pageEnd addr < addr + n → pageListed addr = true → pageEnd addr = addr + 1 → lowHalf addr = false →
      highHalf addr = false → accMask addr .rc = 0 → isRegister addr = true → workHidden s addr = false → rxWord addr = false →
      viewedWord s addr = false →
      ∃ t, exec (.busMultiwordAccess p addr n) s = .next t ∧
        t.bus.burst = liveWord s addr :: List.replicate (n - 1) 0 ∧ t.bus.reply = 0 ∧ t.get BUS_CNT_TRUNC = min 255 (s.get BUS_CNT_TRUNC + 1) ∧
        { t.bus with reply := s.bus.reply, burst := s.bus.burst } = s.bus ∧ sameBut [BUS_CNT_TRUNC] s t ∧
        { t with regs := s.regs, bus := s.bus, fresh := s.fresh } = s) ∧
  (∀ (p : Proc) (addr cnt : Nat) (s : State),
      procRuns s p = true → addr < 0x4000 → 1 ≤ cnt → cnt ≤ 3 → addr + cnt ≤ pageEnd addr →
      (∀ k : Fin 3, k.val < cnt → isRegister (addr + k.val) = true ∧ workHidden s (addr + k.val) = false ∧ rxWord (addr + k.val) = false ∧ viewedWord s (addr + k.val) = false ∧ lowHalf (addr + k.val) = false ∧ highHalf (addr + k.val) = false ∧ accMask (addr + k.val) .rc = 0) →
      ∃ t, exec (.busMultiwordAccess p addr cnt) s = .next t ∧
        (t.bus.burst = (List.range cnt).map fun k => liveWord s (addr + k)) ∧ t.bus.reply = liveWord s (addr + (cnt - 1)) ∧
        { t.bus with reply := s.bus.reply, burst := s.bus.burst } = s.bus ∧ { t with bus := s.bus } = s) ∧
  (∀ (p : Proc) (addr : Nat) (s : State),
      procRuns s p = true → accMask addr .rc ≠ 0 → lowHalf addr = false → highHalf addr = false → isRegister addr = true → workHidden s addr = false →
      rxWord addr = false → viewedWord s addr = false →
      ∃ t, exec (.readClearsAccess p addr) s = .next t ∧
        t.bus.reply = readValue s addr ∧ (s.fresh = [] → t.bus.reply = liveWord s addr) ∧
        t.word addr = (s.word addr &&& ~~~(BitVec.ofNat 32 (accMask addr .rc))) ||| tickEvents s addr (accMask addr .rc) ∧
        (s.fresh = [] → t.word addr = s.word addr &&& ~~~(BitVec.ofNat 32 (accMask addr .rc))) ∧ { t.bus with reply := s.bus.reply } = s.bus ∧
        sameBut [wholeWord addr] s t ∧ { t with regs := s.regs, bus := s.bus, fresh := s.fresh } = s) ∧
  (∀ (init : Initiator) (addr : Nat) (v : Word) (s : State),
      present s init = true → mayWrite s init addr = false → (match init with | .proc p => breaksWorld s p addr | _ => false) = false →
      ∃ t, exec (.registerWrite init addr v) s = .next t ∧
        t = s) ∧
  (∀ (p : Proc) (addr : Nat) (v : Word) (s : State),
      breaksWorld s p addr = true →
      ∃ t, exec (.registerWrite (.proc p) addr v) s = .next t ∧
        t.get WK_EVT_VIOL = 1 ∧ t.get WK_VINFO_COUNT = min 255 (s.get WK_VINFO_COUNT + 1) ∧
        (t.word 0x1809 = (if s.get WK_EVT_VIOL = 1 then s.word 0x1809 else BitVec.ofNat 32 (0x40000000 + 4 * addr))) ∧
        t.bus.pulses = s.bus.pulses ++ [1] ∧ { t.bus with pulses := s.bus.pulses } = s.bus ∧
        { t with regs := s.regs, bus := s.bus, fresh := s.fresh } = s ∧
        sameBut [WK_EVT_VIOL, WK_VINFO_INIT, WK_VINFO_WR, WK_VINFO_COUNT, wholeWord 0x1809] s t) ∧
  (∀ (init : Initiator) (v : Word) (s : State),
      present s init = true → mayWrite s init 0x1301 = true →
      ∃ t, exec (.registerWrite init 0x1301 v) s = .next t ∧
        t.word 0x1301 = (s.word 0x1301 &&& ~~~(BitVec.ofNat 32 (accMask 0x1301 .rw))) ||| (v &&& BitVec.ofNat 32 (accMask 0x1301 .rw)) ∧
        { t with regs := s.regs, fresh := s.fresh } = s ∧ sameBut [wholeWord 0x1301] s t) ∧
  (∀ (init : Initiator) (v : Word) (s : State),
      present s init = true → mayWrite s init 0x803 = true →
      ∃ t, exec (.registerWrite init 0x803 v) s = .next t ∧
        t.word 0x803 = s.word 0x803 &&& ~~~(v &&& BitVec.ofNat 32 (accMask 0x803 .w1c)) ∧ { t with regs := s.regs, fresh := s.fresh } = s ∧
        sameBut [wholeWord 0x803] s t) ∧
  (∀ (p : Proc) (x : BusTarget) (wr : Bool) (b : Nat) (s : State),
      procRuns s p = true → violates s p x wr b = true → s.get WK_EVT_VIOL = 0 →
      ∃ t, exec (.worldViolation p x wr b) s = .next t ∧
        t.get WK_EVT_VIOL = 1 ∧ t.get WK_VINFO_INIT = violator p ∧ (t.get WK_VINFO_WR = (if wr then 1 else 0)) ∧ t.word 0x1809 = BitVec.ofNat 32 b ∧
        t.get WK_VINFO_COUNT = min 255 (s.get WK_VINFO_COUNT + 1) ∧
        sameBut [WK_EVT_VIOL, WK_VINFO_INIT, WK_VINFO_WR, WK_VINFO_COUNT, wholeWord 0x1809] s t ∧
        { t.bus with reply := s.bus.reply, pulses := s.bus.pulses } = s.bus ∧ t.bus.pulses = s.bus.pulses ++ [1] ∧
        t.an = { s.an with upBad := s.an.upBad || (p == .user && x != .mailbox && x != .partition && x != .register) } ∧
        { t with regs := s.regs, bus := s.bus, an := s.an, fresh := s.fresh } = s) ∧
  (∀ (p : Proc) (x : BusTarget) (b : Nat) (s : State),
      procRuns s p = true → violates s p x false b = true → s.get WK_EVT_VIOL = 1 →
      ∃ t, exec (.worldViolation p x false b) s = .next t ∧
        t.bus.reply = 0 ∧ t.get WK_VINFO_COUNT = min 255 (s.get WK_VINFO_COUNT + 1) ∧ sameBut [WK_VINFO_COUNT] s t ∧
        { t.bus with reply := s.bus.reply, pulses := s.bus.pulses } = s.bus ∧ t.bus.pulses = s.bus.pulses ++ [1] ∧
        t.an = { s.an with upBad := s.an.upBad || (p == .user && x != .mailbox && x != .partition && x != .register) } ∧
        { t with regs := s.regs, bus := s.bus, an := s.an, fresh := s.fresh } = s) ∧
  (∀ (port : Port) (d : Datagram) (reqid addr cnt : Nat) (l : List Word) (s : State),
      d.typ = 0x10 → (cyCheck s d).1 = true → mgmtReqOf (plain s d) = ⟨reqid, 1, addr, cnt, l⟩ → d.len = 12 →
      (∀ x ∈ s.net.hosts, x.sender ≠ d.sender) → 1 ≤ cnt → cnt ≤ 3 → pageListed addr = true → addr + cnt ≤ pageEnd addr →
      (∀ k : Fin 3, k.val < cnt → isRegister (addr + k.val) = true ∧ workHidden s (addr + k.val) = false ∧ rxWord (addr + k.val) = false ∧ viewedWord s (addr + k.val) = false ∧ lowHalf (addr + k.val) = false ∧ highHalf (addr + k.val) = false ∧ accMask (addr + k.val) .rc = 0) →
      ∃ t, exec (.mgmtRead port d) s = .next t ∧
        (t.tx = s.tx ++ (macPorts s (some d.src.mac) [port]).map fun p => s.cyFrame p (answerHead s d.src) (.mgmtReply d.sender reqid 1 0 false addr ((List.range cnt).map fun k => liveWord s (addr + k))) false) ∧
        ((hostState t d.sender).kept = [⟨reqid, .mgmtReply d.sender reqid 1 0 false addr ((List.range cnt).map fun k => liveWord s (addr + k))⟩]) ∧
        { t.net with mseq := s.net.mseq, replay := s.net.replay, hosts := s.net.hosts } = s.net ∧
        { t with net := s.net, tx := s.tx, flash := s.flash } = s ∧ { t.flash with mseqRes := s.flash.mseqRes } = s.flash) ∧
  (∀ (port : Port) (d : Datagram) (reqid addr cnt : Nat) (l : List Word) (s : State),
      d.typ = 0x10 → (cyCheck s d).1 = true → mgmtReqOf (plain s d) = ⟨reqid, 1, addr, cnt, l⟩ → d.len = 12 →
      (∀ x ∈ s.net.hosts, x.sender ≠ d.sender) → pageListed addr = false →
      ∃ t, exec (.mgmtRead port d) s = .next t ∧
        (t.tx = s.tx ++ (macPorts s (some d.src.mac) [port]).map fun p => s.cyFrame p (answerHead s d.src) (.mgmtReply d.sender reqid 1 3 false addr []) false) ∧
        { t.net with mseq := s.net.mseq, replay := s.net.replay, hosts := s.net.hosts } = s.net ∧
        { t with net := s.net, tx := s.tx, flash := s.flash } = s ∧ { t.flash with mseqRes := s.flash.mseqRes } = s.flash) ∧
  (∀ (port : Port) (d : Datagram) (reqid addr cnt : Nat) (l : List Word) (s : State),
      d.typ = 0x10 → (cyCheck s d).1 = true → mgmtReqOf (plain s d) = ⟨reqid, 1, addr, cnt, l⟩ → d.len = 12 →
      (∀ x ∈ s.net.hosts, x.sender ≠ d.sender) → pageListed addr = true → pageEnd addr = addr + 1 → 1 < cnt → lowHalf addr = false →
      highHalf addr = false → accMask addr .rc = 0 → isRegister addr = true → workHidden s addr = false → rxWord addr = false →
      viewedWord s addr = false →
      ∃ t, exec (.mgmtRead port d) s = .next t ∧
        (t.tx = s.tx ++ (macPorts s (some d.src.mac) [port]).map fun p => s.cyFrame p (answerHead s d.src) (.mgmtReply d.sender reqid 1 0 true addr [liveWord s addr]) false) ∧
        { t.net with mseq := s.net.mseq, replay := s.net.replay, hosts := s.net.hosts } = s.net ∧
        { t with net := s.net, tx := s.tx, flash := s.flash } = s ∧ { t.flash with mseqRes := s.flash.mseqRes } = s.flash) ∧
  (∀ (port : Port) (d : Datagram) (reqid op addr cnt : Nat) (l : List Word) (s : State),
      d.typ = 0x10 → (cyCheck s d).1 = true → mgmtReqOf (plain s d) = ⟨reqid, op, addr, cnt, l⟩ → (∀ x ∈ s.net.hosts, x.sender ≠ d.sender) → op ≠ 1 →
      op ≠ 2 →
      ∃ t, exec (.mgmtRead port d) s = .next t ∧
        (t.tx = s.tx ++ (macPorts s (some d.src.mac) [port]).map fun p => s.cyFrame p (answerHead s d.src) (.mgmtReply d.sender reqid op 4 false addr []) false) ∧
        { t.net with mseq := s.net.mseq, replay := s.net.replay, hosts := s.net.hosts } = s.net ∧
        { t with net := s.net, tx := s.tx, flash := s.flash } = s ∧ { t.flash with mseqRes := s.flash.mseqRes } = s.flash) ∧
  (∀ (port : Port) (d : Datagram) (reqid addr cnt : Nat) (l : List Word) (s : State),
      d.typ = 0x10 → (cyCheck s d).1 = true → mgmtReqOf (plain s d) = ⟨reqid, 1, addr, cnt, l⟩ → (∀ x ∈ s.net.hosts, x.sender ≠ d.sender) →
      d.len ≠ 12 →
      ∃ t, exec (.mgmtRead port d) s = .next t ∧
        (t.tx = s.tx ++ (macPorts s (some d.src.mac) [port]).map fun p => s.cyFrame p (answerHead s d.src) (.mgmtReply d.sender reqid 1 8 false addr []) false) ∧
        { t.net with mseq := s.net.mseq, replay := s.net.replay, hosts := s.net.hosts } = s.net ∧
        { t with net := s.net, tx := s.tx, flash := s.flash } = s ∧ { t.flash with mseqRes := s.flash.mseqRes } = s.flash) ∧
  (∀ (port : Port) (d : Datagram) (reqid addr cnt : Nat) (l : List Word) (x : Kept) (s : State),
      d.typ = 0x10 → (cyCheck s d).1 = true → mgmtReqOf (plain s d) = ⟨reqid, 1, addr, cnt, l⟩ →
      ((hostState s d.sender).kept.find? (fun k => k.reqid == reqid) = some x) →
      ∃ t, exec (.mgmtRead port d) s = .next t ∧
        (t.tx = s.tx ++ (macPorts s (some d.src.mac) [port]).map fun p => s.cyFrame p (answerHead s d.src) (x.pay) false) ∧
        (hostState t d.sender).kept = (hostState s d.sender).kept ∧
        { t.net with mseq := s.net.mseq, replay := s.net.replay, hosts := s.net.hosts } = s.net ∧
        { t with net := s.net, tx := s.tx, flash := s.flash } = s ∧ { t.flash with mseqRes := s.flash.mseqRes } = s.flash) ∧
  (∀ (port : Port) (d : Datagram) (reqid : Nat) (v : Word) (s : State),
      d.typ = 0x10 → (cyCheck s d).1 = true → mgmtReqOf (plain s d) = ⟨reqid, 2, 0x1301, 1, [v]⟩ → d.len = 16 →
      (∀ x ∈ s.net.hosts, x.sender ≠ d.sender) →
      ∃ t, exec (.mgmtWrite port d) s = .next t ∧
        t.word 0x1301 = (s.word 0x1301 &&& ~~~(BitVec.ofNat 32 (accMask 0x1301 .rw))) ||| (v &&& BitVec.ofNat 32 (accMask 0x1301 .rw)) ∧
        (t.tx = s.tx ++ (macPorts s (some d.src.mac) [port]).map fun p => s.cyFrame p (answerHead s d.src) (.mgmtReply d.sender reqid 2 0 false 0x1301 []) false) ∧
        (hostState t d.sender).kept = [⟨reqid, .mgmtReply d.sender reqid 2 0 false 0x1301 []⟩] ∧
        { t.net with mseq := s.net.mseq, replay := s.net.replay, hosts := s.net.hosts } = s.net ∧
        { t with regs := s.regs, net := s.net, tx := s.tx, flash := s.flash, fresh := s.fresh } = s ∧
        { t.flash with mseqRes := s.flash.mseqRes } = s.flash ∧ sameBut [wholeWord 0x1301] s t) ∧
  (∀ (port : Port) (d : Datagram) (reqid addr cnt : Nat) (l : List Word) (s : State),
      d.typ = 0x10 → (cyCheck s d).1 = true → mgmtReqOf (plain s d) = ⟨reqid, 2, addr, cnt, l⟩ → d.len = 12 + 4 * cnt → l.length = cnt →
      (∀ x ∈ s.net.hosts, x.sender ≠ d.sender) → addr + cnt ≤ pageEnd addr → l ≠ [] → hostMayWrite addr = false →
      ∃ t, exec (.mgmtWrite port d) s = .next t ∧
        (t.tx = s.tx ++ (macPorts s (some d.src.mac) [port]).map fun p => s.cyFrame p (answerHead s d.src) (.mgmtReply d.sender reqid 2 3 false addr []) false) ∧
        { t.net with mseq := s.net.mseq, replay := s.net.replay, hosts := s.net.hosts } = s.net ∧
        { t with net := s.net, tx := s.tx, flash := s.flash } = s ∧ { t.flash with mseqRes := s.flash.mseqRes } = s.flash) ∧
  (∀ (port : Port) (d : Datagram) (reqid addr cnt : Nat) (l : List Word) (s : State),
      d.typ = 0x10 → (cyCheck s d).1 = true → mgmtReqOf (plain s d) = ⟨reqid, 2, addr, cnt, l⟩ → d.len = 12 + 4 * cnt → l.length = cnt →
      (∀ x ∈ s.net.hosts, x.sender ≠ d.sender) → pageEnd addr < addr + cnt →
      ∃ t, exec (.mgmtWrite port d) s = .next t ∧
        (t.tx = s.tx ++ (macPorts s (some d.src.mac) [port]).map fun p => s.cyFrame p (answerHead s d.src) (.mgmtReply d.sender reqid 2 6 false addr []) false) ∧
        { t.net with mseq := s.net.mseq, replay := s.net.replay, hosts := s.net.hosts } = s.net ∧
        { t with net := s.net, tx := s.tx, flash := s.flash } = s ∧ { t.flash with mseqRes := s.flash.mseqRes } = s.flash) ∧
  (∀ (port : Port) (d : Datagram) (reqid addr cnt : Nat) (l : List Word) (s : State),
      d.typ = 0x10 → (cyCheck s d).1 = true → mgmtReqOf (plain s d) = ⟨reqid, 2, addr, cnt, l⟩ → (∀ x ∈ s.net.hosts, x.sender ≠ d.sender) →
      (d.len ≠ 12 + 4 * cnt ∨ l.length ≠ cnt) →
      ∃ t, exec (.mgmtWrite port d) s = .next t ∧
        (t.tx = s.tx ++ (macPorts s (some d.src.mac) [port]).map fun p => s.cyFrame p (answerHead s d.src) (.mgmtReply d.sender reqid 2 8 false addr []) false) ∧
        { t.net with mseq := s.net.mseq, replay := s.net.replay, hosts := s.net.hosts } = s.net ∧
        { t with net := s.net, tx := s.tx, flash := s.flash } = s ∧ { t.flash with mseqRes := s.flash.mseqRes } = s.flash)

/-- 06 R170 to R177, 15 R387 to R389, 16 R407, R408, 17 R437: a read frame answers the status, a header and the words; a write frame is carried out where the port may write and otherwise rejected; a faulty frame is counted by its kind. Erase-to-blank with its confirm word
clears keys, regions and the event log and takes the next COMSEQ, and the controller restarts. The key probe sends identify frames; a plug answer enters KEYLOAD, an adapter's answer stops them; the window's end leaves LOAD. KEYLOAD reads the plug and commits a
good image with ORIGIN 2.
Completes: sspRead, sspWrite, sspEraseToBlank, sspFrameReject, eraseComplete, keyProbeSwitch, keyProbeIdentify, keyPlugAnswer, serviceAdapterAnswer,
keyProbeWindowEnd, keyloadRead, keyloadImageDone. -/
def Obligations.ServiceSerialPortAndKeyPlug : Prop :=
  (∀ (f : SspFrame) (s : State),
      serialSlave s = true → s.tally.erasing = false → frameIs s f 1 = true → pageListed (frameAddr s f) = true →
      frameAddr s f + frameCount s f ≤ pageEnd (frameAddr s f) →
      (∀ k : Fin 256, k.val < (frameCount s f) → isRegister ((frameAddr s f) + k.val) = true ∧ workHidden s ((frameAddr s f) + k.val) = false ∧ rxWord ((frameAddr s f) + k.val) = false ∧ viewedWord s ((frameAddr s f) + k.val) = false ∧ lowHalf ((frameAddr s f) + k.val) = false ∧ highHalf ((frameAddr s f) + k.val) = false ∧ accMask ((frameAddr s f) + k.val) .rc = 0) →
      ∃ t, exec (.sspRead f) s = .next t ∧
        (t.tx = s.tx ++ [{ port := .serial, queue := 0, pay := .sspReply (frameStatus s :: replyHeader false 0 (frameCount s f) :: (List.range (frameCount s f)).map fun k => liveWord s (frameAddr s f + k)) }]) ∧
        t.get SSP_ST_RES = 0 ∧ t.get SSP_ST_LASTOP = 1 ∧ t.get SSP_CNT_FRAMES = min 255 (s.get SSP_CNT_FRAMES + 1) ∧
        t.get SSP_CNT_EXTRA = min 255 (s.get SSP_CNT_EXTRA + frameExtra s f) ∧ t.bus = { s.bus with pulses := s.bus.pulses ++ [5] } ∧
        { t with regs := s.regs, tx := s.tx, bus := s.bus, fresh := s.fresh } = s ∧
        sameBut [SSP_ST_LASTOP, SSP_ST_TRUNC, SSP_ST_RES, SSP_CNT_EXTRA, SSP_CNT_FRAMES] s t) ∧
  (∀ (f : SspFrame) (v : Word) (s : State),
      serialSlave s = true → s.tally.erasing = false → s.mode = 9 → frameIs s f 2 = true → frameAddr s f = 0x1730 → frameCount s f = 1 →
      (frameWords s f).getD 1 0 = v →
      ∃ t, exec (.sspWrite f) s = .next t ∧
        t.word 0x1730 = (s.word 0x1730 &&& ~~~(BitVec.ofNat 32 (accMask 0x1730 .rw))) ||| (v &&& BitVec.ofNat 32 (accMask 0x1730 .rw)) ∧
        t.get SSP_ST_RES = 0 ∧ t.get SSP_ST_LASTOP = 2 ∧ t.get SSP_CNT_FRAMES = min 255 (s.get SSP_CNT_FRAMES + 1) ∧
        t.get SSP_CNT_EXTRA = min 255 (s.get SSP_CNT_EXTRA + frameExtra s f) ∧
        t.tx = s.tx ++ [{ port := .serial, queue := 0, pay := .sspReply [frameStatus s, 0] }] ∧ t.bus = { s.bus with pulses := s.bus.pulses ++ [5] } ∧
        { t with regs := s.regs, tx := s.tx, bus := s.bus, fresh := s.fresh } = s ∧
        sameBut [wholeWord 0x1730, SSP_ST_LASTOP, SSP_ST_TRUNC, SSP_ST_RES, SSP_CNT_EXTRA, SSP_CNT_FRAMES] s t) ∧
  (∀ (f : SspFrame) (s : State),
      serialSlave s = true → s.tally.erasing = false → frameIs s f 2 = true → frameAddr s f + frameCount s f ≤ pageEnd (frameAddr s f) →
      sspMayWrite s (frameAddr s f) = false →
      ∃ t, exec (.sspWrite f) s = .next t ∧
        t.get SSP_ST_RES = 3 ∧ t.get SSP_CNT_REJ = min 255 (s.get SSP_CNT_REJ + 1) ∧
        t.get SSP_CNT_EXTRA = min 255 (s.get SSP_CNT_EXTRA + frameExtra s f) ∧
        t.tx = s.tx ++ [{ port := .serial, queue := 0, pay := .sspReply (frameStatus s :: List.replicate (frameCount s f) 0) }] ∧
        t.bus = { s.bus with pulses := s.bus.pulses ++ [5] } ∧ { t with regs := s.regs, tx := s.tx, bus := s.bus, fresh := s.fresh } = s ∧
        sameBut [SSP_ST_LASTOP, SSP_ST_TRUNC, SSP_ST_RES, SSP_CNT_EXTRA, SSP_CNT_REJ] s t) ∧
  (∀ (f : SspFrame) (s : State),
      serialSlave s = true → s.tally.erasing = true →
      ∃ t, exec (.sspRead f) s = .next t ∧
        t.tx = s.tx ++ [{ port := .serial, queue := 0, pay := .sspReply [showIn SSP_ST_RES 7 (frameStatus s)] }] ∧ { t with tx := s.tx } = s) ∧
  (∀ (f : SspFrame) (s : State),
      serialSlave s = true → s.tally.erasing = false → frameIs s f 14 = true → (frameWords s f).getD 1 0 = 0x45524153 →
      ∃ t, exec (.sspEraseToBlank f) s = .next t ∧
        t.keys = { s.keys with lineKey := none, anchor := none, sysid := 0 } ∧
        t.flash = { s.flash with own := {}, custA := {}, custB := {}, log := [], mseqRes := 0, run := 0, comseq := s.flash.comseq + 1, seals := { region := 0xFF, comseq := s.flash.comseq + 1 } :: s.flash.seals } ∧
        t.tally = { s.tally with commit := none, staging := none, fetched := none, newOwn := none, erasing := true, portA := { s.tally.portA with fetch := none }, portB := { s.tally.portB with fetch := none } } ∧
        t.get TL_ST_BUSY = 0 ∧ t.get TL_ST_ENROLLED = 0 ∧ t.get WK_ST_LINEKEY = 0 ∧ t.get WK_ST_ANCHOR = 0 ∧ t.get SSP_ST_RES = 7 ∧
        t.get SSP_ST_LASTOP = 14 ∧ t.get SSP_CNT_FRAMES = min 255 (s.get SSP_CNT_FRAMES + 1) ∧
        t.get SSP_CNT_EXTRA = min 255 (s.get SSP_CNT_EXTRA + frameExtra s f) ∧
        t.tx = s.tx ++ [{ port := .serial, queue := 0, pay := .sspReply [frameStatus s, 0] }] ∧ t.bus = { s.bus with pulses := s.bus.pulses ++ [5] } ∧
        { t with regs := s.regs, keys := s.keys, flash := s.flash, tally := s.tally, tx := s.tx, bus := s.bus, fresh := s.fresh } = s ∧
        sameBut [TL_ST_BUSY, TL_ST_ENROLLED, WK_ST_LINEKEY, WK_ST_ANCHOR, wholeWord 0x1818, wholeWord 0x1819, wholeWord 0x181a, wholeWord 0x181b, wholeWord 0x181c, wholeWord 0x181d, SSP_ST_LASTOP, SSP_ST_TRUNC, SSP_ST_RES, SSP_CNT_EXTRA, SSP_CNT_FRAMES, wholeWord 0x1702, wholeWord 0x1703] s t) ∧
  (∀ (f : SspFrame) (s : State),
      serialSlave s = true → s.tally.erasing = false → frameIs s f 14 = true → (frameWords s f).getD 1 0 ≠ 0x45524153 →
      ∃ t, exec (.sspEraseToBlank f) s = .next t ∧
        t.get SSP_ST_RES = 4 ∧ t.get SSP_CNT_REJ = min 255 (s.get SSP_CNT_REJ + 1) ∧
        t.get SSP_CNT_EXTRA = min 255 (s.get SSP_CNT_EXTRA + frameExtra s f) ∧
        t.tx = s.tx ++ [{ port := .serial, queue := 0, pay := .sspReply [frameStatus s, 0] }] ∧ t.bus = { s.bus with pulses := s.bus.pulses ++ [5] } ∧
        { t with regs := s.regs, tx := s.tx, bus := s.bus, fresh := s.fresh } = s ∧
        sameBut [SSP_ST_LASTOP, SSP_ST_TRUNC, SSP_ST_RES, SSP_CNT_EXTRA, SSP_CNT_REJ] s t) ∧
  (∀ (f : SspFrame) (kind : Nat) (s : State),
      serialSlave s = true → s.tally.erasing = false → frameFault s f = kind → kind ≠ 0 → kind ≠ 5 →
      ∃ t, exec (.sspFrameReject f) s = .next t ∧
        t.get SSP_ST_RES = kind ∧ t.get SSP_CNT_REJ = min 255 (s.get SSP_CNT_REJ + 1) ∧ t.get SSP_ST_LASTOP = frameOp s f ∧
        t.tx = s.tx ++ [{ port := .serial, queue := 0, pay := .sspReply [frameStatus s] }] ∧ t.bus = { s.bus with pulses := s.bus.pulses ++ [5] } ∧
        { t with regs := s.regs, tx := s.tx, bus := s.bus, fresh := s.fresh } = s ∧ sameBut [SSP_ST_LASTOP, SSP_ST_TRUNC, SSP_ST_RES, SSP_CNT_REJ] s t) ∧
  (∀ (f : SspFrame) (s : State),
      serialSlave s = true → s.tally.erasing = false → frameFault s f = 5 →
      ∃ t, exec (.sspFrameReject f) s = .next t ∧
        t.get SSP_ST_RES = 5 ∧ t.get SSP_CNT_TIMING = min 255 (s.get SSP_CNT_TIMING + 1) ∧ t.get SSP_ST_LASTOP = frameOp s f ∧
        t.tx = s.tx ++ [{ port := .serial, queue := 0, pay := .sspReply [frameStatus s] }] ∧ t.bus = { s.bus with pulses := s.bus.pulses ++ [5] } ∧
        { t with regs := s.regs, tx := s.tx, bus := s.bus, fresh := s.fresh } = s ∧
        sameBut [SSP_ST_LASTOP, SSP_ST_TRUNC, SSP_ST_RES, SSP_CNT_TIMING] s t) ∧
  (∀ (s : State),
      s.alive = true → s.tally.erasing = true →
      ∃ t, exec (.eraseComplete) s = .next t ∧
        t.pwr = { s.pwr with phase := .dieReset, booted := false, cause := some 2, twist := 0, calm := 0 } ∧ t.get ID_DOMST_WSTATE = 0 ∧
        t.get PWR_ST_TWARM = 0 ∧ t.flash = s.flash ∧ t.keys = s.keys ∧ t.tally = s.tally ∧ t.tx = s.tx) ∧
  (∀ (m : Meter) (x : Nat) (s : State),
      s.live = true → s.mode = 2 → s.tally.windowOpen = true → linkUp s .b = false → s.pwr.serialB = false → switchClosed s .b = false → m.vB < 200 →
      s.pwr.lowB = some x → x + 20000000 ≤ s.pwr.ticks → s.modes.at_ + 20000000 ≤ s.pwr.ticks →
      ∃ t, exec (.keyProbeSwitch m) s = .next t ∧
        t.pwr.serialB = true ∧ t.pwr.wantB = false ∧ t.tally = { s.tally with identify := true, identAt := s.pwr.ticks } ∧ t.get PWR_ST_PSTB = 6 ∧
        t.get AUX_ST_SVC = 1 ∧ t.get AUX_ST_LEVEL = 0 ∧ t.tx = s.tx ++ [{ port := .serial, queue := 0, pay := .identify }] ∧
        { t with regs := s.regs, pwr := s.pwr, tally := s.tally, tx := s.tx, aux := s.aux, fresh := s.fresh } = s ∧
        sameBut [PWR_VIN_VA, PWR_VIN_VB, PWR_IPT_IA, PWR_IPT_IB, PWR_PIN_HOLDUP, PWR_PIN_PIN, PWR_ST_INA, PWR_ST_INB, PWR_ST_PSTB, AUX_ST_SVC, AUX_ST_LEVEL] s t) ∧
  (∀ (m : Meter) (s : State),
      s.live = true → s.mode = 2 → s.tally.windowOpen = true → linkUp s .b = false → s.pwr.serialB = false → switchClosed s .b = false → 200 ≤ m.vB →
      ∃ t, exec (.keyProbeSwitch m) s = .next t ∧
        t.pwr.lowB = none ∧ t.pwr.serialB = false ∧ { t with regs := s.regs, pwr := s.pwr, fresh := s.fresh } = s ∧
        sameBut [PWR_VIN_VA, PWR_VIN_VB, PWR_IPT_IA, PWR_IPT_IB, PWR_PIN_HOLDUP, PWR_PIN_PIN, PWR_ST_INA, PWR_ST_INB] s t) ∧
  (∀ (s : State),
      s.live = true → s.mode = 2 → s.tally.windowOpen = true → s.tally.identify = true → s.tally.identAt + 20000000 ≤ s.pwr.ticks →
      ∃ t, exec (.keyProbeIdentify) s = .next t ∧
        t.tx = s.tx ++ [{ port := .serial, queue := 0, pay := .identify }] ∧ t.tally = { s.tally with identAt := s.pwr.ticks } ∧
        { t with tally := s.tally, tx := s.tx } = s) ∧
  (∀ (s : State),
      s.live = true → s.mode = 2 → s.tally.windowOpen = true → s.tally.identify = true → s.pwr.ticks < s.tally.identAt + 20000000 →
      ∃ t, exec (.keyProbeIdentify) s = .next t ∧
        t = s) ∧
  (∀ (s : State),
      s.live = true → s.mode = 2 → s.tally.windowOpen = true → s.pwr.serialB = true →
      ∃ t, exec (.keyPlugAnswer 0xA5000001 0x4B500001) s = .next t ∧
        t.mode = 3 ∧ t.get MD_ST_PREV = 2 ∧ t.get MD_EVT_CHANGE = 1 ∧
        t.tally = { s.tally with windowOpen := false, identify := false, adapter := false, keyWord := 0, keyLen := 0, plug := [], keyTries := 0 } ∧
        t.modes = { s.modes with at_ := s.pwr.ticks } ∧
        { t with regs := s.regs, tally := s.tally, modes := s.modes, cal := s.cal, fresh := s.fresh } = s ∧
        sameBut [MD_ST_MODE, MD_ST_PREV, MD_EVT_CHANGE] s t) ∧
  (∀ (w1 w2 : Word) (s : State),
      (probeAnswer s w1 = false ∨ w2 ≠ 0x4B500001) →
      ∃ t, exec (.keyPlugAnswer w1 w2) s = .next t ∧
        t = s) ∧
  (∀ (s : State),
      s.live = true → s.mode = 2 → s.tally.windowOpen = true → s.pwr.serialB = true →
      ∃ t, exec (.serviceAdapterAnswer 0xA5000001 0x53410001) s = .next t ∧
        t.tally = { s.tally with adapter := true, identify := false } ∧ { t with tally := s.tally } = s) ∧
  (∀ (s : State),
      s.live = true → s.mode = 2 → s.tally.windowOpen = true → passed s s.modes.at_ 2 = true → s.tally.checked = true → s.tally.loadPos = none →
      enrolled s = true → s.get ID_DOMST_WSTATE = 0 →
      ∃ t, exec (.keyProbeWindowEnd) s = .next t ∧
        t.mode = 4 ∧ t.get MD_ST_PREV = s.mode ∧ t.get MD_EVT_CHANGE = 1 ∧ t.get CP_ST_STEP = 1 ∧ t.get CP_ST_WAIT = 0 ∧ t.tally.windowOpen = false ∧
        t.flash = s.flash ∧ t.keys = s.keys ∧ t.modes.at_ = s.pwr.ticks ∧ t.modes.restart = s.modes.restart ∧ t.time = s.time) ∧
  (∀ (p : Nat) (x : SealRec) (im : Image) (s : State),
      s.live = true → s.mode = 2 → s.tally.windowOpen = true → passed s s.modes.at_ 2 = true → s.tally.checked = true → s.tally.loadPos = some p →
      s.tally.adapter = false → s.flash.sealAt 0 p = some x → s.flash.vouched x = some im → p < 8 → im.params = [] → im.rest = [] →
      worldOk im.world = true → x.origin < 8 → s.get ID_DOMST_WSTATE = 0 →
      ∃ t, exec (.keyProbeWindowEnd) s = .next t ∧
        t.mode = 5 ∧ t.get TL_ST_SRC = x.origin ∧ t.get TL_ST_POS = p ∧ t.tally.image = some im ∧ t.word 0x1701 = BitVec.ofNat 32 im.gen ∧
        t.get BZ_CFG_STN = im.stn % 256 ∧ t.tally.windowOpen = false ∧ t.flash.own = s.flash.own ∧ t.flash.comseq = s.flash.comseq ∧
        t.flash.seals = s.flash.seals ∧ t.keys = s.keys) ∧
  (∀ (l : List Word) (s : State),
      s.live = true → s.mode = 3 → s.modes.restart = none → s.tally.keyLen = 0 →
      ∃ t, exec (.keyloadRead (replyHeader false 0 16) l) s = .next t ∧
        t.tally = { s.tally with keyLen := max 16 (min 262144 (((l.getD 2 0).toNat + 3) / 4)), keyTries := 0 } ∧
        t.tx = s.tx ++ [{ port := .serial, queue := 0, pay := .plugRead (9 * 2 ^ 28 + 15) }] ∧ { t with tally := s.tally, tx := s.tx } = s) ∧
  (∀ (n : Nat) (l : List Word) (s : State),
      s.live = true → s.mode = 3 → s.modes.restart = none → s.tally.keyLen ≠ 0 → s.tally.keyWord < s.tally.keyLen →
      n = min 256 (s.tally.keyLen - s.tally.keyWord) →
      ∃ t, exec (.keyloadRead (replyHeader false 0 n) l) s = .next t ∧
        (t.tally = { s.tally with keyWord := s.tally.keyWord + n, plug := s.tally.plug ++ (l.take n).flatMap fun v => beBytes 4 v.toNat, keyTries := 0 }) ∧
        t.tx = s.tx ++ [{ port := .serial, queue := 0, pay := .plugRead (9 * 2 ^ 28 + s.tally.keyWord * 2 ^ 10 + (n - 1)) }] ∧
        { t with tally := s.tally, tx := s.tx } = s) ∧
  (∀ (n : Nat) (w : Word) (l : List Word) (s : State),
      s.live = true → s.mode = 3 → s.modes.restart = none → s.tally.keyLen ≠ 0 → s.tally.keyWord < s.tally.keyLen →
      n = min 256 (s.tally.keyLen - s.tally.keyWord) → w ≠ replyHeader false 0 n → s.tally.keyTries < 3 →
      ∃ t, exec (.keyloadRead w l) s = .next t ∧
        t.tally = { s.tally with keyTries := s.tally.keyTries + 1 } ∧
        t.tx = s.tx ++ [{ port := .serial, queue := 0, pay := .plugRead (9 * 2 ^ 28 + s.tally.keyWord * 2 ^ 10 + (n - 1)) }] ∧
        { t with tally := s.tally, tx := s.tx } = s) ∧
  (∀ (n : Nat) (w : Word) (l : List Word) (s : State),
      s.live = true → s.mode = 3 → s.modes.restart = none → s.tally.keyLen ≠ 0 → s.tally.keyWord < s.tally.keyLen →
      n = min 256 (s.tally.keyLen - s.tally.keyWord) → w ≠ replyHeader false 0 n → s.tally.keyTries = 3 → s.tally.checked = true →
      s.tally.loadPos = none → enrolled s = true → s.get ID_DOMST_WSTATE = 0 →
      ∃ t, exec (.keyloadRead w l) s = .next t ∧
        t.get MD_EVT_KEYFAIL = 1 ∧ t.mode = 4 ∧ t.get MD_ST_PREV = s.mode ∧ t.get MD_EVT_CHANGE = 1 ∧ t.get CP_ST_STEP = 1 ∧ t.get CP_ST_WAIT = 0 ∧
        t.tally.windowOpen = false ∧ t.flash = s.flash ∧ t.keys = s.keys ∧ t.modes.at_ = s.pwr.ticks ∧ t.modes.restart = s.modes.restart ∧
        t.time = s.time ∧ t.tally.checked = true) ∧
  (∀ (im : Image) (s : State),
      s.live = true → s.mode = 3 → s.modes.restart = none → plugRead s = true → plugImage s = im → imageCheck s im = 0 →
      linkUp s .a = false ∧ linkUp s .b = false →
      ∃ t, exec (.keyloadImageDone) s = .next t ∧
        t.flash.own = ⟨s.flash.own.pos.set (Fin.ofNat 8 (s.flash.nextPos 0)) im.bytes⟩ ∧ t.flash.comseq = s.flash.comseq + 1 ∧
        t.flash.seals = { region := 0, pos := s.flash.nextPos 0, origin := 2, comseq := s.flash.comseq + 1, len := im.size, digest := im.digest } :: s.flash.seals ∧
        t.flash.log = fitLog logUnits ((s.flash.run, .commit 0 (s.flash.nextPos 0) (s.flash.comseq + 1) im.gen ((im.trailer.map (·.cseq)).getD 0)) :: s.flash.log) ∧
        (∀ k : Fin 24, t.flash.wear[k] = (if k.val = s.flash.nextPos 0 then min 0xFFFF (s.flash.wear[k] + 1) else s.flash.wear[k])) ∧
        t.flash.custA = s.flash.custA ∧ t.flash.custB = s.flash.custB ∧ t.modes.restart = some 6 ∧ t.mode = 3 ∧
        t.tally = { s.tally with newOwn := some im } ∧ t.keys = s.keys) ∧
  (∀ (im : Image) (s : State),
      s.live = true → s.mode = 3 → s.modes.restart = none → plugRead s = true → plugImage s = im → imageCheck s im ≠ 0 → s.tally.checked = true →
      s.tally.loadPos = none → enrolled s = true → s.get ID_DOMST_WSTATE = 0 →
      ∃ t, exec (.keyloadImageDone) s = .next t ∧
        t.mode = 4 ∧ t.get MD_ST_PREV = s.mode ∧ t.get MD_EVT_CHANGE = 1 ∧ t.get CP_ST_STEP = 1 ∧ t.get CP_ST_WAIT = 0 ∧ t.tally.windowOpen = false ∧
        t.flash = s.flash ∧ t.keys = s.keys ∧ t.modes.at_ = s.pwr.ticks ∧ t.modes.restart = s.modes.restart ∧ t.time = s.time ∧
        (s.get MD_EVT_KEYFAIL = 0 → t.get MD_EVT_KEYFAIL = 0))

/-- 12 R302 whole: at the first execution of an AWAIT with TYPE 2 (the engine's previous cycle was not at this PC) the target instant is TC + U ns, or with TC invalid the local time of that cycle + U ns; the instruction completes in the
first cycle whose local time is at or after the target, and until then the engine stalls at its PC. Times are in 1/8 ns.
Completes: peAwait. -/
def Obligations.AwaitTypeTwoCompletesAtItsTargetInstant : Prop :=
  (∀ (e : Fin 8) (w tc : Nat) (s : State),
      s.alive = true → s.engines[e].inj = none → (s.get (PE_ST_STATE e) = 1 ∨ s.get (PE_ST_STATE e) = 2) → peInstr s e (s.get (PE_ST_PC e)) = w →
      peKind w = .await → ib w 9 2 = 2 → s.engines[e].lastPc ≠ some (s.get (PE_ST_PC e)) → s.engines[e].tc = some tc →
      ∃ t, exec (.peAwait e w) s = .next t ∧
        (t.get (PE_ST_STATE e) = (if tc + s.get (PE_U e) * 8 ≤ s.now then 1 else 2)) ∧
        (t.get (PE_ST_PC e) = (if tc + s.get (PE_U e) * 8 ≤ s.now then (s.get (PE_ST_PC e) + 1) % 32 else s.get (PE_ST_PC e))) ∧
        t.engines[e].target = some (tc + s.get (PE_U e) * 8)) ∧
  (∀ (e : Fin 8) (w : Nat) (s : State),
      s.alive = true → s.engines[e].inj = none → (s.get (PE_ST_STATE e) = 1 ∨ s.get (PE_ST_STATE e) = 2) → peInstr s e (s.get (PE_ST_PC e)) = w →
      peKind w = .await → ib w 9 2 = 2 → s.engines[e].lastPc ≠ some (s.get (PE_ST_PC e)) → s.engines[e].tc = none →
      ∃ t, exec (.peAwait e w) s = .next t ∧
        (t.get (PE_ST_STATE e) = (if s.now + s.get (PE_U e) * 8 ≤ s.now then 1 else 2)) ∧
        (t.get (PE_ST_PC e) = (if s.now + s.get (PE_U e) * 8 ≤ s.now then (s.get (PE_ST_PC e) + 1) % 32 else s.get (PE_ST_PC e))) ∧
        t.engines[e].target = some (s.now + s.get (PE_U e) * 8)) ∧
  (∀ (e : Fin 8) (w tg : Nat) (s : State),
      s.alive = true → s.engines[e].inj = none → (s.get (PE_ST_STATE e) = 1 ∨ s.get (PE_ST_STATE e) = 2) → peInstr s e (s.get (PE_ST_PC e)) = w →
      peKind w = .await → ib w 9 2 = 2 → s.engines[e].lastPc = some (s.get (PE_ST_PC e)) → s.engines[e].target = some tg →
      ∃ t, exec (.peAwait e w) s = .next t ∧
        (t.get (PE_ST_STATE e) = (if tg ≤ s.now then 1 else 2)) ∧
        (t.get (PE_ST_PC e) = (if tg ≤ s.now then (s.get (PE_ST_PC e) + 1) % 32 else s.get (PE_ST_PC e))) ∧ t.engines[e].target = some (tg))

/-- 00 R4 whole: ID_FWREL (word 2) reads 0 from the start of START until the firmware has passed secure boot, so it stays 0 in a START in which no image verifies; after secure boot it holds the release of the image actually running, A or B.
Said for each way START begins: after inrush, after a reset of the controller die, and at an orderly restart.
Completes: inrushEnd, controllerResetRelease, orderlyRestart. -/
def Obligations.FwrelShowsTheRunningFirmwareAfterSecureBoot : Prop :=
  (∀ (boot : Boot) (s : State),
      s.pwr.phase = .inrush → s.flash.trial = none → s.flash.activeB = false → boot.okA = true →
      ∃ t, exec (.inrushEnd boot) s = .next t ∧
        t.word 2 = releaseWord (s.flash.relA) ∧ t.pwr.booted = true) ∧
  (∀ (boot : Boot) (s : State),
      s.pwr.phase = .inrush → s.flash.trial = none → s.flash.activeB = true → s.flash.hasB = true → boot.okB = true →
      ∃ t, exec (.inrushEnd boot) s = .next t ∧
        t.word 2 = releaseWord (s.flash.relB) ∧ t.pwr.booted = true) ∧
  (∀ (boot : Boot) (s : State),
      s.pwr.phase = .inrush → s.flash.trial = none → boot.okA = false → boot.okB = false →
      ∃ t, exec (.inrushEnd boot) s = .next t ∧
        t.word 2 = 0 ∧ t.pwr.booted = false) ∧
  (∀ (boot : Boot) (s : State),
      s.pwr.phase = .dieReset → s.flash.trial = none → s.flash.activeB = false → boot.okA = true →
      ∃ t, exec (.controllerResetRelease boot) s = .next t ∧
        t.word 2 = releaseWord (s.flash.relA) ∧ t.pwr.booted = true) ∧
  (∀ (boot : Boot) (s : State),
      s.pwr.phase = .dieReset → s.flash.trial = none → s.flash.activeB = true → s.flash.hasB = true → boot.okB = true →
      ∃ t, exec (.controllerResetRelease boot) s = .next t ∧
        t.word 2 = releaseWord (s.flash.relB) ∧ t.pwr.booted = true) ∧
  (∀ (boot : Boot) (s : State),
      s.pwr.phase = .dieReset → s.flash.trial = none → boot.okA = false → boot.okB = false →
      ∃ t, exec (.controllerResetRelease boot) s = .next t ∧
        t.word 2 = 0 ∧ t.pwr.booted = false) ∧
  (∀ (boot : Boot) (s : State),
      s.live = true → s.modes.restart.isSome = true → s.flash.trial = none → s.flash.activeB = false → boot.okA = true →
      ∃ t, exec (.orderlyRestart boot) s = .next t ∧
        t.word 2 = releaseWord (s.flash.relA) ∧ t.pwr.booted = true) ∧
  (∀ (boot : Boot) (s : State),
      s.live = true → s.modes.restart.isSome = true → s.flash.trial = none → s.flash.activeB = true → s.flash.hasB = true → boot.okB = true →
      ∃ t, exec (.orderlyRestart boot) s = .next t ∧
        t.word 2 = releaseWord (s.flash.relB) ∧ t.pwr.booted = true) ∧
  (∀ (boot : Boot) (s : State),
      s.live = true → s.modes.restart.isSome = true → s.flash.trial = none → boot.okA = false → boot.okB = false →
      ∃ t, exec (.orderlyRestart boot) s = .next t ∧
        t.word 2 = 0 ∧ t.pwr.booted = false)

/-- 15 R390 whole: a custody hello that passes the checks of R353 makes its STN the station learnt on its port, shown in CP_NBR; one that fails them leaves what was learnt; a link down on the port clears it to 0xFE.
Completes: custodyHelloReceive, portLinkDown. -/
def Obligations.TheStationLearntIsThatOfTheLastGoodHello : Prop :=
  (∀ (port : Port) (d : Datagram) (h : Hello) (s : State),
      d.typ = 0x40 → (cyCheck s d).1 = true → helloOf (plain s d) = h →
      ∃ t, exec (.custodyHelloReceive port d) s = .next t ∧
        t.get (nbrStn port) = h.stn % 256 ∧ t.get (nbrStn port.other) = s.get (nbrStn port.other)) ∧
  (∀ (port : Port) (d : Datagram) (s : State),
      d.typ = 0x40 → (cyCheck s d).1 = false →
      ∃ t, exec (.custodyHelloReceive port d) s = .next t ∧
        t.get (nbrStn .a) = s.get (nbrStn .a) ∧ t.get (nbrStn .b) = s.get (nbrStn .b)) ∧
  (∀ (port : Port) (s : State),
      s.alive = true → linkUp s port = true →
      ∃ t, exec (.portLinkDown port) s = .next t ∧
        t.get (nbrStn port) = 0xFE ∧ t.get (nbrStn port.other) = s.get (nbrStn port.other))

/-- The model's queue (log entry 1): for every command c and state s, a step of s with c at the front of its queue is exec of c on s with the queue's rest. -/
def Obligations.StepTakesTheFrontCommand : Prop :=
  ∀ (c : Instr) (s : State) (rest : List Instr), step { s with pending := c :: rest } = exec c { s with pending := rest }

/-- 03 R66, 12 R289: with no command waiting, a step is one CLK tick (a DESIGN CHOICE, log entry 1): in a running controller the tick count rises by 1, the counter gains the increment once START has released it, carrying nanoseconds into seconds, and the
engines' period accumulators, inputs and strobes move on and the PE_GCMD writes of the tick that ended act (R307); no key, image, mode or waiting command changes. Where no stop, clamp, driver, attached consumer, sensed line, PE_GCMD write, frame or
message waits for a tick, nothing else changes. In a module without power nothing changes. -/
def Obligations.AnEmptyQueueLetsOneTickPass : Prop :=
  (∀ s : State, s.pending = [] → s.alive = true → s.pwr.released = true → s.time.frac < 2 ^ 32 → s.time.ns + increment s / 2 ^ 32 + 1 < 1000000000 →
      ∃ t, step s = .next t ∧ t.time.sec = s.time.sec % 2 ^ 64 ∧ t.time.ns * 2 ^ 32 + t.time.frac = s.time.ns * 2 ^ 32 + s.time.frac + increment s ∧
        t.pwr.ticks = s.pwr.ticks + 1 ∧ (∀ e : Fin 8, s.engines[e].gcmd = [] → t.engines[e] = tickEngine s t.now e) ∧ (∀ e : Fin 8, t.engines[e].gcmd = []) ∧
        (∀ e : Fin 8, t.get (PE_ST_STATE e) = (takeGcmds s).get (PE_ST_STATE e)) ∧ t.fresh = [] ∧ t.keys = s.keys ∧ t.tally = s.tally ∧ t.mode = s.mode ∧
        t.pending = [] ∧
        (s.net.features = [] → s.net.again = [] → s.net.wireA = none → s.net.wireB = none → s.tx = [] → s.bus.sensed = [] → (∀ e : Fin 8, s.engines[e].gcmd = []) →
          (∀ i : Fin 16, s.get (LD_ATT_ATT i) = 0 ∧ s.slots[i].stop = []) → s.get AUX_ST_CLAMP = 0 → driverOn s = false →
          { t with time := { t.time with sec := s.time.sec, ns := s.time.ns, frac := s.time.frac }, pwr := { t.pwr with ticks := s.pwr.ticks },
                   engines := s.engines, fresh := s.fresh } = s)) ∧
  (∀ s : State, s.pending = [] → s.alive = true → s.pwr.released = true → s.time.frac < 2 ^ 32 → s.time.ns < 1000000000 → increment s < 1000000000 →
      1000000000 * 2 ^ 32 ≤ s.time.ns * 2 ^ 32 + s.time.frac + increment s →
      ∃ t, step s = .next t ∧ t.time.sec = (s.time.sec + 1) % 2 ^ 64 ∧ (t.time.ns + 1000000000) * 2 ^ 32 + t.time.frac = s.time.ns * 2 ^ 32 + s.time.frac + increment s) ∧
  (∀ s : State, s.pending = [] → s.alive = false → step s = .next s)

/-- 19 R470, 17 R437, 15 R384: right after reset no register differs from its reset value, no command waits, the module is without power, it holds no keys, no Tally image and no custody image, and no position has been written; every word of the register
map reads its reset value. That a module as delivered begins so is log entry 3. -/
def Obligations.ResetIsTheUnpoweredModule : Prop :=
  State.reset.regs = [] ∧ State.reset.pending = [] ∧ State.reset.alive = false ∧ State.reset.keys.lineKey = none ∧ State.reset.keys.anchor = none ∧
    State.reset.tally.image = none ∧ State.reset.flash.seals = [] ∧ (∀ r : Fin 3, State.reset.flash.latest r = none) ∧
    (∀ k : Fin 24, State.reset.flash.wear[k] = 0) ∧ State.reset.flash.comseq = 0 ∧ State.reset.tx = [] ∧ (∀ a, State.reset.word a = resetWord a) ∧
    State.reset.inv

/-- 03 R66, 19 R470 (the invariant is the model's, log entry 2): from every state whose register file is canonical and whose counter holds less than 2^32 fractions, less than 10^9 ns and less than 2^64 s, every step ends in such a state, whatever command is taken. -/
def Obligations.EveryStepKeepsRegistersAndCounterLegal : Prop :=
  ∀ s t : State, s.inv → step s = .next t → t.inv

/-- 17 R438: enrollment writes the erasable key area and erase-to-blank clears it: no other command changes whether a line key is held, the trust anchor or the SYSID, in any state; and no command lowers the anti-rollback floor. -/
def Obligations.OnlyEnrolmentAndEraseChangeTheKeys : Prop :=
  ∀ (c : Instr) (s t : State), exec c s = .next t →
    s.keys.floor ≤ t.keys.floor ∧
    ((∀ src nonce cipher tag, c ≠ .enrollKey src nonce cipher tag) → (∀ f, c ≠ .sspEraseToBlank f) →
      t.keys.lineKey = s.keys.lineKey ∧ t.keys.anchor = s.keys.anchor ∧ t.keys.sysid = s.keys.sysid)

/-- 15 R383, R384: no command lowers the last reserved COMSEQ, or the commit count of any position that is within its field, erase-to-blank and restarts included; and no command changes the queue of waiting commands (log entry 1). -/
def Obligations.WriteNumbersAndWearNeverFallAndTheQueueIsUntouched : Prop :=
  ∀ (c : Instr) (s t : State), exec c s = .next t →
    t.pending = s.pending ∧ s.flash.comseq ≤ t.flash.comseq ∧ (∀ k : Fin 24, s.flash.wear[k] ≤ 0xFFFF → s.flash.wear[k] ≤ t.flash.wear[k] ∧ t.flash.wear[k] ≤ 0xFFFF)
end

