-- ==== Sys2Proof/Laws/Regs.lean ====
section
/-!
SUPPORT. The laws of the register file and of register fields: read after write, frame, canonical form.
-/

namespace Sys2Proof.Machine

theorem testBit_getBits (w : Word) (lo width i : Nat) :
    (getBits w lo width).testBit i = (decide (i < width) && w.getLsbD (lo + i)) := by
  simp [getBits, Nat.testBit_mod_two_pow, Nat.testBit_shiftRight, BitVec.testBit_toNat]

theorem getLsbD_setBits (w : Word) (lo width v i : Nat) (h : lo + width ≤ 32) :
    (setBits w lo width v).getLsbD i =
      if lo ≤ i ∧ i < lo + width then v.testBit (i - lo) else w.getLsbD i := by
  unfold setBits
  by_cases hi : i < 32
  · simp only [BitVec.getLsbD_or, BitVec.getLsbD_and, BitVec.getLsbD_not, BitVec.getLsbD_shiftLeft, BitVec.getLsbD_ofNat,
      Nat.testBit_two_pow_sub_one, Nat.testBit_mod_two_pow, hi, decide_true, Bool.true_and]
    by_cases h1 : lo ≤ i
    · have h2 : ¬ i < lo := by omega
      by_cases h3 : i < lo + width
      · have h4 : i - lo < width := by omega
        have h5 : i - lo < 32 := by omega
        simp [h1, h2, h3, h4, h5]
      · have h4 : ¬ i - lo < width := by omega
        simp [h1, h2, h3, h4]
    · have h2 : i < lo := by omega
      simp [h1, h2]
  · have h1 : ¬ (lo ≤ i ∧ i < lo + width) := by omega
    simp only [if_neg h1]
    rw [BitVec.getLsbD_of_ge _ _ (by omega), BitVec.getLsbD_of_ge _ _ (by omega)]

theorem getBits_setBits_same (w : Word) (lo width v : Nat) (h : lo + width ≤ 32) :
    getBits (setBits w lo width v) lo width = v % 2 ^ width := by
  apply Nat.eq_of_testBit_eq
  intro i
  rw [testBit_getBits, getLsbD_setBits _ _ _ _ _ h, Nat.testBit_mod_two_pow]
  by_cases hi : i < width
  · simp [hi]
  · simp [hi]

theorem getBits_setBits_ne (w : Word) (lo width v lo' width' : Nat) (h : lo + width ≤ 32)
    (hd : lo' + width' ≤ lo ∨ lo + width ≤ lo') :
    getBits (setBits w lo width v) lo' width' = getBits w lo' width' := by
  apply Nat.eq_of_testBit_eq
  intro i
  rw [testBit_getBits, testBit_getBits, getLsbD_setBits _ _ _ _ _ h]
  by_cases hi : i < width'
  · have : ¬ (lo ≤ lo' + i ∧ lo' + i < lo + width) := by omega
    simp [hi, this]
  · simp [hi]

theorem Regs.read_erase_same (rs : List (Nat × Word)) (a : Nat) : Regs.read (Regs.erase rs a) a = resetWord a := by
  induction rs with
  | nil => rfl
  | cons p rest ih =>
    obtain ⟨b, v⟩ := p
    by_cases h : b = a
    · subst h; simpa [Regs.erase, List.filter_cons] using ih
    · have : (b != a) = true := by simp [h]
      simp only [Regs.erase, List.filter_cons, this, if_true, Regs.read, h, if_false] at ih ⊢
      exact ih

theorem Regs.read_erase_ne (rs : List (Nat × Word)) (a c : Nat) (h : c ≠ a) :
    Regs.read (Regs.erase rs a) c = Regs.read rs c := by
  induction rs with
  | nil => rfl
  | cons p rest ih =>
    obtain ⟨b, v⟩ := p
    by_cases hb : b = a
    · subst hb
      have h' : ¬ b = c := fun e => h e.symm
      simpa [Regs.erase, List.filter_cons, Regs.read, h'] using ih
    · have hn : (b != a) = true := by simp [hb]
      simp only [Regs.erase, List.filter_cons, hn, if_true, Regs.read] at ih ⊢
      by_cases hc : b = c
      · simp [hc]
      · simp only [hc, if_false]; exact ih

theorem Regs.read_insert_same (rs : List (Nat × Word)) (a : Nat) (v : Word) (h : ∀ p ∈ rs, p.1 ≠ a) :
    Regs.read (Regs.insert rs a v) a = v := by
  induction rs with
  | nil => simp [Regs.insert, Regs.read]
  | cons p rest ih =>
    obtain ⟨b, w⟩ := p
    have hb : b ≠ a := h (b, w) (by simp)
    unfold Regs.insert
    by_cases hlt : a < b
    · simp [hlt, Regs.read]
    · simp only [hlt, if_false, Regs.read, hb]
      exact ih fun p hp => h p (by simp [hp])

theorem Regs.read_insert_ne (rs : List (Nat × Word)) (a c : Nat) (v : Word) (h : c ≠ a) :
    Regs.read (Regs.insert rs a v) c = Regs.read rs c := by
  have h' : ¬ a = c := fun e => h e.symm
  induction rs with
  | nil => simp [Regs.insert, Regs.read, h']
  | cons p rest ih =>
    obtain ⟨b, w⟩ := p
    unfold Regs.insert
    by_cases hlt : a < b
    · simp [hlt, Regs.read, h']
    · simp only [hlt, if_false, Regs.read, ih]

theorem Regs.mem_erase_ne (rs : List (Nat × Word)) (a : Nat) : ∀ p ∈ Regs.erase rs a, p.1 ≠ a := by
  intro p hp
  have := (List.mem_filter.mp hp).2
  simpa using this

theorem Regs.read_write_same (rs : List (Nat × Word)) (a : Nat) (v : Word) : Regs.read (Regs.write rs a v) a = v := by
  unfold Regs.write
  by_cases h : v = resetWord a
  · simp only [h, if_true]; exact Regs.read_erase_same rs a
  · simp only [h, if_false]; exact Regs.read_insert_same _ a v (Regs.mem_erase_ne rs a)

theorem Regs.read_write_ne (rs : List (Nat × Word)) (a c : Nat) (v : Word) (h : c ≠ a) :
    Regs.read (Regs.write rs a v) c = Regs.read rs c := by
  unfold Regs.write
  by_cases hv : v = resetWord a
  · simp only [hv, if_true]; exact Regs.read_erase_ne rs a c h
  · simp only [hv, if_false]; rw [Regs.read_insert_ne _ _ _ _ h, Regs.read_erase_ne rs a c h]

theorem Regs.wf_filter (rs : List (Nat × Word)) (q : Nat × Word → Bool) (h : Regs.wf rs = true) :
    Regs.wf (rs.filter q) = true := by
  induction rs with
  | nil => rfl
  | cons p rest ih =>
    obtain ⟨b, v⟩ := p
    simp only [Regs.wf, Bool.and_eq_true, List.all_eq_true, decide_eq_true_eq] at h
    obtain ⟨⟨h1, h2⟩, h3⟩ := h
    by_cases hq : q (b, v) = true
    · simp only [List.filter_cons, hq, if_true, Regs.wf, Bool.and_eq_true, List.all_eq_true, decide_eq_true_eq]
      exact ⟨⟨h1, fun x hx => h2 x (List.mem_filter.mp hx).1⟩, ih h3⟩
    · simp only [List.filter_cons, hq]; exact ih h3

theorem Regs.mem_insert (rs : List (Nat × Word)) (a : Nat) (v : Word) (p : Nat × Word)
    (h : p ∈ Regs.insert rs a v) : p = (a, v) ∨ p ∈ rs := by
  induction rs with
  | nil => simpa [Regs.insert] using h
  | cons q rest ih =>
    obtain ⟨b, w⟩ := q
    unfold Regs.insert at h
    by_cases hlt : a < b
    · simpa [hlt] using h
    · simp only [hlt, if_false, List.mem_cons] at h
      rcases h with h | h
      · exact .inr (by simp [h])
      · rcases ih h with h | h
        · exact .inl h
        · exact .inr (by simp [h])

theorem Regs.wf_insert (rs : List (Nat × Word)) (a : Nat) (v : Word) (hw : Regs.wf rs = true)
    (hn : ∀ p ∈ rs, p.1 ≠ a) (hv : v ≠ resetWord a) : Regs.wf (Regs.insert rs a v) = true := by
  induction rs with
  | nil => simp [Regs.insert, Regs.wf, hv]
  | cons q rest ih =>
    obtain ⟨b, w⟩ := q
    have hw' := hw
    simp only [Regs.wf, Bool.and_eq_true, List.all_eq_true, decide_eq_true_eq] at hw
    obtain ⟨⟨h1, h2⟩, h3⟩ := hw
    have hb : b ≠ a := hn (b, w) (by simp)
    unfold Regs.insert
    by_cases hlt : a < b
    · simp only [hlt, if_true, Regs.wf, Bool.and_eq_true, List.all_eq_true, decide_eq_true_eq]
      refine ⟨⟨hv, ?_⟩, ⟨h1, h2⟩, h3⟩
      intro p hp
      rcases List.mem_cons.mp hp with rfl | hp
      · exact hlt
      · exact Nat.lt_trans hlt (h2 p hp)
    · simp only [hlt, if_false, Regs.wf, Bool.and_eq_true, List.all_eq_true, decide_eq_true_eq]
      refine ⟨⟨h1, ?_⟩, ih h3 fun p hp => hn p (by simp [hp])⟩
      intro p hp
      rcases Regs.mem_insert rest a v p hp with rfl | hp
      · show b < a; omega
      · exact h2 p hp

theorem Regs.wf_write (rs : List (Nat × Word)) (a : Nat) (v : Word) (h : Regs.wf rs = true) :
    Regs.wf (Regs.write rs a v) = true := by
  unfold Regs.write
  by_cases hv : v = resetWord a
  · simp only [hv, if_true]; exact Regs.wf_filter rs _ h
  · simp only [hv, if_false]
    exact Regs.wf_insert _ a v (Regs.wf_filter rs _ h) (Regs.mem_erase_ne rs a) hv

/-- A field is legal: it lies inside a word. -/
abbrev Field.ok (f : Field) : Prop := f.lo + f.width ≤ 32

/-- Two fields share no bit. -/
abbrev Field.apart (f g : Field) : Prop := f.word ≠ g.word ∨ f.lo + f.width ≤ g.lo ∨ g.lo + g.width ≤ f.lo

theorem State.get_set_same (s : State) (f : Field) (v : Nat) (h : f.ok) : (s.set f v).get f = v % 2 ^ f.width := by
  simp only [State.get, State.set, State.setWord, State.word, Regs.read_write_same]
  exact getBits_setBits_same _ _ _ _ h

theorem State.get_set_ne (s : State) (f g : Field) (v : Nat) (h : f.ok) (hd : f.apart g) : (s.set f v).get g = s.get g := by
  simp only [State.get, State.set, State.setWord, State.word]
  by_cases hw : g.word = f.word
  · rw [hw, Regs.read_write_same]
    refine getBits_setBits_ne _ _ _ _ _ _ h ?_
    rcases hd with hd | hd | hd
    · exact absurd hw.symm hd
    · exact .inr hd
    · exact .inl hd
  · rw [Regs.read_write_ne _ _ _ _ hw]

theorem State.word_set_ne (s : State) (f : Field) (v : Nat) (a : Nat) (h : a ≠ f.word) : (s.set f v).word a = s.word a := by
  simp only [State.set, State.setWord, State.word]; exact Regs.read_write_ne _ _ _ _ h

end Sys2Proof.Machine
end

