-- ==== Sys2Proof/Laws/State.lean ====
section
/-!
SUPPORT. What each update of the state leaves as it was: one lemma per field and update, all by definition.
-/

namespace Sys2Proof.Machine

variable (s : State)

@[simp] theorem State.setWord_regs (a : Nat) (v : Word) : (s.setWord a v).regs = Regs.write s.regs a v := rfl
@[simp] theorem State.setWord_pwr (a : Nat) (v : Word) : (s.setWord a v).pwr = s.pwr := rfl
@[simp] theorem State.setWord_time (a : Nat) (v : Word) : (s.setWord a v).time = s.time := rfl
@[simp] theorem State.setWord_axes (a : Nat) (v : Word) : (s.setWord a v).axes = s.axes := rfl
@[simp] theorem State.setWord_drive (a : Nat) (v : Word) : (s.setWord a v).drive = s.drive := rfl
@[simp] theorem State.setWord_hk (a : Nat) (v : Word) : (s.setWord a v).hk = s.hk := rfl
@[simp] theorem State.setWord_scal (a : Nat) (v : Word) : (s.setWord a v).scal = s.scal := rfl
@[simp] theorem State.setWord_aux (a : Nat) (v : Word) : (s.setWord a v).aux = s.aux := rfl
@[simp] theorem State.setWord_slots (a : Nat) (v : Word) : (s.setWord a v).slots = s.slots := rfl
@[simp] theorem State.setWord_cal (a : Nat) (v : Word) : (s.setWord a v).cal = s.cal := rfl
@[simp] theorem State.setWord_deck (a : Nat) (v : Word) : (s.setWord a v).deck = s.deck := rfl
@[simp] theorem State.setWord_recog (a : Nat) (v : Word) : (s.setWord a v).recog = s.recog := rfl
@[simp] theorem State.setWord_blaze (a : Nat) (v : Word) : (s.setWord a v).blaze = s.blaze := rfl
@[simp] theorem State.setWord_engines (a : Nat) (v : Word) : (s.setWord a v).engines = s.engines := rfl
@[simp] theorem State.setWord_an (a : Nat) (v : Word) : (s.setWord a v).an = s.an := rfl
@[simp] theorem State.setWord_net (a : Nat) (v : Word) : (s.setWord a v).net = s.net := rfl
@[simp] theorem State.setWord_flash (a : Nat) (v : Word) : (s.setWord a v).flash = s.flash := rfl
@[simp] theorem State.setWord_keys (a : Nat) (v : Word) : (s.setWord a v).keys = s.keys := rfl
@[simp] theorem State.setWord_tally (a : Nat) (v : Word) : (s.setWord a v).tally = s.tally := rfl
@[simp] theorem State.setWord_modes (a : Nat) (v : Word) : (s.setWord a v).modes = s.modes := rfl
@[simp] theorem State.setWord_bus (a : Nat) (v : Word) : (s.setWord a v).bus = s.bus := rfl
@[simp] theorem State.setWord_tx (a : Nat) (v : Word) : (s.setWord a v).tx = s.tx := rfl
@[simp] theorem State.setWord_fresh (a : Nat) (v : Word) : (s.setWord a v).fresh = s.fresh := rfl
@[simp] theorem State.setWord_free (a : Nat) (v : Word) : (s.setWord a v).free = s.free := rfl
@[simp] theorem State.setWord_pending (a : Nat) (v : Word) : (s.setWord a v).pending = s.pending := rfl

@[simp] theorem State.set_pwr (f : Field) (v : Nat) : (s.set f v).pwr = s.pwr := rfl
@[simp] theorem State.set_time (f : Field) (v : Nat) : (s.set f v).time = s.time := rfl
@[simp] theorem State.set_axes (f : Field) (v : Nat) : (s.set f v).axes = s.axes := rfl
@[simp] theorem State.set_drive (f : Field) (v : Nat) : (s.set f v).drive = s.drive := rfl
@[simp] theorem State.set_hk (f : Field) (v : Nat) : (s.set f v).hk = s.hk := rfl
@[simp] theorem State.set_scal (f : Field) (v : Nat) : (s.set f v).scal = s.scal := rfl
@[simp] theorem State.set_aux (f : Field) (v : Nat) : (s.set f v).aux = s.aux := rfl
@[simp] theorem State.set_slots (f : Field) (v : Nat) : (s.set f v).slots = s.slots := rfl
@[simp] theorem State.set_cal (f : Field) (v : Nat) : (s.set f v).cal = s.cal := rfl
@[simp] theorem State.set_deck (f : Field) (v : Nat) : (s.set f v).deck = s.deck := rfl
@[simp] theorem State.set_recog (f : Field) (v : Nat) : (s.set f v).recog = s.recog := rfl
@[simp] theorem State.set_blaze (f : Field) (v : Nat) : (s.set f v).blaze = s.blaze := rfl
@[simp] theorem State.set_engines (f : Field) (v : Nat) : (s.set f v).engines = s.engines := rfl
@[simp] theorem State.set_an (f : Field) (v : Nat) : (s.set f v).an = s.an := rfl
@[simp] theorem State.set_net (f : Field) (v : Nat) : (s.set f v).net = s.net := rfl
@[simp] theorem State.set_flash (f : Field) (v : Nat) : (s.set f v).flash = s.flash := rfl
@[simp] theorem State.set_keys (f : Field) (v : Nat) : (s.set f v).keys = s.keys := rfl
@[simp] theorem State.set_tally (f : Field) (v : Nat) : (s.set f v).tally = s.tally := rfl
@[simp] theorem State.set_modes (f : Field) (v : Nat) : (s.set f v).modes = s.modes := rfl
@[simp] theorem State.set_bus (f : Field) (v : Nat) : (s.set f v).bus = s.bus := rfl
@[simp] theorem State.set_tx (f : Field) (v : Nat) : (s.set f v).tx = s.tx := rfl
@[simp] theorem State.set_fresh (f : Field) (v : Nat) : (s.set f v).fresh = s.fresh := rfl
@[simp] theorem State.set_free (f : Field) (v : Nat) : (s.set f v).free = s.free := rfl
@[simp] theorem State.set_pending (f : Field) (v : Nat) : (s.set f v).pending = s.pending := rfl

@[simp] theorem State.setI_pwr (f : Field) (v : Int) : (s.setI f v).pwr = s.pwr := rfl
@[simp] theorem State.setI_time (f : Field) (v : Int) : (s.setI f v).time = s.time := rfl
@[simp] theorem State.setI_axes (f : Field) (v : Int) : (s.setI f v).axes = s.axes := rfl
@[simp] theorem State.setI_drive (f : Field) (v : Int) : (s.setI f v).drive = s.drive := rfl
@[simp] theorem State.setI_hk (f : Field) (v : Int) : (s.setI f v).hk = s.hk := rfl
@[simp] theorem State.setI_scal (f : Field) (v : Int) : (s.setI f v).scal = s.scal := rfl
@[simp] theorem State.setI_aux (f : Field) (v : Int) : (s.setI f v).aux = s.aux := rfl
@[simp] theorem State.setI_slots (f : Field) (v : Int) : (s.setI f v).slots = s.slots := rfl
@[simp] theorem State.setI_cal (f : Field) (v : Int) : (s.setI f v).cal = s.cal := rfl
@[simp] theorem State.setI_deck (f : Field) (v : Int) : (s.setI f v).deck = s.deck := rfl
@[simp] theorem State.setI_recog (f : Field) (v : Int) : (s.setI f v).recog = s.recog := rfl
@[simp] theorem State.setI_blaze (f : Field) (v : Int) : (s.setI f v).blaze = s.blaze := rfl
@[simp] theorem State.setI_engines (f : Field) (v : Int) : (s.setI f v).engines = s.engines := rfl
@[simp] theorem State.setI_an (f : Field) (v : Int) : (s.setI f v).an = s.an := rfl
@[simp] theorem State.setI_net (f : Field) (v : Int) : (s.setI f v).net = s.net := rfl
@[simp] theorem State.setI_flash (f : Field) (v : Int) : (s.setI f v).flash = s.flash := rfl
@[simp] theorem State.setI_keys (f : Field) (v : Int) : (s.setI f v).keys = s.keys := rfl
@[simp] theorem State.setI_tally (f : Field) (v : Int) : (s.setI f v).tally = s.tally := rfl
@[simp] theorem State.setI_modes (f : Field) (v : Int) : (s.setI f v).modes = s.modes := rfl
@[simp] theorem State.setI_bus (f : Field) (v : Int) : (s.setI f v).bus = s.bus := rfl
@[simp] theorem State.setI_tx (f : Field) (v : Int) : (s.setI f v).tx = s.tx := rfl
@[simp] theorem State.setI_fresh (f : Field) (v : Int) : (s.setI f v).fresh = s.fresh := rfl
@[simp] theorem State.setI_free (f : Field) (v : Int) : (s.setI f v).free = s.free := rfl
@[simp] theorem State.setI_pending (f : Field) (v : Int) : (s.setI f v).pending = s.pending := rfl

@[simp] theorem State.setB_pwr (f : Field) (b : Bool) : (s.setB f b).pwr = s.pwr := rfl
@[simp] theorem State.setB_time (f : Field) (b : Bool) : (s.setB f b).time = s.time := rfl
@[simp] theorem State.setB_axes (f : Field) (b : Bool) : (s.setB f b).axes = s.axes := rfl
@[simp] theorem State.setB_drive (f : Field) (b : Bool) : (s.setB f b).drive = s.drive := rfl
@[simp] theorem State.setB_hk (f : Field) (b : Bool) : (s.setB f b).hk = s.hk := rfl
@[simp] theorem State.setB_scal (f : Field) (b : Bool) : (s.setB f b).scal = s.scal := rfl
@[simp] theorem State.setB_aux (f : Field) (b : Bool) : (s.setB f b).aux = s.aux := rfl
@[simp] theorem State.setB_slots (f : Field) (b : Bool) : (s.setB f b).slots = s.slots := rfl
@[simp] theorem State.setB_cal (f : Field) (b : Bool) : (s.setB f b).cal = s.cal := rfl
@[simp] theorem State.setB_deck (f : Field) (b : Bool) : (s.setB f b).deck = s.deck := rfl
@[simp] theorem State.setB_recog (f : Field) (b : Bool) : (s.setB f b).recog = s.recog := rfl
@[simp] theorem State.setB_blaze (f : Field) (b : Bool) : (s.setB f b).blaze = s.blaze := rfl
@[simp] theorem State.setB_engines (f : Field) (b : Bool) : (s.setB f b).engines = s.engines := rfl
@[simp] theorem State.setB_an (f : Field) (b : Bool) : (s.setB f b).an = s.an := rfl
@[simp] theorem State.setB_net (f : Field) (b : Bool) : (s.setB f b).net = s.net := rfl
@[simp] theorem State.setB_flash (f : Field) (b : Bool) : (s.setB f b).flash = s.flash := rfl
@[simp] theorem State.setB_keys (f : Field) (b : Bool) : (s.setB f b).keys = s.keys := rfl
@[simp] theorem State.setB_tally (f : Field) (b : Bool) : (s.setB f b).tally = s.tally := rfl
@[simp] theorem State.setB_modes (f : Field) (b : Bool) : (s.setB f b).modes = s.modes := rfl
@[simp] theorem State.setB_bus (f : Field) (b : Bool) : (s.setB f b).bus = s.bus := rfl
@[simp] theorem State.setB_tx (f : Field) (b : Bool) : (s.setB f b).tx = s.tx := rfl
@[simp] theorem State.setB_fresh (f : Field) (b : Bool) : (s.setB f b).fresh = s.fresh := rfl
@[simp] theorem State.setB_free (f : Field) (b : Bool) : (s.setB f b).free = s.free := rfl
@[simp] theorem State.setB_pending (f : Field) (b : Bool) : (s.setB f b).pending = s.pending := rfl

@[simp] theorem State.bump_pwr (f : Field) (n : Nat) : (s.bump f n).pwr = s.pwr := rfl
@[simp] theorem State.bump_time (f : Field) (n : Nat) : (s.bump f n).time = s.time := rfl
@[simp] theorem State.bump_axes (f : Field) (n : Nat) : (s.bump f n).axes = s.axes := rfl
@[simp] theorem State.bump_drive (f : Field) (n : Nat) : (s.bump f n).drive = s.drive := rfl
@[simp] theorem State.bump_hk (f : Field) (n : Nat) : (s.bump f n).hk = s.hk := rfl
@[simp] theorem State.bump_scal (f : Field) (n : Nat) : (s.bump f n).scal = s.scal := rfl
@[simp] theorem State.bump_aux (f : Field) (n : Nat) : (s.bump f n).aux = s.aux := rfl
@[simp] theorem State.bump_slots (f : Field) (n : Nat) : (s.bump f n).slots = s.slots := rfl
@[simp] theorem State.bump_cal (f : Field) (n : Nat) : (s.bump f n).cal = s.cal := rfl
@[simp] theorem State.bump_deck (f : Field) (n : Nat) : (s.bump f n).deck = s.deck := rfl
@[simp] theorem State.bump_recog (f : Field) (n : Nat) : (s.bump f n).recog = s.recog := rfl
@[simp] theorem State.bump_blaze (f : Field) (n : Nat) : (s.bump f n).blaze = s.blaze := rfl
@[simp] theorem State.bump_engines (f : Field) (n : Nat) : (s.bump f n).engines = s.engines := rfl
@[simp] theorem State.bump_an (f : Field) (n : Nat) : (s.bump f n).an = s.an := rfl
@[simp] theorem State.bump_net (f : Field) (n : Nat) : (s.bump f n).net = s.net := rfl
@[simp] theorem State.bump_flash (f : Field) (n : Nat) : (s.bump f n).flash = s.flash := rfl
@[simp] theorem State.bump_keys (f : Field) (n : Nat) : (s.bump f n).keys = s.keys := rfl
@[simp] theorem State.bump_tally (f : Field) (n : Nat) : (s.bump f n).tally = s.tally := rfl
@[simp] theorem State.bump_modes (f : Field) (n : Nat) : (s.bump f n).modes = s.modes := rfl
@[simp] theorem State.bump_bus (f : Field) (n : Nat) : (s.bump f n).bus = s.bus := rfl
@[simp] theorem State.bump_tx (f : Field) (n : Nat) : (s.bump f n).tx = s.tx := rfl
@[simp] theorem State.bump_free (f : Field) (n : Nat) : (s.bump f n).free = s.free := rfl
@[simp] theorem State.bump_pending (f : Field) (n : Nat) : (s.bump f n).pending = s.pending := rfl

@[simp] theorem State.event_pwr (f : Field) : (s.event f).pwr = s.pwr := rfl
@[simp] theorem State.event_time (f : Field) : (s.event f).time = s.time := rfl
@[simp] theorem State.event_axes (f : Field) : (s.event f).axes = s.axes := rfl
@[simp] theorem State.event_drive (f : Field) : (s.event f).drive = s.drive := rfl
@[simp] theorem State.event_hk (f : Field) : (s.event f).hk = s.hk := rfl
@[simp] theorem State.event_scal (f : Field) : (s.event f).scal = s.scal := rfl
@[simp] theorem State.event_aux (f : Field) : (s.event f).aux = s.aux := rfl
@[simp] theorem State.event_slots (f : Field) : (s.event f).slots = s.slots := rfl
@[simp] theorem State.event_cal (f : Field) : (s.event f).cal = s.cal := rfl
@[simp] theorem State.event_deck (f : Field) : (s.event f).deck = s.deck := rfl
@[simp] theorem State.event_recog (f : Field) : (s.event f).recog = s.recog := rfl
@[simp] theorem State.event_blaze (f : Field) : (s.event f).blaze = s.blaze := rfl
@[simp] theorem State.event_engines (f : Field) : (s.event f).engines = s.engines := rfl
@[simp] theorem State.event_an (f : Field) : (s.event f).an = s.an := rfl
@[simp] theorem State.event_net (f : Field) : (s.event f).net = s.net := rfl
@[simp] theorem State.event_flash (f : Field) : (s.event f).flash = s.flash := rfl
@[simp] theorem State.event_keys (f : Field) : (s.event f).keys = s.keys := rfl
@[simp] theorem State.event_tally (f : Field) : (s.event f).tally = s.tally := rfl
@[simp] theorem State.event_modes (f : Field) : (s.event f).modes = s.modes := rfl
@[simp] theorem State.event_bus (f : Field) : (s.event f).bus = s.bus := rfl
@[simp] theorem State.event_tx (f : Field) : (s.event f).tx = s.tx := rfl
@[simp] theorem State.event_free (f : Field) : (s.event f).free = s.free := rfl
@[simp] theorem State.event_pending (f : Field) : (s.event f).pending = s.pending := rfl

@[simp] theorem State.noted_regs (l : List Fresh) : (s.noted l).regs = s.regs := rfl
@[simp] theorem State.noted_pwr (l : List Fresh) : (s.noted l).pwr = s.pwr := rfl
@[simp] theorem State.noted_time (l : List Fresh) : (s.noted l).time = s.time := rfl
@[simp] theorem State.noted_axes (l : List Fresh) : (s.noted l).axes = s.axes := rfl
@[simp] theorem State.noted_drive (l : List Fresh) : (s.noted l).drive = s.drive := rfl
@[simp] theorem State.noted_hk (l : List Fresh) : (s.noted l).hk = s.hk := rfl
@[simp] theorem State.noted_scal (l : List Fresh) : (s.noted l).scal = s.scal := rfl
@[simp] theorem State.noted_aux (l : List Fresh) : (s.noted l).aux = s.aux := rfl
@[simp] theorem State.noted_slots (l : List Fresh) : (s.noted l).slots = s.slots := rfl
@[simp] theorem State.noted_cal (l : List Fresh) : (s.noted l).cal = s.cal := rfl
@[simp] theorem State.noted_deck (l : List Fresh) : (s.noted l).deck = s.deck := rfl
@[simp] theorem State.noted_recog (l : List Fresh) : (s.noted l).recog = s.recog := rfl
@[simp] theorem State.noted_blaze (l : List Fresh) : (s.noted l).blaze = s.blaze := rfl
@[simp] theorem State.noted_engines (l : List Fresh) : (s.noted l).engines = s.engines := rfl
@[simp] theorem State.noted_an (l : List Fresh) : (s.noted l).an = s.an := rfl
@[simp] theorem State.noted_net (l : List Fresh) : (s.noted l).net = s.net := rfl
@[simp] theorem State.noted_flash (l : List Fresh) : (s.noted l).flash = s.flash := rfl
@[simp] theorem State.noted_keys (l : List Fresh) : (s.noted l).keys = s.keys := rfl
@[simp] theorem State.noted_tally (l : List Fresh) : (s.noted l).tally = s.tally := rfl
@[simp] theorem State.noted_modes (l : List Fresh) : (s.noted l).modes = s.modes := rfl
@[simp] theorem State.noted_bus (l : List Fresh) : (s.noted l).bus = s.bus := rfl
@[simp] theorem State.noted_tx (l : List Fresh) : (s.noted l).tx = s.tx := rfl
@[simp] theorem State.noted_fresh (l : List Fresh) : (s.noted l).fresh = l := rfl
@[simp] theorem State.noted_free (l : List Fresh) : (s.noted l).free = s.free := rfl
@[simp] theorem State.noted_pending (l : List Fresh) : (s.noted l).pending = s.pending := rfl
@[simp] theorem State.noted_word (l : List Fresh) (x : Nat) : (s.noted l).word x = s.word x := rfl
@[simp] theorem State.noted_get (l : List Fresh) (g : Field) : (s.noted l).get g = s.get g := rfl

@[simp] theorem State.pulse_regs (n : Nat) : (s.pulse n).regs = s.regs := rfl
@[simp] theorem State.pulse_pwr (n : Nat) : (s.pulse n).pwr = s.pwr := rfl
@[simp] theorem State.pulse_time (n : Nat) : (s.pulse n).time = s.time := rfl
@[simp] theorem State.pulse_axes (n : Nat) : (s.pulse n).axes = s.axes := rfl
@[simp] theorem State.pulse_drive (n : Nat) : (s.pulse n).drive = s.drive := rfl
@[simp] theorem State.pulse_hk (n : Nat) : (s.pulse n).hk = s.hk := rfl
@[simp] theorem State.pulse_scal (n : Nat) : (s.pulse n).scal = s.scal := rfl
@[simp] theorem State.pulse_aux (n : Nat) : (s.pulse n).aux = s.aux := rfl
@[simp] theorem State.pulse_slots (n : Nat) : (s.pulse n).slots = s.slots := rfl
@[simp] theorem State.pulse_cal (n : Nat) : (s.pulse n).cal = s.cal := rfl
@[simp] theorem State.pulse_deck (n : Nat) : (s.pulse n).deck = s.deck := rfl
@[simp] theorem State.pulse_recog (n : Nat) : (s.pulse n).recog = s.recog := rfl
@[simp] theorem State.pulse_blaze (n : Nat) : (s.pulse n).blaze = s.blaze := rfl
@[simp] theorem State.pulse_engines (n : Nat) : (s.pulse n).engines = s.engines := rfl
@[simp] theorem State.pulse_an (n : Nat) : (s.pulse n).an = s.an := rfl
@[simp] theorem State.pulse_net (n : Nat) : (s.pulse n).net = s.net := rfl
@[simp] theorem State.pulse_flash (n : Nat) : (s.pulse n).flash = s.flash := rfl
@[simp] theorem State.pulse_keys (n : Nat) : (s.pulse n).keys = s.keys := rfl
@[simp] theorem State.pulse_tally (n : Nat) : (s.pulse n).tally = s.tally := rfl
@[simp] theorem State.pulse_modes (n : Nat) : (s.pulse n).modes = s.modes := rfl
@[simp] theorem State.pulse_bus (n : Nat) : (s.pulse n).bus = { s.bus with pulses := s.bus.pulses ++ [n] } := rfl
@[simp] theorem State.pulse_tx (n : Nat) : (s.pulse n).tx = s.tx := rfl
@[simp] theorem State.pulse_fresh (n : Nat) : (s.pulse n).fresh = s.fresh := rfl
@[simp] theorem State.pulse_free (n : Nat) : (s.pulse n).free = s.free := rfl
@[simp] theorem State.pulse_pending (n : Nat) : (s.pulse n).pending = s.pending := rfl
@[simp] theorem State.pulse_word (n : Nat) (x : Nat) : (s.pulse n).word x = s.word x := rfl
@[simp] theorem State.pulse_get (n : Nat) (g : Field) : (s.pulse n).get g = s.get g := rfl

@[simp] theorem State.send_regs (p : Egress) (q : Nat) (y : Payload) : (s.send p q y).regs = s.regs := rfl
@[simp] theorem State.send_pwr (p : Egress) (q : Nat) (y : Payload) : (s.send p q y).pwr = s.pwr := rfl
@[simp] theorem State.send_time (p : Egress) (q : Nat) (y : Payload) : (s.send p q y).time = s.time := rfl
@[simp] theorem State.send_axes (p : Egress) (q : Nat) (y : Payload) : (s.send p q y).axes = s.axes := rfl
@[simp] theorem State.send_drive (p : Egress) (q : Nat) (y : Payload) : (s.send p q y).drive = s.drive := rfl
@[simp] theorem State.send_hk (p : Egress) (q : Nat) (y : Payload) : (s.send p q y).hk = s.hk := rfl
@[simp] theorem State.send_scal (p : Egress) (q : Nat) (y : Payload) : (s.send p q y).scal = s.scal := rfl
@[simp] theorem State.send_aux (p : Egress) (q : Nat) (y : Payload) : (s.send p q y).aux = s.aux := rfl
@[simp] theorem State.send_slots (p : Egress) (q : Nat) (y : Payload) : (s.send p q y).slots = s.slots := rfl
@[simp] theorem State.send_cal (p : Egress) (q : Nat) (y : Payload) : (s.send p q y).cal = s.cal := rfl
@[simp] theorem State.send_deck (p : Egress) (q : Nat) (y : Payload) : (s.send p q y).deck = s.deck := rfl
@[simp] theorem State.send_recog (p : Egress) (q : Nat) (y : Payload) : (s.send p q y).recog = s.recog := rfl
@[simp] theorem State.send_blaze (p : Egress) (q : Nat) (y : Payload) : (s.send p q y).blaze = s.blaze := rfl
@[simp] theorem State.send_engines (p : Egress) (q : Nat) (y : Payload) : (s.send p q y).engines = s.engines := rfl
@[simp] theorem State.send_an (p : Egress) (q : Nat) (y : Payload) : (s.send p q y).an = s.an := rfl
@[simp] theorem State.send_net (p : Egress) (q : Nat) (y : Payload) : (s.send p q y).net = s.net := rfl
@[simp] theorem State.send_flash (p : Egress) (q : Nat) (y : Payload) : (s.send p q y).flash = s.flash := rfl
@[simp] theorem State.send_keys (p : Egress) (q : Nat) (y : Payload) : (s.send p q y).keys = s.keys := rfl
@[simp] theorem State.send_tally (p : Egress) (q : Nat) (y : Payload) : (s.send p q y).tally = s.tally := rfl
@[simp] theorem State.send_modes (p : Egress) (q : Nat) (y : Payload) : (s.send p q y).modes = s.modes := rfl
@[simp] theorem State.send_bus (p : Egress) (q : Nat) (y : Payload) : (s.send p q y).bus = s.bus := rfl
@[simp] theorem State.send_tx (p : Egress) (q : Nat) (y : Payload) : (s.send p q y).tx = s.tx ++ [{ port := p, queue := q, pay := y }] := rfl
@[simp] theorem State.send_fresh (p : Egress) (q : Nat) (y : Payload) : (s.send p q y).fresh = s.fresh := rfl
@[simp] theorem State.send_free (p : Egress) (q : Nat) (y : Payload) : (s.send p q y).free = s.free := rfl
@[simp] theorem State.send_pending (p : Egress) (q : Nat) (y : Payload) : (s.send p q y).pending = s.pending := rfl
@[simp] theorem State.send_word (p : Egress) (q : Nat) (y : Payload) (x : Nat) : (s.send p q y).word x = s.word x := rfl
@[simp] theorem State.send_get (p : Egress) (q : Nat) (y : Payload) (g : Field) : (s.send p q y).get g = s.get g := rfl

@[simp] theorem State.sendIp_regs (p : Egress) (q : Nat) (h : IpHead) (y : Payload) : (s.sendIp p q h y).regs = s.regs := rfl
@[simp] theorem State.sendIp_pwr (p : Egress) (q : Nat) (h : IpHead) (y : Payload) : (s.sendIp p q h y).pwr = s.pwr := rfl
@[simp] theorem State.sendIp_time (p : Egress) (q : Nat) (h : IpHead) (y : Payload) : (s.sendIp p q h y).time = s.time := rfl
@[simp] theorem State.sendIp_axes (p : Egress) (q : Nat) (h : IpHead) (y : Payload) : (s.sendIp p q h y).axes = s.axes := rfl
@[simp] theorem State.sendIp_drive (p : Egress) (q : Nat) (h : IpHead) (y : Payload) : (s.sendIp p q h y).drive = s.drive := rfl
@[simp] theorem State.sendIp_hk (p : Egress) (q : Nat) (h : IpHead) (y : Payload) : (s.sendIp p q h y).hk = s.hk := rfl
@[simp] theorem State.sendIp_scal (p : Egress) (q : Nat) (h : IpHead) (y : Payload) : (s.sendIp p q h y).scal = s.scal := rfl
@[simp] theorem State.sendIp_aux (p : Egress) (q : Nat) (h : IpHead) (y : Payload) : (s.sendIp p q h y).aux = s.aux := rfl
@[simp] theorem State.sendIp_slots (p : Egress) (q : Nat) (h : IpHead) (y : Payload) : (s.sendIp p q h y).slots = s.slots := rfl
@[simp] theorem State.sendIp_cal (p : Egress) (q : Nat) (h : IpHead) (y : Payload) : (s.sendIp p q h y).cal = s.cal := rfl
@[simp] theorem State.sendIp_deck (p : Egress) (q : Nat) (h : IpHead) (y : Payload) : (s.sendIp p q h y).deck = s.deck := rfl
@[simp] theorem State.sendIp_recog (p : Egress) (q : Nat) (h : IpHead) (y : Payload) : (s.sendIp p q h y).recog = s.recog := rfl
@[simp] theorem State.sendIp_blaze (p : Egress) (q : Nat) (h : IpHead) (y : Payload) : (s.sendIp p q h y).blaze = s.blaze := rfl
@[simp] theorem State.sendIp_engines (p : Egress) (q : Nat) (h : IpHead) (y : Payload) : (s.sendIp p q h y).engines = s.engines := rfl
@[simp] theorem State.sendIp_an (p : Egress) (q : Nat) (h : IpHead) (y : Payload) : (s.sendIp p q h y).an = s.an := rfl
@[simp] theorem State.sendIp_net (p : Egress) (q : Nat) (h : IpHead) (y : Payload) : (s.sendIp p q h y).net = s.net := rfl
@[simp] theorem State.sendIp_flash (p : Egress) (q : Nat) (h : IpHead) (y : Payload) : (s.sendIp p q h y).flash = s.flash := rfl
@[simp] theorem State.sendIp_keys (p : Egress) (q : Nat) (h : IpHead) (y : Payload) : (s.sendIp p q h y).keys = s.keys := rfl
@[simp] theorem State.sendIp_tally (p : Egress) (q : Nat) (h : IpHead) (y : Payload) : (s.sendIp p q h y).tally = s.tally := rfl
@[simp] theorem State.sendIp_modes (p : Egress) (q : Nat) (h : IpHead) (y : Payload) : (s.sendIp p q h y).modes = s.modes := rfl
@[simp] theorem State.sendIp_bus (p : Egress) (q : Nat) (h : IpHead) (y : Payload) : (s.sendIp p q h y).bus = s.bus := rfl
@[simp] theorem State.sendIp_tx (p : Egress) (q : Nat) (h : IpHead) (y : Payload) : (s.sendIp p q h y).tx = s.tx ++ [{ port := p, queue := q, pay := y, ip := some h }] := rfl
@[simp] theorem State.sendIp_fresh (p : Egress) (q : Nat) (h : IpHead) (y : Payload) : (s.sendIp p q h y).fresh = s.fresh := rfl
@[simp] theorem State.sendIp_free (p : Egress) (q : Nat) (h : IpHead) (y : Payload) : (s.sendIp p q h y).free = s.free := rfl
@[simp] theorem State.sendIp_pending (p : Egress) (q : Nat) (h : IpHead) (y : Payload) : (s.sendIp p q h y).pending = s.pending := rfl
@[simp] theorem State.sendIp_word (p : Egress) (q : Nat) (h : IpHead) (y : Payload) (x : Nat) : (s.sendIp p q h y).word x = s.word x := rfl
@[simp] theorem State.sendIp_get (p : Egress) (q : Nat) (h : IpHead) (y : Payload) (g : Field) : (s.sendIp p q h y).get g = s.get g := rfl

@[simp] theorem State.log_regs (e : LogEntry) : (s.log e).regs = s.regs := rfl
@[simp] theorem State.log_pwr (e : LogEntry) : (s.log e).pwr = s.pwr := rfl
@[simp] theorem State.log_time (e : LogEntry) : (s.log e).time = s.time := rfl
@[simp] theorem State.log_axes (e : LogEntry) : (s.log e).axes = s.axes := rfl
@[simp] theorem State.log_drive (e : LogEntry) : (s.log e).drive = s.drive := rfl
@[simp] theorem State.log_hk (e : LogEntry) : (s.log e).hk = s.hk := rfl
@[simp] theorem State.log_scal (e : LogEntry) : (s.log e).scal = s.scal := rfl
@[simp] theorem State.log_aux (e : LogEntry) : (s.log e).aux = s.aux := rfl
@[simp] theorem State.log_slots (e : LogEntry) : (s.log e).slots = s.slots := rfl
@[simp] theorem State.log_cal (e : LogEntry) : (s.log e).cal = s.cal := rfl
@[simp] theorem State.log_deck (e : LogEntry) : (s.log e).deck = s.deck := rfl
@[simp] theorem State.log_recog (e : LogEntry) : (s.log e).recog = s.recog := rfl
@[simp] theorem State.log_blaze (e : LogEntry) : (s.log e).blaze = s.blaze := rfl
@[simp] theorem State.log_engines (e : LogEntry) : (s.log e).engines = s.engines := rfl
@[simp] theorem State.log_an (e : LogEntry) : (s.log e).an = s.an := rfl
@[simp] theorem State.log_net (e : LogEntry) : (s.log e).net = s.net := rfl
@[simp] theorem State.log_flash (e : LogEntry) : (s.log e).flash = { s.flash with log := fitLog logUnits ((s.flash.run, e) :: s.flash.log) } := rfl
@[simp] theorem State.log_keys (e : LogEntry) : (s.log e).keys = s.keys := rfl
@[simp] theorem State.log_tally (e : LogEntry) : (s.log e).tally = s.tally := rfl
@[simp] theorem State.log_modes (e : LogEntry) : (s.log e).modes = s.modes := rfl
@[simp] theorem State.log_bus (e : LogEntry) : (s.log e).bus = s.bus := rfl
@[simp] theorem State.log_tx (e : LogEntry) : (s.log e).tx = s.tx := rfl
@[simp] theorem State.log_fresh (e : LogEntry) : (s.log e).fresh = s.fresh := rfl
@[simp] theorem State.log_free (e : LogEntry) : (s.log e).free = s.free := rfl
@[simp] theorem State.log_pending (e : LogEntry) : (s.log e).pending = s.pending := rfl
@[simp] theorem State.log_word (e : LogEntry) (x : Nat) : (s.log e).word x = s.word x := rfl
@[simp] theorem State.log_get (e : LogEntry) (g : Field) : (s.log e).get g = s.get g := rfl

@[simp] theorem State.answer_regs (w : Word) : (s.answer w).regs = s.regs := rfl
@[simp] theorem State.answer_pwr (w : Word) : (s.answer w).pwr = s.pwr := rfl
@[simp] theorem State.answer_time (w : Word) : (s.answer w).time = s.time := rfl
@[simp] theorem State.answer_axes (w : Word) : (s.answer w).axes = s.axes := rfl
@[simp] theorem State.answer_drive (w : Word) : (s.answer w).drive = s.drive := rfl
@[simp] theorem State.answer_hk (w : Word) : (s.answer w).hk = s.hk := rfl
@[simp] theorem State.answer_scal (w : Word) : (s.answer w).scal = s.scal := rfl
@[simp] theorem State.answer_aux (w : Word) : (s.answer w).aux = s.aux := rfl
@[simp] theorem State.answer_slots (w : Word) : (s.answer w).slots = s.slots := rfl
@[simp] theorem State.answer_cal (w : Word) : (s.answer w).cal = s.cal := rfl
@[simp] theorem State.answer_deck (w : Word) : (s.answer w).deck = s.deck := rfl
@[simp] theorem State.answer_recog (w : Word) : (s.answer w).recog = s.recog := rfl
@[simp] theorem State.answer_blaze (w : Word) : (s.answer w).blaze = s.blaze := rfl
@[simp] theorem State.answer_engines (w : Word) : (s.answer w).engines = s.engines := rfl
@[simp] theorem State.answer_an (w : Word) : (s.answer w).an = s.an := rfl
@[simp] theorem State.answer_net (w : Word) : (s.answer w).net = s.net := rfl
@[simp] theorem State.answer_flash (w : Word) : (s.answer w).flash = s.flash := rfl
@[simp] theorem State.answer_keys (w : Word) : (s.answer w).keys = s.keys := rfl
@[simp] theorem State.answer_tally (w : Word) : (s.answer w).tally = s.tally := rfl
@[simp] theorem State.answer_modes (w : Word) : (s.answer w).modes = s.modes := rfl
@[simp] theorem State.answer_bus (w : Word) : (s.answer w).bus = { s.bus with reply := w } := rfl
@[simp] theorem State.answer_tx (w : Word) : (s.answer w).tx = s.tx := rfl
@[simp] theorem State.answer_fresh (w : Word) : (s.answer w).fresh = s.fresh := rfl
@[simp] theorem State.answer_free (w : Word) : (s.answer w).free = s.free := rfl
@[simp] theorem State.answer_pending (w : Word) : (s.answer w).pending = s.pending := rfl
@[simp] theorem State.answer_word (w : Word) (x : Nat) : (s.answer w).word x = s.word x := rfl
@[simp] theorem State.answer_get (w : Word) (g : Field) : (s.answer w).get g = s.get g := rfl

@[simp] theorem State.answerBurst_regs (l : List Word) : (s.answerBurst l).regs = s.regs := rfl
@[simp] theorem State.answerBurst_pwr (l : List Word) : (s.answerBurst l).pwr = s.pwr := rfl
@[simp] theorem State.answerBurst_time (l : List Word) : (s.answerBurst l).time = s.time := rfl
@[simp] theorem State.answerBurst_axes (l : List Word) : (s.answerBurst l).axes = s.axes := rfl
@[simp] theorem State.answerBurst_drive (l : List Word) : (s.answerBurst l).drive = s.drive := rfl
@[simp] theorem State.answerBurst_hk (l : List Word) : (s.answerBurst l).hk = s.hk := rfl
@[simp] theorem State.answerBurst_scal (l : List Word) : (s.answerBurst l).scal = s.scal := rfl
@[simp] theorem State.answerBurst_aux (l : List Word) : (s.answerBurst l).aux = s.aux := rfl
@[simp] theorem State.answerBurst_slots (l : List Word) : (s.answerBurst l).slots = s.slots := rfl
@[simp] theorem State.answerBurst_cal (l : List Word) : (s.answerBurst l).cal = s.cal := rfl
@[simp] theorem State.answerBurst_deck (l : List Word) : (s.answerBurst l).deck = s.deck := rfl
@[simp] theorem State.answerBurst_recog (l : List Word) : (s.answerBurst l).recog = s.recog := rfl
@[simp] theorem State.answerBurst_blaze (l : List Word) : (s.answerBurst l).blaze = s.blaze := rfl
@[simp] theorem State.answerBurst_engines (l : List Word) : (s.answerBurst l).engines = s.engines := rfl
@[simp] theorem State.answerBurst_an (l : List Word) : (s.answerBurst l).an = s.an := rfl
@[simp] theorem State.answerBurst_net (l : List Word) : (s.answerBurst l).net = s.net := rfl
@[simp] theorem State.answerBurst_flash (l : List Word) : (s.answerBurst l).flash = s.flash := rfl
@[simp] theorem State.answerBurst_keys (l : List Word) : (s.answerBurst l).keys = s.keys := rfl
@[simp] theorem State.answerBurst_tally (l : List Word) : (s.answerBurst l).tally = s.tally := rfl
@[simp] theorem State.answerBurst_modes (l : List Word) : (s.answerBurst l).modes = s.modes := rfl
@[simp] theorem State.answerBurst_bus (l : List Word) : (s.answerBurst l).bus = { s.bus with reply := l.getLastD 0, burst := l } := rfl
@[simp] theorem State.answerBurst_tx (l : List Word) : (s.answerBurst l).tx = s.tx := rfl
@[simp] theorem State.answerBurst_fresh (l : List Word) : (s.answerBurst l).fresh = s.fresh := rfl
@[simp] theorem State.answerBurst_free (l : List Word) : (s.answerBurst l).free = s.free := rfl
@[simp] theorem State.answerBurst_pending (l : List Word) : (s.answerBurst l).pending = s.pending := rfl
@[simp] theorem State.answerBurst_word (l : List Word) (x : Nat) : (s.answerBurst l).word x = s.word x := rfl
@[simp] theorem State.answerBurst_get (l : List Word) (g : Field) : (s.answerBurst l).get g = s.get g := rfl

@[simp] theorem State.setChunks_regs (l : List Chunk) : (s.setChunks l).regs = s.regs := rfl
@[simp] theorem State.setChunks_pwr (l : List Chunk) : (s.setChunks l).pwr = s.pwr := rfl
@[simp] theorem State.setChunks_time (l : List Chunk) : (s.setChunks l).time = s.time := rfl
@[simp] theorem State.setChunks_axes (l : List Chunk) : (s.setChunks l).axes = s.axes := rfl
@[simp] theorem State.setChunks_drive (l : List Chunk) : (s.setChunks l).drive = s.drive := rfl
@[simp] theorem State.setChunks_hk (l : List Chunk) : (s.setChunks l).hk = s.hk := rfl
@[simp] theorem State.setChunks_scal (l : List Chunk) : (s.setChunks l).scal = s.scal := rfl
@[simp] theorem State.setChunks_aux (l : List Chunk) : (s.setChunks l).aux = s.aux := rfl
@[simp] theorem State.setChunks_slots (l : List Chunk) : (s.setChunks l).slots = s.slots := rfl
@[simp] theorem State.setChunks_cal (l : List Chunk) : (s.setChunks l).cal = s.cal := rfl
@[simp] theorem State.setChunks_deck (l : List Chunk) : (s.setChunks l).deck = { s.deck with chunks := l } := rfl
@[simp] theorem State.setChunks_recog (l : List Chunk) : (s.setChunks l).recog = s.recog := rfl
@[simp] theorem State.setChunks_blaze (l : List Chunk) : (s.setChunks l).blaze = s.blaze := rfl
@[simp] theorem State.setChunks_engines (l : List Chunk) : (s.setChunks l).engines = s.engines := rfl
@[simp] theorem State.setChunks_an (l : List Chunk) : (s.setChunks l).an = s.an := rfl
@[simp] theorem State.setChunks_net (l : List Chunk) : (s.setChunks l).net = s.net := rfl
@[simp] theorem State.setChunks_flash (l : List Chunk) : (s.setChunks l).flash = s.flash := rfl
@[simp] theorem State.setChunks_keys (l : List Chunk) : (s.setChunks l).keys = s.keys := rfl
@[simp] theorem State.setChunks_tally (l : List Chunk) : (s.setChunks l).tally = s.tally := rfl
@[simp] theorem State.setChunks_modes (l : List Chunk) : (s.setChunks l).modes = s.modes := rfl
@[simp] theorem State.setChunks_bus (l : List Chunk) : (s.setChunks l).bus = s.bus := rfl
@[simp] theorem State.setChunks_tx (l : List Chunk) : (s.setChunks l).tx = s.tx := rfl
@[simp] theorem State.setChunks_fresh (l : List Chunk) : (s.setChunks l).fresh = s.fresh := rfl
@[simp] theorem State.setChunks_free (l : List Chunk) : (s.setChunks l).free = s.free := rfl
@[simp] theorem State.setChunks_pending (l : List Chunk) : (s.setChunks l).pending = s.pending := rfl
@[simp] theorem State.setChunks_word (l : List Chunk) (x : Nat) : (s.setChunks l).word x = s.word x := rfl
@[simp] theorem State.setChunks_get (l : List Chunk) (g : Field) : (s.setChunks l).get g = s.get g := rfl

@[simp] theorem State.modSlot_regs (i : Fin 16) (f : SlotState → SlotState) : (s.modSlot i f).regs = s.regs := rfl
@[simp] theorem State.modSlot_pwr (i : Fin 16) (f : SlotState → SlotState) : (s.modSlot i f).pwr = s.pwr := rfl
@[simp] theorem State.modSlot_time (i : Fin 16) (f : SlotState → SlotState) : (s.modSlot i f).time = s.time := rfl
@[simp] theorem State.modSlot_axes (i : Fin 16) (f : SlotState → SlotState) : (s.modSlot i f).axes = s.axes := rfl
@[simp] theorem State.modSlot_drive (i : Fin 16) (f : SlotState → SlotState) : (s.modSlot i f).drive = s.drive := rfl
@[simp] theorem State.modSlot_hk (i : Fin 16) (f : SlotState → SlotState) : (s.modSlot i f).hk = s.hk := rfl
@[simp] theorem State.modSlot_scal (i : Fin 16) (f : SlotState → SlotState) : (s.modSlot i f).scal = s.scal := rfl
@[simp] theorem State.modSlot_aux (i : Fin 16) (f : SlotState → SlotState) : (s.modSlot i f).aux = s.aux := rfl
@[simp] theorem State.modSlot_slots (i : Fin 16) (f : SlotState → SlotState) : (s.modSlot i f).slots = s.slots.set i (f s.slots[i]) := rfl
@[simp] theorem State.modSlot_cal (i : Fin 16) (f : SlotState → SlotState) : (s.modSlot i f).cal = s.cal := rfl
@[simp] theorem State.modSlot_deck (i : Fin 16) (f : SlotState → SlotState) : (s.modSlot i f).deck = s.deck := rfl
@[simp] theorem State.modSlot_recog (i : Fin 16) (f : SlotState → SlotState) : (s.modSlot i f).recog = s.recog := rfl
@[simp] theorem State.modSlot_blaze (i : Fin 16) (f : SlotState → SlotState) : (s.modSlot i f).blaze = s.blaze := rfl
@[simp] theorem State.modSlot_engines (i : Fin 16) (f : SlotState → SlotState) : (s.modSlot i f).engines = s.engines := rfl
@[simp] theorem State.modSlot_an (i : Fin 16) (f : SlotState → SlotState) : (s.modSlot i f).an = s.an := rfl
@[simp] theorem State.modSlot_net (i : Fin 16) (f : SlotState → SlotState) : (s.modSlot i f).net = s.net := rfl
@[simp] theorem State.modSlot_flash (i : Fin 16) (f : SlotState → SlotState) : (s.modSlot i f).flash = s.flash := rfl
@[simp] theorem State.modSlot_keys (i : Fin 16) (f : SlotState → SlotState) : (s.modSlot i f).keys = s.keys := rfl
@[simp] theorem State.modSlot_tally (i : Fin 16) (f : SlotState → SlotState) : (s.modSlot i f).tally = s.tally := rfl
@[simp] theorem State.modSlot_modes (i : Fin 16) (f : SlotState → SlotState) : (s.modSlot i f).modes = s.modes := rfl
@[simp] theorem State.modSlot_bus (i : Fin 16) (f : SlotState → SlotState) : (s.modSlot i f).bus = s.bus := rfl
@[simp] theorem State.modSlot_tx (i : Fin 16) (f : SlotState → SlotState) : (s.modSlot i f).tx = s.tx := rfl
@[simp] theorem State.modSlot_fresh (i : Fin 16) (f : SlotState → SlotState) : (s.modSlot i f).fresh = s.fresh := rfl
@[simp] theorem State.modSlot_free (i : Fin 16) (f : SlotState → SlotState) : (s.modSlot i f).free = s.free := rfl
@[simp] theorem State.modSlot_pending (i : Fin 16) (f : SlotState → SlotState) : (s.modSlot i f).pending = s.pending := rfl
@[simp] theorem State.modSlot_word (i : Fin 16) (f : SlotState → SlotState) (x : Nat) : (s.modSlot i f).word x = s.word x := rfl
@[simp] theorem State.modSlot_get (i : Fin 16) (f : SlotState → SlotState) (g : Field) : (s.modSlot i f).get g = s.get g := rfl

@[simp] theorem State.modAxis_regs (i : Fin 10) (f : AxisState → AxisState) : (s.modAxis i f).regs = s.regs := rfl
@[simp] theorem State.modAxis_pwr (i : Fin 10) (f : AxisState → AxisState) : (s.modAxis i f).pwr = s.pwr := rfl
@[simp] theorem State.modAxis_time (i : Fin 10) (f : AxisState → AxisState) : (s.modAxis i f).time = s.time := rfl
@[simp] theorem State.modAxis_axes (i : Fin 10) (f : AxisState → AxisState) : (s.modAxis i f).axes = s.axes.set i (f s.axes[i]) := rfl
@[simp] theorem State.modAxis_drive (i : Fin 10) (f : AxisState → AxisState) : (s.modAxis i f).drive = s.drive := rfl
@[simp] theorem State.modAxis_hk (i : Fin 10) (f : AxisState → AxisState) : (s.modAxis i f).hk = s.hk := rfl
@[simp] theorem State.modAxis_scal (i : Fin 10) (f : AxisState → AxisState) : (s.modAxis i f).scal = s.scal := rfl
@[simp] theorem State.modAxis_aux (i : Fin 10) (f : AxisState → AxisState) : (s.modAxis i f).aux = s.aux := rfl
@[simp] theorem State.modAxis_slots (i : Fin 10) (f : AxisState → AxisState) : (s.modAxis i f).slots = s.slots := rfl
@[simp] theorem State.modAxis_cal (i : Fin 10) (f : AxisState → AxisState) : (s.modAxis i f).cal = s.cal := rfl
@[simp] theorem State.modAxis_deck (i : Fin 10) (f : AxisState → AxisState) : (s.modAxis i f).deck = s.deck := rfl
@[simp] theorem State.modAxis_recog (i : Fin 10) (f : AxisState → AxisState) : (s.modAxis i f).recog = s.recog := rfl
@[simp] theorem State.modAxis_blaze (i : Fin 10) (f : AxisState → AxisState) : (s.modAxis i f).blaze = s.blaze := rfl
@[simp] theorem State.modAxis_engines (i : Fin 10) (f : AxisState → AxisState) : (s.modAxis i f).engines = s.engines := rfl
@[simp] theorem State.modAxis_an (i : Fin 10) (f : AxisState → AxisState) : (s.modAxis i f).an = s.an := rfl
@[simp] theorem State.modAxis_net (i : Fin 10) (f : AxisState → AxisState) : (s.modAxis i f).net = s.net := rfl
@[simp] theorem State.modAxis_flash (i : Fin 10) (f : AxisState → AxisState) : (s.modAxis i f).flash = s.flash := rfl
@[simp] theorem State.modAxis_keys (i : Fin 10) (f : AxisState → AxisState) : (s.modAxis i f).keys = s.keys := rfl
@[simp] theorem State.modAxis_tally (i : Fin 10) (f : AxisState → AxisState) : (s.modAxis i f).tally = s.tally := rfl
@[simp] theorem State.modAxis_modes (i : Fin 10) (f : AxisState → AxisState) : (s.modAxis i f).modes = s.modes := rfl
@[simp] theorem State.modAxis_bus (i : Fin 10) (f : AxisState → AxisState) : (s.modAxis i f).bus = s.bus := rfl
@[simp] theorem State.modAxis_tx (i : Fin 10) (f : AxisState → AxisState) : (s.modAxis i f).tx = s.tx := rfl
@[simp] theorem State.modAxis_fresh (i : Fin 10) (f : AxisState → AxisState) : (s.modAxis i f).fresh = s.fresh := rfl
@[simp] theorem State.modAxis_free (i : Fin 10) (f : AxisState → AxisState) : (s.modAxis i f).free = s.free := rfl
@[simp] theorem State.modAxis_pending (i : Fin 10) (f : AxisState → AxisState) : (s.modAxis i f).pending = s.pending := rfl
@[simp] theorem State.modAxis_word (i : Fin 10) (f : AxisState → AxisState) (x : Nat) : (s.modAxis i f).word x = s.word x := rfl
@[simp] theorem State.modAxis_get (i : Fin 10) (f : AxisState → AxisState) (g : Field) : (s.modAxis i f).get g = s.get g := rfl

@[simp] theorem State.modEngine_regs (e : Fin 8) (f : EngineState → EngineState) : (s.modEngine e f).regs = s.regs := rfl
@[simp] theorem State.modEngine_pwr (e : Fin 8) (f : EngineState → EngineState) : (s.modEngine e f).pwr = s.pwr := rfl
@[simp] theorem State.modEngine_time (e : Fin 8) (f : EngineState → EngineState) : (s.modEngine e f).time = s.time := rfl
@[simp] theorem State.modEngine_axes (e : Fin 8) (f : EngineState → EngineState) : (s.modEngine e f).axes = s.axes := rfl
@[simp] theorem State.modEngine_drive (e : Fin 8) (f : EngineState → EngineState) : (s.modEngine e f).drive = s.drive := rfl
@[simp] theorem State.modEngine_hk (e : Fin 8) (f : EngineState → EngineState) : (s.modEngine e f).hk = s.hk := rfl
@[simp] theorem State.modEngine_scal (e : Fin 8) (f : EngineState → EngineState) : (s.modEngine e f).scal = s.scal := rfl
@[simp] theorem State.modEngine_aux (e : Fin 8) (f : EngineState → EngineState) : (s.modEngine e f).aux = s.aux := rfl
@[simp] theorem State.modEngine_slots (e : Fin 8) (f : EngineState → EngineState) : (s.modEngine e f).slots = s.slots := rfl
@[simp] theorem State.modEngine_cal (e : Fin 8) (f : EngineState → EngineState) : (s.modEngine e f).cal = s.cal := rfl
@[simp] theorem State.modEngine_deck (e : Fin 8) (f : EngineState → EngineState) : (s.modEngine e f).deck = s.deck := rfl
@[simp] theorem State.modEngine_recog (e : Fin 8) (f : EngineState → EngineState) : (s.modEngine e f).recog = s.recog := rfl
@[simp] theorem State.modEngine_blaze (e : Fin 8) (f : EngineState → EngineState) : (s.modEngine e f).blaze = s.blaze := rfl
@[simp] theorem State.modEngine_engines (e : Fin 8) (f : EngineState → EngineState) : (s.modEngine e f).engines = s.engines.set e (f s.engines[e]) := rfl
@[simp] theorem State.modEngine_an (e : Fin 8) (f : EngineState → EngineState) : (s.modEngine e f).an = s.an := rfl
@[simp] theorem State.modEngine_net (e : Fin 8) (f : EngineState → EngineState) : (s.modEngine e f).net = s.net := rfl
@[simp] theorem State.modEngine_flash (e : Fin 8) (f : EngineState → EngineState) : (s.modEngine e f).flash = s.flash := rfl
@[simp] theorem State.modEngine_keys (e : Fin 8) (f : EngineState → EngineState) : (s.modEngine e f).keys = s.keys := rfl
@[simp] theorem State.modEngine_tally (e : Fin 8) (f : EngineState → EngineState) : (s.modEngine e f).tally = s.tally := rfl
@[simp] theorem State.modEngine_modes (e : Fin 8) (f : EngineState → EngineState) : (s.modEngine e f).modes = s.modes := rfl
@[simp] theorem State.modEngine_bus (e : Fin 8) (f : EngineState → EngineState) : (s.modEngine e f).bus = s.bus := rfl
@[simp] theorem State.modEngine_tx (e : Fin 8) (f : EngineState → EngineState) : (s.modEngine e f).tx = s.tx := rfl
@[simp] theorem State.modEngine_fresh (e : Fin 8) (f : EngineState → EngineState) : (s.modEngine e f).fresh = s.fresh := rfl
@[simp] theorem State.modEngine_free (e : Fin 8) (f : EngineState → EngineState) : (s.modEngine e f).free = s.free := rfl
@[simp] theorem State.modEngine_pending (e : Fin 8) (f : EngineState → EngineState) : (s.modEngine e f).pending = s.pending := rfl
@[simp] theorem State.modEngine_word (e : Fin 8) (f : EngineState → EngineState) (x : Nat) : (s.modEngine e f).word x = s.word x := rfl
@[simp] theorem State.modEngine_get (e : Fin 8) (f : EngineState → EngineState) (g : Field) : (s.modEngine e f).get g = s.get g := rfl

@[simp] theorem State.modPwr_regs (f : PwrState → PwrState) : (s.modPwr f).regs = s.regs := rfl
@[simp] theorem State.modPwr_pwr (f : PwrState → PwrState) : (s.modPwr f).pwr = f s.pwr := rfl
@[simp] theorem State.modPwr_time (f : PwrState → PwrState) : (s.modPwr f).time = s.time := rfl
@[simp] theorem State.modPwr_axes (f : PwrState → PwrState) : (s.modPwr f).axes = s.axes := rfl
@[simp] theorem State.modPwr_drive (f : PwrState → PwrState) : (s.modPwr f).drive = s.drive := rfl
@[simp] theorem State.modPwr_hk (f : PwrState → PwrState) : (s.modPwr f).hk = s.hk := rfl
@[simp] theorem State.modPwr_scal (f : PwrState → PwrState) : (s.modPwr f).scal = s.scal := rfl
@[simp] theorem State.modPwr_aux (f : PwrState → PwrState) : (s.modPwr f).aux = s.aux := rfl
@[simp] theorem State.modPwr_slots (f : PwrState → PwrState) : (s.modPwr f).slots = s.slots := rfl
@[simp] theorem State.modPwr_cal (f : PwrState → PwrState) : (s.modPwr f).cal = s.cal := rfl
@[simp] theorem State.modPwr_deck (f : PwrState → PwrState) : (s.modPwr f).deck = s.deck := rfl
@[simp] theorem State.modPwr_recog (f : PwrState → PwrState) : (s.modPwr f).recog = s.recog := rfl
@[simp] theorem State.modPwr_blaze (f : PwrState → PwrState) : (s.modPwr f).blaze = s.blaze := rfl
@[simp] theorem State.modPwr_engines (f : PwrState → PwrState) : (s.modPwr f).engines = s.engines := rfl
@[simp] theorem State.modPwr_an (f : PwrState → PwrState) : (s.modPwr f).an = s.an := rfl
@[simp] theorem State.modPwr_net (f : PwrState → PwrState) : (s.modPwr f).net = s.net := rfl
@[simp] theorem State.modPwr_flash (f : PwrState → PwrState) : (s.modPwr f).flash = s.flash := rfl
@[simp] theorem State.modPwr_keys (f : PwrState → PwrState) : (s.modPwr f).keys = s.keys := rfl
@[simp] theorem State.modPwr_tally (f : PwrState → PwrState) : (s.modPwr f).tally = s.tally := rfl
@[simp] theorem State.modPwr_modes (f : PwrState → PwrState) : (s.modPwr f).modes = s.modes := rfl
@[simp] theorem State.modPwr_bus (f : PwrState → PwrState) : (s.modPwr f).bus = s.bus := rfl
@[simp] theorem State.modPwr_tx (f : PwrState → PwrState) : (s.modPwr f).tx = s.tx := rfl
@[simp] theorem State.modPwr_fresh (f : PwrState → PwrState) : (s.modPwr f).fresh = s.fresh := rfl
@[simp] theorem State.modPwr_free (f : PwrState → PwrState) : (s.modPwr f).free = s.free := rfl
@[simp] theorem State.modPwr_pending (f : PwrState → PwrState) : (s.modPwr f).pending = s.pending := rfl
@[simp] theorem State.modPwr_word (f : PwrState → PwrState) (x : Nat) : (s.modPwr f).word x = s.word x := rfl
@[simp] theorem State.modPwr_get (f : PwrState → PwrState) (g : Field) : (s.modPwr f).get g = s.get g := rfl

@[simp] theorem State.modTime_regs (f : TimeState → TimeState) : (s.modTime f).regs = s.regs := rfl
@[simp] theorem State.modTime_pwr (f : TimeState → TimeState) : (s.modTime f).pwr = s.pwr := rfl
@[simp] theorem State.modTime_time (f : TimeState → TimeState) : (s.modTime f).time = f s.time := rfl
@[simp] theorem State.modTime_axes (f : TimeState → TimeState) : (s.modTime f).axes = s.axes := rfl
@[simp] theorem State.modTime_drive (f : TimeState → TimeState) : (s.modTime f).drive = s.drive := rfl
@[simp] theorem State.modTime_hk (f : TimeState → TimeState) : (s.modTime f).hk = s.hk := rfl
@[simp] theorem State.modTime_scal (f : TimeState → TimeState) : (s.modTime f).scal = s.scal := rfl
@[simp] theorem State.modTime_aux (f : TimeState → TimeState) : (s.modTime f).aux = s.aux := rfl
@[simp] theorem State.modTime_slots (f : TimeState → TimeState) : (s.modTime f).slots = s.slots := rfl
@[simp] theorem State.modTime_cal (f : TimeState → TimeState) : (s.modTime f).cal = s.cal := rfl
@[simp] theorem State.modTime_deck (f : TimeState → TimeState) : (s.modTime f).deck = s.deck := rfl
@[simp] theorem State.modTime_recog (f : TimeState → TimeState) : (s.modTime f).recog = s.recog := rfl
@[simp] theorem State.modTime_blaze (f : TimeState → TimeState) : (s.modTime f).blaze = s.blaze := rfl
@[simp] theorem State.modTime_engines (f : TimeState → TimeState) : (s.modTime f).engines = s.engines := rfl
@[simp] theorem State.modTime_an (f : TimeState → TimeState) : (s.modTime f).an = s.an := rfl
@[simp] theorem State.modTime_net (f : TimeState → TimeState) : (s.modTime f).net = s.net := rfl
@[simp] theorem State.modTime_flash (f : TimeState → TimeState) : (s.modTime f).flash = s.flash := rfl
@[simp] theorem State.modTime_keys (f : TimeState → TimeState) : (s.modTime f).keys = s.keys := rfl
@[simp] theorem State.modTime_tally (f : TimeState → TimeState) : (s.modTime f).tally = s.tally := rfl
@[simp] theorem State.modTime_modes (f : TimeState → TimeState) : (s.modTime f).modes = s.modes := rfl
@[simp] theorem State.modTime_bus (f : TimeState → TimeState) : (s.modTime f).bus = s.bus := rfl
@[simp] theorem State.modTime_tx (f : TimeState → TimeState) : (s.modTime f).tx = s.tx := rfl
@[simp] theorem State.modTime_fresh (f : TimeState → TimeState) : (s.modTime f).fresh = s.fresh := rfl
@[simp] theorem State.modTime_free (f : TimeState → TimeState) : (s.modTime f).free = s.free := rfl
@[simp] theorem State.modTime_pending (f : TimeState → TimeState) : (s.modTime f).pending = s.pending := rfl
@[simp] theorem State.modTime_word (f : TimeState → TimeState) (x : Nat) : (s.modTime f).word x = s.word x := rfl
@[simp] theorem State.modTime_get (f : TimeState → TimeState) (g : Field) : (s.modTime f).get g = s.get g := rfl

@[simp] theorem State.modModes_regs (f : ModeState → ModeState) : (s.modModes f).regs = s.regs := rfl
@[simp] theorem State.modModes_pwr (f : ModeState → ModeState) : (s.modModes f).pwr = s.pwr := rfl
@[simp] theorem State.modModes_time (f : ModeState → ModeState) : (s.modModes f).time = s.time := rfl
@[simp] theorem State.modModes_axes (f : ModeState → ModeState) : (s.modModes f).axes = s.axes := rfl
@[simp] theorem State.modModes_drive (f : ModeState → ModeState) : (s.modModes f).drive = s.drive := rfl
@[simp] theorem State.modModes_hk (f : ModeState → ModeState) : (s.modModes f).hk = s.hk := rfl
@[simp] theorem State.modModes_scal (f : ModeState → ModeState) : (s.modModes f).scal = s.scal := rfl
@[simp] theorem State.modModes_aux (f : ModeState → ModeState) : (s.modModes f).aux = s.aux := rfl
@[simp] theorem State.modModes_slots (f : ModeState → ModeState) : (s.modModes f).slots = s.slots := rfl
@[simp] theorem State.modModes_cal (f : ModeState → ModeState) : (s.modModes f).cal = s.cal := rfl
@[simp] theorem State.modModes_deck (f : ModeState → ModeState) : (s.modModes f).deck = s.deck := rfl
@[simp] theorem State.modModes_recog (f : ModeState → ModeState) : (s.modModes f).recog = s.recog := rfl
@[simp] theorem State.modModes_blaze (f : ModeState → ModeState) : (s.modModes f).blaze = s.blaze := rfl
@[simp] theorem State.modModes_engines (f : ModeState → ModeState) : (s.modModes f).engines = s.engines := rfl
@[simp] theorem State.modModes_an (f : ModeState → ModeState) : (s.modModes f).an = s.an := rfl
@[simp] theorem State.modModes_net (f : ModeState → ModeState) : (s.modModes f).net = s.net := rfl
@[simp] theorem State.modModes_flash (f : ModeState → ModeState) : (s.modModes f).flash = s.flash := rfl
@[simp] theorem State.modModes_keys (f : ModeState → ModeState) : (s.modModes f).keys = s.keys := rfl
@[simp] theorem State.modModes_tally (f : ModeState → ModeState) : (s.modModes f).tally = s.tally := rfl
@[simp] theorem State.modModes_modes (f : ModeState → ModeState) : (s.modModes f).modes = f s.modes := rfl
@[simp] theorem State.modModes_bus (f : ModeState → ModeState) : (s.modModes f).bus = s.bus := rfl
@[simp] theorem State.modModes_tx (f : ModeState → ModeState) : (s.modModes f).tx = s.tx := rfl
@[simp] theorem State.modModes_fresh (f : ModeState → ModeState) : (s.modModes f).fresh = s.fresh := rfl
@[simp] theorem State.modModes_free (f : ModeState → ModeState) : (s.modModes f).free = s.free := rfl
@[simp] theorem State.modModes_pending (f : ModeState → ModeState) : (s.modModes f).pending = s.pending := rfl
@[simp] theorem State.modModes_word (f : ModeState → ModeState) (x : Nat) : (s.modModes f).word x = s.word x := rfl
@[simp] theorem State.modModes_get (f : ModeState → ModeState) (g : Field) : (s.modModes f).get g = s.get g := rfl

@[simp] theorem State.modNet_regs (f : NetState → NetState) : (s.modNet f).regs = s.regs := rfl
@[simp] theorem State.modNet_pwr (f : NetState → NetState) : (s.modNet f).pwr = s.pwr := rfl
@[simp] theorem State.modNet_time (f : NetState → NetState) : (s.modNet f).time = s.time := rfl
@[simp] theorem State.modNet_axes (f : NetState → NetState) : (s.modNet f).axes = s.axes := rfl
@[simp] theorem State.modNet_drive (f : NetState → NetState) : (s.modNet f).drive = s.drive := rfl
@[simp] theorem State.modNet_hk (f : NetState → NetState) : (s.modNet f).hk = s.hk := rfl
@[simp] theorem State.modNet_scal (f : NetState → NetState) : (s.modNet f).scal = s.scal := rfl
@[simp] theorem State.modNet_aux (f : NetState → NetState) : (s.modNet f).aux = s.aux := rfl
@[simp] theorem State.modNet_slots (f : NetState → NetState) : (s.modNet f).slots = s.slots := rfl
@[simp] theorem State.modNet_cal (f : NetState → NetState) : (s.modNet f).cal = s.cal := rfl
@[simp] theorem State.modNet_deck (f : NetState → NetState) : (s.modNet f).deck = s.deck := rfl
@[simp] theorem State.modNet_recog (f : NetState → NetState) : (s.modNet f).recog = s.recog := rfl
@[simp] theorem State.modNet_blaze (f : NetState → NetState) : (s.modNet f).blaze = s.blaze := rfl
@[simp] theorem State.modNet_engines (f : NetState → NetState) : (s.modNet f).engines = s.engines := rfl
@[simp] theorem State.modNet_an (f : NetState → NetState) : (s.modNet f).an = s.an := rfl
@[simp] theorem State.modNet_net (f : NetState → NetState) : (s.modNet f).net = f s.net := rfl
@[simp] theorem State.modNet_flash (f : NetState → NetState) : (s.modNet f).flash = s.flash := rfl
@[simp] theorem State.modNet_keys (f : NetState → NetState) : (s.modNet f).keys = s.keys := rfl
@[simp] theorem State.modNet_tally (f : NetState → NetState) : (s.modNet f).tally = s.tally := rfl
@[simp] theorem State.modNet_modes (f : NetState → NetState) : (s.modNet f).modes = s.modes := rfl
@[simp] theorem State.modNet_bus (f : NetState → NetState) : (s.modNet f).bus = s.bus := rfl
@[simp] theorem State.modNet_tx (f : NetState → NetState) : (s.modNet f).tx = s.tx := rfl
@[simp] theorem State.modNet_fresh (f : NetState → NetState) : (s.modNet f).fresh = s.fresh := rfl
@[simp] theorem State.modNet_free (f : NetState → NetState) : (s.modNet f).free = s.free := rfl
@[simp] theorem State.modNet_pending (f : NetState → NetState) : (s.modNet f).pending = s.pending := rfl
@[simp] theorem State.modNet_word (f : NetState → NetState) (x : Nat) : (s.modNet f).word x = s.word x := rfl
@[simp] theorem State.modNet_get (f : NetState → NetState) (g : Field) : (s.modNet f).get g = s.get g := rfl

@[simp] theorem State.modTally_regs (f : TallyState → TallyState) : (s.modTally f).regs = s.regs := rfl
@[simp] theorem State.modTally_pwr (f : TallyState → TallyState) : (s.modTally f).pwr = s.pwr := rfl
@[simp] theorem State.modTally_time (f : TallyState → TallyState) : (s.modTally f).time = s.time := rfl
@[simp] theorem State.modTally_axes (f : TallyState → TallyState) : (s.modTally f).axes = s.axes := rfl
@[simp] theorem State.modTally_drive (f : TallyState → TallyState) : (s.modTally f).drive = s.drive := rfl
@[simp] theorem State.modTally_hk (f : TallyState → TallyState) : (s.modTally f).hk = s.hk := rfl
@[simp] theorem State.modTally_scal (f : TallyState → TallyState) : (s.modTally f).scal = s.scal := rfl
@[simp] theorem State.modTally_aux (f : TallyState → TallyState) : (s.modTally f).aux = s.aux := rfl
@[simp] theorem State.modTally_slots (f : TallyState → TallyState) : (s.modTally f).slots = s.slots := rfl
@[simp] theorem State.modTally_cal (f : TallyState → TallyState) : (s.modTally f).cal = s.cal := rfl
@[simp] theorem State.modTally_deck (f : TallyState → TallyState) : (s.modTally f).deck = s.deck := rfl
@[simp] theorem State.modTally_recog (f : TallyState → TallyState) : (s.modTally f).recog = s.recog := rfl
@[simp] theorem State.modTally_blaze (f : TallyState → TallyState) : (s.modTally f).blaze = s.blaze := rfl
@[simp] theorem State.modTally_engines (f : TallyState → TallyState) : (s.modTally f).engines = s.engines := rfl
@[simp] theorem State.modTally_an (f : TallyState → TallyState) : (s.modTally f).an = s.an := rfl
@[simp] theorem State.modTally_net (f : TallyState → TallyState) : (s.modTally f).net = s.net := rfl
@[simp] theorem State.modTally_flash (f : TallyState → TallyState) : (s.modTally f).flash = s.flash := rfl
@[simp] theorem State.modTally_keys (f : TallyState → TallyState) : (s.modTally f).keys = s.keys := rfl
@[simp] theorem State.modTally_tally (f : TallyState → TallyState) : (s.modTally f).tally = f s.tally := rfl
@[simp] theorem State.modTally_modes (f : TallyState → TallyState) : (s.modTally f).modes = s.modes := rfl
@[simp] theorem State.modTally_bus (f : TallyState → TallyState) : (s.modTally f).bus = s.bus := rfl
@[simp] theorem State.modTally_tx (f : TallyState → TallyState) : (s.modTally f).tx = s.tx := rfl
@[simp] theorem State.modTally_fresh (f : TallyState → TallyState) : (s.modTally f).fresh = s.fresh := rfl
@[simp] theorem State.modTally_free (f : TallyState → TallyState) : (s.modTally f).free = s.free := rfl
@[simp] theorem State.modTally_pending (f : TallyState → TallyState) : (s.modTally f).pending = s.pending := rfl
@[simp] theorem State.modTally_word (f : TallyState → TallyState) (x : Nat) : (s.modTally f).word x = s.word x := rfl
@[simp] theorem State.modTally_get (f : TallyState → TallyState) (g : Field) : (s.modTally f).get g = s.get g := rfl

@[simp] theorem State.modRecog_regs (f : RecogState → RecogState) : (s.modRecog f).regs = s.regs := rfl
@[simp] theorem State.modRecog_pwr (f : RecogState → RecogState) : (s.modRecog f).pwr = s.pwr := rfl
@[simp] theorem State.modRecog_time (f : RecogState → RecogState) : (s.modRecog f).time = s.time := rfl
@[simp] theorem State.modRecog_axes (f : RecogState → RecogState) : (s.modRecog f).axes = s.axes := rfl
@[simp] theorem State.modRecog_drive (f : RecogState → RecogState) : (s.modRecog f).drive = s.drive := rfl
@[simp] theorem State.modRecog_hk (f : RecogState → RecogState) : (s.modRecog f).hk = s.hk := rfl
@[simp] theorem State.modRecog_scal (f : RecogState → RecogState) : (s.modRecog f).scal = s.scal := rfl
@[simp] theorem State.modRecog_aux (f : RecogState → RecogState) : (s.modRecog f).aux = s.aux := rfl
@[simp] theorem State.modRecog_slots (f : RecogState → RecogState) : (s.modRecog f).slots = s.slots := rfl
@[simp] theorem State.modRecog_cal (f : RecogState → RecogState) : (s.modRecog f).cal = s.cal := rfl
@[simp] theorem State.modRecog_deck (f : RecogState → RecogState) : (s.modRecog f).deck = s.deck := rfl
@[simp] theorem State.modRecog_recog (f : RecogState → RecogState) : (s.modRecog f).recog = f s.recog := rfl
@[simp] theorem State.modRecog_blaze (f : RecogState → RecogState) : (s.modRecog f).blaze = s.blaze := rfl
@[simp] theorem State.modRecog_engines (f : RecogState → RecogState) : (s.modRecog f).engines = s.engines := rfl
@[simp] theorem State.modRecog_an (f : RecogState → RecogState) : (s.modRecog f).an = s.an := rfl
@[simp] theorem State.modRecog_net (f : RecogState → RecogState) : (s.modRecog f).net = s.net := rfl
@[simp] theorem State.modRecog_flash (f : RecogState → RecogState) : (s.modRecog f).flash = s.flash := rfl
@[simp] theorem State.modRecog_keys (f : RecogState → RecogState) : (s.modRecog f).keys = s.keys := rfl
@[simp] theorem State.modRecog_tally (f : RecogState → RecogState) : (s.modRecog f).tally = s.tally := rfl
@[simp] theorem State.modRecog_modes (f : RecogState → RecogState) : (s.modRecog f).modes = s.modes := rfl
@[simp] theorem State.modRecog_bus (f : RecogState → RecogState) : (s.modRecog f).bus = s.bus := rfl
@[simp] theorem State.modRecog_tx (f : RecogState → RecogState) : (s.modRecog f).tx = s.tx := rfl
@[simp] theorem State.modRecog_fresh (f : RecogState → RecogState) : (s.modRecog f).fresh = s.fresh := rfl
@[simp] theorem State.modRecog_free (f : RecogState → RecogState) : (s.modRecog f).free = s.free := rfl
@[simp] theorem State.modRecog_pending (f : RecogState → RecogState) : (s.modRecog f).pending = s.pending := rfl
@[simp] theorem State.modRecog_word (f : RecogState → RecogState) (x : Nat) : (s.modRecog f).word x = s.word x := rfl
@[simp] theorem State.modRecog_get (f : RecogState → RecogState) (g : Field) : (s.modRecog f).get g = s.get g := rfl

@[simp] theorem State.modCal_regs (i : Fin 10) (f : CalAxis → CalAxis) : (s.modCal i f).regs = s.regs := rfl
@[simp] theorem State.modCal_pwr (i : Fin 10) (f : CalAxis → CalAxis) : (s.modCal i f).pwr = s.pwr := rfl
@[simp] theorem State.modCal_time (i : Fin 10) (f : CalAxis → CalAxis) : (s.modCal i f).time = s.time := rfl
@[simp] theorem State.modCal_axes (i : Fin 10) (f : CalAxis → CalAxis) : (s.modCal i f).axes = s.axes := rfl
@[simp] theorem State.modCal_drive (i : Fin 10) (f : CalAxis → CalAxis) : (s.modCal i f).drive = s.drive := rfl
@[simp] theorem State.modCal_hk (i : Fin 10) (f : CalAxis → CalAxis) : (s.modCal i f).hk = s.hk := rfl
@[simp] theorem State.modCal_scal (i : Fin 10) (f : CalAxis → CalAxis) : (s.modCal i f).scal = s.scal := rfl
@[simp] theorem State.modCal_aux (i : Fin 10) (f : CalAxis → CalAxis) : (s.modCal i f).aux = s.aux := rfl
@[simp] theorem State.modCal_slots (i : Fin 10) (f : CalAxis → CalAxis) : (s.modCal i f).slots = s.slots := rfl
@[simp] theorem State.modCal_cal (i : Fin 10) (f : CalAxis → CalAxis) : (s.modCal i f).cal = { s.cal with axes := s.cal.axes.set i (f s.cal.axes[i]) } := rfl
@[simp] theorem State.modCal_deck (i : Fin 10) (f : CalAxis → CalAxis) : (s.modCal i f).deck = s.deck := rfl
@[simp] theorem State.modCal_recog (i : Fin 10) (f : CalAxis → CalAxis) : (s.modCal i f).recog = s.recog := rfl
@[simp] theorem State.modCal_blaze (i : Fin 10) (f : CalAxis → CalAxis) : (s.modCal i f).blaze = s.blaze := rfl
@[simp] theorem State.modCal_engines (i : Fin 10) (f : CalAxis → CalAxis) : (s.modCal i f).engines = s.engines := rfl
@[simp] theorem State.modCal_an (i : Fin 10) (f : CalAxis → CalAxis) : (s.modCal i f).an = s.an := rfl
@[simp] theorem State.modCal_net (i : Fin 10) (f : CalAxis → CalAxis) : (s.modCal i f).net = s.net := rfl
@[simp] theorem State.modCal_flash (i : Fin 10) (f : CalAxis → CalAxis) : (s.modCal i f).flash = s.flash := rfl
@[simp] theorem State.modCal_keys (i : Fin 10) (f : CalAxis → CalAxis) : (s.modCal i f).keys = s.keys := rfl
@[simp] theorem State.modCal_tally (i : Fin 10) (f : CalAxis → CalAxis) : (s.modCal i f).tally = s.tally := rfl
@[simp] theorem State.modCal_modes (i : Fin 10) (f : CalAxis → CalAxis) : (s.modCal i f).modes = s.modes := rfl
@[simp] theorem State.modCal_bus (i : Fin 10) (f : CalAxis → CalAxis) : (s.modCal i f).bus = s.bus := rfl
@[simp] theorem State.modCal_tx (i : Fin 10) (f : CalAxis → CalAxis) : (s.modCal i f).tx = s.tx := rfl
@[simp] theorem State.modCal_fresh (i : Fin 10) (f : CalAxis → CalAxis) : (s.modCal i f).fresh = s.fresh := rfl
@[simp] theorem State.modCal_free (i : Fin 10) (f : CalAxis → CalAxis) : (s.modCal i f).free = s.free := rfl
@[simp] theorem State.modCal_pending (i : Fin 10) (f : CalAxis → CalAxis) : (s.modCal i f).pending = s.pending := rfl
@[simp] theorem State.modCal_word (i : Fin 10) (f : CalAxis → CalAxis) (x : Nat) : (s.modCal i f).word x = s.word x := rfl
@[simp] theorem State.modCal_get (i : Fin 10) (f : CalAxis → CalAxis) (g : Field) : (s.modCal i f).get g = s.get g := rfl

@[simp] theorem State.modRing_regs (i : Fin 16) (f : Ring → Ring) : (s.modRing i f).regs = s.regs := rfl
@[simp] theorem State.modRing_pwr (i : Fin 16) (f : Ring → Ring) : (s.modRing i f).pwr = s.pwr := rfl
@[simp] theorem State.modRing_time (i : Fin 16) (f : Ring → Ring) : (s.modRing i f).time = s.time := rfl
@[simp] theorem State.modRing_axes (i : Fin 16) (f : Ring → Ring) : (s.modRing i f).axes = s.axes := rfl
@[simp] theorem State.modRing_drive (i : Fin 16) (f : Ring → Ring) : (s.modRing i f).drive = s.drive := rfl
@[simp] theorem State.modRing_hk (i : Fin 16) (f : Ring → Ring) : (s.modRing i f).hk = s.hk := rfl
@[simp] theorem State.modRing_scal (i : Fin 16) (f : Ring → Ring) : (s.modRing i f).scal = s.scal := rfl
@[simp] theorem State.modRing_aux (i : Fin 16) (f : Ring → Ring) : (s.modRing i f).aux = s.aux := rfl
@[simp] theorem State.modRing_slots (i : Fin 16) (f : Ring → Ring) : (s.modRing i f).slots = s.slots := rfl
@[simp] theorem State.modRing_cal (i : Fin 16) (f : Ring → Ring) : (s.modRing i f).cal = s.cal := rfl
@[simp] theorem State.modRing_deck (i : Fin 16) (f : Ring → Ring) : (s.modRing i f).deck = { s.deck with rings := s.deck.rings.set i (f s.deck.rings[i]) } := rfl
@[simp] theorem State.modRing_recog (i : Fin 16) (f : Ring → Ring) : (s.modRing i f).recog = s.recog := rfl
@[simp] theorem State.modRing_blaze (i : Fin 16) (f : Ring → Ring) : (s.modRing i f).blaze = s.blaze := rfl
@[simp] theorem State.modRing_engines (i : Fin 16) (f : Ring → Ring) : (s.modRing i f).engines = s.engines := rfl
@[simp] theorem State.modRing_an (i : Fin 16) (f : Ring → Ring) : (s.modRing i f).an = s.an := rfl
@[simp] theorem State.modRing_net (i : Fin 16) (f : Ring → Ring) : (s.modRing i f).net = s.net := rfl
@[simp] theorem State.modRing_flash (i : Fin 16) (f : Ring → Ring) : (s.modRing i f).flash = s.flash := rfl
@[simp] theorem State.modRing_keys (i : Fin 16) (f : Ring → Ring) : (s.modRing i f).keys = s.keys := rfl
@[simp] theorem State.modRing_tally (i : Fin 16) (f : Ring → Ring) : (s.modRing i f).tally = s.tally := rfl
@[simp] theorem State.modRing_modes (i : Fin 16) (f : Ring → Ring) : (s.modRing i f).modes = s.modes := rfl
@[simp] theorem State.modRing_bus (i : Fin 16) (f : Ring → Ring) : (s.modRing i f).bus = s.bus := rfl
@[simp] theorem State.modRing_tx (i : Fin 16) (f : Ring → Ring) : (s.modRing i f).tx = s.tx := rfl
@[simp] theorem State.modRing_fresh (i : Fin 16) (f : Ring → Ring) : (s.modRing i f).fresh = s.fresh := rfl
@[simp] theorem State.modRing_free (i : Fin 16) (f : Ring → Ring) : (s.modRing i f).free = s.free := rfl
@[simp] theorem State.modRing_pending (i : Fin 16) (f : Ring → Ring) : (s.modRing i f).pending = s.pending := rfl
@[simp] theorem State.modRing_word (i : Fin 16) (f : Ring → Ring) (x : Nat) : (s.modRing i f).word x = s.word x := rfl
@[simp] theorem State.modRing_get (i : Fin 16) (f : Ring → Ring) (g : Field) : (s.modRing i f).get g = s.get g := rfl

@[simp] theorem State.modCap_regs (c : Fin 16) (f : Capture → Capture) : (s.modCap c f).regs = s.regs := rfl
@[simp] theorem State.modCap_pwr (c : Fin 16) (f : Capture → Capture) : (s.modCap c f).pwr = s.pwr := rfl
@[simp] theorem State.modCap_time (c : Fin 16) (f : Capture → Capture) : (s.modCap c f).time = s.time := rfl
@[simp] theorem State.modCap_axes (c : Fin 16) (f : Capture → Capture) : (s.modCap c f).axes = s.axes := rfl
@[simp] theorem State.modCap_drive (c : Fin 16) (f : Capture → Capture) : (s.modCap c f).drive = s.drive := rfl
@[simp] theorem State.modCap_hk (c : Fin 16) (f : Capture → Capture) : (s.modCap c f).hk = s.hk := rfl
@[simp] theorem State.modCap_scal (c : Fin 16) (f : Capture → Capture) : (s.modCap c f).scal = s.scal := rfl
@[simp] theorem State.modCap_aux (c : Fin 16) (f : Capture → Capture) : (s.modCap c f).aux = s.aux := rfl
@[simp] theorem State.modCap_slots (c : Fin 16) (f : Capture → Capture) : (s.modCap c f).slots = s.slots := rfl
@[simp] theorem State.modCap_cal (c : Fin 16) (f : Capture → Capture) : (s.modCap c f).cal = s.cal := rfl
@[simp] theorem State.modCap_deck (c : Fin 16) (f : Capture → Capture) : (s.modCap c f).deck = { s.deck with caps := s.deck.caps.set c (f s.deck.caps[c]) } := rfl
@[simp] theorem State.modCap_recog (c : Fin 16) (f : Capture → Capture) : (s.modCap c f).recog = s.recog := rfl
@[simp] theorem State.modCap_blaze (c : Fin 16) (f : Capture → Capture) : (s.modCap c f).blaze = s.blaze := rfl
@[simp] theorem State.modCap_engines (c : Fin 16) (f : Capture → Capture) : (s.modCap c f).engines = s.engines := rfl
@[simp] theorem State.modCap_an (c : Fin 16) (f : Capture → Capture) : (s.modCap c f).an = s.an := rfl
@[simp] theorem State.modCap_net (c : Fin 16) (f : Capture → Capture) : (s.modCap c f).net = s.net := rfl
@[simp] theorem State.modCap_flash (c : Fin 16) (f : Capture → Capture) : (s.modCap c f).flash = s.flash := rfl
@[simp] theorem State.modCap_keys (c : Fin 16) (f : Capture → Capture) : (s.modCap c f).keys = s.keys := rfl
@[simp] theorem State.modCap_tally (c : Fin 16) (f : Capture → Capture) : (s.modCap c f).tally = s.tally := rfl
@[simp] theorem State.modCap_modes (c : Fin 16) (f : Capture → Capture) : (s.modCap c f).modes = s.modes := rfl
@[simp] theorem State.modCap_bus (c : Fin 16) (f : Capture → Capture) : (s.modCap c f).bus = s.bus := rfl
@[simp] theorem State.modCap_tx (c : Fin 16) (f : Capture → Capture) : (s.modCap c f).tx = s.tx := rfl
@[simp] theorem State.modCap_fresh (c : Fin 16) (f : Capture → Capture) : (s.modCap c f).fresh = s.fresh := rfl
@[simp] theorem State.modCap_free (c : Fin 16) (f : Capture → Capture) : (s.modCap c f).free = s.free := rfl
@[simp] theorem State.modCap_pending (c : Fin 16) (f : Capture → Capture) : (s.modCap c f).pending = s.pending := rfl
@[simp] theorem State.modCap_word (c : Fin 16) (f : Capture → Capture) (x : Nat) : (s.modCap c f).word x = s.word x := rfl
@[simp] theorem State.modCap_get (c : Fin 16) (f : Capture → Capture) (g : Field) : (s.modCap c f).get g = s.get g := rfl

@[simp] theorem State.modLease_regs (l : Fin 32) (f : LeaseInfo → LeaseInfo) : (s.modLease l f).regs = s.regs := rfl
@[simp] theorem State.modLease_pwr (l : Fin 32) (f : LeaseInfo → LeaseInfo) : (s.modLease l f).pwr = s.pwr := rfl
@[simp] theorem State.modLease_time (l : Fin 32) (f : LeaseInfo → LeaseInfo) : (s.modLease l f).time = s.time := rfl
@[simp] theorem State.modLease_axes (l : Fin 32) (f : LeaseInfo → LeaseInfo) : (s.modLease l f).axes = s.axes := rfl
@[simp] theorem State.modLease_drive (l : Fin 32) (f : LeaseInfo → LeaseInfo) : (s.modLease l f).drive = s.drive := rfl
@[simp] theorem State.modLease_hk (l : Fin 32) (f : LeaseInfo → LeaseInfo) : (s.modLease l f).hk = s.hk := rfl
@[simp] theorem State.modLease_scal (l : Fin 32) (f : LeaseInfo → LeaseInfo) : (s.modLease l f).scal = s.scal := rfl
@[simp] theorem State.modLease_aux (l : Fin 32) (f : LeaseInfo → LeaseInfo) : (s.modLease l f).aux = s.aux := rfl
@[simp] theorem State.modLease_slots (l : Fin 32) (f : LeaseInfo → LeaseInfo) : (s.modLease l f).slots = s.slots := rfl
@[simp] theorem State.modLease_cal (l : Fin 32) (f : LeaseInfo → LeaseInfo) : (s.modLease l f).cal = s.cal := rfl
@[simp] theorem State.modLease_deck (l : Fin 32) (f : LeaseInfo → LeaseInfo) : (s.modLease l f).deck = { s.deck with leases := s.deck.leases.set l (f s.deck.leases[l]) } := rfl
@[simp] theorem State.modLease_recog (l : Fin 32) (f : LeaseInfo → LeaseInfo) : (s.modLease l f).recog = s.recog := rfl
@[simp] theorem State.modLease_blaze (l : Fin 32) (f : LeaseInfo → LeaseInfo) : (s.modLease l f).blaze = s.blaze := rfl
@[simp] theorem State.modLease_engines (l : Fin 32) (f : LeaseInfo → LeaseInfo) : (s.modLease l f).engines = s.engines := rfl
@[simp] theorem State.modLease_an (l : Fin 32) (f : LeaseInfo → LeaseInfo) : (s.modLease l f).an = s.an := rfl
@[simp] theorem State.modLease_net (l : Fin 32) (f : LeaseInfo → LeaseInfo) : (s.modLease l f).net = s.net := rfl
@[simp] theorem State.modLease_flash (l : Fin 32) (f : LeaseInfo → LeaseInfo) : (s.modLease l f).flash = s.flash := rfl
@[simp] theorem State.modLease_keys (l : Fin 32) (f : LeaseInfo → LeaseInfo) : (s.modLease l f).keys = s.keys := rfl
@[simp] theorem State.modLease_tally (l : Fin 32) (f : LeaseInfo → LeaseInfo) : (s.modLease l f).tally = s.tally := rfl
@[simp] theorem State.modLease_modes (l : Fin 32) (f : LeaseInfo → LeaseInfo) : (s.modLease l f).modes = s.modes := rfl
@[simp] theorem State.modLease_bus (l : Fin 32) (f : LeaseInfo → LeaseInfo) : (s.modLease l f).bus = s.bus := rfl
@[simp] theorem State.modLease_tx (l : Fin 32) (f : LeaseInfo → LeaseInfo) : (s.modLease l f).tx = s.tx := rfl
@[simp] theorem State.modLease_fresh (l : Fin 32) (f : LeaseInfo → LeaseInfo) : (s.modLease l f).fresh = s.fresh := rfl
@[simp] theorem State.modLease_free (l : Fin 32) (f : LeaseInfo → LeaseInfo) : (s.modLease l f).free = s.free := rfl
@[simp] theorem State.modLease_pending (l : Fin 32) (f : LeaseInfo → LeaseInfo) : (s.modLease l f).pending = s.pending := rfl
@[simp] theorem State.modLease_word (l : Fin 32) (f : LeaseInfo → LeaseInfo) (x : Nat) : (s.modLease l f).word x = s.word x := rfl
@[simp] theorem State.modLease_get (l : Fin 32) (f : LeaseInfo → LeaseInfo) (g : Field) : (s.modLease l f).get g = s.get g := rfl

@[simp] theorem State.modLand_regs (i : Fin 16) (f : LandSlot → LandSlot) : (s.modLand i f).regs = s.regs := rfl
@[simp] theorem State.modLand_pwr (i : Fin 16) (f : LandSlot → LandSlot) : (s.modLand i f).pwr = s.pwr := rfl
@[simp] theorem State.modLand_time (i : Fin 16) (f : LandSlot → LandSlot) : (s.modLand i f).time = s.time := rfl
@[simp] theorem State.modLand_axes (i : Fin 16) (f : LandSlot → LandSlot) : (s.modLand i f).axes = s.axes := rfl
@[simp] theorem State.modLand_drive (i : Fin 16) (f : LandSlot → LandSlot) : (s.modLand i f).drive = s.drive := rfl
@[simp] theorem State.modLand_hk (i : Fin 16) (f : LandSlot → LandSlot) : (s.modLand i f).hk = s.hk := rfl
@[simp] theorem State.modLand_scal (i : Fin 16) (f : LandSlot → LandSlot) : (s.modLand i f).scal = s.scal := rfl
@[simp] theorem State.modLand_aux (i : Fin 16) (f : LandSlot → LandSlot) : (s.modLand i f).aux = s.aux := rfl
@[simp] theorem State.modLand_slots (i : Fin 16) (f : LandSlot → LandSlot) : (s.modLand i f).slots = s.slots := rfl
@[simp] theorem State.modLand_cal (i : Fin 16) (f : LandSlot → LandSlot) : (s.modLand i f).cal = s.cal := rfl
@[simp] theorem State.modLand_deck (i : Fin 16) (f : LandSlot → LandSlot) : (s.modLand i f).deck = { s.deck with land := s.deck.land.set i (f s.deck.land[i]) } := rfl
@[simp] theorem State.modLand_recog (i : Fin 16) (f : LandSlot → LandSlot) : (s.modLand i f).recog = s.recog := rfl
@[simp] theorem State.modLand_blaze (i : Fin 16) (f : LandSlot → LandSlot) : (s.modLand i f).blaze = s.blaze := rfl
@[simp] theorem State.modLand_engines (i : Fin 16) (f : LandSlot → LandSlot) : (s.modLand i f).engines = s.engines := rfl
@[simp] theorem State.modLand_an (i : Fin 16) (f : LandSlot → LandSlot) : (s.modLand i f).an = s.an := rfl
@[simp] theorem State.modLand_net (i : Fin 16) (f : LandSlot → LandSlot) : (s.modLand i f).net = s.net := rfl
@[simp] theorem State.modLand_flash (i : Fin 16) (f : LandSlot → LandSlot) : (s.modLand i f).flash = s.flash := rfl
@[simp] theorem State.modLand_keys (i : Fin 16) (f : LandSlot → LandSlot) : (s.modLand i f).keys = s.keys := rfl
@[simp] theorem State.modLand_tally (i : Fin 16) (f : LandSlot → LandSlot) : (s.modLand i f).tally = s.tally := rfl
@[simp] theorem State.modLand_modes (i : Fin 16) (f : LandSlot → LandSlot) : (s.modLand i f).modes = s.modes := rfl
@[simp] theorem State.modLand_bus (i : Fin 16) (f : LandSlot → LandSlot) : (s.modLand i f).bus = s.bus := rfl
@[simp] theorem State.modLand_tx (i : Fin 16) (f : LandSlot → LandSlot) : (s.modLand i f).tx = s.tx := rfl
@[simp] theorem State.modLand_fresh (i : Fin 16) (f : LandSlot → LandSlot) : (s.modLand i f).fresh = s.fresh := rfl
@[simp] theorem State.modLand_free (i : Fin 16) (f : LandSlot → LandSlot) : (s.modLand i f).free = s.free := rfl
@[simp] theorem State.modLand_pending (i : Fin 16) (f : LandSlot → LandSlot) : (s.modLand i f).pending = s.pending := rfl
@[simp] theorem State.modLand_word (i : Fin 16) (f : LandSlot → LandSlot) (x : Nat) : (s.modLand i f).word x = s.word x := rfl
@[simp] theorem State.modLand_get (i : Fin 16) (f : LandSlot → LandSlot) (g : Field) : (s.modLand i f).get g = s.get g := rfl

@[simp] theorem State.modStream_regs (k : Fin 16) (f : StreamState → StreamState) : (s.modStream k f).regs = s.regs := rfl
@[simp] theorem State.modStream_pwr (k : Fin 16) (f : StreamState → StreamState) : (s.modStream k f).pwr = s.pwr := rfl
@[simp] theorem State.modStream_time (k : Fin 16) (f : StreamState → StreamState) : (s.modStream k f).time = s.time := rfl
@[simp] theorem State.modStream_axes (k : Fin 16) (f : StreamState → StreamState) : (s.modStream k f).axes = s.axes := rfl
@[simp] theorem State.modStream_drive (k : Fin 16) (f : StreamState → StreamState) : (s.modStream k f).drive = s.drive := rfl
@[simp] theorem State.modStream_hk (k : Fin 16) (f : StreamState → StreamState) : (s.modStream k f).hk = s.hk := rfl
@[simp] theorem State.modStream_scal (k : Fin 16) (f : StreamState → StreamState) : (s.modStream k f).scal = s.scal := rfl
@[simp] theorem State.modStream_aux (k : Fin 16) (f : StreamState → StreamState) : (s.modStream k f).aux = s.aux := rfl
@[simp] theorem State.modStream_slots (k : Fin 16) (f : StreamState → StreamState) : (s.modStream k f).slots = s.slots := rfl
@[simp] theorem State.modStream_cal (k : Fin 16) (f : StreamState → StreamState) : (s.modStream k f).cal = s.cal := rfl
@[simp] theorem State.modStream_deck (k : Fin 16) (f : StreamState → StreamState) : (s.modStream k f).deck = s.deck := rfl
@[simp] theorem State.modStream_recog (k : Fin 16) (f : StreamState → StreamState) : (s.modStream k f).recog = s.recog := rfl
@[simp] theorem State.modStream_blaze (k : Fin 16) (f : StreamState → StreamState) : (s.modStream k f).blaze = s.blaze := rfl
@[simp] theorem State.modStream_engines (k : Fin 16) (f : StreamState → StreamState) : (s.modStream k f).engines = s.engines := rfl
@[simp] theorem State.modStream_an (k : Fin 16) (f : StreamState → StreamState) : (s.modStream k f).an = s.an := rfl
@[simp] theorem State.modStream_net (k : Fin 16) (f : StreamState → StreamState) : (s.modStream k f).net = { s.net with streams := s.net.streams.set k (f s.net.streams[k]) } := rfl
@[simp] theorem State.modStream_flash (k : Fin 16) (f : StreamState → StreamState) : (s.modStream k f).flash = s.flash := rfl
@[simp] theorem State.modStream_keys (k : Fin 16) (f : StreamState → StreamState) : (s.modStream k f).keys = s.keys := rfl
@[simp] theorem State.modStream_tally (k : Fin 16) (f : StreamState → StreamState) : (s.modStream k f).tally = s.tally := rfl
@[simp] theorem State.modStream_modes (k : Fin 16) (f : StreamState → StreamState) : (s.modStream k f).modes = s.modes := rfl
@[simp] theorem State.modStream_bus (k : Fin 16) (f : StreamState → StreamState) : (s.modStream k f).bus = s.bus := rfl
@[simp] theorem State.modStream_tx (k : Fin 16) (f : StreamState → StreamState) : (s.modStream k f).tx = s.tx := rfl
@[simp] theorem State.modStream_fresh (k : Fin 16) (f : StreamState → StreamState) : (s.modStream k f).fresh = s.fresh := rfl
@[simp] theorem State.modStream_free (k : Fin 16) (f : StreamState → StreamState) : (s.modStream k f).free = s.free := rfl
@[simp] theorem State.modStream_pending (k : Fin 16) (f : StreamState → StreamState) : (s.modStream k f).pending = s.pending := rfl
@[simp] theorem State.modStream_word (k : Fin 16) (f : StreamState → StreamState) (x : Nat) : (s.modStream k f).word x = s.word x := rfl
@[simp] theorem State.modStream_get (k : Fin 16) (f : StreamState → StreamState) (g : Field) : (s.modStream k f).get g = s.get g := rfl

@[simp] theorem State.modSetup_regs (n : Fin 32) (f : SetupState → SetupState) : (s.modSetup n f).regs = s.regs := rfl
@[simp] theorem State.modSetup_pwr (n : Fin 32) (f : SetupState → SetupState) : (s.modSetup n f).pwr = s.pwr := rfl
@[simp] theorem State.modSetup_time (n : Fin 32) (f : SetupState → SetupState) : (s.modSetup n f).time = s.time := rfl
@[simp] theorem State.modSetup_axes (n : Fin 32) (f : SetupState → SetupState) : (s.modSetup n f).axes = s.axes := rfl
@[simp] theorem State.modSetup_drive (n : Fin 32) (f : SetupState → SetupState) : (s.modSetup n f).drive = s.drive := rfl
@[simp] theorem State.modSetup_hk (n : Fin 32) (f : SetupState → SetupState) : (s.modSetup n f).hk = s.hk := rfl
@[simp] theorem State.modSetup_scal (n : Fin 32) (f : SetupState → SetupState) : (s.modSetup n f).scal = s.scal := rfl
@[simp] theorem State.modSetup_aux (n : Fin 32) (f : SetupState → SetupState) : (s.modSetup n f).aux = s.aux := rfl
@[simp] theorem State.modSetup_slots (n : Fin 32) (f : SetupState → SetupState) : (s.modSetup n f).slots = s.slots := rfl
@[simp] theorem State.modSetup_cal (n : Fin 32) (f : SetupState → SetupState) : (s.modSetup n f).cal = s.cal := rfl
@[simp] theorem State.modSetup_deck (n : Fin 32) (f : SetupState → SetupState) : (s.modSetup n f).deck = s.deck := rfl
@[simp] theorem State.modSetup_recog (n : Fin 32) (f : SetupState → SetupState) : (s.modSetup n f).recog = s.recog := rfl
@[simp] theorem State.modSetup_blaze (n : Fin 32) (f : SetupState → SetupState) : (s.modSetup n f).blaze = s.blaze := rfl
@[simp] theorem State.modSetup_engines (n : Fin 32) (f : SetupState → SetupState) : (s.modSetup n f).engines = s.engines := rfl
@[simp] theorem State.modSetup_an (n : Fin 32) (f : SetupState → SetupState) : (s.modSetup n f).an = { s.an with setups := s.an.setups.set n (f s.an.setups[n]) } := rfl
@[simp] theorem State.modSetup_net (n : Fin 32) (f : SetupState → SetupState) : (s.modSetup n f).net = s.net := rfl
@[simp] theorem State.modSetup_flash (n : Fin 32) (f : SetupState → SetupState) : (s.modSetup n f).flash = s.flash := rfl
@[simp] theorem State.modSetup_keys (n : Fin 32) (f : SetupState → SetupState) : (s.modSetup n f).keys = s.keys := rfl
@[simp] theorem State.modSetup_tally (n : Fin 32) (f : SetupState → SetupState) : (s.modSetup n f).tally = s.tally := rfl
@[simp] theorem State.modSetup_modes (n : Fin 32) (f : SetupState → SetupState) : (s.modSetup n f).modes = s.modes := rfl
@[simp] theorem State.modSetup_bus (n : Fin 32) (f : SetupState → SetupState) : (s.modSetup n f).bus = s.bus := rfl
@[simp] theorem State.modSetup_tx (n : Fin 32) (f : SetupState → SetupState) : (s.modSetup n f).tx = s.tx := rfl
@[simp] theorem State.modSetup_fresh (n : Fin 32) (f : SetupState → SetupState) : (s.modSetup n f).fresh = s.fresh := rfl
@[simp] theorem State.modSetup_free (n : Fin 32) (f : SetupState → SetupState) : (s.modSetup n f).free = s.free := rfl
@[simp] theorem State.modSetup_pending (n : Fin 32) (f : SetupState → SetupState) : (s.modSetup n f).pending = s.pending := rfl
@[simp] theorem State.modSetup_word (n : Fin 32) (f : SetupState → SetupState) (x : Nat) : (s.modSetup n f).word x = s.word x := rfl
@[simp] theorem State.modSetup_get (n : Fin 32) (f : SetupState → SetupState) (g : Field) : (s.modSetup n f).get g = s.get g := rfl

@[simp] theorem State.modAlarm_regs (a : Fin 32) (f : AlarmState → AlarmState) : (s.modAlarm a f).regs = s.regs := rfl
@[simp] theorem State.modAlarm_pwr (a : Fin 32) (f : AlarmState → AlarmState) : (s.modAlarm a f).pwr = s.pwr := rfl
@[simp] theorem State.modAlarm_time (a : Fin 32) (f : AlarmState → AlarmState) : (s.modAlarm a f).time = s.time := rfl
@[simp] theorem State.modAlarm_axes (a : Fin 32) (f : AlarmState → AlarmState) : (s.modAlarm a f).axes = s.axes := rfl
@[simp] theorem State.modAlarm_drive (a : Fin 32) (f : AlarmState → AlarmState) : (s.modAlarm a f).drive = s.drive := rfl
@[simp] theorem State.modAlarm_hk (a : Fin 32) (f : AlarmState → AlarmState) : (s.modAlarm a f).hk = s.hk := rfl
@[simp] theorem State.modAlarm_scal (a : Fin 32) (f : AlarmState → AlarmState) : (s.modAlarm a f).scal = s.scal := rfl
@[simp] theorem State.modAlarm_aux (a : Fin 32) (f : AlarmState → AlarmState) : (s.modAlarm a f).aux = s.aux := rfl
@[simp] theorem State.modAlarm_slots (a : Fin 32) (f : AlarmState → AlarmState) : (s.modAlarm a f).slots = s.slots := rfl
@[simp] theorem State.modAlarm_cal (a : Fin 32) (f : AlarmState → AlarmState) : (s.modAlarm a f).cal = s.cal := rfl
@[simp] theorem State.modAlarm_deck (a : Fin 32) (f : AlarmState → AlarmState) : (s.modAlarm a f).deck = s.deck := rfl
@[simp] theorem State.modAlarm_recog (a : Fin 32) (f : AlarmState → AlarmState) : (s.modAlarm a f).recog = s.recog := rfl
@[simp] theorem State.modAlarm_blaze (a : Fin 32) (f : AlarmState → AlarmState) : (s.modAlarm a f).blaze = s.blaze := rfl
@[simp] theorem State.modAlarm_engines (a : Fin 32) (f : AlarmState → AlarmState) : (s.modAlarm a f).engines = s.engines := rfl
@[simp] theorem State.modAlarm_an (a : Fin 32) (f : AlarmState → AlarmState) : (s.modAlarm a f).an = { s.an with alarms := s.an.alarms.set a (f s.an.alarms[a]) } := rfl
@[simp] theorem State.modAlarm_net (a : Fin 32) (f : AlarmState → AlarmState) : (s.modAlarm a f).net = s.net := rfl
@[simp] theorem State.modAlarm_flash (a : Fin 32) (f : AlarmState → AlarmState) : (s.modAlarm a f).flash = s.flash := rfl
@[simp] theorem State.modAlarm_keys (a : Fin 32) (f : AlarmState → AlarmState) : (s.modAlarm a f).keys = s.keys := rfl
@[simp] theorem State.modAlarm_tally (a : Fin 32) (f : AlarmState → AlarmState) : (s.modAlarm a f).tally = s.tally := rfl
@[simp] theorem State.modAlarm_modes (a : Fin 32) (f : AlarmState → AlarmState) : (s.modAlarm a f).modes = s.modes := rfl
@[simp] theorem State.modAlarm_bus (a : Fin 32) (f : AlarmState → AlarmState) : (s.modAlarm a f).bus = s.bus := rfl
@[simp] theorem State.modAlarm_tx (a : Fin 32) (f : AlarmState → AlarmState) : (s.modAlarm a f).tx = s.tx := rfl
@[simp] theorem State.modAlarm_fresh (a : Fin 32) (f : AlarmState → AlarmState) : (s.modAlarm a f).fresh = s.fresh := rfl
@[simp] theorem State.modAlarm_free (a : Fin 32) (f : AlarmState → AlarmState) : (s.modAlarm a f).free = s.free := rfl
@[simp] theorem State.modAlarm_pending (a : Fin 32) (f : AlarmState → AlarmState) : (s.modAlarm a f).pending = s.pending := rfl
@[simp] theorem State.modAlarm_word (a : Fin 32) (f : AlarmState → AlarmState) (x : Nat) : (s.modAlarm a f).word x = s.word x := rfl
@[simp] theorem State.modAlarm_get (a : Fin 32) (f : AlarmState → AlarmState) (g : Field) : (s.modAlarm a f).get g = s.get g := rfl

@[simp] theorem State.modTarget_regs (k : Fin 4) (f : IrqTarget → IrqTarget) : (s.modTarget k f).regs = s.regs := rfl
@[simp] theorem State.modTarget_pwr (k : Fin 4) (f : IrqTarget → IrqTarget) : (s.modTarget k f).pwr = s.pwr := rfl
@[simp] theorem State.modTarget_time (k : Fin 4) (f : IrqTarget → IrqTarget) : (s.modTarget k f).time = s.time := rfl
@[simp] theorem State.modTarget_axes (k : Fin 4) (f : IrqTarget → IrqTarget) : (s.modTarget k f).axes = s.axes := rfl
@[simp] theorem State.modTarget_drive (k : Fin 4) (f : IrqTarget → IrqTarget) : (s.modTarget k f).drive = s.drive := rfl
@[simp] theorem State.modTarget_hk (k : Fin 4) (f : IrqTarget → IrqTarget) : (s.modTarget k f).hk = s.hk := rfl
@[simp] theorem State.modTarget_scal (k : Fin 4) (f : IrqTarget → IrqTarget) : (s.modTarget k f).scal = s.scal := rfl
@[simp] theorem State.modTarget_aux (k : Fin 4) (f : IrqTarget → IrqTarget) : (s.modTarget k f).aux = s.aux := rfl
@[simp] theorem State.modTarget_slots (k : Fin 4) (f : IrqTarget → IrqTarget) : (s.modTarget k f).slots = s.slots := rfl
@[simp] theorem State.modTarget_cal (k : Fin 4) (f : IrqTarget → IrqTarget) : (s.modTarget k f).cal = s.cal := rfl
@[simp] theorem State.modTarget_deck (k : Fin 4) (f : IrqTarget → IrqTarget) : (s.modTarget k f).deck = s.deck := rfl
@[simp] theorem State.modTarget_recog (k : Fin 4) (f : IrqTarget → IrqTarget) : (s.modTarget k f).recog = s.recog := rfl
@[simp] theorem State.modTarget_blaze (k : Fin 4) (f : IrqTarget → IrqTarget) : (s.modTarget k f).blaze = s.blaze := rfl
@[simp] theorem State.modTarget_engines (k : Fin 4) (f : IrqTarget → IrqTarget) : (s.modTarget k f).engines = s.engines := rfl
@[simp] theorem State.modTarget_an (k : Fin 4) (f : IrqTarget → IrqTarget) : (s.modTarget k f).an = s.an := rfl
@[simp] theorem State.modTarget_net (k : Fin 4) (f : IrqTarget → IrqTarget) : (s.modTarget k f).net = s.net := rfl
@[simp] theorem State.modTarget_flash (k : Fin 4) (f : IrqTarget → IrqTarget) : (s.modTarget k f).flash = s.flash := rfl
@[simp] theorem State.modTarget_keys (k : Fin 4) (f : IrqTarget → IrqTarget) : (s.modTarget k f).keys = s.keys := rfl
@[simp] theorem State.modTarget_tally (k : Fin 4) (f : IrqTarget → IrqTarget) : (s.modTarget k f).tally = s.tally := rfl
@[simp] theorem State.modTarget_modes (k : Fin 4) (f : IrqTarget → IrqTarget) : (s.modTarget k f).modes = s.modes := rfl
@[simp] theorem State.modTarget_bus (k : Fin 4) (f : IrqTarget → IrqTarget) : (s.modTarget k f).bus = { s.bus with targets := s.bus.targets.set k (f s.bus.targets[k]) } := rfl
@[simp] theorem State.modTarget_tx (k : Fin 4) (f : IrqTarget → IrqTarget) : (s.modTarget k f).tx = s.tx := rfl
@[simp] theorem State.modTarget_fresh (k : Fin 4) (f : IrqTarget → IrqTarget) : (s.modTarget k f).fresh = s.fresh := rfl
@[simp] theorem State.modTarget_free (k : Fin 4) (f : IrqTarget → IrqTarget) : (s.modTarget k f).free = s.free := rfl
@[simp] theorem State.modTarget_pending (k : Fin 4) (f : IrqTarget → IrqTarget) : (s.modTarget k f).pending = s.pending := rfl
@[simp] theorem State.modTarget_word (k : Fin 4) (f : IrqTarget → IrqTarget) (x : Nat) : (s.modTarget k f).word x = s.word x := rfl
@[simp] theorem State.modTarget_get (k : Fin 4) (f : IrqTarget → IrqTarget) (g : Field) : (s.modTarget k f).get g = s.get g := rfl

@[simp] theorem State.setRegion_regs (r : Nat) (y : Region) : (s.setRegion r y).regs = s.regs := rfl
@[simp] theorem State.setRegion_pwr (r : Nat) (y : Region) : (s.setRegion r y).pwr = s.pwr := rfl
@[simp] theorem State.setRegion_time (r : Nat) (y : Region) : (s.setRegion r y).time = s.time := rfl
@[simp] theorem State.setRegion_axes (r : Nat) (y : Region) : (s.setRegion r y).axes = s.axes := rfl
@[simp] theorem State.setRegion_drive (r : Nat) (y : Region) : (s.setRegion r y).drive = s.drive := rfl
@[simp] theorem State.setRegion_hk (r : Nat) (y : Region) : (s.setRegion r y).hk = s.hk := rfl
@[simp] theorem State.setRegion_scal (r : Nat) (y : Region) : (s.setRegion r y).scal = s.scal := rfl
@[simp] theorem State.setRegion_aux (r : Nat) (y : Region) : (s.setRegion r y).aux = s.aux := rfl
@[simp] theorem State.setRegion_slots (r : Nat) (y : Region) : (s.setRegion r y).slots = s.slots := rfl
@[simp] theorem State.setRegion_cal (r : Nat) (y : Region) : (s.setRegion r y).cal = s.cal := rfl
@[simp] theorem State.setRegion_deck (r : Nat) (y : Region) : (s.setRegion r y).deck = s.deck := rfl
@[simp] theorem State.setRegion_recog (r : Nat) (y : Region) : (s.setRegion r y).recog = s.recog := rfl
@[simp] theorem State.setRegion_blaze (r : Nat) (y : Region) : (s.setRegion r y).blaze = s.blaze := rfl
@[simp] theorem State.setRegion_engines (r : Nat) (y : Region) : (s.setRegion r y).engines = s.engines := rfl
@[simp] theorem State.setRegion_an (r : Nat) (y : Region) : (s.setRegion r y).an = s.an := rfl
@[simp] theorem State.setRegion_net (r : Nat) (y : Region) : (s.setRegion r y).net = s.net := rfl
@[simp] theorem State.setRegion_keys (r : Nat) (y : Region) : (s.setRegion r y).keys = s.keys := rfl
@[simp] theorem State.setRegion_tally (r : Nat) (y : Region) : (s.setRegion r y).tally = s.tally := rfl
@[simp] theorem State.setRegion_modes (r : Nat) (y : Region) : (s.setRegion r y).modes = s.modes := rfl
@[simp] theorem State.setRegion_bus (r : Nat) (y : Region) : (s.setRegion r y).bus = s.bus := rfl
@[simp] theorem State.setRegion_tx (r : Nat) (y : Region) : (s.setRegion r y).tx = s.tx := rfl
@[simp] theorem State.setRegion_fresh (r : Nat) (y : Region) : (s.setRegion r y).fresh = s.fresh := rfl
@[simp] theorem State.setRegion_free (r : Nat) (y : Region) : (s.setRegion r y).free = s.free := rfl
@[simp] theorem State.setRegion_pending (r : Nat) (y : Region) : (s.setRegion r y).pending = s.pending := rfl
@[simp] theorem State.setRegion_word (r : Nat) (y : Region) (x : Nat) : (s.setRegion r y).word x = s.word x := rfl
@[simp] theorem State.setRegion_get (r : Nat) (y : Region) (g : Field) : (s.setRegion r y).get g = s.get g := rfl

@[simp] theorem State.setContent_regs (r p : Nat) (l : List Byte) : (s.setContent r p l).regs = s.regs := rfl
@[simp] theorem State.setContent_pwr (r p : Nat) (l : List Byte) : (s.setContent r p l).pwr = s.pwr := rfl
@[simp] theorem State.setContent_time (r p : Nat) (l : List Byte) : (s.setContent r p l).time = s.time := rfl
@[simp] theorem State.setContent_axes (r p : Nat) (l : List Byte) : (s.setContent r p l).axes = s.axes := rfl
@[simp] theorem State.setContent_drive (r p : Nat) (l : List Byte) : (s.setContent r p l).drive = s.drive := rfl
@[simp] theorem State.setContent_hk (r p : Nat) (l : List Byte) : (s.setContent r p l).hk = s.hk := rfl
@[simp] theorem State.setContent_scal (r p : Nat) (l : List Byte) : (s.setContent r p l).scal = s.scal := rfl
@[simp] theorem State.setContent_aux (r p : Nat) (l : List Byte) : (s.setContent r p l).aux = s.aux := rfl
@[simp] theorem State.setContent_slots (r p : Nat) (l : List Byte) : (s.setContent r p l).slots = s.slots := rfl
@[simp] theorem State.setContent_cal (r p : Nat) (l : List Byte) : (s.setContent r p l).cal = s.cal := rfl
@[simp] theorem State.setContent_deck (r p : Nat) (l : List Byte) : (s.setContent r p l).deck = s.deck := rfl
@[simp] theorem State.setContent_recog (r p : Nat) (l : List Byte) : (s.setContent r p l).recog = s.recog := rfl
@[simp] theorem State.setContent_blaze (r p : Nat) (l : List Byte) : (s.setContent r p l).blaze = s.blaze := rfl
@[simp] theorem State.setContent_engines (r p : Nat) (l : List Byte) : (s.setContent r p l).engines = s.engines := rfl
@[simp] theorem State.setContent_an (r p : Nat) (l : List Byte) : (s.setContent r p l).an = s.an := rfl
@[simp] theorem State.setContent_net (r p : Nat) (l : List Byte) : (s.setContent r p l).net = s.net := rfl
@[simp] theorem State.setContent_keys (r p : Nat) (l : List Byte) : (s.setContent r p l).keys = s.keys := rfl
@[simp] theorem State.setContent_tally (r p : Nat) (l : List Byte) : (s.setContent r p l).tally = s.tally := rfl
@[simp] theorem State.setContent_modes (r p : Nat) (l : List Byte) : (s.setContent r p l).modes = s.modes := rfl
@[simp] theorem State.setContent_bus (r p : Nat) (l : List Byte) : (s.setContent r p l).bus = s.bus := rfl
@[simp] theorem State.setContent_tx (r p : Nat) (l : List Byte) : (s.setContent r p l).tx = s.tx := rfl
@[simp] theorem State.setContent_fresh (r p : Nat) (l : List Byte) : (s.setContent r p l).fresh = s.fresh := rfl
@[simp] theorem State.setContent_free (r p : Nat) (l : List Byte) : (s.setContent r p l).free = s.free := rfl
@[simp] theorem State.setContent_pending (r p : Nat) (l : List Byte) : (s.setContent r p l).pending = s.pending := rfl
@[simp] theorem State.setContent_word (r p : Nat) (l : List Byte) (x : Nat) : (s.setContent r p l).word x = s.word x := rfl
@[simp] theorem State.setContent_get (r p : Nat) (l : List Byte) (g : Field) : (s.setContent r p l).get g = s.get g := rfl

@[simp] theorem State.modHost_regs (h : Nat) (f : HostState → HostState) : (s.modHost h f).regs = s.regs := rfl
@[simp] theorem State.modHost_pwr (h : Nat) (f : HostState → HostState) : (s.modHost h f).pwr = s.pwr := rfl
@[simp] theorem State.modHost_time (h : Nat) (f : HostState → HostState) : (s.modHost h f).time = s.time := rfl
@[simp] theorem State.modHost_axes (h : Nat) (f : HostState → HostState) : (s.modHost h f).axes = s.axes := rfl
@[simp] theorem State.modHost_drive (h : Nat) (f : HostState → HostState) : (s.modHost h f).drive = s.drive := rfl
@[simp] theorem State.modHost_hk (h : Nat) (f : HostState → HostState) : (s.modHost h f).hk = s.hk := rfl
@[simp] theorem State.modHost_scal (h : Nat) (f : HostState → HostState) : (s.modHost h f).scal = s.scal := rfl
@[simp] theorem State.modHost_aux (h : Nat) (f : HostState → HostState) : (s.modHost h f).aux = s.aux := rfl
@[simp] theorem State.modHost_slots (h : Nat) (f : HostState → HostState) : (s.modHost h f).slots = s.slots := rfl
@[simp] theorem State.modHost_cal (h : Nat) (f : HostState → HostState) : (s.modHost h f).cal = s.cal := rfl
@[simp] theorem State.modHost_deck (h : Nat) (f : HostState → HostState) : (s.modHost h f).deck = s.deck := rfl
@[simp] theorem State.modHost_recog (h : Nat) (f : HostState → HostState) : (s.modHost h f).recog = s.recog := rfl
@[simp] theorem State.modHost_blaze (h : Nat) (f : HostState → HostState) : (s.modHost h f).blaze = s.blaze := rfl
@[simp] theorem State.modHost_engines (h : Nat) (f : HostState → HostState) : (s.modHost h f).engines = s.engines := rfl
@[simp] theorem State.modHost_an (h : Nat) (f : HostState → HostState) : (s.modHost h f).an = s.an := rfl
@[simp] theorem State.modHost_flash (h : Nat) (f : HostState → HostState) : (s.modHost h f).flash = s.flash := rfl
@[simp] theorem State.modHost_keys (h : Nat) (f : HostState → HostState) : (s.modHost h f).keys = s.keys := rfl
@[simp] theorem State.modHost_tally (h : Nat) (f : HostState → HostState) : (s.modHost h f).tally = s.tally := rfl
@[simp] theorem State.modHost_modes (h : Nat) (f : HostState → HostState) : (s.modHost h f).modes = s.modes := rfl
@[simp] theorem State.modHost_bus (h : Nat) (f : HostState → HostState) : (s.modHost h f).bus = s.bus := rfl
@[simp] theorem State.modHost_tx (h : Nat) (f : HostState → HostState) : (s.modHost h f).tx = s.tx := rfl
@[simp] theorem State.modHost_fresh (h : Nat) (f : HostState → HostState) : (s.modHost h f).fresh = s.fresh := rfl
@[simp] theorem State.modHost_free (h : Nat) (f : HostState → HostState) : (s.modHost h f).free = s.free := rfl
@[simp] theorem State.modHost_pending (h : Nat) (f : HostState → HostState) : (s.modHost h f).pending = s.pending := rfl
@[simp] theorem State.modHost_word (h : Nat) (f : HostState → HostState) (x : Nat) : (s.modHost h f).word x = s.word x := rfl
@[simp] theorem State.modHost_get (h : Nat) (f : HostState → HostState) (g : Field) : (s.modHost h f).get g = s.get g := rfl

@[simp] theorem State.modMail_regs (m : Fin 16) (f : MailSlot → MailSlot) : (s.modMail m f).regs = s.regs := rfl
@[simp] theorem State.modMail_pwr (m : Fin 16) (f : MailSlot → MailSlot) : (s.modMail m f).pwr = s.pwr := rfl
@[simp] theorem State.modMail_time (m : Fin 16) (f : MailSlot → MailSlot) : (s.modMail m f).time = s.time := rfl
@[simp] theorem State.modMail_axes (m : Fin 16) (f : MailSlot → MailSlot) : (s.modMail m f).axes = s.axes := rfl
@[simp] theorem State.modMail_drive (m : Fin 16) (f : MailSlot → MailSlot) : (s.modMail m f).drive = s.drive := rfl
@[simp] theorem State.modMail_hk (m : Fin 16) (f : MailSlot → MailSlot) : (s.modMail m f).hk = s.hk := rfl
@[simp] theorem State.modMail_scal (m : Fin 16) (f : MailSlot → MailSlot) : (s.modMail m f).scal = s.scal := rfl
@[simp] theorem State.modMail_aux (m : Fin 16) (f : MailSlot → MailSlot) : (s.modMail m f).aux = s.aux := rfl
@[simp] theorem State.modMail_slots (m : Fin 16) (f : MailSlot → MailSlot) : (s.modMail m f).slots = s.slots := rfl
@[simp] theorem State.modMail_cal (m : Fin 16) (f : MailSlot → MailSlot) : (s.modMail m f).cal = s.cal := rfl
@[simp] theorem State.modMail_deck (m : Fin 16) (f : MailSlot → MailSlot) : (s.modMail m f).deck = s.deck := rfl
@[simp] theorem State.modMail_recog (m : Fin 16) (f : MailSlot → MailSlot) : (s.modMail m f).recog = s.recog := rfl
@[simp] theorem State.modMail_blaze (m : Fin 16) (f : MailSlot → MailSlot) : (s.modMail m f).blaze = s.blaze := rfl
@[simp] theorem State.modMail_engines (m : Fin 16) (f : MailSlot → MailSlot) : (s.modMail m f).engines = s.engines := rfl
@[simp] theorem State.modMail_net (m : Fin 16) (f : MailSlot → MailSlot) : (s.modMail m f).net = s.net := rfl
@[simp] theorem State.modMail_flash (m : Fin 16) (f : MailSlot → MailSlot) : (s.modMail m f).flash = s.flash := rfl
@[simp] theorem State.modMail_keys (m : Fin 16) (f : MailSlot → MailSlot) : (s.modMail m f).keys = s.keys := rfl
@[simp] theorem State.modMail_tally (m : Fin 16) (f : MailSlot → MailSlot) : (s.modMail m f).tally = s.tally := rfl
@[simp] theorem State.modMail_modes (m : Fin 16) (f : MailSlot → MailSlot) : (s.modMail m f).modes = s.modes := rfl
@[simp] theorem State.modMail_bus (m : Fin 16) (f : MailSlot → MailSlot) : (s.modMail m f).bus = s.bus := rfl
@[simp] theorem State.modMail_tx (m : Fin 16) (f : MailSlot → MailSlot) : (s.modMail m f).tx = s.tx := rfl
@[simp] theorem State.modMail_fresh (m : Fin 16) (f : MailSlot → MailSlot) : (s.modMail m f).fresh = s.fresh := rfl
@[simp] theorem State.modMail_free (m : Fin 16) (f : MailSlot → MailSlot) : (s.modMail m f).free = s.free := rfl
@[simp] theorem State.modMail_pending (m : Fin 16) (f : MailSlot → MailSlot) : (s.modMail m f).pending = s.pending := rfl
@[simp] theorem State.modMail_word (m : Fin 16) (f : MailSlot → MailSlot) (x : Nat) : (s.modMail m f).word x = s.word x := rfl
@[simp] theorem State.modMail_get (m : Fin 16) (f : MailSlot → MailSlot) (g : Field) : (s.modMail m f).get g = s.get g := rfl

@[simp] theorem State.cystad_regs : (s.cystad).regs = s.regs := rfl
@[simp] theorem State.cystad_pwr : (s.cystad).pwr = s.pwr := rfl
@[simp] theorem State.cystad_time : (s.cystad).time = s.time := rfl
@[simp] theorem State.cystad_axes : (s.cystad).axes = s.axes := rfl
@[simp] theorem State.cystad_drive : (s.cystad).drive = s.drive := rfl
@[simp] theorem State.cystad_hk : (s.cystad).hk = s.hk := rfl
@[simp] theorem State.cystad_scal : (s.cystad).scal = s.scal := rfl
@[simp] theorem State.cystad_aux : (s.cystad).aux = s.aux := rfl
@[simp] theorem State.cystad_slots : (s.cystad).slots = s.slots := rfl
@[simp] theorem State.cystad_cal : (s.cystad).cal = s.cal := rfl
@[simp] theorem State.cystad_deck : (s.cystad).deck = s.deck := rfl
@[simp] theorem State.cystad_recog : (s.cystad).recog = s.recog := rfl
@[simp] theorem State.cystad_blaze : (s.cystad).blaze = s.blaze := rfl
@[simp] theorem State.cystad_engines : (s.cystad).engines = s.engines := rfl
@[simp] theorem State.cystad_an : (s.cystad).an = s.an := rfl
@[simp] theorem State.cystad_keys : (s.cystad).keys = s.keys := rfl
@[simp] theorem State.cystad_tally : (s.cystad).tally = s.tally := rfl
@[simp] theorem State.cystad_modes : (s.cystad).modes = s.modes := rfl
@[simp] theorem State.cystad_bus : (s.cystad).bus = s.bus := rfl
@[simp] theorem State.cystad_tx : (s.cystad).tx = s.tx := rfl
@[simp] theorem State.cystad_fresh : (s.cystad).fresh = s.fresh := rfl
@[simp] theorem State.cystad_free : (s.cystad).free = s.free := rfl
@[simp] theorem State.cystad_pending : (s.cystad).pending = s.pending := rfl
@[simp] theorem State.cystad_word (x : Nat) : (s.cystad).word x = s.word x := rfl
@[simp] theorem State.cystad_get (g : Field) : (s.cystad).get g = s.get g := rfl

@[simp] theorem State.modCust_regs (p : Port) (f : CustPort → CustPort) : (s.modCust p f).regs = s.regs := by cases p <;> rfl
@[simp] theorem State.modCust_pwr (p : Port) (f : CustPort → CustPort) : (s.modCust p f).pwr = s.pwr := by cases p <;> rfl
@[simp] theorem State.modCust_time (p : Port) (f : CustPort → CustPort) : (s.modCust p f).time = s.time := by cases p <;> rfl
@[simp] theorem State.modCust_axes (p : Port) (f : CustPort → CustPort) : (s.modCust p f).axes = s.axes := by cases p <;> rfl
@[simp] theorem State.modCust_drive (p : Port) (f : CustPort → CustPort) : (s.modCust p f).drive = s.drive := by cases p <;> rfl
@[simp] theorem State.modCust_hk (p : Port) (f : CustPort → CustPort) : (s.modCust p f).hk = s.hk := by cases p <;> rfl
@[simp] theorem State.modCust_scal (p : Port) (f : CustPort → CustPort) : (s.modCust p f).scal = s.scal := by cases p <;> rfl
@[simp] theorem State.modCust_aux (p : Port) (f : CustPort → CustPort) : (s.modCust p f).aux = s.aux := by cases p <;> rfl
@[simp] theorem State.modCust_slots (p : Port) (f : CustPort → CustPort) : (s.modCust p f).slots = s.slots := by cases p <;> rfl
@[simp] theorem State.modCust_cal (p : Port) (f : CustPort → CustPort) : (s.modCust p f).cal = s.cal := by cases p <;> rfl
@[simp] theorem State.modCust_deck (p : Port) (f : CustPort → CustPort) : (s.modCust p f).deck = s.deck := by cases p <;> rfl
@[simp] theorem State.modCust_recog (p : Port) (f : CustPort → CustPort) : (s.modCust p f).recog = s.recog := by cases p <;> rfl
@[simp] theorem State.modCust_blaze (p : Port) (f : CustPort → CustPort) : (s.modCust p f).blaze = s.blaze := by cases p <;> rfl
@[simp] theorem State.modCust_engines (p : Port) (f : CustPort → CustPort) : (s.modCust p f).engines = s.engines := by cases p <;> rfl
@[simp] theorem State.modCust_an (p : Port) (f : CustPort → CustPort) : (s.modCust p f).an = s.an := by cases p <;> rfl
@[simp] theorem State.modCust_net (p : Port) (f : CustPort → CustPort) : (s.modCust p f).net = s.net := by cases p <;> rfl
@[simp] theorem State.modCust_flash (p : Port) (f : CustPort → CustPort) : (s.modCust p f).flash = s.flash := by cases p <;> rfl
@[simp] theorem State.modCust_keys (p : Port) (f : CustPort → CustPort) : (s.modCust p f).keys = s.keys := by cases p <;> rfl
@[simp] theorem State.modCust_modes (p : Port) (f : CustPort → CustPort) : (s.modCust p f).modes = s.modes := by cases p <;> rfl
@[simp] theorem State.modCust_bus (p : Port) (f : CustPort → CustPort) : (s.modCust p f).bus = s.bus := by cases p <;> rfl
@[simp] theorem State.modCust_tx (p : Port) (f : CustPort → CustPort) : (s.modCust p f).tx = s.tx := by cases p <;> rfl
@[simp] theorem State.modCust_fresh (p : Port) (f : CustPort → CustPort) : (s.modCust p f).fresh = s.fresh := by cases p <;> rfl
@[simp] theorem State.modCust_free (p : Port) (f : CustPort → CustPort) : (s.modCust p f).free = s.free := by cases p <;> rfl
@[simp] theorem State.modCust_pending (p : Port) (f : CustPort → CustPort) : (s.modCust p f).pending = s.pending := by cases p <;> rfl
@[simp] theorem State.modCust_get (p : Port) (f : CustPort → CustPort) (g : Field) : (s.modCust p f).get g = s.get g := by cases p <;> rfl
@[simp] theorem State.cust_modCust_same (p : Port) (f : CustPort → CustPort) : (s.modCust p f).cust p = f (s.cust p) := by cases p <;> rfl
@[simp] theorem State.cust_modCust_other (p : Port) (f : CustPort → CustPort) : (s.modCust p f).cust p.other = s.cust p.other := by cases p <;> rfl
@[simp] theorem message_regs (ps : List Port) (h : IpHead) (x : Payload) (b : Bool) : (message s ps h x b).regs = s.regs := by unfold message; split <;> rfl
@[simp] theorem message_pwr (ps : List Port) (h : IpHead) (x : Payload) (b : Bool) : (message s ps h x b).pwr = s.pwr := by unfold message; split <;> rfl
@[simp] theorem message_time (ps : List Port) (h : IpHead) (x : Payload) (b : Bool) : (message s ps h x b).time = s.time := by unfold message; split <;> rfl
@[simp] theorem message_axes (ps : List Port) (h : IpHead) (x : Payload) (b : Bool) : (message s ps h x b).axes = s.axes := by unfold message; split <;> rfl
@[simp] theorem message_drive (ps : List Port) (h : IpHead) (x : Payload) (b : Bool) : (message s ps h x b).drive = s.drive := by unfold message; split <;> rfl
@[simp] theorem message_hk (ps : List Port) (h : IpHead) (x : Payload) (b : Bool) : (message s ps h x b).hk = s.hk := by unfold message; split <;> rfl
@[simp] theorem message_scal (ps : List Port) (h : IpHead) (x : Payload) (b : Bool) : (message s ps h x b).scal = s.scal := by unfold message; split <;> rfl
@[simp] theorem message_aux (ps : List Port) (h : IpHead) (x : Payload) (b : Bool) : (message s ps h x b).aux = s.aux := by unfold message; split <;> rfl
@[simp] theorem message_slots (ps : List Port) (h : IpHead) (x : Payload) (b : Bool) : (message s ps h x b).slots = s.slots := by unfold message; split <;> rfl
@[simp] theorem message_cal (ps : List Port) (h : IpHead) (x : Payload) (b : Bool) : (message s ps h x b).cal = s.cal := by unfold message; split <;> rfl
@[simp] theorem message_deck (ps : List Port) (h : IpHead) (x : Payload) (b : Bool) : (message s ps h x b).deck = s.deck := by unfold message; split <;> rfl
@[simp] theorem message_recog (ps : List Port) (h : IpHead) (x : Payload) (b : Bool) : (message s ps h x b).recog = s.recog := by unfold message; split <;> rfl
@[simp] theorem message_blaze (ps : List Port) (h : IpHead) (x : Payload) (b : Bool) : (message s ps h x b).blaze = s.blaze := by unfold message; split <;> rfl
@[simp] theorem message_engines (ps : List Port) (h : IpHead) (x : Payload) (b : Bool) : (message s ps h x b).engines = s.engines := by unfold message; split <;> rfl
@[simp] theorem message_an (ps : List Port) (h : IpHead) (x : Payload) (b : Bool) : (message s ps h x b).an = s.an := by unfold message; split <;> rfl
@[simp] theorem message_keys (ps : List Port) (h : IpHead) (x : Payload) (b : Bool) : (message s ps h x b).keys = s.keys := by unfold message; split <;> rfl
@[simp] theorem message_tally (ps : List Port) (h : IpHead) (x : Payload) (b : Bool) : (message s ps h x b).tally = s.tally := by unfold message; split <;> rfl
@[simp] theorem message_modes (ps : List Port) (h : IpHead) (x : Payload) (b : Bool) : (message s ps h x b).modes = s.modes := by unfold message; split <;> rfl
@[simp] theorem message_bus (ps : List Port) (h : IpHead) (x : Payload) (b : Bool) : (message s ps h x b).bus = s.bus := by unfold message; split <;> rfl
@[simp] theorem message_fresh (ps : List Port) (h : IpHead) (x : Payload) (b : Bool) : (message s ps h x b).fresh = s.fresh := by unfold message; split <;> rfl
@[simp] theorem message_free (ps : List Port) (h : IpHead) (x : Payload) (b : Bool) : (message s ps h x b).free = s.free := by unfold message; split <;> rfl
@[simp] theorem message_pending (ps : List Port) (h : IpHead) (x : Payload) (b : Bool) : (message s ps h x b).pending = s.pending := by unfold message; split <;> rfl
@[simp] theorem message_get (ps : List Port) (h : IpHead) (x : Payload) (b : Bool) (g : Field) : (message s ps h x b).get g = s.get g := by unfold message; split <;> rfl

@[simp] theorem State.freeWord_fst : s.freeWord.1 = Config.freeWord s.free := rfl
@[simp] theorem State.freeWord_snd : s.freeWord.2 = { s with free := s.free + 1 } := rfl
@[simp] theorem State.modTally_cust (f : TallyState → TallyState) (p : Port) (h : ∀ t, (f t).portA = t.portA ∧ (f t).portB = t.portB) :
    (s.modTally f).cust p = s.cust p := by
  cases p
  · exact (h s.tally).1
  · exact (h s.tally).2

end Sys2Proof.Machine
end

