-- ==== Sys2Proof/Laws/Ops.lean ====
section
/-!
SUPPORT. What each shared register operation does to a field, once: the field it names, every field apart from it, and every other word.
-/

namespace Sys2Proof.Machine

theorem getBits_lt (w : Word) (lo width : Nat) : getBits w lo width < 2 ^ width := Nat.mod_lt _ (Nat.two_pow_pos width)

theorem State.get_lt (s : State) (f : Field) : s.get f < 2 ^ f.width := getBits_lt _ _ _

/-- A one-bit field holds 0 or 1. -/
theorem State.get_bit (s : State) (f : Field) (h : f.width = 1) : s.get f = 0 ∨ s.get f = 1 := by
  have := s.get_lt f
  rw [h] at this
  omega

theorem State.bit_eq_true (s : State) (f : Field) : s.bit f = true ↔ s.get f = 1 := by simp [State.bit]

@[simp] theorem State.word_setWord_same (s : State) (a : Nat) (v : Word) : (s.setWord a v).word a = v := Regs.read_write_same _ _ _

theorem State.word_setWord_ne (s : State) (a b : Nat) (v : Word) (h : b ≠ a) : (s.setWord a v).word b = s.word b := Regs.read_write_ne _ _ _ _ h

theorem State.get_setWord_same (s : State) (f : Field) (v : Word) : (s.setWord f.word v).get f = getBits v f.lo f.width := by
  simp only [State.get, State.word_setWord_same]

theorem State.get_setWord_ne (s : State) (a : Nat) (f : Field) (v : Word) (h : f.word ≠ a) : (s.setWord a v).get f = s.get f := by
  simp only [State.get, State.word_setWord_ne _ _ _ _ h]

theorem State.get_event_same (s : State) (f : Field) (h : f.ok) (hw : f.width = 1) : (s.event f).get f = 1 := by
  unfold State.event
  rw [State.noted_get, State.get_set_same s f 1 h, hw]
  exact Nat.mod_eq_of_lt (by decide)

theorem State.get_event_ne (s : State) (f g : Field) (h : f.ok) (hd : f.apart g) : (s.event f).get g = s.get g := State.get_set_ne s f g 1 h hd

/-- A counter field rises by n and stays at its highest value. -/
theorem State.get_bump_same (s : State) (f : Field) (n : Nat) (h : f.ok) : (s.bump f n).get f = min (s.get f + n) (2 ^ f.width - 1) := by
  unfold State.bump
  rw [State.noted_get, State.get_set_same s f _ h]
  have := Nat.two_pow_pos f.width
  exact Nat.mod_eq_of_lt (by omega)

theorem State.get_bump_ne (s : State) (f g : Field) (n : Nat) (h : f.ok) (hd : f.apart g) : (s.bump f n).get g = s.get g := State.get_set_ne s f g _ h hd

theorem State.get_setB_same (s : State) (f : Field) (b : Bool) (h : f.ok) (hw : f.width = 1) : (s.setB f b).get f = if b then 1 else 0 := by
  unfold State.setB
  rw [State.get_set_same s f _ h, hw]
  cases b <;> rfl

theorem State.get_setB_ne (s : State) (f g : Field) (b : Bool) (h : f.ok) (hd : f.apart g) : (s.setB f b).get g = s.get g := State.get_set_ne s f g _ h hd

theorem State.get_setI_same (s : State) (f : Field) (v : Int) (h : f.ok) : (s.setI f v).get f = twos v f.width % 2 ^ f.width := State.get_set_same s f _ h

theorem State.get_setI_ne (s : State) (f g : Field) (v : Int) (h : f.ok) (hd : f.apart g) : (s.setI f v).get g = s.get g := State.get_set_ne s f g _ h hd

/-- Bit i of the word after a field is written. -/
theorem State.getLsbD_set (s : State) (f : Field) (v a i : Nat) (h : f.ok) :
    ((s.set f v).word a).getLsbD i = if f.word = a ∧ f.lo ≤ i ∧ i < f.lo + f.width then v.testBit (i - f.lo) else (s.word a).getLsbD i := by
  unfold State.set
  by_cases ha : f.word = a
  · subst ha
    rw [State.word_setWord_same, getLsbD_setBits _ _ _ _ _ h]
    simp
  · rw [State.word_setWord_ne _ _ _ _ (fun e => ha e.symm)]
    simp [ha]

/-- When does a step that applies f on a condition change something. -/
theorem State.when_true (s : State) (f : State → State) : s.when true f = f s := rfl
theorem State.when_false (s : State) (f : State → State) : s.when false f = s := rfl

end Sys2Proof.Machine
end

