-- ==== Sys2Proof/Laws/Frames.lean ====
section
/-!
SUPPORT. Frames over register fields: they hold of an unchanged state, chain, widen, and hold of each register write for the field or word it names.
-/

namespace Sys2Proof.Machine

theorem sameBut_refl (l : List Field) (s : State) : sameBut l s s := fun _ _ _ => rfl

theorem sameBut_trans {l : List Field} {s t u : State} (h : sameBut l s t) (k : sameBut l t u) : sameBut l s u :=
  fun a i hi => (k a i hi).trans (h a i hi)

/-- A frame holds for every list that covers the same bits and more. -/
theorem sameBut_mono {l m : List Field} {s t : State} (h : sameBut l s t) (hm : ∀ f ∈ l, f ∈ m) : sameBut m s t := by
  intro a i hi
  apply h a i
  rw [List.any_eq_false] at hi ⊢
  exact fun f hf => hi f (hm f hf)

/-- Only the register file matters to a frame. -/
theorem sameBut_regs {l : List Field} {s t u : State} (h : sameBut l s t) (e : u.regs = t.regs) : sameBut l s u := by
  intro a i hi
  have : u.word a = t.word a := by simp only [State.word, e]
  rw [this]
  exact h a i hi

theorem sameBut_set (l : List Field) (s : State) (f : Field) (v : Nat) (h : f.ok) (hf : f ∈ l) : sameBut l s (s.set f v) := by
  intro a i hi
  rw [State.getLsbD_set s f v a i h]
  have hn := (List.any_eq_false.mp hi) f hf
  simp only [Field.has, Bool.and_eq_true, beq_iff_eq, decide_eq_true_eq, not_and, and_imp] at hn
  split
  · rename_i hc
    exact absurd hc.2.2 (hn hc.1 hc.2.1)
  · rfl

theorem sameBut_event (l : List Field) (s : State) (f : Field) (h : f.ok) (hf : f ∈ l) : sameBut l s (s.event f) := sameBut_set l s f 1 h hf

theorem sameBut_bump (l : List Field) (s : State) (f : Field) (n : Nat) (h : f.ok) (hf : f ∈ l) : sameBut l s (s.bump f n) := sameBut_set l s f _ h hf

theorem sameBut_setB (l : List Field) (s : State) (f : Field) (b : Bool) (h : f.ok) (hf : f ∈ l) : sameBut l s (s.setB f b) := sameBut_set l s f _ h hf

theorem sameBut_setWord (l : List Field) (s : State) (a : Nat) (v : Word) (hf : wholeWord a ∈ l) : sameBut l s (s.setWord a v) := by
  intro b i hi
  have hn := (List.any_eq_false.mp hi) (wholeWord a) hf
  by_cases hb : b = a
  · subst hb
    have h32 : 32 ≤ i := by
      rcases Nat.lt_or_ge i 32 with hc | hc
      · exact absurd (by simp [Field.has, wholeWord, hc]) hn
      · exact hc
    rw [BitVec.getLsbD_of_ge _ _ h32, BitVec.getLsbD_of_ge _ _ h32]
  · rw [State.word_setWord_ne _ _ _ _ hb]

/-- A field apart from every field of a frame's list is the same. -/
theorem get_of_sameBut {l : List Field} {s t : State} (h : sameBut l s t) (g : Field) (hg : ∀ f ∈ l, f.apart g) : t.get g = s.get g := by
  apply Nat.eq_of_testBit_eq
  intro i
  simp only [State.get, testBit_getBits]
  by_cases hi : i < g.width
  · simp only [hi, decide_true, Bool.true_and]
    apply h
    rw [List.any_eq_false]
    intro f hf
    simp only [Field.has, Bool.and_eq_true, beq_iff_eq, decide_eq_true_eq]
    rintro ⟨⟨hw, h1⟩, h2⟩
    rcases hg f hf with hd | hd | hd
    · exact hd hw
    · omega
    · omega
  · simp [hi]

theorem onlyFields_refl (l : List Field) (s : State) : onlyFields l s s := ⟨rfl, sameBut_refl l s⟩

theorem onlyFields_set (l : List Field) (s : State) (f : Field) (v : Nat) (h : f.ok) (hf : f ∈ l) : onlyFields l s (s.set f v) :=
  ⟨rfl, sameBut_set l s f v h hf⟩

theorem onlyFields_trans {l : List Field} {s t u : State} (h : onlyFields l s t) (k : onlyFields l t u) : onlyFields l s u := by
  refine ⟨?_, sameBut_trans h.2 k.2⟩
  have h1 := h.1
  have k1 := k.1
  rw [← k1] at h1
  exact h1

end Sys2Proof.Machine
end

