-- ==== Sys2Proof/Laws/Keeps.lean ====
section
/-!
SUPPORT. What no part of a command may break, as one relation between the states before and after it: the invariant, the queue, the write numbers, the wear
counts, and the keys. It chains, and each shared update keeps it; a meaning is a chain of such updates.
-/

namespace Sys2Proof.Machine

/-- From s to t the invariant is kept, the queue is the same, and COMSEQ, the wear counts, the anti-rollback floor and the key area do not fall or change. -/
structure Keeps (s t : State) : Prop where
  inv : s.inv → t.inv
  queue : t.pending = s.pending
  comseq : s.flash.comseq ≤ t.flash.comseq
  wear : ∀ k : Fin 24, s.flash.wear[k] ≤ 0xFFFF → s.flash.wear[k] ≤ t.flash.wear[k] ∧ t.flash.wear[k] ≤ 0xFFFF
  floor : s.keys.floor ≤ t.keys.floor
  area : t.keys.lineKey = s.keys.lineKey ∧ t.keys.anchor = s.keys.anchor ∧ t.keys.sysid = s.keys.sysid

theorem Keeps.refl (s : State) : Keeps s s := ⟨id, rfl, Nat.le_refl _, fun _ h => ⟨Nat.le_refl _, h⟩, Nat.le_refl _, rfl, rfl, rfl⟩

theorem Keeps.trans {s t u : State} (h : Keeps s t) (k : Keeps t u) : Keeps s u where
  inv := fun x => k.inv (h.inv x)
  queue := k.queue.trans h.queue
  comseq := Nat.le_trans h.comseq k.comseq
  wear := fun n x => ⟨Nat.le_trans (h.wear n x).1 (k.wear n (h.wear n x).2).1, (k.wear n (h.wear n x).2).2⟩
  floor := Nat.le_trans h.floor k.floor
  area := ⟨k.area.1.trans h.area.1, k.area.2.1.trans h.area.2.1, k.area.2.2.trans h.area.2.2⟩

/-- An update that leaves the registers, the counter, the queue, the write numbers and the keys keeps them. -/
theorem Keeps.of_same {s t : State} (hr : t.regs = s.regs) (ht : t.time.frac = s.time.frac ∧ t.time.ns = s.time.ns ∧ t.time.sec = s.time.sec)
    (hp : t.pending = s.pending) (hc : t.flash.comseq = s.flash.comseq) (hw : t.flash.wear = s.flash.wear) (hk : t.keys = s.keys) : Keeps s t where
  inv := by
    intro h
    obtain ⟨h1, h2⟩ := h
    refine ⟨?_, ?_⟩
    · show Regs.wf t.regs = true
      rw [hr]; exact h1
    · show t.time.frac < 2 ^ 32 ∧ t.time.ns < 1000000000 ∧ t.time.sec < 2 ^ 64
      rw [ht.1, ht.2.1, ht.2.2]; exact h2
  queue := hp
  comseq := Nat.le_of_eq hc.symm
  wear := by rw [hw]; exact fun _ h => ⟨Nat.le_refl _, h⟩
  floor := Nat.le_of_eq (by rw [hk])
  area := by rw [hk]; exact ⟨rfl, rfl, rfl⟩

theorem keeps_setWord (s : State) (a : Nat) (v : Word) : Keeps s (s.setWord a v) :=
  ⟨fun h => ⟨Regs.wf_write _ _ _ h.1, h.2⟩, rfl, Nat.le_refl _, fun _ h => ⟨Nat.le_refl _, h⟩, Nat.le_refl _, rfl, rfl, rfl⟩

theorem keeps_set (s : State) (f : Field) (v : Nat) : Keeps s (s.set f v) := keeps_setWord _ _ _
theorem keeps_setI (s : State) (f : Field) (v : Int) : Keeps s (s.setI f v) := keeps_setWord _ _ _
theorem keeps_setB (s : State) (f : Field) (b : Bool) : Keeps s (s.setB f b) := keeps_setWord _ _ _
theorem keeps_noted (s : State) (l : List Fresh) : Keeps s (s.noted l) := .of_same rfl ⟨rfl, rfl, rfl⟩ rfl rfl rfl rfl
theorem keeps_bump (s : State) (f : Field) (n : Nat) : Keeps s (s.bump f n) := (keeps_set _ _ _).trans (keeps_noted _ _)
theorem keeps_event (s : State) (f : Field) : Keeps s (s.event f) := (keeps_set _ _ _).trans (keeps_noted _ _)

/-- A part of the registers goes back to its reset values. -/
theorem keeps_filter (s : State) (q : Nat × Word → Bool) : Keeps s { s with regs := s.regs.filter q } :=
  ⟨fun h => ⟨Regs.wf_filter _ _ h.1, h.2⟩, rfl, Nat.le_refl _, fun _ h => ⟨Nat.le_refl _, h⟩, Nat.le_refl _, rfl, rfl, rfl⟩

theorem keeps_send (s : State) (p : Egress) (q : Nat) (y : Payload) : Keeps s (s.send p q y) := .of_same rfl ⟨rfl, rfl, rfl⟩ rfl rfl rfl rfl
theorem keeps_sendIp (s : State) (p : Egress) (q : Nat) (h : IpHead) (y : Payload) : Keeps s (s.sendIp p q h y) := .of_same rfl ⟨rfl, rfl, rfl⟩ rfl rfl rfl rfl
theorem keeps_cystad (s : State) : Keeps s s.cystad := .of_same rfl ⟨rfl, rfl, rfl⟩ rfl rfl rfl rfl
theorem keeps_message (s : State) (ps : List Port) (h : IpHead) (y : Payload) (b : Bool) : Keeps s (message s ps h y b) := by
  unfold message
  split
  · exact .of_same rfl ⟨rfl, rfl, rfl⟩ rfl rfl rfl rfl
  · exact Keeps.refl s
theorem keeps_messageAhead (s : State) (h : IpHead) (y : Payload) : Keeps s (messageAhead s h y) := by
  unfold messageAhead
  split
  · exact .of_same rfl ⟨rfl, rfl, rfl⟩ rfl rfl rfl rfl
  · exact Keeps.refl s
theorem keeps_log (s : State) (e : LogEntry) : Keeps s (s.log e) := .of_same rfl ⟨rfl, rfl, rfl⟩ rfl rfl rfl rfl
theorem keeps_answer (s : State) (w : Word) : Keeps s (s.answer w) := .of_same rfl ⟨rfl, rfl, rfl⟩ rfl rfl rfl rfl
theorem keeps_freeWord (s : State) : Keeps s s.freeWord.2 := .of_same rfl ⟨rfl, rfl, rfl⟩ rfl rfl rfl rfl
theorem keeps_modPwr (s : State) (f : PwrState → PwrState) : Keeps s (s.modPwr f) := .of_same rfl ⟨rfl, rfl, rfl⟩ rfl rfl rfl rfl
theorem keeps_modModes (s : State) (f : ModeState → ModeState) : Keeps s (s.modModes f) := .of_same rfl ⟨rfl, rfl, rfl⟩ rfl rfl rfl rfl
theorem keeps_modNet (s : State) (f : NetState → NetState) : Keeps s (s.modNet f) := .of_same rfl ⟨rfl, rfl, rfl⟩ rfl rfl rfl rfl
theorem keeps_modHost (s : State) (h : Nat) (f : HostState → HostState) : Keeps s (s.modHost h f) := .of_same rfl ⟨rfl, rfl, rfl⟩ rfl rfl rfl rfl
theorem keeps_modMail (s : State) (m : Fin 16) (f : MailSlot → MailSlot) : Keeps s (s.modMail m f) := .of_same rfl ⟨rfl, rfl, rfl⟩ rfl rfl rfl rfl
theorem keeps_modTally (s : State) (f : TallyState → TallyState) : Keeps s (s.modTally f) := .of_same rfl ⟨rfl, rfl, rfl⟩ rfl rfl rfl rfl
theorem keeps_modCust (s : State) (p : Port) (f : CustPort → CustPort) : Keeps s (s.modCust p f) := keeps_modTally _ _
theorem keeps_modRecog (s : State) (f : RecogState → RecogState) : Keeps s (s.modRecog f) := .of_same rfl ⟨rfl, rfl, rfl⟩ rfl rfl rfl rfl
theorem keeps_modSlot (s : State) (i : Fin 16) (f : SlotState → SlotState) : Keeps s (s.modSlot i f) := .of_same rfl ⟨rfl, rfl, rfl⟩ rfl rfl rfl rfl
theorem keeps_modAxis (s : State) (i : Fin 10) (f : AxisState → AxisState) : Keeps s (s.modAxis i f) := .of_same rfl ⟨rfl, rfl, rfl⟩ rfl rfl rfl rfl
theorem keeps_modEngine (s : State) (e : Fin 8) (f : EngineState → EngineState) : Keeps s (s.modEngine e f) := .of_same rfl ⟨rfl, rfl, rfl⟩ rfl rfl rfl rfl
theorem keeps_modCal (s : State) (i : Fin 10) (f : CalAxis → CalAxis) : Keeps s (s.modCal i f) := .of_same rfl ⟨rfl, rfl, rfl⟩ rfl rfl rfl rfl
theorem keeps_modRing (s : State) (i : Fin 16) (f : Ring → Ring) : Keeps s (s.modRing i f) := .of_same rfl ⟨rfl, rfl, rfl⟩ rfl rfl rfl rfl
theorem keeps_modCap (s : State) (c : Fin 16) (f : Capture → Capture) : Keeps s (s.modCap c f) := .of_same rfl ⟨rfl, rfl, rfl⟩ rfl rfl rfl rfl
theorem keeps_modLease (s : State) (l : Fin 32) (f : LeaseInfo → LeaseInfo) : Keeps s (s.modLease l f) := .of_same rfl ⟨rfl, rfl, rfl⟩ rfl rfl rfl rfl
theorem keeps_modLand (s : State) (i : Fin 16) (f : LandSlot → LandSlot) : Keeps s (s.modLand i f) := .of_same rfl ⟨rfl, rfl, rfl⟩ rfl rfl rfl rfl
theorem keeps_modStream (s : State) (k : Fin 16) (f : StreamState → StreamState) : Keeps s (s.modStream k f) := .of_same rfl ⟨rfl, rfl, rfl⟩ rfl rfl rfl rfl
theorem keeps_modSetup (s : State) (n : Fin 32) (f : SetupState → SetupState) : Keeps s (s.modSetup n f) := .of_same rfl ⟨rfl, rfl, rfl⟩ rfl rfl rfl rfl
theorem keeps_modAlarm (s : State) (a : Fin 32) (f : AlarmState → AlarmState) : Keeps s (s.modAlarm a f) := .of_same rfl ⟨rfl, rfl, rfl⟩ rfl rfl rfl rfl
theorem keeps_modTarget (s : State) (k : Fin 4) (f : IrqTarget → IrqTarget) : Keeps s (s.modTarget k f) := .of_same rfl ⟨rfl, rfl, rfl⟩ rfl rfl rfl rfl

/-- A change of the time unit that leaves the counter. -/
theorem keeps_modTime (s : State) (f : TimeState → TimeState) (h : (f s.time).frac = s.time.frac ∧ (f s.time).ns = s.time.ns ∧ (f s.time).sec = s.time.sec) :
    Keeps s (s.modTime f) := .of_same rfl h rfl rfl rfl rfl

/-- The next write number is reserved. -/
theorem keeps_reserveSeq (s : State) : Keeps s (reserveSeq s) :=
  ⟨fun h => h, rfl, Nat.le_succ _, fun _ h => ⟨Nat.le_refl _, h⟩, Nat.le_refl _, rfl, rfl, rfl⟩

theorem keeps_setRegion (s : State) (r : Nat) (x : Region) : Keeps s (s.setRegion r x) := by
  unfold State.setRegion
  split
  · exact .of_same rfl ⟨rfl, rfl, rfl⟩ rfl rfl rfl rfl
  · split
    · exact .of_same rfl ⟨rfl, rfl, rfl⟩ rfl rfl rfl rfl
    · exact .of_same rfl ⟨rfl, rfl, rfl⟩ rfl rfl rfl rfl

theorem keeps_showComseq (s : State) : Keeps s (showComseq s) := (keeps_setWord _ _ _).trans (keeps_setWord _ _ _)

theorem keeps_setContent (s : State) (r p : Nat) (l : List Byte) : Keeps s (s.setContent r p l) := keeps_setRegion _ _ _

theorem keeps_appendSeal (s : State) (x : SealRec) : Keeps s (appendSeal s x) := by
  refine Keeps.trans (t := { s with flash := { s.flash with seals := x :: s.flash.seals } }) ?_ (keeps_showComseq _)
  exact .of_same rfl ⟨rfl, rfl, rfl⟩ rfl rfl rfl rfl

/-- A choice of two updates keeps what both keep. -/
theorem Keeps.ite {s t u : State} (c : Prop) [Decidable c] (h : c → Keeps s t) (k : ¬ c → Keeps s u) : Keeps s (if c then t else u) := by
  split
  · exact h ‹_›
  · exact k ‹_›

theorem keeps_when (s : State) (b : Bool) (f : State → State) (h : Keeps s (f s)) : Keeps s (s.when b f) := by
  cases b
  · exact Keeps.refl s
  · exact h

/-- An update applied for each element of a list keeps what one application keeps. -/
theorem keeps_foldl {α : Type} (l : List α) (f : State → α → State) (h : ∀ (s : State) (a : α), a ∈ l → Keeps s (f s a)) (s : State) :
    Keeps s (l.foldl f s) := by
  induction l generalizing s with
  | nil => exact Keeps.refl s
  | cons a rest ih =>
    exact (h s a (by simp)).trans (ih (fun s b hb => h s b (by simp [hb])) (f s a))

end Sys2Proof.Machine
end

