-- ==== Sys2Proof/Laws/Blocks.lean ====
section
/-!
SUPPORT. What taking records into setups, forming blocks of them and taking dump windows into a slot's filter can do, once each.
-/

namespace Sys2Proof.Machine

/-- A setup that meets records changes in its records alone. -/
theorem meet_keeps (x : SetupState) (p : Nat) (i : Fin 16) (l : List HistRec) :
    { x.meet p i l with hist := x.hist, resync := x.resync, angle := x.angle } = x := by
  unfold SetupState.meet SetupState.feed
  split
  · split
    · rfl
    · split <;> rfl
  · rfl

/-- A setup of another slot that is no order setup of slot 11's angle takes nothing. -/
theorem meet_other (x : SetupState) (p : Nat) (i : Fin 16) (l : List HistRec) (h : x.slot ≠ i) (k : x.func ≠ 6 ∨ i.val ≠ 11) : x.meet p i l = x := by
  unfold SetupState.meet
  split
  · rw [if_neg (by omega)]
  · rfl

/-- Feeding the setups changes nothing else. -/
theorem feedSetups_keeps (s : State) (p : Nat) (i : Fin 16) (rs : List (Landed × Nat)) :
    { feedSetups s p i rs with an := s.an } = s ∧ { (feedSetups s p i rs).an with setups := s.an.setups } = s.an := ⟨rfl, rfl⟩

theorem keeps_feedSetups (s : State) (p : Nat) (i : Fin 16) (rs : List (Landed × Nat)) : Keeps s (feedSetups s p i rs) :=
  .of_same rfl ⟨rfl, rfl, rfl⟩ rfl rfl rfl rfl

/-- What a setup holds after a feed. -/
theorem feedSetups_setup (s : State) (p : Nat) (i : Fin 16) (rs : List (Landed × Nat)) (m : Fin 32) :
    (feedSetups s p i rs).an.setups[m] = s.an.setups[m].meet p i (rs.map (histRec s i)) := by
  simp [feedSetups]

/-- A block without a cause holds samples alone, none STALE or CALADJ under STRICT. -/
theorem blockCause_none (strict : Bool) (prev : Option Nat) (l : List HistRec) (k : Nat) (h : blockCause strict prev l k = none) :
    ∀ r ∈ l, wordKind r.w = 0 ∧ (strict = true → r.w.getLsbD 2 = false ∧ r.w.getLsbD 5 = false) := by
  induction l generalizing prev k with
  | nil => simp
  | cons a l ih =>
    unfold blockCause at h
    split at h
    · cases h
    · split at h
      · cases h
      · rename_i _ hc
        intro r hr
        rcases List.mem_cons.mp hr with rfl | hr
        · constructor
          · by_contra hk
            exact hc (by simp [hk])
          · intro hs
            constructor
            · by_contra hk
              exact hc (by simp_all)
            · by_contra hk
              exact hc (by simp_all)
        · exact ih _ _ h r hr

/-- What follows a discarded block starts with a sample record, or is empty. -/
theorem skipTo_starts (x : SetupState) (l : List HistRec) (r : HistRec) (h : (x.skipTo l).hist.head? = some r) : wordKind r.w = 0 := by
  unfold SetupState.skipTo at h
  have := List.head?_dropWhile_not (fun r : HistRec => wordKind r.w != 0) l
  simp only [h] at this
  simpa using this

/-- A change of one slot leaves every other. -/
theorem modSlot_other (s : State) (i j : Fin 16) (f : SlotState → SlotState) (h : i ≠ j) : (s.modSlot i f).slots[j] = s.slots[j] := by
  have : i.val ≠ j.val := fun e => h (Fin.ext e)
  simp [State.modSlot, Vector.getElem_set_ne _ _ this]

/-- Dump windows change the slot they belong to alone. -/
theorem takeWindow_other (s : State) (i j : Fin 16) (w : Window) (h : i ≠ j) : (takeWindow s i w).slots[j] = s.slots[j] := by
  unfold takeWindow
  dsimp only
  split
  · exact modSlot_other _ _ _ _ h
  · rw [modSlot_other _ _ _ _ h, modSlot_other _ _ _ _ h]

theorem keeps_takeWindow (s : State) (i : Fin 16) (w : Window) : Keeps s (takeWindow s i w) := by
  unfold takeWindow
  dsimp only
  split
  · exact keeps_modSlot _ _ _
  · exact (keeps_modSlot _ _ _).trans (keeps_modSlot _ _ _)

theorem keeps_takeWindows (s : State) (i : Fin 16) (l : List Window) : Keeps s (takeWindows s i l) := by
  unfold takeWindows
  split
  · refine Keeps.trans (keeps_foldl l _ (fun s w _ => keeps_takeWindow s i w) s) ?_
    split
    · exact Keeps.refl _
    · exact keeps_modSlot _ _ _
  · exact Keeps.refl s

/-- An exact result with no bits below its word is not rounded. -/
theorem narrow_exact (k b : Nat) (x : Int) : narrow k b (x * 2 ^ b) = x := by
  have h : (2 : Int) ^ b ≠ 0 := by positivity
  simp [narrow, Int.mul_ediv_cancel x h]

/-- The integrators keep their number. -/
theorem integrate_length (x : BitVec 80) (l : List (BitVec 80)) : (integrate x l).length = l.length := by
  induction l generalizing x with
  | nil => rfl
  | cons a l ih => simp [integrate, ih]

/-- The combs keep their number. -/
theorem combs_length (x : BitVec 80) (l : List (BitVec 80)) : (combs x l).1.length = l.length := by
  induction l generalizing x with
  | nil => rfl
  | cons a l ih => simp [combs, ih]

end Sys2Proof.Machine
end

