-- ==== Sys2Proof/Laws/Egress.lean ====
section
/-!
SUPPORT. What the operations on the ports' queues can do, once each, and that none of them touches a register or the memory but where it says so.
-/

namespace Sys2Proof.Machine

theorem keeps_withdrawFrames (s : State) (c : Payload → Bool) : Keeps s (withdrawFrames s c) := .of_same rfl ⟨rfl, rfl, rfl⟩ rfl rfl rfl rfl
theorem keeps_setWire (s : State) (p : Port) (x : Option (TxFrame × Nat)) : Keeps s (setWire s p x) := .of_same rfl ⟨rfl, rfl, rfl⟩ rfl rfl rfl rfl
theorem keeps_losePort (s : State) (p : Port) : Keeps s (losePort s p) := .of_same rfl ⟨rfl, rfl, rfl⟩ rfl rfl rfl rfl

/-- A withdrawn frame waits no more; every other one stays. -/
theorem mem_withdrawFrames (s : State) (c : Payload → Bool) (f : TxFrame) : f ∈ (withdrawFrames s c).tx ↔ f ∈ s.tx ∧ c f.pay = false := by
  simp [withdrawFrames]

/-- A transit frame joins its queue, or is counted and joins none. -/
theorem transit_cases (s : State) (p : Port) (q n : Nat) (x : Payload) :
    (queueFull s p.egress q n = false ∧ transit s p q n x = s.send p.egress q x) ∨
    (queueFull s p.egress q n = true ∧ transit s p q n x = s.bump (if p = .a then SW_Q_DROPA q else SW_Q_DROPB q) 1) := by
  cases h : queueFull s p.egress q n <;> simp [transit, h]

theorem keeps_transit (s : State) (p : Port) (q n : Nat) (x : Payload) : Keeps s (transit s p q n x) := by
  rcases transit_cases s p q n x with ⟨-, e⟩ | ⟨-, e⟩ <;> rw [e]
  exacts [keeps_send _ _ _ _, keeps_bump _ _ _]

/-- A port at a tick loses its frames without link, goes on with its frame, falls idle, or starts the frame that is next. -/
theorem settlePort_cases (s : State) (p : Port) :
    settlePort s p = losePort s p ∨ settlePort s p = s ∨ settlePort s p = setWire s p none ∨
    ∃ f, nextFrame s.tx p.egress = some f ∧ settlePort s p = startFrame s p f := by
  unfold settlePort
  split
  · exact .inl rfl
  · split
    · exact .inr (.inl rfl)
    · split
      · exact .inr (.inr (.inl rfl))
      · exact .inr (.inr (.inr ⟨_, ‹_›, rfl⟩))

theorem keeps_countShare (s : State) (p : Port) (n : Nat) : Keeps s (countShare s p n) := by
  unfold countShare
  exact .of_same rfl ⟨rfl, rfl, rfl⟩ rfl rfl rfl rfl

theorem keeps_startFrame (s : State) (p : Port) (f : TxFrame) : Keeps s (startFrame s p f) := by
  have h : Keeps s (setWire { s with tx := s.tx.erase f } p (some (f, s.pwr.ticks + 160 * wireLen f))) := .of_same rfl ⟨rfl, rfl, rfl⟩ rfl rfl rfl rfl
  unfold startFrame
  dsimp only
  split
  · exact h.trans (keeps_countShare _ _ _)
  · exact h

theorem keeps_settlePort (s : State) (p : Port) : Keeps s (settlePort s p) := by
  rcases settlePort_cases s p with e | e | e | ⟨f, -, e⟩ <;> rw [e]
  exacts [keeps_losePort _ _, .refl _, keeps_setWire _ _ _, keeps_startFrame _ _ _]

theorem keeps_settlePorts (s : State) : Keeps s (settlePorts s) :=
  (Keeps.of_same rfl ⟨rfl, rfl, rfl⟩ rfl rfl rfl rfl : Keeps s { s with tx := s.tx.filter fun f => f.port == .a || f.port == .b }).trans
    ((keeps_settlePort _ _).trans (keeps_settlePort _ _))

theorem keeps_voidOwn (s : State) (p : Nat) : Keeps s (voidOwn s p) := keeps_setRegion _ _ _

/-- No chunk frame waits after a reclaim. -/
theorem reclaim_noChunk (s : State) (f : TxFrame) (h : f ∈ (reclaim s).tx) : f.pay.isChunk = false := ((mem_withdrawFrames _ _ _).1 h).2

end Sys2Proof.Machine
end

