-- ==== Sys2Proof/Laws/Shared.lean ====
section
/-!
SUPPORT. What the operations that many meanings share can do, once each: the datagram checks, a commit into a Tally region, an answer's services, and reads.
-/

namespace Sys2Proof.Machine

/-- An accepted datagram leaves nothing but its sender's replay entry. -/
theorem cyCheck_accepted (s : State) (d : Datagram) (h : (cyCheck s d).1 = true) :
    (cyCheck s d).2 = s.modNet fun n => { n with replay := acceptMseq n.replay d s.pwr.ticks } := by
  unfold cyCheck at h ⊢
  split at h
  · cases h
  · rename_i h1
    split at h
    · cases h
    · rename_i h2
      split at h
      · cases h
      · rename_i h3
        split at h
        · cases h
        · rename_i h4
          split at h
          · cases h
          · rename_i h5
            rw [if_neg h1, if_neg h2, if_neg h3, if_neg h4, if_neg h5]

/-- Only a module that runs with a line key accepts a datagram. -/
theorem cyCheck_live (s : State) (d : Datagram) (h : (cyCheck s d).1 = true) : s.live = true ∧ s.keys.lineKey.isSome = true := by
  unfold cyCheck at h
  split at h
  · cases h
  · rename_i h1
    cases hk : s.keys.lineKey <;> simp_all

/-- A datagram that fails changes registers alone, beside what the tick's events note. -/
theorem cyCheck_failed (s : State) (d : Datagram) (h : (cyCheck s d).1 = false) : { (cyCheck s d).2 with regs := s.regs, fresh := s.fresh } = s := by
  unfold cyCheck at h ⊢
  split
  · rfl
  · split
    · rfl
    · split
      · rfl
      · split
        · rfl
        · split
          · rfl
          · rename_i h1 h2 h3 h4 h5
            rw [if_neg h1, if_neg h2, if_neg h3, if_neg h4, if_neg h5] at h
            cases h

theorem keeps_cyCheck (s : State) (d : Datagram) : Keeps s (cyCheck s d).2 := by
  unfold cyCheck
  repeat' split
  · exact Keeps.refl s
  · exact (keeps_event _ _).trans (keeps_bump _ _ _)
  · exact (keeps_event _ _).trans (keeps_bump _ _ _)
  · exact (keeps_event _ _).trans (keeps_bump _ _ _)
  · exact (keeps_event _ _).trans (keeps_bump _ _ _)
  · exact keeps_modNet s (fun n => { n with replay := acceptMseq n.replay d s.pwr.ticks })

theorem keeps_notePeer (s : State) (d : Datagram) : Keeps s (notePeer s d) := by
  unfold notePeer
  split
  · exact keeps_modHost _ _ _
  · exact Keeps.refl s

theorem receive_accepted (s : State) (d : Datagram) (typ : Nat) (f : List Byte → State → State) (ht : d.typ = typ) (h : (cyCheck s d).1 = true) :
    receive s d typ f = f (plain s d) (notePeer (s.modNet fun n => { n with replay := acceptMseq n.replay d s.pwr.ticks }) d) := by
  unfold receive
  rw [if_pos ht, if_pos h, cyCheck_accepted s d h]

theorem keeps_receive (s : State) (d : Datagram) (typ : Nat) (f : List Byte → State → State) (h : ∀ l t, Keeps t (f l t)) : Keeps s (receive s d typ f) := by
  unfold receive
  split
  · split
    · exact ((keeps_cyCheck s d).trans (keeps_notePeer _ d)).trans (h _ _)
    · exact keeps_cyCheck s d
  · exact Keeps.refl s

/-- A seal into the own region puts the image at the position, with a seal record of its number, origin, length and digest. -/
theorem sealImage_own (s : State) (p : Nat) (im : Image) (n origin : Nat) :
    (sealImage s 0 p im n origin).flash.own = ⟨s.flash.own.pos.set (Fin.ofNat 8 p) im.bytes⟩ ∧
    (sealImage s 0 p im n origin).flash.seals = { region := 0, pos := p, origin := origin, comseq := n, len := im.size, digest := im.digest } :: s.flash.seals := by
  unfold sealImage countCommit appendSeal showComseq State.log
  dsimp only
  split <;> exact ⟨rfl, rfl⟩

/-- A seal of the own region leaves the custody regions. -/
theorem sealImage_own_custody (s : State) (p : Nat) (im : Image) (n origin : Nat) :
    (sealImage s 0 p im n origin).flash.custA = s.flash.custA ∧ (sealImage s 0 p im n origin).flash.custB = s.flash.custB := by
  unfold sealImage countCommit appendSeal showComseq State.log
  dsimp only
  split <;> exact ⟨rfl, rfl⟩

/-- A seal uses the number it is given: the last reserved one stays. -/
theorem sealImage_comseq (s : State) (r p : Nat) (im : Image) (n origin : Nat) : (sealImage s r p im n origin).flash.comseq = s.flash.comseq := by
  unfold sealImage countCommit appendSeal showComseq State.log State.setContent State.setRegion
  dsimp only
  split <;> split <;> first | rfl | (split <;> rfl)

theorem keeps_countCommit (s : State) (r p : Nat) : Keeps s (countCommit s r p) := by
  unfold countCommit
  have h1 : ∀ t : State, Keeps t ({ t with flash := { t.flash with wear := t.flash.wear.set (Fin.ofNat 24 (8 * r + p)) (min 0xFFFF (t.flash.wear[Fin.ofNat 24 (8 * r + p)] + 1)) } }) := by
    intro t
    refine ⟨fun h => h, rfl, Nat.le_refl _, ?_, Nat.le_refl _, rfl, rfl, rfl⟩
    intro k hk
    by_cases e : (Fin.ofNat 24 (8 * r + p)).val = k.val
    · have e' : Fin.ofNat 24 (8 * r + p) = k := Fin.ext e
      subst e'
      simp only [Fin.getElem_fin, Vector.getElem_set_self]
      simp only [Fin.getElem_fin] at hk
      omega
    · simp only [Fin.getElem_fin]
      rw [Vector.getElem_set_ne _ _ e]
      exact ⟨Nat.le_refl _, hk⟩
  dsimp only
  split
  · exact ((h1 s).trans (keeps_set _ _ _)).trans ((keeps_set _ _ _).trans (keeps_event _ _))
  · exact (h1 s).trans (keeps_set _ _ _)

theorem keeps_sealImage (s : State) (r p : Nat) (im : Image) (n origin : Nat) : Keeps s (sealImage s r p im n origin) :=
  (((keeps_setContent _ _ _ _).trans (keeps_appendSeal _ _)).trans (keeps_countCommit _ _ _)).trans (keeps_log _ _)

theorem keeps_commitImage (s : State) (r : Nat) (im : Image) (origin : Nat) : Keeps s (commitImage s r im origin) :=
  (keeps_reserveSeq s).trans (keeps_sealImage _ _ _ _ _ _)

/-- A service of a running partition answers what it does in its mailbox slot; without one nothing happens. -/
theorem service_runs (s : State) (m : Fin 16) (code : Nat) (f : State → State) (h : partitionRuns s = true) :
    service s m code f = .next (f (s.modMail m fun x => { x with own := true, service := code })) := by
  unfold service
  rw [if_pos h]

/-- A command at an open door acts. -/
theorem atDoor_open (s : State) (i : Initiator) (a : Nat) (f : State → State) (h : doorOpen s i a = true) : atDoor s i a f = f s := by
  unfold atDoor
  rw [if_pos h]

/-- An access that is turned away changes nothing but what a violation shows. -/
theorem atDoor_shut (s : State) (i : Initiator) (a : Nat) (f : State → State) (h : doorOpen s i a = false) : atDoor s i a f = turnedAway s i a := by
  unfold atDoor
  rw [h]
  rfl

/-- A read of a word that is no register returns 0 and changes nothing. -/
theorem readWord_hole (s : State) (i : Initiator) (a : Nat) (h : isRegister a = false) : readWord s i a = (0, s) := by
  unfold readWord
  rw [h]
  rfl

end Sys2Proof.Machine
end

