-- ==== Sys2Proof/WellFormed.lean ====
section
/-!
DEFINITION. Which commands are well formed: every operand in the range its place in the spec gives it. The meanings are total and do not assume it; a
command that is not well formed stands for nothing the outside can bring to the block.
-/

namespace Sys2Proof.Machine

/-- A word address of the register map (00 R8: 14-bit word addresses). -/
def addrOk (a : Nat) : Bool := decide (a < 0x4000)

/-- A 16-bit pin-engine instruction (12 R294). -/
def peWordOk (w : Nat) : Bool := decide (w < 0x10000)

/-- An 8-bit pin-engine mask, one bit per engine (12 R307). -/
def maskOk (n m : Nat) : Bool := decide (m < 2 ^ n)

/-- A Blaze's fields fit the layout of 11 R277. -/
def blazeOk (b : Blaze) : Bool :=
  decide (b.stn < 256) && decide (b.src < 256) && decide (b.kind < 256) && decide (b.sev < 16) && decide (b.seq < 65536) && decide (b.slot < 256) &&
  decide (b.run < 256) && decide (b.ssn < 2 ^ 48)

/-- A dump window of a slot holds 4 samples of the AUX modulator or 32 of an axis converter (07 R182), and the overloaded ones are among them. -/
def windowOk (slot : Nat) (w : Window) : Bool :=
  w.xs.length == (if slot = 10 then 4 else 32) && w.overload.all fun k => decide (k < w.xs.length)

/-- A dump window's phase is one of its carrier: 2^32 steps of a drive period for a G axis, the 128 000 CLK ticks of an AUX period for AUX (06 R164). -/
def phaseOk (slot : Nat) (w : Window) : Bool := decide (w.phase < (if slot = 10 then 128000 else 2 ^ 32))

/-- What the converters bring to slots 0 to 10 are windows, oldest first, and to slot 9 the outputs of Q (07 R180, 04 R118). -/
def liveOk (slot : Nat) (x : Live) : Bool := x.win.all (fun w => windowOk slot w && phaseOk slot w) && (x.q.isEmpty || slot == 9)

/-- Where a packet comes from fits an IP header and an Ethernet frame (14 R349). -/
def peerOk (x : Peer) : Bool := decide (x.addr < (if x.v6 then 2 ^ 128 else 2 ^ 32)) && decide (x.port < 65536) && decide (x.mac < 2 ^ 48)

/-- The header fields and the tag of a datagram fit their bytes (14 R350, R351); whether they pass the checks is the command's matter (R353). -/
def datagramOk (d : Datagram) : Bool :=
  decide (d.ver < 256) && decide (d.typ < 256) && decide (d.len < 65536) && decide (d.sender < 2 ^ 32) && decide (d.mseq < 2 ^ 64) && decide (d.tag < 2 ^ 128) && peerOk d.src

/-- The frame of a serial master has as many words on its rising as on its falling edges (06 R170). -/
def frameOk (f : SspFrame) : Bool := f.rising.length == f.falling.length

end Sys2Proof.Machine

namespace Sys2Proof

open Sys2Proof.Machine

/-- A command is well formed. -/
def Instr.wellFormed (i : Instr) : Bool :=
  match i with
  | .workRegOffAccess _ a _ => addrOk a
  | .registerWrite _ a _ => addrOk a
  | .readClearsAccess _ a => addrOk a
  | .twoHalfLowRead _ a => addrOk a
  | .twoHalfHighRead _ a => addrOk a
  | .busMultiwordAccess _ a _ => addrOk a
  | .millBankWrite _ a _ => addrOk a
  | .mgmtRead _ d | .mgmtWrite _ d | .changeSetPart _ d | .captureOpen _ d | .captureCredit _ d | .captureClose _ d | .custodyHelloReceive _ d
  | .custodyRequest _ d | .custodyDataReceive _ d | .custodyOffer _ d | .custodyDefer _ d | .blazeMessageReceive d | .peerStreamPublicationReceive d
  | .cystadDatagramDiscard d => datagramOk d
  | .icmpEcho _ x | .addressQuery _ _ x => peerOk x
  | .enrollOffer p k i x => decide (p < 2 ^ 256) && decide (k < 2 ^ 256) && decide (i < 2 ^ 64) && decide (x < 2 ^ 512)
  | .enrollKey x n c t => peerOk x && decide (n < 2 ^ 96) && decide (c < 2 ^ 256) && decide (t < 2 ^ 128)
  | .sspRead f | .sspWrite f | .sspEraseToBlank f | .sspFrameReject f => frameOk f
  | .worldViolation _ _ _ b => decide (b < 2 ^ 32)
  | .busWidthAccess _ b _ _ => decide (b < 2 ^ 32)
  | .peBr _ w | .peAwait _ w | .peStamp _ w | .peMarkInterrupt _ w | .peMarkBlaze _ w | .peMarkCaptureTime _ w | .peSamp _ w | .peEmit _ w
  | .peXferSinToRx _ w | .peXferTxToSout _ w | .peXferUToRx _ w | .peXferTxToU _ w | .peCalc _ w | .peLdi _ w | .peDec _ w
  | .peReservedEncoding _ w | .peInject _ _ w => peWordOk w
  | .peGcmdStop _ m | .peGcmdRestart _ m | .peGcmdRun _ m | .peGcmdClksync _ m => maskOk 8 m
  | .calRunCmd _ m => maskOk 10 m
  | .departureBlazeReceive _ b => blazeOk b
  | .gridSlotRecord slot _ live taken => maskOk 6 taken && liveOk slot live
  | _ => true

end Sys2Proof
end

