-- ==== Sys2Proof/Tests/Slice0.lean ====
section
/-!
SUPPORT. Small tests of the model and, for each statement with hypotheses, a concrete state and operands that meet them.
-/

open Sys2Proof Sys2Proof.Machine

set_option Elab.async false

/-- A module that runs in mode m, every other register at its reset value. -/
def onAt (m : Nat) : State := State.set { State.reset with pwr := { phase := .running, booted := true } } MD_ST_MODE m

/-- The line key of the tests' modules. -/
def testKey : Nat := 0x000102030405060708090A0B0C0D0E0F101112131415161718191A1B1C1D1E1F

/-- A module that runs in mode m and holds the line key. -/
def keyed (m : Nat) : State := { onAt m with keys := { lineKey := some testKey } }

/-- A datagram of a type from a sender whose body is sealed under the line key (14 R351). -/
def sealed (typ sender mseq : Nat) (body : List Byte) : Datagram :=
  let h : CyHead := ⟨1, typ, body.length, sender, mseq⟩
  { typ := typ, sender := sender, mseq := mseq, cipher := h.cipher testKey body, tag := h.tag testKey (h.cipher testKey body) }

/-- A message of a type from the host of the tests. -/
def hostMsg (typ : Nat) (body : List Byte) : Datagram := sealed typ 0x80000001 1 body

/-- A Tally image of station 24, GEN 7, with an empty section 0x0001 and a world map, signed with the secret key of RFC 8032 test 1. -/
def testImage : Image := ⟨beBytes 192 0x544C4C5900010002000000C0180000000000000700000000000000000000000021FE31DFA154A261626BF854046FD22700000000000000000000000000000000000100000000000000000000000000000002000000000020000000000000000000010000000000000000000000000000000000000000000000000000000000002BDAAF682E1B0F96186B5D6B5CFBB280D3EA7D1966D9B4067670C79454A64480A34BFEDAFADDEB03A2DB9573A02B7F29405A277568E0F70A3C472033E2FDF503⟩

/-- The same image with NOLIVE. -/
def testNolive : Image := ⟨beBytes 192 0x544C4C5900010002000000C0180100000000000700000000000000000000000021FE31DFA154A261626BF854046FD227000000000000000000000000000000000001000000000000000000000000000000020000000000200000000000000000000100000000000000000000000000000000000000000000000000000000000071B135C581FF519768902ADB566082166683B1D23E201F9204773DBD1610E5CCE3E950C59F5EA03C917FF14E55DD005BA764E71B4618FB7078466F51B9EEA901⟩

/-- The public key of RFC 8032 test 1. -/
def testAnchor : Nat := 0xD75A980182B10AB7D54BFED3C964073A0EE172F3DAA62325AF021A68F707511A

/-- The body of a part of a change set (14 R365). -/
def csBody (csid part npart flags sec : Nat) (l : List CsEntry) : List Byte :=
  beBytes 4 csid ++ beBytes 1 part ++ beBytes 1 npart ++ beBytes 2 flags ++ beBytes 6 sec ++ beBytes 2 l.length ++
    l.flatMap fun e => match e with
      | .word a m v => beBytes 2 0 ++ beBytes 2 a ++ beBytes 4 m.toNat ++ beBytes 4 v.toNat
      | .param r => beBytes 2 0x100 ++ beBytes 2 (recordBytes r).length ++ recordBytes r


/-- A command that is refused as ill formed. -/
abbrev ill (c : Instr) : Prop := c.wellFormed = false

theorem test_ill_formed_addresses :
    ill (.workRegOffAccess .ssp 0x4000 false) ∧ ill (.registerWrite .ssp 0x4000 0) ∧ ill (.readClearsAccess .sup 0x4000) ∧ ill (.twoHalfLowRead .ssp 0x4000) ∧
    ill (.twoHalfHighRead .ssp 0x4000) ∧ ill (.busMultiwordAccess .sup 0x4000 1) ∧ ill (.millBankWrite .ssp 0x4000 0) := by decide

theorem test_ill_formed_datagrams :
    ill (.mgmtRead .a { ver := 256 }) ∧ ill (.mgmtWrite .a { typ := 256 }) ∧ ill (.captureOpen .a { len := 65536 }) ∧ ill (.captureCredit .b { sender := 2 ^ 32 }) ∧
    ill (.custodyOffer .b { mseq := 2 ^ 64 }) ∧ ill (.blazeMessageReceive { tag := 2 ^ 128 }) ∧ ill (.cystadDatagramDiscard { src := { addr := 2 ^ 32 } }) ∧
    ill (.changeSetPart .a { src := { v6 := true, addr := 2 ^ 128 } }) ∧ ill (.icmpEcho .a { mac := 2 ^ 48 }) ∧ ill (.addressQuery .a 0 { port := 65536 }) := by decide

theorem test_ill_formed_enrollment :
    ill (.enrollOffer (2 ^ 256) 0 0 0) ∧ ill (.enrollOffer 0 0 (2 ^ 64) 0) ∧ ill (.enrollOffer 0 0 0 (2 ^ 512)) ∧ ill (.enrollKey {} (2 ^ 96) 0 0) ∧
    ill (.enrollKey {} 0 (2 ^ 256) 0) ∧ ill (.enrollKey {} 0 0 (2 ^ 128)) := by decide +kernel

/-- A frame that reads three words and samples two of them on the falling edges is none. -/
theorem test_ill_formed_frames :
    ill (.sspRead ⟨[1, 2, 3], [1, 2], false, 20, 20, 200⟩) ∧ ill (.sspWrite ⟨[1, 2], [], false, 20, 20, 200⟩) ∧
    ill (.sspEraseToBlank ⟨[1], [], false, 20, 20, 200⟩) ∧ ill (.sspFrameReject ⟨[], [1], false, 20, 20, 200⟩) := by decide

theorem test_ill_formed_byte_addresses : ill (.worldViolation .user .mailbox true (2 ^ 32)) ∧ ill (.busWidthAccess .sup (2 ^ 32) false true) := by decide

theorem test_ill_formed_engine_words :
    ill (.peBr 0 0x10000) ∧ ill (.peAwait 0 0x10000) ∧ ill (.peStamp 0 0x10000) ∧ ill (.peMarkInterrupt 0 0x10000) ∧ ill (.peMarkBlaze 0 0x10000) ∧
    ill (.peMarkCaptureTime 0 0x10000) ∧ ill (.peSamp 0 0x10000) ∧ ill (.peEmit 0 0x10000) ∧ ill (.peXferSinToRx 0 0x10000) ∧ ill (.peXferTxToSout 0 0x10000) ∧
    ill (.peXferUToRx 0 0x10000) ∧ ill (.peXferTxToU 0 0x10000) ∧ ill (.peCalc 0 0x10000) ∧ ill (.peLdi 0 0x10000) ∧ ill (.peDec 0 0x10000) ∧
    ill (.peReservedEncoding 0 0x10000) ∧ ill (.peInject .ssp 0 0x10000) := by decide

theorem test_ill_formed_masks :
    ill (.peGcmdStop .ssp 256) ∧ ill (.peGcmdRestart .ssp 256) ∧ ill (.peGcmdRun .ssp 256) ∧ ill (.peGcmdClksync .ssp 256) ∧ ill (.calRunCmd .ssp 1024) ∧
    ill (.gridSlotRecord 0 0 {} 64) := by decide

theorem test_ill_formed_blazes : ill (.departureBlazeReceive .a { sev := 16 }) ∧ ill (.departureBlazeReceive .a { seq := 65536 }) := by decide

theorem test_ill_formed_windows :
    ill (.gridSlotRecord 0 0 { win := [{ t := 9, xs := [1, 2, 3, 4] }] } 0) ∧ ill (.gridSlotRecord 10 0 { win := [{ t := 9, xs := List.replicate 32 0 }] } 0) ∧
    ill (.gridSlotRecord 10 0 { win := [{ t := 9, xs := [1, 2, 3, 4], overload := [4] }] } 0) ∧ ill (.gridSlotRecord 8 0 { q := [(0, 5)] } 0) ∧
    ill (.gridSlotRecord 10 0 { win := [{ t := 9, phase := 128000, xs := [1, 2, 3, 4] }] } 0) := by decide

theorem test_well_formed :
    (Instr.registerWrite .ssp 0x3FFF 0).wellFormed = true ∧ (Instr.peBr 0 0xFFFF).wellFormed = true ∧ (Instr.mgmtWrite .a (hostMsg 0x10 (beBytes 16 0x00000009020000001301000000000101))).wellFormed = true ∧
    (Instr.gridSlotRecord 10 0 { win := [{ t := 9, xs := [1, 2, 3, 4], overload := [3] }] } 63).wellFormed = true := by
  decide

/-- The table's rows have no bits: no word spells a command. -/
theorem test_no_word_spells_a_command : decodeTableWord 32 0 = none ∧ (State.reset.withFetchWord 32 7) = State.reset := ⟨rfl, rfl⟩

/-- A command at the front of the queue is the next step's. -/
theorem test_step_takes_the_front : step { State.reset with pending := [.supplyRise { vA := 4800 }] } = exec (.supplyRise { vA := 4800 }) State.reset := rfl

set_option maxRecDepth 4000 in
/-- 02 R42: inrush begins when the internal supply rises through 34.0 V. -/
theorem test_supply_rise : (match exec (.supplyRise { vA := 4800 }) State.reset with | .next t => t.pwr.phase | _ => .off) = .inrush := by decide

set_option maxRecDepth 4000 in
/-- 02 R42: 33.99 V does not start the module. -/
theorem test_no_supply : (match exec (.supplyRise { vA := 3399 }) State.reset with | .next t => t.pwr.phase | _ => .running) = .off := by decide


/-- 07 R185: on a straight line 1, 5, 9, 13 the cubic reads half way between the middle two. -/
theorem test_cubic_reads_a_line : lagrange 1 5 9 13 32768 = 7 * (6 * 2 ^ 48) := by decide

/-- 07 R183: an integrator passes its own sum on, so a first word reaches all five. -/
theorem test_integrators_chain : integrate 3 [0, 0, 0, 0, 0] = [3, 3, 3, 3, 3] ∧ integrate 1 [3, 3, 3, 3, 3] = [4, 7, 10, 13, 16] := by decide

/-- 13 R319: a gap lies before the record after it, a marker is the record itself, and STALE counts under STRICT alone. -/
theorem test_block_causes :
    blockCause false none [⟨7, 80, 0, false⟩, ⟨9, 240, 0, false⟩] 0 = some (1, true) ∧
    blockCause false none [⟨7, 80, 0, false⟩, ⟨8, 160, 0x140, false⟩] 0 = some (1, false) ∧
    blockCause true none [⟨7, 80, 4, false⟩] 0 = some (0, false) ∧ blockCause false none [⟨7, 80, 4, false⟩] 0 = none := by decide

/-- 13 R325, 06 R163: a revolution of 4 096 units ends at the record that completes it, also across the wrap of the signed 24-bit angle. -/
theorem test_angle_end :
    angleEnd 4096 [⟨0, 100, 0x7FF80000, false⟩, ⟨1, 200, 0x80000000, false⟩, ⟨2, 300, 0x80080000, false⟩] = some 300 := by decide
theorem test_supply_rise_begins_inrush_and_ports_show_their_voltages :
    (∃ (m : Meter) (s : State), s.pwr.phase = .off ∧ 3400 ≤ m.top ∧ m.vA < 65536 ∧ m.vB < 65536) ∧
    (∃ (m : Meter) (s : State), s.pwr.phase = .lastGasp ∧ m.top < 3400 ∧ m.vA < 65536 ∧ m.vB < 65536) ∧
    (∃ (m : Meter) (s : State), s.pwr.phase = .lastGasp ∧ 3400 ≤ m.top ∧ m.vA < 65536 ∧ m.vB < 65536) ∧
    (∃ (m : Meter) (s : State), s.pwr.phase = .inputOpen ∧ 3400 ≤ m.top ∧ m.vA < 65536 ∧ m.vB < 65536) :=
  ⟨⟨{ vA := 4800 }, State.reset, by decide⟩,
   ⟨{ vA := 900 }, { State.reset with pwr := { phase := .lastGasp } }, by decide⟩,
   ⟨{ vB := 3400 }, { State.reset with pwr := { phase := .lastGasp } }, by decide⟩,
   ⟨{ vA := 4800, vB := 4795 }, { State.reset with pwr := { phase := .inputOpen } }, by decide⟩⟩


theorem test_controller_resets_hold_the_die_and_work_loses_its_supply :
    (∃ (s : State), s.pwr.phase = .running) ∧
    (∃ (s : State), s.pwr.phase = .running ∧ s.pwr.booted = true) ∧
    (∃ (s : State), s.pwr.phase = .running ∧ s.pwr.twisted = true ∧ s.pwr.twistAt + 1000000000 ≤ s.pwr.ticks) :=
  ⟨⟨onAt 6, by decide⟩,
   ⟨onAt 6, by decide⟩,
   ⟨{ onAt 6 with pwr := { (onAt 6).pwr with twisted := true, ticks := 1000000000 } }, by decide⟩⟩


theorem test_supply_loss_seals_and_logs_departure :
    (∃ (_cut : Bool) (m : Meter) (s : State), s.pwr.phase = .running ∧ s.pwr.booted = true ∧ m.top < 3300 ∧ m.vA < 65536 ∧ m.vB < 65536) :=
  ⟨false, { vA := 3299 }, onAt 6, by decide⟩


theorem test_supply_events_are_flagged_and_counted :
    (∃ (m : Meter) (s : State), s.pwr.phase = .running ∧ 3300 ≤ m.top ∧ m.top < 3600 ∧ m.vA < 65536 ∧ m.vB < 65536) ∧
    (∃ (m : Meter) (s : State), s.pwr.phase = .running ∧ 7500 < m.top ∧ m.vA < 65536 ∧ m.vB < 65536) :=
  ⟨⟨{ vA := 3500 }, onAt 6, by decide⟩,
   ⟨{ vB := 7501 }, onAt 6, by decide⟩⟩


theorem test_port_states_follow_the_table_1 :
    (∃ (port : Port) (s : State), portsLive s = true ∧ s.pwr.phase ≠ .inrush ∧ s.pst port = 0) ∧
    (∃ (port : Port) (listen i1 i2 : Nat) (s : State), portsLive s = true ∧ s.pst port = 1 ∧ listen ≤ 200 ∧ signatureValid i1 i2 = true) ∧
    (∃ (port : Port) (listen i1 i2 : Nat) (s : State), portsLive s = true ∧ s.pst port = 1 ∧ (200 < listen ∨ signatureValid i1 i2 = false)) ∧
    (∃ (port : Port) (m : Meter) (s : State), portsLive s = true ∧ (s.pst port = 0 ∨ s.pst port = 1) ∧ 3000 < m.volt port ∧ m.vA < 65536 ∧ m.vB < 65536) :=
  ⟨⟨.a, onAt 6, by decide⟩,
   ⟨.a, 200, 153, 474, (onAt 6).set PWR_ST_PSTA 1, by decide⟩,
   ⟨.b, 201, 153, 474, (onAt 6).set PWR_ST_PSTB 1, by decide⟩,
   ⟨.b, { vA := 4800, vB := 4700 }, onAt 6, by decide⟩⟩

theorem test_port_states_follow_the_table_2 :
    (∃ (port : Port) (m : Meter) (s : State), portsLive s = true ∧ s.pst port = 3 ∧ m.volt port < 3000 ∧ m.vA < 65536 ∧ m.vB < 65536) ∧
    (∃ (port : Port) (m : Meter) (s : State), portsLive s = true ∧ s.pst port = 3 ∧ 3600 ≤ m.volt port ∧ m.top ≤ m.volt port + 200 ∧ m.vA < 65536 ∧ m.vB < 65536) ∧
    (∃ (m : Meter) (s : State), portsLive s = true ∧ switchClosed s .a = true ∧ 1900 ≤ m.iA) ∧
    (∃ (m : Meter) (s : State), portsLive s = true ∧ switchClosed s .b = true ∧ 1900 ≤ m.iB) :=
  ⟨⟨.b, { vA := 4800, vB := 2999 }, (onAt 6).set PWR_ST_PSTB 3, by decide⟩,
   ⟨.b, { vA := 4800, vB := 4600 }, (onAt 6).set PWR_ST_PSTB 3, by decide⟩,
   ⟨{ iA := 2000 }, (onAt 6).set PWR_ST_PSTA 2, by decide⟩,
   ⟨{ iB := 1900 }, (onAt 6).set PWR_ST_PSTB 4, by decide⟩⟩

theorem test_port_states_follow_the_table_3 :
    (∃ (port : Port) (m : Meter) (s : State), portsLive s = true ∧ switchClosed s port = true ∧ linkUp s port = false ∧ m.amp port < 10) ∧
    (∃ (port : Port) (blaze : Blaze) (s : State), s.pwr.phase = .running ∧ s.pwr.booted = true ∧ switchClosed s port = true ∧ blaze.src = 0 ∧ blaze.kind = 1 ∧ blaze.stn = neighbour s port ∧ neighbour s port ≠ 0xFE) ∧
    (∃ (port : Port) (_m : Meter) (s : State), portsLive s = true ∧ s.pst port = 5) :=
  ⟨⟨.a, { vA := 4800 }, (onAt 6).set PWR_ST_PSTA 2, by decide⟩,
   ⟨.a, { stn := 7, kind := 1 }, ((onAt 6).set PWR_ST_PSTA 2).set CP_NBR_STNA 7, by decide⟩,
   ⟨.a, {}, (onAt 6).set PWR_ST_PSTA 5, by decide⟩⟩


theorem test_twist_release_arms_triggers_and_clears :
    (∃ (s : State), s.pwr.phase = .running ∧ s.pwr.booted = true ∧ s.bit ID_DOMST_RATEG = false ∧ s.bit DRV_ST_LOCK = true ∧ s.bit PWR_ST_MOUNTED = false) ∧
    (∃ (xs : List (Nat × Int)) (s : State), s.pwr.phase = .running ∧ s.pwr.booted = true ∧ s.bit PWR_ST_TWARM = true ∧ 32 ≤ xs.length ∧ (∀ x ∈ xs, twistRate s x < 60 * 7168)) ∧
    (∃ (x : Nat × Int) (s : State), s.pwr.phase = .running ∧ s.pwr.booted = true ∧ s.pwr.sealed = false ∧ s.bit PWR_ST_TWARM = true ∧ 60 * 7168 ≤ twistRate s x ∧ 15 * 7168 * 1600 ≤ s.pwr.twist + (twistRate s x).toNat) :=
  ⟨⟨((onAt 6).set DRV_ST_LOCK 1).set ID_DOMST_RATEG 0, by decide⟩,
   ⟨List.replicate 32 (5, 3), { (onAt 6).set PWR_ST_TWARM 1 with pwr := { (onAt 6).pwr with twist := 9000000 } }, by decide⟩,
   ⟨(0, -7168), { (onAt 6).set PWR_ST_TWARM 1 with pwr := { (onAt 6).pwr with twist := 172000000 } }, by decide⟩⟩


theorem test_port_enables_and_serial_use :
    (∃ (door : Initiator) (v : Word) (s : State), doorOpen s door 0x101 = true ∧ s.live = true ∧ v.getLsbD 0 = false) ∧
    (∃ (m : Meter) (s : State), s.live = true ∧ (s.mode = 9 ∨ s.mode = 11) ∧ s.pwr.serialB = false ∧ switchClosed s .b = false ∧ m.vB < 200 ∧ s.get PWR_VIN_VB < 200 ∧ s.pst .b ≠ 1 ∧ lowSince s 0 = true ∧ m.vA < 65536 ∧ m.vB < 65536) :=
  ⟨⟨.proc .sup, 6, onAt 6, by decide⟩,
   ⟨{ vA := 4800 }, { onAt 9 with pwr := { (onAt 9).pwr with ticks := 20000000, lowB := some 0 } }, by decide⟩⟩


theorem test_start_runs_the_active_firmware_and_counts_the_run :
    (∃ (boot : Boot) (s : State), s.pwr.phase = .inrush ∧ s.flash.trial = none ∧ s.flash.activeB = false ∧ boot.okA = true) ∧
    (∃ (boot : Boot) (s : State), s.pwr.phase = .dieReset ∧ s.flash.trial = none ∧ s.flash.activeB = false ∧ boot.okA = true) ∧
    (∃ (boot : Boot) (cause : Nat) (s : State), s.live = true ∧ s.modes.restart = some cause ∧ s.flash.trial = none ∧ s.flash.activeB = false ∧ boot.okA = true) ∧
    (∃ (s : State), s.live = true ∧ s.mode = 1 ∧ s.pwr.released = false) :=
  ⟨⟨⟨true, true⟩, { State.reset with pwr := { phase := .inrush } }, by decide⟩,
   ⟨⟨true, false⟩, { State.reset with pwr := { phase := .dieReset, cause := some 3 } }, by decide⟩,
   ⟨⟨true, false⟩, 5, { onAt 6 with modes := { restart := some 5 } }, by decide⟩,
   ⟨onAt 1, by decide⟩⟩


theorem test_mode_requests_are_carried_out_1 :
    (∃ (door : Initiator) (s : State), doorOpen s door 9 = true ∧ s.live = true ∧ s.mode = 7 ∧ s.get MD_ST_PENDING = 0) ∧
    (∃ (door : Initiator) (s : State), doorOpen s door 9 = true ∧ s.live = true ∧ s.mode = 6 ∧ s.get MD_ST_PENDING = 0) ∧
    (∃ (door : Initiator) (s : State), doorOpen s door 9 = true ∧ s.live = true ∧ s.mode = 6 ∧ s.get MD_ST_PENDING = 0) ∧
    (∃ (door : Initiator) (s : State), doorOpen s door 9 = true ∧ s.live = true ∧ s.mode = 6 ∧ s.get MD_ST_PENDING = 0) :=
  ⟨⟨.proc .sup, onAt 7, by decide⟩,
   ⟨.proc .sup, onAt 6, by decide⟩,
   ⟨.proc .sup, onAt 6, by decide⟩,
   ⟨.proc .sup, onAt 6, by decide⟩⟩

theorem test_mode_requests_are_carried_out_2 :
    (∃ (door : Initiator) (s : State), doorOpen s door 9 = true ∧ s.live = true ∧ s.mode = 6 ∧ s.get MD_ST_PENDING = 0) ∧
    (∃ (door : Initiator) (s : State), doorOpen s door 9 = true ∧ s.live = true ∧ s.mode = 6 ∧ s.get MD_ST_PENDING = 1) ∧
    (∃ (door : Initiator) (s : State), doorOpen s door 9 = true ∧ s.live = true ∧ s.mode = 7 ∧ s.get MD_ST_PENDING = 0) :=
  ⟨⟨.proc .sup, onAt 6, by decide⟩,
   ⟨.proc .sup, (onAt 6).set MD_ST_PENDING 1, by decide⟩,
   ⟨.proc .net, onAt 7, by decide⟩⟩


theorem test_changes_of_mode_run_their_course_1 :
    (∃ (s : State), s.live = true ∧ s.modes.change = .waiting ∧ s.modes.target = 7 ∧ s.modes.auto = false ∧ s.modes.since + 1000000 ≤ s.pwr.ticks ∧ networkLease s = false ∧ s.get ID_DOMST_WSTATE = 2) ∧
    (∃ (_targets : ClassB) (s : State), s.live = true ∧ s.mode = 5 ∧ s.modes.change = .idle ∧ s.get ID_DOMST_WSTATE = 2 ∧ s.locked = false ∧ passed s s.modes.at_ (s.get MD_CFG_SETTLEMAX) = true ∧ (s.bit DRV_ST_LOCK = true ∨ passed s s.modes.at_ 1 = true)) ∧
    (∃ (s : State), s.live = true ∧ s.mode = 8 ∧ s.bit MD_ST_AUTO = true ∧ s.modes.change = .idle ∧ passed s (max s.modes.at_ s.hk.warmAt) 60 = true ∧ s.get MD_ST_PREV = 6) ∧
    (∃ (door : Initiator) (s : State), doorOpen s door 9 = true ∧ s.live = true ∧ s.mode = 6 ∧ s.modes.restart = none) :=
  ⟨⟨{ (onAt 6).set ID_DOMST_WSTATE 2 with modes := { change := .waiting, target := 7 }, pwr := { (onAt 6).pwr with ticks := 1000000 } }, by decide⟩,
   ⟨{}, { (onAt 5).set ID_DOMST_WSTATE 2 with pwr := { (onAt 5).pwr with ticks := 60 * 200000000 } }, by decide⟩,
   ⟨{ ((onAt 8).set MD_ST_AUTO 1).set MD_ST_PREV 6 with pwr := { (onAt 8).pwr with ticks := 60 * 200000000 } }, by decide⟩,
   ⟨.proc .sup, onAt 6, by decide⟩⟩

theorem test_changes_of_mode_run_their_course_2 :
    (∃ (s : State), s.alive = true ∧ hotMinute s = true) :=
  ⟨{ onAt 6 with hk := { hotAt := some 0 } }, by decide⟩


theorem test_faults_enter_safe_or_restart_their_processor_1 :
    (∃ (s : State), s.live = true ∧ s.mode = 6) ∧
    (∃ (free _held _flight : Nat) (s : State), s.live = true ∧ s.mode = 6 ∧ s.bit DK_ST_ON = true ∧ free ≠ s.get DK_ACC_FREE) ∧
    (∃ (s : State), s.live = true) ∧
    (∃ (s : State), s.live = true ∧ s.get ID_DOMST_WSTATE = 2 ∧ (within s s.modes.cycles 3600).length < 3) :=
  ⟨⟨onAt 6, by decide⟩,
   ⟨1, 0, 0, (onAt 6).set DK_ST_ON 1, by decide⟩,
   ⟨(onAt 6).set DK_ST_ON 1, by decide⟩,
   ⟨(onAt 6).set ID_DOMST_WSTATE 2, by decide⟩⟩

theorem test_faults_enter_safe_or_restart_their_processor_2 :
    (∃ (s : State), s.live = true ∧ (within s s.modes.netLost 600).length < 3) ∧
    (∃ (s : State), s.live = true ∧ s.mode = 6 ∧ 3 ≤ (within s s.modes.netLost 600).length) :=
  ⟨⟨onAt 6, by decide⟩,
   ⟨{ onAt 6 with modes := { netLost := [5, 4] } }, by decide⟩⟩


theorem test_work_power_transitions_1 :
    (∃ (s : State), s.live = true ∧ s.get ID_DOMST_WSTATE = 1 ∧ s.bit DK_ST_ON = false) ∧
    (∃ (s : State), s.live = true ∧ s.get ID_DOMST_WSTATE = 1 ∧ s.bit DK_ST_ON = true) ∧
    (∃ (s : State), s.alive = true ∧ s.get ID_DOMST_WSTATE = 3 ∧ s.bit DK_ST_ON = true) ∧
    (∃ (s : State), s.alive = true ∧ s.get ID_DOMST_WSTATE = 3 ∧ s.bit DK_ST_ON = false ∧ s.modes.workAgain = false ∧ s.modes.change = .closing) :=
  ⟨⟨(onAt 6).set ID_DOMST_WSTATE 1, by decide⟩,
   ⟨((onAt 6).set ID_DOMST_WSTATE 1).set DK_ST_ON 1, by decide⟩,
   ⟨((onAt 6).set ID_DOMST_WSTATE 3).set DK_ST_ON 1, by decide⟩,
   ⟨{ (onAt 7).set ID_DOMST_WSTATE 3 with modes := { change := .closing } }, by decide⟩⟩

theorem test_work_power_transitions_2 :
    (∃ (p : Proc) (addr : Nat) (s : State), s.alive = true ∧ workHidden s addr = true ∧ isRegister addr = true ∧ procSecure s p = false) ∧
    (∃ (init : Initiator) (addr : Nat) (s : State), s.alive = true ∧ workHidden s addr = true ∧ isRegister addr = true ∧ offViolation s init addr false = none) :=
  ⟨⟨.user, 0x1900, onAt 7, by decide⟩,
   ⟨.ssp, 0x1900, onAt 7, by decide⟩⟩


theorem test_servo_update_loads_the_increment_1 :
    (∃ (port : Port) (h : PtpHead) (t1 cap corr o : Int) (s : State), netRuns s = true ∧ s.pwr.released = true ∧ ptpTaken s h ptpAddress = true ∧ -4 ≤ h.logInt ∧ h.logInt ≤ 0 ∧ fromMaster s port h = true ∧ s.timeState = 2 ∧ s.bit TIME_ST_GUARD = false ∧ s.time.accepted = false ∧ s.time.guardTest = false ∧ beyondJump (takeSettings s) o = false ∧ ((s.get TIME_KP_KP : Int) * o + (s.get TIME_KI_KI : Int) * (s.time.acc + o)).natAbs ≤ s.get TIME_YMAX_PPB * 2 ^ 32 ∧ o = ingressTime s port cap - t1 - corr - linkDelay s port) ∧
    (∃ (port : Port) (h : PtpHead) (_t1 _cap _corr : Int) (s : State), netRuns s = true ∧ s.pwr.released = true ∧ ptpTaken s h ptpAddress = true ∧ -4 ≤ h.logInt ∧ h.logInt ≤ 0 ∧ fromMaster s port h = true) ∧
    (∃ (port : Port) (h : PtpHead) (_t1 _corr : Int) (x : PendSync) (s : State), netRuns s = true ∧ (s.time.sync.find? (fun x => x.names port h s.pwr.ticks) = some x) ∧ ptpTaken s h ptpAddress = true ∧ fromMaster s port h = true ∧ s.bit TIME_ST_GUARD = true) ∧
    (∃ (port : Port) (h : PtpHead) (t1 corr o : Int) (x : PendSync) (s : State), netRuns s = true ∧ (s.time.sync.find? (fun x => x.names port h s.pwr.ticks) = some x) ∧ ptpTaken s h ptpAddress = true ∧ fromMaster s port h = true ∧ s.timeState = 2 ∧ s.bit TIME_ST_GUARD = false ∧ s.time.accepted = false ∧ s.time.guardTest = false ∧ beyondJump (takeSettings s) o = false ∧ ((s.get TIME_KP_KP : Int) * o + (s.get TIME_KI_KI : Int) * (s.time.acc + o)).natAbs ≤ s.get TIME_YMAX_PPB * 2 ^ 32 ∧ o = x.t2 - t1 - (x.corr + corr) - linkDelay s port) :=
  ⟨⟨.a, { clock := 5 }, ingressTime State.reset .a 100, 100, 0, 0, { (State.set (State.set { (onAt 6) with pwr := { phase := .running, booted := true, released := true } } TIME_ST_STATE 2) TIME_ST_SLAVEPORT 1) with time := { master := some (5, 1) } }, by decide, by decide, by decide, by decide, by decide, by decide, by decide, by decide, by decide, by decide, by decide, by decide, by simp [linkDelay, meanOf, TimeState.delays]; exact (Int.sub_self (ingressTime State.reset .a 100)).symm⟩,
   ⟨.a, { clock := 5 }, 0, 0, 0, { (State.set { (onAt 6) with pwr := { phase := .running, booted := true, released := true } } TIME_ST_SLAVEPORT 1) with time := { master := some (5, 1) } }, by decide⟩,
   ⟨.b, { clock := 5 }, 0, 0, ⟨.b, 0, 5, 1, 5, 0, 9⟩, { (State.set (State.set { (onAt 6) with pwr := { phase := .running, booted := true, released := true } } TIME_ST_SLAVEPORT 2) TIME_ST_GUARD 1) with time := { master := some (5, 1), sync := [⟨.b, 0, 5, 1, 5, 0, 9⟩] } }, by decide⟩,
   ⟨.b, { clock := 5 }, 3, 0, 2, ⟨.b, 0, 5, 1, 5, 0, 9⟩, { (State.set (State.set { (onAt 6) with pwr := { phase := .running, booted := true, released := true } } TIME_ST_STATE 2) TIME_ST_SLAVEPORT 2) with time := { master := some (5, 1), sync := [⟨.b, 0, 5, 1, 5, 0, 9⟩] } }, by decide⟩⟩

theorem test_servo_update_loads_the_increment_2 :
    (∃ (_port : Port) (_seq : Nat) (s : State), netRuns s = true) :=
  ⟨.b, 1, { { (onAt 6) with pwr := { phase := .running, booted := true, released := true } } with time := { sync := [⟨.b, 1, 5, 1, 0, 0, 0⟩] } }, by decide⟩


theorem test_a_step_beyond_the_jump_threshold_is_refused :
    (∃ (port : Port) (h : PtpHead) (t1 cap corr o : Int) (s : State), netRuns s = true ∧ s.pwr.released = true ∧ ptpTaken s h ptpAddress = true ∧ -4 ≤ h.logInt ∧ h.logInt ≤ 0 ∧ fromMaster s port h = true ∧ (s.timeState = 1 ∨ s.timeState = 2 ∨ s.timeState = 3) ∧ s.bit TIME_ST_GUARD = false ∧ s.time.accepted = false ∧ s.time.guardTest = false ∧ beyondJump (takeSettings s) o = true ∧ o = ingressTime s port cap - t1 - corr - linkDelay s port) :=
  ⟨.a, { clock := 5 }, ingressTime State.reset .a 100 - 65536000000000, 100, 0, 65536000000000, { (State.set (State.set { (onAt 6) with pwr := { phase := .running, booted := true, released := true } } TIME_ST_STATE 2) TIME_ST_SLAVEPORT 1) with time := { master := some (5, 1) } }, by decide, by decide, by decide, by decide, by decide, by decide, by decide, by decide, by decide, by decide, by decide, by simp [linkDelay, meanOf, TimeState.delays]; exact (Int.sub_sub_self (ingressTime State.reset .a 100) 65536000000000).symm⟩


theorem test_the_counter_is_set_only_by_the_initial_set_and_an_accepted_step :
    (∃ (o : Int) (s : State), s.live = true ∧ s.timeState = 0 ∧ s.time.initOfs = some o) ∧
    (∃ (s : State), s.live = true ∧ s.timeState = 4 ∧ s.time.accepted = true) ∧
    (∃ (door : Initiator) (s : State), doorOpen s door 0x202 = true ∧ s.timeState = 4 ∧ s.time.cand = true) ∧
    (∃ (door : Initiator) (s : State), doorOpen s door 0x202 = true ∧ s.timeState ≠ 4) :=
  ⟨⟨-655360000, { { (onAt 6) with pwr := { phase := .running, booted := true, released := true } } with time := { initOfs := some (-655360000) } }, by decide⟩,
   ⟨{ (State.set { (onAt 6) with pwr := { phase := .running, booted := true, released := true } } TIME_ST_STATE 4) with time := { accepted := true, cand := true } }, by decide⟩,
   ⟨.host 0, { (State.set { (onAt 6) with pwr := { phase := .running, booted := true, released := true } } TIME_ST_STATE 4) with time := { cand := true }, tally := { hosts := [⟨5, 0⟩] } }, by decide⟩,
   ⟨.proc .sup, { (onAt 6) with pwr := { phase := .running, booted := true, released := true } }, by decide⟩⟩


theorem test_masters_links_and_the_guard_1 :
    (∃ (port : Port) (h : PtpHead) (ds d0 : Dataset) (a e : Nat) (s : State), netRuns s = true ∧ ptpTaken s h ptpAddress = true ∧ -3 ≤ h.logInt ∧ h.logInt ≤ 3 ∧ h.clock ≠ clockIdentity s ∧ s.time.heard = [⟨port, h.clock, h.port, d0, 1, a, e⟩] ∧ s.pwr.ticks ≤ a + 4 * e ∧ ds.steps < 255) ∧
    (∃ (p : Port) (s : State), netRuns s = true ∧ slavePort s = some p ∧ s.timeState = 2 ∧ s.bit TIME_ST_GUARD = false) ∧
    (∃ (_targets : ClassB) (s : State), netRuns s = true ∧ s.bit TIME_ST_GUARD = true ∧ s.time.guardOfs = none ∧ s.time.lost = false) ∧
    (∃ (_targets : ClassB) (s : State), netRuns s = true ∧ s.bit TIME_ST_GUARD = true ∧ s.timeState = 2) :=
  ⟨⟨.a, { clock := 5, dst := ptpAddress }, {}, {}, 0, 9, { { (onAt 6) with pwr := { phase := .running, booted := true, released := true } } with time := { heard := [⟨.a, 5, 1, {}, 1, 0, 9⟩] } }, by decide⟩,
   ⟨.a, State.set (State.set { (onAt 6) with pwr := { phase := .running, booted := true, released := true } } TIME_ST_STATE 2) TIME_ST_SLAVEPORT 1, by decide⟩,
   ⟨{}, State.set { (onAt 6) with pwr := { phase := .running, booted := true, released := true } } TIME_ST_GUARD 1, by decide⟩,
   ⟨{}, State.set (State.set { (onAt 6) with pwr := { phase := .running, booted := true, released := true } } TIME_ST_STATE 2) TIME_ST_GUARD 1, by decide⟩⟩

theorem test_masters_links_and_the_guard_2 :
    (∃ (port : Port) (_seq : Nat) (_cap : Int) (s : State), netRuns s = true ∧ linkUp s port = true) ∧
    (∃ (port : Port) (h : PtpHead) (_capIn _capOut : Int) (s : State), netRuns s = true ∧ linkUp s port = true ∧ ptpTaken s h pdelayAddress = true) ∧
    (∃ (port : Port) (h : PtpHead) (_t2 _t3 _corr _cap x : Int) (s : State), netRuns s = true ∧ ptpTaken s h pdelayAddress = true ∧ openReq s.time port = some (h.seq, x)) ∧
    (∃ (ingress : Port) (h : PtpHead) (_corr _capIn _capOut : Int) (s : State), netRuns s = true ∧ linkUp s ingress.other = true ∧ queueFull s ingress.other.egress 0 64 = false ∧ ptpTaken s h ptpAddress = true) :=
  ⟨⟨.b, 3, 7, (State.set (State.set { (onAt 6) with pwr := { phase := .running, booted := true, released := true } } PORT_ST_LINKB 1) PORT_ST_A 0x20), by decide⟩,
   ⟨.a, { dst := pdelayAddress }, 10, 90, (State.set (State.set { (onAt 6) with pwr := { phase := .running, booted := true, released := true } } PORT_ST_LINKB 1) PORT_ST_A 0x20), by decide⟩,
   ⟨.a, { dst := pdelayAddress, seq := 4 }, 0, 100, 200, 400, 9, { { (onAt 6) with pwr := { phase := .running, booted := true, released := true } } with time := { pdReqA := some (4, 9) } }, by decide⟩,
   ⟨.a, {}, 0, 0, 65536, (State.set (State.set { (onAt 6) with pwr := { phase := .running, booted := true, released := true } } PORT_ST_LINKB 1) PORT_ST_A 0x20), by decide⟩⟩

theorem test_masters_links_and_the_guard_3 :
    (∃ (ingress : Port) (h : PtpHead) (_corr _capIn _capOut : Int) (x : Transit) (s : State), netRuns s = true ∧ linkUp s ingress.other = true ∧ queueFull s ingress.other.egress 0 64 = false ∧ ptpTaken s h ptpAddress = true ∧ (s.time.transit.find? (fun x => x.names ingress h s.pwr.ticks) = some x)) :=
  ⟨.b, { clock := 6 }, 3, 0, 0, ⟨.b, 0, 6, 1, 77, 9⟩, { (State.set (State.set { (onAt 6) with pwr := { phase := .running, booted := true, released := true } } PORT_ST_LINKB 1) PORT_ST_A 0x20) with time := { transit := [⟨.b, 0, 6, 1, 77, 9⟩] } }, by decide⟩


theorem test_snapshots_and_frequency_estimates :
    (∃ (door : Initiator) (s : State), doorOpen s door 0x202 = true) ∧
    (∃ (n : Nat) (s : State), s.live = true ∧ s.locked = true ∧ 3 ≤ n ∧ s.mode = 6) ∧
    (∃ (n : Nat) (s : State), s.live = true ∧ s.locked = true ∧ n < 3) :=
  ⟨⟨.proc .net, { (onAt 6) with pwr := { phase := .running, booted := true, released := true } }, by decide⟩,
   ⟨3, State.set { (onAt 6) with pwr := { phase := .running, booted := true, released := true } } TIME_ST_STATE 2, by decide⟩,
   ⟨0, State.set { (onAt 6) with pwr := { phase := .running, booted := true, released := true } } TIME_ST_STATE 2, by decide⟩⟩


theorem test_ranges_follow_their_decisions :
    (∃ (axis : Fin 10) (code : Int) (s : State), s.alive = true ∧ autoMode s axis = true ∧ axisRuns s axis = true ∧ 6451 < code.natAbs ∧ s.get (AX_ST_PRANGE axis) < topRange axis ∧ rangeHeld s axis = false ∧ runAxis s ≠ some axis) ∧
    (∃ (axis : Fin 10) (runs : List (Nat × Nat)) (s : State), s.alive = true ∧ autoMode s axis = true ∧ axisRuns s axis = true ∧ 0 < s.get (AX_ST_PRANGE axis) ∧ s.axes[axis].pendRange = none ∧ runAxis s ≠ some axis ∧ rangeHeld s axis = false ∧ 100000 ≤ quietAfter false (downThreshold axis) s.axes[axis].quiet runs) ∧
    (∃ (axis : Fin 10) (n peak : Nat) (s : State), s.alive = true ∧ autoMode s axis = true ∧ axisRuns s axis = true ∧ 0 < s.get (AX_ST_PRANGE axis) ∧ s.axes[axis].pendRange = none ∧ runAxis s ≠ some axis ∧ 0 < n ∧ s.axes[axis].quiet + n < 100000 ∧ peak < downThreshold axis) ∧
    (∃ (axis : Fin 10) (r : Nat) (s : State), s.alive = true ∧ s.axes[axis].pendRange = some r ∧ s.get (AX_ST_PRANGE axis) < r ∧ r < 4 ∧ runAxis s ≠ some axis) :=
  ⟨⟨0, -6500, (((onAt 6).set (AX_ST_PRANGE 0) 1).set (AX_CFG_AUTO 0) 1).set (CV_ST_GATED 0) 0, by decide⟩,
   ⟨0, [(60000, 200), (40000, 357)], (((onAt 6).set (AX_ST_PRANGE 0) 1).set (AX_CFG_AUTO 0) 1).set (CV_ST_GATED 0) 0, by decide⟩,
   ⟨0, 50000, 357, (((onAt 6).set (AX_ST_PRANGE 0) 1).set (AX_CFG_AUTO 0) 1).set (CV_ST_GATED 0) 0, by decide⟩,
   ⟨6, 1, { (onAt 6).set (AX_ST_PRANGE 6) 0 with axes := Vector.ofFn fun (i : Fin 10) => if i.val = 6 then { pendRange := some 1 } else {} }, by decide⟩⟩


theorem test_axis_configuration_and_excitation_1 :
    (∃ (door : Initiator) (axis : Fin 10) (v : Word) (s : State), doorOpen s door (0x400 + 0x40 * axis.val) = true ∧ axis.val < 3 ∧ getBits v 4 2 ≠ s.get (AX_CFG_EXCLVL axis)) ∧
    (∃ (door : Initiator) (axis : Fin 10) (v : Word) (s : State), doorOpen s door (0x400 + 0x40 * axis.val) = true ∧ (axis.val < 3 ∨ (6 ≤ axis.val ∧ axis.val < 9)) ∧ getBits v 4 2 = s.get (AX_CFG_EXCLVL axis) ∧ s.get (AX_CFG_AUTO axis) = 1 ∧ getBits v 2 1 = 0 ∧ getBits v 0 2 ≤ topRange axis ∧ axisRuns s axis = true ∧ getBits v 0 2 ≠ s.get (AX_ST_PRANGE axis)) ∧
    (∃ (door : Initiator) (axis : Fin 10) (v : Word) (s : State), doorOpen s door (0x400 + 0x40 * axis.val) = true ∧ 3 ≤ axis.val ∧ axis.val < 6 ∧ getBits v 4 2 = s.get (AX_CFG_EXCLVL axis) ∧ getBits v 0 2 ≤ topRange axis ∧ getBits v 0 2 ≠ s.get (AX_CFG_RANGE axis) ∧ s.slots[(axisSlot axis)].en = true ∧ s.slots[(axisSlot axis)].resume = false ∧ runAxis s ≠ some axis ∧ (s.get (ML_ST_STATE axis) = 0 ∨ s.get (ML_ST_STATE axis) = 5)) ∧
    (∃ (door : Initiator) (_v : Word) (s : State), doorOpen s door 0x640 = true) :=
  ⟨⟨.proc .sup, 1, 0x4016, onAt 6, by decide⟩,
   ⟨.proc .sup, 6, 0, (((((onAt 6).set (CV_ST_GATED 6) 0).set (AX_CFG_EXCLVL 6) 0).set (AX_CFG_AUTO 6) 1).set (AX_ST_PRANGE 6) 1).set DRV_ST_LOCK 1, by decide⟩,
   ⟨.proc .sup, 3, 1, { ((onAt 6).set (AX_CFG_EXCLVL 3) 0).set (AX_CFG_RANGE 3) 0 with slots := Vector.ofFn fun (i : Fin 16) => if i.val = 3 then { en := true } else {} }, by decide⟩,
   ⟨.proc .sup, 0xFFFF, onAt 6, by decide⟩⟩

theorem test_axis_configuration_and_excitation_2 :
    (∃ (axis : Fin 10) (s : State), s.alive = true ∧ s.axes[axis].pendExc = true ∧ s.bit (CV_ST_GATED axis) = false ∧ s.slots[(axisSlot axis)].en = true ∧ s.slots[(axisSlot axis)].resume = false ∧ runAxis s ≠ some axis ∧ (s.get (ML_ST_STATE axis) = 0 ∨ s.get (ML_ST_STATE axis) = 5)) ∧
    (∃ (axis : Fin 10) (s : State), s.alive = true ∧ s.axes[axis].pendExc = true ∧ s.bit (CV_ST_GATED axis) = false ∧ s.slots[(axisSlot axis)].en = false ∧ runAxis s ≠ some axis) :=
  ⟨⟨4, { onAt 6 with slots := Vector.ofFn fun (i : Fin 16) => if i.val = 4 then { en := true } else {}, axes := Vector.ofFn fun (i : Fin 10) => if i.val = 4 then { pendExc := true } else {} }, by decide⟩,
   ⟨4, { onAt 6 with axes := Vector.ofFn fun (i : Fin 10) => if i.val = 4 then { pendExc := true } else {} }, by decide⟩⟩


theorem test_the_rate_drive_locks_and_unlocks :
    (∃ (freq : Nat) (axis : Fin 10) (s : State), s.alive = true ∧ s.get ID_DOMST_RATEG = 0 ∧ s.get DRV_ST_LOCK = 0 ∧ freq < 65536 ∧ 6 ≤ axis.val ∧ axis.val < 9 ∧ startTime s < 65536) ∧
    (∃ (axis : Fin 10) (s : State), s.alive = true ∧ s.get DRV_ST_LOCK = 1 ∧ 6 ≤ axis.val ∧ axis.val < 9) :=
  ⟨⟨20000, 7, { (onAt 6).set ID_DOMST_RATEG 0 with slots := Vector.replicate 16 { en := true } }, by decide⟩,
   ⟨6, (onAt 6).set DRV_ST_LOCK 1, by decide⟩⟩


theorem test_housekeeping_runs_its_sequence_and_injections_1 :
    (∃ (door : Initiator) (v : Word) (s : State), doorOpen s door 0x800 = true ∧ s.get HK_CTL_REFEN = 0 ∧ getBits v 4 1 = 1 ∧ getBits v 24 8 ≠ 0) ∧
    (∃ (s : State), s.alive = true ∧ s.get HK_CTL_REFEN = 1 ∧ s.get HK_ST_REFRDY = 0) ∧
    (∃ (s : State), sequenceRuns s = true ∧ s.hk.passDue = true ∧ hkRefusal (hkShadow s) = 0) ∧
    (∃ (s : State), sequenceRuns s = true ∧ s.hk.passDue = true ∧ hkRefusal (hkShadow s) ≠ 0) :=
  ⟨⟨.proc .sup, 0x05000017, (onAt 6).set HK_CTL_REFEN 0, by decide⟩,
   ⟨((onAt 6).set HK_CTL_REFEN 1).set HK_ST_REFRDY 0, by decide⟩,
   ⟨{ State.set { (onAt 6) with pwr := { phase := .running, booted := true, released := true } } HK_ST_APPLYPEND 1 with hk := { passDue := true } }, by decide⟩,
   ⟨{ State.set (State.set { (onAt 6) with pwr := { phase := .running, booted := true, released := true } } HK_ST_APPLYPEND 1) HK_CTL_LEN 0 with hk := { passDue := true } }, by decide⟩⟩

theorem test_housekeeping_runs_its_sequence_and_injections_2 :
    (∃ (_xs : List Int) (_targets : ClassB) (s : State), sequenceRuns s = true ∧ s.hk.passDue = false ∧ s.live = true ∧ s.bit MD_CFG_AUTOCLEAN = false ∧ refNotSettled s (hkEntryTime (hkEntry s (s.get HK_ST_ENTRY))) = false ∧ s.get HK_ST_ENTRY < s.hk.len ∧ s.hk.len < 16 ∧ 5 ≤ hkInput (hkEntry s (s.get HK_ST_ENTRY)) ∧ hkInput (hkEntry s (s.get HK_ST_ENTRY)) ≠ 15) ∧
    (∃ (door : Initiator) (s : State), doorOpen s door 0x801 = true) ∧
    (∃ (door : Initiator) (s : State), doorOpen s door 0x801 = true ∧ injPending s 2 = false ∧ s.bit (HK_INJCFG_ABORT 2) = false) ∧
    (∃ (door : Initiator) (s : State), doorOpen s door 0x801 = true ∧ injPending s 2 = true) :=
  ⟨⟨List.replicate 16 (55000 * 256), {}, { (State.set { (onAt 6) with pwr := { phase := .running, booted := true, released := true } } MD_CFG_AUTOCLEAN 0) with hk := { seq := [0x143f8000], refAt := some 0 } }, by decide⟩,
   ⟨.proc .sup, onAt 6, by decide⟩,
   ⟨.proc .sup, onAt 6, by decide⟩,
   ⟨.proc .sup, (onAt 6).set HK_ST_INJPEND 4, by decide⟩⟩

theorem test_housekeeping_runs_its_sequence_and_injections_3 :
    (∃ (s : State), s.alive = true ∧ s.pwr.released = true ∧ s.hk.run = none ∧ s.hk.turn = true ∧ s.hk.aborted = none ∧ injPending s 0 = false ∧ injPending s 1 = true) ∧
    (∃ (s : State), s.alive = true ∧ s.pwr.released = true ∧ s.hk.run = none ∧ s.hk.aborted = some 2 ∧ injPending s 2 = true ∧ s.get HK_ST_INJPEND < 8) ∧
    (∃ (_xs : List Int) (s : State), s.alive = true ∧ s.hk.run = some 2 ∧ refNotSettled s (hkEntryTime (s.word 0x832).toNat) = false) :=
  ⟨⟨{ State.set { (onAt 6) with pwr := { phase := .running, booted := true, released := true } } HK_ST_INJPEND 2 with hk := { turn := true } }, by decide⟩,
   ⟨{ State.set { (onAt 6) with pwr := { phase := .running, booted := true, released := true } } HK_ST_INJPEND 5 with hk := { aborted := some 2 } }, by decide⟩,
   ⟨[256, 512], { { (onAt 6) with pwr := { phase := .running, booted := true, released := true } } with hk := { run := some 2, refAt := some 0 } }, by decide⟩⟩


theorem test_system_calibration_captures_points_1 :
    (∃ (door : Initiator) (s : State), doorOpen s door 0x881 = true ∧ s.mode = 9 ∧ scalChannel s = true ∧ s.get SCAL_ST_BUSY = 0) ∧
    (∃ (door : Initiator) (s : State), doorOpen s door 0x881 = true ∧ s.mode ≠ 9) ∧
    (∃ (door : Initiator) (s : State), doorOpen s door 0x881 = true ∧ s.mode = 9 ∧ scalChannel s = true ∧ s.get SCAL_ST_BUSY = 0 ∧ s.scal.zch = some (s.get SCAL_CTL_CH) ∧ s.get SCAL_CTL_STIM = 0) ∧
    (∃ (door : Initiator) (s : State), doorOpen s door 0x881 = true ∧ s.mode = 9 ∧ s.get SCAL_ST_BUSY = 1) :=
  ⟨⟨.ssp, { onAt 9 with pwr := { phase := .running, booted := true, serialB := true } }, by decide⟩,
   ⟨.proc .sup, onAt 6, by decide⟩,
   ⟨.ssp, { onAt 9 with pwr := { phase := .running, booted := true, serialB := true }, scal := { zch := some 0 } }, by decide⟩,
   ⟨.ssp, ({ onAt 9 with pwr := { phase := .running, booted := true, serialB := true } } : State).set SCAL_ST_BUSY 1, by decide⟩⟩

theorem test_system_calibration_captures_points_2 :
    (∃ (door : Initiator) (s : State), doorOpen s door 0x881 = true ∧ s.mode = 9 ∧ s.get SCAL_CTL_CH < 9 ∧ s.tally.image = none) ∧
    (∃ (c : Nat) (s : State), s.alive = true ∧ s.get SCAL_ST_BUSY = 1 ∧ s.get SCAL_ST_STATE = 1 ∧ s.scal.ch = some c ∧ captureOver s c = true ∧ windowFailure s c = 0) :=
  ⟨⟨.ssp, { onAt 9 with pwr := { phase := .running, booted := true, serialB := true } }, by decide⟩,
   ⟨3, { ((onAt 9).set SCAL_ST_BUSY 1).set SCAL_ST_STATE 1 with scal := { ch := some 3, run := { first := some 0, upto := 32000000000, n := 3, sum := 3 * 2560 * 2 ^ 34 } }, slots := Vector.ofFn fun (i : Fin 16) => if i.val = 3 then { en := true } else {} }, by decide⟩⟩


theorem test_aux_functions_change_at_their_boundary_1 :
    (∃ (door : Initiator) (_cfg prb : Word) (s : State), doorOpen s door 0xA00 = true ∧ getBits prb 0 2 ≤ 1) ∧
    (∃ (door : Initiator) (_cfg prb : Word) (s : State), doorOpen s door 0xA00 = true ∧ 1 < getBits prb 0 2) ∧
    (∃ (w : Nat) (s : State), s.alive = true ∧ s.aux.pend = some w ∧ w < s.second * 8000000000 ∧ s.time.base ≤ s.second * 8000000000 ∧ s.pwr.serialB = false) ∧
    (∃ (door : Initiator) (s : State), doorOpen s door 0xA07 = true ∧ s.mode = 9 ∧ s.aux.func = 2 ∧ s.pwr.serialB = false ∧ s.get AUX_ST_LEADBUSY = 0) :=
  ⟨⟨.proc .ana0, 0x12, 1, ((onAt 6).set WK_MAPB_BLOCKS 9).set ID_DOMST_WSTATE 2, by decide⟩,
   ⟨.proc .sup, 0x1, 2, onAt 6, by decide⟩,
   ⟨7999999999, State.set { onAt 6 with aux := { pend := some 7999999999 }, time := { sec := 1 }, slots := Vector.replicate 16 { en := true } } AUX_CFG_FUNC 1, by decide⟩,
   ⟨.proc .sup, { onAt 9 with aux := { func := 2 } }, by decide⟩⟩

theorem test_aux_functions_change_at_their_boundary_2 :
    (∃ (door : Initiator) (s : State), doorOpen s door 0xA07 = true ∧ (s.mode ≠ 9 ∨ s.aux.func ≠ 2)) ∧
    (∃ (s : State), s.alive = true ∧ s.get AUX_ST_LEADBUSY = 1 ∧ leadSpoiled s = false ∧ s.aux.lead.full 16000000000 = true ∧ 0 ≤ leadMean s.aux.lead ∧ leadMean s.aux.lead ≤ 50000) ∧
    (∃ (s : State), s.alive = true ∧ s.get AUX_ST_LEADBUSY = 1 ∧ (leadSpoiled s = true ∨ (s.aux.lead.full 16000000000 = true ∧ (leadMean s.aux.lead < 0 ∨ 50000 < leadMean s.aux.lead)))) :=
  ⟨⟨.proc .sup, onAt 6, by decide⟩,
   ⟨{ (onAt 9).set AUX_ST_LEADBUSY 1 with aux := { lead := { first := some 0, upto := 16000000000, n := 2, sum := 2 * 50000 * 2 ^ 42 } }, slots := Vector.replicate 16 { en := true } }, by decide⟩,
   ⟨{ (onAt 9).set AUX_ST_LEADBUSY 1 with aux := { lead := { first := some 0, upto := 16000000000, n := 2, sum := 2 * 50001 * 2 ^ 42 } }, slots := Vector.replicate 16 { en := true } }, by decide⟩⟩


theorem test_aux_clamps_edges_and_output_faults_1 :
    (∃ (_ticks : Nat) (s : State), s.alive = true ∧ s.bit AUX_ST_CLAMP = false ∧ driverOn s = false ∧ injPending s 0 = false ∧ s.bit (HK_INJCFG_ABORT 0) = false) ∧
    (∃ (_ticks : Nat) (s : State), s.alive = true ∧ s.bit AUX_ST_CLAMP = false ∧ driverOn s = true ∧ injPending s 0 = true) ∧
    (∃ (v : Int) (s : State), s.alive = true ∧ s.aux.func = 1 ∧ s.pwr.serialB = false ∧ s.aux.comp = false ∧ s.bit AUX_ST_LEVEL = false ∧ signed (auxGet s AUX_IN_VHI) 8 * 25000 + auxTrim s 8 < v) ∧
    (∃ (v : Int) (s : State), s.alive = true ∧ s.aux.func = 1 ∧ s.pwr.serialB = false ∧ s.aux.comp = true ∧ s.bit AUX_ST_LEVEL = true ∧ v < signed (auxGet s AUX_IN_VLO) 8 * 25000 + auxTrim s 0 ∧ v ≤ signed (auxGet s AUX_IN_VHI) 8 * 25000 + auxTrim s 8) :=
  ⟨⟨900, (onAt 6).set (HK_INJCFG_ABORT 0) 0, by decide⟩,
   ⟨1, { (onAt 6).set HK_ST_INJPEND 1 with aux := { func := 3 } }, by decide⟩,
   ⟨9000000, { onAt 6 with aux := { func := 1 } }, by decide⟩,
   ⟨-9000000, State.set { onAt 6 with aux := { func := 1, comp := true } } AUX_ST_LEVEL 1, by decide⟩⟩

theorem test_aux_clamps_edges_and_output_faults_2 :
    (∃ (p : Nat) (rest : List Nat) (s : State), s.alive = true ∧ s.aux.func = 1 ∧ s.pwr.serialB = false ∧ s.aux.comp = true ∧ s.bit AUX_ST_LEVEL = false ∧ pulseHeld s = true ∧ s.bit AUX_ST_STUCK = false ∧ s.aux.compOld = false ∧ auxGet s AUX_TACH_EDGE = 0 ∧ s.aux.edges = p :: rest ∧ s.bit AUX_ST_OVSPD = false ∧ 4000 ≤ s.aux.compAt - p ∧ s.aux.compAt - p < 2 ^ 32) ∧
    (∃ (p : Nat) (rest : List Nat) (s : State), s.alive = true ∧ s.aux.func = 1 ∧ s.pwr.serialB = false ∧ s.aux.comp = true ∧ s.bit AUX_ST_LEVEL = false ∧ pulseHeld s = true ∧ s.bit AUX_ST_STUCK = false ∧ s.aux.compOld = false ∧ auxGet s AUX_TACH_EDGE = 0 ∧ s.aux.edges = p :: rest ∧ s.bit AUX_ST_OVSPD = false ∧ s.aux.compAt - p < 4000) ∧
    (∃ (s : State), s.alive = true ∧ s.aux.func = 1 ∧ s.pwr.serialB = false ∧ s.aux.comp = !s.bit AUX_ST_LEVEL ∧ pulseHeld s = false) ∧
    (∃ (s : State), s.alive = true ∧ s.aux.func = 1 ∧ s.pwr.serialB = false ∧ stuckTime s = true ∧ s.bit AUX_ST_STUCK = false) :=
  ⟨⟨100, [], { onAt 6 with aux := { func := 1, comp := true, compAt := 4054154, edges := [100] }, time := { sec := 1 } }, by decide⟩,
   ⟨100, [], { onAt 6 with aux := { func := 1, comp := true, compAt := 4099, edges := [100] }, time := { sec := 1 } }, by decide⟩,
   ⟨{ onAt 6 with aux := { func := 1, comp := true, compAt := 9 } }, by decide⟩,
   ⟨{ onAt 6 with aux := { func := 1 }, pwr := { (onAt 6).pwr with ticks := 2000000000 } }, by decide⟩⟩

theorem test_aux_clamps_edges_and_output_faults_3 :
    (∃ (s : State), s.alive = true ∧ driverOn s = true) ∧
    (∃ (s : State), s.alive = true ∧ s.aux.func = 3 ∧ s.pwr.serialB = false ∧ s.aux.outOff = true ∧ s.aux.offAt + 20000000 ≤ s.pwr.ticks ∧ s.bit AUX_ST_CLAMP = false) :=
  ⟨⟨{ onAt 6 with aux := { func := 3 } }, by decide⟩,
   ⟨{ onAt 6 with aux := { func := 3, outOff := true }, pwr := { (onAt 6).pwr with ticks := 20000000 } }, by decide⟩⟩


theorem test_every_grid_slot_yields_one_numbered_record_1 :
    (∃ (slot : Fin 16) (time : Nat) (_sp : Live) (_taken : Nat) (s : State), s.live = true ∧ s.pwr.released = true ∧ s.slots[slot].en = true ∧ nextGrid s slot time = true ∧ changeDue s slot time = false ∧ s.modes.stopped = false ∧ s.pwr.sealed = false ∧ s.slots[slot].chg = none ∧ s.slots[slot].queued < 2 ^ 48) ∧
    (∃ (slot : Fin 16) (time : Nat) (_sp : Live) (taken : Nat) (n : Fin 32) (s : State), s.live = true ∧ s.pwr.released = true ∧ s.slots[slot].en = true ∧ nextGrid s slot time = true ∧ changeDue s slot time = false ∧ s.modes.stopped = false ∧ s.pwr.sealed = false ∧ s.slots[slot].chg = none ∧ taken.testBit (4 + s.an.setups[n].proc) = true ∧ s.an.setups[n].proc < 2 ∧ (s.get (LD_ATT_ATT slot)).testBit (4 + s.an.setups[n].proc) = true ∧ (landWants s slot).testBit (4 + s.an.setups[n].proc) = true ∧ s.deck.land[slot].nextOf (4 + s.an.setups[n].proc) = s.slots[slot].queued ∧ s.deck.chunks.length < 2048 ∧ (∀ c ∈ s.deck.chunks, c.slot = slot.val → c.first + c.n ≤ s.slots[slot].queued ∧ (c.filling = true → c.first + c.n = s.slots[slot].queued)) ∧ s.an.setups[n].defined = true ∧ s.an.setups[n].ref = 0 ∧ s.an.setups[n].slot = slot ∧ s.an.setups[n].resync = false) ∧
    (∃ (time : Nat) (_sp : Live) (_taken : Nat) (s : State), s.live = true ∧ s.pwr.released = true ∧ s.slots[(15 : Fin 16)].en = true ∧ nextGrid s 15 time = true ∧ changeDue s 15 time = false ∧ s.modes.stopped = false ∧ s.pwr.sealed = false ∧ s.slots[(15 : Fin 16)].chg = none) ∧
    (∃ (slot : Fin 16) (time : Nat) (_sp : Live) (_taken : Nat) (s : State), s.live = true ∧ s.pwr.released = true ∧ s.slots[slot].en = true ∧ nextGrid s slot time = true ∧ changeDue s slot time = false ∧ s.modes.stopped = false ∧ s.pwr.sealed = false ∧ s.slots[slot].chg = none ∧ s.mode = 11 ∧ slot ≠ 15) :=
  ⟨⟨3, 8000000000, { win := [{ t := 65536000000000000, xs := [5, 7] }], q := [(7999999999, 5)] }, 63, { onAt 6 with pwr := { phase := .running, booted := true, released := true }, slots := Vector.ofFn fun (i : Fin 16) => if i.val = 3 then { en := true, rate := 7, nextT := some 8000000000 } else {} }, by decide⟩,
   ⟨3, 8000000000, {}, 63, 4, ((({ onAt 6 with pwr := { phase := .running, booted := true, released := true }, an := { watch0 := 8, setups := (Vector.replicate 32 ({} : SetupState)).set 4 { tags := [(1, 0), (2, 1), (3, 3)] } }, slots := Vector.ofFn fun (i : Fin 16) => if i.val = 3 then { en := true, rate := 7, nextT := some 8000000000 } else {} } : State).set AN_ST_RUN0 1).set (LD_ATT_ATT 3) 16), by decide⟩,
   ⟨8000000000, {}, 0, { onAt 6 with pwr := { phase := .running, booted := true, released := true }, slots := Vector.ofFn fun (i : Fin 16) => if i.val = 15 then { en := true, rate := 10, nextT := some 8000000000 } else {} }, by decide⟩,
   ⟨3, 8000000000, {}, 0, { onAt 11 with pwr := { phase := .running, booted := true, released := true }, slots := Vector.ofFn fun (i : Fin 16) => if i.val = 3 then { en := true, rate := 7, nextT := some 8000000000 } else {} }, by decide⟩⟩

theorem test_every_grid_slot_yields_one_numbered_record_2 :
    (∃ (slot : Fin 16) (time : Nat) (w : Window) (_q : List (Nat × Int)) (_taken : Nat) (s : State), s.live = true ∧ s.pwr.released = true ∧ s.slots[slot].en = true ∧ nextGrid s slot time = true ∧ changeDue s slot time = false ∧ s.modes.stopped = false ∧ s.slots[slot].chg = none ∧ slot.val ≤ 10 ∧ (slot.val = 10 ∨ s.get (CV_ST_GATED slot) = 0) ∧ s.get CAL_GST_RUNAX ≠ slot.val ∧ s.slots[slot].winT < w.t ∧ s.slots[slot].trig = none ∧ s.slots[slot].mill.words + 1 < 2 ^ (s.slots[slot].rate + 1)) :=
  ⟨3, 8000000000, { t := 65536000000000000, xs := [5, 7] }, [], 63, { onAt 6 with pwr := { phase := .running, booted := true, released := true }, slots := Vector.ofFn fun (i : Fin 16) => if i.val = 3 then { en := true, rate := 7, nextT := some 8000000000 } else {} }, by decide⟩


theorem test_slots_enable_and_change_rate_at_second_boundaries_1 :
    (∃ (door : Initiator) (slot : Fin 16) (v : Word) (s : State), doorOpen s door (0x420 + 0x40 * slot.val) = true ∧ grFastest slot.val ≤ getBits v 0 4 ∧ getBits v 0 4 ≤ 10) ∧
    (∃ (door : Initiator) (slot : Fin 16) (v : Word) (s : State), doorOpen s door (0x420 + 0x40 * slot.val) = true ∧ (getBits v 0 4 < grFastest slot.val ∨ 10 < getBits v 0 4)) ∧
    (∃ (slot : Fin 16) (w S : Nat) (s : State), s.live = true ∧ s.modes.stopped = false ∧ 5 ≤ s.mode ∧ s.slots[slot].pendCfg = some w ∧ S = takesAt s w ∧ boundaryTakes s w = true ∧ changeReady s slot S = true ∧ s.slots[slot].en = false ∧ s.get (GR_CFG_EN slot) = 1) ∧
    (∃ (slot : Fin 16) (w S : Nat) (s : State), s.live = true ∧ s.modes.stopped = false ∧ 5 ≤ s.mode ∧ s.slots[slot].pendCfg = some w ∧ S = takesAt s w ∧ boundaryTakes s w = true ∧ changeReady s slot S = true ∧ s.slots[slot].en = true ∧ s.get (GR_CFG_EN slot) = 0 ∧ (s.slots[slot].nextT.all (fun u => decide (S ≤ u)) = true)) :=
  ⟨⟨.proc .sup, 9, 0x27, onAt 6, by decide⟩,
   ⟨.proc .sup, 9, 0x22, onAt 6, by decide⟩,
   ⟨4, 7000000000, 8000000000, State.set { { onAt 6 with time := { sec := 1 } } with slots := Vector.ofFn fun (i : Fin 16) => if i.val = 4 then { pendCfg := some 7000000000 } else {} } (GR_CFG_EN 4) 1, by decide⟩,
   ⟨4, 7000000000, 8000000000, State.set { { onAt 6 with time := { sec := 1 } } with slots := Vector.ofFn fun (i : Fin 16) => if i.val = 4 then { pendCfg := some 7000000000, en := true, rate := 7, nextT := some 8000000000 } else {} } (GR_CFG_EN 4) 0, by decide⟩⟩

theorem test_slots_enable_and_change_rate_at_second_boundaries_2 :
    (∃ (slot : Fin 16) (w S u : Nat) (s : State), s.live = true ∧ s.modes.stopped = false ∧ 5 ≤ s.mode ∧ s.slots[slot].pendCfg = some w ∧ S = takesAt s w ∧ boundaryTakes s w = true ∧ changeReady s slot S = true ∧ s.slots[slot].en = true ∧ s.get (GR_CFG_EN slot) = 0 ∧ s.slots[slot].nextT = some u ∧ u < S) ∧
    (∃ (slot : Fin 16) (w S : Nat) (s : State), s.live = true ∧ s.modes.stopped = false ∧ 5 ≤ s.mode ∧ s.slots[slot].pendCfg = some w ∧ S = takesAt s w ∧ boundaryTakes s w = true ∧ changeReady s slot S = true ∧ s.slots[slot].en = true ∧ s.get (GR_CFG_EN slot) = 1 ∧ s.slots[slot].rate ≠ s.get (GR_CFG_RATE slot) ∧ s.slots[slot].nextT = some S ∧ s.slots[slot].resume = false ∧ s.get CAL_GST_RUNAX = 15) :=
  ⟨⟨4, 7000000000, 8000000000, 7999999999, State.set ({ { onAt 6 with time := { sec := 1 } } with slots := Vector.ofFn fun (i : Fin 16) => if i.val = 4 then { pendCfg := some 7000000000, en := true, rate := 7, nextT := some 7999999999 } else {} }.set (ML_GD_NS 4) 40221440) (GR_CFG_EN 4) 0, by decide⟩,
   ⟨4, 7000000000, 8000000000, State.set ({ { onAt 6 with time := { sec := 1 } } with slots := Vector.ofFn fun (i : Fin 16) => if i.val = 4 then { pendCfg := some 7000000000, en := true, rate := 7, nextT := some 8000000000 } else {} }.set (GR_CFG_RATE 4) 9) (GR_CFG_EN 4) 1, by decide⟩⟩


theorem test_bank_swaps_run_their_course_1 :
    (∃ (door : Initiator) (addr : Nat) (_v : Word) (k : Nat) (s : State), bankWord addr = some k ∧ doorOpen s door addr = true ∧ bankState s (k / 2) (k % 2) = 0) ∧
    (∃ (door : Initiator) (addr : Nat) (_v : Word) (k : Nat) (s : State), bankWord addr = some k ∧ doorOpen s door addr = true ∧ bankState s (k / 2) (k % 2) ≠ 0) ∧
    (∃ (door : Initiator) (slot : Fin 11) (s : State), doorOpen s door (0x411 + 0x40 * slot.val) = true ∧ (s.get (ML_ST_STATE slot) = 3 ∨ s.get (ML_ST_STATE slot) = 4)) ∧
    (∃ (door : Initiator) (slot : Fin 11) (s : State), doorOpen s door (0x411 + 0x40 * slot.val) = true ∧ s.get (ML_ST_STATE slot) ≠ 2 ∧ s.get (ML_ST_STATE slot) ≠ 3 ∧ s.get (ML_ST_STATE slot) ≠ 4) :=
  ⟨⟨.proc .sup, 0x2005, 0x123456, 0, onAt 6, by decide⟩,
   ⟨.proc .sup, 0xC20, 1, 1, (onAt 6).set (ML_ST_BST1 0) 3, by decide⟩,
   ⟨.proc .sup, 10, (onAt 6).set (ML_ST_STATE 10) 3, by decide⟩,
   ⟨.proc .sup, 10, onAt 6, by decide⟩⟩

theorem test_bank_swaps_run_their_course_2 :
    (∃ (door : Initiator) (slot : Fin 11) (k n d : Nat) (s : State), doorOpen s door (0x411 + 0x40 * slot.val) = true ∧ s.get (ML_ST_STATE slot) = 2 ∧ k = bankOf slot (1 - s.get (ML_ST_ACT slot)) ∧ s.get (MB_HDR_SRC k) ≠ 3 ∧ s.get (MB_HDR_NBQ k) = 0 ∧ bankL s k s.slots[slot.val].rate = some n ∧ n ≤ 1048575 ∧ bankD s k s.slots[slot.val].rate = some d) ∧
    (∃ (slot : Fin 11) (s : State), s.alive = true ∧ s.get (ML_ST_STATE slot) = 3 ∧ s.get (ML_SREM_REM slot) = 0 ∧ swapRuns s slot.val = true) ∧
    (∃ (slot : Fin 11) (s : State), s.alive = true ∧ s.get (ML_ST_STATE slot) = 4 ∧ s.slots[slot.val].mill.fadeLen ≤ s.slots[slot.val].mill.fade ∧ swapRuns s slot.val = true) :=
  ⟨⟨.proc .sup, 5, 11, 64, 40221440, State.set (State.set { onAt 6 with slots := Vector.ofFn fun (i : Fin 16) => if i.val = 5 then { en := true, rate := 7 } else {} } (ML_ST_STATE 5) 2) (ML_ST_BST0 5) 3, by decide⟩,
   ⟨5, (onAt 6).set (ML_ST_STATE 5) 3, by decide⟩,
   ⟨5, (onAt 6).set (ML_ST_STATE 5) 4, by decide⟩⟩


theorem test_synchronising_resets_suppress_1 :
    (∃ (door : Initiator) (slot : Fin 11) (s : State), doorOpen s door (0x411 + 0x40 * slot.val) = true ∧ s.slots[slot.val].en = true ∧ s.slots[slot.val].resume = false ∧ s.get CAL_GST_RUNAX = 15) ∧
    (∃ (door : Initiator) (slot : Fin 11) (s : State), doorOpen s door (0x411 + 0x40 * slot.val) = true ∧ s.slots[slot.val].en = false) ∧
    (∃ (door : Initiator) (s : State), doorOpen s door 0xB00 = true ∧ s.get CAL_GST_RUNAX = 15) ∧
    (∃ (slot : Fin 11) (s : State), s.alive = true ∧ s.slots[slot.val].en = true ∧ s.slots[slot.val].resume = false ∧ s.get CAL_GST_RUNAX = 15) :=
  ⟨⟨.proc .sup, 5, State.set { onAt 6 with slots := Vector.ofFn fun (i : Fin 16) => if i.val = 5 then { en := true, rate := 7 } else {} } (ML_ST_STATE 5) 2, by decide⟩,
   ⟨.proc .sup, 5, onAt 6, by decide⟩,
   ⟨.proc .sup, State.set { onAt 6 with slots := Vector.ofFn fun (i : Fin 16) => if i.val = 5 then { en := true, rate := 7 } else {} } (ML_ST_STATE 5) 2, by decide⟩,
   ⟨5, State.set { onAt 6 with slots := Vector.ofFn fun (i : Fin 16) => if i.val = 5 then { en := true, rate := 7 } else {} } (ML_ST_STATE 5) 2, by decide⟩⟩

theorem test_synchronising_resets_suppress_2 :
    (∃ (s : State), s.alive = true) ∧
    (∃ (slot : Fin 11) (s : State), s.alive = true ∧ s.get (ML_ST_STATE slot) = 1 ∧ s.slots[slot.val].sampled = true) :=
  ⟨⟨onAt 6, by decide⟩,
   ⟨5, State.set { onAt 6 with slots := Vector.ofFn fun (i : Fin 16) => if i.val = 5 then { en := true, rate := 7, sampled := true } else {} } (ML_ST_STATE 5) 1, by decide⟩⟩


theorem test_calibration_runs_are_scheduled_1 :
    (∃ (axis : Fin 10) (s : State), s.alive = true ∧ s.cal.axes[axis].retry = true ∧ s.get (CAL_ST_STATE axis) = 0) ∧
    (∃ (axis : Fin 10) (s : State), s.alive = true ∧ s.cal.axes[axis].aband = true ∧ s.get (CAL_ST_STATE axis) = 4) ∧
    (∃ (axis : Fin 10) (s : State), s.alive = true ∧ s.cal.axes[axis].aband = true ∧ s.get (CAL_ST_STATE axis) = 0) ∧
    (∃ (m : Int) (s : State), s.alive = true ∧ m = worstSlope ((s.cal.means.map TempMean.second).toList.map TempMean.slope) ∧ s.second ≠ s.cal.slopeSec ∧ 51200 < absNat m) :=
  ⟨⟨3, { onAt 6 with cal := { axes := Vector.replicate 10 { retry := true } } }, by decide⟩,
   ⟨3, State.set { onAt 6 with cal := { axes := Vector.replicate 10 { aband := true } } } (CAL_ST_STATE 3) 4, by decide⟩,
   ⟨3, { onAt 6 with cal := { axes := Vector.replicate 10 { aband := true } } }, by decide⟩,
   ⟨-51264, { onAt 6 with time := { sec := 9 }, cal := { means := Vector.replicate 5 { sum := 9199, n := 4, t1 := List.replicate 60 (some 640000) } } }, by decide +kernel⟩⟩

theorem test_calibration_runs_are_scheduled_2 :
    (∃ (m : Int) (s : State), s.alive = true ∧ m = worstSlope ((s.cal.means.map TempMean.second).toList.map TempMean.slope) ∧ s.second ≠ s.cal.slopeSec ∧ absNat m ≤ 51200 ∧ 29 ≤ s.cal.calm) ∧
    (∃ (m : Int) (s : State), s.alive = true ∧ m = worstSlope ((s.cal.means.map TempMean.second).toList.map TempMean.slope) ∧ s.second ≠ s.cal.slopeSec ∧ absNat m ≤ 51200 ∧ s.cal.calm < 29) ∧
    (∃ (axis : Fin 10) (s : State), s.alive = true ∧ nextRun s = some axis) ∧
    (∃ (door : Initiator) (mask : Nat) (axis : Fin 10) (s : State), doorOpen s door 0x1001 = true ∧ s.mode = 9 ∧ s.get SCAL_ST_BUSY = 0 ∧ mask = 2 ^ axis.val ∧ (s.get (CAL_ST_STATE axis) = 0 ∨ s.get (CAL_ST_STATE axis) = 4)) :=
  ⟨⟨51200, { (onAt 6).set CAL_GST_DEFER 1 with time := { sec := 9 }, cal := { calm := 29, means := Vector.replicate 5 { sum := 10800, n := 4, t1 := List.replicate 60 (some 640000) } } }, by decide +kernel⟩,
   ⟨-51200, { (onAt 6).set CAL_GST_DEFER 1 with time := { sec := 9 }, cal := { means := Vector.replicate 5 { sum := 9200, n := 4, t1 := List.replicate 60 (some 640000) } } }, by decide +kernel⟩,
   ⟨3, (onAt 6).set (CAL_ST_STATE 3) 1, by decide⟩,
   ⟨.proc .sup, 8, 3, onAt 9, by decide⟩⟩

theorem test_calibration_runs_are_scheduled_3 :
    (∃ (door : Initiator) (_mask : Nat) (s : State), doorOpen s door 0x1001 = true ∧ (s.mode ≠ 9 ∨ s.get SCAL_ST_BUSY = 1)) :=
  ⟨.proc .sup, 1023, onAt 6, by decide⟩


theorem test_calibration_runs_end_and_slew_1 :
    (∃ (m : CalMeasure) (axis : Fin 10) (s : State), s.alive = true ∧ runAxis s = some axis ∧ runFailure s axis m = 0 ∧ isG axis.val = false) ∧
    (∃ (m : CalMeasure) (axis : Fin 10) (why : Nat) (s : State), s.alive = true ∧ runAxis s = some axis ∧ runFailure s axis m = why ∧ why ≠ 0 ∧ s.get (CAL_ST_FAILS axis) < 2 ∧ s.cal.axes[axis].due = false) ∧
    (∃ (m : CalMeasure) (axis : Fin 10) (why : Nat) (s : State), s.alive = true ∧ runAxis s = some axis ∧ runFailure s axis m = why ∧ why ≠ 0 ∧ s.get (CAL_ST_FAILS axis) = 2) ∧
    (∃ (axis : Fin 10) (s : State), s.alive = true ∧ s.get (CAL_ST_STATE axis) = 3 ∧ isG axis.val = false ∧ -2048 < s.getI (CAL_OFS_DAC axis) ∧ s.getI (CAL_OFS_DAC axis) < 2047 ∧ -2048 < s.getI (CAL_GAIN_DAC axis) ∧ s.getI (CAL_GAIN_DAC axis) < 2047 ∧ s.cal.axes[axis].qTarget = none ∧ axisAtTarget s axis = false) :=
  ⟨⟨{ ofs := 33280, gain := 201327 }, 5, { ((onAt 6).set CAL_GST_RUNAX 5).set (CAL_ST_STATE 5) 2 with cal := { phase := 4, exc := 10000 } }, by decide⟩,
   ⟨{ ofs := 128001 }, 5, 2, { ((onAt 6).set CAL_GST_RUNAX 5).set (CAL_ST_STATE 5) 2 with cal := { phase := 4, exc := 10000 } }, by decide⟩,
   ⟨{}, 5, 3, { (((onAt 6).set CAL_GST_RUNAX 5).set (CAL_ST_STATE 5) 2).set (CAL_ST_FAILS 5) 2 with cal := { phase := 4, exc := 0 } }, by decide⟩,
   ⟨5, { (onAt 6).set (CAL_ST_STATE 5) 3 with cal := { axes := Vector.replicate 10 { ofsDac := -13, gainDac := 30 } } }, by decide⟩⟩

theorem test_calibration_runs_end_and_slew_2 :
    (∃ (s : State), s.alive = true ∧ -2048 < s.getI CAL_DRV_DAC ∧ s.getI CAL_DRV_DAC < 2047 ∧ s.getI CAL_DRV_DAC ≠ s.cal.drvTarget) ∧
    (∃ (s : State), s.alive = true ∧ s.get TIME_ST_GUARD = 1) ∧
    (∃ (s : State), s.alive = true ∧ s.get TIME_ST_GUARD = 0) ∧
    (∃ (door : Initiator) (_m : ClassB) (s : State), doorOpen s door 0x1001 = true ∧ s.mode = 9 ∧ s.hk.temps[0] = none) :=
  ⟨⟨{ onAt 6 with cal := { drvTarget := -3 } }, by decide⟩,
   ⟨((onAt 6).set TIME_ST_GUARD 1).set CAL_TAPT 0, by decide⟩,
   ⟨(onAt 6).set CAL_TAPT 0x02020202, by decide⟩,
   ⟨.proc .sup, { taps := [63, 3, 4, 0] }, onAt 9, by decide⟩⟩

theorem test_calibration_runs_end_and_slew_3 :
    (∃ (door : Initiator) (_m : ClassB) (s : State), doorOpen s door 0x1001 = true ∧ s.mode ≠ 9) :=
  ⟨.proc .sup, {}, onAt 6, by decide⟩


theorem test_calibration_store_is_saved_and_restored_1 :
    (∃ (door : Initiator) (s : State), doorOpen s door 0x1006 = true) ∧
    (∃ (door : Initiator) (s : State), doorOpen s door 0x1006 = true) ∧
    (∃ (door : Initiator) (why : Nat) (s : State), doorOpen s door 0x1006 = true ∧ commitRefusal s = why ∧ why ≠ 0 ∧ why < 256) ∧
    (∃ (door : Initiator) (s : State), doorOpen s door 0x1006 = true ∧ commitRefusal s = 0) :=
  ⟨⟨.proc .sup, onAt 6, by decide⟩,
   ⟨.proc .sup, onAt 6, by decide⟩,
   ⟨.proc .sup, 1, onAt 6, by decide⟩,
   ⟨.proc .sup, { (onAt 6).set CAL_RSTST_VIEW 2 with cal := { bind := calBind ((onAt 6).word 0x1004) ((onAt 6).word 0x1005) (List.replicate 55 0) } }, by decide +kernel⟩⟩

theorem test_calibration_store_is_saved_and_restored_2 :
    (∃ (door : Initiator) (s : State), doorOpen s door 0x1006 = true) :=
  ⟨.proc .sup, (onAt 6).set CAL_RSTST_VIEW 2, by decide⟩


theorem test_deck_blocks_capture_and_release_1 :
    (∃ (slot : Fin 16) (b : Block) (s : State), s.alive = true ∧ s.deck.rings[slot].flight = some b ∧ 1024 ≤ b.n ∧ collectingOn s slot = [] ∧ deckReserved s = 0 ∧ 0 < deckFree s ∧ s.deck.rings[slot].held.length + 2 ≤ s.deck.rings[slot].size) ∧
    (∃ (c : Fin 16) (p : Nat × Blaze) (why : Nat) (s : State), s.live = true ∧ (s.blaze.caps.find? (fun x => x.1 == c.val) = some p) ∧ s.get (DK_CAP_EN c) = 1 ∧ capRefusal s c p.2.t = why ∧ why ≠ 0 ∧ why < 8) ∧
    (∃ (c : Fin 16) (p : Nat × Blaze) (s : State), s.live = true ∧ (s.blaze.caps.find? (fun x => x.1 == c.val) = some p) ∧ s.get (DK_CAP_EN c) = 1 ∧ capRefusal s c p.2.t = 0 ∧ s.get (DK_CAP_STATE c) = 0 ∧ s.get (DK_CAP_SLOTS c) = 0) ∧
    (∃ (c : Fin 16) (p : Nat × Blaze) (s : State), s.live = true ∧ (s.blaze.caps.find? (fun x => x.1 == c.val) = some p) ∧ s.get (DK_CAP_EN c) = 0) :=
  ⟨⟨3, { recs := List.replicate 1024 0 }, { (onAt 6).set DK_ST_ON 1 with deck := { free := [(100, 9)], rings := Vector.replicate 16 { size := 5, flight := some { recs := List.replicate 1024 0 } } } }, by decide +kernel⟩,
   ⟨2, (2, {}), 1, { (onAt 6).set (DK_CAP_EN 2) 1 with blaze := { caps := [(2, {})] } }, by decide⟩,
   ⟨2, (2, {}), (State.set (State.set (State.set { onAt 6 with blaze := { caps := [(2, {})] }, deck := { free := [(3000, 9999)], rings := Vector.replicate 16 { size := 5 } } } DK_ST_ON 1) (DK_CAP_EN 2) 1) (DK_CAP_SLOTS 2) 0), by decide⟩,
   ⟨2, (2, {}), { onAt 6 with blaze := { caps := [(1, {}), (2, {})] } }, by decide⟩⟩

theorem test_deck_blocks_capture_and_release_2 :
    (∃ (door : Initiator) (c : Fin 16) (why : Nat) (s : State), doorOpen s door 0x1136 = true ∧ s.get (DK_CAP_EN c) = 1 ∧ capRefusal s c s.now = why ∧ why ≠ 0 ∧ why < 8) ∧
    (∃ (door : Initiator) (c : Fin 16) (s : State), doorOpen s door 0x1136 = true ∧ s.get (DK_CAP_EN c) = 1 ∧ capRefusal s c s.now = 0 ∧ s.get (DK_CAP_STATE c) = 0 ∧ 0 < s.get (DK_CAP_SLOTS c)) ∧
    (∃ (door : Initiator) (c : Fin 16) (s : State), doorOpen s door 0x1136 = true ∧ s.get (DK_CAP_STATE c) = 2) ∧
    (∃ (door : Initiator) (c : Fin 16) (s : State), doorOpen s door 0x1136 = true ∧ s.get (DK_CAP_STATE c) ≠ 2) :=
  ⟨⟨.proc .sup, 2, 1, (onAt 6).set (DK_CAP_EN 2) 1, by decide⟩,
   ⟨.proc .sup, 2, (State.set (State.set (State.set { onAt 6 with blaze := { caps := [(2, {})] }, deck := { free := [(3000, 9999)], rings := Vector.replicate 16 { size := 5 } } } DK_ST_ON 1) (DK_CAP_EN 2) 1) (DK_CAP_SLOTS 2) 5), by decide⟩,
   ⟨.proc .sup, 15, { (onAt 6).set (DK_CAP_STATE 15) 2 with deck := { caps := Vector.replicate 16 { blocks := [(3, {})] } } }, by decide⟩,
   ⟨.proc .sup, 15, (onAt 6).set (DK_CAP_STATE 15) 3, by decide⟩⟩

theorem test_deck_blocks_capture_and_release_3 :
    (∃ (c i : Fin 16) (s : State), s.alive = true ∧ s.get (DK_CAP_STATE c) = 1 ∧ s.deck.caps[c].waitT = false ∧ s.deck.caps[c].slots = [i.val] ∧ s.deck.caps[c].mask = 2 ^ i.val ∧ windowOver s c i = true ∧ s.deck.rings[i].flight = none) ∧
    (∃ (c i : Fin 16) (b : Block) (s : State), s.alive = true ∧ s.get (DK_CAP_STATE c) = 1 ∧ s.deck.caps[c].waitT = false ∧ s.deck.caps[c].slots = [i.val] ∧ s.deck.caps[c].mask = 2 ^ i.val ∧ windowOver s c i = true ∧ s.deck.rings[i].flight = some b ∧ blockInside b s.deck.caps[c].from_ s.deck.caps[c].to_ = true ∧ collectingOn s i = [c] ∧ 0 < s.deck.caps[c].reserve ∧ 0 < deckFree s ∧ s.deck.rings[i].held.length + 1 ≤ s.deck.rings[i].size) ∧
    (∃ (door : Initiator) (c : Fin 16) (w : Fin 3) (_v : Word) (s : State), doorOpen s door (0x1140 + 4 * c.val + w.val) = true ∧ w.val = 2 ∧ s.get (DK_CAP_STATE c) ≠ 1) ∧
    (∃ (door : Initiator) (c : Fin 16) (w : Fin 3) (_v : Word) (s : State), doorOpen s door (0x1140 + 4 * c.val + w.val) = true ∧ w.val = 0 ∧ s.get (DK_CAP_STATE c) ≠ 1) :=
  ⟨⟨7, 3, { (onAt 6).set (DK_CAP_STATE 7) 1 with deck := { caps := Vector.replicate 16 { slots := [3], mask := 8 } } }, by decide⟩,
   ⟨7, 3, { recs := [5], t := 9, rate := 7 }, { ((onAt 6).set (DK_CAP_STATE 7) 1).set DK_ST_ON 1 with time := { sec := 4 }, deck := { free := [(100, 9)], rings := Vector.replicate 16 { size := 5, flight := some { recs := [5], t := 9, rate := 7 } }, caps := Vector.replicate 16 { slots := [3], mask := 8, reserve := 2, to_ := 1000 } } }, by decide⟩,
   ⟨.proc .sup, 3, 2, 0x96258001, onAt 6, by decide⟩,
   ⟨.proc .sup, 3, 0, 0xFFFFFFFF, onAt 6, by decide⟩⟩


theorem test_leases_are_granted_revoked_and_counted_1 :
    (∃ (c : Fin 16) (l : Fin 32) (s : State), s.alive = true ∧ s.get (DK_CAP_STATE c) = 2 ∧ takeLease s = some l) ∧
    (∃ (i : Fin 16) (l : Fin 32) (first last : Nat) (a z : Block) (bs : List Block) (s : State), s.alive = true ∧ takeLease s = some l ∧ spanBlocks s i first last = a :: bs ∧ (a :: bs).getLast? = some z) ∧
    (∃ (holder : Proc) (_i : Fin 16) (_first _last : Nat) (s : State), s.alive = true ∧ leaseAllowed s holder = true ∧ takeLease s = none) ∧
    (∃ (holder : Proc) (l : Fin 32) (s : State), s.alive = true ∧ leaseAllowed s holder = true ∧ holdsLease s l (holderCode holder) = true ∧ s.deck.leases[l].cap = none) :=
  ⟨⟨4, 0, ((onAt 6).set ID_DOMST_WSTATE 2).set (DK_CAP_STATE 4) 2, by decide⟩,
   ⟨9, 1, 25, 40, { ssn := 20, recs := [1, 2, 3, 4, 5, 6] }, { ssn := 26, recs := [7] }, [{ ssn := 26, recs := [7] }], { ((onAt 6).set ID_DOMST_WSTATE 2).set (LS_KIND 0) 1 with deck := { rings := Vector.replicate 16 { held := [{ ssn := 10, recs := [9] }, { ssn := 20, recs := [1, 2, 3, 4, 5, 6] }, { ssn := 26, recs := [7] }] } } }, by decide⟩,
   ⟨.ana0, 1, 2, 3, onAt 6, by decide⟩,
   ⟨.ana0, 3, ((onAt 6).set (LS_KIND 3) 1).set (LS_REMMS 3) 50, by decide⟩⟩

theorem test_leases_are_granted_revoked_and_counted_2 :
    (∃ (holder : Proc) (l : Fin 32) (_i : Fin 16) (_first _n : Nat) (s : State), s.alive = true ∧ leaseAllowed s holder = true ∧ holdsLease s l (holderCode holder) = true ∧ s.deck.leases[l].cap = none) ∧
    (∃ (_ms : Nat) (s : State), s.alive = true) :=
  ⟨⟨.ana0, 3, 4, 5, 2, { (((onAt 6).set (LS_KIND 3) 1).set (LS_REMMS 3) 50).set (LS_IDX 3) 2 with deck := { caps := Vector.replicate 16 { blocks := [(4, { ssn := 4, recs := [7, 8, 9] })] } } }, by decide⟩,
   ⟨50, ((((onAt 6).set (LS_KIND 3) 1).set (LS_REMMS 3) 50).set (LS_KIND 5) 2).set (LS_REMMS 5) 51, by decide⟩⟩


theorem test_recognisers_follow_their_records_1 :
    (∃ (r : GridRec) (rest : List GridRec) (s : State), recogOn s = true ∧ s.get RC_IMP_CFG_EN = 1 ∧ s.get RC_IMP_CFG_AXES = 1 ∧ s.recog.impIn[0] = r :: rest ∧ s.recog.ep = none ∧ s.recog.first = none ∧ r.used = true ∧ s.get RC_IMP_CFG_THR ≤ absNat r.rcd.value) ∧
    (∃ (s : State), recogOn s = true ∧ s.get RC_IMP_CFG_EN = 1 ∧ nextRecs (impWaiting s) ≠ [] ∧ oneRate (impWaiting s) = false ∧ s.recog.ep = none ∧ s.recog.first = none) ∧
    (∃ (r : GridRec) (rest : List GridRec) (s : State), recogOn s = true ∧ s.get RC_STK_CFG_EN = 1 ∧ s.recog.stkIn = r :: rest ∧ s.get RC_STK_CFG_EACH = 0 ∧ r.used = true ∧ s.recog.armed = true ∧ s.getI RC_STK_LVL_LEVEL ≤ r.rcd.value ∧ s.recog.stopFrom = none ∧ s.recog.lastStroke = none ∧ 0 < s.get RC_STK_STOP_STOPMS ∧ s.get RC_STK_ST_STATE ≠ 3) ∧
    (∃ (r : GridRec) (rest : List GridRec) (s : State), recogOn s = true ∧ s.get RC_STK_CFG_EN = 1 ∧ s.recog.stkIn = r :: rest ∧ r.rcd.kind = .timeStep) :=
  ⟨⟨{ t := 0, ssn := 5, rcd := { value := -9000000 } }, [], State.set (State.set { { onAt 6 with slots := Vector.ofFn fun (i : Fin 16) => if i.val = 0 then { en := true } else {} } with recog := { impIn := #v[[{ t := 0, ssn := 5, rcd := { value := -9000000 } }], [], []] } } RC_IMP_CFG_EN 1) RC_IMP_CFG_AXES 1, by decide⟩,
   ⟨State.set (State.set { onAt 6 with slots := Vector.ofFn fun (i : Fin 16) => { en := true, rate := i.val }, recog := { impIn := #v[[{ t := 8, ssn := 5, rcd := {}, rate := 1 }], [], [{ t := 0, ssn := 6, rcd := {}, rate := 2 }]] } } RC_IMP_CFG_EN 1) RC_IMP_CFG_AXES 5, by decide⟩,
   ⟨{ t := 80, ssn := 5, rcd := { value := 9000000 } }, [], { ((onAt 6).set RC_STK_CFG_EN 1).set RC_STK_ST_STATE 1 with recog := { armed := true, stkIn := [{ t := 80, ssn := 5, rcd := { value := 9000000 } }] } }, by decide⟩,
   ⟨{ t := 80, ssn := 5, rcd := { kind := .timeStep } }, [], { (onAt 6).set RC_STK_CFG_EN 1 with recog := { stkIn := [{ t := 80, ssn := 5, rcd := { kind := .timeStep } }] } }, by decide⟩⟩

theorem test_recognisers_follow_their_records_2 :
    (∃ (x y z : GridRec) (xs ys zs : List GridRec) (a n : Nat) (s : State), recogOn s = true ∧ s.get RC_FF_CFG_EN = 1 ∧ oneRate (ffWaiting s) = true ∧ s.recog.ffIn[0] = x :: xs ∧ s.recog.ffIn[1] = y :: ys ∧ s.recog.ffIn[2] = z :: zs ∧ x.t = z.t ∧ y.t = z.t ∧ x.used = true ∧ y.used = true ∧ z.used = true ∧ absNat x.rcd.value < s.get RC_FF_CFG_THR ∧ absNat y.rcd.value < s.get RC_FF_CFG_THR ∧ absNat z.rcd.value < s.get RC_FF_CFG_THR ∧ s.recog.ffStart = some (a, n) ∧ a + s.get RC_FF_TIM_DUR * 8000000 ≤ z.t ∧ s.get RC_FF_ST_ACTIVE = 0) ∧
    (∃ (x y z : GridRec) (xs ys zs : List GridRec) (s : State), recogOn s = true ∧ s.get RC_FF_CFG_EN = 1 ∧ oneRate (ffWaiting s) = true ∧ s.recog.ffIn[0] = x :: xs ∧ s.recog.ffIn[1] = y :: ys ∧ s.recog.ffIn[2] = z :: zs ∧ x.rcd.kind = .timeStep ∧ y.rcd.kind = .timeStep ∧ z.rcd.kind = .timeStep) :=
  ⟨⟨{ t := 800000000, ssn := 5, rcd := {} }, { t := 800000000, ssn := 5, rcd := {} }, { t := 800000000, ssn := 5, rcd := {} }, [], [], [], 0, 1, { ((onAt 6).set RC_FF_CFG_EN 1).set RC_FF_CFG_THR 100 with slots := Vector.replicate 16 { en := true }, recog := { ffStart := some (0, 1), ffIn := Vector.replicate 3 [{ t := 800000000, ssn := 5, rcd := {} }] } }, by decide⟩,
   ⟨{ t := 8, ssn := 5, rcd := { kind := .timeStep } }, { t := 8, ssn := 5, rcd := { kind := .timeStep } }, { t := 8, ssn := 5, rcd := { kind := .timeStep } }, [], [], [], { (onAt 6).set RC_FF_CFG_EN 1 with slots := Vector.replicate 16 { en := true }, recog := { ffIn := Vector.replicate 3 [{ t := 8, ssn := 5, rcd := { kind := .timeStep } }] } }, by decide⟩⟩


theorem test_recogniser_settings_and_the_blaze_fifo_1 :
    (∃ (door : Initiator) (w : Fin 3) (v : Word) (s : State), doorOpen s door (0x1200 + w.val) = true ∧ (w.val ≠ 1 ∨ getBits v 0 16 ≠ 0) ∧ s.recog.first = none) ∧
    (∃ (door : Initiator) (w : Fin 3) (v : Word) (s : State), doorOpen s door (0x1200 + w.val) = true ∧ w.val = 1 ∧ getBits v 0 16 = 0 ∧ s.recog.first = none) ∧
    (∃ (door : Initiator) (w : Fin 4) (v : Word) (s : State), doorOpen s door (0x1208 + w.val) = true ∧ (w.val = 1 ∨ w.val = 2 ∨ (w.val = 3 ∧ getBits v 0 16 ≠ 0))) ∧
    (∃ (door : Initiator) (w : Fin 4) (v : Word) (s : State), doorOpen s door (0x1208 + w.val) = true ∧ w.val = 3 ∧ getBits v 0 16 = 0) :=
  ⟨⟨.proc .sup, 0, 0xFFFFFFFF, onAt 6, by decide⟩,
   ⟨.proc .sup, 1, 0xFFFF0000, onAt 6, by decide⟩,
   ⟨.proc .sup, 1, 0xFFFFFFFF, onAt 6, by decide⟩,
   ⟨.proc .sup, 3, 0xFFFF0000, onAt 6, by decide⟩⟩

theorem test_recogniser_settings_and_the_blaze_fifo_2 :
    (∃ (door : Initiator) (w : Fin 4) (v : Word) (s : State), doorOpen s door (0x1208 + w.val) = true ∧ w.val = 0 ∧ getBits v 31 1 = 1 ∧ s.get RC_STK_CFG_EN = 0 ∧ recogOn s = true) ∧
    (∃ (door : Initiator) (w : Fin 2) (v : Word) (s : State), doorOpen s door (0x1210 + w.val) = true ∧ (w.val = 0 ∨ getBits v 0 16 ≠ 0) ∧ (w.val = 0 → getBits v 31 1 = 1) ∧ s.get RC_FF_CFG_EN = 1) ∧
    (∃ (door : Initiator) (w : Fin 2) (v : Word) (s : State), doorOpen s door (0x1210 + w.val) = true ∧ w.val = 0 ∧ getBits v 31 1 = 0 ∧ s.get RC_FF_ST_ACTIVE = 0) ∧
    (∃ (door : Initiator) (w : Fin 2) (v : Word) (s : State), doorOpen s door (0x1210 + w.val) = true ∧ w.val = 1 ∧ getBits v 0 16 = 0 ∧ s.get RC_FF_CFG_EN = 1) :=
  ⟨⟨.proc .sup, 0, 0xFFF65000, onAt 6, by decide⟩,
   ⟨.proc .sup, 1, 77, (onAt 6).set RC_FF_CFG_EN 1, by decide⟩,
   ⟨.proc .sup, 0, 0x7FFFFFFF, (onAt 6).set RC_FF_CFG_EN 1, by decide⟩,
   ⟨.proc .sup, 1, 0, (onAt 6).set RC_FF_CFG_EN 1, by decide⟩⟩

theorem test_recogniser_settings_and_the_blaze_fifo_3 :
    (∃ (door : Initiator) (b : Blaze) (rest : List Blaze) (s : State), doorOpen s door 0x1306 = true ∧ s.blaze.fifo = b :: rest ∧ rest.length < 32) ∧
    (∃ (s : State), s.alive = true ∧ s.keys.lineKey.isSome = true ∧ s.blaze.out ≠ [] ∧ blazesBusy s = false) ∧
    (∃ (d : Datagram) (s : State), d.typ = 3 ∧ (cyCheck s d).1 = true) ∧
    (∃ (d : Datagram) (b : Blaze) (s : State), d.typ = 3 ∧ (cyCheck s d).1 = true ∧ isHost d.sender = false ∧ blazesOf (plain s d) = [b] ∧ peerEntry s b.stn = none) :=
  ⟨⟨.proc .sup, {}, [], { (onAt 6).set BZ_FIFOST_COUNT 1 with blaze := { fifo := [{}] } }, by decide⟩,
   ⟨{ keyed 6 with blaze := { out := [{}] } }, by decide⟩,
   ⟨sealed 3 5 1 (Payload.blazes [{ stn := 7 }, { stn := 8 }]).bytes, ((keyed 6).set (BZ_PEER_EN 0) 1).set (BZ_PEER_STN 0) 7, by decide +kernel⟩,
   ⟨sealed 3 5 1 (Payload.blazes [{ stn := 7 }]).bytes, { stn := 7 }, keyed 6, by decide +kernel⟩⟩

theorem test_recogniser_settings_and_the_blaze_fifo_4 :
    (∃ (d : Datagram) (b : Blaze) (p : Nat) (s : State), d.typ = 3 ∧ (cyCheck s d).1 = true ∧ isHost d.sender = false ∧ blazesOf (plain s d) = [b] ∧ peerEntry s b.stn = some p ∧ blazeDup s b = true) ∧
    (∃ (d : Datagram) (b : Blaze) (p : Nat) (s : State), d.typ = 3 ∧ (cyCheck s d).1 = true ∧ isHost d.sender = false ∧ blazesOf (plain s d) = [b] ∧ peerEntry s b.stn = some p ∧ blazeDup s b = false ∧ p < 32 ∧ s.blaze.heard[Fin.ofNat 32 p] ≠ some b.stn ∧ b.run < 256 ∧ b.seq < 65536 ∧ s.now ≤ dueAt s b ∧ b.t ≤ s.now + 8000000000) ∧
    (∃ (d : Datagram) (b : Blaze) (p : Nat) (s : State), d.typ = 3 ∧ (cyCheck s d).1 = true ∧ isHost d.sender = false ∧ blazesOf (plain s d) = [b] ∧ peerEntry s b.stn = some p ∧ blazeDup s b = false ∧ p < 32 ∧ s.blaze.heard[Fin.ofNat 32 p] ≠ some b.stn ∧ b.run < 256 ∧ b.seq < 65536 ∧ dueAt s b < s.now ∧ (s.word 0x1301).toNat / 2 ^ 24 % 16 = 1 ∧ s.blaze.fifo.length < 16) ∧
    (∃ (b : Blaze) (rest : List Blaze) (s : State), s.alive = true ∧ s.blaze.reorder = b :: rest ∧ dueAt s b ≤ s.now ∧ (s.word 0x1301).toNat / 2 ^ 24 % 16 = 1 ∧ s.blaze.fifo.length < 16) :=
  ⟨⟨sealed 3 5 1 (Payload.blazes [{ stn := 7 }]).bytes, { stn := 7 }, 0, { ((keyed 6).set (BZ_PEER_EN 0) 1).set (BZ_PEER_STN 0) 7 with blaze := { seen := [(7, 0, 0, 0)] } }, by decide +kernel⟩,
   ⟨sealed 3 5 1 (Payload.blazes [{ stn := 7, seq := 9, run := 4, t := 8 }]).bytes, { stn := 7, seq := 9, run := 4, t := 8 }, 0, ((keyed 6).set (BZ_PEER_EN 0) 1).set (BZ_PEER_STN 0) 7, by decide +kernel⟩,
   ⟨sealed 3 5 1 (Payload.blazes [{ stn := 7, seq := 9, run := 4 }]).bytes, { stn := 7, seq := 9, run := 4 }, 0, State.set { ((keyed 6).set (BZ_PEER_EN 0) 1).set (BZ_PEER_STN 0) 7 with time := { sec := 9 } } BZ_ROUTE 0x01000000, by decide +kernel⟩,
   ⟨{ stn := 7 }, [], State.set { onAt 6 with blaze := { reorder := [{ stn := 7 }] }, time := { sec := 9 } } BZ_ROUTE 0x01000000, by decide⟩⟩


theorem test_engine_instructions_branch_wait_and_capture_1 :
    (∃ (e : Fin 8) (w : Nat) (s : State), s.alive = true ∧ s.engines[e].cycle = true ∧ s.engines[e].inj = none ∧ s.get (PE_ST_STATE e) = 1 ∧ peInstr s e (s.get (PE_ST_PC e)) = w ∧ peKind w = .br ∧ ib w 9 3 = 3) ∧
    (∃ (e : Fin 8) (w : Nat) (s : State), s.alive = true ∧ s.engines[e].cycle = true ∧ s.engines[e].inj = none ∧ s.get (PE_ST_STATE e) = 1 ∧ peInstr s e (s.get (PE_ST_PC e)) = w ∧ peKind w = .br ∧ ib w 9 3 = 5 ∧ pulseInput (ib w 5 4) = true) ∧
    (∃ (e : Fin 8) (w : Nat) (s : State), s.alive = true ∧ s.engines[e].cycle = true ∧ s.engines[e].inj = none ∧ s.get (PE_ST_STATE e) = 1 ∧ peInstr s e (s.get (PE_ST_PC e)) = w ∧ peKind w = .await ∧ ib w 9 2 = 0 ∧ pulseInput (ib w 5 4) = false) ∧
    (∃ (e : Fin 8) (w : Nat) (s : State), s.alive = true ∧ s.engines[e].cycle = true ∧ s.engines[e].inj = none ∧ s.get (PE_ST_STATE e) = 1 ∧ peInstr s e (s.get (PE_ST_PC e)) = w ∧ peKind w = .await ∧ ib w 9 2 = 2 ∧ s.engines[e].lastPc ≠ some (s.get (PE_ST_PC e))) :=
  ⟨⟨2, 0x0605, (State.set (State.set (State.set ({ onAt 6 with engines := Vector.replicate 8 { cycle := true } }) (PE_IM_EVEN 2 0) 0x0605) (PE_ST_STATE 2) 1) PE_GST_RUNNING 4), by decide⟩,
   ⟨2, 0x0AA8, (State.set (State.set (State.set ({ onAt 6 with engines := Vector.replicate 8 { cycle := true, latches := [(5, 99)] } }) (PE_IM_EVEN 2 0) 0x0AA8) (PE_ST_STATE 2) 1) PE_GST_RUNNING 4), by decide⟩,
   ⟨2, 0x19A0, (State.set (State.set (State.set ({ onAt 6 with engines := Vector.replicate 8 { cycle := true } }) (PE_IM_EVEN 2 0) 0x19A0) (PE_ST_STATE 2) 1) PE_GST_RUNNING 4), by decide⟩,
   ⟨2, 0x1400, (State.set (State.set (State.set (State.set ({ onAt 6 with engines := Vector.replicate 8 { cycle := true } }) (PE_IM_EVEN 2 0) 0x1400) (PE_ST_STATE 2) 1) PE_GST_RUNNING 4) (PE_U 2) 5), by decide⟩⟩

theorem test_engine_instructions_branch_wait_and_capture_2 :
    (∃ (e : Fin 8) (w : Nat) (at_ p : Nat) (s : State), s.alive = true ∧ s.engines[e].cycle = true ∧ s.engines[e].inj = none ∧ s.get (PE_ST_STATE e) = 1 ∧ peInstr s e (s.get (PE_ST_PC e)) = w ∧ peKind w = .stamp ∧ pulseInput (ib w 5 4) = true ∧ ib w 9 2 = 0 ∧ s.engines[e].lastPc = some (s.get (PE_ST_PC e)) ∧ peLatch s e (ib w 5 4) = some at_ ∧ s.engines[e].prevCap = some p ∧ p ≤ at_) ∧
    (∃ (e : Fin 8) (w : Nat) (s : State), s.alive = true ∧ s.engines[e].cycle = true ∧ s.engines[e].inj = none ∧ s.get (PE_ST_STATE e) = 1 ∧ peInstr s e (s.get (PE_ST_PC e)) = w ∧ peKind w = .stamp ∧ pulseInput (ib w 5 4) = true ∧ s.engines[e].lastPc ≠ some (s.get (PE_ST_PC e))) ∧
    (∃ (e : Fin 8) (w : Nat) (s : State), s.alive = true ∧ s.engines[e].cycle = true ∧ s.engines[e].inj = none ∧ s.get (PE_ST_STATE e) = 1 ∧ peInstr s e (s.get (PE_ST_PC e)) = w ∧ peKind w = .markInterrupt) ∧
    (∃ (e : Fin 8) (w : Nat) (s : State), s.alive = true ∧ s.engines[e].cycle = true ∧ s.engines[e].inj = none ∧ s.get (PE_ST_STATE e) = 1 ∧ peInstr s e (s.get (PE_ST_PC e)) = w ∧ peKind w = .markBlaze ∧ blazeCount s (0x10 + e.val) < s.get BZ_CFG_PERSEC ∧ ownRoute s (0x10 + e.val) = 16) :=
  ⟨⟨2, 0x2880, 8000000080, 8000000000, (State.set (State.set (State.set ({ onAt 6 with engines := Vector.replicate 8 { cycle := true, lastPc := some 0, latches := [(4, 8000000080)], prevCap := some 8000000000 } }) (PE_IM_EVEN 2 0) 0x2880) (PE_ST_STATE 2) 1) PE_GST_RUNNING 4), by decide⟩,
   ⟨2, 0x2880, (State.set (State.set (State.set ({ onAt 6 with engines := Vector.replicate 8 { cycle := true, latches := [(4, 80)] } }) (PE_IM_EVEN 2 0) 0x2880) (PE_ST_STATE 2) 1) PE_GST_RUNNING 4), by decide⟩,
   ⟨2, 0x3000, (State.set (State.set (State.set ({ onAt 6 with engines := Vector.replicate 8 { cycle := true } }) (PE_IM_EVEN 2 0) 0x3000) (PE_ST_STATE 2) 1) PE_GST_RUNNING 4), by decide⟩,
   ⟨2, 0x3402, (State.set (State.set (State.set (State.set ({ onAt 6 with engines := Vector.replicate 8 { cycle := true } }) (PE_IM_EVEN 2 0) 0x3402) (PE_ST_STATE 2) 1) PE_GST_RUNNING 4) (BZ_ROUTE) 0x1000), by decide⟩⟩

theorem test_engine_instructions_branch_wait_and_capture_3 :
    (∃ (e : Fin 8) (w : Nat) (s : State), s.alive = true ∧ s.engines[e].cycle = true ∧ s.engines[e].inj = none ∧ s.get (PE_ST_STATE e) = 1 ∧ peInstr s e (s.get (PE_ST_PC e)) = w ∧ peKind w = .markCapture ∧ s.engines[e].prevCap = none) ∧
    (∃ (e : Fin 8) (w : Nat) (s : State), s.alive = true ∧ s.engines[e].cycle = true ∧ s.engines[e].inj = none ∧ s.get (PE_ST_STATE e) = 1 ∧ peInstr s e (s.get (PE_ST_PC e)) = w ∧ peKind w = .reserved) :=
  ⟨⟨2, 0x3800, (State.set (State.set (State.set ({ onAt 6 with engines := Vector.replicate 8 { cycle := true } }) (PE_IM_EVEN 2 0) 0x3800) (PE_ST_STATE 2) 1) PE_GST_RUNNING 4), by decide⟩,
   ⟨2, 0xA000, (State.set (State.set (State.set ({ onAt 6 with engines := Vector.replicate 8 { cycle := true, latches := [(4, 80)] } }) (PE_IM_EVEN 2 0) 0xA000) (PE_ST_STATE 2) 1) PE_GST_RUNNING 4), by decide⟩⟩


theorem test_engine_instructions_shift_move_and_compute_1 :
    (∃ (e : Fin 8) (w : Nat) (s : State), s.alive = true ∧ s.engines[e].cycle = true ∧ s.engines[e].inj = none ∧ s.get (PE_ST_STATE e) = 1 ∧ peInstr s e (s.get (PE_ST_PC e)) = w ∧ peKind w = .samp ∧ ib w 9 3 = 1 ∧ s.get (PE_CFG_SINDIR e) = 0) ∧
    (∃ (e : Fin 8) (w : Nat) (s : State), s.alive = true ∧ s.engines[e].cycle = true ∧ s.engines[e].inj = none ∧ s.get (PE_ST_STATE e) = 1 ∧ peInstr s e (s.get (PE_ST_PC e)) = w ∧ peKind w = .emit ∧ ib w 9 3 = 1 ∧ s.get (PE_CFG_SOUTDIR e) = 0) ∧
    (∃ (e : Fin 8) (w : Nat) (s : State), s.alive = true ∧ s.engines[e].cycle = true ∧ s.engines[e].inj = none ∧ s.get (PE_ST_STATE e) = 1 ∧ peInstr s e (s.get (PE_ST_PC e)) = w ∧ peKind w = .sinToRx ∧ s.engines[e].rx.length < rxDepth s e) ∧
    (∃ (e : Fin 8) (w : Nat) (v : Word) (l : List Word) (s : State), s.alive = true ∧ s.engines[e].cycle = true ∧ s.engines[e].inj = none ∧ s.get (PE_ST_STATE e) = 1 ∧ peInstr s e (s.get (PE_ST_PC e)) = w ∧ peKind w = .txToSout ∧ txReady s e = v :: l) :=
  ⟨⟨2, 0x4208, (State.set (State.set (State.set (State.set (State.set ({ onAt 6 with engines := Vector.replicate 8 { cycle := true } }) (PE_IM_EVEN 2 0) 0x4208) (PE_ST_STATE 2) 1) PE_GST_RUNNING 4) (PE_U 2) 0x1FF) (PE_SIN 2) 0x5A000001), by decide⟩,
   ⟨2, 0x5204, (State.set (State.set (State.set (State.set ({ onAt 6 with engines := Vector.replicate 8 { cycle := true } }) (PE_IM_EVEN 2 0) 0x5204) (PE_ST_STATE 2) 1) PE_GST_RUNNING 4) (PE_SOUT 2) 0xA5000001), by decide⟩,
   ⟨2, 0x6000, (State.set (State.set (State.set (State.set ({ onAt 6 with engines := Vector.replicate 8 { cycle := true } }) (PE_IM_EVEN 2 0) 0x6000) (PE_ST_STATE 2) 1) PE_GST_RUNNING 4) (PE_SIN 2) 77), by decide⟩,
   ⟨2, 0x6400, 9, [8], (State.set (State.set (State.set ({ onAt 6 with engines := Vector.replicate 8 { cycle := true, tx := [9, 8] } }) (PE_IM_EVEN 2 0) 0x6400) (PE_ST_STATE 2) 1) PE_GST_RUNNING 4), by decide⟩⟩

theorem test_engine_instructions_shift_move_and_compute_2 :
    (∃ (e : Fin 8) (w : Nat) (s : State), s.alive = true ∧ s.engines[e].cycle = true ∧ s.engines[e].inj = none ∧ s.get (PE_ST_STATE e) = 1 ∧ peInstr s e (s.get (PE_ST_PC e)) = w ∧ peKind w = .uToRx ∧ rxDepth s e ≤ s.engines[e].rx.length ∧ ib w 9 1 = 1) ∧
    (∃ (e : Fin 8) (w : Nat) (s : State), s.alive = true ∧ s.engines[e].cycle = true ∧ s.engines[e].inj = none ∧ s.get (PE_ST_STATE e) = 1 ∧ peInstr s e (s.get (PE_ST_PC e)) = w ∧ peKind w = .uToRx ∧ s.engines[e].rx.length < rxDepth s e) ∧
    (∃ (e : Fin 8) (w : Nat) (v : Word) (l : List Word) (s : State), s.alive = true ∧ s.engines[e].cycle = true ∧ s.engines[e].inj = none ∧ s.get (PE_ST_STATE e) = 1 ∧ peInstr s e (s.get (PE_ST_PC e)) = w ∧ peKind w = .txToU ∧ txReady s e = v :: l) ∧
    (∃ (e : Fin 8) (w : Nat) (s : State), s.alive = true ∧ s.engines[e].cycle = true ∧ s.engines[e].inj = none ∧ s.get (PE_ST_STATE e) = 1 ∧ peInstr s e (s.get (PE_ST_PC e)) = w ∧ peKind w = .calc ∧ ib w 9 3 = 0) :=
  ⟨⟨2, 0x6A00, (State.set (State.set (State.set ({ onAt 6 with engines := Vector.replicate 8 { cycle := true, rx := [1, 2, 3, 4] } }) (PE_IM_EVEN 2 0) 0x6A00) (PE_ST_STATE 2) 1) PE_GST_RUNNING 4), by decide⟩,
   ⟨2, 0x6800, (State.set (State.set (State.set (State.set ({ onAt 6 with engines := Vector.replicate 8 { cycle := true } }) (PE_IM_EVEN 2 0) 0x6800) (PE_ST_STATE 2) 1) PE_GST_RUNNING 4) (PE_U 2) 77), by decide⟩,
   ⟨2, 0x6C00, 9, [8], (State.set (State.set (State.set ({ onAt 6 with engines := Vector.replicate 8 { cycle := true, tx := [9, 8] } }) (PE_IM_EVEN 2 0) 0x6C00) (PE_ST_STATE 2) 1) PE_GST_RUNNING 4), by decide⟩,
   ⟨2, 0x7088, (State.set (State.set (State.set (State.set (State.set ({ onAt 6 with engines := Vector.replicate 8 { cycle := true } }) (PE_IM_EVEN 2 0) 0x7088) (PE_ST_STATE 2) 1) PE_GST_RUNNING 4) (PE_U 2) 3) (PE_V 2) 5), by decide⟩⟩

theorem test_engine_instructions_shift_move_and_compute_3 :
    (∃ (e : Fin 8) (w : Nat) (s : State), s.alive = true ∧ s.engines[e].cycle = true ∧ s.engines[e].inj = none ∧ s.get (PE_ST_STATE e) = 1 ∧ peInstr s e (s.get (PE_ST_PC e)) = w ∧ peKind w = .ldi ∧ ib w 10 2 = 2) ∧
    (∃ (e : Fin 8) (w : Nat) (s : State), s.alive = true ∧ s.engines[e].cycle = true ∧ s.engines[e].inj = none ∧ s.get (PE_ST_STATE e) = 1 ∧ peInstr s e (s.get (PE_ST_PC e)) = w ∧ peKind w = .dec ∧ ib w 10 2 = 0) :=
  ⟨⟨2, 0x8810, (State.set (State.set (State.set ({ onAt 6 with engines := Vector.replicate 8 { cycle := true } }) (PE_IM_EVEN 2 0) 0x8810) (PE_ST_STATE 2) 1) PE_GST_RUNNING 4), by decide⟩,
   ⟨2, 0x9003, (State.set (State.set (State.set (State.set ({ onAt 6 with engines := Vector.replicate 8 { cycle := true } }) (PE_IM_EVEN 2 0) 0x9003) (PE_ST_STATE 2) 1) PE_GST_RUNNING 4) (PE_CNT 2) 2), by decide⟩⟩


theorem test_engine_commands_queues_and_inputs_1 :
    (∃ (door : Initiator) (_mask : Nat) (s : State), doorOpen s door 0x1400 = true) ∧
    (∃ (door : Initiator) (_mask : Nat) (s : State), doorOpen s door 0x1400 = true) ∧
    (∃ (door : Initiator) (_mask : Nat) (s : State), doorOpen s door 0x1400 = true) ∧
    (∃ (door : Initiator) (_mask : Nat) (s : State), doorOpen s door 0x1400 = true) :=
  ⟨⟨.proc .sup, 0x1A4, onAt 6, by decide⟩,
   ⟨.proc .sup, 0x1A4, onAt 6, by decide⟩,
   ⟨.proc .sup, 0x1A4, onAt 6, by decide⟩,
   ⟨.proc .sup, 0x1A4, onAt 6, by decide⟩⟩

theorem test_engine_commands_queues_and_inputs_2 :
    (∃ (door : Initiator) (e : Fin 8) (s : State), doorOpen s door 0x1400 = true ∧ s.aux.func ≠ 3 ∧ s.engines[e].gcmd = []) ∧
    (∃ (door : Initiator) (e : Fin 8) (s : State), doorOpen s door 0x1400 = true ∧ s.aux.func ≠ 3 ∧ s.engines[e].gcmd = []) ∧
    (∃ (door : Initiator) (e : Fin 8) (s : State), doorOpen s door 0x1400 = true ∧ s.aux.func ≠ 3 ∧ s.engines[e].gcmd = [] ∧ peRuns s e = false) ∧
    (∃ (door : Initiator) (e : Fin 8) (s : State), doorOpen s door 0x1400 = true ∧ s.engines[e].gcmd = []) :=
  ⟨⟨.proc .sup, 2, (State.set (State.set (State.set ({ onAt 6 with engines := Vector.replicate 8 { cycle := true, latches := [(4, 8)] } }) (PE_IM_EVEN 2 0) 0x6000) (PE_ST_STATE 2) 1) PE_GST_RUNNING 4), by decide⟩,
   ⟨.proc .sup, 2, (State.set (State.set (State.set (State.set ({ onAt 6 with engines := Vector.replicate 8 { cycle := true, latches := [(4, 8)] } }) (PE_IM_EVEN 2 0) 0x6000) (PE_ST_STATE 2) 1) PE_GST_RUNNING 4) (PE_SIN 2) 7), by decide⟩,
   ⟨.proc .sup, 7, onAt 6, by decide⟩,
   ⟨.proc .sup, 7, onAt 6, by decide⟩⟩

theorem test_engine_commands_queues_and_inputs_3 :
    (∃ (door : Initiator) (e : Fin 8) (w : Nat) (s : State), doorOpen s door (0x1432 + 0x20 * e.val) = true ∧ s.engines[e].inj = none ∧ peReserved (w % 65536) = false) ∧
    (∃ (door : Initiator) (e : Fin 8) (w : Nat) (s : State), doorOpen s door (0x1432 + 0x20 * e.val) = true ∧ (s.engines[e].inj.isSome = true ∨ peReserved (w % 65536) = true)) ∧
    (∃ (door : Initiator) (e : Fin 8) (_w : Word) (s : State), doorOpen s door (0x142C + 0x20 * e.val) = true ∧ s.engines[e].tx.length < txDepth s e) ∧
    (∃ (door : Initiator) (e : Fin 8) (_w : Word) (s : State), doorOpen s door (0x142C + 0x20 * e.val) = true ∧ txDepth s e ≤ s.engines[e].tx.length) :=
  ⟨⟨.proc .sup, 7, 0x8005, onAt 6, by decide⟩,
   ⟨.proc .sup, 7, 0xF000, onAt 6, by decide⟩,
   ⟨.proc .sup, 0, 9, onAt 6, by decide⟩,
   ⟨.proc .sup, 0, 9, { onAt 6 with engines := Vector.replicate 8 { tx := [1, 2, 3, 4] } }, by decide⟩⟩

theorem test_engine_commands_queues_and_inputs_4 :
    (∃ (_door : Initiator) (e : Fin 8) (v : Word) (l : List Word) (s : State), s.alive = true ∧ s.engines[e].rx = v :: l) ∧
    (∃ (_door : Initiator) (e : Fin 8) (s : State), s.alive = true ∧ s.engines[e].rx = []) ∧
    (∃ (door : Initiator) (e : Fin 8) (n : Fin 16) (_v : Word) (s : State), doorOpen s door (0x1580 + 0x10 * e.val + n.val) = true ∧ s.get (PE_ST_STATE e) = 0) ∧
    (∃ (door : Initiator) (e : Fin 8) (n : Fin 16) (_v : Word) (s : State), doorOpen s door (0x1580 + 0x10 * e.val + n.val) = true ∧ peRuns s e = true) :=
  ⟨⟨.proc .sup, 6, 5, [], { onAt 6 with engines := Vector.replicate 8 { rx := [5] } }, by decide⟩,
   ⟨.proc .sup, 6, onAt 6, by decide⟩,
   ⟨.proc .sup, 7, 15, 0x12345678, onAt 6, by decide⟩,
   ⟨.proc .sup, 2, 15, 0x12345678, (State.set (State.set (State.set ({ onAt 6 with engines := Vector.replicate 8 { cycle := true } }) (PE_IM_EVEN 2 0) 0) (PE_ST_STATE 2) 1) PE_GST_RUNNING 4), by decide⟩⟩

theorem test_engine_commands_queues_and_inputs_5 :
    (∃ (e : Fin 8) (tm code : Nat) (rest : List (Nat × Nat × Nat)) (s : State), s.alive = true ∧ s.engines[e].due = (code, tm, 0) :: rest) ∧
    (∃ (e : Fin 8) (r : GridRec) (rest : List GridRec) (s : State), s.alive = true ∧ peRuns s e = true ∧ s.engines[e].mev = r :: rest ∧ r.rcd.kind = .sample ∧ (s.get (PE_MEV_MODE e) = 1 ∨ (s.get (PE_MEV_MODE e) = 2 ∧ s.getI (PE_MEV_LEVEL e) ≤ r.rcd.value))) ∧
    (∃ (e : Fin 8) (r : GridRec) (rest : List GridRec) (s : State), s.alive = true ∧ peRuns s e = true ∧ s.engines[e].mev = r :: rest ∧ r.rcd.kind = .sample ∧ s.get (PE_MEV_MODE e) = 3 ∧ s.engines[e].tx.length < txDepth s e) ∧
    (∃ (e : Fin 8) (r : GridRec) (rest : List GridRec) (s : State), s.alive = true ∧ peRuns s e = true ∧ s.engines[e].mev = r :: rest ∧ (r.rcd.kind ≠ .sample ∨ (s.get (PE_MEV_MODE e) = 2 ∧ r.rcd.value < s.getI (PE_MEV_LEVEL e)))) :=
  ⟨⟨3, 44, 9, [(9, 45, 1)], { onAt 6 with engines := Vector.replicate 8 { due := [(9, 44, 0), (9, 45, 1)] } }, by decide⟩,
   ⟨2, { t := 80, ssn := 1, rcd := { value := 3 } }, [], (State.set (State.set (State.set (State.set ({ onAt 6 with engines := Vector.replicate 8 { cycle := true, mev := [{ t := 80, ssn := 1, rcd := { value := 3 } }] } }) (PE_IM_EVEN 2 0) 0) (PE_ST_STATE 2) 1) PE_GST_RUNNING 4) (PE_MEV_MODE 2) 2), by decide⟩,
   ⟨2, { t := 80, ssn := 1, rcd := { value := -3 } }, [], (State.set (State.set (State.set (State.set ({ onAt 6 with engines := Vector.replicate 8 { cycle := true, mev := [{ t := 80, ssn := 1, rcd := { value := -3 } }] } }) (PE_IM_EVEN 2 0) 0) (PE_ST_STATE 2) 1) PE_GST_RUNNING 4) (PE_MEV_MODE 2) 3), by decide⟩,
   ⟨2, { t := 80, ssn := 1, rcd := { value := -3 } }, [], (State.set (State.set (State.set (State.set ({ onAt 6 with engines := Vector.replicate 8 { cycle := true, mev := [{ t := 80, ssn := 1, rcd := { value := -3 } }] } }) (PE_IM_EVEN 2 0) 0) (PE_ST_STATE 2) 1) PE_GST_RUNNING 4) (PE_MEV_MODE 2) 2), by decide⟩⟩


theorem test_ports_switch_and_ring_client_1 :
    (∃ (port : Port) (ab sqi : Nat) (high : Bool) (s : State), s.alive = true ∧ linkUp s port = false ∧ (port = .a ∨ s.pwr.serialB = false) ∧ linkAmp s port ab = some high ∧ sqi < 8 ∧ s.mode ≠ 4) ∧
    (∃ (port : Port) (s : State), s.alive = true ∧ linkUp s port = true ∧ s.mode ≠ 4) ∧
    (∃ (door : Initiator) (_v : Word) (s : State), doorOpen s door 0x301 = true ∧ linkUp s .a = false ∧ linkUp s .b = false) ∧
    (∃ (port : Port) (f : Frame) (s : State), s.alive = true ∧ linkUp s port = true ∧ (f.fcsOk = false ∨ 1522 < f.len)) :=
  ⟨⟨.b, 3, 7, true, onAt 6, by decide⟩,
   ⟨.a, (onAt 6).set PORT_ST_A 0x20, by decide⟩,
   ⟨.proc .sup, 0x14, onAt 6, by decide⟩,
   ⟨.a, { src := 1, dst := 2, fcsOk := false }, (onAt 6).set PORT_ST_A 0x20, by decide⟩⟩

theorem test_ports_switch_and_ring_client_2 :
    (∃ (port : Port) (f : Frame) (s : State), s.alive = true ∧ linkUp s port = true ∧ f.fcsOk = true ∧ f.len ≤ 1522 ∧ f.local = false ∧ f.group = false ∧ f.dst = ownMac s) ∧
    (∃ (port : Port) (f : Frame) (s : State), s.alive = true ∧ linkUp s port = true ∧ f.fcsOk = true ∧ f.len ≤ 1522 ∧ f.local = false ∧ f.group = true ∧ (joinedMacs s).contains f.dst = false ∧ linkUp s port.other = true ∧ queueFull s port.other.egress f.inQueue f.len = false) ∧
    (∃ (port : Port) (f : Frame) (s : State), s.alive = true ∧ linkUp s port = true ∧ f.fcsOk = true ∧ f.len ≤ 1522 ∧ f.local = false ∧ f.group = true ∧ (joinedMacs s).contains f.dst = false ∧ port = .b ∧ linkUp s .a = true ∧ queueFull s .a f.inQueue f.len = true) ∧
    (∃ (port : Port) (f : Frame) (s : State), s.alive = true ∧ linkUp s port = true ∧ f.fcsOk = true ∧ f.len ≤ 1522 ∧ f.local = true) :=
  ⟨⟨.b, { src := 1, dst := 0, cystad := some 0x10 }, (onAt 6).setB PORT_ST_LINKB true, by decide⟩,
   ⟨.b, { src := 1, dst := 0x01005E010203 }, ((onAt 6).set PORT_ST_A 0x20).setB PORT_ST_LINKB true, by decide⟩,
   ⟨.b, { src := 1, dst := 0x01005E010203 }, { ((onAt 6).set PORT_ST_A 0x20).setB PORT_ST_LINKB true with tx := List.replicate 33 { port := .a, queue := 3, pay := .forward { src := 3, dst := 4, len := 1000 } } }, by decide⟩,
   ⟨.b, { src := 1, dst := 0x0180C200000E, etype := 0x88F7 }, ((onAt 6).set PORT_ST_A 0x20).setB PORT_ST_LINKB true, by decide⟩⟩

theorem test_ports_switch_and_ring_client_3 :
    (∃ (port : Port) (f : Frame) (s : State), s.alive = true ∧ linkUp s port = true ∧ f.fcsOk = true ∧ f.len ≤ 1522 ∧ f.local = false ∧ (f.group = true ∧ (joinedMacs s).contains f.dst = true ∨ f.group = false ∧ f.dst ≠ ownMac s ∧ f.dst ≠ f.src ∧ s.net.fdb.find? (fun e => e.mac == f.dst) = none) ∧ linkUp s port.other = true ∧ queueFull s port.other.egress f.inQueue f.len = false) ∧
    (∃ (port : Port) (f : Frame) (e : FdbEntry) (s : State), s.alive = true ∧ linkUp s port = true ∧ f.fcsOk = true ∧ f.len ≤ 1522 ∧ f.local = false ∧ f.group = false ∧ f.dst ≠ ownMac s ∧ f.dst ≠ f.src ∧ (s.net.fdb.find? (fun e => e.mac == f.dst) = some e) ∧ linkUp s e.port = true ∧ queueFull s e.port.egress f.inQueue f.len = false) ∧
    (∃ (_mac : Nat) (s : State), s.alive = true) ∧
    (∃ (port : Port) (_ms : Nat) (s : State), s.alive = true ∧ s.net.mrpOn = true ∧ linkUp s port = true) :=
  ⟨⟨.b, { src := 1, dst := 9 }, ((onAt 6).set PORT_ST_A 0x20).setB PORT_ST_LINKB true, by decide⟩,
   ⟨.b, { src := 1, dst := 9 }, ⟨9, .a, 0⟩, { ((onAt 6).set PORT_ST_A 0x20).setB PORT_ST_LINKB true with net := { fdb := [⟨9, .a, 0⟩] } }, by decide⟩,
   ⟨5, { onAt 6 with net := { fdb := [⟨5, .a, 0⟩] } }, by decide⟩,
   ⟨.a, 20, (onAt 6).set PORT_ST_A 0x20, by decide⟩⟩

theorem test_ports_switch_and_ring_client_4 :
    (∃ (at_ : Nat) (s : State), s.alive = true ∧ s.net.topo = some at_ ∧ at_ ≤ s.pwr.ticks) ∧
    (∃ (_port : Port) (_src : Peer) (s : State), s.live = true ∧ s.net.echoSec = s.second ∧ s.net.echoes < 10) ∧
    (∃ (_port : Port) (_src : Peer) (s : State), s.live = true ∧ s.net.echoSec = s.second ∧ 10 ≤ s.net.echoes) ∧
    (∃ (_port : Port) (_src : Peer) (s : State), s.live = true ∧ s.net.echoSec ≠ s.second) :=
  ⟨⟨0, { onAt 6 with net := { topo := some 0, fdb := [⟨5, .a, 0⟩] } }, by decide⟩,
   ⟨.a, { addr := 9 }, { onAt 6 with net := { echoes := 9 } }, by decide⟩,
   ⟨.a, {}, { onAt 6 with net := { echoes := 10 } }, by decide⟩,
   ⟨.a, {}, { onAt 6 with net := { echoes := 10 }, time := { sec := 5 } }, by decide⟩⟩

theorem test_ports_switch_and_ring_client_5 :
    (∃ (_port : Port) (kind : Nat) (_src : Peer) (s : State), s.live = true ∧ (kind = 1 ∨ kind = 3 ∨ (kind = 2 ∧ s.get NET_IP4_ADDR ≠ 0))) ∧
    (∃ (_port : Port) (_src : Peer) (s : State), s.live = true ∧ s.get NET_IP4_ADDR ≠ 0) :=
  ⟨⟨.a, 3, { v6 := true, addr := 7 }, onAt 6, by decide⟩,
   ⟨.a, {}, (onAt 6).set NET_IP4_ADDR 9, by decide⟩⟩


theorem test_cystad_messages_are_checked_and_streams_published_1 :
    (∃ (d : Datagram) (key : Nat) (s : State), s.live = true ∧ s.keys.lineKey = some key ∧ d.formOk = false) ∧
    (∃ (d : Datagram) (key : Nat) (s : State), s.live = true ∧ s.keys.lineKey = some key ∧ d.formOk = true ∧ hostType d.typ = false ∧ d.authOk key = false) ∧
    (∃ (d : Datagram) (key : Nat) (s : State), s.live = true ∧ s.keys.lineKey = some key ∧ d.formOk = true ∧ hostType d.typ = false ∧ d.authOk key = true ∧ replayed s d = true) ∧
    (∃ (d : Datagram) (key : Nat) (s : State), s.live = true ∧ s.keys.lineKey = some key ∧ d.formOk = true ∧ hostType d.typ = true ∧ (isHost d.sender = false ∨ hostIndex s d.sender = none)) :=
  ⟨⟨{ ver := 2 }, testKey, { keyed 6 with modes := {} }, by decide⟩,
   ⟨{ tag := 5 }, testKey, { keyed 6 with modes := {} }, by decide +kernel⟩,
   ⟨sealed 1 3 7 [], testKey, { keyed 6 with modes := {}, net := { replay := [⟨3, 7, [7], 0⟩] } }, by decide +kernel⟩,
   ⟨{ typ := 0x10, sender := 0x80000001 }, testKey, { keyed 6 with modes := {} }, by decide⟩⟩

theorem test_cystad_messages_are_checked_and_streams_published_2 :
    (∃ (d : Datagram) (key : Nat) (s : State), s.live = true ∧ s.keys.lineKey = some key ∧ d.formOk = true ∧ hostType d.typ = false ∧ d.authOk key = true ∧ replayed s d = false ∧ hostTimeBad s d = true) ∧
    (∃ (d : Datagram) (key : Nat) (s : State), s.live = true ∧ s.keys.lineKey = some key ∧ d.formOk = true ∧ hostType d.typ = false ∧ d.authOk key = true ∧ replayed s d = false ∧ hostTimeBad s d = false ∧ d.bodyOk key = false) ∧
    (∃ (sender : Nat) (s : State), s.alive = true ∧ isHost sender = false) ∧
    (∃ (door : Initiator) (k : Fin 16) (v : Word) (s : State), doorOpen s door (0x330 + k.val) = true ∧ s.get (CY_STR_EN k) = 0 ∧ getBits v 31 1 = 1 ∧ getBits v 29 1 = 1 ∧ s.tally.hosts = [] ∧ admitted s k = false) :=
  ⟨⟨sealed 1 0x80000003 20000000000 [], testKey, ({ keyed 6 with modes := {} }).set TIME_ST_STATE 2, by decide +kernel⟩,
   ⟨sealed 3 3 8 [2, 0, 0, 0], testKey, { keyed 6 with modes := {} }, by decide +kernel⟩,
   ⟨3, { onAt 6 with net := { replay := [⟨3, 7, [7], 0⟩] } }, by decide⟩,
   ⟨.proc .sup, 4, 0xA3000000, onAt 6, by decide⟩⟩

theorem test_cystad_messages_are_checked_and_streams_published_3 :
    (∃ (door : Initiator) (k : Fin 16) (v : Word) (s : State), doorOpen s door (0x330 + k.val) = true ∧ s.get (CY_STR_EN k) = 1 ∧ getBits v 31 1 = 0 ∧ admitted s k = true) ∧
    (∃ (door : Initiator) (k : Fin 16) (v : Word) (s : State), doorOpen s door (0x330 + k.val) = true ∧ s.get (CY_STR_EN k) = 1 ∧ getBits v 31 1 = 0 ∧ admitted s k = true ∧ (s.get (LD_ATT_ATT (streamSlot s k))).testBit 1 = false) ∧
    (∃ (k : Fin 16) (p : Pub) (rest : List Pub) (key : Nat) (s : State), s.live = true ∧ s.keys.lineKey = some key ∧ s.net.streams[k].ready = p :: rest ∧ p.host = none ∧ pubAllowed s k = true) :=
  ⟨⟨.proc .sup, 4, 0, ((onAt 6).set (CY_STR_EN 4) 1).set (CY_STR_ST 4) 1, by decide⟩,
   ⟨.proc .sup, 4, 0, ((onAt 6).set (CY_STR_EN 4) 1).set (CY_STR_ST 4) 1, by decide⟩,
   ⟨4, ⟨1, some 8, [1, 2, 3], 3, false, false, 2, none, false⟩, [], testKey, { keyed 6 with modes := {}, net := { streams := Vector.replicate 16 { ready := [⟨1, some 8, [1, 2, 3], 3, false, false, 2, none, false⟩] } } }, by decide⟩⟩


theorem test_capture_sessions_transfer_chunks_1 :
    (∃ (_port : Port) (d : Datagram) (c : Fin 16) (l : Fin 32) (s : State), d.typ = 0x30 ∧ (cyCheck s d).1 = true ∧ beAt (plain s d) 0 1 = c.val ∧ s.get DK_ST_ON = 1 ∧ s.get (DK_CAP_STATE c) = 2 ∧ takeLease s = some l) ∧
    (∃ (_port : Port) (d : Datagram) (c : Fin 16) (why : Nat) (s : State), d.typ = 0x30 ∧ (cyCheck s d).1 = true ∧ beAt (plain s d) 0 1 = c.val ∧ openResult (cyCheck s d).2 c = why ∧ why ≠ 0 ∧ why ≠ 3) ∧
    (∃ (_port : Port) (d : Datagram) (x : Session) (key : Nat) (s : State), d.typ = 0x32 ∧ s.keys.lineKey = some key ∧ (cyCheck s d).1 = true ∧ isHost d.sender = true ∧ s.net.sessions = [x] ∧ beAt (plain s d) 0 2 = x.sid ∧ (beAt (plain s d) 2 1).testBit 0 = false ∧ x.lease < 32 ∧ x.ack ≤ beAt (plain s d) 8 4 ∧ beAt (plain s d) 8 4 ≤ x.next ∧ x.gtot ≤ beAt (plain s d) 4 4 ∧ beAt (plain s d) 4 4 ≤ beAt (plain s d) 8 4 + 64 ∧ beAt (plain s d) 8 4 < x.total ∧ s.get (LS_KIND x.lease) = 2 ∧ (s.deck.leases.toList.getD x.lease {}).cap = none) ∧
    (∃ (_port : Port) (d : Datagram) (x : Session) (s : State), d.typ = 0x32 ∧ (cyCheck s d).1 = true ∧ s.net.sessions = [x] ∧ beAt (plain s d) 0 2 = x.sid ∧ x.next < beAt (plain s d) 8 4) :=
  ⟨⟨.a, hostMsg 0x30 [4, 0, 0, 0], 4, 0, ((({ keyed 6 with tally := { hosts := [⟨0x80000001, 0⟩] } }).set DK_ST_ON 1).set (DK_CAP_STATE 4) 2).set ID_DOMST_WSTATE 2, by decide +kernel⟩,
   ⟨.b, hostMsg 0x30 [4, 0, 0, 0], 4, 4, { keyed 6 with tally := { hosts := [⟨0x80000001, 0⟩] } }, by decide +kernel⟩,
   ⟨.a, hostMsg 0x32 [0, 7, 0, 0, 0, 0, 0, 9, 0, 0, 0, 2], ⟨7, 4, 0x80000001, 3, 2, 1, 2, 12⟩, testKey, ({ keyed 6 with tally := { hosts := [⟨0x80000001, 0⟩] }, net := { sessions := [⟨7, 4, 0x80000001, 3, 2, 1, 2, 12⟩] } }).set (LS_KIND 3) 2, by decide +kernel⟩,
   ⟨.a, hostMsg 0x32 [0, 7, 0, 0, 0, 0, 0, 9, 0, 0, 0, 3], ⟨7, 4, 0x80000001, 3, 2, 1, 2, 12⟩, ({ keyed 6 with tally := { hosts := [⟨0x80000001, 0⟩] }, net := { sessions := [⟨7, 4, 0x80000001, 3, 2, 1, 2, 12⟩] } }).set (LS_KIND 3) 2, by decide +kernel⟩⟩

theorem test_capture_sessions_transfer_chunks_2 :
    (∃ (sid : Nat) (x : Session) (key : Nat) (s : State), s.live = true ∧ s.keys.lineKey = some key ∧ s.net.sessions = [x] ∧ sid = x.sid ∧ x.next < x.gtot ∧ x.next < x.total ∧ streamsWait s = false ∧ hostPorts s x.host bothPorts = bothPorts ∧ shareAllows s bothPorts (messageLen (hostHead s x.host) (.chunk sid (chunkOf (s.deck.caps.toList.getD x.c {}) x.next).1 x.next (chunkOf (s.deck.caps.toList.getD x.c {}) x.next).2.1 (chunkOf (s.deck.caps.toList.getD x.c {}) x.next).2.2)) = true) ∧
    (∃ (sid : Nat) (x : Session) (s : State), s.live = true ∧ s.net.sessions = [x] ∧ sid = x.sid ∧ (x.gtot ≤ x.next ∨ streamsWait s = true)) ∧
    (∃ (_port : Port) (d : Datagram) (x : Session) (s : State), d.typ = 0x35 ∧ (cyCheck s d).1 = true ∧ s.net.sessions = [x] ∧ beAt (plain s d) 0 2 = x.sid ∧ x.lease < 32 ∧ s.get (LS_KIND x.lease) = 2 ∧ s.get (LS_TGT x.lease) = 0 ∧ s.get (LS_IDX x.lease) = x.c ∧ s.get (DK_CAP_STATE x.c) = 3 ∧ (∀ l : Fin 32, l.val ≠ x.lease → s.get (LS_KIND l) = 0)) ∧
    (∃ (_port : Port) (d : Datagram) (s : State), d.typ = 0x35 ∧ (cyCheck s d).1 = true ∧ sessionOf s (beAt (plain s d) 0 2) = none) :=
  ⟨⟨7, ⟨7, 4, 0x80000001, 3, 3, 1, 2, 12⟩, testKey, { keyed 6 with tally := { hosts := [⟨0x80000001, 0⟩] }, net := { sessions := [⟨7, 4, 0x80000001, 3, 3, 1, 2, 12⟩] } }, by decide⟩,
   ⟨7, ⟨7, 4, 0x80000001, 3, 12, 1, 12, 12⟩, { keyed 6 with tally := { hosts := [⟨0x80000001, 0⟩] }, net := { sessions := [⟨7, 4, 0x80000001, 3, 12, 1, 12, 12⟩] } }, by decide⟩,
   ⟨.a, hostMsg 0x35 [0, 7, 0, 0], ⟨7, 4, 0x80000001, 3, 2, 1, 2, 12⟩, ((({ keyed 6 with tally := { hosts := [⟨0x80000001, 0⟩] }, net := { sessions := [⟨7, 4, 0x80000001, 3, 2, 1, 2, 12⟩] } }).set (LS_KIND 3) 2).set (LS_IDX 3) 4).set (DK_CAP_STATE 4) 3, by decide +kernel⟩,
   ⟨.a, hostMsg 0x35 [0, 8, 0, 0], ((({ keyed 6 with tally := { hosts := [⟨0x80000001, 0⟩] }, net := { sessions := [⟨7, 4, 0x80000001, 3, 2, 1, 2, 12⟩] } }).set (LS_KIND 3) 2).set (LS_IDX 3) 4).set (DK_CAP_STATE 4) 3, by decide +kernel⟩⟩


theorem test_analysis_blocks_are_discarded_or_evaluated_1 :
    (∃ (n : Fin 32) (k : Nat) (gap : Bool) (s : State), setupRuns s n = true ∧ blockCause (tagOf s.an.setups[n].tags 9 0 == 1) none (s.an.setups[n].reach s.slots[s.an.setups[n].slot].rate) 0 = some (k, gap)) ∧
    (∃ (n : Fin 32) (s : State), setupRuns s n = true ∧ blockCause (tagOf s.an.setups[n].tags 9 0 == 1) none (s.an.setups[n].reach s.slots[s.an.setups[n].slot].rate) 0 = none ∧ s.an.setups[n].func ≠ 6 ∧ s.an.setups[n].peerSpoilt s.slots[s.an.setups[n].slot].rate = none ∧ s.an.setups[n].hist.length < s.an.setups[n].need s.slots[s.an.setups[n].slot].rate) ∧
    (∃ (n : Fin 32) (s : State), setupRuns s n = true ∧ blockCause (tagOf s.an.setups[n].tags 9 0 == 1) none (s.an.setups[n].reach s.slots[s.an.setups[n].slot].rate) 0 = none ∧ s.an.setups[n].angleSpoilt = none ∧ s.an.setups[n].peerSpoilt s.slots[s.an.setups[n].slot].rate = none ∧ s.an.setups[n].need s.slots[s.an.setups[n].slot].rate ≤ s.an.setups[n].hist.length ∧ s.an.setups[n].func = 2 ∧ s.an.setups[n].again = true) ∧
    (∃ (n : Fin 32) (w : Nat) (s : State), setupRuns s n = true ∧ blockCause (tagOf s.an.setups[n].tags 9 0 == 1) none (s.an.setups[n].reach s.slots[s.an.setups[n].slot].rate) 0 = none ∧ s.an.setups[n].angleSpoilt = some w) :=
  ⟨⟨3, 1, true, (State.set (State.set ({ onAt 6 with keys := { lineKey := none }, slots := Vector.replicate 16 { en := true }, an := { setups := Vector.replicate 32 { tags := [(1, 0), (2, 1), (3, 0), (4, 1), (0xA, 0)], used := 3, hist := [⟨40, 4920, 0, false⟩, ⟨42, 5080, 0x40, false⟩, ⟨43, 5160, 0, false⟩] }, alarms := Vector.replicate 32 { tags := [(1, 768), (2, 5)], overA := 2 } } }) (ID_DOMST_WSTATE) 2) (AN_ST_RUN0) 1), by decide⟩,
   ⟨3, (State.set (State.set ({ onAt 6 with keys := { lineKey := none }, slots := Vector.replicate 16 { en := true }, an := { setups := Vector.replicate 32 { tags := [(1, 0), (2, 1), (3, 0), (4, 1), (0xA, 0)], used := 3, hist := [⟨40, 4920, 0, false⟩] } } }) (ID_DOMST_WSTATE) 2) (AN_ST_RUN0) 1), by decide⟩,
   ⟨3, (State.set (State.set ({ onAt 6 with keys := { lineKey := none }, slots := Vector.replicate 16 { en := true }, an := { setups := Vector.replicate 32 { tags := [(1, 0), (2, 2), (3, 0), (4, 1)], again := true, hist := [⟨40, 4920, 0x6400, false⟩, ⟨41, 5000, 0xC800, false⟩, ⟨42, 5080, 0, false⟩] } } }) (ID_DOMST_WSTATE) 2) (AN_ST_RUN0) 1), by decide⟩,
   ⟨3, 4921, (State.set (State.set (State.set ({ onAt 6 with keys := { lineKey := none }, slots := Vector.replicate 16 { en := true }, an := { setups := Vector.replicate 32 { tags := [(1, 0), (2, 6), (3, 0), (4, 8), (0x20, 64)], angle := [⟨1, 4920, 0x40, false⟩], hist := [⟨40, 4920, 0x6400, false⟩, ⟨41, 5000, 0xC800, false⟩, ⟨42, 5080, 0, false⟩] } } }) (ID_DOMST_WSTATE) 2) (AN_ST_RUN0) 1) (AUX_TACH_MODE) 1), by decide⟩⟩

theorem test_analysis_blocks_are_discarded_or_evaluated_2 :
    (∃ (n : Fin 32) (b : HistRec) (s : State), setupRuns s n = true ∧ blockCause (tagOf s.an.setups[n].tags 9 0 == 1) none (s.an.setups[n].reach s.slots[s.an.setups[n].slot].rate) 0 = none ∧ s.an.setups[n].angleSpoilt = none ∧ s.an.setups[n].peerSpoilt s.slots[s.an.setups[n].slot].rate = none ∧ s.an.setups[n].need s.slots[s.an.setups[n].slot].rate ≤ s.an.setups[n].hist.length ∧ s.an.setups[n].again = false ∧ (s.an.setups[n].block s.slots[s.an.setups[n].slot].rate).getLast? = some b ∧ s.an.setups[n].func = 1 ∧ tagOf s.an.setups[n].tags 7 0 ≠ 1 ∧ s.an.setups[n].route.testBit 0 = false ∧ s.an.setups[n].route.testBit 1 = false ∧ s.an.setups[n].route.testBit 2 = false ∧ (∀ a : Fin 32, s.an.alarms[a].tags = []) ∧ ((if s.an.setups[n].proc = 0 then s.an.owes0 else s.an.owes1) = false)) ∧
    (∃ (n : Fin 32) (b : HistRec) (s : State), setupRuns s n = true ∧ blockCause (tagOf s.an.setups[n].tags 9 0 == 1) none (s.an.setups[n].reach s.slots[s.an.setups[n].slot].rate) 0 = none ∧ s.an.setups[n].angleSpoilt = none ∧ s.an.setups[n].peerSpoilt s.slots[s.an.setups[n].slot].rate = none ∧ s.an.setups[n].need s.slots[s.an.setups[n].slot].rate ≤ s.an.setups[n].hist.length ∧ s.an.setups[n].again = false ∧ (s.an.setups[n].block s.slots[s.an.setups[n].slot].rate).getLast? = some b ∧ s.an.setups[n].func = 1 ∧ tagOf s.an.setups[n].tags 7 0 ≠ 1 ∧ s.an.setups[n].route.testBit 0 = true ∧ s.an.setups[n].route.testBit 1 = false ∧ s.an.setups[n].route.testBit 2 = false ∧ s.keys.lineKey.isSome = true ∧ (∀ a : Fin 32, s.an.alarms[a].tags = []) ∧ ((if s.an.setups[n].proc = 0 then s.an.owes0 else s.an.owes1) = false) ∧ s.net.features = [] ∧ streamsWait s = false ∧ (shareAllows s bothPorts (messageLen (streamGroupHead s) (featurePay s ((List.range 5).map fun j => featureOf n b (s.an.setups[n].block s.slots[s.an.setups[n].slot].rate).length (quality s.an.setups[n] s.slots[s.an.setups[n].slot].rate) j (outputValues s n j)))) = true)) ∧
    (∃ (n : Fin 32) (b : HistRec) (t0 t1 t2 t3 t4 : Trend) (s : State), setupRuns s n = true ∧ blockCause (tagOf s.an.setups[n].tags 9 0 == 1) none (s.an.setups[n].reach s.slots[s.an.setups[n].slot].rate) 0 = none ∧ s.an.setups[n].angleSpoilt = none ∧ s.an.setups[n].peerSpoilt s.slots[s.an.setups[n].slot].rate = none ∧ s.an.setups[n].need s.slots[s.an.setups[n].slot].rate ≤ s.an.setups[n].hist.length ∧ s.an.setups[n].again = false ∧ (s.an.setups[n].block s.slots[s.an.setups[n].slot].rate).getLast? = some b ∧ s.an.setups[n].func = 1 ∧ tagOf s.an.setups[n].tags 7 0 ≠ 1 ∧ s.an.setups[n].route.testBit 0 = false ∧ s.an.setups[n].route.testBit 1 = true ∧ s.an.setups[n].route.testBit 2 = false ∧ (∀ a : Fin 32, s.an.alarms[a].tags = []) ∧ ((if s.an.setups[n].proc = 0 then s.an.owes0 else s.an.owes1) = false) ∧ s.an.setups[n].trends = [t0, t1, t2, t3, t4]) ∧
    (∃ (n : Fin 32) (b : HistRec) (e : Fin 8) (s : State), setupRuns s n = true ∧ blockCause (tagOf s.an.setups[n].tags 9 0 == 1) none (s.an.setups[n].reach s.slots[s.an.setups[n].slot].rate) 0 = none ∧ s.an.setups[n].angleSpoilt = none ∧ s.an.setups[n].peerSpoilt s.slots[s.an.setups[n].slot].rate = none ∧ s.an.setups[n].need s.slots[s.an.setups[n].slot].rate ≤ s.an.setups[n].hist.length ∧ s.an.setups[n].again = false ∧ (s.an.setups[n].block s.slots[s.an.setups[n].slot].rate).getLast? = some b ∧ s.an.setups[n].func = 1 ∧ tagOf s.an.setups[n].tags 7 0 ≠ 1 ∧ s.an.setups[n].route.testBit 0 = false ∧ s.an.setups[n].route.testBit 1 = false ∧ s.an.setups[n].route.testBit 2 = true ∧ (∀ a : Fin 32, s.an.alarms[a].tags = []) ∧ ((if s.an.setups[n].proc = 0 then s.an.owes0 else s.an.owes1) = false) ∧ tagOf s.an.setups[n].tags 0xC 0 = e.val ∧ s.engines[e].tx.length < txDepth s e) :=
  ⟨⟨3, ⟨41, 5000, 0xC800, false⟩, (State.set (State.set ({ onAt 6 with keys := { lineKey := none }, slots := Vector.replicate 16 { en := true }, an := { setups := Vector.replicate 32 { tags := [(1, 0), (2, 1), (3, 0), (4, 1), (0xA, 0)], hist := [⟨40, 4920, 0x6400, false⟩, ⟨41, 5000, 0xC800, false⟩, ⟨42, 5080, 0, false⟩] } } }) (ID_DOMST_WSTATE) 2) (AN_ST_RUN0) 1), by decide⟩,
   ⟨3, ⟨41, 5000, 0xC800, false⟩, (State.set (State.set ({ onAt 6 with keys := { lineKey := some testKey }, slots := Vector.replicate 16 { en := true }, an := { setups := Vector.replicate 32 { tags := [(1, 0), (2, 1), (3, 0), (4, 1), (0xA, 1)], hist := [⟨40, 4920, 0x6400, false⟩, ⟨41, 5000, 0xC800, false⟩, ⟨42, 5080, 0, false⟩] } } }) (ID_DOMST_WSTATE) 2) (AN_ST_RUN0) 1), by decide +kernel⟩,
   ⟨3, ⟨41, 5000, 0xC800, false⟩, {}, {}, {}, {}, {}, (State.set (State.set ({ onAt 6 with keys := { lineKey := none }, slots := Vector.replicate 16 { en := true }, an := { setups := Vector.replicate 32 { tags := [(1, 0), (2, 1), (3, 0), (4, 1), (0xA, 2)], trends := List.replicate 5 {}, hist := [⟨40, 4920, 0x6400, false⟩, ⟨41, 5000, 0xC800, false⟩, ⟨42, 5080, 0, false⟩] } } }) (ID_DOMST_WSTATE) 2) (AN_ST_RUN0) 1), by decide⟩,
   ⟨3, ⟨41, 5000, 0xC800, false⟩, 2, (State.set (State.set ({ onAt 6 with keys := { lineKey := none }, slots := Vector.replicate 16 { en := true }, an := { setups := Vector.replicate 32 { tags := [(1, 0), (2, 1), (3, 0), (4, 1), (0xA, 4), (0xC, 2), (0xD, 0), (0xE, 0x40000000), (0xF, 0x40400000)], hist := [⟨40, 4920, 0x6400, false⟩, ⟨41, 5000, 0xC800, false⟩, ⟨42, 5080, 0, false⟩] } } }) (ID_DOMST_WSTATE) 2) (AN_ST_RUN0) 1), by decide⟩⟩

theorem test_analysis_blocks_are_discarded_or_evaluated_3 :
    (∃ (n : Fin 32) (b : HistRec) (s : State), setupRuns s n = true ∧ blockCause (tagOf s.an.setups[n].tags 9 0 == 1) none (s.an.setups[n].reach s.slots[s.an.setups[n].slot].rate) 0 = none ∧ s.an.setups[n].angleSpoilt = none ∧ s.an.setups[n].peerSpoilt s.slots[s.an.setups[n].slot].rate = none ∧ s.an.setups[n].need s.slots[s.an.setups[n].slot].rate ≤ s.an.setups[n].hist.length ∧ s.an.setups[n].again = false ∧ (s.an.setups[n].block s.slots[s.an.setups[n].slot].rate).getLast? = some b ∧ s.an.setups[n].func = 4 ∧ tagOf s.an.setups[n].tags 7 0 ≠ 1 ∧ s.an.setups[n].route.testBit 0 = true ∧ s.an.setups[n].route.testBit 1 = false ∧ s.an.setups[n].route.testBit 2 = false ∧ s.keys.lineKey.isSome = true ∧ stillSending s (n.val * 256) = true ∧ (∀ a : Fin 32, s.an.alarms[a].tags = []) ∧ ((if s.an.setups[n].proc = 0 then s.an.owes0 else s.an.owes1) = false)) ∧
    (∃ (n : Fin 32) (b : HistRec) (a : Fin 32) (j : Fin 5) (s : State), setupRuns s n = true ∧ blockCause (tagOf s.an.setups[n].tags 9 0 == 1) none (s.an.setups[n].reach s.slots[s.an.setups[n].slot].rate) 0 = none ∧ s.an.setups[n].angleSpoilt = none ∧ s.an.setups[n].peerSpoilt s.slots[s.an.setups[n].slot].rate = none ∧ s.an.setups[n].need s.slots[s.an.setups[n].slot].rate ≤ s.an.setups[n].hist.length ∧ s.an.setups[n].again = false ∧ (s.an.setups[n].block s.slots[s.an.setups[n].slot].rate).getLast? = some b ∧ s.an.setups[n].func = 1 ∧ s.an.setups[n].proc = 0 ∧ tagOf s.an.setups[n].tags 7 0 ≠ 1 ∧ s.an.setups[n].route.testBit 0 = false ∧ s.an.setups[n].route.testBit 1 = false ∧ s.an.setups[n].route.testBit 2 = false ∧ s.an.owes0 = false ∧ (∀ c : Fin 32, c ≠ a → s.an.alarms[c].tags = []) ∧ tagOf s.an.alarms[a].tags 1 0 = n.val * 256 + j.val ∧ s.an.alarms[a].tags ≠ [] ∧ s.mode ≠ 9 ∧ s.an.released + s.get AN_CFG_REARM * 8000000000 ≤ b.t ∧ s.get (alarmField a) < 2 ∧ beyondLevel (tagOf s.an.alarms[a].tags 4 0 == 1) (f32 ((outputValues s n j).headD 0).toNat) (alarmLevel s.an.alarms[a].tags 3) = true ∧ tagOf s.an.alarms[a].tags 6 1 ≤ s.an.alarms[a].overD + 1 ∧ blazeCount s 0x20 < s.get BZ_CFG_PERSEC ∧ ownRoute s 0x20 = 16) ∧
    (∃ (n : Fin 32) (b : HistRec) (a : Fin 32) (s : State), setupRuns s n = true ∧ blockCause (tagOf s.an.setups[n].tags 9 0 == 1) none (s.an.setups[n].reach s.slots[s.an.setups[n].slot].rate) 0 = none ∧ s.an.setups[n].angleSpoilt = none ∧ s.an.setups[n].peerSpoilt s.slots[s.an.setups[n].slot].rate = none ∧ s.an.setups[n].need s.slots[s.an.setups[n].slot].rate ≤ s.an.setups[n].hist.length ∧ s.an.setups[n].again = false ∧ (s.an.setups[n].block s.slots[s.an.setups[n].slot].rate).getLast? = some b ∧ s.an.setups[n].func = 1 ∧ tagOf s.an.setups[n].tags 7 0 ≠ 1 ∧ s.an.setups[n].route.testBit 0 = false ∧ s.an.setups[n].route.testBit 1 = false ∧ s.an.setups[n].route.testBit 2 = false ∧ ((if s.an.setups[n].proc = 0 then s.an.owes0 else s.an.owes1) = false) ∧ (∀ c : Fin 32, c ≠ a → s.an.alarms[c].tags = []) ∧ s.an.alarms[a].tags ≠ [] ∧ b.t < s.an.released + s.get AN_CFG_REARM * 8000000000) ∧
    (∃ (n : Fin 32) (p : Trend) (s : State), setupRuns s n = true ∧ s.an.setups[n].route.testBit 1 = true ∧ s.an.setups[n].trends = [p] ∧ trendOver s s.an.setups[n] = true ∧ p.odd = false ∧ 0 < p.count) :=
  ⟨⟨3, ⟨41, 5000, 0xC800, false⟩, (State.set (State.set ({ onAt 6 with net := { features := [[⟨768, 0, 1, 0, 0, 0, 0, 0, [1]⟩]] }, keys := { lineKey := some testKey }, slots := Vector.replicate 16 { en := true }, an := { setups := Vector.replicate 32 { tags := [(1, 0), (2, 4), (3, 0), (4, 1)], hist := [⟨40, 4920, 0x6400, false⟩, ⟨41, 5000, 0xC800, false⟩, ⟨42, 5080, 0, false⟩] } } }) (ID_DOMST_WSTATE) 2) (AN_ST_RUN0) 1), by decide +kernel⟩,
   ⟨3, ⟨41, 90000000000, 0xC800, false⟩, 4, 0, (State.set (State.set (State.set ({ onAt 6 with keys := { lineKey := none }, slots := Vector.replicate 16 { en := true }, an := { setups := Vector.replicate 32 { tags := [(1, 0), (2, 1), (3, 0), (4, 1), (0xA, 0)], hist := [⟨40, 4920, 0x6400, false⟩, ⟨41, 90000000000, 0xC800, false⟩, ⟨42, 5080, 0, false⟩] }, alarms := (Vector.replicate 32 {}).set 4 { tags := [(1, 768), (3, 0x3B800000), (6, 3)], overD := 2 } } }) (ID_DOMST_WSTATE) 2) (AN_ST_RUN0) 1) (BZ_ROUTE) 0x100000), by decide⟩,
   ⟨3, ⟨41, 5000, 0xC800, false⟩, 4, (State.set (State.set (State.set ({ onAt 6 with keys := { lineKey := none }, slots := Vector.replicate 16 { en := true }, an := { setups := Vector.replicate 32 { tags := [(1, 0), (2, 1), (3, 0), (4, 1), (0xA, 0)], hist := [⟨40, 4920, 0x6400, false⟩, ⟨41, 5000, 0xC800, false⟩, ⟨42, 5080, 0, false⟩] }, alarms := (Vector.replicate 32 {}).set 4 { tags := [(1, 768), (3, 0x3B800000), (6, 3)], overD := 2 } } }) (ID_DOMST_WSTATE) 2) (AN_ST_RUN0) 1) (AN_CFG_REARM) 5), by decide⟩,
   ⟨3, { count := 2, lo := 2 ^ 149, hi := 2 ^ 151, sum := 5 * 2 ^ 149 }, (State.set (State.set ({ onAt 6 with time := { sec := 90000 }, keys := { lineKey := none }, slots := Vector.replicate 16 { en := true }, an := { setups := Vector.replicate 32 { tags := [(1, 0), (2, 5), (3, 0), (4, 8), (0xA, 2)], trends := [{ count := 2, lo := 2 ^ 149, hi := 2 ^ 151, sum := 5 * 2 ^ 149 }] } } }) (ID_DOMST_WSTATE) 2) (AN_ST_RUN0) 1), by decide⟩⟩

theorem test_analysis_blocks_are_discarded_or_evaluated_4 :
    (∃ (door : Initiator) (n : Fin 32) (p : Trend) (q : TrendPoint) (s : State), doorOpen s door 0x1903 = true ∧ s.get ID_DOMST_WSTATE = 2 ∧ s.live = true ∧ s.keys.lineKey.isSome = true ∧ s.an.setups[n].func = 6 ∧ s.an.setups[n].trends = [p] ∧ p.points = [q] ∧ s.net.features = [] ∧ streamsWait s = false ∧ shareAllows s bothPorts (messageLen (streamGroupHead s) (featurePay s [⟨n.val * 256 + 1, q.q, 2, q.at_, 0, s.an.setups[n].trsec, 4, 0, [q.lo, q.mean, q.hi, toF32 q.count 1]⟩])) = true) :=
  ⟨.proc .sup, 3, { points := [⟨80, 2, 1, 2, 3, 0⟩] }, ⟨80, 2, 1, 2, 3, 0⟩, (State.set (State.set ({ onAt 6 with keys := { lineKey := some testKey }, slots := Vector.replicate 16 { en := true }, an := { setups := Vector.replicate 32 { tags := [(1, 0), (2, 6), (3, 0), (4, 8), (0xA, 2), (0x20, 32)], trends := [{ points := [⟨80, 2, 1, 2, 3, 0⟩] }] } } }) (ID_DOMST_WSTATE) 2) (AN_ST_RUN0) 1), by decide +kernel⟩


theorem test_partition_services_answer_in_the_mailbox_1 :
    (∃ (code : Nat) (s : State), partitionOn s = true ∧ 1 ≤ code ∧ code ≤ 3 ∧ faultDue s code = true ∧ (∀ l : Fin 32, s.get (LS_KIND l) = 0 ∨ s.get (LS_HOLDER l) ≠ 2)) ∧
    (∃ (s : State), s.live = true ∧ s.get ID_DOMST_WSTATE = 2 ∧ s.get AN_UPST_STATE = 2 ∧ passed s s.an.upAt 10 = true) ∧
    (∃ (door : Initiator) (s : State), doorOpen s door 0x1903 = true ∧ s.get ID_DOMST_WSTATE = 2 ∧ (s.get AN_UPST_STATE = 2 ∨ s.get AN_UPST_STATE = 3)) ∧
    (∃ (door : Initiator) (s : State), doorOpen s door 0x1903 = true ∧ s.get ID_DOMST_WSTATE = 2 ∧ (s.get AN_UPST_STATE = 0 ∨ s.get AN_UPST_STATE = 1)) :=
  ⟨⟨2, (State.set (State.set ({ onAt 6 with an := { timer := some (2000, true, 0) } }) ID_DOMST_WSTATE 2) AN_UPST_STATE 1), by decide⟩,
   ⟨(State.set (State.set ({ onAt 6 with pwr := { (onAt 6).pwr with ticks := 2000000000 } }) ID_DOMST_WSTATE 2) AN_UPST_STATE 2), by decide⟩,
   ⟨.proc .sup, (State.set (State.set (onAt 6) ID_DOMST_WSTATE 2) AN_UPST_STATE 3), by decide⟩,
   ⟨.proc .sup, (State.set (State.set (onAt 6) ID_DOMST_WSTATE 2) AN_UPST_STATE 1), by decide⟩⟩

theorem test_partition_services_answer_in_the_mailbox_2 :
    (∃ (door : Initiator) (s : State), doorOpen s door 0x1903 = true ∧ s.get ID_DOMST_WSTATE ≠ 2) ∧
    (∃ (door : Initiator) (_n : Fin 32) (s : State), doorOpen s door 0x1903 = true ∧ s.get ID_DOMST_WSTATE ≠ 2) ∧
    (∃ (s : State), partitionRuns s = true ∧ s.get AN_UPCFG_SHARE * 2000000 ≤ 100 * (s.pwr.ticks % 2000000)) ∧
    (∃ (_m : Fin 16) (s : State), partitionRuns s = true) :=
  ⟨⟨.proc .sup, onAt 6, by decide⟩,
   ⟨.proc .sup, 3, onAt 6, by decide⟩,
   ⟨(State.set (State.set ({ onAt 6 with pwr := { (onAt 6).pwr with ticks := 1900000 } }) ID_DOMST_WSTATE 2) AN_UPST_STATE 1), by decide⟩,
   ⟨4, (State.set (State.set (onAt 6) ID_DOMST_WSTATE 2) AN_UPST_STATE 1), by decide⟩⟩

theorem test_partition_services_answer_in_the_mailbox_3 :
    (∃ (_m : Fin 16) (s : State), partitionRuns s = true) ∧
    (∃ (_m : Fin 16) (slot : Fin 16) (bytes : Nat) (s : State), partitionRuns s = true ∧ 4096 ≤ bytes ∧ ringBytes s slot + bytes ≤ 262144) ∧
    (∃ (_m : Fin 16) (slot : Fin 16) (bytes : Nat) (s : State), partitionRuns s = true ∧ 4096 ≤ bytes ∧ 262144 < ringBytes s slot + bytes) ∧
    (∃ (_m : Fin 16) (slot bytes : Nat) (s : State), partitionRuns s = true ∧ (16 ≤ slot ∨ bytes < 4096)) :=
  ⟨⟨4, (State.set (State.set (onAt 6) ID_DOMST_WSTATE 2) AN_UPST_STATE 1), by decide⟩,
   ⟨4, 5, 4096, (State.set (State.set (onAt 6) ID_DOMST_WSTATE 2) AN_UPST_STATE 1), by decide⟩,
   ⟨4, 5, 262145, (State.set (State.set (onAt 6) ID_DOMST_WSTATE 2) AN_UPST_STATE 1), by decide⟩,
   ⟨4, 5, 4095, (State.set (State.set (onAt 6) ID_DOMST_WSTATE 2) AN_UPST_STATE 1), by decide⟩⟩

theorem test_partition_services_answer_in_the_mailbox_4 :
    (∃ (_m : Fin 16) (_slot : Fin 16) (s : State), partitionRuns s = true) ∧
    (∃ (_m : Fin 16) (slot : Fin 16) (at_ : Nat) (a : Block) (l : Fin 32) (s : State), partitionRuns s = true ∧ blockSecure s 0 = false ∧ (s.deck.rings[slot].held.filter (fun b => decide (at_ ≤ b.lastT)) = [a]) ∧ takeLease s = some l) ∧
    (∃ (_m : Fin 16) (slot _at_ : Nat) (s : State), partitionRuns s = true ∧ 16 ≤ slot) ∧
    (∃ (_m : Fin 16) (l : Fin 32) (_first n : Nat) (s : State), partitionRuns s = true ∧ s.get (LS_KIND l) = 1 ∧ s.get (LS_HOLDER l) = 2 ∧ n ≤ 1024 ∧ s.deck.leases[l].cap = none ∧ s.deck.leases[l].seen = []) :=
  ⟨⟨4, 5, (State.set (State.set ({ onAt 6 with an := { upWatch := 0x60 } }) ID_DOMST_WSTATE 2) AN_UPST_STATE 1), by decide⟩,
   ⟨4, 6, 10, { ssn := 20, t := 8, recs := [1, 2, 3] }, 0, ((State.set (State.set ({ onAt 6 with deck := { rings := Vector.replicate 16 { held := [{ ssn := 20, t := 8, recs := [1, 2, 3] }] } } }) ID_DOMST_WSTATE 2) AN_UPST_STATE 1).set WK_MAPB_BLOCKS 1), by decide⟩,
   ⟨4, 16, 0, (State.set (State.set (onAt 6) ID_DOMST_WSTATE 2) AN_UPST_STATE 1), by decide⟩,
   ⟨4, 3, 0, 20, (((State.set (State.set (onAt 6) ID_DOMST_WSTATE 2) AN_UPST_STATE 1).set (LS_KIND 3) 1).set (LS_HOLDER 3) 2), by decide⟩⟩

theorem test_partition_services_answer_in_the_mailbox_5 :
    (∃ (_m : Fin 16) (l : Fin 32) (_first _n : Nat) (s : State), partitionRuns s = true ∧ s.get (LS_KIND l) ≠ 1) ∧
    (∃ (_m : Fin 16) (l : Fin 32) (i : Fin 16) (s : State), partitionRuns s = true ∧ s.get (LS_KIND l) = 1 ∧ s.get (LS_HOLDER l) = 2 ∧ s.get (LS_TGT l) = 1 ∧ s.get (LS_IDX l) = i.val) ∧
    (∃ (_m : Fin 16) (fid : Nat) (e : FeatEntry) (s : State), partitionRuns s = true ∧ (s.an.features.find? (fun e => e.fid == fid) = some e)) ∧
    (∃ (_m : Fin 16) (out : Nat) (v : Word) (_q : Nat) (s : State), partitionRuns s = true ∧ out < 32 ∧ s.keys.lineKey.isSome = true ∧ s.net.features = [] ∧ streamsWait s = false ∧ shareAllows s bothPorts (messageLen (streamGroupHead s) (featurePay s [⟨0, 0, 0, 0, 0, 0, 0, 0, [v]⟩])) = true) :=
  ⟨⟨4, 3, 0, 20, (State.set (State.set (onAt 6) ID_DOMST_WSTATE 2) AN_UPST_STATE 1), by decide⟩,
   ⟨4, 3, 0, ((((State.set (State.set (onAt 6) ID_DOMST_WSTATE 2) AN_UPST_STATE 1).set (LS_KIND 3) 1).set (LS_HOLDER 3) 2).set (LS_TGT 3) 1), by decide⟩,
   ⟨4, 769, ⟨769, 3, 0, 7, 8, 256, 1, 0, [5]⟩, (State.set (State.set ({ onAt 6 with an := { features := [⟨769, 3, 0, 7, 8, 256, 1, 0, [5]⟩] } }) ID_DOMST_WSTATE 2) AN_UPST_STATE 1), by decide⟩,
   ⟨4, 4, 9, 1, (State.set (State.set ({ keyed 6 with modes := {} }) ID_DOMST_WSTATE 2) AN_UPST_STATE 1), by decide⟩⟩

theorem test_partition_services_answer_in_the_mailbox_6 :
    (∃ (_m : Fin 16) (_kind _sev : Nat) (_v0 _v1 : Int) (s : State), partitionRuns s = true ∧ blazeCount s 0x22 < s.get BZ_CFG_PERSEC ∧ ownRoute s 0x22 = 16) ∧
    (∃ (_m : Fin 16) (e : Fin 8) (_w : Word) (s : State), partitionRuns s = true ∧ blockSecure s 2 = false ∧ s.engines[e].tx.length < txDepth s e) ∧
    (∃ (_m : Fin 16) (_e : Nat) (_w : Word) (s : State), partitionRuns s = true ∧ blockSecure s 2 = true) ∧
    (∃ (_m : Fin 16) (us : Nat) (_p : Bool) (s : State), partitionRuns s = true ∧ 1000 ≤ us ∧ us ≤ 60000000) :=
  ⟨⟨4, 3, 15, 7, -8, ((State.set (State.set (onAt 6) ID_DOMST_WSTATE 2) AN_UPST_STATE 1).set BZ_ROUTE 0x100000), by decide⟩,
   ⟨4, 3, 9, ((State.set (State.set (onAt 6) ID_DOMST_WSTATE 2) AN_UPST_STATE 1).set WK_MAPB_BLOCKS 4), by decide⟩,
   ⟨4, 3, 9, ((State.set (State.set (onAt 6) ID_DOMST_WSTATE 2) AN_UPST_STATE 1).set WK_MAPB_BLOCKS 3), by decide⟩,
   ⟨4, 1000, true, (State.set (State.set (onAt 6) ID_DOMST_WSTATE 2) AN_UPST_STATE 1), by decide⟩⟩

theorem test_partition_services_answer_in_the_mailbox_7 :
    (∃ (_m : Fin 16) (us : Nat) (_p : Bool) (s : State), partitionRuns s = true ∧ (us < 1000 ∨ 60000000 < us)) ∧
    (∃ (us a : Nat) (p : Bool) (s : State), partitionOn s = true ∧ s.an.timer = some (us, p, a) ∧ a + us * 200 ≤ s.pwr.ticks) :=
  ⟨⟨4, 999, true, (State.set (State.set (onAt 6) ID_DOMST_WSTATE 2) AN_UPST_STATE 1), by decide⟩,
   ⟨1000, 7, false, (State.set (State.set ({ onAt 6 with an := { timer := some (1000, false, 7) }, pwr := { (onAt 6).pwr with ticks := 900000 } }) ID_DOMST_WSTATE 2) AN_UPST_STATE 1), by decide⟩⟩


theorem test_peer_records_join_their_cross_spectrum_1 :
    (∃ (d : Datagram) (p : PeerPub) (n : Fin 32) (s : State), d.typ = 1 ∧ (cyCheck s d).1 = true ∧ pubOf (plain s d) = p ∧ setupRuns s n = true ∧ s.an.setups[n].func = 7 ∧ tagOf s.an.setups[n].tags 0x20 0 = p.stn ∧ tagOf s.an.setups[n].tags 0x21 0 = p.slot ∧ (∀ m : Fin 32, m ≠ n → s.an.setups[m].tags = []) ∧ p.rate = s.slots[s.an.setups[n].slot].rate) ∧
    (∃ (d : Datagram) (p : PeerPub) (n : Fin 32) (s : State), d.typ = 1 ∧ (cyCheck s d).1 = true ∧ pubOf (plain s d) = p ∧ setupRuns s n = true ∧ s.an.setups[n].func = 7 ∧ tagOf s.an.setups[n].tags 0x20 0 = p.stn ∧ tagOf s.an.setups[n].tags 0x21 0 = p.slot ∧ (∀ m : Fin 32, m ≠ n → s.an.setups[m].tags = []) ∧ p.rate ≠ s.slots[s.an.setups[n].slot].rate) ∧
    (∃ (n : Fin 32) (w : Nat) (s : State), setupRuns s n = true ∧ blockCause (tagOf s.an.setups[n].tags 9 0 == 1) none (s.an.setups[n].reach s.slots[s.an.setups[n].slot].rate) 0 = none ∧ s.an.setups[n].func = 7 ∧ s.an.setups[n].peerSpoilt s.slots[s.an.setups[n].slot].rate = some w) ∧
    (∃ (n : Fin 32) (s : State), setupRuns s n = true ∧ blockCause (tagOf s.an.setups[n].tags 9 0 == 1) none (s.an.setups[n].reach s.slots[s.an.setups[n].slot].rate) 0 = none ∧ s.an.setups[n].angleSpoilt = none ∧ s.an.setups[n].peerSpoilt s.slots[s.an.setups[n].slot].rate = none ∧ s.an.setups[n].need s.slots[s.an.setups[n].slot].rate ≤ s.an.setups[n].hist.length ∧ s.an.setups[n].func = 7 ∧ (s.an.setups[n].pairs s.slots[s.an.setups[n].slot].rate).length < s.an.setups[n].need s.slots[s.an.setups[n].slot].rate) :=
  ⟨⟨sealed 1 9 1 (Payload.stream 0 9 none 2 0 false false 4 100 [1, 2] (some 78125)).bytes, { stn := 9, slot := 2, run := 4, rate := 0, ssn := 100, t := 78125, recs := [1, 2] }, 3, (State.set (State.set ({ onAt 6 with keys := { lineKey := some testKey }, slots := Vector.replicate 16 { en := true }, an := { setups := (Vector.replicate 32 {}).set 3 { tags := [(1, 0), (2, 7), (3, 0), (4, 8), (0x20, 9), (0x21, 2), (0x22, 100)], used := 2, peerRun := some 3 } } }) (ID_DOMST_WSTATE) 2) (AN_ST_RUN0) 1), by decide +kernel⟩,
   ⟨sealed 1 9 1 (Payload.stream 0 9 none 2 3 false false 4 100 [1, 2] (some 78125)).bytes, { stn := 9, slot := 2, run := 4, rate := 3, ssn := 100, t := 625000, recs := [1, 2] }, 3, (State.set (State.set ({ onAt 6 with keys := { lineKey := some testKey }, slots := Vector.replicate 16 { en := true }, an := { setups := (Vector.replicate 32 {}).set 3 { tags := [(1, 0), (2, 7), (3, 0), (4, 8), (0x20, 9), (0x21, 2), (0x22, 100)], used := 2, peerRun := some 3 } } }) (ID_DOMST_WSTATE) 2) (AN_ST_RUN0) 1), by decide +kernel⟩,
   ⟨3, 5000, (State.set (State.set ({ onAt 6 with keys := { lineKey := none }, slots := Vector.replicate 16 { en := true }, an := { setups := Vector.replicate 32 { tags := [(1, 0), (2, 7), (3, 0), (4, 1), (0xA, 0), (0x20, 9), (0x21, 2), (0x22, 100)], peer := [⟨4920, 7, 1, 0⟩, ⟨5000, 9, 1, 0⟩], hist := [⟨40, 4920, 0x6400, false⟩, ⟨41, 5000, 0xC800, false⟩, ⟨42, 5080, 0, false⟩] } } }) (ID_DOMST_WSTATE) 2) (AN_ST_RUN0) 1), by decide⟩,
   ⟨3, (State.set (State.set ({ onAt 6 with keys := { lineKey := none }, slots := Vector.replicate 16 { en := true }, an := { setups := Vector.replicate 32 { tags := [(1, 0), (2, 7), (3, 0), (4, 1), (0xA, 0), (0x20, 9), (0x21, 2), (0x22, 100)], peer := [⟨4920, 7, 1, 0⟩], hist := [⟨40, 4920, 0x6400, false⟩, ⟨41, 5000, 0xC800, false⟩, ⟨42, 5080, 0, false⟩] } } }) (ID_DOMST_WSTATE) 2) (AN_ST_RUN0) 1), by decide⟩⟩

theorem test_peer_records_join_their_cross_spectrum_2 :
    (∃ (n : Fin 32) (b : HistRec) (s : State), setupRuns s n = true ∧ blockCause (tagOf s.an.setups[n].tags 9 0 == 1) none (s.an.setups[n].reach s.slots[s.an.setups[n].slot].rate) 0 = none ∧ s.an.setups[n].angleSpoilt = none ∧ s.an.setups[n].peerSpoilt s.slots[s.an.setups[n].slot].rate = none ∧ s.an.setups[n].need s.slots[s.an.setups[n].slot].rate ≤ s.an.setups[n].hist.length ∧ s.an.setups[n].again = false ∧ (s.an.setups[n].block s.slots[s.an.setups[n].slot].rate).getLast? = some b ∧ s.an.setups[n].func = 7 ∧ (s.an.setups[n].pairs s.slots[s.an.setups[n].slot].rate).length = s.an.setups[n].need s.slots[s.an.setups[n].slot].rate ∧ tagOf s.an.setups[n].tags 7 0 ≠ 1 ∧ s.an.setups[n].route.testBit 0 = false ∧ s.an.setups[n].route.testBit 1 = false ∧ s.an.setups[n].route.testBit 2 = false ∧ (∀ a : Fin 32, s.an.alarms[a].tags = []) ∧ ((if s.an.setups[n].proc = 0 then s.an.owes0 else s.an.owes1) = false)) ∧
    (∃ (n : Fin 32) (s : State), setupRuns s n = true ∧ s.an.setups[n].func = 7 ∧ blockLate s s.an.setups[n] = true ∧ peerAway s s.an.setups[n] = true) ∧
    (∃ (n : Fin 32) (s : State), setupRuns s n = true ∧ s.an.setups[n].func = 7 ∧ blockLate s s.an.setups[n] = true ∧ peerAway s s.an.setups[n] = false) ∧
    (∃ (n : Fin 32) (s : State), setupRuns s n = true ∧ s.an.setups[n].func = 7 ∧ blockLate s s.an.setups[n] = false ∧ skewOver s s.an.setups[n] s.an.setups[n].peerAt = true) :=
  ⟨⟨3, ⟨41, 5000, 0xC800, false⟩, (State.set (State.set ({ onAt 6 with keys := { lineKey := none }, slots := Vector.replicate 16 { en := true }, an := { setups := Vector.replicate 32 { tags := [(1, 0), (2, 7), (3, 0), (4, 1), (0xA, 0), (0x20, 9), (0x21, 2), (0x22, 100)], peer := [⟨4920, 7, 1, 0⟩, ⟨5000, 8, 1, 4⟩], hist := [⟨40, 4920, 0x6400, false⟩, ⟨41, 5000, 0xC800, false⟩, ⟨42, 5080, 0, false⟩] } } }) (ID_DOMST_WSTATE) 2) (AN_ST_RUN0) 1), by decide⟩,
   ⟨3, (State.set (State.set ({ onAt 6 with time := { sec := 5 }, keys := { lineKey := none }, slots := Vector.replicate 16 { en := true }, an := { setups := Vector.replicate 32 { tags := [(1, 0), (2, 7), (3, 0), (4, 1), (0xA, 0), (0x20, 9), (0x21, 2), (0x22, 100)], peer := [⟨4920, 7, 1, 0⟩], hist := [⟨40, 4920, 0x6400, false⟩, ⟨41, 5000, 0xC800, false⟩, ⟨42, 5080, 0, false⟩] } } }) (ID_DOMST_WSTATE) 2) (AN_ST_RUN0) 1), by decide⟩,
   ⟨3, (State.set (State.set ({ onAt 6 with time := { sec := 5 }, keys := { lineKey := none }, slots := Vector.replicate 16 { en := true }, an := { setups := Vector.replicate 32 { tags := [(1, 0), (2, 7), (3, 0), (4, 1), (0xA, 0), (0x20, 9), (0x21, 2), (0x22, 100)], peerAt := 40000000000, peer := [⟨4920, 7, 1, 0⟩], hist := [⟨40, 4920, 0x6400, false⟩, ⟨41, 5000, 0xC800, false⟩, ⟨42, 5080, 0, false⟩] } } }) (ID_DOMST_WSTATE) 2) (AN_ST_RUN0) 1), by decide⟩,
   ⟨3, (State.set (State.set ({ onAt 6 with time := { sec := 5 }, keys := { lineKey := none }, slots := Vector.replicate 16 { en := true }, an := { setups := Vector.replicate 32 { tags := [(1, 0), (2, 7), (3, 0), (4, 8), (0x20, 9), (0x21, 2), (0x22, 100)] } } }) (ID_DOMST_WSTATE) 2) (AN_ST_RUN0) 1), by decide⟩⟩


theorem test_interrupt_events_are_counted_grouped_and_delivered_1 :
    (∃ (n : Fin 160) (tg : Fin 4) (s : State), s.alive = true ∧ n.val < 128 ∧ irqListed n = true ∧ lineRose s n = true ∧ s.get (IC_SRC_GROUP n) = 0 ∧ s.get (IC_SRC_ACC n) < 0xFFFFF ∧ irqBit s 0x1600 n = true ∧ irqBit s 0x1620 n = false ∧ (s.get (IC_SRC_TGT n)).testBit tg = true ∧ irqWorld s (targetSecure s tg) n = true ∧ s.bus.targets[tg].active = none) ∧
    (∃ (n : Fin 160) (s : State), s.alive = true ∧ n.val < 128 ∧ irqListed n = true ∧ lineRose s n = true ∧ s.get (IC_SRC_GROUP n) = 0 ∧ s.get (IC_SRC_ACC n) = 0xFFFFF) ∧
    (∃ (n : Fin 160) (g : Fin 16) (s : State), s.alive = true ∧ n.val < 128 ∧ irqListed n = true ∧ lineRose s n = true ∧ s.get (IC_SRC_GROUP n) = g.val + 1 ∧ s.get (IC_SRC_ACC n) < 0xFFFFF ∧ s.get (IC_GST_CUR g) + 1 < s.get (IC_GCFG_COUNT g)) ∧
    (∃ (n : Fin 160) (g : Fin 16) (s : State), s.alive = true ∧ n.val < 128 ∧ irqListed n = true ∧ lineRose s n = true ∧ s.get (IC_SRC_GROUP n) = g.val + 1 ∧ s.get (IC_SRC_ACC n) < 0xFFFFF ∧ s.get (IC_GST_CUR g) < 255 ∧ s.get (IC_GCFG_COUNT g) ≤ s.get (IC_GST_CUR g) + 1) :=
  ⟨⟨10, 0, (State.set ({ onAt 6 with bus := { pulses := [10] } }) (⟨0x1600, 10, 1⟩) (1)), by decide⟩,
   ⟨10, (State.set ({ onAt 6 with bus := { pulses := [10] } }) (IC_SRC_ACC 10) (0xFFFFF)), by decide⟩,
   ⟨67, 2, (State.set (State.set ({ onAt 6 with bus := { pulses := [67] } }) (IC_SRC_GROUP 67) (3)) (IC_GCFG_COUNT 2) (16)), by decide⟩,
   ⟨67, 2, (State.set (State.set (State.set ({ onAt 6 with bus := { pulses := [67] } }) (IC_SRC_GROUP 67) (3)) (IC_GCFG_COUNT 2) (16)) (IC_GST_CUR 2) (15)), by decide⟩⟩

theorem test_interrupt_events_are_counted_grouped_and_delivered_2 :
    (∃ (g : Fin 16) (at_ : Nat) (s : State), s.alive = true ∧ s.bus.groupAt[g] = some at_ ∧ at_ + 200 * s.get (IC_GCFG_TIME g) ≤ s.pwr.ticks) ∧
    (∃ (door : Initiator) (j : Fin 5) (_v : Word) (s : State), doorOpen s door (0x1610 + j.val) = true) ∧
    (∃ (door : Initiator) (j : Fin 5) (_v : Word) (s : State), doorOpen s door (0x1618 + j.val) = true) ∧
    (∃ (door : Initiator) (j : Fin 5) (_v : Word) (s : State), doorOpen s door (0x1600 + j.val) = true) :=
  ⟨⟨2, 4, (State.set (State.set ({ onAt 6 with bus := { groupAt := Vector.replicate 16 (some 4) }, pwr := { (onAt 6).pwr with ticks := 900000000 } }) (IC_SRC_GROUP 67) (3)) (IC_SRC_ACC 67) (5)), by decide⟩,
   ⟨.proc .sup, 4, 0x80000001, onAt 6, by decide⟩,
   ⟨.proc .sup, 0, 0x40, (State.set (State.set (onAt 6) (⟨0x1610, 6, 1⟩) (1)) (IC_SRC_ACC 6) (9)), by decide⟩,
   ⟨.proc .sup, 0, 0x40, onAt 6, by decide⟩⟩

theorem test_interrupt_events_are_counted_grouped_and_delivered_3 :
    (∃ (door : Initiator) (j : Fin 5) (_v : Word) (s : State), doorOpen s door (0x1608 + j.val) = true) ∧
    (∃ (p : Proc) (n : Nat) (s : State), procRuns s p = true ∧ s.bus.targets[p.target].active = none ∧ irqNext s p.target (procSecure s p) = some n) ∧
    (∃ (p : Proc) (s : State), procRuns s p = true ∧ s.bus.targets[p.target].active = none ∧ irqNext s p.target (procSecure s p) = none) ∧
    (∃ (p : Proc) (x : Nat × Nat × Bool) (s : State), procRuns s p = true ∧ s.bus.targets[p.target].active = some x) :=
  ⟨⟨.proc .sup, 0, 0x40, (State.set (onAt 6) (⟨0x1600, 6, 1⟩) (1)), by decide⟩,
   ⟨.net, 6, (State.set (State.set (State.set (onAt 6) (⟨0x1600, 6, 1⟩) (1)) (⟨0x1610, 6, 1⟩) (1)) (IC_SRC_ACC 6) (9)), by decide⟩,
   ⟨.sup, (State.set (onAt 6) (IC_TST_SIGNALLED 0) (1)), by decide⟩,
   ⟨.net, (6, 3, false), { onAt 6 with bus := { targets := (Vector.replicate 4 {}).set 1 { active := some (6, 3, false) } } }, by decide⟩⟩

theorem test_interrupt_events_are_counted_grouped_and_delivered_4 :
    (∃ (p : Proc) (n c : Nat) (sat : Bool) (s : State), procRuns s p = true ∧ s.bus.targets[p.target].active = some (n, c, sat) ∧ n < 160 ∧ irqWorld s (procSecure s p) n = true ∧ (irqPulse n = true ∨ irqLevel s n = false)) ∧
    (∃ (p : Proc) (n c : Nat) (sat : Bool) (s : State), procRuns s p = true ∧ s.bus.targets[p.target].active = some (n, c, sat) ∧ n < 160 ∧ irqWorld s (procSecure s p) n = true ∧ irqPulse n = false ∧ irqLevel s n = true ∧ s.get (IC_SRC_ACC n) < 0xFFFFF) ∧
    (∃ (p : Proc) (n : Nat) (s : State), procRuns s p = true ∧ ((s.bus.targets[p.target].active.map (·.1)) ≠ some n ∨ irqWorld s (procSecure s p) n = false)) :=
  ⟨⟨.net, 6, 3, false, { onAt 6 with bus := { targets := (Vector.replicate 4 {}).set 1 { active := some (6, 3, false) } } }, by decide⟩,
   ⟨.net, 8, 3, false, (State.set ({ onAt 6 with bus := { targets := (Vector.replicate 4 {}).set 1 { active := some (8, 3, false) } } }) (⟨0x302, 0, 1⟩) (1)), by decide⟩,
   ⟨.net, 7, { onAt 6 with bus := { targets := (Vector.replicate 4 {}).set 1 { active := some (6, 3, false) } } }, by decide⟩⟩


theorem test_tally_images_are_loaded_committed_and_staged_1 :
    (∃ (s : State), s.live = true ∧ (s.mode = 2 ∨ s.mode = 3) ∧ s.tally.checked = false ∧ sealedOwn s = []) ∧
    (∃ (x : SealRec) (l : List SealRec) (s : State), s.live = true ∧ (s.mode = 2 ∨ s.mode = 3) ∧ s.tally.checked = false ∧ sealedOwn s = x :: l ∧ sealedCheck s x = 0) ∧
    (∃ (x : SealRec) (l : List SealRec) (s : State), s.live = true ∧ (s.mode = 2 ∨ s.mode = 3) ∧ s.tally.checked = false ∧ sealedOwn s = x :: l ∧ s.flash.vouched x = none) ∧
    (∃ (door : Initiator) (im : Image) (s : State), doorOpen s door 0x1706 = true ∧ s.live = true ∧ s.tally.image = some im ∧ im.nolive = true) :=
  ⟨⟨({ onAt 2 with keys := { lineKey := some testKey, anchor := some testAnchor }, tally := {  } }), by decide⟩,
   ⟨{ region := 0, pos := 4, origin := 1, comseq := 9, len := 192, digest := testImage.digest }, [{ region := 0, pos := 3, origin := 1, comseq := 8, len := 192, digest := 5 }], ({ onAt 2 with keys := { lineKey := some testKey, anchor := some testAnchor }, tally := {  }, flash := { own := ⟨(Vector.replicate 8 []).set 4 testImage.bytes⟩, comseq := 9, seals := [{ region := 0, pos := 4, origin := 1, comseq := 9, len := 192, digest := testImage.digest }, { region := 0, pos := 3, origin := 1, comseq := 8, len := 192, digest := 5 }] } }), by decide +kernel⟩,
   ⟨{ region := 0, pos := 4, origin := 1, comseq := 9, len := 192, digest := testImage.digest }, [{ region := 0, pos := 3, origin := 1, comseq := 8, len := 192, digest := 5 }], ({ onAt 2 with keys := { lineKey := some testKey, anchor := some testAnchor }, tally := {  }, flash := { own := ⟨(Vector.replicate 8 []).set 4 testNolive.bytes⟩, comseq := 9, seals := [{ region := 0, pos := 4, origin := 1, comseq := 9, len := 192, digest := testImage.digest }, { region := 0, pos := 3, origin := 1, comseq := 8, len := 192, digest := 5 }] } }), by decide +kernel⟩,
   ⟨.proc .sup, testNolive, ({ onAt 6 with keys := { lineKey := some testKey, anchor := some testAnchor }, tally := { image := some testNolive } }), by decide +kernel⟩⟩

theorem test_tally_images_are_loaded_committed_and_staged_2 :
    (∃ (door : Initiator) (im : Image) (s : State), doorOpen s door 0x1706 = true ∧ s.live = true ∧ s.tally.image = some im ∧ im.nolive = false ∧ s.tally.dirty = []) ∧
    (∃ (door : Initiator) (im : Image) (r : TallyRec) (c : ChangeSet) (s : State), doorOpen s door 0x1706 = true ∧ s.live = true ∧ s.tally.image = some im ∧ im.nolive = false ∧ s.tally.dirty = [r] ∧ s.tally.set = some c) ∧
    (∃ (door : Initiator) (im : Image) (r : TallyRec) (l : List TallyRec) (key : Nat) (s : State), doorOpen s door 0x1706 = true ∧ s.live = true ∧ s.keys.lineKey = some key ∧ s.tally.image = some im ∧ im.nolive = false ∧ s.tally.dirty = r :: l ∧ s.tally.set = none ∧ (commitImageOf s im 0).size ≤ 1048576 ∧ 6 ≤ s.mode ∧ s.mode ≤ 9 ∧ s.tally.commit = none ∧ s.tally.staging = none) ∧
    (∃ (im : Image) (n : Nat) (s : State), s.live = true ∧ s.tally.commit = some im ∧ s.tally.commitRetry = false ∧ n < 3 ∧ linkUp s .a = false ∧ linkUp s .b = false) :=
  ⟨⟨.proc .sup, testImage, ({ onAt 6 with keys := { lineKey := some testKey, anchor := some testAnchor }, tally := { image := some testImage } }), by decide +kernel⟩,
   ⟨.proc .sup, testImage, .word 0x1301 1 1, ⟨7, false, 5, [], 9⟩, ({ onAt 6 with keys := { lineKey := some testKey, anchor := some testAnchor }, tally := { image := some testImage, dirty := [.word 0x1301 1 1], set := some ⟨7, false, 5, [], 9⟩ } }), by decide +kernel⟩,
   ⟨.host 0, testImage, .word 0x1301 1 1, [], testKey, ({ onAt 6 with keys := { lineKey := some testKey, anchor := some testAnchor }, tally := { image := some testImage, hosts := [⟨0x80000001, 0⟩], dirty := [.word 0x1301 1 1] } }), by decide +kernel⟩,
   ⟨testImage, 2, ({ onAt 6 with keys := { lineKey := some testKey, anchor := some testAnchor }, tally := { commit := some testImage, commitSeq := 10, dirty := [.word 0x1301 1 1] }, flash := { comseq := 10, seals := [{ region := 0, pos := 3, origin := 1, comseq := 8, len := 192, digest := 5 }] } }), by decide +kernel⟩⟩

theorem test_tally_images_are_loaded_committed_and_staged_3 :
    (∃ (im : Image) (n : Nat) (s : State), s.live = true ∧ s.tally.commit = some im ∧ 3 ≤ n ∧ s.mode = 6) ∧
    (∃ (im : Image) (_n : Nat) (s : State), s.live = true ∧ s.tally.commit = some im ∧ s.tally.commitRetry = false) ∧
    (∃ (im : Image) (_n : Nat) (s : State), s.live = true ∧ s.tally.commit = some im ∧ s.tally.commitRetry = true) ∧
    (∃ (door : Initiator) (s : State), doorOpen s door 0x1706 = true ∧ s.live = true ∧ (s.mode < 6 ∨ 9 < s.mode)) :=
  ⟨⟨testImage, 3, ({ onAt 6 with keys := { lineKey := some testKey, anchor := some testAnchor }, tally := { commit := some testImage } }), by decide +kernel⟩,
   ⟨testImage, 0, ({ onAt 6 with keys := { lineKey := some testKey, anchor := some testAnchor }, tally := { commit := some testImage } }), by decide +kernel⟩,
   ⟨testImage, 0, ({ onAt 6 with keys := { lineKey := some testKey, anchor := some testAnchor }, tally := { commit := some testImage, commitRetry := true } }), by decide +kernel⟩,
   ⟨.proc .sup, ({ onAt 11 with keys := { lineKey := some testKey, anchor := some testAnchor }, tally := {  } }), by decide⟩⟩

theorem test_tally_images_are_loaded_committed_and_staged_4 :
    (∃ (door : Initiator) (s : State), doorOpen s door 0x1706 = true ∧ s.live = true ∧ 6 ≤ s.mode ∧ s.mode ≤ 9 ∧ s.tally.commit = none ∧ s.tally.staging = none ∧ s.get TL_STGCTL_KIND = 0) ∧
    (∃ (door : Initiator) (s : State), doorOpen s door 0x1706 = true ∧ s.live = true ∧ 6 ≤ s.mode ∧ s.mode ≤ 9 ∧ s.tally.commit = none ∧ s.tally.staging = none ∧ s.get TL_STGCTL_KIND = 1 ∧ s.get MD_ST_FWSLOT = 0) ∧
    (∃ (x : Staging) (s : State), s.live = true ∧ s.tally.staging = some x ∧ x.erasing = true) ∧
    (∃ (door : Initiator) (_v : Word) (x : Staging) (s : State), doorOpen s door 0x17FF = true ∧ s.live = true ∧ s.tally.staging = some x ∧ x.erasing = false ∧ x.firmware = false ∧ 6 ≤ s.mode ∧ s.mode ≤ 9 ∧ s.get TL_STGOFS_OFS + 512 ≤ 1048576) :=
  ⟨⟨.proc .sup, ({ onAt 9 with keys := { lineKey := some testKey, anchor := some testAnchor }, tally := {  }, flash := { seals := [{ region := 0, pos := 3, origin := 1, comseq := 8, len := 192, digest := 5 }] } }), by decide⟩,
   ⟨.proc .sup, (State.set ({ onAt 6 with keys := { lineKey := some testKey, anchor := some testAnchor }, tally := {  }, flash := { hasB := true, halfB := [1] } }) (TL_STGCTL_KIND) (1)), by decide⟩,
   ⟨⟨false, 2, 5, true⟩, ({ onAt 6 with keys := { lineKey := some testKey, anchor := some testAnchor }, tally := { staging := some ⟨false, 2, 5, true⟩ } }), by decide⟩,
   ⟨.proc .sup, 7, ⟨false, 2, 5, false⟩, ({ onAt 6 with keys := { lineKey := some testKey, anchor := some testAnchor }, tally := { staging := some ⟨false, 2, 5, false⟩ } }), by decide⟩⟩

theorem test_tally_images_are_loaded_committed_and_staged_5 :
    (∃ (door : Initiator) (_v : Word) (x : Staging) (s : State), doorOpen s door 0x17FF = true ∧ s.live = true ∧ s.tally.staging = some x ∧ x.erasing = true ∧ 6 ≤ s.mode ∧ s.mode ≤ 9) ∧
    (∃ (door : Initiator) (x : Staging) (_release : Nat) (_ok : Bool) (s : State), doorOpen s door 0x1706 = true ∧ s.live = true ∧ s.tally.staging = some x ∧ x.firmware = false ∧ x.erasing = false ∧ 6 ≤ s.mode ∧ s.mode ≤ 9 ∧ s.get MD_ST_PENDING = 0 ∧ s.get ID_DOMST_WSTATE = 0 ∧ imageCheck s (stagedImage s x) = 0 ∧ s.tally.set = none ∧ s.tally.commit = none ∧ linkUp s .a = false ∧ linkUp s .b = false) ∧
    (∃ (door : Initiator) (x : Staging) (release : Nat) (ok : Bool) (s : State), doorOpen s door 0x1706 = true ∧ s.live = true ∧ s.tally.staging = some x ∧ x.erasing = false ∧ 6 ≤ s.mode ∧ s.mode ≤ 9 ∧ s.get MD_ST_PENDING = 0 ∧ (if x.firmware = true then firmwareOk s release ok = false else imageCheck s (stagedImage s x) ≠ 0) ∧ s.tally.commit = none) ∧
    (∃ (door : Initiator) (x : Staging) (release : Nat) (ok : Bool) (s : State), doorOpen s door 0x1706 = true ∧ s.live = true ∧ s.tally.staging = some x ∧ x.firmware = true ∧ x.erasing = false ∧ 6 ≤ s.mode ∧ s.mode ≤ 9 ∧ s.get MD_ST_PENDING = 0 ∧ s.get MD_ST_FWSLOT = 0 ∧ s.get ID_DOMST_WSTATE = 0 ∧ firmwareOk s release ok = true ∧ s.tally.set = none ∧ s.tally.commit = none) :=
  ⟨⟨.proc .sup, 7, ⟨false, 2, 5, true⟩, ({ onAt 6 with keys := { lineKey := some testKey, anchor := some testAnchor }, tally := { staging := some ⟨false, 2, 5, true⟩ } }), by decide⟩,
   ⟨.proc .sup, ⟨false, 2, 5, false⟩, 0, false, ({ onAt 7 with keys := { lineKey := some testKey, anchor := some testAnchor }, tally := { staging := some ⟨false, 2, 5, false⟩ }, flash := { own := ⟨(Vector.replicate 8 []).set 2 (testImage.bytes ++ List.replicate 320 0)⟩ } }), by decide +kernel⟩,
   ⟨.proc .sup, ⟨true, 2, 5, false⟩, 0x50000, false, ({ onAt 7 with keys := { lineKey := some testKey, anchor := some testAnchor }, tally := { staging := some ⟨true, 2, 5, false⟩ } }), by decide⟩,
   ⟨.proc .sup, ⟨true, 2, 5, false⟩, 0x50000, true, ({ onAt 7 with keys := { lineKey := some testKey, anchor := some testAnchor }, tally := { staging := some ⟨true, 2, 5, false⟩ }, flash := { halfB := [1, 2] } }), by decide⟩⟩

theorem test_tally_images_are_loaded_committed_and_staged_6 :
    (∃ (door : Initiator) (x : Staging) (s : State), doorOpen s door 0x1706 = true ∧ s.live = true ∧ s.tally.staging = some x ∧ s.tally.commit = none) :=
  ⟨.proc .net, ⟨false, 2, 5, false⟩, ({ onAt 6 with keys := { lineKey := some testKey, anchor := some testAnchor }, tally := { staging := some ⟨false, 2, 5, false⟩ } }), by decide⟩


theorem test_change_sets_are_checked_and_applied_whole_1 :
    (∃ (_port : Port) (d : Datagram) (csid sec fl : Nat) (l : List CsEntry) (s : State), d.typ = 0x20 ∧ (cyCheck s d).1 = true ∧ (hostState s d.sender).parts = [] ∧ csPartOf (plain s d) = ⟨csid, 0, 2, fl, sec, l, none⟩) ∧
    (∃ (_port : Port) (d : Datagram) (csid sec a fl : Nat) (m v : Word) (s : State), d.typ = 0x20 ∧ (cyCheck s d).1 = true ∧ (hostState s d.sender).parts = [] ∧ csPartOf (plain s d) = ⟨csid, 0, 1, fl, sec, [.word a m v], none⟩ ∧ (hostState s d.sender).lastCs = none ∧ wordClass s a m = 0 ∧ hostMayWrite a = true ∧ m &&& readMask a = 0 ∧ recordInRange s a m v = true ∧ s.second + 1 ≤ sec ∧ sec ≤ s.second + 86400 ∧ s.tally.set = none ∧ 6 ≤ s.mode ∧ s.mode ≤ 9) ∧
    (∃ (_port : Port) (d : Datagram) (csid sec a fl : Nat) (m v : Word) (s : State), d.typ = 0x20 ∧ (cyCheck s d).1 = true ∧ (hostState s d.sender).parts = [] ∧ csPartOf (plain s d) = ⟨csid, 0, 1, fl, sec, [.word a m v], none⟩ ∧ (hostState s d.sender).lastCs = none ∧ wordClass s a m = 2) ∧
    (∃ (_port : Port) (d : Datagram) (csid sec a fl : Nat) (m v : Word) (s : State), d.typ = 0x20 ∧ (cyCheck s d).1 = true ∧ (hostState s d.sender).parts = [] ∧ csPartOf (plain s d) = ⟨csid, 0, 1, fl, sec, [.word a m v], none⟩ ∧ (hostState s d.sender).lastCs = none ∧ wordClass s a m = 1 ∧ fl.testBit 0 = false) :=
  ⟨⟨.a, hostMsg 0x20 (csBody 7 0 2 0 100 []), 7, 100, 0, [], ({ onAt 6 with keys := { lineKey := some testKey, anchor := some testAnchor }, tally := { hosts := [⟨0x80000001, 0⟩] } }), by decide +kernel⟩,
   ⟨.a, hostMsg 0x20 (csBody 7 0 1 0 100 [.word 0x1301 0x1F 3]), 7, 100, 0x1301, 0, 0x1F, 3, ({ onAt 6 with keys := { lineKey := some testKey, anchor := some testAnchor }, tally := { hosts := [⟨0x80000001, 0⟩] } }), by decide +kernel⟩,
   ⟨.a, hostMsg 0x20 (csBody 7 0 1 0 100 [.word 0x1122 0xFF 3]), 7, 100, 0x1122, 0, 0xFF, 3, ({ onAt 6 with keys := { lineKey := some testKey, anchor := some testAnchor }, tally := { hosts := [⟨0x80000001, 0⟩] } }), by decide +kernel⟩,
   ⟨.a, hostMsg 0x20 (csBody 7 0 1 0 100 [.word 0xA00 0x3 1]), 7, 100, 0xA00, 0, 0x3, 1, ({ onAt 6 with keys := { lineKey := some testKey, anchor := some testAnchor }, tally := { hosts := [⟨0x80000001, 0⟩] } }), by decide +kernel⟩⟩

theorem test_change_sets_are_checked_and_applied_whole_2 :
    (∃ (_port : Port) (d : Datagram) (csid sec a fl : Nat) (m v : Word) (s : State), d.typ = 0x20 ∧ (cyCheck s d).1 = true ∧ (hostState s d.sender).parts = [] ∧ csPartOf (plain s d) = ⟨csid, 0, 1, fl, sec, [.word a m v], none⟩ ∧ (hostState s d.sender).lastCs = none ∧ wordClass s a m = 0 ∧ (hostMayWrite a = false ∨ m &&& readMask a ≠ 0)) ∧
    (∃ (_port : Port) (d : Datagram) (csid sec a fl : Nat) (m v : Word) (s : State), d.typ = 0x20 ∧ (cyCheck s d).1 = true ∧ (hostState s d.sender).parts = [] ∧ csPartOf (plain s d) = ⟨csid, 0, 1, fl, sec, [.word a m v], none⟩ ∧ (hostState s d.sender).lastCs = none ∧ wordClass s a m = 0 ∧ hostMayWrite a = true ∧ m &&& readMask a = 0 ∧ recordInRange s a m v = false) ∧
    (∃ (_port : Port) (d : Datagram) (csid sec a fl : Nat) (m v : Word) (s : State), d.typ = 0x20 ∧ (cyCheck s d).1 = true ∧ (hostState s d.sender).parts = [] ∧ csPartOf (plain s d) = ⟨csid, 0, 1, fl, sec, [.word a m v], none⟩ ∧ (hostState s d.sender).lastCs = none ∧ wordClass s a m = 0 ∧ hostMayWrite a = true ∧ m &&& readMask a = 0 ∧ recordInRange s a m v = true ∧ (sec < s.second + 1 ∨ s.second + 86400 < sec)) ∧
    (∃ (_port : Port) (d : Datagram) (csid sec a fl : Nat) (m v : Word) (s : State), d.typ = 0x20 ∧ (cyCheck s d).1 = true ∧ (hostState s d.sender).parts = [] ∧ csPartOf (plain s d) = ⟨csid, 0, 1, fl, sec, [.word a m v], none⟩ ∧ (hostState s d.sender).lastCs = none ∧ wordClass s a m = 0 ∧ hostMayWrite a = true ∧ m &&& readMask a = 0 ∧ recordInRange s a m v = true ∧ s.second + 1 ≤ sec ∧ sec ≤ s.second + 86400 ∧ s.tally.set.isSome = true) :=
  ⟨⟨.a, hostMsg 0x20 (csBody 7 0 1 0 100 [.word 0x1305 0x3 1]), 7, 100, 0x1305, 0, 0x3, 1, ({ onAt 6 with keys := { lineKey := some testKey, anchor := some testAnchor }, tally := { hosts := [⟨0x80000001, 0⟩] } }), by decide +kernel⟩,
   ⟨.a, hostMsg 0x20 (csBody 7 0 1 0 100 [.word 0x16F0 0xFF00000 0]), 7, 100, 0x16F0, 0, 0xFF00000, 0, ({ onAt 6 with keys := { lineKey := some testKey, anchor := some testAnchor }, tally := { hosts := [⟨0x80000001, 0⟩] } }), by decide +kernel⟩,
   ⟨.a, hostMsg 0x20 (csBody 7 0 1 0 0 [.word 0x1301 0x1F 3]), 7, 0, 0x1301, 0, 0x1F, 3, ({ onAt 6 with keys := { lineKey := some testKey, anchor := some testAnchor }, tally := { hosts := [⟨0x80000001, 0⟩] } }), by decide +kernel⟩,
   ⟨.a, hostMsg 0x20 (csBody 7 0 1 0 100 [.word 0x1301 0x1F 3]), 7, 100, 0x1301, 0, 0x1F, 3, ({ onAt 6 with keys := { lineKey := some testKey, anchor := some testAnchor }, tally := { hosts := [⟨0x80000001, 0⟩], set := some ⟨7, false, 5, [], 9⟩ } }), by decide +kernel⟩⟩

theorem test_change_sets_are_checked_and_applied_whole_3 :
    (∃ (sender : Nat) (p : CsPart) (l : List CsPart) (s : State), s.live = true ∧ passed s (hostState s sender).partsAt 2 = true ∧ (hostState s sender).parts = p :: l ∧ s.keys.lineKey.isSome = true) ∧
    (∃ (c : ChangeSet) (e : Fin 8) (s : State), s.live = true ∧ s.tally.set = some c ∧ c.sec * 8000000000 ≤ s.now + 80000000 ∧ namedEngines s c = [e] ∧ s.aux.func ≠ 3 ∧ s.tally.setEngines.testBit e = false) ∧
    (∃ (c : ChangeSet) (s : State), s.live = true ∧ s.tally.set = some c ∧ (s.now + 80000000 < c.sec * 8000000000 ∨ namedEngines s c = [])) ∧
    (∃ (c : ChangeSet) (m v : Word) (s : State), s.live = true ∧ s.tally.set = some c ∧ c.sec ≤ s.second ∧ stepDue s = false ∧ c.entries = [.word 0x1301 m v] ∧ s.tally.setStep = false ∧ s.tally.setEngines = 0 ∧ 6 ≤ s.mode ∧ s.mode ≤ 9 ∧ s.tally.image = none ∧ s.aux.old = []) :=
  ⟨⟨9, ⟨7, 0, 2, 0, 50, [], none⟩, [], ({ onAt 6 with keys := { lineKey := some testKey, anchor := some testAnchor }, tally := { hosts := [⟨0x80000001, 0⟩] }, net := { hosts := [{ sender := 9, parts := [⟨7, 0, 2, 0, 50, [], none⟩] }] }, pwr := { phase := .running, booted := true, ticks := 400000000 } }), by decide⟩,
   ⟨⟨7, true, 5, [.word 0x15A0 0xFFFF 1], 9⟩, 2, (State.set (State.set ({ onAt 6 with keys := { lineKey := some testKey, anchor := some testAnchor }, tally := { hosts := [⟨0x80000001, 0⟩], set := some ⟨7, true, 5, [.word 0x15A0 0xFFFF 1], 9⟩ }, time := { sec := 5 } }) (PE_ST_STATE 2) (1)) (PE_GST_RUNNING) (4)), by decide⟩,
   ⟨⟨7, true, 5, [.word 0x15A0 0xFFFF 1], 9⟩, ({ onAt 6 with keys := { lineKey := some testKey, anchor := some testAnchor }, tally := { hosts := [⟨0x80000001, 0⟩], set := some ⟨7, true, 5, [.word 0x15A0 0xFFFF 1], 9⟩ } }), by decide⟩,
   ⟨⟨7, true, 5, [.word 0x1301 0x1F 3], 9⟩, 0x1F, 3, ({ onAt 6 with keys := { lineKey := some testKey, anchor := some testAnchor }, tally := { hosts := [⟨0x80000001, 0⟩], set := some ⟨7, true, 5, [.word 0x1301 0x1F 3], 9⟩ }, time := { sec := 5 } }), by decide⟩⟩

theorem test_change_sets_are_checked_and_applied_whole_4 :
    (∃ (c : ChangeSet) (h : List HostEntry) (im : Image) (s : State), s.live = true ∧ s.tally.set = some c ∧ c.sec ≤ s.second ∧ stepDue s = false ∧ c.entries = [.param (.hosts h)] ∧ s.tally.setStep = false ∧ s.tally.setEngines = 0 ∧ 6 ≤ s.mode ∧ s.mode ≤ 9 ∧ s.tally.image = some im ∧ s.tally.dirty = [] ∧ s.aux.old = []) ∧
    (∃ (c : ChangeSet) (s : State), s.live = true ∧ s.tally.set = some c ∧ c.sec ≤ s.second ∧ bankSlots c = [] ∧ s.tally.setEngines = 0 ∧ 6 ≤ s.mode ∧ s.mode ≤ 9 ∧ s.tally.setStep = true ∧ s.keys.lineKey.isSome = true) ∧
    (∃ (c : ChangeSet) (s : State), s.live = true ∧ s.tally.set = some c ∧ c.sec ≤ s.second ∧ bankSlots c = [] ∧ s.tally.setEngines = 0 ∧ (s.mode < 6 ∨ 9 < s.mode) ∧ s.keys.lineKey.isSome = true ∧ (stepDue s = false ∨ s.tally.setStep = true)) :=
  ⟨⟨⟨7, true, 5, [.param (.hosts [⟨4, 0⟩])], 9⟩, [⟨4, 0⟩], testImage, ({ onAt 6 with keys := { lineKey := some testKey, anchor := some testAnchor }, tally := { hosts := [⟨0x80000001, 0⟩], image := some testImage, set := some ⟨7, true, 5, [.param (.hosts [⟨4, 0⟩])], 9⟩ }, time := { sec := 5 } }), by decide +kernel⟩,
   ⟨⟨7, true, 5, [.word 0x1301 0x1F 3], 9⟩, ({ onAt 6 with keys := { lineKey := some testKey, anchor := some testAnchor }, tally := { hosts := [⟨0x80000001, 0⟩], setStep := true, set := some ⟨7, true, 5, [.word 0x1301 0x1F 3], 9⟩ }, time := { sec := 5 } }), by decide⟩,
   ⟨⟨7, true, 5, [.word 0x1301 0x1F 3], 9⟩, ({ onAt 11 with keys := { lineKey := some testKey, anchor := some testAnchor }, tally := { hosts := [⟨0x80000001, 0⟩], set := some ⟨7, true, 5, [.word 0x1301 0x1F 3], 9⟩ }, time := { sec := 5 } }), by decide⟩⟩


theorem test_neighbours_keep_each_others_images_1 :
    (∃ (port : Port) (key : Nat) (s : State), s.live = true ∧ s.keys.lineKey = some key ∧ linkUp s port = true ∧ passedSince s (s.cust port).helloAt 1 = true) ∧
    (∃ (port : Port) (d : Datagram) (h : Hello) (s : State), d.typ = 0x40 ∧ (cyCheck s d).1 = true ∧ helloOf (plain s d) = h ∧ h.ownValid = true ∧ s.mode ≠ 4 ∧ heldDigest s port ≠ some h.tdig ∧ (s.cust port).refused ≠ some h.tdig ∧ (s.cust port).fetch = none ∧ ((s.tally.taken.find? (fun x => x.1 == d.sender)).all (fun x => decide (x.2 + hourTicks ≤ s.pwr.ticks)) = true)) ∧
    (∃ (port : Port) (d : Datagram) (h : Hello) (w : Nat × Nat) (s : State), d.typ = 0x40 ∧ (cyCheck s d).1 = true ∧ helloOf (plain s d) = h ∧ h.ownValid = true ∧ s.mode ≠ 4 ∧ heldDigest s port ≠ some h.tdig ∧ (s.cust port).refused ≠ some h.tdig ∧ (s.cust port).fetch = none ∧ (s.tally.taken.find? (fun x => x.1 == d.sender) = some w) ∧ s.pwr.ticks < w.2 + hourTicks) ∧
    (∃ (port : Port) (d : Datagram) (h : Hello) (s : State), d.typ = 0x40 ∧ (cyCheck s d).1 = true ∧ helloOf (plain s d) = h ∧ s.mode ≠ 4 ∧ (h.ownValid = false ∨ heldDigest s port = some h.tdig ∨ (s.cust port).refused = some h.tdig)) :=
  ⟨⟨.a, testKey, (State.set ({ onAt 6 with keys := { lineKey := some testKey, anchor := some testAnchor }, tally := {  } }) (PORT_ST_A) (0x20)), by decide⟩,
   ⟨.a, sealed 0x40 3 1 (Payload.hello { stn := 23, ownValid := true, tdig := 99 } 1).bytes, { stn := 23, ownValid := true, tdig := 99 }, ({ onAt 6 with keys := { lineKey := some testKey, anchor := some testAnchor }, tally := { hosts := [⟨0x80000001, 0⟩] } }), by decide +kernel⟩,
   ⟨.a, sealed 0x40 3 1 (Payload.hello { stn := 23, ownValid := true, tdig := 99 } 1).bytes, { stn := 23, ownValid := true, tdig := 99 }, (3, 0), ({ onAt 6 with keys := { lineKey := some testKey, anchor := some testAnchor }, tally := { hosts := [⟨0x80000001, 0⟩], taken := [(3, 0)] } }), by decide +kernel⟩,
   ⟨.b, sealed 0x40 3 1 (Payload.hello { stn := 23, ownValid := true, tdig := 99 } 1).bytes, { stn := 23, ownValid := true, tdig := 99 }, ({ onAt 6 with keys := { lineKey := some testKey, anchor := some testAnchor }, tally := { hosts := [⟨0x80000001, 0⟩], portB := { refused := some 99 } } }), by decide +kernel⟩⟩

theorem test_neighbours_keep_each_others_images_2 :
    (∃ (d : Datagram) (h : Hello) (w : Nat) (s : State), d.typ = 0x40 ∧ (cyCheck s d).1 = true ∧ helloOf (plain s d) = h ∧ s.mode = 4 ∧ s.get CP_ST_STEP = 5 ∧ s.get CP_ST_WAIT = w ∧ w ≠ 1 ∧ h.ownValid = false ∧ h.holds = true ∧ h.stn < 256 ∧ h.cstn < 255 ∧ (s.cust .a).offer = none ∧ (s.cust .b).offer = none) ∧
    (∃ (port : Port) (d : Datagram) (want offset : Nat) (im : Image) (s : State), d.typ = 0x41 ∧ (cyCheck s d).1 = true ∧ beAt (plain s d) 1 1 = want ∧ beAt (plain s d) 4 4 = offset ∧ beAt (plain s d) 8 2 = 1 ∧ servedImage s port want = some im ∧ offset < im.size) ∧
    (∃ (port : Port) (d : Datagram) (want offset : Nat) (im : Image) (s : State), d.typ = 0x41 ∧ (cyCheck s d).1 = true ∧ beAt (plain s d) 1 1 = want ∧ beAt (plain s d) 4 4 = offset ∧ servedImage s port want = some im ∧ (beAt (plain s d) 8 2 = 0 ∨ im.size ≤ offset)) ∧
    (∃ (port : Port) (d : Datagram) (want : Nat) (s : State), d.typ = 0x41 ∧ (cyCheck s d).1 = true ∧ beAt (plain s d) 1 1 = want ∧ servedImage s port want = none) :=
  ⟨⟨sealed 0x40 3 1 (Payload.hello { stn := 23, holds := true, cstn := 24, cdig := 9 } 1).bytes, { stn := 23, holds := true, cstn := 24, cdig := 9 }, 4, (State.set (State.set ({ onAt 4 with keys := { lineKey := some testKey, anchor := some testAnchor }, tally := { hosts := [⟨0x80000001, 0⟩] } }) (CP_ST_STEP) (5)) (CP_ST_WAIT) (4)), by decide +kernel⟩,
   ⟨.a, sealed 0x41 3 1 (Payload.custRequest 5 24 64 1).bytes, 24, 64, testImage, ({ onAt 6 with keys := { lineKey := some testKey, anchor := some testAnchor }, tally := { hosts := [⟨0x80000001, 0⟩] }, flash := { custA := ⟨(Vector.replicate 8 []).set 0 testImage.bytes⟩, seals := [{ region := 1, pos := 0, comseq := 4, len := 192, digest := testImage.digest }] } }), by decide +kernel⟩,
   ⟨.a, sealed 0x41 3 1 (Payload.custRequest 5 24 192 4).bytes, 24, 192, testImage, ({ onAt 6 with keys := { lineKey := some testKey, anchor := some testAnchor }, tally := { hosts := [⟨0x80000001, 0⟩] }, flash := { custA := ⟨(Vector.replicate 8 []).set 0 testImage.bytes⟩, seals := [{ region := 1, pos := 0, comseq := 4, len := 192, digest := testImage.digest }] } }), by decide +kernel⟩,
   ⟨.a, sealed 0x41 3 1 (Payload.custRequest 5 23 64 1).bytes, 23, ({ onAt 6 with keys := { lineKey := some testKey, anchor := some testAnchor }, tally := { hosts := [⟨0x80000001, 0⟩] } }), by decide +kernel⟩⟩

theorem test_neighbours_keep_each_others_images_3 :
    (∃ (port : Port) (d : Datagram) (c : CustData) (f : Fetch) (im : Image) (s : State), d.typ = 0x42 ∧ (cyCheck s d).1 = true ∧ custDataOf (plain s d) = c ∧ (s.cust port).look = none ∧ (s.cust port).fetch = some f ∧ c.want = f.stn ∧ c.total ≠ 0 ∧ c.idig = f.digest ∧ c.offset = f.data.length ∧ f.coppice = false ∧ c.total ≤ f.data.length + c.bytes.length ∧ im = ⟨f.data ++ c.bytes⟩ ∧ imageCheck s im = 0 ∧ im.stn = f.stn) ∧
    (∃ (port : Port) (d : Datagram) (c : CustData) (f : Fetch) (im : Image) (s : State), d.typ = 0x42 ∧ (cyCheck s d).1 = true ∧ custDataOf (plain s d) = c ∧ (s.cust port).look = none ∧ (s.cust port).fetch = some f ∧ c.want = f.stn ∧ c.total ≠ 0 ∧ c.idig = f.digest ∧ c.offset = f.data.length ∧ f.coppice = false ∧ c.total ≤ f.data.length + c.bytes.length ∧ im = ⟨f.data ++ c.bytes⟩ ∧ (imageCheck s im ≠ 0 ∨ im.stn ≠ f.stn)) ∧
    (∃ (port : Port) (d : Datagram) (c : CustData) (f : Fetch) (s : State), d.typ = 0x42 ∧ (cyCheck s d).1 = true ∧ custDataOf (plain s d) = c ∧ (s.cust port).look = none ∧ (s.cust port).fetch = some f ∧ c.want = f.stn ∧ c.total ≠ 0 ∧ c.idig = f.digest ∧ c.offset = f.data.length ∧ f.data.length + c.bytes.length < c.total ∧ (f.data.length + c.bytes.length) % 16384 = 0) ∧
    (∃ (port : Port) (d : Datagram) (c : CustData) (f : Fetch) (s : State), d.typ = 0x42 ∧ (cyCheck s d).1 = true ∧ custDataOf (plain s d) = c ∧ (s.cust port).look = none ∧ (s.cust port).fetch = some f ∧ c.want = f.stn ∧ c.total ≠ 0 ∧ c.idig = f.digest ∧ c.offset = f.data.length ∧ f.data.length + c.bytes.length < c.total ∧ (f.data.length + c.bytes.length) % 16384 ≠ 0) :=
  ⟨⟨.a, sealed 0x42 3 1 (Payload.custData { stn := 5, want := 24, total := 192, idig := dig16 testImage.digest, bytes := testImage.bytes }).bytes, { stn := 5, want := 24, total := 192, idig := dig16 testImage.digest, bytes := testImage.bytes }, { digest := dig16 testImage.digest, stn := 24 }, testImage, ({ onAt 6 with keys := { lineKey := some testKey, anchor := some testAnchor }, tally := { hosts := [⟨0x80000001, 0⟩], portA := { fetch := some { digest := dig16 testImage.digest, stn := 24 } } } }), by decide +kernel⟩,
   ⟨.a, sealed 0x42 3 1 (Payload.custData { stn := 5, want := 23, offset := 1, total := 2, idig := 9, bytes := [2] }).bytes, { stn := 5, want := 23, offset := 1, total := 2, idig := 9, bytes := [2] }, { digest := 9, stn := 23, data := [1] }, ⟨[1, 2]⟩, ({ onAt 6 with keys := { lineKey := some testKey, anchor := some testAnchor }, tally := { hosts := [⟨0x80000001, 0⟩], portA := { fetch := some { digest := 9, stn := 23, data := [1] } } } }), by decide +kernel⟩,
   ⟨.b, sealed 0x42 3 1 (Payload.custData { stn := 5, want := 23, offset := 0, total := 30000, idig := 9, bytes := [] }).bytes, { stn := 5, want := 23, offset := 0, total := 30000, idig := 9, bytes := [] }, { digest := 9, stn := 23, data := [] }, ({ onAt 6 with keys := { lineKey := some testKey, anchor := some testAnchor }, tally := { hosts := [⟨0x80000001, 0⟩], portB := { fetch := some { digest := 9, stn := 23, data := [] } } } }), by decide +kernel⟩,
   ⟨.b, sealed 0x42 3 1 (Payload.custData { stn := 5, want := 23, offset := 1, total := 30000, idig := 9, bytes := [2] }).bytes, { stn := 5, want := 23, offset := 1, total := 30000, idig := 9, bytes := [2] }, { digest := 9, stn := 23, data := [7] }, ({ onAt 6 with keys := { lineKey := some testKey, anchor := some testAnchor }, tally := { hosts := [⟨0x80000001, 0⟩], portB := { fetch := some { digest := 9, stn := 23, data := [7] } } } }), by decide +kernel⟩⟩

theorem test_neighbours_keep_each_others_images_4 :
    (∃ (port : Port) (d : Datagram) (c : CustData) (f : Fetch) (s : State), d.typ = 0x42 ∧ (cyCheck s d).1 = true ∧ custDataOf (plain s d) = c ∧ (s.cust port).look = none ∧ (s.cust port).fetch = some f ∧ f.coppice = false ∧ c.want = f.stn ∧ c.total ≠ 0 ∧ f.data ≠ [] ∧ c.idig ≠ f.digest) ∧
    (∃ (port : Port) (d : Datagram) (c : CustData) (f : Fetch) (s : State), d.typ = 0x42 ∧ (cyCheck s d).1 = true ∧ custDataOf (plain s d) = c ∧ (s.cust port).look = none ∧ (s.cust port).fetch = some f ∧ f.coppice = false ∧ c.want = f.stn ∧ c.total = 0) ∧
    (∃ (port : Port) (d : Datagram) (stn idig : Nat) (s : State), d.typ = 0x43 ∧ (cyCheck s d).1 = true ∧ beAt (plain s d) 0 1 = stn ∧ beAt (plain s d) 8 16 = idig ∧ heldDigest s port ≠ some idig ∧ (s.cust port).refused ≠ some idig ∧ (s.cust port).fetch = none ∧ ((s.tally.taken.find? (fun x => x.1 == d.sender)).all (fun x => decide (x.2 + hourTicks ≤ s.pwr.ticks)) = true)) ∧
    (∃ (port : Port) (d : Datagram) (stn idig : Nat) (w : Nat × Nat) (s : State), d.typ = 0x43 ∧ (cyCheck s d).1 = true ∧ beAt (plain s d) 0 1 = stn ∧ beAt (plain s d) 8 16 = idig ∧ heldDigest s port ≠ some idig ∧ (s.cust port).refused ≠ some idig ∧ (s.cust port).fetch = none ∧ (s.tally.taken.find? (fun x => x.1 == d.sender) = some w) ∧ s.pwr.ticks < w.2 + hourTicks) :=
  ⟨⟨.b, sealed 0x42 3 1 (Payload.custData { stn := 5, want := 23, offset := 1, total := 30000, idig := 9, bytes := [2] }).bytes, { stn := 5, want := 23, offset := 1, total := 30000, idig := 9, bytes := [2] }, { digest := 8, stn := 23, data := [7] }, ({ onAt 6 with keys := { lineKey := some testKey, anchor := some testAnchor }, tally := { hosts := [⟨0x80000001, 0⟩], portB := { fetch := some { digest := 8, stn := 23, data := [7] } } } }), by decide +kernel⟩,
   ⟨.b, sealed 0x42 3 1 (Payload.custData { stn := 5, want := 23 }).bytes, { stn := 5, want := 23 }, { digest := 8, stn := 23, data := [7] }, ({ onAt 6 with keys := { lineKey := some testKey, anchor := some testAnchor }, tally := { hosts := [⟨0x80000001, 0⟩], portB := { fetch := some { digest := 8, stn := 23, data := [7] } } } }), by decide +kernel⟩,
   ⟨.a, sealed 0x43 3 1 (Payload.offer 23 3000 99).bytes, 23, 99, ({ onAt 6 with keys := { lineKey := some testKey, anchor := some testAnchor }, tally := { hosts := [⟨0x80000001, 0⟩] } }), by decide +kernel⟩,
   ⟨.a, sealed 0x43 3 1 (Payload.offer 23 3000 99).bytes, 23, 99, (3, 0), ({ onAt 6 with keys := { lineKey := some testKey, anchor := some testAnchor }, tally := { hosts := [⟨0x80000001, 0⟩], taken := [(3, 0)] } }), by decide +kernel⟩⟩

theorem test_neighbours_keep_each_others_images_5 :
    (∃ (port : Port) (d : Datagram) (idig : Nat) (s : State), d.typ = 0x43 ∧ (cyCheck s d).1 = true ∧ beAt (plain s d) 8 16 = idig ∧ (heldDigest s port = some idig ∨ (s.cust port).refused = some idig)) ∧
    (∃ (_port : Port) (d : Datagram) (s : State), d.typ = 0x44 ∧ (cyCheck s d).1 = true) ∧
    (∃ (port : Port) (x : Nat) (s : State), s.live = true ∧ (s.cust port).deferred = true ∧ (s.cust port).valid = true ∧ hourLeft s port = 0 ∧ (s.cust port).tdig = some x ∧ wantsFetch s port x = true ∧ s.keys.lineKey.isSome = true) :=
  ⟨⟨.a, sealed 0x43 3 1 (Payload.offer 23 3000 99).bytes, 99, ({ onAt 6 with keys := { lineKey := some testKey, anchor := some testAnchor }, tally := { hosts := [⟨0x80000001, 0⟩], portA := { refused := some 99 } } }), by decide +kernel⟩,
   ⟨.b, sealed 0x44 3 1 (Payload.defer 23 600).bytes, ({ onAt 6 with keys := { lineKey := some testKey, anchor := some testAnchor }, tally := { hosts := [⟨0x80000001, 0⟩] } }), by decide +kernel⟩,
   ⟨.a, 99, (State.set ({ onAt 6 with keys := { lineKey := some testKey, anchor := some testAnchor }, tally := { portA := { deferred := true, valid := true, tdig := some 99 } } }) (CP_NBR_STNA) (23)), by decide⟩⟩


theorem test_coppice_restores_and_enrolment_keys_the_module_1 :
    (∃ (x : Nat × Nat) (s : State), s.live = true ∧ s.mode = 4 ∧ enrolled s = true ∧ s.get CP_ST_STEP = 1 ∧ (s.tally.listenAt.any (fun x => passed s x 3) = true) ∧ s.tally.failA = false ∧ s.tally.failB = false ∧ (s.cust .a).look = none ∧ (s.cust .b).look = none ∧ (s.cust .a).offer = some x ∧ (s.cust .b).offer = none) ∧
    (∃ (x : Nat × Nat) (s : State), s.live = true ∧ s.mode = 4 ∧ enrolled s = true ∧ s.get CP_ST_STEP = 1 ∧ (s.tally.listenAt.any (fun x => passed s x 3) = true) ∧ s.tally.failA = false ∧ s.tally.failB = false ∧ (s.cust .a).look = none ∧ (s.cust .b).look = none ∧ (s.cust .a).offer = none ∧ (s.cust .b).offer = some x) ∧
    (∃ (x : Nat × Nat) (s : State), s.live = true ∧ s.mode = 4 ∧ enrolled s = true ∧ s.get CP_ST_STEP = 1 ∧ (s.tally.listenAt.any (fun x => passed s x 3) = true) ∧ s.tally.failA = false ∧ s.tally.failB = false ∧ (s.cust .a).look = none ∧ (s.cust .b).look = none ∧ (s.cust .a).offer = some x ∧ (s.cust .b).offer = some x) ∧
    (∃ (x y : Nat × Nat) (s : State), s.live = true ∧ s.mode = 4 ∧ enrolled s = true ∧ s.get CP_ST_STEP = 1 ∧ (s.tally.listenAt.any (fun x => passed s x 3) = true) ∧ s.tally.failA = false ∧ s.tally.failB = false ∧ (s.cust .a).look = none ∧ (s.cust .b).look = none ∧ (s.cust .a).offer = some x ∧ (s.cust .b).offer = some y ∧ x.1 = y.1 ∧ x.2 ≠ y.2) :=
  ⟨⟨(24, 9), (State.set (State.set ({ onAt 4 with keys := { lineKey := some testKey, anchor := some testAnchor }, tally := { listenAt := some 0, portA := { offer := some (24, 9) } }, pwr := { phase := .running, booted := true, ticks := 12000000000 } }) (TL_ST_ENROLLED) (1)) (CP_ST_STEP) (1)), by decide⟩,
   ⟨(24, 9), (State.set (State.set ({ onAt 4 with keys := { lineKey := some testKey, anchor := some testAnchor }, tally := { listenAt := some 0, portB := { offer := some (24, 9) } }, pwr := { phase := .running, booted := true, ticks := 12000000000 } }) (TL_ST_ENROLLED) (1)) (CP_ST_STEP) (1)), by decide⟩,
   ⟨(24, 9), (State.set (State.set ({ onAt 4 with keys := { lineKey := some testKey, anchor := some testAnchor }, tally := { listenAt := some 0, portA := { offer := some (24, 9) }, portB := { offer := some (24, 9) } }, pwr := { phase := .running, booted := true, ticks := 12000000000 } }) (TL_ST_ENROLLED) (1)) (CP_ST_STEP) (1)), by decide⟩,
   ⟨(24, 9), (24, 8), (State.set (State.set ({ onAt 4 with keys := { lineKey := some testKey, anchor := some testAnchor }, tally := { listenAt := some 0, portA := { offer := some (24, 9) }, portB := { offer := some (24, 8) } }, pwr := { phase := .running, booted := true, ticks := 12000000000 } }) (TL_ST_ENROLLED) (1)) (CP_ST_STEP) (1)), by decide⟩⟩

theorem test_coppice_restores_and_enrolment_keys_the_module_2 :
    (∃ (d : Datagram) (c : CustData) (u v : Nat × Nat) (x y : Look) (q : Nat) (s : State), d.typ = 0x42 ∧ (cyCheck s d).1 = true ∧ s.mode = 4 ∧ s.get CP_ST_STEP = 1 ∧ custDataOf (plain s d) = c ∧ (s.cust .a).offer = some u ∧ (s.cust .b).offer = some v ∧ u.1 = v.1 ∧ u.2 ≠ v.2 ∧ s.tally.failA = false ∧ s.tally.failB = false ∧ (s.cust .a).look = some x ∧ x.cseq = some q ∧ (s.cust .b).look = some y ∧ y.base = 0 ∧ y.data = [] ∧ y.length = none ∧ y.cseq = none ∧ y.stn = c.want ∧ y.digest = c.idig ∧ c.offset = 0 ∧ c.total ≠ 0 ∧ c.total ≤ beAt c.bytes 8 4 ∧ c.bytes.length ≤ c.total ∧ x.gen < beAt c.bytes 16 4) ∧
    (∃ (d : Datagram) (c : CustData) (u v : Nat × Nat) (x y : Look) (q : Nat) (s : State), d.typ = 0x42 ∧ (cyCheck s d).1 = true ∧ s.mode = 4 ∧ s.get CP_ST_STEP = 1 ∧ custDataOf (plain s d) = c ∧ (s.cust .a).offer = some u ∧ (s.cust .b).offer = some v ∧ u.1 = v.1 ∧ u.2 ≠ v.2 ∧ s.tally.failA = false ∧ s.tally.failB = false ∧ (s.cust .a).look = some x ∧ x.cseq = some q ∧ (s.cust .b).look = some y ∧ y.base = 0 ∧ y.data = [] ∧ y.length = none ∧ y.cseq = none ∧ y.stn = c.want ∧ y.digest = c.idig ∧ c.offset = 0 ∧ c.total ≠ 0 ∧ c.total ≤ beAt c.bytes 8 4 ∧ c.bytes.length ≤ c.total ∧ beAt c.bytes 16 4 < x.gen) ∧
    (∃ (d : Datagram) (c : CustData) (u v : Nat × Nat) (x y : Look) (q : Nat) (s : State), d.typ = 0x42 ∧ (cyCheck s d).1 = true ∧ s.mode = 4 ∧ s.get CP_ST_STEP = 1 ∧ custDataOf (plain s d) = c ∧ (s.cust .a).offer = some u ∧ (s.cust .b).offer = some v ∧ u.1 = v.1 ∧ u.2 ≠ v.2 ∧ s.tally.failA = false ∧ s.tally.failB = false ∧ (s.cust .a).look = some x ∧ x.cseq = some q ∧ (s.cust .b).look = some y ∧ y.base = 0 ∧ y.data = [] ∧ y.length = none ∧ y.cseq = none ∧ y.stn = c.want ∧ y.digest = c.idig ∧ c.offset = 0 ∧ c.total ≠ 0 ∧ c.total ≤ beAt c.bytes 8 4 ∧ c.bytes.length ≤ c.total ∧ x.gen = beAt c.bytes 16 4 ∧ q = 0) ∧
    (∃ (x y : Nat × Nat) (s : State), s.live = true ∧ s.mode = 4 ∧ enrolled s = true ∧ s.get CP_ST_STEP = 1 ∧ (s.tally.listenAt.any (fun x => passed s x 3) = true) ∧ s.tally.failA = false ∧ s.tally.failB = false ∧ (s.cust .a).look = none ∧ (s.cust .b).look = none ∧ (s.cust .a).offer = some x ∧ (s.cust .b).offer = some y ∧ x.1 ≠ y.1) :=
  ⟨⟨sealed 0x42 3 1 (Payload.custData { stn := 5, want := 24, total := 192, idig := dig16 testImage.digest, bytes := testImage.bytes }).bytes, { stn := 5, want := 24, total := 192, idig := dig16 testImage.digest, bytes := testImage.bytes }, (24, 9), (24, dig16 testImage.digest), { digest := 9, stn := 24, gen := 3, length := some 100, cseq := some 0 }, { digest := dig16 testImage.digest, stn := 24 }, 0, (State.set (State.set ({ onAt 4 with keys := { lineKey := some testKey, anchor := some testAnchor }, tally := { listenAt := some 0, portA := { offer := some (24, 9), look := some { digest := 9, stn := 24, gen := 3, length := some 100, cseq := some 0 } }, portB := { offer := some (24, dig16 testImage.digest), look := some { digest := dig16 testImage.digest, stn := 24 } } }, pwr := { phase := .running, booted := true, ticks := 12000000000 } }) (TL_ST_ENROLLED) (1)) (CP_ST_STEP) (1)), by decide +kernel⟩,
   ⟨sealed 0x42 3 1 (Payload.custData { stn := 5, want := 24, total := 192, idig := dig16 testImage.digest, bytes := testImage.bytes }).bytes, { stn := 5, want := 24, total := 192, idig := dig16 testImage.digest, bytes := testImage.bytes }, (24, 9), (24, dig16 testImage.digest), { digest := 9, stn := 24, gen := 30, length := some 100, cseq := some 0 }, { digest := dig16 testImage.digest, stn := 24 }, 0, (State.set (State.set ({ onAt 4 with keys := { lineKey := some testKey, anchor := some testAnchor }, tally := { listenAt := some 0, portA := { offer := some (24, 9), look := some { digest := 9, stn := 24, gen := 30, length := some 100, cseq := some 0 } }, portB := { offer := some (24, dig16 testImage.digest), look := some { digest := dig16 testImage.digest, stn := 24 } } }, pwr := { phase := .running, booted := true, ticks := 12000000000 } }) (TL_ST_ENROLLED) (1)) (CP_ST_STEP) (1)), by decide +kernel⟩,
   ⟨sealed 0x42 3 1 (Payload.custData { stn := 5, want := 24, total := 192, idig := dig16 testImage.digest, bytes := testImage.bytes }).bytes, { stn := 5, want := 24, total := 192, idig := dig16 testImage.digest, bytes := testImage.bytes }, (24, 9), (24, dig16 testImage.digest), { digest := 9, stn := 24, gen := 7, length := some 100, cseq := some 0 }, { digest := dig16 testImage.digest, stn := 24 }, 0, (State.set (State.set ({ onAt 4 with keys := { lineKey := some testKey, anchor := some testAnchor }, tally := { listenAt := some 0, portA := { offer := some (24, 9), look := some { digest := 9, stn := 24, gen := 7, length := some 100, cseq := some 0 } }, portB := { offer := some (24, dig16 testImage.digest), look := some { digest := dig16 testImage.digest, stn := 24 } } }, pwr := { phase := .running, booted := true, ticks := 12000000000 } }) (TL_ST_ENROLLED) (1)) (CP_ST_STEP) (1)), by decide +kernel⟩,
   ⟨(24, 9), (25, 8), (State.set (State.set ({ onAt 4 with keys := { lineKey := some testKey, anchor := some testAnchor }, tally := { listenAt := some 0, portA := { offer := some (24, 9) }, portB := { offer := some (25, 8) } }, pwr := { phase := .running, booted := true, ticks := 12000000000 } }) (TL_ST_ENROLLED) (1)) (CP_ST_STEP) (1)), by decide⟩⟩

theorem test_coppice_restores_and_enrolment_keys_the_module_3 :
    (∃ (s : State), s.live = true ∧ s.mode = 4 ∧ enrolled s = true ∧ s.get CP_ST_STEP = 1 ∧ (s.tally.listenAt.any (fun x => passed s x 3) = true) ∧ s.tally.failA = false ∧ s.tally.failB = false ∧ (s.cust .a).look = none ∧ (s.cust .b).look = none ∧ (s.cust .a).offer = none ∧ (s.cust .b).offer = none) ∧
    (∃ (port : Port) (d : Datagram) (c : CustData) (f : Fetch) (im : Image) (s : State), d.typ = 0x42 ∧ (cyCheck s d).1 = true ∧ custDataOf (plain s d) = c ∧ (s.cust port).look = none ∧ (s.cust port).fetch = some f ∧ c.want = f.stn ∧ c.total ≠ 0 ∧ c.idig = f.digest ∧ c.offset = f.data.length ∧ f.coppice = true ∧ c.total ≤ f.data.length + c.bytes.length ∧ im = ⟨f.data ++ c.bytes⟩ ∧ imageCheck s im = 0 ∧ im.stn = f.stn) ∧
    (∃ (d : Datagram) (c : CustData) (f : Fetch) (im : Image) (s : State), d.typ = 0x42 ∧ (cyCheck s d).1 = true ∧ custDataOf (plain s d) = c ∧ (s.cust .a).look = none ∧ (s.cust .a).fetch = some f ∧ c.want = f.stn ∧ c.total ≠ 0 ∧ c.idig = f.digest ∧ c.offset = f.data.length ∧ f.coppice = true ∧ c.total ≤ f.data.length + c.bytes.length ∧ im = ⟨f.data ++ c.bytes⟩ ∧ (imageCheck s im ≠ 0 ∨ im.stn ≠ f.stn) ∧ (s.cust .b).offer = none) ∧
    (∃ (im : Image) (s : State), s.live = true ∧ s.mode = 4 ∧ s.tally.fetched = some im ∧ linkUp s .a = false ∧ linkUp s .b = false) :=
  ⟨⟨(State.set (State.set ({ onAt 4 with keys := { lineKey := some testKey, anchor := some testAnchor }, tally := { listenAt := some 0 }, pwr := { phase := .running, booted := true, ticks := 12000000000 } }) (TL_ST_ENROLLED) (1)) (CP_ST_STEP) (1)), by decide⟩,
   ⟨.a, sealed 0x42 3 1 (Payload.custData { stn := 5, want := 24, total := 192, idig := dig16 testImage.digest, bytes := testImage.bytes }).bytes, { stn := 5, want := 24, total := 192, idig := dig16 testImage.digest, bytes := testImage.bytes }, { digest := dig16 testImage.digest, stn := 24, coppice := true }, testImage, (State.set (State.set ({ onAt 4 with keys := { lineKey := some testKey, anchor := some testAnchor }, tally := { listenAt := some 0, portA := { fetch := some { digest := dig16 testImage.digest, stn := 24, coppice := true } } }, pwr := { phase := .running, booted := true, ticks := 12000000000 } }) (TL_ST_ENROLLED) (1)) (CP_ST_STEP) (1)), by decide +kernel⟩,
   ⟨sealed 0x42 3 1 (Payload.custData { stn := 5, want := 23, offset := 1, total := 2, idig := 9, bytes := [2] }).bytes, { stn := 5, want := 23, offset := 1, total := 2, idig := 9, bytes := [2] }, { digest := 9, stn := 23, data := [1], coppice := true }, ⟨[1, 2]⟩, (State.set (State.set ({ onAt 4 with keys := { lineKey := some testKey, anchor := some testAnchor }, tally := { listenAt := some 0, portA := { fetch := some { digest := 9, stn := 23, data := [1], coppice := true } } }, pwr := { phase := .running, booted := true, ticks := 12000000000 } }) (TL_ST_ENROLLED) (1)) (CP_ST_STEP) (1)), by decide +kernel⟩,
   ⟨testImage, (State.set (State.set ({ onAt 4 with keys := { lineKey := some testKey, anchor := some testAnchor }, tally := { listenAt := some 0, fetched := some testImage }, pwr := { phase := .running, booted := true, ticks := 12000000000 } }) (TL_ST_ENROLLED) (1)) (CP_ST_STEP) (1)), by decide +kernel⟩⟩

theorem test_coppice_restores_and_enrolment_keys_the_module_4 :
    (∃ (p : Nat) (x : SealRec) (im : Image) (s : State), s.live = true ∧ s.mode = 4 ∧ passed s s.modes.at_ 60 = true ∧ s.tally.fetched = none ∧ s.tally.olderPos = some p ∧ s.flash.sealAt 0 p = some x ∧ s.flash.vouched x = some im ∧ p < 8 ∧ im.params = [] ∧ im.rest = [] ∧ worldOk im.world = true ∧ s.get ID_DOMST_WSTATE = 0) ∧
    (∃ (s : State), s.live = true ∧ s.mode = 4 ∧ enrolled s = false ∧ passedSince s s.tally.enrollAt 2 = true ∧ linkUp s .a = true ∧ linkUp s .b = false) ∧
    (∃ (pub plant sysid sig k own : Nat) (s : State), s.live = true ∧ s.mode = 4 ∧ enrolled s = false ∧ s.tally.enrollKey = some k ∧ own = beNat (leBytes 32 (x25519Public k)) ∧ edVerify (beBytes 32 plant) (offerText s own pub sysid) (beBytes 64 sig) = true) ∧
    (∃ (pub plant sysid sig k : Nat) (s : State), s.live = true ∧ s.mode = 4 ∧ enrolled s = false ∧ s.tally.enrollKey = some k ∧ edVerify (beBytes 32 plant) (offerText s (beNat (leBytes 32 (x25519Public k))) pub sysid) (beBytes 64 sig) = false) :=
  ⟨⟨3, { region := 0, pos := 3, comseq := 8, origin := 1, len := 192, digest := testImage.digest }, testImage, (State.set (State.set ({ onAt 4 with keys := { lineKey := some testKey, anchor := some testAnchor }, tally := { listenAt := some 0, olderPos := some 3 }, flash := { own := ⟨(Vector.replicate 8 []).set 3 testImage.bytes⟩, seals := [{ region := 0, pos := 3, comseq := 8, origin := 1, len := 192, digest := testImage.digest }] }, pwr := { phase := .running, booted := true, ticks := 12000000000 } }) (TL_ST_ENROLLED) (1)) (CP_ST_STEP) (1)), by decide +kernel⟩,
   ⟨(State.set ({ onAt 4 with keys := { lineKey := none, anchor := some testAnchor }, tally := { listenAt := some 0 }, pwr := { phase := .running, booted := true, ticks := 12000000000 } }) (PORT_ST_A) (0x20)), by decide⟩,
   ⟨0x2FE57DA347CD62431528DAAC5FBB290730FFF684AFC4CFC2ED90995F58CB3B74, testAnchor, 8, 0x1A5C867538720417C217387F89964FCCE4578AFA573B6B048B603BAACCE93888FC89729B032FC7A87B08DABB0AF913D936A1AE2AA6F30601AD86810B82F57604, 5, beNat (leBytes 32 (x25519Public 5)), ({ onAt 4 with keys := { lineKey := none, anchor := some testAnchor }, tally := { listenAt := some 0, enrollKey := some 5 }, pwr := { phase := .running, booted := true, ticks := 12000000000 } }), by decide +kernel⟩,
   ⟨0x2FE57DA347CD62431528DAAC5FBB290730FFF684AFC4CFC2ED90995F58CB3B74, testAnchor, 9, 0x1A5C867538720417C217387F89964FCCE4578AFA573B6B048B603BAACCE93888FC89729B032FC7A87B08DABB0AF913D936A1AE2AA6F30601AD86810B82F57604, 5, ({ onAt 4 with keys := { lineKey := none, anchor := some testAnchor }, tally := { listenAt := some 0, enrollKey := some 5 }, pwr := { phase := .running, booted := true, ticks := 12000000000 } }), by decide +kernel⟩⟩

theorem test_coppice_restores_and_enrolment_keys_the_module_5 :
    (∃ (_src : Peer) (nonce cipher tag plant sysid transfer : Nat) (s : State), s.live = true ∧ s.mode = 4 ∧ enrolled s = false ∧ s.tally.enrolling = some (plant, sysid, transfer) ∧ gcmTag transfer nonce [] (beBytes 32 cipher) = tag) ∧
    (∃ (_src : Peer) (nonce cipher tag plant sysid transfer : Nat) (s : State), s.live = true ∧ s.mode = 4 ∧ enrolled s = false ∧ s.tally.enrolling = some (plant, sysid, transfer) ∧ gcmTag transfer nonce [] (beBytes 32 cipher) ≠ tag) :=
  ⟨⟨{}, 3, 5, gcmTag testKey 3 [] (beBytes 32 5), 7, 8, testKey, ({ onAt 4 with keys := { lineKey := none, anchor := some testAnchor }, tally := { listenAt := some 0, enrolling := some (7, 8, testKey) }, pwr := { phase := .running, booted := true, ticks := 12000000000 } }), by decide +kernel⟩,
   ⟨{}, 3, 5, 6, 7, 8, testKey, ({ onAt 4 with keys := { lineKey := none, anchor := some testAnchor }, tally := { listenAt := some 0, enrolling := some (7, 8, testKey) }, pwr := { phase := .running, booted := true, ticks := 12000000000 } }), by decide +kernel⟩⟩


theorem test_register_accesses_through_the_bus_and_management_1 :
    (∃ (init : Initiator) (addr : Nat) (s : State), present s init = true ∧ lowHalf addr = true ∧ accMask addr .rc = 0 ∧ isRegister addr = true ∧ workHidden s addr = false ∧ rxWord addr = false ∧ viewedWord s addr = false) ∧
    (∃ (init : Initiator) (addr : Nat) (x : Shadow) (s : State), present s init = true ∧ highHalf addr = true ∧ (s.bus.shadows.find? (fun x => x.init == shadowOwner init && x.addr + 1 == addr) = some x) ∧ isRegister addr = true ∧ workHidden s addr = false ∧ rxWord addr = false ∧ viewedWord s addr = false) ∧
    (∃ (init : Initiator) (addr : Nat) (s : State), present s init = true ∧ highHalf addr = true ∧ (s.bus.shadows.find? (fun x => x.init == shadowOwner init && x.addr + 1 == addr) = none) ∧ isRegister addr = true ∧ workHidden s addr = false ∧ rxWord addr = false ∧ viewedWord s addr = false) ∧
    (∃ (p : Proc) (_half : Bool) (b : Nat) (s : State), procRuns s p = true ∧ (0x40010000 ≤ b ∧ b < 0x50000000 ∨ (0x40000000 ≤ b ∧ b < 0x40010000 ∧ pageListed ((b - 0x40000000) / 4) = true))) :=
  ⟨⟨.proc .user, 0x422, { (((onAt 6).set AN_UPST_STATE 1).set ID_DOMST_WSTATE 2).setWord 0x423 77 with bus := { shadows := [⟨.ssp, 0x20C, 5⟩] } }, by decide⟩,
   ⟨.proc .ana1, 0x423, ⟨.proc .ana1, 0x422, 77⟩, { (onAt 6).set ID_DOMST_WSTATE 2 with bus := { shadows := [⟨.proc .ana1, 0x422, 77⟩] } }, by decide⟩,
   ⟨.proc .sup, 0x423, { onAt 6 with bus := { shadows := [⟨.proc .ana1, 0x422, 77⟩] } }, by decide⟩,
   ⟨.sup, false, 0x40000025, onAt 6, by decide⟩⟩

theorem test_register_accesses_through_the_bus_and_management_2 :
    (∃ (p : Proc) (_half : Bool) (b : Nat) (s : State), procRuns s p = true ∧ 0x40010000 ≤ b ∧ b < 0x50000000) ∧
    (∃ (p : Proc) (_half : Bool) (a r : Nat) (s : State), procRuns s p = true ∧ a < 0x4000 ∧ r < 4 ∧ lowHalf a = false ∧ highHalf a = false ∧ accMask a .rc = 0 ∧ isRegister a = true ∧ workHidden s a = false ∧ rxWord a = false ∧ viewedWord s a = false) ∧
    (∃ (p : Proc) (addr n : Nat) (s : State), procRuns s p = true ∧ addr < 0x4000 ∧ pageEnd addr < addr + n ∧ pageListed addr = true ∧ pageEnd addr = addr + 1 ∧ lowHalf addr = false ∧ highHalf addr = false ∧ accMask addr .rc = 0 ∧ isRegister addr = true ∧ workHidden s addr = false ∧ rxWord addr = false ∧ viewedWord s addr = false) ∧
    (∃ (p : Proc) (addr cnt : Nat) (s : State), procRuns s p = true ∧ addr < 0x4000 ∧ 1 ≤ cnt ∧ cnt ≤ 3 ∧ addr + cnt ≤ pageEnd addr ∧ (∀ k : Fin 3, k.val < cnt → isRegister (addr + k.val) = true ∧ workHidden s (addr + k.val) = false ∧ rxWord (addr + k.val) = false ∧ viewedWord s (addr + k.val) = false ∧ lowHalf (addr + k.val) = false ∧ highHalf (addr + k.val) = false ∧ accMask (addr + k.val) .rc = 0)) :=
  ⟨⟨.net, true, 0x40010000, onAt 6, by decide⟩,
   ⟨.net, false, 0x1301, 1, onAt 6, by decide⟩,
   ⟨.sup, 0x16FF, 4, onAt 6, by decide⟩,
   ⟨.net, 0x1304, 3, onAt 6, by decide⟩⟩

theorem test_register_accesses_through_the_bus_and_management_3 :
    (∃ (p : Proc) (addr : Nat) (s : State), procRuns s p = true ∧ accMask addr .rc ≠ 0 ∧ lowHalf addr = false ∧ highHalf addr = false ∧ isRegister addr = true ∧ workHidden s addr = false ∧ rxWord addr = false ∧ viewedWord s addr = false) ∧
    (∃ (init : Initiator) (addr : Nat) (_v : Word) (s : State), present s init = true ∧ mayWrite s init addr = false ∧ (match init with | .proc p => breaksWorld s p addr | _ => false) = false) ∧
    (∃ (p : Proc) (addr : Nat) (_v : Word) (s : State), breaksWorld s p addr = true) ∧
    (∃ (init : Initiator) (_v : Word) (s : State), present s init = true ∧ mayWrite s init 0x1301 = true) :=
  ⟨⟨.sup, 0x163C, (onAt 6).set BUS_CNT_TRUNC 3, by decide⟩,
   ⟨.host 0, 0x1804, 3, ({ onAt 6 with keys := { lineKey := some testKey, anchor := some testAnchor }, tally := { hosts := [⟨0x80000001, 0⟩] } }), by decide⟩,
   ⟨.user, 0x1301, 3, ((onAt 6).set AN_UPST_STATE 1).set ID_DOMST_WSTATE 2, by decide⟩,
   ⟨.host 0, 0x0101, ({ onAt 6 with keys := { lineKey := some testKey, anchor := some testAnchor }, tally := { hosts := [⟨0x80000001, 0⟩] } }), by decide⟩⟩

theorem test_register_accesses_through_the_bus_and_management_4 :
    (∃ (init : Initiator) (_v : Word) (s : State), present s init = true ∧ mayWrite s init 0x803 = true) ∧
    (∃ (p : Proc) (x : BusTarget) (wr : Bool) (b : Nat) (s : State), procRuns s p = true ∧ violates s p x wr b = true ∧ s.get WK_EVT_VIOL = 0) ∧
    (∃ (p : Proc) (x : BusTarget) (b : Nat) (s : State), procRuns s p = true ∧ violates s p x false b = true ∧ s.get WK_EVT_VIOL = 1) ∧
    (∃ (_port : Port) (d : Datagram) (reqid addr cnt : Nat) (l : List Word) (s : State), d.typ = 0x10 ∧ (cyCheck s d).1 = true ∧ mgmtReqOf (plain s d) = ⟨reqid, 1, addr, cnt, l⟩ ∧ d.len = 12 ∧ (∀ x ∈ s.net.hosts, x.sender ≠ d.sender) ∧ 1 ≤ cnt ∧ cnt ≤ 3 ∧ pageListed addr = true ∧ addr + cnt ≤ pageEnd addr ∧ (∀ k : Fin 3, k.val < cnt → isRegister (addr + k.val) = true ∧ workHidden s (addr + k.val) = false ∧ rxWord (addr + k.val) = false ∧ viewedWord s (addr + k.val) = false ∧ lowHalf (addr + k.val) = false ∧ highHalf (addr + k.val) = false ∧ accMask (addr + k.val) .rc = 0)) :=
  ⟨⟨.proc .sup, 1, (onAt 6).setWord 0x803 3, by decide⟩,
   ⟨.user, .register, true, 0x40004C04, ((onAt 6).set AN_UPST_STATE 1).set ID_DOMST_WSTATE 2, by decide⟩,
   ⟨.user, .fixed, 0x20000000, (((onAt 6).set AN_UPST_STATE 1).set ID_DOMST_WSTATE 2).set WK_EVT_VIOL 1, by decide⟩,
   ⟨.a, hostMsg 0x10 (beBytes 12 0x000000090100000000080001), 9, 8, 2, [], ({ onAt 6 with keys := { lineKey := some testKey, anchor := some testAnchor }, tally := { hosts := [⟨0x80000001, 0⟩] } }), by decide +kernel⟩⟩

theorem test_register_accesses_through_the_bus_and_management_5 :
    (∃ (_port : Port) (d : Datagram) (reqid addr cnt : Nat) (l : List Word) (s : State), d.typ = 0x10 ∧ (cyCheck s d).1 = true ∧ mgmtReqOf (plain s d) = ⟨reqid, 1, addr, cnt, l⟩ ∧ d.len = 12 ∧ (∀ x ∈ s.net.hosts, x.sender ≠ d.sender) ∧ pageListed addr = false) ∧
    (∃ (_port : Port) (d : Datagram) (reqid addr cnt : Nat) (l : List Word) (s : State), d.typ = 0x10 ∧ (cyCheck s d).1 = true ∧ mgmtReqOf (plain s d) = ⟨reqid, 1, addr, cnt, l⟩ ∧ d.len = 12 ∧ (∀ x ∈ s.net.hosts, x.sender ≠ d.sender) ∧ pageListed addr = true ∧ pageEnd addr = addr + 1 ∧ 1 < cnt ∧ lowHalf addr = false ∧ highHalf addr = false ∧ accMask addr .rc = 0 ∧ isRegister addr = true ∧ workHidden s addr = false ∧ rxWord addr = false ∧ viewedWord s addr = false) ∧
    (∃ (_port : Port) (d : Datagram) (reqid op addr cnt : Nat) (l : List Word) (s : State), d.typ = 0x10 ∧ (cyCheck s d).1 = true ∧ mgmtReqOf (plain s d) = ⟨reqid, op, addr, cnt, l⟩ ∧ (∀ x ∈ s.net.hosts, x.sender ≠ d.sender) ∧ op ≠ 1 ∧ op ≠ 2) ∧
    (∃ (_port : Port) (d : Datagram) (reqid addr cnt : Nat) (l : List Word) (s : State), d.typ = 0x10 ∧ (cyCheck s d).1 = true ∧ mgmtReqOf (plain s d) = ⟨reqid, 1, addr, cnt, l⟩ ∧ (∀ x ∈ s.net.hosts, x.sender ≠ d.sender) ∧ d.len ≠ 12) :=
  ⟨⟨.a, hostMsg 0x10 (beBytes 12 0x00000009010000003f000001), 9, 0x3F00, 2, [], ({ onAt 6 with keys := { lineKey := some testKey, anchor := some testAnchor }, tally := { hosts := [⟨0x80000001, 0⟩] } }), by decide +kernel⟩,
   ⟨.a, hostMsg 0x10 (beBytes 12 0x000000090100000016ff0002), 9, 0x16FF, 3, [], ({ onAt 6 with keys := { lineKey := some testKey, anchor := some testAnchor }, tally := { hosts := [⟨0x80000001, 0⟩] } }), by decide +kernel⟩,
   ⟨.a, hostMsg 0x10 (beBytes 12 0x000000090700000000080001), 9, 7, 8, 2, [], ({ onAt 6 with keys := { lineKey := some testKey, anchor := some testAnchor }, tally := { hosts := [⟨0x80000001, 0⟩] } }), by decide +kernel⟩,
   ⟨.a, hostMsg 0x10 (beBytes 16 0x00000009010000000008000100000005), 9, 8, 2, [5], ({ onAt 6 with keys := { lineKey := some testKey, anchor := some testAnchor }, tally := { hosts := [⟨0x80000001, 0⟩] } }), by decide +kernel⟩⟩

theorem test_register_accesses_through_the_bus_and_management_6 :
    (∃ (_port : Port) (d : Datagram) (reqid addr cnt : Nat) (l : List Word) (x : Kept) (s : State), d.typ = 0x10 ∧ (cyCheck s d).1 = true ∧ mgmtReqOf (plain s d) = ⟨reqid, 1, addr, cnt, l⟩ ∧ ((hostState s d.sender).kept.find? (fun k => k.reqid == reqid) = some x)) ∧
    (∃ (_port : Port) (d : Datagram) (reqid : Nat) (v : Word) (s : State), d.typ = 0x10 ∧ (cyCheck s d).1 = true ∧ mgmtReqOf (plain s d) = ⟨reqid, 2, 0x1301, 1, [v]⟩ ∧ d.len = 16 ∧ (∀ x ∈ s.net.hosts, x.sender ≠ d.sender)) ∧
    (∃ (_port : Port) (d : Datagram) (reqid addr cnt : Nat) (l : List Word) (s : State), d.typ = 0x10 ∧ (cyCheck s d).1 = true ∧ mgmtReqOf (plain s d) = ⟨reqid, 2, addr, cnt, l⟩ ∧ d.len = 12 + 4 * cnt ∧ l.length = cnt ∧ (∀ x ∈ s.net.hosts, x.sender ≠ d.sender) ∧ addr + cnt ≤ pageEnd addr ∧ l ≠ [] ∧ hostMayWrite addr = false) ∧
    (∃ (_port : Port) (d : Datagram) (reqid addr cnt : Nat) (l : List Word) (s : State), d.typ = 0x10 ∧ (cyCheck s d).1 = true ∧ mgmtReqOf (plain s d) = ⟨reqid, 2, addr, cnt, l⟩ ∧ d.len = 12 + 4 * cnt ∧ l.length = cnt ∧ (∀ x ∈ s.net.hosts, x.sender ≠ d.sender) ∧ pageEnd addr < addr + cnt) :=
  ⟨⟨.b, hostMsg 0x10 (beBytes 12 0x000000090100000000080001), 9, 8, 2, [], ⟨9, .mgmtReply 0x80000001 9 2 0 false 8 []⟩, ({ onAt 6 with keys := { lineKey := some testKey, anchor := some testAnchor }, tally := { hosts := [⟨0x80000001, 0⟩] }, net := { hosts := [{ sender := 0x80000001, kept := [⟨9, .mgmtReply 0x80000001 9 2 0 false 8 []⟩] }] } }), by decide +kernel⟩,
   ⟨.a, hostMsg 0x10 (beBytes 16 0x00000009020000001301000000000101), 9, 0x0101, ({ onAt 6 with keys := { lineKey := some testKey, anchor := some testAnchor }, tally := { hosts := [⟨0x80000001, 0⟩] } }), by decide +kernel⟩,
   ⟨.a, hostMsg 0x10 (beBytes 16 0x00000009020000001804000000000005), 9, 0x1804, 1, [5], ({ onAt 6 with keys := { lineKey := some testKey, anchor := some testAnchor }, tally := { hosts := [⟨0x80000001, 0⟩] } }), by decide +kernel⟩,
   ⟨.a, hostMsg 0x10 (beBytes 20 0x000000090200000016ff00010000000500000006), 9, 0x16FF, 2, [5, 6], ({ onAt 6 with keys := { lineKey := some testKey, anchor := some testAnchor }, tally := { hosts := [⟨0x80000001, 0⟩] } }), by decide +kernel⟩⟩

theorem test_register_accesses_through_the_bus_and_management_7 :
    (∃ (_port : Port) (d : Datagram) (reqid addr cnt : Nat) (l : List Word) (s : State), d.typ = 0x10 ∧ (cyCheck s d).1 = true ∧ mgmtReqOf (plain s d) = ⟨reqid, 2, addr, cnt, l⟩ ∧ (∀ x ∈ s.net.hosts, x.sender ≠ d.sender) ∧ (d.len ≠ 12 + 4 * cnt ∨ l.length ≠ cnt)) :=
  ⟨.a, hostMsg 0x10 (beBytes 16 0x00000009020000001301000100000005), 9, 0x1301, 2, [5], ({ onAt 6 with keys := { lineKey := some testKey, anchor := some testAnchor }, tally := { hosts := [⟨0x80000001, 0⟩] } }), by decide +kernel⟩


theorem test_service_serial_port_and_key_plug_1 :
    (∃ (f : SspFrame) (s : State), serialSlave s = true ∧ s.tally.erasing = false ∧ frameIs s f 1 = true ∧ pageListed (frameAddr s f) = true ∧ frameAddr s f + frameCount s f ≤ pageEnd (frameAddr s f) ∧ (∀ k : Fin 256, k.val < (frameCount s f) → isRegister ((frameAddr s f) + k.val) = true ∧ workHidden s ((frameAddr s f) + k.val) = false ∧ rxWord ((frameAddr s f) + k.val) = false ∧ viewedWord s ((frameAddr s f) + k.val) = false ∧ lowHalf ((frameAddr s f) + k.val) = false ∧ highHalf ((frameAddr s f) + k.val) = false ∧ accMask ((frameAddr s f) + k.val) .rc = 0)) ∧
    (∃ (f : SspFrame) (v : Word) (s : State), serialSlave s = true ∧ s.tally.erasing = false ∧ s.mode = 9 ∧ frameIs s f 2 = true ∧ frameAddr s f = 0x1730 ∧ frameCount s f = 1 ∧ (frameWords s f).getD 1 0 = v) ∧
    (∃ (f : SspFrame) (s : State), serialSlave s = true ∧ s.tally.erasing = false ∧ frameIs s f 2 = true ∧ frameAddr s f + frameCount s f ≤ pageEnd (frameAddr s f) ∧ sspMayWrite s (frameAddr s f) = false) ∧
    (∃ (_f : SspFrame) (s : State), serialSlave s = true ∧ s.tally.erasing = true) :=
  ⟨⟨{ rising := [0x10002001, 0, 0, 0, 0], falling := [0x10002001, 0, 0, 0, 0] }, { onAt 9 with pwr := { phase := .running, booted := true, serialB := true } }, by decide +kernel⟩,
   ⟨{ rising := [0x205CC000, 1], falling := [0x205CC000, 1] }, 1, { onAt 9 with pwr := { phase := .running, booted := true, serialB := true } }, by decide⟩,
   ⟨{ rising := [0x204C0400, 5], falling := [0x204C0400, 5] }, { onAt 9 with pwr := { phase := .running, booted := true, serialB := true } }, by decide⟩,
   ⟨{ rising := [0x10002001, 0, 0, 0], falling := [0x10002001, 0, 0, 0] }, { onAt 9 with pwr := { phase := .running, booted := true, serialB := true }, tally := { erasing := true } }, by decide⟩⟩

theorem test_service_serial_port_and_key_plug_2 :
    (∃ (f : SspFrame) (s : State), serialSlave s = true ∧ s.tally.erasing = false ∧ frameIs s f 14 = true ∧ (frameWords s f).getD 1 0 = 0x45524153) ∧
    (∃ (f : SspFrame) (s : State), serialSlave s = true ∧ s.tally.erasing = false ∧ frameIs s f 14 = true ∧ (frameWords s f).getD 1 0 ≠ 0x45524153) ∧
    (∃ (f : SspFrame) (kind : Nat) (s : State), serialSlave s = true ∧ s.tally.erasing = false ∧ frameFault s f = kind ∧ kind ≠ 0 ∧ kind ≠ 5) ∧
    (∃ (f : SspFrame) (s : State), serialSlave s = true ∧ s.tally.erasing = false ∧ frameFault s f = 5) :=
  ⟨⟨{ rising := [0xE0000000, 0x45524153], falling := [0xE0000000, 0x45524153] }, { onAt 9 with pwr := { phase := .running, booted := true, serialB := true }, keys := { lineKey := some testKey, anchor := some 5 } }, by decide⟩,
   ⟨{ rising := [0xE0000000, 7], falling := [0xE0000000, 7] }, { onAt 9 with pwr := { phase := .running, booted := true, serialB := true } }, by decide⟩,
   ⟨{ rising := [0x10002001, 0, 0], falling := [0x10002001, 0, 0] }, 2, { onAt 9 with pwr := { phase := .running, booted := true, serialB := true } }, by decide⟩,
   ⟨{ rising := [0], falling := [0], gap := 0 }, { onAt 9 with pwr := { phase := .running, booted := true, serialB := true } }, by decide⟩⟩

theorem test_service_serial_port_and_key_plug_3 :
    (∃ (s : State), s.alive = true ∧ s.tally.erasing = true) ∧
    (∃ (m : Meter) (x : Nat) (s : State), s.live = true ∧ s.mode = 2 ∧ s.tally.windowOpen = true ∧ linkUp s .b = false ∧ s.pwr.serialB = false ∧ switchClosed s .b = false ∧ m.vB < 200 ∧ s.pwr.lowB = some x ∧ x + 20000000 ≤ s.pwr.ticks ∧ s.modes.at_ + 20000000 ≤ s.pwr.ticks) ∧
    (∃ (m : Meter) (s : State), s.live = true ∧ s.mode = 2 ∧ s.tally.windowOpen = true ∧ linkUp s .b = false ∧ s.pwr.serialB = false ∧ switchClosed s .b = false ∧ 200 ≤ m.vB) ∧
    (∃ (s : State), s.live = true ∧ s.mode = 2 ∧ s.tally.windowOpen = true ∧ s.tally.identify = true ∧ s.tally.identAt + 20000000 ≤ s.pwr.ticks) :=
  ⟨⟨{ onAt 9 with pwr := { phase := .running, booted := true, serialB := true }, tally := { erasing := true } }, by decide⟩,
   ⟨{}, 0, { onAt 2 with pwr := { phase := .running, booted := true, lowB := some 0, ticks := 20000000 }, tally := { windowOpen := true }, keys := { lineKey := some testKey, anchor := some testAnchor } }, by decide⟩,
   ⟨{ vB := 3000 }, { onAt 2 with pwr := { phase := .running, booted := true, lowB := some 0, ticks := 20000000 }, tally := { windowOpen := true }, keys := { lineKey := some testKey, anchor := some testAnchor } }, by decide⟩,
   ⟨{ onAt 2 with pwr := { phase := .running, booted := true, serialB := true, ticks := 20000000 }, tally := { windowOpen := true, identify := true }, keys := { lineKey := some testKey, anchor := some testAnchor } }, by decide⟩⟩

theorem test_service_serial_port_and_key_plug_4 :
    (∃ (s : State), s.live = true ∧ s.mode = 2 ∧ s.tally.windowOpen = true ∧ s.tally.identify = true ∧ s.pwr.ticks < s.tally.identAt + 20000000) ∧
    (∃ (s : State), s.live = true ∧ s.mode = 2 ∧ s.tally.windowOpen = true ∧ s.pwr.serialB = true) ∧
    (∃ (w1 w2 : Word) (s : State), (probeAnswer s w1 = false ∨ w2 ≠ 0x4B500001)) ∧
    (∃ (s : State), s.live = true ∧ s.mode = 2 ∧ s.tally.windowOpen = true ∧ s.pwr.serialB = true) :=
  ⟨⟨{ onAt 2 with pwr := { phase := .running, booted := true, serialB := true, ticks := 19999999 }, tally := { windowOpen := true, identify := true }, keys := { lineKey := some testKey, anchor := some testAnchor } }, by decide⟩,
   ⟨{ onAt 2 with pwr := { phase := .running, booted := true, serialB := true }, tally := { windowOpen := true, identify := true }, keys := { lineKey := some testKey, anchor := some testAnchor } }, by decide⟩,
   ⟨0xA5000001, 7, { onAt 2 with pwr := { phase := .running, booted := true, serialB := true }, tally := { windowOpen := true, identify := true }, keys := { lineKey := some testKey, anchor := some testAnchor } }, by decide⟩,
   ⟨{ onAt 2 with pwr := { phase := .running, booted := true, serialB := true }, tally := { windowOpen := true, identify := true }, keys := { lineKey := some testKey, anchor := some testAnchor } }, by decide⟩⟩

theorem test_service_serial_port_and_key_plug_5 :
    (∃ (s : State), s.live = true ∧ s.mode = 2 ∧ s.tally.windowOpen = true ∧ passed s s.modes.at_ 2 = true ∧ s.tally.checked = true ∧ s.tally.loadPos = none ∧ enrolled s = true ∧ s.get ID_DOMST_WSTATE = 0) ∧
    (∃ (p : Nat) (x : SealRec) (im : Image) (s : State), s.live = true ∧ s.mode = 2 ∧ s.tally.windowOpen = true ∧ passed s s.modes.at_ 2 = true ∧ s.tally.checked = true ∧ s.tally.loadPos = some p ∧ s.tally.adapter = false ∧ s.flash.sealAt 0 p = some x ∧ s.flash.vouched x = some im ∧ p < 8 ∧ im.params = [] ∧ im.rest = [] ∧ worldOk im.world = true ∧ x.origin < 8 ∧ s.get ID_DOMST_WSTATE = 0) ∧
    (∃ (_l : List Word) (s : State), s.live = true ∧ s.mode = 3 ∧ s.modes.restart = none ∧ s.tally.keyLen = 0) ∧
    (∃ (n : Nat) (_l : List Word) (s : State), s.live = true ∧ s.mode = 3 ∧ s.modes.restart = none ∧ s.tally.keyLen ≠ 0 ∧ s.tally.keyWord < s.tally.keyLen ∧ n = min 256 (s.tally.keyLen - s.tally.keyWord)) :=
  ⟨⟨{ onAt 2 with pwr := { phase := .running, booted := true, ticks := 400000000 }, tally := { windowOpen := true, checked := true }, keys := { lineKey := some testKey, anchor := some testAnchor } }, by decide⟩,
   ⟨3, { region := 0, pos := 3, comseq := 8, origin := 1, len := 192, digest := testImage.digest }, testImage, { onAt 2 with pwr := { phase := .running, booted := true, ticks := 400000000 }, tally := { windowOpen := true, checked := true, loadPos := some 3 }, keys := { lineKey := some testKey, anchor := some testAnchor }, flash := { own := ⟨(Vector.replicate 8 []).set 3 testImage.bytes⟩, seals := [{ region := 0, pos := 3, comseq := 8, origin := 1, len := 192, digest := testImage.digest }] } }, by decide +kernel⟩,
   ⟨[0, 0, 4096], { onAt 3 with pwr := { phase := .running, booted := true, serialB := true }, tally := { keyTries := 2 }, keys := { lineKey := some testKey, anchor := some testAnchor } }, by decide⟩,
   ⟨44, [0x01020304], { onAt 3 with pwr := { phase := .running, booted := true, serialB := true }, tally := { keyWord := 256, keyTries := 2, keyLen := 300 }, keys := { lineKey := some testKey, anchor := some testAnchor } }, by decide⟩⟩

theorem test_service_serial_port_and_key_plug_6 :
    (∃ (n : Nat) (w : Word) (_l : List Word) (s : State), s.live = true ∧ s.mode = 3 ∧ s.modes.restart = none ∧ s.tally.keyLen ≠ 0 ∧ s.tally.keyWord < s.tally.keyLen ∧ n = min 256 (s.tally.keyLen - s.tally.keyWord) ∧ w ≠ replyHeader false 0 n ∧ s.tally.keyTries < 3) ∧
    (∃ (n : Nat) (w : Word) (_l : List Word) (s : State), s.live = true ∧ s.mode = 3 ∧ s.modes.restart = none ∧ s.tally.keyLen ≠ 0 ∧ s.tally.keyWord < s.tally.keyLen ∧ n = min 256 (s.tally.keyLen - s.tally.keyWord) ∧ w ≠ replyHeader false 0 n ∧ s.tally.keyTries = 3 ∧ s.tally.checked = true ∧ s.tally.loadPos = none ∧ enrolled s = true ∧ s.get ID_DOMST_WSTATE = 0) ∧
    (∃ (im : Image) (s : State), s.live = true ∧ s.mode = 3 ∧ s.modes.restart = none ∧ plugRead s = true ∧ plugImage s = im ∧ imageCheck s im = 0 ∧ linkUp s .a = false ∧ linkUp s .b = false) ∧
    (∃ (im : Image) (s : State), s.live = true ∧ s.mode = 3 ∧ s.modes.restart = none ∧ plugRead s = true ∧ plugImage s = im ∧ imageCheck s im ≠ 0 ∧ s.tally.checked = true ∧ s.tally.loadPos = none ∧ enrolled s = true ∧ s.get ID_DOMST_WSTATE = 0) :=
  ⟨⟨44, 0, [], { onAt 3 with pwr := { phase := .running, booted := true, serialB := true }, tally := { keyWord := 256, keyTries := 2, keyLen := 300 }, keys := { lineKey := some testKey, anchor := some testAnchor } }, by decide⟩,
   ⟨44, 0, [], { onAt 3 with pwr := { phase := .running, booted := true, serialB := true }, tally := { keyWord := 256, keyTries := 3, keyLen := 300, checked := true }, keys := { lineKey := some testKey, anchor := some testAnchor } }, by decide⟩,
   ⟨testImage, { onAt 3 with pwr := { phase := .running, booted := true, serialB := true }, tally := { keyLen := 48, keyWord := 48, plug := testImage.bytes }, keys := { lineKey := some testKey, anchor := some testAnchor } }, by decide +kernel⟩,
   ⟨testNolive, { onAt 3 with pwr := { phase := .running, booted := true, serialB := true }, tally := { checked := true, keyLen := 48, keyWord := 48, plug := testNolive.bytes }, keys := { lineKey := some testKey, anchor := some 5 } }, by decide +kernel⟩⟩


theorem test_await_type_two_completes_at_its_target_instant :
    (∃ (e : Fin 8) (w tc : Nat) (s : State), s.alive = true ∧ s.engines[e].inj = none ∧ (s.get (PE_ST_STATE e) = 1 ∨ s.get (PE_ST_STATE e) = 2) ∧ peInstr s e (s.get (PE_ST_PC e)) = w ∧ peKind w = .await ∧ ib w 9 2 = 2 ∧ s.engines[e].lastPc ≠ some (s.get (PE_ST_PC e)) ∧ s.engines[e].tc = some tc) ∧
    (∃ (e : Fin 8) (w : Nat) (s : State), s.alive = true ∧ s.engines[e].inj = none ∧ (s.get (PE_ST_STATE e) = 1 ∨ s.get (PE_ST_STATE e) = 2) ∧ peInstr s e (s.get (PE_ST_PC e)) = w ∧ peKind w = .await ∧ ib w 9 2 = 2 ∧ s.engines[e].lastPc ≠ some (s.get (PE_ST_PC e)) ∧ s.engines[e].tc = none) ∧
    (∃ (e : Fin 8) (w tg : Nat) (s : State), s.alive = true ∧ s.engines[e].inj = none ∧ (s.get (PE_ST_STATE e) = 1 ∨ s.get (PE_ST_STATE e) = 2) ∧ peInstr s e (s.get (PE_ST_PC e)) = w ∧ peKind w = .await ∧ ib w 9 2 = 2 ∧ s.engines[e].lastPc = some (s.get (PE_ST_PC e)) ∧ s.engines[e].target = some tg) :=
  ⟨⟨2, 0x1400, 7, (State.set (State.set (State.set (State.set ({ onAt 6 with engines := Vector.replicate 8 { cycle := true, tc := some 7 } }) (PE_IM_EVEN 2 0) 0x1400) (PE_ST_STATE 2) 1) PE_GST_RUNNING 4) (PE_U 2) 5), by decide⟩,
   ⟨2, 0x1400, (State.set (State.set (State.set (State.set ({ onAt 6 with engines := Vector.replicate 8 { cycle := true } }) (PE_IM_EVEN 2 0) 0x1400) (PE_ST_STATE 2) 1) PE_GST_RUNNING 4) (PE_U 2) 5), by decide⟩,
   ⟨2, 0x1400, 7, (State.set (State.set (State.set (State.set ({ onAt 6 with engines := Vector.replicate 8 { cycle := true, lastPc := some 0, target := some 7 } }) (PE_IM_EVEN 2 0) 0x1400) (PE_ST_STATE 2) 1) PE_GST_RUNNING 4) (PE_U 2) 5), by decide⟩⟩


theorem test_fwrel_shows_the_running_firmware_after_secure_boot_1 :
    (∃ (boot : Boot) (s : State), s.pwr.phase = .inrush ∧ s.flash.trial = none ∧ s.flash.activeB = false ∧ boot.okA = true) ∧
    (∃ (boot : Boot) (s : State), s.pwr.phase = .inrush ∧ s.flash.trial = none ∧ s.flash.activeB = true ∧ s.flash.hasB = true ∧ boot.okB = true) ∧
    (∃ (boot : Boot) (s : State), s.pwr.phase = .inrush ∧ s.flash.trial = none ∧ boot.okA = false ∧ boot.okB = false) ∧
    (∃ (boot : Boot) (s : State), s.pwr.phase = .dieReset ∧ s.flash.trial = none ∧ s.flash.activeB = false ∧ boot.okA = true) :=
  ⟨⟨⟨true, true⟩, { State.reset with pwr := { phase := .inrush } }, by decide⟩,
   ⟨⟨true, true⟩, { State.reset with pwr := { phase := .inrush }, flash := { activeB := true, hasB := true, relB := 0x40003 } }, by decide⟩,
   ⟨⟨false, false⟩, { State.reset with pwr := { phase := .inrush } }, by decide⟩,
   ⟨⟨true, true⟩, { State.reset with pwr := { phase := .dieReset } }, by decide⟩⟩

theorem test_fwrel_shows_the_running_firmware_after_secure_boot_2 :
    (∃ (boot : Boot) (s : State), s.pwr.phase = .dieReset ∧ s.flash.trial = none ∧ s.flash.activeB = true ∧ s.flash.hasB = true ∧ boot.okB = true) ∧
    (∃ (boot : Boot) (s : State), s.pwr.phase = .dieReset ∧ s.flash.trial = none ∧ boot.okA = false ∧ boot.okB = false) ∧
    (∃ (boot : Boot) (s : State), s.live = true ∧ s.modes.restart.isSome = true ∧ s.flash.trial = none ∧ s.flash.activeB = false ∧ boot.okA = true) ∧
    (∃ (boot : Boot) (s : State), s.live = true ∧ s.modes.restart.isSome = true ∧ s.flash.trial = none ∧ s.flash.activeB = true ∧ s.flash.hasB = true ∧ boot.okB = true) :=
  ⟨⟨⟨true, true⟩, { State.reset with pwr := { phase := .dieReset }, flash := { activeB := true, hasB := true, relB := 0x40003 } }, by decide⟩,
   ⟨⟨false, false⟩, { State.reset with pwr := { phase := .dieReset } }, by decide⟩,
   ⟨⟨true, true⟩, { onAt 6 with modes := { restart := some 5 } }, by decide⟩,
   ⟨⟨true, true⟩, { onAt 6 with modes := { restart := some 5 }, flash := { activeB := true, hasB := true, relB := 0x40003 } }, by decide⟩⟩

theorem test_fwrel_shows_the_running_firmware_after_secure_boot_3 :
    (∃ (boot : Boot) (s : State), s.live = true ∧ s.modes.restart.isSome = true ∧ s.flash.trial = none ∧ boot.okA = false ∧ boot.okB = false) :=
  ⟨⟨false, false⟩, { onAt 6 with modes := { restart := some 5 } }, by decide⟩


theorem test_the_station_learnt_is_that_of_the_last_good_hello :
    (∃ (_port : Port) (d : Datagram) (h : Hello) (s : State), d.typ = 0x40 ∧ (cyCheck s d).1 = true ∧ helloOf (plain s d) = h) ∧
    (∃ (_port : Port) (d : Datagram) (s : State), d.typ = 0x40 ∧ (cyCheck s d).1 = false) ∧
    (∃ (port : Port) (s : State), s.alive = true ∧ linkUp s port = true) :=
  ⟨⟨.a, sealed 0x40 3 1 (Payload.hello { stn := 23, ownValid := true, tdig := 99 } 1).bytes, { stn := 23, ownValid := true, tdig := 99 }, ({ onAt 6 with keys := { lineKey := some testKey, anchor := some testAnchor }, tally := { hosts := [⟨0x80000001, 0⟩] } }), by decide +kernel⟩,
   ⟨.a, { typ := 0x40, sender := 3, tag := 5 }, (State.set ({ onAt 6 with keys := { lineKey := some testKey, anchor := some testAnchor }, tally := { hosts := [⟨0x80000001, 0⟩] } }) (CP_NBR_STNA) (9)), by decide⟩,
   ⟨.a, ((onAt 6).set PORT_ST_A 0x20).set CP_NBR_STNA 9, by decide⟩⟩


/-- The counter of a module that runs out of START. -/
def ticking (ns : Nat) : State := { onAt 6 with pwr := { phase := .running, booted := true, released := true }, time := { ns := ns } }

theorem test_an_empty_queue_lets_one_tick_pass :
    (∃ s : State, s.pending = [] ∧ s.alive = true ∧ s.pwr.released = true ∧ s.time.frac < 2 ^ 32 ∧ s.time.ns + increment s / 2 ^ 32 + 1 < 1000000000 ∧
      s.net.features = [] ∧ s.net.again = [] ∧ s.net.wireA = none ∧ s.net.wireB = none ∧ s.tx = [] ∧ s.bus.sensed = [] ∧ (∀ e : Fin 8, s.engines[e].gcmd = []) ∧
      (∀ i : Fin 16, s.get (LD_ATT_ATT i) = 0 ∧ s.slots[i].stop = []) ∧ s.get AUX_ST_CLAMP = 0 ∧ driverOn s = false) ∧
    (∃ s : State, s.pending = [] ∧ s.alive = true ∧ s.pwr.released = true ∧ s.time.frac < 2 ^ 32 ∧ s.time.ns < 1000000000 ∧ increment s < 1000000000 ∧
      1000000000 * 2 ^ 32 ≤ s.time.ns * 2 ^ 32 + s.time.frac + increment s) ∧
    (∃ s : State, s.pending = [] ∧ s.alive = false) :=
  ⟨⟨ticking 10, by decide⟩, ⟨(ticking 999999999).set TIME_INC_FRAC 0 |>.set TIME_INC_NS 0 |> fun s => { s with time := { s.time with ns := 1000000000 - 1, frac := 2 ^ 32 - 1 } } |>.set TIME_INC_FRAC 1, by decide⟩, ⟨State.reset, by decide⟩⟩


theorem test_every_step_keeps_registers_and_counter_legal : ∃ s t : State, s.inv ∧ step s = .next t :=
  ⟨{ onAt 6 with pending := [.pllLockLoss] }, _, by decide, rfl⟩


theorem test_only_enrolment_and_erase_change_the_keys :
    ∃ (c : Instr) (s t : State), exec c s = .next t ∧ (∀ src nonce cipher tag, c ≠ .enrollKey src nonce cipher tag) ∧ (∀ f, c ≠ .sspEraseToBlank f) ∧ s.keys.lineKey.isSome = true :=
  ⟨.pllLockLoss, { onAt 6 with keys := { lineKey := some 5 } }, _, rfl, fun _ _ _ _ h => Instr.noConfusion h, fun _ h => Instr.noConfusion h, rfl⟩


theorem test_write_numbers_and_wear_never_fall_and_the_queue_is_untouched :
    ∃ (c : Instr) (s t : State) (k : Fin 24), exec c s = .next t ∧ s.flash.wear[k] ≤ 0xFFFF :=
  ⟨.pllLockLoss, onAt 6, _, 3, rfl, by decide⟩
end

section
/-!
PROOFS. START (16 R406): what ID_FWREL shows after it, from each of the three ways it begins (00 R4).
-/

namespace Sys2Proof.Machine

/-- What an update applied for each element of a list leaves, the fold leaves. -/
theorem foldl_leaves {α β : Type} (g : State → β) (l : List α) (f : State → α → State) (h : ∀ s a, g (f s a) = g s) (s : State) :
    g (l.foldl f s) = g s :=
  List.foldlRecOn l f (motive := fun t => g t = g s) rfl fun t ht a _ => (h t a).trans ht

/-- A word that the register file does not list reads its reset value. -/
theorem Regs.read_unlisted (rs : List (Nat × Word)) (a : Nat) (h : ∀ p ∈ rs, p.1 ≠ a) : Regs.read rs a = resetWord a := by
  induction rs with
  | nil => rfl
  | cons p rest ih =>
    rw [Regs.read, if_neg (h p (by simp))]
    exact ih fun q hq => h q (by simp [hq])

/-! ### What START's updates leave of ID_FWREL, the release of SUP and the flash -/

/-- ID_FWREL, whether the boot ROM has released SUP, and the flash. -/
def State.bootView (s : State) : Word × Bool × FlashState := (s.word 2, s.pwr.booted, s.flash)

theorem bootView_setWord (s : State) (a : Nat) (v : Word) (h : a ≠ 2) : (s.setWord a v).bootView = s.bootView := by
  simp [State.bootView, State.word_setWord_ne _ _ _ _ h.symm]

theorem bootView_set (s : State) (f : Field) (v : Nat) (h : f.word ≠ 2) : (s.set f v).bootView = s.bootView := bootView_setWord _ _ _ h

theorem bootView_setB (s : State) (f : Field) (b : Bool) (h : f.word ≠ 2) : (s.setB f b).bootView = s.bootView := bootView_setWord _ _ _ h

theorem bootView_setI (s : State) (f : Field) (v : Int) (h : f.word ≠ 2) : (s.setI f v).bootView = s.bootView := bootView_setWord _ _ _ h

/-- A change of the power die's state that leaves the release of SUP. -/
theorem bootView_modPwr (s : State) (f : PwrState → PwrState) (h : (f s.pwr).booted = s.pwr.booted) : (s.modPwr f).bootView = s.bootView := by
  simp [State.bootView, h]

theorem bootView_modModes (s : State) (f : ModeState → ModeState) : (s.modModes f).bootView = s.bootView := rfl

theorem bootView_time (s : State) (x : TimeState) : { s with time := x }.bootView = s.bootView := rfl

theorem bootView_putPort (s : State) (p : Port) (st : Nat) : (putPort s p st).bootView = s.bootView := by
  have hstate : (portState p).word ≠ 2 := by cases p <;> decide
  have hamp : (portAmp p).word ≠ 2 := by cases p <;> decide
  unfold putPort watchLow
  rw [bootView_modPwr _ _ rfl]
  split
  · exact bootView_set _ _ _ hstate
  · rw [bootView_set _ _ _ hamp, bootView_set _ _ _ hstate]

theorem bootView_followEnable (s : State) (p : Port) : (followEnable s p).bootView = s.bootView := by
  unfold followEnable
  split
  · exact bootView_putPort _ _ _
  · split
    · exact bootView_putPort _ _ _
    · rfl

theorem bootView_disarmTwist (s : State) : (disarmTwist s).bootView = s.bootView := by
  refine Eq.trans (bootView_modPwr _ (fun p => { p with twist := 0, calm := 0 }) rfl) ?_
  rw [bootView_set _ _ _ (by decide), bootView_set _ _ _ (by decide), bootView_set _ _ _ (by decide)]

theorem bootView_showArmed (s : State) : (showArmed s).bootView = s.bootView := by
  unfold showArmed
  split
  · exact bootView_set _ _ _ (by decide)
  · rw [bootView_modPwr _ _ rfl, bootView_set _ _ _ (by decide), bootView_set _ _ _ (by decide)]

theorem bootView_showInputs (s : State) : (showInputs s).bootView = s.bootView := by
  unfold showInputs
  rw [bootView_showArmed, bootView_setB _ _ _ (by decide), bootView_setB _ _ _ (by decide)]

/-- START begins with ID_FWREL at 0, SUP held, and the flash as it was. -/
theorem bootView_freshState (s : State) : (freshState s).bootView = (0, false, s.flash) := by
  unfold freshState
  simp only [bootView_showInputs, bootView_followEnable, bootView_disarmTwist]
  rw [bootView_set _ _ _ (by decide)]
  refine Prod.ext ?_ rfl
  refine (Regs.read_unlisted _ _ ?_).trans (show resetWord 2 = 0 by decide)
  intro p hp h2
  simp [h2] at hp

theorem bootView_showKeys (s : State) : (showKeys s).bootView = s.bootView := by
  unfold showKeys
  rw [bootView_setB _ _ _ (by decide), bootView_setWord _ _ _ (by decide), bootView_setWord _ _ _ (by decide),
    foldl_leaves State.bootView _ _ fun s v => bootView_setWord s _ _ (by omega), bootView_setB _ _ _ (by decide), bootView_setB _ _ _ (by decide)]

theorem bootView_loadY (s : State) (y : Int) : (loadY s y).bootView = s.bootView := by
  refine Eq.trans (b := (((s.set TIME_INC_FRAC (incOf y).toNat).set TIME_INC_NS ((incOf y).toNat / 2 ^ 32)).setI TIME_Y_Y (roundEven y (2 ^ 24))).bootView) rfl ?_
  rw [bootView_setI _ _ _ (by decide), bootView_set _ _ _ (by decide), bootView_set _ _ _ (by decide)]

/-- SUP shows the release of the running half in ID_FWREL (00 R4, R5). -/
theorem bootView_fillIdentity (s : State) (cause : Nat) (half trial : Bool) :
    (fillIdentity s cause half trial).bootView = (releaseWord (halfRelease s half), s.pwr.booted, s.flash) := by
  have hwear : ∀ (l : List Nat) (v : State → Nat → Nat) (s : State),
      (l.foldl (fun s n => s.set (TL_WEAR_COMMITS (n / 8) (n % 8)) (v s n)) s).bootView = s.bootView := fun l v =>
    foldl_leaves State.bootView l _ fun s n => bootView_set s _ _ (by simp only [TL_WEAR_COMMITS]; omega)
  have hpub : ∀ (l : List Nat) (v : Nat → Word) (s : State), (l.foldl (fun s n => s.setWord (0x1810 + n) (v n)) s).bootView = s.bootView := fun l v =>
    foldl_leaves State.bootView l _ fun s n => bootView_setWord s _ _ (by omega)
  unfold fillIdentity
  simp (disch := decide) only [bootView_setB, bootView_set, bootView_setWord, bootView_showKeys, hwear, hpub]
  simp [State.bootView]

/-! ### START -/

/-- Secure boot takes the active half when it verifies (16 R406). -/
theorem bootChoice_active (s : State) (boot : Boot) (b : Bool) (ht : s.flash.trial = none) (hb : s.flash.activeB = b) (hok : halfOk s boot b = true) :
    bootChoice s boot = (some b, false, false) := by
  simp [bootChoice, ht, hb, hok]

/-- Without a half that verifies nothing boots (16 R406). -/
theorem bootChoice_unverified (s : State) (boot : Boot) (ht : s.flash.trial = none) (hA : boot.okA = false) (hB : boot.okB = false) :
    bootChoice s boot = (none, false, false) := by
  have hno : ∀ b, halfOk s boot b = false := fun b => by cases b <;> simp [halfOk, hA, hB]
  simp [bootChoice, ht, hno]

/-- A START that boots a half shows that half's release. -/
theorem startState_boots (s : State) (boot : Boot) (b trial : Bool) (h : bootChoice s boot = (some b, trial, false)) :
    (startState s boot).word 2 = releaseWord (halfRelease s b) ∧ (startState s boot).pwr.booted = true := by
  have hfresh : (freshState s).flash = s.flash := congrArg (fun v => v.2.2) (bootView_freshState s)
  have hview : (startState s boot).bootView = (releaseWord (halfRelease s b), true,
      { s.flash with run := (s.flash.run + 1) % 2 ^ 32, trialBooted := trial }) := by
    unfold startState
    simp (disch := decide) only [h, Bool.false_eq_true, if_false, bootView_set, bootView_modModes, bootView_loadY, bootView_time, bootView_fillIdentity,
      halfRelease, hfresh]
  exact ⟨congrArg (fun v => v.1) hview, congrArg (fun v => v.2.1) hview⟩

/-- A START in which no half verifies leaves ID_FWREL at 0. -/
theorem startState_unverified (s : State) (boot : Boot) (h : bootChoice s boot = (none, false, false)) :
    (startState s boot).word 2 = 0 ∧ (startState s boot).pwr.booted = false := by
  have hview : (startState s boot).bootView = (0, false, s.flash) := by
    simp only [startState, h]
    exact bootView_freshState s
  exact ⟨congrArg (fun v => v.1) hview, congrArg (fun v => v.2.1) hview⟩

/-! ### The three ways START begins -/

theorem exec_inrushEnd (s : State) (boot : Boot) (h : s.pwr.phase = .inrush) : exec (.inrushEnd boot) s = .next (startState s boot) := by
  change execInrushEnd boot s = _
  simp [execInrushEnd, h]

theorem exec_controllerResetRelease (s : State) (boot : Boot) (h : s.pwr.phase = .dieReset) :
    exec (.controllerResetRelease boot) s = .next (startState s boot) := by
  change execControllerResetRelease boot s = _
  simp [execControllerResetRelease, h]

/-- What the flash says of the firmware: the halves' releases, whether B was staged, the active half and the half on trial. -/
def FlashState.firmware (f : FlashState) : Nat × Nat × Bool × Bool × Option Bool := (f.relA, f.relB, f.hasB, f.activeB, f.trial)

theorem showArmed_flash (s : State) : (showArmed s).flash = s.flash := congrArg (fun v => v.2.2) (bootView_showArmed s)

theorem closePub_flash (s : State) (k : Fin 16) (fin step : Bool) (n : Nat) : (closePub s k fin step n).flash = s.flash := by
  unfold closePub
  dsimp only
  split
  · split <;> rfl
  · rfl

theorem streamRecord_flash (s : State) (i : Fin 16) (r : Landed × Nat) : (streamRecord s i r).flash = s.flash := by
  refine foldl_leaves State.flash _ _ (fun s k => ?_) s
  split
  · dsimp only
    split
    · exact closePub_flash _ _ _ _ _
    · rfl
  · rfl

/-- Of the Landing's consumers the Deck writer alone reaches the flash: it may revoke a network lease, whose end is a message. -/
theorem deliverTo_flash (s : State) (i : Fin 16) (b : Nat) (l : List (Landed × Nat)) (hb : b ≠ 0) : (deliverTo s i b l).flash = s.flash := by
  unfold deliverTo
  rw [if_neg hb]
  split
  · exact foldl_leaves State.flash _ _ (fun s r => streamRecord_flash s i r) s
  · split
    · rfl
    · split
      · rfl
      · unfold feedPartition
        split
        · split <;> rfl
        · rfl

theorem takeRecords_flash (s : State) (i : Fin 16) (mask : Nat) (h : mask.testBit 0 = false) : (takeRecords s i mask).flash = s.flash := by
  unfold takeRecords
  generalize (if s.bit DK_ST_ON then 63 else 62) = ready
  split
  · rfl
  · refine foldl_leaves State.flash _ _ (fun t b => ?_) s
    split
    · rename_i hb
      refine deliverTo_flash _ _ _ _ ?_
      rintro rfl
      rw [Nat.testBit_and, Nat.testBit_and, h] at hb
      simp at hb
    · rfl

/-- The first part of an orderly restart (16 R415) leaves the flash. -/
theorem beginRestart_flash (s : State) (cause : Nat) : (beginRestart s cause).flash = s.flash := by
  unfold beginRestart
  dsimp only
  rw [foldl_leaves State.flash _ _ fun s k => ?_, foldl_leaves State.flash _ _ fun s i => takeRecords_flash s i 0b001110 (by decide), showArmed_flash]
  · rfl
  · split
    · exact closePub_flash _ _ _ _ _
    · rfl

/-- A message moves at most the MSEQ reservation in flash (14 R352). -/
theorem message_firmware (s : State) (ps : List Port) (h : IpHead) (x : Payload) (share : Bool) :
    (message s ps h x share).flash.firmware = s.flash.firmware := by
  unfold message
  split <;> rfl

theorem sendPub_firmware (s : State) (k : Fin 16) : (sendPub s k).flash.firmware = s.flash.firmware := by
  unfold sendPub
  split
  · rfl
  · exact message_firmware _ _ _ _ _

theorem flushStream_firmware (s : State) (k : Fin 16) (fuel : Nat) : (flushStream s k fuel).flash.firmware = s.flash.firmware := by
  induction fuel generalizing s with
  | zero => rfl
  | succ n ih =>
    unfold flushStream
    split
    · rfl
    · exact (ih _).trans (sendPub_firmware s k)

/-- An orderly restart begins START with the firmware halves as they were (16 R415). -/
theorem exec_orderlyRestart (s : State) (boot : Boot) (hlive : s.live = true) (hcause : s.modes.restart.isSome = true) :
    ∃ u : State, u.flash.firmware = s.flash.firmware ∧ exec (.orderlyRestart boot) s = .next (startState u boot) := by
  change ∃ u : State, _ ∧ execOrderlyRestart boot s = _
  simp only [execOrderlyRestart, hlive, hcause, Bool.true_or, Bool.and_self, if_true]
  refine ⟨_, ?_, rfl⟩
  rw [State.modPwr_flash, foldl_leaves (fun s : State => s.flash.firmware) _ _ fun s k => flushStream_firmware s k _]
  split
  · rfl
  · rw [beginRestart_flash]

/-! ### ID_FWREL after START, by what the flash said of the firmware before it -/

section
variable {s u : State} {boot : Boot} (hf : u.flash.firmware = s.flash.firmware) (ht : s.flash.trial = none)
include hf ht

theorem startState_halfA (hb : s.flash.activeB = false) (hok : boot.okA = true) :
    (startState u boot).word 2 = releaseWord s.flash.relA ∧ (startState u boot).pwr.booted = true := by
  simp only [FlashState.firmware, Prod.mk.injEq] at hf
  obtain ⟨hrelA, -, -, hactive, htrial⟩ := hf
  rw [← hrelA]
  exact startState_boots u boot false false (bootChoice_active u boot false (htrial.trans ht) (hactive.trans hb) hok)

theorem startState_halfB (hb : s.flash.activeB = true) (hhas : s.flash.hasB = true) (hok : boot.okB = true) :
    (startState u boot).word 2 = releaseWord s.flash.relB ∧ (startState u boot).pwr.booted = true := by
  simp only [FlashState.firmware, Prod.mk.injEq] at hf
  obtain ⟨-, hrelB, hstaged, hactive, htrial⟩ := hf
  have hverifies : halfOk u boot true = true := by simp [halfOk, hok, hstaged, hhas]
  rw [← hrelB]
  exact startState_boots u boot true false (bootChoice_active u boot true (htrial.trans ht) (hactive.trans hb) hverifies)

theorem startState_noHalf (hA : boot.okA = false) (hB : boot.okB = false) :
    (startState u boot).word 2 = 0 ∧ (startState u boot).pwr.booted = false := by
  simp only [FlashState.firmware, Prod.mk.injEq] at hf
  obtain ⟨-, -, -, -, htrial⟩ := hf
  exact startState_unverified u boot (bootChoice_unverified u boot (htrial.trans ht) hA hB)

end

/-- Settles O53: inrush's end, the die's release and an orderly restart each reach START with the firmware halves as they were, and START shows the release of
the half it boots, or 0 when none verifies. -/
theorem fwrelShowsTheRunningFirmwareAfterSecureBoot : Obligations.FwrelShowsTheRunningFirmwareAfterSecureBoot := by
  unfold Obligations.FwrelShowsTheRunningFirmwareAfterSecureBoot
  refine ⟨?_, ?_, ?_, ?_, ?_, ?_, ?_, ?_, ?_⟩
  · intro boot s hp ht hb hok
    exact ⟨_, exec_inrushEnd s boot hp, startState_halfA rfl ht hb hok⟩
  · intro boot s hp ht hb hhas hok
    exact ⟨_, exec_inrushEnd s boot hp, startState_halfB rfl ht hb hhas hok⟩
  · intro boot s hp ht hA hB
    exact ⟨_, exec_inrushEnd s boot hp, startState_noHalf rfl ht hA hB⟩
  · intro boot s hp ht hb hok
    exact ⟨_, exec_controllerResetRelease s boot hp, startState_halfA rfl ht hb hok⟩
  · intro boot s hp ht hb hhas hok
    exact ⟨_, exec_controllerResetRelease s boot hp, startState_halfB rfl ht hb hhas hok⟩
  · intro boot s hp ht hA hB
    exact ⟨_, exec_controllerResetRelease s boot hp, startState_noHalf rfl ht hA hB⟩
  · intro boot s hlive hcause ht hb hok
    obtain ⟨u, hf, hu⟩ := exec_orderlyRestart s boot hlive hcause
    exact ⟨_, hu, startState_halfA hf ht hb hok⟩
  · intro boot s hlive hcause ht hb hhas hok
    obtain ⟨u, hf, hu⟩ := exec_orderlyRestart s boot hlive hcause
    exact ⟨_, hu, startState_halfB hf ht hb hhas hok⟩
  · intro boot s hlive hcause ht hA hB
    obtain ⟨u, hf, hu⟩ := exec_orderlyRestart s boot hlive hcause
    exact ⟨_, hu, startState_noHalf hf ht hA hB⟩

end Sys2Proof.Machine
end

section
/-!
PROOFS. A world violation (17 R435, R443): what its count holds after it, and the refutation of the statement that ends the count at 255.
-/

namespace Sys2Proof.Machine

/-- A write that breaks its initiator's world is a violation and nothing else (17 R435). -/
theorem exec_registerWrite_breaksWorld (s : State) (p : Proc) (a : Nat) (v : Word) (h : breaksWorld s p a = true) :
    exec (.registerWrite (.proc p) a v) s = .next (violation s p true (0x40000000 + 4 * a)) := by
  have hshut : doorOpen s (.proc p) a = false := by
    simp only [breaksWorld, Bool.and_eq_true, Bool.not_eq_true'] at h
    simp [doorOpen, mayWrite, h.2]
  change Host.Outcome.next (atDoor s (.proc p) a _) = _
  rw [atDoor_shut _ _ _ _ hshut]
  simp [turnedAway, h]

/-- A violation counts in the 16 bits of WK_VINFO.COUNT, which stay at 0xFFFF (17 R443). -/
theorem violation_count (s : State) (p : Proc) (wr : Bool) (b : Nat) :
    (violation s p wr b).get WK_VINFO_COUNT = min (s.get WK_VINFO_COUNT + 1) 0xFFFF := by
  have hlatch : (if s.bit WK_EVT_VIOL then s
      else ((s.set WK_VINFO_INIT (violator p)).setB WK_VINFO_WR wr).setWord 0x1809 (BitVec.ofNat 32 b)).get WK_VINFO_COUNT = s.get WK_VINFO_COUNT := by
    split
    · rfl
    · rw [State.get_setWord_ne _ _ _ _ (by decide), State.get_setB_ne _ _ _ _ (by decide) (by decide), State.get_set_ne _ _ _ _ (by decide) (by decide)]
  unfold violation
  rw [State.pulse_get, State.get_event_ne _ _ _ (by decide) (by decide), State.get_bump_same _ _ _ (by decide), hlatch]
  rfl

/-- WORK is on, the user partition runs, and 255 violations have been counted. -/
def after255Violations : State :=
  (({ State.reset with pwr := { phase := .running, booted := true } }.set ID_DOMST_WSTATE 2).set AN_UPST_STATE 1).set WK_VINFO_COUNT 255

/-- The user partition may not write BZ_ROUTE (17 R431). -/
theorem after255Violations_breaksWorld : breaksWorld after255Violations .user 0x1301 = true := by decide

theorem after255Violations_count : after255Violations.get WK_VINFO_COUNT = 255 := State.get_set_same _ _ _ (by decide)

/-- Refutes O50: it ends WK_VINFO.COUNT at 255, but the field has 16 bits and saturates at 0xFFFF (17 R443), so that the user partition's write of BZ_ROUTE
after 255 violations counts the 256th. -/
theorem not_registerAccessesThroughTheBusAndManagement : ¬ Obligations.RegisterAccessesThroughTheBusAndManagement := by
  unfold Obligations.RegisterAccessesThroughTheBusAndManagement
  rintro ⟨-, -, -, -, -, -, -, -, -, -, hbreaks, -⟩
  obtain ⟨t, ht, -, hcount, -⟩ := hbreaks .user 0x1301 0 after255Violations after255Violations_breaksWorld
  rw [exec_registerWrite_breaksWorld _ _ _ _ after255Violations_breaksWorld] at ht
  cases ht
  rw [violation_count, after255Violations_count] at hcount
  exact absurd hcount (by decide)

end Sys2Proof.Machine
end

section
/-!
PROOFS. WORK's power (01 R28): its loss with a reset of the controller die (01 R19), and the release of the Deck controller (10 R258), with the refutation of the statement about each.
-/

namespace Sys2Proof.Machine

/-! ### Of WORK's loss only the consumers' leaving the Landing reaches the frames that wait -/

theorem wakeTarget_tx (s : State) (t : Fin 4) : (wakeTarget s t).tx = s.tx := by
  unfold wakeTarget
  dsimp only
  split <;> rfl

theorem irqLines_tx (s : State) : (irqLines s).tx = s.tx := by
  refine foldl_leaves State.tx _ _ (fun s t => ?_) s
  dsimp only
  rw [State.set_tx]
  have hlatch : (if irqLine s t && !(s.get IC_ST_LINE).testBit t then s.set (IC_TST_SIGNALLED t) 1 else s).tx = s.tx := by split <;> rfl
  split
  · exact (wakeTarget_tx _ _).trans hlatch
  · exact hlatch

theorem irqCount_tx (s : State) (n c : Nat) : (irqCount s n c).tx = s.tx := by
  unfold irqCount
  dsimp only
  split <;> rfl

theorem irqSave_tx (s : State) (t : Fin 4) : (irqSave s t).tx = s.tx := by
  unfold irqSave
  rw [irqLines_tx, State.set_tx, State.modTarget_tx]
  split
  · rfl
  · rename_i n c _ _
    have hpend : (setIrqBit (irqCount (irqEnd s t n) n c) 0x1610 n true).tx = s.tx := irqCount_tx _ _ _
    dsimp only
    split <;> exact hpend

theorem haltAnalysis_tx (s : State) : (haltAnalysis s).tx = s.tx := by
  unfold haltAnalysis
  rw [State.set_tx, irqSave_tx, irqSave_tx]
  rfl

theorem clearLease_tx (s : State) (l : Fin 32) : (clearLease s l).tx = s.tx := rfl

theorem dropLeases_tx (s : State) : (dropLeases s).tx = s.tx := foldl_leaves State.tx (List.finRange 32) clearLease clearLease_tx s

theorem clearDeck_tx (s : State) : (clearDeck s).tx = s.tx := by
  unfold clearDeck
  dsimp only
  rw [foldl_leaves State.tx (List.range 16) (fun s i => s.set (DK_RING_BLOCKS i) 0) fun _ _ => rfl,
    foldl_leaves State.tx (List.range 16) (fun s c => (s.set (DK_CAP_STATE c) 0).set (DK_CAP_BLOCKS c) 0) fun _ _ => rfl]

/-- A reset of the controller die while WORK is not off sends what the consumers' leaving the Landing (10 R251) sends, and no more. -/
theorem dieReset_tx (s : State) (cause : Nat) (h : s.get ID_DOMST_WSTATE ≠ 0) : (dieReset s cause).tx = (detachWork s).tx := by
  have hdrop : (dropWork s).tx = (detachWork s).tx := by
    simp only [dropWork, if_neg h, resetWork, State.set_tx, State.modNet_tx, clearDeck_tx, dropLeases_tx, haltAnalysis_tx]
  exact hdrop

theorem exec_pllLockLoss (s : State) (h : s.pwr.phase = .running) : exec .pllLockLoss s = .next (dieReset s 3) := by
  change execPllLockLoss s = _
  simp [execPllLockLoss, h]

/-- WORK is on and no block of the Deck is free. Slot 0's ring, to which the Deck writer is attached, holds one block, fills another, and lease 3 of capture session 7
covers the held one. -/
def sessionOnFullRing : State :=
  (((((({ State.reset with
        pwr := { phase := .running, booted := true }
        keys := { lineKey := some 1 }
        net := { sessions := [⟨7, 4, 0x80000001, 3, 0, 0, 0, 4⟩] }
        deck := { rings := (Vector.replicate 16 ({} : Ring)).set 0 { size := 2, held := [{ recs := [0] }], flight := some { idx := 1, ssn := 1, recs := [0] } } }
      }.set ID_DOMST_WSTATE 2).set DK_ST_ON 1).set (DK_RING_SEC 0) 1).set (LD_ATT_ATT 0) 1).set (LS_KIND 3) 2).set (LS_TGT 3) 1)

theorem sessionOnFullRing_running : sessionOnFullRing.pwr.phase = .running := by decide

set_option maxRecDepth 4000 in
/-- The Deck writer leaves slot 0 and the ring's block closes (10 R256); the next one has to come from the ring's own oldest block, which is leased, so that the lease is
revoked (10 R264) and the session ends with a capture end, TYPE 0x34, on both ports (14 R370). -/
theorem sessionOnFullRing_detachWork : (detachWork sessionOnFullRing).tx.map (fun f => f.pay.typ) = [0x34, 0x34] := by decide

/-- Refutes O2: the loss of PLL lock closes the ring's block, which revokes the lease of `sessionOnFullRing` and queues its session's end message, while the statement leaves
the waiting frames as they were. The model keeps a session's lease on its capture; the statement ranges over every state, this one among them. -/
theorem not_controllerResetsHoldTheDieAndWorkLosesItsSupply : ¬ Obligations.ControllerResetsHoldTheDieAndWorkLosesItsSupply := by
  unfold Obligations.ControllerResetsHoldTheDieAndWorkLosesItsSupply
  rintro ⟨hlock, -, -⟩
  obtain ⟨t, ht, -, -, -, -, -, -, htx⟩ := hlock sessionOnFullRing sessionOnFullRing_running
  rw [exec_pllLockLoss _ sessionOnFullRing_running] at ht
  obtain rfl := Host.Outcome.next.inj ht
  have hsent := sessionOnFullRing_detachWork
  rw [← dieReset_tx _ 3 (by decide), htx] at hsent
  exact absurd hsent (by decide)

/-! ### The Deck controller's release in a world without a Deck block -/

theorem showAcc_deck (s : State) : (showAcc s).deck = s.deck := by
  unfold showAcc
  split <;> rfl

theorem showRing_deck (s : State) (i : Fin 16) : (showRing s i).deck = s.deck := by
  unfold showRing
  exact showAcc_deck _

/-- Without a free block and without a block of its own a ring begins none (10 R256, R264). -/
theorem newFlight_noBlocks (s : State) (i : Fin 16) (hfree : s.deck.free = []) (hheld : s.deck.rings[i].held = []) : newFlight s i = s := by
  have htake : takeFree s i = none := by simp [takeFree, deckFree, runBlocks, hfree]
  have hrecycle : recycleBlock s i = s := by
    unfold recycleBlock reuseOldest
    rw [hheld]
    rfl
  simp only [newFlight, htake, hrecycle]

theorem startRings_noBlocks (s : State) (hfree : s.deck.free = []) (hheld : ∀ i : Fin 16, s.deck.rings[i].held = []) : (startRings s).deck = s.deck := by
  refine List.foldlRecOn (List.finRange 16) _ (motive := fun t : State => t.deck = s.deck) rfl fun t ht i _ => ?_
  split
  · exact ht
  · rw [showRing_deck, newFlight_noBlocks t i (by rw [ht, hfree]) (by rw [ht, hheld]), ht]

/-- A consumer for which no record waits leaves the Deck. -/
theorem deliverTo_nil_deck (s : State) (i : Fin 16) (b : Nat) : (deliverTo s i b []).deck = s.deck := by
  unfold deliverTo feedPartition
  repeat' split
  all_goals rfl

theorem sweepChunks_rings (s : State) (i : Fin 16) : (sweepChunks s i).deck.rings = s.deck.rings := rfl

theorem sweepChunks_noChunks (s : State) (i : Fin 16) (h : s.deck.chunks = []) : (sweepChunks s i).deck.chunks = [] := by
  simp [sweepChunks, showChunks, h]

/-- Of an empty Landing no ring takes anything. -/
theorem takeRecords_noChunks (s : State) (i : Fin 16) (mask : Nat) (h : s.deck.chunks = []) :
    (takeRecords s i mask).deck.rings = s.deck.rings ∧ (takeRecords s i mask).deck.chunks = [] := by
  unfold takeRecords
  split
  · exact ⟨rfl, h⟩
  · dsimp only
    generalize s.get (LD_ATT_ATT i) &&& mask &&& (if s.bit DK_ST_ON then 63 else 62) = takers
    have hdeck : ((List.range 6).foldl (fun s b => if takers.testBit b then deliverTo s i b (waitingFor s i b) else s) s).deck = s.deck := by
      refine List.foldlRecOn (List.range 6) _ (motive := fun t : State => t.deck = s.deck) rfl fun t ht b _ => ?_
      split
      · have hnone : waitingFor t i b = [] := by simp [waitingFor, landedFrom, ht, h]
        rw [hnone, deliverTo_nil_deck, ht]
      · exact ht
    generalize (List.range 6).foldl (fun s b => if takers.testBit b then deliverTo s i b (waitingFor s i b) else s) s = u at hdeck ⊢
    refine ⟨?_, sweepChunks_noChunks _ i ?_⟩
    · rw [sweepChunks_rings, State.modLand_deck, hdeck]
    · rw [State.modLand_deck, hdeck, h]

theorem drainToDeck_noChunks (s : State) (h : s.deck.chunks = []) : (drainToDeck s).deck.rings = s.deck.rings := by
  have hkeeps := List.foldlRecOn (List.finRange 16) (fun s (i : Fin 16) => takeRecords s i 1) (b := s)
    (motive := fun t : State => t.deck.rings = s.deck.rings ∧ t.deck.chunks = []) ⟨rfl, h⟩ fun t ht i _ =>
      ⟨(takeRecords_noChunks t i 1 ht.2).1.trans ht.1, (takeRecords_noChunks t i 1 ht.2).2⟩
  exact hkeeps.1

/-- Where no region of the Deck is of the Mill's world, the sizing (10 R258) is refused: there is no free block, every ring with a block or more to its SEC is sized at 2, and
none has a block. -/
theorem sizeRings_noRegion (s : State) (h : millRegions s = []) :
    (sizeRings s).deck = { s.deck with free := [], idle := 32768, rings := Vector.ofFn fun i => { size := if ringBlocks s i = 0 then 0 else 2 } } := by
  simp [sizeRings, h]

/-- The state whose rings the Deck controller's release sizes. -/
def State.deckOn (s : State) : State := (s.set DK_ST_ON 1).set DK_ACC_TOTAL 32768

theorem deckRelease_eq (s : State) : deckRelease s = drainToDeck (showAcc (startRings (sizeRings s.deckOn))) := rfl

/-- After the Deck controller's release in a world without a Deck block the rings are sized and none fills a block. -/
theorem deckRelease_noRegion (s : State) (h : millRegions s.deckOn = []) (hchunks : s.deck.chunks = []) :
    (deckRelease s).deck.rings = Vector.ofFn fun i => { size := if ringBlocks s.deckOn i = 0 then 0 else 2 } := by
  have hsized := sizeRings_noRegion s.deckOn h
  have hstart : (startRings (sizeRings s.deckOn)).deck = (sizeRings s.deckOn).deck :=
    startRings_noBlocks _ (by rw [hsized]) fun i => by simp [hsized]
  have hempty : (showAcc (startRings (sizeRings s.deckOn))).deck.chunks = [] := by
    rw [showAcc_deck, hstart, hsized]
    exact hchunks
  rw [deckRelease_eq, drainToDeck_noChunks _ hempty, showAcc_deck, hstart, hsized]

theorem exec_deckControllerRelease (s : State) (hlive : s.live = true) (hup : s.get ID_DOMST_WSTATE = 1) (hoff : s.bit DK_ST_ON = false) :
    exec .deckControllerRelease s = .next (deckRelease s) := by
  change execDeckControllerRelease s = _
  simp [execDeckControllerRelease, hlive, hup, hoff]

/-- WORK is powering up under a world map (17 R432) with the Mill non-secure and every region of the Deck secure; the rings' SEC are those of reset. -/
def millWithoutDeck : State :=
  ({ State.reset with pwr := { phase := .running, booted := true } }.set ID_DOMST_WSTATE 1).set WK_MAPB_BLOCKS 1

theorem millWithoutDeck_noRegion : millRegions millWithoutDeck.deckOn = [] := by decide

theorem millWithoutDeck_ringBlocks : ringBlocks millWithoutDeck.deckOn 0 ≠ 0 := by decide

/-- Refutes O12: under `millWithoutDeck` the Deck controller's release sizes slot 0's ring at 2 blocks (10 R258) where the Mill's world has none, so that no block is in flight,
while the statement gives every sized ring one. -/
theorem not_workPowerTransitions : ¬ Obligations.WorkPowerTransitions := by
  unfold Obligations.WorkPowerTransitions
  rintro ⟨hrelease, -⟩
  obtain ⟨t, ht, -, -, -, hflight, -⟩ := hrelease millWithoutDeck (by decide) (by decide) (by decide)
  rw [exec_deckControllerRelease _ (by decide) (by decide) (by decide)] at ht
  obtain rfl := Host.Outcome.next.inj ht
  have hring : (deckRelease millWithoutDeck).deck.rings[(0 : Fin 16)] = { size := 2 } := by
    simp [deckRelease_noRegion _ millWithoutDeck_noRegion rfl, millWithoutDeck_ringBlocks]
  have hsome := hflight 0
  rw [hring] at hsome
  exact absurd (hsome (by decide)) (by decide)

end Sys2Proof.Machine
end

section
/-!
PROOFS. Frames that keep a view of what stands beside the registers: they chain, widen, and hold of each register write for the field it names.
-/

namespace Sys2Proof.Machine

/-- From s to t no register bit outside the fields of l differs, and the view v sees no difference. -/
structure ViewFrame {α : Type} (v : State → α) (l : List Field) (s t : State) : Prop where
  regs : sameBut l s t
  kept : v t = v s

section
variable {α : Type} {v : State → α} {l m : List Field} {s t u : State}

theorem ViewFrame.refl (v : State → α) (l : List Field) (s : State) : ViewFrame v l s s := ⟨sameBut_refl l s, rfl⟩

theorem ViewFrame.trans (h : ViewFrame v l s t) (k : ViewFrame v l t u) : ViewFrame v l s u := ⟨sameBut_trans h.regs k.regs, k.kept.trans h.kept⟩

theorem ViewFrame.mono (h : ViewFrame v l s t) (hm : ∀ f ∈ l, f ∈ m) : ViewFrame v m s t := ⟨sameBut_mono h.regs hm, h.kept⟩

/-- A change beside the registers that the view does not see. -/
theorem ViewFrame.beside (h : ViewFrame v l s t) (hr : u.regs = t.regs) (hv : v u = v t) : ViewFrame v l s u := ⟨sameBut_regs h.regs hr, hv.trans h.kept⟩

theorem ViewFrame.set {f : Field} {n : Nat} (h : ViewFrame v l s t) (hf : f ∈ l) (hok : f.ok) (hv : v (t.set f n) = v t) : ViewFrame v l s (t.set f n) :=
  h.trans ⟨sameBut_set l t f n hok hf, hv⟩

theorem ViewFrame.setB {f : Field} {b : Bool} (h : ViewFrame v l s t) (hf : f ∈ l) (hok : f.ok) (hv : v (t.setB f b) = v t) : ViewFrame v l s (t.setB f b) :=
  h.set hf hok hv

theorem ViewFrame.setI {f : Field} {x : Int} (h : ViewFrame v l s t) (hf : f ∈ l) (hok : f.ok) (hv : v (t.setI f x) = v t) : ViewFrame v l s (t.setI f x) :=
  h.set hf hok hv

theorem ViewFrame.event {f : Field} (h : ViewFrame v l s t) (hf : f ∈ l) (hok : f.ok) (hv : v (t.event f) = v t) : ViewFrame v l s (t.event f) :=
  h.trans ⟨sameBut_event l t f hok hf, hv⟩

theorem ViewFrame.bump {f : Field} {n : Nat} (h : ViewFrame v l s t) (hf : f ∈ l) (hok : f.ok) (hv : v (t.bump f n) = v t) : ViewFrame v l s (t.bump f n) :=
  h.trans ⟨sameBut_bump l t f n hok hf, hv⟩

theorem ViewFrame.modTime {f : TimeState → TimeState} (h : ViewFrame v l s t) (hv : v (t.modTime f) = v t) : ViewFrame v l s (t.modTime f) := h.beside rfl hv

theorem ViewFrame.modNet {f : NetState → NetState} (h : ViewFrame v l s t) (hv : v (t.modNet f) = v t) : ViewFrame v l s (t.modNet f) := h.beside rfl hv

theorem ViewFrame.send {p : Egress} {q : Nat} {x : Payload} (h : ViewFrame v l s t) (hv : v (t.send p q x) = v t) : ViewFrame v l s (t.send p q x) :=
  h.beside rfl hv

theorem ViewFrame.ite {c : Prop} [Decidable c] (ht : ViewFrame v l s t) (hu : ViewFrame v l s u) : ViewFrame v l s (if c then t else u) := by
  split
  · exact ht
  · exact hu

theorem ViewFrame.foldl {β : Type} {f : State → β → State} (h : ∀ s a, ViewFrame v l s (f s a)) (xs : List β) (s : State) : ViewFrame v l s (xs.foldl f s) :=
  List.foldlRecOn xs f (motive := fun t => ViewFrame v l s t) (ViewFrame.refl v l s) fun _ ht a _ => ht.trans (h _ a)

/-- A field apart from those of the frame reads the same. -/
theorem ViewFrame.get (h : ViewFrame v l s t) (g : Field) (hg : ∀ f ∈ l, f.apart g) : t.get g = s.get g := get_of_sameBut h.regs g hg

theorem ViewFrame.bit (h : ViewFrame v l s t) (g : Field) (hg : ∀ f ∈ l, f.apart g) : t.bit g = s.bit g := by simp only [State.bit, h.get g hg]

end

/-- Field f lies inside field g. -/
abbrev Field.inside (f g : Field) : Prop := f.word = g.word ∧ g.lo ≤ f.lo ∧ f.lo + f.width ≤ g.lo + g.width

/-- A frame over fields is one over any fields that hold them. -/
theorem sameBut_inside {l m : List Field} {s t : State} (h : sameBut l s t) (hm : ∀ f ∈ l, ∃ g ∈ m, f.inside g) : sameBut m s t := by
  intro a i hi
  apply h a i
  rw [List.any_eq_false] at hi ⊢
  intro f hf hfa
  obtain ⟨g, hg, hw, hlo, hhi⟩ := hm f hf
  refine hi g hg ?_
  simp only [Field.has, Bool.and_eq_true, beq_iff_eq, decide_eq_true_eq] at hfa ⊢
  omega

theorem State.bit_setB_same (s : State) (f : Field) (b : Bool) (h : f.ok) (hw : f.width = 1) : (s.setB f b).bit f = b := by
  rw [State.bit, State.get_setB_same s f b h hw]
  cases b <;> rfl

theorem State.bit_setB_ne (s : State) (f g : Field) (b : Bool) (h : f.ok) (hd : f.apart g) : (s.setB f b).bit g = s.bit g := by
  simp only [State.bit, State.get_setB_ne s f g b h hd]

theorem State.bit_of_get_one {s : State} {f : Field} (h : s.get f = 1) : s.bit f = true := (s.bit_eq_true f).2 h

theorem State.bit_of_get_zero {s : State} {f : Field} (h : s.get f = 0) : s.bit f = false := by simp [State.bit, h]

end Sys2Proof.Machine
end

section
/-!
PROOFS. The power die (02): for each of its operations on the ports, the inputs and the measured values the registers that may differ, and what they show then.
-/

namespace Sys2Proof.Machine

/-! ### What stands beside the power page -/

/-- The state beside the registers, the power die's as mask shows it. -/
def besidePower (mask : PwrState → PwrState) (s : State) : State := { s with regs := [], pwr := mask s.pwr, fresh := [] }

/-- The power die's state without what it measures and integrates. -/
def PwrState.unmeasured (p : PwrState) : PwrState := { p with twist := 0, calm := 0, lowB := none, raisedA := false, raisedB := false }

/-- Only fields of l differ, and what the power die measures and integrates. -/
abbrev PowerFrame (l : List Field) (s t : State) : Prop := ViewFrame (besidePower PwrState.unmeasured) l s t

section
variable {mask : PwrState → PwrState} {l : List Field} {s t u : State}

theorem besidePower_rest (h : besidePower mask t = besidePower mask s) : { t with regs := s.regs, pwr := s.pwr, fresh := s.fresh } = s :=
  congrArg (fun x : State => { x with regs := s.regs, pwr := s.pwr, fresh := s.fresh }) h

theorem besidePower_pwr (h : besidePower mask t = besidePower mask s) : mask t.pwr = mask s.pwr := congrArg State.pwr h

theorem PowerFrame.rest (h : PowerFrame l s t) : { t with regs := s.regs, pwr := s.pwr, fresh := s.fresh } = s := besidePower_rest h.kept

/-- The rest of the state is untouched too when the power die's state changed first. -/
theorem PowerFrame.rest_of_modPwr {f : PwrState → PwrState} (h : PowerFrame l (s.modPwr f) t) :
    { t with regs := s.regs, pwr := s.pwr, fresh := s.fresh } = s :=
  congrArg (fun x : State => { x with regs := s.regs, pwr := s.pwr, fresh := s.fresh }) h.kept

theorem PowerFrame.pwr (h : PowerFrame l s t) :
    t.pwr = { s.pwr with twist := t.pwr.twist, calm := t.pwr.calm, lowB := t.pwr.lowB, raisedA := t.pwr.raisedA, raisedB := t.pwr.raisedB } :=
  congrArg (fun p : PwrState => { p with twist := t.pwr.twist, calm := t.pwr.calm, lowB := t.pwr.lowB, raisedA := t.pwr.raisedA, raisedB := t.pwr.raisedB })
    (besidePower_pwr h.kept)

theorem PowerFrame.phase (h : PowerFrame l s t) : t.pwr.phase = s.pwr.phase := (congrArg (fun x : State => x.pwr.phase) h.kept :)

theorem PowerFrame.serialB (h : PowerFrame l s t) : t.pwr.serialB = s.pwr.serialB := (congrArg (fun x : State => x.pwr.serialB) h.kept :)

theorem PowerFrame.flash (h : PowerFrame l s t) : t.flash = s.flash := (congrArg (fun x : State => x.flash) h.kept :)

theorem PowerFrame.keys (h : PowerFrame l s t) : t.keys = s.keys := (congrArg (fun x : State => x.keys) h.kept :)

theorem PowerFrame.tally (h : PowerFrame l s t) : t.tally = s.tally := (congrArg (fun x : State => x.tally) h.kept :)

theorem PowerFrame.time (h : PowerFrame l s t) : t.time = s.time := (congrArg (fun x : State => x.time) h.kept :)

theorem PowerFrame.portsLive (h : PowerFrame l s t) : portsLive t = portsLive s := by simp only [Machine.portsLive, h.phase]

/-- What the power die measures and integrates may change. -/
theorem PowerFrame.modPwr {f : PwrState → PwrState} (h : PowerFrame l s t) (hf : (f t.pwr).unmeasured = t.pwr.unmeasured) : PowerFrame l s (t.modPwr f) :=
  h.beside rfl (congrArg (fun p => { besidePower id t with pwr := p }) hf)

/-- One change of the power die's state before and after a frame keeps it, when what is measured does not matter to the change. -/
theorem PowerFrame.modPwr_both {f : PwrState → PwrState} (h : PowerFrame l s t) (hf : ∀ p, (f p).unmeasured = (f p.unmeasured).unmeasured) :
    PowerFrame l (s.modPwr f) (t.modPwr f) := by
  refine ⟨h.regs, ?_⟩
  have hpwr : (f t.pwr).unmeasured = (f s.pwr).unmeasured := by rw [hf, hf s.pwr, besidePower_pwr h.kept]
  change { besidePower PwrState.unmeasured t with pwr := (f t.pwr).unmeasured } = { besidePower PwrState.unmeasured s with pwr := (f s.pwr).unmeasured }
  rw [hpwr, h.kept]

end

/-! ### A port's fields -/

theorem portState_ok (p : Port) : (portState p).ok := by cases p <;> decide
theorem portAmp_ok (p : Port) : (portAmp p).ok := by cases p <;> decide
theorem portVolt_ok (p : Port) : (portVolt p).ok := by cases p <;> decide
theorem portState_width (p : Port) : (portState p).width = 3 := by cases p <;> rfl
theorem portVolt_width (p : Port) : (portVolt p).width = 16 := by cases p <;> rfl

theorem openState_lt (b : Bool) : openState b < 8 := by cases b <;> decide

theorem openState_decide (p : Prop) [Decidable p] : openState (decide p) = if p then 3 else 0 := by simp [openState]

/-- Every port voltage fits its field (02 R64). -/
theorem volt_lt (s : State) (f : Field) (h : f.width = 16) : s.get f < 65536 := by
  have := s.get_lt f
  rwa [h] at this

/-! ### putPort -/

theorem watchLow_frame (l : List Field) (s : State) : PowerFrame l s (watchLow s) := PowerFrame.modPwr (.refl _ l s) rfl

theorem setRaised_frame (l : List Field) (s : State) (p : Port) (b : Bool) : PowerFrame l s (setRaised s p b) := by
  refine PowerFrame.modPwr (.refl _ l s) ?_
  cases p <;> rfl

theorem putPort_frame (s : State) (p : Port) (st : Nat) : PowerFrame [portState p, portAmp p] s (putPort s p st) := by
  have hstate : PowerFrame [portState p, portAmp p] s (s.set (portState p) st) := .set (.refl _ _ s) (by simp) (portState_ok p) rfl
  unfold putPort
  refine ViewFrame.trans ?_ (watchLow_frame _ _)
  split
  · exact hstate
  · exact .set hstate (by simp) (portAmp_ok p) rfl

/-- A switch that closes leaves its current (02 R49). -/
theorem putPort_closed_frame (s : State) (p : Port) (st : Nat) (h : st = 2 ∨ st = 4) : PowerFrame [portState p] s (putPort s p st) := by
  unfold putPort
  dsimp only
  rw [if_pos h]
  exact .trans (.set (.refl _ _ s) (by simp) (portState_ok p) rfl) (watchLow_frame _ _)

theorem putPort_pst (s : State) (p : Port) (st : Nat) (h : st < 8) : (putPort s p st).pst p = st := by
  have hset : (s.set (portState p) st).get (portState p) = st := by
    rw [State.get_set_same _ _ _ (portState_ok p), portState_width]
    exact Nat.mod_eq_of_lt h
  have hne : (portAmp p).apart (portState p) := by cases p <;> decide
  change (putPort s p st).get (portState p) = st
  unfold putPort watchLow
  rw [State.modPwr_get]
  split
  · exact hset
  · rwa [State.get_set_ne _ _ _ _ (portAmp_ok p) hne]

theorem putPort_pst_other (s : State) (p : Port) (st : Nat) : (putPort s p st).pst p.other = s.pst p.other := by
  refine (putPort_frame s p st).get _ ?_
  cases p <;> decide

theorem switchClosed_of_pst {s : State} {p : Port} {n : Nat} (h : s.pst p = n) (hn : n ≠ 2 ∧ n ≠ 4) : switchClosed s p = false := by
  simp [switchClosed, h, hn.1, hn.2]

/-! ### showInputs -/

/-- The fields that show which ports supply the module, and twist-release. -/
def inputFields : List Field := [PWR_ST_INA, PWR_ST_INB, PWR_ST_TWARM, PWR_TWANG_ANGLE]

theorem showArmed_frame (s : State) : PowerFrame [PWR_ST_TWARM, PWR_TWANG_ANGLE] s (showArmed s) := by
  unfold showArmed
  split
  · exact .set (.refl _ _ s) (by simp) (by decide) rfl
  · exact PowerFrame.modPwr (.set (.set (.refl _ _ s) (by simp) (by decide) rfl) (by simp) (by decide) rfl) rfl

theorem showInputs_frame (s : State) : PowerFrame inputFields s (showInputs s) := by
  unfold showInputs
  refine .trans ?_ ((showArmed_frame _).mono (by decide))
  exact .setB (.setB (.refl _ _ s) (by decide) (by decide) rfl) (by decide) (by decide) rfl

theorem showArmed_twarm (s : State) : (showArmed s).bit PWR_ST_TWARM = twistArmed s := by
  unfold showArmed
  split
  · rename_i h
    rw [h]
    exact State.bit_of_get_one (State.get_set_same _ _ _ (by decide))
  · rename_i h
    rw [Bool.eq_false_iff.2 h]
    refine State.bit_of_get_zero ?_
    rw [State.modPwr_get, State.get_set_ne _ _ _ _ (by decide) (by decide)]
    exact State.get_set_same _ _ _ (by decide)

theorem showInputs_ina (s : State) : (showInputs s).bit PWR_ST_INA = conducts s .a := by
  unfold showInputs
  rw [(showArmed_frame _).bit _ (by decide), State.bit_setB_ne _ _ _ _ (by decide) (by decide), State.bit_setB_same _ _ _ (by decide) rfl]

theorem showInputs_inb (s : State) : (showInputs s).bit PWR_ST_INB = conducts s .b := by
  unfold showInputs
  rw [(showArmed_frame _).bit _ (by decide), State.bit_setB_same _ _ _ (by decide) rfl]

theorem showInputs_raised (s : State) (p : Port) : raised (showInputs s) p = raised s p := by
  unfold showInputs showArmed
  split <;> rfl

/-- In a module that is not mounted twist-release is not armed and has no integral (02 R59, R60). -/
theorem showInputs_unmounted (s : State) (h : s.get PWR_ST_MOUNTED = 0) :
    (showInputs s).bit PWR_ST_TWARM = false ∧ (showInputs s).pwr.twist = 0 ∧ (showInputs s).pwr.calm = 0 := by
  have hunarmed : twistArmed ((s.setB PWR_ST_INA (conducts s .a)).setB PWR_ST_INB (conducts s .b)) = false := by
    have hm : ((s.setB PWR_ST_INA (conducts s .a)).setB PWR_ST_INB (conducts s .b)).get PWR_ST_MOUNTED = 0 := by
      rw [State.get_setB_ne _ _ _ _ (by decide) (by decide), State.get_setB_ne _ _ _ _ (by decide) (by decide), h]
    simp [twistArmed, State.bit_of_get_zero hm]
  refine ⟨(showArmed_twarm _).trans hunarmed, ?_⟩
  unfold showInputs showArmed
  rw [hunarmed]
  exact ⟨rfl, rfl⟩

/-! ### measure -/

/-- The fields of what the power die measures. -/
def measuredFields : List Field :=
  [PWR_VIN_VA, PWR_VIN_VB, PWR_IPT_IA, PWR_IPT_IB, PWR_PIN_HOLDUP, PWR_PIN_PIN, PWR_ST_INA, PWR_ST_INB, PWR_ST_TWARM, PWR_TWANG_ANGLE]

/-- The first part of a measurement: the ports' voltages, and which port's voltage is the module's own. -/
def State.fed (s : State) (m : Meter) : State := watchLow (noteFed (noteFed ((s.set PWR_VIN_VA m.vA).set PWR_VIN_VB m.vB) .a) .b)

/-- A measurement before it shows the inputs. -/
def State.gauged (s : State) (m : Meter) : State :=
  ((((s.fed m).set PWR_IPT_IA (if switchClosed (s.fed m) .a then m.iA else 0)).set PWR_IPT_IB (if switchClosed (s.fed m) .b then m.iB else 0)).set PWR_PIN_HOLDUP
    (if (s.fed m).pwr.phase == .running || (s.fed m).pwr.phase == .dieReset then max 240 m.holdup else m.holdup)).set PWR_PIN_PIN m.pin

theorem measure_eq (s : State) (m : Meter) : measure s m = showInputs (s.gauged m) := rfl

section
variable (s : State) (m : Meter)

theorem fed_frame : PowerFrame measuredFields s (s.fed m) := by
  unfold State.fed noteFed
  refine .trans (.trans (.trans ?_ (setRaised_frame _ _ _ _)) (setRaised_frame _ _ _ _)) (watchLow_frame _ _)
  exact .set (.set (.refl _ _ s) (by decide) (by decide) rfl) (by decide) (by decide) rfl

/-- After the voltages the currents and the power are measured. -/
theorem gauged_fed_frame : PowerFrame [PWR_IPT_IA, PWR_IPT_IB, PWR_PIN_HOLDUP, PWR_PIN_PIN] (s.fed m) (s.gauged m) := by
  unfold State.gauged
  exact .set (.set (.set (.set (.refl _ _ _) (by simp) (by decide) rfl) (by simp) (by decide) rfl) (by simp) (by decide) rfl) (by simp) (by decide) rfl

theorem gauged_frame : PowerFrame measuredFields s (s.gauged m) := (fed_frame s m).trans ((gauged_fed_frame s m).mono (by decide))

theorem measure_frame : PowerFrame measuredFields s (measure s m) := (gauged_frame s m).trans ((showInputs_frame _).mono (by decide))

theorem measure_pst (p : Port) : (measure s m).pst p = s.pst p := (measure_frame s m).get _ (by cases p <;> decide)

theorem gauged_volt (p : Port) (hA : m.vA < 65536) (hB : m.vB < 65536) : (s.gauged m).get (portVolt p) = m.volt p := by
  have hfed : (s.gauged m).get (portVolt p) = ((s.set PWR_VIN_VA m.vA).set PWR_VIN_VB m.vB).get (portVolt p) :=
    (gauged_fed_frame s m).get _ (by cases p <;> decide)
  rw [hfed]
  cases p with
  | a =>
    rw [State.get_set_ne _ _ _ _ (by decide) (by decide)]
    exact (State.get_set_same _ _ _ (by decide)).trans (Nat.mod_eq_of_lt hA)
  | b => exact (State.get_set_same _ _ _ (by decide)).trans (Nat.mod_eq_of_lt hB)

theorem measure_volt (p : Port) (hA : m.vA < 65536) (hB : m.vB < 65536) : (measure s m).get (portVolt p) = m.volt p := by
  rw [measure_eq, (showInputs_frame _).get _ (by cases p <;> decide), gauged_volt s m p hA hB]

theorem gauged_amp (p : Port) (h : switchClosed s p = false) : (s.gauged m).get (portAmp p) = 0 := by
  have hopen : switchClosed (s.fed m) p = false := by
    have hpst : (s.fed m).pst p = s.pst p := (fed_frame s m).get _ (by cases p <;> decide)
    simpa only [switchClosed, hpst] using h
  unfold State.gauged
  rw [State.get_set_ne _ _ _ _ (by decide) (by cases p <;> decide), State.get_set_ne _ _ _ _ (by decide) (by cases p <;> decide)]
  cases p with
  | a =>
    rw [State.get_set_ne _ _ _ _ (by decide) (by decide), hopen]
    exact State.get_set_same _ _ _ (by decide)
  | b =>
    rw [hopen]
    exact State.get_set_same _ _ _ (by decide)

/-- An open switch carries no current (02 R64). -/
theorem measure_amp (p : Port) (h : switchClosed s p = false) : (measure s m).get (portAmp p) = 0 := by
  rw [measure_eq, (showInputs_frame _).get _ (by cases p <;> decide), gauged_amp s m p h]

/-- Only a port in SOURCE has the module's own voltage (02 R52). -/
theorem gauged_raised (p : Port) (h : s.pst p ≠ 2) : raised (s.gauged m) p = false := by
  have hpst : ((s.set PWR_VIN_VA m.vA).set PWR_VIN_VB m.vB).pst p = s.pst p := by
    simp only [State.pst]
    rw [State.get_set_ne _ _ _ _ (by decide) (by cases p <;> decide), State.get_set_ne _ _ _ _ (by decide) (by cases p <;> decide)]
  have hnot : ((noteFed ((s.set PWR_VIN_VA m.vA).set PWR_VIN_VB m.vB) .a).pst p == 2) = false := beq_false_of_ne (hpst.trans_ne h)
  cases p with
  | a =>
    change (_ && (((s.set PWR_VIN_VA m.vA).set PWR_VIN_VB m.vB).pst .a == 2) && _) = false
    rw [beq_false_of_ne (hpst.trans_ne h), Bool.and_false, Bool.false_and]
  | b =>
    change (_ && ((noteFed ((s.set PWR_VIN_VA m.vA).set PWR_VIN_VB m.vB) .a).pst .b == 2) && _) = false
    rw [hnot, Bool.and_false, Bool.false_and]

theorem measure_raised (p : Port) (h : s.pst p ≠ 2) : raised (measure s m) p = false := by
  rw [measure_eq, showInputs_raised, gauged_raised s m p h]

/-- An unmounted module measures with twist-release disarmed. -/
theorem measure_unmounted (h : s.get PWR_ST_MOUNTED = 0) :
    (measure s m).bit PWR_ST_TWARM = false ∧ (measure s m).pwr.twist = 0 ∧ (measure s m).pwr.calm = 0 :=
  showInputs_unmounted _ (((gauged_frame s m).get _ (by decide)).trans h)

end

/-! ### A port's transition with a measurement (02 R49 to R51) -/

section
variable (s : State) (p : Port) (st : Nat) (m : Meter)

theorem measure_putPort_frame : PowerFrame (portState p :: measuredFields) s (measure (putPort s p st) m) := by
  refine ViewFrame.trans ((putPort_frame s p st).mono ?_) ((measure_frame _ m).mono (by simp +contextual))
  cases p <;> decide

theorem measure_putPort_pst (h : st < 8) : (measure (putPort s p st) m).pst p = st := by rw [measure_pst, putPort_pst s p st h]

end

end Sys2Proof.Machine
end

section
/-!
PROOFS. The supply (02 R41 to R44, R57, R62): inrush, the dark module, undervoltage and surge.
-/

namespace Sys2Proof.Machine

/-! ### Both ports at once -/

/-- Port A in one state and port B in another. -/
def State.putPorts (s : State) (a b : Nat) : State := putPort (putPort s .a a) .b b

section
variable (s : State) (a b : Nat)

theorem putPorts_frame : PowerFrame [PWR_ST_PSTA, PWR_IPT_IA, PWR_ST_PSTB, PWR_IPT_IB] s (s.putPorts a b) :=
  .trans ((putPort_frame s .a a).mono (by decide)) ((putPort_frame _ .b b).mono (by decide))

theorem putPorts_psta (h : a < 8) : (s.putPorts a b).pst .a = a := (putPort_pst_other _ .b b).trans (putPort_pst s .a a h)

theorem putPorts_pstb (h : b < 8) : (s.putPorts a b).pst .b = b := putPort_pst _ .b b h

end

theorem openState_open (x : Bool) : openState x ≠ 2 ∧ openState x ≠ 4 := by cases x <;> decide

theorem disarmTwist_frame (s : State) : PowerFrame [PWR_ST_MOUNTED, PWR_ST_TWARM, PWR_TWANG_ANGLE] s (disarmTwist s) := by
  have hregs : PowerFrame [PWR_ST_MOUNTED, PWR_ST_TWARM, PWR_TWANG_ANGLE] s (((s.set PWR_ST_MOUNTED 0).set PWR_ST_TWARM 0).set PWR_TWANG_ANGLE 0) :=
    .set (.set (.set (.refl _ _ s) (by decide) (by decide) rfl) (by decide) (by decide) rfl) (by decide) (by decide) rfl
  exact hregs.modPwr (f := fun p => { p with twist := 0, calm := 0 }) rfl

theorem disarmTwist_mounted (s : State) : (disarmTwist s).get PWR_ST_MOUNTED = 0 := by
  change (((s.set PWR_ST_MOUNTED 0).set PWR_ST_TWARM 0).set PWR_TWANG_ANGLE 0).get PWR_ST_MOUNTED = 0
  rw [State.get_set_ne _ _ _ _ (by decide) (by decide), State.get_set_ne _ _ _ _ (by decide) (by decide)]
  exact State.get_set_same _ _ _ (by decide)

/-! ### Which ports supply the module (02 R41) -/

/-- In a live module without serial use an open port feeds it when it lies within 0.1 V of the other one. -/
theorem gauged_conducts (s : State) (m : Meter) (p : Port) (hlive : portsLive s = true) (hserial : s.pwr.serialB = false) (hpst : s.pst p ≠ 2)
    (hA : m.vA < 65536) (hB : m.vB < 65536) : conducts (s.gauged m) p = (decide (0 < m.volt p) && decide (m.volt p.other ≤ m.volt p + 10)) := by
  have hf := gauged_frame s m
  simp [conducts, hf.portsLive, hlive, hf.serialB, hserial, gauged_volt s m _ hA hB, gauged_raised s m p hpst]

/-! ### Inrush and the dark module -/

/-- The fields that a start or an end of the supply may change. -/
def supplyFields : List Field := PWR_ST_MOUNTED :: PWR_ST_PSTA :: PWR_ST_PSTB :: measuredFields

theorem sameBut_supplyFields {s t : State} (h : sameBut supplyFields s t) :
    sameBut [wholeWord 0x100, wholeWord 0x102, wholeWord 0x103, wholeWord 0x104, PWR_TWANG_ANGLE] s t := sameBut_inside h (by decide)

/-- The power die's state as inrush starts (02 R44, R49). -/
def PwrState.toInrush (cause : Option Nat) (p : PwrState) : PwrState :=
  { p with phase := .inrush, booted := false, cause := cause, serialB := false, wantB := false }

/-- The state in which inrush measures first: both switches open, twist-release disarmed. -/
def State.inrushAt (s : State) (m : Meter) (cause : Option Nat) : State :=
  (disarmTwist (s.modPwr (PwrState.toInrush cause))).putPorts (openState (decide (3000 < m.vA))) (openState (decide (3000 < m.vB)))

theorem startSupply_eq (s : State) (m : Meter) (cause : Option Nat) : startSupply s m cause = measure (s.inrushAt m cause) m := rfl

section
variable (s : State) (m : Meter) (cause : Option Nat)

theorem inrushAt_frame : PowerFrame supplyFields (s.modPwr (PwrState.toInrush cause)) (s.inrushAt m cause) :=
  .trans ((disarmTwist_frame _).mono (by decide)) ((putPorts_frame _ _ _).mono (by decide))

theorem inrushAt_psta : (s.inrushAt m cause).pst .a = openState (decide (3000 < m.vA)) := putPorts_psta _ _ _ (openState_lt _)

theorem inrushAt_pstb : (s.inrushAt m cause).pst .b = openState (decide (3000 < m.vB)) := putPorts_pstb _ _ _ (openState_lt _)

theorem inrushAt_open (p : Port) : (s.inrushAt m cause).pst p ≠ 2 ∧ (s.inrushAt m cause).pst p ≠ 4 := by
  cases p with
  | a => rw [inrushAt_psta]; exact openState_open _
  | b => rw [inrushAt_pstb]; exact openState_open _

theorem inrushAt_unmounted : (s.inrushAt m cause).get PWR_ST_MOUNTED = 0 := ((putPorts_frame _ _ _).get _ (by decide)).trans (disarmTwist_mounted _)

theorem inrushAt_conducts (p : Port) (hA : m.vA < 65536) (hB : m.vB < 65536) :
    conducts ((s.inrushAt m cause).gauged m) p = (decide (0 < m.volt p) && decide (m.volt p.other ≤ m.volt p + 10)) := by
  refine gauged_conducts _ m p ?_ (inrushAt_frame s m cause).serialB (inrushAt_open s m cause p).1 hA hB
  rw [(inrushAt_frame s m cause).portsLive]
  rfl

theorem startSupply_frame : PowerFrame supplyFields (s.modPwr (PwrState.toInrush cause)) (startSupply s m cause) :=
  .trans (inrushAt_frame s m cause) ((measure_frame _ m).mono (by decide))

end

/-- Inrush has started (02 R41, R44, R49, R57): both ports' voltages are shown, an open port is in SINK above 30 V and IDLE below, and nothing but the power page and
the power die's state differs. -/
def InrushShown (m : Meter) (cause : Option Nat) (s t : State) : Prop :=
  t.pwr = { s.pwr with phase := .inrush, booted := false, cause := cause, serialB := false, wantB := false, twist := 0, calm := 0, lowB := t.pwr.lowB, raisedA := false, raisedB := false } ∧
  t.get PWR_VIN_VA = m.vA ∧ t.get PWR_VIN_VB = m.vB ∧ t.pwr.raisedA = false ∧ t.pwr.raisedB = false ∧
  (t.get PWR_ST_PSTA = (if 3000 < m.vA then 3 else 0)) ∧ (t.get PWR_ST_PSTB = (if 3000 < m.vB then 3 else 0)) ∧
  t.bit PWR_ST_INA = (decide (0 < m.vA) && decide (m.vB ≤ m.vA + 10)) ∧ t.bit PWR_ST_INB = (decide (0 < m.vB) && decide (m.vA ≤ m.vB + 10)) ∧
  t.bit PWR_ST_TWARM = false ∧ t.get PWR_IPT_IA = 0 ∧ t.get PWR_IPT_IB = 0 ∧ { t with regs := s.regs, pwr := s.pwr, fresh := s.fresh } = s ∧
  sameBut [wholeWord 0x100, wholeWord 0x102, wholeWord 0x103, wholeWord 0x104, PWR_TWANG_ANGLE] s t

theorem startSupply_inrushShown (s : State) (m : Meter) (cause : Option Nat) (hA : m.vA < 65536) (hB : m.vB < 65536) :
    InrushShown m cause s (startSupply s m cause) := by
  have hframe := startSupply_frame s m cause
  have hpsta := (measure_pst (s.inrushAt m cause) m .a).trans (inrushAt_psta s m cause)
  have hpstb := (measure_pst (s.inrushAt m cause) m .b).trans (inrushAt_pstb s m cause)
  have hopen := inrushAt_open s m cause
  have hclosed (p : Port) : switchClosed (s.inrushAt m cause) p = false := switchClosed_of_pst rfl (hopen p)
  have hraisedA : (startSupply s m cause).pwr.raisedA = false := measure_raised _ m .a (hopen .a).1
  have hraisedB : (startSupply s m cause).pwr.raisedB = false := measure_raised _ m .b (hopen .b).1
  obtain ⟨htwarm, htwist, hcalm⟩ := measure_unmounted _ m (inrushAt_unmounted s m cause)
  rw [← startSupply_eq] at htwarm htwist hcalm hpsta hpstb
  have hpwr := hframe.pwr
  rw [htwist, hcalm, hraisedA, hraisedB] at hpwr
  exact ⟨hpwr, measure_volt _ m .a hA hB, measure_volt _ m .b hA hB, hraisedA, hraisedB, hpsta.trans (openState_decide _), hpstb.trans (openState_decide _),
    (showInputs_ina _).trans (inrushAt_conducts s m cause .a hA hB), (showInputs_inb _).trans (inrushAt_conducts s m cause .b hA hB), htwarm,
    measure_amp _ m .a (hclosed .a), measure_amp _ m .b (hclosed .b), hframe.rest_of_modPwr, sameBut_supplyFields hframe.regs⟩

/-- The power die's state without supply and firmware (02 R57). -/
def PwrState.toDark (cause : Option Nat) (p : PwrState) : PwrState := { p with phase := .off, booted := false, cause := cause }

section
variable (s : State) (cause : Option Nat)

theorem goDark_frame : PowerFrame supplyFields (s.modPwr (PwrState.toDark cause)) (goDark s cause) := by
  have hopen : PowerFrame supplyFields s (disarmTwist (openPorts s)) := .trans ((putPorts_frame s 6 6).mono (by decide)) ((disarmTwist_frame _).mono (by decide))
  exact hopen.modPwr_both fun _ => rfl

theorem goDark_pst (p : Port) : (goDark s cause).pst p = 6 := by
  have hdisarm : (goDark s cause).pst p = (s.putPorts 6 6).pst p := (disarmTwist_frame _).get _ (by cases p <;> decide)
  rw [hdisarm]
  cases p with
  | a => exact putPorts_psta s 6 6 (by decide)
  | b => exact putPorts_pstb s 6 6 (by decide)

theorem goDark_unmounted : (goDark s cause).get PWR_ST_MOUNTED = 0 := disarmTwist_mounted _

end

/-! ### The commands -/

section
variable {s : State} {m : Meter}

theorem exec_supplyRise (h : s.pwr.phase = .off) (hm : 3400 ≤ m.top) : exec (.supplyRise m) s = .next (startSupply s m s.pwr.cause) := by
  change execSupplyRise m s = _
  simp [execSupplyRise, h, hm]

theorem exec_lastGaspSequenceEnd_supplied (h : s.pwr.phase = .lastGasp) (hm : 3400 ≤ m.top) :
    exec (.lastGaspSequenceEnd m) s = .next (startSupply s m none) := by
  change execLastGaspSequenceEnd m s = _
  simp [execLastGaspSequenceEnd, h, hm]

theorem exec_lastGaspSequenceEnd_dark (h : s.pwr.phase = .lastGasp) (hm : m.top < 3400) :
    exec (.lastGaspSequenceEnd m) s = .next (measure (goDark s none) m) := by
  change execLastGaspSequenceEnd m s = _
  simp [execLastGaspSequenceEnd, h, Nat.not_le.2 hm]

theorem exec_twistRestartInrush (h : s.pwr.phase = .inputOpen) (hm : 3400 ≤ m.top) : exec (.twistRestartInrush m) s = .next (startSupply s m (some 7)) := by
  change execTwistRestartInrush m s = _
  simp [execTwistRestartInrush, h, hm]

theorem exec_undervoltage (h : s.pwr.phase = .running) (hlo : 3300 ≤ m.top) (hhi : m.top < 3600) :
    exec (.undervoltage m) s = .next ((measure s m).event PWR_EVT_UV) := by
  change execUndervoltage m s = _
  simp [execUndervoltage, h, hlo, hhi]

theorem exec_surge (h : s.pwr.phase = .running) (hm : 7500 < m.top) :
    exec (.surge m) s = .next (((measure s m).event PWR_EVT_SURGE).bump PWR_CNT_SURGECNT 1) := by
  change execSurge m s = _
  simp [execSurge, h, hm]

end

/-- Settles O1: a supply's rise, the end of the last gasp and the restart after a twist-release all start inrush by `startSupply`, whose frame and shown values are
those of its ports put in their open states and measured; without supply the last gasp ends in the dark module. -/
theorem supplyRiseBeginsInrushAndPortsShowTheirVoltages : Obligations.SupplyRiseBeginsInrushAndPortsShowTheirVoltages := by
  unfold Obligations.SupplyRiseBeginsInrushAndPortsShowTheirVoltages
  refine ⟨?_, ?_, ?_, ?_⟩
  · intro m s hphase hm hA hB
    exact ⟨_, exec_supplyRise hphase hm, startSupply_inrushShown s m _ hA hB⟩
  · intro m s hphase hm hA hB
    have hframe : PowerFrame supplyFields _ (measure (goDark s none) m) := (goDark_frame s none).trans ((measure_frame _ m).mono (by decide))
    have hopen (p : Port) : (goDark s none).pst p ≠ 2 := by simp [goDark_pst]
    have hraisedA : (measure (goDark s none) m).pwr.raisedA = false := measure_raised _ m .a (hopen .a)
    have hraisedB : (measure (goDark s none) m).pwr.raisedB = false := measure_raised _ m .b (hopen .b)
    obtain ⟨-, htwist, hcalm⟩ := measure_unmounted _ m (goDark_unmounted s none)
    have hpwr := hframe.pwr
    rw [htwist, hcalm, hraisedA, hraisedB] at hpwr
    exact ⟨_, exec_lastGaspSequenceEnd_dark hphase hm, hpwr, (measure_pst _ m .a).trans (goDark_pst s none .a), (measure_pst _ m .b).trans (goDark_pst s none .b),
      measure_volt _ m .a hA hB, measure_volt _ m .b hA hB, hframe.rest_of_modPwr, sameBut_supplyFields hframe.regs⟩
  · intro m s hphase hm hA hB
    exact ⟨_, exec_lastGaspSequenceEnd_supplied hphase hm, startSupply_inrushShown s m none hA hB⟩
  · intro m s hphase hm hA hB
    exact ⟨_, exec_twistRestartInrush hphase hm, startSupply_inrushShown s m (some 7) hA hB⟩

theorem undervoltage_frame (s : State) (m : Meter) : PowerFrame (PWR_EVT_UV :: measuredFields) s ((measure s m).event PWR_EVT_UV) :=
  .event ((measure_frame s m).mono (by decide)) (by decide) (by decide) rfl

theorem surge_frame (s : State) (m : Meter) :
    PowerFrame (PWR_EVT_SURGE :: PWR_CNT_SURGECNT :: measuredFields) s (((measure s m).event PWR_EVT_SURGE).bump PWR_CNT_SURGECNT 1) :=
  .bump (.event ((measure_frame s m).mono (by decide)) (by decide) (by decide) rfl) (by decide) (by decide) rfl

/-- Settles O4: both commands measure and set their event, which stands apart from what is measured; the surge counter saturates at 255. -/
theorem supplyEventsAreFlaggedAndCounted : Obligations.SupplyEventsAreFlaggedAndCounted := by
  unfold Obligations.SupplyEventsAreFlaggedAndCounted
  refine ⟨?_, ?_⟩
  · intro m s hphase hlo hhi hA hB
    have hframe := undervoltage_frame s m
    have hvolt (p : Port) : ((measure s m).event PWR_EVT_UV).get (portVolt p) = m.volt p := by
      rw [State.get_event_ne _ _ _ (by decide) (by cases p <;> decide), measure_volt s m p hA hB]
    exact ⟨_, exec_undervoltage hphase hlo hhi, State.get_event_same _ _ (by decide) rfl, hframe.rest, hframe.pwr, hframe.regs, hvolt .a, hvolt .b⟩
  · intro m s hphase hm hA hB
    have hframe := surge_frame s m
    have hevent : (((measure s m).event PWR_EVT_SURGE).bump PWR_CNT_SURGECNT 1).get PWR_EVT_SURGE = 1 := by
      rw [State.get_bump_ne _ _ _ _ (by decide) (by decide), State.get_event_same _ _ (by decide) rfl]
    have hcount : (((measure s m).event PWR_EVT_SURGE).bump PWR_CNT_SURGECNT 1).get PWR_CNT_SURGECNT = min 255 (s.get PWR_CNT_SURGECNT + 1) := by
      rw [State.get_bump_same _ _ _ (by decide), State.get_event_ne _ _ _ (by decide) (by decide), (measure_frame s m).get _ (by decide)]
      exact Nat.min_comm _ _
    have hvolt (p : Port) : (((measure s m).event PWR_EVT_SURGE).bump PWR_CNT_SURGECNT 1).get (portVolt p) = m.volt p := by
      rw [State.get_bump_ne _ _ _ _ (by decide) (by cases p <;> decide), State.get_event_ne _ _ _ (by decide) (by cases p <;> decide), measure_volt s m p hA hB]
    exact ⟨_, exec_surge hphase hm, hevent, hcount, hframe.rest, hframe.pwr, hframe.regs, hvolt .a, hvolt .b⟩

end Sys2Proof.Machine
end

section
/-!
PROOFS. The port states (02 R47 to R54): each command's transition, with what it shows and leaves.
-/

namespace Sys2Proof.Machine

/-! ### SOURCE (02 R49, R52) -/

/-- A port that a valid signature closes, before its inputs are shown. -/
def State.sourced (s : State) (p : Port) : State :=
  watchLow (setRaised ((putPort s p 2).set (portVolt p) (max (s.get PWR_VIN_VA) (s.get PWR_VIN_VB))) p true)

section
variable (s : State) (p : Port)

theorem sourcePort_eq : sourcePort s p = showInputs (s.sourced p) := rfl

theorem sourcePort_frame : PowerFrame (portState p :: portVolt p :: inputFields) s (sourcePort s p) := by
  refine .trans (.trans (.trans ?_ (setRaised_frame _ _ p true)) (watchLow_frame _ _)) ((showInputs_frame _).mono (by simp +contextual))
  exact .set ((putPort_closed_frame s p 2 (.inl rfl)).mono (by simp)) (by simp) (portVolt_ok p) rfl

/-- The registers of a port in SOURCE, up to what shows the inputs. -/
theorem sourcePort_get (g : Field) (hg : ∀ f ∈ inputFields, f.apart g) :
    (sourcePort s p).get g = ((putPort s p 2).set (portVolt p) (max (s.get PWR_VIN_VA) (s.get PWR_VIN_VB))).get g := by
  rw [sourcePort_eq, (showInputs_frame _).get g hg]
  rfl

theorem sourcePort_pst : (sourcePort s p).pst p = 2 := by
  refine (sourcePort_get s p _ (by cases p <;> decide)).trans ?_
  rw [State.get_set_ne _ _ _ _ (portVolt_ok p) (by cases p <;> decide)]
  exact putPort_pst s p 2 (by decide)

theorem sourcePort_volt : (sourcePort s p).get (portVolt p) = max (s.get PWR_VIN_VA) (s.get PWR_VIN_VB) := by
  rw [sourcePort_get s p _ (by cases p <;> decide), State.get_set_same _ _ _ (portVolt_ok p), portVolt_width]
  exact Nat.mod_eq_of_lt (Nat.max_lt.2 ⟨volt_lt s _ rfl, volt_lt s _ rfl⟩)

theorem sourced_raised : raised (s.sourced p) p = true := by cases p <;> rfl

theorem sourcePort_raised : raised (sourcePort s p) p = true := (showInputs_raised _ p).trans (sourced_raised s p)

/-- A port whose voltage is the module's own does not supply it (02 R52; log entry 34). -/
theorem sourcePort_unfed : (if p = .a then (sourcePort s p).bit PWR_ST_INA else (sourcePort s p).bit PWR_ST_INB) = false := by
  have hno : conducts (s.sourced p) p = false := by simp [conducts, sourced_raised]
  rw [sourcePort_eq]
  cases p with
  | a => exact (showInputs_ina _).trans hno
  | b => exact (showInputs_inb _).trans hno

end

/-! ### The faults and the release that latch an event -/

/-- The event and the counter of a pass-through fault (02 R51). -/
def faultEvent (p : Port) : Field := if p = .a then PWR_EVT_PTFLTA else PWR_EVT_PTFLTB
def faultCount (p : Port) : Field := if p = .a then PWR_CNT_PTFLTA else PWR_CNT_PTFLTB

/-- A port in HOLDOFF after a current fault. -/
def State.ptFault (s : State) (p : Port) (m : Meter) : State := ((measure (putPort s p 5) m).event (faultEvent p)).bump (faultCount p) 1

section
variable (s : State) (p : Port) (m : Meter)

theorem faultEvent_ok : (faultEvent p).ok := by cases p <;> decide
theorem faultCount_ok : (faultCount p).ok := by cases p <;> decide

theorem ptFault_frame : PowerFrame (portState p :: faultEvent p :: faultCount p :: measuredFields) s (s.ptFault p m) := by
  refine .bump (.event ((measure_putPort_frame s p 5 m).mono ?_) (by simp) (faultEvent_ok p) rfl) (by simp) (faultCount_ok p) rfl
  simp +contextual

theorem ptFault_pst : (s.ptFault p m).pst p = 5 := by
  unfold State.ptFault State.pst
  rw [State.get_bump_ne _ _ _ _ (faultCount_ok p) (by cases p <;> decide), State.get_event_ne _ _ _ (faultEvent_ok p) (by cases p <;> decide)]
  exact measure_putPort_pst s p 5 m (by decide)

theorem ptFault_event : (s.ptFault p m).get (faultEvent p) = 1 := by
  unfold State.ptFault
  rw [State.get_bump_ne _ _ _ _ (faultCount_ok p) (by cases p <;> decide)]
  exact State.get_event_same _ _ (faultEvent_ok p) (by cases p <;> rfl)

theorem ptFault_count : (s.ptFault p m).get (faultCount p) = min 255 (s.get (faultCount p) + 1) := by
  have hbefore : (measure (putPort s p 5) m).get (faultCount p) = s.get (faultCount p) :=
    (measure_putPort_frame s p 5 m).get _ (by cases p <;> decide)
  have hmax : 2 ^ (faultCount p).width - 1 = 255 := by cases p <;> rfl
  unfold State.ptFault
  rw [State.get_bump_same _ _ _ (faultCount_ok p), State.get_event_ne _ _ _ (faultEvent_ok p) (by cases p <;> decide), hbefore, hmax]
  exact Nat.min_comm _ _

end

/-- The event of an adjacent station's departure (02 R54). -/
def departureEvent (p : Port) : Field := if p = .a then PWR_EVT_DEPA else PWR_EVT_DEPB

theorem departureEvent_ok (p : Port) : (departureEvent p).ok := by cases p <;> decide

/-! ### The commands -/

section
variable {s : State} {p : Port} {m : Meter}

theorem exec_detectCycleStart (hlive : portsLive s = true) (hphase : s.pwr.phase ≠ .inrush) (hpst : s.pst p = 0) :
    exec (.detectCycleStart p) s = .next (putPort s p 1) := by
  change execDetectCycleStart p s = _
  simp [execDetectCycleStart, hlive, hphase, hpst]

theorem exec_detectCycleEnd (listen i1 i2 : Nat) (hlive : portsLive s = true) (hpst : s.pst p = 1) :
    exec (.detectCycleEnd p listen i1 i2) s = .next (if listen ≤ 200 ∧ signatureValid i1 i2 then sourcePort s p else putPort s p 0) := by
  change execDetectCycleEnd p listen i1 i2 s = _
  simp [execDetectCycleEnd, hlive, hpst]

theorem exec_portAbove30V (hlive : portsLive s = true) (hpst : s.pst p = 0 ∨ s.pst p = 1) (hv : 3000 < m.volt p) :
    exec (.portAbove30V p m) s = .next (measure (putPort s p 3) m) := by
  change execPortAbove30V p m s = _
  simp [execPortAbove30V, hlive, hpst, hv]

theorem exec_portBelow30V (hlive : portsLive s = true) (hpst : s.pst p = 3) (hv : m.volt p < 3000) :
    exec (.portBelow30V p m) s = .next (measure (putPort s p 0) m) := by
  change execPortBelow30V p m s = _
  simp [execPortBelow30V, hlive, hpst, hv]

theorem exec_portJoin (hlive : portsLive s = true) (hpst : s.pst p = 3) (hv : 3600 ≤ m.volt p) (htop : m.top ≤ m.volt p + 200) :
    exec (.portJoin p m) s = .next (measure (putPort s p 4) m) := by
  change execPortJoin p m s = _
  simp [execPortJoin, hlive, hpst, hv, htop]

theorem exec_ptCurrentFault (hlive : portsLive s = true) (hclosed : switchClosed s p = true) (hamp : 1900 ≤ m.amp p) :
    exec (.ptCurrentFault p m) s = .next (s.ptFault p m) := by
  change execPtCurrentFault p m s = _
  cases p <;> simp [execPtCurrentFault, hlive, hclosed, hamp, State.ptFault, faultEvent, faultCount]

theorem exec_ptLinkLossRelease (hlive : portsLive s = true) (hclosed : switchClosed s p = true) (hlink : linkUp s p = false) (hamp : m.amp p < 10) :
    exec (.ptLinkLossRelease p m) s = .next (measure (putPort s p (openState (decide (3000 < m.volt p)))) m) := by
  change execPtLinkLossRelease p m s = _
  simp [execPtLinkLossRelease, hlive, hclosed, hlink, hamp]

theorem exec_departureBlazeReceive {b : Blaze} (hphase : s.pwr.phase = .running) (hboot : s.pwr.booted = true) (hclosed : switchClosed s p = true)
    (hsrc : b.src = 0) (hkind : b.kind = 1) (hstn : b.stn = neighbour s p) (hknown : neighbour s p ≠ 0xFE) :
    exec (.departureBlazeReceive p b) s = .next ((putPort s p 5).event (departureEvent p)) := by
  change execDepartureBlazeReceive p b s = _
  simp [execDepartureBlazeReceive, hphase, hboot, hclosed, hsrc, hkind, hstn, hknown, departureEvent]

theorem exec_holdoffEnd (hlive : portsLive s = true) (hpst : s.pst p = 5) :
    exec (.holdoffEnd p m) s = .next (measure (putPort s p (openState (decide (3000 < m.volt p)))) m) := by
  change execHoldoffEnd p m s = _
  simp [execHoldoffEnd, hlive, hpst]

end

/-! ### No signature -/

/-- A port that is probed presents no signature (02 R47). -/
theorem presentsSignature_detect {s : State} {p : Port} (h : s.pst p = 1) : presentsSignature s p = false := by simp [presentsSignature, h]

/-- A port above 30 V presents no signature (02 R47). -/
theorem presentsSignature_above {s : State} {p : Port} (h : 3000 < s.get (portVolt p)) : presentsSignature s p = false := by
  simp [presentsSignature, Nat.not_le.2 h]

theorem measure_putPort_openState (s : State) (p : Port) (m : Meter) :
    (measure (putPort s p (openState (decide (3000 < m.volt p)))) m).pst p = if 3000 < m.volt p then 3 else 0 :=
  (measure_putPort_pst s p _ m (openState_lt _)).trans (openState_decide _)

/-- Settles O5: every command of R49's table puts its port into one state, most of them with a measurement, and the frames and readings of `putPort` and `measure` give
its clause. -/
theorem portStatesFollowTheTable : Obligations.PortStatesFollowTheTable := by
  unfold Obligations.PortStatesFollowTheTable
  refine ⟨?_, ?_, ?_, ?_, ?_, ?_, ?_, ?_, ?_, ?_, ?_⟩
  · intro p s hlive hphase hpst
    have hframe := putPort_frame s p 1
    have hone := putPort_pst s p 1 (by decide)
    exact ⟨_, exec_detectCycleStart hlive hphase hpst, hone, presentsSignature_detect hone, hframe.pwr, hframe.rest, hframe.regs⟩
  · intro p listen i1 i2 s hlive hpst hquiet hvalid
    have hframe := sourcePort_frame s p
    have hexec := exec_detectCycleEnd listen i1 i2 hlive hpst
    rw [if_pos ⟨hquiet, hvalid⟩] at hexec
    exact ⟨_, hexec, sourcePort_pst s p, sourcePort_raised s p, sourcePort_unfed s p, sourcePort_volt s p, hframe.rest, hframe.pwr, hframe.regs⟩
  · intro p listen i1 i2 s hlive hpst hbad
    have hframe := putPort_frame s p 0
    have hexec := exec_detectCycleEnd listen i1 i2 hlive hpst
    have hnot : ¬(listen ≤ 200 ∧ signatureValid i1 i2 = true) := by
      rintro ⟨hquiet, hvalid⟩
      rcases hbad with hloud | hinvalid
      · omega
      · simp [hinvalid] at hvalid
    rw [if_neg hnot] at hexec
    exact ⟨_, hexec, putPort_pst s p 0 (by decide), hframe.pwr, hframe.rest, hframe.regs⟩
  · intro p m s hlive hpst hv hA hB
    have hframe := measure_putPort_frame s p 3 m
    have hvolt (q : Port) := measure_volt (putPort s p 3) m q hA hB
    exact ⟨_, exec_portAbove30V hlive hpst hv, measure_putPort_pst s p 3 m (by decide), presentsSignature_above (hv.trans_eq (hvolt p).symm), hvolt .a, hvolt .b,
      hframe.rest, hframe.pwr, hframe.regs⟩
  · intro p m s hlive hpst hv hA hB
    have hframe := measure_putPort_frame s p 0 m
    have hvolt (q : Port) := measure_volt (putPort s p 0) m q hA hB
    exact ⟨_, exec_portBelow30V hlive hpst hv, measure_putPort_pst s p 0 m (by decide), hvolt .a, hvolt .b, hframe.rest, hframe.pwr, hframe.regs⟩
  · intro p m s hlive hpst hv htop hA hB
    have hframe := measure_putPort_frame s p 4 m
    have hvolt (q : Port) := measure_volt (putPort s p 4) m q hA hB
    exact ⟨_, exec_portJoin hlive hpst hv htop, measure_putPort_pst s p 4 m (by decide), hvolt .a, hvolt .b, hframe.rest, hframe.pwr, hframe.regs⟩
  · intro m s hlive hclosed hamp
    have hframe := ptFault_frame s .a m
    exact ⟨_, exec_ptCurrentFault hlive hclosed hamp, ptFault_pst s .a m, ptFault_event s .a m, ptFault_count s .a m, hframe.rest, hframe.pwr, hframe.regs⟩
  · intro m s hlive hclosed hamp
    have hframe := ptFault_frame s .b m
    exact ⟨_, exec_ptCurrentFault hlive hclosed hamp, ptFault_pst s .b m, ptFault_event s .b m, ptFault_count s .b m, hframe.rest, hframe.pwr, hframe.regs⟩
  · intro p m s hlive hclosed hlink hamp
    have hframe := measure_putPort_frame s p (openState (decide (3000 < m.volt p))) m
    exact ⟨_, exec_ptLinkLossRelease hlive hclosed hlink hamp, measure_putPort_openState s p m, hframe.rest, hframe.pwr, hframe.regs⟩
  · intro p b s hphase hboot hclosed hsrc hkind hstn hknown
    have hframe : PowerFrame [portState p, portAmp p, departureEvent p] s ((putPort s p 5).event (departureEvent p)) :=
      .event ((putPort_frame s p 5).mono (by simp)) (by simp) (departureEvent_ok p) rfl
    have hpst : ((putPort s p 5).event (departureEvent p)).pst p = 5 :=
      (State.get_event_ne _ _ _ (departureEvent_ok p) (by cases p <;> decide)).trans (putPort_pst s p 5 (by decide))
    exact ⟨_, exec_departureBlazeReceive hphase hboot hclosed hsrc hkind hstn hknown, hpst,
      State.get_event_same _ _ (departureEvent_ok p) (by cases p <;> rfl), hframe.pwr, hframe.rest, hframe.regs⟩
  · intro p m s hlive hpst
    have hframe := measure_putPort_frame s p (openState (decide (3000 < m.volt p))) m
    exact ⟨_, exec_holdoffEnd hlive hpst, measure_putPort_openState s p m, hframe.rest, hframe.pwr, hframe.regs⟩

end Sys2Proof.Machine
end

section
/-!
PROOFS. PWR_CTL (02 R65) and the serial use of port B (02 R38), with what the end of a port's link (14 R343) leaves.
-/

namespace Sys2Proof.Machine

/-! ### PWR_CTL -/

/-- The bits of PWR_CTL that a write stores (19 R466). -/
theorem accMask_pwrCtl : accMask 0x101 .rw = 2 ^ 3 - 1 := by decide

theorem getLsbD_storeRw_pwrCtl (s : State) (v : Word) (i : Nat) :
    ((storeRw s 0x101 v).word 0x101).getLsbD i = if i < 3 then v.getLsbD i else (s.word 0x101).getLsbD i := by
  unfold storeRw
  rw [State.word_setWord_same, accMask_pwrCtl]
  by_cases h32 : i < 32
  · simp only [BitVec.getLsbD_or, BitVec.getLsbD_and, BitVec.getLsbD_not, BitVec.getLsbD_ofNat, Nat.testBit_two_pow_sub_one, h32, decide_true, Bool.true_and]
    by_cases h3 : i < 3 <;> simp [h3]
  · have hge : 32 ≤ i := Nat.not_lt.1 h32
    rw [if_neg (by omega), BitVec.getLsbD_of_ge _ _ hge, BitVec.getLsbD_of_ge _ _ hge]

theorem storeRw_pwrCtl_get (s : State) (v : Word) (g : Field) (hw : g.word = 0x101) (hg : g.lo + g.width ≤ 3) :
    (storeRw s 0x101 v).get g = getBits v g.lo g.width := by
  apply Nat.eq_of_testBit_eq
  intro i
  rw [State.get, hw, testBit_getBits, testBit_getBits, getLsbD_storeRw_pwrCtl]
  by_cases hi : i < g.width
  · rw [if_pos (by omega)]
  · simp [hi]

theorem storeRw_pwrCtl_frame (s : State) (v : Word) : PowerFrame [PWR_CTL_TWEN, PWR_CTL_PTEN] s (storeRw s 0x101 v) := by
  refine ⟨?_, rfl⟩
  intro a i hi
  by_cases ha : a = 0x101
  · subst ha
    have h3 : ¬i < 3 := by
      intro h
      have hno := List.any_eq_false.1 hi
      rcases Nat.lt_or_ge i 2 with hlt | hge
      · exact hno PWR_CTL_PTEN (by decide) (by simp [Field.has, PWR_CTL_PTEN, hlt])
      · obtain rfl : i = 2 := by omega
        exact hno PWR_CTL_TWEN (by decide) (by decide)
    rw [getLsbD_storeRw_pwrCtl, if_neg h3]
  · unfold storeRw
    rw [State.word_setWord_ne _ _ _ _ ha]

theorem followEnable_frame (s : State) (p : Port) : PowerFrame [portState p, portAmp p] s (followEnable s p) := by
  unfold followEnable
  split
  · exact putPort_frame s p 6
  · split
    · exact putPort_frame s p _
    · exact .refl _ _ s

/-- A port whose enable is cleared goes to OFF (02 R49, R51). -/
theorem followEnable_disabled (s : State) (p : Port) (h : ptEnabled s p = false) : (followEnable s p).pst p = 6 := by
  unfold followEnable
  rw [h]
  exact putPort_pst s p 6 (by decide)

theorem ptEnabled_of_pten {s : State} (h : (s.get PWR_CTL_PTEN).testBit 0 = false) : ptEnabled s .a = false := by simp [ptEnabled, h]

section
variable (s : State) (v : Word)

/-- A write of PWR_CTL in a live module, before the inputs are shown. -/
def State.enabled (s : State) (v : Word) : State := followEnable (followEnable (storeRw s 0x101 v) .a) .b

theorem writePwrCtl_live (h : s.live = true) : writePwrCtl s v = showInputs (s.enabled v) := by
  have hlive : (storeRw s 0x101 v).live = true := h
  simp [writePwrCtl, hlive, State.enabled]

theorem enabled_ports_frame : PowerFrame [PWR_ST_PSTA, PWR_ST_PSTB, PWR_IPT_IA, PWR_IPT_IB] (storeRw s 0x101 v) (s.enabled v) :=
  .trans ((followEnable_frame _ .a).mono (by decide)) ((followEnable_frame _ .b).mono (by decide))

theorem showInputs_enabled_frame :
    PowerFrame [PWR_CTL_TWEN, PWR_CTL_PTEN, PWR_ST_PSTA, PWR_ST_PSTB, PWR_IPT_IA, PWR_IPT_IB, PWR_ST_INA, PWR_ST_INB, PWR_ST_TWARM, PWR_TWANG_ANGLE] s
      (showInputs (s.enabled v)) :=
  .trans (.trans ((storeRw_pwrCtl_frame s v).mono (by decide)) ((enabled_ports_frame s v).mono (by decide))) ((showInputs_frame _).mono (by decide))

theorem showInputs_enabled_ctl (g : Field) (hw : g.word = 0x101) (hg : g.lo + g.width ≤ 3) :
    (showInputs (s.enabled v)).get g = getBits v g.lo g.width := by
  have happart (l : List Field) (hl : ∀ f ∈ l, f.word ≠ 0x101) : ∀ f ∈ l, f.apart g := fun f hf => .inl (hw ▸ hl f hf)
  rw [(showInputs_frame _).get g (happart _ (by decide)), (enabled_ports_frame s v).get g (happart _ (by decide)), storeRw_pwrCtl_get s v g hw hg]

theorem showInputs_enabled_psta (h : v.getLsbD 0 = false) : (showInputs (s.enabled v)).pst .a = 6 := by
  have hshown : (showInputs (s.enabled v)).pst .a = (s.enabled v).pst .a := (showInputs_frame _).get _ (by decide)
  have hb : (s.enabled v).pst .a = (followEnable (storeRw s 0x101 v) .a).pst .a := (followEnable_frame _ .b).get _ (by decide)
  rw [hshown, hb]
  refine followEnable_disabled _ _ (ptEnabled_of_pten ?_)
  rw [storeRw_pwrCtl_get s v PWR_CTL_PTEN rfl (by decide), testBit_getBits]
  simpa [PWR_CTL_PTEN] using h

end

/-! ### The end of a link leaves the power page, the power die, the keys and the flash -/

/-- What the end of a link does not reach beside the registers. -/
def linkView (s : State) : PwrState × KeyState × FlashState := (s.pwr, s.keys, s.flash)

theorem showRingSt_frame (s : State) : ViewFrame linkView [PORT_ST_RINGST, PORT_EVT_RINGCHG] s (showRingSt s) := by
  unfold showRingSt
  exact .ite (.refl _ _ s) (.event (.set (.refl _ _ s) (by decide) (by decide) rfl) (by decide) (by decide) rfl)

theorem holdServo_frame (s : State) : ViewFrame linkView [TIME_INC_FRAC, TIME_INC_NS, TIME_Y_Y] s (holdServo s) := by
  unfold holdServo loadY
  exact .modTime (.setI (.set (.set (.refl _ _ s) (by decide) (by decide) rfl) (by decide) (by decide) rfl) (by decide) (by decide) rfl) rfl

/-- The fields of the re-route guard and of the increment it holds (03 R87, R70). -/
def guardFields : List Field := [TIME_ST_GUARD, TIME_EVT_GUARD, TIME_CNT_GUARDCNT, TIME_INC_FRAC, TIME_INC_NS, TIME_Y_Y]

theorem openGuard_frame (s : State) : ViewFrame linkView guardFields s (openGuard s) := by
  unfold openGuard
  refine .ite (.refl _ _ s) (.trans (.modTime ?_ rfl) (ViewFrame.mono (holdServo_frame _) (by decide)))
  exact .bump (.event (.set (.refl _ _ s) (by decide) (by decide) rfl) (by decide) (by decide) rfl) (by decide) (by decide) rfl

theorem reselect_frame (s : State) : ViewFrame linkView [TIME_ST_SLAVEPORT] s (reselect s) := by
  unfold reselect
  split
  · exact .refl _ _ s
  · exact .modTime (.set (.refl _ _ s) (by decide) (by decide) rfl) rfl

/-- Out of LOAD no Coppice choice hangs on a link (15 R392). -/
theorem custodyLinkDown_frame (s : State) (p : Port) (h : s.mode ≠ 4) : ViewFrame linkView [nbrStn p, nbrCstn p] s (custodyLinkDown s p) := by
  have hchosen : (looking s || (s.mode == 4 && s.get CP_ST_STEP == 2 && s.get CP_ST_SRCPORT == (if p = .a then 1 else 2))) = false := by
    simp [looking, h]
  unfold custodyLinkDown
  rw [hchosen]
  have hset : ViewFrame linkView [nbrStn p, nbrCstn p] s ((s.set (nbrStn p) 0xFE).set (nbrCstn p) 0xFE) :=
    .set (.set (.refl _ _ s) (by simp) (by cases p <;> decide) rfl) (by simp) (by cases p <;> decide) rfl
  exact hset.beside rfl rfl

/-- The fields of a link change on port B (14 R343, R347; 03 R76, R87). -/
def linkChangeFields : List Field := PORT_EVT_LINKB :: PORT_ST_RINGST :: PORT_EVT_RINGCHG :: TIME_PDLYB_D :: guardFields

theorem reclaim_frame (l : List Field) (s : State) : ViewFrame linkView l s (reclaim s) := (ViewFrame.refl linkView l s).beside rfl rfl

theorem setDelays_frame (s : State) : ViewFrame linkView [TIME_PDLYB_D] s (setDelays s .b []) := by
  unfold setDelays
  exact .setI (.modTime (.refl _ _ s) rfl) (by decide) (by decide) rfl

/-- A link change before the notice to the ring's manager. -/
def State.linkChanged (s : State) (up : Bool) : State :=
  let s := showRingSt (s.event (linkEvent .b))
  setDelays ((openGuard (if up && s.bit TIME_ST_GUARD then s else reclaim s)).modTime fun t => setReq t .b none) .b []

theorem linkChanged_frame (s : State) (up : Bool) : ViewFrame linkView linkChangeFields s (s.linkChanged up) := by
  have hring : ViewFrame linkView linkChangeFields s (showRingSt (s.event (linkEvent .b))) :=
    .trans (.event (.refl _ _ s) (by decide) (by decide) rfl) ((showRingSt_frame _).mono (by decide))
  unfold State.linkChanged
  refine .trans (.modTime (.trans ?_ ((openGuard_frame _).mono (by decide))) rfl) ((setDelays_frame _).mono (by decide))
  exact .ite hring (.trans hring (reclaim_frame _ _))

/-- The notice (14 R347) is a frame in a queue. -/
theorem linkChange_frame (s : State) (up : Bool) : ViewFrame linkView linkChangeFields s (linkChange s .b up) := by
  have hchanged := linkChanged_frame s up
  have hnet (f : NetState → NetState) : ViewFrame linkView linkChangeFields s ((s.linkChanged up).modNet f) := .modNet hchanged rfl
  unfold linkChange
  exact .ite (.ite (.send (hnet _) rfl) (hnet _)) hchanged

/-- The fields that the end of port B's link changes. -/
def portDownFields : List Field :=
  [PORT_ST_LINKB, PORT_ST_AMPB, PORT_ST_ANB, PORT_ST_SQIB, PORT_LCNT_LDOWNB, TIME_ST_SLAVEPORT, nbrStn .b, nbrCstn .b] ++ linkChangeFields

/-- Port B's fields of PORT_ST as its link ends. -/
def State.unlinkedB (s : State) : State := (setPort s .b false false false 0).bump PORT_LCNT_LDOWNB 1

theorem unlinkedB_frame (s : State) : ViewFrame linkView portDownFields s s.unlinkedB := by
  unfold State.unlinkedB setPort
  exact .bump (.set (.setB (.setB (.setB (.refl _ _ s) (by decide) (by decide) rfl) (by decide) (by decide) rfl) (by decide) (by decide) rfl)
    (by decide) (by decide) rfl) (by decide) (by decide) rfl

theorem unlinkedB_linkUp (s : State) : linkUp s.unlinkedB .b = false := by
  refine State.bit_of_get_zero (f := PORT_ST_LINKB) ?_
  unfold State.unlinkedB setPort
  rw [State.get_bump_ne _ _ _ _ (by decide) (by decide)]
  dsimp only
  rw [if_neg (by decide), State.get_set_ne _ _ _ _ (by decide) (by decide), State.get_setB_ne _ _ _ _ (by decide) (by decide),
    State.get_setB_ne _ _ _ _ (by decide) (by decide), State.get_setB_same _ _ _ (by decide) rfl]
  rfl

/-- After port B's fields its frames, the masters heard on it and the filtering database are lost. -/
def State.mastersLostB (s : State) : State :=
  (reselect ((losePort s.unlinkedB .b).modTime fun t => forgetMasters t .b)).modNet fun n => { n with fdb := [] }

theorem mastersLostB_frame (s : State) : ViewFrame linkView [TIME_ST_SLAVEPORT] s.unlinkedB s.mastersLostB := by
  have hlost : ViewFrame linkView [TIME_ST_SLAVEPORT] s.unlinkedB (losePort s.unlinkedB .b) := (ViewFrame.refl _ _ _).beside rfl rfl
  unfold State.mastersLostB
  exact .modNet (.trans (.modTime hlost rfl) (reselect_frame _)) rfl

theorem portDown_eq (s : State) :
    portDown s .b = linkChange (custodyLinkDown s.mastersLostB .b) .b false := rfl

theorem portDown_frame_after (s : State) (h : s.mode ≠ 4) :
    ViewFrame linkView ([TIME_ST_SLAVEPORT, nbrStn .b, nbrCstn .b] ++ linkChangeFields) s.unlinkedB (portDown s .b) := by
  have hmode : s.mastersLostB.mode ≠ 4 :=
    (((mastersLostB_frame s).get MD_ST_MODE (by decide)).trans ((unlinkedB_frame s).get MD_ST_MODE (by decide))).trans_ne h
  rw [portDown_eq]
  refine .trans (.trans ((mastersLostB_frame s).mono (by decide)) ?_) ((linkChange_frame _ false).mono (by decide))
  exact (custodyLinkDown_frame _ .b hmode).mono (by decide)

theorem portDown_frame (s : State) (h : s.mode ≠ 4) : ViewFrame linkView portDownFields s (portDown s .b) :=
  (unlinkedB_frame s).trans ((portDown_frame_after s h).mono (by decide))

theorem portDown_linkUp (s : State) (h : s.mode ≠ 4) : linkUp (portDown s .b) .b = false :=
  ((portDown_frame_after s h).bit PORT_ST_LINKB (by decide)).trans (unlinkedB_linkUp s)

/-! ### Port B in serial use (02 R38) -/

/-- Port B's switch and diode elements open for serial use. -/
def State.serialOpened (s : State) : State := showInputs (putPort (s.modPwr fun p => { p with serialB := true, wantB := false }) .b 6)

theorem takeSerial_eq (s : State) : takeSerial s = auxToSerial (if linkUp s.serialOpened .b then portDown s.serialOpened .b else s.serialOpened) := rfl

section
variable (s : State)

theorem serialOpened_frame :
    PowerFrame (PWR_ST_PSTB :: PWR_IPT_IB :: inputFields) (s.modPwr fun p => { p with serialB := true, wantB := false }) s.serialOpened :=
  .trans ((putPort_frame _ .b 6).mono (by decide)) ((showInputs_frame _).mono (by decide))

theorem serialOpened_pst : s.serialOpened.pst .b = 6 :=
  ((showInputs_frame _).get _ (by decide)).trans (putPort_pst _ .b 6 (by decide))

/-- A port in serial use does not supply the module. -/
theorem serialOpened_inb : s.serialOpened.bit PWR_ST_INB = false := by
  refine (showInputs_inb _).trans ?_
  have hserial := PowerFrame.serialB (putPort_frame (s.modPwr fun p => { p with serialB := true, wantB := false }) .b 6)
  simp [conducts, hserial]

/-- The serial use of AUX (06 R154) and the end of port B's link reach neither the power page nor what `linkView` shows. -/
theorem takeSerial_frame (h : s.mode ≠ 4) : ViewFrame linkView (AUX_ST_LEVEL :: AUX_ST_SVC :: portDownFields) s.serialOpened (takeSerial s) := by
  have hmode : s.serialOpened.mode ≠ 4 := ((serialOpened_frame s).get MD_ST_MODE (by decide)).trans_ne h
  have hdown := (portDown_frame s.serialOpened hmode).mono (m := AUX_ST_LEVEL :: AUX_ST_SVC :: portDownFields) (by decide)
  rw [takeSerial_eq]
  unfold auxToSerial holdLevel
  exact .set (.set (ViewFrame.beside (ViewFrame.ite hdown (.refl _ _ _)) rfl rfl) (by decide) (by decide) rfl) (by decide) (by decide) rfl

theorem takeSerial_linkUp (h : s.mode ≠ 4) : linkUp (takeSerial s) .b = false := by
  have hmode : s.serialOpened.mode ≠ 4 := ((serialOpened_frame s).get MD_ST_MODE (by decide)).trans_ne h
  have haux (t : State) : linkUp (auxToSerial t) .b = linkUp t .b := by
    change ((t.set AUX_ST_LEVEL 0).set AUX_ST_SVC 1).bit PORT_ST_LINKB = t.bit PORT_ST_LINKB
    simp only [State.bit]
    rw [State.get_set_ne _ _ _ _ (by decide) (by decide), State.get_set_ne _ _ _ _ (by decide) (by decide)]
  rw [takeSerial_eq, haux]
  split
  · exact portDown_linkUp _ hmode
  · rename_i hdown
    exact Bool.eq_false_iff.2 hdown

end

/-! ### Port B stays low through a measurement -/

/-- A measurement below 2 V leaves since when port B is low (02 R38). -/
theorem measure_lowB (s : State) (m : Meter) (hpst : s.pst .b ≠ 1) (hv : m.vB < 200) (hsince : s.pwr.lowB.isSome = true) :
    (measure s m).pwr.lowB = s.pwr.lowB := by
  have hshow (t : State) : (showInputs t).pwr.lowB = t.pwr.lowB := by
    unfold showInputs showArmed
    split <;> rfl
  obtain ⟨n, hn⟩ := Option.isSome_iff_exists.1 hsince
  let u := noteFed (noteFed ((s.set PWR_VIN_VA m.vA).set PWR_VIN_VB m.vB) .a) .b
  have hvolt : u.get PWR_VIN_VB < 200 := by
    have h : u.get PWR_VIN_VB = m.vB % 2 ^ 16 := State.get_set_same _ _ _ (by decide)
    omega
  have hu : u.pst .b ≠ 1 := by
    have h : u.pst .b = s.pst .b := (State.get_set_ne _ _ _ _ (by decide) (by decide)).trans (State.get_set_ne _ _ _ _ (by decide) (by decide))
    exact h.trans_ne hpst
  rw [measure_eq, hshow]
  change (watchLow u).pwr.lowB = s.pwr.lowB
  have hlow : u.pwr.lowB = some n := hn
  simp [watchLow, hvolt, hu, hlow, hn]

theorem lowSince_isSome {s : State} {n : Nat} (h : lowSince s n = true) : s.pwr.lowB.isSome = true := by
  unfold lowSince at h
  cases hlow : s.pwr.lowB with
  | none => simp [hlow] at h
  | some x => rfl

theorem measure_lowSince (s : State) (m : Meter) (hpst : s.pst .b ≠ 1) (hv : m.vB < 200) (h : lowSince s 0 = true) : lowSince (measure s m) 0 = true := by
  have hticks : (measure s m).pwr.ticks = s.pwr.ticks := (congrArg (fun x : State => x.pwr.ticks) (measure_frame s m).kept :)
  rwa [lowSince, measure_lowB s m hpst hv (lowSince_isSome h), hticks]

/-! ### The commands -/

theorem exec_pwrCtlWrite {s : State} {i : Initiator} (v : Word) (hdoor : doorOpen s i 0x101 = true) (hlive : s.live = true) :
    exec (.pwrCtlWrite i v) s = .next (showInputs (s.enabled v)) := by
  change Host.Outcome.next (atDoor s i 0x101 fun s => writePwrCtl s v) = _
  rw [atDoor_open _ _ _ _ hdoor, writePwrCtl_live s v hlive]

theorem exec_sspPortBTake {s : State} {m : Meter} (hlive : s.live = true) (hmode : s.mode = 9 ∨ s.mode = 11) (hserial : s.pwr.serialB = false)
    (hopen : switchClosed s .b = false) (hlow : lowSince (measure s m) 0 = true) : exec (.sspPortBTake m) s = .next (takeSerial (measure s m)) := by
  change execSspPortBTake m s = _
  simp [execSspPortBTake, hlive, hmode, hserial, hopen, hlow]

/-- Settles O7: a write of PWR_CTL stores its bits and lets the ports follow them; the serial use of port B opens it after a measurement, and neither the end of its link nor AUX
reaches the power page. -/
theorem portEnablesAndSerialUse : Obligations.PortEnablesAndSerialUse := by
  unfold Obligations.PortEnablesAndSerialUse
  refine ⟨?_, ?_⟩
  · intro i v s hdoor hlive hbit
    have hframe := showInputs_enabled_frame s v
    have hpten : (showInputs (s.enabled v)).get PWR_CTL_PTEN = v.toNat % 4 := showInputs_enabled_ctl s v _ rfl (by decide)
    have htwen : (showInputs (s.enabled v)).get PWR_CTL_TWEN = v.toNat / 4 % 2 := by
      rw [showInputs_enabled_ctl s v _ rfl (by decide)]
      simp [getBits, PWR_CTL_TWEN, Nat.shiftRight_eq_div_pow]
    exact ⟨_, exec_pwrCtlWrite v hdoor hlive, showInputs_enabled_psta s v hbit, hpten, htwen, hframe.rest, hframe.pwr, hframe.regs⟩
  · intro m s hlive hmode hserial hopen hv _ hpst hlow hA hB
    have hmeasured := measure_frame s m
    have hopened := serialOpened_frame (measure s m)
    have hload : (measure s m).mode ≠ 4 := by
      have h : (measure s m).mode = s.mode := hmeasured.get MD_ST_MODE (by decide)
      omega
    have htaken := takeSerial_frame (measure s m) hload
    have hpwr : (takeSerial (measure s m)).pwr = (measure s m).serialOpened.pwr := congrArg Prod.fst htaken.kept
    have hkeys : (takeSerial (measure s m)).keys = (measure s m).serialOpened.keys := congrArg (fun x => x.2.1) htaken.kept
    have hflash : (takeSerial (measure s m)).flash = (measure s m).serialOpened.flash := congrArg (fun x => x.2.2) htaken.kept
    have hvolt (p : Port) : (takeSerial (measure s m)).get (portVolt p) = m.volt p := by
      rw [htaken.get _ (by cases p <;> decide), hopened.get _ (by cases p <;> decide)]
      exact measure_volt s m p hA hB
    refine ⟨_, exec_sspPortBTake hlive hmode hserial hopen (measure_lowSince s m hpst hv hlow), ?_, hvolt .a, hvolt .b, ?_, ?_, ?_, ?_, ?_⟩
    · rw [hpwr]
      exact PowerFrame.pwr (.trans ((hmeasured.modPwr_both fun _ => rfl).mono (by decide)) (hopened.mono (m := PWR_ST_PSTB :: measuredFields) (by decide)))
    · exact (htaken.get _ (by decide)).trans (serialOpened_pst _)
    · exact (htaken.bit _ (by decide)).trans (serialOpened_inb _)
    · exact takeSerial_linkUp _ hload
    · exact hkeys.trans (hopened.keys.trans hmeasured.keys)
    · exact hflash.trans (hopened.flash.trans hmeasured.flash)

end Sys2Proof.Machine
end

section
/-!
PROOFS. Twist-release (02 R59 to R61): stillness arms it, calm samples clear its integral, and its trigger seals the module's departure.
-/

namespace Sys2Proof.Machine

/-! ### Stillness -/

theorem showArmed_mounted_frame (s : State) : PowerFrame [PWR_ST_MOUNTED, PWR_ST_TWARM, PWR_TWANG_ANGLE] s (showArmed (s.set PWR_ST_MOUNTED 1)) :=
  .trans (.set (.refl _ _ s) (by decide) (by decide) rfl) ((showArmed_frame _).mono (by decide))

theorem showArmed_mounted (s : State) : (showArmed (s.set PWR_ST_MOUNTED 1)).get PWR_ST_MOUNTED = 1 :=
  ((showArmed_frame _).get _ (by decide)).trans (State.get_set_same _ _ _ (by decide))

/-- A mounted module is armed when it is enabled and supplied and its run is not ending (02 R59). -/
theorem twistArmed_mounted (s : State) : twistArmed (s.set PWR_ST_MOUNTED 1) =
    (s.bit PWR_CTL_TWEN && (s.bit PWR_ST_INA || s.bit PWR_ST_INB) && !s.modes.stopped && s.mode != 10) := by
  have hother (g : Field) (h : PWR_ST_MOUNTED.apart g) : (s.set PWR_ST_MOUNTED 1).get g = s.get g := State.get_set_ne _ _ _ _ (by decide) h
  have hmounted : (s.set PWR_ST_MOUNTED 1).get PWR_ST_MOUNTED = 1 := State.get_set_same _ _ _ (by decide)
  simp only [twistArmed, State.bit, State.mode, hmounted, hother PWR_CTL_TWEN (by decide), hother PWR_ST_INA (by decide), hother PWR_ST_INB (by decide),
    hother MD_ST_MODE (by decide), State.set_modes, beq_self_eq_true, Bool.true_and]

/-! ### The integral -/

/-- The power die's state without the integral of twist-release. -/
def PwrState.untwisted (p : PwrState) : PwrState := { p with twist := 0, calm := 0, twistT := 0 }

/-- Only the integral and the angle it shows differ. -/
abbrev TwistFrame (s t : State) : Prop := ViewFrame (besidePower PwrState.untwisted) [PWR_TWANG_ANGLE] s t

section
variable {s t : State} {x : Nat × Int}

theorem TwistFrame.armed (h : TwistFrame s t) : t.bit PWR_ST_TWARM = s.bit PWR_ST_TWARM := h.bit _ (by decide)

/-- The rate of a sample hangs on the range of GZ alone. -/
theorem TwistFrame.rate (h : TwistFrame s t) : twistRate t x = twistRate s x := by
  have hslots : t.slots = s.slots := (congrArg (fun y : State => y.slots) h.kept :)
  have hrange : t.get (AX_ST_PRANGE 8) = s.get (AX_ST_PRANGE 8) := h.get _ (by decide)
  have hat : rangeAt t 8 x.1 = rangeAt s 8 x.1 := by
    unfold rangeAt
    rw [hslots]
    split
    · rfl
    · exact hrange
  rw [twistRate, hat]
  rfl

theorem TwistFrame.pwr (h : TwistFrame s t) : t.pwr = { s.pwr with twist := t.pwr.twist, calm := t.pwr.calm, twistT := t.pwr.twistT } :=
  congrArg (fun p : PwrState => { p with twist := t.pwr.twist, calm := t.pwr.calm, twistT := t.pwr.twistT }) (besidePower_pwr h.kept)

end

/-- The state with a sample's instant noted (02 R60). -/
def State.sampled (s : State) (x : Nat × Int) : State := s.modPwr fun p => { p with twistT := x.1 }

/-- No integral is in progress, and it stays so while the samples are calm. -/
def State.twistAtRest (s : State) : Prop := s.pwr.twist = 0 ∧ s.get PWR_TWANG_ANGLE = 0 ∧ 31 ≤ s.pwr.calm

section
variable (s : State) (x : Nat × Int)

theorem sampled_frame : TwistFrame s (s.sampled x) := (ViewFrame.refl _ _ s).beside rfl rfl

theorem showTwist_frame (n calm : Nat) : TwistFrame s (showTwist s n calm) := .set ((ViewFrame.refl _ _ s).beside rfl rfl) (by decide) (by decide) rfl

theorem showTwist_atRest : (showTwist s 0 32).twistAtRest := ⟨rfl, State.get_set_same _ _ _ (by decide), Nat.le_succ 31⟩

variable (harmed : s.bit PWR_ST_TWARM = true)
include harmed

/-- A sample below 60 °/s counts, and the 32nd in a row clears the integral (02 R60). -/
theorem twistSample_below (hx : twistRate s x < 60 * 7168) :
    twistSample s x = if 31 ≤ s.pwr.calm then showTwist (s.sampled x) 0 32 else showTwist (s.sampled x) s.pwr.twist (s.pwr.calm + 1) := by
  have harmed' : (s.sampled x).bit PWR_ST_TWARM = true := harmed
  have hx' : ¬60 * 7168 ≤ twistRate (s.sampled x) x := by
    rw [(sampled_frame s x).rate]
    exact Int.not_le.2 hx
  change (if !(s.sampled x).bit PWR_ST_TWARM then _ else if 60 * 7168 ≤ twistRate (s.sampled x) x then _ else _) = _
  rw [harmed', if_neg hx']
  rfl

/-- A sample that brings the integral to 15° triggers (02 R60). -/
theorem twistSample_trigger (hx : 60 * 7168 ≤ twistRate s x) (hn : 15 * 7168 * 1600 ≤ s.pwr.twist + (twistRate s x).toNat) :
    twistSample s x = twistRelease (showTwist (s.sampled x) (s.pwr.twist + (twistRate s x).toNat) 0) := by
  have harmed' : (s.sampled x).bit PWR_ST_TWARM = true := harmed
  have hrate : twistRate (s.sampled x) x = twistRate s x := (sampled_frame s x).rate
  change (if !(s.sampled x).bit PWR_ST_TWARM then _ else if 60 * 7168 ≤ twistRate (s.sampled x) x then
    if 15 * 7168 * 1600 ≤ s.pwr.twist + (twistRate (s.sampled x) x).toNat then
      twistRelease (showTwist (s.sampled x) (s.pwr.twist + (twistRate (s.sampled x) x).toNat) 0) else _ else _) = _
  rw [harmed', hrate, if_pos hx, if_pos hn]
  rfl

theorem twistSample_below_frame (hx : twistRate s x < 60 * 7168) : TwistFrame s (twistSample s x) := by
  rw [twistSample_below s x harmed hx]
  exact .ite (.trans (sampled_frame s x) (showTwist_frame _ _ _)) (.trans (sampled_frame s x) (showTwist_frame _ _ _))

theorem twistSample_below_atRest (hx : twistRate s x < 60 * 7168) (hcalm : 31 ≤ s.pwr.calm) : (twistSample s x).twistAtRest := by
  rw [twistSample_below s x harmed hx, if_pos hcalm]
  exact showTwist_atRest _

theorem twistSample_below_counts (hx : twistRate s x < 60 * 7168) (hcalm : ¬31 ≤ s.pwr.calm) : (twistSample s x).pwr.calm = s.pwr.calm + 1 := by
  rw [twistSample_below s x harmed hx, if_neg hcalm]
  rfl

end

/-- Calm samples change the integral alone, and enough of them, or any number after that, leave it at rest. -/
theorem foldl_twistSample_below (xs : List (Nat × Int)) (s : State) (harmed : s.bit PWR_ST_TWARM = true) (hxs : ∀ x ∈ xs, twistRate s x < 60 * 7168) :
    TwistFrame s (xs.foldl twistSample s) ∧ (31 - s.pwr.calm < xs.length ∨ s.twistAtRest → (xs.foldl twistSample s).twistAtRest) := by
  induction xs generalizing s with
  | nil =>
    refine ⟨.refl _ _ s, ?_⟩
    rintro (h | h)
    · cases h
    · exact h
  | cons x xs ih =>
    have hx := hxs x (by simp)
    have hstep := twistSample_below_frame s x harmed hx
    obtain ⟨hrest, hdone⟩ := ih (twistSample s x) (hstep.armed.trans harmed) fun y hy => by
      rw [hstep.rate]
      exact hxs y (by simp [hy])
    refine ⟨hstep.trans hrest, fun hcount => hdone ?_⟩
    by_cases hcalm : 31 ≤ s.pwr.calm
    · exact .inr (twistSample_below_atRest s x harmed hx hcalm)
    · rw [twistSample_below_counts s x harmed hx hcalm]
      rcases hcount with hlen | ⟨-, -, h⟩
      · rw [List.length_cons] at hlen
        omega
      · exact absurd h hcalm

/-! ### The departure Blaze and the seal leave the power page, the power die, the keys, the Tally and the time -/

/-- What a departure Blaze does not reach beside the registers. -/
def blazeView (s : State) : PwrState × KeyState × TallyState × TimeState := (s.pwr, s.keys, s.tally, s.time)

/-- The fields of an own Blaze's number and of the FIFO (11 R279, R280). -/
def blazeFields : List Field := [BZ_SEQ_NEXT, BZ_FIFOST_COUNT, BZ_CNT_FIFODROP, BZ_EVT_FIFOOVF]

theorem fifoPut_frame (s : State) (b : Blaze) : ViewFrame blazeView blazeFields s (fifoPut s b) := by
  unfold fifoPut
  refine .ite (.set (ViewFrame.beside (.refl _ _ s) rfl rfl) (by decide) (by decide) rfl) ?_
  exact .event (.bump (.refl _ _ s) (by decide) (by decide) rfl) (by decide) (by decide) rfl

theorem pulseMatches_frame (s : State) (mask t : Nat) : ViewFrame blazeView blazeFields s (pulseMatches s mask t) := by
  unfold pulseMatches
  refine ViewFrame.foldl (fun s m => ?_) _ s
  exact .ite (ViewFrame.beside (.refl _ _ s) rfl rfl) (.refl _ _ s)

theorem countBlaze_frame (s : State) (b : Blaze) : ViewFrame blazeView blazeFields s (countBlaze s b) := by
  unfold countBlaze
  exact .set (ViewFrame.beside (.refl _ _ s) rfl rfl) (by decide) (by decide) rfl

theorem routeBlaze_frame (s : State) (mask : Nat) (b : Blaze) : ViewFrame blazeView blazeFields s (routeBlaze s mask b) := by
  have hqueued (x : BlazeState) (t : State) (h : ViewFrame blazeView blazeFields s t) (c : Bool) :
      ViewFrame blazeView blazeFields s (if c then { t with blaze := x } else t) := .ite (ViewFrame.beside h rfl rfl) h
  have hcapture : ViewFrame blazeView blazeFields s (if mask.testBit 2 then triggerWith s b else s) := hqueued _ s (.refl _ _ s) _
  have hfifo (t : State) (h : ViewFrame blazeView blazeFields s t) : ViewFrame blazeView blazeFields s (if mask.testBit 0 then fifoPut t b else t) :=
    .ite (h.trans (fifoPut_frame t b)) h
  have hmatch (t : State) (h : ViewFrame blazeView blazeFields s t) :
      ViewFrame blazeView blazeFields s (if mask.testBit 1 then pulseMatches t (matchMask t b) b.t else t) := .ite (h.trans (pulseMatches_frame t _ _)) h
  unfold routeBlaze
  exact hqueued _ _ (hqueued _ _ (hmatch _ (hfifo _ hcapture)) _) _

theorem messageAhead_frame (l : List Field) (s : State) (h : IpHead) (x : Payload) : ViewFrame blazeView l s (messageAhead s h x) := by
  unfold messageAhead
  exact .ite (ViewFrame.beside (.refl _ _ s) rfl rfl) (.refl _ _ s)

theorem departureBlaze_frame (s : State) (val0 : Int) : ViewFrame blazeView blazeFields s (departureBlaze s val0) := by
  have hfree : ViewFrame blazeView blazeFields s s.freeWord.2 := ViewFrame.beside (.refl _ _ s) rfl rfl
  unfold departureBlaze
  exact .trans (.trans (.trans hfree (countBlaze_frame _ _)) (routeBlaze_frame _ _ _)) (messageAhead_frame _ _ _ _)

theorem withdraw_frame (s : State) : ViewFrame blazeView [LD_ST_FREE, LD_HELD_FILL, LD_HELD_HELD] s (withdraw s) := by
  unfold withdraw showChunks
  exact .set (.set (.set (ViewFrame.beside (.refl _ _ s) rfl rfl) (by decide) (by decide) rfl) (by decide) (by decide) rfl) (by decide) (by decide) rfl

/-! ### The trigger (02 R61) -/

/-- The ports open and the publications withdrawn, before the seal. -/
def State.unported (s : State) : State := withdrawFrames (openPorts s) Payload.isPub

/-- The power die's state at the seal (10 R252). -/
def State.atSeal (s : State) : State := s.modPwr fun p => { p with sealed := true, sealAt := s.now, dep := (enabledSlots s).map (depSlot s) }

/-- The state that has sealed its accounting and sent its departure. -/
def State.departing (s : State) : State := departureBlaze (sealLanding s.unported) 2

/-- The power die's state after a trigger (02 R61, R62). -/
def PwrState.toTwisted (p : PwrState) : PwrState := { p with departed := true, twisted := true, twistAt := p.ticks }

/-- A trigger's event and count. -/
def State.twistCounted (s : State) : State := (s.event PWR_EVT_TWIST).bump PWR_CNT_TWISTCNT 1

theorem twistRelease_unsealed (s : State) (h : s.pwr.sealed = false) :
    twistRelease s = disarmTwist (s.departing.twistCounted.modPwr PwrState.toTwisted) := by
  unfold twistRelease
  rw [h]
  rfl

section
variable (s : State)

/-- The fields of the Landing and of the Blaze. -/
def departingFields : List Field := [LD_ST_FREE, LD_HELD_FILL, LD_HELD_HELD] ++ blazeFields

theorem departing_frame : ViewFrame blazeView departingFields s.unported.atSeal s.departing :=
  .trans ((withdraw_frame _).mono (by decide)) ((departureBlaze_frame _ 2).mono (by decide))

/-- A field apart from what the trigger writes first reads as with the ports open. -/
theorem departing_get (g : Field) (hg : ∀ f ∈ departingFields, f.apart g) : s.departing.get g = (s.putPorts 6 6).get g := (departing_frame s).get g hg

theorem departing_pwr : s.departing.pwr = s.unported.atSeal.pwr := congrArg Prod.fst (departing_frame s).kept

/-- The keys, the Tally and the time. -/
theorem departing_rest : s.departing.keys = s.keys ∧ s.departing.tally = s.tally ∧ s.departing.time = s.time := by
  have hview := (departing_frame s).kept
  have hports := putPorts_frame s 6 6
  exact ⟨(congrArg (fun x => x.2.1) hview).trans hports.keys, (congrArg (fun x => x.2.2.1) hview).trans hports.tally,
    (congrArg (fun x => x.2.2.2) hview).trans hports.time⟩

theorem twistCounted_get (g : Field) (hg : PWR_EVT_TWIST.apart g ∧ PWR_CNT_TWISTCNT.apart g) : s.twistCounted.get g = s.get g := by
  unfold State.twistCounted
  rw [State.get_bump_ne _ _ _ _ (by decide) hg.2, State.get_event_ne _ _ _ (by decide) hg.1]

theorem twistCounted_event : s.twistCounted.get PWR_EVT_TWIST = 1 :=
  (State.get_bump_ne _ _ _ _ (by decide) (by decide)).trans (State.get_event_same _ _ (by decide) rfl)

theorem twistCounted_count : s.twistCounted.get PWR_CNT_TWISTCNT = min 255 (s.get PWR_CNT_TWISTCNT + 1) := by
  unfold State.twistCounted
  rw [State.get_bump_same _ _ _ (by decide), State.get_event_ne _ _ _ (by decide) (by decide)]
  exact Nat.min_comm _ _

theorem disarmTwist_shown : (disarmTwist s).get PWR_ST_TWARM = 0 ∧ (disarmTwist s).get PWR_TWANG_ANGLE = 0 := by
  change (((s.set PWR_ST_MOUNTED 0).set PWR_ST_TWARM 0).set PWR_TWANG_ANGLE 0).get PWR_ST_TWARM = 0 ∧
    (((s.set PWR_ST_MOUNTED 0).set PWR_ST_TWARM 0).set PWR_TWANG_ANGLE 0).get PWR_TWANG_ANGLE = 0
  refine ⟨?_, State.get_set_same _ _ _ (by decide)⟩
  rw [State.get_set_ne _ _ _ _ (by decide) (by decide)]
  exact State.get_set_same _ _ _ (by decide)

end

/-- What a trigger leaves (02 R61) of a state that is not sealed. -/
structure TwistReleased (s t : State) : Prop where
  sealed : t.pwr.sealed = true
  departed : t.pwr.departed = true
  twisted : t.pwr.twisted = true
  twistAt : t.pwr.twistAt = s.pwr.ticks
  twist : t.pwr.twist = 0
  psta : t.get PWR_ST_PSTA = 6
  pstb : t.get PWR_ST_PSTB = 6
  event : t.get PWR_EVT_TWIST = 1
  count : t.get PWR_CNT_TWISTCNT = min 255 (s.get PWR_CNT_TWISTCNT + 1)
  unarmed : t.get PWR_ST_TWARM = 0
  unmounted : t.get PWR_ST_MOUNTED = 0
  angle : t.get PWR_TWANG_ANGLE = 0
  tally : t.tally = s.tally
  keys : t.keys = s.keys
  time : t.time = s.time

theorem twistRelease_releases (s : State) (h : s.pwr.sealed = false) : TwistReleased s (twistRelease s) := by
  have hget (g : Field) (hg : ∀ f ∈ [PWR_ST_MOUNTED, PWR_ST_TWARM, PWR_TWANG_ANGLE], f.apart g) :
      (disarmTwist (s.departing.twistCounted.modPwr PwrState.toTwisted)).get g = s.departing.twistCounted.get g := (disarmTwist_frame _).get g hg
  have hpst (p : Port) : (disarmTwist (s.departing.twistCounted.modPwr PwrState.toTwisted)).get (portState p) = (s.putPorts 6 6).get (portState p) := by
    rw [hget _ (by cases p <;> decide), twistCounted_get _ _ (by cases p <;> decide), departing_get s _ (by cases p <;> decide)]
  have hcount : s.departing.get PWR_CNT_TWISTCNT = s.get PWR_CNT_TWISTCNT := (departing_get s _ (by decide)).trans ((putPorts_frame s 6 6).get _ (by decide))
  have hsealed : s.departing.pwr.sealed = true := congrArg PwrState.sealed (departing_pwr s)
  have hticks : s.departing.pwr.ticks = s.pwr.ticks := (congrArg (fun p : PwrState => p.ticks) (departing_pwr s) :)
  obtain ⟨hkeys, htally, htime⟩ := departing_rest s
  obtain ⟨htwarm, hangle⟩ := disarmTwist_shown (s.departing.twistCounted.modPwr PwrState.toTwisted)
  rw [twistRelease_unsealed s h]
  exact {
    sealed := hsealed
    departed := rfl
    twisted := rfl
    twistAt := hticks
    twist := rfl
    psta := (hpst .a).trans (putPorts_psta s 6 6 (by decide))
    pstb := (hpst .b).trans (putPorts_pstb s 6 6 (by decide))
    event := (hget _ (by decide)).trans (twistCounted_event _)
    count := by rw [hget _ (by decide), twistCounted_count, hcount]
    unarmed := htwarm
    unmounted := disarmTwist_mounted _
    angle := hangle
    tally := htally
    keys := hkeys
    time := htime }

/-! ### The commands -/

section
variable {s : State} (hphase : s.pwr.phase = .running) (hboot : s.pwr.booted = true)
include hphase hboot

theorem exec_twistStillnessMet (hgate : s.bit ID_DOMST_RATEG = false) (hlock : s.bit DRV_ST_LOCK = true) (hm : s.bit PWR_ST_MOUNTED = false) :
    exec .twistStillnessMet s = .next (showArmed (s.set PWR_ST_MOUNTED 1)) := by
  change execTwistStillnessMet s = _
  simp [execTwistStillnessMet, hphase, hboot, hgate, hlock, hm]

theorem twistPath_booted (xs : List (Nat × Int)) : twistPath s xs = xs.foldl twistSample s := by simp [twistPath, hphase, hboot]

theorem exec_twistIntegralClear (xs : List (Nat × Int)) : exec (.twistIntegralClear xs) s = .next (xs.foldl twistSample s) :=
  congrArg Host.Outcome.next (twistPath_booted hphase hboot xs)

theorem exec_twistReleaseTrigger (x : Nat × Int) : exec (.twistReleaseTrigger [x]) s = .next (twistSample s x) :=
  congrArg Host.Outcome.next (twistPath_booted hphase hboot [x])

end

/-- Settles O6: stillness shows what arms twist-release; 32 calm samples in a row bring the integral to rest, by induction over the samples; the sample that reaches 15° triggers, and
the actions of a trigger leave what `TwistReleased` lists. -/
theorem twistReleaseArmsTriggersAndClears : Obligations.TwistReleaseArmsTriggersAndClears := by
  unfold Obligations.TwistReleaseArmsTriggersAndClears
  refine ⟨?_, ?_, ?_⟩
  · intro s hphase hboot hgate hlock hm
    have hframe := showArmed_mounted_frame s
    exact ⟨_, exec_twistStillnessMet hphase hboot hgate hlock hm, showArmed_mounted s, (showArmed_twarm _).trans (twistArmed_mounted s), hframe.rest, hframe.pwr, hframe.regs⟩
  · intro xs s hphase hboot harmed hlen hxs
    obtain ⟨hframe, hrest⟩ := foldl_twistSample_below xs s harmed hxs
    obtain ⟨htwist, hangle, -⟩ := hrest (.inl (by omega))
    have hpwr := TwistFrame.pwr hframe
    rw [htwist] at hpwr
    exact ⟨_, exec_twistIntegralClear hphase hboot xs, hangle, hpwr, besidePower_rest hframe.kept, hframe.regs⟩
  · intro x s hphase hboot hsealed harmed hx hn
    let u := showTwist (s.sampled x) (s.pwr.twist + (twistRate s x).toNat) 0
    have hu : TwistFrame s u := .trans (sampled_frame s x) (showTwist_frame _ _ _)
    have hcount : u.get PWR_CNT_TWISTCNT = s.get PWR_CNT_TWISTCNT := hu.get _ (by decide)
    have hdone := twistRelease_releases u hsealed
    rw [← twistSample_trigger s x harmed hx hn] at hdone
    exact ⟨_, exec_twistReleaseTrigger hphase hboot x, hdone.sealed, hdone.departed, hdone.twisted, hdone.twistAt, hdone.twist, hdone.psta, hdone.pstb, hdone.event,
      hcount ▸ hdone.count, hdone.unarmed, hdone.unmounted, hdone.angle, hdone.tally, hdone.keys, hdone.time⟩

end Sys2Proof.Machine
end

section
/-!
PROOFS. The axes' operations (04): ranges and down counts, the suppression of an axis's slot (07 R198 to R201) and the end of its run (09 R236): for each of them the registers
that may differ, and what it makes of the axis and the slot.
-/

namespace Sys2Proof.Machine

/-! ### What stands beside an axis, a slot and self-calibration -/

/-- The state beside the registers and axis i. -/
def besideAxis (i : Fin 10) (s : State) : State := { s with regs := [], axes := s.axes.set i {}, fresh := [] }

/-- The state beside the registers and the Mill's slot i. -/
def besideSlot (i : Fin 16) (s : State) : State := { s with regs := [], slots := s.slots.set i {}, fresh := [] }

/-- The state beside the registers and self-calibration. -/
def besideCal (s : State) : State := { s with regs := [], cal := {}, fresh := [] }

/-- The state beside the registers, axis i, its slot and self-calibration. -/
def besideRun (i : Fin 10) (s : State) : State := besideCal (besideSlot (axisSlot i) (besideAxis i s))

section
variable (s : State) (i : Fin 10) (k : Fin 16) (g : Field) (n : Nat)

theorem besideAxis_set : besideAxis i (s.set g n) = besideAxis i s := rfl
theorem besideAxis_modAxis (f : AxisState → AxisState) : besideAxis i (s.modAxis i f) = besideAxis i s := by simp [besideAxis, State.modAxis]
theorem besideSlot_set : besideSlot k (s.set g n) = besideSlot k s := rfl
theorem besideSlot_event : besideSlot k (s.event g) = besideSlot k s := rfl
theorem besideSlot_bump : besideSlot k (s.bump g n) = besideSlot k s := rfl
theorem besideSlot_modSlot (f : SlotState → SlotState) : besideSlot k (s.modSlot k f) = besideSlot k s := by simp [besideSlot, State.modSlot]
theorem besideRun_set : besideRun i (s.set g n) = besideRun i s := rfl
theorem besideRun_event : besideRun i (s.event g) = besideRun i s := rfl
theorem besideRun_bump : besideRun i (s.bump g n) = besideRun i s := rfl
theorem besideRun_cal (c : CalState) : besideRun i { s with cal := c } = besideRun i s := rfl
theorem besideRun_modCal (j : Fin 10) (f : CalAxis → CalAxis) : besideRun i (s.modCal j f) = besideRun i s := rfl
theorem besideRun_modAxis (f : AxisState → AxisState) : besideRun i (s.modAxis i f) = besideRun i s := by simp [besideRun, besideAxis_modAxis]
theorem besideRun_modSlot (f : SlotState → SlotState) : besideRun i (s.modSlot (axisSlot i) f) = besideRun i s := by
  simp [besideRun, besideSlot, besideAxis, State.modSlot]

end

section
variable {α β : Type} {v : State → α} {l : List Field} {s t : State} {i j : Fin 10} {k m : Fin 16}

theorem ViewFrame.modAxis {f : AxisState → AxisState} (h : ViewFrame v l s t) (hv : v (t.modAxis i f) = v t) : ViewFrame v l s (t.modAxis i f) := h.beside rfl hv

theorem ViewFrame.modSlot {f : SlotState → SlotState} (h : ViewFrame v l s t) (hv : v (t.modSlot k f) = v t) : ViewFrame v l s (t.modSlot k f) := h.beside rfl hv

theorem ViewFrame.modCal {f : CalAxis → CalAxis} (h : ViewFrame v l s t) (hv : v (t.modCal i f) = v t) : ViewFrame v l s (t.modCal i f) := h.beside rfl hv

/-- A frame keeps what is seen through its view. -/
theorem ViewFrame.through (h : ViewFrame v l s t) (f : α → β) : ViewFrame (fun s => f (v s)) l s t := ⟨h.regs, congrArg f h.kept⟩

theorem ViewFrame.otherAxis (h : ViewFrame (besideAxis i) l s t) (hij : i ≠ j) : t.axes[j] = s.axes[j] := by
  have hval : i.val ≠ j.val := fun e => hij (Fin.ext e)
  simpa [besideAxis, Vector.getElem_set_ne _ _ hval] using congrArg (fun x : State => x.axes[j]) h.kept

theorem ViewFrame.otherSlot (h : ViewFrame (besideSlot k) l s t) (hkm : k ≠ m) : t.slots[m] = s.slots[m] := by
  have hval : k.val ≠ m.val := fun e => hkm (Fin.ext e)
  simpa [besideSlot, Vector.getElem_set_ne _ _ hval] using congrArg (fun x : State => x.slots[m]) h.kept

theorem ViewFrame.slots_of_besideAxis (h : ViewFrame (besideAxis i) l s t) : t.slots = s.slots := (congrArg (fun x : State => x.slots) h.kept :)

theorem ViewFrame.axes_of_besideSlot (h : ViewFrame (besideSlot k) l s t) : t.axes = s.axes := (congrArg (fun x : State => x.axes) h.kept :)

end

/-- Over distinct elements a fold acts on a's view as a's own turn does, when no other element's turn shows in it. -/
theorem foldl_once {α β : Type} [DecidableEq α] (g : State → β) (f : State → α → State) (a : α) (hother : ∀ s b, b ≠ a → g (f s b) = g s) (l : List α)
    (hl : l.Nodup) (ha : a ∈ l) (s : State) : ∃ t, g t = g s ∧ g (l.foldl f s) = g (f t a) := by
  induction l generalizing s with
  | nil => exact absurd ha List.not_mem_nil
  | cons b l ih =>
    obtain ⟨hb, hl⟩ := List.nodup_cons.1 hl
    by_cases hba : b = a
    · subst hba
      refine ⟨s, rfl, List.foldlRecOn l f (motive := fun t => g t = g (f s b)) rfl fun t ht c hc => ?_⟩
      exact (hother t c (ne_of_mem_of_not_mem hc hb)).trans ht
    · obtain ⟨t, ht, hfold⟩ := ih hl ((List.mem_cons.1 ha).resolve_left (Ne.symm hba)) (f s b)
      exact ⟨t, ht.trans (hother s b hba), hfold⟩

section
variable (s : State)

theorem modAxis_self (i : Fin 10) (f : AxisState → AxisState) : (s.modAxis i f).axes[i] = f s.axes[i] := by simp

theorem modSlot_self (i : Fin 16) (f : SlotState → SlotState) : (s.modSlot i f).slots[i] = f s.slots[i] := by simp

theorem axisSlot_ne {i j : Fin 10} (h : i ≠ j) : axisSlot i ≠ axisSlot j := fun e => h (Fin.ext (Fin.mk.inj e))

theorem slotAxis_axisSlot (i : Fin 10) : slotAxis (axisSlot i) = some i := by simp [slotAxis, axisSlot]

/-! ### The down count and range decisions (04 R106, R107) -/

/-- The fields of an axis's down count. -/
def countFields (i : Fin 10) : List Field := [AX_ST_DNHOLD i, AX_ST_HOLDMS i]

theorem restartCount_frame (i : Fin 10) : ViewFrame (besideAxis i) (countFields i) s (restartCount s i) := by
  unfold restartCount
  refine .set (.set (.modAxis (.refl _ _ s) (besideAxis_modAxis _ _ _)) ?_ ?_ (besideAxis_set _ _ _ _)) ?_ ?_ (besideAxis_set _ _ _ _)
  all_goals decide +revert

theorem restartCount_axes (i : Fin 10) : (restartCount s i).axes = s.axes.set i { s.axes[i] with quiet := 0 } := rfl

theorem restartCount_dnhold (i : Fin 10) : (restartCount s i).get (AX_ST_DNHOLD i) = 0 := by
  unfold restartCount
  rw [State.get_set_ne _ _ _ _ (by decide +revert) (by decide +revert), State.get_set_same _ _ _ (by decide +revert), Nat.zero_mod]

theorem restartCount_holdms (i : Fin 10) : (restartCount s i).get (AX_ST_HOLDMS i) = 0 := by
  unfold restartCount
  rw [State.get_set_same _ _ _ (by decide +revert), Nat.zero_mod]

theorem decideRange_frame (i : Fin 10) (r : Nat) : ViewFrame (besideAxis i) (countFields i) s (decideRange s i r) := by
  unfold decideRange
  have hpend (p : Option Nat) : ViewFrame (besideAxis i) (countFields i) s (s.modAxis i fun a => { a with pendRange := p }) :=
    .modAxis (.refl _ _ s) (besideAxis_modAxis _ _ _)
  exact .ite (hpend _) (.trans (hpend _) (restartCount_frame _ i))

/-- A decided switch waits for its boundary with the down count restarted. -/
theorem decideRange_other (i : Fin 10) (r : Nat) (h : r ≠ s.get (AX_ST_PRANGE i)) :
    decideRange s i r = restartCount (s.modAxis i fun a => { a with pendRange := some r }) i := if_neg h

theorem decideRange_pendExc (i : Fin 10) (r : Nat) : (decideRange s i r).axes[i].pendExc = s.axes[i].pendExc := by
  unfold decideRange
  split <;> simp [restartCount_axes]

/-- Whether an axis is sampled depends on its gate and the drive's lock alone (04 R112, R115). -/
theorem axisRuns_congr {s t : State} {i : Fin 10} (hgate : t.get (CV_ST_GATED i) = s.get (CV_ST_GATED i)) (hlock : t.get DRV_ST_LOCK = s.get DRV_ST_LOCK) :
    axisRuns t i = axisRuns s i := by
  simp only [axisRuns, State.bit, hgate, hlock]

theorem runAxis_congr {s t : State} (h : t.get CAL_GST_RUNAX = s.get CAL_GST_RUNAX) : runAxis t = runAxis s := by simp only [runAxis, h]

/-! ### Suppression of a slot (07 R198 to R201) -/

/-- The fields of a slot that a suppression trigger may change. -/
def suppressFields (i : Fin 16) : List Field :=
  [ML_ST_RESTARTS i, ML_ST_SWRES i, ML_ST_BST1 i, ML_ST_BST0 i, ML_ST_NEVER i, ML_ST_ACT i, ML_ST_STATE i, ML_SETL_LEN i, ML_SREM_REM i, ML_GD_NS i, ML_EVT_NEVER i,
    ML_EVT_SWDONE i, ML_CNT_SUPCNT i]

theorem suppressFields_ok (i : Fin 16) : ∀ f ∈ suppressFields i, f.ok := by decide +revert

/-- Only what a suppression trigger on slot i may change differs. -/
abbrev SuppressFrame (i : Fin 16) (s t : State) : Prop := ViewFrame (besideSlot i) (suppressFields i) s t

section
variable {s t : State} {i : Fin 16} {f : Field} {n : Nat} (h : SuppressFrame i s t) (hf : f ∈ suppressFields i)
include h hf

theorem SuppressFrame.set : SuppressFrame i s (t.set f n) := ViewFrame.set h hf (suppressFields_ok i f hf) (besideSlot_set _ _ _ _)

theorem SuppressFrame.event : SuppressFrame i s (t.event f) := ViewFrame.event h hf (suppressFields_ok i f hf) (besideSlot_event _ _ _)

theorem SuppressFrame.bump : SuppressFrame i s (t.bump f n) := ViewFrame.bump h hf (suppressFields_ok i f hf) (besideSlot_bump _ _ _ _)

end

theorem SuppressFrame.modSlot {s t : State} {i : Fin 16} (h : SuppressFrame i s t) (f : SlotState → SlotState) : SuppressFrame i s (t.modSlot i f) :=
  ViewFrame.modSlot h (besideSlot_modSlot _ _ _)

theorem setBank_frame (i : Fin 16) (b st : Nat) : SuppressFrame i s (setBank s i b st) := by
  unfold setBank
  exact .ite (SuppressFrame.set (.refl _ _ s) (by simp [suppressFields])) (SuppressFrame.set (.refl _ _ s) (by simp [suppressFields]))

theorem finishSwap_frame (i : Fin 16) (res : Nat) : SuppressFrame i s (finishSwap s i res) := by
  have hbanks : SuppressFrame i s (setBank (setBank s i (s.get (ML_ST_ACT i)) 0) i (1 - s.get (ML_ST_ACT i)) 3) :=
    .trans (setBank_frame s i _ _) (setBank_frame _ i _ _)
  unfold finishSwap
  refine SuppressFrame.modSlot (SuppressFrame.set (SuppressFrame.set (SuppressFrame.event (SuppressFrame.set (SuppressFrame.set hbanks ?_) ?_) ?_) ?_) ?_) _
  all_goals simp [suppressFields]

theorem forceSwap_frame (i : Fin 16) : SuppressFrame i s (forceSwap s i) := by
  unfold forceSwap
  exact .ite (SuppressFrame.set (finishSwap_frame s i 7) (by simp [suppressFields])) (.refl _ _ s)

theorem countRestart_frame (i : Fin 16) : SuppressFrame i s (countRestart s i) := by
  have hcounted : SuppressFrame i s (s.set (ML_ST_RESTARTS i) (s.get (ML_ST_RESTARTS i) + 1)) := SuppressFrame.set (.refl _ _ s) (by simp [suppressFields])
  unfold countRestart
  exact .ite (.ite (SuppressFrame.event (SuppressFrame.set hcounted (by simp [suppressFields])) (by simp [suppressFields])) hcounted) (.refl _ _ s)

/-- What a suppression trigger on a running slot does first: it counts, forces a swap under way and counts a restart of settling. -/
def State.beforeTrigger (s : State) (i : Fin 16) (exc : Bool) : State :=
  let u := forceSwap (s.bump (ML_CNT_SUPCNT i) 1) i
  if s.get (ML_ST_STATE i) == 1 && exc then countRestart u i else u

/-- The trigger itself: the slot forgets its filter state and settles. -/
def State.triggered (s : State) (i : Fin 16) : State :=
  let u := s.modSlot i fun x => { x with trig := some s.now, sampled := false, mill := {} }
  (u.set (ML_ST_STATE i) 1).set (ML_SREM_REM i) (markersDue u i s.now)

theorem beforeTrigger_frame (i : Fin 16) (exc : Bool) : SuppressFrame i s (s.beforeTrigger i exc) := by
  have hswap : SuppressFrame i s (forceSwap (s.bump (ML_CNT_SUPCNT i) 1) i) := .trans (SuppressFrame.bump (.refl _ _ s) (by simp [suppressFields])) (forceSwap_frame _ i)
  unfold State.beforeTrigger
  exact .ite (hswap.trans (countRestart_frame _ i)) hswap

/-- On a slot with no markers due and no swap under way the trigger has only its count before it. -/
theorem beforeTrigger_settled (i : Fin 16) (exc : Bool) (h : s.get (ML_ST_STATE i) = 0 ∨ s.get (ML_ST_STATE i) = 5) :
    s.beforeTrigger i exc = s.bump (ML_CNT_SUPCNT i) 1 := by
  have hstate : (s.bump (ML_CNT_SUPCNT i) 1).get (ML_ST_STATE i) = s.get (ML_ST_STATE i) :=
    State.get_bump_ne _ _ _ _ (suppressFields_ok i _ (by simp [suppressFields])) (.inl (by simp [ML_CNT_SUPCNT, ML_ST_STATE]))
  unfold State.beforeTrigger forceSwap
  rw [hstate]
  rcases h with h | h <;> simp [h]

theorem triggered_frame (i : Fin 16) : ViewFrame (besideSlot i) [ML_ST_STATE i, ML_SREM_REM i] s (s.triggered i) := by
  unfold State.triggered
  refine .set (.set (.modSlot (.refl _ _ s) (besideSlot_modSlot _ _ _)) ?_ ?_ (besideSlot_set _ _ _ _)) ?_ ?_ (besideSlot_set _ _ _ _)
  all_goals decide +revert

theorem triggered_state (i : Fin 16) : (s.triggered i).get (ML_ST_STATE i) = 1 := by
  unfold State.triggered
  exact (State.get_set_ne _ _ _ _ (by decide +revert) (by decide +revert)).trans (State.get_set_same _ _ _ (by decide +revert))

theorem triggered_slot (i : Fin 16) : (s.triggered i).slots[i] = { s.slots[i] with trig := some s.now, sampled := false, mill := {} } :=
  modSlot_self s i fun x => { x with trig := some s.now, sampled := false, mill := {} }

theorem suppress_running (i : Fin 16) (exc : Bool) (hi : i.val ≤ 10) (hen : s.slots[i].en = true) (hresume : s.slots[i].resume = false) :
    suppress s i exc = (s.beforeTrigger i exc).triggered i := by
  have hnow : (s.beforeTrigger i exc).now = s.now := (congrArg (fun x : State => x.now) (beforeTrigger_frame s i exc).kept :)
  unfold suppress suppressAt State.triggered
  rw [if_neg fun ⟨_, _, hstopped⟩ => Bool.false_ne_true (hresume.symm.trans hstopped), if_pos ⟨hi, hen⟩, hnow]
  rfl

theorem suppress_disabled (i : Fin 16) (exc : Bool) (hen : s.slots[i].en = false) : suppress s i exc = s := by
  unfold suppress suppressAt
  rw [if_neg fun ⟨_, hon, _⟩ => Bool.false_ne_true (hen.symm.trans hon), if_neg fun ⟨_, hon⟩ => Bool.false_ne_true (hen.symm.trans hon)]

theorem suppress_frame (i : Fin 16) (exc : Bool) : SuppressFrame i s (suppress s i exc) := by
  unfold suppress suppressAt
  refine .ite (SuppressFrame.bump (.refl _ _ s) (by simp [suppressFields])) (.ite ?_ (.refl _ _ s))
  exact SuppressFrame.set (SuppressFrame.set (SuppressFrame.modSlot (beforeTrigger_frame s i exc) _) (by simp [suppressFields])) (by simp [suppressFields])

/-! ### The end of a calibration run (09 R236, 04 R106) -/

/-- The fields that abandoning the run of an axis changes. -/
def abandonFields (i : Fin 10) : List Field := [CAL_GST_RUNAX, CAL_EVT_ABAND, CAL_ST_ABAND i, CAL_ST_STATE i] ++ countFields i

theorem abandonFields_ok (i : Fin 10) : ∀ f ∈ abandonFields i, f.ok := by decide +revert

/-- Only what the end of axis i's run may change differs. -/
abbrev RunFrame (i : Fin 10) (s t : State) : Prop := ViewFrame (besideRun i) (abandonFields i) s t

theorem RunFrame.set {i : Fin 10} {s t : State} {f : Field} {n : Nat} (h : RunFrame i s t) (hf : f ∈ abandonFields i) : RunFrame i s (t.set f n) :=
  ViewFrame.set h hf (abandonFields_ok i f hf) (besideRun_set _ _ _ _)

theorem thermUpdate_frame (i : Fin 10) : RunFrame i s (thermUpdate s) := by
  unfold thermUpdate
  exact ViewFrame.foldl (fun t j => .modCal (.refl _ _ t) (besideRun_modCal _ _ _ _)) _ s

theorem thermUpdate_axes : (thermUpdate s).axes = s.axes := by
  unfold thermUpdate
  exact foldl_leaves State.axes _ _ (fun t j => State.modCal_axes _ _ _) s

theorem clearQuiet_frame (i : Fin 10) : RunFrame i s (clearQuiet s i) := by
  unfold clearQuiet
  refine RunFrame.set (RunFrame.set (.modAxis (.refl _ _ s) (besideRun_modAxis _ _ _)) ?_) ?_
  all_goals simp [abandonFields, countFields]

theorem endRun_frame (i : Fin 10) : RunFrame i s (endRun s i) := by
  have hended : RunFrame i s { s with cal := { s.cal with phase := 0, endedAt := some s.now } } := ViewFrame.beside (.refl _ _ s) rfl (besideRun_cal _ _ _)
  have hfree := RunFrame.set (f := CAL_GST_RUNAX) (n := 0xF) hended (by simp [abandonFields])
  have hquiet (f : SlotState → SlotState) := ViewFrame.trans (ViewFrame.modSlot hfree (besideRun_modSlot _ _ f)) (clearQuiet_frame _ i)
  unfold endRun
  exact .ite (.modAxis (hquiet _) (besideRun_modAxis _ _ _)) (hquiet _)

theorem abandonRun_frame (i : Fin 10) : RunFrame i s (abandonRun s i) := by
  have hev : CAL_EVT_ABAND ∈ abandonFields i := by simp [abandonFields]
  have hcount : CAL_ST_ABAND i ∈ abandonFields i := by simp [abandonFields]
  have hended := ViewFrame.event (endRun_frame s i) hev (abandonFields_ok i _ hev) (besideRun_event _ _ _)
  have hcounted := ViewFrame.bump (n := 1) hended hcount (abandonFields_ok i _ hcount) (besideRun_bump _ _ _ _)
  unfold abandonRun
  exact .trans (.modCal (RunFrame.set hcounted (by simp [abandonFields])) (besideRun_modCal _ _ _ _)) (thermUpdate_frame _ i)

theorem abandonIf_frame (i : Fin 10) : RunFrame i s (abandonIf s i) := by
  unfold abandonIf
  exact .ite (abandonRun_frame s i) (.refl _ _ s)

/-- The end of a run without a remembered crossing leaves the pending ranges. -/
theorem abandonIf_axes (i : Fin 10) (h : s.axes[i].crossing = false) :
    (abandonIf s i).axes = s.axes ∨ (abandonIf s i).axes = s.axes.set i { s.axes[i] with quiet := 0 } := by
  unfold abandonIf
  split
  · right
    unfold abandonRun endRun
    rw [thermUpdate_axes]
    rw [if_neg]
    · rfl
    · simpa [clearQuiet] using h
  · exact .inl rfl

theorem abandonIf_other (i : Fin 10) (h : runAxis s ≠ some i) : abandonIf s i = s := if_neg h

end

end Sys2Proof.Machine
end

section
/-!
PROOFS. DRIVE_LOCK and DRIVE_UNLOCK (04 R112 to R116): the G axes start one after the other, or lose their pending ranges, while the drive shows its lock or its loss.
-/

namespace Sys2Proof.Machine

/-- Besides the fields named, a frame of axis i's run leaves the other axes. -/
theorem RunFrame.otherAxis {i j : Fin 10} {s t : State} (h : RunFrame i s t) (hij : i ≠ j) : t.axes[j] = s.axes[j] := by
  have hval : i.val ≠ j.val := fun e => hij (Fin.ext e)
  simpa [besideRun, besideCal, besideSlot, besideAxis, Vector.getElem_set_ne _ _ hval] using congrArg (fun x : State => x.axes[j]) h.kept

theorem gAxes_nodup : gAxes.Nodup := by decide

theorem mem_gAxes {i : Fin 10} (h6 : 6 ≤ i.val) (h9 : i.val < 9) : i ∈ gAxes := by
  obtain rfl | rfl | rfl : i = 6 ∨ i = 7 ∨ i = 8 := by omega
  all_goals decide

/-! ### A G axis starts (04 R112) -/

/-- A G axis starts and its slot is channel-switched. -/
def launch (s : State) (i : Fin 10) : State := suppress (startAxis s i) (axisSlot i) false

/-- The fields of an axis that its start may change. -/
def launchFields (i : Fin 10) : List Field := AX_ST_PRANGE i :: countFields i ++ suppressFields (axisSlot i)

/-- The state beside the registers, axis i and its slot. -/
def besideLaunch (i : Fin 10) (s : State) : State := besideSlot (axisSlot i) (besideAxis i s)

theorem prange_ok (i : Fin 10) : (AX_ST_PRANGE i).ok := by decide +revert

theorem countFields_apart (i : Fin 10) : ∀ f ∈ countFields i, f.apart (AX_ST_PRANGE i) := by decide +revert

theorem suppressFields_apart (i : Fin 10) : ∀ f ∈ suppressFields (axisSlot i), f.apart (AX_ST_PRANGE i) ∧ f.apart (AX_ST_HOLDMS i) := by decide +revert

section
variable (s : State)

theorem startAxis_frame (i : Fin 10) : ViewFrame (besideAxis i) (AX_ST_PRANGE i :: countFields i) s (startAxis s i) := by
  unfold startAxis
  have hranged (f : AxisState → AxisState) (r : Nat) :
      ViewFrame (besideAxis i) (AX_ST_PRANGE i :: countFields i) s ((s.modAxis i f).set (AX_ST_PRANGE i) r) :=
    .set (.modAxis (.refl _ _ s) (besideAxis_modAxis _ _ _)) List.mem_cons_self (prange_ok i) (besideAxis_set _ _ _ _)
  exact (hranged _ _).trans ((restartCount_frame _ i).mono fun f hf => List.mem_cons_of_mem _ hf)

theorem startAxis_axis (i : Fin 10) : (startAxis s i).axes[i] = { s.axes[i] with pendRange := none, crossing := false, quiet := 0 } := by
  unfold startAxis
  simp [restartCount_axes]

/-- A G axis starts in range 1, its top range, when it is in auto mode. -/
theorem startAxis_prange {i : Fin 10} (h6 : 6 ≤ i.val) (h9 : i.val < 9) :
    (startAxis s i).get (AX_ST_PRANGE i) = if s.bit (AX_CFG_AUTO i) then 1 else s.get (AX_CFG_RANGE i) := by
  have hauto : autoMode s i = s.bit (AX_CFG_AUTO i) := by
    simp only [autoMode, hasAuto, isG]
    simp [h6, Nat.le_of_lt_succ h9]
  have htop : topRange i = 1 := by
    simp only [topRange]
    rw [if_neg (by omega), if_pos h9]
  have hlt : s.get (AX_CFG_RANGE i) < 4 := s.get_lt (AX_CFG_RANGE i)
  unfold startAxis
  rw [(restartCount_frame _ i).get _ (countFields_apart i)]
  refine (State.get_set_same _ _ _ (prange_ok i)).trans ?_
  rw [hauto, htop]
  split
  · rfl
  · exact Nat.mod_eq_of_lt hlt

theorem launch_frame (i : Fin 10) : ViewFrame (besideLaunch i) (launchFields i) s (launch s i) := by
  have hstart : ViewFrame (besideLaunch i) (launchFields i) s (startAxis s i) :=
    ((startAxis_frame s i).through (besideSlot (axisSlot i))).mono fun f hf => List.mem_append_left _ hf
  have hswitch : ViewFrame (besideLaunch i) (launchFields i) (startAxis s i) (launch s i) :=
    ((suppress_frame (startAxis s i) (axisSlot i) false).through (besideAxis i)).mono fun f hf => List.mem_append_right _ hf
  exact hstart.trans hswitch

end

/-- What a start reads and writes of an axis and its slot. -/
structure AxisPage where
  auto : Nat
  range : Nat
  prange : Nat
  holdms : Nat
  state : Nat
  slot : SlotState
  axis : AxisState
  now : Nat

/-- An axis's page. -/
def State.axisPage (i : Fin 10) (s : State) : AxisPage :=
  ⟨s.get (AX_CFG_AUTO i), s.get (AX_CFG_RANGE i), s.get (AX_ST_PRANGE i), s.get (AX_ST_HOLDMS i), s.get (ML_ST_STATE i), s.slots[axisSlot i], s.axes[i], s.now⟩

/-- The fields of an axis's page. -/
def pageFields (i : Fin 10) : List Field := [AX_CFG_AUTO i, AX_CFG_RANGE i, AX_ST_PRANGE i, AX_ST_HOLDMS i, ML_ST_STATE i]

theorem axisPage_congr {i : Fin 10} {s t : State} (hregs : ∀ g ∈ pageFields i, t.get g = s.get g) (hslot : t.slots[axisSlot i] = s.slots[axisSlot i])
    (haxis : t.axes[i] = s.axes[i]) (htime : t.time = s.time) : t.axisPage i = s.axisPage i := by
  have hnow : t.now = s.now := by simp only [State.now, htime]
  simp only [State.axisPage, hslot, haxis, hnow, hregs _ (show AX_CFG_AUTO i ∈ pageFields i by simp [pageFields]),
    hregs _ (show AX_CFG_RANGE i ∈ pageFields i by simp [pageFields]), hregs _ (show AX_ST_PRANGE i ∈ pageFields i by simp [pageFields]),
    hregs _ (show AX_ST_HOLDMS i ∈ pageFields i by simp [pageFields]), hregs _ (show ML_ST_STATE i ∈ pageFields i by simp [pageFields])]

theorem launchFields_apart (i j : Fin 10) (h : j ≠ i) : ∀ g ∈ pageFields i, ∀ f ∈ launchFields j, f.apart g := by decide +revert

/-- The start of one axis leaves the page of another. -/
theorem launch_other {i j : Fin 10} (s : State) (h : j ≠ i) : (launch s j).axisPage i = s.axisPage i := by
  have hframe := launch_frame s j
  have hstart := startAxis_frame s j
  have hswitch := suppress_frame (startAxis s j) (axisSlot j) false
  refine axisPage_congr (fun g hg => hframe.get g (launchFields_apart i j h g hg)) ?_ ?_ (congrArg (fun x : State => x.time) hframe.kept :)
  · exact (hswitch.otherSlot (axisSlot_ne h)).trans (by rw [hstart.slots_of_besideAxis])
  · exact Eq.trans (by rw [← hswitch.axes_of_besideSlot]; rfl) (hstart.otherAxis h)

section
variable (s : State) {i : Fin 10}

theorem launch_prange (h6 : 6 ≤ i.val) (h9 : i.val < 9) :
    (launch s i).get (AX_ST_PRANGE i) = if s.bit (AX_CFG_AUTO i) then 1 else s.get (AX_CFG_RANGE i) :=
  ((suppress_frame _ (axisSlot i) false).get _ fun f hf => (suppressFields_apart i f hf).1).trans (startAxis_prange s h6 h9)

theorem launch_axis : (launch s i).axes[i] = { s.axes[i] with pendRange := none, crossing := false, quiet := 0 } := by
  have haxes : (launch s i).axes = (startAxis s i).axes := (suppress_frame _ (axisSlot i) false).axes_of_besideSlot
  rw [haxes, startAxis_axis]

theorem launch_holdms : (launch s i).get (AX_ST_HOLDMS i) = 0 :=
  ((suppress_frame _ (axisSlot i) false).get _ fun f hf => (suppressFields_apart i f hf).2).trans (restartCount_holdms _ i)

/-- A running slot of a starting axis is suppressed with its filters cleared. -/
theorem launch_slot (hen : s.slots[axisSlot i].en = true) (hresume : s.slots[axisSlot i].resume = false) :
    (launch s i).slots[axisSlot i].trig = some s.now ∧ (launch s i).slots[axisSlot i].mill = {} ∧ (launch s i).get (ML_ST_STATE i) = 1 := by
  have hslots : (startAxis s i).slots = s.slots := (startAxis_frame s i).slots_of_besideAxis
  have hrun : launch s i = ((startAxis s i).beforeTrigger (axisSlot i) false).triggered (axisSlot i) :=
    suppress_running _ _ _ (Nat.le_of_lt i.isLt) (by rw [hslots]; exact hen) (by rw [hslots]; exact hresume)
  have hnow : ((startAxis s i).beforeTrigger (axisSlot i) false).now = s.now :=
    ((congrArg (fun x : State => x.now) (beforeTrigger_frame (startAxis s i) (axisSlot i) false).kept :)).trans
      (congrArg (fun x : State => x.now) (startAxis_frame s i).kept :)
  rw [hrun, triggered_slot, hnow]
  exact ⟨rfl, rfl, triggered_state _ _⟩

end

/-! ### The lock (04 R114) -/

/-- The fields that the drive shows at lock. -/
def lockFields : List Field := [DRV_ST_LOCK, DRV_ST_FREQ, DRV_CNT_STARTMS, DRV_ST_AMP]

/-- The fields that the start of any axis may change. -/
def allLaunchFields : List Field := (List.finRange 10).flatMap launchFields

/-- The state beside the registers, the axes and the slots. -/
def besideLaunches (s : State) : State := { s with regs := [], axes := Vector.replicate 10 {}, slots := Vector.replicate 16 {}, fresh := [] }

/-- The state beside the registers, the axes, the slots, the drive and the free values. -/
def besideLock (s : State) : State :=
  { s with regs := [], axes := Vector.replicate 10 {}, slots := Vector.replicate 16 {}, drive := {}, free := 0, fresh := [] }

/-- The drive as it is once it has locked. -/
def DriveState.locked (d : DriveState) (freq : Nat) : DriveState := { d with storedFreq := freq, starting := false }

/-- The lock as the drive shows it, before the axes start. -/
def State.lockShown (s : State) (freq : Nat) : State :=
  let u := ((s.set DRV_ST_LOCK 1).set DRV_ST_FREQ freq).set DRV_CNT_STARTMS (startTime s)
  let u := u.freeWord.2.set DRV_ST_AMP (99 + u.freeWord.1.toNat % 3)
  { u with drive := u.drive.locked freq }

section
variable (s : State) (freq : Nat)

theorem lockFields_ok : ∀ f ∈ lockFields, f.ok := by decide

theorem lockFields_apart (i : Fin 10) : ∀ g ∈ pageFields i, ∀ f ∈ lockFields, f.apart g := by decide +revert

theorem besideLock_set (f : Field) (n : Nat) : besideLock (s.set f n) = besideLock s := rfl
theorem besideLock_freeWord : besideLock s.freeWord.2 = besideLock s := rfl
theorem besideLock_drive (d : DriveState) : besideLock { s with drive := d } = besideLock s := rfl

theorem besideLock_rest {s t : State} (h : besideLock t = besideLock s) :
    { t with regs := s.regs, axes := s.axes, slots := s.slots, drive := s.drive, free := s.free, fresh := s.fresh } = s :=
  congrArg (fun x : State => { x with regs := s.regs, axes := s.axes, slots := s.slots, drive := s.drive, free := s.free, fresh := s.fresh }) h

theorem lockShown_frame : ViewFrame besideLock lockFields s (s.lockShown freq) := by
  have hset {t : State} {f : Field} {n : Nat} (h : ViewFrame besideLock lockFields s t) (hf : f ∈ lockFields) : ViewFrame besideLock lockFields s (t.set f n) :=
    h.set hf (lockFields_ok f hf) (besideLock_set _ _ _)
  have hfree {t : State} (h : ViewFrame besideLock lockFields s t) : ViewFrame besideLock lockFields s t.freeWord.2 := h.beside rfl (besideLock_freeWord _)
  have hdrive {t : State} (h : ViewFrame besideLock lockFields s t) (d : DriveState) : ViewFrame besideLock lockFields s { t with drive := d } :=
    h.beside rfl (besideLock_drive _ _)
  have hlock := hset (f := DRV_ST_LOCK) (n := 1) (.refl _ _ s) (by decide)
  have hshown := hset (f := DRV_CNT_STARTMS) (n := startTime s) (hset (f := DRV_ST_FREQ) (n := freq) hlock (by decide)) (by decide)
  exact hdrive (hset (hfree hshown) (by decide)) _

theorem launches_frame : ViewFrame besideLaunches allLaunchFields s (gAxes.foldl launch s) := by
  refine ViewFrame.foldl (fun s i => ?_) gAxes s
  have hframe := (launch_frame s i).through fun x => { x with axes := Vector.replicate 10 {}, slots := Vector.replicate 16 {} }
  exact ViewFrame.mono hframe fun f hf => List.mem_flatMap.2 ⟨i, List.mem_finRange i, hf⟩

theorem lockShown_get (g : Field) : (s.lockShown freq).get g =
    ((((s.set DRV_ST_LOCK 1).set DRV_ST_FREQ freq).set DRV_CNT_STARTMS (startTime s)).set DRV_ST_AMP (99 + (Config.freeWord s.free).toNat % 3)).get g := rfl

theorem lockShown_lock : (s.lockShown freq).get DRV_ST_LOCK = 1 := by
  rw [lockShown_get, State.get_set_ne _ _ _ _ (by decide) (by decide), State.get_set_ne _ _ _ _ (by decide) (by decide),
    State.get_set_ne _ _ _ _ (by decide) (by decide), State.get_set_same _ _ _ (by decide)]
  rfl

theorem lockShown_freq (h : freq < 65536) : (s.lockShown freq).get DRV_ST_FREQ = freq := by
  rw [lockShown_get, State.get_set_ne _ _ _ _ (by decide) (by decide), State.get_set_ne _ _ _ _ (by decide) (by decide), State.get_set_same _ _ _ (by decide)]
  exact Nat.mod_eq_of_lt h

theorem lockShown_startms (h : startTime s < 65536) : (s.lockShown freq).get DRV_CNT_STARTMS = startTime s := by
  rw [lockShown_get, State.get_set_ne _ _ _ _ (by decide) (by decide), State.get_set_same _ _ _ (by decide)]
  exact Nat.mod_eq_of_lt h

/-- The amplitude shown lies within 1 % of its target (04 R114). -/
theorem lockShown_amp : 98 < (s.lockShown freq).get DRV_ST_AMP ∧ (s.lockShown freq).get DRV_ST_AMP < 102 := by
  have hamp : (s.lockShown freq).get DRV_ST_AMP = (99 + (Config.freeWord s.free).toNat % 3) % 2 ^ 8 := (lockShown_get s freq _).trans (State.get_set_same _ _ _ (by decide))
  omega

theorem lockFields_apart_launch : ∀ i : Fin 10, ∀ g ∈ lockFields, ∀ f ∈ launchFields i, f.apart g := by decide

/-- The axes' starts leave what the drive shows. -/
theorem launches_get {g : Field} (hg : g ∈ lockFields) : (gAxes.foldl launch s).get g = s.get g := by
  refine (launches_frame s).get g fun f hf => ?_
  obtain ⟨i, -, hfi⟩ := List.mem_flatMap.1 hf
  exact lockFields_apart_launch i g hg f hfi

/-- The page of an axis after the lock is the one its own start leaves. -/
theorem launches_page {i : Fin 10} (hi : i ∈ gAxes) : ∃ u, u.axisPage i = s.axisPage i ∧ (gAxes.foldl launch s).axisPage i = (launch u i).axisPage i :=
  foldl_once (State.axisPage i) launch i (fun t _ h => launch_other t h) gAxes gAxes_nodup hi s

theorem lockShown_page (i : Fin 10) : (s.lockShown freq).axisPage i = s.axisPage i :=
  axisPage_congr (fun g hg => (lockShown_frame s freq).get g (lockFields_apart i g hg)) rfl rfl rfl

theorem exec_driveLock (halive : s.alive = true) (hgate : s.get ID_DOMST_RATEG = 0) (hlock : s.get DRV_ST_LOCK = 0) :
    exec (.driveLock freq) s = .next (gAxes.foldl launch (s.lockShown freq)) := by
  change execDriveLock freq s = _
  unfold execDriveLock
  rw [if_pos (by simp [halive, State.bit_of_get_zero hgate, State.bit_of_get_zero hlock])]
  rfl

end

/-! ### The loss of lock (04 R116) -/

/-- A G axis loses its pending range and its run. -/
def release (s : State) (i : Fin 10) : State := abandonIf (s.modAxis i fun a => { a with pendRange := none, crossing := false }) i

/-- The fields that the drive shows at a loss of lock. -/
def unlockFields : List Field := [DRV_ST_LOCK, DRV_ST_FREQ, DRV_ST_UNLOCK, DRV_CNT_LOSSCNT]

/-- The loss of lock as the drive shows it. -/
def State.unlockShown (s : State) : State := (((s.set DRV_ST_LOCK 0).set DRV_ST_FREQ 0).event DRV_ST_UNLOCK).bump DRV_CNT_LOSSCNT 1

/-- The fields that the end of any axis's run may change. -/
def allAbandonFields : List Field := (List.finRange 10).flatMap abandonFields

/-- The state beside the registers, the axes, the slots and self-calibration. -/
def besideRuns (s : State) : State := { s with regs := [], axes := Vector.replicate 10 {}, slots := Vector.replicate 16 {}, cal := {}, fresh := [] }

/-- The state beside the registers, the power die, the axes, the slots, the drive and self-calibration. -/
def besideUnlock (s : State) : State :=
  { s with regs := [], pwr := {}, axes := Vector.replicate 10 {}, slots := Vector.replicate 16 {}, drive := {}, cal := {}, fresh := [] }

section
variable (s : State)

theorem release_frame (i : Fin 10) : RunFrame i s (release s i) := .trans (.modAxis (.refl _ _ s) (besideRun_modAxis _ _ _)) (abandonIf_frame _ i)

theorem release_pendRange (i : Fin 10) : (release s i).axes[i].pendRange = none := by
  have hpend := modAxis_self s i fun a => { a with pendRange := none, crossing := false }
  unfold release
  rcases abandonIf_axes (s.modAxis i fun a => { a with pendRange := none, crossing := false }) i (by rw [hpend]) with h | h
  · rw [h, hpend]
  · rw [h, hpend]
    simp

theorem releases_pendRange {i : Fin 10} (hi : i ∈ gAxes) : (gAxes.foldl release s).axes[i].pendRange = none := by
  obtain ⟨u, -, hfold⟩ := foldl_once (fun t => t.axes[i]) release i (fun t b h => (release_frame t b).otherAxis h) gAxes gAxes_nodup hi s
  exact (congrArg AxisState.pendRange hfold).trans (release_pendRange u i)

theorem releases_frame : ViewFrame besideRuns allAbandonFields s (gAxes.foldl release s) := by
  refine ViewFrame.foldl (fun s i => ?_) gAxes s
  have hframe := (release_frame s i).through fun x => { x with axes := Vector.replicate 10 {}, slots := Vector.replicate 16 {} }
  exact ViewFrame.mono hframe fun f hf => List.mem_flatMap.2 ⟨i, List.mem_finRange i, hf⟩

theorem allAbandonFields_apart : ∀ g ∈ unlockFields, ∀ f ∈ allAbandonFields, f.apart g := by decide

theorem besideUnlock_set (f : Field) (n : Nat) : besideUnlock (s.set f n) = besideUnlock s := rfl
theorem besideUnlock_event (f : Field) : besideUnlock (s.event f) = besideUnlock s := rfl
theorem besideUnlock_bump (f : Field) (n : Nat) : besideUnlock (s.bump f n) = besideUnlock s := rfl

theorem besideUnlock_rest {s t : State} (h : besideUnlock t = besideUnlock s) :
    { t with regs := s.regs, pwr := s.pwr, axes := s.axes, drive := s.drive, cal := s.cal, slots := s.slots, fresh := s.fresh } = s :=
  congrArg (fun x : State => { x with regs := s.regs, pwr := s.pwr, axes := s.axes, drive := s.drive, cal := s.cal, slots := s.slots, fresh := s.fresh }) h

theorem unlockShown_frame : ViewFrame besideUnlock unlockFields s s.unlockShown := by
  unfold State.unlockShown
  refine .bump (.event (.set (.set (.refl _ _ s) ?_ ?_ (besideUnlock_set _ _ _)) ?_ ?_ (besideUnlock_set _ _ _)) ?_ ?_ (besideUnlock_event _ _)) ?_ ?_
    (besideUnlock_bump _ _ _)
  all_goals decide

theorem unlockShown_lock : s.unlockShown.get DRV_ST_LOCK = 0 := by
  unfold State.unlockShown
  rw [State.get_bump_ne _ _ _ _ (by decide) (by decide), State.get_event_ne _ _ _ (by decide) (by decide), State.get_set_ne _ _ _ _ (by decide) (by decide),
    State.get_set_same _ _ _ (by decide)]
  rfl

theorem unlockShown_freq : s.unlockShown.get DRV_ST_FREQ = 0 := by
  unfold State.unlockShown
  rw [State.get_bump_ne _ _ _ _ (by decide) (by decide), State.get_event_ne _ _ _ (by decide) (by decide), State.get_set_same _ _ _ (by decide)]
  rfl

theorem unlockShown_unlock : s.unlockShown.get DRV_ST_UNLOCK = 1 := by
  unfold State.unlockShown
  rw [State.get_bump_ne _ _ _ _ (by decide) (by decide), State.get_event_same _ _ (by decide) rfl]

theorem unlockShown_losscnt : s.unlockShown.get DRV_CNT_LOSSCNT = min 255 (s.get DRV_CNT_LOSSCNT + 1) := by
  unfold State.unlockShown
  rw [State.get_bump_same _ _ _ (by decide), State.get_event_ne _ _ _ (by decide) (by decide), State.get_set_ne _ _ _ _ (by decide) (by decide),
    State.get_set_ne _ _ _ _ (by decide) (by decide)]
  exact Nat.min_comm _ _

/-- The state after a loss of lock: the drive starts again and twist-release is disarmed (02 R59). -/
def State.unlocked (s : State) : State := disarmTwist (startDrive (gAxes.foldl release s.unlockShown))

theorem unlocked_get {g : Field} (hg : g ∈ unlockFields) : s.unlocked.get g = s.unlockShown.get g := by
  have htwist : ∀ g ∈ unlockFields, ∀ f ∈ [PWR_ST_MOUNTED, PWR_ST_TWARM, PWR_TWANG_ANGLE], f.apart g := by decide
  exact ((disarmTwist_frame _).get g (htwist g hg)).trans ((releases_frame _).get g (allAbandonFields_apart g hg))

theorem unlocked_pwr : s.unlocked.pwr = { s.pwr with twist := 0, calm := 0 } := by
  have hpwr : (gAxes.foldl release s.unlockShown).pwr = s.pwr := (congrArg (fun x : State => x.pwr) (releases_frame s.unlockShown).kept :)
  exact congrArg (fun p : PwrState => { p with twist := 0, calm := 0 }) hpwr

theorem unlocked_drive : s.unlocked.drive = { s.drive with starting := true, startAt := s.pwr.ticks } := by
  have hkept := (releases_frame s.unlockShown).kept
  have hpwr : (gAxes.foldl release s.unlockShown).pwr = s.pwr := (congrArg (fun x : State => x.pwr) hkept :)
  have hdrive : (gAxes.foldl release s.unlockShown).drive = s.drive := (congrArg (fun x : State => x.drive) hkept :)
  change { (gAxes.foldl release s.unlockShown).drive with starting := true, startAt := (gAxes.foldl release s.unlockShown).pwr.ticks } = _
  rw [hpwr, hdrive]

theorem unlocked_pendRange {i : Fin 10} (hi : i ∈ gAxes) : s.unlocked.axes[i].pendRange = none := releases_pendRange s.unlockShown hi

theorem besideUnlock_unlocked : besideUnlock s.unlocked = besideUnlock s :=
  calc besideUnlock s.unlocked
    _ = besideUnlock (startDrive (gAxes.foldl release s.unlockShown)) := (congrArg besideUnlock (disarmTwist_frame (startDrive (gAxes.foldl release s.unlockShown))).kept :)
    _ = besideUnlock s.unlockShown := (congrArg besideUnlock (releases_frame s.unlockShown).kept :)
    _ = besideUnlock s := (unlockShown_frame s).kept

theorem exec_driveUnlock (halive : s.alive = true) (hlock : s.get DRV_ST_LOCK = 1) :
    exec .driveUnlock s = .next (s.unlocked) := by
  change execDriveUnlock s = _
  unfold execDriveUnlock
  rw [if_pos (by simp [halive, State.bit_of_get_one hlock])]
  rfl

end

/-- Settles O20: the fold over the G axes acts on each axis as its own start, or the loss of its pending range, does, and leaves what the drive shows. -/
theorem theRateDriveLocksAndUnlocks : Obligations.TheRateDriveLocksAndUnlocks := by
  unfold Obligations.TheRateDriveLocksAndUnlocks
  refine ⟨?_, ?_⟩
  · intro freq i s halive hgate hlock hfreq h6 h9 hstart
    let t := gAxes.foldl launch (s.lockShown freq)
    obtain ⟨u, hu, hpage⟩ := launches_page (s.lockShown freq) (mem_gAxes h6 h9)
    have hfrom : u.axisPage i = s.axisPage i := hu.trans (lockShown_page s freq i)
    have hauto : u.get (AX_CFG_AUTO i) = s.get (AX_CFG_AUTO i) := congrArg AxisPage.auto hfrom
    have hrange : u.get (AX_CFG_RANGE i) = s.get (AX_CFG_RANGE i) := congrArg AxisPage.range hfrom
    have hslot : u.slots[axisSlot i] = s.slots[axisSlot i] := congrArg AxisPage.slot hfrom
    have haxis : u.axes[i] = s.axes[i] := congrArg AxisPage.axis hfrom
    have hnow : u.now = s.now := congrArg AxisPage.now hfrom
    have hshown {g : Field} (hg : g ∈ lockFields) : t.get g = (s.lockShown freq).get g := launches_get _ hg
    have hdrive : t.drive = s.drive.locked freq := (congrArg (fun x : State => x.drive) (launches_frame (s.lockShown freq)).kept :)
    have hamp := lockShown_amp s freq
    rw [← hshown (by decide)] at hamp
    have hslotStarted : t.slots[axisSlot i] = (launch u i).slots[axisSlot i] := congrArg AxisPage.slot hpage
    have hstate : t.get (ML_ST_STATE i) = (launch u i).get (ML_ST_STATE i) := congrArg AxisPage.state hpage
    refine ⟨t, exec_driveLock s freq halive hgate hlock, (hshown (by decide)).trans (lockShown_lock s freq), (hshown (by decide)).trans (lockShown_freq s freq hfreq),
      (hshown (by decide)).trans (lockShown_startms s freq hstart), hdrive, hamp.1, hamp.2, ?_, ?_, ?_, ?_, ?_⟩
    · have hprange := launch_prange u h6 h9
      rw [State.bit, hauto, hrange] at hprange
      exact (congrArg AxisPage.prange hpage).trans hprange
    · refine (congrArg AxisPage.axis hpage).trans ((launch_axis u).trans ?_)
      rw [haxis]
    · exact (congrArg AxisPage.holdms hpage).trans (launch_holdms u)
    · intro hen hresume
      have hsup := launch_slot u (by rw [hslot]; exact hen) (by rw [hslot]; exact hresume)
      rw [hslotStarted, hstate, ← hnow]
      exact hsup
    · have hkept : besideLock t = besideLock s := (congrArg besideLock (launches_frame (s.lockShown freq)).kept :).trans (lockShown_frame s freq).kept
      have hrest := besideLock_rest hkept
      exact congrArg (fun x : State => { x with blaze := s.blaze, bus := s.bus, tally := s.tally }) hrest
  · intro i s halive hlock h6 h9
    exact ⟨s.unlocked, exec_driveUnlock s halive hlock, (unlocked_get s (by decide)).trans (unlockShown_lock s), (unlocked_get s (by decide)).trans (unlockShown_freq s),
      (unlocked_get s (by decide)).trans (unlockShown_unlock s), (unlocked_get s (by decide)).trans (unlockShown_losscnt s), (disarmTwist_shown _).1,
      disarmTwist_mounted _, (disarmTwist_shown _).2, unlocked_pwr s, unlocked_drive s, unlocked_pendRange s (mem_gAxes h6 h9),
      besideUnlock_rest (besideUnlock_unlocked s)⟩

end Sys2Proof.Machine
end

section
/-!
PROOFS. Writes of AX_CFG (04 R103, R104, R111, R120 to R123) and the excitation change (04 R103): what the register stores, what follows the store on an axis with and without
auto-ranging, and the settled slot's suppression.
-/

namespace Sys2Proof.Machine

theorem ViewFrame.setWord {α : Type} {v : State → α} {l : List Field} {s t : State} {a : Nat} {w : Word} (h : ViewFrame v l s t) (ha : wholeWord a ∈ l)
    (hv : v (t.setWord a w) = v t) : ViewFrame v l s (t.setWord a w) := h.trans ⟨sameBut_setWord l t a w ha, hv⟩

/-! ### The suppression of a slot that is settled -/

/-- The fields that the suppression of a settled slot changes. -/
def settleFields (i : Fin 16) : List Field := [ML_ST_STATE i, ML_SREM_REM i, ML_CNT_SUPCNT i]

/-- From s to t slot i was suppressed once: it settles with its filters cleared and counts the trigger. -/
structure SuppressedOnce (i : Fin 16) (s t : State) : Prop where
  frame : ViewFrame (besideSlot i) (settleFields i) s t
  slot : t.slots[i] = { s.slots[i] with trig := some s.now, sampled := false, mill := {} }
  state : t.get (ML_ST_STATE i) = 1
  count : t.get (ML_CNT_SUPCNT i) = min (2 ^ (ML_CNT_SUPCNT i).width - 1) (s.get (ML_CNT_SUPCNT i) + 1)

theorem supcnt_ok (i : Fin 16) : (ML_CNT_SUPCNT i).ok := by decide +revert

theorem settleFields_apart_supcnt (i : Fin 16) : ∀ f ∈ [ML_ST_STATE i, ML_SREM_REM i], f.apart (ML_CNT_SUPCNT i) := by decide +revert

section
variable (s : State)

theorem suppress_settled (i : Fin 16) (exc : Bool) (hi : i.val ≤ 10) (hen : s.slots[i].en = true) (hresume : s.slots[i].resume = false)
    (hstate : s.get (ML_ST_STATE i) = 0 ∨ s.get (ML_ST_STATE i) = 5) : SuppressedOnce i s (suppress s i exc) := by
  have hcounted : ViewFrame (besideSlot i) (settleFields i) s (s.bump (ML_CNT_SUPCNT i) 1) :=
    .bump (.refl _ _ s) (by simp [settleFields]) (supcnt_ok i) (besideSlot_bump _ _ _ _)
  rw [suppress_running s i exc hi hen hresume, beforeTrigger_settled s i exc hstate]
  refine ⟨hcounted.trans ((triggered_frame _ i).mono (by simp [settleFields])), triggered_slot _ i, triggered_state _ i, ?_⟩
  rw [(triggered_frame _ i).get _ (settleFields_apart_supcnt i), State.get_bump_same _ _ _ (supcnt_ok i), Nat.min_comm]

theorem suppressFields_apart_runax (i : Fin 16) : ∀ f ∈ suppressFields i, f.apart CAL_GST_RUNAX := by decide +revert

/-- Without a run on the axis the suppression of its slot is all. -/
theorem suppressCal_idle (i : Fin 10) (exc : Bool) (h : runAxis s ≠ some i) : suppressCal s (axisSlot i) exc = suppress s (axisSlot i) exc := by
  have hrun : runAxis (suppress s (axisSlot i) exc) = runAxis s := runAxis_congr ((suppress_frame s (axisSlot i) exc).get _ (suppressFields_apart_runax _))
  unfold suppressCal
  rw [slotAxis_axisSlot]
  exact abandonIf_other _ i (hrun.trans_ne h)

end

/-! ### The word that a write stores (04 R120, R121, R123) -/

/-- AX_CFG of its fields. -/
def cfgWord (qcoef qen exc auto range : Nat) : Word := BitVec.ofNat 32 (qcoef * 256 + qen * 64 + exc * 16 + auto * 4 + range)

theorem cfgWord_fields {qcoef qen exc auto range : Nat} (hqcoef : qcoef < 256) (hqen : qen < 2) (hexc : exc < 4) (hauto : auto < 2) (hrange : range < 4) :
    getBits (cfgWord qcoef qen exc auto range) 8 8 = qcoef ∧ getBits (cfgWord qcoef qen exc auto range) 6 1 = qen ∧
      getBits (cfgWord qcoef qen exc auto range) 4 2 = exc ∧ getBits (cfgWord qcoef qen exc auto range) 2 1 = auto ∧
      getBits (cfgWord qcoef qen exc auto range) 0 2 = range := by
  simp only [getBits, cfgWord, BitVec.toNat_ofNat, Nat.shiftRight_eq_div_pow]
  omega

/-- The AUTO that a write stores: only an axis with auto-ranging has it. -/
def cfgAuto (i : Nat) (v : Word) : Nat := if hasAuto i then getBits v 2 1 else 0

/-- The RANGE that a write stores: the old one, when the new one is above the top range or auto mode stays. -/
def cfgRange (old : Word) (i : Nat) (v : Word) : Nat :=
  if decide (topRange i < getBits v 0 2) || (cfgAuto i v == 1 && getBits old 2 1 == 1) then getBits old 0 2 else getBits v 0 2

theorem cfgAuto_lt (i : Nat) (v : Word) : cfgAuto i v < 2 := by
  unfold cfgAuto
  split
  · exact getBits_lt v 2 1
  · decide

theorem cfgRange_lt (old : Word) (i : Nat) (v : Word) : cfgRange old i v < 4 := by
  unfold cfgRange
  split
  · exact getBits_lt old 0 2
  · exact getBits_lt v 0 2

theorem cfgRange_manual {old : Word} {i : Nat} {v : Word} (hauto : cfgAuto i v = 0) (htop : getBits v 0 2 ≤ topRange i) : cfgRange old i v = getBits v 0 2 := by
  unfold cfgRange
  rw [if_neg (by simp [hauto, htop])]

/-- The word of an axis's AX_CFG. -/
def cfgAt (i : Fin 10) : Nat := 0x400 + 0x40 * i.val

section
variable (s : State) (i : Fin 10) (v : Word)

theorem axCfgValue_eq (h : i.val ≠ 9) : axCfgValue s i v =
    cfgWord (if isG i then 0 else getBits v 8 8) (if isG i then 0 else getBits v 6 1) (getBits v 4 2) (cfgAuto i v) (cfgRange (s.word (cfgAt i)) i v) := by
  unfold axCfgValue
  rw [if_neg h]
  by_cases hg : isG i = true
  · simp only [hg, if_true]
    rfl
  · simp only [hg]
    rfl

/-- What a write of an axis but Q stores in EXCLVL, AUTO and RANGE. -/
theorem axCfgValue_fields (h : i.val ≠ 9) :
    getBits (axCfgValue s i v) 4 2 = getBits v 4 2 ∧ getBits (axCfgValue s i v) 2 1 = cfgAuto i v ∧
      getBits (axCfgValue s i v) 0 2 = cfgRange (s.word (cfgAt i)) i v := by
  have hq : (if isG i then 0 else getBits v 8 8) < 256 := by
    split
    · decide
    · exact getBits_lt v 8 8
  have hen : (if isG i then 0 else getBits v 6 1) < 2 := by
    split
    · decide
    · exact getBits_lt v 6 1
  obtain ⟨-, -, hexc, hauto, hrange⟩ := cfgWord_fields hq hen (getBits_lt v 4 2) (cfgAuto_lt i v) (cfgRange_lt (s.word (cfgAt i)) i v)
  rw [axCfgValue_eq s i v h]
  exact ⟨hexc, hauto, hrange⟩

/-- On an axis that is neither G nor Q a write stores QCOEF and QEN. -/
theorem axCfgValue_coefficient (h : i.val < 6) :
    getBits (axCfgValue s i v) 8 8 = getBits v 8 8 ∧ getBits (axCfgValue s i v) 6 1 = getBits v 6 1 := by
  have hg : isG i = false := by simp [isG]; omega
  obtain ⟨hq, hen, -⟩ := cfgWord_fields (getBits_lt v 8 8) (getBits_lt v 6 1) (getBits_lt v 4 2) (cfgAuto_lt i v) (cfgRange_lt (s.word (cfgAt i)) i v)
  rw [axCfgValue_eq s i v (by omega), hg]
  exact ⟨hq, hen⟩

/-! ### The store, and what follows it -/

/-- The state beside the registers, axis i and self-calibration. -/
def besideCfg (i : Fin 10) (s : State) : State := besideCal (besideAxis i s)

/-- A write's store: the word, the target of QCOEF lost by a change of it (09 R239), and a changed excitation level pending. -/
def State.cfgStored (s : State) (i : Fin 10) (v : Word) : State :=
  let u := s.setWord (cfgAt i) (axCfgValue s i v)
  let u := if getBits (s.word (cfgAt i)) 8 8 ≠ getBits (axCfgValue s i v) 8 8 then u.modCal i fun x => { x with qTarget := none } else u
  if getBits (s.word (cfgAt i)) 4 2 ≠ getBits (axCfgValue s i v) 4 2 then u.modAxis i fun x => { x with pendExc := true } else u

/-- What follows the store of a new word in the place of an old one on an axis with auto-ranging (04 R104, R111). -/
def State.cfgFollowed (s : State) (i : Fin 10) (old new : Word) : State :=
  let oa := getBits old 2 1 == 1
  let na := getBits new 2 1 == 1
  let s := if oa != na then restartCount s i else s
  if !na && (oa || getBits old 0 2 != getBits new 0 2) && axisRuns s i then decideRange s i (getBits new 0 2) else s

theorem writeAxCfg_auto (h : hasAuto i = true) : writeAxCfg s i v = (s.cfgStored i v).cfgFollowed i (s.word (cfgAt i)) (axCfgValue s i v) := by
  unfold writeAxCfg
  simp only [h, if_true]
  rfl

/-- On an axis without auto-ranging a changed range takes effect at once. -/
theorem writeAxCfg_range (h : hasAuto i = false) (hrange : getBits (s.word (cfgAt i)) 0 2 ≠ getBits (axCfgValue s i v) 0 2) :
    writeAxCfg s i v = suppressCal ((s.cfgStored i v).set (AX_ST_PRANGE i) (getBits (axCfgValue s i v) 0 2)) (axisSlot i) false := by
  unfold writeAxCfg
  simp only [h, Bool.false_eq_true, if_false]
  exact if_pos hrange

theorem writeAxCfg_unranged : writeAxCfg s 9 v = s.setWord 0x640 (s.word 0x640) := by
  have hsame : axCfgValue s 9 v = s.word 0x640 := rfl
  unfold writeAxCfg
  rw [hsame]
  simp [hasAuto, isG]

theorem cfgStored_word : (s.cfgStored i v).word (cfgAt i) = axCfgValue s i v := by
  have hset : (s.setWord (cfgAt i) (axCfgValue s i v)).word (cfgAt i) = axCfgValue s i v := State.word_setWord_same _ _ _
  unfold State.cfgStored
  dsimp only
  split <;> split <;> exact hset

theorem cfgStored_frame : ViewFrame (besideCfg i) [wholeWord (cfgAt i)] s (s.cfgStored i v) := by
  have hword : ViewFrame (besideCfg i) [wholeWord (cfgAt i)] s (s.setWord (cfgAt i) (axCfgValue s i v)) := .setWord (.refl _ _ s) List.mem_cons_self rfl
  have hcal {t : State} (h : ViewFrame (besideCfg i) [wholeWord (cfgAt i)] s t) (f : CalAxis → CalAxis) :
      ViewFrame (besideCfg i) [wholeWord (cfgAt i)] s (t.modCal i f) := .modCal h rfl
  have haxis {t : State} (h : ViewFrame (besideCfg i) [wholeWord (cfgAt i)] s t) (f : AxisState → AxisState) :
      ViewFrame (besideCfg i) [wholeWord (cfgAt i)] s (t.modAxis i f) := .modAxis h (congrArg besideCal (besideAxis_modAxis _ _ _))
  have hcoef := ViewFrame.ite (c := getBits (s.word (cfgAt i)) 8 8 ≠ getBits (axCfgValue s i v) 8 8) (hcal hword fun x => { x with qTarget := none }) hword
  exact .ite (haxis hcoef _) hcoef

theorem cfgStored_excChanged (h : getBits (s.word (cfgAt i)) 4 2 ≠ getBits (axCfgValue s i v) 4 2) : (s.cfgStored i v).axes[i].pendExc = true := by
  unfold State.cfgStored
  dsimp only
  rw [if_pos h, modAxis_self]

theorem cfgStored_excSame (h : getBits (s.word (cfgAt i)) 4 2 = getBits (axCfgValue s i v) 4 2) : (s.cfgStored i v).axes = s.axes := by
  unfold State.cfgStored
  dsimp only
  rw [if_neg (not_not_intro h)]
  split <;> rfl

theorem cfgFollowed_frame (old new : Word) : ViewFrame (besideAxis i) (countFields i) s (s.cfgFollowed i old new) := by
  have hcount := ViewFrame.ite (c := ((getBits old 2 1 == 1) != (getBits new 2 1 == 1)) = true) (restartCount_frame s i) (.refl _ _ s)
  exact .ite (hcount.trans (decideRange_frame _ i _)) hcount

theorem cfgFollowed_pendExc (old new : Word) : (s.cfgFollowed i old new).axes[i].pendExc = s.axes[i].pendExc := by
  have hcount : (if ((getBits old 2 1 == 1) != (getBits new 2 1 == 1)) = true then restartCount s i else s).axes[i].pendExc = s.axes[i].pendExc := by
    split
    · simp [restartCount_axes]
    · rfl
  unfold State.cfgFollowed
  dsimp only
  generalize (if ((getBits old 2 1 == 1) != (getBits new 2 1 == 1)) = true then restartCount s i else s) = u at hcount ⊢
  split
  · exact (decideRange_pendExc u i _).trans hcount
  · exact hcount

theorem runFields_apart : ∀ g ∈ [CV_ST_GATED i, DRV_ST_LOCK, AX_ST_PRANGE i], ∀ f ∈ wholeWord (cfgAt i) :: countFields i, f.apart g := by decide +revert

/-- Leaving auto mode on an axis that is sampled decides the switch to another range (04 R104). -/
theorem cfgFollowed_leavesAuto {old new : Word} (hold : getBits old 2 1 = 1) (hnew : getBits new 2 1 = 0) (hruns : axisRuns s i = true)
    (hrange : getBits new 0 2 ≠ s.get (AX_ST_PRANGE i)) :
    s.cfgFollowed i old new = restartCount ((restartCount s i).modAxis i fun a => { a with pendRange := some (getBits new 0 2) }) i := by
  have hget {g : Field} (hg : g ∈ [CV_ST_GATED i, DRV_ST_LOCK, AX_ST_PRANGE i]) : (restartCount s i).get g = s.get g :=
    (restartCount_frame s i).get g fun f hf => runFields_apart i g hg f (List.mem_cons_of_mem _ hf)
  have hruns' : axisRuns (restartCount s i) i = true := (axisRuns_congr (hget (by simp)) (hget (by simp))).trans hruns
  have hrange' : getBits new 0 2 ≠ (restartCount s i).get (AX_ST_PRANGE i) := by rwa [hget (by simp)]
  rw [← decideRange_other _ i _ hrange']
  simp [State.cfgFollowed, hold, hnew, hruns']

end

theorem ViewFrame.rest_of_besideCfg {l : List Field} {s t : State} {i : Fin 10} (h : ViewFrame (besideCfg i) l s t) :
    { t with regs := s.regs, axes := s.axes, cal := s.cal, fresh := s.fresh } = s :=
  congrArg (fun x : State => { x with regs := s.regs, axes := s.axes, cal := s.cal, fresh := s.fresh }) h.kept

theorem ViewFrame.rest_of_besideAxis {l : List Field} {s t : State} {i : Fin 10} (h : ViewFrame (besideAxis i) l s t) :
    { t with regs := s.regs, axes := s.axes, fresh := s.fresh } = s :=
  congrArg (fun x : State => { x with regs := s.regs, axes := s.axes, fresh := s.fresh }) h.kept

theorem countFields_word (i : Fin 10) : ∀ f ∈ countFields i, f.word ≠ cfgAt i := by decide +revert

theorem hasAuto_of {i : Fin 10} (h : i.val < 3 ∨ (6 ≤ i.val ∧ i.val < 9)) : hasAuto i = true := by
  simp [hasAuto, isG]
  omega

/-! ### A write on an axis with auto-ranging -/

section
variable (s : State) {i : Fin 10} (v : Word) (hauto : hasAuto i = true)
include hauto

theorem writeAxCfg_auto_frame : ViewFrame (besideCfg i) (wholeWord (cfgAt i) :: countFields i) s (writeAxCfg s i v) := by
  rw [writeAxCfg_auto s i v hauto]
  exact .trans ((cfgStored_frame s i v).mono (by simp)) (((cfgFollowed_frame _ i _ _).through besideCal).mono fun f hf => List.mem_cons_of_mem _ hf)

theorem writeAxCfg_auto_get {f : Field} (hf : f.word = cfgAt i) : (writeAxCfg s i v).get f = getBits (axCfgValue s i v) f.lo f.width := by
  rw [writeAxCfg_auto s i v hauto, (cfgFollowed_frame _ i _ _).get f fun g hg => .inl (hf ▸ countFields_word i g hg), State.get, hf, cfgStored_word]

theorem writeAxCfg_auto_pends (hexc : getBits (s.word (cfgAt i)) 4 2 ≠ getBits (axCfgValue s i v) 4 2) : (writeAxCfg s i v).axes[i].pendExc = true := by
  rw [writeAxCfg_auto s i v hauto, cfgFollowed_pendExc]
  exact cfgStored_excChanged s i v hexc

/-- A write that leaves auto mode decides the switch to the written range, on a sampled axis that is in another (04 R104). -/
theorem writeAxCfg_leavesAuto (hold : getBits (s.word (cfgAt i)) 2 1 = 1) (hnew : getBits (axCfgValue s i v) 2 1 = 0) (hruns : axisRuns s i = true)
    (hrange : getBits (axCfgValue s i v) 0 2 ≠ s.get (AX_ST_PRANGE i)) :
    writeAxCfg s i v = restartCount ((restartCount (s.cfgStored i v) i).modAxis i fun a => { a with pendRange := some (getBits (axCfgValue s i v) 0 2) }) i := by
  have hget {g : Field} (hg : g ∈ [CV_ST_GATED i, DRV_ST_LOCK, AX_ST_PRANGE i]) : (s.cfgStored i v).get g = s.get g :=
    (cfgStored_frame s i v).get g fun f hf => runFields_apart i g hg f (List.mem_cons.2 (.inl (List.mem_singleton.1 hf)))
  rw [writeAxCfg_auto s i v hauto]
  exact cfgFollowed_leavesAuto _ i hold hnew ((axisRuns_congr (hget (by simp)) (hget (by simp))).trans hruns) (by rwa [hget (by simp)])

end

/-! ### A write on an L axis, and the excitation change -/

theorem settleFields_apart (i : Fin 10) : ∀ f ∈ settleFields (axisSlot i), f.apart (AX_ST_PRANGE i) := by decide +revert

theorem settleFields_word (i : Fin 10) : ∀ f ∈ settleFields (axisSlot i), f.word ≠ cfgAt i := by decide +revert

theorem rangedFields_apart (i : Fin 10) : ∀ g ∈ CAL_GST_RUNAX :: settleFields (axisSlot i), ∀ f ∈ [wholeWord (cfgAt i), AX_ST_PRANGE i], f.apart g := by decide +revert

theorem countFields_apart_settle (i : Fin 10) : ∀ g ∈ settleFields (axisSlot i), ∀ f ∈ countFields i, f.apart g := by decide +revert

theorem prange_word (i : Fin 10) : cfgAt i ≠ (AX_ST_PRANGE i).word := by decide +revert

/-- The slot of axis i is enabled, runs and is settled, with no swap and no calibration run under way. -/
structure SlotSettled (i : Fin 10) (s : State) : Prop where
  en : s.slots[axisSlot i].en = true
  resume : s.slots[axisSlot i].resume = false
  run : runAxis s ≠ some i
  state : s.get (ML_ST_STATE i) = 0 ∨ s.get (ML_ST_STATE i) = 5

theorem SlotSettled.suppressCal {i : Fin 10} {s : State} (h : SlotSettled i s) (exc : Bool) : SuppressedOnce (axisSlot i) s (suppressCal s (axisSlot i) exc) := by
  rw [suppressCal_idle s i exc h.run]
  exact suppress_settled s (axisSlot i) exc (Nat.le_of_lt i.isLt) h.en h.resume h.state

/-- What the suppression reads and writes of the registers, and the slots, decide whether the slot is settled. -/
theorem SlotSettled.congr {i : Fin 10} {s t : State} (h : SlotSettled i s) (hget : ∀ g ∈ CAL_GST_RUNAX :: settleFields (axisSlot i), t.get g = s.get g)
    (hslots : t.slots = s.slots) : SlotSettled i t := by
  have hstate : t.get (ML_ST_STATE i) = s.get (ML_ST_STATE i) := hget (ML_ST_STATE (axisSlot i)) (by simp [settleFields])
  exact ⟨by rw [hslots]; exact h.en, by rw [hslots]; exact h.resume, (runAxis_congr (hget _ List.mem_cons_self)).trans_ne h.run, by rw [hstate]; exact h.state⟩

section
variable (s : State) {i : Fin 10} (v : Word)

/-- An L axis as its new range takes effect, before the suppression. -/
def State.cfgRanged (s : State) (i : Fin 10) (v : Word) : State := (s.cfgStored i v).set (AX_ST_PRANGE i) (getBits (axCfgValue s i v) 0 2)

theorem cfgRanged_frame : ViewFrame (besideCfg i) [wholeWord (cfgAt i), AX_ST_PRANGE i] s (s.cfgRanged i v) :=
  .set ((cfgStored_frame s i v).mono (by simp)) (by simp) (prange_ok i) rfl

theorem cfgRanged_slots : (s.cfgRanged i v).slots = s.slots := (congrArg (fun x : State => x.slots) (cfgRanged_frame s v).kept :)

theorem cfgRanged_now : (s.cfgRanged i v).now = s.now := (congrArg (fun x : State => x.now) (cfgRanged_frame s v).kept :)

theorem cfgRanged_get {f : Field} (hf : f.word = cfgAt i) : (s.cfgRanged i v).get f = getBits (axCfgValue s i v) f.lo f.width := by
  have hword : (s.cfgRanged i v).word (cfgAt i) = (s.cfgStored i v).word (cfgAt i) := State.word_set_ne _ _ _ _ (prange_word i)
  rw [State.get, hf, hword, cfgStored_word]

theorem cfgRanged_prange : (s.cfgRanged i v).get (AX_ST_PRANGE i) = getBits (axCfgValue s i v) 0 2 :=
  (State.get_set_same _ _ _ (prange_ok i)).trans (Nat.mod_eq_of_lt (getBits_lt _ 0 2))

theorem cfgRanged_settled (h : SlotSettled i s) : SlotSettled i (s.cfgRanged i v) :=
  h.congr (fun g hg => (cfgRanged_frame s v).get g (rangedFields_apart i g hg)) (cfgRanged_slots s v)

theorem cfgRanged_supcnt : (s.cfgRanged i v).get (ML_CNT_SUPCNT (axisSlot i)) = s.get (ML_CNT_SUPCNT (axisSlot i)) :=
  (cfgRanged_frame s v).get _ (rangedFields_apart i _ (by simp [settleFields]))

/-- On an axis without auto-ranging a changed range takes effect at once, with a suppression of its settled slot. -/
theorem writeAxCfg_suppresses (hfixed : hasAuto i = false) (hrange : getBits (s.word (cfgAt i)) 0 2 ≠ getBits (axCfgValue s i v) 0 2) (h : SlotSettled i s) :
    SuppressedOnce (axisSlot i) (s.cfgRanged i v) (writeAxCfg s i v) := by
  rw [writeAxCfg_range s i v hfixed hrange]
  exact (cfgRanged_settled s v h).suppressCal false

end

section
variable {s t : State} {i : Fin 10} {v : Word} (h : SuppressedOnce (axisSlot i) (s.cfgRanged i v) t)
include h

theorem SuppressedOnce.cfg {f : Field} (hf : f.word = cfgAt i) : t.get f = getBits (axCfgValue s i v) f.lo f.width :=
  (h.frame.get f fun g hg => .inl (hf ▸ settleFields_word i g hg)).trans (cfgRanged_get s v hf)

theorem SuppressedOnce.prange : t.get (AX_ST_PRANGE i) = getBits (axCfgValue s i v) 0 2 :=
  (h.frame.get _ (settleFields_apart i)).trans (cfgRanged_prange s v)

theorem SuppressedOnce.rest_of_ranged : { t with regs := s.regs, axes := s.axes, slots := s.slots, cal := s.cal, fresh := s.fresh } = s := by
  have hkept : besideRun i t = besideRun i s :=
    (congrArg (fun x => besideCal (besideAxis i x)) h.frame.kept :).trans (congrArg (besideSlot (axisSlot i)) (cfgRanged_frame s v).kept :)
  exact congrArg (fun x : State => { x with regs := s.regs, axes := s.axes, slots := s.slots, cal := s.cal, fresh := s.fresh }) hkept

theorem SuppressedOnce.regs_of_ranged :
    sameBut [wholeWord (cfgAt i), AX_ST_PRANGE i, ML_ST_STATE (axisSlot i), ML_SREM_REM (axisSlot i), ML_CNT_SUPCNT (axisSlot i)] s t :=
  sameBut_trans (sameBut_mono (cfgRanged_frame s v).regs (by simp)) (sameBut_mono h.frame.regs (by simp [settleFields]))

end

section
variable (s : State) {i : Fin 10}

/-- An axis whose excitation change has reached the plates. -/
def State.excReached (s : State) (i : Fin 10) : State := s.modAxis i fun a => { a with pendExc := false }

theorem applyExc_eq : applyExc s i = restartCount (suppressCal (s.excReached i) (axisSlot i) true) i := rfl

theorem excReached_frame (l : List Field) : ViewFrame (besideAxis i) l s (s.excReached i) := .modAxis (.refl _ _ s) (besideAxis_modAxis _ _ _)

theorem excReached_settled (h : SlotSettled i s) : SlotSettled i (s.excReached i) := h.congr (fun _ _ => rfl) rfl

/-- What an excitation change leaves of its axis: nothing pending, and the down count restarted (04 R106). -/
theorem restartCount_excReached {t : State} (h : t.axes = (s.excReached i).axes) :
    (restartCount t i).axes[i] = { s.axes[i] with pendExc := false, quiet := 0 } := by
  simp [restartCount_axes, h, State.excReached]

/-- An excitation change suppresses the axis's settled slot and restarts its down count. -/
theorem applyExc_settled (h : SlotSettled i s) : ∃ u, SuppressedOnce (axisSlot i) (s.excReached i) u ∧ applyExc s i = restartCount u i :=
  ⟨_, (excReached_settled s h).suppressCal true, applyExc_eq s⟩

/-- On a slot that is not enabled there is nothing to suppress. -/
theorem applyExc_disabled (hen : s.slots[axisSlot i].en = false) (hrun : runAxis s ≠ some i) : applyExc s i = restartCount (s.excReached i) i := by
  rw [applyExc_eq, suppressCal_idle (s.excReached i) i true hrun, suppress_disabled (s.excReached i) _ _ hen]

end

section
variable {s u : State} {i : Fin 10} (h : SuppressedOnce (axisSlot i) (s.excReached i) u)
include h

theorem SuppressedOnce.axis_of_exc : (restartCount u i).axes[i] = { s.axes[i] with pendExc := false, quiet := 0 } :=
  restartCount_excReached s h.frame.axes_of_besideSlot

theorem SuppressedOnce.slot_of_exc : (restartCount u i).slots[axisSlot i] = { s.slots[axisSlot i] with trig := some s.now, sampled := false, mill := {} } := by
  rw [(restartCount_frame u i).slots_of_besideAxis, h.slot]
  rfl

theorem SuppressedOnce.state_of_exc : (restartCount u i).get (ML_ST_STATE i) = 1 :=
  ((restartCount_frame u i).get (ML_ST_STATE (axisSlot i)) (countFields_apart_settle i _ (by simp [settleFields]))).trans h.state

theorem SuppressedOnce.count_of_exc :
    (restartCount u i).get (ML_CNT_SUPCNT i) = min (2 ^ (ML_CNT_SUPCNT i).width - 1) (s.get (ML_CNT_SUPCNT i) + 1) :=
  ((restartCount_frame u i).get (ML_CNT_SUPCNT (axisSlot i)) (countFields_apart_settle i _ (by simp [settleFields]))).trans h.count

theorem SuppressedOnce.rest_of_exc : { restartCount u i with regs := s.regs, axes := s.axes, slots := s.slots, fresh := s.fresh } = s := by
  have hkept : besideLaunch i (restartCount u i) = besideLaunch i s :=
    (congrArg (besideSlot (axisSlot i)) (restartCount_frame u i).kept).trans
      ((congrArg (besideAxis i) h.frame.kept :).trans (congrArg (besideSlot (axisSlot i)) (excReached_frame s (i := i) []).kept))
  exact congrArg (fun x : State => { x with regs := s.regs, axes := s.axes, slots := s.slots, fresh := s.fresh }) hkept

theorem SuppressedOnce.regs_of_exc : sameBut (settleFields (axisSlot i) ++ countFields i) s (restartCount u i) :=
  sameBut_trans (sameBut_mono h.frame.regs fun _ hf => List.mem_append_left (countFields i) hf)
    (sameBut_mono (restartCount_frame u i).regs fun _ hf => List.mem_append_right (settleFields (axisSlot i)) hf)

end

/-- A word written with what it holds reads the same everywhere. -/
theorem word_setWord_held (s : State) (a b : Nat) : (s.setWord a (s.word a)).word b = s.word b := by
  by_cases h : b = a
  · rw [h, State.word_setWord_same]
  · exact State.word_setWord_ne _ _ _ _ h

/-! ### The commands -/

theorem exec_axCfgWrite {s : State} {door : Initiator} {i : Fin 10} (v : Word) (h : doorOpen s door (cfgAt i) = true) :
    exec (.axCfgWrite door i v) s = .next (writeAxCfg s i v) :=
  congrArg Host.Outcome.next (atDoor_open s door (cfgAt i) _ h)

theorem exec_excitationChangeApply {s : State} {i : Fin 10} (halive : s.alive = true) (hpend : s.axes[i].pendExc = true) (hgate : s.bit (CV_ST_GATED i) = false) :
    exec (.excitationChangeApply i) s = .next (applyExc s i) := by
  have hpend' : s.axes[i.val].pendExc = true := hpend
  change execExcitationChangeApply i s = _
  simp [execExcitationChangeApply, halive, hpend', hgate]

/-- Settles O19: a write stores the word, and what follows it depends on the kind of axis; an excitation change suppresses the settled slot and restarts the down count. -/
theorem axisConfigurationAndExcitation : Obligations.AxisConfigurationAndExcitation := by
  unfold Obligations.AxisConfigurationAndExcitation
  refine ⟨?_, ?_, ?_, ?_, ?_, ?_⟩
  · intro door i v s hdoor hi hexc
    have hauto : hasAuto i = true := hasAuto_of (.inl hi)
    have hframe := writeAxCfg_auto_frame s v hauto
    obtain ⟨hnewExc, hnewAuto, -⟩ := axCfgValue_fields s i v (by omega)
    obtain ⟨hqcoef, hqen⟩ := axCfgValue_coefficient s i v (by omega)
    have hstored : cfgAuto i v = getBits v 2 1 := by rw [cfgAuto, hauto, if_pos rfl]
    have hchanged : getBits (s.word (cfgAt i)) 4 2 ≠ getBits (axCfgValue s i v) 4 2 := by
      rw [hnewExc]
      exact hexc.symm
    have hget {f : Field} (hf : f.word = cfgAt i) := writeAxCfg_auto_get s v hauto hf
    exact ⟨_, exec_axCfgWrite v hdoor, (hget rfl).trans hqcoef, (hget rfl).trans hqen, (hget rfl).trans hnewExc, (hget rfl).trans (hnewAuto.trans hstored),
      writeAxCfg_auto_pends s v hauto hchanged, hframe.rest_of_besideCfg, hframe.regs⟩
  · intro door i v s hdoor hi hexc hold hmanual htop hruns hrange
    have hauto : hasAuto i = true := hasAuto_of hi
    have hframe := writeAxCfg_auto_frame s v hauto
    obtain ⟨hnewExc, hnewAuto, hnewRange⟩ := axCfgValue_fields s i v (by omega)
    have hstored : cfgAuto i v = 0 := by rw [cfgAuto, hauto, if_pos rfl, hmanual]
    rw [hstored] at hnewAuto
    rw [cfgRange_manual hstored htop] at hnewRange
    have hleaves := writeAxCfg_leavesAuto s v hauto hold hnewAuto hruns (hnewRange ▸ hrange)
    have hsame := cfgStored_excSame s i v (hexc.symm.trans hnewExc.symm)
    have haxis : (writeAxCfg s i v).axes[i] = { s.axes[i] with pendRange := some (getBits v 0 2), quiet := 0 } := by
      rw [hleaves, hnewRange]
      simp [restartCount_axes, hsame]
    have hget {f : Field} (hf : f.word = cfgAt i) := writeAxCfg_auto_get s v hauto hf
    refine ⟨_, exec_axCfgWrite v hdoor, (hget rfl).trans hnewAuto, (hget rfl).trans hnewRange, congrArg AxisState.pendRange haxis, congrArg AxisState.quiet haxis,
      (congrArg AxisState.pendExc haxis :), ?_, ?_, hframe.rest_of_besideCfg, hframe.regs⟩
    · rw [hleaves]
      exact restartCount_dnhold _ i
    · rw [hleaves]
      exact restartCount_holdms _ i
  · intro door i v s hdoor h3 h6 hexc htop hrange hen hresume hrun hstate
    have hfixed : hasAuto i = false := by simp [hasAuto, isG]; omega
    obtain ⟨hnewExc, -, hnewRange⟩ := axCfgValue_fields s i v (by omega)
    rw [cfgRange_manual (by rw [cfgAuto, hfixed]; rfl) htop] at hnewRange
    have hsup := writeAxCfg_suppresses s v hfixed (hnewRange ▸ hrange.symm) ⟨hen, hresume, hrun, hstate⟩
    have hget {f : Field} (hf : f.word = cfgAt i) := hsup.cfg hf
    have htrig := congrArg SlotState.trig hsup.slot
    rw [cfgRanged_now] at htrig
    have hcount := hsup.count
    rw [cfgRanged_supcnt] at hcount
    exact ⟨_, exec_axCfgWrite v hdoor, (hget rfl).trans hnewRange, hsup.prange.trans hnewRange, (hget rfl).trans (hnewExc.trans hexc), htrig,
      congrArg SlotState.sampled hsup.slot, congrArg SlotState.mill hsup.slot, hsup.state, hcount, hsup.rest_of_ranged, hsup.regs_of_ranged⟩
  · intro door v s hdoor
    refine ⟨_, exec_axCfgWrite v hdoor, ?_, ?_⟩
    · rw [writeAxCfg_unranged, State.get, word_setWord_held]
      rfl
    · rw [writeAxCfg_unranged]
      refine ⟨rfl, fun a k _ => ?_⟩
      rw [word_setWord_held]
  · intro i s halive hpend hgate hen hresume hrun hstate
    obtain ⟨u, hsup, happlied⟩ := applyExc_settled s ⟨hen, hresume, hrun, hstate⟩
    have haxis := hsup.axis_of_exc
    have hslot := hsup.slot_of_exc
    exact ⟨_, (exec_excitationChangeApply halive hpend hgate).trans (congrArg Host.Outcome.next happlied), (congrArg AxisState.pendExc haxis :),
      (congrArg AxisState.quiet haxis :), restartCount_dnhold u i, restartCount_holdms u i, congrArg SlotState.trig hslot, congrArg SlotState.sampled hslot,
      congrArg SlotState.mill hslot, hsup.state_of_exc, hsup.count_of_exc, hsup.rest_of_exc, hsup.regs_of_exc⟩
  · intro i s halive hpend hgate hen hrun
    have hframe := (excReached_frame s (countFields i)).trans (restartCount_frame _ i)
    exact ⟨_, (exec_excitationChangeApply halive hpend hgate).trans (congrArg Host.Outcome.next (applyExc_disabled s hen hrun)), restartCount_excReached s rfl,
      restartCount_dnhold _ i, restartCount_holdms _ i, hframe.rest_of_besideAxis, hframe.regs⟩

end Sys2Proof.Machine
end

section
/-!
PROOFS. The adoption of a sequence at a pass start (05 R135) and the probe's common-mode fault (06 R167): a sequence that names AUXCM again clears the fault, which is a
channel switch of slot 10; the refutation of the statement that leaves the slots as they were.
-/

namespace Sys2Proof.Machine

/-- A suppression trigger on a running slot is noted at its instant (07 R198). -/
theorem suppress_trig (s : State) (i : Fin 16) (exc : Bool) (hi : i.val ≤ 10) (hen : s.slots[i].en = true) (hresume : s.slots[i].resume = false) :
    (suppress s i exc).slots[i].trig = some s.now := by
  have hnow : (s.beforeTrigger i exc).now = s.now := (congrArg (fun x : State => x.now) (beforeTrigger_frame s i exc).kept :)
  rw [suppress_running s i exc hi hen hresume, triggered_slot, hnow]

/-- Where AUXCM is in use, the fault of code 3 is cleared with a channel switch of slot 10 (06 R167). -/
theorem checkMonitor_clears {s : State} (hserial : s.pwr.serialB = false) (hnamed : noAuxcm s = false) (hflt : s.get AUX_ST_PFLT = 3) :
    checkMonitor s = suppress (s.set AUX_ST_PFLT 0) 10 false := by
  have hclear : setPflt s 0 = suppress (s.set AUX_ST_PFLT 0) 10 false := by simp [setPflt, hflt]
  rw [← hclear]
  simp [checkMonitor, auxSerial, hserial, hnamed, hflt]

/-- The state as the shadow sequence becomes the running one, before the probe's fault follows it. -/
def State.adopted (s : State) : State :=
  let u := s.set HK_ST_APPLYPEND 0
  let u := { u with hk := { u.hk with passDue := false, seq := hkShadow s, len := u.get HK_CTL_LEN } }
  (u.set HK_PASS_CLK (hkPassTime (hkShadow s))).event HK_EVT_SEQOK

theorem adopted_pflt (s : State) : s.adopted.get AUX_ST_PFLT = s.get AUX_ST_PFLT := by
  unfold State.adopted
  rw [State.get_event_ne _ _ _ (by decide) (by decide), State.get_set_ne _ _ _ _ (by decide) (by decide)]
  exact State.get_set_ne s _ _ _ (by decide) (by decide)

/-- A shadow sequence that passes R136's checks is adopted at the pass start, and the probe's fault follows it. -/
theorem exec_hkPassStart_adopts {s : State} (hruns : sequenceRuns s = true) (hdue : s.hk.passDue = true) (hpass : hkRefusal (hkShadow s) = 0) :
    exec .hkPassStart s = .next (checkMonitor s.adopted) := by
  change execHkPassStart s = _
  unfold execHkPassStart
  rw [if_pos (by simp [hruns, hdue])]
  exact congrArg Host.Outcome.next (if_pos hpass)

/-- An adoption that brings AUXCM back into use after the fault of code 3 triggers slot 10 where it runs (06 R167, 07 R198). -/
theorem adoption_switches_slot10 {s : State} (hserial : s.pwr.serialB = false) (hnamed : noAuxcm s.adopted = false) (hflt : s.get AUX_ST_PFLT = 3)
    (hen : s.slots[(10 : Fin 16)].en = true) (hresume : s.slots[(10 : Fin 16)].resume = false) :
    (checkMonitor s.adopted).slots[(10 : Fin 16)].trig = some s.now := by
  rw [checkMonitor_clears (s := s.adopted) hserial hnamed ((adopted_pflt s).trans hflt)]
  exact suppress_trig (s.adopted.set AUX_ST_PFLT 0) 10 false (by decide) hen hresume

/-- In the probe function with slot 10 enabled, the running sequence is the first six entries of the reset sequence, which name no AUXCM, so that PFLT is 3; the whole reset
sequence, whose entry 6 names it, waits in the shadow for the pass that starts now. -/
def probeUnwatched : State :=
  { ({ State.reset with pwr := { phase := .running, booted := true, released := true } }.set HK_ST_APPLYPEND 1).set AUX_ST_PFLT 3 with
    hk := { seq := [0x043F8400, 0x103F8800, 0x140F8C00, 0x003F8000, 0x083F8000, 0x0C3F8000], len := 5, passDue := true }
    aux := { func := 2 }
    slots := State.reset.slots.set 10 { en := true } }

theorem probeUnwatched_pflt : probeUnwatched.get AUX_ST_PFLT = 3 := by decide

theorem probeUnwatched_passes : hkRefusal (hkShadow probeUnwatched) = 0 := by decide

theorem probeUnwatched_adopts_auxcm : noAuxcm probeUnwatched.adopted = false := by decide

/-- Refutes O21: in `probeUnwatched` the adopted sequence names AUXCM again, which clears the probe's fault of code 3 and is a channel switch of slot 10 (06 R167), while the
statement leaves the slots as they were. -/
theorem not_housekeepingRunsItsSequenceAndInjections : ¬ Obligations.HousekeepingRunsItsSequenceAndInjections := by
  unfold Obligations.HousekeepingRunsItsSequenceAndInjections
  rintro ⟨-, -, hadopt, -⟩
  obtain ⟨t, ht, -, -, -, -, hrest, -⟩ := hadopt probeUnwatched (by decide) (by decide) probeUnwatched_passes
  rw [exec_hkPassStart_adopts (by decide) (by decide) probeUnwatched_passes] at ht
  obtain rfl := Host.Outcome.next.inj ht
  have hkept : (checkMonitor probeUnwatched.adopted).slots = probeUnwatched.slots := (congrArg State.slots hrest :)
  have hswitched := adoption_switches_slot10 (s := probeUnwatched) (by decide) probeUnwatched_adopts_auxcm probeUnwatched_pflt (by decide) (by decide)
  rw [hkept] at hswitched
  exact absurd hswitched (by decide)

end Sys2Proof.Machine
end

section
/-!
PROOFS. The end of the key probe's window (16 R407): an own image whose commit trailer (15 R399) holds a record that is none of the tables' has invalid content and leads to
SAFE (15 R387); the refutation of the statement that leaves the trailer out.
-/

namespace Sys2Proof.Machine

/-- The window's end leaves LOAD by a load check that is done. -/
theorem exec_keyProbeWindowEnd {s : State} (hlive : s.live = true) (hmode : s.mode = 2) (hopen : s.tally.windowOpen = true)
    (hpassed : passed s s.modes.at_ 2 = true) (hchecked : s.tally.checked = true) : exec .keyProbeWindowEnd s = .next (leaveLoad s s.tally.adapter) := by
  change execKeyProbeWindowEnd s = _
  simp [execKeyProbeWindowEnd, probing, hlive, hmode, hopen, hpassed, hchecked]

/-- The tests' image with a commit trailer whose one record has PID 0, which no table gives; its tag verifies under the tests' line key. -/
def trailedImage : Image := testImage.withTrailer { changes := [.other 0] } testKey

/-- The seal of `trailedImage` in own position 3. -/
def trailedSeal : SealRec := { region := 0, pos := 3, comseq := 8, origin := 1, len := trailedImage.size, digest := trailedImage.digest }

/-- An enrolled module at the end of the key probe's window, whose load check chose own position 3, which holds `trailedImage`. -/
def trailedModule : State :=
  { onAt 2 with
    pwr := { phase := .running, booted := true, ticks := 400000000 }
    tally := { windowOpen := true, checked := true, loadPos := some 3 }
    keys := { lineKey := some testKey, anchor := some testAnchor }
    flash := { own := ⟨(Vector.replicate 8 []).set 3 trailedImage.bytes⟩, seals := [trailedSeal] } }

theorem trailedModule_vouched : trailedModule.flash.vouched trailedSeal = some trailedImage := by decide +kernel

/-- The sections of the image hold no record, and its world map is one. -/
theorem trailedImage_sections : trailedImage.params = [] ∧ trailedImage.rest = [] ∧ worldOk trailedImage.world = true := by decide +kernel

/-- The trailer's record makes the content invalid, and the module leaves LOAD for SAFE (mode 11). -/
theorem trailedModule_leavesForSafe : (leaveLoad trailedModule false).mode = 11 := by decide +kernel

/-- Refutes O51: of the own image that LOAD ends with, the statement bounds the sections' records and the world map, not the trailer's changes. `trailedModule` runs on such
an image and enters SAFE, while the statement has SETTLE (mode 5). -/
theorem not_serviceSerialPortAndKeyPlug : ¬ Obligations.ServiceSerialPortAndKeyPlug := by
  unfold Obligations.ServiceSerialPortAndKeyPlug
  rintro ⟨-, -, -, -, -, -, -, -, -, -, -, -, -, -, -, -, -, hown, -⟩
  obtain ⟨hparams, hrest, hworld⟩ := trailedImage_sections
  obtain ⟨t, ht, hsettle, -⟩ := hown 3 trailedSeal trailedImage trailedModule (by decide) (by decide) rfl (by decide) rfl rfl rfl rfl trailedModule_vouched
    (by decide) hparams hrest hworld (by decide) (by decide)
  rw [exec_keyProbeWindowEnd (by decide) (by decide) rfl (by decide) rfl] at ht
  obtain rfl := Host.Outcome.next.inj ht
  exact absurd (trailedModule_leavesForSafe.symm.trans hsettle) (by decide)

end Sys2Proof.Machine
end

section
/-!
PROOFS. The AUX channel's clamps, input edges and output driver (06 R157 to R163, R168, R169).
-/

namespace Sys2Proof.Machine

/-! ### What stands beside the AUX page -/

/-- A state without its registers, the AUX channel and the present tick's events. -/
def besideAux (s : State) : State := { s with regs := [], aux := {}, fresh := [] }

/-- A state without those and the pin engines, whose inputs the AUX levels are (12 R291). -/
def besideEdges (s : State) : State := { besideAux s with engines := Vector.replicate 8 {} }

section
variable {s t : State} {l : List Field}

theorem ViewFrame.rest_of_besideAux (h : ViewFrame besideAux l s t) : { t with regs := s.regs, aux := s.aux, fresh := s.fresh } = s :=
  (congrArg (fun x : State => { x with regs := s.regs, aux := s.aux, fresh := s.fresh }) h.kept :)

theorem ViewFrame.rest_of_besideEdges (h : ViewFrame besideEdges l s t) : { t with regs := s.regs, aux := s.aux, engines := s.engines, fresh := s.fresh } = s :=
  (congrArg (fun x : State => { x with regs := s.regs, aux := s.aux, engines := s.engines, fresh := s.fresh }) h.kept :)

/-- The AUX word in effect depends on the word, on what was written to the page and on the local second. -/
theorem auxGet_congr {f : Field} (hold : t.aux.old = s.aux.old) (htime : t.time = s.time) (hword : t.word f.word = s.word f.word) : auxGet t f = auxGet s f := by
  unfold auxGet auxWord State.second
  rw [hold, htime, hword]

theorem levelEdge_engine (s : State) (code : Nat) (high : Bool) (at_ : Nat) (e : Fin 8) :
    (levelEdge s code high at_).engines[e] = { s.engines[e] with edges := s.engines[e].edges ++ [(code, high, at_, 2)] } := by simp [levelEdge]

theorem auxInput_of (hfunc : s.aux.func = 1) (hserial : s.pwr.serialB = false) : auxInput s = true := by simp [auxInput, auxSerial, hfunc, hserial]

/-! ### Clamps (06 R157, R169) -/

theorem endClamp_off (h : s.bit AUX_ST_CLAMP = false) : endClamp s = s := by simp [endClamp, h]

/-- The times of a clamp that conducts for a number of ticks from now on. -/
def State.clamped (s : State) (ticks : Nat) : State :=
  { s with aux := { s.aux with clampTo := max s.aux.clampTo (s.pwr.ticks + ticks), clamps := (s.now, s.now + tickTime s ticks) :: s.aux.clamps } }

/-- A clamp edge as the AUX page shows it. -/
def State.clampShown (s : State) (ticks : Nat) : State := (((s.clamped ticks).set AUX_ST_CLAMP 1).event AUX_EVT_CLAMP).bump AUX_CNT_CLAMPCNT 1

/-- The edge, its request for injection 0 (05 R137) and what it does to the driver. -/
theorem startClamp_rising (ticks : Nat) (h : s.bit AUX_ST_CLAMP = false) : startClamp s ticks = faultDriver (requestInj (s.clampShown ticks) 0) := by
  simp only [startClamp, endClamp_off h, h]
  rfl

def clampFields : List Field := [AUX_ST_CLAMP, AUX_EVT_CLAMP, AUX_CNT_CLAMPCNT]

theorem clampShown_frame (s : State) (ticks : Nat) : ViewFrame besideAux clampFields s (s.clampShown ticks) := by
  have hclamped : ViewFrame besideAux clampFields s (s.clamped ticks) := .beside (.refl _ _ s) rfl rfl
  exact .bump (.event (.set hclamped (by decide) (by decide) rfl) (by decide) (by decide) rfl) (by decide) (by decide) rfl

theorem clampShown_clamp (s : State) (ticks : Nat) : (s.clampShown ticks).get AUX_ST_CLAMP = 1 := by
  unfold State.clampShown
  rw [State.get_bump_ne _ _ _ _ (by decide) (by decide), State.get_event_ne _ _ _ (by decide) (by decide)]
  exact State.get_set_same _ _ _ (by decide)

theorem clampShown_event (s : State) (ticks : Nat) : (s.clampShown ticks).get AUX_EVT_CLAMP = 1 := by
  unfold State.clampShown
  rw [State.get_bump_ne _ _ _ _ (by decide) (by decide)]
  exact State.get_event_same _ _ (by decide) rfl

theorem clampShown_count (s : State) (ticks : Nat) : (s.clampShown ticks).get AUX_CNT_CLAMPCNT = min 255 (s.get AUX_CNT_CLAMPCNT + 1) := by
  unfold State.clampShown
  rw [State.get_bump_same _ _ _ (by decide), State.get_event_ne _ _ _ (by decide) (by decide), State.get_set_ne _ _ _ _ (by decide) (by decide), Nat.min_comm]
  rfl

theorem requestInj_merged {k : Nat} (h : injPending s k = true) : requestInj s k = s.bump HK_CNT_INJMRG 1 := if_pos h

theorem requestInj_new {k : Nat} (hpend : injPending s k = false) (habort : s.bit (HK_INJCFG_ABORT k) = false) :
    requestInj s k = s.set HK_ST_INJPEND (s.get HK_ST_INJPEND + 2 ^ k) := by
  simp [requestInj, hpend, habort]

/-- A pending bit 0 that is clear is set by adding 1 (05 R137). -/
theorem injPend_succ (h : injPending s 0 = false) : (s.get HK_ST_INJPEND + 1) % 2 ^ HK_ST_INJPEND.width = s.get HK_ST_INJPEND + 1 := by
  have hlt : s.get HK_ST_INJPEND < 2 ^ 3 := s.get_lt HK_ST_INJPEND
  have heven : ¬ s.get HK_ST_INJPEND % 2 = 1 := by simpa [injPending] using h
  change (s.get HK_ST_INJPEND + 1) % 2 ^ 3 = _
  omega

theorem injPending_congr {k : Nat} (h : t.get HK_ST_INJPEND = s.get HK_ST_INJPEND) : injPending t k = injPending s k := by simp only [injPending, h]

/-! ### The output driver (06 R168, R169) -/

theorem faultDriver_off (h : driverOn s = false) : faultDriver s = s := by simp [faultDriver, h]

/-- The driver goes off after a fault. -/
def State.driverFaulted (s : State) : State := { s with aux := { s.aux with outOff := true, offAt := s.pwr.ticks } }.event AUX_EVT_OFLT

theorem faultDriver_on (h : driverOn s = true) : faultDriver s = s.driverFaulted := by simp [faultDriver, h, State.driverFaulted]

theorem driverFaulted_frame (s : State) : ViewFrame besideAux [AUX_EVT_OFLT] s s.driverFaulted :=
  .event (.beside (.refl _ _ s) rfl rfl) (by decide) (by decide) rfl

theorem driverFaulted_event (s : State) : s.driverFaulted.get AUX_EVT_OFLT = 1 := State.get_event_same _ _ (by decide) rfl

/-- A clamp edge with the driver off, injection 0 not pending and not in abort mode. -/
theorem startClamp_requests {ticks : Nat} (hclamp : s.bit AUX_ST_CLAMP = false) (hoff : driverOn s = false) (hpend : injPending s 0 = false)
    (habort : s.bit (HK_INJCFG_ABORT 0) = false) : startClamp s ticks = (s.clampShown ticks).set HK_ST_INJPEND (s.get HK_ST_INJPEND + 1) := by
  have hshown := clampShown_frame s ticks
  have hpending := hshown.get HK_ST_INJPEND (by decide)
  rw [startClamp_rising ticks hclamp, requestInj_new ((injPending_congr hpending).trans hpend) ((hshown.bit _ (by decide)).trans habort), hpending]
  exact faultDriver_off hoff

/-- A clamp edge with the driver on and injection 0 pending. -/
theorem startClamp_merges {ticks : Nat} (hclamp : s.bit AUX_ST_CLAMP = false) (hon : driverOn s = true) (hpend : injPending s 0 = true) :
    startClamp s ticks = ((s.clampShown ticks).bump HK_CNT_INJMRG 1).driverFaulted := by
  have hpending := (clampShown_frame s ticks).get HK_ST_INJPEND (by decide)
  rw [startClamp_rising ticks hclamp, requestInj_merged ((injPending_congr hpending).trans hpend)]
  exact faultDriver_on hon

/-- The driver that goes on with no clamp conducting drives its level. -/
theorem startDriver_unclamped (h : s.bit AUX_ST_CLAMP = false) : startDriver s = driveAux s := by
  unfold startDriver
  rw [endClamp_off h]
  exact if_neg (by simp [h])

/-! ### The comparator (06 R159) -/

theorem comparator_above {v : Int} (h : signed (auxGet s AUX_IN_VHI) 8 * 25000 + auxTrim s 8 < v) : comparator s (some v) = true := if_pos h

theorem comparator_below {v : Int} (hlow : v < signed (auxGet s AUX_IN_VLO) 8 * 25000 + auxTrim s 0)
    (hnot : v ≤ signed (auxGet s AUX_IN_VHI) 8 * 25000 + auxTrim s 8) : comparator s (some v) = false := by
  unfold comparator
  exact (if_neg (Int.not_lt.2 hnot)).trans (if_pos hlow)

/-- The comparator's output turns over, and the pulse-width filter starts. -/
def State.compared (s : State) (high : Bool) : State :=
  { levelEdge s 1 high (s.now / 40 * 40) with aux := { s.aux with comp := high, compAt := s.now / 40, compOld := false } }

/-! ### Edges of the filtered level (06 R160 to R163) -/

/-- The filtered level follows the comparator, and the transition counts. -/
def State.levelFollowed (s : State) : State :=
  ((levelEdge (noteMove s) 0 s.aux.comp (40 * s.aux.compAt)).setB AUX_ST_LEVEL s.aux.comp).set AUX_EDGE_COUNT (s.get AUX_EDGE_COUNT + 1)

theorem levelFollowed_frame (s : State) : ViewFrame besideEdges [AUX_ST_LEVEL, AUX_EDGE_COUNT] s s.levelFollowed := by
  have hedge : ViewFrame besideEdges [AUX_ST_LEVEL, AUX_EDGE_COUNT] s (levelEdge (noteMove s) 0 s.aux.comp (40 * s.aux.compAt)) :=
    .beside (.refl _ _ s) rfl rfl
  exact .set (.setB hedge (by decide) (by decide) rfl) (by decide) (by decide) rfl

theorem levelFollowed_level (h : s.aux.comp = true) : s.levelFollowed.get AUX_ST_LEVEL = 1 := by
  unfold State.levelFollowed
  rw [State.get_set_ne _ _ _ _ (by decide) (by decide), State.get_setB_same _ _ _ (by decide) rfl, if_pos h]

theorem levelFollowed_count (s : State) : s.levelFollowed.get AUX_EDGE_COUNT = (s.get AUX_EDGE_COUNT + 1) % 2 ^ 32 :=
  State.get_set_same _ _ _ (by decide)

theorem levelFollowed_engine (s : State) (e : Fin 8) :
    s.levelFollowed.engines[e] = { s.engines[e] with edges := s.engines[e].edges ++ [(0, s.aux.comp, 40 * s.aux.compAt, 2)] } :=
  levelEdge_engine (noteMove s) 0 s.aux.comp (40 * s.aux.compAt) e

/-- STUCK clears with a transition (06 R162). -/
def State.unstuck (s : State) : State := if s.bit AUX_ST_STUCK then { s with aux := { s.aux with ready := 0 } }.set AUX_ST_STUCK 0 else s

/-- A rising edge is the active one at TACH.EDGE 0; one of this time base, with no STUCK to clear, goes to the tacho. -/
theorem acceptEdge_active (hcomp : s.aux.comp = true) (hstuck : s.bit AUX_ST_STUCK = false) (hbase : s.aux.compOld = false) (htach : auxGet s AUX_TACH_EDGE = 0) :
    acceptEdge s = activeEdge s.levelFollowed s.aux.compAt := by
  have hstuck' : s.levelFollowed.bit AUX_ST_STUCK = false := ((levelFollowed_frame s).bit _ (by decide)).trans hstuck
  have hunstuck : s.levelFollowed.unstuck = s.levelFollowed := if_neg (by simp [hstuck'])
  have hword : s.levelFollowed.word 0xA02 = s.word 0xA02 := (State.word_set_ne _ _ _ _ (by decide)).trans (State.word_set_ne _ _ _ _ (by decide))
  have htach' : auxGet s.levelFollowed AUX_TACH_EDGE = 0 := (auxGet_congr (s := s) (t := s.levelFollowed) (f := AUX_TACH_EDGE) rfl rfl hword).trans htach
  have hcomp' : s.levelFollowed.aux.comp = true := hcomp
  have hbase' : s.levelFollowed.aux.compOld = false := hbase
  change (if s.levelFollowed.unstuck.aux.comp != (auxGet s.levelFollowed.unstuck AUX_TACH_EDGE == 1) then
      (if s.levelFollowed.unstuck.aux.compOld then _ else activeEdge s.levelFollowed.unstuck s.levelFollowed.unstuck.aux.compAt)
    else s.levelFollowed.unstuck) = _
  rw [hunstuck, hcomp', htach', hbase']
  rfl

/-- The tacho with the ticks of its last active edges and the interval p of the last two: the interval shows. -/
def State.edgeTimed (s : State) (ticks : List Nat) (p : Nat) : State :=
  let u := { s with aux := { s.aux with edges := ticks, nact := s.aux.nact + 1, ready := s.aux.ready + 1 } }.set AUX_PER_TICKS (min p (2 ^ 32 - 1))
  { u with aux := { u.aux with slow := if 4400 ≤ p then u.aux.slow + 1 else 0 } }

/-- An interval below 4 000 ticks shows overspeed, once until it is over (06 R163). -/
def State.overspeed (s : State) : State := ((s.set AUX_ST_OVSPD 1).bump AUX_CNT_OVSPDCNT 1).event AUX_EVT_OVSPD

theorem edgeTimed_frame (s : State) (ticks : List Nat) (p : Nat) : ViewFrame besideAux [AUX_PER_TICKS] s (s.edgeTimed ticks p) :=
  .beside (.set (.beside (.refl _ _ s) rfl rfl) (by decide) (by decide) rfl) rfl rfl

theorem edgeTimed_period {ticks : List Nat} {p : Nat} (h : p < 2 ^ 32) : (s.edgeTimed ticks p).get AUX_PER_TICKS = p := by
  refine (State.get_set_same _ _ _ (by decide)).trans ?_
  change min p (2 ^ 32 - 1) % 2 ^ 32 = p
  omega

theorem overspeed_frame (s : State) : ViewFrame besideAux [AUX_ST_OVSPD, AUX_CNT_OVSPDCNT, AUX_EVT_OVSPD] s s.overspeed :=
  .event (.bump (.set (.refl _ _ s) (by decide) (by decide) rfl) (by decide) (by decide) rfl) (by decide) (by decide) rfl

theorem overspeed_status (s : State) : s.overspeed.get AUX_ST_OVSPD = 1 := by
  unfold State.overspeed
  rw [State.get_event_ne _ _ _ (by decide) (by decide), State.get_bump_ne _ _ _ _ (by decide) (by decide)]
  exact State.get_set_same _ _ _ (by decide)

theorem overspeed_event (s : State) : s.overspeed.get AUX_EVT_OVSPD = 1 := State.get_event_same _ _ (by decide) rfl

theorem overspeed_count (s : State) : s.overspeed.get AUX_CNT_OVSPDCNT = min 255 (s.get AUX_CNT_OVSPDCNT + 1) := by
  unfold State.overspeed
  rw [State.get_event_ne _ _ _ (by decide) (by decide), State.get_bump_same _ _ _ (by decide), State.get_set_ne _ _ _ _ (by decide) (by decide), Nat.min_comm]
  rfl

/-- An active edge after an earlier one, with no overspeed shown. -/
theorem activeEdge_timed {tick p : Nat} {rest : List Nat} (hedges : s.aux.edges = p :: rest) (hov : s.bit AUX_ST_OVSPD = false) :
    activeEdge s tick =
      if tick - p < 4000 then (s.edgeTimed (tick :: (p :: rest).take 3) (tick - p)).overspeed else s.edgeTimed (tick :: (p :: rest).take 3) (tick - p) := by
  have hov' : (s.edgeTimed (tick :: (p :: rest).take 3) (tick - p)).bit AUX_ST_OVSPD = false := ((edgeTimed_frame s _ _).bit _ (by decide)).trans hov
  unfold activeEdge
  rw [hedges]
  change (if tick - p < 4000 then
      (if (s.edgeTimed (tick :: (p :: rest).take 3) (tick - p)).bit AUX_ST_OVSPD then _ else (s.edgeTimed (tick :: (p :: rest).take 3) (tick - p)).set AUX_ST_OVSPD 1 |>.bump _ 1).event _
    else if (s.edgeTimed (tick :: (p :: rest).take 3) (tick - p)).bit AUX_ST_OVSPD && _ then _ else s.edgeTimed (tick :: (p :: rest).take 3) (tick - p)) = _
  rw [hov']
  rfl

end

/-! ### The commands -/

section
variable {s : State}

theorem exec_auxClampEdge (ticks : Nat) (halive : s.alive = true) : exec (.auxClampEdge ticks) s = .next (startClamp s ticks) := by
  change execAuxClampEdge ticks s = _
  simp [execAuxClampEdge, halive]

theorem exec_auxComparatorChange {v : Int} {high : Bool} (halive : s.alive = true) (hinput : auxInput s = true) (hsteady : s.bit AUX_ST_LEVEL = s.aux.comp)
    (hhigh : comparator s (some v) = high) (hturn : s.aux.comp = !high) : exec (.auxComparatorChange (some v)) s = .next (s.compared high) := by
  change execAuxComparatorChange (some v) s = _
  simp [execAuxComparatorChange, auxVolts, State.compared, halive, hinput, hsteady, hhigh, hturn]

theorem exec_auxEdgeAccept (halive : s.alive = true) (hinput : auxInput s = true) (hturned : s.bit AUX_ST_LEVEL = !s.aux.comp) (hheld : pulseHeld s = true) :
    exec .auxEdgeAccept s = .next (acceptEdge s) := by
  change execAuxEdgeAccept s = _
  simp [execAuxEdgeAccept, halive, hinput, hturned, hheld]

/-- A pulse ends before its time: the comparator is back at the level, and ABSORB counts. -/
def State.absorbed (s : State) : State :=
  { levelEdge s 1 (s.bit AUX_ST_LEVEL) (s.now / 40 * 40) with aux := { s.aux with comp := s.bit AUX_ST_LEVEL } }.bump AUX_CNT_ABSORB 1

theorem exec_auxPulseAbsorb (halive : s.alive = true) (hinput : auxInput s = true) (hturned : s.aux.comp = !s.bit AUX_ST_LEVEL) (hshort : pulseHeld s = false) :
    exec .auxPulseAbsorb s = .next s.absorbed := by
  change execAuxPulseAbsorb s = _
  simp [execAuxPulseAbsorb, State.absorbed, halive, hinput, hturned, hshort]

theorem exec_auxStuck (halive : s.alive = true) (hinput : auxInput s = true) (htime : stuckTime s = true) (hnew : s.bit AUX_ST_STUCK = false) :
    exec .auxStuck s = .next ((s.set AUX_ST_STUCK 1).event AUX_EVT_STUCK) := by
  change execAuxStuck s = _
  simp [execAuxStuck, halive, hinput, htime, hnew]

theorem exec_auxOutputFault (halive : s.alive = true) : exec .auxOutputFault s = .next (faultDriver s) := by
  change execAuxOutputFault s = _
  simp [execAuxOutputFault, halive]

theorem exec_auxOutputRestore (halive : s.alive = true) (hoff : s.aux.outOff = true) (htime : s.aux.offAt + 20000000 ≤ s.pwr.ticks) :
    exec .auxOutputRestore s = .next (startDriver { s with aux := { s.aux with outOff := false } }) := by
  change execAuxOutputRestore s = _
  simp [execAuxOutputRestore, halive, hoff, htime]

end

/-! ### What an accepted rising edge leaves -/

/-- From s to t the level rose, the transition counted and the tacho holds the ticks of the last active edges, p apart. -/
structure EdgeAccepted (s t : State) (ticks : List Nat) (p : Nat) : Prop where
  level : t.get AUX_ST_LEVEL = 1
  count : t.get AUX_EDGE_COUNT = (s.get AUX_EDGE_COUNT + 1) % 2 ^ 32
  period : t.get AUX_PER_TICKS = p
  edges : t.aux.edges = ticks
  engines : ∀ e : Fin 8, t.engines[e] = { s.engines[e] with edges := s.engines[e].edges ++ [(0, true, 40 * s.aux.compAt, 2)] }
  moved : t.aux.movedAt = s.pwr.ticks

section
variable {s t : State} {ticks : List Nat} {p : Nat}

theorem edgeTimed_accepted (hcomp : s.aux.comp = true) (hp : p < 2 ^ 32) : EdgeAccepted s (s.levelFollowed.edgeTimed ticks p) ticks p where
  level := ((edgeTimed_frame _ _ _).get _ (by decide)).trans (levelFollowed_level hcomp)
  count := ((edgeTimed_frame _ _ _).get _ (by decide)).trans (levelFollowed_count s)
  period := edgeTimed_period hp
  edges := rfl
  engines e := by
    rw [← hcomp]
    exact levelFollowed_engine s e
  moved := rfl

theorem EdgeAccepted.overspeed (h : EdgeAccepted s t ticks p) : EdgeAccepted s t.overspeed ticks p where
  level := ((overspeed_frame t).get _ (by decide)).trans h.level
  count := ((overspeed_frame t).get _ (by decide)).trans h.count
  period := ((overspeed_frame t).get _ (by decide)).trans h.period
  edges := h.edges
  engines := h.engines
  moved := h.moved

/-- What differs beside the AUX channel alone differs beside the engines too. -/
theorem ViewFrame.besideEdges_of_aux {l : List Field} (h : ViewFrame besideAux l s t) : ViewFrame besideEdges l s t :=
  h.through fun x => { x with engines := Vector.replicate 8 {} }

theorem edgeTimed_levelFollowed_frame (s : State) (ticks : List Nat) (p : Nat) :
    ViewFrame besideEdges [AUX_ST_LEVEL, AUX_EDGE_COUNT, AUX_PER_TICKS] s (s.levelFollowed.edgeTimed ticks p) :=
  .trans ((levelFollowed_frame s).mono (by decide)) ((edgeTimed_frame _ ticks p).besideEdges_of_aux.mono (by decide))

theorem absorbed_frame (s : State) : ViewFrame besideEdges [AUX_CNT_ABSORB] s s.absorbed := .bump (.beside (.refl _ _ s) rfl rfl) (by decide) (by decide) rfl

theorem absorbed_count (s : State) : s.absorbed.get AUX_CNT_ABSORB = min 0xFFFF (s.get AUX_CNT_ABSORB + 1) := by
  unfold State.absorbed
  rw [State.get_bump_same _ _ _ (by decide), Nat.min_comm]
  rfl

end

/-- Settles O24: a clamp edge shows, asks for injection 0 and turns a driver off that is on; the comparator, the level behind its filter and the tacho follow the input; a
fault turns the driver off until its restore. -/
theorem auxClampsEdgesAndOutputFaults : Obligations.AuxClampsEdgesAndOutputFaults := by
  unfold Obligations.AuxClampsEdgesAndOutputFaults
  refine ⟨?_, ?_, ?_, ?_, ?_, ?_, ?_, ?_, ?_, ?_⟩
  · intro ticks s halive hclamp hoff hpend habort
    have hshown := clampShown_frame s ticks
    have hset (g : Field) (hg : HK_ST_INJPEND.apart g) := State.get_set_ne (s.clampShown ticks) HK_ST_INJPEND g (s.get HK_ST_INJPEND + 1) (by decide) hg
    have hframe : ViewFrame besideAux [AUX_ST_CLAMP, AUX_EVT_CLAMP, AUX_CNT_CLAMPCNT, HK_ST_INJPEND] s _ :=
      .set (f := HK_ST_INJPEND) (n := s.get HK_ST_INJPEND + 1) (hshown.mono (by decide)) (by decide) (by decide) rfl
    exact ⟨_, (exec_auxClampEdge ticks halive).trans (congrArg Host.Outcome.next (startClamp_requests hclamp hoff hpend habort)), rfl,
      (hset _ (by decide)).trans (clampShown_clamp s ticks), (hset _ (by decide)).trans (clampShown_event s ticks),
      (hset _ (by decide)).trans (clampShown_count s ticks), rfl, (State.get_set_same _ _ _ (by decide)).trans (injPend_succ hpend),
      hframe.rest_of_besideAux, hframe.regs⟩
  · intro ticks s halive hclamp hon hpend
    have hshown := clampShown_frame s ticks
    have hmerged : ViewFrame besideAux [HK_CNT_INJMRG] (s.clampShown ticks) ((s.clampShown ticks).bump HK_CNT_INJMRG 1) :=
      .bump (.refl _ _ _) (by decide) (by decide) rfl
    have hfault := driverFaulted_frame ((s.clampShown ticks).bump HK_CNT_INJMRG 1)
    have hafter := (hmerged.mono (m := [HK_CNT_INJMRG, AUX_EVT_OFLT]) (by decide)).trans (hfault.mono (by decide))
    have hframe : ViewFrame besideAux [AUX_ST_CLAMP, AUX_EVT_CLAMP, AUX_CNT_CLAMPCNT, HK_CNT_INJMRG, AUX_EVT_OFLT] s _ :=
      (hshown.mono (by decide)).trans (hafter.mono (by decide))
    refine ⟨_, (exec_auxClampEdge ticks halive).trans (congrArg Host.Outcome.next (startClamp_merges hclamp hon hpend)), rfl,
      (hafter.get _ (by decide)).trans (clampShown_clamp s ticks), (hafter.get _ (by decide)).trans (clampShown_event s ticks),
      (hafter.get _ (by decide)).trans (clampShown_count s ticks), rfl, ?_, rfl, driverFaulted_event _, hframe.rest_of_besideAux, hframe.regs⟩
    rw [hfault.get _ (by decide), State.get_bump_same _ _ _ (by decide), hshown.get _ (by decide), Nat.min_comm]
    rfl
  · intro v s halive hfunc hserial hcomp hlevel habove
    exact ⟨s.compared true, exec_auxComparatorChange halive (auxInput_of hfunc hserial) (hlevel.trans hcomp.symm) (comparator_above habove) hcomp, rfl,
      levelEdge_engine s 1 true _, rfl⟩
  · intro v s halive hfunc hserial hcomp hlevel hbelow hnot
    exact ⟨s.compared false, exec_auxComparatorChange halive (auxInput_of hfunc hserial) (hlevel.trans hcomp.symm) (comparator_below hbelow hnot) hcomp, rfl,
      levelEdge_engine s 1 false _, rfl⟩
  · intro p rest s halive hfunc hserial hcomp hlevel hheld hstuck hbase htach hedges hov hslow hwidth
    have hexec := exec_auxEdgeAccept halive (auxInput_of hfunc hserial) (by rw [hlevel, hcomp]; rfl) hheld
    rw [acceptEdge_active hcomp hstuck hbase htach, activeEdge_timed (s := s.levelFollowed) hedges (((levelFollowed_frame s).bit _ (by decide)).trans hov),
      if_neg (Nat.not_lt.2 hslow)] at hexec
    have haccepted := edgeTimed_accepted (ticks := s.aux.compAt :: (p :: rest).take 3) hcomp hwidth
    have hframe := edgeTimed_levelFollowed_frame s (s.aux.compAt :: (p :: rest).take 3) (s.aux.compAt - p)
    exact ⟨_, hexec, haccepted.level, haccepted.count, haccepted.period, haccepted.edges, haccepted.engines, haccepted.moved, hframe.rest_of_besideEdges, hframe.regs⟩
  · intro p rest s halive hfunc hserial hcomp hlevel hheld hstuck hbase htach hedges hov hfast
    have hexec := exec_auxEdgeAccept halive (auxInput_of hfunc hserial) (by rw [hlevel, hcomp]; rfl) hheld
    rw [acceptEdge_active hcomp hstuck hbase htach, activeEdge_timed (s := s.levelFollowed) hedges (((levelFollowed_frame s).bit _ (by decide)).trans hov), if_pos hfast] at hexec
    have haccepted := (edgeTimed_accepted (ticks := s.aux.compAt :: (p :: rest).take 3) hcomp (by omega : s.aux.compAt - p < 2 ^ 32)).overspeed
    have htimed := edgeTimed_levelFollowed_frame s (s.aux.compAt :: (p :: rest).take 3) (s.aux.compAt - p)
    have hframe : ViewFrame besideEdges [AUX_ST_LEVEL, AUX_ST_OVSPD, AUX_EVT_OVSPD, AUX_CNT_OVSPDCNT, AUX_EDGE_COUNT, AUX_PER_TICKS] s _ :=
      (htimed.mono (by decide)).trans ((overspeed_frame _).besideEdges_of_aux.mono (by decide))
    exact ⟨_, hexec, haccepted.level, haccepted.count, haccepted.period, haccepted.edges, haccepted.engines, haccepted.moved, hframe.rest_of_besideEdges,
      overspeed_status _, overspeed_event _, (overspeed_count _).trans (by rw [htimed.get _ (by decide)]), hframe.regs⟩
  · intro s halive hfunc hserial hturned hshort
    have hframe := absorbed_frame s
    exact ⟨_, exec_auxPulseAbsorb halive (auxInput_of hfunc hserial) hturned hshort, absorbed_count s, hframe.get _ (by decide), rfl, levelEdge_engine s 1 _ _,
      hframe.rest_of_besideEdges, hframe.regs⟩
  · intro s halive hfunc hserial htime hnew
    refine ⟨_, exec_auxStuck halive (auxInput_of hfunc hserial) htime hnew, ?_, State.get_event_same _ _ (by decide) rfl, rfl, ?_⟩
    · rw [State.get_event_ne _ _ _ (by decide) (by decide)]
      exact State.get_set_same _ _ _ (by decide)
    · exact sameBut_trans (sameBut_set _ _ _ _ (by decide) (by decide)) (sameBut_event _ _ _ (by decide) (by decide))
  · intro s halive hon
    have hframe := driverFaulted_frame s
    exact ⟨_, (exec_auxOutputFault halive).trans (congrArg Host.Outcome.next (faultDriver_on hon)), driverFaulted_event s, rfl, hframe.rest_of_besideAux, hframe.regs⟩
  · intro s halive hfunc hserial hoff htime hclamp
    have hon : driverOn { s with aux := { s.aux with outOff := false } } = true := by simp [driverOn, auxSerial, hfunc, hserial]
    have hdrives : startDriver { s with aux := { s.aux with outOff := false } } = { s with aux := { s.aux with outOff := false, driven := driverLevel s } } :=
      (startDriver_unclamped (s := { s with aux := { s.aux with outOff := false } }) hclamp).trans (if_pos hon)
    exact ⟨_, (exec_auxOutputRestore halive hoff htime).trans (congrArg Host.Outcome.next hdrives), rfl, hon, rfl⟩

end Sys2Proof.Machine
end

section
/-!
PROOFS. The AUX functions and the lead measurement (06 R153, R154, R166, R179).
-/

namespace Sys2Proof.Machine

/-! ### Writes of the AUX page (06 R179) -/

/-- A mask that is ones in a field keeps it. -/
theorem getBits_and_of_ones (w m : Word) (lo width : Nat) (h : ∀ i < width, m.getLsbD (lo + i) = true) : getBits (w &&& m) lo width = getBits w lo width := by
  apply Nat.eq_of_testBit_eq
  intro i
  rw [testBit_getBits, testBit_getBits, BitVec.getLsbD_and]
  by_cases hi : i < width
  · simp [h i hi]
  · simp [hi]

section
variable {s : State}

theorem writeAux_frame (s : State) (a : Nat) (v : Word) : ViewFrame besideAux [wholeWord a] s (writeAux s a v) := by
  have hkeep : ViewFrame besideAux [wholeWord a] s (auxKeep s a) := .beside (.refl _ _ s) rfl rfl
  exact .beside (.setWord hkeep (by simp) rfl) rfl rfl

theorem writeAux_get (a : Nat) (v : Word) {f : Field} (h : f.word = a) : (writeAux s a v).get f = getBits (auxValue s a v) f.lo f.width := by
  subst h
  exact State.get_setWord_same (auxKeep s f.word) f _

theorem writeAux_pend (a : Nat) (v : Word) : (writeAux s a v).aux.pend = if auxPending (writeAux s a v) then some s.now else none := rfl

theorem auxValue_cfg (v : Word) : auxValue s 0xA00 v = v &&& 0x13 := by simp [auxValue]

theorem auxValue_prb (v : Word) : auxValue s 0xA03 v = if getBits v 0 2 ≤ 1 then v &&& 3 else s.word 0xA03 := by simp [auxValue]

/-- The writes of AUX_CFG and AUX_PRB (06 R153). -/
def State.functionWritten (s : State) (cfg prb : Word) : State := writeAux (writeAux s 0xA00 cfg) 0xA03 prb

theorem exec_auxFuncWrite {door : Initiator} (cfg prb : Word) (h : doorOpen s door 0xA00 = true) :
    exec (.auxFuncWrite door cfg prb) s = .next (s.functionWritten cfg prb) := congrArg Host.Outcome.next (atDoor_open s door 0xA00 _ h)

theorem functionWritten_frame (s : State) (cfg prb : Word) : ViewFrame besideAux [wholeWord 0xA00, wholeWord 0xA03] s (s.functionWritten cfg prb) :=
  .trans ((writeAux_frame s 0xA00 cfg).mono (by simp)) ((writeAux_frame _ 0xA03 prb).mono (by simp))

theorem functionWritten_cfg (cfg prb : Word) {f : Field} (h : f.word = 0xA00) : (s.functionWritten cfg prb).get f = getBits (cfg &&& 0x13) f.lo f.width := by
  have hprb : ∀ g ∈ [wholeWord 0xA03], g.apart f := by simp [Field.apart, wholeWord, h]
  exact ((writeAux_frame _ 0xA03 prb).get f hprb).trans ((writeAux_get 0xA00 cfg h).trans (by rw [auxValue_cfg]))

theorem functionWritten_func (cfg prb : Word) : (s.functionWritten cfg prb).get AUX_CFG_FUNC = getBits cfg 0 2 :=
  (functionWritten_cfg cfg prb rfl).trans (getBits_and_of_ones cfg 0x13 0 2 (by decide))

theorem functionWritten_pu (cfg prb : Word) : (s.functionWritten cfg prb).get AUX_CFG_PU = getBits cfg 4 1 :=
  (functionWritten_cfg cfg prb rfl).trans (getBits_and_of_ones cfg 0x13 4 1 (by decide))

theorem functionWritten_typ (cfg prb : Word) :
    (s.functionWritten cfg prb).get AUX_PRB_TYPE = if getBits prb 0 2 ≤ 1 then getBits prb 0 2 else s.get AUX_PRB_TYPE := by
  have hold : (writeAux s 0xA00 cfg).get AUX_PRB_TYPE = s.get AUX_PRB_TYPE := (writeAux_frame s 0xA00 cfg).get _ (by decide)
  refine (writeAux_get (f := AUX_PRB_TYPE) 0xA03 prb rfl).trans ?_
  rw [auxValue_prb]
  split
  · exact getBits_and_of_ones prb 3 0 2 (by decide)
  · exact hold

theorem functionWritten_pend (cfg prb : Word) (h : getBits prb 0 2 ≤ 1) :
    (s.functionWritten cfg prb).aux.pend = if getBits cfg 0 2 ≠ s.aux.func ∨ getBits prb 0 2 ≠ s.aux.typ then some s.now else none := by
  have hpend : (s.functionWritten cfg prb).aux.pend = if auxPending (s.functionWritten cfg prb) then some s.now else none := writeAux_pend 0xA03 prb
  have hfunc : (s.functionWritten cfg prb).aux.func = s.aux.func := rfl
  have htyp : (s.functionWritten cfg prb).aux.typ = s.aux.typ := rfl
  rw [hpend]
  simp [auxPending, functionWritten_func, functionWritten_typ, h, hfunc, htyp]

end

/-! ### The stop of slots 10 and 11 (06 R153, 08 R216) -/

section
variable (s : State) (i : Fin 16)

theorem stopBanks_frame (st : Nat) : SuppressFrame i s (stopBanks s i st) := by
  have hbanks := (forceSwap_frame s i).trans ((setBank_frame _ i 0 0).trans (setBank_frame _ i 1 0))
  unfold stopBanks
  exact .ite (SuppressFrame.set (SuppressFrame.set hbanks (by simp [suppressFields])) (by simp [suppressFields])) (.refl _ _ s)

/-- What of a slot's state a swap does not touch: its enable, its stops, and that it has to resume. -/
def State.stopsOf (s : State) (i : Fin 16) : Bool × List (Nat × Nat) × Bool := (s.slots[i].en, s.slots[i].stop, s.slots[i].resume)

theorem stopsOf_set (f : Field) (n : Nat) : (s.set f n).stopsOf i = s.stopsOf i := rfl

theorem stopsOf_setBank (b st : Nat) : (setBank s i b st).stopsOf i = s.stopsOf i := by
  unfold setBank
  split <;> rfl

theorem stopsOf_finishSwap (res : Nat) : (finishSwap s i res).stopsOf i = s.stopsOf i := by
  unfold finishSwap
  simp only [State.stopsOf, modSlot_self]
  exact (stopsOf_setBank _ i _ _).trans (stopsOf_setBank s i _ _)

theorem stopsOf_forceSwap : (forceSwap s i).stopsOf i = s.stopsOf i := by
  unfold forceSwap
  split
  · exact (stopsOf_set _ i _ _).trans (stopsOf_finishSwap s i 7)
  · rfl

theorem stopsOf_stopBanks (st : Nat) : (stopBanks s i st).stopsOf i = s.stopsOf i := by
  unfold stopBanks
  split
  · rw [stopsOf_set, stopsOf_set, stopsOf_setBank, stopsOf_setBank, stopsOf_forceSwap]
  · rfl

/-- The slot's stop from S up to S + 10 ms, where it is enabled. -/
def State.stopped (S : Nat) : State :=
  if s.slots[i].en then stopBanks (s.modSlot i fun x => { x with stop := (S, S + 80000000) :: x.stop, resume := true }) i 5 else s

theorem stopSlot_axisless (S : Nat) (f : State → State) (h : slotAxis i = none) : stopSlot s i S f = f (s.stopped i S) := by
  unfold stopSlot stopWindow State.stopped
  rw [h]
  dsimp only
  split <;> rfl

theorem stopped_frame (S : Nat) : SuppressFrame i s (s.stopped i S) := by
  unfold State.stopped
  exact .ite (.trans (SuppressFrame.modSlot (.refl _ _ s) _) (stopBanks_frame _ i 5)) (.refl _ _ s)

theorem stopsOf_stopped (S : Nat) :
    (s.stopped i S).stopsOf i = if s.slots[i].en then (true, (S, S + 80000000) :: s.slots[i].stop, true) else s.stopsOf i := by
  unfold State.stopped
  split
  · next hen =>
    rw [stopsOf_stopBanks]
    simp only [State.stopsOf, modSlot_self, hen]
  · rfl

end

/-- Slots 10 and 11 stopped from S on. -/
def State.auxStopped (s : State) (S : Nat) : State := (s.stopped 10 S).stopped 11 S

theorem applyAux_eq (s : State) (S : Nat) : applyAux s S = takeFunction (s.auxStopped S) := by
  rw [applyAux, stopSlot_axisless s 10 S id rfl, stopSlot_axisless _ 11 S takeFunction rfl]
  simp only [id, State.auxStopped]

theorem auxStopped_stopsOf (s : State) (S : Nat) (i : Fin 16) (hi : i = 10 ∨ i = 11) :
    (s.auxStopped S).stopsOf i = if s.slots[i].en then (true, (S, S + 80000000) :: s.slots[i].stop, true) else s.stopsOf i := by
  rcases hi with rfl | rfl
  · have hkept : (s.auxStopped S).slots[(10 : Fin 16)] = (s.stopped 10 S).slots[(10 : Fin 16)] := ViewFrame.otherSlot (stopped_frame _ 11 S) (by decide)
    rw [← stopsOf_stopped]
    simp only [State.stopsOf, hkept]
  · have hkept : (s.stopped 10 S).slots[(11 : Fin 16)] = s.slots[(11 : Fin 16)] := ViewFrame.otherSlot (stopped_frame s 10 S) (by decide)
    unfold State.auxStopped
    rw [stopsOf_stopped]
    simp only [State.stopsOf, hkept]

/-- A slot that a state has stopped, where it is enabled, from S on up to S + 10 ms. -/
theorem auxStopped_shown (s : State) (S : Nat) {i : Fin 16} (hi : i = 10 ∨ i = 11) (hen : s.slots[i].en = true) :
    (s.auxStopped S).slots[i].stop.head? = some (S, S + 80000000) ∧ (s.auxStopped S).slots[i].resume = true := by
  have hstops := auxStopped_stopsOf s S i hi
  rw [if_pos hen] at hstops
  obtain ⟨-, hstop⟩ := Prod.mk.inj hstops
  obtain ⟨hstop, hresume⟩ := Prod.mk.inj hstop
  exact ⟨congrArg List.head? hstop, hresume⟩

/-- Slot 10 is not enabled there, or it has to resume. -/
theorem auxStopped_resumes (s : State) (S : Nat) (hen : (s.auxStopped S).slots[(10 : Fin 16)].en = true) :
    (s.auxStopped S).slots[(10 : Fin 16)].resume = true := by
  by_cases hs : s.slots[(10 : Fin 16)].en = true
  · exact (auxStopped_shown s S (.inl rfl) hs).2
  · have hstops := auxStopped_stopsOf s S 10 (.inl rfl)
    rw [if_neg hs] at hstops
    exact absurd ((congrArg Prod.fst hstops).symm.trans hen) hs

/-! ### The probe's fault when the function changes (06 R167) -/

def monitorFields : List Field := AUX_ST_PFLT :: AUX_EVT_PFLT :: suppressFields 10

section
variable {s : State}

/-- The trigger of a stopped slot only counts (07 R201). -/
theorem suppress_slots_of_resume {i : Fin 16} (exc : Bool) (h : s.slots[i].en = true → s.slots[i].resume = true) : (suppress s i exc).slots = s.slots := by
  unfold suppress suppressAt
  split
  · rfl
  · next hnot =>
    rw [if_neg fun ⟨hi, hen⟩ => hnot ⟨hi, hen, h hen⟩]

theorem setPflt_frame (n : Nat) : ViewFrame (besideSlot 10) monitorFields s (setPflt s n) := by
  have hset : ViewFrame (besideSlot 10) monitorFields s (s.set AUX_ST_PFLT n) := .set (.refl _ _ s) (by simp [monitorFields]) (by decide) rfl
  unfold setPflt
  exact .ite (.refl _ _ s) (.ite (hset.trans ((suppress_frame _ 10 false).mono fun _ hf => List.mem_cons_of_mem _ (List.mem_cons_of_mem _ hf))) (.event hset (by simp [monitorFields]) (by decide) rfl))

theorem setPflt_slots (n : Nat) (h : s.slots[(10 : Fin 16)].en = true → s.slots[(10 : Fin 16)].resume = true) : (setPflt s n).slots = s.slots := by
  unfold setPflt
  dsimp only
  split
  · rfl
  · split
    · exact suppress_slots_of_resume (s := s.set AUX_ST_PFLT n) false h
    · rfl

theorem checkMonitor_frame : ViewFrame (besideSlot 10) monitorFields s (checkMonitor s) := by
  unfold checkMonitor
  exact .ite (.refl _ _ s) (.ite (setPflt_frame 3) (.ite (setPflt_frame 0) (.refl _ _ s)))

theorem checkMonitor_slots (h : s.slots[(10 : Fin 16)].en = true → s.slots[(10 : Fin 16)].resume = true) : (checkMonitor s).slots = s.slots := by
  unfold checkMonitor
  split
  · rfl
  · split
    · exact setPflt_slots 3 h
    · split
      · exact setPflt_slots 0 h
      · rfl

end

/-! ### The driver when the function changes (06 R169) -/

/-- The AUX channel without what the driver does. -/
def AuxState.undriven (x : AuxState) : AuxState := { x with outOff := false, offAt := 0, driven := false }

/-- A state without its registers, the driver and the present tick's events. -/
def besideDriver (s : State) : State := { s with regs := [], aux := s.aux.undriven, fresh := [] }

theorem startDriver_frame (s : State) : ViewFrame besideDriver [AUX_ST_CLAMP, AUX_EVT_OFLT] s (startDriver s) := by
  have hend : ViewFrame besideDriver [AUX_ST_CLAMP, AUX_EVT_OFLT] s (endClamp s) := by
    unfold endClamp
    exact .ite (.set (.refl _ _ s) (by decide) (by decide) rfl) (.refl _ _ s)
  have hfault (u : State) : ViewFrame besideDriver [AUX_ST_CLAMP, AUX_EVT_OFLT] u (faultDriver u) := by
    unfold faultDriver
    exact .ite (.event (.beside (.refl _ _ u) rfl rfl) (by decide) (by decide) rfl) (.refl _ _ u)
  have hdrive (u : State) : ViewFrame besideDriver [AUX_ST_CLAMP, AUX_EVT_OFLT] u (driveAux u) := by
    unfold driveAux
    exact .ite (.beside (.refl _ _ u) rfl rfl) (.refl _ _ u)
  unfold startDriver
  exact hend.trans (.ite (hfault _) (hdrive _))

/-! ### The function takes effect (06 R153) -/

/-- The AUX channel with the written function and probe type in effect: the comparator and the tacho start anew. -/
def State.functionAux (s : State) : AuxState :=
  { s.aux with func := s.get AUX_CFG_FUNC, typ := s.get AUX_PRB_TYPE, pend := none, outOff := false, movedAt := s.pwr.ticks, edges := [], nact := 0, ready := 0, slow := 0,
               angle := 0, comp := false }

/-- The state as the function takes effect, before the probe's fault and the driver follow it: PFLT is kept in the probe function alone. -/
def State.functionTaken (s : State) : State :=
  let u := { s with aux := s.functionAux }.set AUX_ST_LEVEL 0
  if u.aux.func ≠ 2 then u.set AUX_ST_PFLT 0 else u

theorem takeFunction_eq (s : State) : takeFunction s = startDriver (checkMonitor s.functionTaken) := rfl

/-- A state without its registers, the AUX channel, the Mill's slots and the present tick's events. -/
def besideFunction (s : State) : State := { besideAux s with slots := Vector.replicate 16 {} }

def functionFields : List Field := [AUX_ST_LEVEL, AUX_ST_CLAMP, AUX_EVT_OFLT] ++ monitorFields ++ suppressFields 11

section
variable (s : State)

theorem functionTaken_frame : ViewFrame besideFunction functionFields s s.functionTaken := by
  have hlevel : ViewFrame besideFunction functionFields s ({ s with aux := s.functionAux }.set AUX_ST_LEVEL 0) :=
    .set (.beside (.refl _ _ s) rfl rfl) (by simp [functionFields]) (by decide) rfl
  exact .ite (.set hlevel (by simp [functionFields, monitorFields]) (by decide) rfl) hlevel

theorem functionTaken_level : s.functionTaken.get AUX_ST_LEVEL = 0 := by
  have hheld : ({ s with aux := s.functionAux }.set AUX_ST_LEVEL 0).get AUX_ST_LEVEL = 0 := State.get_set_same _ _ _ (by decide)
  unfold State.functionTaken
  dsimp only
  split
  · rw [State.get_set_ne _ _ _ _ (by decide) (by decide), hheld]
  · exact hheld

theorem functionTaken_beside : s.functionTaken.aux = s.functionAux ∧ s.functionTaken.slots = s.slots := by
  unfold State.functionTaken
  dsimp only
  split <;> exact ⟨rfl, rfl⟩

theorem takeFunction_undriven : (takeFunction s).aux.undriven = s.functionAux.undriven := by
  have hdriver : (takeFunction s).aux.undriven = (checkMonitor s.functionTaken).aux.undriven := (congrArg (fun x : State => x.aux) (startDriver_frame _).kept :)
  have hmonitor : (checkMonitor s.functionTaken).aux = s.functionTaken.aux := (congrArg (fun x : State => x.aux) checkMonitor_frame.kept :)
  rw [hdriver, hmonitor, (functionTaken_beside s).1]

theorem takeFunction_slots (h : s.slots[(10 : Fin 16)].en = true → s.slots[(10 : Fin 16)].resume = true) : (takeFunction s).slots = s.slots := by
  have hdriver : (takeFunction s).slots = (checkMonitor s.functionTaken).slots := (congrArg (fun x : State => x.slots) (startDriver_frame _).kept :)
  obtain ⟨-, hslots⟩ := functionTaken_beside s
  rw [hdriver, checkMonitor_slots (by rwa [hslots]), hslots]

theorem takeFunction_frame_after : ViewFrame besideFunction (functionFields.tail) s.functionTaken (takeFunction s) := by
  have hmonitor : ViewFrame besideFunction functionFields.tail s.functionTaken (checkMonitor s.functionTaken) :=
    .mono (checkMonitor_frame.through fun x => { x with aux := {}, slots := Vector.replicate 16 {} }) (by decide)
  have hdriver : ViewFrame besideFunction functionFields.tail (checkMonitor s.functionTaken) (takeFunction s) :=
    .mono ((startDriver_frame _).through fun x => { x with aux := {}, slots := Vector.replicate 16 {} }) (by decide)
  exact hmonitor.trans hdriver

theorem takeFunction_frame : ViewFrame besideFunction functionFields s (takeFunction s) :=
  (functionTaken_frame s).trans ((takeFunction_frame_after s).mono fun _ => List.mem_of_mem_tail)

theorem takeFunction_level : (takeFunction s).get AUX_ST_LEVEL = 0 :=
  ((takeFunction_frame_after s).get _ (by decide)).trans (functionTaken_level s)

theorem auxStopped_frame (S : Nat) : ViewFrame besideFunction functionFields s (s.auxStopped S) := by
  have hstop (u : State) (i : Fin 16) (hi : ∀ f ∈ suppressFields i, f ∈ functionFields) : ViewFrame besideFunction functionFields u (u.stopped i S) :=
    .mono ((stopped_frame u i S).through fun x => { x with aux := {}, slots := Vector.replicate 16 {} }) hi
  exact (hstop s 10 (by decide)).trans (hstop _ 11 (by decide))

theorem auxStopped_beside (S : Nat) : (s.auxStopped S).aux = s.aux ∧ (s.auxStopped S).pwr = s.pwr := by
  have hkept : ∀ (u : State) (i : Fin 16), (u.stopped i S).aux = u.aux ∧ (u.stopped i S).pwr = u.pwr := fun u i =>
    ⟨(congrArg (fun x : State => x.aux) (stopped_frame u i S).kept :), (congrArg (fun x : State => x.pwr) (stopped_frame u i S).kept :)⟩
  obtain ⟨haux, hpwr⟩ := hkept s 10
  obtain ⟨haux', hpwr'⟩ := hkept (s.stopped 10 S) 11
  exact ⟨haux'.trans haux, hpwr'.trans hpwr⟩

/-- The channel that takes effect is the same with slots 10 and 11 stopped. -/
theorem auxStopped_functionAux (S : Nat) : (s.auxStopped S).functionAux = s.functionAux := by
  obtain ⟨haux, hpwr⟩ := auxStopped_beside s S
  have hframe := auxStopped_frame s S
  simp only [State.functionAux, haux, hpwr, hframe.get AUX_CFG_FUNC (by decide), hframe.get AUX_PRB_TYPE (by decide)]

theorem applyAux_frame (S : Nat) : ViewFrame besideFunction functionFields s (applyAux s S) := by
  rw [applyAux_eq]
  exact (auxStopped_frame s S).trans (takeFunction_frame _)

theorem applyAux_undriven (S : Nat) : (applyAux s S).aux.undriven = s.functionAux.undriven := by
  rw [applyAux_eq, takeFunction_undriven, auxStopped_functionAux]

theorem applyAux_level (S : Nat) : (applyAux s S).get AUX_ST_LEVEL = 0 := by
  rw [applyAux_eq]
  exact takeFunction_level _

/-- Slots 10 and 11, where enabled, are stopped from S up to S + 10 ms and have to resume. -/
theorem applyAux_shown (S : Nat) {i : Fin 16} (hi : i = 10 ∨ i = 11) (hen : s.slots[i].en = true) :
    (applyAux s S).slots[i].stop.head? = some (S, S + 80000000) ∧ (applyAux s S).slots[i].resume = true := by
  have hslots : (applyAux s S).slots = (s.auxStopped S).slots := by
    rw [applyAux_eq]
    exact takeFunction_slots _ (auxStopped_resumes s S)
  rw [hslots]
  exact auxStopped_shown s S hi hen

end

section
variable {s t : State} {l : List Field}

theorem ViewFrame.rest_of_besideFunction (h : ViewFrame besideFunction l s t) : { t with regs := s.regs, aux := s.aux, slots := s.slots, fresh := s.fresh } = s :=
  (congrArg (fun x : State => { x with regs := s.regs, aux := s.aux, slots := s.slots, fresh := s.fresh }) h.kept :)

/-- The AUX channel x with what a change of function sets as s has it. -/
def State.functionMasked (s : State) (x : AuxState) : AuxState :=
  { x with func := s.aux.func, typ := s.aux.typ, pend := s.aux.pend, outOff := s.aux.outOff, offAt := s.aux.offAt, driven := s.aux.driven, edges := s.aux.edges,
           nact := s.aux.nact, ready := s.aux.ready, slow := s.aux.slow, angle := s.aux.angle, comp := s.aux.comp, movedAt := s.aux.movedAt }

theorem exec_auxFuncApply {w S : Nat} (halive : s.alive = true) (hpend : s.aux.pend = some w) (hS : s.second * 8000000000 = S) (hw : w < S)
    (hbase : s.time.base ≤ S) (hserial : s.pwr.serialB = false) : exec .auxFuncApply s = .next (applyAux s S) := by
  change execAuxFuncApply s = _
  unfold execAuxFuncApply
  rw [hS]
  simp [auxSerial, halive, hpend, hw, hbase, hserial]

/-! ### Lead measurement (06 R166) -/

theorem exec_auxLeadmeasCmd {door : Initiator} (h : doorOpen s door 0xA07 = true) : exec (.auxLeadmeasCmd door) s = .next (leadMeasure s) :=
  congrArg Host.Outcome.next (atDoor_open s door 0xA07 _ h)

theorem leadMeasure_starts (hmode : s.mode = 9) (hfunc : s.aux.func = 2) (hserial : s.pwr.serialB = false) (hbusy : s.get AUX_ST_LEADBUSY = 0) :
    leadMeasure s = { s with aux := { s.aux with lead := { start := s.now } } }.set AUX_ST_LEADBUSY 1 := by
  simp [leadMeasure, auxSerial, hmode, hfunc, hserial, State.bit_of_get_zero hbusy]

theorem leadMeasure_refused (h : s.mode ≠ 9 ∨ s.aux.func ≠ 2) : leadMeasure s = s.event AUX_EVT_LEADFAIL :=
  if_neg fun ⟨hmode, hfunc, _⟩ => h.elim (· hmode) (· hfunc)

/-- A state without its registers, the entries of the dirty list and the present tick's events. -/
def besideDirty (s : State) : State := { s with regs := [], tally := { s.tally with dirty := [] }, fresh := [] }

theorem ViewFrame.rest_of_besideDirty (h : ViewFrame besideDirty l s t) :
    { t with regs := s.regs, tally := s.tally, fresh := s.fresh } = s ∧ { t.tally with dirty := s.tally.dirty } = s.tally :=
  ⟨(congrArg (fun x : State => { x with regs := s.regs, tally := s.tally, fresh := s.fresh }) h.kept :),
    (congrArg (fun x : State => { x.tally with dirty := s.tally.dirty }) h.kept :)⟩

theorem noteLive_frame (s : State) (r : TallyRec) : ViewFrame besideDirty [TL_DIRTY_ENTRIES] s (noteLive s r) := by
  unfold noteLive
  exact .ite (.set (.beside (.refl _ _ s) rfl rfl) (by decide) (by decide) rfl) (.refl _ _ s)

/-- The measured resistance is shown (06 R166). -/
def State.leadShown (s : State) (r : Nat) : State := ((s.set AUX_ST_LEADBUSY 0).set AUX_RLEAD_MOHM r).event AUX_EVT_LEADOK

/-- The measurement failed. -/
def State.leadFailed (s : State) : State := (s.set AUX_ST_LEADBUSY 0).event AUX_EVT_LEADFAIL

theorem exec_auxLeadmeasEnd_good (halive : s.alive = true) (hbusy : s.get AUX_ST_LEADBUSY = 1) (hclean : leadSpoiled s = false)
    (hfull : s.aux.lead.full 16000000000 = true) (hlow : 0 ≤ leadMean s.aux.lead) (hhigh : leadMean s.aux.lead ≤ 50000) :
    exec .auxLeadmeasEnd s =
      .next (noteLive (s.leadShown (leadMean s.aux.lead).toNat) (.word 0xA04 0xFFFFF (BitVec.ofNat 32 (leadMean s.aux.lead).toNat))) := by
  change execAuxLeadmeasEnd s = _
  simp [execAuxLeadmeasEnd, State.leadShown, halive, State.bit_of_get_one hbusy, hclean, hfull, hlow, hhigh]

theorem exec_auxLeadmeasEnd_bad (halive : s.alive = true) (hbusy : s.get AUX_ST_LEADBUSY = 1)
    (hbad : leadSpoiled s = true ∨ (s.aux.lead.full 16000000000 = true ∧ (leadMean s.aux.lead < 0 ∨ 50000 < leadMean s.aux.lead))) :
    exec .auxLeadmeasEnd s = .next s.leadFailed := by
  have hends : (leadSpoiled s || s.aux.lead.full 16000000000) = true := by
    rcases hbad with hspoiled | ⟨hfull, -⟩
    · simp [hspoiled]
    · simp [hfull]
  have hout : (!leadSpoiled s && decide (0 ≤ leadMean s.aux.lead) && decide (leadMean s.aux.lead ≤ 50000)) = false := by
    rcases hbad with hspoiled | ⟨-, hneg | hbig⟩
    · simp [hspoiled]
    · simp [Int.not_le.2 hneg]
    · simp [Int.not_le.2 hbig]
  change execAuxLeadmeasEnd s = _
  simp [execAuxLeadmeasEnd, State.leadFailed, halive, State.bit_of_get_one hbusy, hends, hout]

theorem leadShown_frame (s : State) (r : Nat) : ViewFrame besideDirty [AUX_RLEAD_MOHM, AUX_EVT_LEADOK, AUX_ST_LEADBUSY] s (s.leadShown r) :=
  .event (.set (.set (.refl _ _ s) (by decide) (by decide) rfl) (by decide) (by decide) rfl) (by decide) (by decide) rfl

theorem leadShown_resistance {r : Nat} (h : r < 2 ^ 20) : (s.leadShown r).get AUX_RLEAD_MOHM = r := by
  unfold State.leadShown
  rw [State.get_event_ne _ _ _ (by decide) (by decide), State.get_set_same _ _ _ (by decide)]
  exact Nat.mod_eq_of_lt h

theorem leadShown_event (r : Nat) : (s.leadShown r).get AUX_EVT_LEADOK = 1 := State.get_event_same _ _ (by decide) rfl

theorem leadShown_busy (r : Nat) : (s.leadShown r).get AUX_ST_LEADBUSY = 0 := by
  unfold State.leadShown
  rw [State.get_event_ne _ _ _ (by decide) (by decide), State.get_set_ne _ _ _ _ (by decide) (by decide)]
  exact State.get_set_same _ _ _ (by decide)

theorem leadFailed_busy (s : State) : s.leadFailed.get AUX_ST_LEADBUSY = 0 := by
  unfold State.leadFailed
  rw [State.get_event_ne _ _ _ (by decide) (by decide)]
  exact State.get_set_same _ _ _ (by decide)

end

/-- Settles O23: the written function waits for the boundary S, where slots 10 and 11 stop and it takes effect; the lead measurement starts in SERVICE and the probe
function alone and ends with the mean of clean records, or fails. -/
theorem auxFunctionsChangeAtTheirBoundary : Obligations.AuxFunctionsChangeAtTheirBoundary := by
  unfold Obligations.AuxFunctionsChangeAtTheirBoundary
  refine ⟨?_, ?_, ?_, ?_, ?_, ?_, ?_⟩
  · intro door cfg prb s hdoor htyp
    have hframe := functionWritten_frame s cfg prb
    exact ⟨_, exec_auxFuncWrite cfg prb hdoor, functionWritten_func cfg prb, functionWritten_pu cfg prb, (functionWritten_typ cfg prb).trans (if_pos htyp), rfl,
      functionWritten_pend cfg prb htyp, hframe.rest_of_besideAux, hframe.regs⟩
  · intro door cfg prb s hdoor htyp
    have hframe := functionWritten_frame s cfg prb
    exact ⟨_, exec_auxFuncWrite cfg prb hdoor, functionWritten_func cfg prb, (functionWritten_typ cfg prb).trans (if_neg (Nat.not_le.2 htyp)),
      hframe.rest_of_besideAux, hframe.regs⟩
  · intro w s halive hpend hw hbase hserial
    have haux := applyAux_undriven s (s.second * 8000000000)
    have hframe := applyAux_frame s (s.second * 8000000000)
    exact ⟨_, exec_auxFuncApply halive hpend rfl hw hbase hserial, (congrArg AuxState.func haux :), (congrArg AuxState.typ haux :), (congrArg AuxState.pend haux :),
      applyAux_shown s _ (.inl rfl), applyAux_shown s _ (.inr rfl), (congrArg AuxState.edges haux :), (congrArg AuxState.nact haux :), (congrArg AuxState.angle haux :),
      (congrArg AuxState.comp haux :), (congrArg AuxState.movedAt haux :), applyAux_level s _, hframe.get _ (by decide),
      (congrArg s.functionMasked haux :), hframe.rest_of_besideFunction⟩
  · intro door s hdoor hmode hfunc hserial hbusy
    exact ⟨_, (exec_auxLeadmeasCmd hdoor).trans (congrArg Host.Outcome.next (leadMeasure_starts hmode hfunc hserial hbusy)), State.get_set_same _ _ _ (by decide), rfl, rfl,
      sameBut_set _ _ _ _ (by decide) (by decide)⟩
  · intro door s hdoor hother
    exact ⟨_, (exec_auxLeadmeasCmd hdoor).trans (congrArg Host.Outcome.next (leadMeasure_refused hother)), State.get_event_same _ _ (by decide) rfl, rfl,
      sameBut_event _ _ _ (by decide) (by decide)⟩
  · intro s halive hbusy hclean hfull hlow hhigh
    have hnote := noteLive_frame (s.leadShown (leadMean s.aux.lead).toNat) (.word 0xA04 0xFFFFF (BitVec.ofNat 32 (leadMean s.aux.lead).toNat))
    have hframe : ViewFrame besideDirty [AUX_RLEAD_MOHM, AUX_EVT_LEADOK, AUX_ST_LEADBUSY, TL_DIRTY_ENTRIES] s _ :=
      ((leadShown_frame s _).mono (by decide)).trans (hnote.mono (by decide))
    obtain ⟨hrest, htally⟩ := hframe.rest_of_besideDirty
    exact ⟨_, exec_auxLeadmeasEnd_good halive hbusy hclean hfull hlow hhigh, (hnote.get _ (by decide)).trans (leadShown_resistance (by omega)),
      (hnote.get _ (by decide)).trans (leadShown_event _), (hnote.get _ (by decide)).trans (leadShown_busy _), hrest, htally, hframe.regs⟩
  · intro s halive hbusy hbad
    exact ⟨_, exec_auxLeadmeasEnd_bad halive hbusy hbad, State.get_event_same _ _ (by decide) rfl, leadFailed_busy s, rfl,
      sameBut_trans (sameBut_set _ _ _ _ (by decide) (by decide)) (sameBut_event _ _ _ (by decide) (by decide))⟩

end Sys2Proof.Machine
end

section
/-!
PROOFS. The Mill's banks (07 R194 to R197, R204): a bank write's door, the refusals of a swap, its warm-up, its fade and its end.
-/

namespace Sys2Proof.Machine

/-! ### What stands beside the registers, and beside a slot -/

/-- The state without its registers and the present tick's events. -/
def besideRegs (s : State) : State := { s with regs := [], fresh := [] }

/-- Only fields of l differ. -/
abbrev RegFrame (l : List Field) (s t : State) : Prop := ViewFrame besideRegs l s t

section
variable (s : State) (f : Field) (n : Nat)

theorem besideRegs_set : besideRegs (s.set f n) = besideRegs s := rfl
theorem besideRegs_event : besideRegs (s.event f) = besideRegs s := rfl
theorem besideRegs_bump : besideRegs (s.bump f n) = besideRegs s := rfl

end

section
variable {l : List Field} {s t : State} {f : Field} {n : Nat} {i : Fin 16}

theorem RegFrame.set (h : RegFrame l s t) (hf : f ∈ l) (hok : f.ok) : RegFrame l s (t.set f n) := ViewFrame.set h hf hok (besideRegs_set _ _ _)

theorem RegFrame.event (h : RegFrame l s t) (hf : f ∈ l) (hok : f.ok) : RegFrame l s (t.event f) := ViewFrame.event h hf hok (besideRegs_event _ _)

theorem RegFrame.bump (h : RegFrame l s t) (hf : f ∈ l) (hok : f.ok) : RegFrame l s (t.bump f n) := ViewFrame.bump h hf hok (besideRegs_bump _ _ _)

theorem RegFrame.onlyFields (h : RegFrame l s t) : Machine.onlyFields l s t :=
  ⟨(congrArg (fun x : State => { x with regs := s.regs, fresh := s.fresh }) h.kept :), h.regs⟩

theorem ViewFrame.rest_of_besideSlot (h : ViewFrame (besideSlot i) l s t) : { t with regs := s.regs, slots := s.slots, fresh := s.fresh } = s :=
  (congrArg (fun x : State => { x with regs := s.regs, slots := s.slots, fresh := s.fresh }) h.kept :)

end

/-- A slot with a filter chain (0 to 10) among the 16 of the grid. -/
def millSlot (slot : Fin 11) : Fin 16 := slot.castLE (by decide)

/-! ### Bank writes (07 R195) -/

section
variable {s : State} {k a : Nat}

theorem exec_millBankWrite {door : Initiator} (v : Word) (hbank : bankWord a = some k) (hdoor : doorOpen s door a = true) :
    exec (.millBankWrite door a v) s = .next (writeBank s k a v) := by
  change execMillBankWrite door a v s = _
  simp only [execMillBankWrite, hbank, atDoor_open _ _ _ _ hdoor]

theorem storeRw_word (s : State) (a : Nat) (v : Word) :
    (storeRw s a v).word a = (s.word a &&& ~~~(BitVec.ofNat 32 (accMask a .rw))) ||| (v &&& BitVec.ofNat 32 (accMask a .rw)) := State.word_setWord_same _ _ _

theorem storeRw_frame (s : State) (a : Nat) (v : Word) : RegFrame [wholeWord a] s (storeRw s a v) := .setWord (.refl _ _ s) (by simp) rfl

/-- A rejected bank write shows and counts. -/
def State.loadRejected (s : State) (i : Nat) : State := (s.event (ML_EVT_LDREJ i)).bump (ML_CNT_LDREJ i) 1

theorem writeBank_stopped (v : Word) (h : bankState s (k / 2) (k % 2) = 0) : writeBank s k a v = storeRw s a v := if_pos h

theorem writeBank_running (v : Word) (h : bankState s (k / 2) (k % 2) ≠ 0) : writeBank s k a v = s.loadRejected (k / 2) := if_neg h

theorem ldrejEvent_ok (i : Nat) : (ML_EVT_LDREJ i).ok := (by decide : 3 + 1 ≤ 32)

theorem ldrejCount_ok (i : Nat) : (ML_CNT_LDREJ i).ok := (by decide : 8 + 8 ≤ 32)

theorem loadRejected_frame (s : State) (i : Nat) : RegFrame [ML_EVT_LDREJ i, ML_CNT_LDREJ i] s (s.loadRejected i) :=
  .bump (.event (.refl _ _ s) (by simp) (ldrejEvent_ok i)) (by simp) (ldrejCount_ok i)

theorem loadRejected_event (s : State) (i : Nat) : (s.loadRejected i).get (ML_EVT_LDREJ i) = 1 := by
  unfold State.loadRejected
  rw [State.get_bump_ne _ _ _ _ (ldrejCount_ok i) (.inl (by simp [ML_EVT_LDREJ, ML_CNT_LDREJ])), State.get_event_same _ _ (ldrejEvent_ok i) rfl]

theorem loadRejected_count (s : State) (i : Nat) : (s.loadRejected i).get (ML_CNT_LDREJ i) = min 255 (s.get (ML_CNT_LDREJ i) + 1) := by
  unfold State.loadRejected
  rw [State.get_bump_same _ _ _ (ldrejCount_ok i), State.get_event_ne _ _ _ (ldrejEvent_ok i) (.inl (by simp [ML_EVT_LDREJ, ML_CNT_LDREJ])), Nat.min_comm]
  rfl

end

/-! ### The two banks of a slot (07 R194) -/

/-- The field that shows bank b of slot i. -/
def bankField (i b : Nat) : Field := if b = 0 then ML_ST_BST0 i else ML_ST_BST1 i

section
variable (s : State) (i : Fin 16)

theorem setBank_eq (i b st : Nat) : setBank s i b st = s.set (bankField i b) st := by
  unfold setBank bankField
  split <;> rfl

theorem bankState_eq (i b : Nat) : bankState s i b = s.get (bankField i b) := by
  unfold bankState bankField
  split <;> rfl

theorem bankField_mem (i b : Nat) : bankField i b ∈ [ML_ST_BST0 i, ML_ST_BST1 i] := by
  unfold bankField
  split <;> simp

theorem bankField_width (i b : Nat) : (bankField i b).width = 2 := by
  unfold bankField
  split <;> rfl

theorem bankFields_ok : ∀ f ∈ [ML_ST_BST0 i, ML_ST_BST1 i], f.ok := by decide +revert

theorem bankField_ok (b : Nat) : (bankField i b).ok := bankFields_ok i _ (bankField_mem i b)

/-- The fields of a slot that a swap changes beside its banks. -/
def swapFields (i : Nat) : List Field := [ML_ST_STATE i, ML_SREM_REM i, ML_ST_ACT i, ML_ST_SWRES i, ML_EVT_SWDONE i, ML_SETL_LEN i, ML_GD_NS i]

theorem swapFields_ok : ∀ f ∈ swapFields i, f.ok := by decide +revert

theorem swapFields_apart_banks : ∀ f ∈ swapFields i, ∀ g ∈ [ML_ST_BST0 i, ML_ST_BST1 i], f.apart g := by decide +revert

/-- The active and the incoming bank show in two fields. -/
theorem bankField_apart_other {b : Nat} (h : b = 0 ∨ b = 1) : (bankField i (1 - b)).apart (bankField i b) := by
  rcases h with rfl | rfl <;> decide +revert

theorem bankField_set_same (b st : Nat) (h : st < 4) : (s.set (bankField i b) st).get (bankField i b) = st := by
  rw [State.get_set_same _ _ _ (bankField_ok i b), bankField_width]
  exact Nat.mod_eq_of_lt h

/-! ### Refusals (07 R197) -/

theorem exec_mlSwap {door : Initiator} {slot : Fin 11} (h : doorOpen s door (0x411 + 0x40 * slot.val) = true) :
    exec (.mlSwap door slot) s = .next (requestSwap s (millSlot slot)) := by
  change execMlSwap door slot s = _
  rw [execMlSwap, atDoor_open _ _ _ _ h]
  rfl

/-- A refused swap shows its reason and counts. -/
def State.swapRefused (s : State) (i why : Nat) : State := ((s.set (ML_ST_SWRES i) why).event (ML_EVT_SWREF i)).bump (ML_CNT_SWREF i) 1

theorem requestSwap_refused {why : Nat} (h : swapRefusal s i = why) (hwhy : why ≠ 0) : requestSwap s i = s.swapRefused i why := by
  subst h
  exact if_pos hwhy

theorem swapRefusal_inSwap (h : s.get (ML_ST_STATE i) = 3 ∨ s.get (ML_ST_STATE i) = 4) : swapRefusal s i = 2 := if_pos h

theorem swapRefusal_notRunning (h2 : s.get (ML_ST_STATE i) ≠ 2) (h34 : ¬(s.get (ML_ST_STATE i) = 3 ∨ s.get (ML_ST_STATE i) = 4)) : swapRefusal s i = 3 :=
  (if_neg h34).trans (if_pos h2)

/-- The fields that a refusal changes. -/
def refusalFields (i : Nat) : List Field := [ML_ST_SWRES i, ML_EVT_SWREF i, ML_CNT_SWREF i]

theorem refusalFields_ok : (ML_ST_SWRES i).ok ∧ (ML_EVT_SWREF i).ok ∧ (ML_CNT_SWREF i).ok := by decide +revert

/-- The reason, the event and the count stand in three words. -/
theorem refusalFields_apart : (ML_ST_SWRES i).apart (ML_CNT_SWREF i) ∧ (ML_EVT_SWREF i).apart (ML_ST_SWRES i) ∧ (ML_EVT_SWREF i).apart (ML_CNT_SWREF i) ∧
    (ML_CNT_SWREF i).apart (ML_ST_SWRES i) ∧ (ML_CNT_SWREF i).apart (ML_EVT_SWREF i) := by decide +revert

theorem swapRefused_frame (why : Nat) : RegFrame (refusalFields i) s (s.swapRefused i why) := by
  obtain ⟨hres, hevent, hcount⟩ := refusalFields_ok i
  exact .bump (.event (.set (.refl _ _ s) (by simp [refusalFields]) hres) (by simp [refusalFields]) hevent) (by simp [refusalFields]) hcount

theorem swapRefused_reason {why : Nat} (h : why < 16) : (s.swapRefused i why).get (ML_ST_SWRES i) = why := by
  obtain ⟨hres, hevent, hcount⟩ := refusalFields_ok i
  obtain ⟨-, hapartEvent, -, hapartCount, -⟩ := refusalFields_apart i
  unfold State.swapRefused
  rw [State.get_bump_ne _ _ _ _ hcount hapartCount, State.get_event_ne _ _ _ hevent hapartEvent, State.get_set_same _ _ _ hres]
  exact Nat.mod_eq_of_lt h

theorem swapRefused_event (why : Nat) : (s.swapRefused i why).get (ML_EVT_SWREF i) = 1 := by
  obtain ⟨-, hevent, hcount⟩ := refusalFields_ok i
  obtain ⟨-, -, -, -, hapart⟩ := refusalFields_apart i
  unfold State.swapRefused
  rw [State.get_bump_ne _ _ _ _ hcount hapart, State.get_event_same _ _ hevent rfl]

theorem swapRefused_count (why : Nat) : (s.swapRefused i why).get (ML_CNT_SWREF i) = min 255 (s.get (ML_CNT_SWREF i) + 1) := by
  obtain ⟨hres, hevent, hcount⟩ := refusalFields_ok i
  obtain ⟨hapartRes, -, hapartEvent, -, -⟩ := refusalFields_apart i
  unfold State.swapRefused
  rw [State.get_bump_same _ _ _ hcount, State.get_event_ne _ _ _ hevent hapartEvent, State.get_set_ne _ _ _ _ hres hapartRes, Nat.min_comm]
  rfl

/-! ### A swap that is accepted warms up (07 R196) -/

/-- A slot whose bank inc warms up with clear sections for n records, with a group delay of d ns, and will fade over len records. -/
def SlotState.warmsUp (x : SlotState) (inc n d len : Nat) : SlotState := { x with inL := n, inD := d, mill := x.mill.begin inc len }

/-- The incoming bank warms up for n records. -/
def State.warmingUp (s : State) (i : Fin 16) (n d : Nat) : State :=
  let inc := 1 - s.get (ML_ST_ACT i)
  (((s.set (bankField i inc) 1).modSlot i fun x => x.warmsUp inc n d (2 ^ s.get (ML_CFG_FADEK i))).set (ML_ST_STATE i) 3).set (ML_SREM_REM i) n

section
variable {k n d : Nat} (hk : k = bankOf i (1 - s.get (ML_ST_ACT i))) (hL : bankL s k s.slots[i].rate = some n)
include hk hL

/-- A running slot's bank of a built-in profile without sections, whose settling length fits its register, has nothing to refuse. -/
theorem swapRefusal_accepts (hstate : s.get (ML_ST_STATE i) = 2) (hsrc : s.get (MB_HDR_SRC k) ≠ 3) (hnbq : s.get (MB_HDR_NBQ k) = 0) (hn : n ≤ 1048575) :
    swapRefusal s i = 0 := by
  subst hk
  have hlen : ¬1048575 < (s.orFree (bankL s (bankOf i (1 - s.get (ML_ST_ACT i))) s.slots[i].rate)).1 := by
    rw [hL]
    exact Nat.not_lt.2 hn
  simp only [swapRefusal, hstate, hsrc, hnbq, sections, hlen]
  simp

theorem requestSwap_accepted (hwhy : swapRefusal s i = 0) (hD : bankD s k s.slots[i].rate = some d) : requestSwap s i = s.warmingUp i n d := by
  subst hk
  unfold requestSwap
  rw [hwhy]
  simp only [State.orFree, hL, hD, setBank_eq]
  rfl

end

theorem warmingUp_frame (n d : Nat) : ViewFrame (besideSlot i) [ML_ST_STATE i, ML_SREM_REM i, ML_ST_BST0 i, ML_ST_BST1 i] s (s.warmingUp i n d) := by
  have hok {f : Field} (hf : f ∈ swapFields i) := swapFields_ok i f hf
  have hbank (b : Nat) : bankField i b ∈ [ML_ST_STATE i, ML_SREM_REM i, ML_ST_BST0 i, ML_ST_BST1 i] := List.mem_cons_of_mem _ (List.mem_cons_of_mem _ (bankField_mem i b))
  refine .set (.set (.modSlot (.set (.refl _ _ s) (hbank _) (bankField_ok i _) (besideSlot_set _ _ _ _)) (besideSlot_modSlot _ _ _)) ?_ (hok ?_) (besideSlot_set _ _ _ _))
    ?_ (hok ?_) (besideSlot_set _ _ _ _)
  all_goals simp [swapFields]

theorem warmingFields_apart : ∀ f ∈ [ML_ST_STATE i, ML_SREM_REM i, ML_ST_BST0 i, ML_ST_BST1 i], f.apart (ML_ST_ACT i) := by decide +revert

theorem warmingUp_slot (n d : Nat) : (s.warmingUp i n d).slots[i] = s.slots[i].warmsUp (1 - s.get (ML_ST_ACT i)) n d (2 ^ s.get (ML_CFG_FADEK i)) :=
  modSlot_self (s.set (bankField i (1 - s.get (ML_ST_ACT i))) 1) i fun x => x.warmsUp (1 - s.get (ML_ST_ACT i)) n d (2 ^ s.get (ML_CFG_FADEK i))

theorem stateField_apart_rem : (ML_SREM_REM i).apart (ML_ST_STATE i) := by decide +revert

theorem warmingUp_state (n d : Nat) : (s.warmingUp i n d).get (ML_ST_STATE i) = 3 := by
  unfold State.warmingUp
  rw [State.get_set_ne _ _ _ _ (swapFields_ok i _ (by simp [swapFields])) (stateField_apart_rem i), State.get_set_same _ _ _ (swapFields_ok i _ (by simp [swapFields]))]
  rfl

theorem warmingUp_rem {n : Nat} (d : Nat) (hn : n ≤ 1048575) : (s.warmingUp i n d).get (ML_SREM_REM i) = n := by
  unfold State.warmingUp
  rw [State.get_set_same _ _ _ (swapFields_ok i _ (by simp [swapFields]))]
  exact Nat.mod_eq_of_lt (Nat.lt_succ_of_le hn)

/-- What a swap's other fields take leaves a bank's state. -/
theorem bankState_set {f : Field} (hf : f ∈ swapFields i) (b v : Nat) : bankState (s.set f v) i b = bankState s i b := by
  rw [bankState_eq, bankState_eq, State.get_set_ne _ _ _ _ (swapFields_ok i f hf) (swapFields_apart_banks i f hf _ (bankField_mem i b))]

theorem warmingUp_incoming (n d : Nat) : bankState (s.warmingUp i n d) i (1 - s.get (ML_ST_ACT i)) = 1 := by
  unfold State.warmingUp
  rw [bankState_set _ _ (by simp [swapFields]), bankState_set _ _ (by simp [swapFields]), bankState_eq]
  exact bankField_set_same s i _ 1 (by decide)

theorem warmingUp_act (n d : Nat) : (s.warmingUp i n d).get (ML_ST_ACT i) = s.get (ML_ST_ACT i) :=
  (warmingUp_frame s i n d).get _ (warmingFields_apart i)

/-! ### The fade, and its end (07 R196) -/

theorem exec_swapWarmupEnd {slot : Fin 11} (halive : s.alive = true) (hstate : s.get (ML_ST_STATE slot) = 3) (hrem : s.get (ML_SREM_REM slot) = 0)
    (hruns : swapRuns s slot.val = true) :
    exec (.swapWarmupEnd slot) s = .next (((s.set (ML_ST_STATE slot) 4).set (ML_ST_BST0 slot) 2).set (ML_ST_BST1 slot) 2) :=
  congrArg Host.Outcome.next (if_pos ⟨halive, hstate, hrem, hruns⟩)

/-- Both banks of a slot fade. -/
def State.fading (s : State) (i : Nat) : State := ((s.set (ML_ST_STATE i) 4).set (ML_ST_BST0 i) 2).set (ML_ST_BST1 i) 2

theorem fadingFields_ok : (ML_ST_STATE i).ok ∧ (ML_ST_BST0 i).ok ∧ (ML_ST_BST1 i).ok := by decide +revert

theorem fadingFields_apart : (ML_ST_BST0 i).apart (ML_ST_STATE i) ∧ (ML_ST_BST1 i).apart (ML_ST_STATE i) ∧ (ML_ST_BST1 i).apart (ML_ST_BST0 i) := by decide +revert

theorem fading_frame : RegFrame [ML_ST_STATE i, ML_ST_BST0 i, ML_ST_BST1 i] s (s.fading i) := by
  obtain ⟨hstate, hbank0, hbank1⟩ := fadingFields_ok i
  exact .set (.set (.set (.refl _ _ s) (by simp) hstate) (by simp) hbank0) (by simp) hbank1

theorem fading_shown : (s.fading i).get (ML_ST_STATE i) = 4 ∧ (s.fading i).get (ML_ST_BST0 i) = 2 ∧ (s.fading i).get (ML_ST_BST1 i) = 2 := by
  obtain ⟨hstate, hbank0, hbank1⟩ := fadingFields_ok i
  obtain ⟨hapart0, hapart1, hbanks⟩ := fadingFields_apart i
  unfold State.fading
  refine ⟨?_, ?_, State.get_set_same _ _ _ hbank1⟩
  · rw [State.get_set_ne _ _ _ _ hbank1 hapart1, State.get_set_ne _ _ _ _ hbank0 hapart0]
    exact State.get_set_same _ _ _ hstate
  · rw [State.get_set_ne _ _ _ _ hbank1 hbanks]
    exact State.get_set_same _ _ _ hbank0

/-- The incoming bank is active and the outgoing one stopped. -/
def State.banksSwapped (s : State) (i : Fin 16) : State :=
  let old := s.get (ML_ST_ACT i)
  ((s.set (bankField i old) 0).set (bankField i (1 - old)) 3).set (ML_ST_ACT i) (1 - old)

theorem finishSwap_eq (res : Nat) : finishSwap s i res =
    (((((s.banksSwapped i).set (ML_ST_SWRES i) res).event (ML_EVT_SWDONE i)).set (ML_SETL_LEN i) s.slots[i].inL).set (ML_GD_NS i) s.slots[i].inD).modSlot i
      fun x => { x with inL := 0, inD := 0 } := by
  unfold finishSwap
  simp only [setBank_eq]
  rfl

theorem banksSwapped_frame : RegFrame [ML_ST_BST0 i, ML_ST_BST1 i, ML_ST_ACT i] s (s.banksSwapped i) := by
  have hbank (b : Nat) : bankField i b ∈ [ML_ST_BST0 i, ML_ST_BST1 i, ML_ST_ACT i] := List.mem_append_left [ML_ST_ACT i] (bankField_mem i b)
  exact .set (.set (.set (.refl _ _ s) (hbank _) (bankField_ok i _)) (hbank _) (bankField_ok i _)) (by simp) (swapFields_ok i _ (by simp [swapFields]))

theorem banksSwapped_act : (s.banksSwapped i).get (ML_ST_ACT i) = 1 - s.get (ML_ST_ACT i) := by
  unfold State.banksSwapped
  rw [State.get_set_same _ _ _ (swapFields_ok i _ (by simp [swapFields]))]
  exact Nat.mod_eq_of_lt (Nat.lt_succ_of_le (Nat.sub_le 1 _))

theorem banksSwapped_incoming : bankState (s.banksSwapped i) i (1 - s.get (ML_ST_ACT i)) = 3 := by
  unfold State.banksSwapped
  rw [bankState_set _ _ (by simp [swapFields]), bankState_eq]
  exact bankField_set_same _ i _ 3 (by decide)

theorem banksSwapped_outgoing : bankState (s.banksSwapped i) i (s.get (ML_ST_ACT i)) = 0 := by
  unfold State.banksSwapped
  rw [bankState_set _ _ (by simp [swapFields]), bankState_eq, State.get_set_ne _ _ _ _ (bankField_ok i _) (bankField_apart_other i (s.get_bit _ rfl))]
  exact bankField_set_same s i _ 0 (by decide)

/-- The end of a fade. -/
def State.swapEnded (s : State) (i : Fin 16) : State := (finishSwap s i 1).set (ML_ST_STATE i) 2

theorem exec_swapFadeEnd {slot : Fin 11} (halive : s.alive = true) (hstate : s.get (ML_ST_STATE slot) = 4)
    (hfade : s.slots[slot.val].mill.fadeLen ≤ s.slots[slot.val].mill.fade) (hruns : swapRuns s slot.val = true) :
    exec (.swapFadeEnd slot) s = .next (s.swapEnded (millSlot slot)) :=
  congrArg Host.Outcome.next (if_pos ⟨halive, hstate, hfade, hruns⟩)

/-- The fields that the end of a fade changes after the banks' states: the result, and the new bank's settling length and delay. -/
def endFields (i : Nat) : List Field := [ML_ST_STATE i, ML_ST_SWRES i, ML_EVT_SWDONE i, ML_SETL_LEN i, ML_GD_NS i]

theorem endFields_subset (i : Nat) : endFields i ⊆ swapFields i := by simp [endFields, swapFields]

theorem endFields_apart : ∀ f ∈ endFields i, f.apart (ML_ST_ACT i) := by decide +revert

theorem swapEnded_frame_after : ViewFrame (besideSlot i) (endFields i) (s.banksSwapped i) (s.swapEnded i) := by
  have hok {f : Field} (hf : f ∈ swapFields i) := swapFields_ok i f hf
  unfold State.swapEnded
  rw [finishSwap_eq]
  refine .set (.modSlot (.set (.set (.event (.set (.refl _ _ _) ?_ (hok ?_) (besideSlot_set _ _ _ _)) ?_ (hok ?_) (besideSlot_event _ _ _)) ?_ (hok ?_)
    (besideSlot_set _ _ _ _)) ?_ (hok ?_) (besideSlot_set _ _ _ _)) (besideSlot_modSlot _ _ _)) ?_ (hok ?_) (besideSlot_set _ _ _ _)
  all_goals simp [swapFields, endFields]

theorem swapEnded_frame : ViewFrame (besideSlot i)
    [ML_ST_STATE i, ML_ST_BST0 i, ML_ST_BST1 i, ML_ST_ACT i, ML_ST_SWRES i, ML_EVT_SWDONE i, ML_SETL_LEN i, ML_GD_NS i] s (s.swapEnded i) :=
  .trans (((banksSwapped_frame s i).through (besideSlot i)).mono (by simp)) ((swapEnded_frame_after s i).mono (by simp [endFields]))

theorem swapEnded_act : (s.swapEnded i).get (ML_ST_ACT i) = 1 - s.get (ML_ST_ACT i) :=
  ((swapEnded_frame_after s i).get _ (endFields_apart i)).trans (banksSwapped_act s i)

theorem swapEnded_bankState (b : Nat) : bankState (s.swapEnded i) i b = bankState (s.banksSwapped i) i b := by
  rw [bankState_eq, bankState_eq, (swapEnded_frame_after s i).get]
  exact fun f hf => swapFields_apart_banks i f (endFields_subset i hf) _ (bankField_mem i b)

theorem swapEnded_state : (s.swapEnded i).get (ML_ST_STATE i) = 2 :=
  State.get_set_same _ _ 2 (swapFields_ok i _ (by simp [swapFields]))

theorem resultFields_apart : (ML_EVT_SWDONE i).apart (ML_ST_SWRES i) ∧
    ∀ f ∈ [ML_ST_STATE i, ML_SETL_LEN i, ML_GD_NS i], f.apart (ML_ST_SWRES i) ∧ f.apart (ML_EVT_SWDONE i) := by decide +revert

theorem swapEnded_result : (s.swapEnded i).get (ML_ST_SWRES i) = 1 ∧ (s.swapEnded i).get (ML_EVT_SWDONE i) = 1 := by
  have hok {f : Field} (hf : f ∈ swapFields i) := swapFields_ok i f hf
  have hdone : (ML_EVT_SWDONE i).ok := hok (by simp [swapFields])
  obtain ⟨hevent, hapart⟩ := resultFields_apart i
  have hafter : ViewFrame (besideSlot i) [ML_ST_STATE i, ML_SETL_LEN i, ML_GD_NS i] (((s.banksSwapped i).set (ML_ST_SWRES i) 1).event (ML_EVT_SWDONE i))
      (s.swapEnded i) := by
    unfold State.swapEnded
    rw [finishSwap_eq]
    refine .set (.modSlot (.set (.set (.refl _ _ _) ?_ (hok ?_) (besideSlot_set _ _ _ _)) ?_ (hok ?_) (besideSlot_set _ _ _ _)) (besideSlot_modSlot _ _ _)) ?_ (hok ?_)
      (besideSlot_set _ _ _ _)
    all_goals simp [swapFields]
  refine ⟨?_, (hafter.get _ fun f hf => (hapart f hf).2).trans (State.get_event_same _ _ hdone rfl)⟩
  rw [hafter.get _ fun f hf => (hapart f hf).1, State.get_event_ne _ _ _ hdone hevent]
  exact State.get_set_same _ _ 1 (hok (by simp [swapFields]))

end

/-- Settles O27: a bank takes a write only while it is stopped; a swap is refused for its first reason or warms up, fades, and ends with the banks exchanged. -/
theorem bankSwapsRunTheirCourse : Obligations.BankSwapsRunTheirCourse := by
  unfold Obligations.BankSwapsRunTheirCourse
  refine ⟨?_, ?_, ?_, ?_, ?_, ?_, ?_⟩
  · intro door addr v k s hbank hdoor hstopped
    refine ⟨storeRw s addr v, ?_, storeRw_word s addr v, (storeRw_frame s addr v).onlyFields⟩
    rw [exec_millBankWrite v hbank hdoor, writeBank_stopped v hstopped]
  · intro door addr v k s hbank hdoor hrunning
    refine ⟨s.loadRejected (k / 2), ?_, loadRejected_event s _, loadRejected_count s _, (loadRejected_frame s _).onlyFields⟩
    rw [exec_millBankWrite v hbank hdoor, writeBank_running v hrunning]
  · intro door slot s hdoor hswap
    refine ⟨s.swapRefused slot 2, ?_, swapRefused_reason s (millSlot slot) (by decide), swapRefused_event s (millSlot slot) 2,
      swapRefused_count s (millSlot slot) 2, (swapRefused_frame s (millSlot slot) 2).onlyFields⟩
    rw [exec_mlSwap s hdoor, requestSwap_refused s (millSlot slot) (swapRefusal_inSwap s (millSlot slot) hswap) (by decide)]
    rfl
  · intro door slot s hdoor h2 h3 h4
    refine ⟨s.swapRefused slot 3, ?_, swapRefused_reason s (millSlot slot) (by decide), (swapRefused_frame s (millSlot slot) 3).onlyFields⟩
    rw [exec_mlSwap s hdoor, requestSwap_refused s (millSlot slot) (swapRefusal_notRunning s (millSlot slot) h2 (not_or.2 ⟨h3, h4⟩)) (by decide)]
    rfl
  · intro door slot k n d s hdoor hstate hk hsrc hnbq hL hn hD
    have hframe := warmingUp_frame s (millSlot slot) n d
    refine ⟨s.warmingUp (millSlot slot) n d, ?_, warmingUp_state s _ n d, warmingUp_rem s _ d hn, warmingUp_incoming s _ n d, warmingUp_slot s _ n d,
      warmingUp_act s _ n d, hframe.rest_of_besideSlot, hframe.regs⟩
    have haccepts := swapRefusal_accepts s (millSlot slot) hk hL hstate hsrc hnbq hn
    rw [exec_mlSwap s hdoor, requestSwap_accepted s (millSlot slot) hk hL haccepts hD]
  · intro slot s halive hstate hrem hruns
    obtain ⟨hfading, hbank0, hbank1⟩ := fading_shown s (millSlot slot)
    exact ⟨s.fading slot, exec_swapWarmupEnd s halive hstate hrem hruns, hfading, hbank0, hbank1, (fading_frame s (millSlot slot)).onlyFields⟩
  · intro slot s halive hstate hfade hruns
    have hframe := swapEnded_frame s (millSlot slot)
    have hact := swapEnded_act s (millSlot slot)
    obtain ⟨hresult, hdone⟩ := swapEnded_result s (millSlot slot)
    refine ⟨_, exec_swapFadeEnd s halive hstate hfade hruns, swapEnded_state s _, hact, ?_, ?_, hresult, hdone, hframe.rest_of_besideSlot, hframe.regs⟩
    · exact (congrArg (bankState _ slot) hact).trans ((swapEnded_bankState s _ _).trans (banksSwapped_incoming s _))
    · exact (swapEnded_bankState s _ _).trans (banksSwapped_outgoing s _)

end Sys2Proof.Machine
end

section
/-!
PROOFS. Synchronising resets (07 R180, R198 to R202) and the end of settling (07 R199, R200): what a reset of a list of slots does to each slot on the list, to the others, and to
the registers that count it.
-/

namespace Sys2Proof.Machine

/-! ### What a reset clears of a slot, and what stands beside it -/

/-- A slot without what a synchronising reset may clear or set of it (07 R198 to R202): its trigger, its filter state, a swap's incoming bank and its housekeeping results. -/
def SlotState.untriggered (x : SlotState) : SlotState := { x with trig := none, sampled := false, inL := 0, inD := 0, hk := [], mill := {} }

/-- The state beside the registers, with each slot as a reset leaves it. -/
def besideResets (s : State) : State := { s with regs := [], slots := s.slots.map SlotState.untriggered, fresh := [] }

/-- The state beside a reset's slots, with the registers of the Mill's counts and of the calibration run. -/
def resetView (s : State) : State × Nat × Nat × Nat := (besideResets s, s.get CAL_GST_RUNAX, s.get ML_GST_SYNCCNT, s.get ML_GST_ECCCNT)

/-- What a reset shows on slot i, and the local time it goes by. -/
def slotView (i : Fin 16) (s : State) : Nat × SlotState × Nat := (s.get (ML_ST_STATE i), s.slots[i], s.now)

section
variable {s t : State} {i j : Fin 16} {f : SlotState → SlotState} (g : Field) (n : Nat)

theorem besideResets_set : besideResets (s.set g n) = besideResets s := rfl
theorem besideResets_event : besideResets (s.event g) = besideResets s := rfl
theorem besideResets_bump : besideResets (s.bump g n) = besideResets s := rfl

theorem besideResets_modSlot (hf : ∀ x, (f x).untriggered = x.untriggered) : besideResets (s.modSlot i f) = besideResets s := by
  have hsame : (s.slots.set i (f s.slots[i])).map SlotState.untriggered = s.slots.map SlotState.untriggered := by
    rw [Vector.map_set, hf]
    ext k hk : 1
    rw [Vector.getElem_set]
    split
    · subst k
      exact (Vector.getElem_map _ _).symm
    · rfl
  exact congrArg (fun v => { besideResets s with slots := v }) hsame

theorem untriggered_of_besideResets (h : besideResets t = besideResets s) (j : Fin 16) : t.slots[j].untriggered = s.slots[j].untriggered := by
  simpa [besideResets] using congrArg (fun x : State => x.slots[j]) h

theorem now_of_besideResets (h : besideResets t = besideResets s) : t.now = s.now := (congrArg (fun x : State => x.now) h :)

end

section
variable (s : State) (i j : Fin 16)

/-! ### One slot's trigger and its results -/

theorem besideResets_finishSwap (res : Nat) : besideResets (finishSwap s i res) = besideResets s := by
  rw [finishSwap_eq, besideResets_modSlot]
  · simp only [besideResets_set, besideResets_event, State.banksSwapped]
  · exact fun _ => rfl

theorem besideResets_forceSwap : besideResets (forceSwap s i) = besideResets s := by
  unfold forceSwap
  split
  · rw [besideResets_set, besideResets_finishSwap]
  · rfl

theorem besideResets_countRestart : besideResets (countRestart s i) = besideResets s := by
  unfold countRestart
  split
  · dsimp only
    split <;> simp only [besideResets_set, besideResets_event]
  · rfl

theorem besideResets_beforeTrigger (exc : Bool) : besideResets (s.beforeTrigger i exc) = besideResets s := by
  unfold State.beforeTrigger
  dsimp only
  split <;> simp only [besideResets_countRestart, besideResets_forceSwap, besideResets_bump]

theorem besideResets_triggered : besideResets (s.triggered i) = besideResets s := by
  unfold State.triggered
  rw [besideResets_set, besideResets_set, besideResets_modSlot]
  exact fun _ => rfl

/-- A trigger does nothing on a slot that is off or has no filter chain, only counts on a stopped one, and else restarts its settling (07 R198). -/
theorem suppress_cases (exc : Bool) :
    suppress s i exc = s ∨ suppress s i exc = s.bump (ML_CNT_SUPCNT i) 1 ∨ suppress s i exc = (s.beforeTrigger i exc).triggered i := by
  by_cases hon : i.val ≤ 10 ∧ s.slots[i].en = true
  · obtain ⟨hi, hen⟩ := hon
    cases hresume : s.slots[i].resume
    · exact .inr (.inr (suppress_running s i exc hi hen hresume))
    · exact .inr (.inl (if_pos ⟨hi, hen, hresume⟩))
  · exact .inl ((if_neg fun ⟨hi, hen, _⟩ => hon ⟨hi, hen⟩).trans (if_neg hon))

theorem besideResets_suppress (exc : Bool) : besideResets (suppress s i exc) = besideResets s := by
  rcases suppress_cases s i exc with h | h | h <;> rw [h]
  · exact besideResets_bump _ _
  · exact (besideResets_triggered _ i).trans (besideResets_beforeTrigger s i exc)

theorem suppressFields_apart_counts : ∀ f ∈ suppressFields i, f.apart CAL_GST_RUNAX ∧ f.apart ML_GST_SYNCCNT ∧ f.apart ML_GST_ECCCNT := by decide +revert

theorem resetView_suppress : resetView (suppress s i false) = resetView s := by
  have hframe := suppress_frame s i false
  have hapart := suppressFields_apart_counts i
  simp only [resetView, besideResets_suppress, hframe.get _ fun f hf => (hapart f hf).1, hframe.get _ fun f hf => (hapart f hf).2.1,
    hframe.get _ fun f hf => (hapart f hf).2.2]

theorem resetView_discardResults : resetView (discardResults s i) = resetView s := by
  unfold discardResults
  split
  · exact congrArg (fun x => (x, (resetView s).2)) (besideResets_modSlot fun _ => rfl)
  · rfl

variable {i j}

theorem suppressFields_apart_state (h : i ≠ j) : ∀ f ∈ suppressFields i, f.apart (ML_ST_STATE j) := by decide +revert

theorem slotView_suppress_other (h : i ≠ j) : slotView j (suppress s i false) = slotView j s := by
  have hframe := suppress_frame s i false
  simp only [slotView, hframe.get _ (suppressFields_apart_state h), hframe.otherSlot h, now_of_besideResets (besideResets_suppress s i false)]

theorem discardResults_slots (h : i ≠ j) : (discardResults s i).slots[j] = s.slots[j] := by
  have hval : i.val ≠ j.val := fun e => h (Fin.ext e)
  unfold discardResults
  split
  · simp [State.modSlot, Vector.getElem_set_ne _ _ hval]
  · rfl

/-- Slots 0 to 11 hold no housekeeping results to discard. -/
theorem discardResults_mill (h : i.val < 12) : discardResults s i = s := if_neg (Nat.not_le.2 h)

theorem slotView_discardResults (hj : j.val ≤ 10) : slotView j (discardResults s i) = slotView j s := by
  by_cases h : i = j
  · rw [discardResults_mill s (by omega)]
  · have hstate : (discardResults s i).get (ML_ST_STATE j) = s.get (ML_ST_STATE j) := by
      unfold discardResults
      split <;> rfl
    simp only [slotView, hstate, discardResults_slots s h, now_of_besideResets (congrArg Prod.fst (resetView_discardResults s i))]

/-- A running slot of the filter chain that is triggered settles, its filter state clear and the instant noted. -/
theorem slotView_suppress (hi : i.val ≤ 10) (hen : s.slots[i].en = true) (hresume : s.slots[i].resume = false) :
    (suppress s i false).get (ML_ST_STATE i) = 1 ∧ (suppress s i false).slots[i].trig = some s.now ∧ (suppress s i false).slots[i].mill = {} := by
  have hnow : (s.beforeTrigger i false).now = s.now := (congrArg (fun x : State => x.now) (beforeTrigger_frame s i false).kept :)
  rw [suppress_running s i false hi hen hresume, triggered_slot, hnow]
  exact ⟨triggered_state _ i, rfl, rfl⟩

end

/-! ### A list of slots -/

/-- From s to t the slots of l had a synchronising reset, counted once: those that run settle with clear filters; the others, the time base of each and the rest of the state are
as they were. -/
structure SlotsReset (l : List (Fin 16)) (s t : State) : Prop where
  count : t.get ML_GST_SYNCCNT = min 65535 (s.get ML_GST_SYNCCNT + 1)
  errors : t.get ML_GST_ECCCNT = s.get ML_GST_ECCCNT
  run : t.get CAL_GST_RUNAX = s.get CAL_GST_RUNAX
  kept : besideResets t = besideResets s
  others : ∀ j, j ∉ l → t.slots[j] = s.slots[j]
  settles : ∀ i ∈ l, i.val ≤ 10 → s.slots[i].en = true → s.slots[i].resume = false →
    t.get (ML_ST_STATE i) = 1 ∧ t.slots[i].trig = some s.now ∧ t.slots[i].mill = {}

/-- The slots of l as a synchronising reset leaves them, before it is counted. -/
def State.slotsReset (s : State) (l : List (Fin 16)) : State := l.foldl discardResults (channelSwitch s l)

section
variable (s : State) (l : List (Fin 16))

theorem synccnt_apart_state (i : Fin 16) : ML_GST_SYNCCNT.apart (ML_ST_STATE i) := by decide +revert

theorem syncReset_eq : syncReset s l = (s.slotsReset l).bump ML_GST_SYNCCNT 1 := rfl

theorem slotsReset_view : resetView (s.slotsReset l) = resetView s :=
  (foldl_leaves resetView l discardResults resetView_discardResults _).trans (foldl_leaves resetView l (fun s i => suppress s i false) resetView_suppress s)

theorem slotsReset_others (j : Fin 16) (h : j ∉ l) : (s.slotsReset l).slots[j] = s.slots[j] := by
  have hne {a : Fin 16} (ha : a ∈ l) : a ≠ j := ne_of_mem_of_not_mem ha h
  have hswitch : (channelSwitch s l).slots[j] = s.slots[j] :=
    List.foldlRecOn l _ (motive := fun t => t.slots[j] = s.slots[j]) rfl fun t ht a ha => ((suppress_frame t a false).otherSlot (hne ha)).trans ht
  exact List.foldlRecOn l discardResults (motive := fun t => t.slots[j] = s.slots[j]) hswitch fun t ht a ha => (discardResults_slots t (hne ha)).trans ht

theorem slotsReset_settles (hl : l.Nodup) (i : Fin 16) (hmem : i ∈ l) (hi : i.val ≤ 10) (hen : s.slots[i].en = true) (hresume : s.slots[i].resume = false) :
    (s.slotsReset l).get (ML_ST_STATE i) = 1 ∧ (s.slotsReset l).slots[i].trig = some s.now ∧ (s.slotsReset l).slots[i].mill = {} := by
  obtain ⟨t, ht, hswitch⟩ := foldl_once (slotView i) (fun s i => suppress s i false) i (fun s _ h => slotView_suppress_other s h) l hl hmem s
  have hview : slotView i (s.slotsReset l) = slotView i (suppress t i false) :=
    (foldl_leaves (slotView i) l discardResults (fun s _ => slotView_discardResults s hi) _).trans hswitch
  obtain ⟨hstate, hslot, -⟩ : _ ∧ _ ∧ _ := by simpa only [slotView, Prod.mk.injEq] using hview
  obtain ⟨-, hbefore, hnow⟩ : _ ∧ _ ∧ _ := by simpa only [slotView, Prod.mk.injEq] using ht
  rw [hstate, hslot, ← hnow]
  exact slotView_suppress t hi (by rw [hbefore]; exact hen) (by rw [hbefore]; exact hresume)

theorem syncReset_resets (hl : l.Nodup) : SlotsReset l s (syncReset s l) := by
  obtain ⟨hkept, hrun, hcount, herrors⟩ : besideResets (s.slotsReset l) = besideResets s ∧ (s.slotsReset l).get CAL_GST_RUNAX = s.get CAL_GST_RUNAX ∧
      (s.slotsReset l).get ML_GST_SYNCCNT = s.get ML_GST_SYNCCNT ∧ (s.slotsReset l).get ML_GST_ECCCNT = s.get ML_GST_ECCCNT := by
    simpa [resetView] using slotsReset_view s l
  have hget (g : Field) (hg : ML_GST_SYNCCNT.apart g) : (syncReset s l).get g = (s.slotsReset l).get g := State.get_bump_ne _ _ _ _ (by decide) hg
  refine ⟨?_, (hget _ (by decide)).trans herrors, (hget _ (by decide)).trans hrun, hkept, slotsReset_others s l, fun i hmem hi hen hresume => ?_⟩
  · rw [syncReset_eq, State.get_bump_same _ _ _ (by decide), hcount, Nat.min_comm]
    rfl
  · rw [hget _ (synccnt_apart_state i)]
    exact slotsReset_settles s l hl i hmem hi hen hresume

end

/-! ### The resets of the commands, with no calibration run under way -/

section
variable {s t : State} {i : Fin 16} {l : List (Fin 16)}

theorem runAxis_none (h : s.get CAL_GST_RUNAX = 15) : runAxis s = none := by simp [runAxis, h]

theorem abandonIf_none (a : Fin 10) (h : runAxis s = none) : abandonIf s a = s := abandonIf_other s a (by simp [h])

theorem SlotsReset.runAxis_none (h : SlotsReset l s t) (hrun : s.get CAL_GST_RUNAX = 15) : runAxis t = none := Machine.runAxis_none (h.run.trans hrun)

theorem slotSync_enabled (hen : s.slots[i].en = true) (hrun : s.get CAL_GST_RUNAX = 15) : slotSync s i = syncReset s [i] := by
  have hnone := (syncReset_resets s [i] (List.nodup_singleton i)).runAxis_none hrun
  unfold slotSync
  rw [if_pos hen]
  split
  · rfl
  · exact abandonIf_none _ hnone

theorem slotSync_disabled (hen : s.slots[i].en = false) : slotSync s i = s := by
  unfold slotSync
  rw [hen]
  rfl

theorem enabledSlots_nodup (s : State) : (enabledSlots s).Nodup := (List.nodup_finRange 16).filter _

theorem mem_enabledSlots : i ∈ enabledSlots s ↔ s.slots[i].en = true := by simp [enabledSlots]

theorem globalSync_eq (hrun : s.get CAL_GST_RUNAX = 15) : globalSync s = syncReset s (enabledSlots s) := by
  have hnone := (syncReset_resets s (enabledSlots s) (enabledSlots_nodup s)).runAxis_none hrun
  refine List.foldlRecOn (enabledSlots s) _ (motive := fun t => t = syncReset s (enabledSlots s)) rfl fun t ht a _ => ?_
  subst ht
  split
  · rfl
  · exact abandonIf_none _ hnone

theorem SlotsReset.rest (h : SlotsReset l s t) : { t with regs := s.regs, slots := s.slots, cal := s.cal, axes := s.axes, aux := s.aux, fresh := s.fresh } = s :=
  (congrArg (fun x : State => { x with regs := s.regs, slots := s.slots, cal := s.cal, axes := s.axes, aux := s.aux, fresh := s.fresh }) h.kept :)

theorem SlotsReset.queued (h : SlotsReset l s t) (j : Fin 16) : t.slots[j].queued = s.slots[j].queued :=
  (congrArg SlotState.queued (untriggered_of_besideResets h.kept j) :)

theorem SlotsReset.nextT (h : SlotsReset l s t) (j : Fin 16) : t.slots[j].nextT = s.slots[j].nextT :=
  (congrArg SlotState.nextT (untriggered_of_besideResets h.kept j) :)

end

/-! ### The end of settling (07 R199, R200) -/

/-- The first sample after a trigger has come: the slot runs, with no restart counted. -/
def State.settled (s : State) (i : Nat) : State :=
  ((((s.set (ML_ST_STATE i) 2).set (ML_SREM_REM i) 0).set (ML_ST_RESTARTS i) 0).set (ML_ST_NEVER i) 0).event (ML_EVT_SETTLED i)

/-- The fields that the end of settling changes. -/
def settledFields (i : Nat) : List Field := [ML_ST_STATE i, ML_SREM_REM i, ML_ST_RESTARTS i, ML_ST_NEVER i, ML_EVT_SETTLED i]

/-- What the slot shows when it has settled. -/
structure SettledShown (i : Nat) (t : State) : Prop where
  state : t.get (ML_ST_STATE i) = 2
  rem : t.get (ML_SREM_REM i) = 0
  restarts : t.get (ML_ST_RESTARTS i) = 0
  never : t.get (ML_ST_NEVER i) = 0
  event : t.get (ML_EVT_SETTLED i) = 1

section
variable (s : State) (i : Fin 16)

theorem settledFields_ok : (ML_ST_STATE i).ok ∧ (ML_SREM_REM i).ok ∧ (ML_ST_RESTARTS i).ok ∧ (ML_ST_NEVER i).ok ∧ (ML_EVT_SETTLED i).ok := by decide +revert

/-- Each of the fields shares no bit with those written after it. -/
theorem settledFields_apart : (∀ f ∈ [ML_SREM_REM i, ML_ST_RESTARTS i, ML_ST_NEVER i, ML_EVT_SETTLED i], f.apart (ML_ST_STATE i)) ∧
    (∀ f ∈ [ML_ST_RESTARTS i, ML_ST_NEVER i, ML_EVT_SETTLED i], f.apart (ML_SREM_REM i)) ∧
    (∀ f ∈ [ML_ST_NEVER i, ML_EVT_SETTLED i], f.apart (ML_ST_RESTARTS i)) ∧ (ML_EVT_SETTLED i).apart (ML_ST_NEVER i) := by decide +revert

theorem settled_frame : RegFrame (settledFields i) s (s.settled i) := by
  obtain ⟨hstate, hrem, hrestarts, hnever, hevent⟩ := settledFields_ok i
  refine .event (.set (.set (.set (.set (.refl _ _ s) ?_ hstate) ?_ hrem) ?_ hrestarts) ?_ hnever) ?_ hevent
  all_goals simp [settledFields]

theorem settled_shown : SettledShown i (s.settled i) := by
  obtain ⟨hstate, hrem, hrestarts, hnever, hevent⟩ := settledFields_ok i
  obtain ⟨hapartState, hapartRem, hapartRestarts, hapartNever⟩ := settledFields_apart i
  unfold State.settled
  constructor
  · rw [State.get_event_ne _ _ _ hevent (hapartState _ (by simp)), State.get_set_ne _ _ _ _ hnever (hapartState _ (by simp)),
      State.get_set_ne _ _ _ _ hrestarts (hapartState _ (by simp)), State.get_set_ne _ _ _ _ hrem (hapartState _ (by simp)), State.get_set_same _ _ _ hstate]
    rfl
  · rw [State.get_event_ne _ _ _ hevent (hapartRem _ (by simp)), State.get_set_ne _ _ _ _ hnever (hapartRem _ (by simp)),
      State.get_set_ne _ _ _ _ hrestarts (hapartRem _ (by simp)), State.get_set_same _ _ _ hrem, Nat.zero_mod]
  · rw [State.get_event_ne _ _ _ hevent (hapartRestarts _ (by simp)), State.get_set_ne _ _ _ _ hnever (hapartRestarts _ (by simp)),
      State.get_set_same _ _ _ hrestarts, Nat.zero_mod]
  · rw [State.get_event_ne _ _ _ hevent hapartNever, State.get_set_same _ _ _ hnever, Nat.zero_mod]
  · exact State.get_event_same _ _ hevent rfl

end

/-! ### The commands -/

section
variable {s : State} {slot : Fin 11}

theorem exec_mlSlotSync {door : Initiator} (h : doorOpen s door (0x411 + 0x40 * slot.val) = true) :
    exec (.mlSlotSync door slot) s = .next (slotSync s (millSlot slot)) := by
  change execMlSlotSync door slot s = _
  rw [execMlSlotSync, atDoor_open _ _ _ _ h]
  rfl

theorem exec_mlGlobalSync {door : Initiator} (h : doorOpen s door 0xB00 = true) : exec (.mlGlobalSync door) s = .next (globalSync s) := by
  change execMlGlobalSync door s = _
  rw [execMlGlobalSync, atDoor_open _ _ _ _ h]

theorem exec_millEccError (h : s.alive = true) : exec (.millEccError slot) s = .next (slotSync s (millSlot slot)) := congrArg Host.Outcome.next (if_pos h)

theorem exec_millEccCorrect (h : s.alive = true) : exec .millEccCorrect s = .next (s.bump ML_GST_ECCCNT 1) := congrArg Host.Outcome.next (if_pos h)

theorem exec_slotSettled (halive : s.alive = true) (hstate : s.get (ML_ST_STATE slot) = 1) (hsampled : s.slots[slot.val].sampled = true) :
    exec (.slotSettled slot) s = .next (s.settled slot) := congrArg Host.Outcome.next (if_pos ⟨halive, hstate, hsampled⟩)

/-- A reset of a running slot alone, as its commands make it: without a run of self-calibration nothing but the slot is touched. -/
theorem slotSync_resets (hen : s.slots[slot.val].en = true) (hrun : s.get CAL_GST_RUNAX = 15) :
    SlotsReset [millSlot slot] s (slotSync s (millSlot slot)) := by
  rw [slotSync_enabled (i := millSlot slot) hen hrun]
  exact syncReset_resets s _ (List.nodup_singleton _)

theorem not_mem_millSlot {j : Fin 16} (h : j.val ≠ slot.val) : j ∉ [millSlot slot] := fun hmem => h (congrArg Fin.val (List.mem_singleton.1 hmem))

theorem millSlot_le (slot : Fin 11) : (millSlot slot).val ≤ 10 := Nat.le_of_lt_succ slot.isLt

end

/-- Settles O28: a synchronising reset settles each slot it names that runs and is counted once, a corrected error only counts, and the first sample ends the settling. -/
theorem synchronisingResetsSuppress : Obligations.SynchronisingResetsSuppress := by
  unfold Obligations.SynchronisingResetsSuppress
  refine ⟨?_, ?_, ?_, ?_, ?_, ?_⟩
  · intro door slot s hdoor hen hresume hrun
    have hreset := slotSync_resets hen hrun
    obtain ⟨hstate, htrig, hmill⟩ := hreset.settles (millSlot slot) List.mem_cons_self (millSlot_le slot) hen hresume
    exact ⟨_, exec_mlSlotSync hdoor, hstate, hreset.count, htrig, hmill, hreset.queued (millSlot slot), fun j hj => hreset.others j (not_mem_millSlot hj), hreset.rest⟩
  · intro door slot s hdoor hen
    exact ⟨s, (exec_mlSlotSync hdoor).trans (congrArg Host.Outcome.next (slotSync_disabled (i := millSlot slot) hen)), rfl⟩
  · intro door s hdoor hrun
    have hreset := syncReset_resets s (enabledSlots s) (enabledSlots_nodup s)
    refine ⟨syncReset s (enabledSlots s), ?_, hreset.count, fun slot hen hresume => ?_, fun j => ⟨hreset.queued j, hreset.nextT j⟩, hreset.rest⟩
    · rw [exec_mlGlobalSync hdoor, globalSync_eq hrun]
    · exact hreset.settles (millSlot slot) (mem_enabledSlots.2 hen) (millSlot_le slot) hen hresume
  · intro slot s halive hen hresume hrun
    have hreset := slotSync_resets hen hrun
    obtain ⟨hstate, htrig, hmill⟩ := hreset.settles (millSlot slot) List.mem_cons_self (millSlot_le slot) hen hresume
    exact ⟨_, exec_millEccError halive, hstate, hmill, hreset.count, hreset.errors, htrig, fun j hj => hreset.others j (not_mem_millSlot hj), hreset.rest⟩
  · intro s halive
    have hframe : RegFrame [ML_GST_ECCCNT] s (s.bump ML_GST_ECCCNT 1) := .bump (.refl _ _ s) (by simp) (by decide)
    exact ⟨_, exec_millEccCorrect halive, (State.get_bump_same _ _ _ (by decide)).trans (Nat.min_comm _ _), hframe.onlyFields⟩
  · intro slot s halive hstate hsampled
    have hshown := settled_shown s (millSlot slot)
    exact ⟨s.settled slot, exec_slotSettled halive hstate hsampled, hshown.state, hshown.rem, hshown.restarts, hshown.never, hshown.event,
      (settled_frame s (millSlot slot)).onlyFields⟩

end Sys2Proof.Machine
end

section
/-!
PROOFS. A grid record that fills no block of its own: the ring's oldest block is leased, and the lease's holder is told by its interrupt source.
-/

namespace Sys2Proof.Machine

/-- WORK is on and no block of the Deck is free. Slot 15 runs, and its ring, to which the Deck writer is attached, holds one full block and has filled the one in flight. Lease 3 of
ANA0 covers the held one. -/
def holderOnFullRing : State :=
  ((((((({ State.reset with
        pwr := { phase := .running, booted := true, released := true }
        slots := (Vector.replicate 16 ({} : SlotState)).set 15 { en := true, nextT := some 0, queued := 2048 }
        deck := { land := (Vector.replicate 16 ({} : LandSlot)).set 15 { next := Vector.replicate 6 2048 }
                  rings := (Vector.replicate 16 ({} : Ring)).set 15
                    { size := 2, held := [{ recs := List.replicate 1024 0 }], flight := some { idx := 1, ssn := 1024, recs := List.replicate 1024 0 } } }
      }.set ID_DOMST_WSTATE 2).set DK_ST_ON 1).set (DK_RING_SEC 15) 1).set (LD_ATT_ATT 15) 1).set (LS_KIND 3) 1).set (LS_TGT 3) 1).set (LS_IDX 3) 15)

/-- The record of a slot without an axis (08 R217): the new windows count no over-range sample. -/
theorem exec_gridSlotRecord_noAxis {slot : Fin 16} {time : Nat} {live : Live} {taken : Nat} {s : State} (haxis : slotAxis slot = none) (hlive : s.live = true)
    (hreleased : s.pwr.released = true) (hen : s.slots[slot].en = true) (hnext : nextGrid s slot time = true) (hdue : changeDue s slot time = false) :
    exec (.gridSlotRecord slot time live taken) s =
      .next (finishChange (formRecord s slot time (newWindows s slot live.win) live.q taken) slot) := by
  have hover : noteOver s slot (overCount slot (newWindows s slot live.win)) = s := by simp only [noteOver, haxis]
  change execGridSlotRecord slot time live taken s = _
  simp only [execGridSlotRecord, hlive, hreleased, hnext, hdue, hover, hen, Bool.not_false, Bool.and_self, Bool.or_true, if_true]

set_option maxRecDepth 8000 in
/-- The record does not fit the block in flight, which closes (10 R256); the next one has to come from the ring's own oldest block, so that its lease is revoked (10 R264) and ANA0 is
told by interrupt source 20 (10 R263, 18 R446). -/
theorem holderOnFullRing_pulses :
    (finishChange (formRecord holderOnFullRing 15 0 (newWindows holderOnFullRing 15 ({} : Live).win) ({} : Live).q 1) 15).bus.pulses = [20] := by decide

/-- Refutes O25: the record of `holderOnFullRing` revokes ANA0's lease on the ring's oldest block, which pulses the holder's interrupt source, while the statement leaves the interrupt
controller's state, the pulses on their way among it, as it was. -/
theorem not_everyGridSlotYieldsOneNumberedRecord : ¬ Obligations.EveryGridSlotYieldsOneNumberedRecord := by
  unfold Obligations.EveryGridSlotYieldsOneNumberedRecord
  rintro ⟨hrecord, -⟩
  obtain ⟨t, ht, -, -, -, -, -, -, -, -, -, hframe, -⟩ := hrecord 15 0 {} 1 holderOnFullRing
    (by decide) (by decide) (by decide) (by decide) (by decide) (by decide) (by decide) (by decide) (by decide)
  rw [exec_gridSlotRecord_noAxis (by decide) (by decide) (by decide) (by decide) (by decide) (by decide)] at ht
  have hbus : t.bus.pulses = [] := congrArg (fun u : State => u.bus.pulses) hframe
  rw [← Host.Outcome.next.inj ht] at hbus
  exact absurd (holderOnFullRing_pulses.symm.trans hbus) (by decide)

end Sys2Proof.Machine
end

section
/-!
PROOFS. What follows a change of a slot at a boundary (08 R210): the closing of its publications, of its ring's block and of its chunk, the admission of its streams and the restart of
its setups. None of it reaches beyond Cystad, the Deck, the Landing, analysis and the frames that wait, and in the Mill's pages it leaves what the slots' banks show.
-/

namespace Sys2Proof.Machine

/-! ### What stands beside a slot's followers -/

/-- The state beside the registers and what follows a slot: Cystad and its frames, the Deck and the Landing with the pulses to their holders, and analysis. -/
def besideFollowers (s : State) : State :=
  { s with regs := [], deck := {}, an := {}, net := {}, flash := { s.flash with mseqRes := 0 }, bus := {}, tx := [], free := 0, fresh := [] }

/-- What shows of a slot's settling and its banks (07 R194): STATE, ACT, BST0 and BST1. -/
def State.banksShown (s : State) (i : Nat) : Nat × Nat × Nat × Nat := (s.get (ML_ST_STATE i), s.get (ML_ST_ACT i), s.get (ML_ST_BST0 i), s.get (ML_ST_BST1 i))

/-- What a slot's followers leave: the state beside them, and what shows of every slot's banks. -/
def followView (s : State) : State × (Fin 16 → Nat × Nat × Nat × Nat) := (besideFollowers s, fun i => s.banksShown i)

section
variable (s : State)

theorem banksShown_congr {s t : State} {i : Nat} (h : ∀ f ∈ [ML_ST_STATE i, ML_ST_ACT i, ML_ST_BST0 i, ML_ST_BST1 i], t.get f = s.get f) :
    t.banksShown i = s.banksShown i := by
  simp only [State.banksShown, h _ List.mem_cons_self, h (ML_ST_ACT i) (by simp), h (ML_ST_BST0 i) (by simp), h (ML_ST_BST1 i) (by simp)]

/-- A field outside the low half of the ML_ST words is none that shows a slot's banks. -/
theorem followView_set (w lo n v : Nat) (hok : lo + n ≤ 32) (hw : w < 0x400 ∨ 0x800 ≤ w ∨ w % 0x40 ≠ 0x12 ∨ 16 ≤ lo) :
    followView (s.set ⟨w, lo, n⟩ v) = followView s := by
  refine Prod.ext rfl (funext fun i => banksShown_congr fun f hf => State.get_set_ne _ _ _ _ hok ?_)
  have hi := i.isLt
  have hword : f.word = 0x412 + 0x40 * i.val ∧ f.lo + f.width ≤ 16 := by
    simp only [List.mem_cons, List.not_mem_nil, or_false] at hf
    rcases hf with rfl | rfl | rfl | rfl <;> exact ⟨rfl, Nat.le_of_ble_eq_true rfl⟩
  obtain ⟨hf, hlow⟩ := hword
  dsimp only [Field.apart]
  omega

theorem followView_event (w lo n : Nat) (hok : lo + n ≤ 32) (hw : w < 0x400 ∨ 0x800 ≤ w ∨ w % 0x40 ≠ 0x12 ∨ 16 ≤ lo) :
    followView (s.event ⟨w, lo, n⟩) = followView s := followView_set s w lo n 1 hok hw

theorem followView_bump (w lo n k : Nat) (hok : lo + n ≤ 32) (hw : w < 0x400 ∨ 0x800 ≤ w ∨ w % 0x40 ≠ 0x12 ∨ 16 ≤ lo) :
    followView (s.bump ⟨w, lo, n⟩ k) = followView s := followView_set s w lo n _ hok hw

theorem followView_setWord (w : Nat) (v : Word) (hw : 0x800 ≤ w) : followView (s.setWord w v) = followView s := by
  refine Prod.ext rfl (funext fun i => banksShown_congr fun f hf => State.get_setWord_ne _ _ _ _ ?_)
  have hi := i.isLt
  simp only [List.mem_cons, List.not_mem_nil, or_false] at hf
  rcases hf with rfl | rfl | rfl | rfl <;> exact fun e => by simp only [ML_ST_STATE, ML_ST_ACT, ML_ST_BST0, ML_ST_BST1] at e; omega

theorem followView_ite {c : Prop} [Decidable c] {t u : State} (s : State) (ht : followView t = followView s) (hu : followView u = followView s) :
    followView (if c then t else u) = followView s := by
  split
  · exact ht
  · exact hu

theorem followView_message (ps : List Port) (h : IpHead) (x : Payload) (b : Bool) : followView (message s ps h x b) = followView s := by
  unfold message
  split <;> rfl

/-! ### The Deck's blocks, captures and leases (10 R256 to R264) -/

theorem followView_showAcc : followView (showAcc s) = followView s := by
  unfold showAcc
  split
  · simp (disch := omega) only [DK_ACC_FREE, DK_ACC_HELD, DK_ACC_FLIGHT, followView_set]
  · rfl

theorem followView_showRing (i : Fin 16) : followView (showRing s i) = followView s := by
  unfold showRing
  simp (disch := omega) only [followView_showAcc, DK_RING_BLOCKS, followView_set]

theorem followView_showCap (c : Fin 16) : followView (showCap s c) = followView s := by
  unfold showCap
  simp (disch := omega) only [followView_showAcc, DK_CAP_BLOCKS, followView_set]

theorem followView_giveBlocks (l : List Block) : followView (s.giveBlocks l) = followView s := rfl

theorem followView_modRing (i : Fin 16) (f : Ring → Ring) : followView (s.modRing i f) = followView s := rfl

theorem followView_modCap (c : Fin 16) (f : Capture → Capture) : followView (s.modCap c f) = followView s := rfl

theorem followView_takeBlock : followView s.takeBlock.2 = followView s := rfl

theorem followView_releaseCapture (c : Fin 16) : followView (releaseCapture s c) = followView s := by
  unfold releaseCapture
  simp (disch := omega) only [followView_showCap, DK_CAP_STATE, followView_set, followView_modCap, followView_giveBlocks]

theorem followView_endSession (x : Session) (why : Nat) : followView (endSession s x why) = followView s := by
  unfold endSession
  simp (disch := omega) only [CY_CAP_STATE, CY_CAP_OUT, followView_set, followView_message]
  rfl

theorem followView_tellHolder (l : Fin 32) : followView (tellHolder s l) = followView s := by
  unfold tellHolder
  split
  · split <;> rfl
  · exact followView_endSession _ _ _

theorem followView_clearLease (l : Fin 32) : followView (clearLease s l) = followView s := followView_setWord s _ _ (by omega)

theorem followView_countRevoke (lost : Nat) : followView (countRevoke s lost) = followView s := by
  unfold countRevoke
  simp (disch := omega) only [DK_REVREC_RECS, DK_EVT_REVOKE, DK_CNT_REVCNT, followView_bump, followView_event]

theorem followView_trimRing (i : Fin 16) (n : Nat) : followView (trimRing s i n) = followView s := by
  induction n generalizing s with
  | zero => rfl
  | succ n ih =>
    unfold trimRing
    refine followView_ite _ rfl ?_
    split
    · rfl
    · exact ih _

theorem followView_unleaseRing (i : Nat) : followView (unleaseRing s i) = followView s := by
  unfold unleaseRing
  split
  · exact (followView_showRing _ _).trans (followView_trimRing _ _ _)
  · rfl

theorem followView_revokeLease (l : Fin 32) : followView (revokeLease s l) = followView s := by
  have hrevoked (lost : Nat) : followView (countRevoke (clearLease (tellHolder s l) l) lost) = followView s :=
    (followView_countRevoke _ _).trans ((followView_clearLease _ _).trans (followView_tellHolder s l))
  unfold revokeLease
  dsimp only
  split
  · split
    · exact (followView_releaseCapture _ _).trans (hrevoked _)
    · exact hrevoked _
  · exact (followView_unleaseRing _ _).trans (hrevoked _)

theorem followView_takeFree {s t : State} {i : Fin 16} {b : Nat} (h : takeFree s i = some (b, t)) : followView t = followView s := by
  unfold takeFree at h
  split at h
  · cases h
  · split at h
    · obtain ⟨-, rfl⟩ := Prod.mk.inj (Option.some.inj h)
      exact (followView_modCap _ _ _).trans (followView_takeBlock s)
    · split at h
      · obtain ⟨-, rfl⟩ := Prod.mk.inj (Option.some.inj h)
        exact followView_takeBlock s
      · cases h

theorem followView_beginBlock (i : Fin 16) (b : Nat) : followView (beginBlock s i b) = followView s := rfl

theorem followView_reuseOldest (i : Fin 16) : followView (reuseOldest s i) = followView s := by
  unfold reuseOldest
  split <;> rfl

theorem followView_recycleBlock (i : Fin 16) : followView (recycleBlock s i) = followView s := by
  unfold recycleBlock
  split
  · exact followView_reuseOldest s i
  · next l _ =>
    dsimp only
    split
    · next hfree => exact (followView_beginBlock _ _ _).trans ((followView_takeFree hfree).trans (followView_revokeLease s l))
    · exact (followView_reuseOldest _ i).trans (followView_revokeLease s l)

theorem followView_newFlight (i : Fin 16) : followView (newFlight s i) = followView s := by
  unfold newFlight
  split
  · next hfree => exact (followView_trimRing _ _ _).trans ((followView_beginBlock _ _ _).trans (followView_takeFree hfree))
  · exact followView_recycleBlock s i

theorem followView_captureHeld (c : Fin 16) : followView (captureHeld s c) = followView s := by
  unfold captureHeld
  simp (disch := omega) only [followView_showCap, DK_EVT_CAPDONE, DK_CAP_STATE, followView_event, followView_set, followView_modCap]

theorem followView_slotWindowDone (c i : Fin 16) : followView (slotWindowDone s c i) = followView s := by
  unfold slotWindowDone
  dsimp only
  split
  · exact followView_captureHeld _ c
  · rfl

theorem followView_placeBlock (i : Fin 16) (b : Block) : followView (placeBlock s i b) = followView s := by
  unfold placeBlock
  split
  · exact followView_showCap _ _
  · rfl

theorem followView_windowsPassed (i : Fin 16) (b : Block) : followView (windowsPassed s i b) = followView s := by
  refine foldl_leaves followView _ _ (fun t c => ?_) s
  split
  · exact followView_slotWindowDone t c i
  · rfl

theorem followView_closeFlight (i : Fin 16) : followView (closeFlight s i) = followView s := by
  unfold closeFlight
  split
  · rfl
  · split
    · rfl
    · simp only [followView_showRing, followView_windowsPassed, followView_newFlight, followView_placeBlock, followView_modRing]

theorem followView_ringCut (i : Fin 16) : followView (ringCut s i) = followView s := followView_closeFlight s i

/-! ### The Landing's chunks, and what waits for the publisher (10 R248, 14 R356) -/

theorem followView_showChunks : followView (showChunks s) = followView s := by
  unfold showChunks
  simp (disch := omega) only [LD_ST_FREE, LD_HELD_FILL, LD_HELD_HELD, followView_set]

theorem followView_sweepChunks (i : Fin 16) : followView (sweepChunks s i) = followView s := followView_showChunks _

theorem followView_closeChunk (i : Fin 16) : followView (closeChunk s i) = followView s := followView_sweepChunks _ i

theorem followView_closePub (k : Fin 16) (fin step : Bool) (n : Nat) : followView (closePub s k fin step n) = followView s := by
  unfold closePub
  dsimp only
  split
  · split <;> rfl
  · rfl

theorem followView_streamRecord (i : Fin 16) (r : Landed × Nat) : followView (streamRecord s i r) = followView s := by
  refine foldl_leaves followView _ _ (fun t k => ?_) s
  split
  · dsimp only
    split
    · exact followView_closePub _ _ _ _ _
    · rfl
  · rfl

/-- The publisher takes what waits for it, and no other consumer does. -/
theorem followView_takeStream (i : Fin 16) : followView (takeRecords s i 2) = followView s := by
  unfold takeRecords
  generalize (if s.bit DK_ST_ON then 63 else 62) = ready
  refine followView_ite _ rfl ?_
  dsimp only
  rw [followView_sweepChunks]
  refine foldl_leaves followView (List.range 6) _ (fun t b => ?_) s
  split
  · next htakes =>
    have hone : b = 1 := by
      rw [Nat.testBit_and, Nat.testBit_and, Bool.and_eq_true, Bool.and_eq_true] at htakes
      obtain ⟨⟨-, hmask⟩, -⟩ := htakes
      rw [show 2 = 2 ^ 1 from rfl, Nat.testBit_two_pow] at hmask
      exact (of_decide_eq_true hmask).symm
    subst hone
    exact foldl_leaves followView (waitingFor t i 1) _ (fun u r => followView_streamRecord u i r) t
  · rfl

theorem followView_finishPub (k : Fin 16) : followView (finishPub s k) = followView s :=
  (followView_closePub _ _ _ _ _).trans (followView_takeStream s _)

theorem followView_showAdmit : followView (showAdmit s) = followView s := by
  unfold showAdmit
  simp (disch := omega) only [CY_USE_ADMIT, followView_set]

theorem followView_admitStream (k : Fin 16) (host : Option Nat) : followView (admitStream s k host) = followView s := by
  have hstream (t : State) (f : StreamState → StreamState) : followView (t.modStream k f) = followView t := rfl
  have hclosed (n : Nat) : followView (if !admitted s k then s else if admission s k host = 1 then closePub s k false false n else finishPub s k) = followView s :=
    followView_ite _ rfl (followView_ite _ (followView_closePub _ _ _ _ _) (followView_finishPub s k))
  unfold admitStream
  dsimp only
  refine followView_ite s ?_ ?_
  all_goals simp (disch := omega) only [followView_showAdmit, CY_EVT_STRREF, CY_STR_ST, CY_STR_RATE, followView_event, followView_set, hstream, hclosed]

theorem followView_admitStreams (i : Fin 16) : followView ((entriesOf s i).foldl (fun s (k : Fin 16) => admitStream s k s.net.streams[k].host) s) = followView s :=
  foldl_leaves followView _ _ (fun t k => followView_admitStream t k _) s

theorem followView_closeStreams (i : Fin 16) (fin : Bool) : followView (closeStreams s i fin) = followView s := by
  refine (foldl_leaves followView _ _ (fun t k => ?_) _).trans (followView_takeStream s i)
  exact followView_ite _ (followView_closePub _ _ _ _ _) rfl

/-! ### The setups on the slot (13 R339) -/

theorem followView_showSetup (n : Fin 32) : followView (showSetup s n) = followView s := by
  unfold showSetup
  simp (disch := omega) only [AN_SET_STATE, AN_SET_REF, AN_SET_LOAD, followView_set]

theorem followView_showAnalysis : followView (showAnalysis s) = followView s := by
  unfold showAnalysis
  simp (disch := omega) only [AN_ST_SETUPS, AN_ST_LOAD0, AN_ST_LOAD1, followView_set]

theorem followView_slotChanged (i : Fin 16) : followView (slotChanged s i) = followView s := by
  have hsetup (t : State) (n : Fin 32) (f : SetupState → SetupState) : followView (t.modSetup n f) = followView t := rfl
  have hrefused (t : State) : followView (t.event AN_EVT_SETREF) = followView t := followView_event t _ _ _ (by decide) (by decide)
  have hwatch (t : State) (x : AnState) : followView { t with an := x } = followView t := rfl
  unfold slotChanged
  refine followView_ite _ rfl ((followView_showAnalysis _).trans ((hwatch _ _).trans ?_))
  refine foldl_leaves followView (List.finRange 32) _ (fun t n => followView_ite _ ?_ rfl) s
  dsimp only
  rw [followView_showSetup]
  exact followView_ite _ ((hrefused _).trans (hsetup _ _ _)) (hsetup _ _ _)

end

end Sys2Proof.Machine
end

section
/-!
PROOFS. What a change at a boundary does to the slot itself (08 R210, 07 R194, R198): its banks, its suppression trigger and the end of its axis's run.
-/

namespace Sys2Proof.Machine

/-! ### What stands beside a changing slot -/

/-- A slot without what a trigger (07 R198 to R201) or the end of its axis's run (09 R236) changes of it. -/
def SlotState.settings (x : SlotState) : SlotState := { x with trig := none, sampled := false, inL := 0, inD := 0, holdTo := none, mill := {} }

/-- The state beside the registers, slot i, its followers, the axes, self-calibration and the AUX channel. -/
def besideChange (i : Fin 16) (s : State) : State :=
  { besideFollowers s with slots := s.slots.set i {}, axes := Vector.replicate 10 {}, cal := {}, aux := {} }

/-- What a trigger leaves of slot i, and the state beside it. -/
def changeView (i : Fin 16) (s : State) : State × SlotState := (besideChange i s, s.slots[i].settings)

/-- What the end of a run leaves of slot i, and the state beside it. -/
def heldView (i : Fin 16) (s : State) : State × SlotState := (besideChange i s, { s.slots[i] with holdTo := none })

section
variable {s t : State} {i : Fin 16}

theorem changeView_set (f : Field) (n : Nat) : changeView i (s.set f n) = changeView i s := rfl
theorem changeView_event (f : Field) : changeView i (s.event f) = changeView i s := rfl
theorem changeView_bump (f : Field) (n : Nat) : changeView i (s.bump f n) = changeView i s := rfl
theorem heldView_set (f : Field) (n : Nat) : heldView i (s.set f n) = heldView i s := rfl
theorem heldView_event (f : Field) : heldView i (s.event f) = heldView i s := rfl
theorem heldView_bump (f : Field) (n : Nat) : heldView i (s.bump f n) = heldView i s := rfl

theorem besideChange_modSlot (f : SlotState → SlotState) : besideChange i (s.modSlot i f) = besideChange i s := by simp [besideChange, besideFollowers, State.modSlot]

/-- A change of the slot alone that leaves its settings. -/
theorem changeView_modSlot {f : SlotState → SlotState} (hf : (f s.slots[i]).settings = s.slots[i].settings) : changeView i (s.modSlot i f) = changeView i s := by
  simp only [changeView, besideChange_modSlot, modSlot_self, hf]

theorem changeView_of_followView (h : followView t = followView s) : changeView i t = changeView i s :=
  (congrArg (fun v : State × (Fin 16 → Nat × Nat × Nat × Nat) =>
    ({ v.1 with slots := v.1.slots.set i {}, axes := Vector.replicate 10 {}, cal := {}, aux := {} }, v.1.slots[i].settings)) h :)

theorem changeView_of_heldView (h : heldView i t = heldView i s) : changeView i t = changeView i s :=
  (congrArg (fun v : State × SlotState => (v.1, v.2.settings)) h :)

theorem trig_of_heldView (h : heldView i t = heldView i s) : t.slots[i].trig = s.slots[i].trig :=
  (congrArg (fun v : State × SlotState => v.2.trig) h :)

theorem trig_of_followView (h : followView t = followView s) : t.slots[i].trig = s.slots[i].trig :=
  (congrArg (fun v : State × (Fin 16 → Nat × Nat × Nat × Nat) => v.1.slots[i].trig) h :)

theorem banksShown_of_followView (h : followView t = followView s) (i : Fin 16) : t.banksShown i = s.banksShown i := congrFun (congrArg Prod.snd h) i

/-- The slot's settings move on together with a change of the slot that leaves what a trigger changes. -/
theorem changeView_map {f : SlotState → SlotState} (hf : ∀ x, (f x).settings = (f x.settings).settings) (h : changeView i t = changeView i s) :
    changeView i (t.modSlot i f) = changeView i (s.modSlot i f) := by
  obtain ⟨hrest, hown⟩ := Prod.mk.inj h
  simp only [changeView, besideChange_modSlot, modSlot_self, hrest, hf t.slots[i], hf s.slots[i], hown]

end

/-! ### The slot's banks and its trigger -/

section
variable (s : State) (i : Fin 16)

/-- The slot's active bank runs (07 R194). -/
def State.activeRuns (i : Fin 16) : Prop := bankState s i (s.get (ML_ST_ACT i)) = 3

theorem activeRuns_congr {s t : State} {i : Fin 16} (h : t.banksShown i = s.banksShown i) : t.activeRuns i ↔ s.activeRuns i := by
  obtain ⟨-, hact, hbank0, hbank1⟩ : _ ∧ _ ∧ _ ∧ _ := by simpa only [State.banksShown, Prod.mk.injEq] using h
  simp only [State.activeRuns, bankState, hact, hbank0, hbank1]

theorem followView_orFree (x : Option Nat) : followView (s.orFree x).2 = followView s := by
  unfold State.orFree
  split <;> rfl

theorem followView_showBank : followView (showBank s i) = followView s := by
  unfold showBank
  refine followView_ite s ?_ rfl
  dsimp only
  simp (disch := omega) only [ML_SETL_LEN, ML_GD_NS, followView_set, followView_orFree]

theorem changeView_setBank (b st : Nat) : changeView i (setBank s i b st) = changeView i s := by rw [setBank_eq, changeView_set]

theorem changeView_finishSwap (res : Nat) : changeView i (finishSwap s i res) = changeView i s := by
  rw [finishSwap_eq, changeView_modSlot]
  · simp only [changeView_set, changeView_event, State.banksSwapped]
  · rfl

theorem changeView_forceSwap : changeView i (forceSwap s i) = changeView i s := by
  unfold forceSwap
  split
  · rw [changeView_set, changeView_finishSwap]
  · rfl

/-- Which bank is active, and that it runs, does not show in the fields of a swap's end. -/
theorem activeRuns_of_frame {α : Type} {v : State → α} {s t : State} {i : Fin 16} (h : ViewFrame v (endFields i) s t) : t.activeRuns i ↔ s.activeRuns i := by
  have hbank (b : Nat) : bankState t i b = bankState s i b := by
    rw [bankState_eq, bankState_eq, h.get]
    exact fun f hf => swapFields_apart_banks i f (endFields_subset i hf) _ (bankField_mem i b)
  unfold State.activeRuns
  rw [h.get _ (endFields_apart i), hbank]

theorem finishSwap_frame_after (res : Nat) : ViewFrame (besideSlot i) (endFields i) (s.banksSwapped i) (finishSwap s i res) := by
  have hok {f : Field} (hf : f ∈ swapFields i) := swapFields_ok i f hf
  rw [finishSwap_eq]
  refine .modSlot (.set (.set (.event (.set (.refl _ _ _) ?_ (hok ?_) (besideSlot_set _ _ _ _)) ?_ (hok ?_) (besideSlot_event _ _ _)) ?_ (hok ?_)
    (besideSlot_set _ _ _ _)) ?_ (hok ?_) (besideSlot_set _ _ _ _)) (besideSlot_modSlot _ _ _)
  all_goals simp [swapFields, endFields]

theorem activeRuns_banksSwapped : (s.banksSwapped i).activeRuns i :=
  (congrArg (bankState _ i) (banksSwapped_act s i)).trans (banksSwapped_incoming s i)

theorem activeRuns_finishSwap (res : Nat) : (finishSwap s i res).activeRuns i :=
  (activeRuns_of_frame (finishSwap_frame_after s i res)).2 (activeRuns_banksSwapped s i)

theorem activeRuns_setState (n : Nat) : (s.set (ML_ST_STATE i) n).activeRuns i ↔ s.activeRuns i :=
  activeRuns_of_frame (RegFrame.set (.refl _ _ s) (by simp [endFields]) (swapFields_ok i _ (by simp [swapFields])))

/-- A swap that is completed by force leaves the bank active that came in; without one nothing changes. -/
theorem activeRuns_forceSwap (h : s.activeRuns i) : (forceSwap s i).activeRuns i := by
  unfold forceSwap
  split
  · exact (activeRuns_setState _ i 2).2 (activeRuns_finishSwap s i 7)
  · exact h

/-- The suppression trigger at instant e, on a slot whose swap is done with: the slot forgets its filter state and settles. -/
def State.triggeredAt (s : State) (i : Fin 16) (e : Nat) : State :=
  let u := s.modSlot i fun x => { x with trig := some e, sampled := false, mill := {} }
  (u.set (ML_ST_STATE i) 1).set (ML_SREM_REM i) (markersDue u i e)

theorem suppressAt_running (e : Nat) (hi : i.val ≤ 10) (hen : s.slots[i].en = true) (hresume : s.slots[i].resume = false) :
    suppressAt s i false e = (forceSwap (s.bump (ML_CNT_SUPCNT i) 1) i).triggeredAt i e := by
  unfold suppressAt State.triggeredAt
  rw [if_neg fun ⟨_, _, hstopped⟩ => Bool.false_ne_true (hresume.symm.trans hstopped), if_pos ⟨hi, hen⟩]
  simp only [Bool.and_false, Bool.false_eq_true, if_false]

/-- A slot without a filter chain has nothing to suppress. -/
theorem suppressAt_chainless (e : Nat) (hi : ¬ i.val ≤ 10) : suppressAt s i false e = s := by
  unfold suppressAt
  rw [if_neg fun ⟨h, _⟩ => hi h, if_neg fun ⟨h, _⟩ => hi h]

theorem changeView_triggeredAt (e : Nat) : changeView i (s.triggeredAt i e) = changeView i s := by
  unfold State.triggeredAt
  rw [changeView_set, changeView_set, changeView_modSlot rfl]

theorem triggeredAt_trig (e : Nat) : (s.triggeredAt i e).slots[i].trig = some e :=
  congrArg SlotState.trig (modSlot_self s i fun x => { x with trig := some e, sampled := false, mill := {} })

theorem triggeredAt_state (e : Nat) : (s.triggeredAt i e).get (ML_ST_STATE i) = 1 := by
  unfold State.triggeredAt
  rw [State.get_set_ne _ _ _ _ (swapFields_ok i _ (by simp [swapFields])) (stateField_apart_rem i), State.get_set_same _ _ _ (swapFields_ok i _ (by simp [swapFields]))]
  rfl

theorem activeRuns_triggeredAt (e : Nat) (h : s.activeRuns i) : (s.triggeredAt i e).activeRuns i := by
  have hrem (t : State) (n : Nat) : (t.set (ML_SREM_REM i) n).activeRuns i ↔ t.activeRuns i :=
    activeRuns_congr (banksShown_of_followView (followView_set t _ _ _ n (by decide) (by omega)) i)
  unfold State.triggeredAt
  rw [hrem, activeRuns_setState]
  exact h

/-! ### A channel switch at a boundary (07 R198, 09 R236) -/

theorem heldView_modSlot {f : SlotState → SlotState} (hf : ({ f s.slots[i] with holdTo := none } : SlotState) = { s.slots[i] with holdTo := none }) :
    heldView i (s.modSlot i f) = heldView i s := by
  simp only [heldView, besideChange_modSlot, modSlot_self, hf]

theorem heldView_modAxis (j : Fin 10) (f : AxisState → AxisState) : heldView i (s.modAxis j f) = heldView i s := rfl

theorem heldView_cal (c : CalState) : heldView i { s with cal := c } = heldView i s := rfl

theorem heldView_modCal (j : Fin 10) (f : CalAxis → CalAxis) : heldView i (s.modCal j f) = heldView i s := rfl

theorem heldView_thermUpdate : heldView i (thermUpdate s) = heldView i s := by
  unfold thermUpdate
  exact foldl_leaves (heldView i) _ _ (fun t j => heldView_modCal _ _ _ _) s

theorem heldView_clearQuiet (j : Fin 10) : heldView i (clearQuiet s j) = heldView i s := by
  unfold clearQuiet
  rw [heldView_set, heldView_set, heldView_modAxis]

theorem heldView_endRun (a : Fin 10) : heldView (axisSlot a) (endRun s a) = heldView (axisSlot a) s := by
  unfold endRun
  dsimp only
  split
  · rw [heldView_modAxis, heldView_clearQuiet, heldView_modSlot _ _ rfl, heldView_set, heldView_cal]
  · rw [heldView_clearQuiet, heldView_modSlot _ _ rfl, heldView_set, heldView_cal]

theorem heldView_abandonRun (a : Fin 10) : heldView (axisSlot a) (abandonRun s a) = heldView (axisSlot a) s := by
  unfold abandonRun
  rw [heldView_thermUpdate, heldView_modCal, heldView_set, heldView_bump, heldView_event, heldView_endRun]

theorem heldView_abandonIf (a : Fin 10) : heldView (axisSlot a) (abandonIf s a) = heldView (axisSlot a) s := by
  unfold abandonIf
  split
  · exact heldView_abandonRun s a
  · rfl

theorem abandonFields_apart_banks (a : Fin 10) (i : Fin 16) :
    ∀ f ∈ abandonFields a, ∀ g ∈ [ML_ST_STATE i, ML_ST_ACT i, ML_ST_BST0 i, ML_ST_BST1 i], f.apart g := by decide +revert

/-- The end of a run shows in no slot's banks. -/
theorem banksShown_abandonIf (a : Fin 10) : (abandonIf s a).banksShown i = s.banksShown i :=
  banksShown_congr fun g hg => (abandonIf_frame s a).get g fun f hf => abandonFields_apart_banks a i f hf g hg

/-- After the trigger of a channel switch, the tacho of slot 11 starts anew and the run of the slot's axis is abandoned. -/
structure Switched (i : Fin 16) (s t : State) : Prop where
  view : changeView i t = changeView i s
  trig : t.slots[i].trig = s.slots[i].trig
  banks : t.banksShown i = s.banksShown i

theorem switchAt_switched (S : Nat) : Switched i (suppressAt s i false S) (switchAt s i S) := by
  have htacho (t : State) : Switched i t (switchTacho t i) := by
    unfold switchTacho
    split
    · exact ⟨rfl, rfl, rfl⟩
    · exact ⟨rfl, rfl, rfl⟩
  have ht := htacho (suppressAt s i false S)
  unfold switchAt
  dsimp only
  generalize switchTacho (suppressAt s i false S) i = t at ht ⊢
  split
  · exact ht
  · next a ha =>
    have hslot : axisSlot a = i := by
      unfold slotAxis at ha
      split at ha
      · cases ha
        rfl
      · cases ha
    have hheld := heldView_abandonIf t a
    rw [hslot] at hheld
    exact ⟨(changeView_of_heldView hheld).trans ht.view, (trig_of_heldView hheld).trans ht.trig, (banksShown_abandonIf t i a).trans ht.banks⟩

theorem changeView_switchAt (S : Nat) (hen : s.slots[i].en = true) (hresume : s.slots[i].resume = false) : changeView i (switchAt s i S) = changeView i s := by
  refine (switchAt_switched s i S).view.trans ?_
  by_cases hi : i.val ≤ 10
  · rw [suppressAt_running s i S hi hen hresume, changeView_triggeredAt, changeView_forceSwap, changeView_bump]
  · rw [suppressAt_chainless s i S hi]

/-- A running slot of the filter chain settles from the boundary on, with the bank that ran before or came in. -/
theorem switchAt_shown (S : Nat) (hi : i.val ≤ 10) (hen : s.slots[i].en = true) (hresume : s.slots[i].resume = false) :
    (switchAt s i S).get (ML_ST_STATE i) = 1 ∧ (switchAt s i S).slots[i].trig = some S ∧ (s.activeRuns i → (switchAt s i S).activeRuns i) := by
  obtain ⟨-, htrig, hbanks⟩ := switchAt_switched s i S
  have hcounted : (s.bump (ML_CNT_SUPCNT i) 1).activeRuns i ↔ s.activeRuns i :=
    activeRuns_congr (banksShown_of_followView (followView_bump s _ _ _ 1 (by decide) (by omega)) i)
  rw [activeRuns_congr hbanks, htrig, show (switchAt s i S).get (ML_ST_STATE i) = (suppressAt s i false S).get (ML_ST_STATE i) from congrArg Prod.fst hbanks,
    suppressAt_running s i S hi hen hresume]
  exact ⟨triggeredAt_state _ i S, triggeredAt_trig _ i S, fun h => activeRuns_triggeredAt _ i S (activeRuns_forceSwap _ i (hcounted.2 h))⟩

/-! ### The banks start and stop with the slot (07 R194) -/

theorem changeView_startBank : changeView i (startBank s i) = changeView i (s.modSlot i fun x => { x with everEnabled := true }) := by
  have hmap {t : State} (h : changeView i t = changeView i s) :
      changeView i (t.modSlot i fun x => { x with everEnabled := true }) = changeView i (s.modSlot i fun x => { x with everEnabled := true }) :=
    changeView_map (fun _ => rfl) h
  unfold startBank
  split
  · dsimp only
    rw [changeView_of_followView (followView_showBank _ i)]
    exact hmap (by rw [changeView_setBank, changeView_setBank, changeView_set])
  · rfl

theorem bankField_apart {f : Field} (hf : f ∈ swapFields i) (b : Nat) : (bankField i b).apart f := by
  have h := swapFields_apart_banks i f hf _ (bankField_mem i b)
  dsimp only [Field.apart] at h ⊢
  omega

/-- Bank b of a slot is made active, the other one stopped. -/
def State.bankActive (s : State) (i b : Nat) : State := setBank (setBank (s.set (ML_ST_ACT i) b) i (1 - b) 0) i b 3

theorem activeRuns_bankActive {b : Nat} (hb : b = 0 ∨ b = 1) : (s.bankActive i b).activeRuns i := by
  have hact : (s.bankActive i b).get (ML_ST_ACT i) = b := by
    have hmem : ML_ST_ACT i ∈ swapFields i := by simp [swapFields]
    rw [State.bankActive, setBank_eq, setBank_eq, State.get_set_ne _ _ _ _ (bankField_ok i _) (bankField_apart i hmem _),
      State.get_set_ne _ _ _ _ (bankField_ok i _) (bankField_apart i hmem _), State.get_set_same _ _ _ (swapFields_ok i _ hmem)]
    rcases hb with rfl | rfl <;> rfl
  unfold State.activeRuns
  rw [hact, bankState_eq, State.bankActive, setBank_eq]
  exact bankField_set_same _ i b 3 (by decide)

theorem activeRuns_startBank (hi : i.val ≤ 10) : (startBank s i).activeRuns i := by
  have hb : (if s.slots[i].everEnabled then s.get (ML_ST_ACT i) else 0) = 0 ∨ (if s.slots[i].everEnabled then s.get (ML_ST_ACT i) else 0) = 1 := by
    split
    · exact s.get_bit _ rfl
    · exact .inl rfl
  unfold startBank
  rw [if_pos hi]
  dsimp only
  rw [activeRuns_congr (banksShown_of_followView (followView_showBank _ i) i)]
  exact activeRuns_bankActive s i hb

theorem changeView_stopBanks (st : Nat) : changeView i (stopBanks s i st) = changeView i s := by
  unfold stopBanks
  split
  · rw [changeView_set, changeView_set, changeView_setBank, changeView_setBank, changeView_forceSwap]
  · rfl

/-- The banks of a slot of the filter chain have stopped. -/
theorem stopBanks_shown (hi : i.val ≤ 10) :
    (stopBanks s i 0).get (ML_ST_STATE i) = 0 ∧ (stopBanks s i 0).get (ML_ST_BST0 i) = 0 ∧ (stopBanks s i 0).get (ML_ST_BST1 i) = 0 := by
  have hok {f : Field} (hf : f ∈ swapFields i) := swapFields_ok i f hf
  have hbanks (b : Nat) : bankState (stopBanks s i 0) i b = bankState (setBank (setBank (forceSwap s i) i 0 0) i 1 0) i b := by
    unfold stopBanks
    rw [if_pos hi, bankState_set _ _ (by simp [swapFields]), bankState_set _ _ (by simp [swapFields])]
  refine ⟨?_, (hbanks 0).trans ?_, (hbanks 1).trans ?_⟩
  · unfold stopBanks
    rw [if_pos hi, State.get_set_ne _ _ _ _ (hok (by simp [swapFields])) (stateField_apart_rem i), State.get_set_same _ _ _ (hok (by simp [swapFields])), Nat.zero_mod]
  · rw [bankState_eq, setBank_eq, setBank_eq, State.get_set_ne _ _ _ _ (bankField_ok i _) (bankField_apart_other i (.inl rfl))]
    exact bankField_set_same _ i 0 0 (by decide)
  · rw [bankState_eq, setBank_eq]
    exact bankField_set_same _ i 1 0 (by decide)

end

end Sys2Proof.Machine
end

section
/-!
PROOFS. GR_CFG (08 R209, R210): its write, and what takes effect at the second boundary after it: a slot begins, ends, waits for its last records, or changes its rate code.
-/

namespace Sys2Proof.Machine

/-! ### The write (08 R209) -/

section
variable {s : State} {i : Fin 16} {v : Word}

theorem exec_grCfgWrite {door : Initiator} (h : doorOpen s door (0x420 + 0x40 * i.val) = true) : exec (.grCfgWrite door i v) s = .next (writeGrCfg s i v) :=
  congrArg Host.Outcome.next (atDoor_open s door _ _ h)

/-- EN as written. -/
def State.enWritten (s : State) (i : Fin 16) (v : Word) : State := s.set (GR_CFG_EN i) (getBits v 5 1)

/-- From a write of GR_CFG to the boundary the slot waits. -/
def State.cfgPending (s : State) (i : Fin 16) : State := s.modSlot i fun x => { x with pendCfg := some s.now }

theorem cfgPending_get (f : Field) : (s.cfgPending i).get f = s.get f := State.modSlot_get s i _ f

theorem writeGrCfg_allowed (hlo : grFastest i.val ≤ getBits v 0 4) (hhi : getBits v 0 4 ≤ 10) :
    writeGrCfg s i v = ((s.enWritten i v).set (GR_CFG_RATE i) (getBits v 0 4)).cfgPending i := by
  unfold writeGrCfg
  dsimp only
  rw [if_pos ⟨hlo, hhi⟩]
  rfl

theorem writeGrCfg_forbidden (h : getBits v 0 4 < grFastest i.val ∨ 10 < getBits v 0 4) :
    writeGrCfg s i v = ((s.enWritten i v).event (GR_EVT_RATEREJ i)).cfgPending i := by
  unfold writeGrCfg
  dsimp only
  rw [if_neg (by omega)]
  rfl

theorem grCfgFields_ok (i : Fin 16) : (GR_CFG_EN i).ok ∧ (GR_CFG_RATE i).ok ∧ (GR_EVT_RATEREJ i).ok := by decide +revert

theorem grCfgFields_apart (i : Fin 16) : (GR_CFG_RATE i).apart (GR_CFG_EN i) ∧ (GR_CFG_EN i).apart (GR_CFG_RATE i) ∧ (GR_EVT_RATEREJ i).apart (GR_CFG_EN i) ∧
    (GR_EVT_RATEREJ i).apart (GR_CFG_RATE i) := by decide +revert

theorem enWritten_en : (s.enWritten i v).get (GR_CFG_EN i) = getBits v 5 1 :=
  (State.get_set_same _ _ _ (grCfgFields_ok i).1).trans (Nat.mod_eq_of_lt (getBits_lt v 5 1))

/-- What the write of a slot's GR_CFG leaves beside its registers and the slot. -/
theorem cfgPending_kept {l : List Field} {t : State} (h : RegFrame l s t) :
    { t.cfgPending i with regs := s.regs, slots := s.slots, fresh := s.fresh } = s ∧ sameBut l s (t.cfgPending i) ∧
    (∀ j : Fin 16, j ≠ i → (t.cfgPending i).slots[j] = s.slots[j]) ∧ (t.cfgPending i).slots[i] = { s.slots[i] with pendCfg := some s.now } := by
  obtain ⟨hrest, hregs⟩ := h.onlyFields
  have hslots : t.slots = s.slots := (congrArg (fun x : State => x.slots) h.kept :)
  have hnow : t.now = s.now := (congrArg (fun x : State => x.now) h.kept :)
  refine ⟨(congrArg (fun x : State => { x with slots := s.slots }) hrest :), sameBut_regs hregs rfl, fun j hj => ?_, ?_⟩
  · rw [State.cfgPending, modSlot_other _ _ _ _ hj.symm, hslots]
  · rw [State.cfgPending, modSlot_self, hslots, hnow]

end

/-! ### A change of a slot -/

/-- From s to t slot i changed to y, but for what a trigger and the end of a run change of it; no other slot and nothing beside its followers did. -/
structure SlotChange (i : Fin 16) (y : SlotState) (s t : State) : Prop where
  own : t.slots[i].settings = y.settings
  others : ∀ j : Fin 16, j ≠ i → t.slots[j] = s.slots[j]
  rest : { t with regs := s.regs, slots := s.slots, aux := s.aux, cal := s.cal, axes := s.axes, an := s.an, net := s.net, tx := s.tx, free := s.free,
                  flash := s.flash, deck := s.deck, blaze := s.blaze, bus := s.bus, recog := s.recog, fresh := s.fresh } = s
  flash : { t.flash with mseqRes := s.flash.mseqRes } = s.flash

section
variable {s t : State} {i : Fin 16} {f g : SlotState → SlotState}

theorem slotChange_of_view (h : changeView i t = changeView i (s.modSlot i f)) : SlotChange i (f s.slots[i]) s t := by
  obtain ⟨hrest, hown⟩ := Prod.mk.inj h
  rw [besideChange_modSlot] at hrest
  rw [modSlot_self] at hown
  refine ⟨hown, fun j hj => ?_, ?_, ?_⟩
  · have hval : i.val ≠ j.val := fun e => hj (Fin.ext e).symm
    simpa [besideChange, besideFollowers, Vector.getElem_set_ne _ _ hval] using congrArg (fun x : State => x.slots[j]) hrest
  · exact (congrArg (fun x : State => { x with
      regs := s.regs, slots := s.slots, aux := s.aux, cal := s.cal, axes := s.axes, an := s.an, net := s.net, tx := s.tx, free := s.free, flash := s.flash,
      deck := s.deck, blaze := s.blaze, bus := s.bus, recog := s.recog, fresh := s.fresh }) hrest :)
  · exact (congrArg (fun x : State => { x.flash with mseqRes := s.flash.mseqRes }) hrest :)

theorem changeView_modSlot_modSlot : changeView i ((s.modSlot i f).modSlot i g) = changeView i (s.modSlot i fun x => g (f x)) := by
  simp only [changeView, besideChange_modSlot, modSlot_self]

theorem settings_of_view (h : changeView i t = changeView i (s.modSlot i f)) : t.slots[i].settings = (f s.slots[i]).settings := (slotChange_of_view h).own

end

/-! ### A slot begins (08 R210) -/

/-- An enabled slot at code r whose first record is that of grid time S. -/
def SlotState.enabled (x : SlotState) (r S : Nat) : SlotState :=
  { x with en := true, rate := r, nextT := some S, lastT := none, stop := [], resume := false, chg := none, everEnabled := true }

section
variable (s : State) (i : Fin 16) (r S : Nat)

/-- The slot's bank starts, before the trigger at the boundary. -/
def State.begun : State :=
  startBank (s.modSlot i fun x => { x with en := true, rate := r, nextT := some S, lastT := none, stop := [], resume := false, chg := none }) i

theorem changeView_begun : changeView i (s.begun i r S) = changeView i (s.modSlot i fun x => x.enabled r S) := by
  rw [State.begun, changeView_startBank, changeView_modSlot_modSlot]
  rfl

theorem begun_runs : (s.begun i r S).slots[i].en = true ∧ (s.begun i r S).slots[i].resume = false := by
  have hown := settings_of_view (changeView_begun s i r S)
  exact ⟨(congrArg SlotState.en hown :), (congrArg SlotState.resume hown :)⟩

theorem followView_enableSlot : followView (enableSlot s i r S) = followView (switchAt (s.begun i r S) i S) :=
  (followView_slotChanged _ i).trans (followView_admitStreams _ i)

theorem changeView_enableSlot : changeView i (enableSlot s i r S) = changeView i (s.modSlot i fun x => x.enabled r S) := by
  obtain ⟨hen, hresume⟩ := begun_runs s i r S
  rw [changeView_of_followView (followView_enableSlot s i r S), changeView_switchAt _ i S hen hresume, changeView_begun]

/-- A slot of the filter chain begins with its active bank and settles (07 R194, R198). -/
theorem enableSlot_shown (hi : i.val ≤ 10) :
    (enableSlot s i r S).get (ML_ST_STATE i) = 1 ∧ (enableSlot s i r S).slots[i].trig = some S ∧ (enableSlot s i r S).activeRuns i := by
  obtain ⟨hen, hresume⟩ := begun_runs s i r S
  obtain ⟨hstate, htrig, hactive⟩ := switchAt_shown (s.begun i r S) i S hi hen hresume
  have hfollow := followView_enableSlot s i r S
  have hbanks := banksShown_of_followView hfollow i
  exact ⟨(congrArg Prod.fst hbanks).trans hstate, (trig_of_followView hfollow).trans htrig, (activeRuns_congr hbanks).2 (hactive (activeRuns_startBank _ i hi))⟩

/-! ### A slot ends (08 R210) -/

/-- A disabled slot, r the code in its register. -/
def SlotState.disabled (x : SlotState) (r : Nat) : SlotState :=
  { x with en := false, rate := r, stop := [], resume := false, chg := none, nextT := none, lastT := none, trig := none }

/-- The slot's publications, its ring's block and its chunk are closed. -/
def State.closed : State := closeChunk (ringCut (closeStreams s i true) i) i

theorem followView_closed : followView (s.closed i) = followView s :=
  (followView_closeChunk _ i).trans ((followView_ringCut _ i).trans (followView_closeStreams s i true))

theorem followView_disableSlot :
    followView (disableSlot s i) = followView ((stopBanks (s.closed i) i 0).modSlot i fun x => x.disabled ((s.closed i).get (GR_CFG_RATE i))) :=
  followView_slotChanged _ i

theorem changeView_disableSlot : ∃ r, changeView i (disableSlot s i) = changeView i (s.modSlot i fun x => x.disabled r) :=
  ⟨_, (changeView_of_followView (followView_disableSlot s i)).trans (changeView_map (fun _ => rfl) ((changeView_stopBanks _ i 0).trans (changeView_of_followView (followView_closed s i))))⟩

theorem disableSlot_shown (hi : i.val ≤ 10) :
    (disableSlot s i).get (ML_ST_STATE i) = 0 ∧ (disableSlot s i).get (ML_ST_BST0 i) = 0 ∧ (disableSlot s i).get (ML_ST_BST1 i) = 0 := by
  have hbanks : (disableSlot s i).banksShown i = (stopBanks (s.closed i) i 0).banksShown i := banksShown_of_followView (followView_disableSlot s i) i
  obtain ⟨hstate, -, hbank0, hbank1⟩ : _ ∧ _ ∧ _ ∧ _ := by simpa only [State.banksShown, Prod.mk.injEq] using hbanks
  rw [hstate, hbank0, hbank1]
  exact stopBanks_shown _ i hi

/-! ### A change waits for the records due before its boundary (08 R210) -/

variable {s i r S} {en : Bool}

theorem finishChange_over (hchg : s.slots[i].chg = some (S, en, r)) (hdue : (s.slots[i].nextT.all fun t => decide (S ≤ t)) = true) :
    finishChange s i = if en then rateDone s i S else disableSlot s i := by
  unfold finishChange
  rw [hchg]
  exact if_pos hdue

theorem finishChange_waits (hchg : s.slots[i].chg = some (S, en, r)) (hdue : (s.slots[i].nextT.all fun t => decide (S ≤ t)) = false) :
    finishChange s i = s := by
  unfold finishChange
  rw [hchg]
  exact if_neg (by rw [hdue]; exact Bool.false_ne_true)

end

/-! ### A slot changes its rate code (08 R210) -/

/-- A slot that begins anew at code r from grid time S on. -/
def SlotState.atCode (x : SlotState) (r S : Nat) : SlotState := { x with rate := r, chg := none, nextT := some S }

section
variable (s : State) (i : Fin 16) (r S : Nat)

theorem followView_rateDone : followView (rateDone s i S) = followView ((ringCut (takeRecords s i 2) i).modSlot i fun x => { x with chg := none, nextT := some S }) :=
  (followView_slotChanged _ i).trans (followView_admitStreams _ i)

theorem changeView_rateDone : changeView i (rateDone s i S) = changeView i (s.modSlot i fun x => { x with chg := none, nextT := some S }) := by
  have hcut : changeView i (ringCut (takeRecords s i 2) i) = changeView i s :=
    changeView_of_followView ((followView_ringCut _ i).trans (followView_takeStream s i))
  exact (changeView_of_followView (followView_rateDone s i S)).trans (changeView_map (fun _ => rfl) hcut)

theorem rateDone_shown : (rateDone s i S).banksShown i = s.banksShown i ∧ (rateDone s i S).slots[i].trig = s.slots[i].trig := by
  have hcut := (followView_ringCut _ i).trans (followView_takeStream s i)
  refine ⟨(banksShown_of_followView (followView_rateDone s i S) i).trans (banksShown_of_followView hcut i), ?_⟩
  rw [trig_of_followView (followView_rateDone s i S), modSlot_self]
  exact trig_of_followView hcut

/-- The slot at code r from S on, a swap under way completed, before the trigger at the boundary. -/
def State.recoded : State := showBank ((forceSwap s i).modSlot i fun x => { x with rate := r, chg := some (S, true, s.slots[i].rate) }) i

theorem changeView_recoded : changeView i (s.recoded i r S) = changeView i (s.modSlot i fun x => { x with rate := r, chg := some (S, true, s.slots[i].rate) }) :=
  (changeView_of_followView (followView_showBank _ i)).trans (changeView_map (fun _ => rfl) (changeView_forceSwap s i))

variable {s i} (hen : s.slots[i].en = true) (hresume : s.slots[i].resume = false)
include hen hresume

theorem recoded_runs : (s.recoded i r S).slots[i].en = true ∧ (s.recoded i r S).slots[i].resume = false := by
  have hown := settings_of_view (changeView_recoded s i r S)
  exact ⟨((congrArg SlotState.en hown :) : (s.recoded i r S).slots[i].en = s.slots[i].en).trans hen,
    ((congrArg SlotState.resume hown :) : (s.recoded i r S).slots[i].resume = s.slots[i].resume).trans hresume⟩

theorem changeView_recoded_switchAt : changeView i (switchAt (s.recoded i r S) i S) =
    changeView i (s.modSlot i fun x => { x with rate := r, chg := some (S, true, s.slots[i].rate) }) := by
  obtain ⟨hen, hresume⟩ := recoded_runs r S hen hresume
  rw [changeView_switchAt _ i S hen hresume, changeView_recoded]

/-- Where the next record is the boundary's, no old one is due and the change is over at once. -/
theorem rateSlot_eq (hnext : s.slots[i].nextT = some S) : rateSlot s i r S = rateDone (switchAt (s.recoded i r S) i S) i S := by
  have hown := settings_of_view (changeView_recoded_switchAt r S hen hresume)
  have hchg : (switchAt (s.recoded i r S) i S).slots[i].chg = some (S, true, s.slots[i].rate) := (congrArg SlotState.chg hown :)
  have hdue : (switchAt (s.recoded i r S) i S).slots[i].nextT = s.slots[i].nextT := (congrArg SlotState.nextT hown :)
  exact finishChange_over (s := switchAt (s.recoded i r S) i S) hchg (by rw [hdue, hnext]; simp)

theorem changeView_rateSlot (hnext : s.slots[i].nextT = some S) : changeView i (rateSlot s i r S) = changeView i (s.modSlot i fun x => x.atCode r S) := by
  rw [rateSlot_eq r S hen hresume hnext, changeView_rateDone,
    changeView_map (f := fun x => { x with chg := none, nextT := some S }) (fun _ => rfl) (changeView_recoded_switchAt r S hen hresume), changeView_modSlot_modSlot]
  rfl

theorem rateSlot_shown (hi : i.val ≤ 10) (hnext : s.slots[i].nextT = some S) :
    (rateSlot s i r S).get (ML_ST_STATE i) = 1 ∧ (rateSlot s i r S).slots[i].trig = some S := by
  obtain ⟨hon, hgoes⟩ := recoded_runs r S hen hresume
  obtain ⟨hstate, htrig, -⟩ := switchAt_shown (s.recoded i r S) i S hi hon hgoes
  obtain ⟨hbanks, hkept⟩ := rateDone_shown (switchAt (s.recoded i r S) i S) i S
  rw [rateSlot_eq r S hen hresume hnext]
  exact ⟨(congrArg Prod.fst hbanks).trans hstate, hkept.trans htrig⟩

end

/-! ### What takes effect at the boundary -/

section
variable {s : State} {i : Fin 16} {w S : Nat}

theorem exec_grCfgApply (hlive : s.live = true) (hstopped : s.modes.stopped = false) (hmode : 5 ≤ s.mode) (hpend : s.slots[i].pendCfg = some w)
    (hS : S = takesAt s w) (htakes : boundaryTakes s w = true) (hready : changeReady s i S = true) : exec (.grCfgApply i) s = .next (applyGrCfg s i S) := by
  subst hS
  change execGrCfgApply i s = _
  have hacts : gridActs s = true := by simp [gridActs, hlive, hstopped, hmode]
  simp only [execGrCfgApply, hpend, hacts, htakes, hready, Bool.and_self, if_true]

theorem changeReady_chg (h : changeReady s i S = true) : s.slots[i].chg = none := by
  unfold changeReady at h
  rw [Bool.and_eq_true] at h
  exact Option.isNone_iff_eq_none.1 h.1

/-- The write of GR_CFG that has taken effect. -/
def State.taken (s : State) (i : Fin 16) : State := s.modSlot i fun x => { x with pendCfg := none }

/-- The slot ends at S, once no record before it is due. -/
def State.ending (s : State) (i : Fin 16) (S : Nat) : State := (s.taken i).modSlot i fun x => { x with chg := some (S, false, x.rate) }

theorem ending_slot : (s.ending i S).slots[i] = { s.slots[i] with pendCfg := none, chg := some (S, false, s.slots[i].rate) } := by
  rw [State.ending, modSlot_self, State.taken, modSlot_self]

theorem ending_chg : (s.ending i S).slots[i].chg = some (S, false, s.slots[i].rate) := (congrArg SlotState.chg ending_slot :)

theorem ending_nextT : (s.ending i S).slots[i].nextT = s.slots[i].nextT := (congrArg SlotState.nextT ending_slot :)

theorem changeView_ending {f : SlotState → SlotState} : changeView i ((s.ending i S).modSlot i f) =
    changeView i (s.modSlot i fun x => f { x with pendCfg := none, chg := some (S, false, x.rate) }) := by
  simp only [State.ending, State.taken, changeView, besideChange_modSlot, modSlot_self]

/-- A slot that begins at the boundary. -/
theorem slotChange_enables (r : Nat) : SlotChange i ({ s.slots[i] with pendCfg := none }.enabled r S) s (enableSlot (s.taken i) i r S) :=
  slotChange_of_view (f := fun x => { x with pendCfg := none }.enabled r S) ((changeView_enableSlot (s.taken i) i r S).trans changeView_modSlot_modSlot)

/-- A slot that ends at the boundary. -/
theorem slotChange_disables : ∃ r, SlotChange i ({ s.slots[i] with pendCfg := none }.disabled r) s (disableSlot (s.ending i S) i) := by
  obtain ⟨r, hview⟩ := changeView_disableSlot (s.ending i S) i
  exact ⟨r, slotChange_of_view (f := fun x => { x with pendCfg := none }.disabled r) (hview.trans changeView_ending)⟩

/-- A slot that goes on at another code from the boundary on. -/
theorem slotChange_recodes (r : Nat) (hen : s.slots[i].en = true) (hresume : s.slots[i].resume = false) (hnext : s.slots[i].nextT = some S) :
    SlotChange i ({ s.slots[i] with pendCfg := none }.atCode r S) s (rateSlot (s.taken i) i r S) := by
  have hslot : (s.taken i).slots[i] = { s.slots[i] with pendCfg := none } := modSlot_self s i _
  have hview := changeView_rateSlot (s := s.taken i) r S (by rw [hslot]; exact hen) (by rw [hslot]; exact hresume) (by rw [hslot]; exact hnext)
  exact slotChange_of_view (f := fun x => { x with pendCfg := none }.atCode r S) (hview.trans changeView_modSlot_modSlot)

variable (hready : changeReady s i S = true)
include hready

theorem unchanged_of_ready : (s.modSlot i fun x => { x.unchanged S with pendCfg := none }) = s.taken i := by
  simp only [State.taken, State.modSlot, SlotState.unchanged, changeReady_chg hready]

theorem applyGrCfg_enables (hen : s.slots[i].en = false) (hcfg : s.get (GR_CFG_EN i) = 1) :
    applyGrCfg s i S = enableSlot (s.taken i) i (s.get (GR_CFG_RATE i)) S := by
  have hoff : (s.taken i).slots[i].en = false := (congrArg SlotState.en (modSlot_self s i _)).trans hen
  unfold applyGrCfg
  simp only [unchanged_of_ready hready, hoff, State.bit_of_get_one hcfg]
  rfl

theorem applyGrCfg_disables (hen : s.slots[i].en = true) (hcfg : s.get (GR_CFG_EN i) = 0) : applyGrCfg s i S = finishChange (s.ending i S) i := by
  have hon : (s.taken i).slots[i].en = true := (congrArg SlotState.en (modSlot_self s i _)).trans hen
  unfold applyGrCfg
  simp only [unchanged_of_ready hready, hon, State.bit_of_get_zero hcfg]
  rfl

theorem applyGrCfg_recodes (hen : s.slots[i].en = true) (hcfg : s.get (GR_CFG_EN i) = 1) (hrate : s.slots[i].rate ≠ s.get (GR_CFG_RATE i)) :
    applyGrCfg s i S = rateSlot (s.taken i) i (s.get (GR_CFG_RATE i)) S := by
  have hon : (s.taken i).slots[i].en = true := (congrArg SlotState.en (modSlot_self s i _)).trans hen
  have hold : ((s.taken i).slots[i].rate != s.get (GR_CFG_RATE i)) = true :=
    bne_iff_ne.2 fun e => hrate ((congrArg SlotState.rate (modSlot_self s i fun x => { x with pendCfg := none })).symm.trans e)
  unfold applyGrCfg
  simp only [unchanged_of_ready hready, hon, State.bit_of_get_one hcfg, hold]
  rfl

end

/-- Settles O26: a write of GR_CFG stores what it may and waits; at its boundary a slot begins, ends, waits for its last records, or begins anew at its new code. -/
theorem slotsEnableAndChangeRateAtSecondBoundaries : Obligations.SlotsEnableAndChangeRateAtSecondBoundaries := by
  unfold Obligations.SlotsEnableAndChangeRateAtSecondBoundaries
  refine ⟨?_, ?_, ?_, ?_, ?_, ?_⟩
  · intro door i v s hdoor hlo hhi
    obtain ⟨hen, hrate, -⟩ := grCfgFields_ok i
    obtain ⟨hapart, -⟩ := grCfgFields_apart i
    have hframe : RegFrame [GR_CFG_EN i, GR_CFG_RATE i] s ((s.enWritten i v).set (GR_CFG_RATE i) (getBits v 0 4)) :=
      .set (.set (.refl _ _ s) (by simp) hen) (by simp) hrate
    obtain ⟨hrest, hregs, hothers, hslot⟩ := cfgPending_kept (i := i) hframe
    refine ⟨_, (exec_grCfgWrite hdoor).trans (congrArg _ (writeGrCfg_allowed hlo hhi)), ?_, ?_, ?_, ?_, ?_, hrest, hregs, hothers⟩
    · rw [cfgPending_get, State.get_set_ne _ _ _ _ hrate hapart, enWritten_en]
    · rw [cfgPending_get, State.get_set_same _ _ _ hrate]
      exact Nat.mod_eq_of_lt (getBits_lt v 0 4)
    all_goals rw [hslot]
  · intro door i v s hdoor hforbidden
    obtain ⟨hen, -, hrej⟩ := grCfgFields_ok i
    obtain ⟨-, hapart, hrejEn, hrejRate⟩ := grCfgFields_apart i
    have hframe : RegFrame [GR_CFG_EN i, GR_EVT_RATEREJ i] s ((s.enWritten i v).event (GR_EVT_RATEREJ i)) :=
      .event (.set (.refl _ _ s) (by simp) hen) (by simp) hrej
    obtain ⟨hrest, hregs, -, -⟩ := cfgPending_kept (i := i) hframe
    refine ⟨_, (exec_grCfgWrite hdoor).trans (congrArg _ (writeGrCfg_forbidden hforbidden)), ?_, ?_, ?_, hrest, hregs⟩
    · rw [cfgPending_get, State.get_event_same _ _ hrej rfl]
    · rw [cfgPending_get, State.get_event_ne _ _ _ hrej hrejRate, State.enWritten, State.get_set_ne _ _ _ _ hen hapart]
    · rw [cfgPending_get, State.get_event_ne _ _ _ hrej hrejEn, enWritten_en]
  · intro i w S s hlive hstopped hmode hpend hS htakes hready hen hcfg
    obtain ⟨hown, hothers, hrest, hflash⟩ := slotChange_enables (s := s) (i := i) (S := S) (s.get (GR_CFG_RATE i))
    exact ⟨_, (exec_grCfgApply hlive hstopped hmode hpend hS htakes hready).trans (congrArg _ (applyGrCfg_enables hready hen hcfg)),
      (congrArg SlotState.en hown :), (congrArg SlotState.rate hown :), (congrArg SlotState.pendCfg hown :), (congrArg SlotState.nextT hown :),
      (congrArg SlotState.queued hown :), enableSlot_shown (s.taken i) i _ S, (congrArg SlotState.everEnabled hown :), hothers, hrest, hflash⟩
  · intro i w S s hlive hstopped hmode hpend hS htakes hready hen hcfg hdue
    have hover : applyGrCfg s i S = disableSlot (s.ending i S) i :=
      (applyGrCfg_disables hready hen hcfg).trans (finishChange_over ending_chg (by rw [ending_nextT]; exact hdue))
    obtain ⟨r, hown, hothers, hrest, hflash⟩ := slotChange_disables (s := s) (i := i) (S := S)
    exact ⟨_, (exec_grCfgApply hlive hstopped hmode hpend hS htakes hready).trans (congrArg _ hover),
      (congrArg SlotState.en hown :), (congrArg SlotState.nextT hown :), (congrArg SlotState.lastT hown :), (congrArg SlotState.queued hown :),
      disableSlot_shown (s.ending i S) i, (congrArg SlotState.pendCfg hown :), (congrArg SlotState.chg hown :), hothers, hrest, hflash⟩
  · intro i w S u s hlive hstopped hmode hpend hS htakes hready hen hcfg hnext hu
    have hwaits : applyGrCfg s i S = s.ending i S :=
      (applyGrCfg_disables hready hen hcfg).trans (finishChange_waits ending_chg (by rw [ending_nextT, hnext]; simpa using hu))
    refine ⟨_, (exec_grCfgApply hlive hstopped hmode hpend hS htakes hready).trans (congrArg _ hwaits), ending_slot, fun j hj => ?_, rfl⟩
    rw [State.ending, modSlot_other _ _ _ _ hj.symm, State.taken, modSlot_other _ _ _ _ hj.symm]
  · intro i w S s hlive hstopped hmode hpend hS htakes hready hen hcfg hrate hnext hresume _
    obtain ⟨hown, hothers, hrest, hflash⟩ := slotChange_recodes (s.get (GR_CFG_RATE i)) hen hresume hnext
    have hslot : (s.taken i).slots[i] = { s.slots[i] with pendCfg := none } := modSlot_self s i _
    refine ⟨_, (exec_grCfgApply hlive hstopped hmode hpend hS htakes hready).trans (congrArg _ (applyGrCfg_recodes hready hen hcfg hrate)),
      ?_, (congrArg SlotState.rate hown :), (congrArg SlotState.pendCfg hown :), (congrArg SlotState.chg hown :), (congrArg SlotState.nextT hown :),
      (congrArg SlotState.queued hown :), fun hi => ?_, hothers, hrest, hflash⟩
    · exact ((congrArg SlotState.en hown :) : _ = s.slots[i].en).trans hen
    · exact rateSlot_shown _ S (by rw [hslot]; exact hen) (by rw [hslot]; exact hresume) hi (by rw [hslot]; exact hnext)

end Sys2Proof.Machine
end

section
/-!
PROOFS. What stands beside self-calibration (09), and what the times of its deferrals and slewings (09 R231, R238) leave as it was; a signed field reads back the number it was given.
-/

namespace Sys2Proof.Machine

/-! ### What stands beside self-calibration -/

/-- Only fields of l and self-calibration differ. -/
abbrev CalFrame (l : List Field) (s t : State) : Prop := ViewFrame besideCal l s t

section
variable {l : List Field} {s t u : State} {f : Field}

theorem CalFrame.set {n : Nat} (h : CalFrame l s t) (hf : f ∈ l) (hok : f.ok) : CalFrame l s (t.set f n) := ViewFrame.set h hf hok rfl

theorem CalFrame.event (h : CalFrame l s t) (hf : f ∈ l) (hok : f.ok) : CalFrame l s (t.event f) := ViewFrame.event h hf hok rfl

theorem CalFrame.modCal {i : Fin 10} {g : CalAxis → CalAxis} (h : CalFrame l s t) : CalFrame l s (t.modCal i g) := ViewFrame.modCal h rfl

/-- Self-calibration's own state is no part of a frame. -/
theorem CalFrame.cal {c : CalState} (h : CalFrame l s t) : CalFrame l s { t with cal := c } := h.beside rfl rfl

theorem besideCal_event (s : State) (f : Field) : besideCal (s.event f) = besideCal s := rfl

theorem rest_of_besideCal (h : besideCal t = besideCal s) : { t with regs := s.regs, cal := s.cal, fresh := s.fresh } = s :=
  (congrArg (fun x : State => { x with regs := s.regs, cal := s.cal, fresh := s.fresh }) h :)

theorem CalFrame.rest (h : CalFrame l s t) : { t with regs := s.regs, cal := s.cal, fresh := s.fresh } = s := rest_of_besideCal h.kept

theorem modCal_self (s : State) (i : Fin 10) (g : CalAxis → CalAxis) : (s.modCal i g).cal.axes[i] = g s.cal.axes[i] := by simp

theorem modCal_other {i j : Fin 10} (s : State) (g : CalAxis → CalAxis) (h : i ≠ j) : (s.modCal i g).cal.axes[j] = s.cal.axes[j] := by
  have hval : i.val ≠ j.val := fun e => h (Fin.ext e)
  simp [Vector.getElem_set_ne _ _ hval]

end

/-! ### The times of deferrals and slewings -/

/-- An axis without the times of its slewings and of its deferrals by slope. -/
def CalAxis.timeless (x : CalAxis) : CalAxis := { x with slews := [], therm := [] }

/-- A state without the times of its axes' slewings and deferrals by slope. -/
def State.timeless (s : State) : State := { s with cal := { s.cal with axes := s.cal.axes.map CalAxis.timeless } }

section
variable {s t : State} {i : Fin 10}

theorem timeless_modCal {g : CalAxis → CalAxis} (hg : ∀ x, (g x).timeless = x.timeless) : (s.modCal i g).timeless = s.timeless := by
  have hsame : (s.cal.axes.set i (g s.cal.axes[i])).map CalAxis.timeless = s.cal.axes.map CalAxis.timeless := by
    rw [Vector.map_set, hg]
    ext k hk : 1
    rw [Vector.getElem_set]
    split
    · subst k
      exact (Vector.getElem_map _ _).symm
    · rfl
  exact congrArg (fun v => { s with cal := { s.cal with axes := v } }) hsame

theorem thermUpdate_timeless (s : State) : (thermUpdate s).timeless = s.timeless := by
  unfold thermUpdate
  refine foldl_leaves State.timeless _ _ (fun t i => ?_) s
  exact timeless_modCal fun _ => rfl

theorem axis_of_timeless (h : t.timeless = s.timeless) (i : Fin 10) : t.cal.axes[i].timeless = s.cal.axes[i].timeless := by
  simpa [State.timeless] using congrArg (fun x : State => x.cal.axes[i]) h

/-- What does not read the times of slewings and deferrals is the same in two states that differ in nothing else. -/
theorem eq_of_timeless {β : Type} (v : State → β) (hv : ∀ x, v x.timeless = v x) (h : t.timeless = s.timeless) : v t = v s :=
  (hv t).symm.trans ((congrArg v h).trans (hv s))

theorem CalAxis.eq_of_timeless {β : Type} {x y : CalAxis} (v : CalAxis → β) (hv : ∀ x, v x.timeless = v x) (h : x.timeless = y.timeless) : v x = v y :=
  (hv x).symm.trans ((congrArg v h).trans (hv y))

theorem get_of_timeless (h : t.timeless = s.timeless) (f : Field) : t.get f = s.get f := eq_of_timeless (fun x => x.get f) (fun _ => rfl) h

theorem frame_of_timeless (h : t.timeless = s.timeless) (l : List Field) : CalFrame l s t :=
  (ViewFrame.refl _ l s).beside (eq_of_timeless State.regs (fun _ => rfl) h) (eq_of_timeless besideCal (fun _ => rfl) h)

theorem CalFrame.thermUpdate {l : List Field} (h : CalFrame l s t) : CalFrame l s (thermUpdate t) := h.trans (frame_of_timeless (thermUpdate_timeless t) l)

theorem thermUpdate_get (s : State) (f : Field) : (Machine.thermUpdate s).get f = s.get f := get_of_timeless (thermUpdate_timeless s) f

end

/-! ### Signed fields -/

theorem signed_twos {v : Int} {w : Nat} (hw : 0 < w) (hlo : -2 ^ (w - 1) ≤ v) (hhi : v < 2 ^ (w - 1)) : signed (twos v w % 2 ^ w) w = v := by
  obtain ⟨k, rfl⟩ : ∃ k, w = k + 1 := ⟨w - 1, by omega⟩
  have hpos : (0 : Int) < 2 ^ k := Int.pow_pos (by decide)
  have hdouble : (2 : Int) ^ (k + 1) = 2 * 2 ^ k := by ring
  have hcast : ((2 ^ k : Nat) : Int) = 2 ^ k := by push_cast; rfl
  have hnat : (2 : Nat) ^ (k + 1) = 2 * 2 ^ k := by ring
  simp only [Nat.add_sub_cancel] at hlo hhi
  simp only [signed, twos, Nat.add_sub_cancel, hdouble, hnat]
  generalize (2 : Int) ^ k = p at *
  generalize (2 : Nat) ^ k = q at *
  subst hcast
  have hmod : v % (2 * (q : Int)) = if v < 0 then v + 2 * q else v := by
    split
    · rw [← Int.add_emod_right, Int.emod_eq_of_lt (by omega) (by omega)]
    · exact Int.emod_eq_of_lt (by omega) (by omega)
  rw [hmod]
  split <;> rw [Nat.mod_eq_of_lt (by omega)] <;> split <;> omega

theorem signed_bounds {n w : Nat} (hw : 0 < w) (hn : n < 2 ^ w) : -2 ^ (w - 1) ≤ signed n w ∧ signed n w < 2 ^ (w - 1) := by
  obtain ⟨k, rfl⟩ : ∃ k, w = k + 1 := ⟨w - 1, by omega⟩
  have hdouble : (2 : Int) ^ (k + 1) = 2 * 2 ^ k := by ring
  have hcast : ((2 ^ k : Nat) : Int) = 2 ^ k := by push_cast; rfl
  have hnat : (2 : Nat) ^ (k + 1) = 2 * 2 ^ k := by ring
  simp only [signed, Nat.add_sub_cancel, hdouble]
  rw [hnat] at hn
  split <;> omega

theorem State.getI_setI_same (s : State) (f : Field) {v : Int} (hok : f.ok) (hw : 0 < f.width) (hlo : -2 ^ (f.width - 1) ≤ v) (hhi : v < 2 ^ (f.width - 1)) :
    (s.setI f v).getI f = v := by
  rw [State.getI, State.get_setI_same s f v hok]
  exact signed_twos hw hlo hhi

theorem getI_congr {s t : State} {f : Field} (h : t.get f = s.get f) : t.getI f = s.getI f := by simp only [State.getI, h]

theorem clampInt_bounds {lo hi : Int} (h : lo ≤ hi) (x : Int) : lo ≤ clampInt lo hi x ∧ clampInt lo hi x ≤ hi := by
  unfold clampInt
  split
  · omega
  · split <;> omega

end Sys2Proof.Machine
end

section
/-!
PROOFS. Scheduling self-calibration (09 R226, R228 to R233): its triggers, the slope once per grid second, the deferral that follows it, and the start of the next run.
-/

namespace Sys2Proof.Machine

/-! ### Triggers (09 R228) -/

/-- An axis, after a change g of its own state, is PENDING by a trigger that is deferred by slope or not (09 R228), before the times of its deferral follow. -/
def State.pendingBy (s : State) (i : Fin 10) (g : CalAxis → CalAxis) (slope : Bool) : State :=
  ((s.modCal i g).set (CAL_ST_STATE i) 1).modCal i fun x => { x with nosl := !slope, due := false }

theorem calState_ok (i : Fin 10) : (CAL_ST_STATE i).ok := by decide +revert

section
variable {s : State} {i : Fin 10} (g : CalAxis → CalAxis) (slope degr : Bool)

theorem calTrigger_idle (h : s.get (CAL_ST_STATE i) = 0) : calTrigger (s.modCal i g) i slope degr = thermUpdate (s.pendingBy i g slope) := by
  simp [calTrigger, h, State.pendingBy]

theorem calTrigger_degraded (h : s.get (CAL_ST_STATE i) = 4) : calTrigger (s.modCal i g) i slope true = thermUpdate (s.pendingBy i g slope) := by
  simp [calTrigger, h, State.pendingBy]

theorem calTrigger_ignored (h : s.get (CAL_ST_STATE i) = 4) : calTrigger (s.modCal i g) i slope false = thermUpdate (s.modCal i g) := by
  simp [calTrigger, h]

end

/-- From s to t the axis, after a change g of its own state, became PENDING by one trigger. -/
structure Triggered (i : Fin 10) (g : CalAxis → CalAxis) (slope : Bool) (s t : State) : Prop where
  state : t.get (CAL_ST_STATE i) = 1
  axis : t.cal.axes[i].timeless = { g s.cal.axes[i] with nosl := !slope, due := false }.timeless
  frame : CalFrame [CAL_ST_STATE i] s t

theorem pendingBy_triggered (s : State) (i : Fin 10) (g : CalAxis → CalAxis) (slope : Bool) : Triggered i g slope s (thermUpdate (s.pendingBy i g slope)) where
  state := (thermUpdate_get _ _).trans (State.get_set_same (s.modCal i g) _ 1 (calState_ok i))
  axis := by
    rw [axis_of_timeless (thermUpdate_timeless _) i, State.pendingBy, modCal_self, State.set_cal, modCal_self]
  frame := (CalFrame.set (CalFrame.modCal (.refl _ _ s)) List.mem_cons_self (calState_ok i)).modCal.thermUpdate

/-! ### The slope once per grid second (09 R230) -/

/-- The slope of largest magnitude as a grid second ends, in 1/256 of 0.01 °C/min. -/
def endingSlope (s : State) : Int := worstSlope ((s.cal.means.map TempMean.second).toList.map TempMean.slope)

/-- The means of a grid second that ended, its slope shown, and n calm seconds counted. -/
def State.slopeShown (s : State) (n : Nat) : State :=
  { s with cal := { s.cal with means := s.cal.means.map TempMean.second, slopeSec := s.second, calm := n } }.setI CAL_GST_SLOPE
    (clampInt (-32768) 32767 (roundEven (endingSlope s) 256))

section
variable {s : State} (halive : s.alive = true) (hsec : s.second ≠ s.cal.slopeSec)
include halive hsec

theorem exec_calSlopeUpdate_steep (hsteep : 51200 < absNat (endingSlope s)) :
    exec .calSlopeUpdate s = .next (thermUpdate ((s.slopeShown 0).set CAL_GST_DEFER 1)) := by
  change execCalSlopeUpdate s = _
  unfold execCalSlopeUpdate
  rw [if_pos ⟨halive, hsec⟩]
  exact congrArg (fun t => Host.Outcome.next (thermUpdate t)) (if_pos hsteep)

theorem exec_calSlopeUpdate_calm (hcalm : absNat (endingSlope s) ≤ 51200) :
    exec .calSlopeUpdate s = .next (thermUpdate (if 30 ≤ s.cal.calm + 1 then (s.slopeShown (s.cal.calm + 1)).set CAL_GST_DEFER 0 else s.slopeShown (s.cal.calm + 1))) := by
  change execCalSlopeUpdate s = _
  unfold execCalSlopeUpdate
  rw [if_pos ⟨halive, hsec⟩]
  exact congrArg (fun t => Host.Outcome.next (thermUpdate t)) (if_neg (Nat.not_lt.2 hcalm))

end

section
variable (s : State) (n : Nat)

theorem slopeShown_slope : (s.slopeShown n).getI CAL_GST_SLOPE = clampInt (-32768) 32767 (roundEven (endingSlope s) 256) := by
  obtain ⟨hlo, hhi⟩ := clampInt_bounds (lo := -32768) (hi := 32767) (by decide) (roundEven (endingSlope s) 256)
  exact State.getI_setI_same _ CAL_GST_SLOPE (by decide) (by decide) hlo (Int.lt_add_one_of_le hhi)

theorem slopeShown_frame : CalFrame [CAL_GST_SLOPE] s (s.slopeShown n) := ViewFrame.setI (CalFrame.cal (.refl _ _ s)) (by simp) (by decide) rfl

end

/-- From s to t a grid second's slope was shown and n calm seconds counted; whether the slope defers runs shows apart. -/
structure SlopeUpdated (n : Nat) (s t : State) : Prop where
  slope : t.getI CAL_GST_SLOPE = clampInt (-32768) 32767 (roundEven (endingSlope s) 256)
  means : t.cal.means = s.cal.means.map TempMean.second
  second : t.cal.slopeSec = s.second
  calm : t.cal.calm = n

theorem slopeUpdated_of {s u : State} {n : Nat} (hget : u.get CAL_GST_SLOPE = (s.slopeShown n).get CAL_GST_SLOPE) (hcal : u.cal = (s.slopeShown n).cal) :
    SlopeUpdated n s (thermUpdate u) where
  slope := (getI_congr ((thermUpdate_get u _).trans hget)).trans (slopeShown_slope s n)
  means := (eq_of_timeless (fun x => x.cal.means) (fun _ => rfl) (thermUpdate_timeless u)).trans (congrArg CalState.means hcal)
  second := (eq_of_timeless (fun x => x.cal.slopeSec) (fun _ => rfl) (thermUpdate_timeless u)).trans (congrArg CalState.slopeSec hcal)
  calm := (eq_of_timeless (fun x => x.cal.calm) (fun _ => rfl) (thermUpdate_timeless u)).trans (congrArg CalState.calm hcal)

section
variable (s : State) (n d : Nat)

theorem deferShown_updated : SlopeUpdated n s (thermUpdate ((s.slopeShown n).set CAL_GST_DEFER d)) :=
  slopeUpdated_of (State.get_set_ne _ _ _ _ (by decide) (by decide)) rfl

theorem deferShown_frame : CalFrame [CAL_GST_SLOPE, CAL_GST_DEFER] s (thermUpdate ((s.slopeShown n).set CAL_GST_DEFER d)) :=
  (CalFrame.set ((slopeShown_frame s n).mono (by simp)) (by simp) (by decide)).thermUpdate

theorem deferShown_defer : (thermUpdate ((s.slopeShown n).set CAL_GST_DEFER d)).get CAL_GST_DEFER = d % 2 :=
  (thermUpdate_get _ _).trans (State.get_set_same _ _ _ (by decide))

end

/-! ### The start of a run (09 R233, R234) -/

/-- The state beside what a request of an injection changes (05 R137). -/
def besideHk (s : State) : State := { s with regs := [], hk := {}, fresh := [] }

/-- The state beside what the start of a run changes. -/
def besideStart (s : State) : State :=
  { s with regs := [], axes := Vector.replicate 10 {}, hk := {}, slots := Vector.replicate 16 {}, cal := {}, fresh := [] }

/-- The fields that a request of injection 1 changes. -/
def requestFields : List Field := [wholeWord 0x831, HK_ST_INJPEND, HK_CNT_INJMRG, HK_CNT_ABORTS]

/-- The fields by which a run shows its start on its axis. -/
def startFields (i : Fin 10) : List Field := CAL_ST_STATE i :: CAL_GST_RUNAX :: countFields i

/-- The axis is held and its range frozen as a run starts (09 R234), before the watched temperature is asked for. -/
def State.runHeld (s : State) (i : Fin 10) : State :=
  let u := clearQuiet ((s.set (CAL_ST_STATE i) 2).set CAL_GST_RUNAX i) i
  let u := u.modCal i fun x => { x with due := false, nosl := false, retry := false, aband := false, named := false }
  let u := { u with cal := { u.cal with phase := 1, bad := false, exc := 0, drvAmp := 0 } }
  u.modSlot (axisSlot i) fun x => { x with holdFrom := some s.now, holdTo := none }

theorem requestInj_frame (s : State) (k : Nat) : ViewFrame besideHk requestFields s (requestInj s k) := by
  have hpend : ViewFrame besideHk requestFields s (s.set HK_ST_INJPEND (s.get HK_ST_INJPEND + 2 ^ k)) :=
    .set (.refl _ _ s) (by simp [requestFields]) (by decide) rfl
  unfold requestInj
  exact .ite (.bump (.refl _ _ s) (by simp [requestFields]) (by decide) rfl)
    (.ite (.bump (hpend.beside rfl rfl) (by simp [requestFields]) (by decide) rfl) hpend)

/-- A first request of an injection shows it pending (05 R137). -/
theorem requestInj_pending {s : State} {k : Nat} (hnone : s.get HK_ST_INJPEND = 0) (hk : k < 3) : (requestInj s k).get HK_ST_INJPEND = 2 ^ k := by
  have hset : (s.set HK_ST_INJPEND (s.get HK_ST_INJPEND + 2 ^ k)).get HK_ST_INJPEND = 2 ^ k := by
    rw [State.get_set_same _ _ _ (by decide), hnone, Nat.zero_add]
    exact Nat.mod_eq_of_lt (Nat.pow_lt_pow_right (by decide) hk)
  unfold requestInj
  rw [if_neg (by simp [injPending, hnone])]
  dsimp only
  split
  · exact (State.get_bump_ne _ _ _ _ (by decide) (by decide)).trans hset
  · exact hset

section
variable {l : List Field} {s t : State}

theorem ViewFrame.cal_of_besideHk (h : ViewFrame besideHk l s t) : t.cal = s.cal := (congrArg State.cal h.kept :)

theorem ViewFrame.slots_of_besideHk (h : ViewFrame besideHk l s t) : t.slots = s.slots := (congrArg State.slots h.kept :)

theorem ViewFrame.start_of_besideHk (h : ViewFrame besideHk l s t) : besideStart t = besideStart s := (congrArg besideStart h.kept :)

theorem rest_of_besideStart (h : besideStart t = besideStart s) :
    { t with regs := s.regs, cal := s.cal, slots := s.slots, axes := s.axes, hk := s.hk, fresh := s.fresh } = s :=
  (congrArg (fun x : State => { x with regs := s.regs, cal := s.cal, slots := s.slots, axes := s.axes, hk := s.hk, fresh := s.fresh }) h :)

end

section
variable (s : State) (i : Fin 10)

theorem requestSup_eq (n : Nat) : ∃ w, requestSup s n = requestInj (s.setWord 0x831 w) 1 := ⟨_, rfl⟩

theorem requestSup_frame (n : Nat) : ViewFrame besideHk requestFields s (requestSup s n) := by
  obtain ⟨w, hw⟩ := requestSup_eq s n
  rw [hw]
  exact .trans (.setWord (.refl _ _ s) (by simp [requestFields]) rfl) (requestInj_frame _ 1)

theorem requestSup_pending (n : Nat) (hnone : s.get HK_ST_INJPEND = 0) : (requestSup s n).get HK_ST_INJPEND = 2 := by
  obtain ⟨w, hw⟩ := requestSup_eq s n
  rw [hw]
  exact requestInj_pending (k := 1) ((State.get_setWord_ne _ _ _ _ (by decide)).trans hnone) (by decide)

theorem startRun_eq : startRun s i = thermUpdate (requestSup (s.runHeld i) (if isG i then 2 else 1)) := rfl

theorem countFields_apart_start : ∀ f ∈ countFields i, f.apart (CAL_ST_STATE i) ∧ f.apart CAL_GST_RUNAX := by decide +revert

theorem startFields_apart_pending : ∀ f ∈ startFields i, f.apart HK_ST_INJPEND := by decide +revert

theorem requestFields_apart_start : ∀ f ∈ requestFields, f.apart (CAL_ST_STATE i) ∧ f.apart CAL_GST_RUNAX := by decide +revert

theorem clearQuiet_countFrame : ViewFrame (besideAxis i) (countFields i) s (clearQuiet s i) := restartCount_frame s i

theorem runHeld_get (g : Field) : (s.runHeld i).get g = (clearQuiet ((s.set (CAL_ST_STATE i) 2).set CAL_GST_RUNAX i) i).get g := by
  simp only [State.runHeld, State.get, State.word, State.modSlot_regs, State.modCal_regs]

theorem runax_apart_state : CAL_GST_RUNAX.apart (CAL_ST_STATE i) := by decide +revert

theorem runHeld_state : (s.runHeld i).get (CAL_ST_STATE i) = 2 := by
  rw [runHeld_get, (clearQuiet_countFrame _ i).get _ fun f hf => (countFields_apart_start i f hf).1,
    State.get_set_ne _ CAL_GST_RUNAX _ _ (by decide) (runax_apart_state i), State.get_set_same _ _ _ (calState_ok i)]
  rfl

theorem runHeld_runax : (s.runHeld i).get CAL_GST_RUNAX = i.val := by
  rw [runHeld_get, (clearQuiet_countFrame _ i).get _ fun f hf => (countFields_apart_start i f hf).2, State.get_set_same _ CAL_GST_RUNAX _ (by decide)]
  exact Nat.mod_eq_of_lt (Nat.lt_trans i.isLt (by decide))

theorem runHeld_pending : (s.runHeld i).get HK_ST_INJPEND = s.get HK_ST_INJPEND := by
  have happart := startFields_apart_pending i
  simp only [startFields, List.forall_mem_cons] at happart
  obtain ⟨hstate, hrunax, hcount⟩ := happart
  rw [runHeld_get, (clearQuiet_countFrame _ i).get _ hcount, State.get_set_ne _ CAL_GST_RUNAX _ _ (by decide) hrunax,
    State.get_set_ne _ _ _ _ (calState_ok i) hstate]

theorem runHeld_phase : (s.runHeld i).cal.phase = 1 := by simp only [State.runHeld, State.modSlot_cal]

theorem runHeld_due : (s.runHeld i).cal.axes[i].due = false := by
  simp only [State.runHeld, State.modSlot_cal]
  exact congrArg CalAxis.due (modCal_self _ i _)

theorem runHeld_slot : (s.runHeld i).slots[axisSlot i] = { s.slots[axisSlot i] with holdFrom := some s.now, holdTo := none } := modSlot_self _ _ _

theorem runHeld_kept : besideStart (s.runHeld i) = besideStart s := rfl

/-- What the start of a run shows, and what it leaves (09 R234). -/
structure RunStarted (t : State) : Prop where
  state : t.get (CAL_ST_STATE i) = 2
  runax : t.get CAL_GST_RUNAX = i.val
  phase : t.cal.phase = 1
  due : t.cal.axes[i].due = false
  slot : t.slots[axisSlot i] = { s.slots[axisSlot i] with holdFrom := some s.now, holdTo := none }
  kept : besideStart t = besideStart s

theorem startRun_started : RunStarted s i (startRun s i) := by
  rw [startRun_eq]
  generalize (if isG i then 2 else 1) = n
  have hasked := requestSup_frame (s.runHeld i) n
  have htherm := thermUpdate_timeless (requestSup (s.runHeld i) n)
  refine ⟨?_, ?_, ?_, ?_, ?_, ?_⟩
  · rw [thermUpdate_get, hasked.get _ fun f hf => (requestFields_apart_start i f hf).1, runHeld_state]
  · rw [thermUpdate_get, hasked.get _ fun f hf => (requestFields_apart_start i f hf).2, runHeld_runax]
  · exact (eq_of_timeless (fun x => x.cal.phase) (fun _ => rfl) htherm).trans ((congrArg CalState.phase hasked.cal_of_besideHk).trans (runHeld_phase s i))
  · refine (CalAxis.eq_of_timeless CalAxis.due (fun _ => rfl) (axis_of_timeless htherm i)).trans ?_
    rw [hasked.cal_of_besideHk, runHeld_due]
  · refine (eq_of_timeless (fun x => x.slots[axisSlot i]) (fun _ => rfl) htherm).trans ?_
    rw [hasked.slots_of_besideHk, runHeld_slot]
  · exact (eq_of_timeless besideStart (fun _ => rfl) htherm).trans (hasked.start_of_besideHk.trans (runHeld_kept s i))

variable {s i}

/-- The next run starts only while no injection is pending (09 R233, 05 R142). -/
theorem nextRun_noInjection (h : nextRun s = some i) : s.get HK_ST_INJPEND = 0 := by
  unfold nextRun at h
  split at h
  · next hfree =>
    simp only [Bool.and_eq_true, beq_iff_eq] at hfree
    obtain ⟨⟨-, hpend⟩, -⟩ := hfree
    exact hpend
  · cases h

theorem startRun_injection (h : nextRun s = some i) : (startRun s i).get HK_ST_INJPEND = 2 := by
  rw [startRun_eq, thermUpdate_get]
  exact requestSup_pending _ _ ((runHeld_pending s i).trans (nextRun_noInjection h))

end

/-! ### CAL_CMD.RUN (09 R228, R247) -/

/-- CAL_CMD.RUN's turn on one axis. -/
def runNamed (mask : Nat) (s : State) (i : Fin 10) : State :=
  if mask.testBit i then calTrigger (s.modCal i fun x => { x with named := true }) i false true else s

section
variable {s : State} {i : Fin 10}

/-- A mask of one axis triggers that axis alone. -/
theorem runNamed_one (s : State) (i : Fin 10) :
    (List.finRange 10).foldl (runNamed (2 ^ i.val)) s = calTrigger (s.modCal i fun x => { x with named := true }) i false true := by
  have hother (t : State) (j : Fin 10) (hj : j ≠ i) : runNamed (2 ^ i.val) t j = t :=
    if_neg (by simpa [Nat.testBit_two_pow] using fun e => hj (Fin.ext e.symm))
  obtain ⟨t, rfl, hfold⟩ := foldl_once id (runNamed (2 ^ i.val)) i hother (List.finRange 10) (List.nodup_finRange 10) (List.mem_finRange i) s
  exact hfold.trans (if_pos (by simp))

theorem calRunOp_accepted (mask : Nat) (hmode : s.mode = 9) (hbusy : s.get SCAL_ST_BUSY = 0) :
    calRunOp s mask = (List.finRange 10).foldl (runNamed mask) s := by
  have hbit : s.bit SCAL_ST_BUSY = false := State.bit_of_get_zero hbusy
  unfold calRunOp
  exact if_neg (by simp [hmode, hbit])

theorem calRunOp_rejected (mask : Nat) (h : s.mode ≠ 9 ∨ s.get SCAL_ST_BUSY = 1) : calRunOp s mask = s.event CAL_EVT_CMDREJ :=
  if_pos (h.imp_right State.bit_of_get_one)

/-- CAL_CMD.RUN makes an IDLE or DEGRADED axis PENDING (09 R228). -/
theorem runNamed_pending (h : s.get (CAL_ST_STATE i) = 0 ∨ s.get (CAL_ST_STATE i) = 4) :
    (List.finRange 10).foldl (runNamed (2 ^ i.val)) s = thermUpdate (s.pendingBy i (fun x => { x with named := true }) false) :=
  (runNamed_one s i).trans (h.elim (calTrigger_idle _ _ _) (calTrigger_degraded _ _))

theorem exec_calRunCmd {door : Initiator} (mask : Nat) (h : doorOpen s door 0x1001 = true) : exec (.calRunCmd door mask) s = .next (calRunOp s mask) :=
  congrArg Host.Outcome.next (atDoor_open _ _ _ _ h)

theorem exec_calRunStart (halive : s.alive = true) (h : nextRun s = some i) : exec .calRunStart s = .next (startRun s i) := by
  change execCalRunStart s = _
  simp only [execCalRunStart, halive, h, if_true]

theorem exec_calRetryTimer (halive : s.alive = true) (h : s.cal.axes[i].retry = true) :
    exec (.calRetryTimer i) s = .next (calTrigger (s.modCal i fun x => { x with retry := false }) i true false) := congrArg Host.Outcome.next (if_pos ⟨halive, h⟩)

theorem exec_calAbandonRetry (halive : s.alive = true) (h : s.cal.axes[i].aband = true) :
    exec (.calAbandonRetry i) s = .next (calTrigger (s.modCal i fun x => { x with aband := false }) i true false) := congrArg Host.Outcome.next (if_pos ⟨halive, h⟩)

theorem calEvent_frame {f : Field} (s : State) (hok : f.ok) : RegFrame [f] s (s.event f) := RegFrame.event (.refl _ _ s) List.mem_cons_self hok

end

/-- Settles O29: a trigger puts an axis that is IDLE, or named while DEGRADED, in PENDING; each grid second's slope is shown with the deferral that follows it; the next run holds its
axis and asks for its temperature. -/
theorem calibrationRunsAreScheduled : Obligations.CalibrationRunsAreScheduled := by
  unfold Obligations.CalibrationRunsAreScheduled
  refine ⟨?_, ?_, ?_, ?_, ?_, ?_, ?_, ?_, ?_⟩
  · intro i s halive hretry hidle
    obtain ⟨hstate, haxis, hframe⟩ := pendingBy_triggered s i (fun x => { x with retry := false }) true
    exact ⟨_, (exec_calRetryTimer halive hretry).trans (congrArg _ (calTrigger_idle _ true false hidle)), hstate, CalAxis.eq_of_timeless CalAxis.retry (fun _ => rfl) haxis,
      CalAxis.eq_of_timeless CalAxis.nosl (fun _ => rfl) haxis, hframe.rest, hframe.regs⟩
  · intro i s halive haband hdegraded
    have htherm := thermUpdate_timeless (s.modCal i fun x => { x with aband := false })
    have haxis := axis_of_timeless htherm i
    rw [modCal_self] at haxis
    exact ⟨_, (exec_calAbandonRetry halive haband).trans (congrArg _ (calTrigger_ignored _ true hdegraded)), (thermUpdate_get _ _).trans hdegraded,
      CalAxis.eq_of_timeless CalAxis.aband (fun _ => rfl) haxis, eq_of_timeless (fun x => { x with cal := s.cal }) (fun _ => rfl) htherm⟩
  · intro i s halive haband hidle
    obtain ⟨hstate, haxis, hframe⟩ := pendingBy_triggered s i (fun x => { x with aband := false }) true
    exact ⟨_, (exec_calAbandonRetry halive haband).trans (congrArg _ (calTrigger_idle _ true false hidle)), hstate, CalAxis.eq_of_timeless CalAxis.aband (fun _ => rfl) haxis,
      hframe.rest, hframe.regs⟩
  · rintro _ s halive rfl hsec hsteep
    obtain ⟨hslope, hmeans, hsecond, hcalm⟩ := deferShown_updated s 0 1
    have hframe := deferShown_frame s 0 1
    exact ⟨_, exec_calSlopeUpdate_steep halive hsec hsteep, hslope, hmeans, hsecond, deferShown_defer s 0 1, hcalm, hframe.rest, hframe.regs⟩
  · rintro _ s halive rfl hsec hcalm hlast
    obtain ⟨hslope, hmeans, hsecond, hcount⟩ := deferShown_updated s (s.cal.calm + 1) 0
    have hframe := deferShown_frame s (s.cal.calm + 1) 0
    have hexec := exec_calSlopeUpdate_calm halive hsec hcalm
    rw [if_pos (Nat.succ_le_succ hlast)] at hexec
    exact ⟨_, hexec, hslope, hmeans, hsecond, deferShown_defer s _ 0, hcount, hframe.rest, hframe.regs⟩
  · rintro _ s halive rfl hsec hcalm hearly
    obtain ⟨hslope, hmeans, hsecond, -⟩ := slopeUpdated_of (s := s) (n := s.cal.calm + 1) rfl rfl
    have hframe := (slopeShown_frame s (s.cal.calm + 1)).thermUpdate
    have hexec := exec_calSlopeUpdate_calm halive hsec hcalm
    rw [if_neg (by omega)] at hexec
    exact ⟨_, hexec, hslope, hmeans, hsecond, hframe.get _ (by decide), hframe.rest, hframe.regs⟩
  · intro i s halive hnext
    have hstarted := startRun_started s i
    have hpending : ((startRun s i).get HK_ST_INJPEND).testBit 1 = true := by
      rw [startRun_injection hnext]
      decide
    exact ⟨_, exec_calRunStart halive hnext, hstarted.state, hstarted.runax, hstarted.phase, hstarted.due, (congrArg SlotState.holdFrom hstarted.slot :),
      (congrArg SlotState.holdTo hstarted.slot :), hpending, rest_of_besideStart hstarted.kept⟩
  · rintro door _ i s hdoor hmode hbusy rfl hcalled
    obtain ⟨hstate, haxis, hframe⟩ := pendingBy_triggered s i (fun x => { x with named := true }) false
    exact ⟨_, (exec_calRunCmd _ hdoor).trans (congrArg _ ((calRunOp_accepted _ hmode hbusy).trans (runNamed_pending hcalled))), hstate,
      CalAxis.eq_of_timeless CalAxis.named (fun _ => rfl) haxis, CalAxis.eq_of_timeless CalAxis.nosl (fun _ => rfl) haxis, hframe.rest, hframe.regs⟩
  · intro door mask s hdoor hreject
    exact ⟨_, (exec_calRunCmd mask hdoor).trans (congrArg _ (calRunOp_rejected mask hreject)), State.get_event_same _ _ (by decide) rfl,
      (calEvent_frame s (by decide)).onlyFields⟩

end Sys2Proof.Machine
end

section
/-!
PROOFS. The calibration store (09 R243 to R245): the snapshot, the open view, a commit that is refused or takes the written store axis by axis, and the closed view.
-/

namespace Sys2Proof.Machine

/-! ### The shadow's fields -/

section
variable {s t : State} {f : Field}

theorem shadowField_congr (h : t.cal.shadow = s.cal.shadow) : shadowField t f = shadowField s f := by simp only [shadowField, shadowWord, h]

theorem getI_setI_shadow (u : State) (hok : f.ok) (hw : 0 < f.width) : (u.setI f (shadowField s f)).getI f = shadowField s f := by
  obtain ⟨hlo, hhi⟩ := signed_bounds hw (getBits_lt (shadowWord s f.word) f.lo f.width)
  exact State.getI_setI_same u f hok hw hlo hhi

end

/-! ### A commit takes an axis (09 R245) -/

/-- The axis with the targets that the shadow of s holds for axis i. -/
def CalAxis.retargeted (x : CalAxis) (s : State) (i : Fin 10) : CalAxis :=
  { x with
    ofsDac := shadowField s (CAL_OFS_DAC i), ofsRes := shadowField s (CAL_OFS_RES i), gainDac := shadowField s (CAL_GAIN_DAC i),
    gainRes := shadowField s (CAL_GAIN_RES i), hadRun := true }

/-- The axis with no run due. -/
def CalAxis.undue (x : CalAxis) : CalAxis := { x with due := false }

/-- The state with the axis's targets and reference temperature taken. -/
def State.targetsTaken (s : State) (i : Fin 10) : State :=
  let u := s.modCal i fun x => x.retargeted s i
  u.setI (CAL_TREF_TREF i) (shadowField u (CAL_TREF_TREF i))

/-- The state with the axis at rest, or PENDING where it was or a run is due. -/
def State.axisRested (s : State) (i : Fin 10) : State := if s.get (CAL_ST_STATE i) = 1 then s else s.setB (CAL_ST_STATE i) s.cal.axes[i].due

/-- A commit's turn on one axis. -/
def takeAxis (s : State) (i : Fin 10) : State := (((s.targetsTaken i).axisRested i).modCal i CalAxis.undue).set (CAL_ST_FAILS i) 0

/-- The fields of an axis that a commit changes. -/
def takenFields (i : Fin 10) : List Field := [CAL_TREF_TREF i, CAL_ST_STATE i, CAL_ST_FAILS i]

theorem takenFields_ok (i : Fin 10) : ∀ f ∈ takenFields i, f.ok := by decide +revert

section
variable (s : State) (i : Fin 10)

theorem axisRested_frame : CalFrame (takenFields i) s (s.axisRested i) := by
  unfold State.axisRested
  exact .ite (.refl _ _ s) (ViewFrame.setB (.refl _ _ s) (by simp [takenFields]) (takenFields_ok i _ (by simp [takenFields])) rfl)

theorem targetsTaken_frame : CalFrame (takenFields i) s (s.targetsTaken i) :=
  ViewFrame.setI (CalFrame.modCal (.refl _ _ s)) (by simp [takenFields]) (takenFields_ok i _ (by simp [takenFields])) rfl

theorem takeAxis_frame : CalFrame (takenFields i) s (takeAxis s i) :=
  CalFrame.set (CalFrame.modCal ((targetsTaken_frame s i).trans (axisRested_frame _ i))) (by simp [takenFields]) (takenFields_ok i _ (by simp [takenFields]))

theorem axisRested_cal : (s.axisRested i).cal = s.cal := by
  unfold State.axisRested
  split <;> rfl

theorem axisRested_state : (s.axisRested i).get (CAL_ST_STATE i) = if s.get (CAL_ST_STATE i) = 1 ∨ s.cal.axes[i].due = true then 1 else 0 := by
  unfold State.axisRested
  by_cases hpending : s.get (CAL_ST_STATE i) = 1
  · rw [if_pos hpending, if_pos (.inl hpending), hpending]
  · rw [if_neg hpending]
    refine (State.get_set_same _ _ _ (calState_ok i)).trans ?_
    simp only [hpending, false_or]
    cases s.cal.axes[i].due <;> rfl

theorem targetsTaken_axis : (s.targetsTaken i).cal.axes[i] = s.cal.axes[i].retargeted s i := by rw [State.targetsTaken, State.setI_cal, modCal_self]

theorem takeAxis_axis : (takeAxis s i).cal.axes[i] = (s.cal.axes[i].retargeted s i).undue := by
  rw [takeAxis, State.set_cal, modCal_self, axisRested_cal, targetsTaken_axis]

theorem takeAxis_shadow : (takeAxis s i).cal.shadow = s.cal.shadow := (congrArg CalState.shadow (axisRested_cal (s.targetsTaken i) i) :)

theorem takenFields_apart : (CAL_ST_FAILS i).apart (CAL_ST_STATE i) ∧ (CAL_TREF_TREF i).apart (CAL_ST_STATE i) ∧ (CAL_ST_FAILS i).apart (CAL_TREF_TREF i) ∧
    (CAL_ST_STATE i).apart (CAL_TREF_TREF i) := by decide +revert

theorem takeAxis_state : (takeAxis s i).get (CAL_ST_STATE i) = if s.get (CAL_ST_STATE i) = 1 ∨ s.cal.axes[i].due = true then 1 else 0 := by
  obtain ⟨hfails, htref, -, -⟩ := takenFields_apart i
  have hstate : (s.targetsTaken i).get (CAL_ST_STATE i) = s.get (CAL_ST_STATE i) := State.get_setI_ne _ _ _ _ (takenFields_ok i _ (by simp [takenFields])) htref
  have hrested := axisRested_state (s.targetsTaken i) i
  rw [hstate, targetsTaken_axis] at hrested
  exact (State.get_set_ne _ _ _ _ (takenFields_ok i _ (by simp [takenFields])) hfails).trans hrested

theorem takeAxis_fails : (takeAxis s i).get (CAL_ST_FAILS i) = 0 :=
  (State.get_set_same _ _ _ (takenFields_ok i _ (by simp [takenFields]))).trans (Nat.zero_mod _)

theorem takeAxis_tref : (takeAxis s i).getI (CAL_TREF_TREF i) = shadowField s (CAL_TREF_TREF i) := by
  obtain ⟨-, -, hfails, hstate⟩ := takenFields_apart i
  have hrested : ((s.targetsTaken i).axisRested i).get (CAL_TREF_TREF i) = (s.targetsTaken i).get (CAL_TREF_TREF i) := by
    unfold State.axisRested
    split
    · rfl
    · exact State.get_setB_ne _ _ _ _ (calState_ok i) hstate
  have hkept : (takeAxis s i).get (CAL_TREF_TREF i) = (s.targetsTaken i).get (CAL_TREF_TREF i) :=
    (State.get_set_ne _ _ _ _ (takenFields_ok i _ (by simp [takenFields])) hfails).trans hrested
  rw [getI_congr hkept, State.targetsTaken, getI_setI_shadow _ (takenFields_ok i _ (by simp [takenFields])) (by decide : 0 < 16)]
  exact shadowField_congr rfl

end

/-! ### A commit takes every axis -/

/-- What a commit reads and changes of one axis, with the shadow. -/
def takenView (i : Fin 10) (s : State) : CalAxis × List Word × Nat × Nat × Nat :=
  (s.cal.axes[i], s.cal.shadow, s.get (CAL_ST_STATE i), s.get (CAL_ST_FAILS i), s.get (CAL_TREF_TREF i))

/-- Every axis taken from the shadow. -/
def State.axesTaken (s : State) : State := (List.finRange 10).foldl takeAxis s

/-- The fields of the axes that a commit changes. -/
def axesTakenFields : List Field := (List.finRange 10).flatMap takenFields

section
variable (s : State) (i : Fin 10)

theorem takenFields_apart_other {j : Fin 10} (h : j ≠ i) : ∀ f ∈ takenFields j, ∀ g ∈ takenFields i, f.apart g := by decide +revert

theorem takenView_other {j : Fin 10} (h : j ≠ i) : takenView i (takeAxis s j) = takenView i s := by
  have hget {g : Field} (hg : g ∈ takenFields i) : (takeAxis s j).get g = s.get g := (takeAxis_frame s j).get g fun f hf => takenFields_apart_other i h f hf g hg
  have haxis : (takeAxis s j).cal.axes[i] = s.cal.axes[i] := by
    rw [takeAxis, State.set_cal, modCal_other _ _ h, axisRested_cal, State.targetsTaken, State.setI_cal, modCal_other _ _ h]
  simp only [takenView, haxis, takeAxis_shadow, hget (g := CAL_ST_STATE i) (by simp [takenFields]), hget (g := CAL_ST_FAILS i) (by simp [takenFields]),
    hget (g := CAL_TREF_TREF i) (by simp [takenFields])]

/-- What a commit makes of an axis of s (09 R245). -/
structure AxisTaken (t : State) : Prop where
  axis : t.cal.axes[i].timeless = (s.cal.axes[i].retargeted s i).undue.timeless
  state : t.get (CAL_ST_STATE i) = if s.get (CAL_ST_STATE i) = 1 ∨ s.cal.axes[i].due = true then 1 else 0
  fails : t.get (CAL_ST_FAILS i) = 0
  tref : t.getI (CAL_TREF_TREF i) = shadowField s (CAL_TREF_TREF i)

theorem axesTaken_taken : AxisTaken s i s.axesTaken := by
  obtain ⟨u, hu, hfold⟩ := foldl_once (takenView i) takeAxis i (fun t _ h => takenView_other t i h) (List.finRange 10) (List.nodup_finRange 10) (List.mem_finRange i) s
  simp only [takenView, Prod.mk.injEq] at hu hfold
  obtain ⟨huaxis, hushadow, hustate, -, -⟩ := hu
  obtain ⟨haxis, -, hstate, hfails, htref⟩ := hfold
  have hfield (f : Field) : shadowField u f = shadowField s f := shadowField_congr hushadow
  refine ⟨congrArg CalAxis.timeless (haxis.trans ?_), hstate.trans ?_, hfails.trans (takeAxis_fails u i), (getI_congr htref).trans ?_⟩
  · rw [takeAxis_axis, huaxis]
    simp only [CalAxis.retargeted, hfield]
  · rw [takeAxis_state, huaxis, hustate]
  · rw [takeAxis_tref, hfield]

variable {s i}

/-- A commit that begins with s's self-calibration and state of the axis takes it as one from s does. -/
theorem AxisTaken.of_cal {t u : State} (h : AxisTaken u i t) (hcal : u.cal = s.cal) (hstate : u.get (CAL_ST_STATE i) = s.get (CAL_ST_STATE i)) : AxisTaken s i t := by
  have hfield (f : Field) : shadowField u f = shadowField s f := shadowField_congr (congrArg CalState.shadow hcal)
  obtain ⟨haxis, hshown, hfails, htref⟩ := h
  refine ⟨haxis.trans ?_, hshown.trans ?_, hfails, htref.trans (hfield _)⟩
  · simp only [CalAxis.retargeted, hfield, hcal]
  · rw [hcal, hstate]

variable (s)

theorem axesTaken_frame : CalFrame axesTakenFields s s.axesTaken :=
  List.foldlRecOn (List.finRange 10) takeAxis (motive := fun t => CalFrame axesTakenFields s t) (.refl _ _ s) fun t ht j hj =>
    ht.trans ((takeAxis_frame t j).mono fun _ hf => List.mem_flatMap.2 ⟨j, hj, hf⟩)

theorem axesTaken_shadow : s.axesTaken.cal.shadow = s.cal.shadow := foldl_leaves (fun t => t.cal.shadow) _ takeAxis takeAxis_shadow s

end

/-! ### The rest of the store -/

/-- The class B reference temperature and the drive trim's target taken. -/
def State.sharedTaken (s : State) : State :=
  let u := s.setI CAL_TREFB_TREF (shadowField s CAL_TREFB_TREF)
  { u with cal := { u.cal with drvTarget := shadowField u CAL_DRV_DAC } }

/-- The fields beside the axes that a commit changes. -/
def sharedFields : List Field := [CAL_TREFB_TREF, CAL_EVT_BLIMIT, wholeWord 0x1042, CAL_GST_BWALK]

/-- The taps that a commit takes from the shadow. -/
def shadowTaps (s : State) : List Nat :=
  portTapLo.map (tapOf (shadowWord s 0x1041)) ++ strobeLo.map (tapOf (shadowWord s 0x1043)) ++ strobeLo.map (tapOf (shadowWord s 0x1044)) ++
    [8, 0].map (tapOf (shadowWord s 0x1045))

/-- The slewings that have nothing left to step ended. -/
def State.slewsSettled (s : State) : State := (List.finRange 10).foldl settleSlews s

theorem takeStore_eq (s : State) :
    takeStore s = showWalk (thermUpdate (setTaps s.axesTaken.sharedTaken.slewsSettled (shadowTaps s.axesTaken.sharedTaken.slewsSettled))) := rfl

section
variable (s : State) (raw : List Nat)

theorem slewsSettled_timeless : s.slewsSettled.timeless = s.timeless := by
  refine foldl_leaves State.timeless _ _ (fun t i => ?_) s
  unfold settleSlews
  split
  · exact timeless_modCal fun _ => rfl
  · rfl

theorem setTaps_frame : CalFrame sharedFields s (setTaps s raw) := by
  have hlimit : CalFrame sharedFields s (if raw = raw.map limitTap then s else s.event CAL_EVT_BLIMIT) :=
    .ite (.refl _ _ s) (CalFrame.event (.refl _ _ s) (by simp [sharedFields]) (by decide))
  exact CalFrame.cal (ViewFrame.setWord hlimit (by simp [sharedFields]) rfl)

theorem setTaps_axes : (setTaps s raw).cal.axes = s.cal.axes ∧ (setTaps s raw).cal.drvTarget = s.cal.drvTarget := by
  unfold setTaps
  dsimp only
  split <;> exact ⟨rfl, rfl⟩

theorem sharedTaken_frame : CalFrame sharedFields s s.sharedTaken := CalFrame.cal (ViewFrame.setI (.refl _ _ s) (by simp [sharedFields]) (by decide) rfl)

theorem sharedTaken_trefb : s.sharedTaken.getI CAL_TREFB_TREF = shadowField s CAL_TREFB_TREF := getI_setI_shadow s (by decide) (by decide)

theorem sharedTaken_drive : s.sharedTaken.cal.drvTarget = shadowField s CAL_DRV_DAC := shadowField_congr rfl

theorem showWalk_frame : CalFrame sharedFields s (showWalk s) := ViewFrame.setB (.refl _ _ s) (by simp [sharedFields]) (by decide) rfl

theorem setTaps_trefb : (setTaps s raw).get CAL_TREFB_TREF = s.get CAL_TREFB_TREF := by
  unfold setTaps
  dsimp only
  refine (State.get_setWord_ne _ _ _ _ (by decide)).trans ?_
  split
  · rfl
  · exact State.get_event_ne _ _ _ (by decide) (by decide)

/-- What a commit leaves of s (09 R245): the axes, the class B reference temperature and the drive trim's target taken, and nothing else beside the store's registers. -/
structure StoreTaken (t : State) : Prop where
  axes : ∀ i, AxisTaken s i t
  drive : t.cal.drvTarget = shadowField s CAL_DRV_DAC
  trefb : t.getI CAL_TREFB_TREF = shadowField s CAL_TREFB_TREF
  frame : CalFrame (axesTakenFields ++ sharedFields) s t

theorem sharedFields_apart (i : Fin 10) : ∀ f ∈ sharedFields, f.apart (CAL_ST_STATE i) ∧ f.apart (CAL_ST_FAILS i) ∧ f.apart (CAL_TREF_TREF i) := by decide +revert

theorem takeStore_taken : StoreTaken s (takeStore s) := by
  rw [takeStore_eq]
  generalize shadowTaps s.axesTaken.sharedTaken.slewsSettled = raw
  have hslews := slewsSettled_timeless s.axesTaken.sharedTaken
  obtain ⟨haxes, hdrive⟩ := setTaps_axes s.axesTaken.sharedTaken.slewsSettled raw
  have htherm := thermUpdate_timeless (setTaps s.axesTaken.sharedTaken.slewsSettled raw)
  have hshadow (f : Field) : shadowField s.axesTaken f = shadowField s f := shadowField_congr (axesTaken_shadow s)
  have hrest : CalFrame sharedFields s.axesTaken (showWalk (thermUpdate (setTaps s.axesTaken.sharedTaken.slewsSettled raw))) :=
    (CalFrame.thermUpdate (((sharedTaken_frame _).trans (frame_of_timeless hslews _)).trans (setTaps_frame _ raw))).trans (showWalk_frame _)
  refine ⟨fun i => ?_, ?_, ?_, ?_⟩
  · have htaken := axesTaken_taken s i
    have happart := sharedFields_apart i
    refine ⟨?_, (hrest.get _ fun f hf => (happart f hf).1).trans htaken.state, (hrest.get _ fun f hf => (happart f hf).2.1).trans htaken.fails,
      (getI_congr (hrest.get _ fun f hf => (happart f hf).2.2)).trans htaken.tref⟩
    refine (axis_of_timeless htherm i).trans ?_
    rw [haxes]
    exact (axis_of_timeless hslews i).trans htaken.axis
  · refine (eq_of_timeless (fun x => x.cal.drvTarget) (fun _ => rfl) htherm).trans (hdrive.trans ?_)
    exact (eq_of_timeless (fun x => x.cal.drvTarget) (fun _ => rfl) hslews).trans ((sharedTaken_drive _).trans (hshadow _))
  · have htrefb : (showWalk (thermUpdate (setTaps s.axesTaken.sharedTaken.slewsSettled raw))).get CAL_TREFB_TREF = s.axesTaken.sharedTaken.get CAL_TREFB_TREF := by
      refine (State.get_setB_ne _ _ _ _ (by decide) (by decide)).trans ?_
      rw [thermUpdate_get, setTaps_trefb, get_of_timeless hslews]
    exact (getI_congr htrefb).trans ((sharedTaken_trefb _).trans (hshadow _))
  · exact ((axesTaken_frame s).mono fun _ hf => List.mem_append_left _ hf).trans (hrest.mono fun _ hf => List.mem_append_right _ hf)

end

/-! ### The commands -/

/-- A commit closes the view and shows its result. -/
def State.commitShown (s : State) (why : Nat) : State := (s.set CAL_RSTST_VIEW 0).set CAL_RSTST_RES why

section
variable (s : State) (why : Nat)

theorem commitShown_frame : RegFrame [CAL_RSTST_RES, CAL_RSTST_VIEW] s (s.commitShown why) :=
  RegFrame.set (RegFrame.set (.refl _ _ s) (by simp) (by decide)) (by simp) (by decide)

theorem commitShown_view : (s.commitShown why).get CAL_RSTST_VIEW = 0 :=
  (State.get_set_ne _ _ _ _ (by decide) (by decide)).trans (State.get_set_same _ _ _ (by decide))

theorem commitShown_res {why : Nat} (h : why < 256) : (s.commitShown why).get CAL_RSTST_RES = why :=
  (State.get_set_same _ _ _ (by decide)).trans (Nat.mod_eq_of_lt h)

variable {s}

theorem calCommitOp_refused (h : commitRefusal s ≠ 0) : calCommitOp s = (s.commitShown (commitRefusal s)).event CAL_EVT_RSTREJ := if_neg h

variable {door : Initiator} (hdoor : doorOpen s door 0x1006 = true)
include hdoor

theorem exec_calSnapshot : exec (.calSnapshot door) s = .next (calSnapshotOp s) := congrArg Host.Outcome.next (atDoor_open _ _ _ _ hdoor)

theorem exec_calOpen : exec (.calOpen door) s = .next (calOpenOp s) := congrArg Host.Outcome.next (atDoor_open _ _ _ _ hdoor)

theorem exec_calCommit : exec (.calCommit door) s = .next (calCommitOp s) := congrArg Host.Outcome.next (atDoor_open _ _ _ _ hdoor)

theorem exec_calClose : exec (.calClose door) s = .next (calCloseOp s) := congrArg Host.Outcome.next (atDoor_open _ _ _ _ hdoor)

end

theorem setView_frame (s : State) (n : Nat) : RegFrame [CAL_RSTST_VIEW] s (s.set CAL_RSTST_VIEW n) := RegFrame.set (.refl _ _ s) List.mem_cons_self (by decide)

theorem setView_view (s : State) {n : Nat} (h : n < 4) : (s.set CAL_RSTST_VIEW n).get CAL_RSTST_VIEW = n :=
  (State.get_set_same _ _ _ (by decide)).trans (Nat.mod_eq_of_lt h)

/-! ### An accepted commit -/

/-- The state after a commit that passes R245's checks. -/
def State.committed (s : State) : State := (takeStore (s.commitShown 0)).event CAL_EVT_RSTOK

theorem calCommitOp_accepted {s : State} (h : commitRefusal s = 0) : calCommitOp s = s.committed := by
  unfold calCommitOp
  rw [h]
  rfl

/-- The store's fields are apart from what shows a commit's result. -/
theorem storeFields_apart_result : ∀ f ∈ axesTakenFields ++ sharedFields, f.apart CAL_RSTST_RES ∧ f.apart CAL_RSTST_VIEW := by decide

theorem storeFields_apart_offset (i : Fin 10) : ∀ f ∈ axesTakenFields ++ sharedFields, f.apart (CAL_OFS_DAC i) := by decide +revert

theorem rstok_apart_axis (i : Fin 10) : CAL_EVT_RSTOK.apart (CAL_ST_STATE i) ∧ CAL_EVT_RSTOK.apart (CAL_ST_FAILS i) ∧ CAL_EVT_RSTOK.apart (CAL_TREF_TREF i) ∧
    CAL_EVT_RSTOK.apart (CAL_OFS_DAC i) := by decide +revert

theorem resultFields_apart_axis (i : Fin 10) : ∀ f ∈ [CAL_RSTST_RES, CAL_RSTST_VIEW], f.apart (CAL_ST_STATE i) ∧ f.apart (CAL_OFS_DAC i) := by decide +revert

section
variable (s : State)

theorem committed_get {g : Field} (hg : CAL_EVT_RSTOK.apart g) : s.committed.get g = (takeStore (s.commitShown 0)).get g :=
  State.get_event_ne _ _ _ (by decide) hg

theorem committed_cal : s.committed.cal = (takeStore (s.commitShown 0)).cal := State.event_cal _ _

theorem committed_kept : besideCal s.committed = besideCal s := by
  have htaken : besideCal (takeStore (s.commitShown 0)) = besideCal (s.commitShown 0) := (takeStore_taken _).frame.kept
  exact (besideCal_event _ _).trans htaken

theorem committed_result : s.committed.get CAL_RSTST_RES = 0 ∧ s.committed.get CAL_RSTST_VIEW = 0 := by
  have hframe := (takeStore_taken (s.commitShown 0)).frame
  rw [committed_get s (by decide), committed_get s (by decide), hframe.get _ fun f hf => (storeFields_apart_result f hf).1,
    hframe.get _ fun f hf => (storeFields_apart_result f hf).2]
  exact ⟨commitShown_res s (by decide), commitShown_view s 0⟩

theorem committed_axis (i : Fin 10) : AxisTaken s i s.committed := by
  obtain ⟨hstate, hfails, htref, -⟩ := rstok_apart_axis i
  have hshown : (s.commitShown 0).get (CAL_ST_STATE i) = s.get (CAL_ST_STATE i) := (commitShown_frame s 0).get _ fun f hf => (resultFields_apart_axis i f hf).1
  obtain ⟨haxis, hpending, hnone, hreference⟩ := ((takeStore_taken (s.commitShown 0)).axes i).of_cal (s := s) rfl hshown
  exact ⟨by rw [committed_cal, haxis], (committed_get s hstate).trans hpending, (committed_get s hfails).trans hnone,
    (getI_congr (committed_get s htref)).trans hreference⟩

/-- A commit makes targets of the offset trims; those in use are as before. -/
theorem committed_offset (i : Fin 10) : s.committed.getI (CAL_OFS_DAC i) = s.getI (CAL_OFS_DAC i) := by
  obtain ⟨-, -, -, hofs⟩ := rstok_apart_axis i
  refine getI_congr ((committed_get s hofs).trans (((takeStore_taken _).frame.get _ (storeFields_apart_offset i)).trans ?_))
  exact (commitShown_frame s 0).get _ fun f hf => (resultFields_apart_axis i f hf).2

theorem committed_drive : s.committed.cal.drvTarget = shadowField s CAL_DRV_DAC := by
  rw [committed_cal, (takeStore_taken _).drive]
  exact shadowField_congr rfl

theorem committed_trefb : s.committed.getI CAL_TREFB_TREF = shadowField s CAL_TREFB_TREF := by
  rw [getI_congr (committed_get s (by decide)), (takeStore_taken _).trefb]
  exact shadowField_congr rfl

end

/-- Settles O31: a snapshot copies the live store, a refused commit only shows its reason, and an accepted one takes every axis and the shared targets from the shadow; each
command sets the view. -/
theorem calibrationStoreIsSavedAndRestored : Obligations.CalibrationStoreIsSavedAndRestored := by
  unfold Obligations.CalibrationStoreIsSavedAndRestored
  refine ⟨?_, ?_, ?_, ?_, ?_⟩
  · intro door s hdoor
    have hframe : CalFrame [CAL_RSTST_VIEW] s (calSnapshotOp s) := CalFrame.set (CalFrame.cal (.refl _ _ s)) List.mem_cons_self (by decide)
    exact ⟨_, exec_calSnapshot hdoor, setView_view _ (by decide), rfl, hframe.rest, hframe.regs⟩
  · intro door s hdoor
    exact ⟨_, exec_calOpen hdoor, setView_view s (by decide), (setView_frame s 2).onlyFields⟩
  · rintro door _ s hdoor rfl hwhy hlt
    have hframe : RegFrame [CAL_RSTST_RES, CAL_RSTST_VIEW, CAL_EVT_RSTREJ] s ((s.commitShown (commitRefusal s)).event CAL_EVT_RSTREJ) :=
      RegFrame.event ((commitShown_frame s _).mono (by simp)) (by simp) (by decide)
    have hget (g : Field) (hg : CAL_EVT_RSTREJ.apart g) := State.get_event_ne (s.commitShown (commitRefusal s)) CAL_EVT_RSTREJ g (by decide) hg
    exact ⟨_, (exec_calCommit hdoor).trans (congrArg _ (calCommitOp_refused hwhy)), (hget _ (by decide)).trans (commitShown_res s hlt),
      (hget _ (by decide)).trans (commitShown_view s _), State.get_event_same _ _ (by decide) rfl, hframe.onlyFields⟩
  · intro door s hdoor hpass
    obtain ⟨hres, hview⟩ := committed_result s
    refine ⟨_, (exec_calCommit hdoor).trans (congrArg _ (calCommitOp_accepted hpass)), hres, hview, State.get_event_same _ _ (by decide) rfl, fun i => ?_, fun i => ?_,
      committed_drive s, committed_trefb s, rest_of_besideCal (committed_kept s)⟩
    · obtain ⟨haxis, hstate, hfails, htref⟩ := committed_axis s i
      exact ⟨CalAxis.eq_of_timeless CalAxis.ofsDac (fun _ => rfl) haxis, hfails, htref, hstate⟩
    · have haxis := (committed_axis s i).axis
      exact ⟨CalAxis.eq_of_timeless CalAxis.gainDac (fun _ => rfl) haxis, CalAxis.eq_of_timeless CalAxis.ofsRes (fun _ => rfl) haxis,
        CalAxis.eq_of_timeless CalAxis.due (fun _ => rfl) haxis, committed_offset s i⟩
  · intro door s hdoor
    exact ⟨_, exec_calClose hdoor, setView_view s (by decide), (setView_frame s 0).onlyFields⟩

end Sys2Proof.Machine
end

section
/-!
PROOFS. A failed run's end (09 R241, R242) restarts the down count of its axis's range (04 R106), whose registers the statement's frame leaves out.
-/

namespace Sys2Proof.Machine

section
variable (s : State) (i : Fin 10)

theorem clearQuiet_dnhold : (clearQuiet s i).get (AX_ST_DNHOLD i) = 0 := restartCount_dnhold s i

/-- The end of a run restarts the down count, which shows 0 from then on (04 R106). -/
theorem endRun_dnhold : (endRun s i).get (AX_ST_DNHOLD i) = 0 := by
  unfold endRun
  dsimp only
  split
  · rw [State.modAxis_get, clearQuiet_dnhold]
  · exact clearQuiet_dnhold _ i

/-- The fields that a failed run's result changes (09 R241, R242). -/
def failFields (i : Fin 10) : List Field := [CAL_EVT_FAIL, CAL_ST_FAILS i, CAL_ST_REASON i, CAL_ST_STATE i, CAL_EVT_DEGR]

theorem failFields_ok : ∀ f ∈ failFields i, f.ok := by decide +revert

theorem calRest_frame : CalFrame (failFields i) s (calRest s i) := by
  have hset (n : Nat) : CalFrame (failFields i) s (s.set (CAL_ST_STATE i) n) := CalFrame.set (.refl _ _ s) (by simp [failFields]) (calState_ok i)
  unfold calRest
  exact CalFrame.thermUpdate (.ite (hset 1).modCal (hset _))

theorem failRun_frame (why : Nat) : CalFrame (failFields i) s (failRun s i why) := by
  have hok := failFields_ok i
  have hfail : CalFrame (failFields i) s (s.event CAL_EVT_FAIL) := CalFrame.event (.refl _ _ s) (by simp [failFields]) (by decide)
  have hcounted (n : Nat) := CalFrame.set (n := n) hfail (show CAL_ST_FAILS i ∈ failFields i by simp [failFields]) (hok _ (by simp [failFields]))
  have hnoted (n : Nat) := (CalFrame.set (n := why) (hcounted n) (show CAL_ST_REASON i ∈ failFields i by simp [failFields]) (hok _ (by simp [failFields]))).modCal
    (i := i) (g := fun x => { x with retry := true })
  have hdegraded {t : State} (h : CalFrame (failFields i) s t) : CalFrame (failFields i) s ((t.set (CAL_ST_STATE i) 4).event CAL_EVT_DEGR) :=
    CalFrame.event (CalFrame.set h (by simp [failFields]) (calState_ok i)) (by simp [failFields]) (by decide)
  unfold failRun noteRunQ
  exact .ite (hdegraded (hnoted _).modCal).modCal.thermUpdate ((hnoted _).modCal.trans (calRest_frame _ i))

theorem failFields_apart_dnhold : ∀ f ∈ failFields i, f.apart (AX_ST_DNHOLD i) := by decide +revert

/-- After a failed run the down count shows 0. -/
theorem failedRun_dnhold (why : Nat) : (failRun (endRun s i) i why).get (AX_ST_DNHOLD i) = 0 :=
  ((failRun_frame _ i why).get _ (failFields_apart_dnhold i)).trans (endRun_dnhold s i)

variable {s i}

theorem exec_calRunEnd_fails {m : CalMeasure} (halive : s.alive = true) (hrun : runAxis s = some i) (hfail : runFailure s i m ≠ 0) :
    exec (.calRunEnd m) s = .next (failRun (endRun s i) i (runFailure s i m)) := by
  change execCalRunEnd m s = _
  simp only [execCalRunEnd, halive, hrun, hfail, if_true, if_false]

end

/-- Axis 0 runs, with a housekeeping result that was not settled, and its range shows a down count. -/
def failingRunWithCount : State :=
  { (({ State.reset with pwr := { phase := .running, booted := true } }.set (CAL_ST_STATE 0) 2).set CAL_GST_RUNAX 0).set (AX_ST_DNHOLD 0) 1 with
    cal := { phase := 4, exc := 10000, bad := true } }

theorem failingRunWithCount_dnhold : failingRunWithCount.get (AX_ST_DNHOLD 0) = 1 := by decide

theorem failingRunWithCount_run : runAxis failingRunWithCount = some 0 := by decide

theorem failingRunWithCount_fails : runFailure failingRunWithCount 0 {} = 5 := by decide

/-- Refutes O30: the end of a failed run restarts the axis's down count (04 R106), so that AX_ST.DNHOLD of `failingRunWithCount` falls to 0, while the statement's frame leaves the
axis's registers as they were. The model keeps the count at 0 while a run goes on; the statement ranges over every state, this one among them. -/
theorem not_calibrationRunsEndAndSlew : ¬ Obligations.CalibrationRunsEndAndSlew := by
  unfold Obligations.CalibrationRunsEndAndSlew
  rintro ⟨-, hfailed, -⟩
  obtain ⟨t, ht, -, -, -, -, -, -, -, hframe⟩ :=
    hfailed {} 0 5 failingRunWithCount (by decide) failingRunWithCount_run failingRunWithCount_fails (by decide) (by decide) (by decide)
  rw [exec_calRunEnd_fails (by decide) failingRunWithCount_run (by rw [failingRunWithCount_fails]; decide)] at ht
  obtain rfl := Host.Outcome.next.inj ht
  have hkept := get_of_sameBut hframe (AX_ST_DNHOLD 0) (by decide)
  exact absurd ((failedRun_dnhold _ 0 _).symm.trans (hkept.trans failingRunWithCount_dnhold)) (by decide)

end Sys2Proof.Machine
end

section
/-!
PROOFS. The cycle of WORK after a lost heartbeat of ANA (01 R28), with the refutation of the statement about accounting faults and heartbeats: what a target of the interrupt
controller serves is not bounded in the state.
-/

namespace Sys2Proof.Machine

/-- The loss of ANA's heartbeat as SUP notes it: in the event log, and among the cycles of the last hour. -/
def State.anaLossNoted (s : State) : State :=
  (s.log (.event 28)).modModes fun x => { x with workLost := true, cycles := within s x.cycles 3600 }

theorem exec_anaHeartbeatLoss_cycles {s : State} (hlive : s.live = true) (hon : s.get ID_DOMST_WSTATE = 2) (hfew : (within s s.modes.cycles 3600).length < 3) :
    exec .anaHeartbeatLoss s = .next ((workDown s.anaLossNoted).modModes fun x => { x with workAgain := true }) := by
  change execAnaHeartbeatLoss s = _
  unfold execAnaHeartbeatLoss
  rw [if_pos (by simp [hlive, hon])]
  exact congrArg Host.Outcome.next (if_neg (Nat.not_le.2 hfew))

/-- The pending bit (18 R463) of source 24096, which is none of the 160, would be AN_ST.RUN0. -/
theorem pendBit_beyond_is_run0 : pendBit 24096 = AN_ST_RUN0 := rfl

/-- WORK is on, and ANA0 serves a source beyond the 160. -/
def servingBeyondSources : State :=
  { State.reset with
    pwr := { phase := .running, booted := true }
    bus := { targets := (Vector.replicate 4 ({} : IrqTarget)).set 2 { active := some (24096, 0, false) } } }.set ID_DOMST_WSTATE 2

theorem servingBeyondSources_live : servingBeyondSources.live = true := by decide

theorem servingBeyondSources_on : servingBeyondSources.get ID_DOMST_WSTATE = 2 := by decide

theorem servingBeyondSources_few : (within servingBeyondSources servingBeyondSources.modes.cycles 3600).length < 3 := by decide

set_option maxRecDepth 8000 in
/-- WORK's power-down halts ANA0 and then saves its active source as pending again (18 R456). -/
theorem servingBeyondSources_workDown : (workDown servingBeyondSources.anaLossNoted).get AN_ST_RUN0 = 1 := by decide

/-- Refutes O11: ANA's heartbeat is lost while ANA0 serves source 24096 in `servingBeyondSources`, whose pending bit, set again as WORK goes down, is AN_ST.RUN0; the statement has
RUN0 at 0. The model's claims return one of 160 sources; the statement ranges over every state, this one among them. -/
theorem not_faultsEnterSafeOrRestartTheirProcessor : ¬ Obligations.FaultsEnterSafeOrRestartTheirProcessor := by
  unfold Obligations.FaultsEnterSafeOrRestartTheirProcessor
  rintro ⟨-, -, -, hana, -⟩
  obtain ⟨t, ht, -, -, -, -, -, hrun, -⟩ :=
    hana servingBeyondSources servingBeyondSources_live servingBeyondSources_on servingBeyondSources_few
  rw [exec_anaHeartbeatLoss_cycles servingBeyondSources_live servingBeyondSources_on servingBeyondSources_few] at ht
  obtain rfl := Host.Outcome.next.inj ht
  rw [State.modModes_get, servingBeyondSources_workDown] at hrun
  exact absurd hrun (by decide)

end Sys2Proof.Machine
end

section
/-!
PROOFS. The end of leases as ms pass (10 R263), with the refutation of the statement about it: what a session names as its capture is not bounded in the state.
-/

namespace Sys2Proof.Machine

theorem exec_leaseScan {s : State} (ms : Nat) (h : s.alive = true) : exec (.leaseScan ms) s = .next ((List.finRange 32).foldl (fun s l => ageLease s ms l) s) := by
  change execLeaseScan ms s = _
  simp only [execLeaseScan, h, if_true]

/-- The register that shows a session's state (14 R375) of capture number 0x721, which is none of the 16, would lie in lease 2's word. -/
theorem cyCapState_beyond_in_lease : (CY_CAP_STATE 0x721).word = (LS_KIND 2).word := rfl

/-- Lease 3 of a network holder has no time left, and its session names a capture number beyond the 16. -/
def sessionBeyondCaptures : State :=
  { State.reset with
    pwr := { phase := .running, booted := true }
    net := { sessions := [⟨7, 0x721, 0x80000001, 3, 0, 0, 0, 0⟩] } }.set (LS_KIND 3) 2

theorem sessionBeyondCaptures_alive : sessionBeyondCaptures.alive = true := by decide

theorem sessionBeyondCaptures_lease : sessionBeyondCaptures.get (LS_KIND 2) = 0 ∧ sessionBeyondCaptures.word 0x1182 = 0 := by decide

set_option maxRecDepth 8000 in
/-- Lease 2 comes before lease 3 in the scan, so that what the end of lease 3's session shows stays in its word. -/
theorem sessionBeyondCaptures_scanned :
    ((List.finRange 32).foldl (fun s l => ageLease s 0 l) sessionBeyondCaptures).word 0x1182 = 0x40000000 := by decide

/-- Refutes O33: lease 3 of `sessionBeyondCaptures` expires, and the end of its session (14 R370) shows in the register of capture number 0x721, which lies in the word of lease 2; the
statement leaves the word of a free lease as it was. The model opens a session on one of 16 captures; the statement ranges over every state, this one among them. -/
theorem not_leasesAreGrantedRevokedAndCounted : ¬ Obligations.LeasesAreGrantedRevokedAndCounted := by
  unfold Obligations.LeasesAreGrantedRevokedAndCounted
  rintro ⟨-, -, -, -, -, hscan⟩
  obtain ⟨t, ht, hfree, -⟩ := hscan 0 sessionBeyondCaptures sessionBeyondCaptures_alive
  rw [exec_leaseScan 0 sessionBeyondCaptures_alive] at ht
  obtain rfl := Host.Outcome.next.inj ht
  obtain ⟨hkind, hword⟩ := sessionBeyondCaptures_lease
  have hkept := hfree 2 hkind
  exact absurd (sessionBeyondCaptures_scanned.symm.trans (hkept.trans hword)) (by decide)

end Sys2Proof.Machine
end

section
/-!
PROOFS. The Deck's shown counts and the frames of its operations (10 R255, R265, R267).
-/

namespace Sys2Proof.Machine

/-- The state beside the registers and the Deck. -/
def besideDeck (s : State) : State := { s with regs := [], deck := {}, fresh := [] }

/-- Only fields of l and the Deck differ. -/
abbrev DeckFrame (l : List Field) (s t : State) : Prop := ViewFrame besideDeck l s t

/-- The block counts of 10 R265. -/
def accFields : List Field := [DK_ACC_FREE, DK_ACC_HELD, DK_ACC_FLIGHT]

section
variable {l m : List Field} {s t u : State}

theorem RegFrame.deck (h : RegFrame l s t) : t.deck = s.deck := (congrArg (fun x : State => x.deck) h.kept :)

theorem RegFrame.slots (h : RegFrame l s t) : t.slots = s.slots := (congrArg (fun x : State => x.slots) h.kept :)

theorem RegFrame.deckFrame (h : RegFrame l s t) : DeckFrame l s t := h.through fun x => { x with deck := {} }

theorem DeckFrame.rest (h : DeckFrame l s t) : { t with regs := s.regs, deck := s.deck, fresh := s.fresh } = s :=
  (congrArg (fun x : State => { x with regs := s.regs, deck := s.deck, fresh := s.fresh }) h.kept :)

/-- A change of the Deck alone. -/
theorem DeckFrame.deckOnly (h : DeckFrame l s t) (hu : u = { t with deck := u.deck }) : DeckFrame l s u := by
  rw [hu]
  exact h.beside rfl rfl

theorem DeckFrame.modCap {c : Fin 16} {f : Capture → Capture} (h : DeckFrame l s t) : DeckFrame l s (t.modCap c f) := h.deckOnly rfl

theorem DeckFrame.modRing {i : Fin 16} {f : Ring → Ring} (h : DeckFrame l s t) : DeckFrame l s (t.modRing i f) := h.deckOnly rfl

theorem DeckFrame.set {f : Field} {n : Nat} (h : DeckFrame l s t) (hf : f ∈ l) (hok : f.ok) : DeckFrame l s (t.set f n) := ViewFrame.set h hf hok rfl

theorem DeckFrame.event {f : Field} (h : DeckFrame l s t) (hf : f ∈ l) (hok : f.ok) : DeckFrame l s (t.event f) := ViewFrame.event h hf hok rfl

theorem DeckFrame.regFrame (h : DeckFrame l s t) (k : RegFrame m t u) (hm : ∀ f ∈ m, f ∈ l) : DeckFrame l s u := h.trans (k.deckFrame.mono hm)

end

section
variable (s : State) (i c : Fin 16)

theorem showAcc_frame : RegFrame accFields s (showAcc s) := by
  unfold showAcc
  exact .ite (RegFrame.set (RegFrame.set (RegFrame.set (.refl _ _ s) (by decide) (by decide)) (by decide) (by decide)) (by decide) (by decide)) (.refl _ _ s)

/-- The fields that show a ring's blocks and the block counts. -/
def ringFields : List Field := DK_RING_BLOCKS i :: accFields

theorem ringBlocks_ok (n : Nat) : (DK_RING_BLOCKS n).ok := Nat.le_refl 32

theorem showRing_frame : RegFrame (ringFields i) s (showRing s i) :=
  (RegFrame.set (.refl _ _ s) List.mem_cons_self (ringBlocks_ok i)).trans ((showAcc_frame _).mono fun _ h => List.mem_cons_of_mem _ h)

/-- The fields that show a capture's blocks and the block counts. -/
def capFields : List Field := DK_CAP_BLOCKS c :: accFields

theorem capBlocks_ok (n : Nat) : (DK_CAP_BLOCKS n).ok := Nat.le_of_ble_eq_true rfl

theorem capState_ok (n : Nat) : (DK_CAP_STATE n).ok := Nat.le_refl 32

theorem showCap_frame : RegFrame (capFields c) s (showCap s c) :=
  (RegFrame.set (.refl _ _ s) List.mem_cons_self (capBlocks_ok c)).trans ((showAcc_frame _).mono fun _ h => List.mem_cons_of_mem _ h)

/-- No word of the block counts belongs to a capture definition. -/
theorem accFields_apart {g : Field} (h : 0x1140 ≤ g.word ∨ g.word = 0x1133) : ∀ f ∈ accFields, f.apart g := by
  intro f hf
  have hword : f.word = 0x1131 ∨ f.word = 0x1132 := by
    simp only [accFields, List.mem_cons, List.not_mem_nil, or_false] at hf
    rcases hf with rfl | rfl | rfl <;> decide
  exact .inl (by omega)

theorem showCap_blocks (h : s.deck.caps[c].blocks = []) : (showCap s c).get (DK_CAP_BLOCKS c) = 0 := by
  unfold showCap
  rw [(showAcc_frame _).get _ (accFields_apart (.inl (by simp only [DK_CAP_BLOCKS]; omega))), State.get_set_same _ _ _ (capBlocks_ok c), h]
  rfl

/-- What shows the captures' states stands apart from a capture's count of blocks. -/
theorem capFields_apart_state (d : Fin 16) : ∀ f ∈ capFields c, f.apart (DK_CAP_STATE d) := by
  refine List.forall_mem_cons.2 ⟨.inr (.inl (Nat.le_of_ble_eq_true rfl)), accFields_apart (.inl ?_)⟩
  simp only [DK_CAP_STATE]
  omega

theorem capFields_apart_done : ∀ f ∈ capFields c, f.apart DK_EVT_CAPDONE := by
  refine List.forall_mem_cons.2 ⟨.inl ?_, accFields_apart (.inr rfl)⟩
  simp only [DK_CAP_BLOCKS, DK_EVT_CAPDONE]
  omega

theorem ringFields_apart_state : ∀ f ∈ ringFields i, f.apart (DK_CAP_STATE c) := by
  refine List.forall_mem_cons.2 ⟨.inl ?_, accFields_apart (.inl ?_)⟩
  all_goals simp only [DK_RING_BLOCKS, DK_CAP_STATE]; omega

theorem ringFields_apart_done : ∀ f ∈ ringFields i, f.apart DK_EVT_CAPDONE := by
  refine List.forall_mem_cons.2 ⟨.inl ?_, accFields_apart (.inr rfl)⟩
  simp only [DK_RING_BLOCKS, DK_EVT_CAPDONE]
  omega

end

end Sys2Proof.Machine
end

section
/-!
PROOFS. The triggers of captures (10 R259, R260): which slots and blocks an admitted one takes, and what a refused one shows.
-/

namespace Sys2Proof.Machine

section
variable {s t : State} {c : Fin 16} {now why : Nat}

/-! ### The slots that a definition names -/

theorem capSlots_none (h : s.get (DK_CAP_SLOTS c) = 0) : capSlots s c = [] := by simp [capSlots, h]

theorem capSlots_some (h : 0 < s.get (DK_CAP_SLOTS c)) : (capSlots s c).isEmpty = false := by
  obtain ⟨i, hi⟩ := Nat.exists_testBit_of_ne_zero (Nat.ne_of_gt h)
  have hlt : i < 16 := by
    by_contra hge
    have hbig : s.get (DK_CAP_SLOTS c) < 2 ^ i := Nat.lt_of_lt_of_le (s.get_lt _) (Nat.pow_le_pow_right (by decide) (Nat.le_of_not_lt hge))
    rw [Nat.testBit_lt_two_pow hbig] at hi
    cases hi
  have hmem : (⟨i, hlt⟩ : Fin 16) ∈ capSlots s c := by simp [capSlots, hi]
  exact List.isEmpty_eq_false_iff.2 (List.ne_nil_of_mem hmem)

/-- What a trigger would reserve follows from SLOTS, POST and the slots' rates. -/
theorem capNeed_congr (hslots : t.get (DK_CAP_SLOTS c) = s.get (DK_CAP_SLOTS c)) (hpost : t.get (DK_CAP_POST c) = s.get (DK_CAP_POST c))
    (hrate : t.slots = s.slots) : capNeed t c = capNeed s c := by
  simp only [capNeed, capSlots, blocksFor, hslots, hpost, hrate]

/-! ### A refused trigger -/

/-- The fields of a refusal. -/
def capRefusalFields (c : Fin 16) : List Field := [DK_CAP_REF c, DK_EVT_CAPREF, DK_CNT_CAPREF]

theorem capRef_ok (n : Nat) : (DK_CAP_REF n).ok := Nat.le_of_ble_eq_true rfl

/-- A capture's REF and the event and counter of refusals are in different words. -/
theorem capRef_word (n : Nat) : (DK_CAP_REF n).word ≠ 0x1133 ∧ (DK_CAP_REF n).word ≠ 0x1134 := by
  simp only [DK_CAP_REF]
  omega

theorem triggerCapture_refused (tb : Option Nat) (h : capRefusal s c now = why) (hwhy : why ≠ 0) : triggerCapture s c now tb = refuseCapture s c why := by
  unfold triggerCapture
  rw [h]
  exact if_neg hwhy

theorem refuseCapture_frame (s : State) (c : Fin 16) (why : Nat) : RegFrame (capRefusalFields c) s (refuseCapture s c why) :=
  RegFrame.bump (RegFrame.event (RegFrame.set (.refl _ _ s) (by simp [capRefusalFields]) (capRef_ok c)) (by simp [capRefusalFields]) (by decide))
    (by simp [capRefusalFields]) (by decide)

theorem refuseCapture_ref (s : State) (c : Fin 16) (hwhy : why < 8) : (refuseCapture s c why).get (DK_CAP_REF c) = why := by
  unfold refuseCapture
  rw [State.get_bump_ne _ _ _ _ (by decide) (.inl (capRef_word c).2.symm), State.get_event_ne _ _ _ (by decide) (.inl (capRef_word c).1.symm),
    State.get_set_same _ _ _ (capRef_ok c)]
  exact Nat.mod_eq_of_lt hwhy

theorem refuseCapture_event (s : State) (c : Fin 16) (why : Nat) : (refuseCapture s c why).get DK_EVT_CAPREF = 1 := by
  unfold refuseCapture
  rw [State.get_bump_ne _ _ _ _ (by decide) (by decide), State.get_event_same _ _ (by decide) rfl]

theorem refuseCapture_count (s : State) (c : Fin 16) (why : Nat) :
    (refuseCapture s c why).get DK_CNT_CAPREF = min 255 (s.get DK_CNT_CAPREF + 1) := by
  unfold refuseCapture
  rw [State.get_bump_same _ _ _ (by decide), State.get_event_ne _ _ _ (by decide) (by decide),
    State.get_set_ne _ _ _ _ (capRef_ok c) (.inl (capRef_word c).2)]
  exact Nat.min_comm _ _

/-! ### An admitted trigger -/

/-- The definition collects, and shows neither SHORT nor STEP. -/
def State.armed (s : State) (c : Fin 16) : State := ((s.set (DK_CAP_STATE c) 1).set (DK_CAP_SHORT c) 0).set (DK_CAP_STEP c) 0

/-- The capture that an admitted trigger begins. -/
def State.newCapture (s : State) (c : Fin 16) (now : Nat) (tb : Option Nat) : Capture :=
  { slots := (capSlots s c).map (·.val), reserve := capNeed s c, waitT := tb.isNone, lastTrig := some now, mask := s.get (DK_CAP_SLOTS c),
    pre := s.get (DK_CAP_PRE c), post := s.get (DK_CAP_POST c), auto := s.bit (DK_CAP_AUTOREL c), since := s.pwr.ticks }

/-- A trigger of a free definition is admitted. -/
def State.admitted (s : State) (c : Fin 16) (now : Nat) (tb : Option Nat) : State := (s.armed c).modCap c fun _ => (s.armed c).newCapture c now tb

/-- The fields that an admitted trigger of a free definition sets. -/
def admitFields (c : Fin 16) : List Field := [DK_CAP_STATE c, DK_CAP_SHORT c, DK_CAP_STEP c]

theorem admitFields_ok (c : Fin 16) : ∀ f ∈ admitFields c, f.ok := by decide +revert

theorem admitFields_apart (c : Fin 16) :
    ∀ g ∈ [DK_CAP_SLOTS c, DK_CAP_POST c, DK_CAP_REF c], ∀ f ∈ admitFields c, f.apart g := by decide +revert

theorem armed_frame (s : State) (c : Fin 16) : RegFrame (admitFields c) s (s.armed c) := by
  have hok := admitFields_ok c
  exact RegFrame.set (RegFrame.set (RegFrame.set (.refl _ _ s) (by simp [admitFields]) (hok _ (by simp [admitFields]))) (by simp [admitFields])
    (hok _ (by simp [admitFields]))) (by simp [admitFields]) (hok _ (by simp [admitFields]))

/-- STATE stands above SHORT and STEP in its word. -/
theorem armed_state (s : State) (c : Fin 16) : (s.armed c).get (DK_CAP_STATE c) = 1 := by
  have hok := admitFields_ok c
  unfold State.armed
  rw [State.get_set_ne _ _ _ _ (hok _ (by simp [admitFields])) (.inr (.inl (Nat.le_of_ble_eq_true rfl))),
    State.get_set_ne _ _ _ _ (hok _ (by simp [admitFields])) (.inr (.inl (Nat.le_of_ble_eq_true rfl))), State.get_set_same _ _ _ (capState_ok c)]
  rfl

theorem armed_slots (s : State) (c : Fin 16) : (s.armed c).get (DK_CAP_SLOTS c) = s.get (DK_CAP_SLOTS c) :=
  (armed_frame s c).get _ (admitFields_apart c _ (by simp))

theorem armed_need (s : State) (c : Fin 16) : capNeed (s.armed c) c = capNeed s c :=
  capNeed_congr (armed_slots s c) ((armed_frame s c).get _ (admitFields_apart c _ (by simp))) (armed_frame s c).slots

theorem admitted_state (s : State) (c : Fin 16) (now : Nat) (tb : Option Nat) : (s.admitted c now tb).get (DK_CAP_STATE c) = 1 := by
  rw [State.admitted, State.modCap_get, armed_state]

theorem admitted_frame (s : State) (c : Fin 16) (now : Nat) (tb : Option Nat) : DeckFrame (admitFields c) s (s.admitted c now tb) :=
  (armed_frame s c).deckFrame.modCap

theorem admitted_slots (s : State) (c : Fin 16) (now : Nat) (tb : Option Nat) : (s.admitted c now tb).get (DK_CAP_SLOTS c) = s.get (DK_CAP_SLOTS c) :=
  (admitted_frame s c now tb).get _ (admitFields_apart c _ (by simp))

theorem triggerCapture_waits (hwhy : capRefusal s c now = 0) (hidle : s.get (DK_CAP_STATE c) = 0) (hslots : 0 < s.get (DK_CAP_SLOTS c)) :
    triggerCapture s c now none = s.admitted c now none := by
  have hheld : ¬ s.get (DK_CAP_STATE c) = 2 := by omega
  have hsome : (capSlots (s.admitted c now none) c).isEmpty = false := capSlots_some (by rwa [admitted_slots])
  have hadmit : triggerCapture s c now none =
      if (capSlots (s.admitted c now none) c).isEmpty then captureHeld (s.admitted c now none) c else s.admitted c now none := by
    simp only [triggerCapture, hwhy, if_true, admitCapture, if_neg hheld, State.admitted, State.armed, State.newCapture]
    rfl
  rw [hadmit, if_neg (Bool.eq_false_iff.1 hsome)]

theorem triggerCapture_opens {tb : Nat} (hwhy : capRefusal s c now = 0) (hidle : s.get (DK_CAP_STATE c) = 0) :
    triggerCapture s c now (some tb) = openWindow (s.admitted c now (some tb)) c tb := by
  have hheld : ¬ s.get (DK_CAP_STATE c) = 2 := by omega
  simp only [triggerCapture, hwhy, if_true, admitCapture, if_neg hheld, State.admitted, State.armed, State.newCapture]

end

end Sys2Proof.Machine
end

section
/-!
PROOFS. A block in flight that closes, and the block that takes its place (10 R255, R256, R260): into the ring, or into the one capture that collects on the slot.
-/

namespace Sys2Proof.Machine

/-! ### The block that takes its place -/

/-- The state beside the registers, the Deck and the counter of free values. -/
def besideBlocks (s : State) : State := { s with regs := [], deck := {}, free := 0, fresh := [] }

/-- Only fields of l, the Deck and the counter of free values differ. -/
abbrev BlockFrame (l : List Field) (s t : State) : Prop := ViewFrame besideBlocks l s t

section
variable {l m : List Field} {s t u : State} {c i : Fin 16} {b : Block}

theorem DeckFrame.blockFrame (h : DeckFrame l s t) : BlockFrame l s t := h.through fun x => { x with free := 0 }

theorem BlockFrame.rest (h : BlockFrame l s t) : { t with regs := s.regs, deck := s.deck, free := s.free, fresh := s.fresh } = s :=
  (congrArg (fun x : State => { x with regs := s.regs, deck := s.deck, free := s.free, fresh := s.fresh }) h.kept :)

@[simp] theorem takeBlock_rings (s : State) : s.takeBlock.2.deck.rings = s.deck.rings := rfl
@[simp] theorem takeBlock_caps (s : State) : s.takeBlock.2.deck.caps = s.deck.caps := rfl
@[simp] theorem takeBlock_chunks (s : State) : s.takeBlock.2.deck.chunks = s.deck.chunks := rfl
@[simp] theorem takeBlock_get (s : State) (f : Field) : s.takeBlock.2.get f = s.get f := rfl

theorem BlockFrame.beginBlock {n : Nat} (h : BlockFrame l s t) : BlockFrame l s (beginBlock t i n) := h.beside rfl rfl

theorem takeBlock_frame (l : List Field) (s : State) : BlockFrame l s s.takeBlock.2 := .beside (.refl _ _ s) rfl rfl

/-- Which block is taken follows from the free ones and the next free value. -/
theorem takeBlock_congr (hdeck : t.deck.free = s.deck.free) (hfree : t.free = s.free) :
    t.takeBlock.1 = s.takeBlock.1 ∧ t.takeBlock.2.deck.free = s.takeBlock.2.deck.free := by
  simp only [State.takeBlock, State.freeWord, deckFree, hdeck, hfree, and_self]

/-- A ring within its size returns no block. -/
theorem trimAll_fits (h : s.deck.rings[i].held.length + (if s.deck.rings[i].flight.isSome then 1 else 0) ≤ s.deck.rings[i].size) : trimAll s i = s := by
  unfold trimAll
  cases s.deck.rings[i].held.length with
  | zero => rfl
  | succ n => exact if_pos h

/-- A ring with room begins to fill the block it finds. -/
theorem newFlight_takes {n : Nat} (h : takeFree s i = some (n, t)) (hroom : t.deck.rings[i].held.length + 1 ≤ t.deck.rings[i].size) :
    newFlight s i = beginBlock t i n := by
  unfold newFlight
  rw [h]
  refine trimAll_fits ?_
  simpa [beginBlock] using hroom

/-- Which captures collect on a slot follows from their states and the slots taken at their triggers. -/
theorem collectingOn_congr (hstate : ∀ d : Fin 16, t.get (DK_CAP_STATE d) = s.get (DK_CAP_STATE d))
    (hmask : ∀ d : Fin 16, t.deck.caps[d].mask = s.deck.caps[d].mask) : collectingOn t i = collectingOn s i := by
  simp only [collectingOn, collecting, hstate, hmask]

theorem setCap_mask (caps : Vector Capture 16) (c d : Fin 16) (k : Capture) (h : k.mask = caps[c].mask) : (caps.set c k)[d].mask = caps[d].mask := by
  by_cases hd : c = d
  · subst hd
    simpa using h
  · have hne : c.val ≠ d.val := fun e => hd (Fin.ext e)
    simp [Vector.getElem_set_ne _ _ hne]

/-- Where no capture collects and nothing is reserved a ring takes any free block. -/
theorem takeFree_unreserved (hfree : 0 < deckFree s) (hon : collectingOn s i = []) (hres : deckReserved s = 0) : takeFree s i = some s.takeBlock := by
  have hsome : ¬ deckFree s = 0 := by omega
  have hfits : deckReserved s < deckFree s := by omega
  unfold takeFree
  rw [if_neg hsome, hon]
  exact if_pos hfits

/-- A collecting capture's reserve gives the block (10 R260). -/
theorem takeFree_reserved (hfree : 0 < deckFree s) (hon : collectingOn s i = [c]) (hres : 0 < s.deck.caps[c].reserve) :
    takeFree s i = some (s.takeBlock.1, s.takeBlock.2.modCap c fun k => { k with reserve := k.reserve - 1 }) := by
  have hsome : ¬ deckFree s = 0 := by omega
  unfold takeFree
  rw [if_neg hsome, hon, List.filter_cons_of_pos (by simpa using hres)]
  rfl

/-! ### The block that closes -/

/-- The ring's block in flight is closed. -/
def State.flightClosed (s : State) (i : Fin 16) : State := s.modRing i fun r => { r with flight := none, closed := r.closed + 1 }

theorem closeFlight_filled (hflight : s.deck.rings[i].flight = some b) (hn : b.n ≠ 0) :
    closeFlight s i = showRing (windowsPassed (newFlight (placeBlock (s.flightClosed i) i b) i) i b) i := by
  simp only [closeFlight, hflight, if_neg hn, State.flightClosed]

/-- Block b, closed, joins its ring. -/
def State.blockJoined (s : State) (i : Fin 16) (b : Block) : State := (s.flightClosed i).modRing i fun r => { r with held := r.held ++ [b] }

theorem placeBlock_ring (hon : collectingOn s i = []) : placeBlock (s.flightClosed i) i b = s.blockJoined i b := by
  have hnone : collectingOn (s.flightClosed i) i = [] := hon
  unfold placeBlock
  rw [hnone]
  rfl

theorem blockJoined_ring (s : State) (i : Fin 16) (b : Block) : (s.blockJoined i b).deck.rings[i] =
    { s.deck.rings[i] with held := s.deck.rings[i].held ++ [b], closed := s.deck.rings[i].closed + 1, flight := none } := by
  simp [State.blockJoined, State.flightClosed]

theorem blockJoined_taken (s : State) (i : Fin 16) (b : Block) :
    (s.blockJoined i b).takeBlock.1 = s.takeBlock.1 ∧ (s.blockJoined i b).takeBlock.2.deck.free = s.takeBlock.2.deck.free := takeBlock_congr rfl rfl

/-- A closed block joins its ring, and the ring begins to fill a free one. -/
def State.blockRenewed (s : State) (i : Fin 16) (b : Block) : State := beginBlock (s.blockJoined i b).takeBlock.2 i (s.blockJoined i b).takeBlock.1

section
variable (s i b)

theorem blockRenewed_ring : (s.blockRenewed i b).deck.rings[i] =
    { s.deck.rings[i] with held := s.deck.rings[i].held ++ [b], closed := s.deck.rings[i].closed + 1, flight := some { idx := s.takeBlock.1 } } := by
  have hring := blockJoined_ring s i b
  simp only [Fin.getElem_fin] at hring ⊢
  simp [State.blockRenewed, beginBlock, blockJoined_taken, hring]

theorem blockRenewed_free : (s.blockRenewed i b).deck.free = s.takeBlock.2.deck.free := (blockJoined_taken s i b).2

theorem blockRenewed_rest : (s.blockRenewed i b).deck.caps = s.deck.caps ∧ (s.blockRenewed i b).deck.chunks = s.deck.chunks := by
  simp [State.blockRenewed, beginBlock, State.blockJoined, State.flightClosed]

theorem blockRenewed_get (f : Field) : (s.blockRenewed i b).get f = s.get f := by
  simp [State.blockRenewed, beginBlock, State.blockJoined, State.flightClosed]

theorem blockRenewed_frame (l : List Field) : BlockFrame l s (s.blockRenewed i b) := by
  have hjoined : DeckFrame l s (s.blockJoined i b) := .modRing (.modRing (.refl _ l s))
  exact BlockFrame.beginBlock (hjoined.blockFrame.trans (takeBlock_frame l _))

end

theorem closeFlight_renews (hflight : s.deck.rings[i].flight = some b) (hn : b.n ≠ 0) (hon : collectingOn s i = []) (hres : deckReserved s = 0)
    (hfree : 0 < deckFree s) (hroom : s.deck.rings[i].held.length + 2 ≤ s.deck.rings[i].size) : closeFlight s i = showRing (s.blockRenewed i b) i := by
  have hjoined : newFlight (s.blockJoined i b) i = s.blockRenewed i b := by
    refine newFlight_takes (takeFree_unreserved hfree hon hres) ?_
    rw [takeBlock_rings, blockJoined_ring, List.length_append]
    exact hroom
  have hnone : collectingOn (s.blockRenewed i b) i = [] := by
    rw [collectingOn_congr (fun _ => blockRenewed_get s i b _) (fun _ => by rw [(blockRenewed_rest s i b).1]), hon]
  have hpassed : windowsPassed (s.blockRenewed i b) i b = s.blockRenewed i b := by
    unfold windowsPassed
    rw [hnone]
    rfl
  rw [closeFlight_filled hflight hn, placeBlock_ring hon, hjoined, hpassed]

/-! ### A block that closes into the one capture that collects on its slot -/

/-- Block b of slot i joins a capture. -/
def Capture.withBlock (k : Capture) (i : Fin 16) (b : Block) : Capture := { k with blocks := k.blocks ++ [(i.val, b)] }

/-- A block leaves a capture's reserve. -/
def Capture.drawn (k : Capture) : Capture := { k with reserve := k.reserve - 1 }

/-- Block b, closed, moves to capture c. -/
def State.blockMoved (s : State) (c i : Fin 16) (b : Block) : State := showCap ((s.flightClosed i).modCap c fun k => k.withBlock i b) c

/-- A closed block moves to a capture, and the ring begins to fill one of its reserve. -/
def State.blockCaptured (s : State) (c i : Fin 16) (b : Block) : State :=
  beginBlock ((s.blockMoved c i b).takeBlock.2.modCap c Capture.drawn) i (s.blockMoved c i b).takeBlock.1

theorem placeBlock_capture (hon : collectingOn s i = [c]) (hwait : s.deck.caps[c].waitT = false) (hslots : s.deck.caps[c].slots = [i.val])
    (hin : blockInside b s.deck.caps[c].from_ s.deck.caps[c].to_ = true) : placeBlock (s.flightClosed i) i b = s.blockMoved c i b := by
  have hone : collectingOn (s.flightClosed i) i = [c] := hon
  have hmine : (!(s.flightClosed i).deck.caps[c].waitT && (s.flightClosed i).deck.caps[c].slots.contains i.val &&
      blockInside b (s.flightClosed i).deck.caps[c].from_ (s.flightClosed i).deck.caps[c].to_) = true := by
    simp only [State.flightClosed, State.modRing_deck, hwait, hslots, hin]
    simp
  unfold placeBlock
  simp only [hone, List.filter_cons, hmine, if_true]
  rfl

section
variable (s c i b)

theorem blockMoved_deck : (s.blockMoved c i b).deck = ((s.flightClosed i).modCap c fun k => k.withBlock i b).deck := (showCap_frame _ c).deck

theorem blockMoved_frame : DeckFrame (capFields c) s (s.blockMoved c i b) :=
  DeckFrame.regFrame (.modCap (.modRing (.refl _ _ s))) (showCap_frame _ c) fun _ h => h

theorem blockMoved_cap : (s.blockMoved c i b).deck.caps = s.deck.caps.set c (s.deck.caps[c].withBlock i b) := by
  rw [blockMoved_deck]
  rfl

theorem blockMoved_ring : (s.blockMoved c i b).deck.rings[i] = { s.deck.rings[i] with closed := s.deck.rings[i].closed + 1, flight := none } := by
  rw [blockMoved_deck]
  simp [State.flightClosed]

theorem blockMoved_taken : (s.blockMoved c i b).takeBlock.1 = s.takeBlock.1 ∧ (s.blockMoved c i b).takeBlock.2.deck.free = s.takeBlock.2.deck.free :=
  takeBlock_congr (by rw [blockMoved_deck]; rfl) (congrArg (fun x : State => x.free) (blockMoved_frame s c i b).kept :)

theorem blockCaptured_cap : (s.blockCaptured c i b).deck.caps = s.deck.caps.set c (s.deck.caps[c].withBlock i b).drawn := by
  simp [State.blockCaptured, beginBlock, blockMoved_cap]

theorem blockCaptured_ring : (s.blockCaptured c i b).deck.rings[i] =
    { s.deck.rings[i] with closed := s.deck.rings[i].closed + 1, flight := some { idx := s.takeBlock.1 } } := by
  have hring := blockMoved_ring s c i b
  simp only [Fin.getElem_fin] at hring ⊢
  simp [State.blockCaptured, beginBlock, blockMoved_taken, hring]

theorem blockCaptured_free : (s.blockCaptured c i b).deck.free = s.takeBlock.2.deck.free := (blockMoved_taken s c i b).2

theorem blockCaptured_frame : BlockFrame (capFields c) s (s.blockCaptured c i b) := by
  have hdrawn : DeckFrame (capFields c) (s.blockMoved c i b).takeBlock.2 ((s.blockMoved c i b).takeBlock.2.modCap c Capture.drawn) := .modCap (.refl _ _ _)
  exact BlockFrame.beginBlock (((blockMoved_frame s c i b).blockFrame.trans (takeBlock_frame _ _)).trans hdrawn.blockFrame)

theorem blockCaptured_state (d : Fin 16) : (s.blockCaptured c i b).get (DK_CAP_STATE d) = s.get (DK_CAP_STATE d) :=
  (blockCaptured_frame s c i b).get _ (capFields_apart_state c d)

/-- The captures that collect on a slot stay the same. -/
theorem blockCaptured_on : collectingOn (s.blockCaptured c i b) i = collectingOn s i :=
  collectingOn_congr (blockCaptured_state s c i b) fun d => by
    rw [blockCaptured_cap]
    exact setCap_mask _ c d _ rfl

end

theorem closeFlight_captures (hflight : s.deck.rings[i].flight = some b) (hon : collectingOn s i = [c]) (hwait : s.deck.caps[c].waitT = false)
    (hslots : s.deck.caps[c].slots = [i.val]) (hin : blockInside b s.deck.caps[c].from_ s.deck.caps[c].to_ = true) (hres : 0 < s.deck.caps[c].reserve)
    (hfree : 0 < deckFree s) (hroom : s.deck.rings[i].held.length + 1 ≤ s.deck.rings[i].size) :
    closeFlight s i = showRing (windowsPassed (s.blockCaptured c i b) i b) i := by
  have hn : b.n ≠ 0 := by
    simp only [blockInside, Bool.and_eq_true, decide_eq_true_eq] at hin
    omega
  have hmoved : newFlight (s.blockMoved c i b) i = s.blockCaptured c i b := by
    refine newFlight_takes (takeFree_reserved (c := c) ?_ ?_ ?_) ?_
    · have hblocks : deckFree (s.blockMoved c i b) = deckFree s := by
        rw [deckFree, blockMoved_deck]
        rfl
      rwa [hblocks]
    · rw [← hon]
      exact collectingOn_congr (fun d => (blockMoved_frame s c i b).get _ (capFields_apart_state c d)) fun d => by
        rw [blockMoved_cap]
        exact setCap_mask _ c d _ rfl
    · simpa [blockMoved_cap, Capture.withBlock] using hres
    · have hring := blockMoved_ring s c i b
      simp only [Fin.getElem_fin] at hring hroom ⊢
      simpa [hring] using hroom
  rw [closeFlight_filled hflight hn, placeBlock_capture hon hwait hslots hin, hmoved]

end

end Sys2Proof.Machine
end

section
/-!
PROOFS. The end of a capture's collection, its window's end and its release (10 R260, R261).
-/

namespace Sys2Proof.Machine

/-- A capture that collects no more: no window is open, and what it reserved and did not use is free again. -/
def Capture.ended (k : Capture) : Capture := { k with slots := [], reserve := 0, waitT := false }

theorem Capture.ended_of_begun {k : Capture} (h : k.waitT = false) : k.ended = { k with slots := [], reserve := 0 } := by rw [Capture.ended, ← h]

/-- The fields that the end of a collection sets. -/
def endFieldsOf (c : Fin 16) : List Field := DK_CAP_STATE c :: DK_EVT_CAPDONE :: capFields c

/-- From s to t capture c becomes held (10 R260), and only fields of l show it. -/
structure CaptureEnded (l : List Field) (c : Fin 16) (s t : State) : Prop where
  frame : DeckFrame l s t
  deck : t.deck = (s.modCap c Capture.ended).deck
  state : t.get (DK_CAP_STATE c) = 2
  done : t.get DK_EVT_CAPDONE = 1

section
variable {l m : List Field} {s t u : State} {c i : Fin 16} {b : Block}

theorem collecting_of_state (h : s.get (DK_CAP_STATE c) = 1) : collecting s c = true := beq_iff_eq.2 h

theorem not_collecting_of_state (h : s.get (DK_CAP_STATE c) ≠ 1) : collecting s c = false := beq_eq_false_iff_ne.2 h

theorem captureHeld_ended (s : State) (c : Fin 16) : CaptureEnded (endFieldsOf c) c s (captureHeld s c) := by
  have hshown := showCap_frame (((s.modCap c Capture.ended).set (DK_CAP_STATE c) 2).event DK_EVT_CAPDONE) c
  have hdone : DK_EVT_CAPDONE.apart (DK_CAP_STATE c) := .inl (by simp only [DK_EVT_CAPDONE, DK_CAP_STATE]; omega)
  refine ⟨DeckFrame.regFrame (.event (.set (.modCap (.refl _ _ s)) (by simp [endFieldsOf]) (capState_ok c)) (by simp [endFieldsOf]) (by decide)) hshown
    (by simp +contextual [endFieldsOf]), hshown.deck, ?_, ?_⟩
  · refine (hshown.get _ (capFields_apart_state c c)).trans ?_
    rw [State.get_event_ne _ _ _ (by decide) hdone, State.get_set_same _ _ _ (capState_ok c)]
    rfl
  · exact (hshown.get _ (capFields_apart_done c)).trans (State.get_event_same _ _ (by decide) rfl)

theorem CaptureEnded.mono (h : CaptureEnded l c s t) (hm : ∀ f ∈ l, f ∈ m) : CaptureEnded m c s t := { h with frame := h.frame.mono hm }

/-- A change of shown counts before the end. -/
theorem CaptureEnded.after (h : CaptureEnded l c t u) (k : RegFrame m s t) (hm : ∀ f ∈ m, f ∈ l) : CaptureEnded l c s u :=
  ⟨(k.deckFrame.mono hm).trans h.frame, by simpa only [State.modCap_deck, k.deck] using h.deck, h.state, h.done⟩

/-- A change of shown counts after the end. -/
theorem CaptureEnded.shown (h : CaptureEnded l c s t) (k : RegFrame m t u) (hm : ∀ f ∈ m, f ∈ l)
    (happart : ∀ f ∈ m, f.apart (DK_CAP_STATE c) ∧ f.apart DK_EVT_CAPDONE) : CaptureEnded l c s u :=
  ⟨h.frame.regFrame k hm, k.deck.trans h.deck, (k.get _ fun f hf => (happart f hf).1).trans h.state, (k.get _ fun f hf => (happart f hf).2).trans h.done⟩

theorem CaptureEnded.showCap (h : CaptureEnded l c s t) (hm : ∀ f ∈ capFields c, f ∈ l) : CaptureEnded l c s (showCap t c) :=
  h.shown (showCap_frame t c) hm fun f hf => ⟨capFields_apart_state c c f hf, capFields_apart_done c f hf⟩

theorem CaptureEnded.showRing (h : CaptureEnded l c s t) (hm : ∀ f ∈ ringFields i, f ∈ l) : CaptureEnded l c s (showRing t i) :=
  h.shown (showRing_frame t i) hm fun f hf => ⟨ringFields_apart_state i c f hf, ringFields_apart_done i f hf⟩

theorem CaptureEnded.cap (h : CaptureEnded l c s t) : t.deck.caps[c] = s.deck.caps[c].ended := by simp [h.deck]

theorem CaptureEnded.otherCap {d : Fin 16} (h : CaptureEnded l c s t) (hd : d ≠ c) : t.deck.caps[d] = s.deck.caps[d] := by
  have hne : c.val ≠ d.val := fun e => hd (Fin.ext e.symm)
  simp [h.deck, Vector.getElem_set_ne _ _ hne]

theorem CaptureEnded.rest (h : CaptureEnded l c s t) : t.deck.rings = s.deck.rings ∧ t.deck.free = s.deck.free ∧ t.deck.chunks = s.deck.chunks ∧
    t.deck.leases = s.deck.leases := by simp [h.deck]

/-! ### The window's end on the last slot -/

/-- The last slot's window is over: nothing else is open. -/
theorem slotWindowDone_last (hstate : s.get (DK_CAP_STATE c) = 1) (hslots : s.deck.caps[c].slots = [i.val]) (hwait : s.deck.caps[c].waitT = false) :
    CaptureEnded (endFieldsOf c) c s (slotWindowDone s c i) := by
  have hended := captureHeld_ended (s.modCap c fun k => { k with slots := k.slots.filter (· != i.val) }) c
  have hheld : slotWindowDone s c i = captureHeld (s.modCap c fun k => { k with slots := k.slots.filter (· != i.val) }) c := by
    unfold slotWindowDone
    refine if_pos ?_
    simp only [Fin.getElem_fin] at hslots hwait
    simp [collecting, hstate, hslots, hwait]
  rw [hheld]
  refine ⟨(DeckFrame.modCap (.refl _ _ s)).trans hended.frame, hended.deck.trans ?_, hended.state, hended.done⟩
  simp [Capture.ended]

/-- Nothing is left to end of a capture that is held. -/
theorem CaptureEnded.slotWindowDone (h : CaptureEnded l c s t) : CaptureEnded l c s (slotWindowDone t c i) := by
  have hleft : Machine.slotWindowDone t c i = t.modCap c fun k => { k with slots := k.slots.filter (· != i.val) } := by
    unfold Machine.slotWindowDone
    refine if_neg ?_
    simp [collecting, h.state]
  rw [hleft]
  refine ⟨h.frame.modCap, ?_, h.state, h.done⟩
  simp [h.deck, Capture.ended]

/-- The window's end on a slot whose ring had its last block in flight: whether the close of that block ended the collection or not, it is over. -/
theorem slotWindowDone_closed (hon : collectingOn s i = [c]) (hstate : s.get (DK_CAP_STATE c) = 1) (hslots : s.deck.caps[c].slots = [i.val])
    (hwait : s.deck.caps[c].waitT = false) :
    CaptureEnded (DK_RING_BLOCKS i :: endFieldsOf c) c s (slotWindowDone (showRing (windowsPassed s i b) i) c i) := by
  have hfields : ∀ f ∈ endFieldsOf c, f ∈ DK_RING_BLOCKS i :: endFieldsOf c := fun _ hf => List.mem_cons_of_mem _ hf
  have hring : ∀ f ∈ ringFields i, f ∈ DK_RING_BLOCKS i :: endFieldsOf c := by simp +contextual [ringFields, endFieldsOf, capFields]
  have hpassed : windowsPassed s i b =
      if !s.deck.caps[c].waitT && s.deck.caps[c].slots.contains i.val && decide (s.deck.caps[c].to_ ≤ b.lastT + interval b.rate)
      then slotWindowDone s c i else s := by
    unfold windowsPassed
    rw [hon]
    rfl
  rw [hpassed]
  split
  · exact (((slotWindowDone_last hstate hslots hwait).mono hfields).showRing hring).slotWindowDone
  · have hshown := showRing_frame s i
    have hdeck := hshown.deck
    refine ((slotWindowDone_last ?_ ?_ ?_).mono hfields).after hshown hring
    · exact (hshown.get _ (ringFields_apart_state i c)).trans hstate
    · rw [hdeck, hslots]
    · rw [hdeck, hwait]

/-- The slots of a capture whose mask names one. -/
theorem takenSlots_one (h : s.deck.caps[c].mask = 2 ^ i.val) : takenSlots s c = [i] := by
  have hone : ∀ i : Fin 16, ((List.finRange 16).filter fun j => (2 ^ i.val).testBit j.val) = [i] := by decide
  simp only [takenSlots, h, hone]

theorem exec_captureWindowEnd (halive : s.alive = true) (hstate : s.get (DK_CAP_STATE c) = 1) (hwait : s.deck.caps[c].waitT = false)
    (hslots : s.deck.caps[c].slots = [i.val]) (hmask : s.deck.caps[c].mask = 2 ^ i.val) (hover : windowOver s c i = true) :
    exec (.captureWindowEnd c) s = .next (slotWindowDone (closeFlight s i) c i) := by
  have hcollects := collecting_of_state hstate
  have hend : endWindow s c i = slotWindowDone (closeFlight s i) c i := by
    unfold endWindow
    simp only [Fin.getElem_fin] at hslots
    exact if_pos (by simp [hcollects, hslots, hover])
  change execCaptureWindowEnd c s = _
  simp only [execCaptureWindowEnd, halive, hcollects, hwait, takenSlots_one hmask, Bool.not_false, Bool.and_self, if_true, List.foldl_cons, List.foldl_nil, hend]

/-! ### A window that holds no slot -/

/-- A capture's window opens around Tb. -/
def State.windowSet (s : State) (c : Fin 16) (tb : Nat) : State :=
  s.modCap c fun k => { k with tb := tb, from_ := tb - k.pre * 800000000, to_ := tb + k.post * 800000000, waitT := false }

theorem openWindow_empty {tb : Nat} (hmask : s.deck.caps[c].mask = 0) (hstate : s.get (DK_CAP_STATE c) = 1) (hslots : s.deck.caps[c].slots = []) :
    openWindow s c tb = showCap (captureHeld (s.windowSet c tb) c) c := by
  have htaken : takenSlots (s.windowSet c tb) c = [] := by
    simp only [Fin.getElem_fin] at hmask
    simp [takenSlots, State.windowSet, hmask]
  have hends : (collecting (s.windowSet c tb) c && (s.windowSet c tb).deck.caps[c].slots.isEmpty) = true := by
    simp only [Fin.getElem_fin] at hslots
    simp [collecting, State.windowSet, hstate, hslots]
  simp only [State.windowSet] at htaken hends ⊢
  simp only [openWindow, htaken, List.foldl_nil, hends, if_true]

/-! ### A release -/

/-- The fields that a release sets. -/
def releaseFields (c : Fin 16) : List Field := DK_CAP_STATE c :: capFields c

/-- The blocks of a capture return to free, and it holds none. -/
def State.emptied (s : State) (c : Fin 16) : State :=
  ((s.giveBlocks (s.deck.caps[c].blocks.map (·.2))).modCap c fun k => { k with blocks := [], slots := [], reserve := 0 }).set (DK_CAP_STATE c) 0

theorem releaseCapture_eq (s : State) (c : Fin 16) : releaseCapture s c = showCap (s.emptied c) c := rfl

theorem emptied_frame (s : State) (c : Fin 16) : DeckFrame (releaseFields c) s (s.emptied c) :=
  .set (.modCap (.deckOnly (.refl _ _ s) rfl)) List.mem_cons_self (capState_ok c)

theorem releaseCapture_frame (s : State) (c : Fin 16) : DeckFrame (releaseFields c) s (releaseCapture s c) :=
  (emptied_frame s c).regFrame (showCap_frame _ c) fun _ h => List.mem_cons_of_mem _ h

theorem releaseCapture_deck (s : State) (c : Fin 16) : (releaseCapture s c).deck = (s.emptied c).deck := (showCap_frame _ c).deck

theorem releaseCapture_state (s : State) (c : Fin 16) : (releaseCapture s c).get (DK_CAP_STATE c) = 0 := by
  rw [releaseCapture_eq, (showCap_frame _ c).get _ (capFields_apart_state c c), State.emptied, State.get_set_same _ _ _ (capState_ok c)]
  rfl

theorem emptied_blocks (s : State) (c : Fin 16) : (s.emptied c).deck.caps[c].blocks = [] := by simp [State.emptied]

theorem emptied_free (s : State) (c : Fin 16) : (s.emptied c).deck.free = (s.deck.caps[c].blocks.map fun p => (p.2.idx, 1)) ++ s.deck.free := by
  simp [State.emptied, State.giveBlocks]

end

end Sys2Proof.Machine
end

section
/-!
PROOFS. The Deck's blocks and captures (10 R256, R259 to R261, R266 to R268), command by command.
-/

namespace Sys2Proof.Machine

section
variable {s : State} {c i : Fin 16} {b : Block} {door : Initiator}

/-! ### A block's close -/

theorem exec_deckBlockClose (halive : s.alive = true) (hflight : s.deck.rings[i].flight = some b) (hfull : 1024 ≤ b.n) :
    exec (.deckBlockClose i) s = .next (closeFlight s i) := by
  change execDeckBlockClose i s = _
  simp only [execDeckBlockClose, hflight, halive, hfull, and_self, if_true]

theorem blockRenewed_shown_frame (s : State) (i : Fin 16) (b : Block) : BlockFrame (ringFields i) s (showRing (s.blockRenewed i b) i) :=
  (blockRenewed_frame s i b (ringFields i)).trans (showRing_frame _ i).deckFrame.blockFrame

/-! ### Triggers -/

section
variable {p : Nat × Blaze}

theorem exec_captureTrigger_enabled (hlive : s.live = true) (hfind : (s.blaze.caps.find? fun x => x.1 == c.val) = some p) (hen : s.get (DK_CAP_EN c) = 1) :
    exec (.captureTrigger c) s = .next (triggerCapture (dropTrigger s p) c p.2.t (some p.2.t)) := by
  change execCaptureTrigger c s = _
  simp only [execCaptureTrigger, hfind, hlive, State.bit_of_get_one hen, if_true]

theorem exec_captureTrigger_disabled (hlive : s.live = true) (hfind : (s.blaze.caps.find? fun x => x.1 == c.val) = some p) (hen : s.get (DK_CAP_EN c) = 0) :
    exec (.captureTrigger c) s = .next (dropTrigger s p) := by
  change execCaptureTrigger c s = _
  simp only [execCaptureTrigger, hfind, hlive, State.bit_of_get_zero hen, if_true, Bool.false_eq_true, if_false]

theorem exec_captureTrigCmd (hdoor : doorOpen s door 0x1136 = true) (hen : s.get (DK_CAP_EN c) = 1) :
    exec (.captureTrigCmd door c) s = .next (triggerCapture s c s.now none) := by
  change Host.Outcome.next (atDoor s door 0x1136 _) = _
  rw [atDoor_open _ _ _ _ hdoor, if_pos (State.bit_of_get_one hen)]

theorem dropTrigger_get (s : State) (p : Nat × Blaze) (f : Field) : (dropTrigger s p).get f = s.get f := rfl

theorem dropTrigger_refusal (s : State) (p : Nat × Blaze) (c : Fin 16) (t : Nat) : capRefusal (dropTrigger s p) c t = capRefusal s c t := rfl

/-- A change of fields, and of the Deck, after the Blaze that triggered was taken. -/
theorem rest_of_dropTrigger {l : List Field} {t : State} (h : DeckFrame l (dropTrigger s p) t) :
    { t with regs := s.regs, deck := s.deck, blaze := s.blaze, fresh := s.fresh } = s ∧ t.blaze = (dropTrigger s p).blaze :=
  ⟨(congrArg (fun x : State => { x with regs := s.regs, deck := s.deck, blaze := s.blaze, fresh := s.fresh }) h.kept :),
    (congrArg (fun x : State => x.blaze) h.kept :)⟩

theorem rest_of_dropTrigger_regs {l : List Field} {t : State} (h : RegFrame l (dropTrigger s p) t) :
    { t with regs := s.regs, blaze := s.blaze, fresh := s.fresh } = s ∧ t.blaze = (dropTrigger s p).blaze :=
  ⟨(congrArg (fun x : State => { x with regs := s.regs, blaze := s.blaze, fresh := s.fresh }) h.kept :), (congrArg (fun x : State => x.blaze) h.kept :)⟩

end

/-- The fields that a capture without a slot shows from its trigger on. -/
def emptyFields (c : Fin 16) : List Field := admitFields c ++ endFieldsOf c

theorem ref_apart_emptyFields (c : Fin 16) : ∀ f ∈ emptyFields c, f.apart (DK_CAP_REF c) := by decide +revert

/-- An admitted trigger with its window open around Tb. -/
def State.captureOpened (s : State) (c : Fin 16) (now tb : Nat) : State := (s.admitted c now (some tb)).windowSet c tb

section
variable (s : State) (c : Fin 16) (now tb : Nat)

theorem captureOpened_frame : DeckFrame (admitFields c) s (s.captureOpened c now tb) := by
  unfold State.captureOpened State.windowSet
  exact DeckFrame.modCap (admitted_frame s c now _)

theorem captureOpened_cap : (s.captureOpened c now tb).deck.caps[c].tb = tb ∧ (s.captureOpened c now tb).deck.caps[c].lastTrig = some now ∧
    (s.captureOpened c now tb).deck.caps[c].blocks = [] := by
  simp [State.captureOpened, State.windowSet, State.admitted, State.newCapture]

theorem captureOpened_rest : (s.captureOpened c now tb).deck.rings = s.deck.rings ∧ (s.captureOpened c now tb).deck.chunks = s.deck.chunks ∧
    (s.captureOpened c now tb).deck.leases = s.deck.leases := by
  simp [State.captureOpened, State.windowSet, State.admitted, (armed_frame s c).deck]

end

/-- A capture without a slot is held at once. -/
theorem triggerCapture_empty {now tb : Nat} (hwhy : capRefusal s c now = 0) (hidle : s.get (DK_CAP_STATE c) = 0) (hslots : s.get (DK_CAP_SLOTS c) = 0) :
    triggerCapture s c now (some tb) = showCap (captureHeld (s.captureOpened c now tb) c) c := by
  have hnone := armed_slots s c
  rw [hslots] at hnone
  have hcap : (s.admitted c now (some tb)).deck.caps[c] = (s.armed c).newCapture c now (some tb) := by simp [State.admitted]
  have hmask : (s.admitted c now (some tb)).deck.caps[c].mask = 0 := by rw [hcap]; exact hnone
  have hempty : (s.admitted c now (some tb)).deck.caps[c].slots = [] := by rw [hcap]; exact congrArg (List.map _) (capSlots_none hnone)
  rw [triggerCapture_opens hwhy hidle, openWindow_empty hmask (admitted_state s c now _) hempty, State.captureOpened]

theorem captureHeld_shown_ended (s : State) (c : Fin 16) : CaptureEnded (endFieldsOf c) c s (showCap (captureHeld s c) c) :=
  (captureHeld_ended s c).showCap fun _ hf => List.mem_cons_of_mem _ (List.mem_cons_of_mem _ hf)

/-! ### Releases -/

theorem exec_captureReleaseCmd (hdoor : doorOpen s door 0x1136 = true) : exec (.captureReleaseCmd door c) s = .next (relCapture s c) := by
  change Host.Outcome.next (atDoor s door 0x1136 _) = _
  rw [atDoor_open _ _ _ _ hdoor]

/-! ### Writes of DK_CAP words -/

/-- A write of a word of a definition that does not collect only stores (10 R267, R268). -/
theorem exec_dkCapWrite_idle {w : Fin 3} {v : Word} (hdoor : doorOpen s door (0x1140 + 4 * c.val + w.val) = true) (hstate : s.get (DK_CAP_STATE c) ≠ 1) :
    exec (.dkCapWrite door c w v) s = .next (s.setWord (0x1140 + 4 * c.val + w.val) (dkCapValue s c w v)) := by
  have hidle : endCollection (s.setWord (0x1140 + 4 * c.val + w.val) (dkCapValue s c w v)) c false =
      s.setWord (0x1140 + 4 * c.val + w.val) (dkCapValue s c w v) := by
    have hword : (DK_CAP_STATE c).word ≠ 0x1140 + 4 * c.val + w.val := by
      simp only [DK_CAP_STATE]
      omega
    unfold endCollection
    rw [not_collecting_of_state (by rwa [State.get_setWord_ne _ _ _ _ hword])]
    rfl
  change Host.Outcome.next (atDoor s door _ _) = _
  rw [atDoor_open _ _ _ _ hdoor, writeDkCap, hidle, ite_self]

/-- PRE or POST as a write takes it (10 R267): a value above 600 is ignored. -/
def windowPart (v old : Word) (lo : Nat) : Nat := if getBits v lo 10 ≤ 600 then getBits v lo 10 else getBits old lo 10

theorem windowPart_lt (v old : Word) (lo : Nat) : windowPart v old lo < 1024 := by
  unfold windowPart
  split
  · exact getBits_lt v lo 10
  · exact getBits_lt old lo 10

/-- The word of PRE, POST and HOLDOFF. -/
theorem windowWord_fields {pre post hold : Nat} (hpre : pre < 1024) (hpost : post < 1024) (hhold : hold < 4096) :
    getBits (BitVec.ofNat 32 (pre * 2 ^ 22 + post * 2 ^ 12 + hold)) 22 10 = pre ∧
      getBits (BitVec.ofNat 32 (pre * 2 ^ 22 + post * 2 ^ 12 + hold)) 12 10 = post ∧
      getBits (BitVec.ofNat 32 (pre * 2 ^ 22 + post * 2 ^ 12 + hold)) 0 12 = hold := by
  simp only [getBits, BitVec.toNat_ofNat, Nat.shiftRight_eq_div_pow]
  omega

theorem exec_dkCapWrite_slots {v : Word} (hdoor : doorOpen s door (0x1140 + 4 * c.val) = true) (hstate : s.get (DK_CAP_STATE c) ≠ 1) :
    exec (.dkCapWrite door c 0 v) s = .next (s.setWord (0x1140 + 4 * c.val) (v &&& 0xFFFFE000)) := exec_dkCapWrite_idle (w := 0) hdoor hstate

theorem exec_dkCapWrite_window {v : Word} (hdoor : doorOpen s door (0x1142 + 4 * c.val) = true) (hstate : s.get (DK_CAP_STATE c) ≠ 1) :
    exec (.dkCapWrite door c 2 v) s = .next (s.setWord (0x1142 + 4 * c.val) (BitVec.ofNat 32
      (windowPart v (s.word (0x1142 + 4 * c.val)) 22 * 2 ^ 22 + windowPart v (s.word (0x1142 + 4 * c.val)) 12 * 2 ^ 12 + getBits v 0 12))) := by
  have haddr : 0x1140 + 4 * c.val + (2 : Fin 3).val = 0x1142 + 4 * c.val := Nat.add_right_comm 0x1140 (4 * c.val) 2
  rw [← haddr] at hdoor ⊢
  exact exec_dkCapWrite_idle hdoor hstate

theorem wholeWord_frame (s : State) (a : Nat) (v : Word) : onlyFields [wholeWord a] s (s.setWord a v) :=
  ⟨rfl, sameBut_setWord _ _ _ _ List.mem_cons_self⟩

end

/-- Settles O32: a closed block goes to its ring or to the one capture that collects on its slot, and the frames of each step carry the rest; a trigger is refused with its reason,
or admitted; the end of the last slot's window and a release each set what their capture holds. -/
theorem deckBlocksCaptureAndRelease : Obligations.DeckBlocksCaptureAndRelease := by
  unfold Obligations.DeckBlocksCaptureAndRelease
  refine ⟨?_, ?_, ?_, ?_, ?_, ?_, ?_, ?_, ?_, ?_, ?_, ?_⟩
  · intro slot b s halive hflight hfull hon hres hfree hroom
    have hn : b.n ≠ 0 := by omega
    have hframe := blockRenewed_shown_frame s slot b
    have hdeck := (showRing_frame (s.blockRenewed slot b) slot).deck
    obtain ⟨hcaps, hchunks⟩ := blockRenewed_rest s slot b
    refine ⟨_, exec_deckBlockClose halive hflight hfull, ?_⟩
    rw [closeFlight_renews hflight hn hon hres hfree hroom, hdeck, blockRenewed_ring, blockRenewed_free]
    exact ⟨rfl, rfl, rfl, rfl, hchunks, hcaps, hframe.rest, hframe.regs⟩
  · intro c p why s hlive hfind hen hwhy hne hlt
    have hframe := refuseCapture_frame (dropTrigger s p) c why
    obtain ⟨hrest, hblaze⟩ := rest_of_dropTrigger_regs hframe
    refine ⟨_, exec_captureTrigger_enabled hlive hfind hen, ?_⟩
    rw [triggerCapture_refused _ ((dropTrigger_refusal s p c _).trans hwhy) hne]
    exact ⟨refuseCapture_ref _ c hlt, refuseCapture_event _ c why, refuseCapture_count _ c why, hblaze, hrest, hframe.regs⟩
  · intro c p s hlive hfind hen hwhy hidle hslots
    have hopened := captureOpened_frame (dropTrigger s p) c p.2.t p.2.t
    obtain ⟨htb, hlast, hblocks⟩ := captureOpened_cap (dropTrigger s p) c p.2.t p.2.t
    obtain ⟨hrings, hchunks, hleases⟩ := captureOpened_rest (dropTrigger s p) c p.2.t p.2.t
    have hended := captureHeld_shown_ended ((dropTrigger s p).captureOpened c p.2.t p.2.t) c
    obtain ⟨hrings', -, hchunks', hleases'⟩ := hended.rest
    have hframe : DeckFrame (emptyFields c) (dropTrigger s p) _ :=
      (hopened.mono fun f hf => List.mem_append_left _ hf).trans (hended.frame.mono fun f hf => List.mem_append_right _ hf)
    obtain ⟨hrest, hblaze⟩ := rest_of_dropTrigger hframe
    refine ⟨_, exec_captureTrigger_enabled hlive hfind hen, ?_⟩
    rw [triggerCapture_empty ((dropTrigger_refusal s p c _).trans hwhy) ((dropTrigger_get s p _).trans hidle) ((dropTrigger_get s p _).trans hslots)]
    exact ⟨hended.state, hended.done, hframe.get _ (ref_apart_emptyFields c),
      showCap_blocks _ c (by rw [(captureHeld_ended _ c).cap]; exact hblocks), by rw [hended.cap]; exact htb, by rw [hended.cap]; exact hlast,
      hrings'.trans hrings, hchunks'.trans hchunks, hleases'.trans hleases, hblaze, hrest⟩
  · intro c p s hlive hfind hen
    exact ⟨_, exec_captureTrigger_disabled hlive hfind hen, rfl⟩
  · intro door c why s hdoor hen hwhy hne hlt
    refine ⟨_, exec_captureTrigCmd hdoor hen, ?_⟩
    rw [triggerCapture_refused none hwhy hne]
    exact ⟨refuseCapture_ref s c hlt, refuseCapture_event s c why, (refuseCapture_frame s c why).onlyFields⟩
  · intro door c s hdoor hen hwhy hidle hslots
    have hframe := admitted_frame s c s.now none
    have hcap : (s.admitted c s.now none).deck.caps[c] = (s.armed c).newCapture c s.now none := by simp [State.admitted]
    refine ⟨_, exec_captureTrigCmd hdoor hen, ?_⟩
    rw [triggerCapture_waits hwhy hidle hslots, hcap]
    exact ⟨admitted_state s c _ _, rfl, armed_need s c, rfl, hframe.rest, hframe.regs⟩
  · intro door c s hdoor hheld
    have hframe := releaseCapture_frame s c
    refine ⟨_, exec_captureReleaseCmd hdoor, ?_⟩
    rw [relCapture, if_pos hheld]
    refine ⟨releaseCapture_state s c, ?_, ?_, showCap_blocks _ c (emptied_blocks s c), hframe.rest, hframe.regs⟩
    · rw [releaseCapture_deck, emptied_blocks]
    · rw [releaseCapture_deck, emptied_free]
  · intro door c s hdoor hheld
    exact ⟨_, exec_captureReleaseCmd hdoor, if_neg hheld⟩
  · intro c i s halive hstate hwait hslots hmask hover hflight
    have hended := slotWindowDone_last hstate hslots hwait
    have hclose : closeFlight s i = s := by simp only [closeFlight, hflight]
    obtain ⟨hrings, hfree, -, -⟩ := hended.rest
    refine ⟨_, exec_captureWindowEnd halive hstate hwait hslots hmask hover, ?_⟩
    rw [hclose]
    exact ⟨hended.state, hended.done, hended.cap.trans (Capture.ended_of_begun hwait), fun d hd => hended.otherCap hd, hrings, hfree, hended.frame.rest,
      sameBut_mono hended.frame.regs (by simp +contextual [endFieldsOf, capFields, accFields])⟩
  · intro c i b s halive hstate hwait hslots hmask hover hflight hin hon hres hfree hroom
    have hcap : (s.blockCaptured c i b).deck.caps[c] = (s.deck.caps[c].withBlock i b).drawn := by rw [blockCaptured_cap]; simp
    have hended := slotWindowDone_closed (s := s.blockCaptured c i b) (b := b) ((blockCaptured_on s c i b).trans hon) ((blockCaptured_state s c i b c).trans hstate)
      (by rw [hcap]; exact hslots) (by rw [hcap]; exact hwait)
    have hframe : BlockFrame (DK_RING_BLOCKS i :: endFieldsOf c) s _ := ((blockCaptured_frame s c i b).mono
      fun f hf => List.mem_cons_of_mem _ (List.mem_cons_of_mem _ (List.mem_cons_of_mem _ hf))).trans hended.frame.blockFrame
    obtain ⟨hrings, hfree', -, -⟩ := hended.rest
    refine ⟨_, exec_captureWindowEnd halive hstate hwait hslots hmask hover, ?_⟩
    rw [closeFlight_captures hflight hon hwait hslots hin hres hfree hroom, hrings, hfree', blockCaptured_ring, blockCaptured_free, hended.cap, hcap]
    exact ⟨hended.state, hended.done, Capture.ended_of_begun hwait, rfl, rfl, rfl, rfl, hframe.rest,
      sameBut_mono hframe.regs (by simp +contextual [endFieldsOf, capFields, accFields])⟩
  · intro door c w v s hdoor hw hstate
    obtain rfl : w = 2 := Fin.ext hw
    have haddr : 0x1140 + 4 * c.val + (2 : Fin 3).val = 0x1142 + 4 * c.val := Nat.add_right_comm 0x1140 (4 * c.val) 2
    rw [haddr] at hdoor
    obtain ⟨hpre, hpost, hhold⟩ := windowWord_fields (windowPart_lt v (s.word (0x1142 + 4 * c.val)) 22) (windowPart_lt v (s.word (0x1142 + 4 * c.val)) 12)
      (getBits_lt v 0 12)
    exact ⟨_, exec_dkCapWrite_window hdoor hstate, (State.get_setWord_same s (DK_CAP_HOLDOFF c) _).trans hhold,
      (State.get_setWord_same s (DK_CAP_PRE c) _).trans hpre, (State.get_setWord_same s (DK_CAP_POST c) _).trans hpost, wholeWord_frame s _ _⟩
  · intro door c w v s hdoor hw hstate
    obtain rfl : w = 0 := Fin.ext hw
    exact ⟨_, exec_dkCapWrite_slots hdoor hstate, State.word_setWord_same s _ _, wholeWord_frame s _ _⟩

end Sys2Proof.Machine
end

section
/-!
PROOFS. What lasts through a command: the queue, the keys, COMSEQ and the commit counts (15 R383, R384, 17 R437), which no shared operation but those of the seal log and
the trial's end touches. One lemma per operation, in the order of the model's files.
-/

namespace Sys2Proof.Machine

/-- What only the write numbers and the key area change: the queue, the keys, COMSEQ and the commit counts. -/
structure Lasting where
  queue : List Instr
  keys : KeyState
  comseq : Nat
  wear : Vector Nat 24

/-- The lasting part of a state. -/
def lasting (s : State) : Lasting := ⟨s.pending, s.keys, s.flash.comseq, s.flash.wear⟩

@[simp] theorem lasting_mk (regs pwr time axes drive hk scal aux slots cal deck recog blaze engines an net flash keys tally modes bus tx fresh free pending) :
    lasting (State.mk regs pwr time axes drive hk scal aux slots cal deck recog blaze engines an net flash keys tally modes bus tx fresh free pending) =
      ⟨pending, keys, flash.comseq, flash.wear⟩ := rfl

@[simp] theorem lasting_of_parts (s : State) : (⟨s.pending, s.keys, s.flash.comseq, s.flash.wear⟩ : Lasting) = lasting s := rfl

@[simp] theorem lasting_ite (c : Prop) [Decidable c] (s t : State) : lasting (if c then s else t) = if c then lasting s else lasting t := apply_ite lasting c s t

@[simp] theorem lasting_foldl {α : Type} (l : List α) (f : State → α → State) (h : ∀ s a, lasting (f s a) = lasting s) (s : State) :
    lasting (l.foldl f s) = lasting s := foldl_leaves lasting l f h s

/-- What an update of a state with more beside it leaves for each element of a list, the fold leaves. -/
theorem foldl_leaves_beside {α β γ : Type} (g : State → γ) (l : List α) (f : State × β → α → State × β) (h : ∀ s a, g (f s a).1 = g s.1) (s : State × β) :
    g (l.foldl f s).1 = g s.1 :=
  List.foldlRecOn l f (motive := fun t => g t.1 = g s.1) rfl fun t ht a _ => (h t a).trans ht

@[simp] theorem when_lasting (s : State) (b : Bool) (f : State → State) (h : lasting (f s) = lasting s) : lasting (s.when b f) = lasting s := by
  cases b
  · rfl
  · exact h

theorem setCal_lasting (s : State) (x : CalState) : lasting { s with cal := x } = lasting s := rfl

/-- What lasts of the state that a command answers. -/
def outcomeLasting (o : Host.Outcome State Fault Refusal) : Option Lasting :=
  match o with
  | .next t => some (lasting t)
  | _ => none

@[simp] theorem outcomeLasting_next (t : State) : outcomeLasting (.next t) = some (lasting t) := rfl

@[simp] theorem outcomeLasting_ite (c : Prop) [Decidable c] (o p : Host.Outcome State Fault Refusal) :
    outcomeLasting (if c then o else p) = if c then outcomeLasting o else outcomeLasting p := apply_ite _ c o p

variable (s : State)

/-! ### Ops -/

@[simp] theorem setWord_lasting (a v) : lasting (s.setWord a v) = lasting s := (rfl)

@[simp] theorem set_lasting (f v) : lasting (s.set f v) = lasting s := (rfl)

@[simp] theorem setI_lasting (f v) : lasting (s.setI f v) = lasting s := (rfl)

@[simp] theorem setB_lasting (f b) : lasting (s.setB f b) = lasting s := (rfl)

@[simp] theorem noted_lasting (l) : lasting (s.noted l) = lasting s := (rfl)

@[simp] theorem bump_lasting (f n) : lasting (s.bump f n) = lasting s := (rfl)

@[simp] theorem event_lasting (f) : lasting (s.event f) = lasting s := (rfl)

@[simp] theorem pulse_lasting (n) : lasting (s.pulse n) = lasting s := (rfl)

@[simp] theorem send_lasting (p q pay) : lasting (s.send p q pay) = lasting s := (rfl)

@[simp] theorem sendIp_lasting (p q h pay) : lasting (s.sendIp p q h pay) = lasting s := (rfl)

@[simp] theorem cystad_lasting : lasting s.cystad = lasting s := (rfl)

@[simp] theorem freeWord_lasting : lasting s.freeWord.2 = lasting s := (rfl)

@[simp] theorem modSlot_lasting (i f) : lasting (s.modSlot i f) = lasting s := (rfl)

@[simp] theorem modAxis_lasting (i f) : lasting (s.modAxis i f) = lasting s := (rfl)

@[simp] theorem log_lasting (e) : lasting (s.log e) = lasting s := (rfl)

/-! ### Operands -/

@[simp] theorem violation_lasting (p wr byteAddr) : lasting (violation s p wr byteAddr) = lasting s := by
  simp [violation]

@[simp] theorem turnedAway_lasting (i a) : lasting (turnedAway s i a) = lasting s := by
  unfold turnedAway
  split <;> simp

@[simp] theorem atDoor_lasting (i a) (f : State → State) (h : lasting (f s) = lasting s) : lasting (atDoor s i a f) = lasting s := by
  unfold atDoor
  split <;> simp [h]

@[simp] theorem modEngine_lasting (e f) : lasting (s.modEngine e f) = lasting s := (rfl)

@[simp] theorem pulseAll_lasting (code t) : lasting (pulseAll s code t) = lasting s := (rfl)

@[simp] theorem levelEdge_lasting (code high t) : lasting (levelEdge s code high t) = lasting s := (rfl)

@[simp] theorem levelChange_lasting (code before after t) : lasting (levelChange s code before after t) = lasting s := by
  simp [levelChange]

/-! ### Egress -/

@[simp] theorem transit_lasting (p q n x) : lasting (transit s p q n x) = lasting s := by
  simp [transit]

@[simp] theorem withdrawFrames_lasting (c) : lasting (withdrawFrames s c) = lasting s := (rfl)

@[simp] theorem setWire_lasting (p x) : lasting (setWire s p x) = lasting s := (rfl)

@[simp] theorem losePort_lasting (p) : lasting (losePort s p) = lasting s := (rfl)

/-! ### Message -/

@[simp] theorem modHost_lasting (sender f) : lasting (s.modHost sender f) = lasting s := (rfl)

@[simp] theorem message_lasting (ps to_ x share) : lasting (message s ps to_ x share) = lasting s := by
  unfold message
  split <;> rfl

@[simp] theorem messageAhead_lasting (to_ x) : lasting (messageAhead s to_ x) = lasting s := by
  unfold messageAhead
  split <;> rfl

/-! ### Blaze -/

@[simp] theorem pulseMatches_lasting (mask t) : lasting (pulseMatches s mask t) = lasting s := by
  simp [pulseMatches]

@[simp] theorem fifoPut_lasting (b) : lasting (fifoPut s b) = lasting s := by
  simp [fifoPut]

@[simp] theorem triggerWith_lasting (b) : lasting (triggerWith s b) = lasting s := (rfl)

@[simp] theorem routeBlaze_lasting (mask b) : lasting (routeBlaze s mask b) = lasting s := by
  simp [routeBlaze]

@[simp] theorem countBlaze_lasting (b) : lasting (countBlaze s b) = lasting s := (rfl)

@[simp] theorem withholdBlaze_lasting (b) : lasting (withholdBlaze s b) = lasting s := (rfl)

@[simp] theorem issueBlaze_lasting (b) : lasting (issueBlaze s b) = lasting s := by
  simp [issueBlaze]

@[simp] theorem issueSystem_lasting (kind sev val0) : lasting (issueSystem s kind sev val0) = lasting s := by
  simp [issueSystem]

@[simp] theorem departureBlaze_lasting (val0) : lasting (departureBlaze s val0) = lasting s := by
  simp [departureBlaze]

@[simp] theorem popBlaze_lasting : lasting (popBlaze s) = lasting s := (rfl)

@[simp] theorem deliverPeer_lasting (b) : lasting (deliverPeer s b) = lasting s := by
  simp [deliverPeer]

@[simp] theorem flushReorder_lasting : lasting (flushReorder s) = lasting s := by
  simp [flushReorder]

@[simp] theorem countPeer_lasting (p b) : lasting (countPeer s p b) = lasting s := by
  simp [countPeer]

@[simp] theorem acceptPeer_lasting (p b) : lasting (acceptPeer s p b) = lasting s := by
  simp [acceptPeer]

@[simp] theorem peerBlaze_lasting (b) : lasting (peerBlaze s b) = lasting s := by
  unfold peerBlaze
  split <;> simp

theorem execBzPop_lasting (door) : outcomeLasting (execBzPop door s) = some (lasting s) := by
  simp [execBzPop]

theorem execBlazeMessageSend_lasting : outcomeLasting (execBlazeMessageSend s) = some (lasting s) := by
  unfold execBlazeMessageSend
  split
  · exact congrArg some (message_lasting s _ _ _ _)
  · rfl

theorem execPeerBlazeDeliver_lasting : outcomeLasting (execPeerBlazeDeliver s) = some (lasting s) := by
  unfold execPeerBlazeDeliver
  split <;> simp

/-! ### Deck -/

@[simp] theorem modRing_lasting (i f) : lasting (s.modRing i f) = lasting s := (rfl)

@[simp] theorem modCap_lasting (c f) : lasting (s.modCap c f) = lasting s := (rfl)

@[simp] theorem modLease_lasting (l f) : lasting (s.modLease l f) = lasting s := (rfl)

@[simp] theorem giveBlocks_lasting (l) : lasting (s.giveBlocks l) = lasting s := (rfl)

@[simp] theorem takeBlock_lasting : lasting s.takeBlock.2 = lasting s := (rfl)

@[simp] theorem showAcc_lasting : lasting (showAcc s) = lasting s := by
  simp [showAcc]

@[simp] theorem showRing_lasting (i) : lasting (showRing s i) = lasting s := by
  simp [showRing]

@[simp] theorem showCap_lasting (c) : lasting (showCap s c) = lasting s := by
  simp [showCap]

@[simp] theorem releaseCapture_lasting (c) : lasting (releaseCapture s c) = lasting s := by
  simp [releaseCapture]

@[simp] theorem endSession_lasting (x why) : lasting (endSession s x why) = lasting s := by
  simp [endSession]

@[simp] theorem clearLease_lasting (l) : lasting (clearLease s l) = lasting s := (rfl)

@[simp] theorem unleaseCapture_lasting (c) : lasting (unleaseCapture s c) = lasting s := by
  simp [unleaseCapture]

@[simp] theorem trimRing_lasting (i n) : lasting (trimRing s i n) = lasting s := by
  induction n generalizing s with
  | zero => rfl
  | succ n ih =>
    rw [trimRing]
    by_cases hfit : s.deck.rings[i].held.length + (if s.deck.rings[i].flight.isSome then 1 else 0) ≤ s.deck.rings[i].size
    · rw [if_pos hfit]
    · rw [if_neg hfit]
      split
      · rfl
      · rw [ih, giveBlocks_lasting, modRing_lasting]

@[simp] theorem trimAll_lasting (i) : lasting (trimAll s i) = lasting s := by
  simp [trimAll]

@[simp] theorem unleaseRing_lasting (i) : lasting (unleaseRing s i) = lasting s := by
  unfold unleaseRing
  split <;> simp

@[simp] theorem closeLease_lasting (l) : lasting (closeLease s l) = lasting s := by
  simp [closeLease]

@[simp] theorem tellHolder_lasting (l) : lasting (tellHolder s l) = lasting s := by
  unfold tellHolder
  split <;> simp

@[simp] theorem countRevoke_lasting (lost) : lasting (countRevoke s lost) = lasting s := (rfl)

@[simp] theorem revokeLease_lasting (l) : lasting (revokeLease s l) = lasting s := by
  unfold revokeLease
  dsimp only
  repeat' split
  all_goals simp

theorem takeFree_lasting {s : State} {i n t} (h : takeFree s i = some (n, t)) : lasting t = lasting s := by
  unfold takeFree at h
  repeat' split at h
  all_goals cases h
  all_goals simp

@[simp] theorem beginBlock_lasting (i b) : lasting (beginBlock s i b) = lasting s := (rfl)

@[simp] theorem reuseOldest_lasting (i) : lasting (reuseOldest s i) = lasting s := by
  unfold reuseOldest
  split <;> simp

@[simp] theorem recycleBlock_lasting (i) : lasting (recycleBlock s i) = lasting s := by
  unfold recycleBlock
  dsimp only
  split
  · simp
  · split
    · simp [takeFree_lasting ‹_›]
    · simp

@[simp] theorem newFlight_lasting (i) : lasting (newFlight s i) = lasting s := by
  unfold newFlight
  split
  · simp [takeFree_lasting ‹_›]
  · simp

@[simp] theorem captureHeld_lasting (c) : lasting (captureHeld s c) = lasting s := by
  simp [captureHeld]

@[simp] theorem slotWindowDone_lasting (c i) : lasting (slotWindowDone s c i) = lasting s := by
  simp [slotWindowDone]

@[simp] theorem placeBlock_lasting (i b) : lasting (placeBlock s i b) = lasting s := by
  unfold placeBlock
  split <;> simp

@[simp] theorem windowsPassed_lasting (i b) : lasting (windowsPassed s i b) = lasting s := by
  simp [windowsPassed]

@[simp] theorem closeFlight_lasting (i) : lasting (closeFlight s i) = lasting s := by
  unfold closeFlight
  split <;> simp

@[simp] theorem addAnchor_lasting (i a) : lasting (addAnchor s i a) = lasting s := by
  unfold addAnchor
  split <;> simp

@[simp] theorem roomInFlight_lasting (i) : lasting (roomInFlight s i) = lasting s := by
  unfold roomInFlight
  split <;> simp

@[simp] theorem ringPut_lasting (i rate ssn t w) : lasting (ringPut s i rate ssn t w) = lasting s := by
  unfold ringPut
  dsimp only
  split <;> simp

@[simp] theorem ringCut_lasting (i) : lasting (ringCut s i) = lasting s := by
  simp [ringCut]

@[simp] theorem ringStep_lasting (i rate ssn w) : lasting (ringStep s i rate ssn w) = lasting s := by
  simp [ringStep]

@[simp] theorem ringRecord_lasting (i ssn r) : lasting (ringRecord s i ssn r) = lasting s := by
  unfold ringRecord
  split <;> simp

@[simp] theorem endCollection_lasting (c step) : lasting (endCollection s c step) = lasting s := by
  simp [endCollection]

@[simp] theorem stepCaptures_lasting (slots) : lasting (stepCaptures s slots) = lasting s := by
  simp [stepCaptures]

@[simp] theorem refuseCapture_lasting (c why) : lasting (refuseCapture s c why) = lasting s := (rfl)

@[simp] theorem collectSlot_lasting (c i) : lasting (collectSlot s c i) = lasting s := by
  unfold collectSlot
  dsimp only
  repeat' split
  all_goals simp

@[simp] theorem openWindow_lasting (c tb) : lasting (openWindow s c tb) = lasting s := by
  simp [openWindow]

@[simp] theorem admitCapture_lasting (c now tb) : lasting (admitCapture s c now tb) = lasting s := by
  unfold admitCapture
  dsimp only
  split <;> simp

@[simp] theorem triggerCapture_lasting (c now tb) : lasting (triggerCapture s c now tb) = lasting s := by
  simp [triggerCapture]

@[simp] theorem startWaiting_lasting (i t) : lasting (startWaiting s i t) = lasting s := by
  simp [startWaiting]

@[simp] theorem relCapture_lasting (c) : lasting (relCapture s c) = lasting s := by
  simp [relCapture]

@[simp] theorem sizeRings_lasting : lasting (sizeRings s) = lasting s := by
  simp [sizeRings]

@[simp] theorem startRings_lasting : lasting (startRings s) = lasting s := by
  simp [startRings]

@[simp] theorem clearDeck_lasting : lasting (clearDeck s) = lasting s := (rfl)

@[simp] theorem grantLease_lasting (l kind holder tgt idx info) : lasting (grantLease s l kind holder tgt idx info) = lasting s := (rfl)

@[simp] theorem renewLease_lasting (l) : lasting (renewLease s l) = lasting s := (rfl)

@[simp] theorem leaseCapture_lasting (holder kind c) : lasting (leaseCapture s holder kind c) = lasting s := by
  unfold leaseCapture
  split <;> simp

theorem leaseSpan_lasting {s : State} {holder kind i held l t} (h : leaseSpan s holder kind i held = some (l, t)) : lasting t = lasting s := by
  unfold leaseSpan at h
  split at h
  · cases h
    simp
  · cases h

@[simp] theorem leaseRing_lasting (holder kind i first last) : lasting (leaseRing s holder kind i first last) = lasting s := by
  unfold leaseRing
  split
  · exact leaseSpan_lasting ‹_›
  · simp

@[simp] theorem noteRead_lasting (l i first n) : lasting (noteRead s l i first n) = lasting s := (rfl)

@[simp] theorem ageLease_lasting (ms l) : lasting (ageLease s ms l) = lasting s := by
  unfold ageLease
  dsimp only
  repeat' split
  all_goals simp

@[simp] theorem requestDown_lasting : lasting (requestDown s) = lasting s := (rfl)

theorem execDeckBlockClose_lasting (slot) : outcomeLasting (execDeckBlockClose slot s) = some (lasting s) := by
  unfold execDeckBlockClose
  split <;> simp

@[simp] theorem dropTrigger_lasting (p) : lasting (dropTrigger s p) = lasting s := (rfl)

theorem execCaptureTrigger_lasting (c) : outcomeLasting (execCaptureTrigger c s) = some (lasting s) := by
  unfold execCaptureTrigger
  split <;> simp

theorem execCaptureTrigCmd_lasting (door c) : outcomeLasting (execCaptureTrigCmd door c s) = some (lasting s) := by
  simp [execCaptureTrigCmd]

theorem execCaptureReleaseCmd_lasting (door c) : outcomeLasting (execCaptureReleaseCmd door c s) = some (lasting s) := by
  simp [execCaptureReleaseCmd]

@[simp] theorem endWindow_lasting (c i) : lasting (endWindow s c i) = lasting s := by
  simp [endWindow]

theorem execCaptureWindowEnd_lasting (c) : outcomeLasting (execCaptureWindowEnd c s) = some (lasting s) := by
  simp [execCaptureWindowEnd]

@[simp] theorem writeDkCap_lasting (c w v) : lasting (writeDkCap s c w v) = lasting s := by
  simp [writeDkCap]

theorem execDkCapWrite_lasting (door c w v) : outcomeLasting (execDkCapWrite door c w v s) = some (lasting s) := by
  simp [execDkCapWrite]

@[simp] theorem leaseCall_lasting (holder call) : lasting (leaseCall s holder call) = lasting s := by
  unfold leaseCall
  split <;> simp

theorem execLeaseRequest_lasting (holder call) : outcomeLasting (execLeaseRequest holder call s) = some (lasting s) := by
  simp [execLeaseRequest]

theorem execLeaseScan_lasting (ms) : outcomeLasting (execLeaseScan ms s) = some (lasting s) := by
  simp [execLeaseScan]

/-! ### Blocks -/

@[simp] theorem feedSetups_lasting (p i rs) : lasting (feedSetups s p i rs) = lasting s := (rfl)

/-! ### Region -/

@[simp] theorem modTally_lasting (f) : lasting (s.modTally f) = lasting s := (rfl)

@[simp] theorem setRegion_lasting (r x) : lasting (s.setRegion r x) = lasting s := by
  unfold State.setRegion
  dsimp only
  repeat' split
  all_goals simp

@[simp] theorem setContent_lasting (r p l) : lasting (s.setContent r p l) = lasting s := by
  simp [State.setContent]

@[simp] theorem showComseq_lasting : lasting (showComseq s) = lasting s := (rfl)

@[simp] theorem appendSeal_lasting (x) : lasting (appendSeal s x) = lasting s := (rfl)

@[simp] theorem modCust_lasting (p f) : lasting (s.modCust p f) = lasting s := (rfl)

@[simp] theorem sendRequest_lasting (p want offset nch) : lasting (sendRequest s p want offset nch) = lasting s := by
  simp [sendRequest]

@[simp] theorem requestChunks_lasting (p f) : lasting (requestChunks s p f) = lasting s := by
  simp [requestChunks]

@[simp] theorem startFetch_lasting (p f) : lasting (startFetch s p f) = lasting s := by
  simp [startFetch]

@[simp] theorem startLook_lasting (p o) : lasting (startLook s p o) = lasting s := by
  simp [startLook]

@[simp] theorem coppiceWait_lasting (why) : lasting (coppiceWait s why) = lasting s := by
  simp [coppiceWait]

@[simp] theorem coppiceTake_lasting (p o) : lasting (coppiceTake s p o) = lasting s := by
  simp [coppiceTake]

@[simp] theorem lookAt_lasting (p o) : lasting (lookAt s p o) = lasting s := by
  simp [lookAt]

@[simp] theorem coppiceChoose_lasting : lasting (coppiceChoose s) = lasting s := by
  unfold coppiceChoose
  repeat' split
  all_goals simp

@[simp] theorem coppiceDrop_lasting (p) : lasting (coppiceDrop s p) = lasting s := by
  simp [coppiceDrop]

@[simp] theorem custodyLinkDown_lasting (p) : lasting (custodyLinkDown s p) = lasting s := by
  simp [custodyLinkDown]

@[simp] theorem showDirty_lasting : lasting (showDirty s) = lasting s := (rfl)

@[simp] theorem noteLive_lasting (r) : lasting (noteLive s r) = lasting s := by
  simp [noteLive]

/-! ### Landing -/

@[simp] theorem modLand_lasting (i f) : lasting (s.modLand i f) = lasting s := (rfl)

@[simp] theorem setChunks_lasting (l) : lasting (s.setChunks l) = lasting s := (rfl)

@[simp] theorem showChunks_lasting : lasting (showChunks s) = lasting s := (rfl)

@[simp] theorem sweepChunks_lasting (i) : lasting (sweepChunks s i) = lasting s := (rfl)

@[simp] theorem detach_lasting (i mask) : lasting (detach s i mask) = lasting s := by
  simp [detach]

@[simp] theorem reclaimChunk_lasting (i ssn) : lasting (reclaimChunk s i ssn) = lasting s := by
  unfold reclaimChunk
  dsimp only
  repeat' split
  all_goals simp

@[simp] theorem chunkRecord_lasting (i ssn r begins) : lasting (chunkRecord s i ssn r begins) = lasting s := by
  simp [chunkRecord]

@[simp] theorem modStream_lasting (k f) : lasting (s.modStream k f) = lasting s := (rfl)

@[simp] theorem closePub_lasting (k fin step nextSsn) : lasting (closePub s k fin step nextSsn) = lasting s := by
  simp [closePub]

@[simp] theorem streamRecord_lasting (i r) : lasting (streamRecord s i r) = lasting s := by
  simp [streamRecord]

@[simp] theorem recogTake_lasting (i l) : lasting (recogTake s i l) = lasting s := (rfl)

@[simp] theorem engineTake_lasting (i l) : lasting (engineTake s i l) = lasting s := (rfl)

@[simp] theorem feedPartition_lasting (i l) : lasting (feedPartition s i l) = lasting s := by
  simp [feedPartition]

@[simp] theorem deliverTo_lasting (i b l) : lasting (deliverTo s i b l) = lasting s := by
  simp [deliverTo]

@[simp] theorem takeRecords_lasting (i mask) : lasting (takeRecords s i mask) = lasting s := by
  simp [takeRecords]

@[simp] theorem releaseLanding_lasting (i want) : lasting (releaseLanding s i want) = lasting s := by
  simp [releaseLanding]

@[simp] theorem attachAt_lasting (i ssn begins) : lasting (attachAt s i ssn begins) = lasting s := by
  simp [attachAt]

@[simp] theorem landRecord_lasting (i ssn r mask) : lasting (landRecord s i ssn r mask) = lasting s := by
  simp [landRecord]

@[simp] theorem numberRecord_lasting (i r) : lasting (numberRecord s i r) = lasting s := by
  unfold numberRecord
  split <;> simp

@[simp] theorem queueRecord_lasting (i r t rate mask) : lasting (queueRecord s i r t rate mask) = lasting s := by
  unfold queueRecord
  dsimp only
  repeat' split
  all_goals simp

@[simp] theorem detachWork_lasting : lasting (detachWork s) = lasting s := by
  simp [detachWork]

@[simp] theorem drainToDeck_lasting : lasting (drainToDeck s) = lasting s := by
  simp [drainToDeck]

@[simp] theorem closeChunk_lasting (i) : lasting (closeChunk s i) = lasting s := (rfl)

@[simp] theorem withdraw_lasting : lasting (withdraw s) = lasting s := (rfl)

/-! ### Mill -/

@[simp] theorem storeRw_lasting (a v) : lasting (storeRw s a v) = lasting s := (rfl)

@[simp] theorem orFree_lasting (x) : lasting (s.orFree x).2 = lasting s := by
  unfold State.orFree
  split <;> simp

@[simp] theorem showBank_lasting (i) : lasting (showBank s i) = lasting s := by
  simp [showBank]

@[simp] theorem setBank_lasting (i b st) : lasting (setBank s i b st) = lasting s := by
  simp [setBank]

@[simp] theorem finishSwap_lasting (i res) : lasting (finishSwap s i res) = lasting s := by
  simp [finishSwap]

@[simp] theorem forceSwap_lasting (i) : lasting (forceSwap s i) = lasting s := by
  simp [forceSwap]

@[simp] theorem countRestart_lasting (i) : lasting (countRestart s i) = lasting s := by
  simp [countRestart]

@[simp] theorem suppressAt_lasting (i exc e) : lasting (suppressAt s i exc e) = lasting s := by
  simp [suppressAt]

@[simp] theorem suppress_lasting (i exc) : lasting (suppress s i exc) = lasting s := by
  simp [suppress]

@[simp] theorem channelSwitch_lasting (l) : lasting (channelSwitch s l) = lasting s := by
  simp [channelSwitch]

@[simp] theorem discardResults_lasting (i) : lasting (discardResults s i) = lasting s := by
  simp [discardResults]

@[simp] theorem syncReset_lasting (l) : lasting (syncReset s l) = lasting s := by
  simp [syncReset]

@[simp] theorem startBank_lasting (i) : lasting (startBank s i) = lasting s := by
  simp [startBank]

@[simp] theorem stopBanks_lasting (i st) : lasting (stopBanks s i st) = lasting s := by
  simp [stopBanks]

@[simp] theorem stopWindow_lasting (i S) (f : State → State) (h : ∀ t, lasting (f t) = lasting t) : lasting (stopWindow s i S f) = lasting s := by
  unfold stopWindow
  split <;> simp [h]

@[simp] theorem requestSwap_lasting (i) : lasting (requestSwap s i) = lasting s := by
  simp [requestSwap]

@[simp] theorem writeBank_lasting (k a v) : lasting (writeBank s k a v) = lasting s := by
  simp [writeBank]

theorem execMlSwap_lasting (door slot) : outcomeLasting (execMlSwap door slot s) = some (lasting s) := by
  simp [execMlSwap]

theorem execSwapWarmupEnd_lasting (slot) : outcomeLasting (execSwapWarmupEnd slot s) = some (lasting s) := by
  simp [execSwapWarmupEnd]

theorem execSwapFadeEnd_lasting (slot) : outcomeLasting (execSwapFadeEnd slot s) = some (lasting s) := by
  simp [execSwapFadeEnd]

theorem execMillBankWrite_lasting (door addr v) : outcomeLasting (execMillBankWrite door addr v s) = some (lasting s) := by
  unfold execMillBankWrite
  split <;> simp

theorem execMillEccCorrect_lasting : outcomeLasting (execMillEccCorrect s) = some (lasting s) := by
  simp [execMillEccCorrect]

theorem execSlotSettled_lasting (slot) : outcomeLasting (execSlotSettled slot s) = some (lasting s) := by
  simp [execSlotSettled]

/-! ### Hk -/

@[simp] theorem requestInj_lasting (k) : lasting (requestInj s k) = lasting s := by
  simp [requestInj]

@[simp] theorem requestSup_lasting (input) : lasting (requestSup s input) = lasting s := by
  simp [requestSup]

@[simp] theorem storeResult_lasting (a value ovr notset) : lasting (storeResult s a value ovr notset) = lasting s := by
  simp [storeResult]

@[simp] theorem passResult_lasting (dest t value ovr) : lasting (passResult s dest t value ovr) = lasting s := by
  unfold passResult
  split <;> simp

@[simp] theorem setNotset_lasting (b) : lasting (setNotset s b) = lasting s := (rfl)

@[simp] theorem refUnsettle_lasting : lasting (refUnsettle s) = lasting s := (rfl)

@[simp] theorem refReady_lasting : lasting (refReady s) = lasting s := (rfl)

@[simp] theorem writeHkCtl_lasting (v) : lasting (writeHkCtl s v) = lasting s := by
  simp [writeHkCtl]

/-! ### Cal -/

@[simp] theorem modCal_lasting (i f) : lasting (s.modCal i f) = lasting s := (rfl)

@[simp] theorem thermUpdate_lasting : lasting (thermUpdate s) = lasting s := by
  simp [thermUpdate]

@[simp] theorem calTrigger_lasting (i slope degr) : lasting (calTrigger s i slope degr) = lasting s := by
  simp [calTrigger]

@[simp] theorem calRest_lasting (i) : lasting (calRest s i) = lasting s := by
  simp [calRest]

@[simp] theorem clearQuiet_lasting (i) : lasting (clearQuiet s i) = lasting s := (rfl)

@[simp] theorem endRun_lasting (i) : lasting (endRun s i) = lasting s := by
  simp [endRun]

@[simp] theorem abandonRun_lasting (i) : lasting (abandonRun s i) = lasting s := by
  simp [abandonRun]

@[simp] theorem abandonIf_lasting (i) : lasting (abandonIf s i) = lasting s := by
  simp [abandonIf]

@[simp] theorem abandonAny_lasting : lasting (abandonAny s) = lasting s := by
  unfold abandonAny
  split <;> simp

@[simp] theorem stopSlot_lasting (i S) (f : State → State) (h : ∀ t, lasting (f t) = lasting t) : lasting (stopSlot s i S f) = lasting s := by
  unfold stopSlot
  split <;> simp [h]

@[simp] theorem suppressCal_lasting (i exc) : lasting (suppressCal s i exc) = lasting s := by
  unfold suppressCal
  split <;> simp

@[simp] theorem startRun_lasting (i) : lasting (startRun s i) = lasting s := by
  unfold startRun
  dsimp only
  rw [thermUpdate_lasting, requestSup_lasting, modSlot_lasting, setCal_lasting, modCal_lasting, clearQuiet_lasting, set_lasting, set_lasting]

@[simp] theorem runResult_lasting (value notset) : lasting (runResult s value notset) = lasting s := by
  unfold runResult
  split
  · rfl
  · dsimp only
    split
    · rw [setCal_lasting, requestSup_lasting]
      repeat' split
      all_goals simp
    · repeat' split
      all_goals simp
    · split <;> rfl
    · split <;> rfl

@[simp] theorem noteRunQ_lasting (i) : lasting (noteRunQ s i) = lasting s := (rfl)

@[simp] theorem updateQcoef_lasting (i ofs) : lasting (updateQcoef s i ofs) = lasting s := by
  unfold updateQcoef
  split <;> simp

@[simp] theorem passRun_lasting (i m) : lasting (passRun s i m) = lasting s := by
  simp [passRun]

@[simp] theorem failRun_lasting (i why) : lasting (failRun s i why) = lasting s := by
  simp [failRun]

@[simp] theorem stepTrim_lasting (dac res target rtarget) : lasting (stepTrim s dac res target rtarget) = lasting s := by
  simp [stepTrim]

@[simp] theorem noteStep_lasting (i) : lasting (noteStep s i) = lasting s := (rfl)

@[simp] theorem endSlew_lasting (i) : lasting (endSlew s i) = lasting s := by
  simp [endSlew]

@[simp] theorem slewAxis_lasting (i) : lasting (slewAxis s i) = lasting s := by
  unfold slewAxis
  dsimp only
  split <;> simp

@[simp] theorem slewWithDrive_lasting (i) : lasting (slewWithDrive s i) = lasting s := by
  simp [slewWithDrive]

@[simp] theorem slewDrive_lasting : lasting (slewDrive s) = lasting s := by
  simp [slewDrive]

@[simp] theorem showWalk_lasting : lasting (showWalk s) = lasting s := (rfl)

@[simp] theorem walkClassB_lasting : lasting (walkClassB s) = lasting s := by
  simp [walkClassB]

@[simp] theorem setTaps_lasting (raw) : lasting (setTaps s raw) = lasting s := by
  simp [setTaps]

@[simp] theorem measureClassB_lasting (m) : lasting (measureClassB s m) = lasting s := by
  unfold measureClassB
  dsimp only
  split <;> simp

@[simp] theorem calSettle_lasting (m) : lasting (calSettle s m) = lasting s := by
  simp [calSettle]

@[simp] theorem freeTargets_lasting (n) : lasting (freeTargets s n).2 = lasting s := by
  induction n generalizing s with
  | zero => rfl
  | succ n ih => simp [freeTargets, ih]

@[simp] theorem leaveSettle_lasting : lasting (leaveSettle s) = lasting s := by
  simp [leaveSettle]

@[simp] theorem watchTemp_lasting (input v m) : lasting (watchTemp s input v m) = lasting s := by
  simp [watchTemp]

@[simp] theorem settleSlews_lasting (i) : lasting (settleSlews s i) = lasting s := by
  simp [settleSlews]

@[simp] theorem takeStore_lasting : lasting (takeStore s) = lasting s := by
  simp [takeStore]

@[simp] theorem calSnapshotOp_lasting : lasting (calSnapshotOp s) = lasting s := (rfl)

@[simp] theorem calOpenOp_lasting : lasting (calOpenOp s) = lasting s := (rfl)

@[simp] theorem calCommitOp_lasting : lasting (calCommitOp s) = lasting s := by
  simp [calCommitOp]

@[simp] theorem calCloseOp_lasting : lasting (calCloseOp s) = lasting s := (rfl)

@[simp] theorem writeCalRst_lasting (v) : lasting (writeCalRst s v) = lasting s := by
  unfold writeCalRst
  split <;> simp

@[simp] theorem calRunOp_lasting (mask) : lasting (calRunOp s mask) = lasting s := by
  simp [calRunOp]

@[simp] theorem calClassbOp_lasting (m) : lasting (calClassbOp s m) = lasting s := by
  simp [calClassbOp]

theorem execCalRetryTimer_lasting (axis) : outcomeLasting (execCalRetryTimer axis s) = some (lasting s) := by
  simp [execCalRetryTimer]

theorem execCalAbandonRetry_lasting (axis) : outcomeLasting (execCalAbandonRetry axis s) = some (lasting s) := by
  simp [execCalAbandonRetry]

theorem execCalSlopeUpdate_lasting : outcomeLasting (execCalSlopeUpdate s) = some (lasting s) := by
  simp [execCalSlopeUpdate]

theorem execCalRunStart_lasting : outcomeLasting (execCalRunStart s) = some (lasting s) := by
  unfold execCalRunStart
  repeat' split
  all_goals simp

theorem execCalRunEnd_lasting (res) : outcomeLasting (execCalRunEnd res s) = some (lasting s) := by
  unfold execCalRunEnd
  repeat' split
  all_goals simp

theorem execCalSlewStep_lasting (axis) : outcomeLasting (execCalSlewStep axis s) = some (lasting s) := by
  unfold execCalSlewStep
  repeat' split
  all_goals simp

theorem execClassbTapStep_lasting : outcomeLasting (execClassbTapStep s) = some (lasting s) := by
  simp [execClassbTapStep]

theorem execCalRunCmd_lasting (door mask) : outcomeLasting (execCalRunCmd door mask s) = some (lasting s) := by
  simp [execCalRunCmd]

theorem execCalClassbCmd_lasting (door targets) : outcomeLasting (execCalClassbCmd door targets s) = some (lasting s) := by
  simp [execCalClassbCmd]

theorem execCalSnapshot_lasting (door) : outcomeLasting (execCalSnapshot door s) = some (lasting s) := by
  simp [execCalSnapshot]

theorem execCalOpen_lasting (door) : outcomeLasting (execCalOpen door s) = some (lasting s) := by
  simp [execCalOpen]

theorem execCalCommit_lasting (door) : outcomeLasting (execCalCommit door s) = some (lasting s) := by
  simp [execCalCommit]

theorem execCalClose_lasting (door) : outcomeLasting (execCalClose door s) = some (lasting s) := by
  simp [execCalClose]

/-! ### AuxChannel -/

@[simp] theorem auxKeep_lasting (a) : lasting (auxKeep s a) = lasting s := (rfl)

@[simp] theorem writeAux_lasting (a v) : lasting (writeAux s a v) = lasting s := (rfl)

@[simp] theorem startTacho_lasting : lasting (startTacho s) = lasting s := (rfl)

@[simp] theorem holdLevel_lasting : lasting (holdLevel s) = lasting s := (rfl)

@[simp] theorem driveAux_lasting : lasting (driveAux s) = lasting s := by
  simp [driveAux]

@[simp] theorem faultDriver_lasting : lasting (faultDriver s) = lasting s := by
  simp [faultDriver]

@[simp] theorem endClamp_lasting : lasting (endClamp s) = lasting s := by
  simp [endClamp]

@[simp] theorem startDriver_lasting : lasting (startDriver s) = lasting s := by
  simp [startDriver]

@[simp] theorem startClamp_lasting (ticks) : lasting (startClamp s ticks) = lasting s := by
  simp [startClamp]

@[simp] theorem setPflt_lasting (n) : lasting (setPflt s n) = lasting s := by
  simp [setPflt]

@[simp] theorem checkMonitor_lasting : lasting (checkMonitor s) = lasting s := by
  simp [checkMonitor]

@[simp] theorem watchAuxcm_lasting (v) : lasting (watchAuxcm s v) = lasting s := by
  simp [watchAuxcm]

@[simp] theorem takeFunction_lasting : lasting (takeFunction s) = lasting s := by
  simp [takeFunction]

@[simp] theorem applyAux_lasting (t) : lasting (applyAux s t) = lasting s := by
  simp [applyAux]

@[simp] theorem auxToSerial_lasting : lasting (auxToSerial s) = lasting s := (rfl)

@[simp] theorem auxFromSerial_lasting : lasting (auxFromSerial s) = lasting s := by
  simp [auxFromSerial]

@[simp] theorem activeEdge_lasting (tick) : lasting (activeEdge s tick) = lasting s := by
  unfold activeEdge
  dsimp only
  repeat' split
  all_goals simp

@[simp] theorem noteMove_lasting : lasting (noteMove s) = lasting s := (rfl)

@[simp] theorem acceptEdge_lasting : lasting (acceptEdge s) = lasting s := by
  unfold acceptEdge
  dsimp only
  repeat' split
  all_goals simp

theorem execAuxFuncWrite_lasting (door cfg prb) : outcomeLasting (execAuxFuncWrite door cfg prb s) = some (lasting s) := by
  simp [execAuxFuncWrite]

theorem execAuxFuncApply_lasting : outcomeLasting (execAuxFuncApply s) = some (lasting s) := by
  simp [execAuxFuncApply]

theorem execAuxClampEdge_lasting (ticks) : outcomeLasting (execAuxClampEdge ticks s) = some (lasting s) := by
  simp [execAuxClampEdge]

theorem execAuxComparatorChange_lasting (drive) : outcomeLasting (execAuxComparatorChange drive s) = some (lasting s) := by
  simp [execAuxComparatorChange]

theorem execAuxEdgeAccept_lasting : outcomeLasting (execAuxEdgeAccept s) = some (lasting s) := by
  simp [execAuxEdgeAccept]

theorem execAuxPulseAbsorb_lasting : outcomeLasting (execAuxPulseAbsorb s) = some (lasting s) := by
  simp [execAuxPulseAbsorb]

theorem execAuxStuck_lasting : outcomeLasting (execAuxStuck s) = some (lasting s) := by
  simp [execAuxStuck]

@[simp] theorem leadMeasure_lasting : lasting (leadMeasure s) = lasting s := by
  simp [leadMeasure]

theorem execAuxLeadmeasCmd_lasting (door) : outcomeLasting (execAuxLeadmeasCmd door s) = some (lasting s) := by
  simp [execAuxLeadmeasCmd]

theorem execAuxLeadmeasEnd_lasting : outcomeLasting (execAuxLeadmeasEnd s) = some (lasting s) := by
  simp [execAuxLeadmeasEnd]

theorem execAuxOutputFault_lasting : outcomeLasting (execAuxOutputFault s) = some (lasting s) := by
  simp [execAuxOutputFault]

theorem execAuxOutputRestore_lasting : outcomeLasting (execAuxOutputRestore s) = some (lasting s) := by
  simp [execAuxOutputRestore]

/-! ### Filter -/

@[simp] theorem modMill_lasting (i f) : lasting (s.modMill i f) = lasting s := (rfl)

@[simp] theorem takeWindow_lasting (i w) : lasting (takeWindow s i w) = lasting s := by
  simp [takeWindow]

@[simp] theorem takeWindows_lasting (i l) : lasting (takeWindows s i l) = lasting s := by
  unfold takeWindows
  dsimp only
  repeat' split
  all_goals simp

@[simp] theorem passRecord_lasting (i t) : lasting (passRecord s i t) = lasting s := by
  simp [passRecord]

/-! ### Grid -/

@[simp] theorem noteOver_lasting (i n) : lasting (noteOver s i n) = lasting s := by
  unfold noteOver
  split <;> simp

@[simp] theorem noteQ_lasting (l) : lasting (noteQ s l) = lasting s := by
  simp [noteQ]

@[simp] theorem noteProbe_lasting (i y) : lasting (noteProbe s i y) = lasting s := by
  simp [noteProbe]

@[simp] theorem noteStale_lasting (r) : lasting (noteStale s r) = lasting s := by
  simp [noteStale]

@[simp] theorem noteRec_lasting (i t r) : lasting (noteRec s i t r) = lasting s := by
  simp [noteRec]

@[simp] theorem noteMeasures_lasting (i t r y) : lasting (noteMeasures s i t r y) = lasting s := by
  simp [noteMeasures]

@[simp] theorem valueOrFree_lasting (i t) : lasting (valueOrFree s i t).2 = lasting s := by
  unfold valueOrFree
  repeat' split
  all_goals simp

@[simp] theorem formRecord_lasting (i t win q taken) : lasting (formRecord s i t win q taken) = lasting s := by
  simp [formRecord]

@[simp] theorem queueOld_lasting (i t) : lasting (queueOld s i t) = lasting s := by
  simp [queueOld]

@[simp] theorem stepSlot_lasting (cause jump i) : lasting (stepSlot s cause jump i) = lasting s := by
  simp [stepSlot]

@[simp] theorem stepRecords_lasting (cause jump) : lasting (stepRecords s cause jump) = lasting s := by
  simp [stepRecords]

@[simp] theorem stepMill_lasting (jump) : lasting (stepMill s jump) = lasting s := by
  simp [stepMill]

@[simp] theorem slotSync_lasting (i) : lasting (slotSync s i) = lasting s := by
  unfold slotSync
  dsimp only
  repeat' split
  all_goals simp

@[simp] theorem globalSync_lasting : lasting (globalSync s) = lasting s := by
  unfold globalSync
  dsimp only
  rw [lasting_foldl _ _ (by intro s i; split <;> simp), syncReset_lasting]

@[simp] theorem writeMlCtl_lasting (i v) : lasting (writeMlCtl s i v) = lasting s := by
  simp [writeMlCtl]

theorem execMlSlotSync_lasting (door slot) : outcomeLasting (execMlSlotSync door slot s) = some (lasting s) := by
  simp [execMlSlotSync]

theorem execMlGlobalSync_lasting (door) : outcomeLasting (execMlGlobalSync door s) = some (lasting s) := by
  simp [execMlGlobalSync]

theorem execMillEccError_lasting (slot) : outcomeLasting (execMillEccError slot s) = some (lasting s) := by
  simp [execMillEccError]

/-! ### Axes -/

@[simp] theorem restartCount_lasting (i) : lasting (restartCount s i) = lasting s := (rfl)

@[simp] theorem showQuiet_lasting (i q) : lasting (showQuiet s i q) = lasting s := (rfl)

@[simp] theorem startAxis_lasting (i) : lasting (startAxis s i) = lasting s := (rfl)

@[simp] theorem decideRange_lasting (i r) : lasting (decideRange s i r) = lasting s := by
  simp [decideRange]

@[simp] theorem ungate_lasting (l) : lasting (ungate s l) = lasting s := by
  simp [ungate]

@[simp] theorem gate_lasting (l) : lasting (gate s l) = lasting s := by
  simp [gate]

@[simp] theorem gateW_lasting (closed) : lasting (gateW s closed) = lasting s := by
  simp [gateW]

@[simp] theorem forgetQ_lasting : lasting (forgetQ s) = lasting s := (rfl)

@[simp] theorem gateQ_lasting (closed) : lasting (gateQ s closed) = lasting s := by
  unfold gateQ
  dsimp only
  split
  · simp
  · rw [ungate_lasting, set_lasting, set_lasting]
    exact when_lasting _ _ _ rfl

@[simp] theorem disarmTwist_lasting : lasting (disarmTwist s) = lasting s := (rfl)

@[simp] theorem startDrive_lasting : lasting (startDrive s) = lasting s := (rfl)

@[simp] theorem gateDrive_lasting (closed) : lasting (gateDrive s closed) = lasting s := by
  simp [gateDrive]

@[simp] theorem applyExc_lasting (i) : lasting (applyExc s i) = lasting s := by
  simp [applyExc]

@[simp] theorem writeAxCfg_lasting (i v) : lasting (writeAxCfg s i v) = lasting s := by
  simp [writeAxCfg]

theorem execAxCfgWrite_lasting (door axis v) : outcomeLasting (execAxCfgWrite door axis v s) = some (lasting s) := by
  simp [execAxCfgWrite]

theorem execRangeUpDecision_lasting (axis code) : outcomeLasting (execRangeUpDecision axis code s) = some (lasting s) := by
  simp [execRangeUpDecision]

theorem execRangeDownDecision_lasting (axis runs) : outcomeLasting (execRangeDownDecision axis runs s) = some (lasting s) := by
  simp [execRangeDownDecision]

@[simp] theorem switchRange_lasting (i r) : lasting (switchRange s i r) = lasting s := by
  simp [switchRange]

theorem execRangeSwitch_lasting (axis) : outcomeLasting (execRangeSwitch axis s) = some (lasting s) := by
  unfold execRangeSwitch
  repeat' split
  all_goals simp

theorem execExcitationChangeApply_lasting (axis) : outcomeLasting (execExcitationChangeApply axis s) = some (lasting s) := by
  simp [execExcitationChangeApply]

theorem execDriveLock_lasting (freq) : outcomeLasting (execDriveLock freq s) = some (lasting s) := by
  simp [execDriveLock]

theorem execDriveUnlock_lasting : outcomeLasting (execDriveUnlock s) = some (lasting s) := by
  simp [execDriveUnlock]

/-! ### Converters -/

@[simp] theorem setUser_lasting (i g o) : lasting (setUser s i g o) = lasting s := (rfl)

@[simp] theorem scalFail_lasting (why) : lasting (scalFail s why) = lasting s := (rfl)

@[simp] theorem scalStartZ_lasting : lasting (scalStartZ s) = lasting s := by
  simp [scalStartZ]

@[simp] theorem scalStartS_lasting : lasting (scalStartS s) = lasting s := by
  simp [scalStartS]

@[simp] theorem scalStop_lasting : lasting (scalStop s) = lasting s := by
  simp [scalStop]

@[simp] theorem scalAbortOp_lasting : lasting (scalAbortOp s) = lasting s := by
  simp [scalAbortOp]

@[simp] theorem dropLiveCal_lasting (c) : lasting (dropLiveCal s c) = lasting s := (rfl)

@[simp] theorem scalDiscardOp_lasting : lasting (scalDiscardOp s) = lasting s := by
  simp [scalDiscardOp]

@[simp] theorem writeScalCmd_lasting (v) : lasting (writeScalCmd s v) = lasting s := by
  simp [writeScalCmd]

@[simp] theorem scalResult_lasting (c ms) : lasting (scalResult s c ms) = lasting s := by
  simp [scalResult]

@[simp] theorem endCapture_lasting (c) : lasting (endCapture s c) = lasting s := by
  simp [endCapture]

@[simp] theorem hkApply_lasting : lasting (hkApply s) = lasting s := (rfl)

@[simp] theorem writeHkCmd_lasting (v) : lasting (writeHkCmd s v) = lasting s := by
  simp [writeHkCmd]

@[simp] theorem adoptSeq_lasting : lasting (adoptSeq s) = lasting s := by
  simp [adoptSeq]

@[simp] theorem noteTemp_lasting (input v) : lasting (noteTemp s input v) = lasting s := (rfl)

@[simp] theorem takeResult_lasting (e t value ovr targets) : lasting (takeResult s e t value ovr targets) = lasting s := by
  simp [takeResult]

@[simp] theorem endEntry_lasting (xs targets) : lasting (endEntry s xs targets) = lasting s := by
  simp [endEntry]

theorem execRefbufEnable_lasting (door v) : outcomeLasting (execRefbufEnable door v s) = some (lasting s) := by
  simp [execRefbufEnable]

theorem execRefbufSettled_lasting : outcomeLasting (execRefbufSettled s) = some (lasting s) := by
  simp [execRefbufSettled]

theorem execHkPassStart_lasting : outcomeLasting (execHkPassStart s) = some (lasting s) := by
  simp [execHkPassStart]

theorem execHkApplyCmd_lasting (door) : outcomeLasting (execHkApplyCmd door s) = some (lasting s) := by
  simp [execHkApplyCmd]

theorem execHkInjCmd_lasting (door) : outcomeLasting (execHkInjCmd door s) = some (lasting s) := by
  simp [execHkInjCmd]

theorem execHkInjectionStart_lasting : outcomeLasting (execHkInjectionStart s) = some (lasting s) := by
  unfold execHkInjectionStart
  repeat' split
  all_goals simp

theorem execHkInjectionEnd_lasting (xs) : outcomeLasting (execHkInjectionEnd xs s) = some (lasting s) := by
  unfold execHkInjectionEnd
  repeat' split
  all_goals simp

theorem execScalCapz_lasting (door) : outcomeLasting (execScalCapz door s) = some (lasting s) := by
  simp [execScalCapz]

theorem execScalCaps_lasting (door) : outcomeLasting (execScalCaps door s) = some (lasting s) := by
  simp [execScalCaps]

theorem execScalAbort_lasting (door) : outcomeLasting (execScalAbort door s) = some (lasting s) := by
  simp [execScalAbort]

theorem execScalDiscard_lasting (door) : outcomeLasting (execScalDiscard door s) = some (lasting s) := by
  simp [execScalDiscard]

theorem execScalCaptureEnd_lasting : outcomeLasting (execScalCaptureEnd s) = some (lasting s) := by
  unfold execScalCaptureEnd
  split <;> simp

/-! ### TimeUnit -/

@[simp] theorem modTime_lasting (f) : lasting (s.modTime f) = lasting s := (rfl)

@[simp] theorem loadY_lasting (y) : lasting (loadY s y) = lasting s := (rfl)

@[simp] theorem holdServo_lasting : lasting (holdServo s) = lasting s := (rfl)

@[simp] theorem setTimeState_lasting (st) : lasting (setTimeState s st) = lasting s := by
  simp [setTimeState]

@[simp] theorem servo_lasting (o) : lasting (servo s o) = lasting s := by
  simp [servo]

@[simp] theorem showCand_lasting (o) : lasting (showCand s o) = lasting s := (rfl)

@[simp] theorem showElapsed_lasting : lasting (showElapsed s) = lasting s := (rfl)

@[simp] theorem refuse_lasting (o at_) : lasting (refuse s o at_) = lasting s := by
  simp [refuse]

@[simp] theorem dropCand_lasting : lasting (dropCand s) = lasting s := (rfl)

@[simp] theorem noteAccepted_lasting : lasting (noteAccepted s) = lasting s := (rfl)

@[simp] theorem confirm_lasting (o at_) : lasting (confirm s o at_) = lasting s := by
  simp [confirm]

@[simp] theorem update_lasting (o at_) : lasting (update s o at_) = lasting s := by
  unfold update
  split <;> simp

@[simp] theorem guardTest_lasting (o at_) : lasting (guardTest s o at_) = lasting s := by
  unfold guardTest
  split <;> simp

@[simp] theorem takeSettings_lasting : lasting (takeSettings s) = lasting s := (rfl)

@[simp] theorem offsetUpdate_lasting (o at_) : lasting (offsetUpdate s o at_) = lasting s := by
  simp [offsetUpdate]

@[simp] theorem openGuard_lasting : lasting (openGuard s) = lasting s := by
  simp [openGuard]

@[simp] theorem setDelays_lasting (p l) : lasting (setDelays s p l) = lasting s := (rfl)

@[simp] theorem reselect_lasting : lasting (reselect s) = lasting s := by
  unfold reselect
  split <;> simp

@[simp] theorem loseMaster_lasting (p) : lasting (loseMaster s p) = lasting s := by
  simp [loseMaster]

@[simp] theorem completeSync_lasting (p t1 t2 corr) : lasting (completeSync s p t1 t2 corr) = lasting s := by
  simp [completeSync]

theorem execSyncReceive_lasting (port h t1 cap corr twoStep) : outcomeLasting (execSyncReceive port h t1 cap corr twoStep s) = some (lasting s) := by
  simp [execSyncReceive]

theorem execFollowUpReceive_lasting (port h t1 corr) : outcomeLasting (execFollowUpReceive port h t1 corr s) = some (lasting s) := by
  unfold execFollowUpReceive
  split <;> simp

theorem execFollowUpTimeout_lasting (port seq) : outcomeLasting (execFollowUpTimeout port seq s) = some (lasting s) := by
  simp [execFollowUpTimeout]

@[simp] theorem hear_lasting (p h ds) : lasting (hear s p h ds) = lasting s := (rfl)

theorem execAnnounceReceive_lasting (port h ds) : outcomeLasting (execAnnounceReceive port h ds s) = some (lasting s) := by
  simp [execAnnounceReceive]

theorem execPdelayReqSend_lasting (port seq cap) : outcomeLasting (execPdelayReqSend port seq cap s) = some (lasting s) := by
  simp [execPdelayReqSend]

theorem execPdelayReqReceive_lasting (port h capIn capOut) : outcomeLasting (execPdelayReqReceive port h capIn capOut s) = some (lasting s) := by
  simp [execPdelayReqReceive]

theorem execPdelayRespReceive_lasting (port h reqClock reqPort t2 t3 corr cap) : outcomeLasting (execPdelayRespReceive port h reqClock reqPort t2 t3 corr cap s) = some (lasting s) := by
  unfold execPdelayRespReceive
  split <;> simp

theorem execPtpTransitForward_lasting (ingress h followUp twoStep corr capIn capOut) : outcomeLasting (execPtpTransitForward ingress h followUp twoStep corr capIn capOut s) = some (lasting s) := by
  unfold execPtpTransitForward
  repeat' split
  all_goals simp

theorem execMasterLost_lasting : outcomeLasting (execMasterLost s) = some (lasting s) := by
  unfold execMasterLost
  repeat' split
  all_goals simp

@[simp] theorem timeAccept_lasting : lasting (timeAccept s) = lasting s := by
  simp [timeAccept]

@[simp] theorem timeSnap_lasting : lasting (timeSnap s) = lasting s := (rfl)

@[simp] theorem writeTimeCmd_lasting (v) : lasting (writeTimeCmd s v) = lasting s := by
  simp [writeTimeCmd]

theorem execTimeAcceptCmd_lasting (door) : outcomeLasting (execTimeAcceptCmd door s) = some (lasting s) := by
  simp [execTimeAcceptCmd]

theorem execTimeSnapCmd_lasting (door) : outcomeLasting (execTimeSnapCmd door s) = some (lasting s) := by
  simp [execTimeSnapCmd]

@[simp] theorem shutGuard_lasting : lasting (shutGuard s) = lasting s := (rfl)

@[simp] theorem lateLoss_lasting : lasting (lateLoss s) = lasting s := by
  simp [lateLoss]

theorem execGuardClose_lasting (targets) : outcomeLasting (execGuardClose targets s) = some (lasting s) := by
  unfold execGuardClose
  dsimp only
  repeat' split
  all_goals simp

theorem execGuardTimeout_lasting (targets) : outcomeLasting (execGuardTimeout targets s) = some (lasting s) := by
  simp [execGuardTimeout]

/-! ### Recog -/

@[simp] theorem modRecog_lasting (f) : lasting (s.modRecog f) = lasting s := (rfl)

@[simp] theorem showImp_lasting : lasting (showImp s) = lasting s := by
  simp [showImp]

@[simp] theorem setFfall_lasting (b) : lasting (setFfall s b) = lasting s := by
  simp [setFfall]

@[simp] theorem countImpact_lasting : lasting (countImpact s) = lasting s := (rfl)

@[simp] theorem impSingle_lasting (e) : lasting (impSingle s e) = lasting s := by
  simp [impSingle]

@[simp] theorem impSusEnd_lasting (e) : lasting (impSusEnd s e) = lasting s := by
  simp [impSusEnd]

@[simp] theorem impSusStart_lasting (e) : lasting (impSusStart s e) = lasting s := by
  unfold impSusStart
  split <;> simp

@[simp] theorem impEnd_lasting (e t) : lasting (impEnd s e t) = lasting s := by
  unfold impEnd
  dsimp only
  repeat' split
  all_goals simp

@[simp] theorem impInterrupt_lasting : lasting (impInterrupt s) = lasting s := by
  unfold impInterrupt
  dsimp only
  repeat' split
  all_goals simp

@[simp] theorem impBegin_lasting (t recs) : lasting (impBegin s t recs) = lasting s := by
  unfold impBegin
  split <;> simp

@[simp] theorem impSamples_lasting (t recs) : lasting (impSamples s t recs) = lasting s := by
  unfold impSamples
  dsimp only
  repeat' split
  all_goals simp

@[simp] theorem impRead_lasting (recs) : lasting (impRead s recs) = lasting s := (rfl)

@[simp] theorem impDecide_lasting (recs) : lasting (impDecide s recs) = lasting s := by
  unfold impDecide
  split
  · rfl
  · rw [showImp_lasting]
    split <;> simp

@[simp] theorem impIdle_lasting : lasting (impIdle s) = lasting s := by
  simp [impIdle]

theorem execImpactRecord_lasting : outcomeLasting (execImpactRecord s) = some (lasting s) := by
  simp [execImpactRecord]

@[simp] theorem stkBlaze_lasting (r kind v0 v1) : lasting (stkBlaze s r kind v0 v1) = lasting s := by
  simp [stkBlaze]

@[simp] theorem stkLearn_lasting : lasting (stkLearn s) = lasting s := (rfl)

@[simp] theorem showMean_lasting : lasting (showMean s) = lasting s := (rfl)

@[simp] theorem stkStop_lasting (r) : lasting (stkStop s r) = lasting s := by
  unfold stkStop
  split <;> simp

@[simp] theorem stkInterval_lasting (r p) : lasting (stkInterval s r p) = lasting s := by
  simp [stkInterval]

@[simp] theorem stroke_lasting (r) : lasting (stroke s r) = lasting s := by
  unfold stroke
  dsimp only
  split <;> simp

@[simp] theorem strokeRead_lasting (r) : lasting (strokeRead s r) = lasting s := by
  simp [strokeRead]

theorem execStrokeRecord_lasting : outcomeLasting (execStrokeRecord s) = some (lasting s) := by
  unfold execStrokeRecord
  repeat' split
  all_goals simp

@[simp] theorem ffClear_lasting : lasting (ffClear s) = lasting s := (rfl)

@[simp] theorem ffHolds_lasting (x y z) : lasting (ffHolds s x y z) = lasting s := by
  simp [ffHolds]

@[simp] theorem ffFails_lasting (t) : lasting (ffFails s t) = lasting s := by
  simp [ffFails]

@[simp] theorem ffRead_lasting (recs) : lasting (ffRead s recs) = lasting s := (rfl)

@[simp] theorem ffDecide_lasting (recs) : lasting (ffDecide s recs) = lasting s := by
  unfold ffDecide
  repeat' split
  all_goals simp

theorem execFreefallRecord_lasting : outcomeLasting (execFreefallRecord s) = some (lasting s) := by
  unfold execFreefallRecord
  dsimp only
  repeat' split
  all_goals simp

@[simp] theorem recogStart_lasting : lasting (recogStart s) = lasting s := by
  simp [recogStart]

@[simp] theorem recogStop_lasting : lasting (recogStop s) = lasting s := by
  simp [recogStop]

@[simp] theorem writeRcImp_lasting (w v) : lasting (writeRcImp s w v) = lasting s := by
  unfold writeRcImp
  split <;> simp

@[simp] theorem writeRcStk_lasting (w v) : lasting (writeRcStk s w v) = lasting s := by
  simp [writeRcStk]

@[simp] theorem writeRcFf_lasting (w v) : lasting (writeRcFf s w v) = lasting s := by
  simp [writeRcFf]

theorem execRcImpWrite_lasting (door w v) : outcomeLasting (execRcImpWrite door w v s) = some (lasting s) := by
  simp [execRcImpWrite]

theorem execRcStkWrite_lasting (door w v) : outcomeLasting (execRcStkWrite door w v s) = some (lasting s) := by
  simp [execRcStkWrite]

theorem execRcFfWrite_lasting (door w v) : outcomeLasting (execRcFfWrite door w v s) = some (lasting s) := by
  simp [execRcFfWrite]

/-! ### Engine -/

@[simp] theorem setPeState_lasting (e st) : lasting (setPeState s e st) = lasting s := (rfl)

@[simp] theorem clearLatch_lasting (e c) : lasting (clearLatch s e c) = lasting s := (rfl)

@[simp] theorem setLatch_lasting (e c t) : lasting (setLatch s e c t) = lasting s := (rfl)

@[simp] theorem clearLatches_lasting (e) : lasting (clearLatches s e) = lasting s := (rfl)

@[simp] theorem dropMev_lasting (e) : lasting (dropMev s e) = lasting s := (rfl)

@[simp] theorem showQueues_lasting (e) : lasting (showQueues s e) = lasting s := (rfl)

@[simp] theorem rxPut_lasting (e w) : lasting (rxPut s e w) = lasting s := (rfl)

@[simp] theorem rxDrop_lasting (e n) : lasting (rxDrop s e n) = lasting s := (rfl)

@[simp] theorem rxOffer_lasting (e w) : lasting (rxOffer s e w) = lasting s := by
  simp [rxOffer]

@[simp] theorem txTake_lasting (e) : lasting (txTake s e) = lasting s := (rfl)

@[simp] theorem txPush_lasting (e w) : lasting (txPush s e w) = lasting s := by
  simp [txPush]

@[simp] theorem rxPop_lasting (e) : lasting (rxPop s e).2 = lasting s := by
  unfold rxPop
  split <;> simp

@[simp] theorem setLvl_lasting (e b) : lasting (setLvl s e b) = lasting s := (rfl)

@[simp] theorem capture_lasting (e t) : lasting (capture s e t) = lasting s := by
  unfold capture
  dsimp only
  repeat' split
  all_goals simp

@[simp] theorem putPeReg_lasting (e c w) : lasting (putPeReg s e c w) = lasting s := by
  unfold putPeReg
  split <;> simp

@[simp] theorem brHolds_lasting (e cond inp) : lasting (brHolds s e cond inp).2 = lasting s := by
  unfold brHolds
  dsimp only
  split <;> simp

theorem peBr_lasting (e w) : lasting (peBr s e w).st = lasting s := brHolds_lasting s e _ _

@[simp] theorem peSearch_lasting (e c rising first) : lasting (peSearch s e c rising first).2 = lasting s := by
  unfold peSearch
  repeat' split
  all_goals simp

theorem peAwait_lasting (e w first inj) : lasting (peAwait s e w first inj).st = lasting s := by
  unfold peAwait
  dsimp only
  repeat' split
  all_goals simp

@[simp] theorem stampPut_lasting (e dest) : lasting (stampPut s e dest) = lasting s := by
  unfold stampPut
  split <;> simp

theorem peStamp_lasting (e w first inj) : lasting (peStamp s e w first inj).st = lasting s := by
  unfold peStamp
  dsimp only
  repeat' split
  all_goals simp

@[simp] theorem peMarkBlaze_lasting (e w) : lasting (peMarkBlaze s e w) = lasting s := by
  simp [peMarkBlaze]

@[simp] theorem sampSource_lasting (e src) : lasting (sampSource s e src).2 = lasting s := by
  unfold sampSource
  dsimp only
  repeat' split
  all_goals simp

@[simp] theorem peSamp_lasting (e w) : lasting (peSamp s e w) = lasting s := by
  simp [peSamp]

@[simp] theorem peEmit_lasting (e w) : lasting (peEmit s e w) = lasting s := by
  unfold peEmit
  dsimp only
  split <;> simp

theorem xferStall_lasting (e first inj rx) : lasting (xferStall s e first inj rx).st = lasting s := by
  unfold xferStall
  repeat' split
  all_goals simp

@[simp] theorem clearSin_lasting (e) : lasting (clearSin s e) = lasting s := (rfl)

theorem peXferRx_lasting (e w sin first inj) : lasting (peXferRx s e w sin first inj).st = lasting s := by
  unfold peXferRx
  dsimp only
  repeat' split
  all_goals simp [xferStall_lasting]

theorem peXferTx_lasting (e w sout first inj) : lasting (peXferTx s e w sout first inj).st = lasting s := by
  unfold peXferTx
  dsimp only
  repeat' split
  all_goals simp [xferStall_lasting]

@[simp] theorem peCalc_lasting (e w) : lasting (peCalc s e w) = lasting s := by
  simp [peCalc]

@[simp] theorem peLdi_lasting (e w) : lasting (peLdi s e w) = lasting s := by
  unfold peLdi
  split <;> simp

theorem peDec_lasting (e w) : lasting (peDec s e w).st = lasting s := by
  unfold peDec
  dsimp only
  repeat' split
  all_goals rfl

theorem peExecute_lasting (e w first inj) : lasting (peExecute s e w first inj).st = lasting s := by
  unfold peExecute
  split
  all_goals simp [peBr_lasting, peAwait_lasting, peStamp_lasting, peXferRx_lasting, peXferTx_lasting, peDec_lasting]

@[simp] theorem peFault_lasting (e) : lasting (peFault s e) = lasting s := by
  simp [peFault]

@[simp] theorem peCycle_lasting (e w) : lasting (peCycle s e w) = lasting s := by
  unfold peCycle
  dsimp only
  repeat' split
  all_goals simp [peExecute_lasting]

@[simp] theorem peInjected_lasting (e w) : lasting (peInjected s e w) = lasting s := by
  unfold peInjected
  dsimp only
  repeat' split
  all_goals simp [peExecute_lasting]

@[simp] theorem takeCycle_lasting (e) : lasting (takeCycle s e) = lasting s := (rfl)

@[simp] theorem peStep_lasting (e w k) : lasting (peStep s e w k) = lasting s := by
  unfold peStep
  repeat' split
  all_goals simp

theorem execPeBr_lasting (e w) : outcomeLasting (execPeBr e w s) = some (lasting s) := by
  simp [execPeBr]

theorem execPeAwait_lasting (e w) : outcomeLasting (execPeAwait e w s) = some (lasting s) := by
  simp [execPeAwait]

theorem execPeStamp_lasting (e w) : outcomeLasting (execPeStamp e w s) = some (lasting s) := by
  simp [execPeStamp]

theorem execPeMarkInterrupt_lasting (e w) : outcomeLasting (execPeMarkInterrupt e w s) = some (lasting s) := by
  simp [execPeMarkInterrupt]

theorem execPeMarkBlaze_lasting (e w) : outcomeLasting (execPeMarkBlaze e w s) = some (lasting s) := by
  simp [execPeMarkBlaze]

theorem execPeMarkCaptureTime_lasting (e w) : outcomeLasting (execPeMarkCaptureTime e w s) = some (lasting s) := by
  simp [execPeMarkCaptureTime]

theorem execPeSamp_lasting (e w) : outcomeLasting (execPeSamp e w s) = some (lasting s) := by
  simp [execPeSamp]

theorem execPeEmit_lasting (e w) : outcomeLasting (execPeEmit e w s) = some (lasting s) := by
  simp [execPeEmit]

theorem execPeXferSinToRx_lasting (e w) : outcomeLasting (execPeXferSinToRx e w s) = some (lasting s) := by
  simp [execPeXferSinToRx]

theorem execPeXferTxToSout_lasting (e w) : outcomeLasting (execPeXferTxToSout e w s) = some (lasting s) := by
  simp [execPeXferTxToSout]

theorem execPeXferUToRx_lasting (e w) : outcomeLasting (execPeXferUToRx e w s) = some (lasting s) := by
  simp [execPeXferUToRx]

theorem execPeXferTxToU_lasting (e w) : outcomeLasting (execPeXferTxToU e w s) = some (lasting s) := by
  simp [execPeXferTxToU]

theorem execPeCalc_lasting (e w) : outcomeLasting (execPeCalc e w s) = some (lasting s) := by
  simp [execPeCalc]

theorem execPeLdi_lasting (e w) : outcomeLasting (execPeLdi e w s) = some (lasting s) := by
  simp [execPeLdi]

theorem execPeDec_lasting (e w) : outcomeLasting (execPeDec e w s) = some (lasting s) := by
  simp [execPeDec]

theorem execPeReservedEncoding_lasting (e w) : outcomeLasting (execPeReservedEncoding e w s) = some (lasting s) := by
  simp [execPeReservedEncoding]

@[simp] theorem peStop_lasting (e) : lasting (peStop s e) = lasting s := by
  simp [peStop]

@[simp] theorem putGcmd_lasting (e m) : lasting (putGcmd s e m) = lasting s := by
  simp [putGcmd]

@[simp] theorem writeGcmd_lasting (v) : lasting (writeGcmd s v) = lasting s := by
  simp [writeGcmd]

@[simp] theorem startMasked_lasting (m restart) : lasting (startMasked s m restart) = lasting s := by
  simp [startMasked]

theorem execPeGcmdStop_lasting (door mask) : outcomeLasting (execPeGcmdStop door mask s) = some (lasting s) := by
  simp [execPeGcmdStop]

theorem execPeGcmdRestart_lasting (door mask) : outcomeLasting (execPeGcmdRestart door mask s) = some (lasting s) := by
  simp [execPeGcmdRestart]

theorem execPeGcmdRun_lasting (door mask) : outcomeLasting (execPeGcmdRun door mask s) = some (lasting s) := by
  simp [execPeGcmdRun]

theorem execPeGcmdClksync_lasting (door mask) : outcomeLasting (execPeGcmdClksync door mask s) = some (lasting s) := by
  simp [execPeGcmdClksync]

@[simp] theorem peInjectWrite_lasting (e w) : lasting (peInjectWrite s e w) = lasting s := by
  simp [peInjectWrite]

theorem execPeInject_lasting (door e w) : outcomeLasting (execPeInject door e w s) = some (lasting s) := by
  simp [execPeInject]

theorem execPeTxPush_lasting (door e w) : outcomeLasting (execPeTxPush door e w s) = some (lasting s) := by
  simp [execPeTxPush]

@[simp] theorem answer_lasting (w) : lasting (s.answer w) = lasting s := (rfl)

theorem execPeRxPop_lasting (_door e) : outcomeLasting (execPeRxPop _door e s) = some (lasting s) := by
  simp [execPeRxPop]

@[simp] theorem writeIm_lasting (e n v) : lasting (writeIm s e n v) = lasting s := by
  simp [writeIm]

theorem execPeImWrite_lasting (door e n v) : outcomeLasting (execPeImWrite door e n v s) = some (lasting s) := by
  simp [execPeImWrite]

@[simp] theorem writePe_lasting (e o v) : lasting (writePe s e o v) = lasting s := by
  simp [writePe]

theorem execPePulseInput_lasting (e code) : outcomeLasting (execPePulseInput e code s) = some (lasting s) := by
  unfold execPePulseInput
  repeat' split
  all_goals simp

@[simp] theorem millEvent_lasting (e r) : lasting (millEvent s e r) = lasting s := by
  simp [millEvent]

theorem execPeMillEvent_lasting (e) : outcomeLasting (execPeMillEvent e s) = some (lasting s) := by
  unfold execPeMillEvent
  repeat' split
  all_goals simp

@[simp] theorem stepEngines_lasting : lasting (stepEngines s) = lasting s := (rfl)

@[simp] theorem stopEngines_lasting : lasting (stopEngines s) = lasting s := by
  simp [stopEngines]

/-! ### Cystad -/

@[simp] theorem modNet_lasting (f) : lasting (s.modNet f) = lasting s := (rfl)

@[simp] theorem showRingSt_lasting : lasting (showRingSt s) = lasting s := by
  simp [showRingSt]

@[simp] theorem setPort_lasting (p link high an sqi) : lasting (setPort s p link high an sqi) = lasting s := by
  simp [setPort]

@[simp] theorem reclaim_lasting : lasting (reclaim s) = lasting s := (rfl)

@[simp] theorem linkChange_lasting (p up) : lasting (linkChange s p up) = lasting s := by
  simp [linkChange]

@[simp] theorem portDown_lasting (p) : lasting (portDown s p) = lasting s := by
  simp [portDown]

@[simp] theorem firstLink_lasting : lasting (firstLink s) = lasting s := by
  simp [firstLink]

theorem execPortLinkUp_lasting (port ab sqi) : outcomeLasting (execPortLinkUp port ab sqi s) = some (lasting s) := by
  unfold execPortLinkUp
  split <;> simp

theorem execPortLinkDown_lasting (port) : outcomeLasting (execPortLinkDown port s) = some (lasting s) := by
  simp [execPortLinkDown]

@[simp] theorem writePortCfg_lasting (v) : lasting (writePortCfg s v) = lasting s := by
  simp [writePortCfg]

theorem execPortCfgWrite_lasting (door v) : outcomeLasting (execPortCfgWrite door v s) = some (lasting s) := by
  simp [execPortCfgWrite]

@[simp] theorem forwardTo_lasting (p f) : lasting (forwardTo s p f) = lasting s := by
  simp [forwardTo]

@[simp] theorem switchFrame_lasting (p f) : lasting (switchFrame s p f) = lasting s := by
  unfold switchFrame
  dsimp only
  repeat' split
  all_goals simp

theorem execSwitchForward_lasting (port f) : outcomeLasting (execSwitchForward port f s) = some (lasting s) := by
  simp [execSwitchForward]

theorem execFilteringDatabaseAgeing_lasting (mac) : outcomeLasting (execFilteringDatabaseAgeing mac s) = some (lasting s) := by
  simp [execFilteringDatabaseAgeing]

theorem execMrpTopologyChange_lasting (port uuid ms) : outcomeLasting (execMrpTopologyChange port uuid ms s) = some (lasting s) := by
  simp [execMrpTopologyChange]

theorem execMrpFlush_lasting : outcomeLasting (execMrpFlush s) = some (lasting s) := by
  simp [execMrpFlush]

theorem execIcmpEcho_lasting (port src) : outcomeLasting (execIcmpEcho port src s) = some (lasting s) := by
  simp [execIcmpEcho]

theorem execAddressQuery_lasting (port kind src) : outcomeLasting (execAddressQuery port kind src s) = some (lasting s) := by
  simp [execAddressQuery]

@[simp] theorem cyFail_lasting (evt cnt) : lasting (cyFail s evt cnt) = lasting s := (rfl)

@[simp] theorem cyCheck_lasting (d) : lasting (cyCheck s d).2 = lasting s := by
  unfold cyCheck
  repeat' split
  all_goals simp

@[simp] theorem notePeer_lasting (d) : lasting (notePeer s d) = lasting s := by
  simp [notePeer]

@[simp] theorem receive_lasting (d typ) (f : List Byte → State → State) (h : ∀ l t, lasting (f l t) = lasting t) :
    lasting (receive s d typ f) = lasting s := by
  simp [receive, h]

theorem execCystadDatagramDiscard_lasting (d) : outcomeLasting (execCystadDatagramDiscard d s) = some (lasting s) := by
  simp [execCystadDatagramDiscard]

theorem execReplayEntryAge_lasting (sender) : outcomeLasting (execReplayEntryAge sender s) = some (lasting s) := by
  simp [execReplayEntryAge]

theorem execBlazeMessageReceive_lasting (d) : outcomeLasting (execBlazeMessageReceive d s) = some (lasting s) := by
  simp [execBlazeMessageReceive]

@[simp] theorem showAdmit_lasting : lasting (showAdmit s) = lasting s := (rfl)

@[simp] theorem finishPub_lasting (k) : lasting (finishPub s k) = lasting s := by
  simp [finishPub]

@[simp] theorem admitStream_lasting (k host) : lasting (admitStream s k host) = lasting s := by
  simp [admitStream]

@[simp] theorem stopStream_lasting (k) : lasting (stopStream s k) = lasting s := by
  simp [stopStream]

@[simp] theorem writeStream_lasting (k v host) : lasting (writeStream s k v host) = lasting s := by
  simp [writeStream]

theorem execCyStrWrite_lasting (door k v) : outcomeLasting (execCyStrWrite door k v s) = some (lasting s) := by
  simp [execCyStrWrite]

@[simp] theorem sendFeature_lasting : lasting (sendFeature s) = lasting s := by
  unfold sendFeature
  split <;> simp

@[simp] theorem queueFeature_lasting (m) : lasting (queueFeature s m) = lasting s := by
  simp [queueFeature]

@[simp] theorem closeFull_lasting (k) : lasting (closeFull s k) = lasting s := by
  simp [closeFull]

@[simp] theorem sendPub_lasting (k) : lasting (sendPub s k) = lasting s := by
  unfold sendPub
  split <;> simp

@[simp] theorem trySend_lasting (k) : lasting (trySend s k) = lasting s := by
  simp [trySend]

theorem execStreamPublication_lasting (k) : outcomeLasting (execStreamPublication k s) = some (lasting s) := by
  simp [execStreamPublication]

@[simp] theorem modSession_lasting (sid f) : lasting (s.modSession sid f) = lasting s := (rfl)

@[simp] theorem showSession_lasting (x) : lasting (showSession s x) = lasting s := (rfl)

@[simp] theorem answerHost_lasting (p host x) : lasting (answerHost s p host x) = lasting s := by
  simp [answerHost]

@[simp] theorem openSession_lasting (p host c) : lasting (openSession s p host c) = lasting s := by
  unfold openSession
  dsimp only
  split <;> simp

theorem execCaptureOpen_lasting (port d) : outcomeLasting (execCaptureOpen port d s) = some (lasting s) := by
  refine congrArg some (receive_lasting s _ _ _ fun l t => ?_)
  split <;> simp

@[simp] theorem takeCredit_lasting (x gtot ack rewind) : lasting (takeCredit s x gtot ack rewind) = lasting s := by
  unfold takeCredit
  dsimp only
  repeat' split
  all_goals simp

@[simp] theorem endUnknown_lasting (p host sid) : lasting (endUnknown s p host sid) = lasting s := by
  unfold endUnknown
  split <;> simp

theorem execCaptureCredit_lasting (port d) : outcomeLasting (execCaptureCredit port d s) = some (lasting s) := by
  refine congrArg some (receive_lasting s _ _ _ fun l t => ?_)
  split <;> simp

theorem execCaptureChunkSend_lasting (sid) : outcomeLasting (execCaptureChunkSend sid s) = some (lasting s) := by
  unfold execCaptureChunkSend
  repeat' split
  all_goals simp

theorem execCaptureClose_lasting (port d) : outcomeLasting (execCaptureClose port d s) = some (lasting s) := by
  refine congrArg some (receive_lasting s _ _ _ fun l t => ?_)
  dsimp only
  repeat' split
  all_goals simp

/-! ### Analysis -/

@[simp] theorem modSetup_lasting (n f) : lasting (s.modSetup n f) = lasting s := (rfl)

@[simp] theorem modAlarm_lasting (a f) : lasting (s.modAlarm a f) = lasting s := (rfl)

@[simp] theorem checkSetups_lasting : lasting (checkSetups s) = lasting s := by
  unfold checkSetups
  refine foldl_leaves_beside lasting _ _ (fun t n => ?_) _
  dsimp only
  split <;> rfl

@[simp] theorem showSetup_lasting (n) : lasting (showSetup s n) = lasting s := (rfl)

@[simp] theorem showAnalysis_lasting : lasting (showAnalysis s) = lasting s := (rfl)

@[simp] theorem startAnalysis_lasting : lasting (startAnalysis s) = lasting s := by
  simp [startAnalysis]

@[simp] theorem partitionStart_lasting (why) : lasting (partitionStart s why) = lasting s := (rfl)

@[simp] theorem startPartition_lasting : lasting (startPartition s) = lasting s := by
  simp [startPartition]

@[simp] theorem stopAnalysis_lasting : lasting (stopAnalysis s) = lasting s := (rfl)

@[simp] theorem slotChanged_lasting (i) : lasting (slotChanged s i) = lasting s := by
  simp [slotChanged]

@[simp] theorem alarmEval_lasting (a proc slot b v) : lasting (alarmEval s a proc slot b v) = lasting s := by
  simp [alarmEval]

@[simp] theorem discardBlock_lasting (n again) : lasting (discardBlock s n again) = lasting s := (rfl)

@[simp] theorem publishEntries_lasting (l m fuel) : lasting (publishEntries s l m fuel) = lasting s := by
  induction fuel generalizing s l with
  | zero => simp [publishEntries]
  | succ k ih => cases l <;> simp [publishEntries, ih]

@[simp] theorem publishVector_lasting (e first fuel l) : lasting (publishVector s e first fuel l) = lasting s := by
  induction fuel generalizing s first l with
  | zero => simp [publishVector]
  | succ k ih => cases l <;> simp [publishVector, ih]

@[simp] theorem closeTrend_lasting (n next) : lasting (closeTrend s n next) = lasting s := (rfl)

@[simp] theorem publishOutputs_lasting (n x l) : lasting (publishOutputs s n x l) = lasting s := by
  simp [publishOutputs]

@[simp] theorem routeOutputs_lasting (n x q l) : lasting (routeOutputs s n x q l) = lasting s := by
  unfold routeOutputs
  dsimp only
  repeat' split
  all_goals simp

@[simp] theorem feedAlarms_lasting (x b l) : lasting (feedAlarms s x b l) = lasting s := by
  unfold feedAlarms
  dsimp only
  split
  · rfl
  · refine lasting_foldl _ _ (fun s a => ?_) s
    repeat' split
    all_goals simp

@[simp] theorem oweRestart_lasting (proc) : lasting (oweRestart s proc) = lasting s := by
  simp [oweRestart]

@[simp] theorem useBlock_lasting (n b) : lasting (useBlock s n b) = lasting s := by
  simp [useBlock]

@[simp] theorem spoilBlock_lasting (n k gap) : lasting (spoilBlock s n k gap) = lasting s := (rfl)

@[simp] theorem restartBlock_lasting (n t) : lasting (restartBlock s n t) = lasting s := (rfl)

@[simp] theorem dropBlock_lasting (n again) : lasting (dropBlock s n again) = lasting s := (rfl)

@[simp] theorem completeBlock_lasting (n) : lasting (completeBlock s n) = lasting s := by
  unfold completeBlock
  dsimp only
  repeat' split
  all_goals simp

theorem execAnEvaluation_lasting (setup) : outcomeLasting (execAnEvaluation setup s) = some (lasting s) := by
  simp [execAnEvaluation]

theorem execAnTrendPoint_lasting (setup) : outcomeLasting (execAnTrendPoint setup s) = some (lasting s) := by
  simp [execAnTrendPoint]

@[simp] theorem stepAnalysis_lasting : lasting (stepAnalysis s) = lasting s := by
  simp [stepAnalysis]

@[simp] theorem dumpTrends_lasting (n) : lasting (dumpTrends s n) = lasting s := by
  simp [dumpTrends]

theorem execAnTrendDump_lasting (door setup) : outcomeLasting (execAnTrendDump door setup s) = some (lasting s) := by
  simp [execAnTrendDump]

@[simp] theorem peerArrives_lasting (n p) : lasting (peerArrives s n p) = lasting s := (rfl)

theorem execPeerStreamPublicationReceive_lasting (d) : outcomeLasting (execPeerStreamPublicationReceive d s) = some (lasting s) := by
  simp [execPeerStreamPublicationReceive]

theorem execCrossSpectrumSkewExpiry_lasting (setup) : outcomeLasting (execCrossSpectrumSkewExpiry setup s) = some (lasting s) := by
  simp [execCrossSpectrumSkewExpiry]

@[simp] theorem revokeHolder_lasting (h) : lasting (revokeHolder s h) = lasting s := by
  simp [revokeHolder]

@[simp] theorem partitionFault_lasting (code) : lasting (partitionFault s code) = lasting s := by
  simp [partitionFault]

theorem execUpFault_lasting (code) : outcomeLasting (execUpFault code s) = some (lasting s) := by
  simp [execUpFault]

theorem execUpRestart_lasting : outcomeLasting (execUpRestart s) = some (lasting s) := by
  simp [execUpRestart]

@[simp] theorem upRestartOp_lasting : lasting (upRestartOp s) = lasting s := by
  simp [upRestartOp]

theorem execAnUpRestartCmd_lasting (door) : outcomeLasting (execAnUpRestartCmd door s) = some (lasting s) := by
  simp [execAnUpRestartCmd]

theorem execUpPreempt_lasting : outcomeLasting (execUpPreempt s) = some (lasting s) := by
  simp [execUpPreempt]

@[simp] theorem modMail_lasting (m f) : lasting (s.modMail m f) = lasting s := (rfl)

@[simp] theorem serve_lasting (m status words) : lasting (serve s m status words) = lasting s := (rfl)

theorem service_lasting (m code) (f : State → State) (h : ∀ t, lasting (f t) = lasting t) :
    outcomeLasting (service s m code f) = some (lasting s) := by
  unfold service
  split <;> simp [h]

theorem execUpHeartbeat_lasting (m) : outcomeLasting (execUpHeartbeat m s) = some (lasting s) := by
  refine service_lasting s _ _ _ fun t => ?_
  simp

theorem execUpTime_lasting (m) : outcomeLasting (execUpTime m s) = some (lasting s) := by
  refine service_lasting s _ _ _ fun t => ?_
  simp

@[simp] theorem setUpRing_lasting (i n) : lasting (setUpRing s i n) = lasting s := (rfl)

theorem execUpAttach_lasting (m slot bytes) : outcomeLasting (execUpAttach m slot bytes s) = some (lasting s) := by
  refine service_lasting s _ _ _ fun t => ?_
  repeat' split
  all_goals simp

theorem execUpDetach_lasting (m slot) : outcomeLasting (execUpDetach m slot s) = some (lasting s) := by
  refine service_lasting s _ _ _ fun t => ?_
  repeat' split
  all_goals simp

@[simp] theorem openView_lasting (m i t) : lasting (openView s m i t) = lasting s := by
  unfold openView
  dsimp only
  split
  · simp
  · split
    · simp [leaseSpan_lasting ‹_›]
    · simp

theorem execUpOpenView_lasting (m slot t) : outcomeLasting (execUpOpenView m slot t s) = some (lasting s) := by
  refine service_lasting s _ _ _ fun t => ?_
  repeat' split
  all_goals simp

theorem execUpReadView_lasting (m lease first n) : outcomeLasting (execUpReadView m lease first n s) = some (lasting s) := by
  refine service_lasting s _ _ _ fun t => ?_
  dsimp only
  repeat' split
  all_goals simp

theorem execUpCloseView_lasting (m lease) : outcomeLasting (execUpCloseView m lease s) = some (lasting s) := by
  refine service_lasting s _ _ _ fun t => ?_
  repeat' split
  all_goals simp

theorem execUpReadFeature_lasting (m fid) : outcomeLasting (execUpReadFeature m fid s) = some (lasting s) := by
  refine service_lasting s _ _ _ fun t => ?_
  repeat' split
  all_goals simp

theorem execUpPublish_lasting (m out value q) : outcomeLasting (execUpPublish m out value q s) = some (lasting s) := by
  refine service_lasting s _ _ _ fun t => ?_
  dsimp only
  repeat' split
  all_goals simp

theorem execUpBlaze_lasting (m kind sev v0 v1) : outcomeLasting (execUpBlaze m kind sev v0 v1 s) = some (lasting s) := by
  refine service_lasting s _ _ _ fun t => ?_
  simp

theorem execUpEngineWord_lasting (m e w) : outcomeLasting (execUpEngineWord m e w s) = some (lasting s) := by
  refine service_lasting s _ _ _ fun t => ?_
  repeat' split
  all_goals simp

theorem execUpTimer_lasting (m us periodic) : outcomeLasting (execUpTimer m us periodic s) = some (lasting s) := by
  refine service_lasting s _ _ _ fun t => ?_
  dsimp only
  split <;> simp

theorem execUpTimerExpiry_lasting : outcomeLasting (execUpTimerExpiry s) = some (lasting s) := by
  unfold execUpTimerExpiry
  split <;> simp

/-! ### Irq -/

@[simp] theorem modTarget_lasting (t f) : lasting (s.modTarget t f) = lasting s := (rfl)

@[simp] theorem setIrqBit_lasting (base n b) : lasting (setIrqBit s base n b) = lasting s := (rfl)

@[simp] theorem wakeTarget_lasting (t) : lasting (wakeTarget s t) = lasting s := by
  simp [wakeTarget]

@[simp] theorem irqLines_lasting : lasting (irqLines s) = lasting s := by
  simp [irqLines]

@[simp] theorem irqCount_lasting (n c) : lasting (irqCount s n c) = lasting s := by
  simp [irqCount]

@[simp] theorem pendEvent_lasting (n) : lasting (pendEvent s n) = lasting s := (rfl)

@[simp] theorem irqEdgeEvent_lasting (n pend) : lasting (irqEdgeEvent s n pend) = lasting s := by
  simp [irqEdgeEvent]

@[simp] theorem setGroupAt_lasting (g x) : lasting (setGroupAt s g x) = lasting s := (rfl)

@[simp] theorem groupFire_lasting (g) : lasting (groupFire s g) = lasting s := by
  simp [groupFire]

@[simp] theorem groupEdge_lasting (g) : lasting (groupEdge s g) = lasting s := by
  simp [groupEdge]

@[simp] theorem irqEdge_lasting (n) : lasting (irqEdge s n) = lasting s := by
  simp [irqEdge]

@[simp] theorem writeEset_lasting (j v) : lasting (writeEset s j v) = lasting s := by
  simp [writeEset]

@[simp] theorem writeEclr_lasting (j v) : lasting (writeEclr s j v) = lasting s := by
  simp [writeEclr]

@[simp] theorem writePset_lasting (j v) : lasting (writePset s j v) = lasting s := by
  simp [writePset]

@[simp] theorem clearPend_lasting (n) : lasting (clearPend s n) = lasting s := by
  simp [clearPend]

@[simp] theorem writePclr_lasting (j v) : lasting (writePclr s j v) = lasting s := by
  simp [writePclr]

@[simp] theorem writeIrqSrc_lasting (n v) : lasting (writeIrqSrc s n v) = lasting s := by
  simp [writeIrqSrc]

@[simp] theorem writeIrqGroup_lasting (g v) : lasting (writeIrqGroup s g v) = lasting s := by
  simp [writeIrqGroup]

@[simp] theorem irqClaim_lasting (t secure) : lasting (irqClaim s t secure).2 = lasting s := by
  unfold irqClaim
  dsimp only
  repeat' split
  all_goals simp

@[simp] theorem irqEnd_lasting (t n) : lasting (irqEnd s t n) = lasting s := (rfl)

@[simp] theorem irqComplete_lasting (t secure n) : lasting (irqComplete s t secure n) = lasting s := by
  unfold irqComplete
  split <;> simp

@[simp] theorem irqSave_lasting (t) : lasting (irqSave s t) = lasting s := by
  unfold irqSave
  split <;> simp

@[simp] theorem irqRestore_lasting (t) : lasting (irqRestore s t) = lasting s := by
  simp [irqRestore]

@[simp] theorem senseLine_lasting (n) : lasting (senseLine s n) = lasting s := (rfl)

theorem execIrqSourceEdge_lasting (n) : outcomeLasting (execIrqSourceEdge n s) = some (lasting s) := by
  simp [execIrqSourceEdge]

theorem execIrqPendSet_lasting (door j v) : outcomeLasting (execIrqPendSet door j v s) = some (lasting s) := by
  simp [execIrqPendSet]

theorem execIrqPendClear_lasting (door j v) : outcomeLasting (execIrqPendClear door j v s) = some (lasting s) := by
  simp [execIrqPendClear]

theorem execIrqEnableSet_lasting (door j v) : outcomeLasting (execIrqEnableSet door j v s) = some (lasting s) := by
  simp [execIrqEnableSet]

theorem execIrqEnableClear_lasting (door j v) : outcomeLasting (execIrqEnableClear door j v s) = some (lasting s) := by
  simp [execIrqEnableClear]

theorem execIrqClaim_lasting (p) : outcomeLasting (execIrqClaim p s) = some (lasting s) := by
  simp [execIrqClaim]

theorem execIrqComplete_lasting (p n) : outcomeLasting (execIrqComplete p n s) = some (lasting s) := by
  simp [execIrqComplete]

theorem execIrqGroupFire_lasting (g) : outcomeLasting (execIrqGroupFire g s) = some (lasting s) := by
  simp [execIrqGroupFire]

/-! ### Work -/

@[simp] theorem resetWork_lasting : lasting (resetWork s) = lasting s := (rfl)

@[simp] theorem workUp_lasting : lasting (workUp s) = lasting s := by
  simp [workUp]

@[simp] theorem dropShadow_lasting (i) : lasting (dropShadow s i) = lasting s := (rfl)

@[simp] theorem haltAnalysis_lasting : lasting (haltAnalysis s) = lasting s := by
  simp [haltAnalysis]

@[simp] theorem dropLeases_lasting : lasting (dropLeases s) = lasting s := by
  simp [dropLeases]

@[simp] theorem workDown_lasting : lasting (workDown s) = lasting s := by
  simp [workDown]

@[simp] theorem dropWork_lasting : lasting (dropWork s) = lasting s := by
  simp [dropWork]

@[simp] theorem writeAn_lasting (a v) : lasting (writeAn s a v) = lasting s := by
  simp [writeAn]

@[simp] theorem reapplyAnalysis_lasting : lasting (reapplyAnalysis s) = lasting s := by
  unfold reapplyAnalysis
  refine lasting_foldl _ _ (fun s r => ?_) s
  split <;> simp

@[simp] theorem deckRelease_lasting : lasting (deckRelease s) = lasting s := by
  simp [deckRelease]

theorem execDeckControllerRelease_lasting : outcomeLasting (execDeckControllerRelease s) = some (lasting s) := by
  simp [execDeckControllerRelease]

@[simp] theorem anaStart_lasting : lasting (anaStart s) = lasting s := by
  simp [anaStart]

theorem execAnaRelease_lasting : outcomeLasting (execAnaRelease s) = some (lasting s) := by
  simp [execAnaRelease]

theorem execDeckControllerStop_lasting : outcomeLasting (execDeckControllerStop s) = some (lasting s) := by
  simp [execDeckControllerStop]

@[simp] theorem endChange_lasting : lasting (endChange s) = lasting s := by
  simp [endChange]

theorem execWorkRailsOff_lasting : outcomeLasting (execWorkRailsOff s) = some (lasting s) := by
  simp [execWorkRailsOff]

@[simp] theorem offAccess_lasting : lasting (offAccess s) = lasting s := (rfl)

@[simp] theorem offRead_lasting (i a) : lasting (offRead s i a) = lasting s := by
  unfold offRead offViolation
  split
  · split <;> simp
  · simp

@[simp] theorem offWrite_lasting (i a) : lasting (offWrite s i a) = lasting s := by
  unfold offWrite offViolation
  split
  · split <;> simp
  · simp

theorem execWorkRegOffAccess_lasting (init addr wr) : outcomeLasting (execWorkRegOffAccess init addr wr s) = some (lasting s) := by
  simp [execWorkRegOffAccess]

/-! ### Power -/

@[simp] theorem modPwr_lasting (f) : lasting (s.modPwr f) = lasting s := (rfl)

@[simp] theorem watchLow_lasting : lasting (watchLow s) = lasting s := (rfl)

@[simp] theorem putPort_lasting (p st) : lasting (putPort s p st) = lasting s := by
  simp [putPort]

@[simp] theorem openPorts_lasting : lasting (openPorts s) = lasting s := (rfl)

@[simp] theorem showArmed_lasting : lasting (showArmed s) = lasting s := by
  simp [showArmed]

@[simp] theorem setRaised_lasting (p b) : lasting (setRaised s p b) = lasting s := (rfl)

@[simp] theorem noteFed_lasting (p) : lasting (noteFed s p) = lasting s := (rfl)

@[simp] theorem showInputs_lasting : lasting (showInputs s) = lasting s := by
  simp [showInputs]

@[simp] theorem measure_lasting (m) : lasting (measure s m) = lasting s := by
  simp [measure]

@[simp] theorem startSupply_lasting (m cause) : lasting (startSupply s m cause) = lasting s := by
  simp [startSupply]

theorem execSupplyRise_lasting (m) : outcomeLasting (execSupplyRise m s) = some (lasting s) := by
  simp [execSupplyRise]

@[simp] theorem dieReset_lasting (cause) : lasting (dieReset s cause) = lasting s := by
  simp [dieReset]

theorem execPllLockLoss_lasting : outcomeLasting (execPllLockLoss s) = some (lasting s) := by
  simp [execPllLockLoss]

theorem execSupWatchdogExpiry_lasting : outcomeLasting (execSupWatchdogExpiry s) = some (lasting s) := by
  simp [execSupWatchdogExpiry]

@[simp] theorem sealLanding_lasting : lasting (sealLanding s) = lasting s := (rfl)

@[simp] theorem logDeparture_lasting : lasting (logDeparture s) = lasting s := (rfl)

@[simp] theorem lastGasp_lasting (cut) : lasting (lastGasp s cut) = lasting s := by
  simp [lastGasp]

@[simp] theorem goDark_lasting (cause) : lasting (goDark s cause) = lasting s := (rfl)

theorem execSupplyLoss_lasting (cut m) : outcomeLasting (execSupplyLoss cut m s) = some (lasting s) := by
  unfold execSupplyLoss
  repeat' split
  all_goals simp

theorem execLastGaspSequenceEnd_lasting (m) : outcomeLasting (execLastGaspSequenceEnd m s) = some (lasting s) := by
  simp [execLastGaspSequenceEnd]

theorem execUndervoltage_lasting (m) : outcomeLasting (execUndervoltage m s) = some (lasting s) := by
  simp [execUndervoltage]

theorem execSurge_lasting (m) : outcomeLasting (execSurge m s) = some (lasting s) := by
  simp [execSurge]

theorem execDetectCycleStart_lasting (port) : outcomeLasting (execDetectCycleStart port s) = some (lasting s) := by
  simp [execDetectCycleStart]

@[simp] theorem sourcePort_lasting (p) : lasting (sourcePort s p) = lasting s := by
  simp [sourcePort]

theorem execDetectCycleEnd_lasting (port listen i1 i2) : outcomeLasting (execDetectCycleEnd port listen i1 i2 s) = some (lasting s) := by
  simp [execDetectCycleEnd]

theorem execPortAbove30V_lasting (port m) : outcomeLasting (execPortAbove30V port m s) = some (lasting s) := by
  simp [execPortAbove30V]

theorem execPortBelow30V_lasting (port m) : outcomeLasting (execPortBelow30V port m s) = some (lasting s) := by
  simp [execPortBelow30V]

theorem execPortJoin_lasting (port m) : outcomeLasting (execPortJoin port m s) = some (lasting s) := by
  simp [execPortJoin]

theorem execPtCurrentFault_lasting (port m) : outcomeLasting (execPtCurrentFault port m s) = some (lasting s) := by
  simp [execPtCurrentFault]

theorem execPtLinkLossRelease_lasting (port m) : outcomeLasting (execPtLinkLossRelease port m s) = some (lasting s) := by
  simp [execPtLinkLossRelease]

theorem execDepartureBlazeReceive_lasting (port blaze) : outcomeLasting (execDepartureBlazeReceive port blaze s) = some (lasting s) := by
  simp [execDepartureBlazeReceive]

theorem execHoldoffEnd_lasting (port m) : outcomeLasting (execHoldoffEnd port m s) = some (lasting s) := by
  simp [execHoldoffEnd]

@[simp] theorem followEnable_lasting (p) : lasting (followEnable s p) = lasting s := by
  simp [followEnable]

@[simp] theorem writePwrCtl_lasting (v) : lasting (writePwrCtl s v) = lasting s := by
  simp [writePwrCtl]

theorem execPwrCtlWrite_lasting (door v) : outcomeLasting (execPwrCtlWrite door v s) = some (lasting s) := by
  simp [execPwrCtlWrite]

@[simp] theorem takeSerial_lasting : lasting (takeSerial s) = lasting s := by
  simp [takeSerial]

@[simp] theorem leaveSerial_lasting : lasting (leaveSerial s) = lasting s := by
  simp [leaveSerial]

@[simp] theorem wantSerial_lasting : lasting (wantSerial s) = lasting s := by
  simp [wantSerial]

theorem execSspPortBTake_lasting (m) : outcomeLasting (execSspPortBTake m s) = some (lasting s) := by
  simp [execSspPortBTake]

theorem execTwistStillnessMet_lasting : outcomeLasting (execTwistStillnessMet s) = some (lasting s) := by
  simp [execTwistStillnessMet]

@[simp] theorem twistRelease_lasting : lasting (twistRelease s) = lasting s := by
  simp [twistRelease]

@[simp] theorem showTwist_lasting (n calm) : lasting (showTwist s n calm) = lasting s := (rfl)

@[simp] theorem twistSample_lasting (x) : lasting (twistSample s x) = lasting s := by
  unfold twistSample
  dsimp only
  repeat' split
  all_goals simp

@[simp] theorem twistPath_lasting (xs) : lasting (twistPath s xs) = lasting s := by
  simp [twistPath]

theorem execTwistIntegralClear_lasting (xs) : outcomeLasting (execTwistIntegralClear xs s) = some (lasting s) := by
  simp [execTwistIntegralClear]

theorem execTwistReleaseTrigger_lasting (xs) : outcomeLasting (execTwistReleaseTrigger xs s) = some (lasting s) := by
  simp [execTwistReleaseTrigger]

theorem execTwistSupplyPersists_lasting : outcomeLasting (execTwistSupplyPersists s) = some (lasting s) := by
  simp [execTwistSupplyPersists]

theorem execTwistRestartInrush_lasting (m) : outcomeLasting (execTwistRestartInrush m s) = some (lasting s) := by
  simp [execTwistRestartInrush]

/-! ### Modes -/

@[simp] theorem modModes_lasting (f) : lasting (s.modModes f) = lasting s := (rfl)

@[simp] theorem serialFor_lasting (m) : lasting (serialFor s m) = lasting s := by
  simp [serialFor]

@[simp] theorem leaveCoppice_lasting : lasting (leaveCoppice s) = lasting s := (rfl)

@[simp] theorem abandonBarred_lasting : lasting (abandonBarred s) = lasting s := by
  unfold abandonBarred
  split <;> simp

@[simp] theorem setMode_lasting (m) : lasting (setMode s m) = lasting s := by
  simp [setMode]

@[simp] theorem setGates_lasting (m) : lasting (setGates s m) = lasting s := by
  simp [setGates]

@[simp] theorem setWork_lasting (m) : lasting (setWork s m) = lasting s := by
  simp [setWork]

@[simp] theorem dropChange_lasting : lasting (dropChange s) = lasting s := (rfl)

@[simp] theorem arrive_lasting : lasting (arrive s) = lasting s := by
  simp [arrive]

@[simp] theorem startEngines_lasting (restart) : lasting (startEngines s restart) = lasting s := by
  simp [startEngines]

@[simp] theorem settleActions_lasting (wasOn) : lasting (settleActions s wasOn) = lasting s := by
  simp [settleActions]

@[simp] theorem enterSafe_lasting (code) : lasting (enterSafe s code) = lasting s := by
  simp [enterSafe]

@[simp] theorem suspendBlazes_lasting (m) : lasting (suspendBlazes s m) = lasting s := by
  simp [suspendBlazes]

@[simp] theorem beginDown_lasting (m auto) : lasting (beginDown s m auto) = lasting s := by
  simp [beginDown]

@[simp] theorem loseSet_lasting : lasting (loseSet s) = lasting s := by
  unfold loseSet
  split <;> simp

theorem execHotMinute_lasting : outcomeLasting (execHotMinute s) = some (lasting s) := by
  simp [execHotMinute]

theorem execLandingAccountMismatch_lasting : outcomeLasting (execLandingAccountMismatch s) = some (lasting s) := by
  simp [execLandingAccountMismatch]

theorem execDeckAccountAudit_lasting (free held flight) : outcomeLasting (execDeckAccountAudit free held flight s) = some (lasting s) := by
  simp [execDeckAccountAudit]

theorem execAnaHeartbeatLoss_lasting : outcomeLasting (execAnaHeartbeatLoss s) = some (lasting s) := by
  unfold execAnaHeartbeatLoss
  dsimp only
  repeat' split
  all_goals simp

@[simp] theorem restartNet_lasting : lasting (restartNet s) = lasting s := by
  simp [restartNet]

theorem execNetHeartbeatLoss_lasting : outcomeLasting (execNetHeartbeatLoss s) = some (lasting s) := by
  unfold execNetHeartbeatLoss
  dsimp only
  repeat' split
  all_goals simp

@[simp] theorem beginRestart_lasting (cause) : lasting (beginRestart s cause) = lasting s := by
  simp [beginRestart]

@[simp] theorem flushStream_lasting (k fuel) : lasting (flushStream s k fuel) = lasting s := by
  induction fuel generalizing s with
  | zero => rfl
  | succ n ih => simp [flushStream, ih]

@[simp] theorem restartCmd_lasting : lasting (restartCmd s) = lasting s := by
  simp [restartCmd]

theorem execModeRestartCmd_lasting (door) : outcomeLasting (execModeRestartCmd door s) = some (lasting s) := by
  simp [execModeRestartCmd]

@[simp] theorem writeMdCfg_lasting (v) : lasting (writeMdCfg s v) = lasting s := (rfl)

@[simp] theorem freshState_lasting : lasting (freshState s) = lasting s := by
  simp [freshState]

@[simp] theorem showKeys_lasting : lasting (showKeys s) = lasting s := (rfl)

@[simp] theorem fillIdentity_lasting (cause half trial) : lasting (fillIdentity s cause half trial) = lasting s := (rfl)

@[simp] theorem startState_lasting (boot) : lasting (startState s boot) = lasting s := by
  unfold startState
  dsimp only
  split <;> simp

theorem execInrushEnd_lasting (boot) : outcomeLasting (execInrushEnd boot s) = some (lasting s) := by
  simp [execInrushEnd]

theorem execControllerResetRelease_lasting (boot) : outcomeLasting (execControllerResetRelease boot s) = some (lasting s) := by
  simp [execControllerResetRelease]

theorem execStartEnd_lasting : outcomeLasting (execStartEnd s) = some (lasting s) := by
  simp [execStartEnd]

theorem execOrderlyRestart_lasting (boot) : outcomeLasting (execOrderlyRestart boot s) = some (lasting s) := by
  simp [execOrderlyRestart]

/-! ### Boundary -/

@[simp] theorem closeStreams_lasting (i fin) : lasting (closeStreams s i fin) = lasting s := by
  simp [closeStreams]

@[simp] theorem disableSlot_lasting (i) : lasting (disableSlot s i) = lasting s := by
  simp [disableSlot]

@[simp] theorem switchTacho_lasting (i) : lasting (switchTacho s i) = lasting s := by
  simp [switchTacho]

@[simp] theorem switchAt_lasting (i S) : lasting (switchAt s i S) = lasting s := by
  unfold switchAt
  split <;> simp

@[simp] theorem enableSlot_lasting (i r S) : lasting (enableSlot s i r S) = lasting s := by
  simp [enableSlot]

@[simp] theorem rateDone_lasting (i S) : lasting (rateDone s i S) = lasting s := by
  simp [rateDone]

@[simp] theorem finishChange_lasting (i) : lasting (finishChange s i) = lasting s := by
  unfold finishChange
  split <;> simp

@[simp] theorem closeChange_lasting (i) : lasting (closeChange s i) = lasting s := by
  unfold closeChange
  split <;> simp

@[simp] theorem rateSlot_lasting (i r S) : lasting (rateSlot s i r S) = lasting s := by
  simp [rateSlot]

@[simp] theorem applyGrCfg_lasting (i S) : lasting (applyGrCfg s i S) = lasting s := by
  simp [applyGrCfg]

@[simp] theorem timeStep_lasting (cause jump) : lasting (timeStep s cause jump) = lasting s := by
  simp [timeStep]

theorem execInitialSet_lasting : outcomeLasting (execInitialSet s) = some (lasting s) := by
  unfold execInitialSet
  split <;> simp

theorem execStepApply_lasting : outcomeLasting (execStepApply s) = some (lasting s) := by
  simp [execStepApply]

@[simp] theorem writeGrCfg_lasting (i v) : lasting (writeGrCfg s i v) = lasting s := by
  simp [writeGrCfg]

theorem execGrCfgWrite_lasting (door slot v) : outcomeLasting (execGrCfgWrite door slot v s) = some (lasting s) := by
  simp [execGrCfgWrite]

theorem execGrCfgApply_lasting (slot) : outcomeLasting (execGrCfgApply slot s) = some (lasting s) := by
  unfold execGrCfgApply
  split <;> simp

theorem execGridSlotRecord_lasting (slot t live taken) : outcomeLasting (execGridSlotRecord slot t live taken s) = some (lasting s) := by
  simp [execGridSlotRecord]

/-! ### Write -/

@[simp] theorem writeFields_lasting (a v) : lasting (writeFields s a v) = lasting s := by
  unfold writeFields
  split <;> simp

@[simp] theorem writeCalCmd_lasting (v) : lasting (writeCalCmd s v) = lasting s := by
  simp [writeCalCmd]

@[simp] theorem writeCal_lasting (a v) : lasting (writeCal s a v) = lasting s := by
  simp [writeCal]

@[simp] theorem writeDkCmd_lasting (v) : lasting (writeDkCmd s v) = lasting s := by
  simp [writeDkCmd]

@[simp] theorem writeMlCfg_lasting (i v) : lasting (writeMlCfg s i v) = lasting s := by
  simp [writeMlCfg]

@[simp] theorem writeSlotPage_lasting (i o v) : lasting (writeSlotPage s i o v) = lasting s := by
  simp [writeSlotPage]

@[simp] theorem writeConverter_lasting (a v) : lasting (writeConverter s a v) = lasting s := by
  simp [writeConverter]

@[simp] theorem writeEngines_lasting (a v) : lasting (writeEngines s a v) = lasting s := by
  simp [writeEngines]

@[simp] theorem writeIrq_lasting (a v) : lasting (writeIrq s a v) = lasting s := by
  simp [writeIrq]

@[simp] theorem writeAnalysis_lasting (a v) : lasting (writeAnalysis s a v) = lasting s := by
  simp [writeAnalysis]

@[simp] theorem writeRecog_lasting (a v) : lasting (writeRecog s a v) = lasting s := by
  simp [writeRecog]

/-! ### Tally -/

@[simp] theorem applyWorld_lasting (l) : lasting (applyWorld s l) = lasting s := by
  simp [applyWorld]

@[simp] theorem setHosts_lasting (l) : lasting (setHosts s l) = lasting s := (rfl)

@[simp] theorem putSetup_lasting (n tags) : lasting (putSetup s n tags) = lasting s := (rfl)

@[simp] theorem putNamed_lasting (r) : lasting (putNamed s r) = lasting s := by
  unfold putNamed
  split <;> simp

@[simp] theorem loadCheck_lasting : lasting (loadCheck s) = lasting s := by
  simp [loadCheck]

theorem execTallyLoadCheck_lasting : outcomeLasting (execTallyLoadCheck s) = some (lasting s) := by
  simp [execTallyLoadCheck]

@[simp] theorem listen_lasting : lasting (listen s) = lasting s := (rfl)

@[simp] theorem refuseCommit_lasting (why) : lasting (refuseCommit s why) = lasting s := (rfl)

@[simp] theorem voidOwn_lasting (p) : lasting (voidOwn s p) = lasting s := (rfl)

@[simp] theorem sendHello_lasting (p) : lasting (sendHello s p) = lasting s := by
  simp [sendHello]

@[simp] theorem sendOffer_lasting (p) : lasting (sendOffer s p) = lasting s := by
  unfold sendOffer
  split <;> simp

@[simp] theorem announceImage_lasting : lasting (announceImage s) = lasting s := by
  simp [announceImage]

@[simp] theorem newOwn_lasting (im) : lasting (newOwn s im) = lasting s := by
  simp [newOwn]

theorem execFreqEstimateLog_lasting (fails) : outcomeLasting (execFreqEstimateLog fails s) = some (lasting s) := by
  simp [execFreqEstimateLog]

@[simp] theorem sealFailed_lasting : lasting (sealFailed s) = lasting s := by
  simp [sealFailed]

@[simp] theorem refuseStaging_lasting (why) : lasting (refuseStaging s why) = lasting s := (rfl)

theorem execStagingEraseDone_lasting : outcomeLasting (execStagingEraseDone s) = some (lasting s) := by
  unfold execStagingEraseDone
  split <;> simp

@[simp] theorem programBlock_lasting (x o block) : lasting (programBlock s x o block) = lasting s := by
  simp [programBlock]

@[simp] theorem writeStgw_lasting (w v) : lasting (writeStgw s w v) = lasting s := by
  unfold writeStgw
  dsimp only
  repeat' split
  all_goals simp

theorem execStagingBlockProgram_lasting (door v) : outcomeLasting (execStagingBlockProgram door v s) = some (lasting s) := by
  simp [execStagingBlockProgram]

@[simp] theorem writeStgofs_lasting (v) : lasting (writeStgofs s v) = lasting s := by
  simp [writeStgofs]

@[simp] theorem endStaging_lasting : lasting (endStaging s) = lasting s := (rfl)

@[simp] theorem stagingAbortOp_lasting : lasting (stagingAbortOp s) = lasting s := by
  simp [stagingAbortOp]

theorem execStagingAbort_lasting (door) : outcomeLasting (execStagingAbort door s) = some (lasting s) := by
  simp [execStagingAbort]

@[simp] theorem runImage_lasting (im) : lasting (runImage s im) = lasting s := by
  simp [runImage]

@[simp] theorem rejectContent_lasting (l) : lasting (rejectContent s l) = lasting s := by
  simp [rejectContent]

/-! ### Custody -/

theorem execCustodyHelloSend_lasting (port) : outcomeLasting (execCustodyHelloSend port s) = some (lasting s) := by
  simp [execCustodyHelloSend]

@[simp] theorem noteTdig_lasting (p sender d valid) : lasting (noteTdig s p sender d valid) = lasting s := (rfl)

@[simp] theorem takeOffer_lasting (p o) : lasting (takeOffer s p o) = lasting s := by
  simp [takeOffer]

@[simp] theorem takeHello_lasting (p sender h) : lasting (takeHello s p sender h) = lasting s := by
  simp [takeHello]

theorem execCustodyHelloReceive_lasting (port d) : outcomeLasting (execCustodyHelloReceive port d s) = some (lasting s) := by
  simp [execCustodyHelloReceive]

@[simp] theorem sendChunk_lasting (p want im offset) : lasting (sendChunk s p want im offset) = lasting s := by
  simp [sendChunk]

@[simp] theorem serveRequest_lasting (p want offset nch) : lasting (serveRequest s p want offset nch) = lasting s := by
  unfold serveRequest
  split <;> simp

theorem execCustodyRequest_lasting (port d) : outcomeLasting (execCustodyRequest port d s) = some (lasting s) := by
  simp [execCustodyRequest]

@[simp] theorem coppiceImage_lasting (p f im) : lasting (coppiceImage s p f im) = lasting s := by
  simp [coppiceImage]

@[simp] theorem fetchNone_lasting (p f) : lasting (fetchNone s p f) = lasting s := by
  simp [fetchNone]

@[simp] theorem fetchAgain_lasting (p f d) : lasting (fetchAgain s p f d) = lasting s := by
  unfold fetchAgain
  split <;> simp

@[simp] theorem lookTail_lasting (p x length total first) : lasting (lookTail s p x length total first) = lasting s := by
  simp [lookTail]

@[simp] theorem takeLook_lasting (p x c) : lasting (takeLook s p x c) = lasting s := by
  unfold takeLook
  dsimp only
  repeat' split
  all_goals simp

theorem execCustodyOffer_lasting (port d) : outcomeLasting (execCustodyOffer port d s) = some (lasting s) := by
  simp [execCustodyOffer]

theorem execCustodyDefer_lasting (port d) : outcomeLasting (execCustodyDefer port d s) = some (lasting s) := by
  simp [execCustodyDefer]

theorem execCustodyDeferEnd_lasting (port) : outcomeLasting (execCustodyDeferEnd port s) = some (lasting s) := by
  unfold execCustodyDeferEnd
  dsimp only
  repeat' split
  all_goals simp

theorem execCoppiceListenEnd_lasting : outcomeLasting (execCoppiceListenEnd s) = some (lasting s) := by
  simp [execCoppiceListenEnd]

@[simp] theorem enrollHello_lasting : lasting (enrollHello s) = lasting s := by
  simp [enrollHello]

theorem execEnrollHello_lasting : outcomeLasting (execEnrollHello s) = some (lasting s) := by
  simp [execEnrollHello]

theorem execEnrollOffer_lasting (pub plant sysid sig) : outcomeLasting (execEnrollOffer pub plant sysid sig s) = some (lasting s) := by
  unfold execEnrollOffer
  split <;> simp

/-! ### Sets -/

@[simp] theorem tryWords_lasting (l) : lasting (tryWords s l) = lasting s := by
  simp [tryWords]

@[simp] theorem trySetups_lasting (l) : lasting (trySetups s l) = lasting s := by
  unfold trySetups
  rw [checkSetups_lasting, lasting_foldl _ _ (by intro s r; split <;> simp), tryWords_lasting]

@[simp] theorem sendResult_lasting (ps host csid res idx sec) : lasting (sendResult s ps host csid res idx sec) = lasting s := by
  simp [sendResult]

@[simp] theorem showSet_lasting (csid res) : lasting (showSet s csid res) = lasting s := (rfl)

@[simp] theorem dropParts_lasting (ps host res idx) : lasting (dropParts s ps host res idx) = lasting s := by
  unfold dropParts
  split <;> simp

@[simp] theorem checkSet_lasting (ps c) : lasting (checkSet s ps c) = lasting s := by
  simp [checkSet]

@[simp] theorem completeSet_lasting (ps host p l) : lasting (completeSet s ps host p l) = lasting s := by
  unfold completeSet
  split <;> simp

@[simp] theorem takePart_lasting (port host p) : lasting (takePart s port host p) = lasting s := by
  unfold takePart
  dsimp only
  repeat' split
  all_goals simp

theorem execChangeSetPart_lasting (port d) : outcomeLasting (execChangeSetPart port d s) = some (lasting s) := by
  simp [execChangeSetPart]

theorem execChangeSetTimeout_lasting (sender) : outcomeLasting (execChangeSetTimeout sender s) = some (lasting s) := by
  simp [execChangeSetTimeout]

@[simp] theorem stopNamed_lasting (c) : lasting (stopNamed s c) = lasting s := by
  simp [stopNamed]

theorem execChangeSetEngineStop_lasting : outcomeLasting (execChangeSetEngineStop s) = some (lasting s) := by
  unfold execChangeSetEngineStop
  split <;> simp

@[simp] theorem releaseNamed_lasting (restart) : lasting (releaseNamed s restart) = lasting s := by
  simp [releaseNamed]

@[simp] theorem acceptSetups_lasting : lasting (acceptSetups s) = lasting s := by
  simp [acceptSetups]

@[simp] theorem applySetNamed_lasting (sec r) : lasting (applySetNamed s sec r) = lasting s := by
  unfold applySetNamed
  split <;> simp

/-! ### Bus -/

@[simp] theorem latchHigh_lasting (i a) : lasting (latchHigh s i a) = lasting s := (rfl)

@[simp] theorem readHigh_lasting (i a) : lasting (readHigh s i a).2 = lasting s := by
  unfold readHigh
  split <;> simp

@[simp] theorem clearRc_lasting (a) : lasting (clearRc s a) = lasting s := by
  simp [clearRc]

@[simp] theorem readWord_lasting (i a) : lasting (readWord s i a).2 = lasting s := by
  unfold readWord
  repeat' split
  all_goals simp

@[simp] theorem readWords_lasting (i a n) : lasting (readWords s i a n).2 = lasting s := by
  induction n generalizing s a with
  | zero => rfl
  | succ n ih => simp [readWords, ih]

theorem execTwoHalfLowRead_lasting (init addr) : outcomeLasting (execTwoHalfLowRead init addr s) = some (lasting s) := by
  simp [execTwoHalfLowRead]

theorem execTwoHalfHighRead_lasting (init addr) : outcomeLasting (execTwoHalfHighRead init addr s) = some (lasting s) := by
  simp [execTwoHalfHighRead]

theorem execBusWidthAccess_lasting (p byteAddr half wr) : outcomeLasting (execBusWidthAccess p byteAddr half wr s) = some (lasting s) := by
  simp [execBusWidthAccess]

@[simp] theorem answerBurst_lasting (l) : lasting (s.answerBurst l) = lasting s := (rfl)

theorem execBusMultiwordAccess_lasting (p addr n) : outcomeLasting (execBusMultiwordAccess p addr n s) = some (lasting s) := by
  simp [execBusMultiwordAccess]

theorem execReadClearsAccess_lasting (p addr) : outcomeLasting (execReadClearsAccess p addr s) = some (lasting s) := by
  simp [execReadClearsAccess]

@[simp] theorem partitionStray_lasting (p x) : lasting (partitionStray s p x) = lasting s := by
  unfold partitionStray
  split <;> simp

theorem execWorldViolation_lasting (p target wr byteAddr) : outcomeLasting (execWorldViolation p target wr byteAddr s) = some (lasting s) := by
  simp [execWorldViolation]

@[simp] theorem sendReply_lasting (port d pay) : lasting (sendReply s port d pay) = lasting s := by
  simp [sendReply]

@[simp] theorem replyMgmt_lasting (port d reqid pay) : lasting (replyMgmt s port d reqid pay) = lasting s := by
  simp [replyMgmt]

@[simp] theorem onceMgmt_lasting (port d reqid) (f : State → Payload × State) (h : ∀ t, lasting (f t).2 = lasting t) :
    lasting (onceMgmt s port d reqid f) = lasting s := by
  unfold onceMgmt
  repeat' split
  all_goals simp [h]

@[simp] theorem mgmtReadOp_lasting (host reqid op addr cnt len) : lasting (mgmtReadOp s host reqid op addr cnt len).2 = lasting s := by
  unfold mgmtReadOp
  dsimp only
  repeat' split
  all_goals simp

/-! ### Serial -/

@[simp] theorem setFrame_lasting (op res trunc) : lasting (setFrame s op res trunc) = lasting s := (rfl)

@[simp] theorem countFrame_lasting (res) : lasting (countFrame s res) = lasting s := by
  simp [countFrame]

@[simp] theorem endFrame_lasting (op res trunc extra) : lasting (endFrame s op res trunc extra) = lasting s := by
  simp [endFrame]

@[simp] theorem eraseAnswer_lasting : lasting (eraseAnswer s) = lasting s := by
  simp [eraseAnswer]

@[simp] theorem sspReadOp_lasting (addr cnt extra) : lasting (sspReadOp s addr cnt extra) = lasting s := by
  simp [sspReadOp]

theorem execSspRead_lasting (f) : outcomeLasting (execSspRead f s) = some (lasting s) := by
  simp [execSspRead]

theorem execEraseComplete_lasting : outcomeLasting (execEraseComplete s) = some (lasting s) := by
  simp [execEraseComplete]

theorem execSspFrameReject_lasting (f) : outcomeLasting (execSspFrameReject f s) = some (lasting s) := by
  simp [execSspFrameReject]

@[simp] theorem sendIdentify_lasting : lasting (sendIdentify s) = lasting s := (rfl)

theorem execKeyProbeSwitch_lasting (m) : outcomeLasting (execKeyProbeSwitch m s) = some (lasting s) := by
  simp [execKeyProbeSwitch]

theorem execKeyProbeIdentify_lasting : outcomeLasting (execKeyProbeIdentify s) = some (lasting s) := by
  simp [execKeyProbeIdentify]

@[simp] theorem sendPlugRead_lasting (addr n) : lasting (sendPlugRead s addr n) = lasting s := (rfl)

@[simp] theorem takePlug_lasting (n words) : lasting (takePlug s n words) = lasting s := (rfl)

theorem execServiceAdapterAnswer_lasting (w1 w2) : outcomeLasting (execServiceAdapterAnswer w1 w2 s) = some (lasting s) := by
  simp [execServiceAdapterAnswer]

end Sys2Proof.Machine
end

section
/-!
PROOFS. The write numbers never fall and the key area changes by enrollment and erase-to-blank alone (15 R383, R384, 17 R438, R439): how the lasting part may move, the operations
that move it, and one lemma per command.
-/

namespace Sys2Proof.Machine

/-- How the lasting part may move: the queue stays, and COMSEQ, the anti-rollback floor and the commit counts within their field do not fall. -/
structure Rises (a b : Lasting) : Prop where
  queue : b.queue = a.queue
  comseq : a.comseq ≤ b.comseq
  wear : ∀ k : Fin 24, a.wear[k] ≤ 0xFFFF → a.wear[k] ≤ b.wear[k] ∧ b.wear[k] ≤ 0xFFFF
  floor : a.keys.floor ≤ b.keys.floor

/-- How it moves outside enrollment and erase-to-blank: what the erasable key area holds stays too. -/
structure Grows (a b : Lasting) : Prop extends Rises a b where
  lineKey : b.keys.lineKey = a.keys.lineKey
  anchor : b.keys.anchor = a.keys.anchor
  sysid : b.keys.sysid = a.keys.sysid

variable {a b c : Lasting}

theorem Rises.refl (a : Lasting) : Rises a a := ⟨rfl, Nat.le_refl _, fun _ h => ⟨Nat.le_refl _, h⟩, Nat.le_refl _⟩

theorem Rises.trans (h : Rises a b) (k : Rises b c) : Rises a c where
  queue := k.queue.trans h.queue
  comseq := Nat.le_trans h.comseq k.comseq
  wear := fun n hn => ⟨Nat.le_trans (h.wear n hn).1 (k.wear n (h.wear n hn).2).1, (k.wear n (h.wear n hn).2).2⟩
  floor := Nat.le_trans h.floor k.floor

@[simp] theorem Grows.refl (a : Lasting) : Grows a a := ⟨Rises.refl a, rfl, rfl, rfl⟩

theorem Grows.trans (h : Grows a b) (k : Grows b c) : Grows a c where
  toRises := h.toRises.trans k.toRises
  lineKey := k.lineKey.trans h.lineKey
  anchor := k.anchor.trans h.anchor
  sysid := k.sysid.trans h.sysid

/-- An operation that leaves what lasts goes before one that grows it. -/
theorem Grows.after {s t : State} (h : lasting t = lasting s) (k : Grows (lasting t) b) : Grows (lasting s) b := h ▸ k

theorem Grows.of_keeps {s t : State} (h : Keeps s t) : Grows (lasting s) (lasting t) where
  queue := h.queue
  comseq := h.comseq
  wear := h.wear
  floor := h.floor
  lineKey := h.area.1
  anchor := h.area.2.1
  sysid := h.area.2.2

theorem grows_foldl {α : Type} (l : List α) (f : State → α → State) (h : ∀ s a, Grows (lasting s) (lasting (f s a))) (s : State) :
    Grows (lasting s) (lasting (l.foldl f s)) :=
  List.foldlRecOn l f (motive := fun t => Grows (lasting s) (lasting t)) (.refl _) fun t ht a _ => ht.trans (h t a)

variable (s : State)

/-! ### The seal log and the end of a trial -/

theorem reserveSeq_grows : Grows (lasting s) (lasting (reserveSeq s)) := .of_keeps (keeps_reserveSeq s)

theorem sealImage_grows (r p im n origin) : Grows (lasting s) (lasting (sealImage s r p im n origin)) := .of_keeps (keeps_sealImage s r p im n origin)

theorem commitImage_grows (r im origin) : Grows (lasting s) (lasting (commitImage s r im origin)) := .of_keeps (keeps_commitImage s r im origin)

/-- A trial's end raises the floor to a higher release, or leaves it (17 R439). -/
theorem endTrial_grows : Grows (lasting s) (lasting (endTrial s)) := by
  unfold endTrial
  split
  · exact .refl _
  · dsimp only
    split
    · rename_i hrises
      simp only [set_lasting, setWord_lasting, lasting_mk]
      exact ⟨⟨rfl, Nat.le_refl _, fun _ h => ⟨Nat.le_refl _, h⟩, Nat.le_of_lt hrises.1⟩, rfl, rfl, rfl⟩
    · exact .refl _

/-! ### Changes of mode -/

theorem enterActions_grows (m) : Grows (lasting s) (lasting (enterActions s m)) := by
  unfold enterActions
  split
  · simpa using endTrial_grows s
  · split
    · simpa using endTrial_grows s
    · exact .refl _

theorem changeMode_grows (m) : Grows (lasting s) (lasting (changeMode s m)) := by
  simpa [changeMode] using enterActions_grows (setWork (setGates (setMode s m) m) m) m

theorem finishDown_grows : Grows (lasting s) (lasting (finishDown s)) := by
  simpa [finishDown] using changeMode_grows s s.modes.target

theorem autoClean_grows : Grows (lasting s) (lasting (autoClean s)) := by
  unfold autoClean
  split
  · split
    · simpa using finishDown_grows (s.modModes fun x => { x with target := 8, auto := true })
    · simp
  · exact .refl _

theorem enterSettle_grows : Grows (lasting s) (lasting (enterSettle s)) := by
  simpa [enterSettle] using changeMode_grows s 5

theorem safeToService_grows : Grows (lasting s) (lasting (safeToService s)) := by
  simpa [safeToService] using changeMode_grows (s.set MD_ST_FAULT 0) 9

theorem takeRequest_grows (m) : Grows (lasting s) (lasting (takeRequest s m)) := by
  have hset : ∀ t, Grows (lasting (s.set MD_ST_AUTO 0)) (lasting t) → Grows (lasting s) (lasting t) := fun t h => by simpa using h
  unfold takeRequest
  refine hset _ ?_
  dsimp only
  repeat' split
  · simp
  · simp
  · simpa using changeMode_grows (dropChange (s.set MD_ST_AUTO 0)) 9
  · simp
  · exact enterSettle_grows _
  · exact safeToService_grows _
  · exact changeMode_grows _ _

theorem requestMode_grows (m) : Grows (lasting s) (lasting (requestMode s m)) := by
  unfold requestMode
  dsimp only
  split
  · simpa using takeRequest_grows ((s.set MD_REQST_REQ m).set MD_REQST_RES (requestResult s m)) m
  · simp

theorem writeMdCmd_grows (v) : Grows (lasting s) (lasting (writeMdCmd s v)) := by
  unfold writeMdCmd
  split
  · simp
  · exact requestMode_grows _ _

theorem enterUpdate_grows : Grows (lasting s) (lasting (enterUpdate s)) := by
  unfold enterUpdate
  dsimp only
  split
  · simp
  · simpa using finishDown_grows ((s.set MD_ST_AUTO 0).modModes fun x => { x with target := 10, auto := false })

theorem settleExit_grows (targets) : Grows (lasting s) (lasting (settleExit s targets)) := by
  unfold settleExit
  extract_lets s1 m u
  refine .after (t := u) (by simp [u, s1]) ?_
  split
  · simpa using changeMode_grows u 6
  · simp

theorem enterCoppice_grows : Grows (lasting s) (lasting (enterCoppice s)) := by
  unfold enterCoppice
  dsimp only
  split <;> simpa using changeMode_grows s 4

/-! ### Staging and commits -/

theorem stagingOpenOp_grows : Grows (lasting s) (lasting (stagingOpenOp s)) := by
  unfold stagingOpenOp
  dsimp only
  split
  · simp
  · split
    · simp
    · rw [set_lasting, set_lasting, modTally_lasting]
      refine (reserveSeq_grows s).trans ?_
      repeat' split
      all_goals simp

theorem commitOp_grows (sender) : Grows (lasting s) (lasting (commitOp s sender)) := by
  unfold commitOp
  split
  · simp
  · dsimp only
    split
    · simp
    · simpa using reserveSeq_grows s.cystad

theorem writeTlCmd_grows (sender v) : Grows (lasting s) (lasting (writeTlCmd s sender v)) := by
  have habort : Grows (lasting s) (lasting (if v.getLsbD 3 then stagingAbortOp s else s)) := by simp
  have hopen : ∀ t, Grows (lasting t) (lasting (if v.getLsbD 1 then stagingOpenOp t else t)) := fun t => by
    split
    · exact stagingOpenOp_grows t
    · exact .refl _
  unfold writeTlCmd
  dsimp only
  split
  · exact (habort.trans (hopen _)).trans (commitOp_grows _ _)
  · exact habort.trans (hopen _)

theorem sealCommit_grows (im p) : Grows (lasting s) (lasting (sealCommit s im p)) := by
  simpa [sealCommit] using sealImage_grows s 0 p im s.tally.commitSeq 1

theorem sealFirmware_grows (x release) : Grows (lasting s) (lasting (sealFirmware s x release)) :=
  .after (by simp) (enterUpdate_grows _)

theorem sealTally_grows (x im) : Grows (lasting s) (lasting (sealTally s x im)) := by
  have hseal : Grows (lasting s) (lasting (newOwn ((endStaging (sealImage s 0 x.pos im x.comseq 1)).set TL_RES_SRES 0) im)) := by
    simpa using sealImage_grows s 0 x.pos im x.comseq 1
  exact hseal.trans (enterUpdate_grows _)

theorem stagingDoneOp_grows (release sigOk) : Grows (lasting s) (lasting (stagingDoneOp s release sigOk)) := by
  unfold stagingDoneOp
  dsimp only
  repeat' split
  · exact .refl _
  · simp
  · simp
  · exact sealFirmware_grows _ _ _
  · simp
  · exact sealTally_grows _ _ _
  · simp

/-! ### Register writes -/

theorem writeLow_grows (host a v) : Grows (lasting s) (lasting (writeLow s host a v)) := by
  unfold writeLow
  by_cases hcmd : a = 0x9
  · rw [if_pos hcmd]
    split
    · exact writeMdCmd_grows _ _
    · exact .refl _
  · simp only [if_neg hcmd, lasting_ite, writeMdCfg_lasting, writePwrCtl_lasting, writeTimeCmd_lasting, writePortCfg_lasting, writeStream_lasting, writeFields_lasting,
      ite_self, Grows.refl]

/-- Beyond the low pages and outside the banks no register write touches what lasts. -/
theorem writeWord_grows (host a v) : Grows (lasting s) (lasting (writeWord s host a v)) := by
  unfold writeWord
  by_cases hreg : !isRegister a
  · rw [if_pos hreg]
    exact .refl _
  · rw [if_neg hreg]
    cases hbank : bankWord a with
    | some k => exact .after (writeBank_lasting s k a v) (.refl _)
    | none =>
      by_cases hlow : a < 0x400
      · exact (if_pos hlow).symm ▸ writeLow_grows s host a v
      · dsimp only
        simp only [if_neg hlow, lasting_ite, writeSlotPage_lasting, writeConverter_lasting, writeAux_lasting, writeFields_lasting, auxKeep_lasting, leadMeasure_lasting,
          globalSync_lasting, writeCal_lasting, writeDkCmd_lasting, writeDkCap_lasting, writeRecog_lasting, writeEngines_lasting, writeIrq_lasting,
          writeAnalysis_lasting, ite_self, Grows.refl]

theorem writeAll_grows (host a v) : Grows (lasting s) (lasting (writeAll s host a v)) := by
  unfold writeAll
  repeat' split
  · exact writeTlCmd_grows _ _ _
  · exact .refl _
  · simp
  · simp
  · exact writeWord_grows _ _ _ _

theorem writeAny_grows (door a v) : Grows (lasting s) (lasting (writeAny s door a v)) := by
  unfold writeAny
  repeat' split
  · simp
  · exact .refl _
  · exact writeAll_grows _ _ _ _

theorem writeSpan_grows (door a l) : Grows (lasting s) (lasting (writeSpan s door a l)) := by
  induction l generalizing s a with
  | nil => exact .refl _
  | cons v rest ih => exact (writeAny_grows s door a v).trans (ih _ _)

theorem putRecord_grows (host a m v) : Grows (lasting s) (lasting (putRecord s host a m v)) := by
  unfold putRecord
  split
  · exact .refl _
  · exact writeAll_grows _ _ _ _

theorem putImage_grows (host a m v) : Grows (lasting s) (lasting (putImage s host a m v)) := by
  unfold putImage
  split
  · simp
  · exact putRecord_grows _ _ _ _ _

/-! ### The records of an image -/

variable {s} {t : State}

theorem applyWord_grows {host a m v} (h : applyWord s host a m v = some t) : Grows (lasting s) (lasting t) := by
  unfold applyWord at h
  split at h
  · cases h
    exact putImage_grows _ _ _ _ _
  · cases h

theorem applyBlock_grows {host a l} (h : applyBlock s host a l = some t) : Grows (lasting s) (lasting t) := by
  induction l generalizing s a with
  | nil =>
    cases h
    exact .refl _
  | cons v rest ih =>
    rw [applyBlock] at h
    split at h
    · exact (putImage_grows _ _ _ _ _).trans (ih h)
    · cases h

theorem applyRecord_grows {im host r} (h : applyRecord s im host r = some t) : Grows (lasting s) (lasting t) := by
  unfold applyRecord at h
  split at h
  · exact applyWord_grows h
  · split at h
    · cases h
    · exact applyBlock_grows h
  · split at h
    · cases h
      simp
    · cases h

theorem applyRecords_grows {im host l done} (h : (applyRecords s im host l done).1 = some t) : Grows (lasting s) (lasting t) := by
  induction l generalizing s done with
  | nil =>
    cases h
    exact .refl _
  | cons r rest ih =>
    rw [applyRecords] at h
    split at h
    · cases h
    · exact (applyRecord_grows ‹_›).trans (ih h)

theorem applyImage_grows {im} (h : (applyImage s im).1 = some t) : Grows (lasting s) (lasting t) := by
  unfold applyImage at h
  split at h
  · cases h
  · rename_i s1 l hparams
    have hfirst : Grows (lasting s) (lasting s1) := applyRecords_grows (congrArg Prod.fst hparams)
    split at h
    · cases h
    · split at h
      · cases h
      · rename_i s2 l' hrecords
        have hrest := applyRecords_grows (congrArg Prod.fst hrecords)
        rw [applyWorld_lasting] at hrest
        rw [← Option.some.inj h, runImage_lasting]
        exact hfirst.trans hrest

variable (s)

theorem runOwn_grows (p older service) : Grows (lasting s) (lasting (runOwn s p older service)) := by
  unfold runOwn
  split
  · exact .refl _
  · split
    · simp
    · rename_i x im _ _ u _ happlied
      have himage : Grows (lasting s) (lasting u) := applyImage_grows (congrArg Prod.fst happlied)
      dsimp only
      refine himage.trans ?_
      split
      · simpa using changeMode_grows (if older = true then ((u.set TL_ST_SRC (if older then 4 else x.origin)).set TL_ST_POS p).event TL_EVT_OLDER
          else (u.set TL_ST_SRC (if older then 4 else x.origin)).set TL_ST_POS p) 9
      · simpa using enterSettle_grows (if older = true then ((u.set TL_ST_SRC (if older then 4 else x.origin)).set TL_ST_POS p).event TL_EVT_OLDER
          else (u.set TL_ST_SRC (if older then 4 else x.origin)).set TL_ST_POS p)

theorem leaveLoad_grows (service) : Grows (lasting s) (lasting (leaveLoad s service)) := by
  unfold leaveLoad
  dsimp only
  split
  · simpa using enterCoppice_grows (s.modTally fun t => { t with windowOpen := false, identify := false, adapter := false })
  · simpa using runOwn_grows (s.modTally fun t => { t with windowOpen := false, identify := false, adapter := false }) _ false service

/-! ### Change sets and fetched images -/

theorem applySetWord_grows (host S w) : Grows (lasting s) (lasting (applySetWord s host S w)) := by
  unfold applySetWord
  dsimp only
  split <;> simpa using putRecord_grows s host w.1 w.2.1 w.2.2

theorem stopWindow_grows (i S) (f : State → State) (h : ∀ t, Grows (lasting t) (lasting (f t))) : Grows (lasting s) (lasting (stopWindow s i S f)) := by
  unfold stopWindow
  split
  · simpa using h (stopBanks (s.modSlot i fun x => { x with stop := (S, S + 80000000) :: x.stop, resume := true }) i 5)
  · exact h s

theorem stopSlot_grows (i S) (f : State → State) (h : ∀ t, Grows (lasting t) (lasting (f t))) : Grows (lasting s) (lasting (stopSlot s i S f)) := by
  unfold stopSlot
  dsimp only
  split
  · exact stopWindow_grows _ _ _ _ h
  · rename_i a _
    simpa using stopWindow_grows (abandonIf s a) i S f h

theorem applyStopped_grows (host S l i) : Grows (lasting s) (lasting (applyStopped s host S l i)) :=
  stopSlot_grows s i S _ fun t => grows_foldl l _ (fun t w => applySetWord_grows t host S w) t

theorem applySet_grows (x) : Grows (lasting s) (lasting (applySet s x)) := by
  unfold applySet
  dsimp only
  rw [modTally_lasting, releaseNamed_lasting]
  show Grows _ (lasting (List.foldl _ _ _))
  refine Grows.trans ?_ (grows_foldl _ _ (fun t p => ?_) _)
  · have hwords : Grows (lasting s) (lasting (((x.entries.flatMap CsEntry.words).filter fun w => (stopSlotOf (stopNamed s x) w).isNone).foldl
        (fun s w => applySetWord s (some x.host) (x.sec * 8000000000) w) (stopNamed s x))) := by
      simpa using grows_foldl ((x.entries.flatMap CsEntry.words).filter fun w => (stopSlotOf (stopNamed s x) w).isNone)
        (fun s w => applySetWord s (some x.host) (x.sec * 8000000000) w) (fun t w => applySetWord_grows t _ _ w) (stopNamed s x)
    split <;> simpa using hwords
  · split
    · exact .refl _
    · exact applyStopped_grows _ _ _ _ _

theorem custodyImage_grows (p f im) : Grows (lasting s) (lasting (custodyImage s p f im)) := by
  unfold custodyImage
  split
  · simpa using commitImage_grows s p.region im 0
  · simp

theorem fetchDone_grows (p f im) : Grows (lasting s) (lasting (fetchDone s p f im)) := by
  unfold fetchDone
  split
  · simp
  · exact custodyImage_grows _ _ _ _

theorem takeData_grows (p f x) : Grows (lasting s) (lasting (takeData s p f x)) := by
  unfold takeData
  dsimp only
  repeat' split
  · simp
  · simp
  · exact .refl _
  · simpa using fetchDone_grows (s.modCust p fun y => { y with fetch := some { f with digest := x.idig, data := f.data ++ x.bytes } }) p _ _
  · simp
  · simp

/-! ### Access from outside -/

theorem atDoor_grows (i a) (f : State → State) (h : Grows (lasting s) (lasting (f s))) : Grows (lasting s) (lasting (atDoor s i a f)) := by
  unfold atDoor
  split
  · exact h
  · simp

theorem receive_grows (d typ) (f : List Byte → State → State) (h : ∀ l t, Grows (lasting t) (lasting (f l t))) :
    Grows (lasting s) (lasting (receive s d typ f)) := by
  unfold receive
  split
  · split
    · simpa using h (plain s d) (notePeer (cyCheck s d).2 d)
    · simp
  · exact .refl _

theorem onceMgmt_grows (port d reqid) (f : State → Payload × State) (h : ∀ t, Grows (lasting t) (lasting (f t).2)) :
    Grows (lasting s) (lasting (onceMgmt s port d reqid f)) := by
  unfold onceMgmt
  split
  · simp
  · simpa using h s

theorem mgmtRequest_grows (port d r) : Grows (lasting s) (lasting (mgmtRequest s port d r)) := by
  refine onceMgmt_grows s port d r.reqid _ fun t => ?_
  unfold mgmtWriteOp
  dsimp only
  split
  · split
    · exact writeSpan_grows _ _ _ _
    · exact .refl _
  · simp

theorem sspWriteOp_grows (addr words extra) : Grows (lasting s) (lasting (sspWriteOp s addr words extra)) := by
  unfold sspWriteOp
  dsimp only
  split
  · exact .after (by simp) (writeSpan_grows _ .ssp addr words)
  · simp

/-- Erase-to-blank reserves a number before it voids the regions, and takes the key area's contents (06 R175). -/
theorem eraseBlank_rises : Rises (lasting s) (lasting (eraseBlank s)) := by
  unfold eraseBlank
  rw [appendSeal_lasting]
  refine Rises.trans ?_ (reserveSeq_grows _).toRises
  rw [showKeys_lasting, set_lasting, modTally_lasting]
  exact ⟨rfl, Nat.le_refl _, fun _ h => ⟨Nat.le_refl _, h⟩, Nat.le_refl _⟩

theorem enrollDone_rises (src plant sysid transfer line) : Rises (lasting s) (lasting (enrollDone s src plant sysid transfer line)) := by
  unfold enrollDone
  rw [listen_lasting, lasting_foldl _ _ (fun _ _ => sendIp_lasting _ _ _ _ _)]
  exact ⟨rfl, Nat.le_refl _, fun _ h => ⟨Nat.le_refl _, h⟩, Nat.le_refl _⟩

theorem sspEraseOp_rises (confirm extra) : Rises (lasting s) (lasting (sspEraseOp s confirm extra)) := by
  unfold sspEraseOp
  dsimp only
  split
  · exact Rises.trans (by simpa using Rises.refl _) (eraseBlank_rises _)
  · simpa using Rises.refl _

/-! ### Commands -/

/-- A command's answer grows what lasts. -/
def Grown (s : State) (o : Host.Outcome State Fault Refusal) : Prop := ∀ t, o = .next t → Grows (lasting s) (lasting t)

theorem Grown.next {s t : State} (h : Grows (lasting s) (lasting t)) : Grown s (.next t) := by
  intro u hu
  cases hu
  exact h

theorem Grown.of_lasting {s : State} {o : Host.Outcome State Fault Refusal} (h : outcomeLasting o = some (lasting s)) : Grown s o := by
  rintro t rfl
  cases h' : lasting s
  rw [← h', Option.some.inj h]
  exact .refl _

/-- A request of a mode at the open door (16 R411). -/
theorem modeRequest_grown (door m) : Grown s (.next (atDoor s door 9 fun s => if s.live then requestMode s m else s)) := by
  refine .next (atDoor_grows s _ _ _ ?_)
  split
  · exact requestMode_grows _ _
  · exact .refl _

theorem execHkEntryEnd_grown (xs targets) : Grown s (execHkEntryEnd xs targets s) := by
  refine .next ?_
  dsimp only
  repeat' split
  · exact .after (endEntry_lasting s xs targets) (autoClean_grows _)
  · simp
  · exact .refl _

theorem execSspWrite_grown (f) : Grown s (execSspWrite f s) := by
  refine .next ?_
  repeat' split
  · simp
  · exact sspWriteOp_grows _ _ _ _
  · exact .refl _

theorem execKeyPlugAnswer_grown (w1 w2) : Grown s (execKeyPlugAnswer w1 w2 s) := by
  refine .next ?_
  split
  · exact .after (modTally_lasting s _) (changeMode_grows _ _)
  · exact .refl _

theorem execKeyProbeWindowEnd_grown : Grown s (execKeyProbeWindowEnd s) := by
  refine .next ?_
  split
  · exact .after (by simp) (leaveLoad_grows _ _)
  · exact .refl _

theorem execKeyloadRead_grown (w1 words) : Grown s (execKeyloadRead w1 words s) := by
  refine .next ?_
  dsimp only
  repeat' split
  · simp
  · simp
  · exact .after (by simp) (leaveLoad_grows _ _)
  · exact .after (by simp) (leaveLoad_grows _ _)
  · exact .refl _

theorem execKeyloadImageDone_grown : Grown s (execKeyloadImageDone s) := by
  refine .next ?_
  dsimp only
  repeat' split
  · simpa using commitImage_grows s 0 (plugImage s) 2
  · exact leaveLoad_grows _ _
  · exact .after (loadCheck_lasting s) (leaveLoad_grows _ _)
  · exact .refl _

theorem execMgmtRead_grown (port d) : Grown s (execMgmtRead port d s) := by
  exact .next (receive_grows s d _ _ fun _ t => mgmtRequest_grows t port d _)

theorem execMgmtWrite_grown (port d) : Grown s (execMgmtWrite port d s) := by
  exact .next (receive_grows s d _ _ fun _ t => mgmtRequest_grows t port d _)

theorem execChangeSetApply_grown : Grown s (execChangeSetApply s) := by
  refine .next ?_
  split
  · dsimp only
    repeat' split
    · exact .refl _
    · rw [event_lasting]
      exact .after (by simp) (applySet_grows _ _)
    · simp
  · exact .refl _

theorem execCustodyDataReceive_grown (port d) : Grown s (execCustodyDataReceive port d s) := by
  refine .next (receive_grows s d _ _ fun l t => ?_)
  dsimp only
  split
  · simp
  · exact takeData_grows _ _ _ _
  · exact .refl _

theorem execCoppiceCommitDone_grown : Grown s (execCoppiceCommitDone s) := by
  refine .next ?_
  split
  · simpa using commitImage_grows s 0 _ 3
  · exact .refl _

theorem execCoppiceFallback_grown : Grown s (execCoppiceFallback s) := by
  refine .next ?_
  split
  · exact runOwn_grows _ _ _ _
  · exact .refl _

theorem execTallyCommitCmd_grown (door) : Grown s (execTallyCommitCmd door s) := by
  refine .next (atDoor_grows s _ _ _ ?_)
  split
  · exact commitOp_grows _ _
  · exact .refl _

theorem execTallyCommitDone_grown (digestOk fails) : Grown s (execTallyCommitDone digestOk fails s) := by
  refine .next ?_
  split
  · extract_lets p u
    split
    · split
      · simp
      · exact sealCommit_grows _ _ _
    · split
      · simp
      · rw [modTally_lasting]
        simpa [u] using reserveSeq_grows s
  · exact .refl _

theorem execStagingOpen_grown (door) : Grown s (execStagingOpen door s) := by
  refine .next (atDoor_grows s _ _ _ ?_)
  split
  · exact stagingOpenOp_grows _
  · exact .refl _

theorem execStagingDone_grown (door release sigOk) : Grown s (execStagingDone door release sigOk s) := by
  refine .next (atDoor_grows s _ _ _ ?_)
  split
  · exact stagingDoneOp_grows _ _ _
  · exact .refl _

theorem execModeChangePowerdown_grown : Grown s (execModeChangePowerdown s) := by
  refine .next ?_
  split
  · exact finishDown_grows _
  · exact .refl _

theorem execSettleExit_grown (targets) : Grown s (execSettleExit targets s) := by
  refine .next ?_
  split
  · exact settleExit_grows _ _
  · exact .refl _

theorem execAutoCleanReturn_grown : Grown s (execAutoCleanReturn s) := by
  refine .next ?_
  split
  · simpa using changeMode_grows s (s.get MD_ST_PREV)
  · exact .refl _

theorem execRegisterWrite_grown (init addr v) : Grown s (execRegisterWrite init addr v s) := by
  exact .next (atDoor_grows s _ _ _ (writeAny_grows _ _ _ _))

/-- No command but ENROLL_KEY and erase-to-blank changes the key area, and all the rest of what lasts only grows. -/
theorem exec_grown : ∀ c : Instr, (∀ src nonce cipher tag, c ≠ .enrollKey src nonce cipher tag) → (∀ f, c ≠ .sspEraseToBlank f) → Grown s (exec c s)
  | .supplyRise m, _, _ => .of_lasting (execSupplyRise_lasting s m)
  | .inrushEnd boot, _, _ => .of_lasting (execInrushEnd_lasting s boot)
  | .startEnd, _, _ => .of_lasting (execStartEnd_lasting s)
  | .refbufEnable door v, _, _ => .of_lasting (execRefbufEnable_lasting s door v)
  | .refbufSettled, _, _ => .of_lasting (execRefbufSettled_lasting s)
  | .pllLockLoss, _, _ => .of_lasting (execPllLockLoss_lasting s)
  | .supWatchdogExpiry, _, _ => .of_lasting (execSupWatchdogExpiry_lasting s)
  | .anaHeartbeatLoss, _, _ => .of_lasting (execAnaHeartbeatLoss_lasting s)
  | .netHeartbeatLoss, _, _ => .of_lasting (execNetHeartbeatLoss_lasting s)
  | .deckControllerRelease, _, _ => .of_lasting (execDeckControllerRelease_lasting s)
  | .anaRelease, _, _ => .of_lasting (execAnaRelease_lasting s)
  | .deckControllerStop, _, _ => .of_lasting (execDeckControllerStop_lasting s)
  | .workRailsOff, _, _ => .of_lasting (execWorkRailsOff_lasting s)
  | .workRegOffAccess init addr wr, _, _ => .of_lasting (execWorkRegOffAccess_lasting s init addr wr)
  | .supplyLoss cut m, _, _ => .of_lasting (execSupplyLoss_lasting s cut m)
  | .undervoltage m, _, _ => .of_lasting (execUndervoltage_lasting s m)
  | .surge m, _, _ => .of_lasting (execSurge_lasting s m)
  | .detectCycleStart port, _, _ => .of_lasting (execDetectCycleStart_lasting s port)
  | .detectCycleEnd port listen i1 i2, _, _ => .of_lasting (execDetectCycleEnd_lasting s port listen i1 i2)
  | .portAbove30V port m, _, _ => .of_lasting (execPortAbove30V_lasting s port m)
  | .portBelow30V port m, _, _ => .of_lasting (execPortBelow30V_lasting s port m)
  | .portJoin port m, _, _ => .of_lasting (execPortJoin_lasting s port m)
  | .ptCurrentFault port m, _, _ => .of_lasting (execPtCurrentFault_lasting s port m)
  | .ptLinkLossRelease port m, _, _ => .of_lasting (execPtLinkLossRelease_lasting s port m)
  | .departureBlazeReceive port blaze, _, _ => .of_lasting (execDepartureBlazeReceive_lasting s port blaze)
  | .holdoffEnd port m, _, _ => .of_lasting (execHoldoffEnd_lasting s port m)
  | .pwrCtlWrite door v, _, _ => .of_lasting (execPwrCtlWrite_lasting s door v)
  | .sspPortBTake m, _, _ => .of_lasting (execSspPortBTake_lasting s m)
  | .twistStillnessMet, _, _ => .of_lasting (execTwistStillnessMet_lasting s)
  | .twistIntegralClear xs, _, _ => .of_lasting (execTwistIntegralClear_lasting s xs)
  | .twistReleaseTrigger xs, _, _ => .of_lasting (execTwistReleaseTrigger_lasting s xs)
  | .twistSupplyPersists, _, _ => .of_lasting (execTwistSupplyPersists_lasting s)
  | .twistRestartInrush m, _, _ => .of_lasting (execTwistRestartInrush_lasting s m)
  | .syncReceive port h t1 cap corr twoStep, _, _ => .of_lasting (execSyncReceive_lasting s port h t1 cap corr twoStep)
  | .followUpReceive port h t1 corr, _, _ => .of_lasting (execFollowUpReceive_lasting s port h t1 corr)
  | .followUpTimeout port seq, _, _ => .of_lasting (execFollowUpTimeout_lasting s port seq)
  | .announceReceive port h ds, _, _ => .of_lasting (execAnnounceReceive_lasting s port h ds)
  | .pdelayReqSend port seq cap, _, _ => .of_lasting (execPdelayReqSend_lasting s port seq cap)
  | .pdelayReqReceive port h capIn capOut, _, _ => .of_lasting (execPdelayReqReceive_lasting s port h capIn capOut)
  | .pdelayRespReceive port h reqClock reqPort t2 t3 corr cap, _, _ => .of_lasting (execPdelayRespReceive_lasting s port h reqClock reqPort t2 t3 corr cap)
  | .ptpTransitForward ingress h followUp twoStep corr capIn capOut, _, _ => .of_lasting (execPtpTransitForward_lasting s ingress h followUp twoStep corr capIn capOut)
  | .masterLost, _, _ => .of_lasting (execMasterLost_lasting s)
  | .initialSet, _, _ => .of_lasting (execInitialSet_lasting s)
  | .timeAcceptCmd door, _, _ => .of_lasting (execTimeAcceptCmd_lasting s door)
  | .timeSnapCmd door, _, _ => .of_lasting (execTimeSnapCmd_lasting s door)
  | .stepApply, _, _ => .of_lasting (execStepApply_lasting s)
  | .guardClose targets, _, _ => .of_lasting (execGuardClose_lasting s targets)
  | .guardTimeout targets, _, _ => .of_lasting (execGuardTimeout_lasting s targets)
  | .freqEstimateLog fails, _, _ => .of_lasting (execFreqEstimateLog_lasting s fails)
  | .axCfgWrite door axis v, _, _ => .of_lasting (execAxCfgWrite_lasting s door axis v)
  | .rangeUpDecision axis code, _, _ => .of_lasting (execRangeUpDecision_lasting s axis code)
  | .rangeDownDecision axis runs, _, _ => .of_lasting (execRangeDownDecision_lasting s axis runs)
  | .rangeSwitch axis, _, _ => .of_lasting (execRangeSwitch_lasting s axis)
  | .excitationChangeApply axis, _, _ => .of_lasting (execExcitationChangeApply_lasting s axis)
  | .driveLock freq, _, _ => .of_lasting (execDriveLock_lasting s freq)
  | .driveUnlock, _, _ => .of_lasting (execDriveUnlock_lasting s)
  | .hkPassStart, _, _ => .of_lasting (execHkPassStart_lasting s)
  | .hkEntryEnd xs targets, _, _ => execHkEntryEnd_grown s xs targets
  | .hkApplyCmd door, _, _ => .of_lasting (execHkApplyCmd_lasting s door)
  | .hkInjCmd door, _, _ => .of_lasting (execHkInjCmd_lasting s door)
  | .hkInjectionStart, _, _ => .of_lasting (execHkInjectionStart_lasting s)
  | .hkInjectionEnd xs, _, _ => .of_lasting (execHkInjectionEnd_lasting s xs)
  | .scalCapz door, _, _ => .of_lasting (execScalCapz_lasting s door)
  | .scalCaps door, _, _ => .of_lasting (execScalCaps_lasting s door)
  | .scalAbort door, _, _ => .of_lasting (execScalAbort_lasting s door)
  | .scalDiscard door, _, _ => .of_lasting (execScalDiscard_lasting s door)
  | .scalCaptureEnd, _, _ => .of_lasting (execScalCaptureEnd_lasting s)
  | .auxFuncWrite door cfg prb, _, _ => .of_lasting (execAuxFuncWrite_lasting s door cfg prb)
  | .auxFuncApply, _, _ => .of_lasting (execAuxFuncApply_lasting s)
  | .auxClampEdge ticks, _, _ => .of_lasting (execAuxClampEdge_lasting s ticks)
  | .auxComparatorChange drive, _, _ => .of_lasting (execAuxComparatorChange_lasting s drive)
  | .auxEdgeAccept, _, _ => .of_lasting (execAuxEdgeAccept_lasting s)
  | .auxPulseAbsorb, _, _ => .of_lasting (execAuxPulseAbsorb_lasting s)
  | .auxStuck, _, _ => .of_lasting (execAuxStuck_lasting s)
  | .auxLeadmeasCmd door, _, _ => .of_lasting (execAuxLeadmeasCmd_lasting s door)
  | .auxLeadmeasEnd, _, _ => .of_lasting (execAuxLeadmeasEnd_lasting s)
  | .auxOutputFault, _, _ => .of_lasting (execAuxOutputFault_lasting s)
  | .auxOutputRestore, _, _ => .of_lasting (execAuxOutputRestore_lasting s)
  | .sspRead f, _, _ => .of_lasting (execSspRead_lasting s f)
  | .sspWrite f, _, _ => execSspWrite_grown s f
  | .sspEraseToBlank f, _, h => absurd rfl (h f)
  | .eraseComplete, _, _ => .of_lasting (execEraseComplete_lasting s)
  | .keyProbeSwitch m, _, _ => .of_lasting (execKeyProbeSwitch_lasting s m)
  | .keyProbeIdentify, _, _ => .of_lasting (execKeyProbeIdentify_lasting s)
  | .keyPlugAnswer w1 w2, _, _ => execKeyPlugAnswer_grown s w1 w2
  | .serviceAdapterAnswer w1 w2, _, _ => .of_lasting (execServiceAdapterAnswer_lasting s w1 w2)
  | .keyProbeWindowEnd, _, _ => execKeyProbeWindowEnd_grown s
  | .tallyLoadCheck, _, _ => .of_lasting (execTallyLoadCheck_lasting s)
  | .keyloadRead w1 words, _, _ => execKeyloadRead_grown s w1 words
  | .keyloadImageDone, _, _ => execKeyloadImageDone_grown s
  | .gridSlotRecord slot t live taken, _, _ => .of_lasting (execGridSlotRecord_lasting s slot t live taken)
  | .landingAccountMismatch, _, _ => .of_lasting (execLandingAccountMismatch_lasting s)
  | .slotSettled slot, _, _ => .of_lasting (execSlotSettled_lasting s slot)
  | .mlSwap door slot, _, _ => .of_lasting (execMlSwap_lasting s door slot)
  | .swapWarmupEnd slot, _, _ => .of_lasting (execSwapWarmupEnd_lasting s slot)
  | .swapFadeEnd slot, _, _ => .of_lasting (execSwapFadeEnd_lasting s slot)
  | .mlSlotSync door slot, _, _ => .of_lasting (execMlSlotSync_lasting s door slot)
  | .mlGlobalSync door, _, _ => .of_lasting (execMlGlobalSync_lasting s door)
  | .millBankWrite door addr v, _, _ => .of_lasting (execMillBankWrite_lasting s door addr v)
  | .millEccCorrect, _, _ => .of_lasting (execMillEccCorrect_lasting s)
  | .millEccError slot, _, _ => .of_lasting (execMillEccError_lasting s slot)
  | .grCfgWrite door slot v, _, _ => .of_lasting (execGrCfgWrite_lasting s door slot v)
  | .grCfgApply slot, _, _ => .of_lasting (execGrCfgApply_lasting s slot)
  | .calRetryTimer axis, _, _ => .of_lasting (execCalRetryTimer_lasting s axis)
  | .calAbandonRetry axis, _, _ => .of_lasting (execCalAbandonRetry_lasting s axis)
  | .calSlopeUpdate, _, _ => .of_lasting (execCalSlopeUpdate_lasting s)
  | .calRunStart, _, _ => .of_lasting (execCalRunStart_lasting s)
  | .calRunEnd res, _, _ => .of_lasting (execCalRunEnd_lasting s res)
  | .calSlewStep axis, _, _ => .of_lasting (execCalSlewStep_lasting s axis)
  | .classbTapStep, _, _ => .of_lasting (execClassbTapStep_lasting s)
  | .calRunCmd door mask, _, _ => .of_lasting (execCalRunCmd_lasting s door mask)
  | .calClassbCmd door targets, _, _ => .of_lasting (execCalClassbCmd_lasting s door targets)
  | .calSnapshot door, _, _ => .of_lasting (execCalSnapshot_lasting s door)
  | .calOpen door, _, _ => .of_lasting (execCalOpen_lasting s door)
  | .calCommit door, _, _ => .of_lasting (execCalCommit_lasting s door)
  | .calClose door, _, _ => .of_lasting (execCalClose_lasting s door)
  | .deckBlockClose slot, _, _ => .of_lasting (execDeckBlockClose_lasting s slot)
  | .captureTrigger c, _, _ => .of_lasting (execCaptureTrigger_lasting s c)
  | .captureTrigCmd door c, _, _ => .of_lasting (execCaptureTrigCmd_lasting s door c)
  | .captureReleaseCmd door c, _, _ => .of_lasting (execCaptureReleaseCmd_lasting s door c)
  | .captureWindowEnd c, _, _ => .of_lasting (execCaptureWindowEnd_lasting s c)
  | .dkCapWrite door c w v, _, _ => .of_lasting (execDkCapWrite_lasting s door c w v)
  | .leaseRequest holder call, _, _ => .of_lasting (execLeaseRequest_lasting s holder call)
  | .leaseScan ms, _, _ => .of_lasting (execLeaseScan_lasting s ms)
  | .deckAccountAudit free held flight, _, _ => .of_lasting (execDeckAccountAudit_lasting s free held flight)
  | .impactRecord, _, _ => .of_lasting (execImpactRecord_lasting s)
  | .strokeRecord, _, _ => .of_lasting (execStrokeRecord_lasting s)
  | .freefallRecord, _, _ => .of_lasting (execFreefallRecord_lasting s)
  | .rcImpWrite door w v, _, _ => .of_lasting (execRcImpWrite_lasting s door w v)
  | .rcStkWrite door w v, _, _ => .of_lasting (execRcStkWrite_lasting s door w v)
  | .rcFfWrite door w v, _, _ => .of_lasting (execRcFfWrite_lasting s door w v)
  | .bzPop door, _, _ => .of_lasting (execBzPop_lasting s door)
  | .blazeMessageSend, _, _ => .of_lasting (execBlazeMessageSend_lasting s)
  | .blazeMessageReceive d, _, _ => .of_lasting (execBlazeMessageReceive_lasting s d)
  | .peerBlazeDeliver, _, _ => .of_lasting (execPeerBlazeDeliver_lasting s)
  | .peBr e w, _, _ => .of_lasting (execPeBr_lasting s e w)
  | .peAwait e w, _, _ => .of_lasting (execPeAwait_lasting s e w)
  | .peStamp e w, _, _ => .of_lasting (execPeStamp_lasting s e w)
  | .peMarkInterrupt e w, _, _ => .of_lasting (execPeMarkInterrupt_lasting s e w)
  | .peMarkBlaze e w, _, _ => .of_lasting (execPeMarkBlaze_lasting s e w)
  | .peMarkCaptureTime e w, _, _ => .of_lasting (execPeMarkCaptureTime_lasting s e w)
  | .peSamp e w, _, _ => .of_lasting (execPeSamp_lasting s e w)
  | .peEmit e w, _, _ => .of_lasting (execPeEmit_lasting s e w)
  | .peXferSinToRx e w, _, _ => .of_lasting (execPeXferSinToRx_lasting s e w)
  | .peXferTxToSout e w, _, _ => .of_lasting (execPeXferTxToSout_lasting s e w)
  | .peXferUToRx e w, _, _ => .of_lasting (execPeXferUToRx_lasting s e w)
  | .peXferTxToU e w, _, _ => .of_lasting (execPeXferTxToU_lasting s e w)
  | .peCalc e w, _, _ => .of_lasting (execPeCalc_lasting s e w)
  | .peLdi e w, _, _ => .of_lasting (execPeLdi_lasting s e w)
  | .peDec e w, _, _ => .of_lasting (execPeDec_lasting s e w)
  | .peReservedEncoding e w, _, _ => .of_lasting (execPeReservedEncoding_lasting s e w)
  | .peGcmdStop door mask, _, _ => .of_lasting (execPeGcmdStop_lasting s door mask)
  | .peGcmdRestart door mask, _, _ => .of_lasting (execPeGcmdRestart_lasting s door mask)
  | .peGcmdRun door mask, _, _ => .of_lasting (execPeGcmdRun_lasting s door mask)
  | .peGcmdClksync door mask, _, _ => .of_lasting (execPeGcmdClksync_lasting s door mask)
  | .peInject door e w, _, _ => .of_lasting (execPeInject_lasting s door e w)
  | .peTxPush door e w, _, _ => .of_lasting (execPeTxPush_lasting s door e w)
  | .peRxPop door e, _, _ => .of_lasting (execPeRxPop_lasting s door e)
  | .peImWrite door e n v, _, _ => .of_lasting (execPeImWrite_lasting s door e n v)
  | .pePulseInput e code, _, _ => .of_lasting (execPePulseInput_lasting s e code)
  | .peMillEvent e, _, _ => .of_lasting (execPeMillEvent_lasting s e)
  | .anEvaluation setup, _, _ => .of_lasting (execAnEvaluation_lasting s setup)
  | .anTrendPoint setup, _, _ => .of_lasting (execAnTrendPoint_lasting s setup)
  | .anTrendDump door setup, _, _ => .of_lasting (execAnTrendDump_lasting s door setup)
  | .upFault code, _, _ => .of_lasting (execUpFault_lasting s code)
  | .upRestart, _, _ => .of_lasting (execUpRestart_lasting s)
  | .anUpRestartCmd door, _, _ => .of_lasting (execAnUpRestartCmd_lasting s door)
  | .upPreempt, _, _ => .of_lasting (execUpPreempt_lasting s)
  | .upHeartbeat m, _, _ => .of_lasting (execUpHeartbeat_lasting s m)
  | .upTime m, _, _ => .of_lasting (execUpTime_lasting s m)
  | .upAttach m slot bytes, _, _ => .of_lasting (execUpAttach_lasting s m slot bytes)
  | .upDetach m slot, _, _ => .of_lasting (execUpDetach_lasting s m slot)
  | .upOpenView m slot t, _, _ => .of_lasting (execUpOpenView_lasting s m slot t)
  | .upReadView m lease first n, _, _ => .of_lasting (execUpReadView_lasting s m lease first n)
  | .upCloseView m lease, _, _ => .of_lasting (execUpCloseView_lasting s m lease)
  | .upReadFeature m fid, _, _ => .of_lasting (execUpReadFeature_lasting s m fid)
  | .upPublish m out value q, _, _ => .of_lasting (execUpPublish_lasting s m out value q)
  | .upBlaze m kind sev v0 v1, _, _ => .of_lasting (execUpBlaze_lasting s m kind sev v0 v1)
  | .upEngineWord m e w, _, _ => .of_lasting (execUpEngineWord_lasting s m e w)
  | .upTimer m us periodic, _, _ => .of_lasting (execUpTimer_lasting s m us periodic)
  | .upTimerExpiry, _, _ => .of_lasting (execUpTimerExpiry_lasting s)
  | .portLinkUp port ab sqi, _, _ => .of_lasting (execPortLinkUp_lasting s port ab sqi)
  | .portLinkDown port, _, _ => .of_lasting (execPortLinkDown_lasting s port)
  | .portCfgWrite door v, _, _ => .of_lasting (execPortCfgWrite_lasting s door v)
  | .switchForward port f, _, _ => .of_lasting (execSwitchForward_lasting s port f)
  | .mrpTopologyChange port uuid ms, _, _ => .of_lasting (execMrpTopologyChange_lasting s port uuid ms)
  | .mrpFlush, _, _ => .of_lasting (execMrpFlush_lasting s)
  | .icmpEcho port src, _, _ => .of_lasting (execIcmpEcho_lasting s port src)
  | .addressQuery port kind src, _, _ => .of_lasting (execAddressQuery_lasting s port kind src)
  | .replayEntryAge sender, _, _ => .of_lasting (execReplayEntryAge_lasting s sender)
  | .mgmtRead port d, _, _ => execMgmtRead_grown s port d
  | .mgmtWrite port d, _, _ => execMgmtWrite_grown s port d
  | .changeSetPart port d, _, _ => .of_lasting (execChangeSetPart_lasting s port d)
  | .changeSetTimeout sender, _, _ => .of_lasting (execChangeSetTimeout_lasting s sender)
  | .changeSetEngineStop, _, _ => .of_lasting (execChangeSetEngineStop_lasting s)
  | .changeSetApply, _, _ => execChangeSetApply_grown s
  | .cyStrWrite door k v, _, _ => .of_lasting (execCyStrWrite_lasting s door k v)
  | .streamPublication k, _, _ => .of_lasting (execStreamPublication_lasting s k)
  | .captureOpen port d, _, _ => .of_lasting (execCaptureOpen_lasting s port d)
  | .captureCredit port d, _, _ => .of_lasting (execCaptureCredit_lasting s port d)
  | .captureChunkSend sid, _, _ => .of_lasting (execCaptureChunkSend_lasting s sid)
  | .captureClose port d, _, _ => .of_lasting (execCaptureClose_lasting s port d)
  | .custodyHelloSend port, _, _ => .of_lasting (execCustodyHelloSend_lasting s port)
  | .custodyHelloReceive port d, _, _ => .of_lasting (execCustodyHelloReceive_lasting s port d)
  | .custodyRequest port d, _, _ => .of_lasting (execCustodyRequest_lasting s port d)
  | .custodyDataReceive port d, _, _ => execCustodyDataReceive_grown s port d
  | .custodyOffer port d, _, _ => .of_lasting (execCustodyOffer_lasting s port d)
  | .custodyDefer port d, _, _ => .of_lasting (execCustodyDefer_lasting s port d)
  | .custodyDeferEnd port, _, _ => .of_lasting (execCustodyDeferEnd_lasting s port)
  | .coppiceListenEnd, _, _ => .of_lasting (execCoppiceListenEnd_lasting s)
  | .coppiceCommitDone, _, _ => execCoppiceCommitDone_grown s
  | .coppiceFallback, _, _ => execCoppiceFallback_grown s
  | .enrollHello, _, _ => .of_lasting (execEnrollHello_lasting s)
  | .enrollOffer pub plant sysid sig, _, _ => .of_lasting (execEnrollOffer_lasting s pub plant sysid sig)
  | .enrollKey src nonce cipher tag, h, _ => absurd rfl (h src nonce cipher tag)
  | .tallyCommitCmd door, _, _ => execTallyCommitCmd_grown s door
  | .tallyCommitDone digestOk fails, _, _ => execTallyCommitDone_grown s digestOk fails
  | .stagingOpen door, _, _ => execStagingOpen_grown s door
  | .stagingEraseDone, _, _ => .of_lasting (execStagingEraseDone_lasting s)
  | .stagingBlockProgram door v, _, _ => .of_lasting (execStagingBlockProgram_lasting s door v)
  | .stagingDone door release sigOk, _, _ => execStagingDone_grown s door release sigOk
  | .stagingAbort door, _, _ => .of_lasting (execStagingAbort_lasting s door)
  | .modeRequestRun door, _, _ => modeRequest_grown s door 6
  | .modeRequestWatch door, _, _ => modeRequest_grown s door 7
  | .modeRequestClean door, _, _ => modeRequest_grown s door 8
  | .modeRequestService door, _, _ => modeRequest_grown s door 9
  | .modeRequestSafe door, _, _ => modeRequest_grown s door 11
  | .modeRestartCmd door, _, _ => .of_lasting (execModeRestartCmd_lasting s door)
  | .modeChangePowerdown, _, _ => execModeChangePowerdown_grown s
  | .settleExit targets, _, _ => execSettleExit_grown s targets
  | .autoCleanReturn, _, _ => execAutoCleanReturn_grown s
  | .hotMinute, _, _ => .of_lasting (execHotMinute_lasting s)
  | .orderlyRestart boot, _, _ => .of_lasting (execOrderlyRestart_lasting s boot)
  | .worldViolation p target wr byteAddr, _, _ => .of_lasting (execWorldViolation_lasting s p target wr byteAddr)
  | .irqSourceEdge n, _, _ => .of_lasting (execIrqSourceEdge_lasting s n)
  | .irqPendSet door j v, _, _ => .of_lasting (execIrqPendSet_lasting s door j v)
  | .irqPendClear door j v, _, _ => .of_lasting (execIrqPendClear_lasting s door j v)
  | .irqEnableSet door j v, _, _ => .of_lasting (execIrqEnableSet_lasting s door j v)
  | .irqEnableClear door j v, _, _ => .of_lasting (execIrqEnableClear_lasting s door j v)
  | .irqClaim p, _, _ => .of_lasting (execIrqClaim_lasting s p)
  | .irqComplete p n, _, _ => .of_lasting (execIrqComplete_lasting s p n)
  | .irqGroupFire g, _, _ => .of_lasting (execIrqGroupFire_lasting s g)
  | .twoHalfLowRead init addr, _, _ => .of_lasting (execTwoHalfLowRead_lasting s init addr)
  | .twoHalfHighRead init addr, _, _ => .of_lasting (execTwoHalfHighRead_lasting s init addr)
  | .busWidthAccess p byteAddr half wr, _, _ => .of_lasting (execBusWidthAccess_lasting s p byteAddr half wr)
  | .busMultiwordAccess p addr n, _, _ => .of_lasting (execBusMultiwordAccess_lasting s p addr n)
  | .registerWrite init addr v, _, _ => execRegisterWrite_grown s init addr v
  | .lastGaspSequenceEnd m, _, _ => .of_lasting (execLastGaspSequenceEnd_lasting s m)
  | .controllerResetRelease boot, _, _ => .of_lasting (execControllerResetRelease_lasting s boot)
  | .filteringDatabaseAgeing mac, _, _ => .of_lasting (execFilteringDatabaseAgeing_lasting s mac)
  | .peerStreamPublicationReceive d, _, _ => .of_lasting (execPeerStreamPublicationReceive_lasting s d)
  | .crossSpectrumSkewExpiry setup, _, _ => .of_lasting (execCrossSpectrumSkewExpiry_lasting s setup)
  | .readClearsAccess p addr, _, _ => .of_lasting (execReadClearsAccess_lasting s p addr)
  | .sspFrameReject f, _, _ => .of_lasting (execSspFrameReject_lasting s f)
  | .cystadDatagramDiscard d, _, _ => .of_lasting (execCystadDatagramDiscard_lasting s d)

/-- Every command, ENROLL_KEY and erase-to-blank among them, leaves the queue and lowers neither COMSEQ nor a commit count nor the floor. -/
theorem exec_rises {c : Instr} {t : State} (h : exec c s = .next t) : Rises (lasting s) (lasting t) := by
  by_cases hkey : ∃ src nonce cipher tag, c = .enrollKey src nonce cipher tag
  · obtain ⟨src, nonce, cipher, tag, rfl⟩ := hkey
    rw [exec, execEnrollKey] at h
    cases h
    split
    · split
      · exact enrollDone_rises _ _ _ _ _ _
      · exact .refl _
    · exact .refl _
  · by_cases herase : ∃ f, c = .sspEraseToBlank f
    · obtain ⟨f, rfl⟩ := herase
      rw [exec, execSspEraseToBlank] at h
      cases h
      split
      · rw [eraseAnswer_lasting]
        exact .refl _
      · split
        · exact sspEraseOp_rises _ _ _
        · exact .refl _
    · exact (exec_grown s c (fun src nonce cipher tag e => hkey ⟨src, nonce, cipher, tag, e⟩) (fun f e => herase ⟨f, e⟩) t h).toRises

/-- Settles O60: every shared operation keeps the queue, COMSEQ and the commit counts but those of the seal log, which raise them; the commands are chains of these. -/
theorem writeNumbersAndWearNeverFallAndTheQueueIsUntouched : Obligations.WriteNumbersAndWearNeverFallAndTheQueueIsUntouched := by
  intro c s t h
  have hrise := exec_rises s h
  exact ⟨hrise.queue, hrise.comseq, hrise.wear⟩

/-- Settles O59: the erasable key area is written by ENROLL_KEY's and erase-to-blank's own operations alone, and the floor by the trial's end, which raises it. -/
theorem onlyEnrolmentAndEraseChangeTheKeys : Obligations.OnlyEnrolmentAndEraseChangeTheKeys := by
  intro c s t h
  refine ⟨(exec_rises s h).floor, fun hkey herase => ?_⟩
  have hgrow := exec_grown s c hkey herase t h
  exact ⟨hgrow.lineKey, hgrow.anchor, hgrow.sysid⟩

end Sys2Proof.Machine
end

section
/-!
PROOFS. The module as delivered (log entry 3): what State.reset holds.
-/

namespace Sys2Proof.Machine

/-- Settles O57: reset lists no register, so that each word reads its reset value, and every other part is written out in State.reset; the regions and the commit counts are read off by evaluation. -/
theorem resetIsTheUnpoweredModule : Obligations.ResetIsTheUnpoweredModule := by
  refine ⟨rfl, rfl, rfl, rfl, rfl, rfl, rfl, ?_, ?_, rfl, rfl, fun a => rfl, ?_⟩
  · show ∀ r : Fin 3, State.reset.flash.latest r = none
    decide
  · show ∀ k : Fin 24, State.reset.flash.wear[k] = 0
    decide
  · show State.reset.inv
    decide

end Sys2Proof.Machine
end

section
/-!
PROOFS. Refutations about the pin engines and the capture sessions: an engine without a cycle in its tick (12 R289), a fault that moves the AUX driver (06 R168, R169), and a session whose capture is none of the 16.
-/

namespace Sys2Proof.Machine

/-- Engine 2 stands at an AWAIT of TYPE 2 with TC at 0, in a tick that gives it no cycle (12 R289). -/
def awaitWithoutCycle : State :=
  ({ onAt 6 with engines := Vector.replicate 8 { tc := some 0 } }.set (PE_ST_STATE 2) 1).set (PE_IM_EVEN 2 0) 0x1400

/-- Refutes O52: its first clause leaves out that the tick has an engine cycle; `awaitWithoutCycle` meets its hypotheses for AWAIT 0x1400, the engine does nothing, and no target is computed. -/
theorem not_awaitTypeTwoCompletesAtItsTargetInstant : ¬ Obligations.AwaitTypeTwoCompletesAtItsTargetInstant := by
  unfold Obligations.AwaitTypeTwoCompletesAtItsTargetInstant
  rintro ⟨hfirst, -⟩
  obtain ⟨t, ht, -, -, htarget⟩ :=
    hfirst 2 0x1400 0 awaitWithoutCycle (by decide) (by decide) (by decide) (by decide) (by decide) (by decide) (by decide) (by decide)
  obtain rfl := Host.Outcome.next.inj ht
  exact absurd htarget (by decide)

/-- Engine 2 stands at a reserved encoding, and the AUX driver, which follows a stopped engine 0's idle level 0 (06 R168), still drives high. -/
def reservedUnderDriver : State :=
  (({ onAt 6 with engines := Vector.replicate 8 { cycle := true }, aux := { func := 3, driven := true } }.set (PE_ST_STATE 2) 1).set (PE_IM_EVEN 2 0) 0xF000)

/-- Refutes O36: the fault of a reserved encoding sets the level that the AUX driver gives anew (06 R168, 12 R308), and the last clause's frame keeps the AUX state; in `reservedUnderDriver` it moves. -/
theorem not_engineInstructionsBranchWaitAndCapture : ¬ Obligations.EngineInstructionsBranchWaitAndCapture := by
  unfold Obligations.EngineInstructionsBranchWaitAndCapture
  rintro ⟨-, -, -, -, -, -, -, -, -, hreserved⟩
  obtain ⟨t, ht, -, -, -, -, -, -, -, -, -, hframe, -⟩ :=
    hreserved 2 0xF000 reservedUnderDriver (by decide) (by decide) (by decide) (by decide) (by decide) (by decide)
  obtain rfl := Host.Outcome.next.inj ht
  exact absurd (congrArg (fun t => t.aux.driven) hframe) (by decide)

/-- A session of host 0x80000001 on lease 1 names capture number 0x720, which is none of the 16. -/
def straySession : Session := ⟨7, 0x720, 0x80000001, 1, 2, 1, 2, 12⟩

/-- A module with `straySession` whose lease is held. -/
def straySessionModule : State :=
  { keyed 6 with tally := { hosts := [⟨0x80000001, 0⟩] }, net := { sessions := [straySession] } }.set (LS_KIND 1) 2

/-- The host's credit: GTOT 9 and ACK 2 for session 7. -/
def strayCredit : Datagram := hostMsg 0x32 [0, 7, 0, 0, 0, 0, 0, 9, 0, 0, 0, 2]

/-- The word that shows what is acknowledged of capture number 0x720 would be lease 1's word of the time that remains. -/
theorem cyCapaAck_stray_in_lease (s : State) : s.get (LS_REMMS 1) = s.get (CY_CAPA_ACK 0x720) % 2 ^ 16 := by
  show getBits (s.word 0x1181) 0 16 = getBits (s.word 0x1181) 0 32 % 2 ^ 16
  simp only [getBits]
  omega

/-- Refutes O41: a session is not bounded to the 16 captures; after the credit of `straySession` the statement gives one word both the acknowledged chunks, 2, and the lease's 2000 ms. -/
theorem not_captureSessionsTransferChunks : ¬ Obligations.CaptureSessionsTransferChunks := by
  unfold Obligations.CaptureSessionsTransferChunks
  rintro ⟨-, -, hcredit, -⟩
  have hbody : beAt (plain straySessionModule strayCredit) 8 4 = 2 := by decide +kernel
  obtain ⟨t, -, -, hack, -, hrem, -⟩ :=
    hcredit .a strayCredit straySession testKey straySessionModule (by decide) (by decide) (by decide +kernel) (by decide) (by decide) (by decide +kernel) (by decide +kernel) (by decide)
      (by decide +kernel) (by decide +kernel) (by decide +kernel) (by decide +kernel) (by decide +kernel) (by decide) (by decide)
  rw [hbody] at hack
  exact absurd (hrem.symm.trans ((cyCapaAck_stray_in_lease t).trans (congrArg (· % 2 ^ 16) hack))) (by decide)

end Sys2Proof.Machine
end

section
/-!
PROOFS. Refutations about a custody fetch that goes on while another is deferred (14 R372, R373), a cross-spectrum setup whose SKEW is 0 (13 R326, R327), a commit's failed seal while a processor serves a
source beyond the 160 (15 R383, 18 R456), and mode changes whose Blaze meets a match unit (11 R278, R281).
-/

namespace Sys2Proof.Machine

/-- Port B fetches an image of station 23, of which nothing has come, and a fetch from the same neighbour is deferred. -/
def deferredFetch : State :=
  { onAt 6 with keys := { lineKey := some testKey, anchor := some testAnchor }, tally := { portB := { fetch := some { digest := 9, stn := 23 }, deferred := true } } }

/-- A data message for that image, of 30 000 bytes, without a byte. -/
def emptyData : CustData := { stn := 5, want := 23, total := 30000, idig := 9 }

/-- It as station 3's neighbour sends it. -/
def emptyDataDatagram : Datagram := sealed 0x42 3 1 (Payload.custData emptyData).bytes

/-- Refutes O48: the next 16 chunks are asked for, and what is deferred stays so in `deferredFetch`; the statement has the fetch no longer deferred. -/
theorem not_neighboursKeepEachOthersImages : ¬ Obligations.NeighboursKeepEachOthersImages := by
  unfold Obligations.NeighboursKeepEachOthersImages
  rintro ⟨-, -, -, -, -, -, -, -, -, -, hchunks, -⟩
  obtain ⟨t, ht, -, hdeferred, -⟩ :=
    hchunks .b emptyDataDatagram emptyData { digest := 9, stn := 23 } deferredFetch (by decide) (by decide +kernel) (by decide +kernel) (by decide) (by decide) (by decide) (by decide) (by decide)
      (by decide) (by decide) (by decide)
  obtain rfl := Host.Outcome.next.inj ht
  exact absurd hdeferred (by decide +kernel)

/-- A cross-spectrum setup of slot 0 with station 9's slot 2, whose SKEW has the default 0. -/
def skewlessSetup : SetupState := { tags := [(1, 0), (2, 7), (3, 0), (4, 8), (0x20, 9), (0x21, 2)] }

/-- Setup 3 is `skewlessSetup` and runs. -/
def skewlessModule : State :=
  ({ onAt 6 with keys := { lineKey := some testKey }, slots := Vector.replicate 16 { en := true }, an := { setups := (Vector.replicate 32 ({} : SetupState)).set 3 skewlessSetup } }.set ID_DOMST_WSTATE 2).set
    AN_ST_RUN0 1

/-- Station 9's publication of two records of its slot 2. -/
def peerDatagram : Datagram := sealed 1 9 1 (Payload.stream 0 9 none 2 0 false false 4 100 [1, 2] (some 78125)).bytes

/-- Refutes O44: with SKEW 0 a cross-spectrum setup waits for its peer at once (STATE 2), `skewlessModule`'s after its peer's records too; the statement has it run (STATE 1). -/
theorem not_peerRecordsJoinTheirCrossSpectrum : ¬ Obligations.PeerRecordsJoinTheirCrossSpectrum := by
  unfold Obligations.PeerRecordsJoinTheirCrossSpectrum
  rintro ⟨hjoin, -⟩
  obtain ⟨t, ht, -, -, -, hstate, -⟩ :=
    hjoin peerDatagram { stn := 9, slot := 2, run := 4, rate := 0, ssn := 100, t := 78125, recs := [1, 2] } 3 skewlessModule (by decide) (by decide +kernel) (by decide +kernel) (by decide) (by decide)
      (by decide) (by decide) (by decide) (by decide)
  obtain rfl := Host.Outcome.next.inj ht
  exact absurd hstate (by decide +kernel)

/-- The pending bit (18 R463) of source 7701, which is none of the 160, would be TL_ST.BUSY. -/
theorem pendBit_beyond_is_busy : pendBit 7701 = TL_ST_BUSY := rfl

/-- A commit waits for its seal while WORK is on and ANA0 serves source 7701. -/
def servingBusySource : State :=
  { onAt 6 with
    tally := { commit := some testImage }
    bus := { targets := (Vector.replicate 4 ({} : IrqTarget)).set 2 { active := some (7701, 0, false) } } }.set ID_DOMST_WSTATE 2

set_option maxRecDepth 8000 in
/-- The fault's power-down of WORK saves ANA0's active source as pending again (18 R456). -/
theorem servingBusySource_sealFailed : (sealFailed servingBusySource).get TL_ST_BUSY = 1 := by decide +kernel

/-- Refutes O46: a seal that cannot be written is SAFE fault 0x06, and in `servingBusySource` the saved interrupt of source 7701 sets TL_ST.BUSY again; the statement has BUSY at 0. -/
theorem not_tallyImagesAreLoadedCommittedAndStaged : ¬ Obligations.TallyImagesAreLoadedCommittedAndStaged := by
  unfold Obligations.TallyImagesAreLoadedCommittedAndStaged
  rintro ⟨-, -, -, -, -, -, -, -, hfailed, -⟩
  obtain ⟨t, ht, -, -, hbusy, -⟩ := hfailed testImage 3 servingBusySource (by decide) rfl (by decide) (by decide)
  obtain rfl := Host.Outcome.next.inj ht
  exact absurd (servingBusySource_sealFailed.symm.trans hbusy) (by decide)

/-- WATCH, before the first entry to RUN of the run, with match unit 0 matching every Blaze. -/
def watchWithMatchUnit : State := (((onAt 7).set (BZ_MATCH_EN 0) 1).set (BZ_MATCH_STN 0) 0xFE).set (BZ_MATCH_SRC 0) 0xFF |>.set (BZ_MATCH_KIND 0) 0xFF

/-- Refutes O9: the entry to RUN of `watchWithMatchUnit` issues the arrival Blaze, whose match pulses an event line to the pin engines (11 R281, 12 R291); the statement's frame keeps the engines. -/
theorem not_modeRequestsAreCarriedOut : ¬ Obligations.ModeRequestsAreCarriedOut := by
  unfold Obligations.ModeRequestsAreCarriedOut
  rintro ⟨hrun, -⟩
  obtain ⟨t, ht, -, -, -, -, -, -, -, -, -, -, -, -, -, -, hframe⟩ := hrun (.proc .sup) watchWithMatchUnit (by decide) (by decide) (by decide) (by decide)
  obtain rfl := Host.Outcome.next.inj ht
  have hengines := congrArg State.engines hframe
  exact absurd hengines (by decide +kernel)

/-- A change to WATCH waits for WORK to power down while ANA0 serves source 24096, whose pending bit would be AN_ST.RUN0 (`pendBit_beyond_is_run0`). -/
def waitingBeyondSources : State :=
  { servingBeyondSources with
    pwr := { phase := .running, booted := true, ticks := 1000000 }
    modes := { change := .waiting, target := 7 } }

set_option maxRecDepth 8000 in
/-- WORK's power-down halts ANA0 and then saves its active source as pending again (18 R456). -/
theorem waitingBeyondSources_finishDown : (finishDown waitingBeyondSources).get AN_ST_RUN0 = 1 := by decide +kernel

theorem exec_modeChangePowerdown_waitingBeyondSources : exec .modeChangePowerdown waitingBeyondSources = .next (finishDown waitingBeyondSources) :=
  congrArg Host.Outcome.next (if_pos (by decide))

/-- Refutes O10: in `waitingBeyondSources` the change to WATCH leaves AN_ST.RUN0 at 1, set by the saved interrupt; the statement has it at 0. -/
theorem not_changesOfModeRunTheirCourse : ¬ Obligations.ChangesOfModeRunTheirCourse := by
  unfold Obligations.ChangesOfModeRunTheirCourse
  rintro ⟨hdown, -⟩
  obtain ⟨t, ht, -, -, -, -, -, -, -, -, hrun, -⟩ :=
    hdown waitingBeyondSources (by decide) (by decide) (by decide) (by decide) (by decide) (by decide) (by decide)
  rw [exec_modeChangePowerdown_waitingBeyondSources] at ht
  obtain rfl := Host.Outcome.next.inj ht
  exact absurd (waitingBeyondSources_finishDown.symm.trans hrun) (by decide)

end Sys2Proof.Machine
end

section
/-!
PROOFS. The ports' links (14 R342, R343, R347, R348): for each operation of a link change the registers that may differ, and what they show then.
-/

namespace Sys2Proof.Machine

/-- The state beside what a link change reaches. -/
def besideLink (s : State) : State := { s with regs := [], time := {}, net := {}, tx := [], tally := {}, fresh := [] }

/-- Only fields of l differ, and what a link change reaches. -/
abbrev LinkFrame (l : List Field) (s t : State) : Prop := ViewFrame besideLink l s t

/-- The fields of the re-route guard, the increment that it holds and a port's link delay (03 R70, R76, R87). -/
def rerouteFields : List Field := [TIME_ST_GUARD, TIME_EVT_GUARD, TIME_CNT_GUARDCNT, TIME_PDLYA_D, TIME_PDLYB_D, TIME_INC_FRAC, TIME_INC_NS, TIME_Y_Y]

/-- The fields of a link change of a port (14 R343). -/
def linkFields (p : Port) : List Field := linkEvent p :: PORT_ST_RINGST :: PORT_EVT_RINGCHG :: rerouteFields

theorem linkEvent_ok (p : Port) : (linkEvent p).ok := by cases p <;> decide
theorem linkEvent_width (p : Port) : (linkEvent p).width = 1 := by cases p <;> rfl
theorem nbrStn_ok (p : Port) : (nbrStn p).ok := by cases p <;> decide
theorem nbrCstn_ok (p : Port) : (nbrCstn p).ok := by cases p <;> decide
theorem nbrStn_width (p : Port) : (nbrStn p).width = 8 := by cases p <;> rfl
theorem nbrCstn_width (p : Port) : (nbrCstn p).width = 8 := by cases p <;> rfl

section
variable (s : State) (p : Port)

/-! ### The parts of a link change -/

/-- What PORT_ST shows of the ring (14 R348). -/
def State.ringState : Nat :=
  if !s.net.mrpOn then 0 else if linkUp s .a && linkUp s .b then 1 else if linkUp s .a || linkUp s .b then 2 else 3

theorem showRingSt_eq :
    showRingSt s = if s.get PORT_ST_RINGST = s.ringState then s else (s.set PORT_ST_RINGST s.ringState).event PORT_EVT_RINGCHG := (rfl)

theorem showRingSt_linkFrame : LinkFrame [PORT_ST_RINGST, PORT_EVT_RINGCHG] s (showRingSt s) := by
  rw [showRingSt_eq]
  exact .ite (.refl _ _ s) (.event (.set (.refl _ _ s) (by decide) (by decide) rfl) (by decide) (by decide) rfl)

theorem holdServo_linkFrame : LinkFrame [TIME_INC_FRAC, TIME_INC_NS, TIME_Y_Y] s (holdServo s) := by
  unfold holdServo loadY
  exact .modTime (.setI (.set (.set (.refl _ _ s) (by decide) (by decide) rfl) (by decide) (by decide) rfl) (by decide) (by decide) rfl) rfl

theorem openGuard_linkFrame : LinkFrame [TIME_ST_GUARD, TIME_EVT_GUARD, TIME_CNT_GUARDCNT, TIME_INC_FRAC, TIME_INC_NS, TIME_Y_Y] s (openGuard s) := by
  unfold openGuard
  refine .ite (.refl _ _ s) (.trans (.modTime ?_ rfl) (ViewFrame.mono (holdServo_linkFrame _) (by decide)))
  exact .bump (.event (.set (.refl _ _ s) (by decide) (by decide) rfl) (by decide) (by decide) rfl) (by decide) (by decide) rfl

theorem openGuard_guard : (openGuard s).get TIME_ST_GUARD = 1 := by
  unfold openGuard
  split
  · rename_i hopen
    exact (s.bit_eq_true _).1 hopen
  · rw [(holdServo_linkFrame _).get _ (by decide), State.modTime_get, State.get_bump_ne _ _ _ _ (by decide) (by decide),
      State.get_event_ne _ _ _ (by decide) (by decide), State.get_set_same _ _ _ (by decide)]
    rfl

theorem reclaim_linkFrame (l : List Field) : LinkFrame l s (reclaim s) := (ViewFrame.refl _ l s).beside rfl rfl

theorem setDelays_linkFrame (x : List Int) : LinkFrame [TIME_PDLYA_D, TIME_PDLYB_D] s (setDelays s p x) := by
  unfold setDelays
  cases p <;> exact .setI (.modTime (.refl _ _ s) rfl) (by decide) (by decide) rfl

theorem reselect_linkFrame : LinkFrame [TIME_ST_SLAVEPORT] s (reselect s) := by
  unfold reselect
  split
  · exact .refl _ _ s
  · exact .modTime (.set (.refl _ _ s) (by decide) (by decide) rfl) rfl

theorem showRingSt_net : (showRingSt s).net = s.net := by
  rw [showRingSt_eq]
  split
  · rfl
  · rfl
theorem showRingSt_tx : (showRingSt s).tx = s.tx := by
  rw [showRingSt_eq]
  split
  · rfl
  · rfl
theorem showRingSt_tally : (showRingSt s).tally = s.tally := by
  rw [showRingSt_eq]
  split
  · rfl
  · rfl
theorem openGuard_net : (openGuard s).net = s.net := by unfold openGuard; split <;> rfl
theorem openGuard_tx : (openGuard s).tx = s.tx := by unfold openGuard; split <;> rfl
theorem openGuard_tally : (openGuard s).tally = s.tally := by unfold openGuard; split <;> rfl
theorem reselect_net : (reselect s).net = s.net := by unfold reselect; split <;> rfl
theorem reselect_tx : (reselect s).tx = s.tx := by unfold reselect; split <;> rfl
theorem reselect_tally : (reselect s).tally = s.tally := by unfold reselect; split <;> rfl

/-! ### A link change -/

/-- A link change before the guard: the event and the ring's state are shown, and credits are reclaimed unless the guard is open at a link up. -/
def State.linkNoted (up : Bool) : State :=
  let s := showRingSt (s.event (linkEvent p))
  if up && s.bit TIME_ST_GUARD then s else reclaim s

/-- A link change before the notice to the ring's manager. -/
def State.linkGuarded (up : Bool) : State := setDelays ((openGuard (s.linkNoted p up)).modTime fun t => setReq t p none) p []

/-- A link change's notice (14 R347) is kept, to be sent again. -/
def State.linkRepeated (up : Bool) : State :=
  s.modNet fun n => { n with again := (n.again.filter fun x => x.1 != p.other) ++ [(p.other, up, linkRepeats, s.pwr.ticks + linkGap s.net.mrpFast)] }

theorem linkChange_eq (up : Bool) :
    linkChange s p up = if s.linkGuarded p up |>.net.mrpOn then
      (if linkUp ((s.linkGuarded p up).linkRepeated p up) p.other then ((s.linkGuarded p up).linkRepeated p up).send p.other.egress 0 (.linkChange up) else (s.linkGuarded p up).linkRepeated p up)
    else s.linkGuarded p up := rfl

theorem linkNoted_frame (up : Bool) : LinkFrame [linkEvent p, PORT_ST_RINGST, PORT_EVT_RINGCHG] s (s.linkNoted p up) := by
  have hring : LinkFrame [linkEvent p, PORT_ST_RINGST, PORT_EVT_RINGCHG] s (showRingSt (s.event (linkEvent p))) :=
    .trans (.event (.refl _ _ s) (by simp) (linkEvent_ok p) rfl) ((showRingSt_linkFrame _).mono (by simp))
  unfold State.linkNoted
  exact .ite hring (.trans hring (reclaim_linkFrame _ _))

theorem linkGuarded_frame_after (up : Bool) : LinkFrame rerouteFields (s.linkNoted p up) (s.linkGuarded p up) := by
  unfold State.linkGuarded
  exact .trans (.modTime ((openGuard_linkFrame _).mono (by decide)) rfl) ((setDelays_linkFrame _ p _).mono (by decide))

theorem linkGuarded_frame (up : Bool) : LinkFrame (linkFields p) s (s.linkGuarded p up) :=
  .trans ((linkNoted_frame s p up).mono (by simp [linkFields])) ((linkGuarded_frame_after s p up).mono (by intro f hf; simp [linkFields, hf]))

theorem linkRepeated_frame (l : List Field) (up : Bool) : LinkFrame l s (s.linkRepeated p up) := .modNet (.refl _ _ s) rfl

theorem linkChange_frame_after (up : Bool) (l : List Field) : LinkFrame l (s.linkGuarded p up) (linkChange s p up) := by
  have hrepeated := linkRepeated_frame (s.linkGuarded p up) p l up
  rw [linkChange_eq]
  exact .ite (.ite (.send hrepeated rfl) hrepeated) (.refl _ _ _)

theorem linkChange_linkFrame (up : Bool) : LinkFrame (linkFields p) s (linkChange s p up) :=
  (linkGuarded_frame s p up).trans (linkChange_frame_after s p up _)

theorem linkNoted_event (up : Bool) : (s.linkNoted p up).get (linkEvent p) = 1 := by
  have hring : (showRingSt (s.event (linkEvent p))).get (linkEvent p) = 1 :=
    ((showRingSt_linkFrame _).get _ (by cases p <;> decide)).trans (State.get_event_same _ _ (linkEvent_ok p) (linkEvent_width p))
  unfold State.linkNoted
  dsimp only
  split
  · exact hring
  · exact hring

/-- A link change sets its port's event (14 R343). -/
theorem linkChange_event (up : Bool) : (linkChange s p up).get (linkEvent p) = 1 := by
  rw [(linkChange_frame_after s p up []).get _ (by simp), (linkGuarded_frame_after s p up).get _ (by cases p <;> decide), linkNoted_event]

/-- A link change opens the re-route guard (03 R87). -/
theorem linkChange_guard (up : Bool) : (linkChange s p up).get TIME_ST_GUARD = 1 := by
  have hdelays (t : State) := (setDelays_linkFrame t p []).get TIME_ST_GUARD (by decide)
  rw [(linkChange_frame_after s p up []).get _ (by simp), State.linkGuarded, hdelays, State.modTime_get, openGuard_guard]

/-- A link change shows the ring's state beside the links, which it leaves. -/
theorem linkChange_linkUp (up : Bool) (q : Port) : linkUp (linkChange s p up) q = linkUp s q := by
  have hframe := linkChange_linkFrame s p up
  cases q with
  | a => exact congrArg (fun n => n.testBit 5) (hframe.get PORT_ST_A (by cases p <;> decide))
  | b => exact hframe.bit PORT_ST_LINKB (by cases p <;> decide)

theorem linkGuarded_net (up : Bool) : (s.linkGuarded p up).net = (s.linkNoted p up).net := openGuard_net _
theorem linkGuarded_tx (up : Bool) : (s.linkGuarded p up).tx = (s.linkNoted p up).tx := openGuard_tx _
theorem linkGuarded_tally (up : Bool) : (s.linkGuarded p up).tally = (s.linkNoted p up).tally := openGuard_tally _

theorem linkNoted_fdb (up : Bool) : (s.linkNoted p up).net.fdb = s.net.fdb := by
  have hring : (showRingSt (s.event (linkEvent p))).net.fdb = s.net.fdb := congrArg NetState.fdb (showRingSt_net _)
  unfold State.linkNoted
  dsimp only
  split
  · exact hring
  · exact hring

theorem linkNoted_tally (up : Bool) : (s.linkNoted p up).tally = s.tally := by
  have hring : (showRingSt (s.event (linkEvent p))).tally = s.tally := showRingSt_tally _
  unfold State.linkNoted
  dsimp only
  split
  · exact hring
  · exact hring

theorem linkNoted_down_tx : (s.linkNoted p false).tx = s.tx.filter fun f => !f.pay.isChunk := by
  have hring : (showRingSt (s.event (linkEvent p))).tx = s.tx := showRingSt_tx _
  exact congrArg (List.filter fun f : TxFrame => !f.pay.isChunk) hring

theorem linkChange_fdb (up : Bool) : (linkChange s p up).net.fdb = s.net.fdb := by
  have hguarded : (s.linkGuarded p up).net.fdb = s.net.fdb := (congrArg NetState.fdb (linkGuarded_net s p up)).trans (linkNoted_fdb s p up)
  rw [linkChange_eq]
  split
  · split
    · exact hguarded
    · exact hguarded
  · exact hguarded

theorem linkChange_tally (up : Bool) : (linkChange s p up).tally = s.tally := by
  have hguarded : (s.linkGuarded p up).tally = s.tally := (linkGuarded_tally s p up).trans (linkNoted_tally s p up)
  rw [linkChange_eq]
  split
  · split
    · exact hguarded
    · exact hguarded
  · exact hguarded

/-- The frames after a port's link is lost: the earlier ones without chunks (14 R369), and the notice to the other ring port (14 R347). -/
theorem mem_linkChange_down_tx {f : TxFrame} (h : f ∈ (linkChange s p false).tx) :
    (f ∈ s.tx ∧ f.pay.isChunk = false) ∨ f = { port := p.other.egress, queue := 0, pay := .linkChange false } := by
  have hkept {f : TxFrame} (h : f ∈ (s.linkGuarded p false).tx) : f ∈ s.tx ∧ f.pay.isChunk = false := by
    rw [linkGuarded_tx, linkNoted_down_tx] at h
    simpa using h
  rw [linkChange_eq] at h
  split at h
  · split at h
    · exact (List.mem_append.1 h).imp hkept List.mem_singleton.1
    · exact .inl (hkept h)
  · exact .inl (hkept h)

end

/-! ### What is shown of a port -/

section
variable (s : State) (p : Port)

/-- The fields of PORT_ST for a port (14 R375). -/
def portFields (p : Port) : List Field := if p = .a then [PORT_ST_A] else [PORT_ST_LINKB, PORT_ST_AMPB, PORT_ST_ANB, PORT_ST_SQIB]

theorem setPort_frame (link high an : Bool) (sqi : Nat) : LinkFrame (portFields p) s (setPort s p link high an sqi) := by
  unfold setPort
  cases p with
  | a => exact .set (.refl _ _ s) (by decide) (by decide) rfl
  | b =>
    exact .set (.setB (.setB (.setB (.refl _ _ s) (by decide) (by decide) rfl) (by decide) (by decide) rfl) (by decide) (by decide) rfl) (by decide) (by decide) rfl

theorem setPort_linkUp (link high an : Bool) (sqi : Nat) : linkUp (setPort s p link high an sqi) p = link := by
  cases p with
  | a =>
    change ((s.set PORT_ST_A (bitIf link 5 + bitIf high 4 + bitIf an 3 + sqi % 8)).get PORT_ST_A).testBit 5 = link
    rw [State.get_set_same _ _ _ (by decide)]
    have h8 : sqi % 8 < 8 := Nat.mod_lt _ (by decide)
    generalize sqi % 8 = k at h8
    revert link high an k
    decide
  | b =>
    change (((((s.setB PORT_ST_LINKB link).setB PORT_ST_AMPB high).setB PORT_ST_ANB an).set PORT_ST_SQIB sqi).get PORT_ST_LINKB == 1) = link
    rw [State.get_set_ne _ _ _ _ (by decide) (by decide), State.get_setB_ne _ _ _ _ (by decide) (by decide), State.get_setB_ne _ _ _ _ (by decide) (by decide)]
    exact State.bit_setB_same _ _ _ (by decide) rfl

/-! ### A port's link ends (14 R343) -/

/-- The count of a port's links lost. -/
def lossCount (p : Port) : Field := if p = .a then PORT_LCNT_LDOWNA else PORT_LCNT_LDOWNB

/-- What PORT_ST shows of a port without link, counted. -/
def State.unlinked : State := (setPort s p false false false 0).bump (lossCount p) 1

/-- A port without link: its frames, its masters and the filtering database are lost. -/
def State.bereft : State :=
  (reselect ((losePort (s.unlinked p) p).modTime fun t => forgetMasters t p)).modNet fun n => { n with fdb := [] }

/-- Nothing is learnt on a port without link, and a fetch from it ends (15 R390). -/
def State.unlearnt : State :=
  ((s.set (nbrStn p) 0xFE).set (nbrCstn p) 0xFE).modCust p fun x =>
    { x with fetch := none, look := none, offer := none, tdig := none, valid := false, helloAt := none }

theorem portDown_eq_linkChange : portDown s p = linkChange (custodyLinkDown (s.bereft p) p) p false := (rfl)

/-- Out of COPPICE no choice hangs on a link (15 R392). -/
theorem custodyLinkDown_eq (h : s.mode ≠ 4) : custodyLinkDown s p = s.unlearnt p := by
  have hchosen : (looking s || (s.mode == 4 && s.get CP_ST_STEP == 2 && s.get CP_ST_SRCPORT == (if p = .a then 1 else 2))) = false := by
    simp [looking, h]
  unfold custodyLinkDown
  rw [hchosen]
  rfl

theorem lossCount_ok : (lossCount p).ok := by cases p <;> decide

theorem unlinked_frame : LinkFrame (lossCount p :: portFields p) s (s.unlinked p) := by
  unfold State.unlinked
  exact .bump ((setPort_frame s p false false false 0).mono (by simp +contextual)) (by simp) (lossCount_ok p) rfl

theorem bereft_frame_after : LinkFrame [TIME_ST_SLAVEPORT] (s.unlinked p) (s.bereft p) := by
  have hlost : LinkFrame [TIME_ST_SLAVEPORT] (s.unlinked p) (losePort (s.unlinked p) p) := (ViewFrame.refl _ _ _).beside rfl rfl
  unfold State.bereft
  exact .modNet (.trans (.modTime hlost rfl) (reselect_linkFrame _)) rfl

theorem unlearnt_frame : LinkFrame [nbrStn p, nbrCstn p] s (s.unlearnt p) := by
  have hset : LinkFrame [nbrStn p, nbrCstn p] s ((s.set (nbrStn p) 0xFE).set (nbrCstn p) 0xFE) :=
    .set (.set (.refl _ _ s) (by simp) (nbrStn_ok p) rfl) (by simp) (nbrCstn_ok p) rfl
  exact hset.beside rfl rfl

theorem unlearnt_nbrStn : (s.unlearnt p).get (nbrStn p) = 0xFE := by
  change ((s.set (nbrStn p) 0xFE).set (nbrCstn p) 0xFE).get (nbrStn p) = 0xFE
  rw [State.get_set_ne _ _ _ _ (nbrCstn_ok p) (by cases p <;> decide), State.get_set_same _ _ _ (nbrStn_ok p), nbrStn_width]
  rfl

theorem unlearnt_nbrCstn : (s.unlearnt p).get (nbrCstn p) = 0xFE := by
  change ((s.set (nbrStn p) 0xFE).set (nbrCstn p) 0xFE).get (nbrCstn p) = 0xFE
  rw [State.get_set_same _ _ _ (nbrCstn_ok p), nbrCstn_width]
  rfl

theorem cust_modCust (f : CustPort → CustPort) : (s.modCust p f).cust p = f (s.cust p) := by cases p <;> rfl

theorem cust_other_modCust (f : CustPort → CustPort) : (s.modCust p f).cust p.other = s.cust p.other := by cases p <;> rfl

theorem unlearnt_fetch : ((s.unlearnt p).cust p).fetch = none := by
  unfold State.unlearnt
  rw [cust_modCust]

theorem unlearnt_cust_other : (s.unlearnt p).cust p.other = s.cust p.other := by
  unfold State.unlearnt
  rw [cust_other_modCust]
  cases p <;> rfl

/-- The fields of a port's link that ends. -/
def linkLossFields (p : Port) : List Field := lossCount p :: portFields p ++ TIME_ST_SLAVEPORT :: nbrStn p :: nbrCstn p :: linkFields p

theorem bereft_mode : (s.bereft p).mode = s.mode :=
  ((bereft_frame_after s p).get MD_ST_MODE (by decide)).trans ((unlinked_frame s p).get MD_ST_MODE (by cases p <;> decide))

section
variable (h : s.mode ≠ 4)
include h

theorem portDown_eq_unlearnt : portDown s p = linkChange ((s.bereft p).unlearnt p) p false := by
  rw [portDown_eq_linkChange, custodyLinkDown_eq _ _ (by rwa [bereft_mode])]

theorem portDown_linkFrame_after : LinkFrame (TIME_ST_SLAVEPORT :: nbrStn p :: nbrCstn p :: linkFields p) (s.unlinked p) (portDown s p) := by
  rw [portDown_eq_unlearnt s p h]
  refine .trans (.trans ((bereft_frame_after s p).mono (by simp)) ((unlearnt_frame _ p).mono (by simp))) ((linkChange_linkFrame _ p false).mono ?_)
  intro f hf
  simp [hf]

theorem portDown_linkFrame : LinkFrame (linkLossFields p) s (portDown s p) := by
  refine .trans ((unlinked_frame s p).mono ?_) ((portDown_linkFrame_after s p h).mono ?_)
  · intro f hf
    exact List.mem_append_left _ hf
  · intro f hf
    exact List.mem_append_right _ hf

theorem portDown_cust : (portDown s p).tally = ((s.bereft p).unlearnt p).tally := by
  rw [portDown_eq_unlearnt s p h, linkChange_tally]

theorem portDown_fetch : ((portDown s p).cust p).fetch = none := by
  have htally := portDown_cust s p h
  have hcust : (portDown s p).cust p = ((s.bereft p).unlearnt p).cust p := by
    unfold State.cust
    rw [htally]
  rw [hcust, unlearnt_fetch]

theorem portDown_cust_other : (portDown s p).cust p.other = s.cust p.other := by
  have htally := portDown_cust s p h
  have hcust : (portDown s p).cust p.other = ((s.bereft p).unlearnt p).cust p.other := by
    unfold State.cust
    rw [htally]
  have hbereft : (s.bereft p).tally = s.tally := (reselect_tally _).trans (by cases p <;> rfl)
  rw [hcust, unlearnt_cust_other]
  unfold State.cust
  rw [hbereft]

theorem portDown_fdb : (portDown s p).net.fdb = [] := by
  rw [portDown_eq_unlearnt s p h, linkChange_fdb]
  rfl

theorem portDown_event : (portDown s p).get (linkEvent p) = 1 := by
  rw [portDown_eq_unlearnt s p h, linkChange_event]

theorem portDown_guard : (portDown s p).get TIME_ST_GUARD = 1 := by
  rw [portDown_eq_unlearnt s p h, linkChange_guard]

theorem portDown_noLink : linkUp (portDown s p) p = false := by
  have hshown : linkUp (s.unlinked p) p = false := by
    have hset := setPort_linkUp s p false false false 0
    cases p with
    | a =>
      have hkept : (s.unlinked .a).get PORT_ST_A = (setPort s .a false false false 0).get PORT_ST_A := State.get_bump_ne _ _ _ _ (by decide) (by decide)
      exact (congrArg (fun n => n.testBit 5) hkept).trans hset
    | b =>
      have hkept : (s.unlinked .b).get PORT_ST_LINKB = (setPort s .b false false false 0).get PORT_ST_LINKB := State.get_bump_ne _ _ _ _ (by decide) (by decide)
      exact (congrArg (· == 1) hkept).trans hset
  have hframe := portDown_linkFrame_after s p h
  cases p with
  | a => exact (congrArg (fun n => n.testBit 5) (hframe.get PORT_ST_A (by decide))).trans hshown
  | b => exact (hframe.bit PORT_ST_LINKB (by decide)).trans hshown

theorem portDown_lossCount : (portDown s p).get (lossCount p) = min 255 (s.get (lossCount p) + 1) := by
  have hwidth : (lossCount p).width = 8 := by cases p <;> rfl
  rw [(portDown_linkFrame_after s p h).get _ (by cases p <;> decide), State.unlinked, State.get_bump_same _ _ _ (lossCount_ok p),
    (setPort_frame s p false false false 0).get _ (by cases p <;> decide), hwidth]
  exact Nat.min_comm _ _

theorem portDown_nbrStn : (portDown s p).get (nbrStn p) = 0xFE := by
  rw [portDown_eq_unlearnt s p h, (linkChange_linkFrame _ p false).get _ (by cases p <;> decide), unlearnt_nbrStn]

theorem portDown_nbrCstn : (portDown s p).get (nbrCstn p) = 0xFE := by
  rw [portDown_eq_unlearnt s p h, (linkChange_linkFrame _ p false).get _ (by cases p <;> decide), unlearnt_nbrCstn]

/-- No frame for the port without link waits, and no chunk. -/
theorem portDown_tx (f : TxFrame) (hf : f ∈ (portDown s p).tx) : f.port ≠ p.egress ∧ f.pay.isChunk = false := by
  rw [portDown_eq_unlearnt s p h] at hf
  rcases mem_linkChange_down_tx _ p hf with ⟨hkept, hchunk⟩ | rfl
  · have htx : ((s.bereft p).unlearnt p).tx = (losePort (s.unlinked p) p).tx := (reselect_tx _)
    rw [htx] at hkept
    have hport := (List.mem_filter.1 hkept).2
    exact ⟨by simpa using hport, hchunk⟩
  · cases p with
    | a => exact ⟨by decide, rfl⟩
    | b => exact ⟨by decide, rfl⟩

end

end

/-- The fields a port's lost link changes, as the statement names them: those of PORT_ST as one word. -/
theorem linkLossFields_inside (p : Port) :
    ∀ f ∈ linkLossFields p, ∃ g ∈ [wholeWord 0x300, linkEvent p, PORT_EVT_RINGCHG, PORT_LCNT_LDOWNA, PORT_LCNT_LDOWNB, TIME_ST_SLAVEPORT, nbrStn p, nbrCstn p,
      TIME_ST_GUARD, TIME_EVT_GUARD, TIME_CNT_GUARDCNT, TIME_PDLYA_D, TIME_PDLYB_D, TIME_INC_FRAC, TIME_INC_NS, TIME_Y_Y], f.inside g := by
  cases p <;> decide

/-- The fields of a port's new link, those of PORT_ST as one word. -/
theorem linkGainFields_inside (p : Port) :
    ∀ f ∈ portFields p ++ linkFields p, ∃ g ∈ [wholeWord 0x300, linkEvent p, PORT_EVT_RINGCHG, TIME_ST_GUARD, TIME_EVT_GUARD, TIME_CNT_GUARDCNT,
      TIME_PDLYA_D, TIME_PDLYB_D, TIME_INC_FRAC, TIME_INC_NS, TIME_Y_Y], f.inside g := by
  cases p <;> decide

theorem besideLink_rest {s t : State} (h : besideLink t = besideLink s) :
    { t with regs := s.regs, time := s.time, net := s.net, tx := s.tx, tally := s.tally, fresh := s.fresh } = s :=
  congrArg (fun x : State => { x with regs := s.regs, time := s.time, net := s.net, tx := s.tx, tally := s.tally, fresh := s.fresh }) h

theorem besideLink_rest_of_tally {s t : State} (h : besideLink t = besideLink s) (htally : t.tally = s.tally) :
    { t with regs := s.regs, time := s.time, net := s.net, tx := s.tx, fresh := s.fresh } = s := by
  have hrest := besideLink_rest h
  rwa [← htally] at hrest

/-! ### A port's link comes up (14 R342, R343) -/

section
variable (s : State) (p : Port) (high an : Bool) (sqi : Nat)

/-- The link of a port comes up. -/
def State.linked : State := linkChange (setPort s p true high an sqi) p true

theorem linked_linkFrame : LinkFrame (portFields p ++ linkFields p) s (s.linked p high an sqi) := by
  refine .trans ((setPort_frame s p true high an sqi).mono ?_) ((linkChange_linkFrame _ p true).mono ?_)
  · intro f hf
    exact List.mem_append_left _ hf
  · intro f hf
    exact List.mem_append_right _ hf

theorem linked_linkUp : linkUp (s.linked p high an sqi) p = true := (linkChange_linkUp _ p true p).trans (setPort_linkUp s p true high an sqi)

theorem linked_fdb : (s.linked p high an sqi).net.fdb = s.net.fdb := by
  rw [State.linked, linkChange_fdb]
  cases p <;> rfl

theorem linked_tally : (s.linked p high an sqi).tally = s.tally := by
  rw [State.linked, linkChange_tally]
  cases p <;> rfl

theorem linked_mode : (s.linked p high an sqi).mode = s.mode := (linked_linkFrame s p high an sqi).get MD_ST_MODE (by cases p <;> decide)

theorem firstLink_of_mode (h : s.mode ≠ 4) : firstLink s = s := if_neg fun hc => h hc.1

end

theorem exec_portLinkUp {s : State} {port : Port} {ab sqi : Nat} {high : Bool} (halive : s.alive = true) (hdown : linkUp s port = false)
    (hserial : port = .a ∨ s.pwr.serialB = false) (hamp : linkAmp s port ab = some high) (hmode : s.mode ≠ 4) :
    exec (.portLinkUp port ab sqi) s = .next (s.linked port high (s.bit PORT_CFG_ANEN) sqi) := by
  have hfree : (port == .b && s.pwr.serialB) = false := by
    rcases hserial with rfl | h
    · rfl
    · simp [h]
  change execPortLinkUp port ab sqi s = _
  simp only [execPortLinkUp, hamp, halive, hdown, hfree, Bool.not_false, Bool.and_self, if_true]
  exact congrArg Host.Outcome.next (firstLink_of_mode _ ((linked_mode s port high _ sqi).trans_ne hmode))

theorem exec_portLinkDown {s : State} {port : Port} (halive : s.alive = true) (hup : linkUp s port = true) :
    exec (.portLinkDown port) s = .next (portDown s port) := by
  change execPortLinkDown port s = _
  simp only [execPortLinkDown, halive, hup, Bool.and_self, if_true]

/-! ### PORT_CFG (14 R342) -/

/-- What a write of PORT_CFG stores where the word's writable bits are those of mask n. -/
theorem getLsbD_storeRw (s : State) (a : Nat) (v : Word) (i : Nat) :
    ((storeRw s a v).word a).getLsbD i = if (BitVec.ofNat 32 (accMask a .rw)).getLsbD i then v.getLsbD i else (s.word a).getLsbD i := by
  rw [storeRw_word]
  by_cases hi : i < 32
  · simp only [BitVec.getLsbD_or, BitVec.getLsbD_and, BitVec.getLsbD_not, hi, decide_true, Bool.true_and]
    cases (BitVec.ofNat 32 (accMask a .rw)).getLsbD i <;> simp
  · have hge : 32 ≤ i := Nat.not_lt.1 hi
    rw [BitVec.getLsbD_of_ge _ _ hge, BitVec.getLsbD_of_ge _ _ hge, BitVec.getLsbD_of_ge _ _ hge,
      BitVec.getLsbD_of_ge _ _ hge, if_neg Bool.false_ne_true]

/-- A field whose bits are all writable reads what was written. -/
theorem storeRw_get (s : State) (v : Word) (g : Field) (h : ∀ i < g.width, (BitVec.ofNat 32 (accMask g.word .rw)).getLsbD (g.lo + i) = true) :
    (storeRw s g.word v).get g = getBits v g.lo g.width := by
  apply Nat.eq_of_testBit_eq
  intro i
  rw [State.get, testBit_getBits, testBit_getBits, getLsbD_storeRw]
  by_cases hi : i < g.width
  · rw [if_pos (h i hi)]
  · simp [hi]

/-- A write changes no register bit outside fields that hold the writable ones. -/
theorem storeRw_sameBut (l : List Field) (s : State) (a : Nat) (v : Word)
    (h : ∀ i < 32, (BitVec.ofNat 32 (accMask a .rw)).getLsbD i = true → (l.any fun f => f.has a i) = true) : sameBut l s (storeRw s a v) := by
  intro b i hi
  by_cases hb : b = a
  · subst hb
    rw [getLsbD_storeRw]
    split
    · rename_i hmask
      by_cases h32 : i < 32
      · exact absurd ((h i h32 hmask).symm.trans hi) (by decide)
      · rw [BitVec.getLsbD_of_ge _ _ (Nat.not_lt.1 h32), BitVec.getLsbD_of_ge _ _ (Nat.not_lt.1 h32)]
    · rfl
  · exact congrArg (fun w : Word => w.getLsbD i) (State.word_setWord_ne _ _ _ _ hb)

/-- The word that a write of PORT_CFG stores: an amplitude of 0 is ignored. -/
def portSetting (old v : Word) : Word :=
  let v := if getBits v 2 2 = 0 then setBits v 2 2 (getBits old 2 2) else v
  if getBits v 0 2 = 0 then setBits v 0 2 (getBits old 0 2) else v

/-- Bits apart from those that a write puts, when it puts them, read the same. -/
theorem getBits_ite_setBits_ne (c : Prop) [Decidable c] (w : Word) (lo width v lo' width' : Nat) (h : lo + width ≤ 32) (hd : lo' + width' ≤ lo ∨ lo + width ≤ lo') :
    getBits (if c then setBits w lo width v else w) lo' width' = getBits w lo' width' := by
  split
  · exact getBits_setBits_ne _ _ _ _ _ _ h hd
  · rfl

/-- Bits that a write puts back when they are 0 read what was put. -/
theorem getBits_ite_setBits_same (w : Word) (lo width v : Nat) (h : lo + width ≤ 32) (hv : v < 2 ^ width) :
    getBits (if getBits w lo width = 0 then setBits w lo width v else w) lo width = if getBits w lo width = 0 then v else getBits w lo width := by
  split
  · rw [getBits_setBits_same _ _ _ _ h, Nat.mod_eq_of_lt hv]
  · rfl

theorem portSetting_an (old v : Word) : getBits (portSetting old v) 4 1 = getBits v 4 1 :=
  (getBits_ite_setBits_ne _ _ _ _ _ _ _ (by decide) (by decide)).trans (getBits_ite_setBits_ne _ _ _ _ _ _ _ (by decide) (by decide))

theorem portSetting_low (old v : Word) : getBits (portSetting old v) 0 2 = if getBits v 0 2 = 0 then getBits old 0 2 else getBits v 0 2 := by
  have hkept := getBits_ite_setBits_ne (getBits v 2 2 = 0) v 2 2 (getBits old 2 2) 0 2 (by decide) (by decide)
  refine (getBits_ite_setBits_same _ 0 2 _ (by decide) (getBits_lt old 0 2)).trans ?_
  rw [hkept]

theorem portSetting_high (old v : Word) : getBits (portSetting old v) 2 2 = if getBits v 2 2 = 0 then getBits old 2 2 else getBits v 2 2 :=
  (getBits_ite_setBits_ne _ _ _ _ _ _ _ (by decide) (by decide)).trans (getBits_ite_setBits_same _ _ _ _ (by decide) (getBits_lt old 2 2))

/-- With both links down no port renegotiates. -/
theorem writePortCfg_eq {s : State} {v : Word} (ha : linkUp s .a = false) (hb : linkUp s .b = false) :
    writePortCfg s v = storeRw s 0x301 (portSetting (s.word 0x301) v) := by
  have hstored (w : Word) (q : Port) : linkUp (storeRw s 0x301 w) q = linkUp s q := by
    have hframe := storeRw_frame s 0x301 w
    cases q with
    | a => exact congrArg (fun n => n.testBit 5) (hframe.get PORT_ST_A (by decide))
    | b => exact hframe.bit PORT_ST_LINKB (by decide)
  unfold writePortCfg
  dsimp only
  rw [hstored, ha, Bool.and_false, if_neg Bool.false_ne_true, hstored, hb, Bool.and_false, if_neg Bool.false_ne_true]
  rfl

/-! ### The switch (14 R344 to R346) -/

section
variable (s : State) (p : Port) (f : Frame)

/-- A good frame teaches the switch its source. -/
def State.taught : State := s.modNet fun n => { n with fdb := learn n.fdb f.src p s.pwr.ticks }

/-- A frame to port C. -/
def State.toC (s : State) (f : Frame) : State := s.send .c f.inQueue (.forward f)

/-- A frame to a port's queue, as it is forwarded. -/
def Frame.to (f : Frame) (e : Egress) : TxFrame := { port := e, queue := f.inQueue, pay := .forward f }

/-- A good frame has taught its source, and has gone to the queues of `out`. -/
def State.switched (out : List Egress) : State := { s with net := { s.net with fdb := learn s.net.fdb f.src p s.pwr.ticks }, tx := s.tx ++ out.map f.to }

theorem switched_rest (out : List Egress) : { s.switched p f out with net := s.net, tx := s.tx } = s := rfl
theorem switched_net (out : List Egress) : { (s.switched p f out).net with fdb := s.net.fdb } = s.net := rfl
theorem switched_fdb (out : List Egress) : (s.switched p f out).net.fdb = learn s.net.fdb f.src p s.pwr.ticks := rfl
theorem switched_tx (out : List Egress) : (s.switched p f out).tx = s.tx ++ out.map f.to := rfl

theorem taught_eq_switched : s.taught p f = s.switched p f [] :=
  congrArg (fun l : List TxFrame => { s with net := { s.net with fdb := learn s.net.fdb f.src p s.pwr.ticks }, tx := l }) (List.append_nil s.tx).symm

theorem taught_toC : (s.taught p f).toC f = s.switched p f [.c] := (rfl)

theorem taught_send (e : Egress) : (s.taught p f).send e f.inQueue (.forward f) = s.switched p f [e] := (rfl)

theorem taught_send_toC (e : Egress) : ((s.taught p f).send e f.inQueue (.forward f)).toC f = s.switched p f [e, .c] :=
  congrArg (fun l : List TxFrame => { s with net := { s.net with fdb := learn s.net.fdb f.src p s.pwr.ticks }, tx := l }) (List.append_assoc s.tx [f.to e] [f.to .c])

theorem forwardTo_queued {s : State} {p : Port} {f : Frame} (hup : linkUp s p = true) (hroom : queueFull s p.egress f.inQueue f.len = false) :
    forwardTo s p f = s.send p.egress f.inQueue (.forward f) := by
  rw [forwardTo, if_pos hup, transit, hroom]
  rfl

theorem forwardTo_dropped {s : State} {p : Port} {f : Frame} (hup : linkUp s p = true) (hfull : queueFull s p.egress f.inQueue f.len = true) :
    forwardTo s p f = s.bump (if p = .a then SW_Q_DROPA f.inQueue else SW_Q_DROPB f.inQueue) 1 := by
  rw [forwardTo, if_pos hup, transit, hfull]
  rfl

theorem exec_switchForward (halive : s.alive = true) (hup : linkUp s p = true) : exec (.switchForward p f) s = .next (switchFrame s p f) := by
  change execSwitchForward p f s = _
  simp only [execSwitchForward, halive, hup, Bool.and_self, if_true]

theorem switchFrame_bad (h : f.fcsOk = false ∨ 1522 < f.len) : switchFrame s p f = s.bump (if p = .a then SW_ERR_A else SW_ERR_B) 1 := by
  unfold switchFrame
  rw [if_pos (by simpa using h)]

section
variable (hfcs : f.fcsOk = true) (hlen : f.len ≤ 1522)
include hfcs hlen

theorem switchFrame_local (h : f.local = true) : switchFrame s p f = (s.taught p f).toC f := by
  unfold switchFrame
  rw [if_neg (by simp [hfcs, hlen])]
  dsimp only
  rw [if_pos h]
  rfl

theorem switchFrame_group (h : f.local = false) (hgroup : f.group = true) :
    switchFrame s p f =
      if (joinedMacs s).contains f.dst then (forwardTo (s.taught p f) p.other f).toC f else forwardTo (s.taught p f) p.other f := by
  unfold switchFrame
  rw [if_neg (by simp [hfcs, hlen])]
  dsimp only
  rw [if_neg (by simp [h]), if_pos hgroup]
  rfl

theorem switchFrame_own (h : f.local = false) (hgroup : f.group = false) (hown : f.dst = ownMac s) : switchFrame s p f = (s.taught p f).toC f := by
  have hkept : f.dst = ownMac (s.modNet fun n => { n with fdb := learn n.fdb f.src p s.pwr.ticks }) := hown
  unfold switchFrame
  rw [if_neg (by simp [hfcs, hlen])]
  dsimp only
  rw [if_neg (by simp [h]), if_neg (by simp [hgroup]), if_pos hkept]
  rfl

theorem switchFrame_known {e : FdbEntry} (h : f.local = false) (hgroup : f.group = false) (hown : f.dst ≠ ownMac s)
    (hfound : (learn s.net.fdb f.src p s.pwr.ticks).find? (fun e => e.mac == f.dst) = some e) :
    switchFrame s p f = if e.port = p then s.taught p f else forwardTo (s.taught p f) e.port f := by
  have hkept : ¬f.dst = ownMac (s.modNet fun n => { n with fdb := learn n.fdb f.src p s.pwr.ticks }) := hown
  have hlooked : (s.modNet fun n => { n with fdb := learn n.fdb f.src p s.pwr.ticks }).net.fdb.find? (fun e => e.mac == f.dst) = some e := hfound
  unfold switchFrame
  rw [if_neg (by simp [hfcs, hlen])]
  dsimp only
  rw [if_neg (by simp [h]), if_neg (by simp [hgroup]), if_neg hkept, hlooked]
  rfl

theorem switchFrame_unknown (h : f.local = false) (hgroup : f.group = false) (hown : f.dst ≠ ownMac s)
    (hfound : (learn s.net.fdb f.src p s.pwr.ticks).find? (fun e => e.mac == f.dst) = none) :
    switchFrame s p f = (forwardTo (s.taught p f) p.other f).toC f := by
  have hkept : ¬f.dst = ownMac (s.modNet fun n => { n with fdb := learn n.fdb f.src p s.pwr.ticks }) := hown
  have hlooked : (s.modNet fun n => { n with fdb := learn n.fdb f.src p s.pwr.ticks }).net.fdb.find? (fun e => e.mac == f.dst) = none := hfound
  unfold switchFrame
  rw [if_neg (by simp [hfcs, hlen])]
  dsimp only
  rw [if_neg (by simp [h]), if_neg (by simp [hgroup]), if_neg hkept, hlooked]
  rfl

end

end

/-- Learning a source does not change where another address is known. -/
theorem find?_learn (l : List FdbEntry) (src dst : Nat) (p : Port) (t : Nat) (h : dst ≠ src) :
    (learn l src p t).find? (fun e => e.mac == dst) = l.find? (fun e => e.mac == dst) := by
  have hrest : (l.filter fun e => e.mac != src).find? (fun e => e.mac == dst) = l.find? (fun e => e.mac == dst) := by
    rw [List.find?_filter]
    congr 1
    funext e
    by_cases he : e.mac = dst
    · simp [he, h]
    · simp [he]
  unfold learn
  dsimp only
  split
  · rw [List.find?_append, hrest, List.find?_cons_of_neg (by simpa using h.symm), List.find?_nil, Option.or_none]
  · rfl

/-- A frame to others that finds port A's queue full is dropped and counted. -/
theorem switchFrame_full (s : State) (f : Frame) (hfcs : f.fcsOk = true) (hlen : f.len ≤ 1522) (h : f.local = false) (hgroup : f.group = true)
    (hjoined : (joinedMacs s).contains f.dst = false) (hout : linkUp s .a = true) (hfull : queueFull s .a f.inQueue f.len = true) :
    switchFrame s .b f = (s.taught .b f).bump (SW_Q_DROPA f.inQueue) 1 := by
  rw [switchFrame_group s .b f hfcs hlen h hgroup, hjoined, if_neg Bool.false_ne_true]
  exact forwardTo_dropped (s := s.taught .b f) (p := .a) hout hfull

/-! ### Queries (14 R349) -/

section
variable {s : State} {port : Port} {src : Peer}

/-- The header of an answer without ports: to the version and address the query came from. -/
theorem answerHead_without_ports : { answerHead s src with ports := none } = ⟨src.v6, ownIp s src.v6 src.addr, src.addr, none, none⟩ := rfl

/-- The echo that is answered. -/
def State.echoed (s : State) (port : Port) (src : Peer) (n : Nat) : State :=
  (s.modNet fun x => { x with echoSec := s.second, echoes := n + 1 }).sendIp port.egress 3 { answerHead s src with ports := none } .echoReply

theorem exec_icmpEcho (hlive : s.live = true) :
    exec (.icmpEcho port src) s = .next
      (if (if s.net.echoSec = s.second then s.net.echoes else 0) < 10 then s.echoed port src (if s.net.echoSec = s.second then s.net.echoes else 0) else s) := by
  change execIcmpEcho port src s = _
  unfold execIcmpEcho
  rw [if_neg (by simp [hlive])]
  rfl

theorem exec_addressQuery {kind : Nat} (hlive : s.live = true) (hkind : kind < 4) (hip : kind % 2 = 1 ∨ s.get NET_IP4_ADDR ≠ 0) :
    exec (.addressQuery port kind src) s = .next
      (if kind = 0 then s.send port.egress 3 (.addressReply kind) else s.sendIp port.egress 3 { answerHead s src with ports := none } (.addressReply kind)) := by
  change execAddressQuery port kind src s = _
  unfold execAddressQuery
  rw [if_pos]
  simpa [hlive, hkind] using hip

end

section
variable {s : State}

theorem exec_filteringDatabaseAgeing {mac : Nat} (halive : s.alive = true) :
    exec (.filteringDatabaseAgeing mac) s = .next (s.modNet fun n => { n with fdb := n.fdb.filter fun e => e.mac != mac || !passed s e.at_ 300 }) := by
  change execFilteringDatabaseAgeing mac s = _
  rw [execFilteringDatabaseAgeing, if_pos halive]

theorem exec_mrpTopologyChange {port : Port} {ms : Nat} (halive : s.alive = true) (hon : s.net.mrpOn = true) (hup : linkUp s port = true) :
    exec (.mrpTopologyChange port s.net.mrpUuid ms) s = .next (s.modNet fun n => { n with topo := some (s.pwr.ticks + ms * 200000) }) := by
  change execMrpTopologyChange port s.net.mrpUuid ms s = _
  rw [execMrpTopologyChange, if_pos (by simp [halive, hon, hup])]

/-- The database is emptied when the interval of a topology change has ended. -/
def State.flushed (s : State) : State := ((s.modNet fun n => { n with topo := none, fdb := [] }).event PORT_EVT_TOPO).bump PORT_LCNT_TOPOCNT 1

theorem exec_mrpFlush {at_ : Nat} (halive : s.alive = true) (htopo : s.net.topo = some at_) (hdue : at_ ≤ s.pwr.ticks) :
    exec .mrpFlush s = .next s.flushed := by
  change execMrpFlush s = _
  rw [execMrpFlush, if_pos (by simp [halive, htopo, hdue])]
  rfl

end

/-- A count's field does not reach beyond its word. -/
theorem swErr_ok (p : Port) : (if p = .a then SW_ERR_A else SW_ERR_B).ok := by cases p <;> decide

/-- Settles O39: one lemma per way a link changes (`portDown_linkFrame`, `linked_linkFrame`), a frame is switched (`switchFrame_local` and those after it) and a query is answered. -/
theorem portsSwitchAndRingClient : Obligations.PortsSwitchAndRingClient := by
  unfold Obligations.PortsSwitchAndRingClient
  refine ⟨?linkUp, ?linkDown, ?cfg, ?bad, ?own, ?other, ?full, ?kept, ?flood, ?known, ?age, ?topology, ?flush, ?echo, ?echoesSpent, ?firstEcho, ?query, ?arp⟩
  case linkUp =>
    intro port ab sqi high s halive hdown hserial hamp _ hmode
    have hframe := linked_linkFrame s port high (s.bit PORT_CFG_ANEN) sqi
    exact ⟨_, exec_portLinkUp halive hdown hserial hamp hmode, linked_linkUp _ _ _ _ _, linkChange_event _ _ _, linkChange_guard _ _ _, linked_fdb _ _ _ _ _,
      besideLink_rest_of_tally hframe.kept (linked_tally _ _ _ _ _), sameBut_inside hframe.regs (linkGainFields_inside port)⟩
  case linkDown =>
    intro port s halive hup hmode
    have hframe := portDown_linkFrame s port hmode
    exact ⟨_, exec_portLinkDown halive hup, portDown_noLink s port hmode, portDown_fdb s port hmode, portDown_event s port hmode, portDown_lossCount s port hmode,
      portDown_guard s port hmode, portDown_tx s port hmode, portDown_fetch s port hmode, portDown_nbrStn s port hmode, portDown_nbrCstn s port hmode,
      portDown_cust_other s port hmode, besideLink_rest hframe.kept, sameBut_inside hframe.regs (linkLossFields_inside port)⟩
  case cfg =>
    intro door v s hdoor ha hb
    have hfields := storeRw_sameBut [PORT_CFG_ANEN, PORT_CFG_AMPA, PORT_CFG_AMPB] s 0x301 (portSetting (s.word 0x301) v) (by decide)
    refine ⟨storeRw s 0x301 (portSetting (s.word 0x301) v), ?_, ?_, ?_, ?_, rfl, hfields⟩
    · change execPortCfgWrite door v s = _
      rw [execPortCfgWrite, atDoor_open _ _ _ _ hdoor, writePortCfg_eq ha hb]
    · exact (storeRw_get s _ PORT_CFG_ANEN (by decide)).trans (portSetting_an _ _)
    · exact (storeRw_get s _ PORT_CFG_AMPA (by decide)).trans (portSetting_low _ _)
    · exact (storeRw_get s _ PORT_CFG_AMPB (by decide)).trans (portSetting_high _ _)
  case bad =>
    intro port f s halive hup hbad
    refine ⟨_, (exec_switchForward s port f halive hup).trans (congrArg _ (switchFrame_bad s port f hbad)), ?_, ?_⟩
    · rw [State.get_bump_same _ _ _ (swErr_ok port), Nat.min_comm]
      cases port <;> rfl
    · exact (RegFrame.bump (.refl _ _ s) (by simp) (swErr_ok port)).onlyFields
  case own =>
    intro port f s halive hup hfcs hlen hlocal hgroup hown
    have hswitched := (switchFrame_own s port f hfcs hlen hlocal hgroup hown).trans (taught_toC s port f)
    exact ⟨_, (exec_switchForward s port f halive hup).trans (congrArg _ hswitched), switched_tx _ _ _ _, switched_fdb _ _ _ _, switched_rest _ _ _ _, switched_net _ _ _ _⟩
  case other =>
    intro port f s halive hup hfcs hlen hlocal hgroup hjoined hout hroom
    have hswitched := switchFrame_group s port f hfcs hlen hlocal hgroup
    rw [hjoined, if_neg Bool.false_ne_true, forwardTo_queued (s := s.taught port f) hout hroom, taught_send] at hswitched
    exact ⟨_, (exec_switchForward s port f halive hup).trans (congrArg _ hswitched), switched_tx _ _ _ _, switched_rest _ _ _ _, switched_net _ _ _ _⟩
  case full =>
    intro port f s halive hup hfcs hlen hlocal hgroup hjoined hport hout hfull
    subst hport
    have hok : (SW_Q_DROPA f.inQueue).ok := show 16 + 16 ≤ 32 by decide
    refine ⟨_, (exec_switchForward s .b f halive hup).trans (congrArg _ (switchFrame_full s f hfcs hlen hlocal hgroup hjoined hout hfull)), rfl, ?_, rfl, ?_⟩
    · rw [State.get_bump_same _ _ _ hok, Nat.min_comm]
      rfl
    · exact sameBut_bump _ (s.taught .b f) _ 1 hok (by simp)
  case kept =>
    intro port f s halive hup hfcs hlen hlocal
    have hswitched := (switchFrame_local s port f hfcs hlen hlocal).trans (taught_toC s port f)
    exact ⟨_, (exec_switchForward s port f halive hup).trans (congrArg _ hswitched), switched_tx _ _ _ _, switched_rest _ _ _ _, switched_net _ _ _ _, switched_fdb _ _ _ _⟩
  case flood =>
    intro port f s halive hup hfcs hlen hlocal hkind hout hroom
    have hswitched : switchFrame s port f = (forwardTo (s.taught port f) port.other f).toC f := by
      rcases hkind with ⟨hgroup, hjoined⟩ | ⟨hgroup, hown, hsrc, hfound⟩
      · rw [switchFrame_group s port f hfcs hlen hlocal hgroup, if_pos hjoined]
      · exact switchFrame_unknown s port f hfcs hlen hlocal hgroup hown ((find?_learn _ _ _ _ _ hsrc).trans hfound)
    rw [forwardTo_queued (s := s.taught port f) hout hroom, taught_send_toC] at hswitched
    exact ⟨_, (exec_switchForward s port f halive hup).trans (congrArg _ hswitched), switched_tx _ _ _ _, switched_rest _ _ _ _, switched_net _ _ _ _, switched_fdb _ _ _ _⟩
  case known =>
    intro port f e s halive hup hfcs hlen hlocal hgroup hown hsrc hfound hout hroom
    have hswitched := switchFrame_known s port f hfcs hlen hlocal hgroup hown ((find?_learn _ _ _ _ _ hsrc).trans hfound)
    by_cases hback : e.port = port
    · rw [if_pos hback, taught_eq_switched] at hswitched
      rw [if_pos hback]
      exact ⟨_, (exec_switchForward s port f halive hup).trans (congrArg _ hswitched), switched_tx _ _ _ _, switched_rest _ _ _ _, switched_net _ _ _ _, switched_fdb _ _ _ _⟩
    · rw [if_neg hback, forwardTo_queued (s := s.taught port f) hout hroom, taught_send] at hswitched
      rw [if_neg hback]
      exact ⟨_, (exec_switchForward s port f halive hup).trans (congrArg _ hswitched), switched_tx _ _ _ _, switched_rest _ _ _ _, switched_net _ _ _ _, switched_fdb _ _ _ _⟩
  case age =>
    intro mac s halive
    refine ⟨_, exec_filteringDatabaseAgeing halive, rfl, rfl⟩
  case topology =>
    intro port ms s halive hon hup
    refine ⟨_, exec_mrpTopologyChange halive hon hup, rfl, rfl⟩
  case flush =>
    intro at_ s halive htopo hdue
    refine ⟨_, exec_mrpFlush halive htopo hdue, rfl, ?_, ?_, rfl, ?_⟩
    · rw [State.flushed, State.get_bump_ne _ _ _ _ (by decide) (by decide), State.get_event_same _ _ (by decide) rfl]
    · rw [State.flushed, State.get_bump_same _ _ _ (by decide), State.get_event_ne _ _ _ (by decide) (by decide), Nat.min_comm]
      rfl
    · exact sameBut_trans (sameBut_event _ (s.modNet _) _ (by decide) (by simp)) (sameBut_bump _ _ _ 1 (by decide) (by simp))
  case echo =>
    intro port src s hlive hsec hfew
    refine ⟨_, exec_icmpEcho hlive, ?_, ?_, ?_⟩
    all_goals rw [if_pos hsec, if_pos hfew]
    · rfl
    · exact congrArg (fun n => { s.net with echoSec := n, echoes := s.net.echoes + 1 }) hsec.symm
    · rfl
  case echoesSpent =>
    intro port src s hlive hsec hmany
    refine ⟨_, exec_icmpEcho hlive, ?_⟩
    rw [if_pos hsec, if_neg (Nat.not_lt.2 hmany)]
  case firstEcho =>
    intro port src s hlive hsec
    refine ⟨_, exec_icmpEcho hlive, ?_, ?_, ?_⟩
    all_goals rw [if_neg hsec, if_pos (by decide)]
    · exact List.length_append
    · rfl
    · rfl
  case query =>
    intro port kind src s hlive hkind
    refine ⟨_, exec_addressQuery hlive (by omega) (by omega), ?_, ?_⟩
    all_goals rw [if_neg (by omega)]
    · rfl
    · rfl
  case arp =>
    intro port src s hlive hip
    refine ⟨_, exec_addressQuery hlive (by decide) (.inr hip), ?_, ?_⟩
    all_goals rw [if_pos rfl]
    · rfl
    · rfl

end Sys2Proof.Machine
end

section
/-!
PROOFS. The station learnt on a port (15 R390): a hello, a failed check and a link down, and what Coppice's choice reaches after them.
-/

namespace Sys2Proof.Machine

/-- No register bit outside the fields of l differs. -/
abbrev RegsFrame (l : List Field) (s t : State) : Prop := ViewFrame (fun _ => ()) l s t

/-- The fields of Coppice's choice (15 R403). -/
def choiceFields : List Field := [CP_ST_STEP, CP_ST_WAIT, CP_ST_CSTN, CP_ST_SRCPORT]

section
variable (s : State) (p : Port)

theorem startFetch_regsFrame (l : List Field) (f : Fetch) : RegsFrame l s (startFetch s p f) :=
  (ViewFrame.refl _ l s).beside (message_regs _ _ _ _ _) rfl

theorem startLook_regsFrame (l : List Field) (o : Nat × Nat) : RegsFrame l s (startLook s p o) :=
  (ViewFrame.refl _ l s).beside (message_regs _ _ _ _ _) rfl

theorem lookAt_regsFrame (l : List Field) (o : Nat × Nat) : RegsFrame l s (lookAt s p o) := by
  unfold lookAt
  exact .ite (.refl _ _ s) (startLook_regsFrame s p l o)

theorem coppiceWait_regsFrame (why : Nat) : RegsFrame choiceFields s (coppiceWait s why) := by
  have hlog : RegsFrame choiceFields s (s.log (.refusal 393)) := (ViewFrame.refl _ _ s).beside rfl rfl
  unfold coppiceWait
  exact .set (.set (.set (.set (.ite hlog (.refl _ _ s)) (by decide) (by decide) rfl) (by decide) (by decide) rfl) (by decide) (by decide) rfl) (by decide) (by decide) rfl

theorem coppiceTake_regsFrame (o : Nat × Nat) : RegsFrame choiceFields s (coppiceTake s p o) := by
  unfold coppiceTake
  refine .trans ?_ (startFetch_regsFrame _ p _ _)
  exact .set (.set (.set (.set (.refl _ _ s) (by decide) (by decide) rfl) (by decide) (by decide) rfl) (by decide) (by decide) rfl) (by decide) (by decide) rfl

theorem coppiceChoose_regsFrame : RegsFrame choiceFields s (coppiceChoose s) := by
  unfold coppiceChoose
  split
  · exact coppiceWait_regsFrame _ _
  · exact coppiceTake_regsFrame _ _ _
  · exact coppiceTake_regsFrame _ _ _
  · refine .ite (coppiceWait_regsFrame _ _) (.ite (coppiceTake_regsFrame _ _ _) ?_)
    split
    · exact .ite (coppiceWait_regsFrame _ _) (.ite (coppiceTake_regsFrame _ _ _) (coppiceTake_regsFrame _ _ _))
    · refine .trans (.trans ?_ (lookAt_regsFrame _ _ _ _)) (lookAt_regsFrame _ _ _ _)
      exact .set (.set (.set (.refl _ _ s) (by decide) (by decide) rfl) (by decide) (by decide) rfl) (by decide) (by decide) rfl

theorem takeOffer_regsFrame (o : Option (Nat × Nat)) : RegsFrame choiceFields s (takeOffer s p o) := by
  have hoffered : RegsFrame choiceFields s ((s.modCust p fun x => { x with offer := o, look := none }).modTally fun t => match p with
      | .a => { t with failA := false }
      | .b => { t with failB := false }) := (ViewFrame.refl _ _ s).beside rfl rfl
  unfold takeOffer
  exact .ite (.refl _ _ s) (.ite (.trans hoffered (coppiceChoose_regsFrame _)) hoffered)

/-- A hello's station and image are shown; what follows reaches Coppice's choice alone. -/
theorem takeHello_regsFrame_after (sender : Nat) (h : Hello) :
    RegsFrame choiceFields ((s.set (nbrStn p) h.stn).set (nbrCstn p) (if h.holds then h.cstn else 0xFE)) (takeHello s p sender h) := by
  have hnoted (t : State) : RegsFrame choiceFields t (noteTdig t p sender h.tdig h.ownValid) := (ViewFrame.refl _ _ t).beside rfl rfl
  have hdeferred (t : State) : RegsFrame choiceFields t (t.modCust p fun x => { x with deferred := true }) := (ViewFrame.refl _ _ t).beside rfl rfl
  have htaken := (hnoted ((s.set (nbrStn p) h.stn).set (nbrCstn p) (if h.holds then h.cstn else 0xFE))).trans (takeOffer_regsFrame _ p (helloOffer h))
  unfold takeHello
  exact .ite (.ite (htaken.trans (startFetch_regsFrame _ p _ _)) (htaken.trans (hdeferred _))) htaken

theorem takeHello_nbrStn (sender : Nat) (h : Hello) : (takeHello s p sender h).get (nbrStn p) = h.stn % 256 := by
  rw [(takeHello_regsFrame_after s p sender h).get _ (by cases p <;> decide), State.get_set_ne _ _ _ _ (nbrCstn_ok p) (by cases p <;> decide),
    State.get_set_same _ _ _ (nbrStn_ok p), nbrStn_width]
  rfl

theorem takeHello_nbrStn_other (sender : Nat) (h : Hello) : (takeHello s p sender h).get (nbrStn p.other) = s.get (nbrStn p.other) := by
  rw [(takeHello_regsFrame_after s p sender h).get _ (by cases p <;> decide), State.get_set_ne _ _ _ _ (nbrCstn_ok p) (by cases p <;> decide),
    State.get_set_ne _ _ _ _ (nbrStn_ok p) (by cases p <;> decide)]

/-- In any mode a link down clears what was learnt on its port, and leaves the other's. -/
theorem custodyLinkDown_regsFrame_after : RegsFrame choiceFields (s.unlearnt p) (custodyLinkDown s p) := by
  unfold custodyLinkDown
  exact .ite (coppiceChoose_regsFrame _) (.refl _ _ _)

theorem portDown_nbrStn_any : (portDown s p).get (nbrStn p) = 0xFE := by
  rw [portDown_eq_linkChange, (linkChange_linkFrame _ p false).get _ (by cases p <;> decide),
    (custodyLinkDown_regsFrame_after _ p).get _ (by cases p <;> decide), unlearnt_nbrStn]

theorem portDown_nbrStn_other : (portDown s p).get (nbrStn p.other) = s.get (nbrStn p.other) := by
  rw [portDown_eq_linkChange, (linkChange_linkFrame _ p false).get _ (by cases p <;> decide),
    (custodyLinkDown_regsFrame_after _ p).get _ (by cases p <;> decide), (unlearnt_frame _ p).get _ (by cases p <;> decide),
    (bereft_frame_after s p).get _ (by cases p <;> decide), (unlinked_frame s p).get _ (by cases p <;> decide)]

end

/-- The events and counts of the checks of 14 R353. -/
def checkFields : List Field := [CY_EVT_BADMSG, CY_CNT_BADMSG, CY_EVT_AUTHFAIL, CY_CNT_AUTHFAIL, CY_EVT_REPLAY, CY_CNT_REPLAY]

/-- A datagram that fails a check leaves its event and its count alone. -/
theorem cyCheck_failed_regsFrame (s : State) (d : Datagram) (h : (cyCheck s d).1 = false) : RegsFrame checkFields s (cyCheck s d).2 := by
  have hfail (evt cnt : Field) (he : evt ∈ checkFields) (hc : cnt ∈ checkFields) (hok : evt.ok) (hok' : cnt.ok) : RegsFrame checkFields s (cyFail s evt cnt) :=
    .bump (.event (.refl _ _ s) he hok rfl) hc hok' rfl
  unfold cyCheck at h ⊢
  split
  · exact .refl _ _ s
  · split
    · exact hfail _ _ (by decide) (by decide) (by decide) (by decide)
    · split
      · exact hfail _ _ (by decide) (by decide) (by decide) (by decide)
      · split
        · exact hfail _ _ (by decide) (by decide) (by decide) (by decide)
        · split
          · exact hfail _ _ (by decide) (by decide) (by decide) (by decide)
          · simp_all

theorem notePeer_regsFrame (s : State) (d : Datagram) : RegsFrame [] s (notePeer s d) := by
  unfold notePeer
  exact .ite ((ViewFrame.refl _ _ s).beside rfl rfl) (.refl _ _ s)

theorem exec_custodyHelloReceive_accepted {port : Port} {d : Datagram} {s : State} (htyp : d.typ = 0x40) (hcheck : (cyCheck s d).1 = true) :
    exec (.custodyHelloReceive port d) s =
      .next (takeHello (notePeer (s.modNet fun n => { n with replay := acceptMseq n.replay d s.pwr.ticks }) d) port d.sender (helloOf (plain s d))) := by
  change Host.Outcome.next (receive s d 0x40 _) = _
  rw [receive_accepted s d 0x40 _ htyp hcheck]

/-- Settles O54: after a hello's station is set only Coppice's choice is (`takeHello_regsFrame_after`), a failed check reaches its counters alone, and a link down clears what `unlearnt` clears. -/
theorem theStationLearntIsThatOfTheLastGoodHello : Obligations.TheStationLearntIsThatOfTheLastGoodHello := by
  unfold Obligations.TheStationLearntIsThatOfTheLastGoodHello
  refine ⟨?_, ?_, ?_⟩
  · rintro port d h s htyp hcheck rfl
    have hnoted := notePeer_regsFrame (s.modNet fun n => { n with replay := acceptMseq n.replay d s.pwr.ticks }) d
    refine ⟨_, exec_custodyHelloReceive_accepted htyp hcheck, takeHello_nbrStn _ port _ _, ?_⟩
    exact (takeHello_nbrStn_other _ port _ _).trans (hnoted.get _ (by simp))
  · intro port d s htyp hcheck
    have hframe := cyCheck_failed_regsFrame s d hcheck
    refine ⟨(cyCheck s d).2, ?_, hframe.get _ (by decide), hframe.get _ (by decide)⟩
    change Host.Outcome.next (receive s d 0x40 _) = _
    unfold receive
    rw [if_pos htyp, hcheck]
    rfl
  · intro port s halive hup
    exact ⟨_, exec_portLinkDown halive hup, portDown_nbrStn_any s port, portDown_nbrStn_other s port⟩

end Sys2Proof.Machine
end

section
/-!
PROOFS. The interrupt lines (18 R449, R455): what bringing IC_ST.LINE and the signalled latches up to date shows, and that it reaches nothing else.
-/

namespace Sys2Proof.Machine

/-- The fields that follow the targets' lines. -/
def lineFields : List Field := [IC_ST_LINE, IC_ST_SLEEP, IC_TST_SIGNALLED 0, IC_TST_SIGNALLED 1, IC_TST_SIGNALLED 2, IC_TST_SIGNALLED 3]

/-- Registers outside the status word and the targets' words are apart from what follows the lines. -/
theorem lineFields_apart {g : Field} (h : g.word < 0x1638 ∨ 0x1639 ≤ g.word ∧ g.word < 0x16E1 ∨ 0x16E8 ≤ g.word) : ∀ f ∈ lineFields, f.apart g := by
  intro f hf
  simp only [lineFields, IC_ST_LINE, IC_ST_SLEEP, IC_TST_SIGNALLED, List.mem_cons, List.not_mem_nil, or_false] at hf
  rcases hf with rfl | rfl | rfl | rfl | rfl | rfl
  all_goals
    left
    dsimp only
    omega

theorem signalled_mem (t : Fin 4) : IC_TST_SIGNALLED t ∈ lineFields := by decide +revert

theorem State.bit_eq_testBit (s : State) (f : Field) (h : f.width = 1) : s.bit f = (s.word f.word).getLsbD f.lo := by
  have hbit := testBit_getBits (s.word f.word) f.lo f.width 0
  have hlt := getBits_lt (s.word f.word) f.lo f.width
  rw [h] at hbit hlt
  have hone : getBits (s.word f.word) f.lo 1 = 0 ∨ getBits (s.word f.word) f.lo 1 = 1 := by omega
  simp only [Nat.lt_one_iff, decide_true, Bool.true_and, Nat.add_zero] at hbit
  rw [← hbit, State.bit, State.get, h]
  rcases hone with h0 | h1
  · rw [h0]
    rfl
  · rw [h1]
    rfl

/-- The field of bit n of a set of 160 bits. -/
def irqField (base n : Nat) : Field := ⟨base + n / 32, n % 32, 1⟩

theorem irqField_ok (base n : Nat) : (irqField base n).ok := by
  have h := Nat.mod_lt n (show 0 < 32 by decide)
  change n % 32 + 1 ≤ 32
  omega

theorem irqBit_eq_bit (s : State) (base n : Nat) : irqBit s base n = s.bit (irqField base n) := (State.bit_eq_testBit s (irqField base n) rfl).symm

theorem setIrqBit_eq (s : State) (base n : Nat) (b : Bool) : setIrqBit s base n b = s.setB (irqField base n) b := rfl

section
variable {l : List Field} {s t : State}

/-- What decides whether a source asserts a target's line is in the sources' words, the bit sets and the world map. -/
theorem irqQualifies_of_frame (h : RegFrame lineFields s t) (u : Fin 4) (secure : Bool) {n : Nat} (hn : n < 160) :
    irqQualifies t u secure n = irqQualifies s u secure n := by
  have hbits (base : Nat) (hb : base + 5 ≤ 0x1638) : irqBit t base n = irqBit s base n := by
    rw [irqBit_eq_bit, irqBit_eq_bit]
    exact h.bit _ (lineFields_apart (.inl (by change base + n / 32 < 0x1638; omega)))
  have htgt : t.get (IC_SRC_TGT n) = s.get (IC_SRC_TGT n) := h.get _ (lineFields_apart (.inr (.inl (by change 0x1639 ≤ 0x1640 + n ∧ 0x1640 + n < 0x16E1; omega))))
  have hworld : t.bit (IC_SRC_WORLD n) = s.bit (IC_SRC_WORLD n) := h.bit _ (lineFields_apart (.inr (.inl (by change 0x1639 ≤ 0x1640 + n ∧ 0x1640 + n < 0x16E1; omega))))
  simp only [irqQualifies, irqWorld, irqSecure, hbits 0x1600 (by decide), hbits 0x1610 (by decide), hbits 0x1620 (by decide), htgt, hworld]

theorem targetSecure_of_frame (h : RegFrame lineFields s t) (u : Fin 4) : targetSecure t u = targetSecure s u := by
  have hmap : t.get WK_MAPB_BLOCKS = s.get WK_MAPB_BLOCKS := h.get _ (by decide)
  simp only [targetSecure, procSecure, hmap]

theorem irqNext_of_frame (h : RegFrame lineFields s t) (u : Fin 4) (secure : Bool) : irqNext t u secure = irqNext s u secure :=
  List.find?_congr fun _ hn => irqQualifies_of_frame h u secure (List.mem_range.1 hn)

theorem RegFrame.bus (h : RegFrame l s t) : t.bus = s.bus := (congrArg (fun x : State => x.bus) h.kept :)

theorem irqLine_of_frame (h : RegFrame lineFields s t) (u : Fin 4) : irqLine t u = irqLine s u := by
  unfold irqLine
  rw [h.bus, targetSecure_of_frame h, irqNext_of_frame h]

end

/-! ### One target's line -/

/-- Show target t's line. -/
def showLine (s : State) (t : Fin 4) : State :=
  let was := (s.get IC_ST_LINE).testBit t
  let is := irqLine s t
  let s := if is && !was then s.set (IC_TST_SIGNALLED t) 1 else s
  let s := if is then wakeTarget s t else s
  s.set IC_ST_LINE (withBit (s.get IC_ST_LINE) t is)

theorem irqLines_eq (s : State) : irqLines s = (List.finRange 4).foldl showLine s := rfl

theorem signalled_apart_line (t : Fin 4) : ∀ f ∈ [IC_TST_SIGNALLED t, IC_ST_SLEEP], f.apart IC_ST_LINE := by decide +revert
theorem signalled_apart_other (t u : Fin 4) (h : u ≠ t) : ∀ f ∈ [IC_TST_SIGNALLED t, IC_ST_SLEEP], f.apart (IC_TST_SIGNALLED u) := by decide +revert
theorem line_apart_signalled (u : Fin 4) : IC_ST_LINE.apart (IC_TST_SIGNALLED u) := by decide +revert
theorem sleep_apart_signalled (u : Fin 4) : ∀ f ∈ [IC_ST_SLEEP], f.apart (IC_TST_SIGNALLED u) := by decide +revert

/-- Target t's latch and sleep, before its line is shown. -/
def State.signalled (s : State) (t : Fin 4) : State :=
  let s' := if irqLine s t && !(s.get IC_ST_LINE).testBit t then s.set (IC_TST_SIGNALLED t) 1 else s
  if irqLine s t then wakeTarget s' t else s'

theorem showLine_eq (s : State) (t : Fin 4) : showLine s t = (s.signalled t).set IC_ST_LINE (withBit ((s.signalled t).get IC_ST_LINE) t (irqLine s t)) := rfl

section
variable (s : State) (t u : Fin 4)

theorem wakeTarget_frame : RegFrame [IC_ST_SLEEP] s (wakeTarget s t) := by
  unfold wakeTarget
  exact .ite (RegFrame.set (.refl _ _ s) (by simp) (by decide)) (.refl _ _ s)

theorem signalled_frame : RegFrame [IC_TST_SIGNALLED t, IC_ST_SLEEP] s (s.signalled t) := by
  have hlatched : RegFrame [IC_TST_SIGNALLED t, IC_ST_SLEEP] s (if irqLine s t && !(s.get IC_ST_LINE).testBit t then s.set (IC_TST_SIGNALLED t) 1 else s) :=
    .ite (RegFrame.set (.refl _ _ s) (by simp) (show 8 + 1 ≤ 32 by decide)) (.refl _ _ s)
  unfold State.signalled
  exact .ite (hlatched.trans ((wakeTarget_frame _ t).mono (by simp))) hlatched

theorem showLine_frame : RegFrame lineFields s (showLine s t) := by
  rw [showLine_eq]
  refine RegFrame.set ((signalled_frame s t).mono ?_) (by decide) (by decide)
  intro f hf
  simp only [List.mem_cons, List.not_mem_nil, or_false] at hf
  rcases hf with rfl | rfl
  · exact signalled_mem t
  · decide

theorem irqLines_frame : RegFrame lineFields s (irqLines s) := ViewFrame.foldl showLine_frame _ s

/-- Putting a bit of a field of four puts that bit and leaves the others. -/
theorem testBit_withBit (n : Nat) (hn : n < 16) (b : Bool) : (withBit n t b % 16).testBit u = if u = t then b else n.testBit u := by
  revert n b
  decide +revert

theorem showLine_line : ((showLine s t).get IC_ST_LINE).testBit u = if u = t then irqLine s t else (s.get IC_ST_LINE).testBit u := by
  have hkept : (s.signalled t).get IC_ST_LINE = s.get IC_ST_LINE := (signalled_frame s t).get _ (signalled_apart_line t)
  rw [showLine_eq, State.get_set_same _ _ _ (by decide), hkept]
  exact testBit_withBit t u _ (getBits_lt _ _ _) _

theorem showLine_signalled_ne (h : u ≠ t) : (showLine s t).get (IC_TST_SIGNALLED u) = s.get (IC_TST_SIGNALLED u) := by
  rw [showLine_eq, State.get_set_ne _ _ _ _ (by decide) (line_apart_signalled _)]
  exact (signalled_frame s t).get _ (signalled_apart_other t u h)

theorem showLine_signalled : (showLine s t).get (IC_TST_SIGNALLED t) = if irqLine s t && !(s.get IC_ST_LINE).testBit t then 1 else s.get (IC_TST_SIGNALLED t) := by
  have hwake (x : State) : (wakeTarget x t).get (IC_TST_SIGNALLED t) = x.get (IC_TST_SIGNALLED t) := (wakeTarget_frame x t).get _ (sleep_apart_signalled t)
  have hset : (s.set (IC_TST_SIGNALLED t) 1).get (IC_TST_SIGNALLED t) = 1 := State.get_set_same _ _ _ (show 8 + 1 ≤ 32 by decide)
  rw [showLine_eq, State.get_set_ne _ _ _ _ (by decide) (line_apart_signalled _), State.signalled]
  cases irqLine s t with
  | false => rfl
  | true =>
    cases (s.get IC_ST_LINE).testBit t with
    | false => exact (hwake _).trans hset
    | true => exact hwake _

end

/-! ### All targets' lines -/

/-- The lines of the targets that are shown are up to date, whatever the order. -/
theorem foldl_showLine_line (u : Fin 4) (l : List (Fin 4)) (s : State) :
    ((l.foldl showLine s).get IC_ST_LINE).testBit u = if u ∈ l then irqLine s u else (s.get IC_ST_LINE).testBit u := by
  induction l generalizing s with
  | nil => rfl
  | cons t l ih =>
    rw [List.foldl_cons, ih, irqLine_of_frame (showLine_frame s t), showLine_line]
    by_cases hu : u = t
    · subst hu
      simp
    · simp [hu]

/-- A line that rises sets its latch (18 R449). -/
theorem foldl_showLine_signalled (u : Fin 4) (l : List (Fin 4)) (s : State) :
    (l.foldl showLine s).get (IC_TST_SIGNALLED u) = if u ∈ l ∧ irqLine s u = true ∧ (s.get IC_ST_LINE).testBit u = false then 1 else s.get (IC_TST_SIGNALLED u) := by
  induction l generalizing s with
  | nil => simp
  | cons t l ih =>
    rw [List.foldl_cons, ih, irqLine_of_frame (showLine_frame s t), showLine_line]
    by_cases hu : u = t
    · subst hu
      rw [showLine_signalled]
      cases irqLine s u <;> simp
    · rw [showLine_signalled_ne s t u hu]
      simp [hu]

theorem irqLines_line (s : State) (u : Fin 4) : ((irqLines s).get IC_ST_LINE).testBit u = irqLine s u := by
  rw [irqLines_eq, foldl_showLine_line, if_pos (List.mem_finRange u)]

theorem irqLines_signalled (s : State) (u : Fin 4) :
    (irqLines s).get (IC_TST_SIGNALLED u) = if irqLine s u = true ∧ (s.get IC_ST_LINE).testBit u = false then 1 else s.get (IC_TST_SIGNALLED u) := by
  rw [irqLines_eq, foldl_showLine_signalled]
  simp

/-- A register outside the status word and the targets' words reads as before. -/
theorem irqLines_get (s : State) (g : Field) (h : g.word < 0x1638 ∨ 0x1639 ≤ g.word ∧ g.word < 0x16E1 ∨ 0x16E8 ≤ g.word) : (irqLines s).get g = s.get g :=
  (irqLines_frame s).get g (lineFields_apart h)

theorem irqLines_irqBit (s : State) (base n : Nat) (hb : base + n / 32 < 0x1638) : irqBit (irqLines s) base n = irqBit s base n := by
  rw [irqBit_eq_bit, irqBit_eq_bit]
  exact (irqLines_frame s).bit _ (lineFields_apart (.inl hb))

/-! ### Counts and pending bits (18 R447) -/

/-- The fields of a source's count. -/
def eventFields (n : Nat) : List Field := [IC_SRC_ACC n, IC_OVF, IC_SRC_SAT n, IC_EVT_ACCSAT]

theorem srcAcc_ok (n : Nat) : (IC_SRC_ACC n).ok := show 12 + 20 ≤ 32 by decide
theorem srcSat_ok (n : Nat) : (IC_SRC_SAT n).ok := show 11 + 1 ≤ 32 by decide

section
variable (s : State) (n c : Nat)

theorem irqCount_below (h : s.get (IC_SRC_ACC n) + c ≤ 0xFFFFF) : irqCount s n c = s.set (IC_SRC_ACC n) (s.get (IC_SRC_ACC n) + c) := if_pos h

theorem irqCount_beyond (h : ¬s.get (IC_SRC_ACC n) + c ≤ 0xFFFFF) :
    irqCount s n c = (((s.set (IC_SRC_ACC n) 0xFFFFF).set IC_OVF (s.get IC_OVF + (s.get (IC_SRC_ACC n) + c - 0xFFFFF))).set (IC_SRC_SAT n) 1).event IC_EVT_ACCSAT :=
  if_neg h

theorem irqCount_frame : RegFrame (eventFields n) s (irqCount s n c) := by
  unfold irqCount
  exact .ite (RegFrame.set (.refl _ _ s) (by simp [eventFields]) (srcAcc_ok n))
    (RegFrame.event (RegFrame.set (RegFrame.set (RegFrame.set (.refl _ _ s) (by simp [eventFields]) (srcAcc_ok n)) (by simp [eventFields]) (by decide))
      (by simp [eventFields]) (srcSat_ok n)) (by simp [eventFields]) (by decide))

/-- A source's other fields, and registers outside the sources' words and the overflow's, are apart from its count. -/
theorem eventFields_apart {n : Nat} {g : Field} (h : g.word < 0x1639 ∨ (g.word ≠ 0x1640 + n ∧ 0x163C ≤ g.word) ∨ (g.word = 0x1640 + n ∧ g.lo + g.width ≤ 11)) :
    ∀ f ∈ eventFields n, f.apart g := by
  intro f hf
  simp only [eventFields, List.mem_cons, List.not_mem_nil, or_false] at hf
  rcases hf with rfl | rfl | rfl | rfl <;> simp only [Field.apart, IC_SRC_ACC, IC_OVF, IC_SRC_SAT, IC_EVT_ACCSAT] <;> omega

theorem irqCount_acc : (irqCount s n c).get (IC_SRC_ACC n) = min 0xFFFFF (s.get (IC_SRC_ACC n) + c) := by
  have hout : ∀ f ∈ [IC_OVF, IC_SRC_SAT n, IC_EVT_ACCSAT], f.apart (IC_SRC_ACC n) := by
    intro f hf
    simp only [List.mem_cons, List.not_mem_nil, or_false] at hf
    rcases hf with rfl | rfl | rfl <;> simp only [Field.apart, IC_SRC_ACC, IC_OVF, IC_SRC_SAT, IC_EVT_ACCSAT] <;> omega
  by_cases h : s.get (IC_SRC_ACC n) + c ≤ 0xFFFFF
  · rw [irqCount_below s n c h, State.get_set_same _ _ _ (srcAcc_ok n), Nat.min_eq_right h]
    exact Nat.mod_eq_of_lt (show _ < 2 ^ 20 by omega)
  · rw [irqCount_beyond s n c h, State.get_event_ne _ _ _ (by decide) (hout _ (by simp)), State.get_set_ne _ _ _ _ (srcSat_ok n) (hout _ (by simp)),
      State.get_set_ne _ _ _ _ (by decide) (hout _ (by simp)), State.get_set_same _ _ _ (srcAcc_ok n), Nat.min_eq_left (by omega)]
    rfl

theorem irqCount_acc_ne {m : Nat} (h : m ≠ n) : (irqCount s n c).get (IC_SRC_ACC m) = s.get (IC_SRC_ACC m) := by
  refine (irqCount_frame s n c).get _ (eventFields_apart (.inr (.inl ⟨?_, ?_⟩)))
  · change 0x1640 + m ≠ 0x1640 + n
    omega
  · change 0x163C ≤ 0x1640 + m
    omega

variable (base : Nat) (b : Bool)

theorem setIrqBit_frame : RegFrame [irqField base n] s (setIrqBit s base n b) :=
  RegFrame.set (.refl _ _ s) List.mem_cons_self (irqField_ok base n)

theorem setIrqBit_irqBit (m : Nat) : irqBit (setIrqBit s base n b) base m = if m = n then b else irqBit s base m := by
  rw [irqBit_eq_bit, irqBit_eq_bit, setIrqBit_eq]
  by_cases h : m = n
  · rw [if_pos h, h, State.bit_setB_same _ _ _ (irqField_ok base n) rfl]
  · rw [if_neg h]
    refine State.bit_setB_ne _ _ _ _ (irqField_ok base n) ?_
    simp only [Field.apart, irqField]
    omega

/-- A register apart from the words of a bit set reads as before a bit is put. -/
theorem setIrqBit_get (g : Field) (h : g.word ≠ base + n / 32) : (setIrqBit s base n b).get g = s.get g :=
  (setIrqBit_frame s n base b).get g (by simpa [Field.apart, irqField] using .inl h.symm)

theorem setIrqBit_irqBit_ne (base' m : Nat) (h : base' + m / 32 ≠ base + n / 32) : irqBit (setIrqBit s base n b) base' m = irqBit s base' m := by
  rw [irqBit_eq_bit, irqBit_eq_bit]
  simp only [State.bit, setIrqBit_get s n base b (irqField base' m) h]

theorem pendEvent_eq : pendEvent s n = (setIrqBit s 0x1610 n true).noted (noteFresh s.fresh (pendBit n) (s.get (pendBit n)) 1) := rfl

theorem pendEvent_frame : RegFrame [irqField 0x1610 n] s (pendEvent s n) := (setIrqBit_frame s n 0x1610 true).beside rfl rfl

theorem pendEvent_irqBit (m : Nat) : irqBit (pendEvent s n) 0x1610 m = if m = n then true else irqBit s 0x1610 m := setIrqBit_irqBit s n 0x1610 true m

theorem pendEvent_get (g : Field) (h : g.word ≠ 0x1610 + n / 32) : (pendEvent s n).get g = s.get g := setIrqBit_get s n 0x1610 true g h

end

/-! ### An edge (18 R447, R454) -/

section
variable (s : State) (n : Nat)

/-- An edge's count, as an event of the tick. -/
def State.edgeCounted : State :=
  (irqCount s n 1).noted (noteFresh (irqCount s n 1).fresh (IC_SRC_ACC n) (s.get (IC_SRC_ACC n)) ((irqCount s n 1).get (IC_SRC_ACC n) - s.get (IC_SRC_ACC n)))

theorem edgeCounted_regs : (s.edgeCounted n).regs = (irqCount s n 1).regs := rfl
theorem edgeCounted_get (g : Field) : (s.edgeCounted n).get g = (irqCount s n 1).get g := rfl
theorem edgeCounted_bus : (s.edgeCounted n).bus = s.bus := (irqCount_frame s n 1).bus
theorem edgeCounted_frame : RegFrame (eventFields n) s (s.edgeCounted n) := (irqCount_frame s n 1).beside rfl rfl

/-- With room in its count the edge changes the count alone. -/
theorem edgeCounted_frame_below (h : s.get (IC_SRC_ACC n) < 0xFFFFF) : RegFrame [IC_SRC_ACC n] s (s.edgeCounted n) := by
  have hset : RegFrame [IC_SRC_ACC n] s (irqCount s n 1) := by
    rw [irqCount_below s n 1 (by omega)]
    exact RegFrame.set (.refl _ _ s) (by simp) (srcAcc_ok n)
  exact hset.beside rfl rfl

theorem edgeCounted_acc_below (h : s.get (IC_SRC_ACC n) < 0xFFFFF) : (s.edgeCounted n).get (IC_SRC_ACC n) = s.get (IC_SRC_ACC n) + 1 := by
  rw [edgeCounted_get, irqCount_acc, Nat.min_eq_right (by omega)]

theorem irqEdge_ungrouped (h : s.get (IC_SRC_GROUP n) = 0) : irqEdge s n = irqLines (pendEvent (s.edgeCounted n) n) := by
  unfold irqEdge irqEdgeEvent
  dsimp only
  rw [h]
  rfl

theorem irqEdge_grouped (g : Fin 16) (h : s.get (IC_SRC_GROUP n) = g.val + 1) : irqEdge s n = irqLines (groupEdge (s.edgeCounted n) g) := by
  have hg : Fin.ofNat 16 (g.val + 1 - 1) = g := by
    apply Fin.ext
    change (g.val + 1 - 1) % 16 = g.val
    omega
  unfold irqEdge irqEdgeEvent
  dsimp only
  rw [h, hg]
  rfl

/-- Sensing a line reaches the bus alone. -/
theorem senseLine_word (a : Nat) : (senseLine s n).word a = s.word a := rfl
theorem senseLine_get (g : Field) : (senseLine s n).get g = s.get g := rfl
theorem senseLine_rest : { senseLine s n with bus := s.bus } = s := rfl

theorem senseLine_pulses : (senseLine s n).bus.pulses = if irqPulse n then s.bus.pulses.erase n else s.bus.pulses := by
  unfold senseLine
  split
  · rfl
  · rfl

theorem senseLine_sensed : (senseLine s n).bus.sensed = if irqPulse n then s.bus.sensed else n :: s.bus.sensed := by
  unfold senseLine
  split
  · rfl
  · rfl

theorem senseLine_bus : { (senseLine s n).bus with pulses := s.bus.pulses, sensed := s.bus.sensed } = s.bus := by
  unfold senseLine
  split
  · rfl
  · rfl

end

theorem RegFrame.rest_of_senseLine {l : List Field} {s t : State} {n : Nat} (h : RegFrame l (senseLine s n) t) :
    { t with regs := s.regs, bus := s.bus, fresh := s.fresh } = s :=
  (congrArg (fun x : State => { x with regs := s.regs, bus := s.bus, fresh := s.fresh }) h.kept :)

theorem exec_irqSourceEdge {s : State} {n : Fin 160} (halive : s.alive = true) (hn : n.val < 128) (hlisted : irqListed n = true) (hrose : lineRose s n = true) :
    exec (.irqSourceEdge n) s = .next (irqEdge (senseLine s n) n) := by
  change execIrqSourceEdge n s = _
  rw [execIrqSourceEdge, if_pos (by simp [halive, hn, hlisted, hrose])]

end Sys2Proof.Machine
end

section
/-!
PROOFS. The interrupt controller's operations on sources (18 R447 to R454): a group that fires, and writes of the pending and enable words.
-/

namespace Sys2Proof.Machine

/-! ### Folds over sources -/

/-- A reading that an operation leaves when it is about another source is that of its one operation, wherever in the list that stands. -/
theorem foldl_read_at {α : Type} {f : State → Nat → State} {r : State → α} {m : Nat} (hne : ∀ s n, n ≠ m → r (f s n) = r s)
    (hcongr : ∀ s t, r s = r t → r (f s m) = r (f t m)) (l : List Nat) (hl : l.Nodup) (s : State) :
    r (l.foldl f s) = if m ∈ l then r (f s m) else r s := by
  induction l generalizing s with
  | nil => rfl
  | cons n l ih =>
    obtain ⟨hn, hl⟩ := List.nodup_cons.1 hl
    rw [List.foldl_cons, ih hl]
    by_cases hm : m = n
    · subst hm
      rw [if_neg hn, if_pos List.mem_cons_self]
    · rw [hne s n (Ne.symm hm), hcongr _ _ (hne s n (Ne.symm hm))]
      simp [hm]

/-- The fields of the pending bits of the 160 sources. -/
def pendFields : List Field := (List.range 5).map fun j => wholeWord (0x1610 + j)

theorem pendFields_apart {g : Field} (h : g.word < 0x1610 ∨ 0x1615 ≤ g.word) : ∀ f ∈ pendFields, f.apart g := by
  intro f hf
  obtain ⟨j, hj, rfl⟩ := List.mem_map.1 hf
  have hlt := List.mem_range.1 hj
  left
  change 0x1610 + j ≠ g.word
  omega

theorem pendField_inside {n : Nat} (hn : n < 160) : ∀ f ∈ [irqField 0x1610 n], ∃ g ∈ pendFields, f.inside g := by
  intro f hf
  obtain rfl := List.mem_singleton.1 hf
  refine ⟨wholeWord (0x1610 + n / 32), List.mem_map.2 ⟨n / 32, List.mem_range.2 (by omega), rfl⟩, rfl, Nat.zero_le _, ?_⟩
  change n % 32 + 1 ≤ 0 + 32
  omega

/-- The state beside the registers and the interrupt controller's hidden state. -/
def besideBus (s : State) : State := { s with regs := [], bus := {}, fresh := [] }

/-- Only fields of l differ, and the interrupt controller's hidden state. -/
abbrev BusFrame (l : List Field) (s t : State) : Prop := ViewFrame besideBus l s t

theorem RegFrame.busFrame {l : List Field} {s t : State} (h : RegFrame l s t) : BusFrame l s t :=
  ⟨h.regs, (congrArg (fun x : State => { x with bus := {} }) h.kept :)⟩

theorem BusFrame.rest {l : List Field} {s t : State} (h : BusFrame l s t) : { t with regs := s.regs, bus := s.bus, fresh := s.fresh } = s :=
  (congrArg (fun x : State => { x with regs := s.regs, bus := s.bus, fresh := s.fresh }) h.kept :)

/-! ### A group fires (18 R454) -/

section
variable (g : Fin 16) (s : State)

/-- Source n is a member of group g with events. -/
def groupCounts (s : State) (g : Fin 16) (n : Nat) : Bool := s.get (IC_SRC_GROUP n) == g.val + 1 && s.get (IC_SRC_ACC n) != 0

/-- A member with events becomes pending. -/
def fireMember (s : State) (n : Nat) : State := if s.get (IC_SRC_GROUP n) = g.val + 1 ∧ s.get (IC_SRC_ACC n) ≠ 0 then pendEvent s n else s

theorem groupFire_eq : groupFire s g = setGroupAt (((List.range 160).foldl (fireMember g) s).set (IC_GST_CUR g) 0) g none := rfl

theorem fireMember_eq (n : Nat) : fireMember g s n = if groupCounts s g n then pendEvent s n else s := by
  unfold fireMember groupCounts
  simp

theorem fireMember_frame {n : Nat} (hn : n < 160) : RegFrame pendFields s (fireMember g s n) := by
  have hpend := pendEvent_frame s n
  rw [fireMember_eq]
  exact .ite ⟨sameBut_inside hpend.regs (pendField_inside hn), hpend.kept⟩ (.refl _ _ s)

theorem foldl_fireMember_frame (l : List Nat) (hl : ∀ n ∈ l, n < 160) : RegFrame pendFields s (l.foldl (fireMember g) s) :=
  List.foldlRecOn l (fireMember g) (motive := fun t => RegFrame pendFields s t) (.refl _ _ s) fun t ht n hn => ht.trans (fireMember_frame g t (hl n hn))

theorem groupCounts_of_frame {t : State} (h : RegFrame pendFields s t) (n : Nat) : groupCounts t g n = groupCounts s g n := by
  have hword (f : Field) (hf : f.word = 0x1640 + n) : t.get f = s.get f := h.get f (pendFields_apart (.inr (by omega)))
  rw [groupCounts, groupCounts, hword _ rfl, hword _ rfl]

/-- Every member with events in the list is pending, and no other source becomes so. -/
theorem foldl_fireMember_irqBit (m : Nat) (l : List Nat) (hl : ∀ n ∈ l, n < 160) :
    irqBit (l.foldl (fireMember g) s) 0x1610 m = (irqBit s 0x1610 m || (decide (m ∈ l) && groupCounts s g m)) := by
  induction l generalizing s with
  | nil => simp
  | cons n l ih =>
    have hfired : irqBit (fireMember g s n) 0x1610 m = (irqBit s 0x1610 m || (decide (m = n) && groupCounts s g m)) := by
      rw [fireMember_eq]
      by_cases hm : m = n
      · subst hm
        cases hc : groupCounts s g m with
        | false => simp
        | true => simp [pendEvent_irqBit]
      · cases groupCounts s g n with
        | false => simp [hm]
        | true => simp [pendEvent_irqBit, hm]
    rw [List.foldl_cons, ih _ fun k hk => hl k (List.mem_cons_of_mem _ hk), hfired, groupCounts_of_frame g s (fireMember_frame g s (hl n List.mem_cons_self))]
    by_cases hm : m = n
    · subst hm
      cases irqBit s 0x1610 m <;> cases groupCounts s g m <;> simp
    · simp [hm]

theorem gstCur_ok : (IC_GST_CUR g).ok := show 24 + 8 ≤ 32 by decide

/-- The pending bits after a group has fired. -/
theorem groupFire_irqBit {m : Nat} (hm : m < 160) : irqBit (groupFire s g) 0x1610 m = (irqBit s 0x1610 m || groupCounts s g m) := by
  have hfired := foldl_fireMember_irqBit g s m (List.range 160) fun n hn => List.mem_range.1 hn
  have hcur : irqBit (groupFire s g) 0x1610 m = irqBit ((List.range 160).foldl (fireMember g) s) 0x1610 m := by
    rw [irqBit_eq_bit, irqBit_eq_bit]
    have hkept := State.get_set_ne ((List.range 160).foldl (fireMember g) s) (IC_GST_CUR g) (irqField 0x1610 m) 0 (gstCur_ok g)
      (.inl (by change 0x1628 + g.val ≠ 0x1610 + m / 32; omega))
    exact congrArg (· == 1) hkept
  rw [hcur, hfired, decide_eq_true (List.mem_range.2 hm), Bool.true_and]

theorem groupFire_frame : BusFrame (IC_GST_CUR g :: pendFields) s (groupFire s g) := by
  have hfired := foldl_fireMember_frame g s (List.range 160) fun n hn => List.mem_range.1 hn
  have hset := RegFrame.set (n := 0) (hfired.mono fun f hf => List.mem_cons_of_mem _ hf) List.mem_cons_self (gstCur_ok g)
  rw [groupFire_eq]
  exact hset.busFrame.beside rfl rfl

theorem groupFire_cur : (groupFire s g).get (IC_GST_CUR g) = 0 := State.get_set_same _ _ _ (gstCur_ok g)

theorem groupFire_groupAt : (groupFire s g).bus.groupAt[g] = none := by
  change (Vector.set _ g.val none g.isLt)[g.val] = none
  exact Vector.getElem_set_self g.isLt

theorem groupFire_acc (n : Nat) : (groupFire s g).get (IC_SRC_ACC n) = s.get (IC_SRC_ACC n) := by
  refine (groupFire_frame g s).get _ fun f hf => ?_
  rcases List.mem_cons.1 hf with rfl | hf
  · left
    change 0x1628 + g.val ≠ 0x1640 + n
    omega
  · exact pendFields_apart (.inr (by change 0x1615 ≤ 0x1640 + n; omega)) f hf

end

/-! ### A member's edge in its group (18 R454) -/

section
variable (g : Fin 16) (s : State)

/-- The first edge starts the group's timer. -/
def State.groupStarted : State := if s.bus.groupAt[g].isNone then setGroupAt s g (some s.pwr.ticks) else s

/-- A member's edge is counted in its group. -/
def State.groupCounted : State := (s.groupStarted g).bump (IC_GST_CUR g) 1

theorem groupEdge_eq :
    groupEdge s g = if (s.groupCounted g).get (IC_GCFG_COUNT g) ≤ (s.groupCounted g).get (IC_GST_CUR g) then groupFire (s.groupCounted g) g else s.groupCounted g := rfl

theorem groupStarted_busFrame (l : List Field) : BusFrame l s (s.groupStarted g) := by
  unfold State.groupStarted
  exact .ite ((ViewFrame.refl _ _ s).beside rfl rfl) (.refl _ _ s)

theorem groupStarted_regs : (s.groupStarted g).regs = s.regs := by
  unfold State.groupStarted
  split
  · rfl
  · rfl

theorem groupStarted_bus : { (s.groupStarted g).bus with groupAt := s.bus.groupAt } = s.bus := by
  unfold State.groupStarted
  split
  · rfl
  · rfl

theorem groupStarted_groupAt : (s.groupStarted g).bus.groupAt[g] = s.bus.groupAt[g].or (some s.pwr.ticks) := by
  unfold State.groupStarted
  cases h : s.bus.groupAt[g] with
  | none => exact Vector.getElem_set_self g.isLt
  | some x => exact h

theorem groupStarted_groupAt_ne (h : Fin 16) (hne : h ≠ g) : (s.groupStarted g).bus.groupAt[h] = s.bus.groupAt[h] := by
  unfold State.groupStarted
  split
  · exact Vector.getElem_set_ne g.isLt h.isLt fun e => hne (Fin.ext e.symm)
  · rfl

theorem groupCounted_busFrame : BusFrame [IC_GST_CUR g] s (s.groupCounted g) :=
  ViewFrame.bump (groupStarted_busFrame g s _) List.mem_cons_self (gstCur_ok g) rfl

theorem groupCounted_bus : (s.groupCounted g).bus = (s.groupStarted g).bus := rfl

theorem groupCounted_cur (h : s.get (IC_GST_CUR g) < 255) : (s.groupCounted g).get (IC_GST_CUR g) = s.get (IC_GST_CUR g) + 1 := by
  have hstarted : (s.groupStarted g).get (IC_GST_CUR g) = s.get (IC_GST_CUR g) := (groupStarted_busFrame g s []).get _ (by simp)
  rw [State.groupCounted, State.get_bump_same _ _ _ (gstCur_ok g), hstarted]
  change min _ 255 = _
  omega

theorem groupCounted_count : (s.groupCounted g).get (IC_GCFG_COUNT g) = s.get (IC_GCFG_COUNT g) := by
  refine (groupCounted_busFrame g s).get _ fun f hf => .inl ?_
  rw [List.mem_singleton.1 hf]
  change 0x1628 + g.val ≠ 0x16F0 + g.val
  omega

theorem groupCounted_get (f : Field) (h : f.word < 0x1628 ∨ 0x1638 ≤ f.word) : (s.groupCounted g).get f = s.get f := by
  refine (groupCounted_busFrame g s).get _ fun f' hf => .inl ?_
  rw [List.mem_singleton.1 hf]
  change 0x1628 + g.val ≠ f.word
  omega

theorem groupEdge_below (h : s.get (IC_GST_CUR g) + 1 < s.get (IC_GCFG_COUNT g)) : groupEdge s g = s.groupCounted g := by
  have hcount : s.get (IC_GCFG_COUNT g) < 256 := getBits_lt _ _ _
  rw [groupEdge_eq, groupCounted_cur g s (by omega), groupCounted_count, if_neg (by omega)]

theorem groupEdge_reached (h : s.get (IC_GST_CUR g) < 255) (hc : s.get (IC_GCFG_COUNT g) ≤ s.get (IC_GST_CUR g) + 1) :
    groupEdge s g = groupFire (s.groupCounted g) g := by
  rw [groupEdge_eq, groupCounted_cur g s h, groupCounted_count, if_pos hc]

end

/-! ### The words of the pending and enable bits (18 R448) -/

section
variable (j : Nat) (v : Word)

theorem mem_irqListedBits {n : Nat} : n ∈ irqListedBits j v ↔ n / 32 = j ∧ v.getLsbD (n % 32) = true ∧ irqListed n = true := by
  simp only [irqListedBits, List.mem_map, List.mem_filter, List.mem_range, Bool.and_eq_true]
  constructor
  · rintro ⟨b, ⟨hb, hv, hl⟩, rfl⟩
    refine ⟨by omega, ?_, hl⟩
    rwa [Nat.mul_add_mod, Nat.mod_eq_of_lt hb]
  · rintro ⟨rfl, hv, hl⟩
    have hn := Nat.div_add_mod n 32
    exact ⟨n % 32, ⟨Nat.mod_lt _ (by decide), hv, by rwa [hn]⟩, hn⟩

theorem nodup_irqListedBits : (irqListedBits j v).Nodup :=
  (List.nodup_range.filter _).map fun a b h => by
    change 32 * j + a = 32 * j + b at h
    omega

theorem irqListedBits_named (n : Nat) : decide (n ∈ irqListedBits j v) = (n / 32 == j && v.getLsbD (n % 32) && irqListed n) := by
  rw [Bool.eq_iff_iff, decide_eq_true_iff, mem_irqListedBits]
  simp [and_assoc]

variable (s : State) (base : Nat) (b : Bool)

/-- The bits of a set that a word names are put, and no other. -/
theorem foldl_setIrqBit_irqBit (m : Nat) (l : List Nat) (hl : l.Nodup) :
    irqBit (l.foldl (fun s n => setIrqBit s base n b) s) base m = if m ∈ l then b else irqBit s base m := by
  rw [foldl_read_at (r := fun s => irqBit s base m) (fun s n hn => (setIrqBit_irqBit s n base b m).trans (if_neg hn.symm)) (fun s t _ => ?_) l hl]
  · rw [setIrqBit_irqBit, if_pos rfl]
  · rw [setIrqBit_irqBit, setIrqBit_irqBit, if_pos rfl, if_pos rfl]

theorem foldl_setIrqBit_frame (l : List Nat) (hl : ∀ n ∈ l, n / 32 = j) : RegFrame [wholeWord (base + j)] s (l.foldl (fun s n => setIrqBit s base n b) s) := by
  refine List.foldlRecOn l _ (motive := fun t => RegFrame [wholeWord (base + j)] s t) (.refl _ _ s) fun t ht n hn => ht.trans ?_
  have hput := setIrqBit_frame t n base b
  refine ⟨sameBut_inside hput.regs fun f hf => ?_, hput.kept⟩
  obtain rfl := List.mem_singleton.1 hf
  have hj := hl n hn
  refine ⟨_, List.mem_singleton_self _, congrArg (base + ·) hj, Nat.zero_le _, ?_⟩
  change n % 32 + 1 ≤ 0 + 32
  omega

end

end Sys2Proof.Machine
end

section
/-!
PROOFS. Pending writes, claims and completions of the interrupt controller (18 R447 to R457), and the statement about them.
-/

namespace Sys2Proof.Machine

/-! ### Setting pending bits (18 R447) -/

section
variable (s : State) (n : Nat)

/-- Source n becomes pending with one event. -/
def pendCount (s : State) (n : Nat) : State := setIrqBit (irqCount s n 1) 0x1610 n true

theorem writePset_eq (j : Nat) (v : Word) : writePset s j v = irqLines ((irqListedBits j v).foldl pendCount s) := rfl

theorem irqCount_irqBit (c base m : Nat) (h : base + m / 32 < 0x1639) : irqBit (irqCount s n c) base m = irqBit s base m := by
  rw [irqBit_eq_bit, irqBit_eq_bit]
  exact (irqCount_frame s n c).bit _ (eventFields_apart (.inl h))

theorem pendCount_irqBit {m : Nat} (hm : m < 160) : irqBit (pendCount s n) 0x1610 m = if m = n then true else irqBit s 0x1610 m := by
  rw [pendCount, setIrqBit_irqBit, irqCount_irqBit _ _ _ _ _ (by omega)]

theorem pendCount_acc {m : Nat} (hn : n < 160) : (pendCount s n).get (IC_SRC_ACC m) = if m = n then min 0xFFFFF (s.get (IC_SRC_ACC m) + 1) else s.get (IC_SRC_ACC m) := by
  rw [pendCount, setIrqBit_get _ _ _ _ _ (by change 0x1640 + m ≠ 0x1610 + n / 32; omega)]
  by_cases h : m = n
  · rw [if_pos h, h, irqCount_acc]
  · rw [if_neg h, irqCount_acc_ne s n 1 h]

theorem pendCount_enabled {m : Nat} (hm : m < 160) : irqBit (pendCount s n) 0x1600 m = irqBit s 0x1600 m := by
  rw [pendCount, setIrqBit_irqBit_ne _ _ _ _ _ _ (by omega), irqCount_irqBit _ _ _ _ _ (by omega)]

theorem pendCount_besideRegs : besideRegs (pendCount s n) = besideRegs s := (setIrqBit_frame _ n 0x1610 true).kept.trans (irqCount_frame s n 1).kept

theorem foldl_kept {f : State → Nat → State} (h : ∀ s n, besideRegs (f s n) = besideRegs s) (l : List Nat) (s : State) : besideRegs (l.foldl f s) = besideRegs s :=
  List.foldlRecOn l f (motive := fun t => besideRegs t = besideRegs s) rfl fun _ ht n _ => (h _ n).trans ht

theorem rest_of_besideRegs {s t : State} (h : besideRegs t = besideRegs s) : { t with regs := s.regs, fresh := s.fresh } = s :=
  (congrArg (fun x : State => { x with regs := s.regs, fresh := s.fresh }) h :)

variable (l : List Nat) (hl : l.Nodup)
include hl

theorem foldl_pendCount_irqBit {m : Nat} (hm : m < 160) : irqBit (l.foldl pendCount s) 0x1610 m = (irqBit s 0x1610 m || decide (m ∈ l)) := by
  rw [foldl_read_at (r := fun s => irqBit s 0x1610 m) (fun s n hn => (pendCount_irqBit s n hm).trans (if_neg hn.symm)) (fun s t _ => ?_) l hl]
  · by_cases h : m ∈ l
    · rw [if_pos h, pendCount_irqBit s m hm, if_pos rfl, decide_eq_true h, Bool.or_true]
    · rw [if_neg h, decide_eq_false h, Bool.or_false]
  · rw [pendCount_irqBit s m hm, pendCount_irqBit t m hm, if_pos rfl, if_pos rfl]

theorem foldl_pendCount_acc (hl160 : ∀ n ∈ l, n < 160) (m : Nat) :
    (l.foldl pendCount s).get (IC_SRC_ACC m) = if m ∈ l then min 0xFFFFF (s.get (IC_SRC_ACC m) + 1) else s.get (IC_SRC_ACC m) := by
  induction l generalizing s with
  | nil => rfl
  | cons n l ih =>
    obtain ⟨hn, hl⟩ := List.nodup_cons.1 hl
    rw [List.foldl_cons, ih _ hl fun k hk => hl160 k (List.mem_cons_of_mem _ hk), pendCount_acc s n (hl160 n List.mem_cons_self)]
    by_cases hm : m = n
    · subst hm
      simp [hn]
    · simp [hm]

end

theorem irqListedBits_lt {j : Nat} (hj : j < 5) (v : Word) {n : Nat} (h : n ∈ irqListedBits j v) : n < 160 := by
  have hn := ((mem_irqListedBits j v).1 h).1
  omega

/-! ### Clearing pending bits (18 R448, R457) -/

section
variable (s t : State) (n : Nat)

/-- Whether a clear of source n takes effect. -/
def irqClears (s : State) (n : Nat) : Bool := irqBit s 0x1610 n && !irqNew s n

/-- What a clear of source n reads of it. -/
def clearView (n : Nat) (s : State) : Bool × Nat × List Fresh := (irqBit s 0x1610 n, s.get (IC_SRC_ACC n), s.fresh)

/-- A source's pending bit, with its events discarded but for those of the tick. -/
def State.discarded (s : State) (n : Nat) : State :=
  (setIrqBit (s.set IC_DISC (s.get IC_DISC + (s.get (IC_SRC_ACC n) - irqLate s n))) 0x1610 n (irqAgain s n)).set (IC_SRC_ACC n) (irqLate s n)

theorem clearPend_eq : clearPend s n = if irqClears s n then s.discarded n else s := rfl

theorem irqLate_le : irqLate s n ≤ s.get (IC_SRC_ACC n) := by
  unfold irqLate
  split
  · cases freshOf s (IC_SRC_ACC n) with
    | none => exact Nat.zero_le _
    | some a => exact Nat.min_le_right _ _
  · exact Nat.zero_le _

section
variable {s t : State} {n : Nat} (h : clearView n s = clearView n t)
include h

theorem irqBefore_congr : irqBefore s n = irqBefore t n := by
  have hbit : irqBit s 0x1610 n = irqBit t 0x1610 n := congrArg Prod.fst h
  have hfresh : s.fresh = t.fresh := congrArg (fun x => x.2.2) h
  simp only [irqBefore, freshOf, hbit, hfresh]

theorem irqNew_congr : irqNew s n = irqNew t n := by
  have hbit : irqBit s 0x1610 n = irqBit t 0x1610 n := congrArg Prod.fst h
  rw [irqNew, irqNew, irqBefore_congr h, hbit]

theorem irqAgain_congr : irqAgain s n = irqAgain t n := by
  have hfresh : s.fresh = t.fresh := congrArg (fun x => x.2.2) h
  rw [irqAgain, irqAgain, irqBefore_congr h, freshOf, freshOf, hfresh]

theorem irqLate_congr : irqLate s n = irqLate t n := by
  have hacc : s.get (IC_SRC_ACC n) = t.get (IC_SRC_ACC n) := congrArg (fun x => x.2.1) h
  have hfresh : s.fresh = t.fresh := congrArg (fun x => x.2.2) h
  rw [irqLate, irqLate, irqBefore_congr h, freshOf, freshOf, hfresh, hacc]

theorem irqClears_congr : irqClears s n = irqClears t n := by
  have hbit : irqBit s 0x1610 n = irqBit t 0x1610 n := congrArg Prod.fst h
  rw [irqClears, irqClears, irqNew_congr h, hbit]

end

theorem discarded_irqBit {m : Nat} (hm : m < 160) : irqBit (s.discarded n) 0x1610 m = if m = n then irqAgain s n else irqBit s 0x1610 m := by
  have hacc (x : State) (k : Nat) : irqBit (x.set (IC_SRC_ACC n) k) 0x1610 m = irqBit x 0x1610 m :=
    (irqBit_eq_bit _ _ _).trans ((congrArg (· == 1) (State.get_set_ne x (IC_SRC_ACC n) (irqField 0x1610 m) k (srcAcc_ok n)
      (.inl (by change 0x1640 + n ≠ 0x1610 + m / 32; omega)))).trans (irqBit_eq_bit _ _ _).symm)
  have hdisc (x : State) (k : Nat) : irqBit (x.set IC_DISC k) 0x1610 m = irqBit x 0x1610 m :=
    (irqBit_eq_bit _ _ _).trans ((congrArg (· == 1) (State.get_set_ne x IC_DISC (irqField 0x1610 m) k (by decide)
      (.inl (by change 0x163A ≠ 0x1610 + m / 32; omega)))).trans (irqBit_eq_bit _ _ _).symm)
  rw [State.discarded, hacc, setIrqBit_irqBit, hdisc]

theorem discarded_acc {m : Nat} (hn : n < 160) : (s.discarded n).get (IC_SRC_ACC m) = if m = n then irqLate s n else s.get (IC_SRC_ACC m) := by
  rw [State.discarded]
  by_cases h : m = n
  · have hlt : s.get (IC_SRC_ACC n) < 2 ^ 20 := getBits_lt _ _ _
    have hle := irqLate_le s n
    rw [if_pos h, h, State.get_set_same _ _ _ (srcAcc_ok n)]
    exact Nat.mod_eq_of_lt (by change _ < 2 ^ 20; omega)
  · rw [if_neg h, State.get_set_ne _ _ _ _ (srcAcc_ok n) (.inl (by change 0x1640 + n ≠ 0x1640 + m; omega)),
      setIrqBit_get _ _ _ _ _ (by change 0x1640 + m ≠ 0x1610 + n / 32; omega), State.get_set_ne _ _ _ _ (by decide) (.inl (by change 0x163A ≠ 0x1640 + m; omega))]

theorem discarded_disc (hn : n < 160) : (s.discarded n).get IC_DISC = (s.get IC_DISC + (s.get (IC_SRC_ACC n) - irqLate s n)) % 2 ^ 32 := by
  rw [State.discarded, State.get_set_ne _ _ _ _ (srcAcc_ok n) (.inl (by change 0x1640 + n ≠ 0x163A; omega)),
    setIrqBit_get _ _ _ _ _ (by change 0x163A ≠ 0x1610 + n / 32; omega), State.get_set_same _ _ _ (by decide)]
  rfl

/-- A clear of a source leaves what a clear of another reads. -/
theorem clearPend_view_ne {m : Nat} (hm : m < 160) (hn : n < 160) (h : m ≠ n) : clearView m (clearPend s n) = clearView m s := by
  rw [clearPend_eq]
  split
  · exact Prod.ext ((discarded_irqBit s n hm).trans (if_neg h)) (Prod.ext ((discarded_acc s n hn).trans (if_neg h)) rfl)
  · rfl

theorem clearPend_view (hn : n < 160) :
    clearView n (clearPend s n) = if irqClears s n then (irqAgain s n, irqLate s n, s.fresh) else clearView n s := by
  rw [clearPend_eq]
  split
  · exact Prod.ext ((discarded_irqBit s n hn).trans (if_pos rfl)) (Prod.ext ((discarded_acc s n hn).trans (if_pos rfl)) rfl)
  · rfl

theorem clearPend_besideRegs : besideRegs (clearPend s n) = besideRegs s := by
  rw [clearPend_eq]
  split
  · rfl
  · rfl

/-- The events that a clear of source n discards. -/
def irqDiscards (s : State) (n : Nat) : Nat := s.get (IC_SRC_ACC n) - irqLate s n

theorem clearPend_disc (hn : n < 160) : (clearPend s n).get IC_DISC = (s.get IC_DISC + if irqClears s n then irqDiscards s n else 0) % 2 ^ 32 := by
  rw [clearPend_eq]
  split
  · exact discarded_disc s n hn
  · exact (Nat.mod_eq_of_lt (getBits_lt _ _ _)).symm

end

section
variable (l : List Nat) (hl : l.Nodup) (hl160 : ∀ n ∈ l, n < 160)
include hl hl160

theorem foldl_clearPend_view {m : Nat} (hm : m < 160) (s : State) :
    clearView m (l.foldl clearPend s) = if m ∈ l ∧ irqClears s m = true then (irqAgain s m, irqLate s m, s.fresh) else clearView m s := by
  induction l generalizing s with
  | nil => simp
  | cons n l ih =>
    obtain ⟨hn, hl⟩ := List.nodup_cons.1 hl
    have hrest := ih hl (fun k hk => hl160 k (List.mem_cons_of_mem _ hk)) (clearPend s n)
    have hlt := hl160 n List.mem_cons_self
    rw [List.foldl_cons, hrest]
    by_cases h : m = n
    · subst h
      rw [if_neg fun hc => hn hc.1, clearPend_view s m hlt]
      simp
    · have hview := clearPend_view_ne s n hm hlt h
      have hfresh : (clearPend s n).fresh = s.fresh := congrArg (fun x => x.2.2) hview
      rw [hview, irqClears_congr hview, irqAgain_congr hview, irqLate_congr hview, hfresh]
      simp [h]

theorem foldl_clearPend_disc (s : State) : (l.foldl clearPend s).get IC_DISC = (s.get IC_DISC + ((l.filter (irqClears s)).map (irqDiscards s)).sum) % 2 ^ 32 := by
  induction l generalizing s with
  | nil => exact (Nat.mod_eq_of_lt (getBits_lt _ _ _)).symm
  | cons n l ih =>
    obtain ⟨hn, hl⟩ := List.nodup_cons.1 hl
    have hlt := hl160 n List.mem_cons_self
    have hview (m : Nat) (hm : m ∈ l) : clearView m (clearPend s n) = clearView m s :=
      clearPend_view_ne s n (hl160 m (List.mem_cons_of_mem _ hm)) hlt fun h => hn (h ▸ hm)
    have hfilter : l.filter (irqClears (clearPend s n)) = l.filter (irqClears s) := List.filter_congr fun m hm => irqClears_congr (hview m hm)
    have hmap : (l.filter (irqClears s)).map (irqDiscards (clearPend s n)) = (l.filter (irqClears s)).map (irqDiscards s) := by
      refine List.map_congr_left fun m hm => ?_
      have hkept := hview m (List.mem_filter.1 hm).1
      have hacc : (clearPend s n).get (IC_SRC_ACC m) = s.get (IC_SRC_ACC m) := congrArg (fun x => x.2.1) hkept
      rw [irqDiscards, irqDiscards, irqLate_congr hkept, hacc]
    rw [List.foldl_cons, ih hl fun k hk => hl160 k (List.mem_cons_of_mem _ hk), hfilter, hmap, clearPend_disc s n hlt, Nat.mod_add_mod]
    congr 1
    cases hc : irqClears s n with
    | false => simp [hc]
    | true => simp [hc, Nat.add_assoc]

end

end Sys2Proof.Machine
end

section
/-!
PROOFS. Claims and completions of interrupt sources (18 R449, R451, R453, R457), and the statement about the interrupt controller.
-/

namespace Sys2Proof.Machine

/-! ### A claim -/

/-- A target's active source and claim word are apart from what follows the lines. -/
theorem lineFields_apart_target {g : Field} (hw : g.word ≠ 0x1638) (h : g.lo + g.width ≤ 8 ∨ g.word % 2 = 0) : ∀ f ∈ lineFields, f.apart g := by
  intro f hf
  simp only [lineFields, IC_ST_LINE, IC_ST_SLEEP, IC_TST_SIGNALLED, List.mem_cons, List.not_mem_nil, or_false] at hf
  rcases hf with rfl | rfl | rfl | rfl | rfl | rfl <;> simp only [Field.apart] <;> omega

theorem tstActive_ok (t : Nat) : (IC_TST_ACTIVE t).ok := show 0 + 8 ≤ 32 by decide
theorem tstSignalled_ok (t : Nat) : (IC_TST_SIGNALLED t).ok := show 8 + 1 ≤ 32 by decide
theorem lclmCount_ok (t : Nat) : (IC_LCLM_COUNT t).ok := show 12 + 20 ≤ 32 by decide
theorem lclmSrc_ok (t : Nat) : (IC_LCLM_SRC t).ok := show 0 + 8 ≤ 32 by decide

/-- The claim word of a target. -/
def State.claimWord (s : State) (t : Fin 4) (count source : Nat) : State := (s.set (IC_LCLM_COUNT t) count).set (IC_LCLM_SRC t) source

section
variable (s : State) (t : Fin 4) (n : Nat)

/-- Source n is in service at target t, with its count taken. -/
def State.inService : State :=
  ((setIrqBit (setIrqBit s 0x1620 n true) 0x1610 n (irqAgain s n)).modTarget t fun x =>
    { x with active := some (n, s.get (IC_SRC_ACC n) - irqLate s n, s.bit (IC_SRC_SAT n)) }).set (IC_TST_ACTIVE t) n

/-- Source n's count and latch are given to target t. -/
def State.countTaken : State := (((s.inService t n).set (IC_SRC_ACC n) (irqLate s n)).set (IC_SRC_SAT n) 0).set (IC_TST_SIGNALLED t) 0

/-- The claim word of target t shows what the claim returned. -/
def State.claimed : State := ((s.countTaken t n).set (IC_LCLM_COUNT t) (s.get (IC_SRC_ACC n) - irqLate s n)).set (IC_LCLM_SRC t) n

theorem irqClaim_next {secure : Bool} (hidle : s.bus.targets[t].active = none) (hnext : irqNext s t secure = some n) :
    irqClaim s t secure =
      (BitVec.ofNat 32 ((s.get (IC_SRC_ACC n) - irqLate s n) * 4096 + (if s.bit (IC_SRC_SAT n) then 2048 else 0) + n), irqLines (s.claimed t n)) := by
  unfold irqClaim
  rw [hidle, if_neg (by decide), hnext]
  rfl

theorem irqClaim_none {secure : Bool} (hidle : s.bus.targets[t].active = none) (hnext : irqNext s t secure = none) :
    irqClaim s t secure =
      (BitVec.ofNat 32 (if s.bit (IC_TST_SIGNALLED t) then 255 else 0), s.claimWord t 0 (if s.bit (IC_TST_SIGNALLED t) then 255 else 0)) := by
  unfold irqClaim
  rw [hidle, if_neg (by decide), hnext]
  rfl

theorem irqClaim_active {secure : Bool} {x : Nat × Nat × Bool} (hactive : s.bus.targets[t].active = some x) :
    irqClaim s t secure = (0, s.claimWord t 0 0) := by
  unfold irqClaim
  rw [hactive]
  exact if_pos rfl

/-- The claim word is apart from the bit sets and the sources' words. -/
theorem claimed_get (g : Field) (h : g.word < 0x16E0) : (s.claimed t n).get g = (s.countTaken t n).get g := by
  rw [State.claimed, State.get_set_ne _ _ _ _ (lclmSrc_ok t) (.inl (by change 0x16E0 + 2 * t.val ≠ g.word; omega)),
    State.get_set_ne _ _ _ _ (lclmCount_ok t) (.inl (by change 0x16E0 + 2 * t.val ≠ g.word; omega))]

theorem claimed_tst (g : Field) (h : g.word = 0x16E1 + 2 * t.val) : (s.claimed t n).get g = (s.countTaken t n).get g := by
  rw [State.claimed, State.get_set_ne _ _ _ _ (lclmSrc_ok t) (.inl (by change 0x16E0 + 2 * t.val ≠ g.word; omega)),
    State.get_set_ne _ _ _ _ (lclmCount_ok t) (.inl (by change 0x16E0 + 2 * t.val ≠ g.word; omega))]

theorem claimed_signalled : (s.claimed t n).get (IC_TST_SIGNALLED t) = 0 := by
  rw [claimed_tst s t n _ rfl, State.countTaken, State.get_set_same _ _ _ (tstSignalled_ok t)]
  rfl

theorem claimed_source : (s.claimed t n).get (IC_LCLM_SRC t) = n % 256 := State.get_set_same _ _ _ (lclmSrc_ok t)

theorem claimed_count : (s.claimed t n).get (IC_LCLM_COUNT t) = s.get (IC_SRC_ACC n) - irqLate s n := by
  have hlt : s.get (IC_SRC_ACC n) < 2 ^ 20 := getBits_lt _ _ _
  rw [State.claimed, State.get_set_ne _ _ _ _ (lclmSrc_ok t) (.inr (.inl (by change 0 + 8 ≤ 12; decide))), State.get_set_same _ _ _ (lclmCount_ok t)]
  exact Nat.mod_eq_of_lt (by change _ < 2 ^ 20; omega)

theorem claimed_active : (s.claimed t n).bus.targets[t].active = some (n, s.get (IC_SRC_ACC n) - irqLate s n, s.bit (IC_SRC_SAT n)) :=
  congrArg IrqTarget.active (Vector.getElem_set_self t.isLt)

theorem claimed_busFrame : { s.claimed t n with regs := s.regs, bus := s.bus, fresh := s.fresh } = s := rfl

/-- The claiming target's line is low. -/
theorem irqLine_claimed : irqLine (s.claimed t n) t = false := by
  rw [irqLine, claimed_active]
  rfl

section
variable (hn : n < 160)
include hn

theorem claimed_tstActive : (s.claimed t n).get (IC_TST_ACTIVE t) = n % 256 := by
  rw [claimed_tst s t n _ rfl, State.countTaken, State.get_set_ne _ _ _ _ (tstSignalled_ok t) (.inr (.inr (by change 0 + 8 ≤ 8; decide))),
    State.get_set_ne _ _ _ _ (srcSat_ok n) (.inl (by change 0x1640 + n ≠ 0x16E1 + 2 * t.val; omega)),
    State.get_set_ne _ _ _ _ (srcAcc_ok n) (.inl (by change 0x1640 + n ≠ 0x16E1 + 2 * t.val; omega)), State.inService, State.get_set_same _ _ _ (tstActive_ok t)]
  rfl

theorem claimed_acc : (s.claimed t n).get (IC_SRC_ACC n) = irqLate s n := by
  have hlt : s.get (IC_SRC_ACC n) < 2 ^ 20 := getBits_lt _ _ _
  have hle := irqLate_le s n
  rw [claimed_get s t n _ (by change 0x1640 + n < 0x16E0; omega), State.countTaken, State.get_set_ne _ _ _ _ (tstSignalled_ok t) (.inl (by change 0x16E1 + 2 * t.val ≠ 0x1640 + n; omega)),
    State.get_set_ne _ _ _ _ (srcSat_ok n) (.inr (.inl (by change 11 + 1 ≤ 12; decide))), State.get_set_same _ _ _ (srcAcc_ok n)]
  exact Nat.mod_eq_of_lt (by change _ < 2 ^ 20; omega)

theorem claimed_sat : (s.claimed t n).get (IC_SRC_SAT n) = 0 := by
  rw [claimed_get s t n _ (by change 0x1640 + n < 0x16E0; omega), State.countTaken, State.get_set_ne _ _ _ _ (tstSignalled_ok t) (.inl (by change 0x16E1 + 2 * t.val ≠ 0x1640 + n; omega)),
    State.get_set_same _ _ _ (srcSat_ok n)]
  rfl

/-- The bit sets of a claimed source are those that the claim put. -/
theorem claimed_irqBit (base : Nat) (hb : base + 5 ≤ 0x1640) :
    irqBit (s.claimed t n) base n = irqBit (setIrqBit (setIrqBit s 0x1620 n true) 0x1610 n (irqAgain s n)) base n := by
  have hkept : (s.claimed t n).get (irqField base n) = (setIrqBit (setIrqBit s 0x1620 n true) 0x1610 n (irqAgain s n)).get (irqField base n) := by
    rw [claimed_get s t n _ (by change base + n / 32 < 0x16E0; omega), State.countTaken,
      State.get_set_ne _ _ _ _ (tstSignalled_ok t) (.inl (by change 0x16E1 + 2 * t.val ≠ base + n / 32; omega)),
      State.get_set_ne _ _ _ _ (srcSat_ok n) (.inl (by change 0x1640 + n ≠ base + n / 32; omega)),
      State.get_set_ne _ _ _ _ (srcAcc_ok n) (.inl (by change 0x1640 + n ≠ base + n / 32; omega)), State.inService,
      State.get_set_ne _ _ _ _ (tstActive_ok t) (.inl (by change 0x16E1 + 2 * t.val ≠ base + n / 32; omega))]
    rfl
  rw [irqBit_eq_bit, irqBit_eq_bit]
  exact congrArg (· == 1) hkept

theorem claimed_inService : irqBit (s.claimed t n) 0x1620 n = true := by
  rw [claimed_irqBit s t n hn _ (by decide), setIrqBit_irqBit_ne _ _ _ _ _ _ (by omega), setIrqBit_irqBit, if_pos rfl]

theorem claimed_pending : irqBit (s.claimed t n) 0x1610 n = irqAgain s n := by
  rw [claimed_irqBit s t n hn _ (by decide), setIrqBit_irqBit, if_pos rfl]

end

end

theorem irqNext_some {s : State} {t : Fin 4} {secure : Bool} {n : Nat} (h : irqNext s t secure = some n) : n < 160 ∧ ∀ m < n, irqQualifies s t secure m = false := by
  obtain ⟨-, hn, hlow⟩ := List.find?_range_eq_some.1 h
  exact ⟨List.mem_range.1 hn, fun m hm => by simpa using hlow m hm⟩

/-! ### A completion -/

section
variable (s : State) (t : Fin 4) (n : Nat)

theorem irqEnd_frame : BusFrame [irqField 0x1620 n, IC_TST_ACTIVE t] s (irqEnd s t n) := by
  have hput := (setIrqBit_frame (s.modTarget t fun x => { x with active := none }) n 0x1620 false).busFrame
  have hidle : BusFrame [irqField 0x1620 n] s (s.modTarget t fun x => { x with active := none }) := (ViewFrame.refl _ _ s).beside rfl rfl
  exact ViewFrame.set ((hidle.trans hput).mono fun f hf => List.mem_cons.2 (.inl (List.mem_singleton.1 hf))) (List.mem_cons_of_mem _ List.mem_cons_self) (tstActive_ok t) rfl

theorem irqEnd_active : (irqEnd s t n).bus.targets[t].active = none := congrArg IrqTarget.active (Vector.getElem_set_self t.isLt)

theorem irqEnd_tstActive : (irqEnd s t n).get (IC_TST_ACTIVE t) = 0 := State.get_set_same _ _ _ (tstActive_ok t)

theorem irqEnd_get (hn : n < 160) (g : Field) (h : g.word < 0x1620 ∨ 0x1625 ≤ g.word ∧ g.word < 0x16E0) : (irqEnd s t n).get g = s.get g := by
  refine (irqEnd_frame s t n).get g fun f hf => ?_
  simp only [List.mem_cons, List.not_mem_nil, or_false] at hf
  left
  rcases hf with rfl | rfl
  · change 0x1620 + n / 32 ≠ g.word
    omega
  · change 0x16E1 + 2 * t.val ≠ g.word
    omega

theorem irqEnd_served (hn : n < 160) : irqBit (irqEnd s t n) 0x1620 n = false := by
  have hkept := State.get_set_ne (setIrqBit (s.modTarget t fun x => { x with active := none }) 0x1620 n false) (IC_TST_ACTIVE t) (irqField 0x1620 n) 0 (tstActive_ok t)
    (.inl (by change 0x16E1 + 2 * t.val ≠ 0x1620 + n / 32; omega))
  have hput := setIrqBit_irqBit (s.modTarget t fun x => { x with active := none }) n 0x1620 false n
  rw [if_pos rfl, irqBit_eq_bit] at hput
  rw [irqBit_eq_bit]
  exact (congrArg (· == 1) hkept).trans hput

theorem irqEnd_pending (hn : n < 160) : irqBit (irqEnd s t n) 0x1610 n = irqBit s 0x1610 n := by
  rw [irqBit_eq_bit, irqBit_eq_bit]
  exact congrArg (· == 1) (irqEnd_get s t n hn (irqField 0x1610 n) (.inl (by change 0x1610 + n / 32 < 0x1620; omega)))

theorem irqEnd_word (hn : n < 160) (a : Nat) (h : a < 0x1620 ∨ 0x1700 ≤ a) : (irqEnd s t n).word a = s.word a := by
  rw [irqEnd, State.word_set_ne _ _ _ _ (by change a ≠ 0x16E1 + 2 * t.val; omega)]
  exact State.word_set_ne _ _ _ _ (by change a ≠ 0x1620 + n / 32; omega)

/-- No line hangs on the interrupt controller's own words (18 R446). -/
theorem irqLevel_congr {s t : State} (hw : ∀ a, a < 0x1620 ∨ 0x1700 ≤ a → t.word a = s.word a) (hblaze : t.blaze = s.blaze) : irqLevel t n = irqLevel s n := by
  have hif {c : Prop} [Decidable c] {x x' y y' : Bool} (hx : c → x = x') (hy : y = y') : (if c then x else y) = if c then x' else y' := by
    split
    · exact hx ‹_›
    · exact hy
  have hany (a : Nat) (ha : a < 0x1620 ∨ 0x1700 ≤ a) : (t.word a != 0) = (s.word a != 0) := by rw [hw a ha]
  have hunlock : t.bit DRV_ST_UNLOCK = s.bit DRV_ST_UNLOCK := by rw [State.bit, State.get, hw _ (by decide), State.bit, State.get]
  have hwork : t.get ID_DOMST_WSTATE = s.get ID_DOMST_WSTATE := by rw [State.get, hw _ (by decide), State.get]
  unfold irqLevel
  refine hif (fun _ => hany _ (by decide)) <| hif (fun _ => hany _ (by decide)) <| hif (fun _ => hany _ (by decide)) <| hif (fun _ => ?_) <|
    hif (fun _ => hany _ (by decide)) <| hif (fun _ => hany _ (by decide)) <| hif (fun _ => hany _ (by decide)) <| hif (fun _ => hany _ (by decide)) <|
    hif (fun _ => hany _ (by decide)) <| hif (fun _ => hany _ (by decide)) <| hif (fun _ => hany _ (by decide)) <| hif (fun _ => ?_) <|
    hif (fun _ => hany _ (by decide)) <| hif (fun _ => ?_) <| hif (fun hn => ?_) <| hif (fun hn => ?_) rfl
  · rw [hw 0x201 (by decide)]
  · rw [hblaze]
  · exact congrArg₂ (· && ·) (hany 0x1902 (by decide)) (by rw [hwork])
  · exact congrArg₂ (· || ·) (hany (0x416 + 0x40 * (n - 32)) (.inl (by omega))) (hany (0x425 + 0x40 * (n - 32)) (.inl (by omega)))
  · exact congrArg₂ (· || ·) (hany (0x402 + 0x40 * (n - 48)) (.inl (by omega))) (by rw [hunlock])

theorem irqEnd_level (hn : n < 160) : irqLevel (irqEnd s t n) n = irqLevel s n := irqLevel_congr n (irqEnd_word s t n hn) rfl

/-- A completion of the active source ends its service (18 R451). -/
theorem irqComplete_active {secure : Bool} {c : Nat} {sat : Bool} (hactive : s.bus.targets[t].active = some (n, c, sat)) (hworld : irqWorld s secure n = true) :
    irqComplete s t secure n = irqLines (if !irqPulse n && irqLevel (irqEnd s t n) n then pendCount (irqEnd s t n) n else irqEnd s t n) := by
  unfold irqComplete
  rw [hactive]
  exact if_pos ⟨rfl, hworld⟩

/-- A completion that names another source, or comes from a world that may not claim it, is ignored and shown. -/
theorem irqComplete_bad {secure : Bool} (h : s.bus.targets[t].active.map (·.1) ≠ some n ∨ irqWorld s secure n = false) :
    irqComplete s t secure n = s.event IC_EVT_BADCOMP := by
  unfold irqComplete
  cases hactive : s.bus.targets[t].active with
  | none => rfl
  | some x =>
    refine if_neg fun hc => ?_
    rcases h with h | h
    · rw [hactive] at h
      exact h (congrArg some hc.1)
    · exact absurd (hc.2.symm.trans h) (by decide)

end

end Sys2Proof.Machine
end

section
/-!
PROOFS. The statement about the interrupt controller (18 R447 to R455), case by case.
-/

namespace Sys2Proof.Machine

/-! ### An edge of a source in no group -/

section
variable (s : State) (n : Nat)

/-- An edge's source is pending. -/
def State.edgePended : State := pendEvent ((senseLine s n).edgeCounted n) n

/-- Beside the count, whatever it changes, an edge of a source in no group changes its pending bit. -/
theorem edgePended_frame {l : List Field} (h : RegFrame l (senseLine s n) ((senseLine s n).edgeCounted n)) :
    RegFrame (irqField 0x1610 n :: l) (senseLine s n) (s.edgePended n) :=
  (h.mono fun _ hf => List.mem_cons_of_mem _ hf).trans ((pendEvent_frame _ n).mono fun _ hf => List.mem_cons.2 (.inl (List.mem_singleton.1 hf)))

theorem irqEdge_sensed (h : s.get (IC_SRC_GROUP n) = 0) : irqEdge (senseLine s n) n = irqLines (s.edgePended n) := irqEdge_ungrouped (senseLine s n) n h

variable (hn : n < 128)
include hn

theorem edgePended_acc : (s.edgePended n).get (IC_SRC_ACC n) = ((senseLine s n).edgeCounted n).get (IC_SRC_ACC n) :=
  pendEvent_get _ n _ (by change 0x1640 + n ≠ 0x1610 + n / 32; omega)

theorem irqLines_edge_pending : irqBit (irqLines (s.edgePended n)) 0x1610 n = true := by
  rw [irqLines_irqBit _ _ _ (by omega), State.edgePended, pendEvent_irqBit, if_pos rfl]

section
variable (hacc : s.get (IC_SRC_ACC n) < 0xFFFFF)
include hacc

omit hn in
theorem edgePended_frame_below : RegFrame [irqField 0x1610 n, IC_SRC_ACC n] (senseLine s n) (s.edgePended n) :=
  edgePended_frame s n (edgeCounted_frame_below (senseLine s n) n hacc)

/-- An edge with room in its count reaches no other register than the count and the pending bit. -/
theorem edgePended_get {g : Field} (h : g.word < 0x1610 ∨ 0x1615 ≤ g.word ∧ g.word ≠ 0x1640 + n ∨ g.word = 0x1640 + n ∧ g.lo + g.width ≤ 12) :
    (s.edgePended n).get g = s.get g := by
  refine (edgePended_frame_below s n hacc).get g fun f hf => ?_
  simp only [List.mem_cons, List.not_mem_nil, or_false] at hf
  rcases hf with rfl | rfl <;> simp only [Field.apart, irqField, IC_SRC_ACC] <;> omega

/-- An enabled source that an edge makes pending asserts the line of an idle target of its own. -/
theorem irqLine_edgePended (t : Fin 4) (henabled : irqBit s 0x1600 n = true) (hserved : irqBit s 0x1620 n = false)
    (htgt : (s.get (IC_SRC_TGT n)).testBit t = true) (hworld : irqWorld s (targetSecure s t) n = true) (hidle : s.bus.targets[t].active = none) :
    irqLine (s.edgePended n) t = true := by
  have hbit (base : Nat) (hb : base + 5 ≤ 0x1610 ∨ 0x1615 ≤ base ∧ base + 5 ≤ 0x1640) : irqBit (s.edgePended n) base n = irqBit s base n := by
    rw [irqBit_eq_bit, irqBit_eq_bit]
    exact congrArg (· == 1) (edgePended_get s n hn hacc (g := irqField base n)
      (by change base + n / 32 < 0x1610 ∨ 0x1615 ≤ base + n / 32 ∧ base + n / 32 ≠ 0x1640 + n ∨ base + n / 32 = 0x1640 + n ∧ _; omega))
  have hpend : irqBit (s.edgePended n) 0x1610 n = true := by rw [State.edgePended, pendEvent_irqBit, if_pos rfl]
  have htgt' : (s.edgePended n).get (IC_SRC_TGT n) = s.get (IC_SRC_TGT n) := edgePended_get s n hn hacc (.inr (.inr ⟨rfl, by change 0 + 4 ≤ 12; decide⟩))
  have hmap : (s.edgePended n).get (IC_SRC_WORLD n) = s.get (IC_SRC_WORLD n) := edgePended_get s n hn hacc (.inr (.inr ⟨rfl, by change 10 + 1 ≤ 12; decide⟩))
  have hblocks : (s.edgePended n).get WK_MAPB_BLOCKS = s.get WK_MAPB_BLOCKS := edgePended_get s n hn hacc (.inr (.inl ⟨by decide, by change 0x1801 ≠ 0x1640 + n; omega⟩))
  have hsecure : targetSecure (s.edgePended n) t = targetSecure s t := by simp only [targetSecure, procSecure, hblocks]
  have hworld' : irqWorld (s.edgePended n) (targetSecure s t) n = true := by
    simp only [irqWorld, irqSecure, State.bit, hmap]
    exact hworld
  have hqualifies : irqQualifies (s.edgePended n) t (targetSecure s t) n = true := by
    rw [irqQualifies, hbit 0x1600 (by decide), hpend, hbit 0x1620 (by decide), htgt', hworld', henabled, hserved, htgt]
    rfl
  have hbus : (s.edgePended n).bus.targets = s.bus.targets := by
    rw [(edgePended_frame_below s n hacc).bus]
    unfold senseLine
    split
    · rfl
    · rfl
  have hfound : (irqNext (s.edgePended n) t (targetSecure s t)).isSome = true := List.find?_isSome.2 ⟨n, List.mem_range.2 (by omega), hqualifies⟩
  rw [irqLine, hsecure, hfound, hbus, hidle]
  rfl

end

end

/-! ### An edge of a member of a group -/

section
variable (s : State) (n : Nat) (g : Fin 16)

/-- A member's edge is counted in its source and in its group. -/
def State.memberCounted : State := ((senseLine s n).edgeCounted n).groupCounted g

section
variable (hacc : s.get (IC_SRC_ACC n) < 0xFFFFF)
include hacc

theorem edgeCounted_member_get {f : Field} (h : f.word ≠ 0x1640 + n ∨ f.lo + f.width ≤ 12) : ((senseLine s n).edgeCounted n).get f = s.get f := by
  refine (edgeCounted_frame_below (senseLine s n) n hacc).get f fun f' hf => ?_
  rw [List.mem_singleton.1 hf]
  rcases h with h | h
  · exact .inl h.symm
  · exact .inr (.inr h)

theorem edgeCounted_member_cur : ((senseLine s n).edgeCounted n).get (IC_GST_CUR g) = s.get (IC_GST_CUR g) :=
  edgeCounted_member_get s n hacc (.inl (by change 0x1628 + g.val ≠ 0x1640 + n; omega))

theorem memberCounted_acc : (s.memberCounted n g).get (IC_SRC_ACC n) = s.get (IC_SRC_ACC n) + 1 :=
  (groupCounted_get g _ (IC_SRC_ACC n) (.inr (by change 0x1638 ≤ 0x1640 + n; omega))).trans (edgeCounted_acc_below (senseLine s n) n hacc)

theorem memberCounted_cur (h : s.get (IC_GST_CUR g) < 255) : (s.memberCounted n g).get (IC_GST_CUR g) = s.get (IC_GST_CUR g) + 1 := by
  have hcur := edgeCounted_member_cur s n g hacc
  rw [State.memberCounted, groupCounted_cur g _ (by rwa [hcur]), hcur]

theorem memberCounted_irqBit (m : Nat) (hm : m < 160) : irqBit (s.memberCounted n g) 0x1610 m = irqBit s 0x1610 m := by
  have hkept := (groupCounted_get g ((senseLine s n).edgeCounted n) (irqField 0x1610 m) (.inl (by change 0x1610 + m / 32 < 0x1628; omega))).trans
    (edgeCounted_member_get s n hacc (.inl (by change 0x1610 + m / 32 ≠ 0x1640 + n; omega)))
  rw [irqBit_eq_bit, irqBit_eq_bit]
  exact congrArg (· == 1) hkept

theorem memberCounted_busFrame : BusFrame [IC_SRC_ACC n, IC_GST_CUR g] (senseLine s n) (s.memberCounted n g) :=
  ((edgeCounted_frame_below (senseLine s n) n hacc).busFrame.mono (by simp)).trans ((groupCounted_busFrame g _).mono (by simp))

variable (hn : n < 128)
include hn

theorem edgeCounted_member_count : ((senseLine s n).edgeCounted n).get (IC_GCFG_COUNT g) = s.get (IC_GCFG_COUNT g) :=
  edgeCounted_member_get s n hacc (.inl (by change 0x16F0 + g.val ≠ 0x1640 + n; omega))

theorem groupEdge_member_below (h : s.get (IC_GST_CUR g) + 1 < s.get (IC_GCFG_COUNT g)) : groupEdge ((senseLine s n).edgeCounted n) g = s.memberCounted n g := by
  refine groupEdge_below g _ ?_
  rwa [edgeCounted_member_cur s n g hacc, edgeCounted_member_count s n g hacc hn]

theorem groupEdge_member_reached (h : s.get (IC_GST_CUR g) < 255) (hc : s.get (IC_GCFG_COUNT g) ≤ s.get (IC_GST_CUR g) + 1) :
    groupEdge ((senseLine s n).edgeCounted n) g = groupFire (s.memberCounted n g) g := by
  have hcur := edgeCounted_member_cur s n g hacc
  refine groupEdge_reached g _ (by rwa [hcur]) ?_
  rwa [hcur, edgeCounted_member_count s n g hacc hn]

omit hn in
theorem memberCounted_group (m : Nat) : (s.memberCounted n g).get (IC_SRC_GROUP m) = s.get (IC_SRC_GROUP m) :=
  (groupCounted_get g _ (IC_SRC_GROUP m) (.inr (by change 0x1638 ≤ 0x1640 + m; omega))).trans (edgeCounted_member_get s n hacc (.inr (by change 4 + 5 ≤ 12; decide)))

end

end

/-! ### The bus after a member's edge -/

section
variable (s : State) (n : Nat) (g : Fin 16)

theorem senseLine_groupAt : (senseLine s n).bus.groupAt = s.bus.groupAt := (congrArg BusState.groupAt (senseLine_bus s n) :)

theorem memberCounted_bus : (s.memberCounted n g).bus = (((senseLine s n).edgeCounted n).groupStarted g).bus := rfl

theorem memberCounted_groupAt : (s.memberCounted n g).bus.groupAt[g] = s.bus.groupAt[g].or (some s.pwr.ticks) := by
  have hpwr : ((senseLine s n).edgeCounted n).pwr = s.pwr := (congrArg State.pwr (edgeCounted_frame (senseLine s n) n).kept :)
  rw [memberCounted_bus, groupStarted_groupAt, edgeCounted_bus, senseLine_groupAt, hpwr]

theorem memberCounted_groupAt_ne (h : Fin 16) (hne : h ≠ g) : (s.memberCounted n g).bus.groupAt[h] = s.bus.groupAt[h] := by
  rw [memberCounted_bus, groupStarted_groupAt_ne g _ h hne, edgeCounted_bus, senseLine_groupAt]

/-- A member's edge starts its group's timer and is sensed. -/
theorem memberCounted_sensed : { (s.memberCounted n g).bus with groupAt := (senseLine s n).bus.groupAt } = (senseLine s n).bus := by
  have hstarted := groupStarted_bus g ((senseLine s n).edgeCounted n)
  rwa [edgeCounted_bus] at hstarted

theorem memberCounted_pulses : (s.memberCounted n g).bus.pulses = if irqPulse n then s.bus.pulses.erase n else s.bus.pulses :=
  (congrArg BusState.pulses (memberCounted_sensed s n g) :).trans (senseLine_pulses s n)

theorem memberCounted_lines : (s.memberCounted n g).bus.sensed = if irqPulse n then s.bus.sensed else n :: s.bus.sensed :=
  (congrArg BusState.sensed (memberCounted_sensed s n g) :).trans (senseLine_sensed s n)

theorem memberCounted_restBus : { (s.memberCounted n g).bus with groupAt := s.bus.groupAt, pulses := s.bus.pulses, sensed := s.bus.sensed } = s.bus :=
  (congrArg (fun b : BusState => { b with groupAt := s.bus.groupAt, pulses := s.bus.pulses, sensed := s.bus.sensed }) (memberCounted_sensed s n g) :).trans
    (congrArg (fun b : BusState => { b with groupAt := s.bus.groupAt }) (senseLine_bus s n))

end

/-! ### A claim, with the lines shown -/

/-- The answer to a read reaches the bus alone. -/
theorem answer_rest {s u : State} (w : Word) (h : { u with regs := s.regs, bus := s.bus, fresh := s.fresh } = s) :
    { u.answer w with regs := s.regs, bus := s.bus, fresh := s.fresh } = s := h

section
variable {s t : State}

theorem rest_of_besideBus (h : besideBus t = besideBus s) : { t with regs := s.regs, bus := s.bus, fresh := s.fresh } = s :=
  (congrArg (fun x : State => { x with regs := s.regs, bus := s.bus, fresh := s.fresh }) h :)

theorem besideBus_of_rest (h : { t with regs := s.regs, bus := s.bus, fresh := s.fresh } = s) : besideBus t = besideBus s := (congrArg besideBus h :)

theorem besideBus_of_besideRegs (h : besideRegs t = besideRegs s) : besideBus t = besideBus s := (congrArg (fun x : State => { x with bus := {} }) h :)

end

/-- After a completion whose line is high again. -/
theorem completed_rest (s : State) (t : Fin 4) (n : Nat) :
    { irqLines (pendCount (irqEnd s t n) n) with regs := s.regs, bus := s.bus, fresh := s.fresh } = s := by
  have hlines := besideBus_of_besideRegs (irqLines_frame (pendCount (irqEnd s t n) n)).kept
  have hcounted := besideBus_of_besideRegs (pendCount_besideRegs (irqEnd s t n) n)
  exact rest_of_besideBus (hlines.trans (hcounted.trans (irqEnd_frame s t n).kept))

theorem answer_irqBit (s : State) (w : Word) (base n : Nat) : irqBit (s.answer w) base n = irqBit s base n := rfl
theorem answer_targets (s : State) (w : Word) : (s.answer w).bus.targets = s.bus.targets := rfl
theorem answer_reply (s : State) (w : Word) : (s.answer w).bus.reply = w := rfl

theorem claimWord_frame (s : State) (t : Fin 4) (count source : Nat) : RegFrame [IC_LCLM_COUNT t, IC_LCLM_SRC t] s (s.claimWord t count source) :=
  RegFrame.set (RegFrame.set (.refl _ _ s) (by simp) (lclmCount_ok t)) (by simp) (lclmSrc_ok t)

theorem claimWord_targets (s : State) (t : Fin 4) (count source : Nat) (w : Word) : ((s.claimWord t count source).answer w).bus.targets = s.bus.targets := (rfl)

theorem ofNat_signalled (b : Bool) : BitVec.ofNat 32 (if b then 255 else 0) = if b then 255 else 0 := by
  cases b with
  | false => rfl
  | true => rfl

/-- The bus and the bit sets beside, what the lines bring up to date leaves. -/
theorem irqLines_bus (s : State) : (irqLines s).bus = s.bus := (irqLines_frame s).bus

theorem irqLines_acc (s : State) {n : Nat} (hn : n < 160) : (irqLines s).get (IC_SRC_ACC n) = s.get (IC_SRC_ACC n) :=
  irqLines_get s _ (.inr (.inl ⟨by change 0x1639 ≤ 0x1640 + n; omega, by change 0x1640 + n < 0x16E1; omega⟩))

theorem irqLines_cur (s : State) (g : Fin 16) : (irqLines s).get (IC_GST_CUR g) = s.get (IC_GST_CUR g) :=
  irqLines_get s _ (.inl (by change 0x1628 + g.val < 0x1638; omega))

theorem irqLines_target (s : State) {g : Field} (hw : g.word ≠ 0x1638) (h : g.lo + g.width ≤ 8 ∨ g.word % 2 = 0) : (irqLines s).get g = s.get g :=
  (irqLines_frame s).get g (lineFields_apart_target hw h)

theorem irqLines_tstActive (s : State) (t : Fin 4) : (irqLines s).get (IC_TST_ACTIVE t) = s.get (IC_TST_ACTIVE t) :=
  irqLines_target s (by change 0x16E1 + 2 * t.val ≠ 0x1638; omega) (.inl (by change 0 + 8 ≤ 8; decide))

section
variable (s : State) (t : Fin 4) (n : Nat)

/-- The state after a claim of source n. -/
def State.claimShown : State := irqLines (s.claimed t n)

theorem claimShown_rest : { s.claimShown t n with regs := s.regs, bus := s.bus, fresh := s.fresh } = s :=
  rest_of_besideBus ((besideBus_of_besideRegs (irqLines_frame (s.claimed t n)).kept).trans (besideBus_of_rest (claimed_busFrame s t n)))

theorem claimShown_signalled : (s.claimShown t n).get (IC_TST_SIGNALLED t) = 0 := by
  rw [State.claimShown, irqLines_signalled, irqLine_claimed, if_neg (by simp), claimed_signalled]

theorem claimShown_active : (s.claimShown t n).bus.targets[t].active = some (n, s.get (IC_SRC_ACC n) - irqLate s n, s.bit (IC_SRC_SAT n)) := by
  rw [State.claimShown, irqLines_bus, claimed_active]

theorem claimShown_count : (s.claimShown t n).get (IC_LCLM_COUNT t) = s.get (IC_SRC_ACC n) - irqLate s n := by
  rw [State.claimShown, irqLines_target _ (by change 0x16E0 + 2 * t.val ≠ 0x1638; omega) (.inr (by change (0x16E0 + 2 * t.val) % 2 = 0; omega)), claimed_count]

theorem claimShown_source : (s.claimShown t n).get (IC_LCLM_SRC t) = n % 256 := by
  rw [State.claimShown, irqLines_target _ (by change 0x16E0 + 2 * t.val ≠ 0x1638; omega) (.inl (by change 0 + 8 ≤ 8; decide)), claimed_source]

theorem claimShown_line : ((s.claimShown t n).get IC_ST_LINE).testBit t = false := by
  rw [State.claimShown, irqLines_line, irqLine_claimed]

variable (hn : n < 160)
include hn

theorem claimShown_tstActive : (s.claimShown t n).get (IC_TST_ACTIVE t) = n % 256 := by
  rw [State.claimShown, irqLines_tstActive, claimed_tstActive s t n hn]

theorem claimShown_served : irqBit (s.claimShown t n) 0x1620 n = true := by
  rw [State.claimShown, irqLines_irqBit _ _ _ (by omega), claimed_inService s t n hn]

theorem claimShown_pending : irqBit (s.claimShown t n) 0x1610 n = irqAgain s n := by
  rw [State.claimShown, irqLines_irqBit _ _ _ (by omega), claimed_pending s t n hn]

theorem claimShown_acc : (s.claimShown t n).get (IC_SRC_ACC n) = irqLate s n := by
  rw [State.claimShown, irqLines_acc _ hn, claimed_acc s t n hn]

theorem claimShown_sat : (s.claimShown t n).get (IC_SRC_SAT n) = 0 := by
  rw [State.claimShown, irqLines_get _ _ (.inr (.inl ⟨by change 0x1639 ≤ 0x1640 + n; omega, by change 0x1640 + n < 0x16E1; omega⟩)), claimed_sat s t n hn]

theorem pendCount_served : irqBit (pendCount s n) 0x1620 n = irqBit s 0x1620 n := by
  rw [pendCount, setIrqBit_irqBit_ne _ _ _ _ _ _ (by omega), irqCount_irqBit _ _ _ _ _ (by omega)]

end

theorem BusFrame.rest_of_senseLine {l : List Field} {s t : State} {n : Nat} (h : BusFrame l (senseLine s n) t) :
    { t with regs := s.regs, bus := s.bus, fresh := s.fresh } = s :=
  (congrArg (fun x : State => { x with regs := s.regs, bus := s.bus, fresh := s.fresh }) h.kept :)

/-- A field put as it reads changes no register bit. -/
theorem sameBut_set_self (s : State) (f : Field) (h : f.ok) : sameBut [] s (s.set f (s.get f)) := by
  intro a i _
  by_cases ha : a = f.word
  · have hset : (s.set f (s.get f)).word f.word = setBits (s.word f.word) f.lo f.width (s.get f) := State.word_setWord_same _ _ _
    rw [ha, hset, getLsbD_setBits _ _ _ _ _ h]
    split
    · rename_i hi
      rw [State.get, testBit_getBits, Nat.add_sub_cancel' hi.1, decide_eq_true (by omega), Bool.true_and]
    · rfl
  · rw [State.word_set_ne _ _ _ _ ha]

/-- The fields of a full count that an edge changes. -/
def fullFields (n : Nat) : List Field := [IC_OVF, IC_SRC_SAT n, IC_EVT_ACCSAT]

section
variable (s : State) (n : Nat) (h : s.get (IC_SRC_ACC n) = 0xFFFFF)
include h

theorem irqCount_full :
    irqCount s n 1 = (((s.set (IC_SRC_ACC n) (s.get (IC_SRC_ACC n))).set IC_OVF (s.get IC_OVF + 1)).set (IC_SRC_SAT n) 1).event IC_EVT_ACCSAT := by
  rw [irqCount_beyond s n 1 (by omega), h]

theorem edgeCounted_frame_full : RegFrame (fullFields n) s (s.edgeCounted n) := by
  have hsame : RegFrame (fullFields n) s (s.set (IC_SRC_ACC n) (s.get (IC_SRC_ACC n))) := ⟨sameBut_mono (sameBut_set_self s _ (srcAcc_ok n)) (by simp), rfl⟩
  have hcounted : RegFrame (fullFields n) s (irqCount s n 1) := by
    rw [irqCount_full s n h]
    exact RegFrame.event (RegFrame.set (RegFrame.set hsame (by simp [fullFields]) (by decide)) (by simp [fullFields]) (srcSat_ok n)) (by simp [fullFields]) (by decide)
  exact hcounted.beside rfl rfl

theorem edgeCounted_acc_full : (s.edgeCounted n).get (IC_SRC_ACC n) = 0xFFFFF := by
  rw [edgeCounted_get, irqCount_acc, h]
  rfl

theorem edgeCounted_ovf_full : (s.edgeCounted n).get IC_OVF = (s.get IC_OVF + 1) % 2 ^ 32 := by
  rw [edgeCounted_get, irqCount_full s n h, State.get_event_ne _ _ _ (by decide) (by decide), State.get_set_ne _ _ _ _ (srcSat_ok n) (.inl (by change 0x1640 + n ≠ 0x163B; omega)),
    State.get_set_same _ _ _ (by decide)]
  rfl

theorem edgeCounted_sat_full : (s.edgeCounted n).get (IC_SRC_SAT n) = 1 := by
  rw [edgeCounted_get, irqCount_full s n h, State.get_event_ne _ _ _ (by decide) (.inl (by change 0x1639 ≠ 0x1640 + n; omega)), State.get_set_same _ _ _ (srcSat_ok n)]
  rfl

theorem edgeCounted_evt_full : (s.edgeCounted n).get IC_EVT_ACCSAT = 1 := by
  rw [edgeCounted_get, irqCount_full s n h, State.get_event_same _ _ (by decide) rfl]

end

end Sys2Proof.Machine
end
section
/-!
PROOFS. The statement about the interrupt controller (18 R447 to R455).
-/

namespace Sys2Proof.Machine

section
variable {s : State} {n : Fin 160}

/-- The pulses and lines sensed after an edge. -/
theorem bus_of_senseLine {t : State} (h : t.bus = (senseLine s n).bus) :
    (t.bus.pulses = if irqPulse n then s.bus.pulses.erase n else s.bus.pulses) ∧ (t.bus.sensed = if irqPulse n then s.bus.sensed else n.val :: s.bus.sensed) ∧
      { t.bus with pulses := s.bus.pulses, sensed := s.bus.sensed } = s.bus := by
  rw [h]
  exact ⟨senseLine_pulses s n, senseLine_sensed s n, senseLine_bus s n⟩

end

/-- Settles O45: an operation changes its own words, one lemma each; `irqLines_frame`, `irqLines_line` and `irqLines_signalled` say what bringing the lines up to date adds. -/
theorem interruptEventsAreCountedGroupedAndDelivered : Obligations.InterruptEventsAreCountedGroupedAndDelivered := by
  unfold Obligations.InterruptEventsAreCountedGroupedAndDelivered
  refine ⟨?edge, ?full, ?member, ?reached, ?fire, ?pset, ?pclr, ?eset, ?eclr, ?claim, ?claimNone, ?claimHeld, ?complete, ?completeHigh, ?bad⟩
  case edge =>
    intro n tg s halive hn hlisted hrose hgroup hacc henabled hserved htgt hworld hidle
    have hedge := edgePended_frame_below s n hacc
    have hframe : RegFrame (IC_SRC_ACC n :: irqField 0x1610 n :: lineFields) (senseLine s n) (irqLines (s.edgePended n)) :=
      (hedge.mono (by simp)).trans ((irqLines_frame _).mono (by intro f hf; simp [hf]))
    obtain ⟨hpulses, hsensed, hbus⟩ := bus_of_senseLine hframe.bus
    have hline := irqLine_edgePended s n hn hacc tg henabled hserved htgt hworld hidle
    have hshown : (s.edgePended n).get IC_ST_LINE = s.get IC_ST_LINE := edgePended_get s n hn hacc (.inr (.inl ⟨by decide, by change 0x1638 ≠ 0x1640 + n.val; omega⟩))
    refine ⟨irqLines (s.edgePended n), (exec_irqSourceEdge halive hn hlisted hrose).trans (congrArg _ (irqEdge_sensed s n hgroup)), ?_, irqLines_edge_pending s n hn, ?_, ?_,
      hpulses, hsensed, hbus, hframe.rest_of_senseLine, hframe.regs⟩
    · rw [irqLines_acc _ n.isLt, edgePended_acc s n hn, edgeCounted_acc_below (senseLine s n) n hacc]
      rfl
    · rw [irqLines_line, hline]
    · intro hlow
      rw [irqLines_signalled, hshown, if_pos ⟨hline, hlow⟩]
  case full =>
    intro n s halive hn hlisted hrose hgroup hacc
    have hedge := edgePended_frame s n (edgeCounted_frame_full (senseLine s n) n hacc)
    have hframe : RegFrame (IC_OVF :: IC_SRC_SAT n :: IC_EVT_ACCSAT :: irqField 0x1610 n :: lineFields) (senseLine s n) (irqLines (s.edgePended n)) :=
      (hedge.mono (by simp [fullFields])).trans ((irqLines_frame _).mono (by intro f hf; simp [hf]))
    obtain ⟨hpulses, hsensed, hbus⟩ := bus_of_senseLine hframe.bus
    have hread (g : Field) (hg : 0x1639 ≤ g.word) (hg' : g.word < 0x16E1) : (irqLines (s.edgePended n)).get g = ((senseLine s n).edgeCounted n).get g :=
      (irqLines_get _ g (.inr (.inl ⟨hg, hg'⟩))).trans (pendEvent_get _ n g (by omega))
    refine ⟨irqLines (s.edgePended n), (exec_irqSourceEdge halive hn hlisted hrose).trans (congrArg _ (irqEdge_sensed s n hgroup)), ?_, ?_, ?_, ?_, irqLines_edge_pending s n hn,
      hpulses, hsensed, hbus, hframe.rest_of_senseLine, hframe.regs⟩
    · exact (hread _ (by change 0x1639 ≤ 0x1640 + n.val; omega) (by change 0x1640 + n.val < 0x16E1; omega)).trans (edgeCounted_acc_full (senseLine s n) n hacc)
    · exact (hread _ (by decide) (by decide)).trans (edgeCounted_ovf_full (senseLine s n) n hacc)
    · exact (hread _ (by change 0x1639 ≤ 0x1640 + n.val; omega) (by change 0x1640 + n.val < 0x16E1; omega)).trans (edgeCounted_sat_full (senseLine s n) n hacc)
    · exact (hread _ (by decide) (by decide)).trans (edgeCounted_evt_full (senseLine s n) n hacc)
  case member =>
    intro n g s halive hn hlisted hrose hgroup hacc hfew
    have hcount : s.get (IC_GCFG_COUNT g) < 256 := getBits_lt _ _ _
    have hedge : irqEdge (senseLine s n) n = irqLines (s.memberCounted n g) := by
      rw [irqEdge_grouped (senseLine s n) n g hgroup, groupEdge_member_below s n g hacc hn hfew]
    have hframe : BusFrame (IC_SRC_ACC n :: IC_GST_CUR g :: lineFields) (senseLine s n) (irqLines (s.memberCounted n g)) :=
      ((memberCounted_busFrame s n g hacc).mono (by simp)).trans ((irqLines_frame _).busFrame.mono (by intro f hf; simp [hf]))
    refine ⟨irqLines (s.memberCounted n g), (exec_irqSourceEdge halive hn hlisted hrose).trans (congrArg _ hedge), ?_, ?_, ?_, ?_, ?_, ?_, ?_, hframe.rest_of_senseLine, ?_, hframe.regs⟩
    · rw [irqLines_acc _ n.isLt, memberCounted_acc s n g hacc]
    · rw [irqLines_cur, memberCounted_cur s n g hacc (by omega)]
    · intro m
      rw [irqLines_irqBit _ _ _ (by omega), memberCounted_irqBit s n g hacc m m.isLt]
    · rw [irqLines_bus, memberCounted_groupAt]
      cases s.bus.groupAt[g] with
      | none => rfl
      | some x => rfl
    · intro h hne
      rw [irqLines_bus, memberCounted_groupAt_ne s n g h hne]
    · rw [irqLines_bus, memberCounted_pulses]
    · rw [irqLines_bus, memberCounted_lines]
    · rw [irqLines_bus, memberCounted_restBus]
  case reached =>
    intro n g s halive hn hlisted hrose hgroup hacc hcur hc
    have hedge : irqEdge (senseLine s n) n = irqLines (groupFire (s.memberCounted n g) g) := by
      rw [irqEdge_grouped (senseLine s n) n g hgroup, groupEdge_member_reached s n g hacc hn hcur hc]
    have hacc' : (irqLines (groupFire (s.memberCounted n g) g)).get (IC_SRC_ACC n) = s.get (IC_SRC_ACC n) + 1 := by
      rw [irqLines_acc _ n.isLt, groupFire_acc, memberCounted_acc s n g hacc]
    have hbits (m : Fin 160) : irqBit (irqLines (groupFire (s.memberCounted n g) g)) 0x1610 m =
        (irqBit s 0x1610 m || (s.get (IC_SRC_GROUP m) == g.val + 1 && (irqLines (groupFire (s.memberCounted n g) g)).get (IC_SRC_ACC m) != 0)) := by
      rw [irqLines_irqBit _ _ _ (by omega), groupFire_irqBit g _ m.isLt, memberCounted_irqBit s n g hacc m m.isLt, groupCounts, memberCounted_group s n g hacc m,
        irqLines_acc _ m.isLt, groupFire_acc]
    refine ⟨irqLines (groupFire (s.memberCounted n g) g), (exec_irqSourceEdge halive hn hlisted hrose).trans (congrArg _ hedge), hacc', ?_, ?_, ?_, hbits⟩
    · rw [irqLines_cur, groupFire_cur]
    · rw [irqLines_bus, groupFire_groupAt]
    · rw [hbits n, hgroup, hacc']
      simp
  case fire =>
    intro g at_ s halive hat hdue
    have hframe : BusFrame (lineFields ++ IC_GST_CUR g :: pendFields) s (irqLines (groupFire s g)) :=
      ((groupFire_frame g s).mono fun f hf => List.mem_append_right _ hf).trans ((irqLines_frame _).busFrame.mono fun f hf => List.mem_append_left _ hf)
    refine ⟨irqLines (groupFire s g), ?_, ?_, ?_, ?_, ?_, hframe.rest⟩
    · change execIrqGroupFire g s = _
      rw [execIrqGroupFire, if_pos]
      rw [groupDue, hat, halive]
      exact decide_eq_true hdue
    · rw [irqLines_cur, groupFire_cur]
    · rw [irqLines_bus, groupFire_groupAt]
    · intro m
      rw [irqLines_irqBit _ _ _ (by omega), groupFire_irqBit g s m.isLt, groupCounts]
    · intro m
      rw [irqLines_acc _ m.isLt, groupFire_acc]
  case pset =>
    intro door j v s hdoor
    have hlt {n : Nat} (h : n ∈ irqListedBits j v) : n < 160 := irqListedBits_lt j.isLt v h
    have hnodup := nodup_irqListedBits j v
    refine ⟨writePset s j v, ?_, ?_, ?_, ?_, ?_, ?_⟩
    · exact congrArg _ (atDoor_open s door _ _ hdoor)
    · intro n
      rw [writePset_eq, irqLines_irqBit _ _ _ (by omega), foldl_pendCount_irqBit s _ hnodup n.isLt, irqListedBits_named]
    · intro n hj hv hl
      rw [writePset_eq, irqLines_acc _ n.isLt, foldl_pendCount_acc s _ hnodup (fun _ => hlt), if_pos ((mem_irqListedBits j v).2 ⟨hj, hv, hl⟩)]
    · intro n hj
      rw [writePset_eq, irqLines_acc _ n.isLt, foldl_pendCount_acc s _ hnodup (fun _ => hlt), if_neg fun h => hj ((mem_irqListedBits j v).1 h).1]
    · intro n
      have hkept := List.foldlRecOn (irqListedBits j v) pendCount (motive := fun t => irqBit t 0x1600 n = irqBit s 0x1600 n) rfl fun t ht k _ => (pendCount_enabled t k n.isLt).trans ht
      rw [writePset_eq, irqLines_irqBit _ _ _ (by omega), hkept]
    · exact rest_of_besideRegs ((irqLines_frame _).kept.trans (foldl_kept pendCount_besideRegs _ s))
  case pclr =>
    intro door j v s hdoor
    have hlt {n : Nat} (h : n ∈ irqListedBits j v) : n < 160 := irqListedBits_lt j.isLt v h
    have hnodup := nodup_irqListedBits j v
    have hview (n : Fin 160) := foldl_clearPend_view _ hnodup (fun _ => hlt) n.isLt s
    refine ⟨writePclr s j v, congrArg _ (atDoor_open s door _ _ hdoor), ?_, ?_, ?_, ?_⟩
    · intro n
      have hbit := congrArg Prod.fst (hview n)
      rw [writePclr, irqLines_irqBit _ _ _ (by omega), ← irqListedBits_named]
      refine hbit.trans ?_
      by_cases hin : n.val ∈ irqListedBits j v
      · cases hb : irqBit s 0x1610 n <;> cases hw : irqNew s n <;> simp [hin, irqClears, clearView, hb, hw]
      · simp [hin, clearView]
    · intro n
      have hacc := congrArg (fun x => x.2.1) (hview n)
      rw [writePclr, irqLines_acc _ n.isLt]
      refine hacc.trans ?_
      by_cases hin : n.val ∈ irqListedBits j v ∧ irqClears s n = true
      · obtain ⟨hb, hw⟩ := Bool.and_eq_true_iff.1 hin.2
        obtain ⟨hj, hv, hl⟩ := (mem_irqListedBits j v).1 hin.1
        rw [if_pos hin, if_pos ⟨hj, hv, hl, hb, (Bool.not_eq_true' _).mp hw⟩]
      · rw [if_neg hin, if_neg]
        · rfl
        · rintro ⟨hj, hv, hl, hb, hw⟩
          exact hin ⟨(mem_irqListedBits j v).2 ⟨hj, hv, hl⟩, by rw [irqClears, hb, hw]; rfl⟩
    · have hdisc := foldl_clearPend_disc _ hnodup (fun _ => hlt) s
      rw [writePclr, irqLines_get _ _ (.inr (.inl ⟨by decide, by decide⟩)), hdisc, irqListedBits, List.filter_map, List.filter_filter, List.map_map]
      have hfilter : (fun b => (irqClears s ∘ (32 * j.val + ·)) b && (v.getLsbD b && irqListed (32 * j.val + b))) =
          fun b => v.getLsbD b && irqListed (32 * j.val + b) && irqBit s 0x1610 (32 * j.val + b) && !irqNew s (32 * j.val + b) := by
        funext b
        rw [Bool.and_comm, Bool.and_assoc (_ && _)]
        rfl
      rw [hfilter]
      rfl
    · exact rest_of_besideRegs ((irqLines_frame _).kept.trans (foldl_kept clearPend_besideRegs _ s))
  case eset =>
    intro door j v s hdoor
    have hframe := foldl_setIrqBit_frame j s 0x1600 true (irqListedBits j v) fun n hn => ((mem_irqListedBits j v).1 hn).1
    have hall : RegFrame (wholeWord (0x1600 + j.val) :: lineFields) s (writeEset s j v) :=
      (hframe.mono (by simp)).trans ((irqLines_frame _).mono (by intro f hf; simp [hf]))
    refine ⟨writeEset s j v, congrArg _ (atDoor_open s door _ _ hdoor), fun n => ?_, hall.onlyFields⟩
    rw [writeEset, irqLines_irqBit _ _ _ (by omega), foldl_setIrqBit_irqBit s 0x1600 true n _ (nodup_irqListedBits j v), ← irqListedBits_named]
    by_cases hn : n.val ∈ irqListedBits j v
    · rw [if_pos hn, decide_eq_true hn, Bool.or_true]
    · rw [if_neg hn, decide_eq_false hn, Bool.or_false]
  case eclr =>
    intro door j v s hdoor
    have hframe := foldl_setIrqBit_frame j s 0x1600 false (irqListedBits j v) fun n hn => ((mem_irqListedBits j v).1 hn).1
    have hall : RegFrame (wholeWord (0x1600 + j.val) :: lineFields) s (writeEclr s j v) :=
      (hframe.mono (by simp)).trans ((irqLines_frame _).mono (by intro f hf; simp [hf]))
    refine ⟨writeEclr s j v, congrArg _ (atDoor_open s door _ _ hdoor), fun n => ?_, hall.onlyFields⟩
    rw [writeEclr, irqLines_irqBit _ _ _ (by omega), foldl_setIrqBit_irqBit s 0x1600 false n _ (nodup_irqListedBits j v), ← irqListedBits_named]
    by_cases hn : n.val ∈ irqListedBits j v
    · rw [if_pos hn, decide_eq_true hn, Bool.not_true, Bool.and_false]
    · rw [if_neg hn, decide_eq_false hn, Bool.not_false, Bool.and_true]
  case claim =>
    intro p n s hruns hidle hnext
    obtain ⟨hn, hlow⟩ := irqNext_some hnext
    refine ⟨(s.claimShown p.target n).answer (BitVec.ofNat 32 ((s.get (IC_SRC_ACC n) - irqLate s n) * 4096 + (if s.bit (IC_SRC_SAT n) then 2048 else 0) + n)),
      ?_, (State.answer_get _ _ _).trans (claimShown_tstActive s p.target n hn), (answer_irqBit _ _ _ _).trans (claimShown_served s p.target n hn),
      (answer_irqBit _ _ _ _).trans (claimShown_pending s p.target n hn), (State.answer_get _ _ _).trans (claimShown_acc s p.target n hn),
      (State.answer_get _ _ _).trans (claimShown_sat s p.target n hn), (State.answer_get _ _ _).trans (claimShown_signalled s p.target n),
      (congrArg (fun l : Vector IrqTarget 4 => l[p.target].active) (answer_targets _ _)).trans (claimShown_active s p.target n),
      (State.answer_get _ _ _).trans (claimShown_count s p.target n), (State.answer_get _ _ _).trans (claimShown_source s p.target n),
      (congrArg (fun k : Nat => k.testBit p.target) (State.answer_get _ _ _)).trans (claimShown_line s p.target n), answer_reply _ _, hlow, answer_rest _ (claimShown_rest s p.target n)⟩
    change execIrqClaim p s = _
    rw [execIrqClaim, if_pos hruns, irqClaim_next s p.target n hidle hnext]
    rfl
  case claimNone =>
    intro p s hruns hidle hnext
    have hshown := claimWord_frame s p.target 0 (if s.bit (IC_TST_SIGNALLED p.target) then 255 else 0)
    refine ⟨(s.claimWord p.target 0 (if s.bit (IC_TST_SIGNALLED p.target) then 255 else 0)).answer (BitVec.ofNat 32 (if s.bit (IC_TST_SIGNALLED p.target) then 255 else 0)),
      ?_, (answer_reply _ _).trans (ofNat_signalled _), answer_rest _ (RegFrame.busFrame hshown).rest, claimWord_targets _ _ _ _ _, sameBut_regs hshown.regs (State.answer_regs _ _)⟩
    change execIrqClaim p s = _
    rw [execIrqClaim, if_pos hruns, irqClaim_none s p.target hidle hnext]
  case claimHeld =>
    intro p x s hruns hactive
    have hshown := claimWord_frame s p.target 0 0
    refine ⟨(s.claimWord p.target 0 0).answer 0, ?_, answer_reply _ _, answer_rest _ (RegFrame.busFrame hshown).rest, claimWord_targets _ _ _ _ _, sameBut_regs hshown.regs (State.answer_regs _ _)⟩
    change execIrqClaim p s = _
    rw [execIrqClaim, if_pos hruns, irqClaim_active s p.target hactive]
  case complete =>
    intro p n c sat s hruns hactive hn hworld hlow
    have hquiet : (!irqPulse n && irqLevel (irqEnd s p.target n) n) = false := by
      rw [irqEnd_level s _ n hn]
      rcases hlow with h | h
      · rw [h]
        rfl
      · rw [h, Bool.and_false]
    have hframe : BusFrame (irqField 0x1620 n :: IC_TST_ACTIVE p.target :: lineFields) s (irqLines (irqEnd s p.target n)) :=
      ((irqEnd_frame s p.target n).mono (by simp)).trans ((irqLines_frame _).busFrame.mono (by intro f hf; simp [hf]))
    refine ⟨irqLines (irqEnd s p.target n), ?_, ?_, ?_, ?_, ?_, ?_, hframe.rest, hframe.regs⟩
    · change execIrqComplete p n s = _
      rw [execIrqComplete, if_pos hruns, irqComplete_active s p.target n hactive hworld, hquiet]
      rfl
    · rw [irqLines_bus, irqEnd_active]
    · rw [irqLines_irqBit _ _ _ (by omega), irqEnd_served s _ n hn]
    · rw [irqLines_tstActive, irqEnd_tstActive]
    · rw [irqLines_irqBit _ _ _ (by omega), irqEnd_pending s _ n hn]
    · rw [irqLines_acc _ hn, irqEnd_get s _ n hn _ (.inr ⟨by change 0x1625 ≤ 0x1640 + n; omega, by change 0x1640 + n < 0x16E0; omega⟩)]
  case completeHigh =>
    intro p n c sat s hruns hactive hn hworld hpulse hhigh hacc
    have hagain : (!irqPulse n && irqLevel (irqEnd s p.target n) n) = true := by
      rw [irqEnd_level s _ n hn, hpulse, hhigh]
      rfl
    refine ⟨irqLines (pendCount (irqEnd s p.target n) n), ?_, ?_, ?_, ?_, ?_, ?_⟩
    · change execIrqComplete p n s = _
      rw [execIrqComplete, if_pos hruns, irqComplete_active s p.target n hactive hworld, hagain]
      rfl
    · have hkept : (pendCount (irqEnd s p.target n) n).bus = (irqEnd s p.target n).bus := (congrArg State.bus (pendCount_besideRegs (irqEnd s p.target n) n) :)
      rw [irqLines_bus, hkept, irqEnd_active]
    · rw [irqLines_irqBit _ _ _ (by omega), pendCount_served _ n hn, irqEnd_served s _ n hn]
    · rw [irqLines_irqBit _ _ _ (by omega), pendCount_irqBit _ n hn, if_pos rfl]
    · rw [irqLines_acc _ hn, pendCount_acc _ n hn, if_pos rfl, irqEnd_get s _ n hn _ (.inr ⟨by change 0x1625 ≤ 0x1640 + n; omega, by change 0x1640 + n < 0x16E0; omega⟩)]
      exact Nat.min_eq_right (by omega)
    · exact completed_rest s p.target n
  case bad =>
    intro p n s hruns hbad
    refine ⟨s.event IC_EVT_BADCOMP, ?_, State.get_event_same _ _ (by decide) rfl, (RegFrame.event (.refl _ _ s) (by simp) (by decide)).onlyFields⟩
    change execIrqComplete p n s = _
    rw [execIrqComplete, if_pos hruns, irqComplete_bad s p.target n hbad]

end Sys2Proof.Machine
end

section
/-!
PROOFS. The pin engines' state (12 R289, R290, R314): what a change of one engine leaves, an engine's state and its bits of PE_GST, and one cycle of a running engine.
-/

namespace Sys2Proof.Machine

/-! ### A change of one engine -/

section
variable (s : State) (e : Fin 8) (f g : EngineState → EngineState)

theorem modEngine_same : (s.modEngine e f).engines[e] = f s.engines[e] := Vector.getElem_set_self e.isLt

theorem modEngine_ne (j : Fin 8) (h : j ≠ e) : (s.modEngine e f).engines[j] = s.engines[j] :=
  Vector.getElem_set_ne e.isLt j.isLt fun hc => h (Fin.ext hc.symm)

theorem modEngine_modEngine : (s.modEngine e f).modEngine e g = s.modEngine e (g ∘ f) := by
  have hsame : (s.modEngine e f).engines[e] = f s.engines[e] := modEngine_same s e f
  change { s with engines := (s.engines.set e (f s.engines[e])).set e (g (s.modEngine e f).engines[e]) } = { s with engines := s.engines.set e (g (f s.engines[e])) }
  rw [hsame, Vector.set_set]

theorem modEngine_rest : { s.modEngine e f with engines := s.engines } = s := rfl

variable {s e f} {l : List Field} {t : State} (h : RegFrame l (s.modEngine e f) t)
include h

theorem RegFrame.engines_of_modEngine : t.engines = (s.modEngine e f).engines := (congrArg State.engines h.kept :)

theorem RegFrame.engine_of_modEngine : t.engines[e] = f s.engines[e] := by
  rw [RegFrame.engines_of_modEngine h, modEngine_same]

theorem RegFrame.otherEngine_of_modEngine (j : Fin 8) (hj : j ≠ e) : t.engines[j] = s.engines[j] := by
  rw [RegFrame.engines_of_modEngine h, modEngine_ne s e f j hj]

theorem RegFrame.rest_of_modEngine : { t with regs := s.regs, engines := s.engines, fresh := s.fresh } = s :=
  (congrArg (fun x : State => { x with regs := s.regs, engines := s.engines, fresh := s.fresh }) h.kept :)

end

/-! ### An engine's state (12 R314) -/

/-- The fields that follow an engine's state. -/
def peStateFields (e : Fin 8) : List Field := [PE_ST_STATE e, PE_GST_RUNNING, PE_GST_STALLED, PE_GST_FAULTED]

/-- The fields that an engine's cycle changes whatever it executes. -/
def peCycleFields (e : Fin 8) : List Field := PE_ST_PC e :: peStateFields e

/-- Putting a bit of a number puts that bit. -/
theorem testBit_withBit_self (n e : Nat) (b : Bool) : (withBit n e b).testBit e = b := by
  unfold withBit
  split
  · assumption
  · rename_i hne
    cases b with
    | true =>
      rw [if_pos rfl, Nat.add_comm, Nat.testBit_two_pow_add_eq, Bool.eq_false_iff.2 hne]
      rfl
    | false =>
      have hset : n.testBit e = true := Bool.not_eq_false _ ▸ hne
      have hsplit : 2 ^ e + (n - 2 ^ e) = n := Nat.add_sub_cancel' (Nat.ge_two_pow_of_testBit hset)
      have hflip := Nat.testBit_two_pow_add_eq (n - 2 ^ e) e
      rw [hsplit, hset] at hflip
      rw [if_neg (by decide)]
      simpa using hflip.symm

/-- In a field of eight bits too. -/
theorem testBit_withBit_mod (n : Nat) (e : Fin 8) (b : Bool) : (withBit n e b % 2 ^ 8).testBit e = b := by
  rw [Nat.testBit_mod_two_pow, testBit_withBit_self, decide_eq_true e.isLt, Bool.true_and]

section
variable (s : State) (e : Fin 8) (st : Nat)

theorem setPeState_frame : RegFrame (peStateFields e) s (setPeState s e st) := by
  have hstate : (PE_ST_STATE e).ok := show 5 + 2 ≤ 32 by decide
  exact RegFrame.set (RegFrame.set (RegFrame.set (RegFrame.set (.refl _ _ s) (by simp [peStateFields]) hstate) (by simp [peStateFields]) (by decide)) (by simp [peStateFields]) (by decide))
    (by simp [peStateFields]) (by decide)

theorem gst_apart_state : ∀ f ∈ [PE_GST_RUNNING, PE_GST_STALLED, PE_GST_FAULTED], f.apart (PE_ST_STATE e) := by decide +revert

theorem setPeState_state : (setPeState s e st).get (PE_ST_STATE e) = st % 4 := by
  have hapart := gst_apart_state e
  unfold setPeState
  rw [State.get_set_ne _ _ _ _ (by decide) (hapart _ (by simp)), State.get_set_ne _ _ _ _ (by decide) (hapart _ (by simp)),
    State.get_set_ne _ _ _ _ (by decide) (hapart _ (by simp)), State.get_set_same _ _ _ (show 5 + 2 ≤ 32 by decide)]
  rfl

theorem setPeState_running : ((setPeState s e st).get PE_GST_RUNNING).testBit e = (st == 1 || st == 2) := by
  unfold setPeState
  rw [State.get_set_same _ _ _ (by decide)]
  exact testBit_withBit_mod _ e _

end

/-! ### One cycle of a running engine (12 R289, R290) -/

section
variable (s : State) (e : Fin 8)

/-- The engine takes its cycle at its PC. -/
def EngineState.atPc (x : EngineState) (pc : Nat) : EngineState := { x with cycle := false, lastPc := some pc }

/-- The module as engine e executes in its cycle. -/
def State.inCycle : State := s.modEngine e fun x => x.atPc (s.get (PE_ST_PC e))

theorem inCycle_get (f : Field) : (s.inCycle e).get f = s.get f := rfl
theorem inCycle_word (a : Nat) : (s.inCycle e).word a = s.word a := rfl
theorem inCycle_engine : (s.inCycle e).engines[e] = (s.engines[e]).atPc (s.get (PE_ST_PC e)) := modEngine_same s e _

/-- The engine completes an instruction and goes on at n. -/
def State.completed (u : State) (e : Fin 8) (n : Nat) : State := (setPeState u e 1).set (PE_ST_PC e) n

/-- A cycle of a running engine without an injection executes the instruction at its PC. -/
theorem peStep_running {w : Nat} {k : PeKind} (halive : s.alive = true) (hcycle : s.engines[e].cycle = true) (hinj : s.engines[e].inj = none)
    (hstate : s.get (PE_ST_STATE e) = 1) (hinstr : peInstr s e (s.get (PE_ST_PC e)) = w) (hkind : peKind w = k) (hlegal : k ≠ .reserved) :
    peStep s e w k =
      if (peExecute (s.inCycle e) e w (s.engines[e].lastPc != some (s.get (PE_ST_PC e))) false).done then
        (peExecute (s.inCycle e) e w (s.engines[e].lastPc != some (s.get (PE_ST_PC e))) false).st.completed e
          ((peExecute (s.inCycle e) e w (s.engines[e].lastPc != some (s.get (PE_ST_PC e))) false).jump.getD (s.get (PE_ST_PC e) + 1))
      else setPeState (peExecute (s.inCycle e) e w (s.engines[e].lastPc != some (s.get (PE_ST_PC e))) false).st e 2 := by
  have hready : (!s.alive || peKind w != k || !s.engines[e].cycle) = false := by
    rw [halive, hkind, hcycle, bne_self_eq_false]
    rfl
  have hruns : (peRuns s e && peInstr s e (s.get (PE_ST_PC e)) == w) = true := by
    rw [peRuns, hstate, hinstr, beq_self_eq_true w]
    rfl
  have hlast : (takeCycle s e).engines[e].lastPc = s.engines[e].lastPc := by
    rw [takeCycle, modEngine_same]
  have hcompose : ((takeCycle s e).modEngine e fun x => { x with lastPc := some (s.get (PE_ST_PC e)) }) = s.inCycle e := modEngine_modEngine s e _ _
  unfold peStep
  rw [hready, if_neg Bool.false_ne_true, hinj]
  dsimp only
  rw [if_pos hruns]
  unfold peCycle
  dsimp only
  rw [if_neg (by rw [hkind]; exact hlegal), hlast]
  rw [show (takeCycle s e).get (PE_ST_PC e) = s.get (PE_ST_PC e) from rfl, hcompose]
  rfl

variable {s e}

theorem completed_frame (u : State) (n : Nat) : RegFrame (peCycleFields e) u (u.completed e n) := by
  have hpc : (PE_ST_PC e).ok := show 0 + 5 ≤ 32 by decide
  exact RegFrame.set ((setPeState_frame u e 1).mono fun _ hf => List.mem_cons_of_mem _ hf) List.mem_cons_self hpc

theorem completed_pc (u : State) (n : Nat) : (u.completed e n).get (PE_ST_PC e) = n % 32 := State.get_set_same _ _ _ (show 0 + 5 ≤ 32 by decide)

theorem pc_apart_state (e : Fin 8) : (PE_ST_PC e).apart (PE_ST_STATE e) := by decide +revert

theorem completed_state (u : State) (n : Nat) : (u.completed e n).get (PE_ST_STATE e) = 1 := by
  rw [State.completed, State.get_set_ne _ _ _ _ (show 0 + 5 ≤ 32 by decide) (pc_apart_state e), setPeState_state]

end

end Sys2Proof.Machine
end

section
/-!
PROOFS. The instructions that shift, move and compute (12 R295 to R300): what one completed cycle leaves, one lemma per instruction, and the statement about them.
-/

namespace Sys2Proof.Machine

/-- Engine e stands at word w, of kind k, in a tick that has its cycle. -/
structure PeReady (s : State) (e : Fin 8) (w : Nat) (k : PeKind) : Prop where
  alive : s.alive = true
  cycle : s.engines[e].cycle = true
  inj : s.engines[e].inj = none
  state : s.get (PE_ST_STATE e) = 1
  instr : peInstr s e (s.get (PE_ST_PC e)) = w
  kind : peKind w = k

/-- Engine e completed an instruction, its own state changed by f, going on at n; of the registers fields of l differ, and those of a cycle. -/
structure PeCompleted (s : State) (e : Fin 8) (f : EngineState → EngineState) (l : List Field) (n : Nat) (t : State) : Prop where
  pc : t.get (PE_ST_PC e) = n % 32
  state : t.get (PE_ST_STATE e) = 1
  engine : t.engines[e] = f s.engines[e]
  others : ∀ j : Fin 8, j ≠ e → t.engines[j] = s.engines[j]
  rest : { t with regs := s.regs, engines := s.engines, fresh := s.fresh } = s
  regs : sameBut (peCycleFields e ++ l) s t

section
variable {s : State} {e : Fin 8} {w : Nat} {k : PeKind}

/-- An instruction that completes leaves the engine as its execution does, and the cycle's own fields. -/
theorem peStep_completes {u : State} {jump : Option Nat} (h : PeReady s e w k) (hlegal : k ≠ .reserved)
    (hexec : ∀ first, peExecute (s.inCycle e) e w first false = { st := u, jump := jump }) :
    peStep s e w k = u.completed e (jump.getD (s.get (PE_ST_PC e) + 1)) := by
  rw [peStep_running s e h.alive h.cycle h.inj h.state h.instr h.kind hlegal, hexec]
  rfl

theorem peCompleted_of_frame {f : EngineState → EngineState} {l : List Field} {u : State} (n : Nat) (h : RegFrame l (s.modEngine e f) u) :
    PeCompleted s e f l n (u.completed e n) := by
  have hframe : RegFrame (peCycleFields e ++ l) (s.modEngine e f) (u.completed e n) :=
    (h.mono fun _ hf => List.mem_append_right _ hf).trans ((completed_frame u n).mono fun _ hf => List.mem_append_left _ hf)
  exact ⟨completed_pc u n, completed_state u n, RegFrame.engine_of_modEngine hframe, RegFrame.otherEngine_of_modEngine hframe, RegFrame.rest_of_modEngine hframe, hframe.regs⟩

/-- A field apart from a cycle's own reads as the execution left it. -/
theorem completed_get (u : State) (n : Nat) (g : Field) (h : ∀ f ∈ peCycleFields e, f.apart g) : (u.completed e n).get g = u.get g := (completed_frame u n).get g h

theorem completed_word (u : State) (n a : Nat) (h : a ≠ 0x1401 ∧ a ≠ 0x1423 + 0x20 * e.val) : (u.completed e n).word a = u.word a := by
  have hset (x : State) (f : Field) (m : Nat) (hf : f.word = 0x1401 ∨ f.word = 0x1423 + 0x20 * e.val) : (x.set f m).word a = x.word a :=
    State.word_set_ne _ _ _ _ (by omega)
  unfold State.completed setPeState
  rw [hset _ _ _ (.inr rfl), hset _ _ _ (.inl rfl), hset _ _ _ (.inl rfl), hset _ _ _ (.inl rfl), hset _ _ _ (.inr rfl)]

/-- The engine's registers lie apart from a cycle's own fields. -/
theorem peCycleFields_apart (e : Fin 8) :
    ∀ g ∈ [PE_ST_TXLVL e, PE_ST_RXLVL e, PE_ST_NOUT e, PE_ST_NIN e, PE_ST_LVL e, PE_U e, PE_V e, PE_CNT e, PE_SIN e, PE_SOUT e, PE_RXIN e, PE_RXOUT e, PE_TXIN e, PE_TXOUT e],
      ∀ f ∈ peCycleFields e, f.apart g := by decide +revert

/-- The engine's data fields are apart from each other. -/
theorem peData_apart (e : Fin 8) :
    List.Pairwise Field.apart [PE_ST_TXLVL e, PE_ST_RXLVL e, PE_ST_NOUT e, PE_ST_NIN e, PE_ST_LVL e, PE_U e, PE_V e, PE_CNT e, PE_SIN e, PE_SOUT e, PE_RXIN e, PE_RXOUT e,
      PE_TXIN e, PE_TXOUT e] := by decide +revert

theorem nin_apart_sin (e : Fin 8) : (PE_ST_NIN e).apart (PE_SIN e) := by decide +revert
theorem rxlvl_apart_txlvl (e : Fin 8) : (PE_ST_RXLVL e).apart (PE_ST_TXLVL e) := by decide +revert

/-! ### SAMP and EMIT (12 R299) -/

section
variable (x : State) (e) (w)

/-- SAMP of n bits of v into SIN, newest in the lowest bits. -/
def State.shiftedIn (x : State) (e v n : Nat) : State :=
  (x.set (PE_SIN e) (x.get (PE_SIN e) * 2 ^ n + v % 2 ^ n)).set (PE_ST_NIN e) (min 32 (x.get (PE_ST_NIN e) + n))

theorem peSamp_u (hsrc : ib w 9 3 = 1) (hdir : x.get (PE_CFG_SINDIR e) = 0) : peSamp x e w = x.shiftedIn e (x.get (PE_U e)) (ib w 0 6) := by
  have hleft : x.bit (PE_CFG_SINDIR e) = false := State.bit_of_get_zero hdir
  unfold peSamp
  rw [hsrc]
  change (x.set (PE_SIN e) (if x.bit (PE_CFG_SINDIR e) then _ else _)).set _ _ = _
  rw [hleft]
  rfl

/-- EMIT of n bits out of SOUT into U, oldest first. -/
def State.shiftedOut (x : State) (e n : Nat) : State :=
  ((x.set (PE_SOUT e) (x.get (PE_SOUT e) * 2 ^ n)).set (PE_ST_NOUT e) (min 32 (x.get (PE_ST_NOUT e) + n))).set (PE_U e) (x.get (PE_SOUT e) / 2 ^ (32 - n))

theorem peEmit_u (hdst : ib w 9 3 = 1) (hdir : x.get (PE_CFG_SOUTDIR e) = 0) : peEmit x e w = x.shiftedOut e (ib w 0 6) := by
  have hleft : x.bit (PE_CFG_SOUTDIR e) = false := State.bit_of_get_zero hdir
  unfold peEmit
  rw [hdst, hleft]
  rfl

variable (v n : Nat)

theorem shiftedIn_frame : RegFrame [PE_SIN e, PE_ST_NIN e] x (x.shiftedIn e v n) :=
  RegFrame.set (RegFrame.set (.refl _ _ x) (by simp) (show 0 + 32 ≤ 32 by decide)) (by simp) (show 8 + 6 ≤ 32 by decide)

theorem shiftedIn_sin : (x.shiftedIn e v n).get (PE_SIN e) = (x.get (PE_SIN e) * 2 ^ n + v % 2 ^ n) % 2 ^ 32 := by
  rw [State.shiftedIn, State.get_set_ne _ _ _ _ (show 8 + 6 ≤ 32 by decide) (nin_apart_sin e), State.get_set_same _ _ _ (show 0 + 32 ≤ 32 by decide)]
  rfl

theorem shiftedIn_nin : (x.shiftedIn e v n).get (PE_ST_NIN e) = min 32 (x.get (PE_ST_NIN e) + n) := by
  rw [State.shiftedIn, State.get_set_same _ _ _ (show 8 + 6 ≤ 32 by decide)]
  exact Nat.mod_eq_of_lt (show _ < 64 by omega)

theorem shiftedOut_frame : RegFrame [PE_U e, PE_SOUT e, PE_ST_NOUT e] x (x.shiftedOut e n) :=
  RegFrame.set (RegFrame.set (RegFrame.set (.refl _ _ x) (by simp) (show 0 + 32 ≤ 32 by decide)) (by simp) (show 16 + 6 ≤ 32 by decide)) (by simp) (show 0 + 32 ≤ 32 by decide)

theorem shiftedOut_apart (e : Fin 8) : (PE_U e).apart (PE_SOUT e) ∧ (PE_U e).apart (PE_ST_NOUT e) ∧ (PE_ST_NOUT e).apart (PE_SOUT e) := by decide +revert

theorem shiftedOut_u : (x.shiftedOut e n).get (PE_U e) = x.get (PE_SOUT e) / 2 ^ (32 - n) := by
  have hlt : x.get (PE_SOUT e) < 2 ^ 32 := getBits_lt _ _ _
  rw [State.shiftedOut, State.get_set_same _ _ _ (show 0 + 32 ≤ 32 by decide)]
  exact Nat.mod_eq_of_lt (Nat.lt_of_le_of_lt (Nat.div_le_self _ _) hlt)

theorem shiftedOut_sout : (x.shiftedOut e n).get (PE_SOUT e) = x.get (PE_SOUT e) * 2 ^ n % 2 ^ 32 := by
  obtain ⟨husout, -, hnout⟩ := shiftedOut_apart e
  rw [State.shiftedOut, State.get_set_ne _ _ _ _ (show 0 + 32 ≤ 32 by decide) husout, State.get_set_ne _ _ _ _ (show 16 + 6 ≤ 32 by decide) hnout,
    State.get_set_same _ _ _ (show 0 + 32 ≤ 32 by decide)]
  rfl

theorem shiftedOut_nout : (x.shiftedOut e n).get (PE_ST_NOUT e) = min 32 (x.get (PE_ST_NOUT e) + n) := by
  obtain ⟨-, hunout, -⟩ := shiftedOut_apart e
  rw [State.shiftedOut, State.get_set_ne _ _ _ _ (show 0 + 32 ≤ 32 by decide) hunout, State.get_set_same _ _ _ (show 16 + 6 ≤ 32 by decide)]
  exact Nat.mod_eq_of_lt (show _ < 64 by omega)

end

/-! ### XFER (12 R300, R306) -/

section
variable (x : State) (e : Fin 8) (v : Word)

theorem showQueues_frame : RegFrame [PE_ST_TXLVL e, PE_ST_RXLVL e] x (showQueues x e) :=
  RegFrame.set (RegFrame.set (.refl _ _ x) (by simp) (show 24 + 4 ≤ 32 by decide)) (by simp) (show 28 + 4 ≤ 32 by decide)

theorem showQueues_rxlvl : (showQueues x e).get (PE_ST_RXLVL e) = x.engines[e].rx.length % 16 := State.get_set_same _ _ _ (show 28 + 4 ≤ 32 by decide)

theorem showQueues_txlvl : (showQueues x e).get (PE_ST_TXLVL e) = x.engines[e].tx.length % 16 := by
  rw [showQueues, State.get_set_ne _ _ _ _ (show 28 + 4 ≤ 32 by decide) (rxlvl_apart_txlvl e), State.get_set_same _ _ _ (show 24 + 4 ≤ 32 by decide)]
  rfl

/-- A queue holds at most eight words (12 R304). -/
theorem rxDepth_le (n : Nat) : rxDepth x n ≤ 8 := by
  unfold rxDepth
  split
  · decide
  · split <;> decide

theorem txDepth_le (n : Nat) : txDepth x n ≤ 8 := by
  unfold txDepth
  split
  · decide
  · split <;> decide

/-- A queue's count goes up, and the levels are shown. -/
def State.queueCounted (x : State) (e : Fin 8) (count : Field) : State := showQueues (x.set count (x.get count + 1)) e

theorem rxPut_eq : rxPut x e v = (x.modEngine e fun y => { y with rx := y.rx ++ [v] }).queueCounted e (PE_RXIN e) := rfl

theorem txTake_eq : txTake x e = (x.modEngine e fun y => { y with tx := y.tx.tail }).queueCounted e (PE_TXOUT e) := rfl

section
variable {count : Field} (hw : count.width = 32) (hlo : count.lo = 0)
include hw hlo

theorem queueCounted_frame : RegFrame [count, PE_ST_TXLVL e, PE_ST_RXLVL e] x (x.queueCounted e count) := by
  have hset : RegFrame [count, PE_ST_TXLVL e, PE_ST_RXLVL e] x (x.set count (x.get count + 1)) := RegFrame.set (.refl _ _ x) (by simp) (by rw [Field.ok, hw, hlo])
  exact hset.trans ((showQueues_frame _ e).mono (by simp))

theorem queueCounted_count (hword : count.word ≠ 0x1423 + 0x20 * e.val) : (x.queueCounted e count).get count = (x.get count + 1) % 2 ^ 32 := by
  have hapart : ∀ f ∈ [PE_ST_TXLVL e, PE_ST_RXLVL e], f.apart count := by
    intro f hf
    simp only [List.mem_cons, List.not_mem_nil, or_false] at hf
    rcases hf with rfl | rfl
    · exact .inl hword.symm
    · exact .inl hword.symm
  rw [State.queueCounted, (showQueues_frame _ e).get _ hapart, State.get_set_same _ _ _ (by rw [Field.ok, hw, hlo]), hw]

end

theorem queueCounted_rxlvl (count : Field) : (x.queueCounted e count).get (PE_ST_RXLVL e) = x.engines[e].rx.length % 16 := showQueues_rxlvl _ e

end

/-! ### Executions that complete -/

/-- The state of the engine that executes, changed further. -/
theorem inCycle_modEngine (g : EngineState → EngineState) :
    (s.inCycle e).modEngine e g = s.modEngine e fun y => g (y.atPc (s.get (PE_ST_PC e))) := modEngine_modEngine s e _ _

theorem rxRoom_iff : rxRoom (s.inCycle e) e 1 = decide (s.engines[e].rx.length < rxDepth s e) := by
  rw [rxRoom, inCycle_engine]
  rfl

theorem txReady_inCycle : txReady (s.inCycle e) e = txReady s e := by
  rw [txReady, inCycle_engine]
  rfl

/-- SIN moves into RX. -/
def State.sinMoved (s : State) (e : Fin 8) : State := clearSin (rxPut (s.inCycle e) e (s.word (PE_SIN e).word)) e

/-- U is copied into RX. -/
def State.uMoved (s : State) (e : Fin 8) : State := rxPut (s.inCycle e) e (s.word (PE_U e).word)

/-- RX is full: the stall is shown and counted. -/
def State.rxStalled (s : State) (e : Fin 8) : State := ((s.inCycle e).event (PE_EVT_RXSTALL e)).bump (PE_STALL_RX e) 1

/-- The oldest TX word goes to SOUT. -/
def State.soutFilled (s : State) (e : Fin 8) (v : Word) : State := ((txTake (s.inCycle e) e).set (PE_SOUT e) v.toNat).set (PE_ST_NOUT e) 0

/-- The oldest TX word goes to U. -/
def State.uFilled (s : State) (e : Fin 8) (v : Word) : State := (txTake (s.inCycle e) e).set (PE_U e) v.toNat

theorem peExecute_sinToRx (hkind : peKind w = .sinToRx) (hroom : s.engines[e].rx.length < rxDepth s e) (first : Bool) :
    peExecute (s.inCycle e) e w first false = { st := s.sinMoved e } := by
  have hfree : rxRoom (s.inCycle e) e 1 = true := rxRoom_iff.trans (decide_eq_true hroom)
  rw [peExecute, hkind]
  dsimp only
  rw [peXferRx]
  dsimp only
  rw [if_pos hfree]
  rfl

theorem peExecute_uToRx (hkind : peKind w = .uToRx) (hroom : s.engines[e].rx.length < rxDepth s e) (first : Bool) :
    peExecute (s.inCycle e) e w first false = { st := s.uMoved e } := by
  have hfree : rxRoom (s.inCycle e) e 1 = true := rxRoom_iff.trans (decide_eq_true hroom)
  rw [peExecute, hkind]
  dsimp only
  rw [peXferRx]
  dsimp only
  rw [if_pos hfree]
  rfl

theorem peExecute_uToRx_full (hkind : peKind w = .uToRx) (hfull : rxDepth s e ≤ s.engines[e].rx.length) (hblock : ib w 9 1 = 1) (hstate : s.get (PE_ST_STATE e) = 1)
    (first : Bool) : peExecute (s.inCycle e) e w first false = { st := s.rxStalled e, done := false } := by
  have hfree : rxRoom (s.inCycle e) e 1 = false := rxRoom_iff.trans (decide_eq_false (Nat.not_lt.2 hfull))
  have hfirst : (false || !first && (s.inCycle e).get (PE_ST_STATE e) == 2) = false := by
    rw [inCycle_get, hstate, Bool.false_or]
    exact Bool.and_false _
  rw [peExecute, hkind]
  dsimp only
  rw [peXferRx]
  dsimp only
  rw [hfree, if_neg Bool.false_ne_true, if_pos hblock, xferStall, if_neg (by rw [hfirst]; decide)]
  rfl

theorem peExecute_txToSout {v : Word} {l : List Word} (hkind : peKind w = .txToSout) (hready : txReady s e = v :: l) (first : Bool) :
    peExecute (s.inCycle e) e w first false = { st := s.soutFilled e v } := by
  rw [peExecute, hkind]
  dsimp only
  rw [peXferTx, txReady_inCycle, hready]
  rfl

theorem peExecute_txToU {v : Word} {l : List Word} (hkind : peKind w = .txToU) (hready : txReady s e = v :: l) (first : Bool) :
    peExecute (s.inCycle e) e w first false = { st := s.uFilled e v } := by
  rw [peExecute, hkind]
  dsimp only
  rw [peXferTx, txReady_inCycle, hready]
  rfl

theorem peExecute_samp (hkind : peKind w = .samp) (hsrc : ib w 9 3 = 1) (hdir : s.get (PE_CFG_SINDIR e) = 0) (first : Bool) :
    peExecute (s.inCycle e) e w first false = { st := (s.inCycle e).shiftedIn e (s.get (PE_U e)) (ib w 0 6) } := by
  rw [peExecute, hkind]
  exact congrArg (fun u => PeResult.mk u true none) (peSamp_u (x := s.inCycle e) (e := e) (w := w) hsrc hdir)

theorem peExecute_emit (hkind : peKind w = .emit) (hdst : ib w 9 3 = 1) (hdir : s.get (PE_CFG_SOUTDIR e) = 0) (first : Bool) :
    peExecute (s.inCycle e) e w first false = { st := (s.inCycle e).shiftedOut e (ib w 0 6) } := by
  rw [peExecute, hkind]
  exact congrArg (fun u => PeResult.mk u true none) (peEmit_u (x := s.inCycle e) (e := e) (w := w) hdst hdir)

/-- CALC on U (12 R297). -/
def State.calculated (s : State) (e : Fin 8) (w : Nat) : State := (s.inCycle e).set (PE_U e) (calcOp (ib w 6 3) (s.word (PE_U e).word) (peReg s e (ib w 3 3))).toNat

theorem peReg_u : peReg s e 0 = s.word (PE_U e).word := by
  change BitVec.ofNat 32 (getBits (s.word (PE_U e).word) 0 32) = _
  apply BitVec.eq_of_toNat_eq
  rw [BitVec.toNat_ofNat]
  have hlt := (s.word (PE_U e).word).isLt
  simp only [getBits]
  omega

theorem peExecute_calc (hkind : peKind w = .calc) (hdst : ib w 9 3 = 0) (first : Bool) : peExecute (s.inCycle e) e w first false = { st := s.calculated e w } := by
  rw [peExecute, hkind]
  dsimp only
  rw [peCalc, hdst]
  change PeResult.mk ((s.inCycle e).set (PE_U e) (calcOp (ib w 6 3) (peReg s e 0) (peReg s e (ib w 3 3))).toNat) true none = _
  rw [peReg_u]
  rfl

theorem peExecute_ldi (hkind : peKind w = .ldi) (hdst : ib w 10 2 = 2) (first : Bool) :
    peExecute (s.inCycle e) e w first false = { st := (s.inCycle e).set (PE_CNT e) (ib w 0 10) } := by
  rw [peExecute, hkind]
  dsimp only
  rw [peLdi, hdst]
  rfl

theorem peExecute_dec_zero (hkind : peKind w = .dec) (hreg : ib w 10 2 = 0) (hzero : s.get (PE_CNT e) = 0) (first : Bool) :
    peExecute (s.inCycle e) e w first false = { st := s.inCycle e } := by
  rw [peExecute, hkind]
  dsimp only
  rw [peDec, hreg]
  exact if_pos hzero

theorem peExecute_dec_pos (hkind : peKind w = .dec) (hreg : ib w 10 2 = 0) (hpos : s.get (PE_CNT e) ≠ 0) (first : Bool) :
    peExecute (s.inCycle e) e w first false =
      { st := (s.inCycle e).set (PE_CNT e) (s.get (PE_CNT e) - 1), jump := if s.get (PE_CNT e) = 1 then none else some (ib w 0 5) } := by
  rw [peExecute, hkind]
  dsimp only
  rw [peDec, hreg]
  exact if_neg hpos

/-! ### What each execution leaves -/

theorem inCycle_frame (l : List Field) : RegFrame l (s.modEngine e fun y => y.atPc (s.get (PE_ST_PC e))) (s.inCycle e) := .refl _ _ _

/-- An engine that completes has taken its cycle, and its PC is the last it executed at. -/
theorem PeCompleted.engine_atPc {f : EngineState → EngineState} {l : List Field} {n pc : Nat} {t : State} (h : PeCompleted s e f l n t) (hf : f = fun y => y.atPc pc) :
    t.engines[e].cycle = false ∧ { t.engines[e] with lastPc := s.engines[e].lastPc, cycle := s.engines[e].cycle } = s.engines[e] := by
  rw [h.engine, hf]
  exact ⟨rfl, rfl⟩

/-- The word that goes into RX. -/
theorem rxPut_inCycle_frame (v : Word) :
    RegFrame [PE_RXIN e, PE_ST_TXLVL e, PE_ST_RXLVL e] (s.modEngine e fun y => { y.atPc (s.get (PE_ST_PC e)) with rx := y.rx ++ [v] }) (rxPut (s.inCycle e) e v) := by
  rw [rxPut_eq, inCycle_modEngine]
  exact queueCounted_frame _ e rfl rfl

/-- The word that leaves TX. -/
theorem txTake_inCycle_frame :
    RegFrame [PE_TXOUT e, PE_ST_TXLVL e, PE_ST_RXLVL e] (s.modEngine e fun y => { y.atPc (s.get (PE_ST_PC e)) with tx := y.tx.tail }) (txTake (s.inCycle e) e) := by
  rw [txTake_eq, inCycle_modEngine]
  exact queueCounted_frame _ e rfl rfl

theorem rxPut_rxin (v : Word) : (rxPut (s.inCycle e) e v).get (PE_RXIN e) = (s.get (PE_RXIN e) + 1) % 2 ^ 32 :=
  queueCounted_count ((s.inCycle e).modEngine e fun y => { y with rx := y.rx ++ [v] }) e (count := PE_RXIN e) rfl rfl (by change 0x1433 + 0x20 * e.val ≠ 0x1423 + 0x20 * e.val; omega)

theorem txTake_txout : (txTake (s.inCycle e) e).get (PE_TXOUT e) = (s.get (PE_TXOUT e) + 1) % 2 ^ 32 :=
  queueCounted_count ((s.inCycle e).modEngine e fun y => { y with tx := y.tx.tail }) e (count := PE_TXOUT e) rfl rfl (by change 0x1436 + 0x20 * e.val ≠ 0x1423 + 0x20 * e.val; omega)

theorem rxPut_rxlvl (v : Word) (hroom : s.engines[e].rx.length < rxDepth s e) : (rxPut (s.inCycle e) e v).get (PE_ST_RXLVL e) = s.engines[e].rx.length + 1 := by
  have hdepth := rxDepth_le s e
  have hlength : ((s.inCycle e).modEngine e fun y => { y with rx := y.rx ++ [v] }).engines[e].rx.length = s.engines[e].rx.length + 1 := by
    rw [modEngine_same, inCycle_engine, List.length_append]
    rfl
  rw [rxPut_eq, queueCounted_rxlvl, hlength]
  exact Nat.mod_eq_of_lt (by omega)

/-- A data field of the engine reads as the execution left it. -/
theorem completed_data (u : State) (n : Nat) {g : Field}
    (h : g ∈ [PE_ST_TXLVL e, PE_ST_RXLVL e, PE_ST_NOUT e, PE_ST_NIN e, PE_ST_LVL e, PE_U e, PE_V e, PE_CNT e, PE_SIN e, PE_SOUT e, PE_RXIN e, PE_RXOUT e, PE_TXIN e, PE_TXOUT e]) :
    (u.completed e n).get g = u.get g := completed_get u n g (peCycleFields_apart e g h)

/-! ### Words that move -/

theorem PeCompleted.engine_rx {l : List Field} {n pc : Nat} {v : Word} {t : State} (h : PeCompleted s e (fun y => { y.atPc pc with rx := y.rx ++ [v] }) l n t) :
    { t.engines[e] with lastPc := s.engines[e].lastPc, cycle := s.engines[e].cycle, rx := s.engines[e].rx } = s.engines[e] := by
  rw [h.engine]
  rfl

theorem PeCompleted.engine_tx {l : List Field} {n pc : Nat} {t : State} (h : PeCompleted s e (fun y => { y.atPc pc with tx := y.tx.tail }) l n t) :
    { t.engines[e] with lastPc := s.engines[e].lastPc, cycle := s.engines[e].cycle, tx := s.engines[e].tx } = s.engines[e] := by
  rw [h.engine]
  rfl

theorem clearSin_frame (x : State) (e : Nat) : RegFrame [PE_SIN e, PE_ST_NIN e] x (clearSin x e) :=
  RegFrame.set (RegFrame.set (.refl _ _ x) (by simp) (show 0 + 32 ≤ 32 by decide)) (by simp) (show 8 + 6 ≤ 32 by decide)

theorem sinMoved_frame : RegFrame [PE_SIN e, PE_ST_NIN e, PE_RXIN e, PE_ST_RXLVL e, PE_ST_TXLVL e]
    (s.modEngine e fun y => { y.atPc (s.get (PE_ST_PC e)) with rx := y.rx ++ [s.word (PE_SIN e).word] }) (s.sinMoved e) :=
  ((rxPut_inCycle_frame _).mono (by simp)).trans ((clearSin_frame _ e).mono (by simp))

theorem sinMoved_sin : (s.sinMoved e).get (PE_SIN e) = 0 := by
  rw [State.sinMoved, clearSin, State.get_set_ne _ _ _ _ (show 8 + 6 ≤ 32 by decide) (nin_apart_sin e), State.get_set_same _ _ _ (show 0 + 32 ≤ 32 by decide)]
  rfl

theorem sinMoved_nin : (s.sinMoved e).get (PE_ST_NIN e) = 0 := State.get_set_same _ _ _ (show 8 + 6 ≤ 32 by decide)

theorem sinFields_apart (e : Fin 8) : ∀ g ∈ [PE_RXIN e, PE_ST_RXLVL e], ∀ f ∈ [PE_SIN e, PE_ST_NIN e], f.apart g := by decide +revert

theorem sinMoved_rxin : (s.sinMoved e).get (PE_RXIN e) = (s.get (PE_RXIN e) + 1) % 2 ^ 32 :=
  ((clearSin_frame _ e).get _ (sinFields_apart e _ (by simp))).trans (rxPut_rxin _)

theorem sinMoved_rxlvl (hroom : s.engines[e].rx.length < rxDepth s e) : (s.sinMoved e).get (PE_ST_RXLVL e) = s.engines[e].rx.length + 1 :=
  ((clearSin_frame _ e).get _ (sinFields_apart e _ (by simp))).trans (rxPut_rxlvl _ hroom)

/-- A word of a 32-bit register that has been put. -/
theorem word_set_whole (x : State) (a : Nat) (v : Word) : (x.set ⟨a, 0, 32⟩ v.toNat).word a = v := by
  have hword : (x.set ⟨a, 0, 32⟩ v.toNat).word a = setBits (x.word a) 0 32 v.toNat := State.word_setWord_same _ _ _
  rw [hword]
  apply BitVec.eq_of_getLsbD_eq
  intro i hi
  rw [getLsbD_setBits _ _ _ _ _ (by decide), if_pos (by omega), Nat.sub_zero, BitVec.testBit_toNat]


theorem soutFilled_frame (v : Word) : RegFrame [PE_SOUT e, PE_ST_NOUT e, PE_TXOUT e, PE_ST_RXLVL e, PE_ST_TXLVL e]
    (s.modEngine e fun y => { y.atPc (s.get (PE_ST_PC e)) with tx := y.tx.tail }) (s.soutFilled e v) :=
  RegFrame.set (RegFrame.set (txTake_inCycle_frame.mono (by simp)) (by simp) (show 0 + 32 ≤ 32 by decide)) (by simp) (show 16 + 6 ≤ 32 by decide)

theorem soutFilled_sout (v : Word) : (s.soutFilled e v).word (PE_SOUT e).word = v :=
  (State.word_set_ne _ _ _ _ (by change 0x1428 + 0x20 * e.val ≠ 0x1423 + 0x20 * e.val; omega)).trans (word_set_whole (txTake (s.inCycle e) e) _ v)

theorem soutFilled_nout (v : Word) : (s.soutFilled e v).get (PE_ST_NOUT e) = 0 := State.get_set_same _ _ _ (show 16 + 6 ≤ 32 by decide)

theorem filled_apart (e : Fin 8) : (PE_ST_NOUT e).apart (PE_TXOUT e) ∧ (PE_SOUT e).apart (PE_TXOUT e) ∧ (PE_U e).apart (PE_TXOUT e) := by decide +revert

theorem soutFilled_txout (v : Word) : (s.soutFilled e v).get (PE_TXOUT e) = (s.get (PE_TXOUT e) + 1) % 2 ^ 32 := by
  obtain ⟨hnout, hsout, -⟩ := filled_apart e
  rw [State.soutFilled, State.get_set_ne _ _ _ _ (show 16 + 6 ≤ 32 by decide) hnout, State.get_set_ne _ _ _ _ (show 0 + 32 ≤ 32 by decide) hsout, txTake_txout]

theorem uFilled_frame (v : Word) : RegFrame [PE_U e, PE_TXOUT e, PE_ST_RXLVL e, PE_ST_TXLVL e]
    (s.modEngine e fun y => { y.atPc (s.get (PE_ST_PC e)) with tx := y.tx.tail }) (s.uFilled e v) :=
  RegFrame.set (txTake_inCycle_frame.mono (by simp)) (by simp) (show 0 + 32 ≤ 32 by decide)

theorem uFilled_u (v : Word) : (s.uFilled e v).word (PE_U e).word = v := word_set_whole (txTake (s.inCycle e) e) _ v

theorem uFilled_txout (v : Word) : (s.uFilled e v).get (PE_TXOUT e) = (s.get (PE_TXOUT e) + 1) % 2 ^ 32 := by
  obtain ⟨-, -, hu⟩ := filled_apart e
  rw [State.uFilled, State.get_set_ne _ _ _ _ (show 0 + 32 ≤ 32 by decide) hu, txTake_txout]

theorem uMoved_frame : RegFrame [PE_RXIN e, PE_ST_RXLVL e, PE_ST_TXLVL e]
    (s.modEngine e fun y => { y.atPc (s.get (PE_ST_PC e)) with rx := y.rx ++ [s.word (PE_U e).word] }) (s.uMoved e) :=
  (rxPut_inCycle_frame _).mono (by simp)

theorem rxFields_apart_u (e : Fin 8) : ∀ f ∈ [PE_RXIN e, PE_ST_RXLVL e, PE_ST_TXLVL e], f.apart (PE_U e) := by decide +revert

theorem uMoved_u : (s.uMoved e).get (PE_U e) = s.get (PE_U e) := uMoved_frame.get _ (rxFields_apart_u e)

/-! ### A stall -/

theorem rxStalled_frame : RegFrame [PE_EVT_RXSTALL e, PE_STALL_RX e] (s.modEngine e fun y => y.atPc (s.get (PE_ST_PC e))) (s.rxStalled e) :=
  RegFrame.bump (RegFrame.event (.refl _ _ _) (by simp) (show 1 + 1 ≤ 32 by decide)) (by simp) (show 0 + 16 ≤ 32 by decide)

theorem stall_apart (e : Fin 8) :
    (∀ f ∈ peStateFields e, f.apart (PE_EVT_RXSTALL e)) ∧ (∀ f ∈ peStateFields e, f.apart (PE_STALL_RX e)) ∧ (∀ f ∈ peStateFields e, f.apart (PE_ST_PC e)) ∧
      (PE_STALL_RX e).apart (PE_EVT_RXSTALL e) ∧ (PE_EVT_RXSTALL e).apart (PE_STALL_RX e) ∧ (∀ f ∈ [PE_EVT_RXSTALL e, PE_STALL_RX e], f.apart (PE_ST_PC e)) := by
  decide +revert

/-- Engine e stalls at full RX. -/
def State.stalledAtRx (s : State) (e : Fin 8) : State := setPeState (s.rxStalled e) e 2

theorem stalledAtRx_frame : RegFrame (peCycleFields e ++ [PE_EVT_RXSTALL e, PE_STALL_RX e]) (s.modEngine e fun y => y.atPc (s.get (PE_ST_PC e))) (s.stalledAtRx e) :=
  (rxStalled_frame.mono fun _ hf => List.mem_append_right _ hf).trans
    ((setPeState_frame _ e 2).mono fun _ hf => List.mem_append_left _ (List.mem_cons_of_mem _ hf))

theorem stalledAtRx_pc : (s.stalledAtRx e).get (PE_ST_PC e) = s.get (PE_ST_PC e) := by
  obtain ⟨-, -, hpc, -, -, hpc'⟩ := stall_apart e
  exact ((setPeState_frame _ e 2).get _ hpc).trans (rxStalled_frame.get _ hpc')

theorem stalledAtRx_evt : (s.stalledAtRx e).get (PE_EVT_RXSTALL e) = 1 := by
  obtain ⟨hevt, -, -, hbump, -, -⟩ := stall_apart e
  rw [State.stalledAtRx, (setPeState_frame _ e 2).get _ hevt, State.rxStalled, State.get_bump_ne _ _ _ _ (show 0 + 16 ≤ 32 by decide) hbump,
    State.get_event_same _ _ (show 1 + 1 ≤ 32 by decide) rfl]

theorem stalledAtRx_count : (s.stalledAtRx e).get (PE_STALL_RX e) = min 0xFFFF (s.get (PE_STALL_RX e) + 1) := by
  obtain ⟨-, hcount, -, -, hevent, -⟩ := stall_apart e
  rw [State.stalledAtRx, (setPeState_frame _ e 2).get _ hcount, State.rxStalled, State.get_bump_same _ _ _ (show 0 + 16 ≤ 32 by decide),
    State.get_event_ne _ _ _ (show 1 + 1 ≤ 32 by decide) hevent, Nat.min_comm]
  rfl

/-- An instruction that cannot complete stalls. -/
theorem peStep_stalls {u : State} (h : PeReady s e w k) (hlegal : k ≠ .reserved) (hexec : ∀ first, peExecute (s.inCycle e) e w first false = { st := u, done := false }) :
    peStep s e w k = setPeState u e 2 := by
  rw [peStep_running s e h.alive h.cycle h.inj h.state h.instr h.kind hlegal, hexec]
  rfl

/-! ### DEC -/

theorem set_cnt_frame (n : Nat) : RegFrame [PE_CNT e] (s.modEngine e fun y => y.atPc (s.get (PE_ST_PC e))) ((s.inCycle e).set (PE_CNT e) n) :=
  RegFrame.set (.refl _ _ _) (by simp) (show 0 + 32 ≤ 32 by decide)

theorem calculated_frame : RegFrame [PE_U e] (s.modEngine e fun y => y.atPc (s.get (PE_ST_PC e))) (s.calculated e w) :=
  RegFrame.set (.refl _ _ _) (by simp) (show 0 + 32 ≤ 32 by decide)

theorem ib_lt (w lo width : Nat) : ib w lo width < 2 ^ width := Nat.mod_lt _ (Nat.two_pow_pos width)

end

/-! ### The commands -/

section
variable (e : Fin 8) (w : Nat) (s : State)

theorem exec_peSamp : exec (.peSamp e w) s = .next (peStep s e w .samp) := rfl
theorem exec_peEmit : exec (.peEmit e w) s = .next (peStep s e w .emit) := rfl
theorem exec_peXferSinToRx : exec (.peXferSinToRx e w) s = .next (peStep s e w .sinToRx) := rfl
theorem exec_peXferTxToSout : exec (.peXferTxToSout e w) s = .next (peStep s e w .txToSout) := rfl
theorem exec_peXferUToRx : exec (.peXferUToRx e w) s = .next (peStep s e w .uToRx) := rfl
theorem exec_peXferTxToU : exec (.peXferTxToU e w) s = .next (peStep s e w .txToU) := rfl
theorem exec_peCalc : exec (.peCalc e w) s = .next (peStep s e w .calc) := rfl
theorem exec_peLdi : exec (.peLdi e w) s = .next (peStep s e w .ldi) := rfl
theorem exec_peDec : exec (.peDec e w) s = .next (peStep s e w .dec) := rfl

end

/-- The words of SOUT and U are none that a cycle's own fields are in. -/
theorem peWord_apart (e : Fin 8) :
    ((PE_SOUT e).word ≠ 0x1401 ∧ (PE_SOUT e).word ≠ 0x1423 + 0x20 * e.val) ∧ (PE_U e).word ≠ 0x1401 ∧ (PE_U e).word ≠ 0x1423 + 0x20 * e.val := by decide +revert

/-- Settles O37: `peStep_completes` for an instruction that completes, `peCompleted_of_frame` for what a cycle leaves, and one lemma per execution (`peExecute_samp` and those after it). -/
theorem engineInstructionsShiftMoveAndCompute : Obligations.EngineInstructionsShiftMoveAndCompute := by
  unfold Obligations.EngineInstructionsShiftMoveAndCompute
  refine ⟨?samp, ?emit, ?sinToRx, ?txToSout, ?full, ?uToRx, ?txToU, ?compute, ?ldi, ?dec⟩
  case samp =>
    intro e w s halive hcycle hinj hstate hinstr hkind hsrc hdir
    have hready : PeReady s e w .samp := ⟨halive, hcycle, hinj, hstate, hinstr, hkind⟩
    have hdone := peCompleted_of_frame (s.get (PE_ST_PC e) + 1) ((inCycle_frame _).trans (shiftedIn_frame e (s.inCycle e) (s.get (PE_U e)) (ib w 0 6)))
    obtain ⟨hoff, hengine⟩ := hdone.engine_atPc rfl
    exact ⟨_, (exec_peSamp e w s).trans (congrArg _ (peStep_completes hready (by decide) (peExecute_samp hkind hsrc hdir))), hdone.pc, hdone.state,
      (completed_data _ _ (by simp)).trans (shiftedIn_sin e _ _ _), (completed_data _ _ (by simp)).trans (shiftedIn_nin e _ _ _), hoff, hdone.others, hengine, hdone.rest, hdone.regs⟩
  case emit =>
    intro e w s halive hcycle hinj hstate hinstr hkind hdst hdir
    have hready : PeReady s e w .emit := ⟨halive, hcycle, hinj, hstate, hinstr, hkind⟩
    have hdone := peCompleted_of_frame (s.get (PE_ST_PC e) + 1) ((inCycle_frame _).trans (shiftedOut_frame e (s.inCycle e) (ib w 0 6)))
    obtain ⟨hoff, hengine⟩ := hdone.engine_atPc rfl
    exact ⟨_, (exec_peEmit e w s).trans (congrArg _ (peStep_completes hready (by decide) (peExecute_emit hkind hdst hdir))), hdone.pc, hdone.state,
      (completed_data _ _ (by simp)).trans (shiftedOut_u e _ _), (completed_data _ _ (by simp)).trans (shiftedOut_sout e _ _),
      (completed_data _ _ (by simp)).trans (shiftedOut_nout e _ _), hoff, hdone.others, hengine, hdone.rest, hdone.regs⟩
  case sinToRx =>
    intro e w s halive hcycle hinj hstate hinstr hkind hroom
    have hready : PeReady s e w .sinToRx := ⟨halive, hcycle, hinj, hstate, hinstr, hkind⟩
    have hdone := peCompleted_of_frame (s.get (PE_ST_PC e) + 1) (sinMoved_frame (s := s) (e := e))
    exact ⟨_, (exec_peXferSinToRx e w s).trans (congrArg _ (peStep_completes hready (by decide) (peExecute_sinToRx hkind hroom))), hdone.pc, hdone.state, congrArg EngineState.rx hdone.engine,
      (completed_data _ _ (by simp)).trans sinMoved_sin, (completed_data _ _ (by simp)).trans sinMoved_nin, (completed_data _ _ (by simp)).trans sinMoved_rxin,
      (completed_data _ _ (by simp)).trans (sinMoved_rxlvl hroom), congrArg EngineState.cycle hdone.engine, hdone.others, hdone.engine_rx, hdone.rest, hdone.regs⟩
  case txToSout =>
    intro e w v l s halive hcycle hinj hstate hinstr hkind htx
    have hready : PeReady s e w .txToSout := ⟨halive, hcycle, hinj, hstate, hinstr, hkind⟩
    have hdone := peCompleted_of_frame (s.get (PE_ST_PC e) + 1) (soutFilled_frame (s := s) (e := e) v)
    exact ⟨_, (exec_peXferTxToSout e w s).trans (congrArg _ (peStep_completes hready (by decide) (peExecute_txToSout hkind htx))), hdone.pc, hdone.state,
      congrArg EngineState.tx hdone.engine, (completed_word _ _ _ (peWord_apart e).1).trans (soutFilled_sout v), (completed_data _ _ (by simp)).trans (soutFilled_nout v),
      (completed_data _ _ (by simp)).trans (soutFilled_txout v), congrArg EngineState.cycle hdone.engine, hdone.others, hdone.engine_tx, hdone.rest, hdone.regs⟩
  case full =>
    intro e w s halive hcycle hinj hstate hinstr hkind hfull hblock
    have hready : PeReady s e w .uToRx := ⟨halive, hcycle, hinj, hstate, hinstr, hkind⟩
    have hframe := stalledAtRx_frame (s := s) (e := e)
    have hengine := RegFrame.engine_of_modEngine hframe
    refine ⟨s.stalledAtRx e, (exec_peXferUToRx e w s).trans (congrArg _ (peStep_stalls hready (by decide) (peExecute_uToRx_full hkind hfull hblock hstate))), setPeState_state _ e 2,
      stalledAtRx_pc, stalledAtRx_evt, stalledAtRx_count, congrArg EngineState.cycle hengine, RegFrame.otherEngine_of_modEngine hframe, ?_,
      RegFrame.rest_of_modEngine hframe, hframe.regs⟩
    rw [hengine]
    rfl
  case uToRx =>
    intro e w s halive hcycle hinj hstate hinstr hkind hroom
    have hready : PeReady s e w .uToRx := ⟨halive, hcycle, hinj, hstate, hinstr, hkind⟩
    have hdone := peCompleted_of_frame (s.get (PE_ST_PC e) + 1) (uMoved_frame (s := s) (e := e))
    exact ⟨_, (exec_peXferUToRx e w s).trans (congrArg _ (peStep_completes hready (by decide) (peExecute_uToRx hkind hroom))), hdone.pc, hdone.state, congrArg EngineState.rx hdone.engine,
      (completed_data _ _ (by simp)).trans uMoved_u, (completed_data _ _ (by simp)).trans (rxPut_rxin _), congrArg EngineState.cycle hdone.engine, hdone.others,
      hdone.engine_rx, hdone.rest, hdone.regs⟩
  case txToU =>
    intro e w v l s halive hcycle hinj hstate hinstr hkind htx
    have hready : PeReady s e w .txToU := ⟨halive, hcycle, hinj, hstate, hinstr, hkind⟩
    have hdone := peCompleted_of_frame (s.get (PE_ST_PC e) + 1) (uFilled_frame (s := s) (e := e) v)
    exact ⟨_, (exec_peXferTxToU e w s).trans (congrArg _ (peStep_completes hready (by decide) (peExecute_txToU hkind htx))), hdone.pc, hdone.state,
      congrArg EngineState.tx hdone.engine, (completed_word _ _ _ (peWord_apart e).2).trans (uFilled_u v),
      (completed_data _ _ (by simp)).trans (uFilled_txout v), congrArg EngineState.cycle hdone.engine, hdone.others, hdone.engine_tx, hdone.rest, hdone.regs⟩
  case compute =>
    intro e w s halive hcycle hinj hstate hinstr hkind hdst
    have hready : PeReady s e w .calc := ⟨halive, hcycle, hinj, hstate, hinstr, hkind⟩
    have hdone := peCompleted_of_frame (s.get (PE_ST_PC e) + 1) (calculated_frame (s := s) (e := e) (w := w))
    obtain ⟨hoff, hengine⟩ := hdone.engine_atPc rfl
    exact ⟨_, (exec_peCalc e w s).trans (congrArg _ (peStep_completes hready (by decide) (peExecute_calc hkind hdst))), hdone.pc, hdone.state,
      (completed_word _ _ _ (peWord_apart e).2).trans (word_set_whole (s.inCycle e) _ _), hoff, hdone.others, hengine, hdone.rest, hdone.regs⟩
  case ldi =>
    intro e w s halive hcycle hinj hstate hinstr hkind hdst
    have hready : PeReady s e w .ldi := ⟨halive, hcycle, hinj, hstate, hinstr, hkind⟩
    have hdone := peCompleted_of_frame (s.get (PE_ST_PC e) + 1) (set_cnt_frame (s := s) (e := e) (ib w 0 10))
    obtain ⟨hoff, hengine⟩ := hdone.engine_atPc rfl
    refine ⟨_, (exec_peLdi e w s).trans (congrArg _ (peStep_completes hready (by decide) (peExecute_ldi hkind hdst))), hdone.pc, hdone.state, ?_, hoff, hdone.others, hengine,
      hdone.rest, hdone.regs⟩
    have hlt := ib_lt w 0 10
    exact (completed_data _ _ (by simp)).trans ((State.get_set_same _ _ _ (show 0 + 32 ≤ 32 by decide)).trans (Nat.mod_eq_of_lt (show _ < 2 ^ 32 by omega)))
  case dec =>
    intro e w s halive hcycle hinj hstate hinstr hkind hreg
    have hready : PeReady s e w .dec := ⟨halive, hcycle, hinj, hstate, hinstr, hkind⟩
    have hcnt : s.get (PE_CNT e) < 2 ^ 32 := getBits_lt _ _ _
    by_cases hzero : s.get (PE_CNT e) = 0
    · have hdone := peCompleted_of_frame (s.get (PE_ST_PC e) + 1) (inCycle_frame (s := s) (e := e) [PE_CNT e])
      obtain ⟨hoff, hengine⟩ := hdone.engine_atPc rfl
      refine ⟨_, (exec_peDec e w s).trans (congrArg _ (peStep_completes hready (by decide) (peExecute_dec_zero hkind hreg hzero))), hdone.state, ?_, ?_, hoff, hdone.others, hengine,
        hdone.rest, hdone.regs⟩
      · refine (completed_data (s.inCycle e) _ (by simp)).trans ?_
        rw [inCycle_get, hzero]
      · rw [hzero, if_neg (by decide)]
        exact hdone.pc
    · have hdone := peCompleted_of_frame ((if s.get (PE_CNT e) = 1 then none else some (ib w 0 5)).getD (s.get (PE_ST_PC e) + 1)) (set_cnt_frame (s := s) (e := e) (s.get (PE_CNT e) - 1))
      obtain ⟨hoff, hengine⟩ := hdone.engine_atPc rfl
      refine ⟨_, (exec_peDec e w s).trans (congrArg _ (peStep_completes hready (by decide) (peExecute_dec_pos hkind hreg hzero))), hdone.state, ?_, ?_, hoff, hdone.others, hengine,
        hdone.rest, hdone.regs⟩
      · exact (completed_data _ _ (by simp)).trans ((State.get_set_same _ _ _ (show 0 + 32 ≤ 32 by decide)).trans (Nat.mod_eq_of_lt (show _ < 2 ^ 32 by omega)))
      · refine hdone.pc.trans ?_
        by_cases hone : s.get (PE_CNT e) = 1
        · rw [if_pos hone, if_neg (by omega)]
          rfl
        · rw [if_neg hone, if_pos (by omega)]
          exact Nat.mod_eq_of_lt (ib_lt w 0 5)

end Sys2Proof.Machine
end

section
/-!
PROOFS. The commands to the pin engines (12 R307 to R309): what a PE_GCMD write leaves, and what it does in the tick after it.
-/

namespace Sys2Proof.Machine

/-! ### A PE_GCMD write (12 R307) -/

/-- The bits of a command word: those of its mask in its byte. -/
theorem getLsbD_gcmdWord (a b mask i : Nat) (e : Fin 8) (hb : b < 4) (hi : i = 8 * b + e.val) : (gcmdWord (8 * a) mask).getLsbD i = (a == b && mask.testBit e) := by
  have he := e.isLt
  rw [gcmdWord, BitVec.getLsbD_ofNat, decide_eq_true (by omega), Bool.true_and, Nat.testBit_mul_two_pow, show 256 = 2 ^ 8 from rfl, Nat.testBit_mod_two_pow]
  by_cases hab : a = b
  · have hplace : i - 8 * a = e.val := by omega
    rw [hplace, decide_eq_true (by omega), decide_eq_true he, hab, beq_self_eq_true]
    rfl
  · rw [beq_false_of_ne hab, Bool.false_and]
    by_cases hlo : 8 * a ≤ i
    · rw [decide_eq_false (p := i - 8 * a < 8) (by omega), Bool.false_and, Bool.and_false]
    · rw [decide_eq_false hlo, Bool.false_and]

/-- A command word of one mask gives an engine of the mask its command. -/
theorem gcmdOf_gcmdWord (a mask : Nat) (e : Fin 8) (ha : a < 4) : gcmdOf (gcmdWord (8 * a) mask) e = if mask.testBit e then 2 ^ a else 0 := by
  rw [gcmdOf, getLsbD_gcmdWord a 0 mask _ e (by decide) (by omega), getLsbD_gcmdWord a 1 mask _ e (by decide) (by omega),
    getLsbD_gcmdWord a 2 mask _ e (by decide) (by omega), getLsbD_gcmdWord a 3 mask _ e (by decide) (by omega)]
  have hcases : a = 0 ∨ a = 1 ∨ a = 2 ∨ a = 3 := by omega
  cases mask.testBit e with
  | false => simp
  | true => rcases hcases with rfl | rfl | rfl | rfl <;> rfl

/-- A command waits for the engine's next tick. -/
def EngineState.commanded (x : EngineState) (m : Nat) : EngineState := if m = 0 then x else { x with gcmd := x.gcmd ++ [m] }

section
variable (s : State) (v : Word)

theorem putGcmd_engines (e j : Fin 8) (m : Nat) : (putGcmd s e m).engines[j] = if j = e then (s.engines[j]).commanded m else s.engines[j] := by
  unfold putGcmd EngineState.commanded
  by_cases hm : m = 0
  · simp [hm]
  · rw [if_neg hm, if_neg hm]
    by_cases hj : j = e
    · rw [if_pos hj, hj, modEngine_same]
    · rw [if_neg hj, modEngine_ne _ _ _ _ hj]

theorem foldl_putGcmd_engines (f : Fin 8 → Nat) (j : Fin 8) (l : List (Fin 8)) (hl : l.Nodup) (t : State) :
    (l.foldl (fun s e => putGcmd s e (f e)) t).engines[j] = if j ∈ l then (t.engines[j]).commanded (f j) else t.engines[j] := by
  induction l generalizing t with
  | nil => rfl
  | cons e l ih =>
    obtain ⟨he, hl⟩ := List.nodup_cons.1 hl
    rw [List.foldl_cons, ih hl, putGcmd_engines]
    by_cases hj : j = e
    · subst hj
      simp [he]
    · simp [hj]

theorem writeGcmd_engines (j : Fin 8) : (writeGcmd s v).engines[j] = (s.engines[j]).commanded (gcmdOf v j) := by
  rw [writeGcmd, foldl_putGcmd_engines (fun e => gcmdOf v e) j _ (List.nodup_finRange 8), if_pos (List.mem_finRange j)]

theorem writeGcmd_rest : { writeGcmd s v with engines := s.engines } = s := by
  refine List.foldlRecOn (List.finRange 8) _ (motive := fun t : State => { t with engines := s.engines } = s) rfl fun t ht e _ => ?_
  unfold putGcmd
  split
  · exact ht
  · exact ht

end

/-- The commands of a mask reach the engines of the mask, and no other. -/
theorem exec_gcmd_engines (s : State) (a mask : Nat) (ha : a < 4) (j : Fin 8) :
    (writeGcmd s (gcmdWord (8 * a) mask)).engines[j] = if mask.testBit j then { s.engines[j] with gcmd := s.engines[j].gcmd ++ [2 ^ a] } else s.engines[j] := by
  have hne : 2 ^ a ≠ 0 := Nat.two_pow_pos a |>.ne'
  rw [writeGcmd_engines, gcmdOf_gcmdWord a mask j ha, EngineState.commanded]
  cases mask.testBit j with
  | false => rfl
  | true => exact if_neg hne

/-- States that differ in the engines only, and not in them, are one. -/
theorem eq_of_engines {s t u : State} (ht : { t with engines := s.engines } = s) (hu : { u with engines := s.engines } = s) (h : t.engines = u.engines) : t = u :=
  calc t = { ({ t with engines := s.engines } : State) with engines := t.engines } := rfl
    _ = { ({ u with engines := s.engines } : State) with engines := u.engines } := by rw [ht, hu, h]
    _ = u := rfl

/-- A command to one engine. -/
theorem writeGcmd_one (s : State) (a : Nat) (ha : a < 4) (e : Fin 8) :
    writeGcmd s (gcmdWord (8 * a) (2 ^ e.val)) = s.modEngine e fun x => { x with gcmd := x.gcmd ++ [2 ^ a] } := by
  have hengines : (writeGcmd s (gcmdWord (8 * a) (2 ^ e.val))).engines = (s.modEngine e fun x => { x with gcmd := x.gcmd ++ [2 ^ a] }).engines := by
    apply Vector.ext
    intro j hj
    have hwritten := exec_gcmd_engines s a (2 ^ e.val) ha ⟨j, hj⟩
    by_cases he : (⟨j, hj⟩ : Fin 8) = e
    · subst he
      rw [if_pos (Nat.testBit_two_pow_self)] at hwritten
      exact hwritten.trans (modEngine_same s ⟨j, hj⟩ fun x => { x with gcmd := x.gcmd ++ [2 ^ a] }).symm
    · have hbit : (2 ^ e.val).testBit j = false := by
        rw [Nat.testBit_two_pow]
        exact decide_eq_false fun h => he (Fin.ext h.symm)
      rw [if_neg (by rw [hbit]; decide)] at hwritten
      exact hwritten.trans (modEngine_ne s e _ ⟨j, hj⟩ he).symm
  exact eq_of_engines (writeGcmd_rest s _) (modEngine_rest s e _) hengines

/-! ### The tick after (12 R307) -/

section
variable {s : State} {e : Fin 8} (hempty : s.engines[e].gcmd = [])
include hempty

/-- One waiting command acts on the engine as it was. -/
theorem takeGcmd_one (m : Nat) : takeGcmd (s.modEngine e fun x => { x with gcmd := x.gcmd ++ [m] }) e = peCommand s e (m.testBit 0) (m.testBit 1) (m.testBit 2) (m.testBit 3) := by
  have hself : (fun x : EngineState => { ({ x with gcmd := x.gcmd ++ [m] } : EngineState) with gcmd := [] }) s.engines[e] = s.engines[e] := by
    rw [← hempty]
  have hback : ((s.modEngine e fun x => { x with gcmd := x.gcmd ++ [m] }).modEngine e fun x => { x with gcmd := [] }) = s := by
    rw [modEngine_modEngine]
    change { s with engines := s.engines.set e ((fun x : EngineState => { ({ x with gcmd := x.gcmd ++ [m] } : EngineState) with gcmd := [] }) s.engines[e]) } = s
    rw [hself]
    exact congrArg (fun v : Vector EngineState 8 => { s with engines := v }) (Vector.set_getElem_self e.isLt)
  unfold takeGcmd
  rw [modEngine_same, hback, hempty]
  rfl

end

/-! ### What a change of one engine leaves beside it -/

/-- The state of engine e is f's, other engines and what is not registers are as they were, and of the registers the fields of l may differ. -/
structure EngineLeft (s : State) (e : Fin 8) (f : EngineState → EngineState) (l : List Field) (t : State) : Prop where
  engine : t.engines[e] = f s.engines[e]
  others : ∀ j : Fin 8, j ≠ e → t.engines[j] = s.engines[j]
  rest : { t with regs := s.regs, engines := s.engines, fresh := s.fresh } = s
  regs : sameBut l s t

section
variable {s : State} {e : Fin 8} {f : EngineState → EngineState} {l : List Field} {t : State}

theorem engineLeft_of_frame (h : RegFrame l (s.modEngine e f) t) : EngineLeft s e f l t :=
  ⟨RegFrame.engine_of_modEngine h, RegFrame.otherEngine_of_modEngine h, RegFrame.rest_of_modEngine h, h.regs⟩

theorem RegFrame.aux {s t : State} {l : List Field} (h : RegFrame l s t) : t.aux = s.aux := (congrArg State.aux h.kept :)

/-- AUX follows the engines only where one drives it (06 R169). -/
theorem driveAux_of_func (h : s.aux.func ≠ 3) : driveAux s = s := by
  have hoff : driverOn s = false := by
    rw [driverOn, beq_false_of_ne h]
    rfl
  rw [driveAux, hoff]
  rfl

end

/-! ### STOP, RESTART and RUN (12 R307, R308) -/

/-- A stopped engine's own state. -/
def EngineState.stopped (x : EngineState) : EngineState := { x with latches := [], lastPc := none, mev := [] }

/-- A restarted engine's own state, stopped. -/
def EngineState.restarted (x : EngineState) : EngineState :=
  { x with latches := [], lastPc := none, find := none, target := none, tc := none, prevCap := none, mev := [] }

/-- The fields that RESTART clears. -/
def restartFields (e : Fin 8) : List Field := [PE_SIN e, PE_ST_NIN e, PE_SOUT e, PE_ST_NOUT e, PE_ST_PC e, PE_TCS e, PE_TCN_NS e, PE_TCD e]

section
variable (s : State) (e : Fin 8)

theorem set_modEngine (g : Field) (n : Nat) (f : EngineState → EngineState) : (s.set g n).modEngine e f = (s.modEngine e f).set g n := rfl

theorem setBit_modEngine (g : Field) (k : Nat) (b : Bool) (f : EngineState → EngineState) :
    (s.set g (withBit (s.get g) k b)).modEngine e f = (s.modEngine e f).set g (withBit ((s.modEngine e f).get g) k b) := rfl

theorem setPeState_modEngine (st : Nat) (f : EngineState → EngineState) : (setPeState s e st).modEngine e f = setPeState (s.modEngine e f) e st := by
  unfold setPeState
  dsimp only
  rw [setBit_modEngine, setBit_modEngine, setBit_modEngine, set_modEngine]

theorem peStop_eq (h : s.aux.func ≠ 3) : peStop s e = setPeState (s.modEngine e EngineState.stopped) e 0 := by
  unfold peStop
  unfold clearLatches dropMev
  rw [setPeState_modEngine, setPeState_modEngine, setPeState_modEngine, modEngine_modEngine, modEngine_modEngine]
  exact driveAux_of_func ((congrArg (fun x => x.func ≠ 3) (setPeState_frame (s.modEngine e EngineState.stopped) e 0).aux).mpr h)

/-- The registers that RESTART clears. -/
def State.restartRegs : State :=
  ((((((((s.set (PE_SIN e) 0).set (PE_ST_NIN e) 0).set (PE_SOUT e) 0).set (PE_ST_NOUT e) 0).set (PE_ST_PC e) 0).set (PE_TCS e) 0).set (PE_TCN_NS e) 0).set (PE_TCD e) 0xFFFFFFFF)

theorem restartRegs_modEngine (f : EngineState → EngineState) : (s.restartRegs e).modEngine e f = (s.modEngine e f).restartRegs e := by
  unfold State.restartRegs
  rw [set_modEngine, set_modEngine, set_modEngine, set_modEngine, set_modEngine, set_modEngine, set_modEngine, set_modEngine]

theorem peRestart_eq : peRestart s e = (s.restartRegs e).modEngine e fun x => { x with latches := [], lastPc := none, find := none, target := none, tc := none, prevCap := none } := (rfl)

theorem restartRegs_frame : RegFrame (restartFields e) s (s.restartRegs e) := by
  have hin : ∀ g ∈ restartFields e, g.ok := by
    intro g hg
    simp only [restartFields, List.mem_cons, List.not_mem_nil, or_false] at hg
    rcases hg with rfl | rfl | rfl | rfl | rfl | rfl | rfl | rfl <;> simp [Field.ok, PE_SIN, PE_ST_NIN, PE_SOUT, PE_ST_NOUT, PE_ST_PC, PE_TCS, PE_TCN_NS, PE_TCD]
  have hset (t : State) (g : Field) (n : Nat) (hg : g ∈ restartFields e) (ht : RegFrame (restartFields e) s t) : RegFrame (restartFields e) s (t.set g n) :=
    RegFrame.set ht hg (hin g hg)
  exact hset _ _ _ (by simp [restartFields]) (hset _ _ _ (by simp [restartFields]) (hset _ _ _ (by simp [restartFields]) (hset _ _ _ (by simp [restartFields])
    (hset _ _ _ (by simp [restartFields]) (hset _ _ _ (by simp [restartFields]) (hset _ _ _ (by simp [restartFields]) (hset _ _ _ (by simp [restartFields]) (.refl _ _ s))))))))

theorem restartFields_apart (e : Fin 8) : (restartFields e).Pairwise Field.apart := by decide +revert

theorem restartFields_apart_state (e : Fin 8) : ∀ g ∈ restartFields e, ∀ f ∈ peStateFields e, f.apart g := by decide +revert

theorem u_apart_restart (e : Fin 8) : ∀ f ∈ restartFields e ++ peStateFields e, f.apart (PE_U e) := by decide +revert

end

end Sys2Proof.Machine
end

section
/-!
PROOFS. The pin engines' commands, injections, queues, instruction memory and inputs (12 R291, R304 to R312), and the statement about them.
-/

namespace Sys2Proof.Machine

/-! ### The commands in their tick (12 R307, R308) -/

section
variable {s : State} {e : Fin 8}

/-- The engine is commanded in a tick that finds no other command waiting. -/
theorem takeGcmd_writeGcmd (a : Nat) (ha : a < 4) (hempty : s.engines[e].gcmd = []) :
    takeGcmd (writeGcmd s (gcmdWord (8 * a) (2 ^ e.val))) e =
      peCommand s e ((2 ^ a).testBit 0) ((2 ^ a).testBit 1) ((2 ^ a).testBit 2) ((2 ^ a).testBit 3) := by
  rw [writeGcmd_one s a ha e, takeGcmd_one hempty]

theorem setPeState_engineLeft (f : EngineState → EngineState) (st : Nat) : EngineLeft s e f (peStateFields e) (setPeState (s.modEngine e f) e st) :=
  engineLeft_of_frame (setPeState_frame _ e st)

/-- STOP. -/
theorem peCommand_stop (h : s.aux.func ≠ 3) : peCommand s e false true false false = setPeState (s.modEngine e EngineState.stopped) e 0 := peStop_eq s e h

/-- RUN of an engine at rest. -/
theorem peCommand_run (h : s.aux.func ≠ 3) (hrest : peRuns s e = false) :
    peCommand s e true false false false = setPeState (s.modEngine e fun x => { x with lastPc := none }) e 1 := by
  have hrun : peCommand s e true false false false = peRun s e := rfl
  rw [hrun, peRun, hrest, if_neg Bool.false_ne_true]
  exact driveAux_of_func ((congrArg (fun x => x.func ≠ 3) (RegFrame.aux (setPeState_frame (s.modEngine e _) e 1))).mpr h)

/-- The module with engine e restarted. -/
def State.restarted (s : State) (e : Fin 8) : State := setPeState ((s.modEngine e EngineState.restarted).restartRegs e) e 0

/-- RESTART. -/
theorem peCommand_restart (h : s.aux.func ≠ 3) : peCommand s e false false true false = s.restarted e := by
  have hcmd : peCommand s e false false true false = driveAux (setPeState (dropMev (peRestart s e) e) e 0) := rfl
  have hdrop : dropMev (peRestart s e) e = (s.modEngine e EngineState.restarted).restartRegs e := by
    rw [peRestart_eq, dropMev, modEngine_modEngine, restartRegs_modEngine]
    rfl
  rw [hcmd, hdrop]
  exact driveAux_of_func ((congrArg (fun x => x.func ≠ 3) (RegFrame.aux ((restartRegs_frame (s.modEngine e EngineState.restarted) e).mono
    (fun _ hf => List.mem_append_left (peStateFields e) hf) |>.trans ((setPeState_frame _ e 0).mono fun _ hf => List.mem_append_right _ hf)))).mpr h)

theorem restarted_frame : RegFrame (restartFields e ++ peStateFields e) (s.modEngine e EngineState.restarted) (s.restarted e) :=
  ((restartRegs_frame _ e).mono fun _ hf => List.mem_append_left _ hf).trans ((setPeState_frame _ e 0).mono fun _ hf => List.mem_append_right _ hf)

/-- What RESTART puts into the registers. -/
theorem restarted_regs : (s.restarted e).get (PE_ST_PC e) = 0 ∧ (s.restarted e).get (PE_SIN e) = 0 ∧ (s.restarted e).get (PE_SOUT e) = 0 ∧
    (s.restarted e).get (PE_TCD e) = 0xFFFFFFFF := by
  have hstate := restartFields_apart_state e
  have hshown (g : Field) (hg : g ∈ restartFields e) : (s.restarted e).get g = ((s.modEngine e EngineState.restarted).restartRegs e).get g :=
    (setPeState_frame _ e 0).get g (hstate g hg)
  rw [hshown _ (by simp [restartFields]), hshown _ (by simp [restartFields]), hshown _ (by simp [restartFields]), hshown _ (by simp [restartFields])]
  simp [State.restartRegs, State.get_set_ne, State.get_set_same, Field.apart, Field.ok, PE_SIN, PE_ST_NIN, PE_SOUT, PE_ST_NOUT, PE_ST_PC, PE_TCS, PE_TCN_NS, PE_TCD]

end

/-! ### The queues (12 R304 to R306) -/

section
variable (x : State) (e : Fin 8) (w : Word)

/-- A word in TX. -/
def EngineState.pushed (y : EngineState) (w : Word) : EngineState := { y with tx := y.tx ++ [w], txNew := y.txNew + 1 }

/-- The module with a word in the engine's TX. -/
def State.txPushed : State := (x.modEngine e fun y => y.pushed w).queueCounted e (PE_TXIN e)

/-- The module with the oldest word out of the engine's RX. -/
def State.rxPopped (l : List Word) : State := (x.modEngine e fun y => { y with rx := l }).queueCounted e (PE_RXOUT e)

theorem txPush_room (h : x.engines[e].tx.length < txDepth x e) : txPush x e w = x.txPushed e w := by
  rw [txPush, if_pos h]
  rfl

theorem txPush_full (h : txDepth x e ≤ x.engines[e].tx.length) : txPush x e w = (x.event (PE_EVT_TXDROP e)).set (PE_TXDROP e) (x.get (PE_TXDROP e) + 1) := by
  rw [txPush, if_neg (by omega)]

theorem txPushed_frame : RegFrame [PE_TXIN e, PE_ST_TXLVL e, PE_ST_RXLVL e] (x.modEngine e fun y => y.pushed w) (x.txPushed e w) := queueCounted_frame _ e rfl rfl

theorem rxPopped_frame (l : List Word) : RegFrame [PE_RXOUT e, PE_ST_TXLVL e, PE_ST_RXLVL e] (x.modEngine e fun y => { y with rx := l }) (x.rxPopped e l) :=
  queueCounted_frame _ e rfl rfl

theorem txPushed_txin : (x.txPushed e w).get (PE_TXIN e) = (x.get (PE_TXIN e) + 1) % 2 ^ 32 :=
  queueCounted_count _ e rfl rfl (by change 0x1435 + 0x20 * e.val ≠ 0x1423 + 0x20 * e.val; omega)

theorem rxPopped_rxout (l : List Word) : (x.rxPopped e l).get (PE_RXOUT e) = (x.get (PE_RXOUT e) + 1) % 2 ^ 32 :=
  queueCounted_count _ e rfl rfl (by change 0x1434 + 0x20 * e.val ≠ 0x1423 + 0x20 * e.val; omega)

theorem txPushed_txlvl (h : x.engines[e].tx.length < txDepth x e) : (x.txPushed e w).get (PE_ST_TXLVL e) = x.engines[e].tx.length + 1 := by
  have hdepth := txDepth_le x e
  have hlevel : (x.txPushed e w).get (PE_ST_TXLVL e) = (x.modEngine e fun y => y.pushed w).engines[e].tx.length % 16 := showQueues_txlvl _ e
  rw [hlevel, modEngine_same, EngineState.pushed, List.length_append, List.length_singleton]
  omega

end

/-! ### The inputs (12 R291, R292, R312) -/

section
variable {s : State} {e : Fin 8}

/-- The oldest visible pulse of an input sets its latch. -/
theorem exec_pePulseInput {tm code : Nat} {rest : List (Nat × Nat × Nat)} (halive : s.alive = true) (hdue : s.engines[e].due = (code, tm, 0) :: rest) :
    exec (.pePulseInput e code) s =
      .next (s.modEngine e fun x => { x with latches := putPulse x.latches code tm, due := x.due.erase (code, tm, 0) }) := by
  have hfind : (s.engines[e].due.find? fun p => p.1 == code && p.2.2 == 0) = some (code, tm, 0) := by
    rw [hdue, List.find?_cons_of_pos]
    simp
  change execPePulseInput e code s = _
  rw [execPePulseInput, halive, Bool.not_true, if_neg Bool.false_ne_true, hfind]
  exact congrArg _ (modEngine_modEngine s e _ _)

/-- The Mill-event unit takes its oldest record. -/
theorem exec_peMillEvent {r : GridRec} {rest : List GridRec} (halive : s.alive = true) (hruns : peRuns s e = true) (hmev : s.engines[e].mev = r :: rest) :
    exec (.peMillEvent e) s = .next (millEvent (s.modEngine e fun x => { x with mev := rest }) e r) := by
  change execPeMillEvent e s = _
  rw [execPeMillEvent, halive, hruns, Bool.true_and, if_pos rfl, hmev]

/-- A record that matches becomes a pulse; with MODE 3 its value goes into TX too. -/
theorem millEvent_matches {x : State} {r : GridRec} (hkind : r.rcd.kind = .sample) (hon : x.get (PE_MEV_MODE e) ≠ 0)
    (hlevel : x.get (PE_MEV_MODE e) = 2 → x.getI (PE_MEV_LEVEL e) ≤ r.rcd.value) :
    millEvent x e r =
      if x.get (PE_MEV_MODE e) = 3 then txPush (x.modEngine e fun y => { y with due := y.due ++ [(15, r.t, 2)] }) e (BitVec.ofInt 32 r.rcd.value)
      else x.modEngine e fun y => { y with due := y.due ++ [(15, r.t, 2)] } := by
  rw [millEvent]
  dsimp only
  rw [if_neg]
  rintro (h | h | ⟨hmode, hlow⟩)
  · exact h hkind
  · exact hon h
  · exact absurd (hlevel hmode) (not_le.2 hlow)

theorem millEvent_ignored {x : State} {r : GridRec} (h : r.rcd.kind ≠ .sample ∨ (x.get (PE_MEV_MODE e) = 2 ∧ r.rcd.value < x.getI (PE_MEV_LEVEL e))) : millEvent x e r = x := by
  rw [millEvent]
  dsimp only
  rw [if_pos]
  rcases h with h | h
  · exact .inl h
  · exact .inr (.inr h)

end

/-! ### Instruction memory and injection (12 R309, R311) -/

section
variable {s : State} {e : Fin 8}

theorem writeIm_stopped (n : Fin 16) (v : Word) (h : s.get (PE_ST_STATE e) = 0) : writeIm s e n v = s.setWord (0x1580 + 0x10 * e.val + n) v := by
  have hword : (s.setWord (0x1580 + 0x10 * e.val + n) v).get (PE_ST_STATE e) = s.get (PE_ST_STATE e) := by
    rw [State.get, State.word_setWord_ne _ _ _ _ (by change 0x1423 + 0x20 * e.val ≠ _; omega)]
    rfl
  rw [writeIm, peRuns, h]
  dsimp only
  rw [if_neg (by decide), if_neg (by rw [hword, h]; simp)]

theorem writeIm_running (n : Fin 16) (v : Word) (h : peRuns s e = true) : writeIm s e n v = s.event (PE_EVT_WREJ e) := by
  rw [writeIm, if_pos h]

end

/-! ### The statement -/

section
variable (door : Initiator) (e : Fin 8) (s : State)

theorem exec_peGcmd (mask : Nat) (h : doorOpen s door 0x1400 = true) :
    exec (.peGcmdStop door mask) s = .next (writeGcmd s (gcmdWord (8 * 1) mask)) ∧ exec (.peGcmdRestart door mask) s = .next (writeGcmd s (gcmdWord (8 * 2) mask)) ∧
    exec (.peGcmdRun door mask) s = .next (writeGcmd s (gcmdWord (8 * 0) mask)) ∧ exec (.peGcmdClksync door mask) s = .next (writeGcmd s (gcmdWord (8 * 3) mask)) :=
  ⟨congrArg _ (atDoor_open s door _ _ h), congrArg _ (atDoor_open s door _ _ h), congrArg _ (atDoor_open s door _ _ h), congrArg _ (atDoor_open s door _ _ h)⟩

theorem exec_peInject (w : Nat) (h : doorOpen s door (0x1432 + 0x20 * e.val) = true) : exec (.peInject door e w) s = .next (peInjectWrite s e (w % 65536)) :=
  congrArg _ (atDoor_open s door _ _ h)

theorem exec_peTxPush (w : Word) (h : doorOpen s door (0x142C + 0x20 * e.val) = true) : exec (.peTxPush door e w) s = .next (txPush s e w) :=
  congrArg _ (atDoor_open s door _ _ h)

theorem exec_peImWrite (n : Fin 16) (v : Word) (h : doorOpen s door (0x1580 + 0x10 * e.val + n.val) = true) :
    exec (.peImWrite door e n v) s = .next (writeIm s e n v) := congrArg _ (atDoor_open s door _ _ h)

theorem exec_peRxPop (h : s.alive = true) : exec (.peRxPop door e) s = .next ((rxPop s e).2.answer (rxPop s e).1) := congrArg Host.Outcome.next (if_pos h)

theorem answer_rest_engines {s u : State} (w : Word) (h : { u with regs := s.regs, engines := s.engines, fresh := s.fresh } = s) :
    { u.answer w with regs := s.regs, engines := s.engines, bus := s.bus, fresh := s.fresh } = s := (congrArg (fun x : State => { x with bus := s.bus }) h :)

theorem answer_bus {s u : State} (w : Word) (h : u.bus = s.bus) : (u.answer w).bus = { s.bus with reply := w } :=
  congrArg (fun b : BusState => { b with reply := w }) h

theorem rxPop_cons {v : Word} {l : List Word} (h : s.engines[e].rx = v :: l) : rxPop s e = (v, s.rxPopped e l) := by
  rw [rxPop, h]
  rfl

theorem exec_peRxPop_cons {v : Word} {l : List Word} (halive : s.alive = true) (h : s.engines[e].rx = v :: l) :
    exec (.peRxPop door e) s = .next ((s.rxPopped e l).answer v) :=
  (exec_peRxPop door e s halive).trans (congrArg (fun p : Word × State => Host.Outcome.next (p.2.answer p.1)) (rxPop_cons e s h))

/-- What a read of RX leaves: the oldest word is out of the queue and answered. -/
structure RxAnswered (s : State) (e : Fin 8) (v : Word) (l : List Word) (t : State) : Prop where
  bus : t.bus = { s.bus with reply := v }
  engine : t.engines[e] = { s.engines[e] with rx := l }
  rxout : t.get (PE_RXOUT e) = (s.get (PE_RXOUT e) + 1) % 2 ^ 32
  others : ∀ j : Fin 8, j ≠ e → t.engines[j] = s.engines[j]
  rest : { t with regs := s.regs, engines := s.engines, bus := s.bus, fresh := s.fresh } = s
  regs : sameBut [PE_RXOUT e, PE_ST_TXLVL e, PE_ST_RXLVL e] s t

/-- An answer changes the bus only. -/
theorem rxAnswered_of_left {u : State} {v : Word} {l : List Word} (h : EngineLeft s e (fun y => { y with rx := l }) [PE_RXOUT e, PE_ST_TXLVL e, PE_ST_RXLVL e] u)
    (hout : u.get (PE_RXOUT e) = (s.get (PE_RXOUT e) + 1) % 2 ^ 32) : RxAnswered s e v l (u.answer v) :=
  ⟨answer_bus v (congrArg State.bus h.rest :), h.engine, hout, h.others, answer_rest_engines v h.rest, sameBut_regs h.regs (State.answer_regs _ _)⟩

theorem rxAnswered_left (v : Word) (l : List Word) : RxAnswered s e v l ((s.rxPopped e l).answer v) :=
  rxAnswered_of_left e s (engineLeft_of_frame (rxPopped_frame s e l)) (rxPopped_rxout s e l)

theorem rxPop_nil (h : s.engines[e].rx = []) : rxPop s e = (0, s.event (PE_EVT_RDEMPTY e)) := by
  rw [rxPop, h]

end

section
variable (s : State) (e : Fin 8)

theorem stopped_self (x : EngineState) : x.stopped = { x with latches := [], lastPc := none, mev := [] } := rfl

/-- The engine's queue fields and events lie apart. -/
theorem txDrop_apart : (PE_TXDROP e).apart (PE_EVT_TXDROP e) := .inl (by change 0x1431 + 0x20 * e.val ≠ 0x142E + 0x20 * e.val; omega)

theorem pc_apart_peState : ∀ f ∈ peStateFields e, f.apart (PE_ST_PC e) := (restartFields_apart_state e) _ (by simp [restartFields])

theorem millEvent_mode {r : GridRec} (hkind : r.rcd.kind = .sample) (f : EngineState → EngineState)
    (hmode : s.get (PE_MEV_MODE e) = 1 ∨ (s.get (PE_MEV_MODE e) = 2 ∧ s.getI (PE_MEV_LEVEL e) ≤ r.rcd.value)) :
    millEvent (s.modEngine e f) e r = s.modEngine e fun y => { f y with due := (f y).due ++ [(15, r.t, 2)] } := by
  have hget : (s.modEngine e f).get (PE_MEV_MODE e) = s.get (PE_MEV_MODE e) := rfl
  have hlevel : (s.modEngine e f).getI (PE_MEV_LEVEL e) = s.getI (PE_MEV_LEVEL e) := rfl
  rw [millEvent_matches hkind, if_neg, modEngine_modEngine]
  · rfl
  · omega
  · omega
  · omega

/-- What a record leaves that becomes a pulse and a TX word. -/
theorem millPushed_left (rest : List GridRec) (p : Nat × Nat × Nat) (w : Word) :
    EngineLeft s e (fun y => { y with due := y.due ++ [p], mev := rest, tx := y.tx ++ [w], txNew := y.txNew + 1 }) [PE_TXIN e, PE_ST_TXLVL e, PE_ST_RXLVL e]
      ((s.modEngine e fun y => { y with mev := rest, due := y.due ++ [p] }).txPushed e w) := by
  have hframe := txPushed_frame (s.modEngine e fun y => { y with mev := rest, due := y.due ++ [p] }) e w
  rw [modEngine_modEngine] at hframe
  exact engineLeft_of_frame hframe

theorem millEvent_push {r : GridRec} (hkind : r.rcd.kind = .sample) (f : EngineState → EngineState) (hmode : s.get (PE_MEV_MODE e) = 3)
    (htx : (f s.engines[e]).tx = s.engines[e].tx) (hroom : s.engines[e].tx.length < txDepth s e) :
    millEvent (s.modEngine e f) e r = (s.modEngine e fun y => { f y with due := (f y).due ++ [(15, r.t, 2)] }).txPushed e (BitVec.ofInt 32 r.rcd.value) := by
  have hget : (s.modEngine e f).get (PE_MEV_MODE e) = s.get (PE_MEV_MODE e) := rfl
  rw [millEvent_matches hkind (by omega) (by omega), if_pos (by omega), modEngine_modEngine, txPush_room]
  · rfl
  · rw [modEngine_same]
    exact (congrArg List.length htx).trans_lt hroom

end

/-- Settles O38: commands wait for the tick after and act there, one lemma per command; queues, instruction memory, injection and inputs by the lemmas above. -/
theorem engineCommandsQueuesAndInputs : Obligations.EngineCommandsQueuesAndInputs := by
  unfold Obligations.EngineCommandsQueuesAndInputs
  refine ⟨?_, ?_, ?_, ?_, ?_, ?_, ?_, ?_, ?_, ?_, ?_, ?_, ?_, ?_, ?_, ?_, ?_, ?_, ?_, ?_⟩
  · intro door mask s h
    exact ⟨_, (exec_peGcmd door s mask h).1, fun j => exec_gcmd_engines s 1 mask (by decide) j, writeGcmd_rest s _⟩
  · intro door mask s h
    exact ⟨_, (exec_peGcmd door s mask h).2.1, fun j => exec_gcmd_engines s 2 mask (by decide) j, writeGcmd_rest s _⟩
  · intro door mask s h
    exact ⟨_, (exec_peGcmd door s mask h).2.2.1, fun j => exec_gcmd_engines s 0 mask (by decide) j, writeGcmd_rest s _⟩
  · intro door mask s h
    exact ⟨_, (exec_peGcmd door s mask h).2.2.2, fun j => exec_gcmd_engines s 3 mask (by decide) j, writeGcmd_rest s _⟩
  · intro door e s h haux hempty
    refine ⟨_, (exec_peGcmd door s _ h).1, ?_⟩
    rw [takeGcmd_writeGcmd 1 (by decide) hempty]
    have hcmd : peCommand s e ((2 ^ 1).testBit 0) ((2 ^ 1).testBit 1) ((2 ^ 1).testBit 2) ((2 ^ 1).testBit 3) = setPeState (s.modEngine e EngineState.stopped) e 0 :=
      peCommand_stop haux
    rw [hcmd]
    have hleft := setPeState_engineLeft (s := s) (e := e) EngineState.stopped 0
    exact ⟨setPeState_state _ e 0, hleft.engine, setPeState_running _ e 0, hleft.others, hleft.rest, hleft.regs⟩
  · intro door e s h haux hempty
    refine ⟨_, (exec_peGcmd door s _ h).2.1, ?_⟩
    rw [takeGcmd_writeGcmd 2 (by decide) hempty]
    have hcmd : peCommand s e ((2 ^ 2).testBit 0) ((2 ^ 2).testBit 1) ((2 ^ 2).testBit 2) ((2 ^ 2).testBit 3) = s.restarted e := peCommand_restart haux
    rw [hcmd]
    have hleft := engineLeft_of_frame (restarted_frame (s := s) (e := e))
    obtain ⟨hpc, hsin, hsout, htcd⟩ := restarted_regs (s := s) (e := e)
    refine ⟨setPeState_state _ e 0, hpc, hsin, hsout, htcd, (restarted_frame (s := s) (e := e)).get _ (u_apart_restart e), ?_, ?_, ?_, ?_, hleft.others, hleft.rest,
      sameBut_mono hleft.regs (by simp [restartFields, peStateFields])⟩
    · rw [hleft.engine, EngineState.restarted]
    · rw [hleft.engine, EngineState.restarted]
    · rw [hleft.engine, EngineState.restarted]
    · rw [hleft.engine, EngineState.restarted]
  · intro door e s h haux hempty hrest
    refine ⟨_, (exec_peGcmd door s _ h).2.2.1, ?_⟩
    rw [takeGcmd_writeGcmd 0 (by decide) hempty]
    have hcmd : peCommand s e ((2 ^ 0).testBit 0) ((2 ^ 0).testBit 1) ((2 ^ 0).testBit 2) ((2 ^ 0).testBit 3) =
        setPeState (s.modEngine e fun x => { x with lastPc := none }) e 1 := peCommand_run haux hrest
    rw [hcmd]
    have hleft := setPeState_engineLeft (s := s) (e := e) (fun x => { x with lastPc := none }) 1
    exact ⟨setPeState_state _ e 1, (setPeState_frame (s.modEngine e _) e 1).get _ (pc_apart_peState e), hleft.engine, setPeState_running _ e 1, hleft.others, hleft.rest,
      hleft.regs⟩
  · intro door e s h hempty
    refine ⟨_, (exec_peGcmd door s _ h).2.2.2, ?_⟩
    rw [takeGcmd_writeGcmd 3 (by decide) hempty]
    have hcmd : peCommand s e ((2 ^ 3).testBit 0) ((2 ^ 3).testBit 1) ((2 ^ 3).testBit 2) ((2 ^ 3).testBit 3) =
        s.modEngine e fun x => { x with acc := 0, cycle := true } := rfl
    rw [hcmd]
    exact ⟨modEngine_same s e _, fun j hj => modEngine_ne s e _ j hj, modEngine_rest s e _⟩
  · intro door e w s h hinj hres
    have hfree : (s.engines[e].inj.isSome || peReserved (w % 65536)) = false := by rw [hinj, hres]; rfl
    refine ⟨s.modEngine e fun x => { x with inj := some (w % 65536) }, ?_, modEngine_same s e _, fun j hj => modEngine_ne s e _ j hj, modEngine_rest s e _⟩
    rw [exec_peInject door e s w h, peInjectWrite, hfree]
    rfl
  · intro door e w s h hbusy
    have hfull : (s.engines[e].inj.isSome || peReserved (w % 65536)) = true := Bool.or_eq_true_iff.2 hbusy
    refine ⟨s.event (PE_EVT_INJREJ e), ?_, State.get_event_same _ _ (show 5 + 1 ≤ 32 by decide) rfl, ?_⟩
    · rw [exec_peInject door e s w h, peInjectWrite, hfull, if_pos rfl]
    · exact RegFrame.onlyFields (RegFrame.event (.refl _ _ s) (by simp) (show 5 + 1 ≤ 32 by decide))
  · intro door e w s h hroom
    have hleft := engineLeft_of_frame (txPushed_frame s e w)
    exact ⟨_, (exec_peTxPush door e s w h).trans (congrArg _ (txPush_room s e w hroom)), hleft.engine, txPushed_txin s e w, txPushed_txlvl s e w hroom, hleft.others, hleft.rest,
      hleft.regs⟩
  · intro door e w s h hfull
    refine ⟨_, (exec_peTxPush door e s w h).trans (congrArg _ (txPush_full s e w hfull)), ?_, State.get_set_same _ _ _ (show 0 + 32 ≤ 32 by decide), ?_⟩
    · rw [State.get_set_ne _ _ _ _ (show 0 + 32 ≤ 32 by decide) (txDrop_apart e)]
      exact State.get_event_same _ _ (show 3 + 1 ≤ 32 by decide) rfl
    · exact RegFrame.onlyFields (RegFrame.set (RegFrame.event (.refl _ _ s) (by simp) (show 3 + 1 ≤ 32 by decide)) (by simp) (show 0 + 32 ≤ 32 by decide))
  · intro door e v l s halive hrx
    have hleft := rxAnswered_left e s v l
    exact ⟨_, exec_peRxPop_cons door e s halive hrx, hleft.bus, hleft.engine, hleft.rxout, hleft.others, hleft.rest, hleft.regs⟩
  · intro door e s halive hrx
    have hframe : RegFrame [PE_EVT_RDEMPTY e] s (s.event (PE_EVT_RDEMPTY e)) := RegFrame.event (.refl _ _ s) (by simp) (show 9 + 1 ≤ 32 by decide)
    refine ⟨(s.event (PE_EVT_RDEMPTY e)).answer 0, ?_, congrArg (fun b : BusState => { b with reply := 0 }) (RegFrame.bus hframe),
      State.get_event_same s (PE_EVT_RDEMPTY e) (show 9 + 1 ≤ 32 by decide) rfl, answer_rest _ (RegFrame.busFrame hframe).rest, sameBut_regs hframe.regs (State.answer_regs _ _)⟩
    rw [exec_peRxPop door e s halive, rxPop_nil e s hrx]
  · intro door e n v s h hstate
    refine ⟨_, (exec_peImWrite door e s n v h).trans (congrArg _ (writeIm_stopped n v hstate)), State.word_setWord_same _ _ _, rfl, sameBut_setWord _ _ _ _ (by simp)⟩
  · intro door e n v s h hruns
    exact ⟨_, (exec_peImWrite door e s n v h).trans (congrArg _ (writeIm_running n v hruns)), State.get_event_same _ _ (show 7 + 1 ≤ 32 by decide) rfl,
      RegFrame.onlyFields (RegFrame.event (.refl _ _ s) (by simp) (show 7 + 1 ≤ 32 by decide))⟩
  · intro e tm code rest s halive hdue
    refine ⟨_, exec_pePulseInput halive hdue, ?_, ?_, fun j hj => modEngine_ne s e _ j hj, modEngine_rest s e _⟩
    · rw [peLatch, modEngine_same, putPulse, List.find?_cons_of_pos (p := fun p : Nat × Nat => p.1 == code) (beq_self_eq_true code)]
      rfl
    · rw [modEngine_same, hdue, List.erase_cons_head]
  · intro e r rest s halive hruns hmev hkind hmode
    refine ⟨_, (exec_peMillEvent halive hruns hmev).trans (congrArg _ (millEvent_mode s e hkind _ hmode)), modEngine_same s e _, fun j hj => modEngine_ne s e _ j hj,
      modEngine_rest s e _⟩
  · intro e r rest s halive hruns hmev hkind hmode hroom
    have hleft := millPushed_left s e rest (15, r.t, 2) (BitVec.ofInt 32 r.rcd.value)
    exact ⟨_, (exec_peMillEvent halive hruns hmev).trans (congrArg _ (millEvent_push s e hkind _ hmode rfl hroom)), hleft.engine,
      txPushed_txin _ e _, (txPushed_txlvl _ e _ (by rw [modEngine_same]; exact hroom)).trans (by rw [modEngine_same]), hleft.others, hleft.rest, hleft.regs⟩
  · intro e r rest s halive hruns hmev hignored
    exact ⟨_, (exec_peMillEvent halive hruns hmev).trans (congrArg _ (millEvent_ignored hignored)), modEngine_same s e _, fun j hj => modEngine_ne s e _ j hj, modEngine_rest s e _⟩

end Sys2Proof.Machine
end

section
/-!
PROOFS. The recognisers (11 R269 to R276): frames of their shown states, of the engines' inputs and of an own Blaze; the records each reads next; and the statement about them.
-/

namespace Sys2Proof.Machine

/-! ### Beside the registers and the engines -/

/-- The state without its registers, the present tick's events and the engines. -/
def besideEngines (s : State) : State := { besideRegs s with engines := Vector.replicate 8 {} }

/-- Only fields of l and the engines' inputs differ. -/
abbrev EnginesFrame (l : List Field) (s t : State) : Prop := ViewFrame besideEngines l s t

section
variable {l : List Field} {s t : State} {f : Field} {n : Nat} {g : RecogState → RecogState}

theorem RegFrame.enginesFrame (h : RegFrame l s t) : EnginesFrame l s t := ViewFrame.through h fun x => { x with engines := Vector.replicate 8 {} }

theorem EnginesFrame.set (h : EnginesFrame l s t) (hf : f ∈ l) (hok : f.ok) : EnginesFrame l s (t.set f n) := ViewFrame.set h hf hok rfl

theorem EnginesFrame.event (h : EnginesFrame l s t) (hf : f ∈ l) (hok : f.ok) : EnginesFrame l s (t.event f) := ViewFrame.event h hf hok rfl

theorem EnginesFrame.bump (h : EnginesFrame l s t) (hf : f ∈ l) (hok : f.ok) : EnginesFrame l s (t.bump f n) := ViewFrame.bump h hf hok rfl

theorem pulseAll_enginesFrame (s : State) (code t : Nat) : EnginesFrame l s (pulseAll s code t) := ⟨sameBut_regs (sameBut_refl l s) rfl, rfl⟩

theorem levelChange_enginesFrame (s : State) (code : Nat) (before after : Bool) (t : Nat) : EnginesFrame l s (levelChange s code before after t) := by
  unfold levelChange
  split
  · exact .refl _ _ s
  · exact ⟨sameBut_regs (sameBut_refl l s) rfl, rfl⟩

theorem EnginesFrame.recog (h : EnginesFrame l s t) : t.recog = s.recog := (congrArg State.recog h.kept :)

theorem EnginesFrame.recog_of_modRecog (h : EnginesFrame l (s.modRecog g) t) : t.recog = g s.recog := EnginesFrame.recog h

theorem EnginesFrame.rest_of_modRecog (h : EnginesFrame l (s.modRecog g) t) : { t with regs := s.regs, recog := s.recog, engines := s.engines, fresh := s.fresh } = s :=
  (congrArg (fun x : State => { x with regs := s.regs, recog := s.recog, engines := s.engines, fresh := s.fresh }) h.kept :)

theorem EnginesFrame.regs_of_modRecog (h : EnginesFrame l (s.modRecog g) t) : sameBut l s t := h.regs

theorem modRecog_modRecog (s : State) (f g : RecogState → RecogState) : (s.modRecog f).modRecog g = s.modRecog (g ∘ f) := rfl

end

/-! ### The shown states (11 R285) -/

section
variable (s : State)

/-- The state that the impact recogniser shows. -/
def impState (s : State) : Nat :=
  match s.recog.ep, s.recog.first with
  | some e, _ => if sustained s e then 3 else 1
  | none, some _ => 2
  | none, none => 0

theorem impState_lt : impState s < 4 := by
  unfold impState
  split
  · split <;> decide
  · decide
  · decide

theorem showImp_eq : showImp s = levelChange (s.set RC_IMP_ST_STATE (impState s)) 12 (s.get RC_IMP_ST_STATE % 2 == 1) (impState s % 2 == 1) s.now := (rfl)

theorem showImp_frame : EnginesFrame [RC_IMP_ST_STATE] s (showImp s) := by
  rw [showImp_eq]
  exact (EnginesFrame.set (.refl _ _ s) (by simp) (by decide)).trans (levelChange_enginesFrame _ _ _ _ _)

theorem showImp_state : (showImp s).get RC_IMP_ST_STATE = impState s := by
  rw [showImp_eq, (levelChange_enginesFrame (l := []) _ _ _ _ _).get _ (by simp), State.get_set_same _ _ _ (by decide)]
  exact Nat.mod_eq_of_lt (impState_lt s)

theorem setFfall_frame (b : Bool) : EnginesFrame [RC_FF_ST_ACTIVE] s (setFfall s b) :=
  (EnginesFrame.set (.refl _ _ s) (by simp) (by decide)).trans (levelChange_enginesFrame _ _ _ _ _)

theorem setFfall_active (b : Bool) : (setFfall s b).get RC_FF_ST_ACTIVE = b.toNat := by
  rw [setFfall, (levelChange_enginesFrame (l := []) _ _ _ _ _).get _ (by simp), State.setB, State.get_set_same _ _ _ (by decide)]
  cases b <;> rfl

end

/-! ### An own Blaze (11 R279, R280) -/

/-- The state without its registers, the present tick's events, the Blaze paths and the engines. -/
def besideBlaze (s : State) : State := { besideEngines s with blaze := {} }

/-- The fields of an own Blaze, withheld or sent. -/
def issueFields : List Field := blazeFields ++ [BZ_CNT_LIMITED, BZ_EVT_LIMITED]

/-- Only fields of an own Blaze, the Blaze paths and the engines' inputs differ. -/
abbrev BlazeFrame (s t : State) : Prop := ViewFrame besideBlaze issueFields s t

section
variable (s : State) (b : Blaze)

theorem blazeFrame_of_blaze {s t : State} (h : BlazeFrame s t) (x : BlazeState) : BlazeFrame s { t with blaze := x } := ViewFrame.beside h rfl rfl

theorem fifoPut_blazeFrame : BlazeFrame s (fifoPut s b) := by
  unfold fifoPut
  refine .ite ?_ ?_
  · exact .set (blazeFrame_of_blaze (.refl _ _ s) _) (by decide) (by decide) rfl
  · exact .event (.bump (.refl _ _ s) (by decide) (by decide) rfl) (by decide) (by decide) rfl

theorem pulseMatches_blazeFrame (mask t : Nat) : BlazeFrame s (pulseMatches s mask t) := by
  unfold pulseMatches
  refine ViewFrame.foldl (fun s m => ?_) _ s
  exact .ite (.beside (.refl _ _ s) rfl rfl) (.refl _ _ s)

theorem routeBlaze_blazeFrame (mask : Nat) : BlazeFrame s (routeBlaze s mask b) := by
  have hqueued (x : BlazeState) (t : State) (h : BlazeFrame s t) (c : Bool) : BlazeFrame s (if c then { t with blaze := x } else t) := .ite (blazeFrame_of_blaze h x) h
  have hcapture : BlazeFrame s (if mask.testBit 2 then triggerWith s b else s) := hqueued _ s (.refl _ _ s) _
  have hfifo (t : State) (h : BlazeFrame s t) : BlazeFrame s (if mask.testBit 0 then fifoPut t b else t) := .ite (h.trans (fifoPut_blazeFrame t b)) h
  have hmatch (t : State) (h : BlazeFrame s t) : BlazeFrame s (if mask.testBit 1 then pulseMatches t (matchMask t b) b.t else t) :=
    .ite (h.trans (pulseMatches_blazeFrame t _ _)) h
  unfold routeBlaze
  exact hqueued _ _ (hqueued _ _ (hmatch _ (hfifo _ hcapture)) _) _

theorem countBlaze_blazeFrame : BlazeFrame s (countBlaze s b) := .set (blazeFrame_of_blaze (.refl _ _ s) _) (by decide) (by decide) rfl

theorem withholdBlaze_blazeFrame : BlazeFrame s (withholdBlaze s b) :=
  .event (.bump (blazeFrame_of_blaze (.refl _ _ s) _) (by decide) (by decide) rfl) (by decide) (by decide) rfl

theorem issueBlaze_blazeFrame : BlazeFrame s (issueBlaze s b) := by
  unfold issueBlaze
  exact .ite (withholdBlaze_blazeFrame s b) ((countBlaze_blazeFrame s b).trans (routeBlaze_blazeFrame _ _ _))

end

/-! ### The impact recogniser (11 R271 to R273) -/

section
variable {s : State}

/-- The recogniser runs. -/
theorem exec_impactRecord (hon : recogOn s = true) (hen : s.get RC_IMP_CFG_EN = 1) :
    exec .impactRecord s = .next (if (nextRecs (impWaiting s)).isEmpty || oneRate (impWaiting s) then impDecide (impRead s (nextRecs (impWaiting s))) (nextRecs (impWaiting s))
      else impIdle (impRead s (nextRecs (impWaiting s)))) := by
  have hready : (recogOn s && s.bit RC_IMP_CFG_EN) = true := by
    rw [hon, State.bit, hen]
    rfl
  exact congrArg Host.Outcome.next (if_pos hready)

/-- With one axis named, its records wait. -/
theorem impWaiting_one {r : GridRec} {rest : List GridRec} (haxes : s.get RC_IMP_CFG_AXES = 1) (hin : s.recog.impIn[0] = r :: rest) : impWaiting s = [(0, r :: rest)] := by
  simp [impWaiting, haxes, hin, waitingOf, Nat.testBit_one_eq_true_iff_self_eq_zero]

theorem used_kind {r : GridRec} (h : r.used = true) : r.rcd.kind = .sample ∧ r.rcd.stale = false := by
  simpa [GridRec.used] using h

theorem nextRecs_one {i : Nat} {r : GridRec} {rest : List GridRec} (hkind : r.rcd.kind ≠ .timeStep) : nextRecs [(i, r :: rest)] = [(i, r)] := by
  simp [nextRecs, hkind]

theorem oneRate_one {i : Nat} {r : GridRec} {rest : List GridRec} (hkind : r.rcd.kind ≠ .timeStep) : oneRate [(i, r :: rest)] = true := by
  simp [oneRate, hkind]

/-- A sample at the threshold begins an episode where none is in progress (11 R271). -/
theorem impSamples_begin {x : State} {r : GridRec} (hep : x.recog.ep = none) (hfirst : x.recog.first = none) (hused : r.used = true)
    (hthr : x.get RC_IMP_CFG_THR ≤ absNat r.rcd.value) :
    impSamples x r.t [(0, r)] = x.modRecog fun y => { y with ep := some ⟨r.t, r.ssn, 0, r.t, r.ssn, absNat r.rcd.value, r.rcd.ovr⟩ } := by
  have habove : aboveRecs x [(0, r)] = [(0, r)] := by simp [aboveRecs, hused, hthr]
  have hpeak : peakOf [(0, r)] = absNat r.rcd.value := by simp [peakOf, hused]
  have hovr : anyOvr [(0, r)] = r.rcd.ovr := by simp [anyOvr, hused]
  unfold impSamples
  rw [hep, hfirst]
  dsimp only
  rw [hep]
  dsimp only
  rw [impBegin, habove, hpeak, hovr]

/-- Nothing in progress, an interruption leaves nothing (11 R273). -/
theorem impInterrupt_idle {x : State} (hep : x.recog.ep = none) (hfirst : x.recog.first = none) : impInterrupt x = x.modRecog fun y => { y with ep := none, first := none } := by
  unfold impInterrupt
  rw [hep]
  dsimp only
  rw [hfirst]

/-- A record of one axis has been read. -/
theorem afterRead_first {r : GridRec} {rest : List GridRec} {v : Vector (List GridRec) 3} (h : v[0] = r :: rest) :
    (Vector.ofFn fun k : Fin 3 => afterRead [(0, r)] k.val v[k]) = v.set 0 rest := by
  apply Vector.ext
  intro k hk
  rw [Vector.getElem_ofFn, Vector.getElem_set]
  by_cases h0 : 0 = k
  · subst h0
    simp [afterRead, h]
  · rw [if_neg h0]
    simp [afterRead, h0]

end

/-! ### The stroke recogniser (11 R274, R275) -/

section
variable {s : State}

theorem exec_strokeRecord {r : GridRec} {rest : List GridRec} (hon : recogOn s = true) (hen : s.get RC_STK_CFG_EN = 1) (hin : s.recog.stkIn = r :: rest) :
    exec .strokeRecord s = .next (strokeRead (s.modRecog fun x => { x with stkIn := rest }) r) := by
  have hready : (recogOn s && s.bit RC_STK_CFG_EN) = true := by
    rw [hon, State.bit, hen]
    rfl
  change execStrokeRecord s = _
  rw [execStrokeRecord, if_pos hready, hin]

/-- A stroke's count and its pulse to the engines (12 R291). -/
def State.strokeCounted (s : State) (t : Nat) : State := pulseAll (s.set RC_STK_COUNT (s.get RC_STK_COUNT + 1)) 14 t

theorem strokeCounted_frame (x : State) (t : Nat) : EnginesFrame [RC_STK_COUNT] x (x.strokeCounted t) :=
  (EnginesFrame.set (.refl _ _ x) (by simp) (by decide)).trans (pulseAll_enginesFrame _ _ _)

theorem strokeCounted_count (x : State) (t : Nat) : (x.strokeCounted t).get RC_STK_COUNT = (x.get RC_STK_COUNT + 1) % 2 ^ 32 :=
  ((pulseAll_enginesFrame (l := []) _ _ _).get _ (by simp)).trans (State.get_set_same _ _ _ (by decide))

/-- The first stroke of a recogniser that reports no single ones. -/
theorem stroke_first {x : State} (r : GridRec) (hstate : x.get RC_STK_ST_STATE ≠ 3) (heach : x.get RC_STK_CFG_EACH = 0) (hlast : x.recog.lastStroke = none) :
    stroke x r = (x.strokeCounted r.t).modRecog fun y => { y with armed := false, lastStroke := some r.t, stopFrom := some r.t } := by
  have hstate' : (x.strokeCounted r.t).get RC_STK_ST_STATE ≠ 3 := by
    rw [(strokeCounted_frame x r.t).get _ (by decide)]
    exact hstate
  have hlast' : (x.strokeCounted r.t).recog.lastStroke = none := (congrArg RecogState.lastStroke (EnginesFrame.recog (strokeCounted_frame x r.t))).trans hlast
  have heach' : ((x.strokeCounted r.t).modRecog fun y => { y with armed := false, lastStroke := some r.t, stopFrom := some r.t }).bit RC_STK_CFG_EACH = false := by
    have hget : (x.strokeCounted r.t).get RC_STK_CFG_EACH = 0 := ((strokeCounted_frame x r.t).get _ (by decide)).trans heach
    change ((x.strokeCounted r.t).get RC_STK_CFG_EACH == 1) = false
    rw [hget]
    rfl
  have hcounted : pulseAll (x.set RC_STK_COUNT (x.get RC_STK_COUNT + 1)) 14 r.t = x.strokeCounted r.t := rfl
  unfold stroke
  rw [hcounted]
  dsimp only
  rw [if_neg hstate', hlast', heach']
  rfl

/-- A record that a recogniser without a stop time running meets restarts it. -/
def State.stopTimed (x : State) (t : Nat) : State := x.modRecog fun y => { y with stopFrom := if y.stopFrom.isNone && x.get RC_STK_ST_STATE != 3 then some t else y.stopFrom }

/-- The stop time has just begun. -/
theorem stkStop_just {x : State} {r : GridRec} (hfrom : x.recog.stopFrom = some r.t) (hstop : 0 < x.get RC_STK_STOP_STOPMS) : stkStop x r = x := by
  rw [stkStop, hfrom]
  dsimp only
  rw [if_neg (by omega)]

/-- A sample at the level on an armed recogniser is a stroke (11 R274). -/
theorem strokeRead_stroke {x : State} {r : GridRec} (hused : r.used = true) (harmed : x.recog.armed = true) (hlevel : x.getI RC_STK_LVL_LEVEL ≤ r.rcd.value)
    (hfrom : (x.stopTimed r.t).recog.stopFrom = some r.t) (hstop : 0 < x.get RC_STK_STOP_STOPMS) : strokeRead x r = stroke (x.stopTimed r.t) r := by
  obtain ⟨hkind, -⟩ := used_kind hused
  have htimed : (x.modRecog fun y => { y with stopFrom := if y.stopFrom.isNone && x.get RC_STK_ST_STATE != 3 then some r.t else y.stopFrom }) = x.stopTimed r.t := rfl
  unfold strokeRead
  rw [htimed]
  dsimp only
  rw [stkStop_just (x := x.stopTimed r.t) hfrom hstop, if_neg (by rw [hkind]; decide), if_neg (by rw [hkind]; decide), if_pos]
  rw [hused, show (x.stopTimed r.t).recog.armed = x.recog.armed from rfl, harmed]
  exact decide_eq_true hlevel

theorem strokeRead_timeStep {x : State} {r : GridRec} (hkind : r.rcd.kind = .timeStep) :
    strokeRead x r = x.modRecog fun y => { y with armed := false, lastStroke := none, stopFrom := none } := by
  rw [strokeRead, if_pos hkind]

end

/-! ### The free-fall recogniser (11 R276) -/

section
variable {s : State} {x y z : GridRec} {xs ys zs : List GridRec}

theorem exec_freefallRecord (hon : recogOn s = true) (hen : s.get RC_FF_CFG_EN = 1) (hrate : oneRate (ffWaiting s) = true) {p : Nat × GridRec} {l : List (Nat × GridRec)}
    (hnext : nextRecs (ffWaiting s) = p :: l) : exec .freefallRecord s = .next (ffDecide (ffRead s (p :: l)) (p :: l)) := by
  have hready : (recogOn s && s.bit RC_FF_CFG_EN) = true := by
    rw [hon, State.bit, hen]
    rfl
  change execFreefallRecord s = _
  rw [execFreefallRecord, if_pos hready]
  dsimp only
  rw [hnext, hrate]
  dsimp only
  rw [if_pos rfl]

section
variable (hx : s.recog.ffIn[0] = x :: xs) (hy : s.recog.ffIn[1] = y :: ys) (hz : s.recog.ffIn[2] = z :: zs)
include hx hy hz

theorem ffWaiting_three : ffWaiting s = [(3, x :: xs), (4, y :: ys), (5, z :: zs)] := by simp [ffWaiting, waitingOf, hx, hy, hz]

/-- The records of one grid time are read together. -/
theorem nextRecs_sameTime (hxt : x.t = z.t) (hyt : y.t = z.t) (hkx : x.rcd.kind ≠ .timeStep) (hky : y.rcd.kind ≠ .timeStep) (hkz : z.rcd.kind ≠ .timeStep) :
    nextRecs (ffWaiting s) = [(3, x), (4, y), (5, z)] := by
  rw [ffWaiting_three hx hy hz]
  simp [nextRecs, hxt, hyt, hkx, hky, hkz]

/-- Time-step records are read together too. -/
theorem nextRecs_timeSteps (hkx : x.rcd.kind = .timeStep) (hky : y.rcd.kind = .timeStep) (hkz : z.rcd.kind = .timeStep) :
    nextRecs (ffWaiting s) = [(3, x), (4, y), (5, z)] := by
  rw [ffWaiting_three hx hy hz]
  simp [nextRecs, hkx, hky, hkz]

/-- All three records have been read. -/
theorem ffRead_three : ffRead s [(3, x), (4, y), (5, z)] = s.modRecog fun q => { q with ffIn := #v[xs, ys, zs] } := by
  have hin : (Vector.ofFn fun k : Fin 3 => afterRead [(3, x), (4, y), (5, z)] (k.val + 3) s.recog.ffIn[k]) = #v[xs, ys, zs] := by
    apply Vector.ext
    intro k hk
    rw [Vector.getElem_ofFn]
    have hcases : k = 0 ∨ k = 1 ∨ k = 2 := by omega
    rcases hcases with rfl | rfl | rfl
    · simp [afterRead, hx]
    · simp [afterRead, hy]
    · simp [afterRead, hz]
  exact congrArg (fun v => s.modRecog fun q => { q with ffIn := v }) hin

end

/-- A record in the band. -/
theorem inBand_of {q : State} {r : GridRec} (hused : r.used = true) (hthr : absNat r.rcd.value < q.get RC_FF_CFG_THR) : inBand q r = true := by
  rw [inBand, hused, decide_eq_true hthr]
  rfl

/-- The condition as it holds on. -/
def State.fallHeld (q : State) (a n m : Nat) (o : Bool) : State := q.modRecog fun p => { p with ffStart := some (a, n), ffPeak := max p.ffPeak m, ffOvr := p.ffOvr || o, ffFail := none }

/-- The event of a free fall. -/
def State.fallCounted (q : State) : State := ((setFfall q true).bump RC_FF_ST_CNT 1).event RC_EVT_FFALL

theorem fallCounted_frame (q : State) : EnginesFrame [RC_FF_ST_ACTIVE, RC_FF_ST_CNT, RC_EVT_FFALL] q q.fallCounted :=
  EnginesFrame.event (EnginesFrame.bump ((setFfall_frame q true).mono (by simp)) (by decide) (by decide)) (by decide) (by decide)

theorem fallCounted_regs (q : State) : q.fallCounted.get RC_FF_ST_ACTIVE = 1 ∧ q.fallCounted.get RC_FF_ST_CNT = min 255 (q.get RC_FF_ST_CNT + 1) ∧
    q.fallCounted.get RC_EVT_FFALL = 1 := by
  refine ⟨?_, ?_, State.get_event_same _ _ (by decide) rfl⟩
  · rw [State.fallCounted, State.get_event_ne _ _ _ (by decide) (by decide), State.get_bump_ne _ _ _ _ (by decide) (by decide)]
    exact setFfall_active q true
  · rw [State.fallCounted, State.get_event_ne _ _ _ (by decide) (by decide), State.get_bump_same _ _ _ (by decide), (setFfall_frame q true).get _ (by decide)]
    exact Nat.min_comm _ _

/-- A condition that has lasted its duration becomes active, with its Blaze (11 R276). -/
theorem ffHolds_active {q : State} {a n : Nat} (hstart : q.recog.ffStart = some (a, n)) (hdur : a + q.get RC_FF_TIM_DUR * 8000000 ≤ z.t) (hoff : q.get RC_FF_ST_ACTIVE = 0) :
    ∃ m o b, ffHolds q x y z = issueBlaze (q.fallHeld a n m o).fallCounted b := by
  refine ⟨max (absNat x.rcd.value) (max (absNat y.rcd.value) (absNat z.rcd.value)), x.rcd.ovr || y.rcd.ovr || z.rcd.ovr, ?_⟩
  have hcond (p : State) (hp : p.get RC_FF_TIM_DUR = q.get RC_FF_TIM_DUR) (hact : p.get RC_FF_ST_ACTIVE = q.get RC_FF_ST_ACTIVE) :
      a + p.get RC_FF_TIM_DUR * 8000000 ≤ z.t ∧ !p.bit RC_FF_ST_ACTIVE := by
    rw [hp, State.bit, hact, hoff]
    exact ⟨hdur, rfl⟩
  unfold ffHolds
  rw [hstart]
  dsimp only [Option.getD_some]
  split
  · exact ⟨_, rfl⟩
  · rename_i hnot
    exact absurd (hcond _ rfl rfl) hnot

theorem ffDecide_fall {q : State} (hx : x.used = true) (hy : y.used = true) (hz : z.used = true) (hxthr : absNat x.rcd.value < q.get RC_FF_CFG_THR)
    (hythr : absNat y.rcd.value < q.get RC_FF_CFG_THR) (hzthr : absNat z.rcd.value < q.get RC_FF_CFG_THR) :
    ffDecide q [(3, x), (4, y), (5, z)] = ffHolds q x y z := by
  have hnoStep : ([(3, x), (4, y), (5, z)].any fun p : Nat × GridRec => p.2.rcd.kind == .timeStep) = false := by
    simp [(used_kind hx).1, (used_kind hy).1, (used_kind hz).1]
  rw [ffDecide, hnoStep, if_neg Bool.false_ne_true]
  dsimp only
  rw [inBand_of hx hxthr, inBand_of hy hythr, inBand_of hz hzthr]
  exact if_pos rfl

theorem ffDecide_timeStep {q : State} (hx : x.rcd.kind = .timeStep) : ffDecide q [(3, x), (4, y), (5, z)] = ffClear q := by
  have hstep : ([(3, x), (4, y), (5, z)].any fun p : Nat × GridRec => p.2.rcd.kind == .timeStep) = true := by simp [hx]
  rw [ffDecide, hstep, if_pos rfl]

/-- What a Blaze leaves of a free fall's registers and of the module beside the Blaze paths. -/
theorem issueBlaze_fall (q : State) (b : Blaze) :
    (issueBlaze q b).get RC_FF_ST_ACTIVE = q.get RC_FF_ST_ACTIVE ∧ (issueBlaze q b).get RC_FF_ST_CNT = q.get RC_FF_ST_CNT ∧
    (issueBlaze q b).get RC_EVT_FFALL = q.get RC_EVT_FFALL ∧ besideBlaze (issueBlaze q b) = besideBlaze q := by
  have hframe := issueBlaze_blazeFrame q b
  exact ⟨hframe.get _ (by decide), hframe.get _ (by decide), hframe.get _ (by decide), hframe.kept⟩

/-- The state of a free fall that has become active. -/
def State.fallen (q : State) (a n m : Nat) (o : Bool) (b : Blaze) : State := issueBlaze (q.fallHeld a n m o).fallCounted b

theorem fallen_beside (q : State) (a n m : Nat) (o : Bool) (b : Blaze) : besideBlaze (q.fallen a n m o b) = besideBlaze (q.fallHeld a n m o) := by
  obtain ⟨-, -, -, hblaze⟩ := issueBlaze_fall (q.fallHeld a n m o).fallCounted b
  exact hblaze.trans (congrArg (fun x : State => { x with blaze := {} }) (fallCounted_frame (q.fallHeld a n m o)).kept)

theorem fallen_recog (q : State) (a n m : Nat) (o : Bool) (b : Blaze) : (q.fallen a n m o b).recog = (q.fallHeld a n m o).recog :=
  (congrArg State.recog (fallen_beside q a n m o b) :)

theorem fallen_kept (q : State) (a n m : Nat) (o : Bool) (b : Blaze) :
    (q.fallen a n m o b).keys = q.keys ∧ (q.fallen a n m o b).flash = q.flash ∧ (q.fallen a n m o b).tally = q.tally ∧ (q.fallen a n m o b).deck = q.deck := by
  have hbeside := fallen_beside q a n m o b
  exact ⟨(congrArg State.keys hbeside :), (congrArg State.flash hbeside :), (congrArg State.tally hbeside :), (congrArg State.deck hbeside :)⟩

theorem fallen_regs (q : State) (a n m : Nat) (o : Bool) (b : Blaze) :
    (q.fallen a n m o b).get RC_FF_ST_ACTIVE = 1 ∧ (q.fallen a n m o b).get RC_FF_ST_CNT = min 255 (q.get RC_FF_ST_CNT + 1) ∧ (q.fallen a n m o b).get RC_EVT_FFALL = 1 := by
  obtain ⟨hactive, hcnt, hevt, -⟩ := issueBlaze_fall (q.fallHeld a n m o).fallCounted b
  obtain ⟨hactive', hcnt', hevt'⟩ := fallCounted_regs (q.fallHeld a n m o)
  exact ⟨hactive.trans hactive', hcnt.trans hcnt', hevt.trans hevt'⟩

end

/-! ### The statement -/

/-- What an impact that begins leaves. -/
theorem exec_impactRecord_begin {s : State} {r : GridRec} {rest : List GridRec} (hon : recogOn s = true) (hen : s.get RC_IMP_CFG_EN = 1) (haxes : s.get RC_IMP_CFG_AXES = 1)
    (hin : s.recog.impIn[0] = r :: rest) (hep : s.recog.ep = none) (hfirst : s.recog.first = none) (hused : r.used = true)
    (hthr : s.get RC_IMP_CFG_THR ≤ absNat r.rcd.value) :
    exec .impactRecord s = .next (showImp (s.modRecog fun y =>
      { y with ep := some ⟨r.t, r.ssn, 0, r.t, r.ssn, absNat r.rcd.value, r.rcd.ovr⟩, impIn := s.recog.impIn.set 0 rest })) := by
  obtain ⟨hkind, -⟩ := used_kind hused
  have hstep : r.rcd.kind ≠ .timeStep := by rw [hkind]; decide
  have hread : impRead s [(0, r)] = s.modRecog fun y => { y with impIn := s.recog.impIn.set 0 rest } :=
    congrArg (fun v => s.modRecog fun y => { y with impIn := v }) (afterRead_first hin)
  rw [exec_impactRecord hon hen, impWaiting_one haxes hin, nextRecs_one hstep, oneRate_one hstep, Bool.or_true, if_pos rfl, hread, impDecide]
  have hsample : ([(0, r)].any fun q : Nat × GridRec => q.2.rcd.kind != .sample) = false := by simp [hkind]
  rw [hsample, if_neg Bool.false_ne_true, impSamples_begin (by exact hep) (by exact hfirst) hused (by exact hthr)]
  rfl

/-- The module whose impact recogniser is idle at records of differing rate codes. -/
def State.idled (s : State) (recs : List (Nat × GridRec)) : State := ((impRead s recs).event RC_EVT_CFGERR).modRecog fun y => { y with ep := none, first := none }

/-- Records of differing rate codes, nothing in progress. -/
theorem exec_impactRecord_idle {s : State} (hon : recogOn s = true) (hen : s.get RC_IMP_CFG_EN = 1) (hnext : nextRecs (impWaiting s) ≠ []) (hrate : oneRate (impWaiting s) = false)
    (hep : s.recog.ep = none) (hfirst : s.recog.first = none) : exec .impactRecord s = .next (showImp (s.idled (nextRecs (impWaiting s)))) := by
  have hdiffer : ((nextRecs (impWaiting s)).isEmpty || oneRate (impWaiting s)) = false := by
    rw [hrate, Bool.or_false, List.isEmpty_eq_false_iff]
    exact hnext
  rw [exec_impactRecord hon hen, hdiffer, if_neg Bool.false_ne_true, impIdle, impInterrupt_idle (by exact hep) (by exact hfirst)]
  rfl

theorem idled_frame (s : State) (recs : List (Nat × GridRec)) :
    EnginesFrame [RC_EVT_CFGERR, RC_IMP_ST_STATE]
      (s.modRecog fun y => { y with ep := none, first := none, impIn := Vector.ofFn fun k : Fin 3 => afterRead recs k.val y.impIn[k] }) (showImp (s.idled recs)) := by
  have hevent : EnginesFrame [RC_EVT_CFGERR, RC_IMP_ST_STATE] _
      ((s.modRecog fun y => { y with ep := none, first := none, impIn := Vector.ofFn fun k : Fin 3 => afterRead recs k.val y.impIn[k] }).event RC_EVT_CFGERR) :=
    EnginesFrame.event (.refl _ _ _) (by decide) (by decide)
  exact hevent.trans ((showImp_frame _).mono (by simp))

/-- What the first stroke leaves. -/
theorem exec_strokeRecord_first {s : State} {r : GridRec} {rest : List GridRec} (hon : recogOn s = true) (hen : s.get RC_STK_CFG_EN = 1) (hin : s.recog.stkIn = r :: rest)
    (heach : s.get RC_STK_CFG_EACH = 0) (hused : r.used = true) (harmed : s.recog.armed = true) (hlevel : s.getI RC_STK_LVL_LEVEL ≤ r.rcd.value)
    (hfrom : s.recog.stopFrom = none) (hlast : s.recog.lastStroke = none) (hstop : 0 < s.get RC_STK_STOP_STOPMS) (hstate : s.get RC_STK_ST_STATE ≠ 3) :
    exec .strokeRecord s = .next ((((s.modRecog fun x => { x with stkIn := rest }).stopTimed r.t).strokeCounted r.t).modRecog fun y =>
      { y with armed := false, lastStroke := some r.t, stopFrom := some r.t }) := by
  have hbegins : ((s.modRecog fun x => { x with stkIn := rest }).stopTimed r.t).recog.stopFrom = some r.t := by
    have hidle : (s.get RC_STK_ST_STATE != 3) = true := bne_iff_ne.2 hstate
    change (if s.recog.stopFrom.isNone && s.get RC_STK_ST_STATE != 3 then some r.t else s.recog.stopFrom) = some r.t
    rw [hfrom, hidle]
    rfl
  rw [exec_strokeRecord hon hen hin, strokeRead_stroke hused (by exact harmed) (by exact hlevel) hbegins (by exact hstop), stroke_first r (by exact hstate) (by exact heach) (by exact hlast)]

/-- The state in which a stroke is counted differs from the one before in its recogniser only. -/
theorem firstStroke_frame (s : State) (r : GridRec) (rest : List GridRec) :
    EnginesFrame [RC_STK_COUNT] (s.modRecog fun y => { y with armed := false, lastStroke := some r.t, stopFrom := some r.t, stkIn := rest })
      ((((s.modRecog fun x => { x with stkIn := rest }).stopTimed r.t).strokeCounted r.t).modRecog fun y => { y with armed := false, lastStroke := some r.t, stopFrom := some r.t }) := by
  have hframe := strokeCounted_frame ((s.modRecog fun x => { x with stkIn := rest }).stopTimed r.t) r.t
  refine ⟨hframe.regs, ?_⟩
  exact congrArg (fun x : State => { x with recog := { s.recog with armed := false, lastStroke := some r.t, stopFrom := some r.t, stkIn := rest } }) hframe.kept

/-- Settles O34, one lemma per recogniser and record. -/
theorem recognisersFollowTheirRecords : Obligations.RecognisersFollowTheirRecords := by
  unfold Obligations.RecognisersFollowTheirRecords
  refine ⟨?_, ?_, ?_, ?_, ?_, ?_⟩
  · intro r rest s hon hen haxes hin hep hfirst hused hthr
    have hframe := showImp_frame (s.modRecog fun y => { y with ep := some ⟨r.t, r.ssn, 0, r.t, r.ssn, absNat r.rcd.value, r.rcd.ovr⟩, impIn := s.recog.impIn.set 0 rest })
    refine ⟨_, exec_impactRecord_begin hon hen haxes hin hep hfirst hused hthr, EnginesFrame.recog_of_modRecog hframe, (showImp_state _).trans ?_,
      EnginesFrame.rest_of_modRecog hframe, hframe.regs⟩
    change (if sustained _ _ = true then 3 else 1) = 1
    rw [sustained, Nat.sub_self, decide_eq_false (Nat.not_lt_zero _), if_neg Bool.false_ne_true]
  · intro s hon hen hnext hrate hep hfirst
    have hframe := idled_frame s (nextRecs (impWaiting s))
    refine ⟨_, exec_impactRecord_idle hon hen hnext hrate hep hfirst, ?_, (showImp_state _).trans rfl, ?_, EnginesFrame.rest_of_modRecog hframe, hframe.regs⟩
    · rw [(showImp_frame _).get _ (by decide)]
      exact State.get_event_same s RC_EVT_CFGERR (by decide) rfl
    · rw [EnginesFrame.recog_of_modRecog hframe]
      simp only [hep, hfirst]
  · intro r rest s hon hen hin heach hused harmed hlevel hfrom hlast hstop hstate
    have hframe := firstStroke_frame s r rest
    exact ⟨_, exec_strokeRecord_first hon hen hin heach hused harmed hlevel hfrom hlast hstop hstate, strokeCounted_count _ r.t, EnginesFrame.recog_of_modRecog hframe,
      EnginesFrame.rest_of_modRecog hframe, hframe.regs⟩
  · intro r rest s hon hen hin hkind
    exact ⟨_, (exec_strokeRecord hon hen hin).trans (congrArg _ (strokeRead_timeStep hkind)), rfl, rfl⟩
  · intro x y z xs ys zs a n s hon hen hrate hx hy hz hxt hyt hxu hyu hzu hxthr hythr hzthr hstart hdur hoff
    have hstep {r : GridRec} (h : r.used = true) : r.rcd.kind ≠ .timeStep := by rw [(used_kind h).1]; decide
    have hexec := exec_freefallRecord hon hen hrate (nextRecs_sameTime hx hy hz hxt hyt (hstep hxu) (hstep hyu) (hstep hzu))
    rw [ffRead_three hx hy hz, ffDecide_fall hxu hyu hzu (by exact hxthr) (by exact hythr) (by exact hzthr)] at hexec
    obtain ⟨m, o, b, hfall⟩ := ffHolds_active (x := x) (y := y) (z := z) (q := s.modRecog fun q => { q with ffIn := #v[xs, ys, zs] }) (by exact hstart) (by exact hdur) (by exact hoff)
    obtain ⟨hactive, hcnt, hevt⟩ := fallen_regs (s.modRecog fun q => { q with ffIn := #v[xs, ys, zs] }) a n m o b
    obtain ⟨hkeys, hflash, htally, hdeck⟩ := fallen_kept (s.modRecog fun q => { q with ffIn := #v[xs, ys, zs] }) a n m o b
    have hrecog := fallen_recog (s.modRecog fun q => { q with ffIn := #v[xs, ys, zs] }) a n m o b
    exact ⟨_, hexec.trans (congrArg _ hfall), hactive, hcnt, hevt, congrArg RecogState.ffStart hrecog, congrArg RecogState.ffIn hrecog, hkeys, hflash, htally, hdeck⟩
  · intro x y z xs ys zs s hon hen hrate hx hy hz hxk hyk hzk
    have hexec := exec_freefallRecord hon hen hrate (nextRecs_timeSteps hx hy hz hxk hyk hzk)
    rw [ffRead_three hx hy hz, ffDecide_timeStep hxk] at hexec
    exact ⟨_, hexec, rfl, rfl⟩

end Sys2Proof.Machine
end

section
/-!
PROOFS. The recognisers' settings (11 R284, R285) and the Blaze FIFO, messages and reorder stage (11 R280, R282, R283; 14 R361), and the statement about them.
-/

namespace Sys2Proof.Machine

/-- A word that no changed field lies in is unchanged. -/
theorem word_of_sameBut {l : List Field} {s t : State} (h : sameBut l s t) (a : Nat) (ha : ∀ f ∈ l, f.word ≠ a) : t.word a = s.word a := by
  apply BitVec.eq_of_getLsbD_eq
  intro i _
  refine h a i (List.any_eq_false.2 fun f hf => ?_)
  have hne : (f.word == a) = false := beq_false_of_ne (ha f hf)
  rw [Field.has, hne]
  simp

/-! ### Settings of the recognisers (11 R284) -/

section
variable (s : State)

theorem storeRw_modRecog (a : Nat) (v : Word) (g : RecogState → RecogState) : (storeRw s a v).modRecog g = storeRw (s.modRecog g) a v := rfl

theorem set_modRecog (f : Field) (n : Nat) (g : RecogState → RecogState) : (s.set f n).modRecog g = (s.modRecog g).set f n := rfl

/-- What an impact setting leaves of the recogniser: the episode is discarded, and records of slots that are not named any more. -/
def impDiscarded (t : State) (x : RecogState) : RecogState :=
  { x with ep := none, first := none, impIn := Vector.ofFn fun k : Fin 3 => if t.bit RC_IMP_CFG_EN && (t.get RC_IMP_CFG_AXES).testBit k.val then x.impIn[k] else [] }

theorem writeRcImp_stored (w : Nat) (v : Word) (h : w ≠ 1 ∨ getBits v 0 16 ≠ 0) (hfirst : s.recog.first = none) :
    writeRcImp s w v = showImp (storeRw (s.modRecog (impDiscarded (storeRw s (0x1200 + w) v))) (0x1200 + w) v) := by
  have hnot : ¬(w = 1 ∧ getBits v 0 16 = 0) := by tauto
  unfold writeRcImp
  rw [hfirst]
  dsimp only
  rw [if_neg hnot]
  rfl

theorem writeRcImp_duration (v : Word) (hv : getBits v 0 16 = 0) (hfirst : s.recog.first = none) :
    writeRcImp s 1 v = showImp ((s.modRecog (impDiscarded (s.set RC_IMP_TIM_DUR (getBits v 16 16)))).set RC_IMP_TIM_DUR (getBits v 16 16)) := by
  unfold writeRcImp
  rw [hfirst]
  dsimp only
  rw [if_pos ⟨rfl, hv⟩]
  rfl

theorem impState_discarded (t u : State) (h : u.recog = impDiscarded t s.recog) : impState u = 0 := by
  rw [impState, h]
  rfl

/-- The stroke slot's settings that a write names. -/
def stkSetting (v : Word) : Word :=
  let v := if getBits v 20 4 ≤ 10 then v else setBits v 20 4 (s.get RC_STK_CFG_SLOT)
  if 1 ≤ getBits v 12 8 ∧ getBits v 12 8 ≤ 100 then v else setBits v 12 8 (s.get RC_STK_CFG_TOL)

/-- The settings as a write stores them. -/
def State.stkStored (w : Nat) (v : Word) : State :=
  if w = 0 then storeRw s 0x1208 (stkSetting s v) else if w = 3 ∧ getBits v 0 16 = 0 then s else storeRw s (0x1208 + w) v

/-- A stroke recogniser that begins anew. -/
def strokeAnew (x : RecogState) : RecogState := { x with armed := false, lastStroke := none, learn := [], mean := 0, stopFrom := none, stkIn := [] }

theorem writeRcStk_eq (w : Nat) (v : Word) :
    writeRcStk s w v =
      if (s.stkStored w v).bit RC_STK_CFG_EN = s.bit RC_STK_CFG_EN ∧ (s.stkStored w v).get RC_STK_CFG_SLOT = s.get RC_STK_CFG_SLOT then s.stkStored w v
      else showMean (if ((s.stkStored w v).modRecog strokeAnew).bit RC_STK_CFG_EN && recogOn ((s.stkStored w v).modRecog strokeAnew)
        then stkLearn ((s.stkStored w v).modRecog strokeAnew) else ((s.stkStored w v).modRecog strokeAnew).set RC_STK_ST_STATE 0) := (rfl)

/-- A write of the level, the hysteresis or the stop time. -/
theorem writeRcStk_stored (w : Nat) (v : Word) (h : w = 1 ∨ w = 2 ∨ (w = 3 ∧ getBits v 0 16 ≠ 0)) : writeRcStk s w v = storeRw s (0x1208 + w) v := by
  have hstored : s.stkStored w v = storeRw s (0x1208 + w) v := by
    rw [State.stkStored, if_neg (by omega), if_neg]
    rintro ⟨hw, hv⟩
    rcases h with h | h | ⟨-, h⟩
    · omega
    · omega
    · exact h hv
  have hkept (g : Field) (hg : g.word = 0x1208) : (storeRw s (0x1208 + w) v).get g = s.get g := by
    have hword : (storeRw s (0x1208 + w) v).word g.word = s.word g.word := State.word_setWord_ne _ _ _ _ (by omega)
    rw [State.get, hword]
    rfl
  rw [writeRcStk_eq, hstored, State.bit, hkept _ rfl, hkept _ rfl, if_pos ⟨rfl, rfl⟩]

theorem writeRcStk_ignored (v : Word) (h : getBits v 0 16 = 0) : writeRcStk s 3 v = s := by
  have hstored : s.stkStored 3 v = s := by rw [State.stkStored, if_neg (by decide), if_pos ⟨rfl, h⟩]
  rw [writeRcStk_eq, hstored, if_pos ⟨rfl, rfl⟩]

theorem stkSetting_bits (v : Word) :
    getBits (stkSetting s v) 31 1 = getBits v 31 1 ∧ getBits (stkSetting s v) 30 1 = getBits v 30 1 ∧ getBits (stkSetting s v) 24 4 = getBits v 24 4 ∧
    (getBits (stkSetting s v) 20 4 = if getBits v 20 4 ≤ 10 then getBits v 20 4 else s.get RC_STK_CFG_SLOT) ∧
    (getBits (stkSetting s v) 12 8 = if 1 ≤ getBits v 12 8 ∧ getBits v 12 8 ≤ 100 then getBits v 12 8 else s.get RC_STK_CFG_TOL) := by
  have hslot : s.get RC_STK_CFG_SLOT < 2 ^ 4 := getBits_lt _ _ _
  have htol : s.get RC_STK_CFG_TOL < 2 ^ 8 := getBits_lt _ _ _
  have hnamed (lo width : Nat) (h : lo + width ≤ 20 ∨ 24 ≤ lo) :
      getBits (if getBits v 20 4 ≤ 10 then v else setBits v 20 4 (s.get RC_STK_CFG_SLOT)) lo width = getBits v lo width := by
    split
    · rfl
    · exact getBits_setBits_ne _ _ _ _ _ _ (by decide) (by omega)
  have hkept (x : Word) (c : Prop) [Decidable c] (lo width : Nat) (h : 20 ≤ lo) :
      getBits (if c then x else setBits x 12 8 (s.get RC_STK_CFG_TOL)) lo width = getBits x lo width := by
    split
    · rfl
    · exact getBits_setBits_ne _ _ _ _ _ _ (by decide) (by omega)
  refine ⟨?_, ?_, ?_, ?_, ?_⟩
  · exact (hkept _ _ 31 1 (by decide)).trans (hnamed 31 1 (by decide))
  · exact (hkept _ _ 30 1 (by decide)).trans (hnamed 30 1 (by decide))
  · exact (hkept _ _ 24 4 (by decide)).trans (hnamed 24 4 (by decide))
  · refine (hkept _ _ 20 4 (by decide)).trans ?_
    split
    · rfl
    · rw [getBits_setBits_same _ _ _ _ (by decide), Nat.mod_eq_of_lt hslot]
  · unfold stkSetting
    dsimp only
    rw [hnamed 12 8 (by decide)]
    split
    · exact hnamed 12 8 (by decide)
    · rw [getBits_setBits_same _ _ _ _ (by decide), Nat.mod_eq_of_lt htol]

/-- An enabled bit that is written begins the recogniser anew, in learning. -/
def State.strokeBegun (v : Word) : State :=
  showMean (stkLearn ((storeRw s 0x1208 (stkSetting s v)).modRecog strokeAnew))

/-- A field of the word 0x1208 as a write stores it. -/
theorem stkStored_get (v : Word) (g : Field) (hg : g.word = 0x1208) (hrw : ∀ i < g.width, (BitVec.ofNat 32 (accMask 0x1208 .rw)).getLsbD (g.lo + i) = true) :
    (storeRw s 0x1208 (stkSetting s v)).get g = getBits (stkSetting s v) g.lo g.width := by
  have hstore := storeRw_get s (stkSetting s v) g (by rw [hg]; exact hrw)
  rw [hg] at hstore
  exact hstore

theorem stkStored_settings (v : Word) :
    (storeRw s 0x1208 (stkSetting s v)).get RC_STK_CFG_EN = getBits v 31 1 ∧ (storeRw s 0x1208 (stkSetting s v)).get RC_STK_CFG_EACH = getBits v 30 1 ∧
    (storeRw s 0x1208 (stkSetting s v)).get RC_STK_CFG_SEV = getBits v 24 4 ∧
    ((storeRw s 0x1208 (stkSetting s v)).get RC_STK_CFG_SLOT = if getBits v 20 4 ≤ 10 then getBits v 20 4 else s.get RC_STK_CFG_SLOT) ∧
    ((storeRw s 0x1208 (stkSetting s v)).get RC_STK_CFG_TOL = if 1 ≤ getBits v 12 8 ∧ getBits v 12 8 ≤ 100 then getBits v 12 8 else s.get RC_STK_CFG_TOL) := by
  obtain ⟨hen, heach, hsev, hslot, htol⟩ := stkSetting_bits s v
  exact ⟨(stkStored_get s v RC_STK_CFG_EN rfl (by decide)).trans hen, (stkStored_get s v RC_STK_CFG_EACH rfl (by decide)).trans heach,
    (stkStored_get s v RC_STK_CFG_SEV rfl (by decide)).trans hsev, (stkStored_get s v RC_STK_CFG_SLOT rfl (by decide)).trans hslot,
    (stkStored_get s v RC_STK_CFG_TOL rfl (by decide)).trans htol⟩

theorem writeRcStk_enable (v : Word) (hv : getBits v 31 1 = 1) (hen : s.get RC_STK_CFG_EN = 0) (hon : recogOn s = true) : writeRcStk s 0 v = s.strokeBegun v := by
  have hstored : s.stkStored 0 v = storeRw s 0x1208 (stkSetting s v) := if_pos rfl
  have hon' : (storeRw s 0x1208 (stkSetting s v)).get RC_STK_CFG_EN = 1 := (stkStored_settings s v).1.trans hv
  have hruns : (((storeRw s 0x1208 (stkSetting s v)).modRecog strokeAnew).bit RC_STK_CFG_EN && recogOn ((storeRw s 0x1208 (stkSetting s v)).modRecog strokeAnew)) = true := by
    rw [Bool.and_eq_true]
    refine ⟨beq_iff_eq.2 hon', ?_⟩
    have hmode : (storeRw s 0x1208 (stkSetting s v)).mode = s.mode := (storeRw_frame s 0x1208 _).get MD_ST_MODE (by decide)
    have hlive : (storeRw s 0x1208 (stkSetting s v)).live = s.live := rfl
    change (((storeRw s 0x1208 (stkSetting s v)).live && decide (5 ≤ (storeRw s 0x1208 (stkSetting s v)).mode)) && decide ((storeRw s 0x1208 (stkSetting s v)).mode ≤ 10)) = true
    rw [hmode, hlive]
    exact hon
  rw [writeRcStk_eq, hstored, if_neg, if_pos hruns]
  · rfl
  · rintro ⟨hsame, -⟩
    rw [State.bit, State.bit, hon', hen] at hsame
    cases hsame

theorem strokeBegun_frame (v : Word) : RegFrame [wholeWord 0x1208, RC_STK_ST_STATE, RC_STK_PER_MEAN] (s.modRecog strokeAnew) (s.strokeBegun v) := by
  have hstore : RegFrame [wholeWord 0x1208, RC_STK_ST_STATE, RC_STK_PER_MEAN] (s.modRecog strokeAnew) (storeRw (s.modRecog strokeAnew) 0x1208 (stkSetting s v)) :=
    (storeRw_frame _ _ _).mono (by simp)
  exact RegFrame.set (RegFrame.set hstore (by decide) (by decide)) (by decide) (by decide)

end

/-! ### Free fall (11 R276, R284) -/

section
variable (s : State)

/-- The condition starts anew. -/
def fallAnew (x : RecogState) : RecogState := { x with ffStart := none, ffPeak := 0, ffOvr := false }

/-- The recogniser is off. -/
def fallOff (x : RecogState) : RecogState := { x with ffStart := none, ffPeak := 0, ffOvr := false, ffFail := none, ffIn := Vector.replicate 3 [] }

theorem writeRcFf_stored (w : Nat) (v : Word) (h : w = 0 ∨ getBits v 0 16 ≠ 0) (hen : (storeRw s (0x1210 + w) v).get RC_FF_CFG_EN = 1) :
    writeRcFf s w v = storeRw (s.modRecog fallAnew) (0x1210 + w) v := by
  have hnot : ¬(w = 1 ∧ getBits v 0 16 = 0) := by
    rintro ⟨hw, hv⟩
    rcases h with h | h
    · omega
    · exact h hv
  unfold writeRcFf
  dsimp only
  rw [if_neg hnot]
  exact if_pos (beq_iff_eq.2 hen)

theorem writeRcFf_ignored (v : Word) (h : getBits v 0 16 = 0) (hen : s.get RC_FF_CFG_EN = 1) : writeRcFf s 1 v = s.modRecog fallAnew := by
  unfold writeRcFf
  dsimp only
  rw [if_pos (show 1 = 1 ∧ getBits v 0 16 = 0 from ⟨rfl, h⟩)]
  exact if_pos (beq_iff_eq.2 hen)

/-- A recogniser that is not active shows the same when it is switched off. -/
theorem setFfall_inactive (t : State) (h : t.get RC_FF_ST_ACTIVE = 0) : setFfall t false = t.set RC_FF_ST_ACTIVE 0 := by
  have hoff : t.bit RC_FF_ST_ACTIVE = false := beq_eq_false_iff_ne.2 (by omega)
  rw [setFfall, hoff, levelChange, if_pos rfl]
  rfl

theorem writeRcFf_off (v : Word) (hen : (storeRw s 0x1210 v).get RC_FF_CFG_EN = 0) (hoff : s.get RC_FF_ST_ACTIVE = 0) :
    writeRcFf s 0 v = (storeRw (s.modRecog fallOff) 0x1210 v).set RC_FF_ST_ACTIVE 0 := by
  have hactive : ((storeRw s 0x1210 v).modRecog fallAnew).get RC_FF_ST_ACTIVE = 0 := ((storeRw_frame s 0x1210 v).get _ (by decide)).trans hoff
  unfold writeRcFf
  dsimp only
  have hduration : ¬(0 = 1 ∧ getBits v 0 16 = 0) := fun h => absurd h.1 (by decide)
  have hdisabled : ((storeRw s 0x1210 v).modRecog fallAnew).bit RC_FF_CFG_EN ≠ true := by
    change ((storeRw s 0x1210 v).get RC_FF_CFG_EN == 1) ≠ true
    rw [hen]
    decide
  rw [if_neg hduration]
  refine (if_neg hdisabled).trans ?_
  exact congrArg (fun u : State => u.modRecog fun x => { x with ffFail := none, ffIn := Vector.replicate 3 [] }) (setFfall_inactive _ hactive)

end

/-! ### Beside the registers and the Blaze paths -/

section
variable {s t : State} {l : List Field} {B : BlazeState} {N : NetState} {g : RecogState → RecogState}

theorem RegFrame.recog_of_modRecog (h : RegFrame l (s.modRecog g) t) : t.recog = g s.recog := (congrArg State.recog h.kept :)

theorem RegFrame.rest_of_modRecog (h : RegFrame l (s.modRecog g) t) : { t with regs := s.regs, recog := s.recog, fresh := s.fresh } = s :=
  (congrArg (fun x : State => { x with regs := s.regs, recog := s.recog, fresh := s.fresh }) h.kept :)

theorem RegFrame.blaze (h : RegFrame l s t) : t.blaze = s.blaze := (congrArg State.blaze h.kept :)

theorem RegFrame.blaze_of_put (h : RegFrame l { s with blaze := B } t) : t.blaze = B := RegFrame.blaze h

theorem RegFrame.rest_of_blaze (h : RegFrame l { s with blaze := B } t) : { t with regs := s.regs, blaze := s.blaze, fresh := s.fresh } = s :=
  (congrArg (fun x : State => { x with regs := s.regs, blaze := s.blaze, fresh := s.fresh }) h.kept :)

theorem RegFrame.net (h : RegFrame l s t) : t.net = s.net := (congrArg State.net h.kept :)

theorem RegFrame.rest_of_blaze_net (h : RegFrame l { s with blaze := B, net := N } t) : { t with net := s.net, regs := s.regs, blaze := s.blaze, fresh := s.fresh } = s :=
  (congrArg (fun x : State => { x with net := s.net, regs := s.regs, blaze := s.blaze, fresh := s.fresh }) h.kept :)

theorem RegFrame.rest_of_net (h : RegFrame l { s with net := N } t) : { t with net := s.net, regs := s.regs, fresh := s.fresh } = s :=
  (congrArg (fun x : State => { x with net := s.net, regs := s.regs, fresh := s.fresh }) h.kept :)

end

/-! ### The FIFO (11 R280) -/

section
variable (s : State) (b : Blaze)

/-- The module with Blazes l in its FIFO, whose level is shown. -/
def State.fifoShown (l : List Blaze) : State := { s with blaze := { s.blaze with fifo := l } }.set BZ_FIFOST_COUNT l.length

theorem fifoShown_frame (l : List Blaze) : RegFrame [BZ_FIFOST_COUNT] { s with blaze := { s.blaze with fifo := l } } (s.fifoShown l) :=
  RegFrame.set (.refl _ _ _) (by simp) (by decide)

theorem fifoShown_count (l : List Blaze) (h : l.length < 32) : (s.fifoShown l).get BZ_FIFOST_COUNT = l.length := by
  rw [State.fifoShown, State.get_set_same _ _ _ (by decide)]
  exact Nat.mod_eq_of_lt h

theorem fifoPut_room (h : s.blaze.fifo.length < 16) : fifoPut s b = s.fifoShown (s.blaze.fifo ++ [b]) := by
  rw [fifoPut, if_pos h, State.fifoShown, List.length_append]
  rfl

/-- Peers routed to the FIFO only. -/
theorem deliverPeer_fifo (hroute : (s.word 0x1301).toNat / 2 ^ 24 % 16 = 1) (h : s.blaze.fifo.length < 16) : deliverPeer s b = s.fifoShown (s.blaze.fifo ++ [b]) := by
  rw [deliverPeer, hroute]
  exact fifoPut_room s b h

theorem popBlaze_cons {rest : List Blaze} (h : s.blaze.fifo = b :: rest) : popBlaze s = s.fifoShown rest := by
  rw [popBlaze, h]
  rfl

end

/-! ### Peer Blazes (11 R282, R283; 14 R361) -/

/-- The module with a peer's datagram noted for the replay check. -/
def State.heardBy (s : State) (d : Datagram) : State := s.modNet fun n => { n with replay := acceptMseq n.replay d s.pwr.ticks }

theorem exec_blazeMessageReceive {d : Datagram} {s : State} (htyp : d.typ = 3) (hcheck : (cyCheck s d).1 = true) :
    exec (.blazeMessageReceive d) s = .next ((blazesOf (plain s d)).foldl peerBlaze (notePeer (cyCheck s d).2 d)) := by
  change Host.Outcome.next (receive s d 3 _) = _
  rw [receive_accepted s d 3 _ htyp hcheck, cyCheck_accepted s d hcheck]

/-- Of the network's state only the replay check's differs. -/
theorem net_of_heardBy {s t : State} {d : Datagram} (h : t.net = (s.heardBy d).net) : { t.net with replay := s.net.replay } = s.net := by
  rw [h]
  rfl

/-- One Blaze of another module. -/
theorem exec_blazeMessageReceive_one {d : Datagram} {b : Blaze} {s : State} (htyp : d.typ = 3) (hcheck : (cyCheck s d).1 = true) (hmodule : isHost d.sender = false)
    (hone : blazesOf (plain s d) = [b]) : exec (.blazeMessageReceive d) s = .next (peerBlaze (s.heardBy d) b) := by
  rw [exec_blazeMessageReceive htyp hcheck, hone, notePeer, hmodule, if_neg Bool.false_ne_true, cyCheck_accepted s d hcheck]
  rfl

section
variable {s : State} {b : Blaze} {p : Nat} {d : Datagram}

theorem peerBlaze_unsubscribed (h : peerEntry s b.stn = none) : peerBlaze (s.heardBy d) b = s.heardBy d := by
  have hentry : peerEntry (s.heardBy d) b.stn = none := h
  rw [peerBlaze, hentry]

theorem peerBlaze_duplicate (h : peerEntry s b.stn = some p) (hdup : blazeDup s b = true) : peerBlaze (s.heardBy d) b = (s.heardBy d).bump BZ_CNT_DUP 1 := by
  have hentry : peerEntry (s.heardBy d) b.stn = some p := h
  have hdup' : blazeDup (s.heardBy d) b = true := hdup
  rw [peerBlaze, hentry]
  exact if_pos hdup'

theorem peerBlaze_accepted (h : peerEntry s b.stn = some p) (hdup : blazeDup s b = false) : peerBlaze (s.heardBy d) b = acceptPeer (s.heardBy d) p b := by
  have hentry : peerEntry (s.heardBy d) b.stn = some p := h
  have hdup' : ¬blazeDup (s.heardBy d) b = true := by
    rw [Bool.not_eq_true]
    exact hdup
  rw [peerBlaze, hentry]
  exact if_neg hdup'

end

section
variable (x : State) (b : Blaze) (p : Nat)

/-- The Blaze paths after a station's Blaze was accepted into entry p. -/
def heardFrom : BlazeState :=
  { x.blaze with heard := x.blaze.heard.set (Fin.ofNat 32 p) (some b.stn),
                 seen := (b.stn, b.run, b.seq, x.now) :: x.blaze.seen.filter (fun y => decide (x.now < y.2.2.2 + 16000000000)) }

/-- The entry's newest RUN and SEQ, with the Blaze paths B. -/
def State.peerPut (B : BlazeState) : State := ({ x with blaze := B }.set (BZ_PEER_RUN p) b.run).set (BZ_PSEQ_SEQ p) b.seq

theorem peerPut_frame (B : BlazeState) : RegFrame [BZ_PEER_RUN p, BZ_PSEQ_SEQ p] { x with blaze := B } (x.peerPut b p B) :=
  RegFrame.set (RegFrame.set (.refl _ _ _) (by simp) (show 8 + 8 ≤ 32 by decide)) (by simp) (show 0 + 16 ≤ 32 by decide)

/-- The words of the 32 peer entries. -/
theorem peerWords_apart (hp : p < 32) (g : Field) (hg : g.word < 0x1320 ∨ 0x1360 ≤ g.word) : ∀ f ∈ [BZ_PEER_RUN p, BZ_PSEQ_SEQ p], f.apart g := by
  intro f hf
  simp only [List.mem_cons, List.not_mem_nil, or_false] at hf
  rcases hf with rfl | rfl
  · exact .inl (by change 0x1320 + p ≠ g.word; omega)
  · exact .inl (by change 0x1340 + p ≠ g.word; omega)

theorem peerPut_run (B : BlazeState) (h : b.run < 256) : (x.peerPut b p B).get (BZ_PEER_RUN p) = b.run := by
  rw [State.peerPut, State.get_set_ne _ _ _ _ (show 0 + 16 ≤ 32 by decide) (.inl (by change 0x1340 + p ≠ 0x1320 + p; omega)), State.get_set_same _ _ _ (show 8 + 8 ≤ 32 by decide)]
  exact Nat.mod_eq_of_lt h

theorem peerPut_seq (B : BlazeState) (h : b.seq < 65536) : (x.peerPut b p B).get (BZ_PSEQ_SEQ p) = b.seq := by
  rw [State.peerPut, State.get_set_same _ _ _ (show 0 + 16 ≤ 32 by decide)]
  exact Nat.mod_eq_of_lt h

/-- A station's first Blaze in an entry sets its newest RUN and SEQ (11 R282). -/
theorem countPeer_first (hp : p < 32) (h : x.blaze.heard[Fin.ofNat 32 p] ≠ some b.stn) :
    countPeer x p b = x.peerPut b p { x.blaze with heard := x.blaze.heard.set (Fin.ofNat 32 p) (some b.stn) } := by
  have hplace : x.blaze.heard.toList.getD p none = x.blaze.heard[Fin.ofNat 32 p] := by
    have hmod : (Fin.ofNat 32 p).val = p := Nat.mod_eq_of_lt hp
    rw [List.getD_eq_getElem?_getD, List.getElem?_eq_getElem (by simpa using hp), Option.getD_some, Vector.getElem_toList]
    simp only [Fin.getElem_fin, hmod]
  have hfirst : (x.blaze.heard.toList.getD p none != some b.stn || x.get (BZ_PEER_RUN p) != b.run) = true := by
    rw [hplace, bne_iff_ne.2 h, Bool.true_or]
  unfold countPeer
  dsimp only
  rw [if_pos hfirst]
  rfl

/-- Accepted, a station's first Blaze waits for its time or, late, is delivered at once (11 R283). -/
theorem acceptPeer_first (hp : p < 32) (h : x.blaze.heard[Fin.ofNat 32 p] ≠ some b.stn) :
    acceptPeer x p b =
      if dueAt x b < x.now ∨ x.now + 8000000000 < b.t then deliverPeer (((x.peerPut b p (heardFrom x b p)).bump BZ_CNT_LATE 1).event BZ_EVT_LATE) { b with ord := true }
      else x.peerPut b p { heardFrom x b p with reorder := reorderPut x.blaze.reorder b } := by
  have hdue : dueAt (x.peerPut b p (heardFrom x b p)) b = dueAt x b := by
    rw [dueAt, (peerPut_frame x b p _).get _ (peerWords_apart p hp _ (.inl (by decide)))]
    rfl
  have haccept : acceptPeer x p b =
      if dueAt (x.peerPut b p (heardFrom x b p)) b < (x.peerPut b p (heardFrom x b p)).now ∨ (x.peerPut b p (heardFrom x b p)).now + 8000000000 < b.t then
        deliverPeer (((x.peerPut b p (heardFrom x b p)).bump BZ_CNT_LATE 1).event BZ_EVT_LATE) { b with ord := true }
      else x.peerPut b p { heardFrom x b p with reorder := reorderPut x.blaze.reorder b } := by
    unfold acceptPeer
    rw [countPeer_first x b p hp h]
    rfl
  rw [haccept, hdue]
  rfl

end

/-! ### Own Blazes to the ports (14 R361) -/

section
variable {s : State}

/-- The module that has queued its Blaze message on both ports. -/
def State.blazesSent (s : State) : State :=
  { s.cystad with
    tx := s.tx ++ [s.cyFrame .a (blazeGroupHead s) (.blazes (s.blaze.out.take 16)) false, s.cyFrame .b (blazeGroupHead s) (.blazes (s.blaze.out.take 16)) false],
    blaze := { s.blaze with out := s.blaze.out.drop 16 } }

theorem exec_blazeMessageSend (halive : s.alive = true) (hkey : s.keys.lineKey.isSome = true) (hout : s.blaze.out ≠ []) (hfree : blazesBusy s = false) :
    exec .blazeMessageSend s = .next s.blazesSent := by
  have hready : (s.alive && s.keys.lineKey.isSome && !s.blaze.out.isEmpty && !blazesBusy s) = true := by
    rw [halive, hkey, hfree, List.isEmpty_eq_false_iff.2 hout]
    rfl
  have hmessage : message s bothPorts (blazeGroupHead s) (.blazes (s.blaze.out.take 16)) false =
      { s.cystad with tx := s.tx ++ bothPorts.map fun p => s.cyFrame p (blazeGroupHead s) (.blazes (s.blaze.out.take 16)) false } := if_pos hkey
  change execBlazeMessageSend s = _
  rw [execBlazeMessageSend, if_pos hready, hmessage]
  rfl

theorem blazesSent_rest (s : State) :
    s.blazesSent.net.mseq = s.net.mseq + 1 ∧ { s.blazesSent with tx := s.tx, blaze := s.blaze, net := s.net, flash := s.flash } = s ∧
    { s.blazesSent.flash with mseqRes := s.flash.mseqRes } = s.flash := ⟨rfl, rfl, rfl⟩

end

/-! ### The statement -/

section
variable (door : Initiator) (v : Word) (s : State)

theorem exec_rcImpWrite (w : Fin 3) (h : doorOpen s door (0x1200 + w.val) = true) : exec (.rcImpWrite door w v) s = .next (writeRcImp s w v) :=
  congrArg _ (atDoor_open s door _ _ h)

theorem exec_rcStkWrite (w : Fin 4) (h : doorOpen s door (0x1208 + w.val) = true) : exec (.rcStkWrite door w v) s = .next (writeRcStk s w v) :=
  congrArg _ (atDoor_open s door _ _ h)

theorem exec_rcFfWrite (w : Fin 2) (h : doorOpen s door (0x1210 + w.val) = true) : exec (.rcFfWrite door w v) s = .next (writeRcFf s w v) :=
  congrArg _ (atDoor_open s door _ _ h)

theorem exec_bzPop (h : doorOpen s door 0x1306 = true) : exec (.bzPop door) s = .next (popBlaze s) := congrArg _ (atDoor_open s door _ _ h)

/-- What an impact setting leaves: the word stored, the recogniser idle. -/
theorem rcImp_stored (w : Fin 3) :
    (showImp (storeRw (s.modRecog (impDiscarded (storeRw s (0x1200 + w.val) v))) (0x1200 + w.val) v)).word (0x1200 + w.val) =
      (s.word (0x1200 + w.val) &&& ~~~(BitVec.ofNat 32 (accMask (0x1200 + w.val) .rw))) ||| (v &&& BitVec.ofNat 32 (accMask (0x1200 + w.val) .rw)) := by
  refine (word_of_sameBut (showImp_frame _).regs _ fun f hf => ?_).trans (storeRw_word _ _ _)
  rw [List.mem_singleton.1 hf]
  change 0x1203 ≠ 0x1200 + w.val
  omega

theorem rcImp_stored_frame (w : Fin 3) :
    EnginesFrame [wholeWord (0x1200 + w.val), RC_IMP_ST_STATE] (s.modRecog (impDiscarded (storeRw s (0x1200 + w.val) v)))
      (showImp (storeRw (s.modRecog (impDiscarded (storeRw s (0x1200 + w.val) v))) (0x1200 + w.val) v)) :=
  ((RegFrame.enginesFrame (storeRw_frame _ _ _)).mono (by simp)).trans ((showImp_frame _).mono (by simp))

end

section
variable (x : State) (b : Blaze) (p : Nat)

/-- The fields of a late Blaze of entry p. -/
def lateFields (p : Nat) : List Field := [BZ_PEER_RUN p, BZ_PSEQ_SEQ p, BZ_CNT_LATE, BZ_EVT_LATE, BZ_FIFOST_COUNT]

/-- The module that has counted a late Blaze, with the Blaze paths B. -/
def State.latePut (B : BlazeState) : State := ((x.peerPut b p B).bump BZ_CNT_LATE 1).event BZ_EVT_LATE

theorem latePut_frame (B : BlazeState) : RegFrame [BZ_PEER_RUN p, BZ_PSEQ_SEQ p, BZ_CNT_LATE, BZ_EVT_LATE] { x with blaze := B } (x.latePut b p B) :=
  RegFrame.event (RegFrame.bump ((peerPut_frame x b p B).mono (by simp)) (by simp) (by decide)) (by simp) (by decide)

theorem set_blaze (f : Field) (n : Nat) (C : BlazeState) : { x.set f n with blaze := C } = State.set { x with blaze := C } f n := rfl

theorem event_blaze (f : Field) (C : BlazeState) : { x.event f with blaze := C } = State.event { x with blaze := C } f := rfl

theorem bump_blaze (f : Field) (n : Nat) (C : BlazeState) : { x.bump f n with blaze := C } = State.bump { x with blaze := C } f n := rfl

theorem latePut_blaze (B C : BlazeState) : { x.latePut b p B with blaze := C } = x.latePut b p C := by
  unfold State.latePut State.peerPut
  rw [event_blaze, bump_blaze, set_blaze, set_blaze]

theorem fifoShown_latePut (B : BlazeState) (l : List Blaze) :
    (x.latePut b p B).fifoShown l = (x.latePut b p { B with fifo := l }).set BZ_FIFOST_COUNT l.length := by
  have hblaze : (x.latePut b p B).blaze = B := RegFrame.blaze_of_put (latePut_frame x b p B)
  rw [State.fifoShown, hblaze, latePut_blaze]

/-- The module that has delivered a late Blaze to its FIFO. -/
def State.lateDelivered (l : List Blaze) : State := (x.latePut b p { heardFrom x b p with fifo := l }).set BZ_FIFOST_COUNT l.length

theorem lateDelivered_frame (l : List Blaze) : RegFrame (lateFields p) { x with blaze := { heardFrom x b p with fifo := l } } (x.lateDelivered b p l) :=
  RegFrame.set ((latePut_frame x b p _).mono (by simp [lateFields])) (by simp [lateFields]) (by decide)

/-- A late Blaze of a station whose peers are routed to the FIFO (11 R283). -/
theorem acceptPeer_late (hp : p < 32) (h : x.blaze.heard[Fin.ofNat 32 p] ≠ some b.stn) (hdue : dueAt x b < x.now) (hroute : (x.word 0x1301).toNat / 2 ^ 24 % 16 = 1)
    (hroom : x.blaze.fifo.length < 16) : acceptPeer x p b = x.lateDelivered b p (x.blaze.fifo ++ [{ b with ord := true }]) := by
  have hframe := latePut_frame x b p (heardFrom x b p)
  have hword : (x.latePut b p (heardFrom x b p)).word 0x1301 = x.word 0x1301 := by
    refine word_of_sameBut hframe.regs 0x1301 fun f hf => ?_
    simp only [List.mem_cons, List.not_mem_nil, or_false] at hf
    rcases hf with rfl | rfl | rfl | rfl
    · change 0x1320 + p ≠ 0x1301
      omega
    · change 0x1340 + p ≠ 0x1301
      omega
    · decide
    · decide
  have hblaze : (x.latePut b p (heardFrom x b p)).blaze = heardFrom x b p := RegFrame.blaze_of_put hframe
  have hfifo : (x.latePut b p (heardFrom x b p)).blaze.fifo = x.blaze.fifo := (congrArg BlazeState.fifo hblaze :)
  rw [acceptPeer_first x b p hp h, if_pos (.inl hdue)]
  refine (deliverPeer_fifo (x.latePut b p (heardFrom x b p)) _ (by rw [hword]; exact hroute) (by rw [hfifo]; exact hroom)).trans ?_
  rw [fifoShown_latePut, hfifo]
  rfl

/-- What a late Blaze leaves in the registers. -/
theorem lateDelivered_regs (l : List Blaze) (hp : p < 32) (hrun : b.run < 256) (hseq : b.seq < 65536) (hlen : l.length < 32) :
    (x.lateDelivered b p l).get (BZ_PEER_RUN p) = b.run ∧ (x.lateDelivered b p l).get (BZ_PSEQ_SEQ p) = b.seq ∧
    (x.lateDelivered b p l).get BZ_CNT_LATE = min 255 (x.get BZ_CNT_LATE + 1) ∧ (x.lateDelivered b p l).get BZ_EVT_LATE = 1 ∧
    (x.lateDelivered b p l).get BZ_FIFOST_COUNT = l.length := by
  have hshown (g : Field) (hg : BZ_FIFOST_COUNT.apart g) : (x.lateDelivered b p l).get g = (x.latePut b p { heardFrom x b p with fifo := l }).get g :=
    State.get_set_ne _ _ _ _ (by decide) hg
  have hput (g : Field) (hcnt : BZ_CNT_LATE.apart g) (hevt : BZ_EVT_LATE.apart g) :
      (x.latePut b p { heardFrom x b p with fifo := l }).get g = (x.peerPut b p { heardFrom x b p with fifo := l }).get g := by
    rw [State.latePut, State.get_event_ne _ _ _ (by decide) hevt, State.get_bump_ne _ _ _ _ (by decide) hcnt]
  have hpeer (g : Field) (hg : 0x1320 ≤ g.word) : ∀ f ∈ [BZ_FIFOST_COUNT, BZ_CNT_LATE, BZ_EVT_LATE], f.apart g := by
    intro f hf
    simp only [List.mem_cons, List.not_mem_nil, or_false] at hf
    rcases hf with rfl | rfl | rfl
    · exact .inl (by change 0x1305 ≠ g.word; omega)
    · exact .inl (by change 0x1303 ≠ g.word; omega)
    · exact .inl (by change 0x1302 ≠ g.word; omega)
  have hkept (g : Field) (hg : 0x1320 ≤ g.word) : (x.lateDelivered b p l).get g = (x.peerPut b p { heardFrom x b p with fifo := l }).get g :=
    (hshown g (hpeer g hg _ (by simp))).trans (hput g (hpeer g hg _ (by simp)) (hpeer g hg _ (by simp)))
  refine ⟨?_, ?_, ?_, ?_, ?_⟩
  · exact (hkept _ (Nat.le_add_right _ _)).trans (peerPut_run x b p _ hrun)
  · exact (hkept _ (by change 0x1320 ≤ 0x1340 + p; omega)).trans (peerPut_seq x b p _ hseq)
  · rw [hshown _ (by decide), State.latePut, State.get_event_ne _ _ _ (by decide) (by decide), State.get_bump_same _ _ _ (by decide),
      (peerPut_frame x b p _).get _ (peerWords_apart p hp _ (.inl (by decide)))]
    exact Nat.min_comm _ _
  · exact (hshown _ (by decide)).trans (State.get_event_same _ _ (by decide) rfl)
  · rw [State.lateDelivered, State.get_set_same _ _ _ (by decide)]
    exact Nat.mod_eq_of_lt hlen

end

section
variable (s : State) (v : Word)

/-- What free fall's enable bit reads after a write. -/
theorem rcFf_enable (w : Fin 2) (hw : w.val = 0 → getBits v 31 1 = 1) (hen : s.get RC_FF_CFG_EN = 1) : (storeRw s (0x1210 + w.val) v).get RC_FF_CFG_EN = 1 := by
  by_cases h0 : w.val = 0
  · rw [h0]
    exact (storeRw_get s v RC_FF_CFG_EN (by decide)).trans (hw h0)
  · have hword : (storeRw s (0x1210 + w.val) v).word RC_FF_CFG_EN.word = s.word RC_FF_CFG_EN.word := State.word_setWord_ne _ _ _ _ (by change 0x1210 ≠ 0x1210 + w.val; omega)
    rw [State.get, hword]
    exact hen

theorem fallOff_frame :
    RegFrame [wholeWord 0x1210, RC_FF_ST_ACTIVE] (s.modRecog fallOff) ((storeRw (s.modRecog fallOff) 0x1210 v).set RC_FF_ST_ACTIVE 0) :=
  RegFrame.set ((storeRw_frame _ _ _).mono (by simp)) (by simp) (by decide)

/-- A condition that was not active stays so. -/
theorem fallOff_sameBut (h : s.get RC_FF_ST_ACTIVE = 0) : sameBut [wholeWord 0x1210] s ((storeRw (s.modRecog fallOff) 0x1210 v).set RC_FF_ST_ACTIVE 0) := by
  have hstore := (storeRw_frame (s.modRecog fallOff) 0x1210 v).regs
  have hget : (storeRw (s.modRecog fallOff) 0x1210 v).get RC_FF_ST_ACTIVE = 0 := ((storeRw_frame (s.modRecog fallOff) 0x1210 v).get _ (by decide)).trans h
  have hsame := sameBut_set_self (storeRw (s.modRecog fallOff) 0x1210 v) RC_FF_ST_ACTIVE (by decide)
  rw [hget] at hsame
  exact sameBut_trans hstore (sameBut_mono hsame (by simp))

theorem strokeBegun_after :
    RegFrame [RC_STK_ST_STATE, RC_STK_PER_MEAN] ((storeRw s 0x1208 (stkSetting s v)).modRecog strokeAnew) (s.strokeBegun v) :=
  RegFrame.set (RegFrame.set (.refl _ _ _) (by decide) (by decide)) (by decide) (by decide)

theorem strokeBegun_state : (s.strokeBegun v).get RC_STK_ST_STATE = 1 := by
  rw [State.strokeBegun, showMean, State.get_set_ne _ _ _ _ (by decide) (by decide), stkLearn]
  exact State.get_set_same _ _ _ (by decide)

theorem durationPut_frame (n : Nat) (g : RecogState → RecogState) :
    EnginesFrame [RC_IMP_TIM_DUR, RC_IMP_ST_STATE] (s.modRecog g) (showImp ((s.modRecog g).set RC_IMP_TIM_DUR n)) :=
  (EnginesFrame.set (.refl _ _ _) (by simp) (by decide)).trans ((showImp_frame _).mono (by simp))

end

/-- Settles O35: a lemma per setting, and the peers' Blazes through `acceptPeer_first`. -/
theorem recogniserSettingsAndTheBlazeFifo : Obligations.RecogniserSettingsAndTheBlazeFifo := by
  unfold Obligations.RecogniserSettingsAndTheBlazeFifo
  refine ⟨?_, ?_, ?_, ?_, ?_, ?_, ?_, ?_, ?_, ?_, ?_, ?_, ?_, ?_, ?_, ?_⟩
  · intro door w v s hdoor hw hfirst
    have hframe := rcImp_stored_frame v s w
    have hshown := showImp_frame (storeRw (s.modRecog (impDiscarded (storeRw s (0x1200 + w.val) v))) (0x1200 + w.val) v)
    refine ⟨_, (exec_rcImpWrite door v s w hdoor).trans (congrArg _ (writeRcImp_stored s w v hw hfirst)), rcImp_stored v s w, ?_, ?_, EnginesFrame.rest_of_modRecog hframe, hframe.regs⟩
    · rw [EnginesFrame.recog_of_modRecog hframe, hshown.get RC_IMP_CFG_AXES (by decide), hshown.bit RC_IMP_CFG_EN (by decide)]
      simp only [impDiscarded, hfirst]
      rfl
    · exact (showImp_state _).trans (impState_discarded s _ _ rfl)
  · intro door w v s hdoor hw hv hfirst
    have hframe := durationPut_frame s (getBits v 16 16) (impDiscarded (s.set RC_IMP_TIM_DUR (getBits v 16 16)))
    have hrecog := EnginesFrame.recog_of_modRecog hframe
    refine ⟨_, (exec_rcImpWrite door v s w hdoor).trans (congrArg _ ((congrArg (fun n => writeRcImp s n v) hw).trans (writeRcImp_duration s v hv hfirst))), ?_,
      congrArg RecogState.ep hrecog, (showImp_state _).trans (impState_discarded s _ _ rfl), ?_, EnginesFrame.rest_of_modRecog hframe, hframe.regs⟩
    · rw [(showImp_frame _).get _ (by decide), State.get_set_same _ _ _ (by decide)]
      exact Nat.mod_eq_of_lt (getBits_lt _ _ _)
    · rw [hrecog]
      simp only [impDiscarded, ← hfirst]
  · intro door w v s hdoor hw
    exact ⟨_, (exec_rcStkWrite door v s w hdoor).trans (congrArg _ (writeRcStk_stored s w v hw)), storeRw_word _ _ _, RegFrame.onlyFields (storeRw_frame _ _ _)⟩
  · intro door w v s hdoor hw hv
    refine ⟨s, (exec_rcStkWrite door v s w hdoor).trans (congrArg _ ?_), rfl⟩
    rw [hw]
    exact writeRcStk_ignored s v hv
  · intro door w v s hdoor hw hv hen hon
    have hframe := strokeBegun_frame s v
    have hafter := strokeBegun_after s v
    obtain ⟨hen', heach, hsev, hslot, htol⟩ := stkStored_settings s v
    refine ⟨_, (exec_rcStkWrite door v s w hdoor).trans (congrArg _ ((congrArg (fun n => writeRcStk s n v) hw).trans (writeRcStk_enable s v hv hen hon))),
      (hafter.get _ (by decide)).trans (hen'.trans hv), (hafter.get _ (by decide)).trans heach, (hafter.get _ (by decide)).trans hsev, (hafter.get _ (by decide)).trans hslot,
      (hafter.get _ (by decide)).trans htol, strokeBegun_state s v, RegFrame.recog_of_modRecog hframe, RegFrame.rest_of_modRecog hframe, hframe.regs⟩
  · intro door w v s hdoor hw hbit hen
    have hframe := storeRw_frame (s.modRecog fallAnew) (0x1210 + w.val) v
    exact ⟨_, (exec_rcFfWrite door v s w hdoor).trans (congrArg _ (writeRcFf_stored s w v hw (rcFf_enable s v w hbit hen))), storeRw_word _ _ _,
      RegFrame.recog_of_modRecog hframe, RegFrame.rest_of_modRecog hframe, hframe.regs⟩
  · intro door w v s hdoor hw hv hoff
    have hframe := fallOff_frame s v
    have hen : (storeRw s 0x1210 v).get RC_FF_CFG_EN = 0 := (storeRw_get s v RC_FF_CFG_EN (by decide)).trans hv
    rw [hw]
    refine ⟨_, (exec_rcFfWrite door v s w hdoor).trans (congrArg _ ((congrArg (fun n => writeRcFf s n v) hw).trans (writeRcFf_off s v hen hoff))), ?_,
      RegFrame.recog_of_modRecog hframe, RegFrame.rest_of_modRecog hframe, fallOff_sameBut s v hoff⟩
    exact (State.word_set_ne _ _ _ _ (by decide)).trans (storeRw_word _ _ _)
  · intro door w v s hdoor hw hv hen
    refine ⟨s.modRecog fallAnew, (exec_rcFfWrite door v s w hdoor).trans (congrArg _ ?_), rfl, rfl⟩
    rw [hw]
    exact writeRcFf_ignored s v hv hen
  · intro door b rest s hdoor hfifo hlen
    have hframe := fifoShown_frame s rest
    exact ⟨_, (exec_bzPop door s hdoor).trans (congrArg _ (popBlaze_cons s b hfifo)), RegFrame.blaze_of_put hframe, fifoShown_count s rest hlen, RegFrame.rest_of_blaze hframe,
      hframe.regs⟩
  · intro s halive hkey hout hfree
    obtain ⟨hmseq, hrest, hflash⟩ := blazesSent_rest s
    exact ⟨_, exec_blazeMessageSend halive hkey hout hfree, rfl, rfl, hmseq, hrest, hflash⟩
  · intro d s htyp hcheck
    exact ⟨_, exec_blazeMessageReceive htyp hcheck, rfl⟩
  · intro d b s htyp hcheck hmodule hone hentry
    refine ⟨_, (exec_blazeMessageReceive_one htyp hcheck hmodule hone).trans (congrArg _ (peerBlaze_unsubscribed hentry)), (cyCheck_accepted s d hcheck).symm, rfl, rfl⟩
  · intro d b p s htyp hcheck hmodule hone hentry hdup
    have hframe : RegFrame [BZ_CNT_DUP] (s.heardBy d) ((s.heardBy d).bump BZ_CNT_DUP 1) := RegFrame.bump (.refl _ _ _) (by simp) (by decide)
    exact ⟨_, (exec_blazeMessageReceive_one htyp hcheck hmodule hone).trans (congrArg _ (peerBlaze_duplicate hentry hdup)),
      (State.get_bump_same _ _ _ (by decide)).trans (Nat.min_comm _ _), (RegFrame.blaze hframe :), RegFrame.rest_of_net hframe, hframe.regs⟩
  · intro d b p s htyp hcheck hmodule hone hentry hdup hp hheard hrun hseq hdue hnear
    have hframe := peerPut_frame (s.heardBy d) b p { heardFrom (s.heardBy d) b p with reorder := reorderPut s.blaze.reorder b }
    have hwaits : ¬(dueAt (s.heardBy d) b < (s.heardBy d).now ∨ (s.heardBy d).now + 8000000000 < b.t) := by
      rintro (h | h)
      · exact absurd hdue (Nat.not_le.2 h)
      · exact absurd hnear (Nat.not_le.2 h)
    refine ⟨_, (exec_blazeMessageReceive_one htyp hcheck hmodule hone).trans (congrArg _ ((peerBlaze_accepted hentry hdup).trans
      ((acceptPeer_first (s.heardBy d) b p hp hheard).trans (if_neg hwaits)))), peerPut_run _ b p _ hrun, peerPut_seq _ b p _ hseq, RegFrame.blaze_of_put hframe,
      net_of_heardBy (RegFrame.net hframe :), RegFrame.rest_of_blaze_net hframe, hframe.regs⟩
  · intro d b p s htyp hcheck hmodule hone hentry hdup hp hheard hrun hseq hdue hroute hroom
    have hlen : (s.blaze.fifo ++ [{ b with ord := true }]).length = s.blaze.fifo.length + 1 := by rw [List.length_append, List.length_singleton]
    have hframe := lateDelivered_frame (s.heardBy d) b p (s.blaze.fifo ++ [{ b with ord := true }])
    obtain ⟨hrun', hseq', hlate, hevt, hcount⟩ := lateDelivered_regs (s.heardBy d) b p (s.blaze.fifo ++ [{ b with ord := true }]) hp hrun hseq (by rw [hlen]; omega)
    exact ⟨_, (exec_blazeMessageReceive_one htyp hcheck hmodule hone).trans (congrArg _ ((peerBlaze_accepted hentry hdup).trans
      (acceptPeer_late (s.heardBy d) b p hp hheard hdue hroute hroom))), hrun', hseq', hlate, hevt, hcount.trans hlen, RegFrame.blaze_of_put hframe,
      net_of_heardBy (RegFrame.net hframe :), RegFrame.rest_of_blaze_net hframe, hframe.regs⟩
  · intro b rest s halive hreorder hdue hroute hroom
    have hframe := fifoShown_frame { s with blaze := { s.blaze with reorder := rest } } (s.blaze.fifo ++ [b])
    have hready : (s.alive && decide (dueAt s b ≤ s.now)) = true := by
      rw [halive, decide_eq_true hdue]
      rfl
    refine ⟨State.fifoShown { s with blaze := { s.blaze with reorder := rest } } (s.blaze.fifo ++ [b]), ?_, RegFrame.blaze_of_put hframe, ?_, RegFrame.rest_of_blaze hframe, hframe.regs⟩
    · change execPeerBlazeDeliver s = _
      rw [execPeerBlazeDeliver, hreorder]
      exact congrArg _ ((if_pos hready).trans (deliverPeer_fifo { s with blaze := { s.blaze with reorder := rest } } b hroute hroom))
    · rw [fifoShown_count _ _ (by rw [List.length_append, List.length_singleton]; omega), List.length_append, List.length_singleton]

end Sys2Proof.Machine
end

section
/-!
PROOFS. Refutation about change sets: a set whose entry touches a reserved bit of BZ_ROUTE (11 R286), which a write leaves 0 (00 R9).
-/

namespace Sys2Proof.Machine

/-- A pending set whose entry sets bit 31 of BZ_ROUTE, a reserved bit. -/
def reservedSet : ChangeSet := ⟨7, true, 5, [.word 0x1301 0x80000000 0x80000000], 9⟩

/-- A module in RUN at the set's second. -/
def atReservedSet : State := { onAt 6 with tally := { set := some reservedSet }, time := { sec := 5 } }

/-- Reserved bits read 0 after the set was applied. -/
theorem atReservedSet_applied : ∀ t, exec .changeSetApply atReservedSet = .next t → (t.word 0x1301).getLsbD 31 = false := by
  intro t ht
  obtain rfl := Host.Outcome.next.inj ht
  decide +kernel

/-- Refutes O47: the clause of a set applied to BZ_ROUTE puts every bit of the entry's mask, and `reservedSet` names a reserved bit, which the write leaves 0. -/
theorem not_changeSetsAreCheckedAndAppliedWhole : ¬ Obligations.ChangeSetsAreCheckedAndAppliedWhole := by
  unfold Obligations.ChangeSetsAreCheckedAndAppliedWhole
  rintro ⟨-, -, -, -, -, -, -, -, -, -, -, happly, -⟩
  obtain ⟨t, ht, hword, -⟩ := happly reservedSet 0x80000000 0x80000000 atReservedSet (by decide) (by decide) (by decide) (by decide) (by decide) (by decide) (by decide) (by decide)
    (by decide) (by decide) (by decide)
  have hbit : ((atReservedSet.word 0x1301 &&& ~~~((0x80000000 : Word) &&& BitVec.ofNat 32 (accMask 0x1301 .rw))) ||| ((0x80000000 : Word) &&& 0x80000000 &&& BitVec.ofNat 32 (accMask 0x1301 .rw))).getLsbD 31 =
      true := by decide +kernel
  rw [← hword, atReservedSet_applied t ht] at hbit
  cases hbit

end Sys2Proof.Machine
end

section
/-!
PROOFS. Refutation about Coppice's fallback (15 R388): an older own image whose trailer holds a record that fails the content check (15 R387) sends the module to SAFE.
-/

namespace Sys2Proof.Machine

/-- A Tally image with a world map and no records, and a trailer whose one live change has a PID that names no parameter (15 R379, R399). -/
def badTrailerImage : Image :=
  ⟨List.replicate 7 0 ++ [1, 0, 0, 0, 176] ++ List.replicate 52 0 ++ ([0, 2, 0, 0, 0, 0, 0, 32] ++ List.replicate 8 0 ++ [0, 1] ++ List.replicate 30 0) ++
    List.replicate 64 0 ++ (List.replicate 11 0 ++ [4] ++ List.replicate 20 0 ++ [0, 0, 0, 0] ++ List.replicate 16 0)⟩

/-- The image's seal at position 0 of the own region. -/
def badTrailerSeal : SealRec := { region := 0, comseq := 1, len := 228, digest := badTrailerImage.digest }

/-- A module in COPPICE for 60 s, with that image at the older position. -/
def atFallback : State :=
  { onAt 4 with
    pwr := { (onAt 4).pwr with ticks := 60 * 200000000 }, tally := { olderPos := some 0 },
    flash := { own := ⟨#v[badTrailerImage.bytes, [], [], [], [], [], [], []]⟩, seals := [badTrailerSeal] } }

theorem badTrailerImage_parts : badTrailerImage.params = [] ∧ badTrailerImage.rest = [] ∧ worldOk badTrailerImage.world = true := by decide +kernel

/-- A seal vouches for the content of its position that has its length and its digest. -/
theorem vouched_of_content (f : FlashState) (x : SealRec) (l : List Byte) (h : (f.content x.region x.pos).take x.len = l) (hlen : l.length = x.len)
    (hdigest : sha256 l = x.digest) : f.vouched x = some ⟨l⟩ := by
  unfold FlashState.vouched
  dsimp only
  rw [h, if_pos ⟨hlen, hdigest⟩]

theorem badTrailerSeal_digest : sha256 badTrailerImage.bytes = badTrailerSeal.digest := by simp only [badTrailerSeal, Image.digest]

theorem badTrailerSeal_vouched : atFallback.flash.vouched badTrailerSeal = some badTrailerImage :=
  vouched_of_content _ _ badTrailerImage.bytes (by decide +kernel) (by decide +kernel) badTrailerSeal_digest

theorem badTrailerImage_rejected : (applyImage atFallback badTrailerImage).1 = none := by
  have hnone : (applyImage atFallback badTrailerImage).1.isNone = true := by decide +kernel
  exact Option.isNone_iff_eq_none.1 hnone

theorem rejected_mode : (rejectContent atFallback (applyImage atFallback badTrailerImage).2).mode = 11 := by decide +kernel

theorem atFallback_seal : atFallback.flash.sealAt 0 0 = some badTrailerSeal := by simp [FlashState.sealAt, FlashState.sealsOf, atFallback, badTrailerSeal]

/-- An own image whose content is invalid is rejected (15 R387). -/
theorem runOwn_rejected {s : State} {p : Nat} {older service : Bool} {x : SealRec} {im : Image} (hx : s.flash.sealAt 0 p = some x)
    (him : s.flash.vouched x = some im) (hnone : (applyImage s im).1 = none) : runOwn s p older service = rejectContent s (applyImage s im).2 := by
  unfold runOwn
  rw [hx, Option.bind_some, him, Option.map_some]
  dsimp only
  split
  · rename_i l h
    rw [h]
  · rename_i u l h
    rw [h] at hnone
    cases hnone

theorem atFallback_rejected : exec .coppiceFallback atFallback = .next (rejectContent atFallback (applyImage atFallback badTrailerImage).2) := by
  change execCoppiceFallback atFallback = _
  have hdue : (atFallback.live && atFallback.mode == 4 && passed atFallback atFallback.modes.at_ 60 && atFallback.tally.fetched.isNone) = true := by decide +kernel
  have hpos : atFallback.tally.olderPos = some 0 := rfl
  unfold execCoppiceFallback
  rw [hdue, hpos]
  exact congrArg Host.Outcome.next (runOwn_rejected atFallback_seal badTrailerSeal_vouched badTrailerImage_rejected)

/-- Refutes O49: the clause of Coppice's fallback asks the older image for no records in its sections alone; with `badTrailerImage` the trailer's record fails the content check,
so that the module enters SAFE (mode 11), not SETTLE. -/
theorem not_coppiceRestoresAndEnrolmentKeysTheModule : ¬ Obligations.CoppiceRestoresAndEnrolmentKeysTheModule := by
  unfold Obligations.CoppiceRestoresAndEnrolmentKeysTheModule
  rintro ⟨-, -, -, -, -, -, -, -, -, -, -, -, hfallback, -⟩
  obtain ⟨hparams, hrest, hworld⟩ := badTrailerImage_parts
  obtain ⟨t, ht, hmode, -⟩ := hfallback 0 badTrailerSeal badTrailerImage atFallback (by decide +kernel) (by decide +kernel) (by decide +kernel) rfl rfl
    atFallback_seal badTrailerSeal_vouched (by decide) hparams hrest hworld (by decide +kernel)
  rw [atFallback_rejected] at ht
  obtain rfl := Host.Outcome.next.inj ht
  rw [rejected_mode] at hmode
  cases hmode

end Sys2Proof.Machine
end

section
/-!
PROOFS. START (16 R406, R415): the state it begins with, what SUP shows of the run, and the module it leaves in LOAD.
-/

namespace Sys2Proof.Machine

/-! ### What SUP fills from the flash and the key store leaves the other registers -/

/-- What is asked of START's first state: the run, the cause of the restart, the mode, and registers that stand at their reset values. -/
def startShown : List Field := [ID_RUN_RUN, ID_RSTCAUSE_CAUSE, MD_ST_MODE, PWR_ST_MOUNTED, CV_ST_NOTSET 0, TIME_ST_STATE, ID_DOMST_WSTATE]

/-- The fields of `startShown`, and the state beside the registers. -/
def startView (s : State) : List Nat × State := (startShown.map s.get, besideRegs s)

theorem startView_set (s : State) (f : Field) (n : Nat) (hok : f.ok) (h : ∀ g ∈ startShown, f.apart g) : startView (s.set f n) = startView s :=
  Prod.ext (List.map_congr_left fun g hg => State.get_set_ne s f g n hok (h g hg)) rfl

theorem startView_setB (s : State) (f : Field) (b : Bool) (hok : f.ok) (h : ∀ g ∈ startShown, f.apart g) : startView (s.setB f b) = startView s :=
  startView_set s f _ hok h

theorem startView_setWord (s : State) (a : Nat) (w : Word) (h : ∀ g ∈ startShown, g.word ≠ a) : startView (s.setWord a w) = startView s :=
  Prod.ext (List.map_congr_left fun g hg => State.get_setWord_ne s a g w (h g hg)) rfl

theorem startShown_word_lt : ∀ g ∈ startShown, g.word < 0x1500 := by decide

theorem startView_showKeys (s : State) : startView (showKeys s) = startView s := by
  have hanchor (v : State → Nat → Word) (s : State) : startView ((List.range 4).foldl (fun s n => s.setWord (0x1818 + n) (v s n)) s) = startView s :=
    foldl_leaves startView _ _ (fun s n => startView_setWord s _ _ fun g hg => by have := startShown_word_lt g hg; omega) s
  unfold showKeys
  rw [startView_setB _ _ _ (by decide) (by decide), startView_setWord _ _ _ (by decide), startView_setWord _ _ _ (by decide), hanchor,
    startView_setB _ _ _ (by decide) (by decide), startView_setB _ _ _ (by decide) (by decide)]

/-- The release of the half that runs, the cause of the restart and the run, which SUP shows first. -/
def State.runShown (s : State) (cause : Nat) (half : Bool) : State :=
  ((s.setWord 2 (releaseWord (halfRelease s half))).set ID_RSTCAUSE_CAUSE cause).set ID_RUN_RUN s.flash.run

theorem commits_ok (n : Nat) : (TL_WEAR_COMMITS (n / 8) (n % 8)).ok := by simp [TL_WEAR_COMMITS]

theorem startView_fillIdentity (s : State) (cause : Nat) (half trial : Bool) :
    startView (fillIdentity s cause half trial) = startView (s.runShown cause half) := by
  have hwear (v : State → Nat → Nat) (s : State) :
      startView ((List.range 24).foldl (fun s n => s.set (TL_WEAR_COMMITS (n / 8) (n % 8)) (v s n)) s) = startView s :=
    foldl_leaves startView _ _ (fun s n => startView_set s _ _ (commits_ok n) fun g hg => .inl (by
      have := startShown_word_lt g hg
      simp only [TL_WEAR_COMMITS]
      omega)) s
  have hid (v : Nat → Word) (s : State) : startView ((List.range 8).foldl (fun s n => s.setWord (0x1810 + n) (v n)) s) = startView s :=
    foldl_leaves startView _ _ (fun s n => startView_setWord s _ _ fun g hg => by have := startShown_word_lt g hg; omega) s
  unfold fillIdentity
  rw [startView_setB _ _ _ (by decide) (by decide), hwear, startView_showKeys, startView_set _ _ _ (by decide) (by decide),
    startView_setWord _ _ _ (by decide), startView_set _ _ _ (by decide) (by decide), startView_set _ _ _ (by decide) (by decide), hid,
    startView_set _ _ _ (by decide) (by decide), startView_setWord _ _ _ (by decide), startView_setWord _ _ _ (by decide),
    startView_setWord _ _ _ (by decide), startView_setB _ _ _ (by decide) (by decide), startView_setB _ _ _ (by decide) (by decide)]
  rfl

/-! ### The first state of START -/

/-- The power die after the release: it runs, and SUP does not yet. -/
def State.dieStartedPwr (s : State) : PwrState :=
  { phase := .running, lowB := s.pwr.lowB.map fun _ => 0, raisedA := s.pwr.raisedA, raisedB := s.pwr.raisedB }

/-- Every unit at its reset state, with the power page, the flash, the key store and the stored drive frequency as they were. -/
def State.dieStarted (s : State) : State :=
  { State.reset with
    regs := s.regs.filter fun p => p.1 == 0x100 || p.1 == 0x102 || p.1 == 0x103 || p.1 == 0x104, pwr := s.dieStartedPwr, flash := s.flash, keys := s.keys,
    drive := { storedFreq := s.drive.storedFreq }, modes := { workLost := lostWork s }, free := s.free, pending := s.pending, hk := { seq := hkSeqReset },
    slots := Vector.ofFn fun i => { rate := grRateReset i } }

/-- A field outside the words that the power die keeps reads its reset value. -/
theorem dieStarted_get (s : State) (f : Field) (h : f.word ∉ [0x100, 0x102, 0x103, 0x104]) : s.dieStarted.get f = State.reset.get f := by
  refine congrArg (fun w => getBits w f.lo f.width) (Regs.read_unlisted _ _ fun p hp he => h ?_)
  have hkept := (List.mem_filter.1 hp).2
  simp only [Bool.or_eq_true, beq_iff_eq] at hkept
  rw [← he]
  simp only [List.mem_cons, List.not_mem_nil, or_false]
  omega

/-- The state with twist-release disarmed, before the ports follow their enables. -/
def State.unmounted (s : State) : State := disarmTwist (s.dieStarted.set PWR_PIN_HOLDUP (max 240 (s.dieStarted.get PWR_PIN_HOLDUP)))

def startPortFields : List Field := [PWR_ST_PSTA, PWR_IPT_IA, PWR_ST_PSTB, PWR_IPT_IB] ++ inputFields

theorem freshState_frame (s : State) : PowerFrame startPortFields s.unmounted (freshState s) := by
  refine .trans (.trans ((followEnable_frame _ .a).mono (by decide)) ((followEnable_frame _ .b).mono (by decide))) ((showInputs_frame _).mono ?_)
  decide

theorem unmounted_frame (s : State) : PowerFrame [PWR_PIN_HOLDUP, PWR_ST_MOUNTED, PWR_ST_TWARM, PWR_TWANG_ANGLE] s.dieStarted s.unmounted := by
  unfold State.unmounted disarmTwist
  refine PowerFrame.modPwr (f := fun p => { p with twist := 0, calm := 0 }) (.set (.set (.set (.set (.refl _ _ _) ?_ ?_ rfl) ?_ ?_ rfl) ?_ ?_ rfl) ?_ ?_ rfl) rfl
  all_goals decide

/-- The power page's fields that START fills. -/
def freshFields : List Field := [PWR_PIN_HOLDUP, PWR_ST_MOUNTED, PWR_ST_TWARM, PWR_TWANG_ANGLE] ++ startPortFields

theorem freshState_page_frame (s : State) : PowerFrame freshFields s.dieStarted (freshState s) :=
  .trans ((unmounted_frame s).mono (by decide)) ((freshState_frame s).mono (by decide))

theorem freshState_mounted (s : State) : (freshState s).get PWR_ST_MOUNTED = 0 := by
  rw [(freshState_frame s).get _ (by decide)]
  unfold State.unmounted disarmTwist
  exact (State.get_set_ne _ _ _ _ (by decide) (by decide)).trans ((State.get_set_ne _ _ _ _ (by decide) (by decide)).trans
    (State.get_set_same _ _ _ (by decide)))

/-- A field outside the power page reads its reset value as START begins. -/
theorem freshState_get (s : State) (f : Field) (h : f.word < 0x100 ∨ 0x107 < f.word) : (freshState s).get f = State.reset.get f := by
  have hpage : ∀ g ∈ freshFields, 0x100 ≤ g.word ∧ g.word ≤ 0x107 := by decide
  rw [(freshState_page_frame s).get f fun g hg => .inl (by have := hpage g hg; omega), dieStarted_get s f]
  simp only [List.mem_cons, List.not_mem_nil, or_false]
  omega

theorem freshState_beside (s : State) : { freshState s with regs := [], fresh := [], pwr := {} } = { s.dieStarted with regs := [], fresh := [], pwr := {} } :=
  (congrArg (fun x : State => { x with pwr := {} }) (freshState_page_frame s).kept :)

theorem freshState_pwr (s : State) :
    (freshState s).pwr =
      { s.dieStartedPwr with
        twist := (freshState s).pwr.twist, calm := (freshState s).pwr.calm, lowB := (freshState s).pwr.lowB, raisedA := (freshState s).pwr.raisedA,
        raisedB := (freshState s).pwr.raisedB } :=
  PowerFrame.pwr (freshState_page_frame s)

/-! ### START with half A verified -/

/-- SUP runs: the run is counted, and the message sequence goes on from its reservation. -/
def State.runBegun (s : State) : State :=
  let x := freshState s
  { x with flash := { x.flash with run := (x.flash.run + 1) % 2 ^ 32, trialBooted := false }, pwr := { x.pwr with booted := true },
           net := { x.net with mseq := x.flash.mseqRes } }

/-- REFBUF is enabled, after what SUP shows. -/
def State.refEnabled (s : State) (cause : Nat) : State := ((fillIdentity s cause false false).set PORT_ST_RINGST 3).set HK_CTL_REFEN 1

/-- The servo's output and the hot minutes go on from the newest estimates of the log. -/
def State.resumed (s : State) : State :=
  let y := (lastLocked s.flash.log).getD 0
  let hot := (lastHot s.flash.log).getD 0
  ((loadY { s with time := { s.time with acc := roundEven y ((s.time.use.ki : Int) * 65536) * 65536 } } y).modModes
    fun m => { m with hot := List.replicate hot 0 }).set MD_HOT_MIN hot

theorem startState_halfAVerified (s : State) (boot : Boot) (ht : s.flash.trial = none) (hb : s.flash.activeB = false) (hok : boot.okA = true) :
    startState s boot = (s.runBegun.refEnabled (startCause s)).resumed := by
  have hchoice := bootChoice_active s boot false ht hb hok
  unfold startState
  rw [hchoice]
  rfl

/-! ### What START's first state shows -/

theorem resumed_get (s : State) (f : Field) (h : ∀ g ∈ [TIME_INC_FRAC, TIME_INC_NS, TIME_Y_Y, MD_HOT_MIN], g.apart f) : s.resumed.get f = s.get f := by
  unfold State.resumed
  dsimp only
  rw [State.get_set_ne _ _ _ _ (by decide) (h _ (by simp))]
  change (((State.set _ TIME_INC_FRAC _).set TIME_INC_NS _).setI TIME_Y_Y _).get f = _
  rw [State.get_setI_ne _ _ _ _ (by decide) (h _ (by simp)), State.get_set_ne _ _ _ _ (by decide) (h _ (by simp)),
    State.get_set_ne _ _ _ _ (by decide) (h _ (by simp))]
  rfl

theorem refEnabled_refen (s : State) (cause : Nat) : (s.refEnabled cause).get HK_CTL_REFEN = 1 := State.get_set_same _ _ _ (by decide)

theorem startView_refEnabled (s : State) (cause : Nat) : startView (s.refEnabled cause) = startView (s.runShown cause false) := by
  unfold State.refEnabled
  rw [startView_set _ _ _ (by decide) (by decide), startView_set _ _ _ (by decide) (by decide), startView_fillIdentity]

theorem refEnabled_get (s : State) (cause : Nat) (f : Field) (h : f ∈ startShown) : (s.refEnabled cause).get f = (s.runShown cause false).get f :=
  List.map_inj_left.1 (congrArg Prod.fst (startView_refEnabled s cause)) f h

theorem refEnabled_beside (s : State) (cause : Nat) : besideRegs (s.refEnabled cause) = besideRegs s :=
  (congrArg Prod.snd (startView_refEnabled s cause)).trans rfl

theorem runShown_run (s : State) (cause : Nat) (half : Bool) : (s.runShown cause half).get ID_RUN_RUN = s.flash.run % 2 ^ 32 :=
  State.get_set_same _ _ _ (by decide)

theorem runShown_cause (s : State) (cause : Nat) (half : Bool) : (s.runShown cause half).get ID_RSTCAUSE_CAUSE = cause % 256 :=
  (State.get_set_ne _ _ _ _ (by decide) (by decide)).trans (State.get_set_same _ _ _ (by decide))

/-- A field apart from the three that SUP shows first. -/
theorem runShown_get (s : State) (cause : Nat) (half : Bool) (f : Field) (h2 : f.word ≠ 2) (hc : ID_RSTCAUSE_CAUSE.apart f) (hr : ID_RUN_RUN.apart f) :
    (s.runShown cause half).get f = s.get f := by
  unfold State.runShown
  rw [State.get_set_ne _ _ _ _ (by decide) hr, State.get_set_ne _ _ _ _ (by decide) hc, State.get_setWord_ne _ _ _ _ h2]

/-- The module that START begins with, beside its registers, the power die, the time unit and the modes. -/
def State.firstState (s : State) : State :=
  { State.reset with
    flash := { s.flash with run := (s.flash.run + 1) % 2 ^ 32, trialBooted := false }, keys := s.keys, drive := { storedFreq := s.drive.storedFreq },
    hk := { seq := hkSeqReset }, slots := Vector.ofFn fun i => { rate := grRateReset i }, net := { mseq := s.flash.mseqRes }, free := s.free,
    pending := s.pending }

/-- What START's first state t shows of the state s before it and of the cause of the restart. -/
structure StartBegun (cause : Nat) (s t : State) : Prop where
  phase : t.pwr.phase = .running
  booted : t.pwr.booted = true
  released : t.pwr.released = false
  serialB : t.pwr.serialB = false
  isOpen : t.pwr.sealed = false
  run : t.get ID_RUN_RUN = (s.flash.run + 1) % 2 ^ 32
  cause : t.get ID_RSTCAUSE_CAUSE = cause % 256
  refen : t.get HK_CTL_REFEN = 1
  mode : t.mode = 1
  unmounted : t.get PWR_ST_MOUNTED = 0
  notset : t.get (CV_ST_NOTSET 0) = 1
  timeState : t.get TIME_ST_STATE = 0
  work : t.get ID_DOMST_WSTATE = 0
  time : { t.time with acc := 0, y := 0 } = {}
  modes : { t.modes with hot := [], workLost := false } = {}
  beside : { t with regs := [], fresh := [], pwr := {}, time := {}, modes := {} } = s.firstState

/-- The run is counted and the message sequence goes on, beside the time unit and the modes. -/
def State.counted (x : State) : State :=
  { x with
    flash := { x.flash with run := (x.flash.run + 1) % 2 ^ 32, trialBooted := false }, net := { x.net with mseq := x.flash.mseqRes }, time := {}, modes := {} }

theorem runBegun_beside (s : State) : { s.runBegun with regs := [], fresh := [], pwr := {}, time := {}, modes := {} } = s.firstState := by
  exact congrArg State.counted (freshState_beside s)

theorem runBegun_flash_run (s : State) : s.runBegun.flash.run = (s.flash.run + 1) % 2 ^ 32 :=
  (congrArg (fun x : State => x.flash.run) (runBegun_beside s) :)

theorem resumed_kept (s : State) : s.resumed.pwr = s.pwr ∧ { s.resumed.time with acc := 0, y := 0 } = { s.time with acc := 0, y := 0 } ∧
    { s.resumed.modes with hot := [] } = { s.modes with hot := [] } ∧
    { s.resumed with regs := [], fresh := [], pwr := {}, time := {}, modes := {} } = { s with regs := [], fresh := [], pwr := {}, time := {}, modes := {} } :=
  ⟨rfl, rfl, rfl, rfl⟩

/-- A field of `startShown` other than the run and the cause reads in START's first state what it reads as START begins. -/
theorem firstState_get (s : State) (cause : Nat) (f : Field) (h : f ∈ startShown) (h2 : f.word ≠ 2) (hc : ID_RSTCAUSE_CAUSE.apart f)
    (hr : ID_RUN_RUN.apart f) (hl : ∀ g ∈ [TIME_INC_FRAC, TIME_INC_NS, TIME_Y_Y, MD_HOT_MIN], g.apart f) :
    (s.runBegun.refEnabled cause).resumed.get f = (freshState s).get f := by
  rw [resumed_get _ _ hl, refEnabled_get _ _ _ h, runShown_get _ _ _ _ h2 hc hr]
  rfl

theorem parts_of_besideRegs {s t : State} (h : besideRegs t = besideRegs s) : t.pwr = s.pwr ∧ t.time = s.time ∧ t.modes = s.modes :=
  ⟨(congrArg State.pwr h :), (congrArg State.time h :), (congrArg State.modes h :)⟩

theorem runBegun_pwr (s : State) : s.runBegun.pwr.phase = .running ∧ s.runBegun.pwr.released = false ∧ s.runBegun.pwr.serialB = false ∧ s.runBegun.pwr.sealed = false := by
  have hpwr : s.runBegun.pwr = { (freshState s).pwr with booted := true } := rfl
  rw [hpwr, freshState_pwr s]
  exact ⟨rfl, rfl, rfl, rfl⟩

theorem runBegun_time (s : State) : s.runBegun.time = {} := (congrArg State.time (freshState_beside s) :)

theorem runBegun_modes (s : State) : s.runBegun.modes = { workLost := lostWork s } := (congrArg State.modes (freshState_beside s) :)

/-- A state without the power die, the time unit and the modes. -/
def State.masked (x : State) : State := { x with pwr := {}, time := {}, modes := {} }

theorem masked_of_besideRegs {s t : State} (h : besideRegs t = besideRegs s) :
    { t with regs := [], fresh := [], pwr := {}, time := {}, modes := {} } = { s with regs := [], fresh := [], pwr := {}, time := {}, modes := {} } :=
  (congrArg State.masked h :)

/-- START with half A verified counts the run, shows the cause and enables REFBUF; everything else stands at reset, or as the power cycle left it. -/
theorem startState_begun (s : State) (boot : Boot) (ht : s.flash.trial = none) (hb : s.flash.activeB = false) (hok : boot.okA = true) :
    StartBegun (startCause s) s (startState s boot) := by
  rw [startState_halfAVerified s boot ht hb hok]
  obtain ⟨hpwr, htime, hmodes, hbeside⟩ := resumed_kept (s.runBegun.refEnabled (startCause s))
  obtain ⟨hphase, hreleased, hserial, hsealed⟩ := runBegun_pwr s
  obtain ⟨hshownPwr, hshownTime, hshownModes⟩ := parts_of_besideRegs (refEnabled_beside s.runBegun (startCause s))
  rw [hshownPwr] at hpwr
  constructor
  case run => rw [resumed_get _ _ (by decide), refEnabled_get _ _ _ (by decide), runShown_run, runBegun_flash_run, Nat.mod_mod]
  case cause => rw [resumed_get _ _ (by decide), refEnabled_get _ _ _ (by decide), runShown_cause]
  case refen => rw [resumed_get _ _ (by decide), refEnabled_refen]
  case unmounted => rw [firstState_get _ _ _ (by decide) (by decide) (by decide) (by decide) (by decide), freshState_mounted]
  case mode => exact (firstState_get s _ MD_ST_MODE (by decide) (by decide) (by decide) (by decide) (by decide)).trans (freshState_get s _ (by decide))
  case notset => rw [firstState_get _ _ _ (by decide) (by decide) (by decide) (by decide) (by decide), freshState_get _ _ (by decide)]; decide
  case timeState => rw [firstState_get _ _ _ (by decide) (by decide) (by decide) (by decide) (by decide), freshState_get _ _ (by decide)]; decide
  case work => rw [firstState_get _ _ _ (by decide) (by decide) (by decide) (by decide) (by decide), freshState_get _ _ (by decide)]; decide
  case phase => rw [hpwr, hphase]
  case booted => rw [hpwr]; rfl
  case released => rw [hpwr, hreleased]
  case serialB => rw [hpwr, hserial]
  case isOpen => rw [hpwr, hsealed]
  case time => rw [htime, hshownTime, runBegun_time]
  case modes =>
    rw [hshownModes, runBegun_modes] at hmodes
    exact congrArg (fun m : ModeState => { m with workLost := false }) hmodes
  case beside =>
    rw [hbeside, masked_of_besideRegs (refEnabled_beside s.runBegun (startCause s)), runBegun_beside]

section
variable {cause : Nat} {s t : State} (h : StartBegun cause s t)
include h

theorem StartBegun.flash : t.flash = { s.flash with run := (s.flash.run + 1) % 2 ^ 32, trialBooted := false } := (congrArg State.flash h.beside :)

theorem StartBegun.keys : t.keys = s.keys := (congrArg State.keys h.beside :)

theorem StartBegun.pending : t.pending = s.pending := (congrArg State.pending h.beside :)

theorem StartBegun.mseq : t.net.mseq = s.flash.mseqRes := (congrArg (fun x : State => x.net.mseq) h.beside :)

end

/-! ### An orderly restart (16 R415) -/

/-- What an orderly restart keeps: the flash beside the reserved MSEQ, and the drive. -/
def restartKept (s : State) : FlashState × DriveState := ({ s.flash with mseqRes := 0 }, s.drive)

theorem closePub_drive (s : State) (k : Fin 16) (fin step : Bool) (n : Nat) : (closePub s k fin step n).drive = s.drive := by
  unfold closePub
  dsimp only
  split
  · split <;> rfl
  · rfl

theorem streamRecord_drive (s : State) (i : Fin 16) (r : Landed × Nat) : (streamRecord s i r).drive = s.drive := by
  refine foldl_leaves State.drive _ _ (fun s k => ?_) s
  split
  · dsimp only
    split
    · exact closePub_drive _ _ _ _ _
    · rfl
  · rfl

theorem deliverTo_drive (s : State) (i : Fin 16) (b : Nat) (l : List (Landed × Nat)) (hb : b ≠ 0) : (deliverTo s i b l).drive = s.drive := by
  unfold deliverTo
  rw [if_neg hb]
  split
  · exact foldl_leaves State.drive _ _ (fun s r => streamRecord_drive s i r) s
  · split
    · rfl
    · split
      · rfl
      · unfold feedPartition
        split
        · split <;> rfl
        · rfl

theorem takeRecords_drive (s : State) (i : Fin 16) (mask : Nat) (h : mask.testBit 0 = false) : (takeRecords s i mask).drive = s.drive := by
  unfold takeRecords
  generalize (if s.bit DK_ST_ON then 63 else 62) = ready
  split
  · rfl
  · refine foldl_leaves State.drive _ _ (fun t b => ?_) s
    split
    · rename_i hb
      refine deliverTo_drive _ _ _ _ ?_
      rintro rfl
      rw [Nat.testBit_and, Nat.testBit_and, h] at hb
      simp at hb
    · rfl

theorem beginRestart_drive (s : State) (cause : Nat) : (beginRestart s cause).drive = s.drive := by
  have harmed (u : State) : (showArmed u).drive = u.drive := (congrArg State.drive (showArmed_frame u).kept :)
  unfold beginRestart
  dsimp only
  rw [foldl_leaves State.drive _ _ fun s k => ?_, foldl_leaves State.drive _ _ fun s i => takeRecords_drive s i 0b001110 (by decide), harmed]
  · rfl
  · split
    · exact closePub_drive _ _ _ _ _
    · rfl

theorem beginRestart_kept (s : State) (cause : Nat) : restartKept (beginRestart s cause) = restartKept s := by
  simp only [restartKept, beginRestart_flash, beginRestart_drive]

theorem sendPub_kept (s : State) (k : Fin 16) : restartKept (sendPub s k) = restartKept s := by
  unfold sendPub message
  split
  · rfl
  · split <;> rfl

theorem flushStream_kept (s : State) (k : Fin 16) (fuel : Nat) : restartKept (flushStream s k fuel) = restartKept s := by
  induction fuel generalizing s with
  | zero => rfl
  | succ n ih =>
    unfold flushStream
    split
    · rfl
    · exact (ih _).trans (sendPub_kept s k)

/-- The module as an orderly restart leaves it to START: its queued publications are closed and sent. -/
def State.drained (s : State) (cause : Nat) : State :=
  let s := if s.modes.stopped then s else beginRestart s cause
  (List.finRange 16).foldl (fun s (k : Fin 16) => flushStream s k s.net.streams[k].ready.length) s

theorem drained_kept (s : State) (cause : Nat) : restartKept (s.drained cause) = restartKept s := by
  unfold State.drained
  dsimp only
  rw [foldl_leaves restartKept _ _ fun s k => flushStream_kept s k _]
  split
  · rfl
  · exact beginRestart_kept s cause

theorem drained_lasting (s : State) (cause : Nat) : lasting (s.drained cause) = lasting s := by
  unfold State.drained
  dsimp only
  rw [foldl_leaves lasting _ _ fun s k => flushStream_lasting s k _]
  split
  · rfl
  · exact beginRestart_lasting s cause

/-- The cause of the restart is noted for START. -/
def State.causeNoted (s : State) (cause : Nat) : State := s.modPwr fun p => { p with cause := some cause }

theorem restartKept_noted (s : State) (cause : Nat) : restartKept (s.causeNoted cause) = restartKept s := rfl

theorem lasting_noted (s : State) (cause : Nat) : lasting (s.causeNoted cause) = lasting s := rfl

theorem startCause_noted (s : State) (cause : Nat) : startCause (s.causeNoted cause) = cause := rfl

theorem exec_orderlyRestart_drained (s : State) (boot : Boot) (cause : Nat) (hlive : s.live = true) (hcause : s.modes.restart = some cause) :
    exec (.orderlyRestart boot) s = .next (startState ((s.drained cause).causeNoted cause) boot) := by
  change execOrderlyRestart boot s = _
  simp only [execOrderlyRestart, hlive, hcause, Option.isSome_some, Bool.true_or, Bool.and_self, if_true, Option.getD_some]
  rfl

/-- The flash of a state that agrees with s beside the reserved MSEQ. -/
theorem flash_of_restartKept {s u : State} (h : restartKept u = restartKept s) : u.flash = { s.flash with mseqRes := u.flash.mseqRes } :=
  congrArg (fun f : FlashState => { f with mseqRes := u.flash.mseqRes }) (congrArg Prod.fst h)

/-- START's first state beside its registers, from a state that agrees with s in what an orderly restart keeps. -/
theorem firstState_of_kept {s u : State} (h : restartKept u = restartKept s) (hl : lasting u = lasting s) :
    u.firstState = { State.reset with flash := { s.flash with run := (s.flash.run + 1) % 2 ^ 32, trialBooted := false, mseqRes := u.flash.mseqRes }, keys := s.keys, drive := { storedFreq := s.drive.storedFreq }, hk := { seq := hkSeqReset }, slots := Vector.ofFn fun i => { rate := grRateReset i }, net := { mseq := u.flash.mseqRes }, free := u.free, pending := s.pending } := by
  have hflash := flash_of_restartKept h
  have hdrive : u.drive = s.drive := congrArg Prod.snd h
  have hkeys : u.keys = s.keys := congrArg Lasting.keys hl
  have hqueue : u.pending = s.pending := congrArg Lasting.queue hl
  unfold State.firstState
  rw [hdrive, hkeys, hqueue, hflash]

/-! ### The end of START (16 R406) -/

/-- The power die without what the return of port B to Ethernet use changes. -/
def PwrState.unserial (p : PwrState) : PwrState := { p with serialB := false, wantB := false, twist := 0, calm := 0, lowB := none }

/-- A state without its registers, REFBUF's times, the axes, the slots, self-calibration, the AUX channel and port B's use. -/
def besideLoad (s : State) : State :=
  { s with regs := [], pwr := s.pwr.unserial, hk := {}, axes := Vector.replicate 10 {}, slots := Vector.replicate 16 {}, cal := {}, aux := {}, fresh := [] }

section
variable {s t : State} (h : besideLoad t = besideLoad s)
include h

theorem flash_of_besideLoad : t.flash = s.flash := (congrArg State.flash h :)

theorem ticks_of_besideLoad : t.pwr.ticks = s.pwr.ticks := (congrArg (fun x : State => x.pwr.ticks) h :)

theorem besideLoad_modModes (f : ModeState → ModeState) : besideLoad (t.modModes f) = besideLoad (s.modModes f) :=
  (congrArg (fun x : State => x.modModes f) h :)

theorem besideLoad_release : besideLoad (t.modPwr fun p => { p with released := true }) = besideLoad (s.modPwr fun p => { p with released := true }) :=
  (congrArg (fun x : State => x.modPwr fun p => { p with released := true }) h :)

/-- The log takes an entry and the key-probe window opens. -/
theorem besideLoad_logged (e : LogEntry) : besideLoad { t.log e with tally := { t.tally with windowOpen := true } } =
    besideLoad { s.log e with tally := { s.tally with windowOpen := true } } :=
  (congrArg (fun x : State => { x.log e with tally := { x.tally with windowOpen := true } }) h :)

end

theorem setNotset_frame (s : State) (b : Bool) (l : List Field) (hl : ∀ i < 10, CV_ST_NOTSET i ∈ l) : RegFrame l s (setNotset s b) := by
  unfold setNotset
  refine List.foldlRecOn (List.range 10) _ (motive := fun t => RegFrame l s t) (.refl _ _ s) fun t ht i hi => ?_
  exact RegFrame.set ht (hl i (List.mem_range.1 hi)) (by simp [CV_ST_NOTSET])

/-- The fields of REFBUF's release. -/
def refReadyFields : List Field := HK_ST_REFRDY :: (List.range 10).map CV_ST_NOTSET

/-- The converters settle from now on, and REFRDY is shown. -/
def State.refShown (s : State) : State :=
  { s with hk := { s.hk with unsettled := closeSpan s.hk.unsettled s.now, refAt := some s.pwr.ticks } }.set HK_ST_REFRDY 1

theorem refReady_frame (s : State) : ViewFrame besideLoad refReadyFields s (refReady s) := by
  have hshown : ViewFrame besideLoad refReadyFields s s.refShown := .set (.beside (.refl _ _ s) rfl rfl) (by decide) (by decide) rfl
  exact hshown.trans (ViewFrame.through (setNotset_frame s.refShown false refReadyFields fun i hi =>
    List.mem_cons_of_mem _ (List.mem_map_of_mem (List.mem_range.2 hi))) besideLoad)

theorem refReady_refrdy (s : State) : (refReady s).get HK_ST_REFRDY = 1 := by
  have hrest := setNotset_frame s.refShown false ((List.range 10).map CV_ST_NOTSET) fun i hi => List.mem_map_of_mem (List.mem_range.2 hi)
  exact (hrest.get HK_ST_REFRDY (by decide)).trans (State.get_set_same _ _ _ (by decide))

/-- The fields of the axes that start with the converters, L and Q. -/
def startAxisFields : List Field := [(3 : Fin 10), 4, 5].flatMap fun (i : Fin 10) => AX_ST_PRANGE i :: countFields i

theorem startAxes_frame (s : State) : ViewFrame besideLoad startAxisFields s ([(3 : Fin 10), 4, 5].foldl startAxis s) := by
  have hstart (u : State) (i : Fin 10) (hi : ∀ f ∈ AX_ST_PRANGE i :: countFields i, f ∈ startAxisFields) : ViewFrame besideLoad startAxisFields u (startAxis u i) :=
    .mono ((startAxis_frame u i).through besideLoad) hi
  exact ((hstart s 3 (by decide +kernel)).trans (hstart _ 4 (by decide +kernel))).trans (hstart _ 5 (by decide +kernel))

/-! ### LOAD begins -/

theorem followEnable_raised (s : State) (p : Port) : (followEnable s p).pwr.raisedA = s.pwr.raisedA ∧ (followEnable s p).pwr.raisedB = s.pwr.raisedB := by
  unfold followEnable putPort
  dsimp only
  repeat' split
  all_goals exact ⟨rfl, rfl⟩

theorem besideLoad_of_power {l : List Field} {s t : State} (h : PowerFrame l s t) (ha : t.pwr.raisedA = s.pwr.raisedA) (hb : t.pwr.raisedB = s.pwr.raisedB) :
    besideLoad t = besideLoad s := by
  have hunserial : t.pwr.unserial = { s.pwr.unserial with raisedA := t.pwr.raisedA, raisedB := t.pwr.raisedB } :=
    (congrArg (fun p : PwrState => { p.unserial with raisedA := t.pwr.raisedA, raisedB := t.pwr.raisedB }) (besidePower_pwr h.kept) :)
  rw [ha, hb] at hunserial
  change { besideLoad t with pwr := t.pwr.unserial } = { besideLoad s with pwr := s.pwr.unserial }
  rw [hunserial]
  exact (congrArg (fun x : State => { besideLoad x with pwr := s.pwr.unserial }) h.kept :)

/-- The fields that the return of port B and of the AUX pins to their use changes. -/
def ethernetFields : List Field := [PWR_ST_PSTB, PWR_IPT_IB] ++ inputFields ++ AUX_ST_SVC :: functionFields ++ suppressFields 10

theorem auxFromSerial_frame (s : State) : ViewFrame besideLoad ethernetFields s (auxFromSerial s) := by
  have htaken := ((takeFunction_frame (s.set AUX_ST_SVC 0)).through besideLoad).mono (m := ethernetFields) (by decide)
  have hswitched := ((suppress_frame (takeFunction (s.set AUX_ST_SVC 0)) 10 false).through besideLoad).mono (m := ethernetFields) (by decide)
  exact .trans (.set (.refl _ _ s) (by decide) (by decide) rfl) (.trans htaken hswitched)

theorem showInputs_raisedA (s : State) : (showInputs s).pwr.raisedA = s.pwr.raisedA := showInputs_raised s .a

theorem showInputs_raisedB (s : State) : (showInputs s).pwr.raisedB = s.pwr.raisedB := showInputs_raised s .b

theorem leaveSerial_frame (s : State) : ViewFrame besideLoad ethernetFields s (leaveSerial s) := by
  have hpower : PowerFrame ethernetFields (s.modPwr fun p => { p with serialB := false, wantB := false })
      (showInputs (followEnable (s.modPwr fun p => { p with serialB := false, wantB := false }) .b)) :=
    .trans ((followEnable_frame _ .b).mono (by decide)) ((showInputs_frame _).mono (by decide))
  obtain ⟨hraisedA, hraisedB⟩ := followEnable_raised (s.modPwr fun p => { p with serialB := false, wantB := false }) .b
  have hkept := besideLoad_of_power hpower ((showInputs_raisedA _).trans hraisedA) ((showInputs_raisedB _).trans hraisedB)
  have hfollow : ViewFrame besideLoad ethernetFields s (showInputs (followEnable (s.modPwr fun p => { p with serialB := false, wantB := false }) .b)) :=
    ⟨hpower.regs, hkept⟩
  exact .ite (hfollow.trans (auxFromSerial_frame _)) hfollow

theorem serialFor_frame (s : State) (m : Nat) : ViewFrame besideLoad ethernetFields s (serialFor s m) := by
  unfold serialFor
  exact .ite (.refl _ _ s) (.ite (leaveSerial_frame s) (.refl _ _ s))

theorem besideLoad_of_besideRun {s t : State} {i : Fin 10} (h : besideRun i t = besideRun i s) : besideLoad t = besideLoad s := (congrArg besideLoad h :)

/-- A run that ends where the mode bars it changes only its axis's fields and what a run holds. -/
theorem abandonBarred_kept (s : State) : besideLoad (abandonBarred s) = besideLoad s ∧
    ∀ g : Field, (∀ i : Fin 10, ∀ f ∈ abandonFields i, f.apart g) → (abandonBarred s).get g = s.get g := by
  unfold abandonBarred
  split
  · exact ⟨rfl, fun _ _ => rfl⟩
  · rename_i i _
    split
    · exact ⟨rfl, fun _ _ => rfl⟩
    · exact ⟨besideLoad_of_besideRun (abandonRun_frame s i).kept, fun g hg => (abandonRun_frame s i).get g (hg i)⟩

/-- A module in START that enters LOAD, before a run that LOAD bars is abandoned. -/
def State.loadEntered (s : State) : State :=
  let s := serialFor s 2
  (((s.set MD_ST_PREV s.mode).set MD_ST_MODE 2).event MD_EVT_CHANGE).modModes fun x => { x with at_ := s.pwr.ticks }

theorem serialFor_mode (s : State) (m : Nat) : (serialFor s m).mode = s.mode := (serialFor_frame s m).get MD_ST_MODE (by decide)

theorem setMode_load (s : State) (h : s.mode = 1) : setMode s 2 = abandonBarred s.loadEntered := by
  have hmode : (serialFor s 2).mode = 1 := (serialFor_mode s 2).trans h
  have hservice : ¬ ((serialFor s 2).mode = 9 ∧ 2 ≠ 9) := by simp [hmode]
  have hcoppice : ¬ (serialFor s 2).mode = 4 := by simp [hmode]
  unfold setMode
  dsimp only
  rw [if_neg hservice, if_neg hcoppice]
  rfl

/-- The converters run: REFBUF is ready, and the axes that need no drive start. -/
def State.converting (s : State) : State := [(3 : Fin 10), 4, 5].foldl startAxis ((refReady s).modPwr fun p => { p with released := true })

theorem converting_kept (s : State) : besideLoad s.converting = besideLoad (s.modPwr fun p => { p with released := true }) :=
  (startAxes_frame _).kept.trans (besideLoad_release (refReady_frame s).kept)

theorem converting_get (s : State) (g : Field) (h : ∀ f ∈ refReadyFields ++ startAxisFields, f.apart g) : s.converting.get g = s.get g :=
  ((startAxes_frame _).get g fun f hf => h f (List.mem_append_right _ hf)).trans ((refReady_frame s).get g fun f hf => h f (List.mem_append_left _ hf))

/-- The entry of the run's start in the event log (15 R385). -/
def State.runEntry (s : State) : LogEntry := .runStart s.flash.run s.flash.mseqRes s.timeState (increment s)

theorem converting_runEntry (s : State) : s.converting.runEntry = s.runEntry := by
  have hflash : s.converting.flash = s.flash := (flash_of_besideLoad (converting_kept s)).trans rfl
  have htime : s.converting.timeState = s.timeState := converting_get s TIME_ST_STATE (by decide +kernel)
  have hns : s.converting.get TIME_INC_NS = s.get TIME_INC_NS := converting_get s _ (by decide +kernel)
  have hfrac : s.converting.get TIME_INC_FRAC = s.get TIME_INC_FRAC := converting_get s _ (by decide +kernel)
  simp only [State.runEntry, increment, hflash, htime, hns, hfrac]

/-- What START leaves to LOAD beside the fields of `besideLoad`. -/
def State.loadReady (s : State) : State :=
  { s with
    pwr := { s.pwr with released := true }, flash := { s.flash with log := fitLog logUnits ((s.flash.run, s.runEntry) :: s.flash.log) },
    tally := { s.tally with windowOpen := true } }

/-- The state that the end of START leaves to LOAD: the converters are released, the run is logged and the key-probe window is open. -/
def State.startEnded (s : State) : State :=
  { s.converting.log s.converting.runEntry with tally := { s.converting.tally with windowOpen := true } }

theorem exec_startEnd (s : State) (hlive : s.live = true) (hmode : s.mode = 1) (hheld : s.pwr.released = false) :
    exec .startEnd s = .next (setMode s.startEnded 2) := by
  change execStartEnd s = _
  simp only [execStartEnd, hlive, hmode, hheld, beq_self_eq_true, Bool.not_false, Bool.and_self, if_true]
  rfl

theorem startEnded_kept (s : State) : besideLoad s.startEnded = besideLoad s.loadReady := by
  unfold State.startEnded
  rw [converting_runEntry]
  exact besideLoad_logged (converting_kept s) s.runEntry

theorem logged_get (s : State) (e : LogEntry) (w : TallyState) (g : Field) : { s.log e with tally := w }.get g = s.get g := rfl

theorem startEnded_get (s : State) (g : Field) : s.startEnded.get g = s.converting.get g := logged_get s.converting _ _ g

theorem startEnded_mode (s : State) : s.startEnded.mode = s.mode :=
  (startEnded_get s MD_ST_MODE).trans (converting_get s MD_ST_MODE (by decide +kernel))

theorem converting_refrdy (s : State) : s.converting.get HK_ST_REFRDY = 1 :=
  ((startAxes_frame _).get HK_ST_REFRDY (by decide +kernel)).trans (refReady_refrdy s)

/-- The mode's registers and REFRDY as LOAD is entered. -/
theorem loadEntered_shown (s : State) :
    s.loadEntered.get MD_ST_MODE = 2 ∧ s.loadEntered.get MD_ST_PREV = s.mode % 16 ∧ s.loadEntered.get MD_EVT_CHANGE = 1 ∧
      s.loadEntered.get HK_ST_REFRDY = s.get HK_ST_REFRDY := by
  have hmode : (serialFor s 2).mode = s.mode := serialFor_mode s 2
  unfold State.loadEntered
  dsimp only
  rw [hmode]
  refine ⟨?_, ?_, State.get_event_same _ _ (by decide) rfl, ?_⟩
  · exact (State.get_event_ne _ _ _ (by decide) (by decide)).trans (State.get_set_same _ _ _ (by decide))
  · exact (State.get_event_ne _ _ _ (by decide) (by decide)).trans ((State.get_set_ne _ _ _ _ (by decide) (by decide)).trans (State.get_set_same _ _ _ (by decide)))
  · exact (State.get_event_ne _ _ _ (by decide) (by decide)).trans ((State.get_set_ne _ _ _ _ (by decide) (by decide)).trans
      ((State.get_set_ne _ _ _ _ (by decide) (by decide)).trans ((serialFor_frame s 2).get _ (by decide))))

theorem loadEntered_kept (s : State) : besideLoad s.loadEntered = besideLoad (s.modModes fun x => { x with at_ := s.pwr.ticks }) := by
  have hserial := (serialFor_frame s 2).kept
  have hticks : (serialFor s 2).pwr.ticks = s.pwr.ticks := ticks_of_besideLoad hserial
  have hat : besideLoad s.loadEntered = besideLoad ((serialFor s 2).modModes fun x => { x with at_ := (serialFor s 2).pwr.ticks }) := rfl
  rw [hat, hticks]
  exact besideLoad_modModes hserial _

/-- The end of START leaves what `besideLoad` shows as `loadReady` has it, with LOAD entered now. -/
theorem startEnd_kept (s : State) : besideLoad (abandonBarred s.startEnded.loadEntered) = besideLoad (s.loadReady.modModes fun x => { x with at_ := s.pwr.ticks }) := by
  have hready := startEnded_kept s
  have hticks : s.startEnded.pwr.ticks = s.pwr.ticks := (ticks_of_besideLoad hready).trans rfl
  rw [(abandonBarred_kept _).1, loadEntered_kept, hticks]
  exact besideLoad_modModes hready _

section
variable {s t : State} (h : besideLoad t = besideLoad s)
include h

theorem rest_of_besideLoad :
    { t with regs := s.regs, pwr := s.pwr, hk := s.hk, axes := s.axes, slots := s.slots, cal := s.cal, aux := s.aux, fresh := s.fresh } = s :=
  (congrArg (fun x : State => { x with regs := s.regs, pwr := s.pwr, hk := s.hk, axes := s.axes, slots := s.slots, cal := s.cal, aux := s.aux, fresh := s.fresh }) h :)

theorem pwr_of_besideLoad :
    t.pwr = { s.pwr with serialB := t.pwr.serialB, wantB := t.pwr.wantB, twist := t.pwr.twist, calm := t.pwr.calm, lowB := t.pwr.lowB } :=
  (congrArg (fun x : State => { x.pwr with serialB := t.pwr.serialB, wantB := t.pwr.wantB, twist := t.pwr.twist, calm := t.pwr.calm, lowB := t.pwr.lowB }) h :)

theorem units_of_besideLoad : t.modes = s.modes ∧ t.tally = s.tally ∧ t.flash = s.flash :=
  ⟨(congrArg State.modes h :), (congrArg State.tally h :), (congrArg State.flash h :)⟩

end

/-- LOAD with the converters released, the run logged and the key-probe window open, entered now. -/
def State.loadBegun (s : State) : State := s.loadReady.modModes fun x => { x with at_ := s.pwr.ticks }

theorem loadBegun_rest {s t : State} (h : besideLoad t = besideLoad s.loadBegun) :
    { t with regs := s.regs, pwr := s.pwr, hk := s.hk, axes := s.axes, slots := s.slots, flash := s.flash, tally := s.tally, modes := s.modes, cal := s.cal, aux := s.aux, fresh := s.fresh } = s :=
  (congrArg (fun x : State => { x with pwr := s.pwr, flash := s.flash, tally := s.tally, modes := s.modes }) (rest_of_besideLoad h) :)

theorem abandonFields_apart_mode (i : Fin 10) :
    ∀ f ∈ abandonFields i, f.apart MD_ST_MODE ∧ f.apart MD_ST_PREV ∧ f.apart MD_EVT_CHANGE ∧ f.apart HK_ST_REFRDY := by decide +revert

/-- The mode's registers and REFRDY after START. -/
theorem startEnd_shown (s : State) (hmode : s.mode = 1) :
    (abandonBarred s.startEnded.loadEntered).get MD_ST_MODE = 2 ∧ (abandonBarred s.startEnded.loadEntered).get MD_ST_PREV = 1 ∧
      (abandonBarred s.startEnded.loadEntered).get MD_EVT_CHANGE = 1 ∧ (abandonBarred s.startEnded.loadEntered).get HK_ST_REFRDY = 1 := by
  obtain ⟨hload, hprev, hchange, hrefrdy⟩ := loadEntered_shown s.startEnded
  obtain ⟨-, hget⟩ := abandonBarred_kept s.startEnded.loadEntered
  refine ⟨?_, ?_, ?_, ?_⟩
  · rw [hget _ fun i f hf => (abandonFields_apart_mode i f hf).1, hload]
  · rw [hget _ fun i f hf => (abandonFields_apart_mode i f hf).2.1, hprev, startEnded_mode, hmode]
  · rw [hget _ fun i f hf => (abandonFields_apart_mode i f hf).2.2.1, hchange]
  · rw [hget _ fun i f hf => (abandonFields_apart_mode i f hf).2.2.2, hrefrdy, startEnded_get, converting_refrdy]

/-- What the three ways that START begins have in common: START runs half A, whose first state is that of `startState_begun`. -/
theorem StartBegun.claims {cause : Nat} {s t : State} (h : StartBegun cause s t) :
    t.pwr.phase = .running ∧ t.pwr.booted = true ∧ t.flash.run = (s.flash.run + 1) % 2 ^ 32 ∧ t.get ID_RUN_RUN = (s.flash.run + 1) % 2 ^ 32 ∧
      t.get HK_CTL_REFEN = 1 ∧ t.mode = 1 ∧ t.keys = s.keys ∧ t.flash.own = s.flash.own ∧ t.flash.comseq = s.flash.comseq ∧ t.pending = s.pending ∧
      t.pwr.released = false ∧ t.pwr.serialB = false ∧ t.pwr.sealed = false ∧ { t.time with acc := 0, y := 0 } = {} ∧
      { t.modes with hot := [], workLost := false } = {} ∧ t.get PWR_ST_MOUNTED = 0 ∧ t.get (CV_ST_NOTSET 0) = 1 ∧ t.get TIME_ST_STATE = 0 ∧
      t.get ID_DOMST_WSTATE = 0 ∧ t.get ID_RSTCAUSE_CAUSE = cause % 256 ∧ t.net.mseq = s.flash.mseqRes ∧
      { t with regs := [], fresh := [], pwr := {}, time := {}, modes := {} } = s.firstState := by
  have hrun : t.flash.run = (s.flash.run + 1) % 2 ^ 32 := by rw [h.flash]
  have hown : t.flash.own = s.flash.own := by rw [h.flash]
  have hseq : t.flash.comseq = s.flash.comseq := by rw [h.flash]
  exact ⟨h.phase, h.booted, hrun, h.run, h.refen, h.mode, h.keys, hown, hseq, h.pending, h.released, h.serialB, h.isOpen, h.time, h.modes, h.unmounted, h.notset,
    h.timeState, h.work, h.cause, h.mseq, h.beside⟩

/-- The first state of START after an orderly restart, whose state u agrees with s in what the restart keeps. -/
theorem StartBegun.orderly {cause : Nat} {s u t : State} (h : StartBegun cause u t) (hkept : restartKept u = restartKept s) (hlasting : lasting u = lasting s) :
    t.keys = s.keys ∧ t.pending = s.pending ∧
      t.flash = { s.flash with run := (s.flash.run + 1) % 2 ^ 32, trialBooted := false, mseqRes := t.flash.mseqRes } ∧
      { t with regs := [], fresh := [], pwr := {}, time := {}, modes := {} } = { State.reset with flash := { s.flash with run := (s.flash.run + 1) % 2 ^ 32, trialBooted := false, mseqRes := t.flash.mseqRes }, keys := s.keys, drive := { storedFreq := s.drive.storedFreq }, hk := { seq := hkSeqReset }, slots := Vector.ofFn fun i => { rate := grRateReset i }, net := { mseq := t.flash.mseqRes }, free := t.free, pending := s.pending } := by
  have hres : t.flash.mseqRes = u.flash.mseqRes := by rw [h.flash]
  have hfree : t.free = u.free := (congrArg State.free h.beside :)
  have hbeside := h.beside.trans (firstState_of_kept hkept hlasting)
  rw [← hres, ← hfree] at hbeside
  exact ⟨h.keys.trans (congrArg Lasting.keys hlasting), h.pending.trans (congrArg Lasting.queue hlasting), (congrArg State.flash hbeside :), hbeside⟩

/-- Settles O8: START with half A verified starts every unit at reset beside the flash, the keys and what the power cycle keeps; an orderly restart first closes and sends
its publications, which moves the reserved MSEQ alone; the end of START releases the converters, logs the run and enters LOAD. -/
theorem startRunsTheActiveFirmwareAndCountsTheRun : Obligations.StartRunsTheActiveFirmwareAndCountsTheRun := by
  unfold Obligations.StartRunsTheActiveFirmwareAndCountsTheRun
  refine ⟨?_, ?_, ?_, ?_⟩
  · intro boot s hphase ht hb hok
    exact ⟨_, exec_inrushEnd s boot hphase, (startState_begun s boot ht hb hok).claims⟩
  · intro boot s hphase ht hb hok
    exact ⟨_, exec_controllerResetRelease s boot hphase, (startState_begun s boot ht hb hok).claims⟩
  · intro boot cause s hlive hrestart ht hb hok
    have hkept := (restartKept_noted (s.drained cause) cause).trans (drained_kept s cause)
    have hlasting := (lasting_noted (s.drained cause) cause).trans (drained_lasting s cause)
    have hcause := startCause_noted (s.drained cause) cause
    refine ⟨_, exec_orderlyRestart_drained s boot cause hlive hrestart, ?_⟩
    revert hkept hlasting hcause
    generalize (s.drained cause).causeNoted cause = u
    intro hkept hlasting hcause
    have hflash := flash_of_restartKept hkept
    have hbegun := startState_begun u boot (by rw [hflash]; exact ht) (by rw [hflash]; exact hb) hok
    have hrun : u.flash.run = s.flash.run := by rw [hflash]
    rw [hcause] at hbegun
    obtain ⟨hkeys, hqueue, hfirst, hbeside⟩ := hbegun.orderly hkept hlasting
    exact ⟨hbegun.phase, hbegun.booted, by rw [hfirst], hrun ▸ hbegun.run, hbegun.refen, hbegun.mode, hkeys, by rw [hfirst], by rw [hfirst], hqueue,
      hbegun.released, hbegun.serialB, hbegun.isOpen, hbegun.time, hbegun.modes, hbegun.unmounted, hbegun.notset, hbegun.timeState, hbegun.work, hbegun.cause,
      hbeside⟩
  · intro s hlive hmode hheld
    obtain ⟨hload, hprev, hchange, hrefrdy⟩ := startEnd_shown s hmode
    have hkept := startEnd_kept s
    refine ⟨abandonBarred s.startEnded.loadEntered, ?_, hload, hprev, hchange, ?_⟩
    · rw [exec_startEnd s hlive hmode hheld, setMode_load _ ((startEnded_mode s).trans hmode)]
    · revert hrefrdy hkept
      generalize abandonBarred s.startEnded.loadEntered = t
      intro hrefrdy hkept
      have hpwr := pwr_of_besideLoad hkept
      obtain ⟨hmodes, htally, hflash⟩ := units_of_besideLoad hkept
      refine ⟨by rw [hpwr]; rfl, by rw [htally]; rfl, hrefrdy, by rw [hflash]; rfl, hmodes, htally, hpwr, loadBegun_rest hkept, by rw [hflash]; rfl⟩

end Sys2Proof.Machine
end

section
/-!
PROOFS. The blocks of the analysis setups (13 R316 to R333): what a discarded block leaves, what a used one makes, and where its outputs go.
-/

namespace Sys2Proof.Machine

/-! ### Setups -/

section
variable (s : State) (n m : Fin 32) (f g : SetupState → SetupState)

theorem modSetup_same : (s.modSetup n f).an.setups[n] = f s.an.setups[n] := Vector.getElem_set_self _

theorem modSetup_ne (h : m ≠ n) : (s.modSetup n f).an.setups[m] = s.an.setups[m] :=
  Vector.getElem_set_ne n.isLt m.isLt fun e => h (Fin.ext e.symm)

end

/-! ### A discarded block (13 R319, R331) -/

/-- An alarm on an output of setup n forgets its counts. -/
def alarmForgot (n : Fin 32) (a : AlarmState) : AlarmState := if tagOf a.tags 1 0 / 256 = n.val then { tags := a.tags } else a

/-- A setup after a discarded block. -/
def SetupState.discarded (x : SetupState) (again : Bool) : SetupState := { x with again := again && x.func == 2, vel := if again then {} else x.vel }

/-- From s to t a block of setup n was discarded, which counts and leaves the setup as y. -/
structure BlockDiscarded (n : Fin 32) (y : SetupState) (s t : State) : Prop where
  setup : t.an.setups[n] = y
  others : ∀ m : Fin 32, m ≠ n → t.an.setups[m] = s.an.setups[m]
  alarms : ∀ a : Fin 32, t.an.alarms[a] = alarmForgot n s.an.alarms[a]
  features : t.an.features = s.an.features
  skips : t.get (AN_SET_SKIP n) = min 255 (s.get (AN_SET_SKIP n) + 1)
  event : t.get AN_EVT_SKIP = 1
  rest : { t with regs := s.regs, an := s.an, fresh := s.fresh } = s
  regs : sameBut [AN_SET_SKIP n, AN_EVT_SKIP] s t

/-- The skip of a block of setup n counts and sets its event. -/
def State.skipCounted (s : State) (n : Fin 32) : State := (s.bump (AN_SET_SKIP n) 1).event AN_EVT_SKIP

theorem skipCounted_regs (s : State) (n : Fin 32) : sameBut [AN_SET_SKIP n, AN_EVT_SKIP] s (s.skipCounted n) :=
  sameBut_trans (sameBut_bump _ _ _ _ (by simp [AN_SET_SKIP]) (by simp)) (sameBut_event _ _ _ (by decide) (by simp))

theorem skipCounted_skips (s : State) (n : Fin 32) : (s.skipCounted n).get (AN_SET_SKIP n) = min 255 (s.get (AN_SET_SKIP n) + 1) := by
  have hcount := State.get_bump_same s (AN_SET_SKIP n) 1 (by simp [AN_SET_SKIP])
  have hapart : AN_EVT_SKIP.apart (AN_SET_SKIP n) := .inl (by simp only [AN_EVT_SKIP, AN_SET_SKIP]; omega)
  rw [State.skipCounted, State.get_event_ne _ _ _ (by decide) hapart, hcount, Nat.min_comm]
  rfl

theorem skipCounted_event (s : State) (n : Fin 32) : (s.skipCounted n).get AN_EVT_SKIP = 1 := State.get_event_same _ _ (by decide) rfl

theorem discardBlock_eq (s : State) (n : Fin 32) (again : Bool) :
    discardBlock s n again =
      { s.skipCounted n with
        an := { s.an with setups := s.an.setups.set n (s.an.setups[n].discarded again), alarms := s.an.alarms.map (alarmForgot n) } } := (rfl)

theorem discardBlock_discarded (s : State) (n : Fin 32) (again : Bool) : BlockDiscarded n (s.an.setups[n].discarded again) s (discardBlock s n again) := by
  rw [discardBlock_eq]
  constructor
  case setup => exact Vector.getElem_set_self n.isLt
  case others => exact fun m hm => Vector.getElem_set_ne n.isLt m.isLt fun e => hm (Fin.ext e.symm)
  case alarms => exact fun a => Vector.getElem_map _ a.isLt
  case features => rfl
  case skips => exact skipCounted_skips s n
  case event => exact skipCounted_event s n
  case rest => rfl
  case regs => exact skipCounted_regs s n

/-- The same where the setup changed before. -/
theorem BlockDiscarded.of_modSetup {n : Fin 32} {y : SetupState} {s t : State} {f : SetupState → SetupState} (h : BlockDiscarded n y (s.modSetup n f) t) :
    BlockDiscarded n y s t :=
  ⟨h.setup, fun m hm => (h.others m hm).trans (modSetup_ne s n m f hm), h.alarms, h.features, h.skips, h.event,
    congrArg (fun x : State => { x with an := s.an }) h.rest, h.regs⟩

theorem spoilBlock_discarded (s : State) (n : Fin 32) (k : Nat) (gap : Bool) :
    BlockDiscarded n ((s.an.setups[n].skipTo (s.an.setups[n].hist.drop (if gap then k else k + 1))).discarded true) s (spoilBlock s n k gap) := by
  have h := discardBlock_discarded (s.modSetup n fun x => x.skipTo (x.hist.drop (if gap then k else k + 1))) n true
  rw [modSetup_same] at h
  exact h.of_modSetup

theorem restartBlock_discarded (s : State) (n : Fin 32) (t : Nat) :
    BlockDiscarded n ((s.an.setups[n].skipTo (s.an.setups[n].hist.dropWhile fun y => decide (y.t < t))).discarded true) s (restartBlock s n t) := by
  have h := discardBlock_discarded (s.modSetup n fun x => x.skipTo (x.hist.dropWhile fun y => decide (y.t < t))) n true
  rw [modSetup_same] at h
  exact h.of_modSetup

/-- A setup whose whole block of k records is dropped; the filter of a velocity setup has run over it. -/
def SetupState.dropped (x : SetupState) (r : Nat) : SetupState := { x.skipTo (x.hist.drop (x.need r)) with vel := x.passed r (x.need r) }

theorem dropBlock_discarded (s : State) (n : Fin 32) (again : Bool) :
    BlockDiscarded n ((s.an.setups[n].dropped s.slots[s.an.setups[n].slot].rate).discarded again) s (dropBlock s n again) := by
  have h := discardBlock_discarded (s.modSetup n fun x => x.dropped s.slots[s.an.setups[n].slot].rate) n again
  rw [modSetup_same] at h
  exact h.of_modSetup

/-- The branches of a block that completes: spoilt by its own records, by slot 11's angle, or by its peer, or whole. -/
theorem completeBlock_spoilt {s : State} {n : Fin 32} {k : Nat} {gap : Bool}
    (h : blockCause (tagOf s.an.setups[n].tags 9 0 == 1) none (s.an.setups[n].reach s.slots[s.an.setups[n].slot].rate) 0 = some (k, gap)) :
    completeBlock s n = spoilBlock s n k gap := by
  unfold completeBlock
  dsimp only
  rw [h]

theorem exec_anEvaluation {s : State} {n : Fin 32} (h : setupRuns s n = true) : exec (.anEvaluation n) s = .next (completeBlock s n) := by
  change execAnEvaluation n s = _
  rw [execAnEvaluation, if_pos h]

/-- No cause among the records of setup n's slot discards its next block. -/
def recordsGood (s : State) (n : Fin 32) : Prop :=
  blockCause (tagOf s.an.setups[n].tags 9 0 == 1) none (s.an.setups[n].reach s.slots[s.an.setups[n].slot].rate) 0 = none

section
variable {s : State} {n : Fin 32} (hgood : recordsGood s n)
include hgood

theorem completeBlock_angleSpoilt {w : Nat} (h : s.an.setups[n].angleSpoilt = some w) : completeBlock s n = restartBlock s n w := by
  unfold completeBlock
  dsimp only
  rw [show blockCause (tagOf s.an.setups[n].tags 9 0 == 1) none (s.an.setups[n].reach s.slots[s.an.setups[n].slot].rate) 0 = none from hgood, h]

variable (hangle : s.an.setups[n].angleSpoilt = none) (hpeer : s.an.setups[n].peerSpoilt s.slots[s.an.setups[n].slot].rate = none)
include hangle hpeer

theorem completeBlock_waits (hshort : s.an.setups[n].hist.length < s.an.setups[n].need s.slots[s.an.setups[n].slot].rate) : completeBlock s n = s := by
  unfold completeBlock
  dsimp only
  rw [show blockCause (tagOf s.an.setups[n].tags 9 0 == 1) none (s.an.setups[n].reach s.slots[s.an.setups[n].slot].rate) 0 = none from hgood, hangle, hpeer]
  exact if_pos hshort

variable (hlong : s.an.setups[n].need s.slots[s.an.setups[n].slot].rate ≤ s.an.setups[n].hist.length) (hfunc : s.an.setups[n].func ≠ 7)
include hlong hfunc

theorem completeBlock_again (hagain : s.an.setups[n].again = true) : completeBlock s n = dropBlock s n false := by
  unfold completeBlock
  dsimp only
  rw [show blockCause (tagOf s.an.setups[n].tags 9 0 == 1) none (s.an.setups[n].reach s.slots[s.an.setups[n].slot].rate) 0 = none from hgood, hangle, hpeer]
  dsimp only
  rw [if_neg (by omega), if_neg (fun h => hfunc h.1), if_pos hagain]

/-- A setup whose next block starts a hop on. -/
def State.hopped (u : State) (n : Fin 32) (x : SetupState) : State :=
  u.modSetup n fun y => { y with hist := x.hist, vel := x.vel, angle := x.angle, peer := x.peer, bads := x.bads }

theorem completeBlock_used {b : HistRec} (hagain : s.an.setups[n].again = false)
    (hlast : (s.an.setups[n].block s.slots[s.an.setups[n].slot].rate).getLast? = some b) :
    completeBlock s n = (useBlock s n b).hopped n (s.an.setups[n].hop s.slots[s.an.setups[n].slot].rate) := by
  unfold completeBlock
  dsimp only
  rw [show blockCause (tagOf s.an.setups[n].tags 9 0 == 1) none (s.an.setups[n].reach s.slots[s.an.setups[n].slot].rate) 0 = none from hgood, hangle, hpeer]
  dsimp only
  rw [if_neg (by omega), if_neg (fun h => hfunc h.1), if_neg (by rw [hagain]; exact Bool.false_ne_true), hlast]
  rfl

end

theorem angleSpoilt_none {x : SetupState} (h : x.func ≠ 6) : x.angleSpoilt = none := if_pos (.inl h)

/-! ### The features of an evaluation (13 R328, R338) -/

theorem keepFeature_find_same (l : List FeatEntry) (e : FeatEntry) : (keepFeature l e).find? (fun x => x.fid == e.fid) = some e := by
  simp [keepFeature]

theorem keepFeature_find_ne (l : List FeatEntry) (e : FeatEntry) (k : Nat) (h : e.fid ≠ k) :
    (keepFeature l e).find? (fun x => x.fid == k) = l.find? (fun x => x.fid == k) := by
  rw [keepFeature, List.find?_cons_of_neg (by simpa using h), List.find?_filter]
  refine congrArg (fun p => List.find? p l) (funext fun x => ?_)
  by_cases hx : x.fid = k
  · simp [hx, Ne.symm h]
  · simp [hx]

/-- The latest record of a feature after records of which e alone is of that feature. -/
theorem keepFeatures_find (l fs : List FeatEntry) (e : FeatEntry) (honly : ∀ x ∈ l, x.fid = e.fid → x = e)
    (hmem : e ∈ l ∨ fs.find? (fun x => x.fid == e.fid) = some e) : (l.foldl keepFeature fs).find? (fun x => x.fid == e.fid) = some e := by
  induction l generalizing fs with
  | nil => exact hmem.resolve_left (by simp)
  | cons x l ih =>
    refine ih (keepFeature fs x) (fun y hy => honly y (by simp [hy])) ?_
    by_cases hx : x.fid = e.fid
    · obtain rfl := honly x (by simp) hx
      exact .inr (keepFeature_find_same fs x)
    · rw [keepFeature_find_ne fs x e.fid hx]
      refine hmem.imp_left fun hin => (List.mem_cons.1 hin).resolve_left ?_
      rintro rfl
      exact hx rfl

theorem keepFeatures_mem (l fs : List FeatEntry) (e : FeatEntry) (hother : ∀ x ∈ l, x.fid ≠ e.fid) (hmem : e ∈ fs) : e ∈ l.foldl keepFeature fs := by
  induction l generalizing fs with
  | nil => exact hmem
  | cons x l ih =>
    refine ih (keepFeature fs x) (fun y hy => hother y (by simp [hy])) ?_
    simp [keepFeature, hmem, Ne.symm (hother x (by simp))]

/-- The record of output j of setup n for the block that completes, whose last record is b. -/
def blockFeature (s : State) (n : Fin 32) (b : HistRec) (j : Nat) : FeatEntry :=
  featureOf n b (s.an.setups[n].block s.slots[s.an.setups[n].slot].rate).length (quality s.an.setups[n] s.slots[s.an.setups[n].slot].rate) j (outputValues s n j)

theorem blockFeature_fid (s : State) (n : Fin 32) (b : HistRec) (j : Nat) : (blockFeature s n b j).fid = n.val * 256 + j := rfl

theorem blockFeatures_find (s : State) (n : Fin 32) (b : HistRec) (l : List Nat) (fs : List FeatEntry) (j : Nat) (hj : j ∈ l) :
    ((l.map (blockFeature s n b)).foldl keepFeature fs).find? (fun e => e.fid == n.val * 256 + j) = some (blockFeature s n b j) := by
  refine keepFeatures_find _ fs (blockFeature s n b j) ?_ (.inl (List.mem_map_of_mem hj))
  intro x hx hfid
  obtain ⟨i, -, rfl⟩ := List.mem_map.1 hx
  rw [blockFeature_fid, blockFeature_fid] at hfid
  rw [show i = j by omega]

theorem blockFeatures_mem (s : State) (n : Fin 32) (b : HistRec) (l : List Nat) (fs : List FeatEntry) (e : FeatEntry) (hl : ∀ j ∈ l, j < 256)
    (he : e.fid / 256 ≠ n.val) (hmem : e ∈ fs) : e ∈ (l.map (blockFeature s n b)).foldl keepFeature fs := by
  refine keepFeatures_mem _ fs e ?_ hmem
  intro x hx hfid
  obtain ⟨j, hj, rfl⟩ := List.mem_map.1 hx
  have hlt := hl j hj
  rw [blockFeature_fid] at hfid
  omega

/-! ### A used block (13 R328 to R332) -/

/-- What setup n keeps of a used block where its averages are not linear: its lines and its scalars' averages. -/
def SetupState.counted (x : SetupState) (lines : List Line) (means : List (Nat × Int)) : SetupState := { x with used := 0, avg := lines, means := means }

/-- The evaluation of setup n counts, and its records l are the latest of their features. -/
def State.evaluated (s : State) (n : Fin 32) (y : SetupState) (l : List FeatEntry) : State :=
  { s with an := { s.an with setups := s.an.setups.set n y, features := l.foldl keepFeature s.an.features } }.set (AN_EVAL n) (s.get (AN_EVAL n) + 1)

/-- The outputs of a setup that are due where its averages are not linear. -/
def SetupState.outputs (x : SetupState) : List Nat := scalarOutputs x.tags ++ vectorOutputs x.tags

/-- The lines that setup n keeps. -/
def keptLines (s : State) (n : Fin 32) : List Line := if tagOf s.an.setups[n].tags 7 0 = 0 then [] else averagedLines s n

theorem oweRestart_none (s : State) (proc : Nat) (h : (if proc = 0 then s.an.owes0 else s.an.owes1) = false) : oweRestart s proc = s := by
  rw [oweRestart, h]
  rfl

theorem useBlock_evaluated {s : State} {n : Fin 32} {b : HistRec} (hmode : tagOf s.an.setups[n].tags 7 0 ≠ 1)
    (howe : (if s.an.setups[n].proc = 0 then s.an.owes0 else s.an.owes1) = false) (hsome : s.an.setups[n].outputs ≠ []) :
    let x := s.an.setups[n]
    let l := x.outputs.map (blockFeature s n b)
    useBlock s n b = feedAlarms (routeOutputs (publishOutputs (s.evaluated n (x.counted (keptLines s n) (nextMeans s n)) l) n x l) n x
      (quality x s.slots[x.slot].rate) l) x b l := by
  have hfull : (tagOf s.an.setups[n].tags 7 0 != 1 || decide (tagOf s.an.setups[n].tags 8 1 ≤ s.an.setups[n].used + 1)) = true := by
    rw [bne_iff_ne.2 hmode, Bool.true_or]
  have hdue : (scalarOutputs s.an.setups[n].tags ++ vectorOutputs s.an.setups[n].tags).filter (fun j => outputDue s.an.setups[n] j true) =
      s.an.setups[n].outputs := List.filter_eq_self.2 fun j _ => by simp [outputDue]
  have hlinear : ¬ (tagOf s.an.setups[n].tags 7 0 = 1 ∧ true = true) := fun h => hmode h.1
  have hkept : (if tagOf s.an.setups[n].tags 7 0 = 0 ∨ (tagOf s.an.setups[n].tags 7 0 = 1 ∧ true = true) then [] else averagedLines s n) = keptLines s n := by
    simp only [keptLines, hmode, false_and, or_false]
  have hlist : ¬ (s.an.setups[n].outputs.map (blockFeature s n b)).isEmpty = true := by
    rw [List.isEmpty_iff, List.map_eq_nil_iff]
    exact hsome
  unfold useBlock
  dsimp only
  rw [hfull, hdue, hkept, if_neg hlinear]
  refine (if_neg hlist).trans ?_
  rw [oweRestart_none]
  · rfl
  · exact howe

/-- The next block of setup n is whole and used, b is its last record, its averages are not linear, and its processor owes no Blaze of a restart. -/
structure BlockUsed (s : State) (n : Fin 32) (b : HistRec) : Prop where
  runs : setupRuns s n = true
  good : recordsGood s n
  angle : s.an.setups[n].angleSpoilt = none
  peer : s.an.setups[n].peerSpoilt s.slots[s.an.setups[n].slot].rate = none
  long : s.an.setups[n].need s.slots[s.an.setups[n].slot].rate ≤ s.an.setups[n].hist.length
  first : s.an.setups[n].again = false
  last : (s.an.setups[n].block s.slots[s.an.setups[n].slot].rate).getLast? = some b
  mode : tagOf s.an.setups[n].tags 7 0 ≠ 1
  owes : (if s.an.setups[n].proc = 0 then s.an.owes0 else s.an.owes1) = false

/-- The records of the outputs of setup n's next block. -/
def blockFeatures (s : State) (n : Fin 32) (b : HistRec) : List FeatEntry := s.an.setups[n].outputs.map (blockFeature s n b)

/-- The module with setup n's next block evaluated, before its outputs go anywhere. -/
def State.blockEvaluated (s : State) (n : Fin 32) (b : HistRec) : State :=
  s.evaluated n (s.an.setups[n].counted (keptLines s n) (nextMeans s n)) (blockFeatures s n b)

/-- The outputs of setup n's next block go where its route says (13 R329), from state u. -/
def State.blockRouted (s u : State) (n : Fin 32) (b : HistRec) : State :=
  routeOutputs (publishOutputs u n s.an.setups[n] (blockFeatures s n b)) n s.an.setups[n]
    (quality s.an.setups[n] s.slots[s.an.setups[n].slot].rate) (blockFeatures s n b)

theorem BlockUsed.exec {s : State} {n : Fin 32} {b : HistRec} (h : BlockUsed s n b) (hfunc : s.an.setups[n].func ≠ 7) (hsome : s.an.setups[n].outputs ≠ []) :
    exec (.anEvaluation n) s =
      .next ((feedAlarms (s.blockRouted (s.blockEvaluated n b) n b) s.an.setups[n] b (blockFeatures s n b)).hopped n
        (s.an.setups[n].hop s.slots[s.an.setups[n].slot].rate)) := by
  rw [exec_anEvaluation h.runs, completeBlock_used h.good h.angle h.peer h.long hfunc h.first h.last]
  exact congrArg (fun u : State => Host.Outcome.next (u.hopped n (s.an.setups[n].hop s.slots[s.an.setups[n].slot].rate)))
    (useBlock_evaluated h.mode h.owes hsome)

section
variable {s u : State} {n : Fin 32} {b : HistRec}

theorem blockRouted_nowhere (h0 : s.an.setups[n].route.testBit 0 = false) (h1 : s.an.setups[n].route.testBit 1 = false)
    (h2 : s.an.setups[n].route.testBit 2 = false) : s.blockRouted u n b = u := by
  unfold State.blockRouted publishOutputs routeOutputs
  simp only [h0, h1, h2, Bool.not_false, Bool.false_and, Bool.false_eq_true, true_or, if_true, if_false]

/-- No alarm is defined. -/
theorem feedAlarms_undefined {x : SetupState} {l : List FeatEntry} (h : ∀ a : Fin 32, u.an.alarms[a].tags = []) : feedAlarms u x b l = u := by
  unfold feedAlarms
  split
  · rfl
  · refine List.foldlRecOn (List.finRange 32) _ (motive := fun t => t = u) rfl fun t ht a _ => ?_
    subst ht
    exact if_pos (by rw [h a]; rfl)

/-- Before REARM no alarm is fed (13 R333). -/
theorem feedAlarms_early {x : SetupState} {l : List FeatEntry} (h : b.t < u.an.released + u.get AN_CFG_REARM * 8000000000) : feedAlarms u x b l = u := if_pos h

end

/-! ### The evaluation's own effect -/

section
variable (s : State) (n : Fin 32) (b : HistRec)

theorem eval_ok : (AN_EVAL n).ok := by simp [AN_EVAL]

theorem blockEvaluated_regs : sameBut [AN_EVAL n] s (s.blockEvaluated n b) := sameBut_set _ _ _ _ (eval_ok n) (by simp)

theorem blockEvaluated_count : (s.blockEvaluated n b).get (AN_EVAL n) = (s.get (AN_EVAL n) + 1) % 2 ^ 32 := State.get_set_same _ _ _ (eval_ok n)

theorem blockEvaluated_rest : { s.blockEvaluated n b with regs := s.regs, an := s.an, fresh := s.fresh } = s := rfl

theorem blockEvaluated_get (g : Field) (h : (AN_EVAL n).apart g) : (s.blockEvaluated n b).get g = s.get g := State.get_set_ne _ _ _ _ (eval_ok n) h

theorem blockEvaluated_other (m : Fin 32) (h : m ≠ n) : (s.blockEvaluated n b).an.setups[m] = s.an.setups[m] :=
  Vector.getElem_set_ne n.isLt m.isLt fun e => h (Fin.ext e.symm)

theorem blockEvaluated_setup : (s.blockEvaluated n b).an.setups[n] = s.an.setups[n].counted (keptLines s n) (nextMeans s n) := Vector.getElem_set_self n.isLt

theorem blockEvaluated_features : (s.blockEvaluated n b).an.features = (blockFeatures s n b).foldl keepFeature s.an.features := rfl

theorem blockEvaluated_alarms : (s.blockEvaluated n b).an.alarms = s.an.alarms := rfl

end

/-! ### The functions' outputs (13 R321) -/

theorem outputs_of_func_one {x : SetupState} (h : x.func = 1) : x.outputs = List.range 5 := by
  have htag : tagOf x.tags 2 0 = 1 := h
  rw [SetupState.outputs, scalarOutputs, vectorOutputs, htag]
  rfl

theorem outputs_of_func_four {x : SetupState} (h : x.func = 4) : x.outputs = [0] := by
  have htag : tagOf x.tags 2 0 = 4 := h
  rw [SetupState.outputs, scalarOutputs, vectorOutputs, htag]
  rfl

section
variable (u : State) (n m : Fin 32) (x : SetupState)

theorem hopped_setup : (u.hopped n x).an.setups[n] =
    { u.an.setups[n] with hist := x.hist, vel := x.vel, angle := x.angle, peer := x.peer, bads := x.bads } := modSetup_same u n _

theorem hopped_other (h : m ≠ n) : (u.hopped n x).an.setups[m] = u.an.setups[m] := modSetup_ne u n m _ h

theorem hopped_features : (u.hopped n x).an.features = u.an.features := rfl

theorem hopped_engines : (u.hopped n x).engines = u.engines := rfl

theorem hopped_tx : (u.hopped n x).tx = u.tx := rfl

theorem hopped_rest {s : State} (h : { u with regs := s.regs, an := s.an, fresh := s.fresh } = s) :
    { u.hopped n x with regs := s.regs, an := s.an, fresh := s.fresh } = s := h

theorem hopped_blaze : (u.hopped n x).blaze = u.blaze := rfl

theorem hopped_restBlaze {s : State} (h : { u with regs := s.regs, an := s.an, blaze := s.blaze, fresh := s.fresh } = s) :
    { u.hopped n x with regs := s.regs, an := s.an, blaze := s.blaze, fresh := s.fresh } = s := h

theorem hopped_restEngines {s : State} (h : { u with regs := s.regs, an := s.an, engines := s.engines, free := s.free, fresh := s.fresh } = s) :
    { u.hopped n x with regs := s.regs, an := s.an, engines := s.engines, free := s.free, fresh := s.fresh } = s := h

theorem hopped_get (g : Field) : (u.hopped n x).get g = u.get g := rfl

theorem hopped_regs {l : List Field} {s : State} (h : sameBut l s u) : sameBut l s (u.hopped n x) := h

end

/-- The one element of a list that a test accepts is found. -/
theorem find?_of_unique {α : Type} {l : List α} {p : α → Bool} {a : α} (ha : a ∈ l) (hp : p a = true) (honly : ∀ x ∈ l, p x = true → x = a) :
    l.find? p = some a := by
  cases h : l.find? p with
  | none => exact absurd hp (List.find?_eq_none.1 h a ha)
  | some x => exact congrArg some (honly x (List.mem_of_find?_eq_some h) (List.find?_some h))

section
variable {s u : State} {n : Fin 32} {b : HistRec}

/-- An output's record among those of its evaluation. -/
theorem blockFeatures_findFid {j : Nat} (hj : j ∈ s.an.setups[n].outputs) :
    (blockFeatures s n b).find? (fun e => e.fid == n.val * 256 + j) = some (blockFeature s n b j) := by
  refine find?_of_unique (List.mem_map_of_mem hj) (beq_self_eq_true _) fun x hx hfid => ?_
  obtain ⟨i, -, rfl⟩ := List.mem_map.1 hx
  have hsame : n.val * 256 + i = n.val * 256 + j := beq_iff_eq.1 hfid
  rw [show i = j by omega]

/-- The value of an output of a setup whose outputs' indices are below 256. -/
theorem blockFeatures_findIndex {j : Nat} (hj : j ∈ s.an.setups[n].outputs) (hlt : ∀ i ∈ s.an.setups[n].outputs, i < 256) :
    (blockFeatures s n b).find? (fun e => e.fid % 256 == j) = some (blockFeature s n b j) := by
  have hindex (i : Nat) (hi : i < 256) : (blockFeature s n b i).fid % 256 = i := by rw [blockFeature_fid]; omega
  refine find?_of_unique (List.mem_map_of_mem hj) (beq_iff_eq.2 (hindex j (hlt j hj))) fun x hx hfid => ?_
  obtain ⟨i, hi, rfl⟩ := List.mem_map.1 hx
  rw [beq_iff_eq, hindex i (hlt i hi)] at hfid
  rw [hfid]

/-- The records of the five features of a statistics setup after its evaluation. -/
theorem statisticsFeatures_find (hfunc : s.an.setups[n].func = 1) (hu : u.an.features = (blockFeatures s n b).foldl keepFeature s.an.features) (j : Fin 5) :
    u.an.features.find? (fun e => e.fid == n.val * 256 + j.val) = some (blockFeature s n b j) := by
  rw [hu]
  exact blockFeatures_find s n b _ _ j (by rw [outputs_of_func_one hfunc]; exact List.mem_range.2 j.isLt)

end

/-! ### Trends and the route to an engine (13 R329, R330) -/

/-- An output of an evaluation joins its trend. -/
def trendJoin (q : Nat) (l : List FeatEntry) (p : Nat × Trend) : Trend :=
  (((l.find? fun e => e.fid % 256 == p.1).map fun e => (e.values.headD 0).toNat).map fun v => p.2.add v q).getD p.2

/-- The scalars of setup n join its trends. -/
def State.trended (u : State) (n : Fin 32) (x : SetupState) (q : Nat) (l : List FeatEntry) : State :=
  u.modSetup n fun y => { y with trends := ((scalarOutputs x.tags).zip y.trends).map (trendJoin q l) }

section
variable {s u : State} {n : Fin 32} {b : HistRec}

theorem blockRouted_trended (h0 : s.an.setups[n].route.testBit 0 = false) (h1 : s.an.setups[n].route.testBit 1 = true)
    (h2 : s.an.setups[n].route.testBit 2 = false) :
    s.blockRouted u n b = u.trended n s.an.setups[n] (quality s.an.setups[n] s.slots[s.an.setups[n].slot].rate) (blockFeatures s n b) := by
  unfold State.blockRouted publishOutputs routeOutputs
  simp only [h0, h1, h2, Bool.not_false, Bool.not_true, Bool.false_and, Bool.false_eq_true, true_or, if_true, if_false]
  rfl

theorem trendJoin_statistics (hfunc : s.an.setups[n].func = 1) (q j : Nat) (hj : j < 5) (p : Trend) :
    trendJoin q (blockFeatures s n b) (j, p) = p.add ((outputValues s n j).headD 0).toNat q := by
  have houts := outputs_of_func_one hfunc
  unfold trendJoin
  rw [blockFeatures_findIndex (by rw [houts]; exact List.mem_range.2 hj) (by rw [houts]; exact fun i hi => by have := List.mem_range.1 hi; omega)]
  rfl

theorem scalarOutputs_of_func_one {x : SetupState} (h : x.func = 1) : scalarOutputs x.tags = [0, 1, 2, 3, 4] := by
  have htag : tagOf x.tags 2 0 = 1 := h
  simp only [scalarOutputs, htag]

/-- The five trends of a statistics setup each take their output. -/
theorem trended_statistics {t0 t1 t2 t3 t4 : Trend} (hfunc : s.an.setups[n].func = 1) (hu : u.an.setups[n].trends = [t0, t1, t2, t3, t4]) (q : Nat) :
    (u.trended n s.an.setups[n] q (blockFeatures s n b)).an.setups[n].trends =
      [t0.add ((outputValues s n 0).headD 0).toNat q, t1.add ((outputValues s n 1).headD 0).toNat q, t2.add ((outputValues s n 2).headD 0).toNat q,
        t3.add ((outputValues s n 3).headD 0).toNat q, t4.add ((outputValues s n 4).headD 0).toNat q] := by
  have htrends := congrArg SetupState.trends
    (modSetup_same u n fun y => { y with trends := ((scalarOutputs s.an.setups[n].tags).zip y.trends).map (trendJoin q (blockFeatures s n b)) })
  refine htrends.trans ?_
  dsimp only
  rw [hu, scalarOutputs_of_func_one hfunc]
  simp only [List.zip_cons_cons, List.zip_nil_right, List.map_cons, List.map_nil]
  rw [trendJoin_statistics hfunc q 0 (by omega), trendJoin_statistics hfunc q 1 (by omega), trendJoin_statistics hfunc q 2 (by omega),
    trendJoin_statistics hfunc q 3 (by omega), trendJoin_statistics hfunc q 4 (by omega)]

/-- The word that output 0 of a statistics setup writes to its engine. -/
theorem blockRouted_engine (hfunc : s.an.setups[n].func = 1) (h0 : s.an.setups[n].route.testBit 0 = false) (h1 : s.an.setups[n].route.testBit 1 = false)
    (h2 : s.an.setups[n].route.testBit 2 = true) :
    s.blockRouted u n b = txPush u.freeWord.2 (Fin.ofNat 8 (tagOf s.an.setups[n].tags 0xC 0))
      (mapWord s.an.setups[n] ((outputValues s n 0).headD 0).toNat u.freeWord.1) := by
  have houts := outputs_of_func_one hfunc
  have hvalue := blockFeatures_findIndex (b := b) (j := 0) (s := s) (n := n) (by rw [houts]; decide)
    (by rw [houts]; exact fun i hi => by have := List.mem_range.1 hi; omega)
  unfold State.blockRouted publishOutputs routeOutputs
  simp only [h0, h1, h2, Bool.not_false, true_or, if_true, scalarOutputs_of_func_one hfunc, hvalue, Option.map_some]
  rfl

end

/-! ### Feature messages (13 R329, 14 R358, R360) -/

/-- A feature message on both ports. -/
def State.featureSent (u : State) (m : List FeatEntry) : State := message u bothPorts (streamGroupHead u) (featurePay u m) true

/-- The share takes a feature message at once: none waits before it, nor a stream's publication. -/
structure FeatureMay (u : State) (m : List FeatEntry) : Prop where
  live : u.live = true
  key : u.keys.lineKey.isSome = true
  first : u.net.features = []
  streams : streamsWait u = false
  share : shareAllows u bothPorts (messageLen (streamGroupHead u) (featurePay u m)) = true

theorem modNet_features (u : State) (h : u.net.features = []) : (u.modNet fun x => { x with features := [] }) = u := by
  rw [← h]
  rfl

theorem queueFeature_sent {u : State} {m : List FeatEntry} (h : FeatureMay u m) : queueFeature u m = u.featureSent m := by
  have hone : (u.modNet fun x => { x with features := x.features ++ [m] }).net.features = [m] := congrArg (· ++ [m]) h.first
  have hgo : ¬ (!u.live || u.keys.lineKey.isNone || streamsWait u || !shareAllows u bothPorts (messageLen (streamGroupHead u) (featurePay u m))) = true := by
    rw [h.live, Option.isNone_eq_false_iff.2 h.key, h.streams, h.share]
    decide
  unfold queueFeature sendFeature
  dsimp only
  rw [h.first, List.isEmpty_nil, if_pos rfl, hone]
  refine (if_neg hgo).trans ?_
  exact congrArg (fun w : State => message w bothPorts (streamGroupHead u) (featurePay u m) true) (modNet_features u h.first)

/-- The module with the message's two frames in its queues. -/
def State.featureOut (u : State) (m : List FeatEntry) : State :=
  { u.cystad with
    tx := u.tx ++ [u.cyFrame .a (streamGroupHead u) (featurePay u m) true, u.cyFrame .b (streamGroupHead u) (featurePay u m) true] }

theorem featureSent_eq (u : State) (m : List FeatEntry) (h : u.keys.lineKey.isSome = true) : u.featureSent m = u.featureOut m := if_pos h

theorem publishEntries_one (u : State) (l : List FeatEntry) (m k : Nat) (hl : l ≠ []) (hm : l.length ≤ m) : publishEntries u l m (k + 2) = queueFeature u l := by
  have hall : l.take m = l := List.take_of_length_le hm
  have hrest : l.drop m = [] := List.drop_of_length_le hm
  cases l with
  | nil => exact absurd rfl hl
  | cons e l =>
    unfold publishEntries
    rw [hall, hrest]
    rfl

theorem publishEntries_none (u : State) (m k : Nat) : publishEntries u [] m (k + 1) = u := by unfold publishEntries; rfl

/-! The evaluation leaves what a publication reads. -/

section
variable (s : State) (n : Fin 32) (b : HistRec)

theorem eval_apart (g : Field) (h : g.word < 0x1930) : (AN_EVAL n).apart g := .inl (by simp only [AN_EVAL]; omega)

theorem blockEvaluated_getBelow (g : Field) (h : g.word < 0x1930) : (s.blockEvaluated n b).get g = s.get g := blockEvaluated_get s n b g (eval_apart n g h)

theorem streamGroupHead_blockEvaluated : streamGroupHead (s.blockEvaluated n b) = streamGroupHead s := by
  have hip := blockEvaluated_getBelow s n b NET_IP4_ADDR (by decide)
  have hstn := blockEvaluated_getBelow s n b BZ_CFG_STN (by decide)
  have hhi := blockEvaluated_getBelow s n b NET_MAC_HI (by decide)
  have hlo := blockEvaluated_getBelow s n b NET_MAC_LO (by decide)
  have hlink : linkLocal (s.blockEvaluated n b) = linkLocal s := by simp only [linkLocal, clockIdentity, ownMac, hhi, hlo]
  have hown (x : Nat) : ownIp6 (s.blockEvaluated n b) x = ownIp6 s x := by
    unfold ownIp6
    rw [hlink]
    rfl
  unfold streamGroupHead groupHead ipTo overV6 ownIp
  simp only [hip, hstn, hown]
  rfl

theorem featurePay_blockEvaluated (l : List FeatEntry) : featurePay (s.blockEvaluated n b) l = featurePay s l := by
  have hstn := blockEvaluated_getBelow s n b BZ_CFG_STN (by decide)
  have hflash : (s.blockEvaluated n b).flash = s.flash := rfl
  simp only [featurePay, hstn, hflash]

theorem streamsWait_blockEvaluated : streamsWait (s.blockEvaluated n b) = streamsWait s := by
  have hst (k : Fin 16) := blockEvaluated_getBelow s n b (CY_STR_ST k) (by simp only [CY_STR_ST]; omega)
  have hdemand (k : Fin 16) := blockEvaluated_getBelow s n b (CY_STR_DEMAND k) (by simp only [CY_STR_DEMAND]; omega)
  have hnet : (s.blockEvaluated n b).net = s.net := rfl
  simp only [streamsWait, admitted, State.bit, hst, hdemand, hnet]

theorem shareAllows_blockEvaluated (ps : List Port) (m : Nat) : shareAllows (s.blockEvaluated n b) ps m = shareAllows s ps m := by
  have hshare := blockEvaluated_getBelow s n b CY_CFG_SHARE (by decide)
  have hload (p : Port) : shareLoad (s.blockEvaluated n b) p = shareLoad s p := rfl
  simp only [shareAllows, hshare, hload]

theorem cyFrame_blockEvaluated (p : Port) (h : IpHead) (x : Payload) : (s.blockEvaluated n b).cyFrame p h x true = s.cyFrame p h x true := by
  have hword : (s.blockEvaluated n b).word 0x1004 = s.word 0x1004 := State.word_setWord_ne _ _ _ _ (by simp only [AN_EVAL]; omega)
  have hnet : (s.blockEvaluated n b).net = s.net := rfl
  simp only [State.cyFrame, State.cyHead, hword, hnet]

end

theorem setupRuns_live {s : State} {n : Fin 32} (h : setupRuns s n = true) : s.live = true := by
  simp only [setupRuns, Bool.and_eq_true] at h
  obtain ⟨⟨⟨⟨⟨hlive, -⟩, -⟩, -⟩, -⟩, -⟩ := h
  exact hlive

/-- The frames of a feature message are those of before the evaluation. -/
theorem featureOut_blockEvaluated_tx (s : State) (n : Fin 32) (b : HistRec) (m : List FeatEntry) :
    ((s.blockEvaluated n b).featureOut m).tx =
      s.tx ++ [s.cyFrame .a (streamGroupHead s) (featurePay s m) true, s.cyFrame .b (streamGroupHead s) (featurePay s m) true] := by
  rw [State.featureOut, streamGroupHead_blockEvaluated, featurePay_blockEvaluated, cyFrame_blockEvaluated, cyFrame_blockEvaluated]
  rfl

theorem FeatureMay.blockEvaluated {s : State} {m : List FeatEntry} (h : FeatureMay s m) (n : Fin 32) (b : HistRec) : FeatureMay (s.blockEvaluated n b) m where
  live := h.live
  key := h.key
  first := h.first
  streams := (streamsWait_blockEvaluated s n b).trans h.streams
  share := by
    rw [streamGroupHead_blockEvaluated, featurePay_blockEvaluated, shareAllows_blockEvaluated]
    exact h.share

section
variable {s u : State} {n : Fin 32} {b : HistRec}

/-- The records of a statistics setup's five scalars go in one message. -/
theorem blockRouted_published (hfunc : s.an.setups[n].func = 1) (h0 : s.an.setups[n].route.testBit 0 = true) (h1 : s.an.setups[n].route.testBit 1 = false)
    (h2 : s.an.setups[n].route.testBit 2 = false) (hmay : FeatureMay u (blockFeatures s n b)) : s.blockRouted u n b = u.featureSent (blockFeatures s n b) := by
  have hvector : vectorOutputs s.an.setups[n].tags = [] := by
    have htag : tagOf s.an.setups[n].tags 2 0 = 1 := hfunc
    simp only [vectorOutputs, htag]
  have hall : (blockFeatures s n b).filter (fun e => !([] : List Nat).contains (e.fid % 256)) = blockFeatures s n b := List.filter_eq_self.2 fun _ _ => rfl
  have hnone : (blockFeatures s n b).filter (fun e => ([] : List Nat).contains (e.fid % 256)) = [] := List.filter_eq_nil_iff.2 fun _ _ => by simp
  have hlen : (blockFeatures s n b).length = 5 := by rw [blockFeatures, List.length_map, outputs_of_func_one hfunc, List.length_range]
  have hne : blockFeatures s n b ≠ [] := fun h => by rw [h] at hlen; cases hlen
  have hkey : ¬ ((!s.an.setups[n].route.testBit 0) = true ∨ u.keys.lineKey.isNone = true) := by
    rw [h0, Option.isNone_eq_false_iff.2 hmay.key]
    decide
  have hpublished : publishOutputs u n s.an.setups[n] (blockFeatures s n b) = u.featureSent (blockFeatures s n b) := by
    unfold publishOutputs
    rw [if_neg hkey, hvector]
    dsimp only
    rw [hall, hnone, publishEntries_one u _ 35 0 hne (by omega), queueFeature_sent hmay]
    rfl
  unfold State.blockRouted routeOutputs
  simp only [hpublished, h1, h2, Bool.not_false, Bool.false_and, Bool.false_eq_true, if_true, if_false]

/-- The spectrum of a setup whose previous one is still being sent is skipped (13 R329). -/
theorem blockRouted_skipped (hfunc : s.an.setups[n].func = 4) (h0 : s.an.setups[n].route.testBit 0 = true) (h1 : s.an.setups[n].route.testBit 1 = false)
    (h2 : s.an.setups[n].route.testBit 2 = false) (hkey : u.keys.lineKey.isSome = true) (hsending : stillSending u (n.val * 256) = true) :
    s.blockRouted u n b = u.bump (AN_SET_PUBSKIP n) 1 := by
  have hvector : vectorOutputs s.an.setups[n].tags = [0] := by
    have htag : tagOf s.an.setups[n].tags 2 0 = 4 := hfunc
    simp only [vectorOutputs, htag]
  have hlist : blockFeatures s n b = [blockFeature s n b 0] := by rw [blockFeatures, outputs_of_func_four hfunc]; rfl
  have hfid : ([0] : List Nat).contains ((blockFeature s n b 0).fid % 256) = true := by
    rw [blockFeature_fid, show (n.val * 256 + 0) % 256 = 0 by omega]
    rfl
  have hgo : ¬ ((!s.an.setups[n].route.testBit 0) = true ∨ u.keys.lineKey.isNone = true) := by
    rw [h0, Option.isNone_eq_false_iff.2 hkey]
    decide
  have hpublished : publishOutputs u n s.an.setups[n] (blockFeatures s n b) = u.bump (AN_SET_PUBSKIP n) 1 := by
    unfold publishOutputs
    rw [if_neg hgo, hvector, hlist]
    dsimp only
    rw [List.filter_singleton, List.filter_singleton, hfid, Bool.not_true, cond_false, cond_true, List.foldl_cons, List.foldl_nil, blockFeature_fid, Nat.add_zero,
      publishEntries_none, if_pos hsending]
  unfold State.blockRouted routeOutputs
  simp only [hpublished, h1, h2, Bool.not_false, Bool.false_and, Bool.false_eq_true, if_true, if_false]

end

/-- The module with a spectrum of setup n skipped after its evaluation. -/
def State.publicationSkipped (s : State) (n : Fin 32) (b : HistRec) : State := (s.blockEvaluated n b).bump (AN_SET_PUBSKIP n) 1

section
variable (s : State) (n : Fin 32) (b : HistRec)

theorem pubskip_ok : (AN_SET_PUBSKIP n).ok := by simp [AN_SET_PUBSKIP]

theorem blockRouted_evaluatedSkipped (hfunc : s.an.setups[n].func = 4) (h0 : s.an.setups[n].route.testBit 0 = true)
    (h1 : s.an.setups[n].route.testBit 1 = false) (h2 : s.an.setups[n].route.testBit 2 = false) (hkey : s.keys.lineKey.isSome = true)
    (hsending : stillSending s (n.val * 256) = true) : s.blockRouted (s.blockEvaluated n b) n b = s.publicationSkipped n b :=
  blockRouted_skipped hfunc h0 h1 h2 hkey hsending

theorem publicationSkipped_count : (s.publicationSkipped n b).get (AN_SET_PUBSKIP n) = min 255 (s.get (AN_SET_PUBSKIP n) + 1) := by
  rw [State.publicationSkipped, State.get_bump_same _ _ _ (pubskip_ok n), blockEvaluated_getBelow s n b _ (by simp only [AN_SET_PUBSKIP]; omega), Nat.min_comm]
  rfl

theorem publicationSkipped_eval : (s.publicationSkipped n b).get (AN_EVAL n) = (s.get (AN_EVAL n) + 1) % 2 ^ 32 :=
  (State.get_bump_ne _ _ _ _ (pubskip_ok n) (.inl (by simp only [AN_SET_PUBSKIP, AN_EVAL]; omega))).trans (blockEvaluated_count s n b)

theorem publicationSkipped_regs : sameBut [AN_EVAL n, AN_SET_PUBSKIP n] s (s.publicationSkipped n b) :=
  sameBut_trans (sameBut_mono (blockEvaluated_regs s n b) (by simp)) (sameBut_bump _ _ _ _ (pubskip_ok n) (by simp))

theorem publicationSkipped_tx : (s.publicationSkipped n b).tx = s.tx := rfl

theorem publicationSkipped_features : (s.publicationSkipped n b).an.features = (blockFeatures s n b).foldl keepFeature s.an.features := rfl

theorem publicationSkipped_alarms : (s.publicationSkipped n b).an.alarms = s.an.alarms := rfl

theorem publicationSkipped_rest : { s.publicationSkipped n b with regs := s.regs, an := s.an, fresh := s.fresh } = s := rfl

end

/-! ### Alarms (13 R331 to R333) -/

/-- Alarm a takes an evaluation's records. -/
def alarmStep (x : SetupState) (b : HistRec) (l : List FeatEntry) (s : State) (a : Fin 32) : State :=
  let y := s.an.alarms[a]
  if y.tags.isEmpty then s
  else
    match l.find? fun e => e.fid == tagOf y.tags 1 0 with
    | none => s
    | some e => alarmEval s a x.proc x.slot b (e.values.headD 0).toNat

theorem feedAlarms_steps {u : State} {x : SetupState} {b : HistRec} {l : List FeatEntry} (h : u.an.released + u.get AN_CFG_REARM * 8000000000 ≤ b.t) :
    feedAlarms u x b l = (List.finRange 32).foldl (alarmStep x b l) u := if_neg (by omega)

section
variable {x : SetupState} {b : HistRec} {l : List FeatEntry} {u : State} {a : Fin 32}

theorem alarmStep_undefined (h : u.an.alarms[a].tags = []) : alarmStep x b l u a = u := if_pos (by rw [h]; rfl)

theorem alarmStep_watched {e : FeatEntry} (h : u.an.alarms[a].tags ≠ []) (he : l.find? (fun e => e.fid == tagOf u.an.alarms[a].tags 1 0) = some e) :
    alarmStep x b l u a = alarmEval u a x.proc x.slot b (e.values.headD 0).toNat := by
  unfold alarmStep
  dsimp only
  rw [if_neg (by rwa [List.isEmpty_iff]), he]

theorem alarmSteps_undefined (cs : List (Fin 32)) (h : ∀ c ∈ cs, u.an.alarms[c].tags = []) : cs.foldl (alarmStep x b l) u = u := by
  refine List.foldlRecOn cs _ (motive := fun t => t = u) rfl fun t ht c hc => ?_
  subst ht
  exact alarmStep_undefined (h c hc)

/-- Where alarm a alone is defined, and its step leaves the others, only it takes an evaluation. -/
theorem alarmSteps_one (hothers : ∀ c : Fin 32, c ≠ a → u.an.alarms[c].tags = [])
    (hkept : ∀ c : Fin 32, c ≠ a → (alarmStep x b l u a).an.alarms[c] = u.an.alarms[c]) :
    (List.finRange 32).foldl (alarmStep x b l) u = alarmStep x b l u a := by
  obtain ⟨before, after, hsplit⟩ := List.append_of_mem (List.mem_finRange a)
  have hnodup := List.nodup_finRange 32
  rw [hsplit, List.nodup_append] at hnodup
  obtain ⟨-, hafter, hbefore⟩ := hnodup
  have hne (c : Fin 32) (hc : c ∈ before) : c ≠ a := hbefore c hc a (by simp)
  have hne' (c : Fin 32) (hc : c ∈ after) : c ≠ a := fun h => (List.nodup_cons.1 hafter).1 (h ▸ hc)
  rw [hsplit, List.foldl_append, List.foldl_cons, alarmSteps_undefined before fun c hc => hothers c (hne c hc)]
  refine alarmSteps_undefined after fun c hc => ?_
  rw [hkept c (hne' c hc)]
  exact hothers c (hne' c hc)

end

/-- An alarm's counts after an evaluation with value f. -/
def AlarmState.fed (x : AlarmState) (f : Option Int) : AlarmState :=
  let below := tagOf x.tags 4 0 == 1
  let hys : Int := tagOf x.tags 5 0
  let la := alarmLevel x.tags 2
  let ld := alarmLevel x.tags 3
  let next (b : Bool) (n : Nat) : Nat := if b then n + 1 else 0
  { x with
    overA := next (beyondLevel below f la) x.overA, overD := next (beyondLevel below f ld) x.overD, inA := next (withinLevel below hys f la) x.inA,
    inD := next (withinLevel below hys f ld) x.inD }

/-- The Blaze of an alarm that rises to danger (13 R332). -/
def dangerBlaze (x : AlarmState) (a : Fin 32) (proc slot : Nat) (b : HistRec) (v : Nat) : Blaze :=
  { src := 0x20 + proc, kind := 2, sev := tagOf x.tags 8 10, slot := slot, t := b.t, ssn := b.ssn, val0 := (BitVec.ofNat 32 v).toInt,
    val1 := (tagOf x.tags 1 0 * 65536 + a.val : Nat) }

/-- The module with alarm a at danger. -/
def State.endangered (s : State) (a : Fin 32) (y : AlarmState) : State := ((s.modAlarm a fun _ => y).set (alarmField a) 2).event AN_EVT_ALARM

section
variable {s : State} {a : Fin 32} {proc slot v : Nat} {b : HistRec}

/-- An alarm beyond its danger level for its delay is at danger next (13 R331). -/
theorem alarmNext_danger {x : AlarmState} {st : Nat} (hst : st < 2)
    (hbeyond : beyondLevel (tagOf x.tags 4 0 == 1) (f32 v) (alarmLevel x.tags 3) = true) (hdelay : tagOf x.tags 6 1 ≤ x.overD + 1) :
    alarmNext (x.fed (f32 v)) st = 2 := by
  have hover : (x.fed (f32 v)).overD = x.overD + 1 := if_pos hbeyond
  have htags : (x.fed (f32 v)).tags = x.tags := rfl
  unfold alarmNext
  dsimp only
  rw [htags, hover, if_pos ⟨hst, hdelay⟩]

/-- Alarm a, that was x, answers a change of its state from st to nx (13 R331, R332). -/
def alarmAnswer (u : State) (x : AlarmState) (a : Fin 32) (proc slot : Nat) (b : HistRec) (v nx st : Nat) : State :=
  if nx = st ∨ u.mode = 9 then u
  else
    let kind := if st < nx then nx else if nx = 1 then 3 else 4
    let sev := if kind = 1 then tagOf x.tags 7 6 else if kind = 2 then tagOf x.tags 8 10 else 2
    issueBlaze ((u.set (alarmField a) nx).event AN_EVT_ALARM)
      { src := 0x20 + proc, kind := kind, sev := sev, slot := slot, t := b.t, ssn := b.ssn, val0 := (BitVec.ofNat 32 v).toInt,
        val1 := (tagOf x.tags 1 0 * 65536 + a.val : Nat) }

theorem alarmEval_eq : alarmEval s a proc slot b v =
    alarmAnswer (s.modAlarm a fun _ => s.an.alarms[a].fed (f32 v)) s.an.alarms[a] a proc slot b v (alarmNext (s.an.alarms[a].fed (f32 v)) (s.get (alarmField a)))
      (s.get (alarmField a)) := rfl

theorem alarmAnswer_danger {u : State} {x : AlarmState} {st : Nat} (hst : st < 2) (hmode : u.mode ≠ 9) :
    alarmAnswer u x a proc slot b v 2 st = issueBlaze ((u.set (alarmField a) 2).event AN_EVT_ALARM) (dangerBlaze x a proc slot b v) := by
  unfold alarmAnswer
  dsimp only
  rw [if_neg (by omega), if_pos hst]
  rfl

theorem alarmEval_danger (hst : s.get (alarmField a) < 2) (hmode : s.mode ≠ 9)
    (hbeyond : beyondLevel (tagOf s.an.alarms[a].tags 4 0 == 1) (f32 v) (alarmLevel s.an.alarms[a].tags 3) = true)
    (hdelay : tagOf s.an.alarms[a].tags 6 1 ≤ s.an.alarms[a].overD + 1) :
    alarmEval s a proc slot b v = issueBlaze (s.endangered a (s.an.alarms[a].fed (f32 v))) (dangerBlaze s.an.alarms[a] a proc slot b v) := by
  rw [alarmEval_eq, alarmNext_danger hst hbeyond hdelay]
  exact alarmAnswer_danger (u := s.modAlarm a fun _ => s.an.alarms[a].fed (f32 v)) hst hmode

theorem issueBlaze_network {bz : Blaze} (hlimit : blazeCount s bz.src < s.get BZ_CFG_PERSEC) (hroute : ownRoute s bz.src = 16) :
    issueBlaze s bz = { countBlaze s bz with blaze := { (countBlaze s bz).blaze with out := s.blaze.out ++ [stampBlaze s bz] } } := by
  have hallowed : blazeLimited s bz = false := by
    simp only [blazeLimited, Bool.and_eq_false_iff, decide_eq_false_iff_not]
    exact .inr (by omega)
  rw [issueBlaze, hallowed, hroute]
  rfl

end

/-- An alarm of the outputs of setup n's evaluation at danger, with its Blaze on the way to the ports. -/
def State.dangerRaised (u : State) (a : Fin 32) (y : AlarmState) (bz : Blaze) : State :=
  let q := u.endangered a y
  { countBlaze q bz with blaze := { (countBlaze q bz).blaze with out := u.blaze.out ++ [stampBlaze q bz] } }

section
variable (u : State) (a : Fin 32) (y : AlarmState) (bz : Blaze)

theorem alarmField_ok : (alarmField a).ok := by simp only [Field.ok, alarmField]; omega

theorem alarmField_word : (alarmField a).word < 0x1906 := by simp only [alarmField]; omega

theorem endangered_state : (u.endangered a y).get (alarmField a) = 2 :=
  (State.get_event_ne _ _ _ (by decide) (.inl (by simp only [alarmField, AN_EVT_ALARM]; omega))).trans (State.get_set_same _ _ _ (alarmField_ok a))

theorem endangered_event : (u.endangered a y).get AN_EVT_ALARM = 1 := State.get_event_same _ _ (by decide) rfl

theorem endangered_get (g : Field) (h : g.word < 0x1902) : (u.endangered a y).get g = u.get g :=
  (State.get_event_ne _ _ _ (by decide) (.inl (by simp only [AN_EVT_ALARM]; omega))).trans
    (State.get_set_ne _ _ _ _ (alarmField_ok a) (.inl (by simp only [alarmField]; omega)))

theorem endangered_regs : sameBut [alarmField a, AN_EVT_ALARM] u (u.endangered a y) :=
  sameBut_trans (sameBut_set _ _ _ _ (alarmField_ok a) (by simp)) (sameBut_event _ _ _ (by decide) (by simp))

theorem dangerRaised_get (g : Field) (h : g.word ≠ 0x1304) : (u.dangerRaised a y bz).get g = (u.endangered a y).get g :=
  State.get_set_ne _ _ _ _ (by decide) (.inl (Ne.symm h))

theorem dangerRaised_regs : sameBut [alarmField a, AN_EVT_ALARM, BZ_SEQ_NEXT] u (u.dangerRaised a y bz) :=
  sameBut_trans (sameBut_mono (endangered_regs u a y) (by simp)) (sameBut_set _ (u.endangered a y) BZ_SEQ_NEXT _ (by decide) (by simp))

theorem dangerRaised_rest : { u.dangerRaised a y bz with regs := u.regs, an := u.an, blaze := u.blaze, fresh := u.fresh } = u := rfl

theorem dangerRaised_out : (u.dangerRaised a y bz).blaze.out = u.blaze.out ++ [stampBlaze (u.endangered a y) bz] := rfl

theorem dangerRaised_otherAlarm (c : Fin 32) (h : c ≠ a) : (u.dangerRaised a y bz).an.alarms[c] = u.an.alarms[c] :=
  Vector.getElem_set_ne a.isLt c.isLt fun e => h (Fin.ext e.symm)

end

theorem ownRoute_endangered (u : State) (a : Fin 32) (y : AlarmState) (src : Nat) : ownRoute (u.endangered a y) src = ownRoute u src := by
  have hset : (u.endangered a y).word 0x1301 = u.word 0x1301 :=
    (State.word_setWord_ne _ _ _ _ (by decide)).trans (State.word_setWord_ne _ _ _ _ (by simp only [alarmField]; omega))
  simp only [ownRoute, hset]

/-- The Blaze of alarm a at danger by output j of setup n's evaluation. -/
def outputDanger (s : State) (n : Fin 32) (b : HistRec) (a : Fin 32) (j : Nat) : Blaze :=
  dangerBlaze s.an.alarms[a] a s.an.setups[n].proc s.an.setups[n].slot b ((outputValues s n j).headD 0).toNat

/-- The module after setup n's evaluation with alarm a at danger by its output j. -/
def State.outputEndangers (s : State) (n : Fin 32) (b : HistRec) (a : Fin 32) (j : Nat) : State :=
  (s.blockEvaluated n b).dangerRaised a (s.an.alarms[a].fed (f32 ((outputValues s n j).headD 0).toNat)) (outputDanger s n b a j)

/-- Output j of setup n's evaluation is beyond alarm a's danger level for its delay, and its Blaze may go to the ports alone. -/
structure DangerDue (s : State) (n a : Fin 32) (j : Nat) : Prop where
  watched : tagOf s.an.alarms[a].tags 1 0 = n.val * 256 + j
  output : j ∈ s.an.setups[n].outputs
  mode : s.mode ≠ 9
  below : s.get (alarmField a) < 2
  beyond : beyondLevel (tagOf s.an.alarms[a].tags 4 0 == 1) (f32 ((outputValues s n j).headD 0).toNat) (alarmLevel s.an.alarms[a].tags 3) = true
  delay : tagOf s.an.alarms[a].tags 6 1 ≤ s.an.alarms[a].overD + 1
  limit : blazeCount s (0x20 + s.an.setups[n].proc) < s.get BZ_CFG_PERSEC
  route : ownRoute s (0x20 + s.an.setups[n].proc) = 16

section
variable {s : State} {n a : Fin 32} {b : HistRec} {j : Nat} (h : DangerDue s n a j)
include h

theorem issueBlaze_endangered (y : AlarmState) :
    issueBlaze ((s.blockEvaluated n b).endangered a y) (outputDanger s n b a j) = (s.blockEvaluated n b).dangerRaised a y (outputDanger s n b a j) := by
  have hpersec : ((s.blockEvaluated n b).endangered a y).get BZ_CFG_PERSEC = s.get BZ_CFG_PERSEC :=
    (endangered_get _ a y _ (by decide)).trans (blockEvaluated_getBelow s n b _ (by decide))
  have hword : (s.blockEvaluated n b).word 0x1301 = s.word 0x1301 := State.word_setWord_ne _ _ _ _ (by simp only [AN_EVAL]; omega)
  have hroute : ownRoute (s.blockEvaluated n b) (0x20 + s.an.setups[n].proc) = 16 := by
    have hsame : ownRoute (s.blockEvaluated n b) (0x20 + s.an.setups[n].proc) = ownRoute s (0x20 + s.an.setups[n].proc) := by simp only [ownRoute, hword]
    exact hsame.trans h.route
  exact issueBlaze_network (by rw [hpersec]; exact h.limit) ((ownRoute_endangered _ a y _).trans hroute)

theorem alarmStep_danger (hdefined : s.an.alarms[a].tags ≠ []) :
    alarmStep s.an.setups[n] b (blockFeatures s n b) (s.blockEvaluated n b) a = s.outputEndangers n b a j := by
  have hfid : (blockFeatures s n b).find? (fun e => e.fid == tagOf s.an.alarms[a].tags 1 0) = some (blockFeature s n b j) := by
    rw [h.watched]
    exact blockFeatures_findFid h.output
  have hbelow : (s.blockEvaluated n b).get (alarmField a) < 2 := by
    rw [blockEvaluated_getBelow s n b _ (by have := alarmField_word a; omega)]
    exact h.below
  have hmode : (s.blockEvaluated n b).mode ≠ 9 := by
    rw [State.mode, blockEvaluated_getBelow s n b _ (by decide)]
    exact h.mode
  rw [alarmStep_watched (u := s.blockEvaluated n b) hdefined hfid]
  exact (alarmEval_danger hbelow hmode h.beyond h.delay).trans (issueBlaze_endangered h _)

end

/-! What the module shows then. -/

section
variable (s : State) (n : Fin 32) (b : HistRec) (a : Fin 32) (j : Nat)

theorem outputEndangers_state : (s.outputEndangers n b a j).get (alarmField a) = 2 :=
  (dangerRaised_get _ a _ _ _ (by have := alarmField_word a; simp only [alarmField]; omega)).trans (endangered_state _ a _)

theorem outputEndangers_event : (s.outputEndangers n b a j).get AN_EVT_ALARM = 1 :=
  (dangerRaised_get _ a _ _ _ (by decide)).trans (endangered_event _ a _)

theorem outputEndangers_regs : sameBut [AN_EVAL n, alarmField a, AN_EVT_ALARM, BZ_SEQ_NEXT] s (s.outputEndangers n b a j) :=
  sameBut_trans (sameBut_mono (blockEvaluated_regs s n b) (by simp)) (sameBut_mono (dangerRaised_regs _ a _ _) (by simp))

theorem outputEndangers_out : (s.outputEndangers n b a j).blaze.out = s.blaze.out ++ [stampBlaze ((s.blockEvaluated n b).endangered a (s.an.alarms[a].fed (f32 ((outputValues s n j).headD 0).toNat))) (outputDanger s n b a j)] :=
  dangerRaised_out _ a _ _

theorem outputEndangers_rest : { s.outputEndangers n b a j with regs := s.regs, an := s.an, blaze := s.blaze, fresh := s.fresh } = s := by
  have hraised := dangerRaised_rest (s.blockEvaluated n b) a (s.an.alarms[a].fed (f32 ((outputValues s n j).headD 0).toNat)) (outputDanger s n b a j)
  exact (congrArg (fun x : State => { x with regs := s.regs, an := s.an, fresh := s.fresh }) hraised).trans (blockEvaluated_rest s n b)

theorem outputEndangers_otherAlarm (c : Fin 32) (h : c ≠ a) : (s.outputEndangers n b a j).an.alarms[c] = s.an.alarms[c] :=
  (dangerRaised_otherAlarm (s.blockEvaluated n b) a _ _ c h).trans rfl

end

section
variable {s : State} {n a : Fin 32} {b : HistRec} {j : Nat}

/-- What the Blaze of an alarm at danger says where setup n runs on analysis processor 0 (13 R332). -/
theorem outputDanger_shown {u : State} (hproc : s.an.setups[n].proc = 0) (hwatched : tagOf s.an.alarms[a].tags 1 0 = n.val * 256 + j) :
    (fun b : Blaze => (b.src, b.kind, b.sev, b.slot, b.val0, b.val1)) (stampBlaze u (outputDanger s n b a j)) =
      (0x20, 2, tagOf s.an.alarms[a].tags 8 10, s.an.setups[n].slot.val, ((outputValues s n j).headD 0).toInt, ((n.val * 256 + j) * 65536 + a.val : Int)) := by
  have hval0 : (BitVec.ofNat 32 ((outputValues s n j).headD 0).toNat).toInt = ((outputValues s n j).headD 0).toInt := by rw [BitVec.ofNat_toNat, BitVec.setWidth_eq]
  have hval1 : ((tagOf s.an.alarms[a].tags 1 0 * 65536 + a.val : Nat) : Int) = (n.val * 256 + j) * 65536 + a.val := by rw [hwatched]; push_cast; rfl
  have hsrc : 0x20 + s.an.setups[n].proc = 0x20 := by rw [hproc]
  simp only [stampBlaze, outputDanger, dangerBlaze, hval0, hval1, hsrc]

/-- Where alarm a alone is defined, an evaluation that brings it to danger feeds only it. -/
theorem DangerDue.fed (h : DangerDue s n a j) (hdefined : s.an.alarms[a].tags ≠ []) (hothers : ∀ c : Fin 32, c ≠ a → s.an.alarms[c].tags = [])
    (hrearm : s.an.released + s.get AN_CFG_REARM * 8000000000 ≤ b.t) :
    feedAlarms (s.blockEvaluated n b) s.an.setups[n] b (blockFeatures s n b) = s.outputEndangers n b a j := by
  have hget : (s.blockEvaluated n b).get AN_CFG_REARM = s.get AN_CFG_REARM := blockEvaluated_getBelow s n b _ (by decide)
  have hstep := alarmStep_danger (b := b) h hdefined
  rw [feedAlarms_steps (u := s.blockEvaluated n b) (by rw [hget]; exact hrearm), alarmSteps_one (u := s.blockEvaluated n b) hothers, hstep]
  rw [hstep]
  exact outputEndangers_otherAlarm s n b a j

end

/-! ### Trend points and dumps (13 R330) -/

theorem exec_anTrendPoint {s : State} {n : Fin 32} (hruns : setupRuns s n = true) (hroute : s.an.setups[n].route.testBit 1 = true)
    (hover : trendOver s s.an.setups[n] = true) :
    exec (.anTrendPoint n) s = .next (closeTrend s n fun t => t.at_ + s.an.setups[n].trsec * 8000000000) := by
  change execAnTrendPoint n s = _
  rw [execAnTrendPoint, hruns, hroute, hover]
  rfl

theorem closeTrend_trends (s : State) (n : Fin 32) (next : Trend → Nat) :
    (closeTrend s n next).an.setups[n].trends =
      s.an.setups[n].trends.map fun t => { points := (t.points ++ [t.point s.freeWord.1]).drop (t.points.length - 255), at_ := next t } :=
  congrArg SetupState.trends (modSetup_same s.freeWord.2 n _)

theorem closeTrend_other (s : State) (n m : Fin 32) (next : Trend → Nat) (h : m ≠ n) : (closeTrend s n next).an.setups[m] = s.an.setups[m] :=
  modSetup_ne s.freeWord.2 n m _ h

/-- The point of an interval whose values are all numbers (13 R330). -/
theorem point_of_values {p : Trend} (hodd : p.odd = false) (hcount : 0 < p.count) (free : Word) :
    p.point free = ⟨p.at_, p.count, toF32 p.lo (2 ^ 149), toF32 p.sum (p.count * 2 ^ 149), toF32 p.hi (2 ^ 149), p.q⟩ := by
  unfold Trend.point
  dsimp only
  rw [hodd, if_neg Bool.false_ne_true, if_neg (by omega)]

theorem exec_anTrendDump {s : State} {door : Initiator} {n : Fin 32} (hdoor : doorOpen s door 0x1903 = true) (hwork : s.get ID_DOMST_WSTATE = 2)
    (hlive : s.live = true) (hkey : s.keys.lineKey.isSome = true) :
    exec (.anTrendDump door n) s = .next (publishEntries s (trendEntries n s.an.setups[n]) 27 400) := by
  change execAnTrendDump door n s = _
  rw [execAnTrendDump, atDoor_open _ _ _ _ hdoor]
  have hon : workOn s = true := by rw [workOn, hwork]; rfl
  rw [hon, hlive]
  refine congrArg Host.Outcome.next ?_
  exact if_pos hkey

/-- The one stored point of an order setup's shaft speed. -/
theorem trendEntries_order {x : SetupState} {n : Nat} {p : Trend} {q : TrendPoint} (hfunc : x.func = 6) (htrends : x.trends = [p]) (hpoints : p.points = [q]) :
    trendEntries n x = [⟨n * 256 + 1, q.q, 2, q.at_, 0, x.trsec, 4, 0, [q.lo, q.mean, q.hi, toF32 q.count 1]⟩] := by
  have htag : tagOf x.tags 2 0 = 6 := hfunc
  have hscalar : scalarOutputs x.tags = [1] := by simp only [scalarOutputs, htag]
  rw [trendEntries, hscalar, htrends]
  simp [hpoints]

/-! ### A word to an engine (12 R304, 13 R329) -/

/-- The module with the word of setup n's output 0 in engine e's TX. -/
def State.wordRouted (s : State) (n : Fin 32) (b : HistRec) (e : Fin 8) : State :=
  (s.blockEvaluated n b).freeWord.2.txPushed e (mapWord s.an.setups[n] ((outputValues s n 0).headD 0).toNat s.freeWord.1)

section
variable {s : State} {n : Fin 32} {b : HistRec} {e : Fin 8}

theorem an_of_modEngine {x t : State} {l : List Field} {f : EngineState → EngineState} (h : RegFrame l (x.modEngine e f) t) : t.an = x.an :=
  (congrArg State.an h.kept :)

theorem tx_of_modEngine {x t : State} {l : List Field} {f : EngineState → EngineState} (h : RegFrame l (x.modEngine e f) t) : t.tx = x.tx :=
  (congrArg State.tx h.kept :)

theorem rest_of_modEngine_free {x t : State} {l : List Field} {f : EngineState → EngineState} (h : RegFrame l (x.modEngine e f) t) (s : State) :
    { t with regs := s.regs, an := s.an, engines := s.engines, free := s.free, fresh := s.fresh } =
      { x with regs := s.regs, an := s.an, engines := s.engines, free := s.free, fresh := s.fresh } :=
  (congrArg (fun x : State => { x with regs := s.regs, an := s.an, engines := s.engines, free := s.free, fresh := s.fresh }) h.kept :)

theorem freeWord_rest (s : State) (n : Fin 32) (b : HistRec) :
    { (s.blockEvaluated n b).freeWord.2 with regs := s.regs, an := s.an, engines := s.engines, free := s.free, fresh := s.fresh } = s := rfl

theorem blockRouted_word (hfunc : s.an.setups[n].func = 1) (h0 : s.an.setups[n].route.testBit 0 = false) (h1 : s.an.setups[n].route.testBit 1 = false)
    (h2 : s.an.setups[n].route.testBit 2 = true) (he : tagOf s.an.setups[n].tags 0xC 0 = e.val) (hroom : s.engines[e].tx.length < txDepth s e) :
    s.blockRouted (s.blockEvaluated n b) n b = s.wordRouted n b e := by
  have hmode : (s.blockEvaluated n b).get (PE_CFG_QMODE e) = s.get (PE_CFG_QMODE e) :=
    blockEvaluated_getBelow s n b _ (by simp only [PE_CFG_QMODE]; omega)
  have hdepth : txDepth (s.blockEvaluated n b).freeWord.2 e = txDepth s e := by
    change (if (s.blockEvaluated n b).get (PE_CFG_QMODE e) = 1 then 8 else if (s.blockEvaluated n b).get (PE_CFG_QMODE e) = 2 then 0 else 4) = _
    rw [hmode]
    rfl
  have hengine : Fin.ofNat 8 (tagOf s.an.setups[n].tags 0xC 0) = e := by
    rw [he]
    exact Fin.ext (Nat.mod_eq_of_lt e.isLt)
  rw [blockRouted_engine hfunc h0 h1 h2, hengine]
  exact txPush_room _ e _ (by rw [hdepth]; exact hroom)

theorem wordRouted_frame (s : State) (n : Fin 32) (b : HistRec) (e : Fin 8) :
    RegFrame [PE_TXIN e, PE_ST_TXLVL e, PE_ST_RXLVL e]
      ((s.blockEvaluated n b).freeWord.2.modEngine e fun y => y.pushed (mapWord s.an.setups[n] ((outputValues s n 0).headD 0).toNat s.freeWord.1)) (s.wordRouted n b e) :=
  txPushed_frame _ e _

theorem wordRouted_an (s : State) (n : Fin 32) (b : HistRec) (e : Fin 8) : (s.wordRouted n b e).an = (s.blockEvaluated n b).an :=
  (an_of_modEngine (wordRouted_frame s n b e)).trans rfl

section
variable (s : State) (n : Fin 32) (b : HistRec) (e : Fin 8)

theorem wordRouted_engine : (s.wordRouted n b e).engines[e] =
    s.engines[e].pushed (mapWord s.an.setups[n] ((outputValues s n 0).headD 0).toNat s.freeWord.1) :=
  (wordRouted_frame s n b e).engine_of_modEngine

theorem wordRouted_otherEngine (f : Fin 8) (h : f ≠ e) : (s.wordRouted n b e).engines[f] = s.engines[f] :=
  (wordRouted_frame s n b e).otherEngine_of_modEngine f h

theorem wordRouted_tx : (s.wordRouted n b e).tx = s.tx := (tx_of_modEngine (wordRouted_frame s n b e)).trans rfl

theorem wordRouted_count : (s.wordRouted n b e).get (PE_TXIN e) = (s.get (PE_TXIN e) + 1) % 2 ^ 32 :=
  (txPushed_txin _ e _).trans (congrArg (fun k => (k + 1) % 2 ^ 32) (blockEvaluated_getBelow s n b (PE_TXIN e) (by simp only [PE_TXIN]; omega)))

theorem wordRouted_rest :
    { s.wordRouted n b e with regs := s.regs, an := s.an, engines := s.engines, free := s.free, fresh := s.fresh } = s :=
  (rest_of_modEngine_free (wordRouted_frame s n b e) s).trans (freeWord_rest s n b)

end

end

/-! ### O42 -/

section
variable {s u : State} {n : Fin 32} {b : HistRec} (h : BlockUsed s n b)
include h

/-- An evaluation whose outputs go to u and whose alarms take nothing. -/
theorem BlockUsed.exec_unfed (hfunc : s.an.setups[n].func = 1) (hroute : s.blockRouted (s.blockEvaluated n b) n b = u)
    (hfeed : feedAlarms u s.an.setups[n] b (blockFeatures s n b) = u) :
    Machine.exec (.anEvaluation n) s = .next (u.hopped n (s.an.setups[n].hop s.slots[s.an.setups[n].slot].rate)) := by
  have hnext := h.exec (by rw [hfunc]; decide) (by rw [outputs_of_func_one hfunc]; decide)
  rwa [hroute, hfeed] at hnext

end

/-- Settles O42, branch by branch of a block that completes: a discarded block counts, a used one makes its records, which go where the route says and feed the alarms. -/
theorem analysisBlocksAreDiscardedOrEvaluated : Obligations.AnalysisBlocksAreDiscardedOrEvaluated := by
  unfold Obligations.AnalysisBlocksAreDiscardedOrEvaluated
  refine ⟨?_, ?_, ?_, ?_, ?_, ?_, ?_, ?_, ?_, ?_, ?_, ?_, ?_⟩
  · intro n k gap s hruns hcause
    have h := spoilBlock_discarded s n k gap
    rw [← completeBlock_spoilt hcause] at h
    exact ⟨_, exec_anEvaluation hruns, h.skips, h.event, h.features, h.others, by rw [h.setup]; rfl, by rw [h.setup]; rfl, by rw [h.setup]; exact Bool.true_and _,
      by rw [h.setup]; rfl, h.alarms, by rw [h.setup]; rfl, by rw [h.setup]; rfl, h.rest, h.regs⟩
  · intro n s hruns hgood hfunc hpeer hshort
    exact ⟨_, exec_anEvaluation hruns, completeBlock_waits hgood (angleSpoilt_none hfunc) hpeer hshort⟩
  · intro n s hruns hgood hangle hpeer hlong hfunc hagain
    have h := dropBlock_discarded s n false
    rw [← completeBlock_again hgood hangle hpeer hlong (by rw [hfunc]; decide) hagain] at h
    exact ⟨_, exec_anEvaluation hruns, h.skips, h.event, h.features, h.others, by rw [h.setup]; rfl, by rw [h.setup]; rfl, by rw [h.setup]; rfl, h.rest, h.regs⟩
  · intro n w s hruns hgood hangle
    have h := restartBlock_discarded s n w
    rw [← completeBlock_angleSpoilt hgood hangle] at h
    exact ⟨_, exec_anEvaluation hruns, h.skips, h.event, h.features, h.others, by rw [h.setup]; rfl, by rw [h.setup]; rfl, h.rest, h.regs⟩
  · intro n b s hruns hgood hangle hpeer hlong hfirst hlast hfunc hmode h0 h1 h2 halarms howes
    have h : BlockUsed s n b := ⟨hruns, hgood, hangle, hpeer, hlong, hfirst, hlast, hmode, howes⟩
    refine ⟨_, h.exec_unfed hfunc (blockRouted_nowhere h0 h1 h2) (feedAlarms_undefined halarms), statisticsFeatures_find hfunc rfl, ?_, ?_, ?_,
      blockEvaluated_count s n b, rfl, rfl, blockEvaluated_regs s n b⟩
    · rw [hopped_setup]
      rfl
    · exact fun m hm => (hopped_other _ n m _ hm).trans (blockEvaluated_other s n b m hm)
    · refine fun e he hother => blockFeatures_mem s n b _ _ e ?_ hother he
      rw [outputs_of_func_one hfunc]
      exact fun i hi => by have := List.mem_range.1 hi; omega
  · intro n b s hruns hgood hangle hpeer hlong hfirst hlast hfunc hmode h0 h1 h2 hkey halarms howes hfeatures hstreams hshare
    have h : BlockUsed s n b := ⟨hruns, hgood, hangle, hpeer, hlong, hfirst, hlast, hmode, howes⟩
    have hlist : blockFeatures s n b = (List.range 5).map (blockFeature s n b) := by rw [blockFeatures, outputs_of_func_one hfunc]
    have hmay : FeatureMay s (blockFeatures s n b) := ⟨setupRuns_live hruns, hkey, hfeatures, hstreams, by rw [hlist]; exact hshare⟩
    have hroute := (blockRouted_published hfunc h0 h1 h2 (hmay.blockEvaluated n b)).trans (featureSent_eq _ _ hkey)
    refine ⟨_, h.exec_unfed hfunc hroute (feedAlarms_undefined halarms), statisticsFeatures_find hfunc rfl, blockEvaluated_count s n b, ?_, rfl, rfl, rfl,
      blockEvaluated_regs s n b⟩
    rw [show (List.range 5).map (fun j => featureOf n b _ _ j (outputValues s n j)) = blockFeatures s n b from hlist.symm]
    exact featureOut_blockEvaluated_tx s n b (blockFeatures s n b)
  · intro n b t0 t1 t2 t3 t4 s hruns hgood hangle hpeer hlong hfirst hlast hfunc hmode h0 h1 h2 halarms howes htrends
    have h : BlockUsed s n b := ⟨hruns, hgood, hangle, hpeer, hlong, hfirst, hlast, hmode, howes⟩
    have hold : (s.blockEvaluated n b).an.setups[n].trends = [t0, t1, t2, t3, t4] := by rw [blockEvaluated_setup]; exact htrends
    refine ⟨_, h.exec_unfed hfunc (blockRouted_trended h0 h1 h2) (feedAlarms_undefined halarms), statisticsFeatures_find hfunc rfl, ?_, ?_, rfl, rfl,
      blockEvaluated_regs s n b⟩
    · rw [hopped_setup]
      exact trended_statistics hfunc hold _
    · exact fun m hm => (hopped_other _ n m _ hm).trans ((modSetup_ne _ n m _ hm).trans (blockEvaluated_other s n b m hm))
  · intro n b e s hruns hgood hangle hpeer hlong hfirst hlast hfunc hmode h0 h1 h2 halarms howes he hroom
    have h : BlockUsed s n b := ⟨hruns, hgood, hangle, hpeer, hlong, hfirst, hlast, hmode, howes⟩
    have hengine := congrArg EngineState.tx (wordRouted_engine s n b e)
    have hother := wordRouted_otherEngine s n b e
    have hcount := wordRouted_count s n b e
    have htx := wordRouted_tx s n b e
    have hrest := wordRouted_rest s n b e
    have han := wordRouted_an s n b e
    have hroute := blockRouted_word (b := b) hfunc h0 h1 h2 he hroom
    revert hengine hother hcount htx hrest han hroute
    generalize s.wordRouted n b e = w
    intro hengine hother hcount htx hrest han hroute
    have hfeatures : w.an.features = (blockFeatures s n b).foldl keepFeature s.an.features := by rw [han, blockEvaluated_features]
    have hundefined : ∀ a : Fin 32, w.an.alarms[a].tags = [] := by rw [han, blockEvaluated_alarms]; exact halarms
    refine ⟨_, h.exec_unfed hfunc hroute (feedAlarms_undefined hundefined), ?_, ?_, ?_, ?_, ?_, hopped_restEngines w n _ hrest⟩
    · rw [hopped_features]
      exact statisticsFeatures_find hfunc hfeatures
    · rw [hopped_engines]
      exact hengine
    · rw [hopped_engines]
      exact hother
    · rw [hopped_get]
      exact hcount
    · rw [hopped_tx]
      exact htx
  · intro n b s hruns hgood hangle hpeer hlong hfirst hlast hfunc hmode h0 h1 h2 hkey hsending halarms howes
    have h : BlockUsed s n b := ⟨hruns, hgood, hangle, hpeer, hlong, hfirst, hlast, hmode, howes⟩
    have hnext := h.exec (by rw [hfunc]; decide) (by rw [outputs_of_func_four hfunc]; decide)
    rw [blockRouted_evaluatedSkipped s n b hfunc h0 h1 h2 hkey hsending] at hnext
    have hcount := publicationSkipped_count s n b
    have heval := publicationSkipped_eval s n b
    have htx := publicationSkipped_tx s n b
    have hrest := publicationSkipped_rest s n b
    have hregs := publicationSkipped_regs s n b
    have hfeatures := publicationSkipped_features s n b
    have hfind := blockFeatures_find s n b s.an.setups[n].outputs s.an.features 0 (by rw [outputs_of_func_four hfunc]; exact List.mem_singleton.2 rfl)
    rw [Nat.add_zero] at hfind
    have hundefined : ∀ a : Fin 32, (s.publicationSkipped n b).an.alarms[a].tags = [] := by rw [publicationSkipped_alarms]; exact halarms
    revert hcount heval htx hrest hregs hfeatures hundefined hnext
    generalize s.publicationSkipped n b = w
    intro hnext hcount heval htx hrest hregs hfeatures hundefined
    rw [feedAlarms_undefined hundefined] at hnext
    refine ⟨_, hnext, ?_, ?_, ?_, ?_, hopped_rest w n _ hrest, hopped_regs w n _ hregs⟩
    · rw [hopped_get]
      exact hcount
    · rw [hopped_tx]
      exact htx
    · rw [hopped_get]
      exact heval
    · rw [hopped_features, hfeatures]
      exact hfind
  · intro n b a j s hruns hgood hangle hpeer hlong hfirst hlast hfunc hproc hmode h0 h1 h2 howes hothers hwatched hdefined hsafe hrearm hbelow hbeyond hdelay
      hlimit hroute
    have h : BlockUsed s n b := ⟨hruns, hgood, hangle, hpeer, hlong, hfirst, hlast, hmode, by rw [if_pos hproc]; exact howes⟩
    have houtput : j.val ∈ s.an.setups[n].outputs := by rw [outputs_of_func_one hfunc]; exact List.mem_range.2 j.isLt
    have hdanger : DangerDue s n a j := ⟨hwatched, houtput, hsafe, hbelow, hbeyond, hdelay, by rw [hproc]; exact hlimit, by rw [hproc]; exact hroute⟩
    have hnext := h.exec (by rw [hfunc]; decide) (by rw [outputs_of_func_one hfunc]; decide)
    rw [blockRouted_nowhere h0 h1 h2, hdanger.fed hdefined hothers hrearm] at hnext
    have hstate := outputEndangers_state s n b a j
    have hevent := outputEndangers_event s n b a j
    have hout := outputEndangers_out s n b a j
    have hrest := outputEndangers_rest s n b a j
    have hregs := outputEndangers_regs s n b a j
    revert hstate hevent hout hrest hregs hnext
    generalize s.outputEndangers n b a j = w
    intro hnext hstate hevent hout hrest hregs
    refine ⟨_, hnext, ?_, ?_, ?_, ?_, hopped_restBlaze w n _ hrest, hopped_regs w n _ hregs⟩
    · rw [hopped_get]
      exact hstate
    · rw [hopped_get]
      exact hevent
    · rw [hopped_blaze, hout, List.map_append, List.map_singleton, List.getLast?_concat]
      exact congrArg some (outputDanger_shown hproc hwatched)
    · rw [hopped_blaze, hout, List.length_append, List.length_singleton]
  · intro n b a s hruns hgood hangle hpeer hlong hfirst hlast hfunc hmode h0 h1 h2 howes hothers hdefined hearly
    have h : BlockUsed s n b := ⟨hruns, hgood, hangle, hpeer, hlong, hfirst, hlast, hmode, howes⟩
    have hrearm : (s.blockEvaluated n b).get AN_CFG_REARM = s.get AN_CFG_REARM := blockEvaluated_getBelow s n b _ (by decide)
    exact ⟨_, h.exec_unfed hfunc (blockRouted_nowhere h0 h1 h2) (feedAlarms_early (by rw [hrearm]; exact hearly)), rfl, rfl, blockEvaluated_count s n b, rfl,
      blockEvaluated_regs s n b⟩
  · intro n p s hruns hroute htrends hover hodd hcount
    refine ⟨_, exec_anTrendPoint hruns hroute hover, ?_, fun m hm => closeTrend_other s n m _ hm, rfl, rfl⟩
    rw [closeTrend_trends, htrends, List.map_singleton, point_of_values hodd hcount]
  · intro door n p q s hdoor hwork hlive hkey hfunc htrends hpoints hfeatures hstreams hshare
    have hentries := trendEntries_order (n := n) hfunc htrends hpoints
    have hmay : FeatureMay s (trendEntries n s.an.setups[n]) := ⟨hlive, hkey, hfeatures, hstreams, by rw [hentries]; exact hshare⟩
    have hsent : publishEntries s (trendEntries n s.an.setups[n]) 27 400 = s.featureOut (trendEntries n s.an.setups[n]) := by
      rw [publishEntries_one s _ 27 398 (by rw [hentries]; exact List.cons_ne_nil _ _) (by rw [hentries, List.length_singleton]; omega), queueFeature_sent hmay,
        featureSent_eq _ _ hkey]
    rw [hentries] at hsent
    exact ⟨s.featureOut _, (exec_anTrendDump hdoor hwork hlive hkey).trans (by rw [hentries, hsent]), rfl, rfl, rfl, rfl, rfl⟩

end Sys2Proof.Machine
end
